-- ==== Sys2Proof/Word.lean ====
section
/-! DEFINITION. The word of the machine: 36 bits (R1), and the plainest arithmetic on it. -/

namespace Sys2Proof

/-- A word is 36 bits, numbered 35 down to 0 (R1). -/
abbrev Word := BitVec 36

/-- The word that holds a number modulo 2^36. -/
def word (n : Nat) : Word := BitVec.ofNat 36 n

/-- The word that holds an integer in two's complement, modulo 2^36. -/
def wordInt (i : Int) : Word := BitVec.ofInt 36 i

end Sys2Proof
end

