-- ==== Sys2Proof/Config.lean ====
section
/-! DEFINITION. What one unit or one run fixes and the spec leaves open: opaque constants, so that no proof can see a
value of them. Each is named in a row of the assumption log. -/

namespace Sys2Proof.Config

/-- The 64-bit serial identity of the unit (R17: it differs from unit to unit). (DESIGN CHOICE, log 10) -/
opaque serial : Nat

/-- Whether tininess is detected after rounding: IEEE 754-2019 leaves it open for binary formats (R305). (DESIGN CHOICE, log 10) -/
opaque tinyAfterRounding : Bool

/-- Whether the fused multiply-add of an infinity and a zero with a quiet NaN addend signals invalid operation: IEEE
754-2019 leaves it open (R305). (DESIGN CHOICE, log 10) -/
opaque fmaInfZeroNan : Bool

/-- A free value: nothing constrains it. The step applies it to a counter that State holds. (DESIGN CHOICE, log 9) -/
opaque free : Nat → Nat

/-- Whether a root that is no rational number takes the upper of its two neighbours. (DESIGN CHOICE, log 8) -/
opaque sqrtUp : Rat → Bool

/-- Whether a sine takes the upper of its two neighbours, by the fraction of the quarter turn. (DESIGN CHOICE, log 8) -/
opaque sinUp : Rat → Bool

/-- Whether a cosine takes the upper of its two neighbours, by the fraction of the quarter turn. (DESIGN CHOICE, log 8) -/
opaque cosUp : Rat → Bool

/-- Whether 2π takes the upper of its two neighbours. (DESIGN CHOICE, log 8) -/
opaque twoPiUp : Bool

/-- Whether a fine angle takes the upper of its two neighbours (R204). (DESIGN CHOICE, log 8) -/
opaque atanUp : Rat → Rat → Bool

/-- The fine angle of a zero vector (R204 states none). (DESIGN CHOICE, log 8) -/
opaque atanZero : Nat

/-- Whether a number that is not whole goes to the integer above it where the spec states no rounding (R166 to R179 and the words
that show them, R206, R269). (DESIGN CHOICE, log 8) -/
opaque roundUp : Rat → Bool

/-- Whether a number half way between two values goes up where the spec says "nearest" and no more (R218). (DESIGN CHOICE, log 8) -/
opaque tieUp : Rat → Bool

/-- The delay-line tap of the PCLK cycle in which the message timestamp point of a sent frame leaves (R85). (DESIGN CHOICE, log 37) -/
opaque egressTap : Nat → Nat

/-- The delay-line tap of the PCLK cycle in which the 10 MHz input's edge of a millisecond lies (R56, R85). (DESIGN CHOICE, log 37) -/
opaque inputTap : Nat → Nat

/-- The current that a supply measures at a time, in mA, by channel and time (R231): no command brings it. (DESIGN CHOICE, log 52) -/
opaque supplyCurrent : Nat → Nat → Nat

/-- By how much the pull of XO-M has moved since it was last known, while it follows the 10 MHz input, in 2⁻¹³ ppm (R490). (DESIGN CHOICE, log 93) -/
opaque pullDrift : Nat → Int

/-- How long an indicator of an Ethernet port shows a frame as traffic, in PCLK edges (R544). (DEDUCED, log 95) -/
opaque trafficShown : Nat

/-- The word of the boot ROM at an address of its overlay (R509), whose contents the spec does not state. (DESIGN CHOICE, log 105) -/
opaque bootRom : Nat → Word

/-- The epoch in which an ingress stamp that a transmit descriptor carries was taken, by counter and stamp: the descriptor does not
carry it (R88, R385). (DESIGN CHOICE, log 37) -/
opaque stampEpoch : Nat → Nat → Nat

/-- Whether a limit-set input sets its bit in demand or while healthy (R412, R423 do not say which level stands for 1). (DESIGN CHOICE, log 10) -/
opaque limitBitOnDemand : Bool

end Sys2Proof.Config
end

