-- ==== Sys2Proof/Machine/Regs.lean ====
section
/-! DEFINITION. The register map: one descriptor per register field, as the spec's register tables give it
(offset in its page or table, bit range, access type of R9, reset value), and the list of all fields of each kind of page.
A word's reset value is the sum of its fields' reset values (R9, R11: a reserved field reads 0). -/

namespace Sys2Proof.Machine

/-- The access types of a register field (R9). -/
inductive Acc where
  | rw | ro | wo | w1c | sc | sl | ol
  deriving DecidableEq, Repr

/-- One register field: the offset of its word in its page or table entry, its bit range, its access type, and its
reset value. -/
structure Fld where
  off : Nat
  hi : Nat
  lo : Nat
  acc : Acc
  rst : Nat
  deriving DecidableEq, Repr

/-! SYS0: SYS_CAP0, offset 0x10 (R17). -/
abbrev SYS_CAP0.family : Fld := ⟨0x10, 35, 24, .ro, 1441⟩
abbrev SYS_CAP0.member : Fld := ⟨0x10, 23, 16, .ro, 96⟩
abbrev SYS_CAP0.isa : Fld := ⟨0x10, 15, 8, .ro, 1⟩
abbrev SYS_CAP0.ncap : Fld := ⟨0x10, 7, 0, .ro, 7⟩
/-! SYS0: SYS_CAP1, offset 0x11 (R17). -/
abbrev SYS_CAP1.core_mhz : Fld := ⟨0x11, 35, 24, .ro, 1200⟩
abbrev SYS_CAP1.cores : Fld := ⟨0x11, 23, 16, .ro, 64⟩
abbrev SYS_CAP1.mac : Fld := ⟨0x11, 15, 12, .ro, 4⟩
abbrev SYS_CAP1.fma : Fld := ⟨0x11, 11, 8, .ro, 1⟩
/-! SYS0: SYS_CAP2, offset 0x12 (R17). -/
abbrev SYS_CAP2.channels : Fld := ⟨0x12, 27, 20, .ro, 96⟩
abbrev SYS_CAP2.positions : Fld := ⟨0x12, 19, 16, .ro, 8⟩
abbrev SYS_CAP2.ports : Fld := ⟨0x12, 15, 12, .ro, 12⟩
abbrev SYS_CAP2.legs : Fld := ⟨0x12, 11, 8, .ro, 4⟩
abbrev SYS_CAP2.pipelines : Fld := ⟨0x12, 7, 0, .ro, 24⟩
/-! SYS0: SYS_CAP3, offset 0x13 (R17). -/
abbrev SYS_CAP3.dram_log2 : Fld := ⟨0x13, 29, 24, .ro, 33⟩
abbrev SYS_CAP3.commons_log2 : Fld := ⟨0x13, 23, 18, .ro, 23⟩
abbrev SYS_CAP3.mram_log2 : Fld := ⟨0x13, 17, 12, .ro, 23⟩
abbrev SYS_CAP3.ldata_log2 : Fld := ⟨0x13, 11, 6, .ro, 16⟩
abbrev SYS_CAP3.linst_log2 : Fld := ⟨0x13, 5, 0, .ro, 14⟩
/-! SYS0: SYS_CAP4, offset 0x14 (R17). -/
abbrev SYS_CAP4.triggers : Fld := ⟨0x14, 35, 24, .ro, 1024⟩
abbrev SYS_CAP4.tasks : Fld := ⟨0x14, 23, 12, .ro, 512⟩
abbrev SYS_CAP4.levels : Fld := ⟨0x14, 11, 4, .ro, 64⟩
abbrev SYS_CAP4.timebases : Fld := ⟨0x14, 3, 0, .ro, 4⟩
/-! SYS0: SYS_CAP5, offset 0x15 (R17). -/
abbrev SYS_CAP5.ring : Fld := ⟨0x15, 31, 28, .ro, 2⟩
abbrev SYS_CAP5.spokes : Fld := ⟨0x15, 27, 24, .ro, 8⟩
abbrev SYS_CAP5.eth : Fld := ⟨0x15, 23, 20, .ro, 2⟩
abbrev SYS_CAP5.tio : Fld := ⟨0x15, 19, 12, .ro, 16⟩
abbrev SYS_CAP5.nodes : Fld := ⟨0x15, 11, 0, .ro, 2048⟩
/-! SYS0: SYS_CAP6, offset 0x16 (R17). -/
abbrev SYS_CAP6.lens : Fld := ⟨0x16, 24, 24, .ro, 1⟩
abbrev SYS_CAP6.brakes : Fld := ⟨0x16, 23, 16, .ro, 96⟩
abbrev SYS_CAP6.si : Fld := ⟨0x16, 15, 8, .ro, 32⟩
abbrev SYS_CAP6.tp : Fld := ⟨0x16, 7, 4, .ro, 8⟩
abbrev SYS_CAP6.so : Fld := ⟨0x16, 3, 0, .ro, 4⟩
/-! SYS0: SYS_SERIAL_LO, offset 0x17 (R17). -/
abbrev SYS_SERIAL_LO.serial_lo : Fld := ⟨0x17, 31, 0, .ro, 0⟩
/-! SYS0: SYS_SERIAL_HI, offset 0x18 (R17). -/
abbrev SYS_SERIAL_HI.serial_hi : Fld := ⟨0x18, 31, 0, .ro, 0⟩
/-! SYS0: SYS_ISSUE, offset 0x19 (R17). -/
abbrev SYS_ISSUE.hw_issue : Fld := ⟨0x19, 35, 24, .ro, 1⟩
abbrev SYS_ISSUE.rom : Fld := ⟨0x19, 23, 12, .ro, 1⟩
/-! SYS0: SYS_RCAUSE, offset 0x1A (R523). -/
abbrev SYS_RCAUSE.kind : Fld := ⟨0x1A, 35, 34, .ro, 0⟩
abbrev SYS_RCAUSE.src : Fld := ⟨0x1A, 33, 32, .ro, 0⟩
abbrev SYS_RCAUSE.ot : Fld := ⟨0x1A, 31, 31, .ro, 0⟩
abbrev SYS_RCAUSE.count : Fld := ⟨0x1A, 15, 0, .ro, 0⟩
/-! SYS0: SYS_RST, offset 0x1B (R523). -/
abbrev SYS_RST.key : Fld := ⟨0x1B, 35, 24, .wo, 0⟩
abbrev SYS_RST.rec_ : Fld := ⟨0x1B, 2, 2, .wo, 0⟩
abbrev SYS_RST.kind : Fld := ⟨0x1B, 1, 0, .wo, 0⟩
/-! SYS0: SYS_BOOT, offset 0x1C (R523). -/
abbrev SYS_BOOT.state : Fld := ⟨0x1C, 35, 34, .ro, 0⟩
abbrev SYS_BOOT.bank : Fld := ⟨0x1C, 33, 33, .ro, 0⟩
abbrev SYS_BOOT.slot : Fld := ⟨0x1C, 32, 32, .ro, 0⟩
abbrev SYS_BOOT.test : Fld := ⟨0x1C, 31, 31, .ro, 0⟩
abbrev SYS_BOOT.acode : Fld := ⟨0x1C, 27, 24, .ro, 0⟩
abbrev SYS_BOOT.bcode : Fld := ⟨0x1C, 23, 20, .ro, 0⟩
abbrev SYS_BOOT.ms : Fld := ⟨0x1C, 19, 0, .ro, 0⟩
/-! SYS0: SYS_SEAL, offset 0x1D (R523). -/
abbrev SYS_SEAL.go : Fld := ⟨0x1D, 35, 35, .sc, 0⟩
abbrev SYS_SEAL.sealed : Fld := ⟨0x1D, 34, 34, .ro, 0⟩
/-! SYS0: SYS_IMG, offset 0x1E (R523). -/
abbrev SYS_IMG.idn : Fld := ⟨0x1E, 35, 0, .ro, 0⟩
/-! SYS0: SYS_IMG_ISSUE, offset 0x1F (R523). -/
abbrev SYS_IMG_ISSUE.issue : Fld := ⟨0x1F, 31, 0, .ro, 0⟩

/-! HDR: PAGE_ID, offset 0x00 (R19). -/
abbrev PAGE_ID.typ : Fld := ⟨0x00, 35, 24, .ro, 0⟩
abbrev PAGE_ID.inst : Fld := ⟨0x00, 23, 12, .ro, 0⟩
abbrev PAGE_ID.version : Fld := ⟨0x00, 11, 0, .ro, 1⟩
/-! HDR: PAGE_CTL, offset 0x01 (R19). -/
abbrev PAGE_CTL.gate_ack : Fld := ⟨0x01, 3, 3, .ro, 0⟩
abbrev PAGE_CTL.gate_req : Fld := ⟨0x01, 2, 2, .rw, 0⟩
abbrev PAGE_CTL.srst : Fld := ⟨0x01, 1, 1, .sc, 0⟩
abbrev PAGE_CTL.en : Fld := ⟨0x01, 0, 0, .rw, 0⟩
/-! HDR: PAGE_STAT, offset 0x02 (R19). -/
abbrev PAGE_STAT.blk : Fld := ⟨0x02, 35, 8, .ro, 0⟩
abbrev PAGE_STAT.post_refused : Fld := ⟨0x02, 3, 3, .w1c, 0⟩
abbrev PAGE_STAT.fault : Fld := ⟨0x02, 2, 2, .ro, 0⟩
abbrev PAGE_STAT.gated : Fld := ⟨0x02, 1, 1, .ro, 0⟩
abbrev PAGE_STAT.running : Fld := ⟨0x02, 0, 0, .ro, 0⟩
/-! HDR: PAGE_EV, offset 0x03 (R19). -/
abbrev PAGE_EV.ev : Fld := ⟨0x03, 35, 0, .w1c, 0⟩
/-! HDR: PAGE_EVEN, offset 0x04 (R19). -/
abbrev PAGE_EVEN.even : Fld := ⟨0x04, 35, 0, .rw, 0⟩
/-! HDR: PAGE_EVPEND, offset 0x05 (R19). -/
abbrev PAGE_EVPEND.evpend : Fld := ⟨0x05, 35, 0, .w1c, 0⟩
/-! HDR: PAGE_POST, offset 0x06 (R19). -/
abbrev PAGE_POST.post_en : Fld := ⟨0x06, 35, 35, .rw, 0⟩
abbrev PAGE_POST.task : Fld := ⟨0x06, 8, 0, .rw, 0⟩
/-! HDR: PAGE_LOCK, offset 0x07 (R19). -/
abbrev PAGE_LOCK.sl_locked : Fld := ⟨0x07, 35, 35, .ro, 0⟩
abbrev PAGE_LOCK.ol_sealed : Fld := ⟨0x07, 34, 34, .ro, 0⟩
abbrev PAGE_LOCK.refused : Fld := ⟨0x07, 15, 0, .ro, 0⟩
/-! HDR: FC_CFG, offset 0x08 (R36). -/
abbrev FC_CFG.enable : Fld := ⟨0x08, 35, 35, .rw, 1⟩
abbrev FC_CFG.action : Fld := ⟨0x08, 15, 13, .rw, 0⟩
abbrev FC_CFG.n : Fld := ⟨0x08, 12, 5, .rw, 8⟩
abbrev FC_CFG.w : Fld := ⟨0x08, 4, 0, .rw, 10⟩
/-! HDR: FC_STAT, offset 0x09 (R37). -/
abbrev FC_STAT.lasting : Fld := ⟨0x09, 35, 35, .w1c, 0⟩
abbrev FC_STAT.total : Fld := ⟨0x09, 31, 16, .ro, 0⟩
abbrev FC_STAT.prev : Fld := ⟨0x09, 15, 8, .ro, 0⟩
abbrev FC_STAT.cur : Fld := ⟨0x09, 7, 0, .ro, 0⟩

/-! TB: TIME_TB_CTL, offset 0x10 (R63). -/
abbrev TIME_TB_CTL.load : Fld := ⟨0x10, 35, 35, .sc, 0⟩
abbrev TIME_TB_CTL.step : Fld := ⟨0x10, 34, 34, .sc, 0⟩
abbrev TIME_TB_CTL.confirm : Fld := ⟨0x10, 27, 24, .rw, 4⟩
abbrev TIME_TB_CTL.autostep : Fld := ⟨0x10, 23, 23, .rw, 1⟩
abbrev TIME_TB_CTL.servo : Fld := ⟨0x10, 22, 22, .rw, 1⟩
abbrev TIME_TB_CTL.src : Fld := ⟨0x10, 3, 0, .rw, 0⟩
/-! TB: TIME_TB_STAT, offset 0x11 (R64). -/
abbrev TIME_TB_STAT.hist : Fld := ⟨0x11, 35, 35, .ro, 0⟩
abbrev TIME_TB_STAT.locked : Fld := ⟨0x11, 34, 34, .ro, 0⟩
abbrev TIME_TB_STAT.disc : Fld := ⟨0x11, 33, 33, .w1c, 0⟩
abbrev TIME_TB_STAT.susp : Fld := ⟨0x11, 32, 32, .ro, 0⟩
abbrev TIME_TB_STAT.epoch : Fld := ⟨0x11, 31, 24, .ro, 0⟩
abbrev TIME_TB_STAT.good : Fld := ⟨0x11, 23, 16, .ro, 0⟩
abbrev TIME_TB_STAT.count : Fld := ⟨0x11, 15, 0, .ro, 0⟩
/-! TB: TIME_TB_RATE, offset 0x12 (R65). -/
abbrev TIME_TB_RATE.rate : Fld := ⟨0x12, 35, 0, .rw, 0⟩
/-! TB: TIME_TB_FREQ, offset 0x13 (R65). -/
abbrev TIME_TB_FREQ.freq : Fld := ⟨0x13, 35, 0, .rw, 0⟩
/-! TB: TIME_TB_MEAS, offset 0x14 (R65). -/
abbrev TIME_TB_MEAS.meas : Fld := ⟨0x14, 35, 0, .rw, 0⟩
/-! TB: TIME_TB_KP, offset 0x15 (R65). -/
abbrev TIME_TB_KP.kp : Fld := ⟨0x15, 35, 0, .rw, 67108864⟩
/-! TB: TIME_TB_KI, offset 0x16 (R65). -/
abbrev TIME_TB_KI.ki : Fld := ⟨0x16, 35, 0, .rw, 8388608⟩
/-! TB: TIME_TB_LOCK, offset 0x17 (R65). -/
abbrev TIME_TB_LOCK.tmo : Fld := ⟨0x17, 35, 20, .rw, 32⟩
abbrev TIME_TB_LOCK.thr : Fld := ⟨0x17, 19, 0, .rw, 6400⟩
/-! TB: TIME_TB_SET_HI, offset 0x18 (R65). -/
abbrev TIME_TB_SET_HI.sec : Fld := ⟨0x18, 35, 0, .rw, 0⟩
/-! TB: TIME_TB_SET_LO, offset 0x19 (R65). -/
abbrev TIME_TB_SET_LO.frac : Fld := ⟨0x19, 35, 0, .rw, 0⟩
/-! TB: TIME_TB_INTV, offset 0x1A (R65). -/
abbrev TIME_TB_INTV.tau : Fld := ⟨0x1A, 35, 0, .rw, 125000⟩

/-! TIME0: TIME_CT_CTL, offset 0x10 (R73). -/
abbrev TIME_CT_CTL.hold : Fld := ⟨0x10, 35, 35, .rw, 0⟩
abbrev TIME_CT_CTL.auto_ : Fld := ⟨0x10, 34, 34, .rw, 1⟩
abbrev TIME_CT_CTL.revert : Fld := ⟨0x10, 33, 30, .rw, 2⟩
abbrev TIME_CT_CTL.pri : Fld := ⟨0x10, 5, 4, .rw, 1⟩
abbrev TIME_CT_CTL.mir : Fld := ⟨0x10, 1, 0, .rw, 2⟩
/-! TIME0: TIME_CT_STAT, offset 0x11 (R74). -/
abbrev TIME_CT_STAT.valid : Fld := ⟨0x11, 35, 35, .ro, 0⟩
abbrev TIME_CT_STAT.state : Fld := ⟨0x11, 34, 32, .ro, 0⟩
abbrev TIME_CT_STAT.epoch : Fld := ⟨0x11, 31, 24, .ro, 0⟩
abbrev TIME_CT_STAT.slewing : Fld := ⟨0x11, 23, 23, .ro, 0⟩
abbrev TIME_CT_STAT.base : Fld := ⟨0x11, 1, 0, .ro, 0⟩
/-! TIME0: TIME_CT_DIFF, offset 0x12 (R75). -/
abbrev TIME_CT_DIFF.d : Fld := ⟨0x12, 35, 0, .ro, 0⟩
/-! TIME0: TIME_STEP_LIM, offset 0x13 (R75). -/
abbrev TIME_STEP_LIM.lim : Fld := ⟨0x13, 35, 0, .rw, 1000000⟩
/-! TIME0: TIME_SLEW_LIM, offset 0x14 (R75). -/
abbrev TIME_SLEW_LIM.ppm : Fld := ⟨0x14, 9, 0, .rw, 1000⟩
/-! TIME0: TIME_REEPOCH, offset 0x15 (R75). -/
abbrev TIME_REEPOCH.go : Fld := ⟨0x15, 35, 35, .sc, 0⟩
abbrev TIME_REEPOCH.base : Fld := ⟨0x15, 1, 0, .rw, 1⟩
/-! TIME0: TIME_OUT_CTL, offset 0x16 (R75). -/
abbrev TIME_OUT_CTL.pps_en : Fld := ⟨0x16, 35, 35, .rw, 0⟩
abbrev TIME_OUT_CTL.pps_tb : Fld := ⟨0x16, 34, 32, .rw, 4⟩
abbrev TIME_OUT_CTL.ten_en : Fld := ⟨0x16, 31, 31, .rw, 0⟩
abbrev TIME_OUT_CTL.ten_tb : Fld := ⟨0x16, 30, 28, .rw, 4⟩
abbrev TIME_OUT_CTL.pps_w : Fld := ⟨0x16, 19, 0, .rw, 100000⟩
/-! TIME0: TIME_IN_CTL, offset 0x17 (R75). -/
abbrev TIME_IN_CTL.pps_en : Fld := ⟨0x17, 35, 35, .rw, 0⟩
abbrev TIME_IN_CTL.pps_fall : Fld := ⟨0x17, 34, 34, .rw, 0⟩
abbrev TIME_IN_CTL.ten_en : Fld := ⟨0x17, 33, 33, .rw, 0⟩
abbrev TIME_IN_CTL.tb : Fld := ⟨0x17, 2, 0, .rw, 0⟩
/-! TIME0: TIME_PPS_IN_HI, offset 0x18 (R75). -/
abbrev TIME_PPS_IN_HI.sec : Fld := ⟨0x18, 35, 0, .ro, 0⟩
/-! TIME0: TIME_PPS_IN_LO, offset 0x19 (R75). -/
abbrev TIME_PPS_IN_LO.frac : Fld := ⟨0x19, 35, 0, .ro, 0⟩
/-! TIME0: TIME_PPS_IN_ST, offset 0x1A (R75). -/
abbrev TIME_PPS_IN_ST.st : Fld := ⟨0x1A, 35, 0, .ro, 0⟩

/-! TSU: TIME_TSU_CFG, offset 0x10 (R90). -/
abbrev TIME_TSU_CFG.en : Fld := ⟨0x10, 35, 35, .rw, 1⟩
abbrev TIME_TSU_CFG.tb : Fld := ⟨0x10, 2, 0, .rw, 0⟩
/-! TSU: TIME_TSU_ING_ADJ, offset 0x11 (R90). -/
abbrev TIME_TSU_ING_ADJ.adj : Fld := ⟨0x11, 35, 0, .rw, 0⟩
/-! TSU: TIME_TSU_EGR_ADJ, offset 0x12 (R90). -/
abbrev TIME_TSU_EGR_ADJ.adj : Fld := ⟨0x12, 35, 0, .rw, 0⟩
/-! TSU: TIME_TSU_ASYM, offset 0x13 (R90). -/
abbrev TIME_TSU_ASYM.a : Fld := ⟨0x13, 35, 0, .rw, 0⟩
/-! TSU: TIME_TSU_LINK, offset 0x14 (R90). -/
abbrev TIME_TSU_LINK.m : Fld := ⟨0x14, 35, 0, .ro, 0⟩
/-! TSU: TIME_TSU_STAT, offset 0x15 (R90). -/
abbrev TIME_TSU_STAT.level : Fld := ⟨0x15, 20, 16, .ro, 0⟩
abbrev TIME_TSU_STAT.ovf : Fld := ⟨0x15, 15, 0, .ro, 0⟩
/-! TSU: TIME_TSU_TXQ_ST, offset 0x16 (R90). -/
abbrev TIME_TSU_TXQ_ST.st : Fld := ⟨0x16, 35, 0, .ro, 0⟩
/-! TSU: TIME_TSU_TXQ_HI, offset 0x17 (R90). -/
abbrev TIME_TSU_TXQ_HI.sec : Fld := ⟨0x17, 35, 0, .ro, 0⟩
/-! TSU: TIME_TSU_TXQ_LO, offset 0x18 (R90). -/
abbrev TIME_TSU_TXQ_LO.frac : Fld := ⟨0x18, 35, 0, .ro, 0⟩

/-! TRG: TRG_TH, offset 0x00 (R93). -/
abbrev TRG_TH.sec : Fld := ⟨0x00, 35, 0, .rw, 0⟩
/-! TRG: TRG_TL, offset 0x01 (R93). -/
abbrev TRG_TL.frac : Fld := ⟨0x01, 35, 0, .rw, 0⟩
/-! TRG: TRG_CTL, offset 0x02 (R94). -/
abbrev TRG_CTL.arm : Fld := ⟨0x02, 35, 35, .rw, 0⟩
abbrev TRG_CTL.per : Fld := ⟨0x02, 34, 34, .rw, 0⟩
abbrev TRG_CTL.pidx : Fld := ⟨0x02, 33, 28, .rw, 0⟩
abbrev TRG_CTL.tb : Fld := ⟨0x02, 27, 25, .rw, 0⟩
abbrev TRG_CTL.pol : Fld := ⟨0x02, 24, 24, .rw, 0⟩
abbrev TRG_CTL.act : Fld := ⟨0x02, 23, 20, .rw, 0⟩
abbrev TRG_CTL.apost : Fld := ⟨0x02, 19, 19, .rw, 0⟩
abbrev TRG_CTL.ptask : Fld := ⟨0x02, 18, 10, .rw, 0⟩
abbrev TRG_CTL.arg : Fld := ⟨0x02, 9, 0, .rw, 0⟩
/-! TRG: TRG_ST, offset 0x03 (R95). -/
abbrev TRG_ST.armed : Fld := ⟨0x03, 35, 35, .ro, 0⟩
abbrev TRG_ST.code : Fld := ⟨0x03, 34, 32, .ro, 0⟩
abbrev TRG_ST.late : Fld := ⟨0x03, 31, 31, .w1c, 0⟩
abbrev TRG_ST.refused : Fld := ⟨0x03, 30, 30, .w1c, 0⟩
abbrev TRG_ST.gchk : Fld := ⟨0x03, 29, 29, .rw, 0⟩
abbrev TRG_ST.gen : Fld := ⟨0x03, 23, 16, .rw, 0⟩
abbrev TRG_ST.lat : Fld := ⟨0x03, 15, 8, .ro, 0⟩
abbrev TRG_ST.fires : Fld := ⟨0x03, 7, 0, .ro, 0⟩

/-! PRISM0: PRISM_STAT, offset 0x10 (R115). -/
abbrev PRISM_STAT.walk : Fld := ⟨0x10, 35, 35, .ro, 0⟩
abbrev PRISM_STAT.wtb : Fld := ⟨0x10, 34, 32, .ro, 0⟩
abbrev PRISM_STAT.armed : Fld := ⟨0x10, 10, 0, .ro, 0⟩
/-! PRISM0: PRISM_LATE_CNT, offset 0x11 (R115). -/
abbrev PRISM_LATE_CNT.n : Fld := ⟨0x11, 35, 0, .ro, 0⟩
/-! PRISM0: PRISM_LATE_LAST, offset 0x12 (R115). -/
abbrev PRISM_LATE_LAST.cause : Fld := ⟨0x12, 27, 24, .ro, 0⟩
abbrev PRISM_LATE_LAST.lat : Fld := ⟨0x12, 23, 16, .ro, 0⟩
abbrev PRISM_LATE_LAST.entry : Fld := ⟨0x12, 9, 0, .ro, 0⟩
/-! PRISM0: PRISM_REF_CNT, offset 0x13 (R115). -/
abbrev PRISM_REF_CNT.n : Fld := ⟨0x13, 35, 0, .ro, 0⟩
/-! PRISM0: PRISM_REF_LAST, offset 0x14 (R115). -/
abbrev PRISM_REF_LAST.reason : Fld := ⟨0x14, 27, 24, .ro, 0⟩
abbrev PRISM_REF_LAST.act : Fld := ⟨0x14, 23, 20, .ro, 0⟩
abbrev PRISM_REF_LAST.entry : Fld := ⟨0x14, 9, 0, .ro, 0⟩
/-! PRISM0: PRISM_ARM_LAST, offset 0x15 (R115). -/
abbrev PRISM_ARM_LAST.reason : Fld := ⟨0x15, 27, 24, .ro, 0⟩
abbrev PRISM_ARM_LAST.entry : Fld := ⟨0x15, 9, 0, .ro, 0⟩
/-! PRISM0: PRISM_DUE_HWM, offset 0x16 (R115). -/
abbrev PRISM_DUE_HWM.hwm : Fld := ⟨0x16, 10, 0, .rw, 0⟩

/-! PRISM1: PRISM_PER, offset 0x10 + 1 k, k < 64 (R116). -/
abbrev PRISM_PER.p (k : Nat) : Fld := ⟨0x10 + 1 * k, 35, 0, .rw, 0⟩
/-! PRISM1: PRISM_CAPSEQ, offset 0x5F + 16 k, k < 4 (R116). -/
abbrev PRISM_CAPSEQ.entry (k : Nat) : Fld := ⟨0x5F + 16 * k, 25, 16, .ro, 0⟩
abbrev PRISM_CAPSEQ.seq (k : Nat) : Fld := ⟨0x5F + 16 * k, 15, 0, .ro, 0⟩
/-! PRISM1: PRISM_CAP, offset 0x50 + 1 k, k < 64 (R116). -/
abbrev PRISM_CAP.w (k : Nat) : Fld := ⟨0x50 + 1 * k, 35, 0, .ro, 0⟩

/-! PRISM2: PRISM_TIO_CFG, offset 0x10 + 1 k, k < 16 (R117). -/
abbrev PRISM_TIO_CFG.oe (k : Nat) : Fld := ⟨0x10 + 1 * k, 35, 35, .ol, 0⟩
abbrev PRISM_TIO_CFG.cen (k : Nat) : Fld := ⟨0x10 + 1 * k, 34, 34, .rw, 0⟩
abbrev PRISM_TIO_CFG.cedge (k : Nat) : Fld := ⟨0x10 + 1 * k, 33, 32, .rw, 0⟩
abbrev PRISM_TIO_CFG.ctb (k : Nat) : Fld := ⟨0x10 + 1 * k, 31, 29, .rw, 0⟩
abbrev PRISM_TIO_CFG.idl (k : Nat) : Fld := ⟨0x10 + 1 * k, 28, 28, .rw, 0⟩
abbrev PRISM_TIO_CFG.pw (k : Nat) : Fld := ⟨0x10 + 1 * k, 23, 0, .rw, 6400⟩
/-! PRISM2: PRISM_TIO_CSTAT, offset 0x20 + 4 k, k < 16 (R117). -/
abbrev PRISM_TIO_CSTAT.rise (k : Nat) : Fld := ⟨0x20 + 4 * k, 35, 35, .ro, 0⟩
abbrev PRISM_TIO_CSTAT.level (k : Nat) : Fld := ⟨0x20 + 4 * k, 19, 16, .ro, 0⟩
abbrev PRISM_TIO_CSTAT.ovf (k : Nat) : Fld := ⟨0x20 + 4 * k, 15, 0, .ro, 0⟩
/-! PRISM2: PRISM_TIO_CST, offset 0x21 + 4 k, k < 16 (R117). -/
abbrev PRISM_TIO_CST.st (k : Nat) : Fld := ⟨0x21 + 4 * k, 35, 0, .ro, 0⟩
/-! PRISM2: PRISM_TIO_CHI, offset 0x22 + 4 k, k < 16 (R117). -/
abbrev PRISM_TIO_CHI.sec (k : Nat) : Fld := ⟨0x22 + 4 * k, 35, 0, .ro, 0⟩
/-! PRISM2: PRISM_TIO_CLO, offset 0x23 + 4 k, k < 16 (R117). -/
abbrev PRISM_TIO_CLO.frac (k : Nat) : Fld := ⟨0x23 + 4 * k, 35, 0, .ro, 0⟩

/-! PWM: PAGE_STAT, offset 0x02 (R151). -/
abbrev PWM_BLK.run : Fld := ⟨0x02, 35, 35, .ro, 0⟩
abbrev PWM_BLK.cal : Fld := ⟨0x02, 34, 34, .ro, 0⟩
abbrev PWM_BLK.padblk : Fld := ⟨0x02, 33, 33, .ro, 1⟩
abbrev PWM_BLK.trip : Fld := ⟨0x02, 32, 32, .ro, 0⟩
abbrev PWM_BLK.gen : Fld := ⟨0x02, 31, 31, .ro, 0⟩
abbrev PWM_BLK.owned : Fld := ⟨0x02, 30, 30, .ro, 0⟩
/-! PWM: PWM_CFG, offset 0x10 (R152). -/
abbrev PWM_CFG.kind : Fld := ⟨0x10, 35, 34, .sl, 0⟩
abbrev PWM_CFG.legen : Fld := ⟨0x10, 33, 30, .sl, 0⟩
abbrev PWM_CFG.carrier : Fld := ⟨0x10, 29, 28, .rw, 0⟩
abbrev PWM_CFG.reload : Fld := ⟨0x10, 27, 25, .rw, 0⟩
abbrev PWM_CFG.policy : Fld := ⟨0x10, 24, 24, .rw, 0⟩
abbrev PWM_CFG.track : Fld := ⟨0x10, 23, 23, .rw, 0⟩
abbrev PWM_CFG.cgrp : Fld := ⟨0x10, 22, 17, .rw, 0⟩
abbrev PWM_CFG.sgrp : Fld := ⟨0x10, 16, 11, .rw, 0⟩
/-! PWM: PWM_PER, offset 0x11 (R153). -/
abbrev PWM_PER.per : Fld := ⟨0x11, 19, 0, .rw, 0⟩
/-! PWM: PWM_PHASE, offset 0x12 (R153). -/
abbrev PWM_PHASE.ph : Fld := ⟨0x12, 24, 0, .rw, 0⟩
/-! PWM: PWM_DT, offset 0x13 (R153). -/
abbrev PWM_DT.minp : Fld := ⟨0x13, 31, 16, .rw, 640⟩
abbrev PWM_DT.dt : Fld := ⟨0x13, 15, 0, .rw, 12800⟩
/-! PWM: PWM_CMP, offset 0x14 + 1 k, k < 4 (R153). -/
abbrev PWM_CMP.m (k : Nat) : Fld := ⟨0x14 + 1 * k, 24, 0, .rw, 0⟩
/-! PWM: PWM_COMMIT, offset 0x18 (R153). -/
abbrev PWM_COMMIT.start : Fld := ⟨0x18, 2, 2, .sc, 0⟩
abbrev PWM_COMMIT.stop : Fld := ⟨0x18, 1, 1, .sc, 0⟩
abbrev PWM_COMMIT.go : Fld := ⟨0x18, 0, 0, .sc, 0⟩
/-! PWM: PWM_SHSTAT, offset 0x19 (R153). -/
abbrev PWM_SHSTAT.per_w : Fld := ⟨0x19, 35, 35, .ro, 0⟩
abbrev PWM_SHSTAT.cmp_w : Fld := ⟨0x19, 34, 31, .ro, 0⟩
/-! PWM: PWM_ACT_PER, offset 0x1A (R153). -/
abbrev PWM_ACT_PER.per : Fld := ⟨0x1A, 19, 0, .ro, 0⟩
/-! PWM: PWM_ACT_CMP, offset 0x1B + 1 k, k < 4 (R153). -/
abbrev PWM_ACT_CMP.m (k : Nat) : Fld := ⟨0x1B + 1 * k, 24, 0, .ro, 0⟩
/-! PWM: PWM_XFER, offset 0x1F (R153). -/
abbrev PWM_XFER.refused : Fld := ⟨0x1F, 31, 16, .ro, 0⟩
abbrev PWM_XFER.done : Fld := ⟨0x1F, 15, 0, .ro, 0⟩
/-! PWM: PWM_TRIP, offset 0x20 (R153). -/
abbrev PWM_TRIP.en : Fld := ⟨0x20, 35, 35, .sl, 1⟩
abbrev PWM_TRIP.blank : Fld := ⟨0x20, 31, 16, .sl, 400⟩
abbrev PWM_TRIP.filt : Fld := ⟨0x20, 7, 0, .sl, 8⟩
/-! PWM: PWM_TRK, offset 0x21 (R153). -/
abbrev PWM_TRK.err : Fld := ⟨0x21, 35, 20, .ro, 0⟩
abbrev PWM_TRK.lim : Fld := ⟨0x21, 15, 0, .rw, 1024⟩
/-! PWM: PWM_CTR, offset 0x25 (R153). -/
abbrev PWM_CTR.c : Fld := ⟨0x25, 24, 0, .ro, 0⟩
/-! PWM: PWM_ENV_DUTY, offset 0x22 (R154). -/
abbrev PWM_ENV_DUTY.hi : Fld := ⟨0x22, 26, 16, .sl, 1024⟩
abbrev PWM_ENV_DUTY.lo : Fld := ⟨0x22, 10, 0, .sl, 0⟩
/-! PWM: PWM_ENV_PER, offset 0x23 (R154). -/
abbrev PWM_ENV_PER.max : Fld := ⟨0x23, 35, 18, .sl, 262143⟩
abbrev PWM_ENV_PER.min : Fld := ⟨0x23, 17, 0, .sl, 500⟩
/-! PWM: PWM_ENV_DT, offset 0x24 (R154). -/
abbrev PWM_ENV_DT.dtmin : Fld := ⟨0x24, 15, 0, .sl, 0⟩
/-! PWM: PWM_SD_CFG, offset 0x28 (R155). -/
abbrev PWM_SD_CFG.mode : Fld := ⟨0x28, 35, 34, .rw, 0⟩
abbrev PWM_SD_CFG.osr : Fld := ⟨0x28, 33, 25, .rw, 64⟩
abbrev PWM_SD_CFG.k : Fld := ⟨0x28, 24, 21, .rw, 3⟩
abbrev PWM_SD_CFG.inen : Fld := ⟨0x28, 20, 18, .rw, 7⟩
/-! PWM: PWM_SD_GAIN, offset 0x29 + 1 k, k < 3 (R155). -/
abbrev PWM_SD_GAIN.g (k : Nat) : Fld := ⟨0x29 + 1 * k, 35, 0, .rw, 268435456⟩
/-! PWM: PWM_SD_OFF, offset 0x2C + 1 k, k < 3 (R155). -/
abbrev PWM_SD_OFF.o (k : Nat) : Fld := ⟨0x2C + 1 * k, 35, 0, .rw, 0⟩
/-! PWM: PWM_SD_RES, offset 0x30 + 1 k, k < 3 (R155). -/
abbrev PWM_SD_RES.i (k : Nat) : Fld := ⟨0x30 + 1 * k, 35, 0, .ro, 0⟩
/-! PWM: PWM_SD_STAT, offset 0x33 (R155). -/
abbrev PWM_SD_STAT.valid : Fld := ⟨0x33, 35, 35, .ro, 0⟩
abbrev PWM_SD_STAT.sat : Fld := ⟨0x33, 34, 32, .ro, 0⟩
abbrev PWM_SD_STAT.stuck : Fld := ⟨0x33, 31, 29, .ro, 0⟩
abbrev PWM_SD_STAT.seq : Fld := ⟨0x33, 15, 0, .ro, 0⟩

/-! PORT: PORT_MCLK, offset 0x10 (R156). -/
abbrev PORT_MCLK.en : Fld := ⟨0x10, 35, 35, .rw, 0⟩
abbrev PORT_MCLK.align : Fld := ⟨0x10, 34, 34, .rw, 1⟩
abbrev PORT_MCLK.run : Fld := ⟨0x10, 33, 33, .ro, 0⟩
abbrev PORT_MCLK.div : Fld := ⟨0x10, 13, 8, .rw, 20⟩
abbrev PORT_MCLK.dly : Fld := ⟨0x10, 5, 0, .rw, 4⟩
/-! PORT: PORT_DLCAL, offset 0x11 (R156). -/
abbrev PORT_DLCAL.locked : Fld := ⟨0x11, 35, 35, .ro, 0⟩
abbrev PORT_DLCAL.code : Fld := ⟨0x11, 15, 0, .ro, 0⟩
/-! PORT: PORT_IDR, offset 0x12 (R528). -/
abbrev PORT_IDR.st : Fld := ⟨0x12, 35, 34, .ro, 1⟩
abbrev PORT_IDR.r : Fld := ⟨0x12, 19, 4, .ro, 0⟩
abbrev PORT_IDR.code : Fld := ⟨0x12, 3, 0, .ro, 0⟩

/-! ALE: PAGE_STAT, offset 0x02 (R188). -/
abbrev ALE_BLK.hist : Fld := ⟨0x02, 35, 35, .ro, 0⟩
abbrev ALE_BLK.path : Fld := ⟨0x02, 34, 32, .ro, 0⟩
abbrev ALE_BLK.vsat : Fld := ⟨0x02, 31, 31, .ro, 0⟩
abbrev ALE_BLK.rclamp : Fld := ⟨0x02, 30, 30, .ro, 0⟩
abbrev ALE_BLK.dclamp : Fld := ⟨0x02, 29, 29, .ro, 0⟩
abbrev ALE_BLK.stale : Fld := ⟨0x02, 28, 28, .ro, 0⟩
abbrev ALE_BLK.envblk : Fld := ⟨0x02, 27, 27, .ro, 0⟩
/-! ALE: ALE_CFG, offset 0x10 (R189). -/
abbrev ALE_CFG.mode : Fld := ⟨0x10, 35, 33, .rw, 0⟩
abbrev ALE_CFG.asrc : Fld := ⟨0x10, 32, 31, .rw, 0⟩
abbrev ALE_CFG.ish : Fld := ⟨0x10, 30, 30, .rw, 0⟩
abbrev ALE_CFG.vbus : Fld := ⟨0x10, 29, 29, .rw, 0⟩
abbrev ALE_CFG.ff : Fld := ⟨0x10, 28, 28, .rw, 0⟩
abbrev ALE_CFG.dtc : Fld := ⟨0x10, 27, 27, .rw, 1⟩
abbrev ALE_CFG.wake : Fld := ⟨0x10, 26, 26, .rw, 0⟩
abbrev ALE_CFG.staleact : Fld := ⟨0x10, 25, 25, .rw, 0⟩
abbrev ALE_CFG.maxage : Fld := ⟨0x10, 15, 8, .rw, 0⟩
abbrev ALE_CFG.maxinv : Fld := ⟨0x10, 7, 0, .rw, 4⟩
/-! ALE: ALE_REF_D, offset 0x11 (R190). -/
abbrev ALE_REF_D.r : Fld := ⟨0x11, 35, 0, .rw, 0⟩
/-! ALE: ALE_REF_Q, offset 0x12 (R190). -/
abbrev ALE_REF_Q.r : Fld := ⟨0x12, 35, 0, .rw, 0⟩
/-! ALE: ALE_REF_CTL, offset 0x13 (R190). -/
abbrev ALE_REF_CTL.commit : Fld := ⟨0x13, 35, 35, .sc, 0⟩
abbrev ALE_REF_CTL.cpend : Fld := ⟨0x13, 34, 34, .ro, 0⟩
abbrev ALE_REF_CTL.tseq : Fld := ⟨0x13, 31, 16, .ro, 0⟩
abbrev ALE_REF_CTL.cseq : Fld := ⟨0x13, 15, 0, .ro, 0⟩
/-! ALE: ALE_THETA, offset 0x14 (R190). -/
abbrev ALE_THETA.th : Fld := ⟨0x14, 35, 0, .rw, 0⟩
/-! ALE: ALE_WREF, offset 0x15 (R190). -/
abbrev ALE_WREF.f : Fld := ⟨0x15, 35, 0, .rw, 0⟩
/-! ALE: ALE_KP_D, offset 0x16 (R190). -/
abbrev ALE_KP_D.g : Fld := ⟨0x16, 35, 0, .rw, 0⟩
/-! ALE: ALE_KI_D, offset 0x17 (R190). -/
abbrev ALE_KI_D.g : Fld := ⟨0x17, 35, 0, .rw, 0⟩
/-! ALE: ALE_KP_Q, offset 0x18 (R190). -/
abbrev ALE_KP_Q.g : Fld := ⟨0x18, 35, 0, .rw, 0⟩
/-! ALE: ALE_KI_Q, offset 0x19 (R190). -/
abbrev ALE_KI_Q.g : Fld := ⟨0x19, 35, 0, .rw, 0⟩
/-! ALE: ALE_VLIM, offset 0x1A (R190). -/
abbrev ALE_VLIM.k : Fld := ⟨0x1A, 35, 0, .rw, 16106127360⟩
/-! ALE: ALE_VDC, offset 0x1B (R190). -/
abbrev ALE_VDC.v : Fld := ⟨0x1B, 35, 0, .rw, 17179869184⟩
/-! ALE: ALE_LD, offset 0x1C (R190). -/
abbrev ALE_LD.l : Fld := ⟨0x1C, 35, 0, .rw, 0⟩
/-! ALE: ALE_LQ, offset 0x1D (R190). -/
abbrev ALE_LQ.l : Fld := ⟨0x1D, 35, 0, .rw, 0⟩
/-! ALE: ALE_PSI, offset 0x1E (R190). -/
abbrev ALE_PSI.p : Fld := ⟨0x1E, 35, 0, .rw, 0⟩
/-! ALE: ALE_ADV, offset 0x1F (R190). -/
abbrev ALE_ADV.adv : Fld := ⟨0x1F, 19, 0, .rw, 0⟩
/-! ALE: ALE_DTC, offset 0x20 (R190). -/
abbrev ALE_DTC.band : Fld := ⟨0x20, 35, 0, .rw, 268435456⟩
/-! ALE: ALE_AUX, offset 0x21 (R190). -/
abbrev ALE_AUX.duty : Fld := ⟨0x21, 35, 0, .rw, 0⟩
/-! ALE: ALE_COMM, offset 0x22 (R190). -/
abbrev ALE_COMM.pp : Fld := ⟨0x22, 35, 28, .rw, 1⟩
abbrev ALE_COMM.dir : Fld := ⟨0x22, 27, 27, .rw, 0⟩
/-! ALE: ALE_TOFF, offset 0x23 (R190). -/
abbrev ALE_TOFF.th : Fld := ⟨0x23, 35, 0, .rw, 0⟩
/-! ALE: ALE_STP_I, offset 0x24 (R190). -/
abbrev ALE_STP_I.irun : Fld := ⟨0x24, 35, 18, .rw, 65536⟩
abbrev ALE_STP_I.ihold : Fld := ⟨0x24, 17, 0, .rw, 32768⟩
/-! ALE: ALE_STP_CTL, offset 0x25 (R190). -/
abbrev ALE_STP_CTL.wsw : Fld := ⟨0x25, 35, 16, .rw, 4800⟩
abbrev ALE_STP_CTL.force : Fld := ⟨0x25, 15, 14, .rw, 0⟩
abbrev ALE_STP_CTL.tstill : Fld := ⟨0x25, 13, 0, .rw, 200⟩
/-! ALE: ALE_MEAS_D, offset 0x28 (R190). -/
abbrev ALE_MEAS_D.i : Fld := ⟨0x28, 35, 0, .ro, 0⟩
/-! ALE: ALE_MEAS_Q, offset 0x29 (R190). -/
abbrev ALE_MEAS_Q.i : Fld := ⟨0x29, 35, 0, .ro, 0⟩
/-! ALE: ALE_OUT_D, offset 0x2A (R190). -/
abbrev ALE_OUT_D.v : Fld := ⟨0x2A, 35, 0, .ro, 0⟩
/-! ALE: ALE_OUT_Q, offset 0x2B (R190). -/
abbrev ALE_OUT_Q.v : Fld := ⟨0x2B, 35, 0, .ro, 0⟩
/-! ALE: ALE_INT_D, offset 0x2C (R190). -/
abbrev ALE_INT_D.i : Fld := ⟨0x2C, 35, 0, .ro, 0⟩
/-! ALE: ALE_INT_Q, offset 0x2D (R190). -/
abbrev ALE_INT_Q.i : Fld := ⟨0x2D, 35, 0, .ro, 0⟩
/-! ALE: ALE_ANG, offset 0x2E (R190). -/
abbrev ALE_ANG.th : Fld := ⟨0x2E, 35, 0, .ro, 0⟩
/-! ALE: ALE_FE, offset 0x2F (R190). -/
abbrev ALE_FE.f : Fld := ⟨0x2F, 35, 0, .ro, 0⟩
/-! ALE: ALE_LAT, offset 0x30 (R190). -/
abbrev ALE_LAT.worst : Fld := ⟨0x30, 23, 16, .rw, 0⟩
abbrev ALE_LAT.last : Fld := ⟨0x30, 15, 8, .ro, 0⟩
/-! ALE: ALE_SEQ, offset 0x31 (R190). -/
abbrev ALE_SEQ.seq : Fld := ⟨0x31, 15, 0, .ro, 0⟩
/-! ALE: ALE_ENV_I, offset 0x26 (R191). -/
abbrev ALE_ENV_I.imax : Fld := ⟨0x26, 35, 18, .sl, 262143⟩
abbrev ALE_ENV_I.nq : Fld := ⟨0x26, 3, 0, .sl, 2⟩
/-! ALE: ALE_ENV_IREF, offset 0x27 (R191). -/
abbrev ALE_ENV_IREF.imag : Fld := ⟨0x27, 35, 18, .sl, 131072⟩

/-! FBK: PAGE_STAT, offset 0x02 (R228). -/
abbrev FBK_BLK.phist : Fld := ⟨0x02, 35, 35, .ro, 0⟩
abbrev FBK_BLK.shist : Fld := ⟨0x02, 34, 34, .ro, 0⟩
abbrev FBK_BLK.unc : Fld := ⟨0x02, 33, 33, .ro, 0⟩
abbrev FBK_BLK.ref : Fld := ⟨0x02, 32, 32, .ro, 0⟩
abbrev FBK_BLK.envblk : Fld := ⟨0x02, 31, 31, .ro, 0⟩
abbrev FBK_BLK.busy : Fld := ⟨0x02, 30, 30, .ro, 0⟩
abbrev FBK_BLK.supok : Fld := ⟨0x02, 29, 29, .ro, 0⟩
/-! FBK: FBK_CFG, offset 0x10 (R229). -/
abbrev FBK_CFG.mode : Fld := ⟨0x10, 35, 33, .rw, 0⟩
abbrev FBK_CFG.lgrp : Fld := ⟨0x10, 32, 27, .rw, 0⟩
abbrev FBK_CFG.dir : Fld := ⟨0x10, 26, 26, .rw, 0⟩
abbrev FBK_CFG.lfen : Fld := ⟨0x10, 25, 25, .rw, 1⟩
abbrev FBK_CFG.filt : Fld := ⟨0x10, 15, 8, .rw, 4⟩
/-! FBK: FBK_CPT, offset 0x11 (R229). -/
abbrev FBK_CPT.cpt : Fld := ⟨0x11, 27, 0, .rw, 4096⟩
/-! FBK: FBK_IDX_CFG, offset 0x12 (R229). -/
abbrev FBK_IDX_CFG.zen : Fld := ⟨0x12, 35, 35, .rw, 0⟩
abbrev FBK_IDX_CFG.zgate : Fld := ⟨0x12, 34, 32, .rw, 0⟩
abbrev FBK_IDX_CFG.policy : Fld := ⟨0x12, 31, 30, .rw, 0⟩
abbrev FBK_IDX_CFG.tol : Fld := ⟨0x12, 27, 0, .rw, 1⟩
/-! FBK: FBK_IDX_EXP, offset 0x13 (R229). -/
abbrev FBK_IDX_EXP.exp : Fld := ⟨0x13, 27, 0, .rw, 0⟩
/-! FBK: FBK_IDX_ACT, offset 0x14 (R229). -/
abbrev FBK_IDX_ACT.act : Fld := ⟨0x14, 27, 0, .ro, 0⟩
/-! FBK: FBK_IDX_ERR, offset 0x15 (R229). -/
abbrev FBK_IDX_ERR.d : Fld := ⟨0x15, 35, 0, .ro, 0⟩
/-! FBK: FBK_IDX_PHI, offset 0x16 (R229). -/
abbrev FBK_IDX_PHI.p : Fld := ⟨0x16, 35, 0, .ro, 0⟩
/-! FBK: FBK_IDX_PLO, offset 0x17 (R229). -/
abbrev FBK_IDX_PLO.p : Fld := ⟨0x17, 35, 0, .ro, 0⟩
/-! FBK: FBK_IDX_THI, offset 0x18 (R229). -/
abbrev FBK_IDX_THI.t : Fld := ⟨0x18, 35, 0, .ro, 0⟩
/-! FBK: FBK_IDX_TLO, offset 0x19 (R229). -/
abbrev FBK_IDX_TLO.t : Fld := ⟨0x19, 35, 0, .ro, 0⟩
/-! FBK: FBK_POS_SET_HI, offset 0x1A (R229). -/
abbrev FBK_POS_SET_HI.p : Fld := ⟨0x1A, 35, 0, .rw, 0⟩
/-! FBK: FBK_POS_SET_LO, offset 0x1B (R229). -/
abbrev FBK_POS_SET_LO.p : Fld := ⟨0x1B, 35, 0, .rw, 0⟩
/-! FBK: FBK_CTL, offset 0x1C (R229). -/
abbrev FBK_CTL.load : Fld := ⟨0x1C, 35, 35, .sc, 0⟩
abbrev FBK_CTL.clrunc : Fld := ⟨0x1C, 34, 34, .sc, 0⟩
/-! FBK: FBK_SPD_CFG, offset 0x1D (R229). -/
abbrev FBK_SPD_CFG.m : Fld := ⟨0x1D, 29, 24, .rw, 4⟩
abbrev FBK_SPD_CFG.tz : Fld := ⟨0x1D, 23, 0, .rw, 100000⟩
/-! FBK: FBK_SPD, offset 0x1E (R229). -/
abbrev FBK_SPD.v : Fld := ⟨0x1E, 35, 0, .ro, 0⟩
/-! FBK: FBK_POS_HI, offset 0x1F (R229). -/
abbrev FBK_POS_HI.p : Fld := ⟨0x1F, 35, 0, .ro, 0⟩
/-! FBK: FBK_POS_LO, offset 0x20 (R229). -/
abbrev FBK_POS_LO.p : Fld := ⟨0x20, 35, 0, .ro, 0⟩
/-! FBK: FBK_SC_OFF, offset 0x21 (R230). -/
abbrev FBK_SC_OFF.soff : Fld := ⟨0x21, 35, 18, .rw, 0⟩
abbrev FBK_SC_OFF.coff : Fld := ⟨0x21, 17, 0, .rw, 0⟩
/-! FBK: FBK_SC_GAIN, offset 0x22 (R230). -/
abbrev FBK_SC_GAIN.cgain : Fld := ⟨0x22, 35, 18, .rw, 65536⟩
/-! FBK: FBK_SC_AMP, offset 0x23 (R230). -/
abbrev FBK_SC_AMP.hi : Fld := ⟨0x23, 35, 18, .rw, 36864⟩
abbrev FBK_SC_AMP.lo : Fld := ⟨0x23, 17, 0, .rw, 4096⟩
/-! FBK: FBK_SC_MEAS, offset 0x24 (R230). -/
abbrev FBK_SC_MEAS.a2 : Fld := ⟨0x24, 35, 18, .ro, 0⟩
abbrev FBK_SC_MEAS.phi : Fld := ⟨0x24, 17, 0, .ro, 0⟩
/-! FBK: FBK_SER_CFG, offset 0x25 (R230). -/
abbrev FBK_SER_CFG.div : Fld := ⟨0x25, 35, 25, .rw, 40⟩
abbrev FBK_SER_CFG.gray : Fld := ⟨0x25, 24, 24, .rw, 1⟩
abbrev FBK_SER_CFG.nsl : Fld := ⟨0x25, 23, 22, .rw, 0⟩
abbrev FBK_SER_CFG.eb : Fld := ⟨0x25, 21, 20, .rw, 0⟩
abbrev FBK_SER_CFG.mt : Fld := ⟨0x25, 19, 14, .rw, 12⟩
abbrev FBK_SER_CFG.st : Fld := ⟨0x25, 13, 8, .rw, 16⟩
/-! FBK: FBK_SER_TIM, offset 0x26 (R230). -/
abbrev FBK_SER_TIM.tlat : Fld := ⟨0x26, 35, 24, .rw, 0⟩
abbrev FBK_SER_TIM.tm : Fld := ⟨0x26, 23, 16, .rw, 20⟩
abbrev FBK_SER_TIM.dly : Fld := ⟨0x26, 15, 8, .rw, 2⟩
abbrev FBK_SER_TIM.tmo : Fld := ⟨0x26, 7, 0, .rw, 32⟩
/-! FBK: FBK_BISS_LEN, offset 0x27 (R230). -/
abbrev FBK_BISS_LEN.len3 : Fld := ⟨0x27, 17, 12, .rw, 0⟩
abbrev FBK_BISS_LEN.len2 : Fld := ⟨0x27, 11, 6, .rw, 0⟩
abbrev FBK_BISS_LEN.len1 : Fld := ⟨0x27, 5, 0, .rw, 0⟩
/-! FBK: FBK_BISS_D, offset 0x28 + 1 k, k < 3 (R230). -/
abbrev FBK_BISS_D.d (k : Nat) : Fld := ⟨0x28 + 1 * k, 35, 0, .ro, 0⟩
/-! FBK: FBK_SER_STAT, offset 0x2B (R230). -/
abbrev FBK_SER_STAT.cause : Fld := ⟨0x2B, 35, 32, .ro, 0⟩
abbrev FBK_SER_STAT.err : Fld := ⟨0x2B, 27, 16, .ro, 0⟩
abbrev FBK_SER_STAT.sl : Fld := ⟨0x2B, 11, 0, .ro, 0⟩
/-! FBK: FBK_BISS_REQ, offset 0x2C (R230). -/
abbrev FBK_BISS_REQ.go : Fld := ⟨0x2C, 35, 35, .sc, 0⟩
abbrev FBK_BISS_REQ.rd : Fld := ⟨0x2C, 34, 34, .rw, 0⟩
abbrev FBK_BISS_REQ.done : Fld := ⟨0x2C, 33, 33, .ro, 0⟩
abbrev FBK_BISS_REQ.fail : Fld := ⟨0x2C, 32, 32, .ro, 0⟩
abbrev FBK_BISS_REQ.idn : Fld := ⟨0x2C, 26, 24, .rw, 0⟩
abbrev FBK_BISS_REQ.addr : Fld := ⟨0x2C, 22, 16, .rw, 0⟩
abbrev FBK_BISS_REQ.data : Fld := ⟨0x2C, 7, 0, .rw, 0⟩
/-! FBK: FBK_SER_LD, offset 0x2D (R230). -/
abbrev FBK_SER_LD.ld : Fld := ⟨0x2D, 15, 0, .ro, 0⟩
/-! FBK: FBK_CMP_HI, offset 0x30 (R231). -/
abbrev FBK_CMP_HI.p : Fld := ⟨0x30, 35, 0, .rw, 0⟩
/-! FBK: FBK_CMP_LO, offset 0x31 (R231). -/
abbrev FBK_CMP_LO.p : Fld := ⟨0x31, 35, 0, .rw, 0⟩
/-! FBK: FBK_CMP_SHI, offset 0x32 (R231). -/
abbrev FBK_CMP_SHI.p : Fld := ⟨0x32, 35, 0, .rw, 0⟩
/-! FBK: FBK_CMP_SLO, offset 0x33 (R231). -/
abbrev FBK_CMP_SLO.p : Fld := ⟨0x33, 35, 0, .rw, 0⟩
/-! FBK: FBK_CMP_CTL, offset 0x34 (R231). -/
abbrev FBK_CMP_CTL.en : Fld := ⟨0x34, 35, 35, .rw, 0⟩
abbrev FBK_CMP_CTL.out : Fld := ⟨0x34, 34, 34, .rw, 0⟩
abbrev FBK_CMP_CTL.dneg : Fld := ⟨0x34, 33, 33, .rw, 0⟩
abbrev FBK_CMP_CTL.cnt : Fld := ⟨0x34, 23, 0, .rw, 0⟩
/-! FBK: FBK_CMP_STAT, offset 0x35 (R231). -/
abbrev FBK_CMP_STAT.skip : Fld := ⟨0x35, 31, 16, .ro, 0⟩
abbrev FBK_CMP_STAT.match : Fld := ⟨0x35, 15, 0, .ro, 0⟩
/-! FBK: FBK_CMP_THI, offset 0x36 (R231). -/
abbrev FBK_CMP_THI.t : Fld := ⟨0x36, 35, 0, .ro, 0⟩
/-! FBK: FBK_CMP_TLO, offset 0x37 (R231). -/
abbrev FBK_CMP_TLO.t : Fld := ⟨0x37, 35, 0, .ro, 0⟩
/-! FBK: FBK_EMU, offset 0x38 (R231). -/
abbrev FBK_EMU.src : Fld := ⟨0x38, 28, 22, .rw, 0⟩
abbrev FBK_EMU.inv : Fld := ⟨0x38, 21, 21, .rw, 0⟩
abbrev FBK_EMU.zsel : Fld := ⟨0x38, 20, 19, .rw, 0⟩
abbrev FBK_EMU.zw : Fld := ⟨0x38, 18, 8, .rw, 40⟩
abbrev FBK_EMU.minsp : Fld := ⟨0x38, 7, 0, .rw, 20⟩
/-! FBK: FBK_EMU_CPT, offset 0x39 (R231). -/
abbrev FBK_EMU_CPT.cpt : Fld := ⟨0x39, 27, 0, .rw, 4096⟩
/-! FBK: FBK_EMU_ZPOS, offset 0x3A (R231). -/
abbrev FBK_EMU_ZPOS.f : Fld := ⟨0x3A, 35, 0, .rw, 0⟩
/-! FBK: FBK_EMU_ST, offset 0x3B (R231). -/
abbrev FBK_EMU_ST.behind : Fld := ⟨0x3B, 35, 35, .ro, 0⟩
abbrev FBK_EMU_ST.lag : Fld := ⟨0x3B, 15, 0, .ro, 0⟩
/-! FBK: FBK_SUP, offset 0x3C (R231). -/
abbrev FBK_SUP.sel : Fld := ⟨0x3C, 35, 34, .ol, 0⟩
abbrev FBK_SUP.en : Fld := ⟨0x3C, 33, 33, .rw, 0⟩
abbrev FBK_SUP.supok : Fld := ⟨0x3C, 32, 32, .ro, 0⟩
abbrev FBK_SUP.oc : Fld := ⟨0x3C, 31, 31, .ro, 0⟩
abbrev FBK_SUP.budget : Fld := ⟨0x3C, 23, 16, .rw, 35⟩
abbrev FBK_SUP.imeas : Fld := ⟨0x3C, 11, 0, .ro, 0⟩
/-! FBK: FBK_SUP_TOT, offset 0x3D (R231). -/
abbrev FBK_SUP_TOT.tot : Fld := ⟨0x3D, 15, 0, .ro, 0⟩
/-! FBK: FBK_ENV_SPD, offset 0x40 (R232). -/
abbrev FBK_ENV_SPD.vmax : Fld := ⟨0x40, 35, 0, .sl, 68719476735⟩
/-! FBK: FBK_ENV_PLO_HI, offset 0x41 (R232). -/
abbrev FBK_ENV_PLO_HI.p : Fld := ⟨0x41, 35, 0, .sl, 34359738368⟩
/-! FBK: FBK_ENV_PLO_LO, offset 0x42 (R232). -/
abbrev FBK_ENV_PLO_LO.p : Fld := ⟨0x42, 35, 0, .sl, 0⟩
/-! FBK: FBK_ENV_PHI_HI, offset 0x43 (R232). -/
abbrev FBK_ENV_PHI_HI.p : Fld := ⟨0x43, 35, 0, .sl, 34359738367⟩
/-! FBK: FBK_ENV_PHI_LO, offset 0x44 (R232). -/
abbrev FBK_ENV_PHI_LO.p : Fld := ⟨0x44, 35, 0, .sl, 68719476735⟩
/-! FBK: FBK_ENV_CTL, offset 0x45 (R232). -/
abbrev FBK_ENV_CTL.dir : Fld := ⟨0x45, 35, 34, .sl, 0⟩
abbrev FBK_ENV_CTL.pwin : Fld := ⟨0x45, 33, 33, .sl, 0⟩
abbrev FBK_ENV_CTL.sen : Fld := ⟨0x45, 32, 32, .sl, 0⟩
abbrev FBK_ENV_CTL.dtol : Fld := ⟨0x45, 23, 0, .sl, 0⟩
/-! FBK: FBK_LAT_HI, offset 0x48 (R232). -/
abbrev FBK_LAT_HI.p : Fld := ⟨0x48, 35, 0, .ro, 0⟩
/-! FBK: FBK_LAT_LO, offset 0x49 (R232). -/
abbrev FBK_LAT_LO.p : Fld := ⟨0x49, 35, 0, .ro, 0⟩
/-! FBK: FBK_LAT_SPD, offset 0x4A (R232). -/
abbrev FBK_LAT_SPD.v : Fld := ⟨0x4A, 35, 0, .ro, 0⟩
/-! FBK: FBK_LAT_THI, offset 0x4B (R232). -/
abbrev FBK_LAT_THI.t : Fld := ⟨0x4B, 35, 0, .ro, 0⟩
/-! FBK: FBK_LAT_TLO, offset 0x4C (R232). -/
abbrev FBK_LAT_TLO.t : Fld := ⟨0x4C, 35, 0, .ro, 0⟩
/-! FBK: FBK_LAT_ST, offset 0x4D (R232). -/
abbrev FBK_LAT_ST.phist : Fld := ⟨0x4D, 35, 35, .ro, 0⟩
abbrev FBK_LAT_ST.shist : Fld := ⟨0x4D, 34, 34, .ro, 0⟩
abbrev FBK_LAT_ST.unc : Fld := ⟨0x4D, 33, 33, .ro, 0⟩
abbrev FBK_LAT_ST.ref : Fld := ⟨0x4D, 32, 32, .ro, 0⟩
abbrev FBK_LAT_ST.fresh : Fld := ⟨0x4D, 31, 31, .ro, 0⟩
abbrev FBK_LAT_ST.amp : Fld := ⟨0x4D, 30, 30, .ro, 0⟩
abbrev FBK_LAT_ST.seq : Fld := ⟨0x4D, 15, 0, .ro, 0⟩

/-! PROF: PAGE_STAT, offset 0x02 (R268). -/
abbrev PROF_BLK.busy : Fld := ⟨0x02, 35, 35, .ro, 0⟩
abbrev PROF_BLK.ref : Fld := ⟨0x02, 34, 34, .ro, 0⟩
abbrev PROF_BLK.plost : Fld := ⟨0x02, 33, 33, .ro, 0⟩
abbrev PROF_BLK.ovs : Fld := ⟨0x02, 32, 32, .ro, 0⟩
abbrev PROF_BLK.envblk : Fld := ⟨0x02, 31, 31, .ro, 0⟩
abbrev PROF_BLK.hstate : Fld := ⟨0x02, 30, 28, .ro, 0⟩
abbrev PROF_BLK.limp : Fld := ⟨0x02, 27, 27, .ro, 0⟩
abbrev PROF_BLK.limn : Fld := ⟨0x02, 26, 26, .ro, 0⟩
abbrev PROF_BLK.home : Fld := ⟨0x02, 25, 25, .ro, 0⟩
abbrev PROF_BLK.strm : Fld := ⟨0x02, 24, 24, .ro, 0⟩
abbrev PROF_BLK.res : Fld := ⟨0x02, 23, 20, .ro, 0⟩
abbrev PROF_BLK.blocked : Fld := ⟨0x02, 19, 19, .ro, 0⟩
/-! PROF: PROF_CFG, offset 0x10 (R269). -/
abbrev PROF_CFG.shape : Fld := ⟨0x10, 35, 34, .rw, 1⟩
abbrev PROF_CFG.keep : Fld := ⟨0x10, 33, 33, .rw, 0⟩
abbrev PROF_CFG.psrc : Fld := ⟨0x10, 32, 32, .rw, 0⟩
abbrev PROF_CFG.lact : Fld := ⟨0x10, 31, 30, .rw, 0⟩
abbrev PROF_CFG.noref : Fld := ⟨0x10, 29, 29, .rw, 0⟩
/-! PROF: PROF_TGT_HI, offset 0x11 (R269). -/
abbrev PROF_TGT_HI.p : Fld := ⟨0x11, 35, 0, .rw, 0⟩
/-! PROF: PROF_TGT_LO, offset 0x12 (R269). -/
abbrev PROF_TGT_LO.p : Fld := ⟨0x12, 35, 0, .rw, 0⟩
/-! PROF: PROF_VMAX, offset 0x13 (R269). -/
abbrev PROF_VMAX.v : Fld := ⟨0x13, 35, 0, .rw, 655360⟩
/-! PROF: PROF_AMAX, offset 0x14 (R269). -/
abbrev PROF_AMAX.a : Fld := ⟨0x14, 35, 0, .rw, 409600⟩
/-! PROF: PROF_DMAX, offset 0x15 (R269). -/
abbrev PROF_DMAX.a : Fld := ⟨0x15, 35, 0, .rw, 409600⟩
/-! PROF: PROF_ADEC, offset 0x16 (R269). -/
abbrev PROF_ADEC.a : Fld := ⟨0x16, 35, 0, .rw, 0⟩
/-! PROF: PROF_JOG, offset 0x17 (R269). -/
abbrev PROF_JOG.v : Fld := ⟨0x17, 35, 0, .rw, 0⟩
/-! PROF: PROF_CMD, offset 0x18 (R269). -/
abbrev PROF_CMD.go : Fld := ⟨0x18, 35, 35, .sc, 0⟩
abbrev PROF_CMD.op : Fld := ⟨0x18, 34, 32, .rw, 0⟩
abbrev PROF_CMD.abort : Fld := ⟨0x18, 31, 31, .sc, 0⟩
abbrev PROF_CMD.qstop : Fld := ⟨0x18, 30, 30, .sc, 0⟩
abbrev PROF_CMD.setpos : Fld := ⟨0x18, 29, 29, .sc, 0⟩
/-! PROF: PROF_CRES, offset 0x19 (R269). -/
abbrev PROF_CRES.cres : Fld := ⟨0x19, 35, 32, .ro, 0⟩
abbrev PROF_CRES.abres : Fld := ⟨0x19, 31, 30, .ro, 0⟩
/-! PROF: PROF_POS_HI, offset 0x1A (R269). -/
abbrev PROF_POS_HI.p : Fld := ⟨0x1A, 35, 0, .ro, 0⟩
/-! PROF: PROF_POS_LO, offset 0x1B (R269). -/
abbrev PROF_POS_LO.p : Fld := ⟨0x1B, 35, 0, .ro, 0⟩
/-! PROF: PROF_VEL, offset 0x1C (R269). -/
abbrev PROF_VEL.v : Fld := ⟨0x1C, 35, 0, .ro, 0⟩
/-! PROF: PROF_ACC, offset 0x1D (R269). -/
abbrev PROF_ACC.a : Fld := ⟨0x1D, 35, 0, .ro, 0⟩
/-! PROF: PROF_POS_SET_HI, offset 0x1E (R269). -/
abbrev PROF_POS_SET_HI.p : Fld := ⟨0x1E, 35, 0, .rw, 0⟩
/-! PROF: PROF_POS_SET_LO, offset 0x1F (R269). -/
abbrev PROF_POS_SET_LO.p : Fld := ⟨0x1F, 35, 0, .rw, 0⟩
/-! PROF: PROF_STEP, offset 0x20 (R270). -/
abbrev PROF_STEP.fspt : Fld := ⟨0x20, 35, 24, .rw, 200⟩
abbrev PROF_STEP.mres : Fld := ⟨0x20, 23, 20, .rw, 4⟩
abbrev PROF_STEP.cmin : Fld := ⟨0x20, 19, 16, .rw, 0⟩
abbrev PROF_STEP.dinv : Fld := ⟨0x20, 15, 15, .rw, 0⟩
/-! PROF: PROF_STEPT, offset 0x21 (R270). -/
abbrev PROF_STEPT.pw : Fld := ⟨0x21, 35, 24, .rw, 100⟩
abbrev PROF_STEPT.minlo : Fld := ⟨0x21, 23, 12, .rw, 100⟩
abbrev PROF_STEPT.tsu : Fld := ⟨0x21, 11, 6, .rw, 10⟩
abbrev PROF_STEPT.th : Fld := ⟨0x21, 5, 0, .rw, 10⟩
/-! PROF: PROF_MRES, offset 0x22 (R270). -/
abbrev PROF_MRES.thr : Fld := ⟨0x22, 35, 0, .rw, 0⟩
/-! PROF: PROF_STEPCNT, offset 0x23 (R270). -/
abbrev PROF_STEPCNT.n : Fld := ⟨0x23, 35, 0, .ro, 0⟩
/-! PROF: PROF_STEPLAG, offset 0x24 (R270). -/
abbrev PROF_STEPLAG.lag : Fld := ⟨0x24, 15, 0, .ro, 0⟩
/-! PROF: PROF_LIM, offset 0x25 (R270). -/
abbrev PROF_LIM.r0 : Fld := ⟨0x25, 35, 34, .rw, 0⟩
abbrev PROF_LIM.r1 : Fld := ⟨0x25, 33, 32, .rw, 0⟩
abbrev PROF_LIM.pol0 : Fld := ⟨0x25, 31, 31, .rw, 0⟩
abbrev PROF_LIM.pol1 : Fld := ⟨0x25, 30, 30, .rw, 0⟩
abbrev PROF_LIM.db : Fld := ⟨0x25, 27, 16, .rw, 1000⟩
abbrev PROF_LIM.chold : Fld := ⟨0x25, 15, 0, .rw, 20000⟩
/-! PROF: PROF_HOME, offset 0x26 (R270). -/
abbrev PROF_HOME.meth : Fld := ⟨0x26, 35, 33, .rw, 0⟩
abbrev PROF_HOME.hdir : Fld := ⟨0x26, 32, 32, .rw, 0⟩
abbrev PROF_HOME.hres : Fld := ⟨0x26, 3, 0, .ro, 0⟩
/-! PROF: PROF_HOME_VS, offset 0x27 (R270). -/
abbrev PROF_HOME_VS.v : Fld := ⟨0x27, 35, 0, .rw, 0⟩
/-! PROF: PROF_HOME_VL, offset 0x28 (R270). -/
abbrev PROF_HOME_VL.v : Fld := ⟨0x28, 35, 0, .rw, 0⟩
/-! PROF: PROF_HOME_POS_HI, offset 0x29 (R270). -/
abbrev PROF_HOME_POS_HI.p : Fld := ⟨0x29, 35, 0, .rw, 0⟩
/-! PROF: PROF_HOME_POS_LO, offset 0x2A (R270). -/
abbrev PROF_HOME_POS_LO.p : Fld := ⟨0x2A, 35, 0, .rw, 0⟩
/-! PROF: PROF_HOME_MAXD, offset 0x2B (R270). -/
abbrev PROF_HOME_MAXD.d : Fld := ⟨0x2B, 35, 0, .rw, 1048576⟩
/-! PROF: PROF_HCAP_HI, offset 0x2C (R270). -/
abbrev PROF_HCAP_HI.p : Fld := ⟨0x2C, 35, 0, .ro, 0⟩
/-! PROF: PROF_HCAP_LO, offset 0x2D (R270). -/
abbrev PROF_HCAP_LO.p : Fld := ⟨0x2D, 35, 0, .ro, 0⟩
/-! PROF: PROF_SP_HI, offset 0x30 (R271). -/
abbrev PROF_SP_HI.p : Fld := ⟨0x30, 35, 0, .rw, 0⟩
/-! PROF: PROF_SP_LO, offset 0x31 (R271). -/
abbrev PROF_SP_LO.p : Fld := ⟨0x31, 35, 0, .rw, 0⟩
/-! PROF: PROF_SP_VEL, offset 0x32 (R271). -/
abbrev PROF_SP_VEL.v : Fld := ⟨0x32, 35, 0, .rw, 0⟩
/-! PROF: PROF_SP_THI, offset 0x33 (R271). -/
abbrev PROF_SP_THI.t : Fld := ⟨0x33, 35, 0, .rw, 0⟩
/-! PROF: PROF_SP_TLO, offset 0x34 (R271). -/
abbrev PROF_SP_TLO.t : Fld := ⟨0x34, 35, 0, .rw, 0⟩
/-! PROF: PROF_SP_CTL, offset 0x35 (R271). -/
abbrev PROF_SP_CTL.push : Fld := ⟨0x35, 35, 35, .sc, 0⟩
abbrev PROF_SP_CTL.level : Fld := ⟨0x35, 19, 16, .ro, 0⟩
abbrev PROF_SP_CTL.hold : Fld := ⟨0x35, 15, 0, .rw, 1000⟩
/-! PROF: PROF_LAT_HI, offset 0x38 (R271). -/
abbrev PROF_LAT_HI.p : Fld := ⟨0x38, 35, 0, .ro, 0⟩
/-! PROF: PROF_LAT_LO, offset 0x39 (R271). -/
abbrev PROF_LAT_LO.p : Fld := ⟨0x39, 35, 0, .ro, 0⟩
/-! PROF: PROF_LAT_VEL, offset 0x3A (R271). -/
abbrev PROF_LAT_VEL.v : Fld := ⟨0x3A, 35, 0, .ro, 0⟩
/-! PROF: PROF_LAT_ACC, offset 0x3B (R271). -/
abbrev PROF_LAT_ACC.a : Fld := ⟨0x3B, 35, 0, .ro, 0⟩
/-! PROF: PROF_LAT_ST, offset 0x3C (R271). -/
abbrev PROF_LAT_ST.ref : Fld := ⟨0x3C, 35, 35, .ro, 0⟩
abbrev PROF_LAT_ST.busy : Fld := ⟨0x3C, 34, 34, .ro, 0⟩
abbrev PROF_LAT_ST.seq : Fld := ⟨0x3C, 15, 0, .ro, 0⟩
/-! PROF: PROF_ENV_V, offset 0x40 (R272). -/
abbrev PROF_ENV_V.vmax : Fld := ⟨0x40, 35, 0, .sl, 68719476735⟩
/-! PROF: PROF_ENV_A, offset 0x41 (R272). -/
abbrev PROF_ENV_A.amax : Fld := ⟨0x41, 35, 0, .sl, 68719476735⟩
/-! PROF: PROF_ENV_PLO_HI, offset 0x42 (R272). -/
abbrev PROF_ENV_PLO_HI.p : Fld := ⟨0x42, 35, 0, .sl, 34359738368⟩
/-! PROF: PROF_ENV_PLO_LO, offset 0x43 (R272). -/
abbrev PROF_ENV_PLO_LO.p : Fld := ⟨0x43, 35, 0, .sl, 0⟩
/-! PROF: PROF_ENV_PHI_HI, offset 0x44 (R272). -/
abbrev PROF_ENV_PHI_HI.p : Fld := ⟨0x44, 35, 0, .sl, 34359738367⟩
/-! PROF: PROF_ENV_PHI_LO, offset 0x45 (R272). -/
abbrev PROF_ENV_PHI_LO.p : Fld := ⟨0x45, 35, 0, .sl, 68719476735⟩
/-! PROF: PROF_ENV_CTL, offset 0x46 (R272). -/
abbrev PROF_ENV_CTL.pwin : Fld := ⟨0x46, 35, 35, .sl, 0⟩
abbrev PROF_ENV_CTL.ven : Fld := ⟨0x46, 34, 34, .sl, 0⟩
abbrev PROF_ENV_CTL.aen : Fld := ⟨0x46, 33, 33, .sl, 0⟩

/-! CORE: PAGE_STAT, offset 0x02 (R315). -/
abbrev CORE_BLK.run : Fld := ⟨0x02, 35, 35, .ro, 0⟩
abbrev CORE_BLK.nmi : Fld := ⟨0x02, 34, 34, .ro, 0⟩
abbrev CORE_BLK.halted : Fld := ⟨0x02, 33, 33, .ro, 0⟩
abbrev CORE_BLK.wait : Fld := ⟨0x02, 32, 32, .ro, 0⟩
abbrev CORE_BLK.task : Fld := ⟨0x02, 20, 12, .ro, 0⟩
/-! CORE: CORE_EXC_ST, offset 0x10 (R316). -/
abbrev CORE_EXC_ST.valid : Fld := ⟨0x10, 35, 35, .w1c, 0⟩
abbrev CORE_EXC_ST.impr : Fld := ⟨0x10, 34, 34, .ro, 0⟩
abbrev CORE_EXC_ST.cause : Fld := ⟨0x10, 27, 24, .ro, 0⟩
abbrev CORE_EXC_ST.lost : Fld := ⟨0x10, 23, 16, .ro, 0⟩
abbrev CORE_EXC_ST.task : Fld := ⟨0x10, 8, 0, .ro, 0⟩
/-! CORE: CORE_EXC_PC, offset 0x11 (R316). -/
abbrev CORE_EXC_PC.pc : Fld := ⟨0x11, 13, 0, .ro, 0⟩
/-! CORE: CORE_EXC_INFO, offset 0x12 (R316). -/
abbrev CORE_EXC_INFO.info : Fld := ⟨0x12, 35, 0, .ro, 0⟩
/-! CORE: CORE_NMI_VEC, offset 0x13 (R316). -/
abbrev CORE_NMI_VEC.vec : Fld := ⟨0x13, 13, 0, .rw, 0⟩
/-! CORE: CORE_NMI, offset 0x14 (R316). -/
abbrev CORE_NMI.pend : Fld := ⟨0x14, 35, 35, .ro, 0⟩
abbrev CORE_NMI.setNow : Fld := ⟨0x14, 34, 34, .sc, 0⟩
abbrev CORE_NMI.src : Fld := ⟨0x14, 29, 28, .ro, 0⟩
abbrev CORE_NMI.count : Fld := ⟨0x14, 15, 0, .ro, 0⟩
/-! CORE: CORE_CYC, offset 0x15 (R316). -/
abbrev CORE_CYC.cyc : Fld := ⟨0x15, 35, 0, .ro, 0⟩
/-! CORE: CORE_STALL, offset 0x16 (R316). -/
abbrev CORE_STALL.n : Fld := ⟨0x16, 35, 0, .ro, 0⟩
/-! CORE: CORE_POSTREF, offset 0x17 (R316). -/
abbrev CORE_POSTREF.n : Fld := ⟨0x17, 15, 0, .ro, 0⟩
/-! CORE: CORE_OUT, offset 0x18 (R316). -/
abbrev CORE_OUT.rd : Fld := ⟨0x18, 12, 8, .ro, 0⟩
abbrev CORE_OUT.wr : Fld := ⟨0x18, 4, 0, .ro, 0⟩

/-! TSK: TSK_CFG, offset 0x00 (R322). -/
abbrev TSK_CFG.en : Fld := ⟨0x00, 35, 35, .rw, 0⟩
abbrev TSK_CFG.level : Fld := ⟨0x00, 29, 24, .rw, 0⟩
abbrev TSK_CFG.entry : Fld := ⟨0x00, 13, 0, .rw, 0⟩
/-! TSK: TSK_AFF0, offset 0x01 (R322). -/
abbrev TSK_AFF0.mask : Fld := ⟨0x01, 31, 0, .rw, 0⟩
/-! TSK: TSK_AFF1, offset 0x02 (R322). -/
abbrev TSK_AFF1.mask : Fld := ⟨0x02, 31, 0, .rw, 0⟩
/-! TSK: TSK_STAT, offset 0x03 (R324). -/
abbrev TSK_STAT.state : Fld := ⟨0x03, 35, 33, .ro, 0⟩
abbrev TSK_STAT.pend : Fld := ⟨0x03, 32, 29, .ro, 0⟩
abbrev TSK_STAT.ctxv : Fld := ⟨0x03, 28, 28, .ro, 0⟩
abbrev TSK_STAT.core : Fld := ⟨0x03, 27, 22, .ro, 0⟩
abbrev TSK_STAT.seq : Fld := ⟨0x03, 15, 0, .ro, 0⟩
/-! TSK: TSK_CNT, offset 0x04 (R325). -/
abbrev TSK_CNT.refused : Fld := ⟨0x04, 35, 24, .ro, 0⟩
abbrev TSK_CNT.cancelled : Fld := ⟨0x04, 23, 12, .ro, 0⟩
abbrev TSK_CNT.faults : Fld := ⟨0x04, 11, 0, .ro, 0⟩
/-! TSK: TSK_WWORST, offset 0x05 (R325). -/
abbrev TSK_WWORST.w : Fld := ⟨0x05, 35, 0, .ro, 0⟩
/-! TSK: TSK_WSUM, offset 0x06 (R325). -/
abbrev TSK_WSUM.s : Fld := ⟨0x06, 35, 0, .ro, 0⟩
/-! TSK: TSK_WCNT, offset 0x07 (R325). -/
abbrev TSK_WCNT.n : Fld := ⟨0x07, 23, 0, .ro, 0⟩
/-! TSK: TSK_CTX, offset 0x08 + 1 k, k < 56 (R326). -/
abbrev TSK_CTX.w (k : Nat) : Fld := ⟨0x08 + 1 * k, 35, 0, .rw, 0⟩

/-! INNK0: INNK_CMD, offset 0x10 (R350). -/
abbrev INNK_CMD.go : Fld := ⟨0x10, 35, 35, .sc, 0⟩
abbrev INNK_CMD.op : Fld := ⟨0x10, 34, 32, .rw, 0⟩
abbrev INNK_CMD.task : Fld := ⟨0x10, 8, 0, .rw, 0⟩
/-! INNK0: INNK_CMD_ST, offset 0x11 (R350). -/
abbrev INNK_CMD_ST.res : Fld := ⟨0x11, 35, 34, .ro, 0⟩
abbrev INNK_CMD_ST.removed : Fld := ⟨0x11, 19, 16, .ro, 0⟩
abbrev INNK_CMD_ST.task : Fld := ⟨0x11, 8, 0, .ro, 0⟩
/-! INNK0: INNK_PQ, offset 0x12 (R350). -/
abbrev INNK_PQ.hwm : Fld := ⟨0x12, 22, 16, .rw, 0⟩
abbrev INNK_PQ.level : Fld := ⟨0x12, 6, 0, .ro, 0⟩
/-! INNK0: INNK_STAT, offset 0x13 (R350). -/
abbrev INNK_STAT.listed : Fld := ⟨0x13, 31, 22, .ro, 0⟩
abbrev INNK_STAT.faulted : Fld := ⟨0x13, 21, 12, .ro, 0⟩
abbrev INNK_STAT.running : Fld := ⟨0x13, 6, 0, .ro, 0⟩
/-! INNK0: INNK_REF_A, offset 0x14 (R350). -/
abbrev INNK_REF_A.pfull : Fld := ⟨0x14, 35, 18, .ro, 0⟩
abbrev INNK_REF_A.qfull : Fld := ⟨0x14, 17, 0, .ro, 0⟩
/-! INNK0: INNK_REF_B, offset 0x15 (R350). -/
abbrev INNK_REF_B.dis : Fld := ⟨0x15, 35, 18, .ro, 0⟩
abbrev INNK_REF_B.canc : Fld := ⟨0x15, 17, 0, .ro, 0⟩
/-! INNK0: INNK_REF_LAST, offset 0x16 (R350). -/
abbrev INNK_REF_LAST.code : Fld := ⟨0x16, 35, 32, .ro, 0⟩
abbrev INNK_REF_LAST.cls : Fld := ⟨0x16, 31, 30, .ro, 0⟩
abbrev INNK_REF_LAST.src : Fld := ⟨0x16, 29, 16, .ro, 0⟩
abbrev INNK_REF_LAST.task : Fld := ⟨0x16, 8, 0, .ro, 0⟩
/-! INNK0: INNK_LOAD_CFG, offset 0x17 (R350). -/
abbrev INNK_LOAD_CFG.en : Fld := ⟨0x17, 35, 35, .rw, 1⟩
abbrev INNK_LOAD_CFG.w : Fld := ⟨0x17, 4, 0, .rw, 10⟩
/-! INNK0: INNK_DISP, offset 0x18 (R350). -/
abbrev INNK_DISP.n : Fld := ⟨0x18, 35, 0, .ro, 0⟩
/-! INNK0: INNK_PREEMPT, offset 0x19 (R350). -/
abbrev INNK_PREEMPT.n : Fld := ⟨0x19, 35, 0, .ro, 0⟩

/-! INNK1: INNK_LVL, offset 0x10 + 1 k, k < 64 (R351). -/
abbrev INNK_LVL.hwm (k : Nat) : Fld := ⟨0x10 + 1 * k, 25, 16, .rw, 0⟩
abbrev INNK_LVL.cur (k : Nat) : Fld := ⟨0x10 + 1 * k, 9, 0, .ro, 0⟩

/-! INNK2: INNK_LOAD, offset 0x10 + 1 k, k < 64 (R351). -/
abbrev INNK_LOAD.peak (k : Nat) : Fld := ⟨0x10 + 1 * k, 33, 17, .rw, 0⟩
abbrev INNK_LOAD.last (k : Nat) : Fld := ⟨0x10 + 1 * k, 16, 0, .ro, 0⟩

/-! NAME: NAME_LO, offset 0x00 + 2 k, k < 2048 (R357). -/
abbrev NAME_LO.serlo (k : Nat) : Fld := ⟨0x00 + 2 * k, 31, 0, .ol, 0⟩
/-! NAME: NAME_HI, offset 0x01 + 2 k, k < 2048 (R357). -/
abbrev NAME_HI.present (k : Nat) : Fld := ⟨0x01 + 2 * k, 35, 35, .ol, 0⟩
abbrev NAME_HI.cand (k : Nat) : Fld := ⟨0x01 + 2 * k, 34, 34, .ol, 0⟩
abbrev NAME_HI.serhi (k : Nat) : Fld := ⟨0x01 + 2 * k, 31, 0, .ol, 0⟩

/-! SCHED: SCHED_W0, offset 0x00 + 8 k, k < 4096 (R360). -/
abbrev SCHED_W0.valid (k : Nat) : Fld := ⟨0x00 + 8 * k, 35, 35, .ol, 0⟩
abbrev SCHED_W0.role (k : Nat) : Fld := ⟨0x00 + 8 * k, 34, 32, .ol, 0⟩
abbrev SCHED_W0.start (k : Nat) : Fld := ⟨0x00 + 8 * k, 31, 15, .ol, 0⟩
abbrev SCHED_W0.owner (k : Nat) : Fld := ⟨0x00 + 8 * k, 14, 4, .ol, 0⟩
abbrev SCHED_W0.cs (k : Nat) : Fld := ⟨0x00 + 8 * k, 3, 3, .ol, 0⟩
abbrev SCHED_W0.kind (k : Nat) : Fld := ⟨0x00 + 8 * k, 2, 0, .ol, 0⟩
/-! SCHED: SCHED_W1, offset 0x01 + 8 k, k < 4096 (R360). -/
abbrev SCHED_W1.len (k : Nat) : Fld := ⟨0x01 + 8 * k, 35, 24, .ol, 0⟩
abbrev SCHED_W1.inp (k : Nat) : Fld := ⟨0x01 + 8 * k, 23, 20, .ol, 0⟩
abbrev SCHED_W1.out (k : Nat) : Fld := ⟨0x01 + 8 * k, 19, 10, .ol, 0⟩
abbrev SCHED_W1.wrap (k : Nat) : Fld := ⟨0x01 + 8 * k, 9, 9, .ol, 0⟩
abbrev SCHED_W1.dup (k : Nat) : Fld := ⟨0x01 + 8 * k, 8, 8, .ol, 0⟩
abbrev SCHED_W1.crit (k : Nat) : Fld := ⟨0x01 + 8 * k, 7, 7, .ol, 0⟩
/-! SCHED: SCHED_W2, offset 0x02 + 8 k, k < 4096 (R360). -/
abbrev SCHED_W2.idn (k : Nat) : Fld := ⟨0x02 + 8 * k, 35, 24, .ol, 0⟩
abbrev SCHED_W2.ftime (k : Nat) : Fld := ⟨0x02 + 8 * k, 23, 7, .ol, 0⟩
/-! SCHED: SCHED_W3, offset 0x03 + 8 k, k < 4096 (R360). -/
abbrev SCHED_W3.buf (k : Nat) : Fld := ⟨0x03 + 8 * k, 35, 26, .ol, 0⟩
abbrev SCHED_W3.plen (k : Nat) : Fld := ⟨0x03 + 8 * k, 25, 15, .ol, 0⟩
abbrev SCHED_W3.post (k : Nat) : Fld := ⟨0x03 + 8 * k, 9, 9, .ol, 0⟩
abbrev SCHED_W3.task (k : Nat) : Fld := ⟨0x03 + 8 * k, 8, 0, .ol, 0⟩
/-! SCHED: SCHED_W4, offset 0x04 + 8 k, k < 4096 (R360). -/
abbrev SCHED_W4.empty (k : Nat) : Fld := ⟨0x04 + 8 * k, 35, 24, .ro, 0⟩
abbrev SCHED_W4.drop (k : Nat) : Fld := ⟨0x04 + 8 * k, 23, 12, .ro, 0⟩
abbrev SCHED_W4.ok (k : Nat) : Fld := ⟨0x04 + 8 * k, 11, 0, .ro, 0⟩

/-! RING11: RING_CP, offset 0x10 + 1 k, k < 16 (R377). -/
abbrev RING_CP.en (k : Nat) : Fld := ⟨0x10 + 1 * k, 35, 35, .rw, 0⟩
abbrev RING_CP.off (k : Nat) : Fld := ⟨0x10 + 1 * k, 34, 18, .rw, 0⟩
abbrev RING_CP.task (k : Nat) : Fld := ⟨0x10 + 1 * k, 8, 0, .rw, 0⟩

/-! RING0: RING_NODE, offset 0x10 (R389). -/
abbrev RING_NODE.nstar : Fld := ⟨0x10, 35, 30, .ol, 0⟩
/-! RING0: RING_CYC, offset 0x11 (R389). -/
abbrev RING_CYC.k : Fld := ⟨0x11, 5, 0, .ol, 4⟩
/-! RING0: RING_SPOKES, offset 0x12 (R389). -/
abbrev RING_SPOKES.len : Fld := ⟨0x12, 31, 0, .ol, 0⟩
/-! RING0: RING_GUARD, offset 0x13 (R389). -/
abbrev RING_GUARD.w : Fld := ⟨0x13, 10, 0, .ol, 100⟩
/-! RING0: RING_SYNC, offset 0x14 (R389). -/
abbrev RING_SYNC.lim : Fld := ⟨0x14, 35, 26, .rw, 50⟩
abbrev RING_SYNC.hold : Fld := ⟨0x14, 7, 0, .rw, 8⟩
/-! RING0: RING_START, offset 0x15 (R389). -/
abbrev RING_START.tl : Fld := ⟨0x15, 7, 0, .rw, 16⟩
/-! RING0: RING_STAT, offset 0x16 (R389). -/
abbrev RING_STAT.state : Fld := ⟨0x16, 35, 33, .ro, 0⟩
abbrev RING_STAT.hcause : Fld := ⟨0x16, 32, 30, .ro, 0⟩
abbrev RING_STAT.wrapped : Fld := ⟨0x16, 29, 29, .ro, 0⟩
abbrev RING_STAT.tm : Fld := ⟨0x16, 28, 28, .ro, 0⟩
abbrev RING_STAT.csaddr : Fld := ⟨0x16, 21, 11, .ro, 0⟩
abbrev RING_STAT.addr : Fld := ⟨0x16, 10, 0, .ro, 0⟩
/-! RING0: RING_HOPS, offset 0x17 (R389). -/
abbrev RING_HOPS.hpri : Fld := ⟨0x17, 15, 8, .ro, 0⟩
abbrev RING_HOPS.hctr : Fld := ⟨0x17, 7, 0, .ro, 0⟩
/-! RING0: RING_TTBASE, offset 0x18 (R389). -/
abbrev RING_TTBASE.base : Fld := ⟨0x18, 35, 0, .rw, 0⟩
/-! RING0: RING_EMPTY, offset 0x19 (R389). -/
abbrev RING_EMPTY.n : Fld := ⟨0x19, 35, 0, .ro, 0⟩
/-! RING0: RING_REINT, offset 0x1A (R389). -/
abbrev RING_REINT.n : Fld := ⟨0x1A, 35, 0, .ro, 0⟩
/-! RING0: RXQ_QBASE, offset 0x20 (R383). -/
abbrev RING_RXQ_QBASE.base : Fld := ⟨0x20, 35, 0, .rw, 0⟩
/-! RING0: RXQ_QCFG, offset 0x21 (R383). -/
abbrev RING_RXQ_QCFG.en : Fld := ⟨0x21, 35, 35, .rw, 0⟩
abbrev RING_RXQ_QCFG.lg : Fld := ⟨0x21, 34, 31, .rw, 4⟩
abbrev RING_RXQ_QCFG.post : Fld := ⟨0x21, 30, 30, .rw, 0⟩
abbrev RING_RXQ_QCFG.task : Fld := ⟨0x21, 29, 21, .rw, 0⟩
abbrev RING_RXQ_QCFG.bufsz : Fld := ⟨0x21, 7, 0, .rw, 32⟩
/-! RING0: RXQ_QHEAD, offset 0x22 (R383). -/
abbrev RING_RXQ_QHEAD.head : Fld := ⟨0x22, 11, 0, .ro, 0⟩
/-! RING0: RXQ_QTAIL, offset 0x23 (R383). -/
abbrev RING_RXQ_QTAIL.tail : Fld := ⟨0x23, 11, 0, .rw, 0⟩
/-! RING0: TXQ_QBASE, offset 0x24 (R383). -/
abbrev RING_TXQ_QBASE.base : Fld := ⟨0x24, 35, 0, .rw, 0⟩
/-! RING0: TXQ_QCFG, offset 0x25 (R383). -/
abbrev RING_TXQ_QCFG.en : Fld := ⟨0x25, 35, 35, .rw, 0⟩
abbrev RING_TXQ_QCFG.lg : Fld := ⟨0x25, 34, 31, .rw, 4⟩
abbrev RING_TXQ_QCFG.post : Fld := ⟨0x25, 30, 30, .rw, 0⟩
abbrev RING_TXQ_QCFG.task : Fld := ⟨0x25, 29, 21, .rw, 0⟩
abbrev RING_TXQ_QCFG.bufsz : Fld := ⟨0x25, 7, 0, .rw, 32⟩
/-! RING0: TXQ_QHEAD, offset 0x26 (R383). -/
abbrev RING_TXQ_QHEAD.head : Fld := ⟨0x26, 11, 0, .ro, 0⟩
/-! RING0: TXQ_QTAIL, offset 0x27 (R383). -/
abbrev RING_TXQ_QTAIL.tail : Fld := ⟨0x27, 11, 0, .rw, 0⟩

/-! RINGP: RING_P_STAT, offset 0x10 (R390). -/
abbrev RING_P_STAT.up : Fld := ⟨0x10, 35, 35, .ro, 0⟩
abbrev RING_P_STAT.broken : Fld := ⟨0x10, 34, 34, .ro, 0⟩
abbrev RING_P_STAT.wrap : Fld := ⟨0x10, 33, 33, .ro, 0⟩
abbrev RING_P_STAT.lkfail : Fld := ⟨0x10, 23, 16, .ro, 0⟩
abbrev RING_P_STAT.found : Fld := ⟨0x10, 15, 12, .ro, 0⟩
abbrev RING_P_STAT.nbr : Fld := ⟨0x10, 10, 0, .ro, 0⟩
/-! RINGP: RING_P_RXF, offset 0x11 (R390). -/
abbrev RING_P_RXF.n : Fld := ⟨0x11, 35, 0, .ro, 0⟩
/-! RINGP: RING_P_DROP, offset 0x12 (R390). -/
abbrev RING_P_DROP.n : Fld := ⟨0x12, 35, 0, .ro, 0⟩
/-! RINGP: RING_P_DLAST, offset 0x13 (R390). -/
abbrev RING_P_DLAST.reason : Fld := ⟨0x13, 35, 32, .ro, 0⟩
abbrev RING_P_DLAST.idn : Fld := ⟨0x13, 11, 0, .ro, 0⟩
/-! RINGP: RING_P_FCS, offset 0x14 (R390). -/
abbrev RING_P_FCS.n : Fld := ⟨0x14, 35, 0, .ro, 0⟩
/-! RINGP: RING_P_CRED, offset 0x15 (R390). -/
abbrev RING_P_CRED.cred : Fld := ⟨0x15, 7, 0, .ro, 128⟩
/-! RINGP: RING_P_DOWN, offset 0x16 (R390). -/
abbrev RING_P_DOWN.n : Fld := ⟨0x16, 35, 0, .ro, 0⟩

/-! ETHP: ETH_CFG, offset 0x10 (R392). -/
abbrev ETH_CFG.spd : Fld := ⟨0x10, 35, 32, .rw, 15⟩
abbrev ETH_CFG.promisc : Fld := ⟨0x10, 31, 31, .rw, 0⟩
abbrev ETH_CFG.mcall : Fld := ⟨0x10, 30, 30, .rw, 1⟩
abbrev ETH_CFG.maxfr : Fld := ⟨0x10, 15, 0, .rw, 2048⟩
/-! ETHP: ETH_LINK, offset 0x11 (R392). -/
abbrev ETH_LINK.up : Fld := ⟨0x11, 35, 35, .ro, 0⟩
abbrev ETH_LINK.speed : Fld := ⟨0x11, 34, 32, .ro, 0⟩
abbrev ETH_LINK.down : Fld := ⟨0x11, 15, 0, .ro, 0⟩
/-! ETHP: ETH_MAC_HI, offset 0x12 (R392). -/
abbrev ETH_MAC_HI.a : Fld := ⟨0x12, 15, 0, .rw, 0⟩
/-! ETHP: ETH_MAC_LO, offset 0x13 (R392). -/
abbrev ETH_MAC_LO.a : Fld := ⟨0x13, 31, 0, .rw, 0⟩
/-! ETHP: ETH_RXMAP, offset 0x14 (R392). -/
abbrev ETH_RXMAP.map : Fld := ⟨0x14, 15, 0, .rw, 0⟩
/-! ETHP: ETH_PFC, offset 0x15 (R392). -/
abbrev ETH_PFC.en : Fld := ⟨0x15, 35, 35, .rw, 0⟩
abbrev ETH_PFC.pa : Fld := ⟨0x15, 34, 32, .rw, 3⟩
abbrev ETH_PFC.pb : Fld := ⟨0x15, 31, 29, .rw, 4⟩
abbrev ETH_PFC.xoff : Fld := ⟨0x15, 26, 18, .rw, 64⟩
abbrev ETH_PFC.xon : Fld := ⟨0x15, 17, 9, .rw, 48⟩
/-! ETHP: ETH_CAP, offset 0x16 (R392). -/
abbrev ETH_CAP.rate : Fld := ⟨0x16, 35, 20, .ol, 0⟩
abbrev ETH_CAP.burst : Fld := ⟨0x16, 19, 0, .ol, 0⟩
/-! ETHP: ETH_QCAP, offset 0x17 + 1 k, k < 8 (R392). -/
abbrev ETH_QCAP.rate (k : Nat) : Fld := ⟨0x17 + 1 * k, 35, 20, .ol, 0⟩
abbrev ETH_QCAP.burst (k : Nat) : Fld := ⟨0x17 + 1 * k, 19, 0, .ol, 0⟩
/-! ETHP: ETH_RXF, offset 0x50 (R392). -/
abbrev ETH_RXF.n : Fld := ⟨0x50, 35, 0, .ro, 0⟩
/-! ETHP: ETH_RXE, offset 0x51 (R392). -/
abbrev ETH_RXE.n : Fld := ⟨0x51, 35, 0, .ro, 0⟩
/-! ETHP: ETH_RXD, offset 0x52 (R392). -/
abbrev ETH_RXD.n : Fld := ⟨0x52, 35, 0, .ro, 0⟩
/-! ETHP: ETH_HROV, offset 0x53 (R392). -/
abbrev ETH_HROV.n : Fld := ⟨0x53, 35, 0, .ro, 0⟩
/-! ETHP: ETH_TXF, offset 0x54 (R392). -/
abbrev ETH_TXF.n : Fld := ⟨0x54, 35, 0, .ro, 0⟩
/-! ETHP: ETH_PFCC, offset 0x55 (R392). -/
abbrev ETH_PFCC.tx : Fld := ⟨0x55, 35, 18, .ro, 0⟩
abbrev ETH_PFCC.rx : Fld := ⟨0x55, 17, 0, .ro, 0⟩
/-! ETHP: RXQ_QBASE, offset 0x20 + 4 k, k < 4 (R383). -/
abbrev ETH_RXQ_QBASE.base (k : Nat) : Fld := ⟨0x20 + 4 * k, 35, 0, .rw, 0⟩
/-! ETHP: RXQ_QCFG, offset 0x21 + 4 k, k < 4 (R383). -/
abbrev ETH_RXQ_QCFG.en (k : Nat) : Fld := ⟨0x21 + 4 * k, 35, 35, .rw, 0⟩
abbrev ETH_RXQ_QCFG.lg (k : Nat) : Fld := ⟨0x21 + 4 * k, 34, 31, .rw, 4⟩
abbrev ETH_RXQ_QCFG.post (k : Nat) : Fld := ⟨0x21 + 4 * k, 30, 30, .rw, 0⟩
abbrev ETH_RXQ_QCFG.task (k : Nat) : Fld := ⟨0x21 + 4 * k, 29, 21, .rw, 0⟩
abbrev ETH_RXQ_QCFG.bufsz (k : Nat) : Fld := ⟨0x21 + 4 * k, 7, 0, .rw, 32⟩
/-! ETHP: RXQ_QHEAD, offset 0x22 + 4 k, k < 4 (R383). -/
abbrev ETH_RXQ_QHEAD.head (k : Nat) : Fld := ⟨0x22 + 4 * k, 11, 0, .ro, 0⟩
/-! ETHP: RXQ_QTAIL, offset 0x23 + 4 k, k < 4 (R383). -/
abbrev ETH_RXQ_QTAIL.tail (k : Nat) : Fld := ⟨0x23 + 4 * k, 11, 0, .rw, 0⟩
/-! ETHP: TXQ_QBASE, offset 0x30 + 4 k, k < 8 (R383). -/
abbrev ETH_TXQ_QBASE.base (k : Nat) : Fld := ⟨0x30 + 4 * k, 35, 0, .rw, 0⟩
/-! ETHP: TXQ_QCFG, offset 0x31 + 4 k, k < 8 (R383). -/
abbrev ETH_TXQ_QCFG.en (k : Nat) : Fld := ⟨0x31 + 4 * k, 35, 35, .rw, 0⟩
abbrev ETH_TXQ_QCFG.lg (k : Nat) : Fld := ⟨0x31 + 4 * k, 34, 31, .rw, 4⟩
abbrev ETH_TXQ_QCFG.post (k : Nat) : Fld := ⟨0x31 + 4 * k, 30, 30, .rw, 0⟩
abbrev ETH_TXQ_QCFG.task (k : Nat) : Fld := ⟨0x31 + 4 * k, 29, 21, .rw, 0⟩
abbrev ETH_TXQ_QCFG.bufsz (k : Nat) : Fld := ⟨0x31 + 4 * k, 7, 0, .rw, 32⟩
/-! ETHP: TXQ_QHEAD, offset 0x32 + 4 k, k < 8 (R383). -/
abbrev ETH_TXQ_QHEAD.head (k : Nat) : Fld := ⟨0x32 + 4 * k, 11, 0, .ro, 0⟩
/-! ETHP: TXQ_QTAIL, offset 0x33 + 4 k, k < 8 (R383). -/
abbrev ETH_TXQ_QTAIL.tail (k : Nat) : Fld := ⟨0x33 + 4 * k, 11, 0, .rw, 0⟩

/-! SAFE0: SAFE_STAT, offset 0x10 (R428). -/
abbrev SAFE_STAT.state : Fld := ⟨0x10, 35, 33, .ro, 0⟩
abbrev SAFE_STAT.locked : Fld := ⟨0x10, 32, 32, .ro, 0⟩
abbrev SAFE_STAT.hwsafe : Fld := ⟨0x10, 31, 31, .ro, 0⟩
abbrev SAFE_STAT.bank : Fld := ⟨0x10, 30, 30, .ro, 0⟩
abbrev SAFE_STAT.fcause : Fld := ⟨0x10, 23, 16, .ro, 0⟩
abbrev SAFE_STAT.cyc : Fld := ⟨0x10, 15, 0, .ro, 0⟩
/-! SAFE0: SAFE_FINFO, offset 0x11 (R428). -/
abbrev SAFE_FINFO.info : Fld := ⟨0x11, 35, 0, .ro, 0⟩
/-! SAFE0: SAFE_IMG, offset 0x12 (R428). -/
abbrev SAFE_IMG.idn : Fld := ⟨0x12, 35, 0, .ro, 0⟩
/-! SAFE0: SAFE_ACK, offset 0x13 (R428). -/
abbrev SAFE_ACK.acc : Fld := ⟨0x13, 31, 16, .ro, 0⟩
abbrev SAFE_ACK.ign : Fld := ⟨0x13, 15, 0, .ro, 0⟩
/-! SAFE0: SAFE_CONN0, offset 0x14 (R428). -/
abbrev SAFE_CONN0.ok : Fld := ⟨0x14, 31, 0, .ro, 0⟩
/-! SAFE0: SAFE_CONN1, offset 0x15 (R428). -/
abbrev SAFE_CONN1.ok : Fld := ⟨0x15, 31, 0, .ro, 0⟩

/-! SAFE1: SAFE_MB_CMD, offset 0x10 (R429). -/
abbrev SAFE_MB_CMD.go : Fld := ⟨0x10, 35, 35, .sc, 0⟩
abbrev SAFE_MB_CMD.busy : Fld := ⟨0x10, 34, 34, .ro, 0⟩
abbrev SAFE_MB_CMD.op : Fld := ⟨0x10, 31, 24, .rw, 0⟩
/-! SAFE1: SAFE_MB_ARG, offset 0x11 (R429). -/
abbrev SAFE_MB_ARG.arg : Fld := ⟨0x11, 35, 0, .rw, 0⟩
/-! SAFE1: SAFE_MB_RES, offset 0x12 (R429). -/
abbrev SAFE_MB_RES.res : Fld := ⟨0x12, 35, 34, .ro, 0⟩
abbrev SAFE_MB_RES.op : Fld := ⟨0x12, 31, 24, .ro, 0⟩
abbrev SAFE_MB_RES.reason : Fld := ⟨0x12, 23, 16, .ro, 0⟩
abbrev SAFE_MB_RES.seq : Fld := ⟨0x12, 15, 0, .ro, 0⟩

/-! SAFE2: SAFE_SI, offset 0x10 (R430). -/
abbrev SAFE_SI.raw : Fld := ⟨0x10, 31, 0, .ro, 0⟩
/-! SAFE2: SAFE_SIQ, offset 0x11 (R430). -/
abbrev SAFE_SIQ.q : Fld := ⟨0x11, 31, 0, .ro, 0⟩
/-! SAFE2: SAFE_SIF, offset 0x12 (R430). -/
abbrev SAFE_SIF.f : Fld := ⟨0x12, 31, 0, .ro, 0⟩
/-! SAFE2: SAFE_OUT, offset 0x13 (R430). -/
abbrev SAFE_OUT.so : Fld := ⟨0x13, 35, 32, .ro, 0⟩
abbrev SAFE_OUT.sofault : Fld := ⟨0x13, 31, 28, .ro, 0⟩
abbrev SAFE_OUT.tpfault : Fld := ⟨0x13, 27, 20, .ro, 0⟩
abbrev SAFE_OUT.gen : Fld := ⟨0x13, 11, 0, .ro, 0⟩
/-! SAFE2: SAFE_PORT, offset 0x20 + 1 k, k < 12 (R430). -/
abbrev SAFE_PORT.pstate (k : Nat) : Fld := ⟨0x20 + 1 * k, 35, 34, .ro, 0⟩
abbrev SAFE_PORT.ackreq (k : Nat) : Fld := ⟨0x20 + 1 * k, 33, 33, .ro, 0⟩
abbrev SAFE_PORT.hdue (k : Nat) : Fld := ⟨0x20 + 1 * k, 32, 32, .ro, 0⟩
abbrev SAFE_PORT.lset (k : Nat) : Fld := ⟨0x20 + 1 * k, 31, 30, .ro, 0⟩
abbrev SAFE_PORT.lreq (k : Nat) : Fld := ⟨0x20 + 1 * k, 29, 28, .ro, 0⟩
abbrev SAFE_PORT.cause (k : Nat) : Fld := ⟨0x20 + 1 * k, 27, 24, .ro, 0⟩
abbrev SAFE_PORT.chstop (k : Nat) : Fld := ⟨0x20 + 1 * k, 7, 0, .ro, 0⟩

/-! SAFE3: SAFE_CH, offset 0x10 + 1 k, k < 96 (R431). -/
abbrev SAFE_CH.sls (k : Nat) : Fld := ⟨0x10 + 1 * k, 35, 35, .ro, 0⟩
abbrev SAFE_CH.slp (k : Nat) : Fld := ⟨0x10 + 1 * k, 34, 34, .ro, 0⟩
abbrev SAFE_CH.sdi (k : Nat) : Fld := ⟨0x10 + 1 * k, 33, 33, .ro, 0⟩
abbrev SAFE_CH.envstop (k : Nat) : Fld := ⟨0x10 + 1 * k, 32, 32, .ro, 0⟩
abbrev SAFE_CH.viol (k : Nat) : Fld := ⟨0x10 + 1 * k, 31, 31, .ro, 0⟩
abbrev SAFE_CH.bstate (k : Nat) : Fld := ⟨0x10 + 1 * k, 30, 28, .ro, 5⟩
abbrev SAFE_CH.edata (k : Nat) : Fld := ⟨0x10 + 1 * k, 27, 27, .ro, 0⟩
abbrev SAFE_CH.hdue (k : Nat) : Fld := ⟨0x10 + 1 * k, 26, 26, .ro, 0⟩
abbrev SAFE_CH.hres (k : Nat) : Fld := ⟨0x10 + 1 * k, 25, 24, .ro, 0⟩
abbrev SAFE_CH.ovr (k : Nat) : Fld := ⟨0x10 + 1 * k, 23, 16, .ro, 0⟩
abbrev SAFE_CH.age (k : Nat) : Fld := ⟨0x10 + 1 * k, 15, 0, .ro, 65535⟩

/-! LENS0: LENS_STAT, offset 0x10 (R454). -/
abbrev LENS_STAT.state : Fld := ⟨0x10, 35, 34, .ro, 0⟩
abbrev LENS_STAT.ovf : Fld := ⟨0x10, 33, 33, .ro, 0⟩
abbrev LENS_STAT.rep : Fld := ⟨0x10, 32, 32, .ro, 0⟩
abbrev LENS_STAT.nobj : Fld := ⟨0x10, 24, 16, .ro, 0⟩
abbrev LENS_STAT.seq : Fld := ⟨0x10, 15, 0, .ro, 0⟩
/-! LENS0: LENS_STOP, offset 0x11 (R454). -/
abbrev LENS_STOP.aa : Fld := ⟨0x11, 35, 24, .ro, 0⟩
abbrev LENS_STOP.unk : Fld := ⟨0x11, 23, 12, .ro, 0⟩
abbrev LENS_STOP.stop : Fld := ⟨0x11, 11, 0, .ro, 0⟩
/-! LENS0: LENS_LREQ, offset 0x12 (R454). -/
abbrev LENS_LREQ.reach : Fld := ⟨0x12, 35, 24, .ro, 0⟩
abbrev LENS_LREQ.lreq : Fld := ⟨0x12, 23, 0, .ro, 0⟩
/-! LENS0: LENS_WSEL, offset 0x13 (R454). -/
abbrev LENS_WSEL.arm : Fld := ⟨0x13, 3, 0, .rw, 0⟩
/-! LENS0: LENS_SCAN, offset 0x20 + 1 k, k < 16 (R454). -/
abbrev LENS_SCAN.hl (k : Nat) : Fld := ⟨0x20 + 1 * k, 35, 35, .ro, 0⟩
abbrev LENS_SCAN.sf (k : Nat) : Fld := ⟨0x20 + 1 * k, 34, 34, .ro, 0⟩
abbrev LENS_SCAN.fmt (k : Nat) : Fld := ⟨0x20 + 1 * k, 33, 33, .ro, 0⟩
abbrev LENS_SCAN.nobj (k : Nat) : Fld := ⟨0x20 + 1 * k, 22, 16, .ro, 0⟩
abbrev LENS_SCAN.seq (k : Nat) : Fld := ⟨0x20 + 1 * k, 15, 0, .ro, 0⟩

/-! LENS1: LENS_MARG, offset 0x10 + 4 k, k < 12 (R455). -/
abbrev LENS_MARG.m (k : Nat) : Fld := ⟨0x10 + 4 * k, 35, 0, .ro, 0⟩
/-! LENS1: LENS_DIST, offset 0x11 + 4 k, k < 12 (R455). -/
abbrev LENS_DIST.d (k : Nat) : Fld := ⟨0x11 + 4 * k, 35, 0, .ro, 0⟩
/-! LENS1: LENS_SP, offset 0x12 + 4 k, k < 12 (R455). -/
abbrev LENS_SP.sp (k : Nat) : Fld := ⟨0x12 + 4 * k, 35, 0, .ro, 0⟩
/-! LENS1: LENS_WHO, offset 0x13 + 4 k, k < 12 (R455). -/
abbrev LENS_WHO.cap (k : Nat) : Fld := ⟨0x13 + 4 * k, 35, 32, .ro, 0⟩
abbrev LENS_WHO.scan (k : Nat) : Fld := ⟨0x13 + 4 * k, 31, 28, .ro, 0⟩
abbrev LENS_WHO.obj (k : Nat) : Fld := ⟨0x13 + 4 * k, 27, 22, .ro, 0⟩
abbrev LENS_WHO.oarm (k : Nat) : Fld := ⟨0x13 + 4 * k, 21, 18, .ro, 0⟩
abbrev LENS_WHO.ocap (k : Nat) : Fld := ⟨0x13 + 4 * k, 17, 14, .ro, 0⟩
abbrev LENS_WHO.acap (k : Nat) : Fld := ⟨0x13 + 4 * k, 13, 10, .ro, 0⟩
abbrev LENS_WHO.tool (k : Nat) : Fld := ⟨0x13 + 4 * k, 9, 9, .ro, 0⟩
/-! LENS1: LENS_AAM, offset 0x40 + 1 k, k < 12 (R455). -/
abbrev LENS_AAM.m (k : Nat) : Fld := ⟨0x40 + 1 * k, 35, 0, .ro, 0⟩

/-! MEM0: MEM_SCRUB, offset 0x10 (R474). -/
abbrev MEM_SCRUB.en : Fld := ⟨0x10, 35, 35, .rw, 1⟩
abbrev MEM_SCRUB.per : Fld := ⟨0x10, 9, 0, .rw, 500⟩
/-! MEM0: MEM_SR_CE, offset 0x11 (R474). -/
abbrev MEM_SR_CE.n : Fld := ⟨0x11, 35, 0, .ro, 0⟩
/-! MEM0: MEM_SR_UE, offset 0x12 (R474). -/
abbrev MEM_SR_UE.n : Fld := ⟨0x12, 35, 0, .ro, 0⟩
/-! MEM0: MEM_SR_LADDR, offset 0x13 (R474). -/
abbrev MEM_SR_LADDR.a : Fld := ⟨0x13, 35, 0, .ro, 0⟩
/-! MEM0: MEM_SR_LINFO, offset 0x14 (R474). -/
abbrev MEM_SR_LINFO.ue : Fld := ⟨0x14, 35, 35, .ro, 0⟩
abbrev MEM_SR_LINFO.src : Fld := ⟨0x14, 33, 32, .ro, 0⟩
abbrev MEM_SR_LINFO.ini : Fld := ⟨0x14, 31, 24, .ro, 0⟩
abbrev MEM_SR_LINFO.syn : Fld := ⟨0x14, 6, 0, .ro, 0⟩
/-! MEM0: MEM_SR_PASS, offset 0x15 (R474). -/
abbrev MEM_SR_PASS.n : Fld := ⟨0x15, 35, 0, .ro, 0⟩

/-! MEM1: MEM_DSCRUB, offset 0x10 (R475). -/
abbrev MEM_DSCRUB.en : Fld := ⟨0x10, 35, 35, .rw, 1⟩
abbrev MEM_DSCRUB.per : Fld := ⟨0x10, 5, 0, .rw, 32⟩
/-! MEM1: MEM_DOCC, offset 0x11 (R475). -/
abbrev MEM_DOCC.hwm : Fld := ⟨0x11, 22, 16, .rw, 0⟩
abbrev MEM_DOCC.level : Fld := ⟨0x11, 6, 0, .ro, 0⟩
/-! MEM1: MEM_DCE, offset 0x12 (R475). -/
abbrev MEM_DCE.n : Fld := ⟨0x12, 35, 0, .ro, 0⟩
/-! MEM1: MEM_DUE, offset 0x13 (R475). -/
abbrev MEM_DUE.n : Fld := ⟨0x13, 35, 0, .ro, 0⟩
/-! MEM1: MEM_DLADDR, offset 0x14 (R475). -/
abbrev MEM_DLADDR.a : Fld := ⟨0x14, 35, 0, .ro, 0⟩
/-! MEM1: MEM_DLINFO, offset 0x15 (R475). -/
abbrev MEM_DLINFO.ue : Fld := ⟨0x15, 35, 35, .ro, 0⟩
abbrev MEM_DLINFO.adr : Fld := ⟨0x15, 34, 34, .ro, 0⟩
abbrev MEM_DLINFO.src : Fld := ⟨0x15, 33, 32, .ro, 0⟩
abbrev MEM_DLINFO.ini : Fld := ⟨0x15, 31, 24, .ro, 0⟩
abbrev MEM_DLINFO.syn : Fld := ⟨0x15, 7, 0, .ro, 0⟩
/-! MEM1: MEM_DTHR, offset 0x16 (R475). -/
abbrev MEM_DTHR.nbank : Fld := ⟨0x16, 15, 8, .rw, 16⟩
abbrev MEM_DTHR.nrow : Fld := ⟨0x16, 7, 0, .rw, 4⟩
/-! MEM1: MEM_DPASS, offset 0x17 (R475). -/
abbrev MEM_DPASS.n : Fld := ⟨0x17, 35, 0, .ro, 0⟩
/-! MEM1: MEM_DROVF, offset 0x18 (R475). -/
abbrev MEM_DROVF.n : Fld := ⟨0x18, 35, 0, .ro, 0⟩
/-! MEM1: MEM_DBANK, offset 0x40 + 1 k, k < 32 (R475). -/
abbrev MEM_DBANK.lasting (k : Nat) : Fld := ⟨0x40 + 1 * k, 35, 35, .w1c, 0⟩
abbrev MEM_DBANK.total (k : Nat) : Fld := ⟨0x40 + 1 * k, 31, 16, .ro, 0⟩
abbrev MEM_DBANK.prev (k : Nat) : Fld := ⟨0x40 + 1 * k, 15, 8, .ro, 0⟩
abbrev MEM_DBANK.cur (k : Nat) : Fld := ⟨0x40 + 1 * k, 7, 0, .ro, 0⟩
/-! MEM1: MEM_DROW, offset 0x60 + 2 k, k < 16 (R475). -/
abbrev MEM_DROW.used (k : Nat) : Fld := ⟨0x60 + 2 * k, 35, 35, .ro, 0⟩
abbrev MEM_DROW.bank (k : Nat) : Fld := ⟨0x60 + 2 * k, 20, 16, .ro, 0⟩
abbrev MEM_DROW.row (k : Nat) : Fld := ⟨0x60 + 2 * k, 15, 0, .ro, 0⟩
/-! MEM1: MEM_DROWS, offset 0x61 + 2 k, k < 16 (R475). -/
abbrev MEM_DROWS.lasting (k : Nat) : Fld := ⟨0x61 + 2 * k, 35, 35, .w1c, 0⟩
abbrev MEM_DROWS.total (k : Nat) : Fld := ⟨0x61 + 2 * k, 31, 16, .ro, 0⟩
abbrev MEM_DROWS.prev (k : Nat) : Fld := ⟨0x61 + 2 * k, 15, 8, .ro, 0⟩
abbrev MEM_DROWS.cur (k : Nat) : Fld := ⟨0x61 + 2 * k, 7, 0, .ro, 0⟩

/-! MEM3: MEM_MW_ADDR, offset 0x10 (R476). -/
abbrev MEM_MW_ADDR.off : Fld := ⟨0x10, 22, 0, .rw, 0⟩
/-! MEM3: MEM_MW_DATA, offset 0x11 (R476). -/
abbrev MEM_MW_DATA.d : Fld := ⟨0x11, 35, 0, .wo, 0⟩
/-! MEM3: MEM_MSTAT, offset 0x12 (R476). -/
abbrev MEM_MSTAT.level : Fld := ⟨0x12, 20, 16, .ro, 0⟩
abbrev MEM_MSTAT.refused : Fld := ⟨0x12, 15, 0, .ro, 0⟩
/-! MEM3: MEM_MWP, offset 0x13 (R476). -/
abbrev MEM_MWP.we : Fld := ⟨0x13, 6, 0, .ol, 127⟩
/-! MEM3: MEM_LOG, offset 0x14 (R476). -/
abbrev MEM_LOG.en : Fld := ⟨0x14, 35, 35, .rw, 1⟩
abbrev MEM_LOG.scan : Fld := ⟨0x14, 34, 34, .ro, 0⟩
abbrev MEM_LOG.next : Fld := ⟨0x14, 16, 0, .ro, 0⟩
/-! MEM3: MEM_LOG_SEQ, offset 0x15 (R476). -/
abbrev MEM_LOG_SEQ.seq : Fld := ⟨0x15, 31, 0, .ro, 0⟩
/-! MEM3: MEM_LOG_LOST, offset 0x16 (R476). -/
abbrev MEM_LOG_LOST.n : Fld := ⟨0x16, 35, 0, .ro, 0⟩
/-! MEM3: MEM_MCE, offset 0x17 (R476). -/
abbrev MEM_MCE.n : Fld := ⟨0x17, 35, 0, .ro, 0⟩
/-! MEM3: MEM_MUE, offset 0x18 (R476). -/
abbrev MEM_MUE.n : Fld := ⟨0x18, 35, 0, .ro, 0⟩
/-! MEM3: MEM_MWERR, offset 0x19 (R476). -/
abbrev MEM_MWERR.n : Fld := ⟨0x19, 35, 0, .ro, 0⟩

/-! PORTER0: PORTER_START, offset 0x10 (R483). -/
abbrev PORTER_START.go : Fld := ⟨0x10, 35, 35, .sc, 0⟩
abbrev PORTER_START.slot : Fld := ⟨0x10, 5, 0, .rw, 0⟩
/-! PORTER0: PORTER_STAT, offset 0x11 (R483). -/
abbrev PORTER_STAT.refused : Fld := ⟨0x11, 31, 16, .ro, 0⟩
abbrev PORTER_STAT.hwm : Fld := ⟨0x11, 13, 8, .rw, 0⟩
abbrev PORTER_STAT.inflight : Fld := ⟨0x11, 5, 0, .ro, 0⟩
/-! PORTER0: PORTER_ELAST, offset 0x12 (R483). -/
abbrev PORTER_ELAST.code : Fld := ⟨0x12, 35, 32, .ro, 0⟩
abbrev PORTER_ELAST.slot : Fld := ⟨0x12, 29, 24, .ro, 0⟩
/-! PORTER0: PORTER_EADDR, offset 0x13 (R483). -/
abbrev PORTER_EADDR.a : Fld := ⟨0x13, 35, 0, .ro, 0⟩
/-! PORTER0: PORTER_WORDS, offset 0x14 (R483). -/
abbrev PORTER_WORDS.n : Fld := ⟨0x14, 35, 0, .ro, 0⟩

/-! PORTER1: PORTER_SHEAD, offset 0x10 + 2 k, k < 64 (R483). -/
abbrev PORTER_SHEAD.head (k : Nat) : Fld := ⟨0x10 + 2 * k, 35, 0, .rw, 0⟩
/-! PORTER1: PORTER_SCTL, offset 0x11 + 2 k, k < 64 (R483). -/
abbrev PORTER_SCTL.en (k : Nat) : Fld := ⟨0x11 + 2 * k, 35, 35, .rw, 0⟩
abbrev PORTER_SCTL.urg (k : Nat) : Fld := ⟨0x11 + 2 * k, 34, 34, .rw, 0⟩
abbrev PORTER_SCTL.queued (k : Nat) : Fld := ⟨0x11 + 2 * k, 21, 16, .ro, 0⟩
abbrev PORTER_SCTL.runs (k : Nat) : Fld := ⟨0x11 + 2 * k, 15, 0, .ro, 0⟩

/-! CLK: CLK_SRC, offset 0x10 (R522). -/
abbrev CLK_SRC.irc_en : Fld := ⟨0x10, 35, 35, .rw, 1⟩
abbrev CLK_SRC.irc_rdy : Fld := ⟨0x10, 34, 34, .ro, 1⟩
abbrev CLK_SRC.xom_rdy : Fld := ⟨0x10, 33, 33, .ro, 0⟩
abbrev CLK_SRC.ext_ok : Fld := ⟨0x10, 32, 32, .ro, 0⟩
abbrev CLK_SRC.disc : Fld := ⟨0x10, 31, 31, .rw, 0⟩
abbrev CLK_SRC.dlock : Fld := ⟨0x10, 30, 30, .ro, 0⟩
abbrev CLK_SRC.pull : Fld := ⟨0x10, 19, 0, .ro, 0⟩
/-! CLK: CLK_PLL, offset 0x11 (R522). -/
abbrev CLK_PLL.en : Fld := ⟨0x11, 35, 32, .rw, 0⟩
abbrev CLK_PLL.lock : Fld := ⟨0x11, 31, 28, .ro, 0⟩
abbrev CLK_PLL.lost : Fld := ⟨0x11, 27, 24, .w1c, 0⟩
/-! CLK: CLK_DOM_CORE, offset 0x12 (R522). -/
abbrev CLK_DOM_CORE.go : Fld := ⟨0x12, 35, 35, .sc, 0⟩
abbrev CLK_DOM_CORE.sw : Fld := ⟨0x12, 34, 34, .rw, 0⟩
abbrev CLK_DOM_CORE.src : Fld := ⟨0x12, 33, 32, .rw, 0⟩
abbrev CLK_DOM_CORE.cur : Fld := ⟨0x12, 31, 30, .ro, 0⟩
abbrev CLK_DOM_CORE.res : Fld := ⟨0x12, 29, 28, .ro, 0⟩
abbrev CLK_DOM_CORE.fb : Fld := ⟨0x12, 27, 27, .ro, 0⟩
abbrev CLK_DOM_CORE.thr : Fld := ⟨0x12, 26, 26, .ro, 0⟩
/-! CLK: CLK_DOM_FAB, offset 0x13 (R522). -/
abbrev CLK_DOM_FAB.go : Fld := ⟨0x13, 35, 35, .sc, 0⟩
abbrev CLK_DOM_FAB.sw : Fld := ⟨0x13, 34, 34, .rw, 0⟩
abbrev CLK_DOM_FAB.src : Fld := ⟨0x13, 33, 32, .rw, 0⟩
abbrev CLK_DOM_FAB.cur : Fld := ⟨0x13, 31, 30, .ro, 0⟩
abbrev CLK_DOM_FAB.res : Fld := ⟨0x13, 29, 28, .ro, 0⟩
abbrev CLK_DOM_FAB.fb : Fld := ⟨0x13, 27, 27, .ro, 0⟩
abbrev CLK_DOM_FAB.thr : Fld := ⟨0x13, 26, 26, .ro, 0⟩
/-! CLK: CLK_DOM_FIX, offset 0x14 (R522). -/
abbrev CLK_DOM_FIX.pgo : Fld := ⟨0x14, 35, 35, .sc, 0⟩
abbrev CLK_DOM_FIX.mgo : Fld := ⟨0x14, 34, 34, .sc, 0⟩
abbrev CLK_DOM_FIX.prun : Fld := ⟨0x14, 33, 33, .ro, 0⟩
abbrev CLK_DOM_FIX.mrun : Fld := ⟨0x14, 32, 32, .ro, 0⟩
abbrev CLK_DOM_FIX.pdead : Fld := ⟨0x14, 31, 31, .ro, 0⟩
abbrev CLK_DOM_FIX.mdead : Fld := ⟨0x14, 30, 30, .ro, 0⟩
/-! CLK: CLK_SSC, offset 0x15 (R522). -/
abbrev CLK_SSC.cen : Fld := ⟨0x15, 35, 35, .rw, 0⟩
abbrev CLK_SSC.cdep : Fld := ⟨0x15, 34, 32, .rw, 0⟩
abbrev CLK_SSC.men : Fld := ⟨0x15, 31, 31, .rw, 0⟩
abbrev CLK_SSC.mdep : Fld := ⟨0x15, 30, 28, .rw, 0⟩
abbrev CLK_SSC.rate : Fld := ⟨0x15, 8, 0, .rw, 320⟩
/-! CLK: CLK_MON, offset 0x16 (R522). -/
abbrev CLK_MON.trip : Fld := ⟨0x16, 35, 30, .w1c, 0⟩
abbrev CLK_MON.count : Fld := ⟨0x16, 15, 0, .ro, 0⟩
/-! CLK: CLK_MON_LAST, offset 0x17 (R522). -/
abbrev CLK_MON_LAST.clk : Fld := ⟨0x17, 35, 33, .ro, 0⟩
abbrev CLK_MON_LAST.kind : Fld := ⟨0x17, 32, 32, .ro, 0⟩
/-! CLK: CLK_GATE_REF, offset 0x18 (R522). -/
abbrev CLK_GATE_REF.n : Fld := ⟨0x18, 31, 16, .ro, 0⟩
abbrev CLK_GATE_REF.page : Fld := ⟨0x18, 13, 0, .ro, 0⟩
/-! CLK: CLK_FGATE, offset 0x19 (R522). -/
abbrev CLK_FGATE.go : Fld := ⟨0x19, 35, 35, .sc, 0⟩
abbrev CLK_FGATE.page : Fld := ⟨0x19, 13, 0, .rw, 0⟩

/-! SYS1: SYS_TEMP, offset 0x10 (R541). -/
abbrev SYS_TEMP.intake : Fld := ⟨0x10, 35, 24, .ro, 0⟩
abbrev SYS_TEMP.exhaust : Fld := ⟨0x10, 23, 12, .ro, 0⟩
abbrev SYS_TEMP.die : Fld := ⟨0x10, 11, 0, .ro, 0⟩
/-! SYS1: SYS_FAN, offset 0x11 (R541). -/
abbrev SYS_FAN.f0fail : Fld := ⟨0x11, 35, 35, .ro, 0⟩
abbrev SYS_FAN.f1fail : Fld := ⟨0x11, 34, 34, .ro, 0⟩
abbrev SYS_FAN.f0rpm : Fld := ⟨0x11, 31, 16, .ro, 0⟩
abbrev SYS_FAN.f1rpm : Fld := ⟨0x11, 15, 0, .ro, 0⟩
/-! SYS1: SYS_VLOGIC, offset 0x12 (R541). -/
abbrev SYS_VLOGIC.va : Fld := ⟨0x12, 35, 24, .ro, 0⟩
abbrev SYS_VLOGIC.vb : Fld := ⟨0x12, 23, 12, .ro, 0⟩
abbrev SYS_VLOGIC.pw : Fld := ⟨0x12, 11, 0, .ro, 0⟩
/-! SYS1: SYS_VBRAKE, offset 0x13 (R541). -/
abbrev SYS_VBRAKE.v1 : Fld := ⟨0x13, 35, 24, .ro, 0⟩
abbrev SYS_VBRAKE.v2 : Fld := ⟨0x13, 23, 12, .ro, 0⟩
/-! SYS1: SYS_IBRAKE, offset 0x14 (R541). -/
abbrev SYS_IBRAKE.i1 : Fld := ⟨0x14, 35, 24, .ro, 0⟩
abbrev SYS_IBRAKE.i2 : Fld := ⟨0x14, 23, 12, .ro, 0⟩
/-! SYS1: SYS_ENVST, offset 0x15 (R541). -/
abbrev SYS_ENVST.la : Fld := ⟨0x15, 35, 35, .ro, 0⟩
abbrev SYS_ENVST.lb : Fld := ⟨0x15, 34, 34, .ro, 0⟩
abbrev SYS_ENVST.b1ok : Fld := ⟨0x15, 33, 33, .ro, 0⟩
abbrev SYS_ENVST.b2ok : Fld := ⟨0x15, 32, 32, .ro, 0⟩
abbrev SYS_ENVST.thrc : Fld := ⟨0x15, 31, 31, .ro, 0⟩
abbrev SYS_ENVST.warn : Fld := ⟨0x15, 30, 30, .ro, 0⟩

/-! ETH0: ETH_BUF, offset 0x10 (R391). -/
abbrev ETH_BUF.use : Fld := ⟨0x10, 35, 18, .ro, 0⟩
abbrev ETH_BUF.hwm : Fld := ⟨0x10, 17, 0, .rw, 0⟩

/-! LENS2: LENS_CAP, offset 0x10 + 1 k, k < 128 (R456). -/
abbrev LENS_CAP.w (k : Nat) : Fld := ⟨0x10 + 1 * k, 35, 0, .ro, 0⟩

/-- Every field of the SYS0 page (word-array fields by index). -/
def fieldsSys0 : List Fld :=
  [SYS_CAP0.family, SYS_CAP0.member, SYS_CAP0.isa, SYS_CAP0.ncap] ++
  [SYS_CAP1.core_mhz, SYS_CAP1.cores, SYS_CAP1.mac, SYS_CAP1.fma] ++
  [SYS_CAP2.channels, SYS_CAP2.positions, SYS_CAP2.ports, SYS_CAP2.legs, SYS_CAP2.pipelines] ++
  [SYS_CAP3.dram_log2, SYS_CAP3.commons_log2, SYS_CAP3.mram_log2, SYS_CAP3.ldata_log2, SYS_CAP3.linst_log2] ++
  [SYS_CAP4.triggers, SYS_CAP4.tasks, SYS_CAP4.levels, SYS_CAP4.timebases] ++
  [SYS_CAP5.ring, SYS_CAP5.spokes, SYS_CAP5.eth, SYS_CAP5.tio, SYS_CAP5.nodes] ++
  [SYS_CAP6.lens, SYS_CAP6.brakes, SYS_CAP6.si, SYS_CAP6.tp, SYS_CAP6.so] ++
  [SYS_SERIAL_LO.serial_lo] ++
  [SYS_SERIAL_HI.serial_hi] ++
  [SYS_ISSUE.hw_issue, SYS_ISSUE.rom] ++
  [SYS_RCAUSE.kind, SYS_RCAUSE.src, SYS_RCAUSE.ot, SYS_RCAUSE.count] ++
  [SYS_RST.key, SYS_RST.rec_, SYS_RST.kind] ++
  [SYS_BOOT.state, SYS_BOOT.bank, SYS_BOOT.slot, SYS_BOOT.test, SYS_BOOT.acode, SYS_BOOT.bcode, SYS_BOOT.ms] ++
  [SYS_SEAL.go, SYS_SEAL.sealed] ++
  [SYS_IMG.idn] ++
  [SYS_IMG_ISSUE.issue]

/-- Every field of the HDR page (word-array fields by index). -/
def fieldsHdr : List Fld :=
  [PAGE_ID.typ, PAGE_ID.inst, PAGE_ID.version] ++
  [PAGE_CTL.gate_ack, PAGE_CTL.gate_req, PAGE_CTL.srst, PAGE_CTL.en] ++
  [PAGE_STAT.blk, PAGE_STAT.post_refused, PAGE_STAT.fault, PAGE_STAT.gated, PAGE_STAT.running] ++
  [PAGE_EV.ev] ++
  [PAGE_EVEN.even] ++
  [PAGE_EVPEND.evpend] ++
  [PAGE_POST.post_en, PAGE_POST.task] ++
  [PAGE_LOCK.sl_locked, PAGE_LOCK.ol_sealed, PAGE_LOCK.refused] ++
  [FC_CFG.enable, FC_CFG.action, FC_CFG.n, FC_CFG.w] ++
  [FC_STAT.lasting, FC_STAT.total, FC_STAT.prev, FC_STAT.cur]

/-- Every field of the TB page (word-array fields by index). -/
def fieldsTb : List Fld :=
  [TIME_TB_CTL.load, TIME_TB_CTL.step, TIME_TB_CTL.confirm, TIME_TB_CTL.autostep, TIME_TB_CTL.servo, TIME_TB_CTL.src] ++
  [TIME_TB_STAT.hist, TIME_TB_STAT.locked, TIME_TB_STAT.disc, TIME_TB_STAT.susp, TIME_TB_STAT.epoch, TIME_TB_STAT.good, TIME_TB_STAT.count] ++
  [TIME_TB_RATE.rate] ++
  [TIME_TB_FREQ.freq] ++
  [TIME_TB_MEAS.meas] ++
  [TIME_TB_KP.kp] ++
  [TIME_TB_KI.ki] ++
  [TIME_TB_LOCK.tmo, TIME_TB_LOCK.thr] ++
  [TIME_TB_SET_HI.sec] ++
  [TIME_TB_SET_LO.frac] ++
  [TIME_TB_INTV.tau]

/-- Every field of the TIME0 page (word-array fields by index). -/
def fieldsTime0 : List Fld :=
  [TIME_CT_CTL.hold, TIME_CT_CTL.auto_, TIME_CT_CTL.revert, TIME_CT_CTL.pri, TIME_CT_CTL.mir] ++
  [TIME_CT_STAT.valid, TIME_CT_STAT.state, TIME_CT_STAT.epoch, TIME_CT_STAT.slewing, TIME_CT_STAT.base] ++
  [TIME_CT_DIFF.d] ++
  [TIME_STEP_LIM.lim] ++
  [TIME_SLEW_LIM.ppm] ++
  [TIME_REEPOCH.go, TIME_REEPOCH.base] ++
  [TIME_OUT_CTL.pps_en, TIME_OUT_CTL.pps_tb, TIME_OUT_CTL.ten_en, TIME_OUT_CTL.ten_tb, TIME_OUT_CTL.pps_w] ++
  [TIME_IN_CTL.pps_en, TIME_IN_CTL.pps_fall, TIME_IN_CTL.ten_en, TIME_IN_CTL.tb] ++
  [TIME_PPS_IN_HI.sec] ++
  [TIME_PPS_IN_LO.frac] ++
  [TIME_PPS_IN_ST.st]

/-- Every field of the TSU page (word-array fields by index). -/
def fieldsTsu : List Fld :=
  [TIME_TSU_CFG.en, TIME_TSU_CFG.tb] ++
  [TIME_TSU_ING_ADJ.adj] ++
  [TIME_TSU_EGR_ADJ.adj] ++
  [TIME_TSU_ASYM.a] ++
  [TIME_TSU_LINK.m] ++
  [TIME_TSU_STAT.level, TIME_TSU_STAT.ovf] ++
  [TIME_TSU_TXQ_ST.st] ++
  [TIME_TSU_TXQ_HI.sec] ++
  [TIME_TSU_TXQ_LO.frac]

/-- Every field of the TRG table entry (word-array fields by index). -/
def fieldsTrg : List Fld :=
  [TRG_TH.sec] ++
  [TRG_TL.frac] ++
  [TRG_CTL.arm, TRG_CTL.per, TRG_CTL.pidx, TRG_CTL.tb, TRG_CTL.pol, TRG_CTL.act, TRG_CTL.apost, TRG_CTL.ptask, TRG_CTL.arg] ++
  [TRG_ST.armed, TRG_ST.code, TRG_ST.late, TRG_ST.refused, TRG_ST.gchk, TRG_ST.gen, TRG_ST.lat, TRG_ST.fires]

/-- Every field of the PRISM0 page (word-array fields by index). -/
def fieldsPrism0 : List Fld :=
  [PRISM_STAT.walk, PRISM_STAT.wtb, PRISM_STAT.armed] ++
  [PRISM_LATE_CNT.n] ++
  [PRISM_LATE_LAST.cause, PRISM_LATE_LAST.lat, PRISM_LATE_LAST.entry] ++
  [PRISM_REF_CNT.n] ++
  [PRISM_REF_LAST.reason, PRISM_REF_LAST.act, PRISM_REF_LAST.entry] ++
  [PRISM_ARM_LAST.reason, PRISM_ARM_LAST.entry] ++
  [PRISM_DUE_HWM.hwm]

/-- Every field of the PRISM1 page (word-array fields by index). -/
def fieldsPrism1 : List Fld :=
  (List.range 64).flatMap (fun k => [PRISM_PER.p k]) ++
  (List.range 4).flatMap (fun k => [PRISM_CAPSEQ.entry k, PRISM_CAPSEQ.seq k]) ++
  (List.range 64).flatMap (fun k => [PRISM_CAP.w k])

/-- Every field of the PRISM2 page (word-array fields by index). -/
def fieldsPrism2 : List Fld :=
  (List.range 16).flatMap (fun k => [PRISM_TIO_CFG.oe k, PRISM_TIO_CFG.cen k, PRISM_TIO_CFG.cedge k, PRISM_TIO_CFG.ctb k, PRISM_TIO_CFG.idl k, PRISM_TIO_CFG.pw k]) ++
  (List.range 16).flatMap (fun k => [PRISM_TIO_CSTAT.rise k, PRISM_TIO_CSTAT.level k, PRISM_TIO_CSTAT.ovf k]) ++
  (List.range 16).flatMap (fun k => [PRISM_TIO_CST.st k]) ++
  (List.range 16).flatMap (fun k => [PRISM_TIO_CHI.sec k]) ++
  (List.range 16).flatMap (fun k => [PRISM_TIO_CLO.frac k])

/-- Every field of the PWM page (word-array fields by index). -/
def fieldsPwm : List Fld :=
  [PWM_BLK.run, PWM_BLK.cal, PWM_BLK.padblk, PWM_BLK.trip, PWM_BLK.gen, PWM_BLK.owned] ++
  [PWM_CFG.kind, PWM_CFG.legen, PWM_CFG.carrier, PWM_CFG.reload, PWM_CFG.policy, PWM_CFG.track, PWM_CFG.cgrp, PWM_CFG.sgrp] ++
  [PWM_PER.per] ++
  [PWM_PHASE.ph] ++
  [PWM_DT.minp, PWM_DT.dt] ++
  (List.range 4).flatMap (fun k => [PWM_CMP.m k]) ++
  [PWM_COMMIT.start, PWM_COMMIT.stop, PWM_COMMIT.go] ++
  [PWM_SHSTAT.per_w, PWM_SHSTAT.cmp_w] ++
  [PWM_ACT_PER.per] ++
  (List.range 4).flatMap (fun k => [PWM_ACT_CMP.m k]) ++
  [PWM_XFER.refused, PWM_XFER.done] ++
  [PWM_TRIP.en, PWM_TRIP.blank, PWM_TRIP.filt] ++
  [PWM_TRK.err, PWM_TRK.lim] ++
  [PWM_CTR.c] ++
  [PWM_ENV_DUTY.hi, PWM_ENV_DUTY.lo] ++
  [PWM_ENV_PER.max, PWM_ENV_PER.min] ++
  [PWM_ENV_DT.dtmin] ++
  [PWM_SD_CFG.mode, PWM_SD_CFG.osr, PWM_SD_CFG.k, PWM_SD_CFG.inen] ++
  (List.range 3).flatMap (fun k => [PWM_SD_GAIN.g k]) ++
  (List.range 3).flatMap (fun k => [PWM_SD_OFF.o k]) ++
  (List.range 3).flatMap (fun k => [PWM_SD_RES.i k]) ++
  [PWM_SD_STAT.valid, PWM_SD_STAT.sat, PWM_SD_STAT.stuck, PWM_SD_STAT.seq]

/-- Every field of the PORT page (word-array fields by index). -/
def fieldsPort : List Fld :=
  [PORT_MCLK.en, PORT_MCLK.align, PORT_MCLK.run, PORT_MCLK.div, PORT_MCLK.dly] ++
  [PORT_DLCAL.locked, PORT_DLCAL.code] ++
  [PORT_IDR.st, PORT_IDR.r, PORT_IDR.code]

/-- Every field of the ALE page (word-array fields by index). -/
def fieldsAle : List Fld :=
  [ALE_BLK.hist, ALE_BLK.path, ALE_BLK.vsat, ALE_BLK.rclamp, ALE_BLK.dclamp, ALE_BLK.stale, ALE_BLK.envblk] ++
  [ALE_CFG.mode, ALE_CFG.asrc, ALE_CFG.ish, ALE_CFG.vbus, ALE_CFG.ff, ALE_CFG.dtc, ALE_CFG.wake, ALE_CFG.staleact, ALE_CFG.maxage, ALE_CFG.maxinv] ++
  [ALE_REF_D.r] ++
  [ALE_REF_Q.r] ++
  [ALE_REF_CTL.commit, ALE_REF_CTL.cpend, ALE_REF_CTL.tseq, ALE_REF_CTL.cseq] ++
  [ALE_THETA.th] ++
  [ALE_WREF.f] ++
  [ALE_KP_D.g] ++
  [ALE_KI_D.g] ++
  [ALE_KP_Q.g] ++
  [ALE_KI_Q.g] ++
  [ALE_VLIM.k] ++
  [ALE_VDC.v] ++
  [ALE_LD.l] ++
  [ALE_LQ.l] ++
  [ALE_PSI.p] ++
  [ALE_ADV.adv] ++
  [ALE_DTC.band] ++
  [ALE_AUX.duty] ++
  [ALE_COMM.pp, ALE_COMM.dir] ++
  [ALE_TOFF.th] ++
  [ALE_STP_I.irun, ALE_STP_I.ihold] ++
  [ALE_STP_CTL.wsw, ALE_STP_CTL.force, ALE_STP_CTL.tstill] ++
  [ALE_MEAS_D.i] ++
  [ALE_MEAS_Q.i] ++
  [ALE_OUT_D.v] ++
  [ALE_OUT_Q.v] ++
  [ALE_INT_D.i] ++
  [ALE_INT_Q.i] ++
  [ALE_ANG.th] ++
  [ALE_FE.f] ++
  [ALE_LAT.worst, ALE_LAT.last] ++
  [ALE_SEQ.seq] ++
  [ALE_ENV_I.imax, ALE_ENV_I.nq] ++
  [ALE_ENV_IREF.imag]

/-- Every field of the FBK page (word-array fields by index). -/
def fieldsFbk : List Fld :=
  [FBK_BLK.phist, FBK_BLK.shist, FBK_BLK.unc, FBK_BLK.ref, FBK_BLK.envblk, FBK_BLK.busy, FBK_BLK.supok] ++
  [FBK_CFG.mode, FBK_CFG.lgrp, FBK_CFG.dir, FBK_CFG.lfen, FBK_CFG.filt] ++
  [FBK_CPT.cpt] ++
  [FBK_IDX_CFG.zen, FBK_IDX_CFG.zgate, FBK_IDX_CFG.policy, FBK_IDX_CFG.tol] ++
  [FBK_IDX_EXP.exp] ++
  [FBK_IDX_ACT.act] ++
  [FBK_IDX_ERR.d] ++
  [FBK_IDX_PHI.p] ++
  [FBK_IDX_PLO.p] ++
  [FBK_IDX_THI.t] ++
  [FBK_IDX_TLO.t] ++
  [FBK_POS_SET_HI.p] ++
  [FBK_POS_SET_LO.p] ++
  [FBK_CTL.load, FBK_CTL.clrunc] ++
  [FBK_SPD_CFG.m, FBK_SPD_CFG.tz] ++
  [FBK_SPD.v] ++
  [FBK_POS_HI.p] ++
  [FBK_POS_LO.p] ++
  [FBK_SC_OFF.soff, FBK_SC_OFF.coff] ++
  [FBK_SC_GAIN.cgain] ++
  [FBK_SC_AMP.hi, FBK_SC_AMP.lo] ++
  [FBK_SC_MEAS.a2, FBK_SC_MEAS.phi] ++
  [FBK_SER_CFG.div, FBK_SER_CFG.gray, FBK_SER_CFG.nsl, FBK_SER_CFG.eb, FBK_SER_CFG.mt, FBK_SER_CFG.st] ++
  [FBK_SER_TIM.tlat, FBK_SER_TIM.tm, FBK_SER_TIM.dly, FBK_SER_TIM.tmo] ++
  [FBK_BISS_LEN.len3, FBK_BISS_LEN.len2, FBK_BISS_LEN.len1] ++
  (List.range 3).flatMap (fun k => [FBK_BISS_D.d k]) ++
  [FBK_SER_STAT.cause, FBK_SER_STAT.err, FBK_SER_STAT.sl] ++
  [FBK_BISS_REQ.go, FBK_BISS_REQ.rd, FBK_BISS_REQ.done, FBK_BISS_REQ.fail, FBK_BISS_REQ.idn, FBK_BISS_REQ.addr, FBK_BISS_REQ.data] ++
  [FBK_SER_LD.ld] ++
  [FBK_CMP_HI.p] ++
  [FBK_CMP_LO.p] ++
  [FBK_CMP_SHI.p] ++
  [FBK_CMP_SLO.p] ++
  [FBK_CMP_CTL.en, FBK_CMP_CTL.out, FBK_CMP_CTL.dneg, FBK_CMP_CTL.cnt] ++
  [FBK_CMP_STAT.skip, FBK_CMP_STAT.match] ++
  [FBK_CMP_THI.t] ++
  [FBK_CMP_TLO.t] ++
  [FBK_EMU.src, FBK_EMU.inv, FBK_EMU.zsel, FBK_EMU.zw, FBK_EMU.minsp] ++
  [FBK_EMU_CPT.cpt] ++
  [FBK_EMU_ZPOS.f] ++
  [FBK_EMU_ST.behind, FBK_EMU_ST.lag] ++
  [FBK_SUP.sel, FBK_SUP.en, FBK_SUP.supok, FBK_SUP.oc, FBK_SUP.budget, FBK_SUP.imeas] ++
  [FBK_SUP_TOT.tot] ++
  [FBK_ENV_SPD.vmax] ++
  [FBK_ENV_PLO_HI.p] ++
  [FBK_ENV_PLO_LO.p] ++
  [FBK_ENV_PHI_HI.p] ++
  [FBK_ENV_PHI_LO.p] ++
  [FBK_ENV_CTL.dir, FBK_ENV_CTL.pwin, FBK_ENV_CTL.sen, FBK_ENV_CTL.dtol] ++
  [FBK_LAT_HI.p] ++
  [FBK_LAT_LO.p] ++
  [FBK_LAT_SPD.v] ++
  [FBK_LAT_THI.t] ++
  [FBK_LAT_TLO.t] ++
  [FBK_LAT_ST.phist, FBK_LAT_ST.shist, FBK_LAT_ST.unc, FBK_LAT_ST.ref, FBK_LAT_ST.fresh, FBK_LAT_ST.amp, FBK_LAT_ST.seq]

/-- Every field of the PROF page (word-array fields by index). -/
def fieldsProf : List Fld :=
  [PROF_BLK.busy, PROF_BLK.ref, PROF_BLK.plost, PROF_BLK.ovs, PROF_BLK.envblk, PROF_BLK.hstate, PROF_BLK.limp, PROF_BLK.limn, PROF_BLK.home, PROF_BLK.strm, PROF_BLK.res, PROF_BLK.blocked] ++
  [PROF_CFG.shape, PROF_CFG.keep, PROF_CFG.psrc, PROF_CFG.lact, PROF_CFG.noref] ++
  [PROF_TGT_HI.p] ++
  [PROF_TGT_LO.p] ++
  [PROF_VMAX.v] ++
  [PROF_AMAX.a] ++
  [PROF_DMAX.a] ++
  [PROF_ADEC.a] ++
  [PROF_JOG.v] ++
  [PROF_CMD.go, PROF_CMD.op, PROF_CMD.abort, PROF_CMD.qstop, PROF_CMD.setpos] ++
  [PROF_CRES.cres, PROF_CRES.abres] ++
  [PROF_POS_HI.p] ++
  [PROF_POS_LO.p] ++
  [PROF_VEL.v] ++
  [PROF_ACC.a] ++
  [PROF_POS_SET_HI.p] ++
  [PROF_POS_SET_LO.p] ++
  [PROF_STEP.fspt, PROF_STEP.mres, PROF_STEP.cmin, PROF_STEP.dinv] ++
  [PROF_STEPT.pw, PROF_STEPT.minlo, PROF_STEPT.tsu, PROF_STEPT.th] ++
  [PROF_MRES.thr] ++
  [PROF_STEPCNT.n] ++
  [PROF_STEPLAG.lag] ++
  [PROF_LIM.r0, PROF_LIM.r1, PROF_LIM.pol0, PROF_LIM.pol1, PROF_LIM.db, PROF_LIM.chold] ++
  [PROF_HOME.meth, PROF_HOME.hdir, PROF_HOME.hres] ++
  [PROF_HOME_VS.v] ++
  [PROF_HOME_VL.v] ++
  [PROF_HOME_POS_HI.p] ++
  [PROF_HOME_POS_LO.p] ++
  [PROF_HOME_MAXD.d] ++
  [PROF_HCAP_HI.p] ++
  [PROF_HCAP_LO.p] ++
  [PROF_SP_HI.p] ++
  [PROF_SP_LO.p] ++
  [PROF_SP_VEL.v] ++
  [PROF_SP_THI.t] ++
  [PROF_SP_TLO.t] ++
  [PROF_SP_CTL.push, PROF_SP_CTL.level, PROF_SP_CTL.hold] ++
  [PROF_LAT_HI.p] ++
  [PROF_LAT_LO.p] ++
  [PROF_LAT_VEL.v] ++
  [PROF_LAT_ACC.a] ++
  [PROF_LAT_ST.ref, PROF_LAT_ST.busy, PROF_LAT_ST.seq] ++
  [PROF_ENV_V.vmax] ++
  [PROF_ENV_A.amax] ++
  [PROF_ENV_PLO_HI.p] ++
  [PROF_ENV_PLO_LO.p] ++
  [PROF_ENV_PHI_HI.p] ++
  [PROF_ENV_PHI_LO.p] ++
  [PROF_ENV_CTL.pwin, PROF_ENV_CTL.ven, PROF_ENV_CTL.aen]

/-- Every field of the CORE page (word-array fields by index). -/
def fieldsCore : List Fld :=
  [CORE_BLK.run, CORE_BLK.nmi, CORE_BLK.halted, CORE_BLK.wait, CORE_BLK.task] ++
  [CORE_EXC_ST.valid, CORE_EXC_ST.impr, CORE_EXC_ST.cause, CORE_EXC_ST.lost, CORE_EXC_ST.task] ++
  [CORE_EXC_PC.pc] ++
  [CORE_EXC_INFO.info] ++
  [CORE_NMI_VEC.vec] ++
  [CORE_NMI.pend, CORE_NMI.setNow, CORE_NMI.src, CORE_NMI.count] ++
  [CORE_CYC.cyc] ++
  [CORE_STALL.n] ++
  [CORE_POSTREF.n] ++
  [CORE_OUT.rd, CORE_OUT.wr]

/-- Every field of the TSK table entry (word-array fields by index). -/
def fieldsTsk : List Fld :=
  [TSK_CFG.en, TSK_CFG.level, TSK_CFG.entry] ++
  [TSK_AFF0.mask] ++
  [TSK_AFF1.mask] ++
  [TSK_STAT.state, TSK_STAT.pend, TSK_STAT.ctxv, TSK_STAT.core, TSK_STAT.seq] ++
  [TSK_CNT.refused, TSK_CNT.cancelled, TSK_CNT.faults] ++
  [TSK_WWORST.w] ++
  [TSK_WSUM.s] ++
  [TSK_WCNT.n] ++
  (List.range 56).flatMap (fun k => [TSK_CTX.w k])

/-- Every field of the INNK0 page (word-array fields by index). -/
def fieldsInnk0 : List Fld :=
  [INNK_CMD.go, INNK_CMD.op, INNK_CMD.task] ++
  [INNK_CMD_ST.res, INNK_CMD_ST.removed, INNK_CMD_ST.task] ++
  [INNK_PQ.hwm, INNK_PQ.level] ++
  [INNK_STAT.listed, INNK_STAT.faulted, INNK_STAT.running] ++
  [INNK_REF_A.pfull, INNK_REF_A.qfull] ++
  [INNK_REF_B.dis, INNK_REF_B.canc] ++
  [INNK_REF_LAST.code, INNK_REF_LAST.cls, INNK_REF_LAST.src, INNK_REF_LAST.task] ++
  [INNK_LOAD_CFG.en, INNK_LOAD_CFG.w] ++
  [INNK_DISP.n] ++
  [INNK_PREEMPT.n]

/-- Every field of the INNK1 page (word-array fields by index). -/
def fieldsInnk1 : List Fld :=
  (List.range 64).flatMap (fun k => [INNK_LVL.hwm k, INNK_LVL.cur k])

/-- Every field of the INNK2 page (word-array fields by index). -/
def fieldsInnk2 : List Fld :=
  (List.range 64).flatMap (fun k => [INNK_LOAD.peak k, INNK_LOAD.last k])

/-- Every field of the NAME table entry (word-array fields by index). -/
def fieldsName : List Fld :=
  [NAME_LO.serlo 0] ++
  [NAME_HI.present 0, NAME_HI.cand 0, NAME_HI.serhi 0]

/-- Every field of the SCHED table entry (word-array fields by index). -/
def fieldsSched : List Fld :=
  [SCHED_W0.valid 0, SCHED_W0.role 0, SCHED_W0.start 0, SCHED_W0.owner 0, SCHED_W0.cs 0, SCHED_W0.kind 0] ++
  [SCHED_W1.len 0, SCHED_W1.inp 0, SCHED_W1.out 0, SCHED_W1.wrap 0, SCHED_W1.dup 0, SCHED_W1.crit 0] ++
  [SCHED_W2.idn 0, SCHED_W2.ftime 0] ++
  [SCHED_W3.buf 0, SCHED_W3.plen 0, SCHED_W3.post 0, SCHED_W3.task 0] ++
  [SCHED_W4.empty 0, SCHED_W4.drop 0, SCHED_W4.ok 0]

/-- Every field of the RING11 page (word-array fields by index). -/
def fieldsRing11 : List Fld :=
  (List.range 16).flatMap (fun k => [RING_CP.en k, RING_CP.off k, RING_CP.task k])

/-- Every field of the RING0 page (word-array fields by index). -/
def fieldsRing0 : List Fld :=
  [RING_NODE.nstar] ++
  [RING_CYC.k] ++
  [RING_SPOKES.len] ++
  [RING_GUARD.w] ++
  [RING_SYNC.lim, RING_SYNC.hold] ++
  [RING_START.tl] ++
  [RING_STAT.state, RING_STAT.hcause, RING_STAT.wrapped, RING_STAT.tm, RING_STAT.csaddr, RING_STAT.addr] ++
  [RING_HOPS.hpri, RING_HOPS.hctr] ++
  [RING_TTBASE.base] ++
  [RING_EMPTY.n] ++
  [RING_REINT.n] ++
  [RING_RXQ_QBASE.base] ++
  [RING_RXQ_QCFG.en, RING_RXQ_QCFG.lg, RING_RXQ_QCFG.post, RING_RXQ_QCFG.task, RING_RXQ_QCFG.bufsz] ++
  [RING_RXQ_QHEAD.head] ++
  [RING_RXQ_QTAIL.tail] ++
  [RING_TXQ_QBASE.base] ++
  [RING_TXQ_QCFG.en, RING_TXQ_QCFG.lg, RING_TXQ_QCFG.post, RING_TXQ_QCFG.task, RING_TXQ_QCFG.bufsz] ++
  [RING_TXQ_QHEAD.head] ++
  [RING_TXQ_QTAIL.tail]

/-- Every field of the RINGP page (word-array fields by index). -/
def fieldsRingp : List Fld :=
  [RING_P_STAT.up, RING_P_STAT.broken, RING_P_STAT.wrap, RING_P_STAT.lkfail, RING_P_STAT.found, RING_P_STAT.nbr] ++
  [RING_P_RXF.n] ++
  [RING_P_DROP.n] ++
  [RING_P_DLAST.reason, RING_P_DLAST.idn] ++
  [RING_P_FCS.n] ++
  [RING_P_CRED.cred] ++
  [RING_P_DOWN.n]

/-- Every field of the ETHP page (word-array fields by index). -/
def fieldsEthp : List Fld :=
  [ETH_CFG.spd, ETH_CFG.promisc, ETH_CFG.mcall, ETH_CFG.maxfr] ++
  [ETH_LINK.up, ETH_LINK.speed, ETH_LINK.down] ++
  [ETH_MAC_HI.a] ++
  [ETH_MAC_LO.a] ++
  [ETH_RXMAP.map] ++
  [ETH_PFC.en, ETH_PFC.pa, ETH_PFC.pb, ETH_PFC.xoff, ETH_PFC.xon] ++
  [ETH_CAP.rate, ETH_CAP.burst] ++
  (List.range 8).flatMap (fun k => [ETH_QCAP.rate k, ETH_QCAP.burst k]) ++
  [ETH_RXF.n] ++
  [ETH_RXE.n] ++
  [ETH_RXD.n] ++
  [ETH_HROV.n] ++
  [ETH_TXF.n] ++
  [ETH_PFCC.tx, ETH_PFCC.rx] ++
  (List.range 4).flatMap (fun k => [ETH_RXQ_QBASE.base k]) ++
  (List.range 4).flatMap (fun k => [ETH_RXQ_QCFG.en k, ETH_RXQ_QCFG.lg k, ETH_RXQ_QCFG.post k, ETH_RXQ_QCFG.task k, ETH_RXQ_QCFG.bufsz k]) ++
  (List.range 4).flatMap (fun k => [ETH_RXQ_QHEAD.head k]) ++
  (List.range 4).flatMap (fun k => [ETH_RXQ_QTAIL.tail k]) ++
  (List.range 8).flatMap (fun k => [ETH_TXQ_QBASE.base k]) ++
  (List.range 8).flatMap (fun k => [ETH_TXQ_QCFG.en k, ETH_TXQ_QCFG.lg k, ETH_TXQ_QCFG.post k, ETH_TXQ_QCFG.task k, ETH_TXQ_QCFG.bufsz k]) ++
  (List.range 8).flatMap (fun k => [ETH_TXQ_QHEAD.head k]) ++
  (List.range 8).flatMap (fun k => [ETH_TXQ_QTAIL.tail k])

/-- Every field of the SAFE0 page (word-array fields by index). -/
def fieldsSafe0 : List Fld :=
  [SAFE_STAT.state, SAFE_STAT.locked, SAFE_STAT.hwsafe, SAFE_STAT.bank, SAFE_STAT.fcause, SAFE_STAT.cyc] ++
  [SAFE_FINFO.info] ++
  [SAFE_IMG.idn] ++
  [SAFE_ACK.acc, SAFE_ACK.ign] ++
  [SAFE_CONN0.ok] ++
  [SAFE_CONN1.ok]

/-- Every field of the SAFE1 page (word-array fields by index). -/
def fieldsSafe1 : List Fld :=
  [SAFE_MB_CMD.go, SAFE_MB_CMD.busy, SAFE_MB_CMD.op] ++
  [SAFE_MB_ARG.arg] ++
  [SAFE_MB_RES.res, SAFE_MB_RES.op, SAFE_MB_RES.reason, SAFE_MB_RES.seq]

/-- Every field of the SAFE2 page (word-array fields by index). -/
def fieldsSafe2 : List Fld :=
  [SAFE_SI.raw] ++
  [SAFE_SIQ.q] ++
  [SAFE_SIF.f] ++
  [SAFE_OUT.so, SAFE_OUT.sofault, SAFE_OUT.tpfault, SAFE_OUT.gen] ++
  (List.range 12).flatMap (fun k => [SAFE_PORT.pstate k, SAFE_PORT.ackreq k, SAFE_PORT.hdue k, SAFE_PORT.lset k, SAFE_PORT.lreq k, SAFE_PORT.cause k, SAFE_PORT.chstop k])

/-- Every field of the SAFE3 page (word-array fields by index). -/
def fieldsSafe3 : List Fld :=
  (List.range 96).flatMap (fun k => [SAFE_CH.sls k, SAFE_CH.slp k, SAFE_CH.sdi k, SAFE_CH.envstop k, SAFE_CH.viol k, SAFE_CH.bstate k, SAFE_CH.edata k, SAFE_CH.hdue k, SAFE_CH.hres k, SAFE_CH.ovr k, SAFE_CH.age k])

/-- Every field of the LENS0 page (word-array fields by index). -/
def fieldsLens0 : List Fld :=
  [LENS_STAT.state, LENS_STAT.ovf, LENS_STAT.rep, LENS_STAT.nobj, LENS_STAT.seq] ++
  [LENS_STOP.aa, LENS_STOP.unk, LENS_STOP.stop] ++
  [LENS_LREQ.reach, LENS_LREQ.lreq] ++
  [LENS_WSEL.arm] ++
  (List.range 16).flatMap (fun k => [LENS_SCAN.hl k, LENS_SCAN.sf k, LENS_SCAN.fmt k, LENS_SCAN.nobj k, LENS_SCAN.seq k])

/-- Every field of the LENS1 page (word-array fields by index). -/
def fieldsLens1 : List Fld :=
  (List.range 12).flatMap (fun k => [LENS_MARG.m k]) ++
  (List.range 12).flatMap (fun k => [LENS_DIST.d k]) ++
  (List.range 12).flatMap (fun k => [LENS_SP.sp k]) ++
  (List.range 12).flatMap (fun k => [LENS_WHO.cap k, LENS_WHO.scan k, LENS_WHO.obj k, LENS_WHO.oarm k, LENS_WHO.ocap k, LENS_WHO.acap k, LENS_WHO.tool k]) ++
  (List.range 12).flatMap (fun k => [LENS_AAM.m k])

/-- Every field of the MEM0 page (word-array fields by index). -/
def fieldsMem0 : List Fld :=
  [MEM_SCRUB.en, MEM_SCRUB.per] ++
  [MEM_SR_CE.n] ++
  [MEM_SR_UE.n] ++
  [MEM_SR_LADDR.a] ++
  [MEM_SR_LINFO.ue, MEM_SR_LINFO.src, MEM_SR_LINFO.ini, MEM_SR_LINFO.syn] ++
  [MEM_SR_PASS.n]

/-- Every field of the MEM1 page (word-array fields by index). -/
def fieldsMem1 : List Fld :=
  [MEM_DSCRUB.en, MEM_DSCRUB.per] ++
  [MEM_DOCC.hwm, MEM_DOCC.level] ++
  [MEM_DCE.n] ++
  [MEM_DUE.n] ++
  [MEM_DLADDR.a] ++
  [MEM_DLINFO.ue, MEM_DLINFO.adr, MEM_DLINFO.src, MEM_DLINFO.ini, MEM_DLINFO.syn] ++
  [MEM_DTHR.nbank, MEM_DTHR.nrow] ++
  [MEM_DPASS.n] ++
  [MEM_DROVF.n] ++
  (List.range 32).flatMap (fun k => [MEM_DBANK.lasting k, MEM_DBANK.total k, MEM_DBANK.prev k, MEM_DBANK.cur k]) ++
  (List.range 16).flatMap (fun k => [MEM_DROW.used k, MEM_DROW.bank k, MEM_DROW.row k]) ++
  (List.range 16).flatMap (fun k => [MEM_DROWS.lasting k, MEM_DROWS.total k, MEM_DROWS.prev k, MEM_DROWS.cur k])

/-- Every field of the MEM3 page (word-array fields by index). -/
def fieldsMem3 : List Fld :=
  [MEM_MW_ADDR.off] ++
  [MEM_MW_DATA.d] ++
  [MEM_MSTAT.level, MEM_MSTAT.refused] ++
  [MEM_MWP.we] ++
  [MEM_LOG.en, MEM_LOG.scan, MEM_LOG.next] ++
  [MEM_LOG_SEQ.seq] ++
  [MEM_LOG_LOST.n] ++
  [MEM_MCE.n] ++
  [MEM_MUE.n] ++
  [MEM_MWERR.n]

/-- Every field of the PORTER0 page (word-array fields by index). -/
def fieldsPorter0 : List Fld :=
  [PORTER_START.go, PORTER_START.slot] ++
  [PORTER_STAT.refused, PORTER_STAT.hwm, PORTER_STAT.inflight] ++
  [PORTER_ELAST.code, PORTER_ELAST.slot] ++
  [PORTER_EADDR.a] ++
  [PORTER_WORDS.n]

/-- Every field of the PORTER1 page (word-array fields by index). -/
def fieldsPorter1 : List Fld :=
  (List.range 64).flatMap (fun k => [PORTER_SHEAD.head k]) ++
  (List.range 64).flatMap (fun k => [PORTER_SCTL.en k, PORTER_SCTL.urg k, PORTER_SCTL.queued k, PORTER_SCTL.runs k])

/-- Every field of the CLK page (word-array fields by index). -/
def fieldsClk : List Fld :=
  [CLK_SRC.irc_en, CLK_SRC.irc_rdy, CLK_SRC.xom_rdy, CLK_SRC.ext_ok, CLK_SRC.disc, CLK_SRC.dlock, CLK_SRC.pull] ++
  [CLK_PLL.en, CLK_PLL.lock, CLK_PLL.lost] ++
  [CLK_DOM_CORE.go, CLK_DOM_CORE.sw, CLK_DOM_CORE.src, CLK_DOM_CORE.cur, CLK_DOM_CORE.res, CLK_DOM_CORE.fb, CLK_DOM_CORE.thr] ++
  [CLK_DOM_FAB.go, CLK_DOM_FAB.sw, CLK_DOM_FAB.src, CLK_DOM_FAB.cur, CLK_DOM_FAB.res, CLK_DOM_FAB.fb, CLK_DOM_FAB.thr] ++
  [CLK_DOM_FIX.pgo, CLK_DOM_FIX.mgo, CLK_DOM_FIX.prun, CLK_DOM_FIX.mrun, CLK_DOM_FIX.pdead, CLK_DOM_FIX.mdead] ++
  [CLK_SSC.cen, CLK_SSC.cdep, CLK_SSC.men, CLK_SSC.mdep, CLK_SSC.rate] ++
  [CLK_MON.trip, CLK_MON.count] ++
  [CLK_MON_LAST.clk, CLK_MON_LAST.kind] ++
  [CLK_GATE_REF.n, CLK_GATE_REF.page] ++
  [CLK_FGATE.go, CLK_FGATE.page]

/-- Every field of the SYS1 page (word-array fields by index). -/
def fieldsSys1 : List Fld :=
  [SYS_TEMP.intake, SYS_TEMP.exhaust, SYS_TEMP.die] ++
  [SYS_FAN.f0fail, SYS_FAN.f1fail, SYS_FAN.f0rpm, SYS_FAN.f1rpm] ++
  [SYS_VLOGIC.va, SYS_VLOGIC.vb, SYS_VLOGIC.pw] ++
  [SYS_VBRAKE.v1, SYS_VBRAKE.v2] ++
  [SYS_IBRAKE.i1, SYS_IBRAKE.i2] ++
  [SYS_ENVST.la, SYS_ENVST.lb, SYS_ENVST.b1ok, SYS_ENVST.b2ok, SYS_ENVST.thrc, SYS_ENVST.warn]

/-- Every field of the ETH0 page (word-array fields by index). -/
def fieldsEth0 : List Fld :=
  [ETH_BUF.use, ETH_BUF.hwm]

/-- Every field of the LENS2 page (word-array fields by index). -/
def fieldsLens2 : List Fld :=
  (List.range 128).flatMap (fun k => [LENS_CAP.w k])

end Sys2Proof.Machine
end

