-- ==== Sys2Proof/Machine/Records.lean ====
section
/-! DEFINITION. The plain records that commands and State carry: posts, latch sets, ring and Ethernet frames, link
blocks, and the parameters of the safety image (R423, R435 to R438). -/

namespace Sys2Proof.Machine

/-- An edge that a delay line captures: its direction, and its tap of 78.125 ps after the present PCLK edge (R92, R112). -/
structure CapEdge where
  rising : Bool := true
  tap : Nat := 0
  deriving DecidableEq, Repr, Inhabited

/-- What the trip input of an axis channel `ch` shows: active or not, for `n` consecutive PCLK samples that end with this one (R138). -/
structure TripSample where
  ch : Nat := 0
  active : Bool := true
  n : Nat := 1
  deriving DecidableEq, Repr, Inhabited

/-- A receiver pair of a channel, 0 to 2, and whether it is open or shorted (R198). -/
structure LineState where
  line : Nat := 0
  bad : Bool := true
  deriving DecidableEq, Repr, Inhabited

/-- The outcome of an access at its target: served, served with a corrected single-bit error, an uncorrectable error,
an error of kind address (DRAM only, R460), or no response (R297). -/
inductive AccessEnd where
  | ok
  | corrected (syn : Nat)
  | uncorrectable (syn : Nat)
  | addressKind (syn : Nat)
  | noResponse
  deriving DecidableEq, Repr

/-- A post on its way to the Innkeeper (R328): producer class (0 Prism, 1 page, 2 core), producer number, task, a tag
(Prism: the action code, page: 1 for action 1 of R40, core: 1 for POSTA), the edge on which it was offered (R46), and the time it
arrived in nanoseconds with the CT epoch it is counted in. -/
structure Post where
  cls : Nat := 0
  src : Nat := 0
  task : Nat := 0
  tag : Nat := 0
  at_ : Nat := 0
  arrived : Nat := 0
  epoch : Nat := 0
  deriving DecidableEq, Repr, Inhabited

/-- A latch set (R212): position in 2^-36 turn, speed in 2^-16 rev/s, time of validity in 1/64 ns of cell time and its
epoch, and the flags. a2 is the squared amplitude of mode 2 (R206). -/
structure LatchSet where
  pos : Int := 0
  spd : Int := 0
  t64 : Nat := 0
  epoch : Nat := 0
  phist : Bool := false
  shist : Bool := false
  unc : Bool := false
  ref : Bool := false
  fresh : Bool := false
  amp : Bool := false
  a2 : Option Nat := none
  prev : Option Int := none
  deriving DecidableEq, Repr, Inhabited

/-- A ring frame on the wire (R364). `slot` is the slot id of types 0 to 2 or the destination of type 3; the payload is
a list of octets; `start` is the ingress stamp of its first bit in 1/64 ns of the node's CT; `dur` is how long it ran in
1/64 ns; `ver` is the header's version. -/
structure RingFrame where
  typ : Nat := 0
  wrap : Bool := false
  dup : Bool := false
  bcast : Bool := false
  dir : Bool := false
  src : Nat := 0
  slot : Nat := 0
  cyc : Nat := 0
  transit : Nat := 0
  hop : Nat := 0
  seq : Nat := 0
  payload : List Nat := []
  fcsOk : Bool := true
  stamp : Nat := 0
  dur : Nat := 0
  ver : Nat := 1
  deriving DecidableEq, Repr, Inhabited

/-- A link block or link frame (R354, R382): returned credits, the neighbour's receive failed, a break notice (broken
hop, cycle of declaration, and the new path lengths it brings), a restore notice (cycle), and the neighbour's address. -/
structure LinkBlock where
  credits : Nat := 0
  rxFail : Bool := false
  brk : Option (Nat × Nat) := none
  restore : Option Nat := none
  nbr : Nat := 0
  deriving DecidableEq, Repr, Inhabited

/-- A received Ethernet frame: its octets without the FCS, and whether the FCS was good. -/
structure EthFrame where
  octets : List Nat := []
  fcsOk : Bool := true
  stamp : Nat := 0
  deriving DecidableEq, Repr, Inhabited

/-- What one slave of a BiSS frame sends (R209): its data, most significant bit first, nE, nW and its 6-bit CRC as transmitted. -/
structure BissSlave where
  bits : List Bool := []
  nE : Bool := true
  nW : Bool := true
  crc : Nat := 0
  deriving DecidableEq, Repr, Inhabited

/-- A serial encoder frame as sampled (R207 to R211): of mode 3 the level of the data line at L, the position bits (most significant
first) and the error bits; of mode 4 the clock periods after which the start bit came, the slaves in the order of their data, the
measured line delay, the PCLK cycles after the frame in which SLO is high again, and the answer to a register access that ends with
this frame. -/
structure SerialFrame where
  idleHigh : Bool := true
  bits : List Bool := []
  errBits : List Bool := []
  start : Option Nat := some 0
  slaves : List BissSlave := []
  delay : Nat := 0
  slo : Nat := 0
  accessEnd : Option (Bool × Nat) := none
  deriving DecidableEq, Repr, Inhabited

/-- Parameters of one safety input (R423). -/
structure SiCfg where
  role : Nat := 0
  ports : Nat := 0
  pair : Option Nat := none
  tpGroup : Option Nat := none
  filterUs : Nat := 1000
  tdiscMs : Nat := 100
  deriving DecidableEq, Repr, Inhabited

/-- Parameters of one port (R423). -/
structure PortCfg where
  ts1Ms : Nat := 500
  ackSet : Nat := 0x3FFF
  softAck : Bool := false
  ackPowerUp : Bool := true
  deriving DecidableEq, Repr, Inhabited

/-- The parameters of one limit set of a channel (R423): SLS limit in 2^-16 rev/s (none: unlimited), position window
in 2^-36 turn, direction. -/
structure LimitSet where
  vlim : Option Nat := none
  plo : Int := -(2 ^ 71)
  phi : Int := 2 ^ 71 - 1
  dir : Nat := 0
  deriving DecidableEq, Repr, Inhabited

/-- Parameters of one channel and its brake (R423). Speeds are in 2^-16 rev/s, decelerations in rev/s², positions in
2^-36 turn. -/
structure ChCfg where
  envReact : Nat := 0
  sls : Bool := false
  slp : Bool := false
  sdi : Bool := false
  monitored : Bool := false
  sets : List LimitSet := []
  dsls : Nat := 100
  dslp : Nat := 100
  d1 : Nat := 100
  tol1 : Nat := 65536
  vstand : Nat := 6554
  vhome : Nat := 32768
  tolSdi : Nat := 2 ^ 24
  hwin : Nat := 2 ^ 24
  violReact : Nat := 0
  sincos : Bool := false
  a2lo : Nat := 5898
  a2hi : Nat := 23593
  brake : Bool := false
  tpullMs : Nat := 100
  hold : Nat := 50
  sbcMs : Nat := 0
  tbtMs : Nat := 1000
  tbpUs : Nat := 200
  testH : Nat := 8
  tminMs : Nat := 1000
  graceH : Nat := 1
  deriving DecidableEq, Repr, Inhabited

/-- Parameters of one receive connection (R422, R423). -/
structure ConnCfg where
  slot : Nat := 0
  conn : Nat := 0
  seed : Nat := 0
  wdMs : Nat := 20
  ss1 : Bool := false
  ports : Nat := 0
  deriving DecidableEq, Repr, Inhabited

/-- A pose: translation in 2^-20 m, rotation rows in 2^-34 (R434). -/
structure Pose where
  t : List Int := [0, 0, 0]
  r : List Int := [17179869184, 0, 0, 0, 17179869184, 0, 0, 0, 17179869184]
  deriving DecidableEq, Repr, Inhabited

/-- A joint record of the Lens model (R436). -/
structure LensJoint where
  pos : Nat := 0
  prismatic : Bool := false
  ratio : Int := 0
  zero : Int := 0
  vjmax : Nat := 0
  link : Pose := {}
  deriving DecidableEq, Repr, Inhabited

/-- A capsule record of the Lens model (R437). -/
structure LensCapsule where
  tool : Bool := false
  link : Nat := 0
  r : Nat := 0
  e0 : List Int := [0, 0, 0]
  e1 : List Int := [0, 0, 0]
  deriving DecidableEq, Repr, Inhabited

/-- An arm record of the Lens model (R435); absent arms are not listed. The capsules are listed by number. -/
structure LensArm where
  arm : Nat := 0
  ss1 : Bool := false
  pairs : Nat := 0
  base : Pose := {}
  zr : Nat := 0
  as_ : Nat := 1
  tsd : Nat := 0
  b1 : Nat := 0
  b2 : Nat := 0
  b3 : Nat := 0
  hb : Nat := 0
  thold : Nat := 10
  reach : Nat := 0
  caa : Nat := 0
  joints : List LensJoint := []
  capsules : List (Nat × LensCapsule) := []
  deriving DecidableEq, Repr, Inhabited

/-- A scanner record of the Lens model (R438); absent scanners are not listed. -/
structure LensScanner where
  scan : Nat := 0
  conn : Nat := 0
  arms : Nat := 0
  vh : Nat := 1677722
  tscan : Nat := 0
  c : Nat := 0
  zd : Nat := 0
  pose : Pose := {}
  deriving DecidableEq, Repr, Inhabited

/-- The records of one arm as the safety image holds them: the arm record of 24 words (R435), the joint records of 18 words (R436) and
the capsule records of 8 words (R437). -/
structure LensRecs where
  arm : List Word := []
  joints : List (List Word) := []
  caps : List (List Word) := []
  deriving DecidableEq, Repr, Inhabited

/-- The parameters of a safety image (R423, R434). `sl` lists the envelope values of R399 by word address. The spec
gives no octet layout of these parameters, so ISLAND_START carries them beside the bank's octets in MRAM. `model` lists the records of
arms 0, 1, ..., and `scan` the 20-word records of scanners 0, 1, ... (R435 to R438). -/
structure SafetyImage where
  sl : List (Nat × Word) := []
  si : List (Nat × SiCfg) := []
  tpwUs : List Nat := [250, 250, 250, 250, 250, 250, 250, 250]
  so : List Nat := [1, 1, 1, 1]
  ports : List (Nat × PortCfg) := []
  chans : List (Nat × ChCfg) := []
  fcReact : List (Nat × Nat) := []
  rx : List (Nat × ConnCfg) := []
  tx : List (Nat × ConnCfg) := []
  model : List LensRecs := []
  scan : List (List Word) := []
  deriving DecidableEq, Repr, Inhabited

end Sys2Proof.Machine
end

