-- ==== Sys2Proof/Machine/Table.lean ====
section
/-! DEFINITION. Sparse tables: a list of key and value pairs in one canonical form (keys strictly rising, no entry
equal to what an unlisted key reads as), with the read and the write that every store of the machine uses. -/

namespace Sys2Proof.Machine

/-- A sparse table: what is not listed reads as the table's default. -/
abbrev Tab (α : Type) := List (Nat × α)

/-- The value listed for a key, if any. -/
def Tab.find {α : Type} (t : Tab α) (k : Nat) : Option α :=
  match t with
  | [] => none
  | e :: r => if e.1 = k then some e.2 else Tab.find r k

/-- Read a key: the listed value, or the default of that key. -/
def Tab.get {α : Type} (d : Nat → α) (t : Tab α) (k : Nat) : α :=
  (Tab.find t k).getD (d k)

/-- Remove a key. -/
def Tab.drop {α : Type} (t : Tab α) (k : Nat) : Tab α :=
  match t with
  | [] => []
  | e :: r => if e.1 = k then Tab.drop r k else e :: Tab.drop r k

/-- List a value for a key, keeping the keys in rising order. -/
def Tab.put {α : Type} (t : Tab α) (k : Nat) (v : α) : Tab α :=
  match t with
  | [] => [(k, v)]
  | e :: r => if k < e.1 then (k, v) :: e :: r else if e.1 = k then (k, v) :: r else e :: Tab.put r k v

/-- Write a key: writing the default removes the entry, so equal tables are equal data. -/
def Tab.set {α : Type} [DecidableEq α] (d : Nat → α) (t : Tab α) (k : Nat) (v : α) : Tab α :=
  if v = d k then Tab.drop t k else Tab.put t k v

/-- The keys rise strictly. -/
def Tab.sorted {α : Type} (t : Tab α) : Bool :=
  match t with
  | [] => true
  | e :: r => (match r with | [] => true | e' :: _ => decide (e.1 < e'.1)) && Tab.sorted r

/-- The canonical form: rising keys and no default value listed. (DESIGN CHOICE, log 5) -/
def Tab.wf {α : Type} [DecidableEq α] (d : Nat → α) (t : Tab α) : Bool :=
  Tab.sorted t && t.all (fun e => decide (e.2 ≠ d e.1))

end Sys2Proof.Machine
end

