-- ==== Sys2Proof/Syntax.lean ====
section
/-! DEFINITION. The commands of the block: one constructor per row of spec/opcode_table.json, in the table's order,
with the operands the row's rule gives it. `c` is a core, `ch` an axis channel, `ini` the initiator of an access
(0 to 63 a core, 64 + e Porter engine e, 72 the safety island, 73 the boot ROM, 74 the console), `page` a page index (R334). -/

namespace Sys2Proof

/-- A command (an operation, an event on a pin or an internal happening) of the module. -/
inductive Instr where
  /-- REGISTER_WRITE (R10): A write to a register field that has no behaviour of its own: RW fields are taken, and locked SL or OL fields are refused and counted. -/
  | registerWrite (ini : Nat) (addr : Word) (v : Word)
  /-- SRST (R21): A write of 1 to PAGE_CTL.srst resets the block-specific registers and state of a page, keeping the header, locks and envelope blocks. -/
  | srst (page : Nat)
  /-- SRST_END (R21): The block reset ends within 16 FAB cycles, and held accesses to block-specific words proceed. -/
  | srstEnd (page : Nat)
  /-- TB_SRST (R546): srst of a TB1 to TB3 page resets the servo state and keeps the base value, epoch and hist. -/
  | tbSrst (n : Nat)
  /-- TIME_SRST (R547): srst of TIME page 0 resets its settings while cell time keeps its value, validity, epoch and rate. -/
  | timeSrst
  /-- PRISM_SRST (R102): srst of PRISM page 0 clears every trigger entry and resets pages 1 and 2. -/
  | prismSrst
  /-- PAGE_ENABLE_WRITE (R20): A write of PAGE_CTL.en enables or disables a block, with the block-specific effects of en. -/
  | pageEnableWrite (page : Nat) (en : Bool)
  /-- GATE_REQUEST (R503): A write of gate_req = 1 makes a gateable block hold new accesses and wait until it is idle. -/
  | gateRequest (page : Nat)
  /-- GATE_ACK (R503): The block becomes idle, its clock stops, gate_ack sets, and held accesses complete with a bus error. -/
  | gateAck (page : Nat)
  /-- GATE_REFUSED (R504): The block is not idle within 1,024 cycles of the request, so gate_req clears and the refusal is recorded. -/
  | gateRefused (page : Nat)
  /-- GATE_RELEASE (R503): A write of gate_req = 0 withdraws a pending request or restarts the gated clock within 4 cycles. -/
  | gateRelease (page : Nat)
  /-- PAGE_POST_DELIVER (R34): A page post held at a full crossing FIFO is delivered when the FIFO has room. -/
  | pagePostDeliver
  /-- EVENT_CLEAR (R24): A W1C write to PAGE_EV or PAGE_EVPEND clears bits, and a coinciding new event keeps the bit set. -/
  | eventClear (page : Nat) (pend : Bool) (mask : Word) (newEv : Word)
  /-- FC_CFG_WRITE (R42): A write of FC_CFG takes effect at once and clears cur and prev; invalid values are refused and counted. -/
  | fcCfgWrite (ini : Nat) (page : Nat) (v : Word)
  /-- FC_WINDOW_EDGE (R38): At each window edge of 2^w µs, prev takes cur and cur becomes 0. -/
  | fcWindowEdge (page : Nat)
  /-- FAULT_CLEAR (R43): A write of 1 to FC_STAT.lasting clears lasting, cur and prev, and releases an action-4 block. -/
  | faultClear (page : Nat) (counted : Bool)
  /-- SNAPSHOT_READ (R80): A read of word 3b of a core's snapshot words takes a new snapshot of counter b and returns its seconds. -/
  | snapshotRead (core : Nat) (b : Nat)
  /-- PPS_IN_EDGE (R75): An edge at the 1PPS input is stamped into TIME_PPS_IN and records event 5. -/
  | ppsInEdge (rising : Machine.CapEdge)
  /-- TEN_MHZ_IN_EDGE (R56): An edge at the 10 MHz input, taken once per millisecond, gives a measurement for bases with source 5 or 6. -/
  | tenMhzInEdge
  /-- TB_MEAS_WRITE (R65): A firmware write of TIME_TBn_MEAS with src = 3 is a measurement. -/
  | tbMeasWrite (n : Nat) (v : Word)
  /-- TB_MEAS_TIMEOUT (R58): No measurement arrives within the timeout in force, so the base unlocks and runs on. -/
  | tbMeasTimeout (n : Nat)
  /-- TB_LOAD (R60): A write of 1 to TIME_TBn_CTL.load loads the base from SET_HI and SET_LO, sets hist and clears the rate. -/
  | tbLoad (n : Nat)
  /-- TB_STEP (R60): A write of 1 to TIME_TBn_CTL.step adds TIME_TBn_MEAS to the base and increments its epoch. -/
  | tbStep (n : Nat)
  /-- TB_RATE_WRITE (R62): A write of TIME_TBn_RATE sets the rate offset until the next measurement replaces it. -/
  | tbRateWrite (n : Nat) (v : Word)
  /-- TB_FREQ_WRITE (R62): A write of TIME_TBn_FREQ presets the frequency term; values outside ±500 ppm are refused. -/
  | tbFreqWrite (n : Nat) (v : Word)
  /-- CT_FIRST_VALIDITY (R68): When the primary or the Mirror first becomes eligible, CT takes its value, valid sets and the epoch becomes 1. -/
  | ctFirstValidity
  /-- REVERT_HOLDOFF_EXPIRE (R70): The primary has been eligible for revert seconds without a break, so CT returns from the Mirror to the primary. -/
  | revertHoldoffExpire
  /-- SLEW_DONE (R69): |D| falls below 15.625 ps, so the slew term ends and event 6 is recorded. -/
  | slewDone
  /-- CT_CTL_WRITE (R73): A write of TIME_CT_CTL sets hold, auto, revert, pri and mir; invalid base choices are refused. -/
  | ctCtlWrite (v : Word)
  /-- RE_EPOCH (R77): A write of TIME_REEPOCH.go steps CT onto the named base and walks the Prism, or is refused with event 4. -/
  | reEpoch (v : Word)
  /-- RE_EPOCH_DONE (R77): At step 5, triggers on CT and the selector resume and event 3 is recorded. -/
  | reEpochDone
  /-- GENERATION_WALK_START (R111): A waiting walk request starts after the previous walk ends. -/
  | generationWalkStart
  /-- GENERATION_WALK_END (R111): A walk ends after 64 cycles, having disarmed one-shots and re-phased periodic triggers on its counter, and records event 3. -/
  | generationWalkEnd
  /-- PPS_OUTPUT (R76): The 1PPS output rises at each whole second of its counter and falls pps_w µs later. -/
  | ppsOutput (rise : Bool)
  /-- TEN_MHZ_OUTPUT (R76): The 10 MHz output rises at each multiple of 100 ns of its counter and falls 50 ns later. -/
  | tenMhzOutput (rise : Bool)
  /-- LINK_DELAY_MEASURE (R81): Each cycle, every ring hop and spoke link is measured and its mean delay m is averaged over 16 cycles. -/
  | linkDelayMeasure (u : Nat) (t1 : Int) (t2 : Int) (t3 : Int) (t4 : Int)
  /-- TXQ_LO_READ (R89): A read of TIME_TSU_TXQ_LO removes the head record of the transmit timestamp queue. -/
  | txqLoRead (u : Nat)
  /-- TRG_ARM (R98): A write of TRG_CTL with arm = 1 arms the entry, or refuses the arm with code 6. -/
  | trgArm (n : Nat) (v : Word)
  /-- TRG_CANCEL (R99): A write of TRG_CTL with arm = 0 cancels an armed entry with code 4. -/
  | trgCancel (n : Nat) (v : Word)
  /-- TRG_TH_READ (R97): A read of TRG_TH holds the entry's TRG_TL for the reading core until it reads TRG_TL. -/
  | trgThRead (core : Nat) (n : Nat)
  /-- TRG_PAST (R100): The first compare after an arm finds the trigger past, so it fires late or expires under pol. -/
  | trgPast (n : Nat)
  /-- TRG_FIRE (R105): A due trigger fires under the cap of 16 per edge, launches its action and post, and is disarmed or advanced by its period. -/
  | trgFire (n : Nat)
  /-- PRISM_PER_WRITE (R106): A write of PRISM_PERk takes effect at the next computation of a next fire time that uses it. -/
  | prismPerWrite (k : Nat) (v : Word)
  /-- TIO_PULSE_FALL (R113): The pending fall of a pulse falls pw taps after its rise. -/
  | tioPulseFall (pin : Nat)
  /-- TIO_CAPTURE (R114): A captured input edge enters the pin's queue, or is discarded and counted in ovf. -/
  | tioCapture (pin : Nat) (rising : Machine.CapEdge)
  /-- TIO_CLO_READ (R114): A read of PRISM_TIO_CLO removes the head capture record. -/
  | tioCloRead (pin : Nat)
  /-- TIO_CFG_WRITE (R117): A write of PRISM_TIO_CFG sets the pin's capture and output settings; oe = 0 makes the pin high-impedance at idl. -/
  | tioCfgWrite (ini : Nat) (pin : Nat) (v : Word)
  /-- PWM_CFG_WRITE (R152): A write of PWM_CFG is taken, or refused with event 7 while running or for invalid values; an island change of kind or legen stops the carrier. -/
  | pwmCfgWrite (ini : Nat) (ch : Nat) (v : Word)
  /-- SHADOW_WRITE (R132): A write of PWM_PER or PWM_CMPk is checked against the envelope and sets its written-flag. -/
  | shadowWrite (ini : Nat) (ch : Nat) (off : Nat) (v : Word)
  /-- PWM_COMMIT_START (R122): A write of PWM_COMMIT.start starts the carrier from PWM_PHASE, or refuses the start with event 8. -/
  | pwmCommitStart (ch : Nat)
  /-- PWM_COMMIT_STOP (R124): A write of PWM_COMMIT.stop stops the carrier at the next carrier start. -/
  | pwmCommitStop (ch : Nat)
  /-- PWM_COMMIT_GO (R133): A write of PWM_COMMIT.go transfers the shadow set on the next edge. -/
  | pwmCommitGo (ch : Nat)
  /-- CARRIER_START (R120): The carrier period ends and a new one starts, with transfers, pad-block releases and a carried-over stop. -/
  | carrierStart (ch : Nat)
  /-- CARRIER_CENTRE (R133): The carrier reaches its centre, the transfer point for reload 2 and 3. -/
  | carrierCentre (ch : Nat)
  /-- DLCAL_MEASURE (R131): Every 1 µs the replica delay line is measured, and calibration is lost or regained. -/
  | dlcalMeasure (port : Nat) (count : Nat)
  /-- TRIP_QUALIFIED (R139): The trip input qualifies, so the channel's gates go off until the next carrier start. -/
  | tripQualified (ch : Machine.TripSample)
  /-- PORT_MCLK_WRITE (R142): A write of PORT_MCLK enables or stops MCLK, or is refused when it changes div, dly or align while running. -/
  | portMclkWrite (port : Nat) (v : Word)
  /-- MCLK_STOP (R142): MCLK stops low at the end of its current period, closing any open window early. -/
  | mclkStop (port : Nat)
  /-- SD_WINDOW_CLOSE (R146): A sample window closes on the capture of its last bit, and its results appear 2 cycles later and wake the ALE. -/
  | sdWindowClose (ch : Nat) (bits0 : List Bool) (bits1 : List Bool) (bits2 : List Bool)
  /-- SD_CONTINUOUS_RESULT (R148): In continuous mode, each decimator writes a result every osr samples. -/
  | sdContinuousResult (ch : Nat) (bits0 : List Bool) (bits1 : List Bool) (bits2 : List Bool)
  /-- SD_CFG_WRITE (R148): A write of PWM_SD_CFG applies at the next window open, or at once with a restart in continuous mode. -/
  | sdCfgWrite (ch : Nat) (v : Word)
  /-- ALE_COMPUTATION (R159): The pipeline starts the next pending computation, taking its snapshot of inputs and references. -/
  | aleComputation (k : Nat)
  /-- ALE_COMPUTATION_DONE (R173): A computation ends after 40 cycles and writes the clamped compares of all enabled legs. -/
  | aleComputationDone (k : Nat)
  /-- ALE_REF_COMMIT (R181): A write of ALE_REF_CTL.commit copies the pending pair into the committed set. -/
  | aleRefCommit (ch : Nat)
  /-- ALE_CFG_WRITE (R189): A write of ALE_CFG sets the path and options, or is refused with event 7. -/
  | aleCfgWrite (ch : Nat) (v : Word)
  /-- FBK_CFG_WRITE (R193): A write of FBK_CFG is taken whole while disabled, and only lgrp while enabled. -/
  | fbkCfgWrite (ch : Nat) (v : Word)
  /-- COUNT_EDGE (R196): A change of the filtered decoder state counts ±1 and updates position, speed history and compare. -/
  | countEdge (ch : Nat) (a : Bool) (b : Bool)
  /-- LINE_FAULT (R198): A receiver pair open or shorted for filt samples sets unc and records event 4. -/
  | lineFault (ch : Nat) (line : Machine.LineState)
  /-- FBK_LOAD (R201): A write of FBK_CTL.load loads the position from FBK_POS_SET and sets ref. -/
  | fbkLoad (ch : Nat)
  /-- FBK_CLRUNC (R201): A write of FBK_CTL.clrunc clears unc. -/
  | fbkClrunc (ch : Nat)
  /-- FBK_POS_READ (R200): A read of FBK_POS_HI holds FBK_POS_LO for the core until it reads it. -/
  | fbkPosRead (core : Nat) (ch : Nat)
  /-- INDEX (R203): A qualified index is recorded and, under policy snap, corrects the count and clears unc. -/
  | index (ch : Nat)
  /-- SINCOS_SAMPLE (R204): Every 1 µs the converters sample sin and cos, and the fine angle, quadrant and amplitude are checked. -/
  | sincosSample (ch : Nat) (s : Int) (c : Int)
  /-- SERIAL_FRAME_END (R210): An SSI or BiSS frame ends good or bad, updating position, error counts and unc. -/
  | serialFrameEnd (ch : Nat) (frame : Machine.SerialFrame)
  /-- BISS_REQ (R211): A write of FBK_BISS_REQ.go starts a BiSS register access over the CDM and CDS bits of the following frames. -/
  | bissReq (ch : Nat) (v : Word)
  /-- LATCH_SET_READY (R212): A latch set appears, increments seq, is checked against the FBK envelope and enters the island stream. -/
  | latchSetReady (ch : Nat)
  /-- WATCH_LATCH (R215): After 100 µs of TB0 without a latch, the page takes a watch latch for the safety island. -/
  | watchLatch (ch : Nat)
  /-- FBK_LAT_READ (R214): A read of FBK_LAT_HI holds the rest of the latch set for the core until it reads FBK_LAT_ST. -/
  | fbkLatRead (core : Nat) (ch : Nat)
  /-- EMULATION_EDGE (R223): The emulation output steps one quadrature state toward its target, with at least minsp cycles between edges. -/
  | emulationEdge (ch : Nat)
  /-- EMULATION_Z_PULSE_END (R224): The emulated Z pulse ends after zw cycles. -/
  | emulationZPulseEnd (ch : Nat)
  /-- FBK_SUP_WRITE (R225): A write of FBK_SUP.en = 1 turns the encoder supply on, or is refused for sel = 0 or the 60 W budget. -/
  | fbkSupWrite (ini : Nat) (ch : Nat) (v : Word)
  /-- SUPPLY_OK (R225): The encoder supply output comes within ±5 % of its setting, and supok sets. -/
  | supplyOk (ch : Nat)
  /-- SUPPLY_OVERCURRENT (R226): The supply current exceeds its limit, so the supply turns off, oc sets and event 12 is recorded. -/
  | supplyOvercurrent (ch : Nat) (ma : Nat)
  /-- SUPPLY_UNDERVOLTAGE (R226): The supply output falls below 90 % of its setting, so supok clears and event 12 is recorded. -/
  | supplyUndervoltage (ch : Nat)
  /-- UPDATE_EDGE (R240): Each whole microsecond of TB0, the profile generator re-plans and checks the setpoint envelope. -/
  | updateEdge (ch : Nat) (in0 : Bool) (in1 : Bool)
  /-- ABSOLUTE_MOVE (R240): PROF_CMD op 0 plans a move to the absolute target. -/
  | absoluteMove (ch : Nat)
  /-- RELATIVE_MOVE (R237): PROF_CMD op 1 plans a move by a signed distance from the last commanded target. -/
  | relativeMove (ch : Nat)
  /-- VELOCITY_MOVE (R239): PROF_CMD op 2 ramps to PROF_JOG and holds it. -/
  | velocityMove (ch : Nat)
  /-- STREAM (R245): PROF_CMD op 3 runs Hermite segments through the queued points. -/
  | stream (ch : Nat)
  /-- HOME (R262): PROF_CMD op 4 starts homing under the selected method, or is refused with cres 8. -/
  | home (ch : Nat)
  /-- ABORT (R247): A write of PROF_CMD.abort makes a controlled stop at ADEC and reports abres. -/
  | abort (ch : Nat)
  /-- QSTOP (R249): A write of PROF_CMD.qstop makes a stop at once. -/
  | qstop (ch : Nat)
  /-- POSITION_LOAD (R250): A write of PROF_CMD.setpos loads p at the next update edge, or is refused with cres 10 while moving. -/
  | positionLoad (ch : Nat)
  /-- STREAM_PUSH (R244): A write of PROF_SP_CTL.push offers a point to the queue of 8, or refuses it with event 10. -/
  | streamPush (ch : Nat)
  /-- STREAM_UNDERRUN (R246): The hold after the last point expires, so the stream ramps to 0 and ends with event 11. -/
  | streamUnderrun (ch : Nat)
  /-- STEP_EMIT (R255): A step edge is launched once every timing condition of R255 is met. -/
  | stepEmit (ch : Nat)
  /-- STEP_PULSE_FALL (R254): The step pulse falls pw × 10 ns after its rise. -/
  | stepPulseFall (ch : Nat)
  /-- INPUT_DEBOUNCED (R258): A limit or home input changes its debounced level after db equal samples, with capture and chatter checks. -/
  | inputDebounced (ch : Nat) (inp : Nat) (level : Bool)
  /-- CHATTER_HOLD_END (R259): chold µs after the last change, a chattering limit input is again treated at its level. -/
  | chatterHoldEnd (ch : Nat) (inp : Nat)
  /-- PROF_POS_READ (R269): A read of PROF_POS_HI holds PROF_POS_LO for the core. -/
  | profPosRead (core : Nat) (ch : Nat)
  /-- PROF_LAT_READ (R265): A read of PROF_LAT_HI holds the rest of the PROF latch set until PROF_LAT_ST is read. -/
  | profLatRead (core : Nat) (ch : Nat)
  /-- ADD (R284): Integer add with flags. -/
  | add (c : Nat) (d : Nat) (a : Nat) (b : Nat)
  /-- SUB (R284): Integer subtract with flags. -/
  | sub (c : Nat) (d : Nat) (a : Nat) (b : Nat)
  /-- ADDC (R284): Add with carry. -/
  | addc (c : Nat) (d : Nat) (a : Nat) (b : Nat)
  /-- SUBC (R284): Subtract with carry. -/
  | subc (c : Nat) (d : Nat) (a : Nat) (b : Nat)
  /-- AND (R284): Bitwise and. -/
  | and (c : Nat) (d : Nat) (a : Nat) (b : Nat)
  /-- OR (R284): Bitwise or. -/
  | or (c : Nat) (d : Nat) (a : Nat) (b : Nat)
  /-- XOR (R284): Bitwise exclusive or. -/
  | xor (c : Nat) (d : Nat) (a : Nat) (b : Nat)
  /-- ANDN (R284): And with complement. -/
  | andn (c : Nat) (d : Nat) (a : Nat) (b : Nat)
  /-- MIN (R284): Signed minimum. -/
  | min (c : Nat) (d : Nat) (a : Nat) (b : Nat)
  /-- MAX (R284): Signed maximum. -/
  | max (c : Nat) (d : Nat) (a : Nat) (b : Nat)
  /-- MINU (R284): Unsigned minimum. -/
  | minu (c : Nat) (d : Nat) (a : Nat) (b : Nat)
  /-- MAXU (R284): Unsigned maximum. -/
  | maxu (c : Nat) (d : Nat) (a : Nat) (b : Nat)
  /-- ADDS (R284): Saturating add. -/
  | adds (c : Nat) (d : Nat) (a : Nat) (b : Nat)
  /-- SUBS (R284): Saturating subtract. -/
  | subs (c : Nat) (d : Nat) (a : Nat) (b : Nat)
  /-- ABSS (R284): Saturating absolute value. -/
  | abss (c : Nat) (d : Nat) (a : Nat)
  /-- SLT (R284): Signed set-less-than. -/
  | slt (c : Nat) (d : Nat) (a : Nat) (b : Nat)
  /-- SLTU (R284): Unsigned set-less-than. -/
  | sltu (c : Nat) (d : Nat) (a : Nat) (b : Nat)
  /-- CLZ (R284): Count leading zeros. -/
  | clz (c : Nat) (d : Nat) (a : Nat)
  /-- POPC (R284): Count one bits. -/
  | popc (c : Nat) (d : Nat) (a : Nat)
  /-- SLL (R285): Shift left logical by register. -/
  | sll (c : Nat) (d : Nat) (a : Nat) (b : Nat)
  /-- SRL (R285): Shift right logical by register. -/
  | srl (c : Nat) (d : Nat) (a : Nat) (b : Nat)
  /-- SRA (R285): Shift right arithmetic by register. -/
  | sra (c : Nat) (d : Nat) (a : Nat) (b : Nat)
  /-- ROL (R285): Rotate left by register. -/
  | rol (c : Nat) (d : Nat) (a : Nat) (b : Nat)
  /-- SLLI (R285): Shift left logical by immediate. -/
  | slli (c : Nat) (d : Nat) (a : Nat) (sh : Nat)
  /-- SRLI (R285): Shift right logical by immediate. -/
  | srli (c : Nat) (d : Nat) (a : Nat) (sh : Nat)
  /-- SRAI (R285): Shift right arithmetic by immediate. -/
  | srai (c : Nat) (d : Nat) (a : Nat) (sh : Nat)
  /-- ROLI (R285): Rotate left by immediate. -/
  | roli (c : Nat) (d : Nat) (a : Nat) (sh : Nat)
  /-- EXT (R285): Extract a bit field, zero-extended. -/
  | ext (c : Nat) (d : Nat) (a : Nat) (pos : Nat) (len : Nat)
  /-- EXTS (R285): Extract a bit field, sign-extended. -/
  | exts (c : Nat) (d : Nat) (a : Nat) (pos : Nat) (len : Nat)
  /-- INS (R285): Insert a bit field. -/
  | ins (c : Nat) (d : Nat) (a : Nat) (pos : Nat) (len : Nat)
  /-- MUL (R286): Low 36 bits of a product. -/
  | mul (c : Nat) (d : Nat) (a : Nat) (b : Nat)
  /-- MULH (R286): High bits of a signed product. -/
  | mulh (c : Nat) (d : Nat) (a : Nat) (b : Nat)
  /-- MULHU (R286): High bits of an unsigned product. -/
  | mulhu (c : Nat) (d : Nat) (a : Nat) (b : Nat)
  /-- MULF (R286): Fixed-point product, shifted, rounded and saturated. -/
  | mulf (c : Nat) (d : Nat) (a : Nat) (b : Nat) (rnd : Nat) (sh : Nat)
  /-- DIV (R286): Signed division. -/
  | div (c : Nat) (d : Nat) (a : Nat) (b : Nat)
  /-- DIVU (R286): Unsigned division. -/
  | divu (c : Nat) (d : Nat) (a : Nat) (b : Nat)
  /-- REM (R286): Signed remainder. -/
  | rem (c : Nat) (d : Nat) (a : Nat) (b : Nat)
  /-- REMU (R286): Unsigned remainder. -/
  | remu (c : Nat) (d : Nat) (a : Nat) (b : Nat)
  /-- ADDI (R287): Add immediate. -/
  | addi (c : Nat) (d : Nat) (a : Nat) (imm : BitVec 22)
  /-- ANDI (R287): And immediate. -/
  | andi (c : Nat) (d : Nat) (a : Nat) (imm : BitVec 22)
  /-- ORI (R287): Or immediate. -/
  | ori (c : Nat) (d : Nat) (a : Nat) (imm : BitVec 22)
  /-- XORI (R287): Exclusive or immediate. -/
  | xori (c : Nat) (d : Nat) (a : Nat) (imm : BitVec 22)
  /-- SLTI (R287): Set if less than immediate. -/
  | slti (c : Nat) (d : Nat) (a : Nat) (imm : BitVec 22)
  /-- LI (R287): Load an 18-bit immediate into the high or low half. -/
  | li (c : Nat) (d : Nat) (h : Bool) (imm : BitVec 18)
  /-- LD (R288): Load a word at base plus offset. -/
  | ld (c : Nat) (d : Nat) (a : Nat) (imm : BitVec 22)
  /-- ST (R288): Store a word at base plus offset. -/
  | st (c : Nat) (d : Nat) (a : Nat) (imm : BitVec 22)
  /-- LD2 (R288): Load a word pair. -/
  | ld2 (c : Nat) (d : Nat) (a : Nat) (imm : BitVec 22)
  /-- ST2 (R288): Store a word pair. -/
  | st2 (c : Nat) (d : Nat) (a : Nat) (imm : BitVec 22)
  /-- LDP (R289): Pointer-addressed load with pointer update. -/
  | ldp (c : Nat) (d : Nat) (p : Nat) (am : Nat) (m : Nat) (circ : Bool) (pair : Bool) (imm : BitVec 16)
  /-- STP (R289): Pointer-addressed store with pointer update. -/
  | stp (c : Nat) (d : Nat) (p : Nat) (am : Nat) (m : Nat) (circ : Bool) (pair : Bool) (imm : BitVec 16)
  /-- XCHG (R295): Atomic exchange. -/
  | xchg (c : Nat) (d : Nat) (a : Nat) (b : Nat)
  /-- CAS (R295): Atomic compare and swap. -/
  | cas (c : Nat) (d : Nat) (a : Nat) (b : Nat)
  /-- FAA (R295): Atomic fetch and add. -/
  | faa (c : Nat) (d : Nat) (a : Nat) (b : Nat)
  /-- FOR (R295): Atomic fetch and or. -/
  | forA (c : Nat) (d : Nat) (a : Nat) (b : Nat)
  /-- FAND (R295): Atomic fetch and and. -/
  | fand (c : Nat) (d : Nat) (a : Nat) (b : Nat)
  /-- LOAD_RETURN (R293): Data of a load to a remote target returns, or the access completes with a bus error. -/
  | loadReturn (c : Nat) (k : Nat) (how : Machine.AccessEnd)
  /-- STORE_COMPLETE (R293): A posted store completes at its target, or completes with a bus error. -/
  | storeComplete (c : Nat) (k : Nat) (how : Machine.AccessEnd)
  /-- ACCESS_TIMEOUT (R297): An access outside the own stores gets no response within 4 µs and completes with a bus error. -/
  | accessTimeout (c : Nat) (k : Nat)
  /-- REMOTE_STORE_ACCESS (R292): An access of another initiator to a core's local store takes slot 2, forcing a hold after 4 cycles of waiting. -/
  | remoteStoreAccess (ini : Nat) (addr : Word) (wr : Option Word)
  /-- STA (R303): Store a shifted, rounded and saturated accumulator. -/
  | sta (c : Nat) (k : Nat) (p : Nat) (am : Nat) (m : Nat) (circ : Bool) (imm : BitVec 16)
  /-- BCC (R307): Conditional branch. -/
  | bcc (c : Nat) (cond : Nat) (a : Nat) (b : Nat) (target : BitVec 14)
  /-- J (R307): Jump. -/
  | j (c : Nat) (target : BitVec 14)
  /-- JAL (R307): Jump and link. -/
  | jal (c : Nat) (d : Nat) (target : BitVec 14)
  /-- JR (R307): Jump to a register address and link. -/
  | jr (c : Nat) (d : Nat) (a : Nat)
  /-- LOOP (R308): Start a hardware loop level over a body. -/
  | loop (c : Nat) (lvl : Nat) (src : Bool) (a : Nat) (cnt : Nat) (last : BitVec 14)
  /-- MAC (R299): Multiply-accumulate into A_k. -/
  | mac (c : Nat) (k : Nat) (a : Nat) (b : Nat) (neg : Bool) (clr : Bool) (sg : Nat)
  /-- MACV (R299): Four-accumulator vector multiply-accumulate. -/
  | macv (c : Nat) (a : Nat) (b : Nat) (neg : Bool) (clr : Bool) (sg : Nat)
  /-- MACW (R299): Window-mode multiply-accumulate. -/
  | macw (c : Nat) (a : Nat) (neg : Bool) (clr : Bool) (sg : Nat)
  /-- CMAC (R299): Complex multiply-accumulate. -/
  | cmac (c : Nat) (k : Nat) (a : Nat) (b : Nat) (neg : Bool) (clr : Bool) (sg : Nat)
  /-- DOT2 (R299): Two-term dot product accumulate. -/
  | dot2 (c : Nat) (k : Nat) (a : Nat) (b : Nat) (neg : Bool) (clr : Bool) (sg : Nat)
  /-- DOT4 (R299): Four-term dot product accumulate. -/
  | dot4 (c : Nat) (k : Nat) (a : Nat) (b : Nat) (neg : Bool) (clr : Bool) (sg : Nat)
  /-- FTAP (R300): One filter tap with optional delay-line move or window. -/
  | ftap (c : Nat) (k : Nat) (win : Bool) (mv : Bool) (px : Nat) (pk : Nat) (circ : Bool) (neg : Bool) (sg : Nat) (dn : Bool)
  /-- WLD (R301): Shift the window and load W0. -/
  | wld (c : Nat) (p : Nat) (am : Nat) (m : Nat) (circ : Bool) (imm : BitVec 16)
  /-- SACC (R302): Read an accumulator shifted, rounded and saturated. -/
  | sacc (c : Nat) (d : Nat) (k : Nat) (rnd : Nat) (sh : Nat)
  /-- MVAX (R302): Move the accumulator x part. -/
  | mvax (c : Nat) (d : Nat) (k : Nat)
  /-- MVAH (R302): Move the accumulator h part. -/
  | mvah (c : Nat) (d : Nat) (k : Nat)
  /-- MVAL (R302): Move the accumulator l part. -/
  | mval (c : Nat) (d : Nat) (k : Nat)
  /-- SETA (R302): Set an accumulator from a shifted register. -/
  | seta (c : Nat) (k : Nat) (a : Nat) (sh : Nat)
  /-- SETAH (R302): Set the accumulator h part. -/
  | setah (c : Nat) (k : Nat) (a : Nat)
  /-- SETAL (R302): Set the accumulator l part. -/
  | setal (c : Nat) (k : Nat) (a : Nat)
  /-- SETAX (R302): Set the accumulator x part. -/
  | setax (c : Nat) (k : Nat) (a : Nat)
  /-- CLRA (R302): Clear the selected accumulators. -/
  | clra (c : Nat) (mask : Nat)
  /-- MVW (R302): Move a window register. -/
  | mvw (c : Nat) (d : Nat) (w : Nat)
  /-- SETW (R302): Set a window register. -/
  | setw (c : Nat) (w : Nat) (a : Nat)
  /-- MFS (R277): Read a special register. -/
  | mfs (c : Nat) (d : Nat) (s : Nat)
  /-- MTS (R277): Write a special register. -/
  | mts (c : Nat) (s : Nat) (a : Nat)
  /-- FADD (R304): F36 add. -/
  | fadd (c : Nat) (d : Nat) (a : Nat) (b : Nat) (rm : Nat)
  /-- FSUB (R304): F36 subtract. -/
  | fsub (c : Nat) (d : Nat) (a : Nat) (b : Nat) (rm : Nat)
  /-- FMUL (R304): F36 multiply. -/
  | fmul (c : Nat) (d : Nat) (a : Nat) (b : Nat) (rm : Nat)
  /-- FMA (R304): F36 fused multiply-add. -/
  | fma (c : Nat) (d : Nat) (a : Nat) (b : Nat) (rm : Nat)
  /-- FMS (R304): F36 fused multiply-subtract. -/
  | fms (c : Nat) (d : Nat) (a : Nat) (b : Nat) (rm : Nat)
  /-- FDIV (R304): F36 divide. -/
  | fdiv (c : Nat) (d : Nat) (a : Nat) (b : Nat) (rm : Nat)
  /-- FSQRT (R304): F36 square root. -/
  | fsqrt (c : Nat) (d : Nat) (a : Nat) (rm : Nat)
  /-- FMIN (R304): F36 minimumNumber. -/
  | fmin (c : Nat) (d : Nat) (a : Nat) (b : Nat) (rm : Nat)
  /-- FMAX (R304): F36 maximumNumber. -/
  | fmax (c : Nat) (d : Nat) (a : Nat) (b : Nat) (rm : Nat)
  /-- FABS (R304): F36 absolute value. -/
  | fabs (c : Nat) (d : Nat) (a : Nat) (rm : Nat)
  /-- FNEG (R304): F36 negate. -/
  | fneg (c : Nat) (d : Nat) (a : Nat) (rm : Nat)
  /-- FCMPEQ (R304): F36 compare equal. -/
  | fcmpeq (c : Nat) (d : Nat) (a : Nat) (b : Nat) (rm : Nat)
  /-- FCMPLT (R304): F36 compare less than. -/
  | fcmplt (c : Nat) (d : Nat) (a : Nat) (b : Nat) (rm : Nat)
  /-- FCMPLE (R304): F36 compare less or equal. -/
  | fcmple (c : Nat) (d : Nat) (a : Nat) (b : Nat) (rm : Nat)
  /-- FCLASS (R304): F36 classify. -/
  | fclass (c : Nat) (d : Nat) (a : Nat) (rm : Nat)
  /-- FCVTFI (R304): Convert S36 to F36. -/
  | fcvtfi (c : Nat) (d : Nat) (a : Nat) (rm : Nat)
  /-- FCVTIF (R304): Convert F36 to S36. -/
  | fcvtif (c : Nat) (d : Nat) (a : Nat) (rm : Nat)
  /-- FCVTFQ (R304): Convert fixed-point to F36. -/
  | fcvtfq (c : Nat) (d : Nat) (a : Nat) (f : Nat) (rm : Nat)
  /-- FCVTQF (R304): Convert F36 to fixed-point. -/
  | fcvtqf (c : Nat) (d : Nat) (a : Nat) (f : Nat) (rm : Nat)
  /-- FCVTFD (R304): Convert binary64 to F36. -/
  | fcvtfd (c : Nat) (d : Nat) (a : Nat) (rm : Nat)
  /-- FCVTDF (R304): Convert F36 to binary64. -/
  | fcvtdf (c : Nat) (d : Nat) (a : Nat) (rm : Nat)
  /-- FCVTFS (R304): Convert binary32 to F36. -/
  | fcvtfs (c : Nat) (d : Nat) (a : Nat) (rm : Nat)
  /-- FCVTSF (R304): Convert F36 to binary32. -/
  | fcvtsf (c : Nat) (d : Nat) (a : Nat) (rm : Nat)
  /-- DADD (R306): binary64 add. -/
  | dadd (c : Nat) (d : Nat) (a : Nat) (b : Nat) (rm : Nat)
  /-- DSUB (R306): binary64 subtract. -/
  | dsub (c : Nat) (d : Nat) (a : Nat) (b : Nat) (rm : Nat)
  /-- DMUL (R306): binary64 multiply. -/
  | dmul (c : Nat) (d : Nat) (a : Nat) (b : Nat) (rm : Nat)
  /-- DFMA (R306): binary64 fused multiply-add. -/
  | dfma (c : Nat) (d : Nat) (a : Nat) (b : Nat) (rm : Nat)
  /-- DDIV (R306): binary64 divide. -/
  | ddiv (c : Nat) (d : Nat) (a : Nat) (b : Nat) (rm : Nat)
  /-- DSQRT (R306): binary64 square root. -/
  | dsqrt (c : Nat) (d : Nat) (a : Nat) (rm : Nat)
  /-- DMIN (R306): binary64 minimumNumber. -/
  | dmin (c : Nat) (d : Nat) (a : Nat) (b : Nat) (rm : Nat)
  /-- DMAX (R306): binary64 maximumNumber. -/
  | dmax (c : Nat) (d : Nat) (a : Nat) (b : Nat) (rm : Nat)
  /-- DCMPEQ (R306): binary64 compare equal. -/
  | dcmpeq (c : Nat) (d : Nat) (a : Nat) (b : Nat) (rm : Nat)
  /-- DCMPLT (R306): binary64 compare less than. -/
  | dcmplt (c : Nat) (d : Nat) (a : Nat) (b : Nat) (rm : Nat)
  /-- DCMPLE (R306): binary64 compare less or equal. -/
  | dcmple (c : Nat) (d : Nat) (a : Nat) (b : Nat) (rm : Nat)
  /-- DCVTDI (R306): Convert S36 to binary64. -/
  | dcvtdi (c : Nat) (d : Nat) (a : Nat) (rm : Nat)
  /-- DCVTID (R306): Convert binary64 to S36. -/
  | dcvtid (c : Nat) (d : Nat) (a : Nat) (rm : Nat)
  /-- POST (R309): Post a task and wait for the result code. -/
  | post (c : Nat) (d : Nat) (a : Nat) (imm : BitVec 16)
  /-- POST_RESULT (R310): The result code of a POST returns to Gd and issue continues. -/
  | postResult (c : Nat)
  /-- POSTA (R309): Post a task without waiting; a refusal counts in CORE_POSTREF. -/
  | posta (c : Nat) (a : Nat) (imm : BitVec 16)
  /-- DONE (R340): End the activation without a context transfer. -/
  | doneTask (c : Nat)
  /-- YIELD (R341): Continue, or save the context and give the core to a listed task of equal or higher level. -/
  | yieldTask (c : Nat)
  /-- WAITC (R309): Hold issue until an absolute cycle count. -/
  | waitc (c : Nat) (a : Nat) (imm : BitVec 16)
  /-- WAITC_EXPIRE (R309): CYC reaches the WAITC target and issue resumes. -/
  | waitcExpire (c : Nat)
  /-- FENCE (R294): Hold issue until earlier accesses complete. -/
  | fence (c : Nat) (stores : Bool)
  /-- ISYNC (R296): Wait for stores to the own instruction store and discard prefetched instructions. -/
  | isync (c : Nat)
  /-- BRK (R309): Raise exception cause 5. -/
  | brk (c : Nat)
  /-- NRET (R314): Return from the NMI handler, taking a pending NMI at its boundary. -/
  | nret (c : Nat)
  /-- EXCEPTION (R312): An exception is recorded, the context is saved and the activation ends as faulted. -/
  | exception (c : Nat) (cause : Nat) (info : Word)
  /-- NMI_ENTRY (R313): A raised NMI is taken at the next boundary, switching banks and jumping to CORE_NMI_VEC. -/
  | nmiEntry (c : Nat)
  /-- NMI_SET (R313): A write of CORE_NMI.set raises the NMI on that core. -/
  | nmiSet (c : Nat)
  /-- POST_ARRIVE (R328): A post from the Prism, a page or a core reaches the Innkeeper and is accepted, queued or refused with code 3. -/
  | postArrive
  /-- POST_ACCEPT (R329): An accepted post is judged against the task's state and pend, and refusals are counted. -/
  | postAccept
  /-- DISPATCH_DECISION (R333): Each FAB cycle the Innkeeper makes up to 4 decisions, dispatching to idle cores or preempting lower levels. -/
  | dispatchDecision
  /-- ACTIVATION_START (R334): A new activation starts on a core with cleared context and the activation word in G1. -/
  | activationStart (c : Nat)
  /-- RESUME (R335): A suspended task resumes on a core with its context loaded. -/
  | resume (c : Nat)
  /-- PREEMPTION (R337): The preempted core reaches its boundary, saves its context, and the preempting task starts. -/
  | preemption (c : Nat)
  /-- CANCEL (R343): INNK_CMD op 1 sets pend to 0 and unlists a ready task. -/
  | cancel (t : Nat)
  /-- CLEAR (R343): INNK_CMD op 2 discards a faulted activation. -/
  | clear (t : Nat)
  /-- RESUME_COMMAND (R343): INNK_CMD op 3 lists a faulted task to resume from its saved context. -/
  | resumeCommand (t : Nat)
  /-- CLEAR_STATISTICS (R343): INNK_CMD op 4 zeroes the task's statistics words. -/
  | clearStatistics (t : Nat)
  /-- TSK_CFG_WRITE (R344): A write of TSK_CFG changes enable, level or entry at the end of the FAB cycle. -/
  | tskCfgWrite (t : Nat) (v : Word)
  /-- TSK_AFF_WRITE (R323): A write of TSK_AFF0 or TSK_AFF1 changes the affinity for later dispatches. -/
  | tskAffWrite (t : Nat) (hi : Bool) (v : Word)
  /-- CONTEXT_WRITE (R327): A write of the context words in state 0 or 5 is taken, and otherwise refused with event 5. -/
  | contextWrite (t : Nat) (w : Nat) (v : Word)
  /-- INNK_SRST (R345): srst of INNK page 0 resets the task table, lists, queue and counts. -/
  | innkSrst
  /-- LOAD_WINDOW_END (R349): At each load window edge, every core's busy fraction is recorded. -/
  | loadWindowEnd
  /-- RING_LINK_UP (R372): A ring or spoke link comes up, starting credits and leaving state 0. -/
  | ringLinkUp (u : Nat)
  /-- RING_FRAME_RECEIVE (R369): A received ring frame is checked by the guardian, then taken, forwarded or dropped. -/
  | ringFrameReceive (u : Nat) (frame : Machine.RingFrame)
  /-- FRAME_OVERRUN_CUTOFF (R369): A frame still running past its slot end plus w is cut off with an invalid FCS. -/
  | frameOverrunCutoff (u : Nat) (frame : Machine.RingFrame)
  /-- SLOT_TRANSMIT (R365): At its slot start, the owner sends its frame. -/
  | slotTransmit (e : Nat)
  /-- TT_CONTROL_READ (R367): 2 µs before an own transmit, the TT buffer control word is read to pick the half. -/
  | ttControlRead (e : Nat)
  /-- HELD_FRAME_LAUNCH (R368): A held frame is launched at the cycle start plus ftime. -/
  | heldFrameLaunch (u : Nat)
  /-- CYCLE_START (R372): At each ring cycle start, state transitions, startup frames, empty-slot checks and hop lists take effect. -/
  | cycleStart
  /-- COLD_START_TIMEOUT (R372): A candidate hears neither startup nor time frame for tl cycles and enters cold start. -/
  | coldStartTimeout
  /-- LINK_BLOCK (R354): A link block is sent when 512 ns have passed since the last and no frame is in progress. -/
  | linkBlock (u : Nat)
  /-- LINK_BLOCK_RECEIVE (R382): A received link block returns credits and carries link state and break notices. -/
  | linkBlockReceive (u : Nat) (block : Machine.LinkBlock)
  /-- BREAK_DECLARE (R378): A backbone port declares its hop broken and the node wraps. -/
  | breakDeclare (u : Nat)
  /-- HOP_RESTORE (R380): After 1 ms of good link, a broken hop is restored and all stars unwrap from cycle r + 2. -/
  | hopRestore (u : Nat)
  /-- CYCLE_POINT (R377): CT reaches an enabled cycle point, which posts its task. -/
  | cyclePoint (k : Nat)
  /-- ASYNC_SEND (R381): An asynchronous frame is started in a window when credits and time allow. -/
  | asyncSend (u : Nat)
  /-- QTAIL_WRITE (R383): A write of QTAIL gives descriptors to the hardware. -/
  | qtailWrite (q : Nat) (v : Word)
  /-- QCFG_WRITE (R383): A write of QCFG enables or stops a descriptor queue. -/
  | qcfgWrite (q : Nat) (v : Word)
  /-- ETH_FRAME_RECEIVE (R388): A received Ethernet frame is buffered, queued to a descriptor, or dropped, with PFC handling. -/
  | ethFrameReceive (e : Nat) (frame : Machine.EthFrame)
  /-- ETH_TRANSMIT (R387): A queued frame starts when every token bucket it passes holds enough octets. -/
  | ethTransmit (e : Nat) (q : Nat)
  /-- ETH_LINK_CHANGE (R386): An Ethernet link comes up or is lost. -/
  | ethLinkChange (e : Nat) (speed : Nat)
  /-- ISLAND_START (R398): The SAFE clock first runs, and the island checks its image, runs its tests and locks the envelopes. -/
  | islandStart (imgA : Machine.SafetyImage) (imgB : Machine.SafetyImage) (ueA : Bool) (ueB : Bool) (testsOk : Bool) (echoOk : Bool)
  /-- HARDWARE_SAFE_STATE (R395): A clock, supply, lockstep or cycle-watchdog fault puts the module in the hardware safe state. -/
  | hardwareSafeState (cause : Nat)
  /-- ISLAND_RESTART (R401): ERST held over 5 s in state 5 restarts the island. -/
  | islandRestart (imgA : Machine.SafetyImage) (imgB : Machine.SafetyImage) (ueA : Bool) (ueB : Bool) (testsOk : Bool) (echoOk : Bool)
  /-- EVALUATION_CYCLE (R396): An island evaluation cycle starts, evaluating monitoring, SS1, the Lens and mailbox commands. -/
  | evaluationCycle (bad : Option Nat) (nodesOn : List Nat) (lensOk : Bool)
  /-- ENVELOPE_NOTIFY (R402): An envelope notification sets envstop and applies the channel's reaction. -/
  | envelopeNotify (ch : Nat)
  /-- FC_NOTIFY (R404): A fault-counter notification records event 8 and applies the block type's reaction. -/
  | fcNotify (page : Nat)
  /-- ENABLE_PORT (R410): Mailbox op 1 moves a port from STO to Run, or is refused. -/
  | enablePort (port : Nat)
  /-- STOP_PORT (R427): Mailbox op 2 stops a port by STO or SS1 with cause 14. -/
  | stopPort (port : Nat) (ss1 : Bool)
  /-- RELEASE_BRAKE (R415): Mailbox op 3 releases a brake. -/
  | releaseBrake (ch : Nat)
  /-- APPLY_BRAKE (R415): Mailbox op 4 applies a brake. -/
  | applyBrake (ch : Nat)
  /-- RELEASE_ENVELOPE_STOP (R403): Mailbox op 5 releases a channel's envelope block when the conditions hold. -/
  | releaseEnvelopeStop (ch : Nat)
  /-- HOLDING_TEST_BEGIN (R417): Mailbox op 6 begins a brake holding test. -/
  | holdingTestBegin (ch : Nat)
  /-- HOLDING_TEST_END (R417): Mailbox op 7 ends a holding test, passing it when tmin has passed. -/
  | holdingTestEnd (ch : Nat)
  /-- ACKNOWLEDGE (R409): Mailbox op 8 acknowledges a port when the image allows software acknowledge. -/
  | acknowledge (port : Nat)
  /-- REQUEST_LIMIT_SET (R412): Mailbox op 9 requests or withdraws a limit set for a port. -/
  | requestLimitSet (port : Nat) (set : Nat)
  /-- SI_SAMPLE (R418): Every 10 µs each safety input is sampled and filtered, and a qualified demand acts at once. -/
  | siSample (raw : Nat)
  /-- TEST_PULSE (R419): A TP output gives its off-pulse and the inputs of its group are checked. -/
  | testPulse (k : Nat) (inMask : Nat) (readOk : Bool)
  /-- PAIR_DISCREPANCY (R420): The inputs of a pair differ for longer than tdisc and the pair is faulted. -/
  | pairDiscrepancy (i : Nat)
  /-- SO_TEST_PULSE (R421): An SO gives its 300 µs off-pulse and its read-back is checked. -/
  | soTestPulse (k : Nat) (readOk : Bool)
  /-- ERST_FALLING_EDGE (R409): The falling edge of ERST acknowledges, or is ignored and counted, by its pulse length. -/
  | erstFallingEdge (ms : Nat)
  /-- SAFETY_MESSAGE_RECEIVE (R422): A safety message reaches the island and is checked for CRC, number and timing. -/
  | safetyMessageReceive (slot : Nat) (octets : List Nat)
  /-- CONNECTION_WATCHDOG_EXPIRE (R422): No good message within the watchdog time makes the connection unhealthy. -/
  | connectionWatchdogExpire (k : Nat)
  /-- SAFETY_MESSAGE_SEND (R422): The island sends each transmit connection once per ring cycle. -/
  | safetyMessageSend (k : Nat) (data : List Nat)
  /-- BRAKE_PULL_IN_END (R415): tpull ends and the brake passes to released with the hold duty. -/
  | brakePullInEnd (ch : Nat)
  /-- SBC_DELAY_EXPIRE (R415): The SBC delay after STO expires and the brake is applied. -/
  | sbcDelayExpire (ch : Nat)
  /-- BRAKE_SWITCH_TEST (R416): Every tbt one brake switch is turned off for tbp and its node is checked. -/
  | brakeSwitchTest (ch : Nat) (ok : Bool)
  /-- HOLDING_TEST_TIMEOUT (R417): 10 s pass without op 7, so the holding test fails. -/
  | holdingTestTimeout (ch : Nat)
  /-- HOLDING_TEST_DUE (R417): A channel's holding-test interval expires and hdue sets. -/
  | holdingTestDue (ch : Nat)
  /-- BRAKE_OVERCURRENT (R527): A brake switch above 4 A for 20 µs opens and the brake faults. -/
  | brakeOvercurrent (ch : Nat)
  /-- SCRUB_READ (R464): A scrubber reads the next word, pair or burst and corrects it. -/
  | scrubRead (addr : Word) (how : Machine.AccessEnd)
  /-- LOG_RECORD_WRITE (R468): A queued log record is written to MRAM, at most one per 100 µs. -/
  | logRecordWrite
  /-- LOG_SCAN_DONE (R470): The reset scan of the event log ends and the logger resumes after the highest seq. -/
  | logScanDone
  /-- MW_DATA_WRITE (R472): A write of MEM_MW_DATA queues one word for MRAM, or is discarded for a protected region. -/
  | mwDataWrite (v : Word)
  /-- MRAM_WORD_WRITE (R472): A queued MRAM word is written in 100 ns and verified. -/
  | mramWordWrite (first : Bool) (second : Bool)
  /-- PORTER_START (R477): A write of PORTER_START.go starts a slot's chain, or is refused when 32 chains are in flight. -/
  | porterStart (k : Nat)
  /-- ENGINE_ASSIGN (R477): An idle engine takes the oldest urgent or oldest in-flight chain and reads its descriptor. -/
  | engineAssign (e : Nat)
  /-- DESCRIPTOR_DONE (R479): Every write of a descriptor completes, done is written back, and the next descriptor begins. -/
  | descriptorDone (e : Nat)
  /-- DESCRIPTOR_FAILED (R480): A descriptor fails, err and code are written back, and the chain ends. -/
  | descriptorFailed (e : Nat) (addr : Nat) (onWrite : Bool) (how : Machine.AccessEnd)
  /-- PORTER_SRST (R481): srst of PORTER page 0 aborts every chain with code 6. -/
  | porterSrst
  /-- CLK_PLL_WRITE (R489): A write of CLK_PLL.en enables PLLs, or is refused for a PLL that drives a running domain. -/
  | clkPllWrite (v : Word)
  /-- PLL_LOCK (R489): A PLL locks within 100 µs and its lock bit sets. -/
  | pllLock (k : Nat)
  /-- XO_M_READY (R488): XO-M becomes ready. -/
  | xoMReady
  /-- IRC_READY (R500): IRC becomes ready within 20 µs of being enabled, releasing a held fallback. -/
  | ircReady
  /-- EXT_OK_CHANGE (R490): The 10 MHz input appears or is lost, freezing the XO-M pull when lost. -/
  | extOkChange (ok : Bool)
  /-- DISCIPLINE_LOCK (R490): After 10 s within 0.01 ppm of the input, dlock sets. -/
  | disciplineLock (pull : Int)
  /-- PCLK_RELEASE (R492): A write of CLK_DOM_FIX.pgo releases PCLK on its next edge. -/
  | pclkRelease
  /-- MEMC_RELEASE (R492): A write of CLK_DOM_FIX.mgo releases MEMC. -/
  | memcRelease
  /-- STOP_SWITCH_RESTART (R493): A CLK_DOM_CORE or CLK_DOM_FAB request with sw = 0 switches the domain's source, or is refused. -/
  | stopSwitchRestart (fab : Bool) (src : Nat)
  /-- CHECKED_SWITCH (R494): A request with sw = 1 stops the domain at once and restarts it on the target. -/
  | checkedSwitch (fab : Bool) (src : Nat)
  /-- SWITCH_DONE (R493): The first edge of the new clock reaches the domain, and cur and res are set. -/
  | switchDone (fab : Bool)
  /-- THROTTLE_CHANGE (R496): The throttling condition sets thr and moves CORE to 800 MHz, or clears after 10 s and returns it. -/
  | throttleChange (on : Bool)
  /-- CLK_SSC_WRITE (R497): A write of CLK_SSC takes effect at the start of the next modulation period. -/
  | clkSscWrite (v : Word)
  /-- MONITOR_TRIP (R498): A clock monitor trips on a stopped or off-frequency clock. -/
  | monitorTrip (clk : Nat) (kind : Bool)
  /-- FORCED_GATE (R505): A write of CLK_FGATE.go in recovery gates the named block at once. -/
  | forcedGate (page : Nat)
  /-- MODULE_RESET (R508): A write of SYS_RST with the key and kind 1 starts a module reset. -/
  | moduleReset (rec : Bool) (svc : Bool)
  /-- COMPUTE_RESET (R507): A write of SYS_RST with the key and kind 2 resets everything outside the safety island. -/
  | computeReset (rec : Bool) (src : Nat)
  /-- POWER_ON_RESET (R506): LOGIC below 17 V for 50 µs or an internal supply fault resets everything. -/
  | powerOnReset
  /-- BOOT (R510): On reset release, the boot ROM brings up clocks and memory, checks and loads the image, seals and releases the cores. -/
  | boot (ms : Nat) (ueA : Bool) (ueB : Bool)
  /-- RECOVERY_REQUEST (R519): A host's recovery request on the service port before sealing makes the boot enter recovery. -/
  | recoveryRequest
  /-- CONSOLE_INFO (R520): Console INFO returns identity, reset cause, boot state and boot record. -/
  | consoleInfo
  /-- CONSOLE_READ (R520): Console READ returns MRAM words. -/
  | consoleRead (off : Nat) (count : Nat)
  /-- CONSOLE_WRITE (R520): Console WRITE writes words to MRAM regions 1 to 5. -/
  | consoleWrite (off : Nat) (ws : List Word)
  /-- CONSOLE_KEY (R521): Console KEY installs, replaces or clears the integrator key. -/
  | consoleKey (key : List Nat) (sig : List Nat)
  /-- CONSOLE_MINISSUE (R520): Console MINISSUE raises a minimum image issue. -/
  | consoleMinissue (safety : Bool) (issue : Nat)
  /-- CONSOLE_GATE (R520): Console GATE makes a forced gate. -/
  | consoleGate (page : Nat)
  /-- CONSOLE_RESET (R520): Console RESET makes a module or compute reset, or a module reset into recovery. -/
  | consoleReset (kind : Nat)
  /-- PORT_IDENTITY_MEASURE (R528): Every 10 ms the port identity resistor is measured and a change records event 0. -/
  | portIdentityMeasure (port : Nat) (ohm : Nat)
  /-- LOGIC_INPUT_LOST (R535): A LOGIC input falls below 18.0 V and its presence bit clears. -/
  | logicInputLost (b : Bool)
  /-- LOGIC_INPUT_RETURNED (R535): A LOGIC input returns above 18.5 V and its presence bit sets. -/
  | logicInputReturned (b : Bool)
  /-- BRAKE_INPUT_FAULT (R536): A BRAKE input at its current limit or undervoltage faults the brakes of its ports. -/
  | brakeInputFault (b : Bool)
  /-- FAN_FAILED (R538): A fan stays below 50 % of its commanded speed for 2 s. -/
  | fanFailed (k : Nat)
  /-- FAN_RUNNING (R538): A failed fan runs at 80 % or more for 10 s and counts as running again. -/
  | fanRunning (k : Nat)
  /-- TEMPERATURE_WARNING (R540): The intake or die reaches its warning threshold, or falls 2 °C below it. -/
  | temperatureWarning (on : Bool)
  /-- OVER_TEMPERATURE_SHUTDOWN (R540): At a die temperature of 125 °C the compute side is reset until it cools below 100 °C. -/
  | overTemperatureShutdown (on : Bool)
  /-- ENVIRONMENT_UPDATE (R541): Every 10 ms the temperature, fan and supply words are updated. -/
  | environmentUpdate (temp : Word) (fan : Word) (vlogic : Word) (vbrake : Word) (ibrake : Word)
  /-- GATE_EDGE (R130): A scheduled gate edge of a leg (turn-on after dead time or turn-off) is launched at its tap time. -/
  | gateEdge (ch : Nat)
  /-- Z_FALL (R202): The filtered Z line, or the reference mark, falls, which ends its qualification so the next pass can give an index. -/
  | zFall (ch : Nat)
  /-- RING_LINK_LOST (R390): A spoke link goes down, clearing RING_P_STAT.up and recording port event 1. -/
  | ringLinkLost (u : Nat)
  /-- PFC_FRAME_REPEAT (R388): Every half quanta time while the lossless level stays at or above xon, the port sends its PFC frame again. -/
  | pfcFrameRepeat (e : Nat) (prio : Nat)
  /-- PFC_PAUSE_EXPIRE (R388): The quanta time of a received PFC frame runs out, and the paused transmit queue may send again. -/
  | pfcPauseExpire (e : Nat) (prio : Nat)
  /-- ISLAND_SRAM_SCRUB (R394): The island scrubs its SRAM, correcting errors and entering state 5 with fcause 4 on an uncorrectable one. -/
  | islandSramScrub (addr : Nat) (how : Machine.AccessEnd)
  deriving DecidableEq, Repr

end Sys2Proof
end

