-- ==== Sys2Proof/Machine/State.lean ====
section
/-! DEFINITION. The machine's state as plain data: the queue of waiting commands, the register words, the memories, the
core registers, and the state of each block that no register shows. -/

namespace Sys2Proof.Machine

/-- Why a step faults. No meaning of this model faults (every bus error is the module's own behaviour, R297): the type
has one reason, which nothing raises, so it is safe. -/
inductive Fault where
  /-- Raised by nobody. Safe. -/
  | unused
  deriving DecidableEq, Repr

/-- Why a step refuses a command. -/
inductive Refusal where
  /-- Raised by the dispatcher alone, for a command whose meaning is not written yet. Safe. -/
  | notModelled (mnemonic : String)
  deriving DecidableEq, Repr

/-- What holds a core's issue (R309, R294, R296): nothing, a POST that waits for earlier stores, a POST whose code returns to a
register, a WAITC until a cycle count, a FENCE, an ISYNC, or an atomic in progress. -/
inductive Hold where
  | none
  | posting (d task : Nat)
  | post (d : Nat)
  | waitc (t : Nat)
  | fence (storesOnly : Bool)
  | isync
  | atomic
  deriving DecidableEq, Repr, Inhabited

/-- What an outstanding access does at its target: load into a register, store a word, or an atomic (R295). -/
inductive AccKind where
  | load
  | store
  | xchg
  | cas
  | faa
  | fora
  | fand
  deriving DecidableEq, Repr, Inhabited

/-- One outstanding access of a core (R293): its kind, address, the destination register of a load or atomic and whether the NMI
handler issued it (so that it names the second bank), the word stored or the atomic's operand, the compare value of CAS, and the PC
of its instruction. -/
structure OutAcc where
  kind : AccKind := .load
  addr : Nat := 0
  dst : Nat := 0
  bank : Bool := false
  val : Word := 0
  cmp : Word := 0
  pc : Nat := 0
  whole : Bool := false
  after : List Nat := []
  deriving DecidableEq, Repr, Inhabited

/-- How a core's activation is being ended while its accesses drain (R283). -/
inductive Drain where
  | none
  | fault
  deriving DecidableEq, Repr, Inhabited

/-- The state of one core that is no register: the dispatched task, the task a decision sent to it, the task that
preempts it, an eviction of R339, the halt of R314, what holds issue, its outstanding accesses, the arrived result of a
POST, an activation end that waits for its accesses, its busy edges, and whether a load stands held at the bound of outstanding
reads (R45). -/
structure CoreSt where
  task : Option Nat := Option.none
  assign : Option Nat := Option.none
  preempt : Option Nat := Option.none
  evict : Bool := false
  orphan : Bool := false
  halted : Bool := false
  hold : Hold := .none
  outs : List OutAcc := []
  postRes : Option Nat := Option.none
  drain : Drain := .none
  busy : Nat := 0
  stalled : Bool := false
  deriving DecidableEq, Repr, Inhabited

/-- The state of one task that is no register: the posts whose activations have not started, oldest first, the post of a started
activation whose first instruction has not issued (R347), the entry time of R331, and whether event 3 of R352 stands recorded for
it. -/
structure TaskSt where
  posts : List Post := []
  first : Option Post := Option.none
  stamp : Nat := 0
  stuck : Bool := false
  deriving DecidableEq, Repr, Inhabited

/-- The Innkeeper's state: the post queue, a counter that orders list entries, the tasks cancelled in the present cycle (R329,
order 2), and the TB0 time in 1/64 ns at which the load window began (R349). -/
structure InnkSt where
  queue : List Post := []
  clock : Nat := 0
  cancelled : List Nat := []
  winStart : Nat := 0
  deriving DecidableEq, Repr, Inhabited

/-- A transmit timestamp record or a capture record: value in 1/64 ns, status word, rising edge. -/
structure StampRec where
  t64 : Nat := 0
  st : Nat := 0
  rise : Bool := false
  deriving DecidableEq, Repr, Inhabited

/-- The time unit (R51 to R92). Counters are held in 2^-46 ns: 1/64 ns with the 40 fraction bits of R51. `frozen` is the rate
of holdover (R71), `far`, `eFirst` and `bad` the counts of R57 and R58, `pps6` the last 1PPS measurement of a base with source
6 and its TB0 time, `revert` the TB0 time from which the hold-off of R70 counts, `linkHist` the last 16 delays of R81, `txq` the
transmit queues, `ppsRise` and `tenRise` the TB0 times at which the outputs rose (R76), `snapBusy` the snapshots not yet read
to the end (R35), `mt` the TB0 time of the last measurement and `lapsed` the bases whose timeout has been recorded since (R58). -/
structure TimeSt where
  cnt : Tab Nat := []
  frozen : Int := 0
  far : Tab Nat := []
  eFirst : Tab Int := []
  bad : Tab Nat := []
  pps6 : Tab (Option (Int × Nat)) := []
  revert : Option Nat := Option.none
  ppsOut : Bool := false
  tenOut : Bool := false
  ppsRise : Nat := 0
  tenRise : Nat := 0
  linkHist : Tab (List Int) := []
  mt : Tab Nat := []
  lapsed : List Nat := []
  txq : Tab (List StampRec) := []
  snapBusy : List Nat := []
  deriving DecidableEq, Repr, Inhabited

/-- One TIO pin (R113, R114): its output level, the last output edge in 1/64 ns of TB0, the pending pulse fall with its entry, the
last captured edge, and the capture queue. -/
structure TioSt where
  level : Bool := false
  lastOut : Option Nat := Option.none
  fall : Option (Nat × Nat) := Option.none
  lastCap : Option Nat := Option.none
  q : List StampRec := []
  deriving DecidableEq, Repr, Inhabited

/-- An action launched by a fire that has yet to take effect (R107, R112): the PCLK edge on which it does, its code and argument, its
entry, and for act 5 the time of the pin edge in 1/64 ns of TB0. -/
structure PrismAct where
  at_ : Nat := 0
  act : Nat := 0
  arg : Nat := 0
  entry : Nat := 0
  t : Nat := 0
  deriving DecidableEq, Repr, Inhabited

/-- The Prism (R93 to R117): the armed entries, the edge on which each of them was armed, the entries that fired on the present
edge, the launched actions that have yet to take effect, the running walk and the waiting walk requests (counter and its value at
the jump), the edge on which the running walk started, the table writes that wait for a walk, and the pins. -/
structure PrismSt where
  armed : List Nat := []
  armedAt : List (Nat × Nat) := []
  firedNow : List Nat := []
  acts : List PrismAct := []
  walk : Option (Nat × Nat) := Option.none
  walkAt : Nat := 0
  waiting : List (Nat × Nat) := []
  held : List (Nat × Nat × Word) := []
  tio : Tab TioSt := []
  deriving DecidableEq, Repr, Inhabited

/-- One segment of a setpoint curve (R233, R235, R245): its start in seconds of cell time, its duration, the position and
speed at its ends, and its form: 0 to 2 a ramp of that shape, 3 a cubic Hermite curve. A cruise is a ramp between equal
speeds. -/
structure Seg where
  t0 : Rat := 0
  dur : Rat := 0
  p0 : Rat := 0
  v0 : Rat := 0
  p1 : Rat := 0
  v1 : Rat := 0
  form : Nat := 0
  deriving DecidableEq, Repr, Inhabited

/-- A streamed point (R244): position, speed, and time in 1/64 ns of cell time. -/
structure StreamPt where
  p : Rat := 0
  v : Rat := 0
  t64 : Nat := 0
  deriving DecidableEq, Repr, Inhabited

/-- What the generator is doing: at rest, a move to its base plus PROF_TGT (base 0 for an absolute move), a velocity move, a stream, a controlled stop, or
the end of a stream that waits for its last step (R240, R241, R245 to R247). -/
inductive Goal where
  | rest
  | move (base : Rat)
  | jog (v : Rat)
  | stream
  | stop
  | finish
  deriving DecidableEq, Repr, Inhabited

/-- A command accepted and not yet taken at an update edge (R237). -/
inductive ProfCmd where
  | none
  | move (base : Rat)
  | jog (v : Rat)
  | stream
  | home
  | stop
  deriving DecidableEq, Repr, Inhabited

/-- One debounced input (R258, R259): its level as sampled, its debounced level, how many equal samples it has run, the
instant of its last debounced change in 1/64 ns of TB0, and whether it chatters. -/
structure InSt where
  level : Bool := false
  run : Nat := 0
  last : Option Nat := Option.none
  chatter : Bool := false
  deriving DecidableEq, Repr, Inhabited

/-- One leg of a PWM stage (R127 to R136): the level of its ideal signal, the sides that are on, the tap times of their
last turn-on and turn-off in the present period, and whether each side has turned on in it. -/
structure LegSt where
  lv : Bool := false
  hi : Bool := false
  lo : Bool := false
  onHi : Int := 0
  onLo : Int := 0
  offHi : Int := -(2 ^ 40)
  offLo : Int := -(2 ^ 40)
  cntHi : Bool := false
  cntLo : Bool := false
  deriving DecidableEq, Repr, Inhabited

/-- A scheduled gate edge (R127 to R131): its tap time in the present period, its leg, the side, whether it turns the side on,
and the raw delay elements per cycle of the tap map in force when it was scheduled. -/
structure GateEdge where
  t : Int := 0
  leg : Nat := 0
  hi : Bool := false
  on : Bool := false
  code : Nat := 0
  deriving DecidableEq, Repr, Inhabited

/-- An open sample window (R144, R148): k, osr and the enabled inputs at the open, whether MCLK had run 256 periods then (R147), the
edge of its first sample instant, and the cell time of its kernel centre once that has passed, in 1/64 ns (R145, R162). -/
structure SdWin where
  k : Nat := 0
  osr : Nat := 0
  inen : Nat := 0
  warm : Bool := false
  first : Nat := 0
  mid : Option Nat := Option.none
  deriving DecidableEq, Repr, Inhabited

/-- A PWM stage (R120 to R148): the carrier counter in taps, the nominal length and the end of the present period, whether
its centre has passed, a pending stop, the legs, the scheduled edges, whether the pads stay off until the next carrier start
(R141), whether a transfer took place on the present edge (R135), what acts on the next edge (a transfer, a start, a stop, a
Prism commit: R122, R124, R133), a tracking that waits for the carrier start of its edge (R126), the raw delay elements of the last
launched edge (R131), the gate outputs as the last edge left them, the edge of the last output edge and the edge since which the trip
input has been sampled active (R138), the open sample window, the edge on which continuous mode was entered and the results given
since (R148). -/
structure PwmSt where
  c : Nat := 0
  len : Nat := 0
  fin : Nat := 0
  centred : Bool := false
  stop : Bool := false
  legs : Tab LegSt := []
  edges : List GateEdge := []
  padHold : Bool := false
  xfer : Bool := false
  go : Bool := false
  startReq : Bool := false
  stopReq : Bool := false
  commitReq : Bool := false
  trk : Bool := false
  raw : Nat := 0
  outs : Nat := 0
  outAt : Option Nat := Option.none
  tripSince : Option Nat := Option.none
  win : Option SdWin := Option.none
  cont : Option Nat := Option.none
  contN : Nat := 0
  deriving DecidableEq, Repr, Inhabited

/-- An arm port (R131, R142): the last delay-line count, whether the line ever locked, the edge on which MCLK started with the
div and dly that it runs with, and whether MCLK stops at the end of its period. -/
structure PortSt where
  prev : Option Nat := Option.none
  ever : Bool := false
  mclk : Option Nat := Option.none
  div : Nat := 20
  dly : Nat := 0
  stopping : Bool := false
  deriving DecidableEq, Repr, Inhabited

/-- A plan that was in force until a time, with its rest position and the sum of shifts then (R162, R251). -/
structure OldPlan where
  till : Rat := 0
  p : Rat := 0
  plan : List Seg := []
  shift : Rat := 0
  deriving DecidableEq, Repr, Inhabited

/-- The profile generator of a channel (R233 to R266): the plan in force and the position where it rests, the sum of the
shifts of R250, the goal, the command waiting for the next update edge, a waiting position load, the last commanded target,
the inputs of the plan, the point queue, the stream's last point, the stop instant after an
underrun, the distance travelled in a homing state and the position up to which it counts, the captured position, the step output (the
grid index of the last launched step, the steps due and not yet launched, oldest first and true for positive ones, the edge of the last
change of direction, the steps placed in the update interval, and the grid with the index after them), the resolution change that is
due, the halving count and the electrical position of the last update edge, the edge of the last completion, the two inputs, and the
plans before the present one. -/
structure ProfSt where
  plan : List Seg := []
  p : Rat := 0
  shift : Rat := 0
  goal : Goal := .rest
  cmd : ProfCmd := .none
  load : Option Rat := Option.none
  target : Option Rat := Option.none
  inputs : List Rat := []
  pts : List StreamPt := []
  last : Option StreamPt := Option.none
  under : Bool := false
  homeAt : Rat := 0
  homeRun : Rat := 0
  cap : Option Rat := Option.none
  stepped : Int := 0
  waits : List Bool := []
  stepHigh : Bool := false
  dirPos : Bool := true
  riseAt : Option Nat := Option.none
  dirAt : Option Nat := Option.none
  cross : List (Nat × Bool) := []
  base : Option (Rat × Int) := Option.none
  lagRec : Bool := false
  resDue : Option Nat := Option.none
  halv : Nat := 0
  ePrev : Rat := 0
  doneAt : Option Nat := Option.none
  inA : InSt := {}
  inB : InSt := {}
  old : List OldPlan := []
  deriving DecidableEq, Repr, Inhabited

/-- A latch on its way to a set (R212): whether the Prism asked for it, its edge, its time in 1/64 ns of cell time and the
epoch of it, the edge of the last load before it, and what was fixed before the set appears: position, speed, a², and whether the position is fresh. -/
structure PendLatch where
  prism : Bool := false
  at_ : Nat := 0
  t64 : Nat := 0
  key : Nat := 0
  pos : Option Int := Option.none
  spd : Option Int := Option.none
  a2 : Option Nat := Option.none
  fresh : Bool := true
  ended : Bool := false
  cnt : Int := 0
  ready : Nat := 0
  phist : Bool := false
  shist : Bool := false
  unc : Bool := false
  ref : Bool := false
  load : Option Nat := Option.none
  deriving DecidableEq, Repr, Inhabited

/-- The feedback interface of a channel (R192 to R226): the decoder state, the count, the raw position and the offset that
loads add to it, the times of the last edges (newest first) with their direction and epoch and the usable intervals, the
index line, the faulted lines, the count edge that waits for its compare, the latches on their way and the last sets, the
serial frames and their waits, and the emulated output. -/
structure FbkSt where
  ab : Option (Bool × Bool) := Option.none
  n : Int := 0
  raw : Int := 0
  offs : Int := 0
  edges : List Nat := []
  iv : Nat := 0
  dir : Int := 0
  key : Nat := 0
  broken : Bool := false
  zq : Bool := false
  faults : List Nat := []
  cmp : Option (Int × Int × Nat) := Option.none
  loadAt : Option Nat := Option.none
  uncAt : Option Nat := Option.none
  pend : List PendLatch := []
  lastL : Nat := 0
  inUse : Option LatchSet := Option.none
  prevPos : Option Int := Option.none
  amp : Bool := false
  goods : List (Int × Nat × Nat) := []
  frac : Option Nat := Option.none
  vt : Nat := 0
  vk : Nat := 0
  bads : Nat := 0
  wait : Nat := 0
  biss : Bool := false
  out : Int := 0
  outAt : Nat := 0
  zPulse : Bool := false
  deriving DecidableEq, Repr, Inhabited

/-- The snapshot of an ALE wake (R159): its edge, the edge C of R186, the page words 0x10 to 0x27, the stage's kind, legs,
shadow period, active set, run bit and dead time, the results and their validity, the references in use, the cell time of the
wake and of the kernel centre in 1/64 ns, the latch set in use, and the step angle and rate of the profile generator. -/
structure AleSnap where
  at_ : Nat := 0
  c : Nat := 0
  w : List Nat := []
  kind : Nat := 0
  legen : Nat := 0
  per : Nat := 0
  actPer : Nat := 0
  act : List Nat := []
  running : Bool := false
  dt : Nat := 0
  valid : Bool := false
  inen : Nat := 0
  res : List Int := []
  rd : Int := 0
  rq : Int := 0
  t : Nat := 0
  tc : Int := 0
  latch : Option LatchSet := Option.none
  th3 : Rat := 0
  f3 : Rat := 0
  deriving DecidableEq, Repr, Inhabited

/-- The axis loop engine of a channel (R157 to R184): the wake slot and the running computation, the committed references and
those in use, the wakes without a commit, the consecutive invalid results, the mode and the stepper path of the last
computation, the integrators, the last compares with their period length, the integrated angle and its wake, when the speed
last differed from 0, and the consecutive results over the current envelope. -/
structure AleSt where
  wake : Option AleSnap := Option.none
  run : Option AleSnap := Option.none
  cd : Int := 0
  cq : Int := 0
  ud : Int := 0
  uq : Int := 0
  age : Nat := 0
  inval : Nat := 0
  mode : Nat := 0
  strong : Bool := false
  iD : Rat := 0
  iQ : Rat := 0
  last : List Nat := []
  lastL : Nat := 0
  th2 : Option (Rat × Nat) := Option.none
  moved : Option Nat := Option.none
  envOver : List Nat := [0, 0, 0]
  invRec : Bool := false
  vmeas : Option Nat := Option.none
  deriving DecidableEq, Repr, Inhabited

/-- An access held by a block reset or a gating handshake: initiator, address, and the word of a write. -/
structure HeldAcc where
  ini : Nat := 0
  addr : Nat := 0
  wr : Option Word := Option.none
  deriving DecidableEq, Repr, Inhabited

/-- A record on its way to the event log (R468, R469): its kind and its words 1 to 6. -/
structure LogRec where
  kind : Nat := 0
  ws : List Nat := []
  deriving DecidableEq, Repr, Inhabited

/-- A Porter engine at work (R477 to R480): the slot of its chain, the address of its descriptor, and the descriptor's words
as read; none while the descriptor waits for the end of a block of the page's outputs (R41). -/
structure PorterEng where
  slot : Nat := 0
  addr : Nat := 0
  desc : Option (List Word) := Option.none
  moved : Nat := 0
  deriving DecidableEq, Repr, Inhabited

/-- The Porters: the slots of the chains in flight that no engine has taken, oldest first, and the engines. -/
structure PorterSt where
  queue : List Nat := []
  eng : Tab (Option PorterEng) := []
  deriving DecidableEq, Repr, Inhabited

/-- A word in the MRAM write queue (R472): its offset, the word, and where it came from: 0 firmware, else 1 plus the Porter
engine. -/
structure MramWr where
  off : Nat := 0
  w : Word := 0
  src : Nat := 0
  deriving DecidableEq, Repr, Inhabited

/-- The ring block (R353 to R385): per slot id the cycles in which a frame was accepted, those in which one was taken, the half picked for an own transmit, the
held frame of each port with its entry, the last frame and the last link block that each port sent, the present cycle, the TB0
time of the last startup or time frame, or of entry to state 1, the serials of startup frames with their cycles, the own startup cycles, the last
measurements of the bases, the cycles in holdover, the jump of cell time seen at the last cycle start, the breaks and restores
that wait for their cycle, the broken hops of the hop list in force, the notices to send on each port, the asynchronous frames
to forward on each port with the port they came by and those that wait for a descriptor with their receive stamps, the receive buffer in use and the
credits owed on each port, the bad frames of the present cycle, the positions and serials of the leaves that reported on each
port, whether the own address is derived, the safety messages to send by slot id, the sequence number, the ports whose own
receive has failed, the bases of which two consecutive measurements have exceeded the limit since the last cycle start, and the pages whose output block ends at the next cycle start. -/
structure RingSt where
  got : Tab (List Nat) := []
  took : Tab (List Nat) := []
  ctl : Tab (Option Bool) := []
  hold : Tab (Option (Nat × RingFrame)) := []
  tx : Tab (Option RingFrame) := []
  blk : Tab (Option LinkBlock) := []
  cycle : Option Nat := Option.none
  heard : Nat := 0
  seen : List (Nat × Nat) := []
  starts : Nat := 0
  meas : Tab (List Int) := []
  holdover : Nat := 0
  jump : Option Nat := Option.none
  breaks : List (Nat × Nat) := []
  restores : List (Nat × Nat) := []
  inForce : List Nat := []
  notices : Tab (List (Nat × Nat)) := []
  restNotes : Tab (List Nat) := []
  fwd : Tab (List (Nat × RingFrame)) := []
  wait : List (Nat × RingFrame × StampRec) := []
  used : Tab Nat := []
  owed : Tab Nat := []
  bad : Tab Nat := []
  leaves : Tab (List (Nat × Nat)) := []
  known : Bool := false
  safety : Tab (List Nat) := []
  seq : Nat := 0
  rxFail : List Nat := []
  far : List Nat := []
  txHold : List Nat := []
  deriving DecidableEq, Repr, Inhabited

/-- A received Ethernet frame in a port's buffer (R86, R388): its priority, whether it lies in the headroom, its receive stamp as
captured, and the frame. -/
structure EthRx where
  prio : Nat := 0
  head : Bool := false
  rx : StampRec := {}
  frame : EthFrame := {}
  deriving DecidableEq, Repr, Inhabited

/-- An Ethernet port (R386 to R388): the frames in its buffers, the priorities for which a PFC pause stands, the paused
transmit priorities with the TB0 time at which each pause ends in 1/64 ns, the octets missing from each token bucket (bucket 8
is the port's) in 1/512,000 octet and the TB0 time to which they are counted, the last frame sent, and the edge of the last traffic. -/
structure EthSt where
  rx : List EthRx := []
  xoff : List Nat := []
  paused : Tab (Option Nat) := []
  lack : Tab Nat := []
  lackAt : Tab Nat := []
  sent : Option EthFrame := Option.none
  busyAt : Option Nat := Option.none
  deriving DecidableEq, Repr, Inhabited

/-- What the island keeps for a channel and its brake (R402 to R417): the latest set it judges and when it arrived, when the last
envelope violation came, the direction and the extreme position of SDI, the limit before the present limit-set change and when
that came, the violations (7 to 9) and the encoder fault (10) of the last cycle, the brake's times (pull-in, apply decision after
the SBC delay, last switch test), which switch the next test turns off, the holding test (start, position, last pass), and whether it
moves under STO (R394). -/
structure IslCh where
  set : Option LatchSet := Option.none
  env : Option Nat := Option.none
  ext : Option (Nat × Int) := Option.none
  ramp : Option (Rat × Nat) := Option.none
  codes : List Nat := []
  pullAt : Nat := 0
  sbc : Option Nat := Option.none
  testAt : Nat := 0
  low : Bool := false
  testStart : Nat := 0
  p0 : Int := 0
  passAt : Nat := 0
  moved : Bool := false
  deriving DecidableEq, Repr, Inhabited

/-- What the island keeps for a port (R407, R409, R412): the start of SS1, the speeds recorded then by position, the cause that
started it, since when every monitored channel stands, the mailbox's limit-set request, the edges since which the Lens may
release its stop and its request, and the edges of its last stop and of the last cause that arrived in STO. -/
structure IslPort where
  ts : Nat := 0
  v0 : List Nat := []
  by_ : Nat := 0
  still : Option Nat := Option.none
  mreq : Nat := 0
  clearFrom : Option Nat := Option.none
  looseFrom : Option Nat := Option.none
  stopAt : Option Nat := Option.none
  causeAt : Option Nat := Option.none
  deriving DecidableEq, Repr, Inhabited

/-- What the island keeps for a safety input (R418 to R420): the level and how many samples it has held, until when its samples
are not counted, when a check last failed, since when it differs from its pair partner, and how far a faulted pair has come
towards its release (1: both in demand, 2: then both healthy). -/
structure IslIn where
  level : Bool := false
  run : Nat := 0
  badAt : Nat := 0
  differ : Option Nat := Option.none
  seq : Nat := 2
  deriving DecidableEq, Repr, Inhabited

/-- What the island keeps for a receive connection (R422): the number of the last message with a matching CRC, how many good
messages came in a row, and when the last good one came. -/
structure IslConn where
  num : Option Nat := Option.none
  goods : Nat := 0
  at_ : Nat := 0
  deriving DecidableEq, Repr, Inhabited

/-- An intrusion object in its scanner's frame (R443), lengths in metres. -/
structure LensObj where
  x : Rat := 0
  y : Rat := 0
  z0 : Rat := 0
  z1 : Rat := 0
  r : Rat := 0
  deriving DecidableEq, Repr, Inhabited

/-- What the Lens keeps for a scanner (R444, R445): whether a good message came since the island start, whether the last one
asks for a stop (sf or format), and the objects that stand. -/
structure LensScan where
  good : Bool := false
  bad : Bool := false
  objs : List LensObj := []
  deriving DecidableEq, Repr, Inhabited

/-- A capsule placed in the cell frame (R440, R442): number, ends, radius, speed bound, tool mark. -/
structure LensCap where
  n : Nat := 0
  e0 : List Rat := []
  e1 : List Rat := []
  r : Rat := 0
  v : Rat := 0
  tool : Bool := false
  deriving DecidableEq, Repr, Inhabited

/-- The Lens (R433 to R452): the scanners, the capsules of each arm from the last cycle in which its pose was known (none: never) and from the
last cycle, and whether the last self-test failed. -/
structure LensSt where
  scans : Tab LensScan := []
  known : Tab (Option (List LensCap)) := []
  caps : Tab (List LensCap) := []
  failedOnce : Bool := false
  failed : Bool := false
  deriving DecidableEq, Repr, Inhabited

/-- The safety island (R393 to R427): the image in force, the edge of the last cycle start and of the island start, the arrival
edge of the latest set of each channel, the waiting mailbox command and whether its cycle has begun, the stop-path output whose read-back differed in
the last cycle, whether an island restart used the present hold of ERST, until when each TP group's mask is open, the last failed
check of each TP output, until when each SO is in its off-pulse, the last sample of the inputs, the transmit numbers and the ring cycle
of each connection's last message, the SRAM of 256 Ki words with their check bits and the next word of its scrub, the BRAKE inputs that
are faulted, and the Lens. Times are edges of 2.5 ns. -/
structure IslandSt where
  img : SafetyImage := {}
  cycAt : Nat := 0
  startAt : Nat := 0
  arr : Tab (Option Nat) := []
  mb : Option (Nat × Nat) := Option.none
  mbTaken : Bool := false
  mism : Option Nat := Option.none
  erstUsed : Bool := false
  mask : Tab Nat := []
  tpBad : Tab Nat := []
  soPulse : Tab Nat := []
  siAt : Option Nat := Option.none
  ch : Tab IslCh := []
  port : Tab IslPort := []
  si : Tab IslIn := []
  conn : Tab IslConn := []
  txNum : Tab Nat := []
  txCyc : Tab (Option Nat) := []
  sram : Tab (Word × BitVec 8) := []
  sramAt : Nat := 0
  brakeBad : List Nat := []
  lens : LensSt := {}
  deriving DecidableEq, Repr, Inhabited

/-- The clock unit (R488 to R502). Domains are 0 CORE, 1 FAB, 2 PCLK, 3 MEMC; monitors are numbered as CLK_MON_LAST numbers them:
the target of the switch in progress of CORE and FAB, the edge of each monitor's last trip, the domains held stopped until the IRC is
ready, and the dead domains; whether the next boot enters recovery (R508, R519); and whether the over-temperature shutdown holds
the compute side in reset (R540); since when XO-M follows the 10 MHz input, and the edge at which its pull was last known (R490); when the
throttling condition ended (R496); the word of the spread that is in force, and where its modulation period began (R497). -/
structure ClkSt where
  sw : Tab (Option Nat) := []
  tripAt : Tab (Option Nat) := []
  held : List Nat := []
  dead : List Nat := []
  recov : Bool := false
  hot : Bool := false
  follow : Option Nat := Option.none
  pullAt : Nat := 0
  thrAt : Option Nat := Option.none
  ssc : Nat := 320
  sscAt : Nat := 0
  deriving DecidableEq, Repr, Inhabited

/-- The answer line of the console to its last command (R520): whether it begins with OK, its code, and the words it carries. -/
structure ConsoleAns where
  ok : Bool := false
  code : Nat := 0
  ws : List Word := []
  deriving DecidableEq, Repr, Inhabited

/-- The state of the machine. `regs` holds the register words by word address; a word that is not listed holds its
reset value. `mem` holds the words of every memory. `crs` holds the registers of the cores. -/
structure State where
  pending : List Instr := []
  now : Nat := 0
  cyc : Nat := 0
  regs : Tab Word := []
  mem : Tab Word := []
  crs : Tab Word := []
  core : Tab CoreSt := []
  task : Tab TaskSt := []
  innk : InnkSt := {}
  time : TimeSt := {}
  prism : PrismSt := {}
  prof : Tab ProfSt := []
  pwm : Tab PwmSt := []
  port : Tab PortSt := []
  fbk : Tab FbkSt := []
  ale : Tab AleSt := []
  pipe : Tab (Option Nat) := []
  stream : Tab (Option LatchSet) := []
  holds : Tab (Option (Nat × List Word)) := []
  envBlk : List Nat := []
  envNotify : List Nat := []
  gateEn : List Nat := []
  wire : List Post := []
  heldPosts : List Post := []
  posted : List Nat := []
  blocked : List Nat := []
  srstBusy : List Nat := []
  gating : List Nat := []
  held : List HeldAcc := []
  slLocked : Bool := false
  olSealed : Bool := false
  fcNotify : List Nat := []
  fcStart : Tab Nat := []
  jumpAt : Option Nat := none
  logq : List LogRec := []
  logAt : Option Nat := none
  dscrub : Tab (Nat × Bool) := []
  scrubPos : Tab Nat := []
  logScanned : Bool := false
  mwq : List MramWr := []
  porter : PorterSt := {}
  ring : RingSt := {}
  eth : Tab EthSt := []
  isl : IslandSt := {}
  clk : ClkSt := {}
  console : ConsoleAns := {}
  rdata : Word := 0
  freeN : Nat := 0
  deriving DecidableEq, Repr

/-- The outcome of a command. -/
abbrev Out := Host.Outcome State Fault Refusal

/-- The machine right after power-on reset: every register word at its reset value, and core 0 about to start at 0x3000, outside any
task (R506, R509). (DESIGN CHOICE, log 6) -/
def State.reset : State := { crs := [(55, 0x3000)] }

end Sys2Proof.Machine
end

