-- ==== Sys2Proof/Machine/Ops.lean ====
section
/-! DEFINITION. The named operations over the register words, the memories and the core registers: fields of words, the
map of blocks and their reset words (R13, R19, R20, R29), and reads and writes. -/

namespace Sys2Proof.Machine

/-! Fields of words. -/

/-- A field of a word. -/
def fldGet (w : Nat) (f : Fld) : Nat := w / 2 ^ f.lo % 2 ^ (f.hi + 1 - f.lo)

/-- A word with one field replaced, the value taken modulo the field's width. -/
def fldPut (w : Nat) (f : Fld) (v : Nat) : Nat :=
  w % 2 ^ f.lo + 2 ^ f.lo * (v % 2 ^ (f.hi + 1 - f.lo)) + 2 ^ (f.hi + 1) * (w / 2 ^ (f.hi + 1))

/-- Two's complement reading of a number of `n` bits. -/
def sint (n v : Nat) : Int := if v % 2 ^ n < 2 ^ (n - 1) then (v % 2 ^ n : Nat) else (v % 2 ^ n : Nat) - 2 ^ n

/-- Two's complement image of an integer in `n` bits. -/
def unsint (n : Nat) (i : Int) : Nat := (i % 2 ^ n).toNat

/-- An integer limited to a range. -/
def clampI (lo hi i : Int) : Int := if i < lo then lo else if hi < i then hi else i

/-- A number that saturates at `m`. -/
def satN (m n : Nat) : Nat := if m < n then m else n

/-- Bit `k` of a number. -/
def bitN (w k : Nat) : Bool := w / 2 ^ k % 2 == 1

/-- One or zero. -/
def b2n (b : Bool) : Nat := if b then 1 else 0

/-- A number with bit `k` set. -/
def setBitN (w k : Nat) : Nat := w ||| 2 ^ k

/-! The blocks. -/

/-- The blocks whose words lie in the register-page space (R13, R29). -/
inductive Blk where
  | sys0 | sys1 | clk | time0 | tb (n : Nat) | tsu (u : Nat) | snap | prism0 | prism1 | prism2 | trg
  | innk0 | innk1 | innk2 | tsk | mem0 | mem1 | mem2 | mem3 | porter0 | porter1
  | ring0 | ringP (u : Nat) | ring11 | names | sched | eth0 | ethP (e : Nat)
  | safe0 | safe1 | safe2 | safe3 | lens0 | lens1 | lens2
  | pwm (ch : Nat) | ale (ch : Nat) | fbk (ch : Nat) | prof (ch : Nat) | port (p : Nat) | core (c : Nat)
  | absent
  deriving DecidableEq, Repr

/-- The base of the register pages (R13). -/
abbrev pageSpace : Nat := 0xF80000000

/-- The address of the page with a page index (R334: page index = (page address - 0xF_8000_0000) / 0x100). -/
def pageAddr (i : Nat) : Nat := pageSpace + 0x100 * i

/-- The page address of an address. -/
def pageOf (a : Nat) : Nat := a / 0x100 * 0x100

abbrev pSys : Nat := 0xF80000000
abbrev pSys1 : Nat := 0xF80000100
abbrev pClk : Nat := 0xF80010000
abbrev pTime0 : Nat := 0xF80020000
def pTb (n : Nat) : Nat := 0xF80020100 + 0x100 * n
def pTsu (u : Nat) : Nat := 0xF80020800 + 0x100 * u
def pSnap (c : Nat) : Nat := 0xF80028000 + 0x10 * c
abbrev pPrism0 : Nat := 0xF80030000
abbrev pPrism1 : Nat := 0xF80030100
abbrev pPrism2 : Nat := 0xF80030200
def pTrg (n : Nat) : Nat := 0xF80038000 + 4 * n
abbrev pInnk0 : Nat := 0xF80040000
abbrev pInnk1 : Nat := 0xF80040100
abbrev pInnk2 : Nat := 0xF80040200
def pTsk (t : Nat) : Nat := 0xF80048000 + 0x40 * t
def pMem (k : Nat) : Nat := 0xF80050000 + 0x100 * k
abbrev pPorter0 : Nat := 0xF80060000
abbrev pPorter1 : Nat := 0xF80060100
abbrev pRing0 : Nat := 0xF80070000
def pRing (u : Nat) : Nat := 0xF80070100 + 0x100 * u
abbrev pRing11 : Nat := 0xF80070B00
abbrev pNames : Nat := 0xF80074000
def pSched (e : Nat) : Nat := 0xF80078000 + 8 * e
abbrev pEth0 : Nat := 0xF80080000
def pEth (e : Nat) : Nat := 0xF80080100 + 0x100 * e
def pSafe (k : Nat) : Nat := 0xF80090000 + 0x100 * k
def pLens (k : Nat) : Nat := 0xF800A0000 + 0x100 * k
def pPwm (ch : Nat) : Nat := 0xF80100000 + 0x100 * ch
def pAle (ch : Nat) : Nat := 0xF80110000 + 0x100 * ch
def pFbk (ch : Nat) : Nat := 0xF80120000 + 0x100 * ch
def pProf (ch : Nat) : Nat := 0xF80130000 + 0x100 * ch
def pPort (p : Nat) : Nat := 0xF80140000 + 0x100 * p
def pCore (c : Nat) : Nat := 0xF80200000 + 0x100 * c

/-- Is `lo ≤ q < lo + n`? -/
def inRange (q lo n : Nat) : Bool := decide (lo ≤ q) && decide (q < lo + n)

/-- The block of a page index (R13, R29, and the page lists of the chapters). -/
def blkOfIndex (q : Nat) : Blk :=
  if q < 0x200 then
    if q == 0 then .sys0 else if q == 1 then .sys1 else if q == 0x100 then .clk else .absent
  else if q < 0x300 then
    if q == 0x200 then .time0 else if inRange q 0x201 4 then .tb (q - 0x201)
    else if inRange q 0x208 12 then .tsu (q - 0x208) else if inRange q 0x280 4 then .snap else .absent
  else if q < 0x400 then
    if q == 0x300 then .prism0 else if q == 0x301 then .prism1 else if q == 0x302 then .prism2
    else if inRange q 0x380 16 then .trg else .absent
  else if q < 0x500 then
    if q == 0x400 then .innk0 else if q == 0x401 then .innk1 else if q == 0x402 then .innk2
    else if inRange q 0x480 128 then .tsk else .absent
  else if q < 0x700 then
    if q == 0x500 then .mem0 else if q == 0x501 then .mem1 else if q == 0x502 then .mem2 else if q == 0x503 then .mem3
    else if q == 0x600 then .porter0 else if q == 0x601 then .porter1 else .absent
  else if q < 0x800 then
    if q == 0x700 then .ring0 else if inRange q 0x701 10 then .ringP (q - 0x701) else if q == 0x70B then .ring11
    else if inRange q 0x740 16 then .names else if inRange q 0x780 128 then .sched else .absent
  else if q < 0x1000 then
    if q == 0x800 then .eth0 else if inRange q 0x801 2 then .ethP (q - 0x801)
    else if q == 0x900 then .safe0 else if q == 0x901 then .safe1 else if q == 0x902 then .safe2
    else if q == 0x903 then .safe3 else if q == 0xA00 then .lens0 else if q == 0xA01 then .lens1
    else if q == 0xA02 then .lens2 else .absent
  else if inRange q 0x1000 96 then .pwm (q - 0x1000)
  else if inRange q 0x1100 96 then .ale (q - 0x1100)
  else if inRange q 0x1200 96 then .fbk (q - 0x1200)
  else if inRange q 0x1300 96 then .prof (q - 0x1300)
  else if inRange q 0x1400 12 then .port (q - 0x1400)
  else if inRange q 0x2000 64 then .core (q - 0x2000)
  else .absent

/-- The block of a word address. -/
def blkOf (a : Nat) : Blk := if a < pageSpace then .absent else blkOfIndex ((a - pageSpace) / 0x100)

/-- Does the block carry the page header of R19? The tables and the snapshot words do not (R80, R93, R321). -/
def Blk.hasHeader (b : Blk) : Bool :=
  match b with
  | .snap | .trg | .tsk | .names | .sched | .absent => false
  | _ => true

/-- Is a block's page one of the Lens? -/
def Blk.isLens (b : Blk) : Bool :=
  match b with
  | .lens0 | .lens1 | .lens2 => true
  | _ => false

/-- Is PAGE_CTL of a block read-only to cores (R30, R454)? -/
def Blk.readOnly (b : Blk) : Bool :=
  match b with
  | .safe0 | .safe1 | .safe2 | .safe3 => true
  | _ => b.isLens

/-- The type code of R29. -/
def Blk.code (b : Blk) : Nat :=
  match b with
  | .sys0 | .sys1 => 0x001
  | .clk => 0x002
  | .time0 | .tb _ | .tsu _ => 0x003
  | .prism0 | .prism1 | .prism2 => 0x004
  | .innk0 | .innk1 | .innk2 => 0x005
  | .mem0 | .mem1 | .mem2 | .mem3 => 0x006
  | .porter0 | .porter1 => 0x007
  | .ring0 | .ringP _ | .ring11 => 0x008
  | .eth0 | .ethP _ => 0x009
  | .safe0 | .safe1 | .safe2 | .safe3 => 0x00A
  | .lens0 | .lens1 | .lens2 => 0x00B
  | .pwm _ => 0x010
  | .ale _ => 0x011
  | .fbk _ => 0x012
  | .prof _ => 0x013
  | .port _ => 0x014
  | .core _ => 0x020
  | _ => 0

/-- PAGE_ID.instance (R29): the channel, port or core number, the page number of a MEM, ring port or Ethernet port page, and 0 for
the other single blocks. (DEDUCED, log 11) -/
def Blk.inst (b : Blk) : Nat :=
  match b with
  | .pwm ch | .ale ch | .fbk ch | .prof ch => ch
  | .port p => p
  | .core c => c
  | .mem0 => 0
  | .mem1 => 1
  | .mem2 => 2
  | .mem3 => 3
  | .ringP u => u
  | .ethP e => e
  | _ => 0

/-- Is PAGE_CTL.en 1 after module reset (R20)? -/
def Blk.enReset (b : Blk) : Bool :=
  match b with
  | .sys0 | .sys1 | .clk | .time0 | .tb _ | .tsu _ | .mem0 | .mem1 | .mem2 | .mem3 | .innk0 | .innk1 | .innk2 => true
  | .core c => c == 0
  | _ => false

/-- The block-specific fields of a block. -/
def Blk.fields (b : Blk) : List Fld :=
  match b with
  | .sys0 => fieldsSys0
  | .sys1 => fieldsSys1
  | .clk => fieldsClk
  | .time0 => fieldsTime0
  | .tb n => if n == 0 then [] else fieldsTb
  | .tsu _ => fieldsTsu
  | .prism0 => fieldsPrism0
  | .prism1 => fieldsPrism1
  | .prism2 => fieldsPrism2
  | .trg => fieldsTrg
  | .innk0 => fieldsInnk0
  | .innk1 => fieldsInnk1
  | .innk2 => fieldsInnk2
  | .tsk => fieldsTsk
  | .mem0 => fieldsMem0
  | .mem1 | .mem2 => fieldsMem1
  | .mem3 => fieldsMem3
  | .porter0 => fieldsPorter0
  | .porter1 => fieldsPorter1
  | .ring0 => fieldsRing0
  | .ringP _ => fieldsRingp
  | .ring11 => fieldsRing11
  | .names => fieldsName
  | .sched => fieldsSched
  | .eth0 => fieldsEth0
  | .ethP _ => fieldsEthp
  | .safe0 => fieldsSafe0
  | .safe1 => fieldsSafe1
  | .safe2 => fieldsSafe2
  | .safe3 => fieldsSafe3
  | .lens0 => fieldsLens0
  | .lens1 => fieldsLens1
  | .lens2 => fieldsLens2
  | .pwm _ => fieldsPwm
  | .ale _ => fieldsAle
  | .fbk _ => fieldsFbk
  | .prof _ => fieldsProf
  | .port _ => fieldsPort
  | .core _ => fieldsCore
  | .snap | .absent => []

/-- The offset of a word in its page, or in its entry of a table (R93, R321, R357, R360). -/
def Blk.offset (b : Blk) (a : Nat) : Nat :=
  match b with
  | .trg => a % 4
  | .tsk => a % 0x40
  | .names => a % 2
  | .sched => a % 8
  | _ => a % 0x100

/-- The fields of the word at an address: the header's, then the block's own. -/
def wordFields (a : Nat) : List Fld :=
  let b := blkOf a
  let o := b.offset a
  if b.hasHeader && decide (o < 0x10) then
    fieldsHdr.filter (fun f => f.off == o) ++ b.fields.filter (fun f => f.off == o && decide (8 ≤ f.lo))
  else b.fields.filter (fun f => f.off == o)

/-- The reset value of a word from its fields (R9, R11). -/
def fieldsReset (l : List Fld) : Nat :=
  match l with
  | [] => 0
  | f :: r => f.rst * 2 ^ f.lo + fieldsReset r

/-- The word a register holds at module reset: the sum of its fields, with PAGE_ID (R19, R29), PAGE_CTL.en (R20), the
sources of TB1 and TB2 (R63), the fixed status of TB0 (R51), the serial identity (R17) and the power-on cause (R523). (DESIGN CHOICE, log 5) -/
def resetWord (a : Nat) : Word :=
  let b := blkOf a
  let o := b.offset a
  if b.hasHeader && o == 0 then word (b.code * 2 ^ 24 + b.inst * 2 ^ 12 + 1)
  else if b.hasHeader && o == 1 then word (b2n b.enReset)
  else match b with
    | .absent => 0
    | .tb n =>
      if n == 0 then (if o == 0x11 then word (2 ^ 35 + 2 ^ 34) else word (fieldsReset (wordFields a)))
      else if o == 0x10 then word (fieldsReset (wordFields a) + (if n == 3 then 0 else n))
      else word (fieldsReset (wordFields a))
    | .sys0 =>
      if o == 0x17 then word (Config.serial % 2 ^ 32)
      else if o == 0x18 then word (Config.serial / 2 ^ 32 % 2 ^ 32)
      else if o == 0x1A then word (2 ^ 34 + 2 ^ 32)
      else word (fieldsReset (wordFields a))
    | _ => word (fieldsReset (wordFields a))

/-! Reading and writing. -/

/-- The word held at a register address. -/
def State.regW (s : State) (a : Nat) : Word := Tab.get resetWord s.regs a

/-- The number held at a register address. -/
def State.reg (s : State) (a : Nat) : Nat := (s.regW a).toNat

/-- Hold a word at a register address. -/
def State.setReg (s : State) (a : Nat) (v : Nat) : State := { s with regs := Tab.set resetWord s.regs a (word v) }

/-- A field of the page or table entry at `p`. -/
def State.get (s : State) (p : Nat) (f : Fld) : Nat := fldGet (s.reg (p + f.off)) f

/-- A field read as a two's complement number. -/
def State.getI (s : State) (p : Nat) (f : Fld) : Int := sint (f.hi + 1 - f.lo) (s.get p f)

/-- A one-bit field read as a truth value. -/
def State.flag (s : State) (p : Nat) (f : Fld) : Bool := s.get p f == 1

/-- Put a value into a field, leaving the word's other bits. -/
def State.put (s : State) (p : Nat) (f : Fld) (v : Nat) : State :=
  s.setReg (p + f.off) (fldPut (s.reg (p + f.off)) f v)

/-- Put an integer into a field in two's complement. -/
def State.putI (s : State) (p : Nat) (f : Fld) (i : Int) : State := s.put p f (unsint (f.hi + 1 - f.lo) i)

/-- Put an integer into a field, limited to what the field can hold in two's complement. -/
def State.putSat (s : State) (p : Nat) (f : Fld) (i : Int) : State :=
  s.putI p f (clampI (-(2 ^ (f.hi - f.lo))) (2 ^ (f.hi - f.lo) - 1) i)

/-- Add to a counting field that saturates. -/
def State.inc (s : State) (p : Nat) (f : Fld) : State :=
  s.put p f (satN (2 ^ (f.hi + 1 - f.lo) - 1) (s.get p f + 1))

/-- Add to a counting field that wraps. -/
def State.incMod (s : State) (p : Nat) (f : Fld) : State := s.put p f (s.get p f + 1)

/-- Return a register word to its reset value. -/
def State.resetReg (s : State) (a : Nat) : State := { s with regs := Tab.drop s.regs a }

/-- The word of a memory cell: memory that nothing has written reads 0. (DESIGN CHOICE, log 5) -/
def State.memW (s : State) (a : Nat) : Word := Tab.get (fun _ => 0) s.mem a

/-- Write a memory cell. (DESIGN CHOICE, log 5) -/
def State.setMem (s : State) (a : Nat) (v : Word) : State := { s with mem := Tab.set (fun _ => 0) s.mem a v }

/-- Read a table of records whose unlisted entries hold the record's defaults. -/
def Tab.rd {α : Type} [Inhabited α] (t : Tab α) (k : Nat) : α := Tab.get (fun _ => default) t k

/-- Write a table of records. -/
def Tab.wr {α : Type} [Inhabited α] [DecidableEq α] (t : Tab α) (k : Nat) (v : α) : Tab α :=
  Tab.set (fun _ => default) t k v

/-! Core registers. -/

/-- Slots of the register file of one core: G0 to G15, P0 to P7, M0 to M3, B0 to B3, L0 to L3, the h and l parts of A0 to
A3, their x parts, W0 to W3, ST, FST, ACTL, PC, LC0, LC1, LB0, LB1, NPC, NST and the second bank of G12 to G15 (R273). -/
abbrev rG (i : Nat) : Nat := i
abbrev rP (i : Nat) : Nat := 16 + i
abbrev rM (i : Nat) : Nat := 24 + i
abbrev rB (i : Nat) : Nat := 28 + i
abbrev rL (i : Nat) : Nat := 32 + i
abbrev rAh (k : Nat) : Nat := 36 + 2 * k
abbrev rAl (k : Nat) : Nat := 37 + 2 * k
abbrev rAx (k : Nat) : Nat := 44 + k
abbrev rW (j : Nat) : Nat := 48 + j
abbrev rST : Nat := 52
abbrev rFST : Nat := 53
abbrev rACTL : Nat := 54
abbrev rPC : Nat := 55
abbrev rLC (l : Nat) : Nat := 56 + l
abbrev rLB (l : Nat) : Nat := 58 + l
abbrev rNPC : Nat := 60
abbrev rNST : Nat := 61
abbrev rBank (i : Nat) : Nat := 64 + i

/-- A slot of a core's register file. -/
def State.cr (s : State) (c i : Nat) : Word := Tab.get (fun _ => 0) s.crs (128 * c + i)

/-- Write a slot of a core's register file. -/
def State.setCr (s : State) (c i : Nat) (v : Word) : State :=
  { s with crs := Tab.set (fun _ => 0) s.crs (128 * c + i) v }

/-- The record of a core. -/
def State.co (s : State) (c : Nat) : CoreSt := Tab.rd s.core c

/-- Write the record of a core. -/
def State.setCo (s : State) (c : Nat) (r : CoreSt) : State := { s with core := Tab.wr s.core c r }

/-- The record of a task. -/
def State.ta (s : State) (t : Nat) : TaskSt := Tab.rd s.task t

/-- Write the record of a task. -/
def State.setTa (s : State) (t : Nat) (r : TaskSt) : State := { s with task := Tab.wr s.task t r }

/-- Apply a function over a list of indices. -/
def overAll (l : List Nat) (s : State) (f : Nat → State → State) : State :=
  match l with
  | [] => s
  | k :: r => overAll r (f k s) f

end Sys2Proof.Machine
end

