-- ==== Sys2Proof/Machine/Real.lean ====
section
/-! DEFINITION. Real functions that the rules use without stating a rounding (R158, R166 to R179, R204, R206, R235, R240, R442):
the value itself where it is exact, else the value to a stated number of bits, whose last place a constant without a body
settles. -/

namespace Sys2Proof.Machine

/-- One round of the integer square root. -/
def isqrtGo (n x r : Nat) : Nat :=
  match n with
  | 0 => if (r + 1) * (r + 1) ≤ x then r + 1 else r
  | k + 1 => isqrtGo k x (if (r + 2 ^ (k + 1)) * (r + 2 ^ (k + 1)) ≤ x then r + 2 ^ (k + 1) else r)

/-- The integer square root. -/
def isqrt (x : Nat) : Nat := isqrtGo (Nat.log2 x / 2 + 1) x 0

/-- The root of a rational that is a square, and whether it is one. -/
def rootExact (x : Rat) : Rat × Bool :=
  let n := isqrt x.num.toNat
  let d := isqrt x.den
  (((n : Int) : Rat) / ((d : Int) : Rat), n * n == x.num.toNat && d * d == x.den)

/-- The square root rounded down to 2^-60. -/
def rootFloor (x : Rat) : Rat := ((isqrt (x * 2 ^ 120).floor.toNat : Int) : Rat) / 2 ^ 60

/-- The square root: 0 for a number that is not positive, exact where it is rational, else one of the two neighbours in units
of 2^-60. (DESIGN CHOICE, log 8) -/
def sqrtReal (x : Rat) : Rat :=
  if x ≤ 0 then 0
  else if (rootExact x).2 then (rootExact x).1
  else rootFloor x + (if Config.sqrtUp x then 1 / 2 ^ 60 else 0)

/-- The square root, never above the true one (R240). -/
def sqrtBelow (x : Rat) : Rat := if x ≤ 0 then 0 else if (rootExact x).2 then (rootExact x).1 else rootFloor x

/-- The square root, never below the true one (R442). -/
def sqrtAbove (x : Rat) : Rat :=
  if x ≤ 0 then 0 else if (rootExact x).2 then (rootExact x).1 else rootFloor x + 1 / 2 ^ 60

/-- A quarter turn in radians, in units of 2^-64. -/
abbrev halfPi : Nat := 28976077832308491369

/-- The value of 2π in units of 2^-60, rounded up (R442: the bound is never below the speed of a point). -/
def twoPiAbove : Rat := 7244019458077122843 / 2 ^ 60

/-- The alternating series of sine (from k = 1) or cosine (from k = 0) in units of 2^-64, y being the square of the argument. -/
def taylor (y fuel k term : Nat) : Int :=
  match fuel with
  | 0 => 0
  | f + 1 => (term : Int) - taylor y f (k + 2) (term * y / 2 ^ 64 / ((k + 1) * (k + 2)))

/-- The sine of x, 0 to a quarter turn, in units of 2^-64. -/
def sinScaled (x : Nat) : Nat := (taylor (x * x / 2 ^ 64) 14 1 x).toNat

/-- The cosine of x, 0 to a quarter turn, in units of 2^-64. -/
def cosScaled (x : Nat) : Nat := (taylor (x * x / 2 ^ 64) 14 0 (2 ^ 64)).toNat

/-- A number in units of 2^-64 in units of 2^-56, the last place free. -/
def lastFree (v : Nat) (up : Bool) : Rat := (((v / 2 ^ 8 + (if up then 1 else 0) : Nat) : Int) : Rat) / 2 ^ 56

/-- The sine of a fraction of a quarter turn. -/
def sinQuarter (r : Rat) : Rat :=
  if r = 0 then 0 else lastFree (sinScaled (r * ((halfPi : Int) : Rat)).floor.toNat) (Config.sinUp r)

/-- The cosine of a fraction of a quarter turn. -/
def cosQuarter (r : Rat) : Rat :=
  if r = 0 then 1 else lastFree (cosScaled (r * ((halfPi : Int) : Rat)).floor.toNat) (Config.cosUp r)

/-- The sine of an angle in turns: exact at quarter turns, else to 2^-56 with the last place free. (DESIGN CHOICE, log 8) -/
def sinTurn (q : Rat) : Rat :=
  let z := 4 * q
  let r := z - (z.floor : Rat)
  let k := z.floor % 4
  if k = 0 then sinQuarter r else if k = 1 then cosQuarter r else if k = 2 then -sinQuarter r else -cosQuarter r

/-- The cosine of an angle in turns: the sine a quarter turn on. -/
def cosTurn (q : Rat) : Rat := sinTurn (q + 1 / 4)

/-- The value of 2π, its last place of 2^-60 free. (DESIGN CHOICE, log 8) -/
def twoPi : Rat := 7244019458077122842 / 2 ^ 60 + (if Config.twoPiUp then 1 / 2 ^ 60 else 0)

/-- sin(2πs) / 2π of the sinusoidal ramp (R235). -/
def rampSin (x : Rat) : Rat := sinTurn x / twoPi

/-- (1 - cos(2πs)) / 4π² of the sinusoidal ramp's distance (R235). -/
def rampCos (x : Rat) : Rat := (1 - cosTurn x) / (twoPi * twoPi)

/-- The largest m, in units of 2^-16 of a quarter turn, whose angle does not exceed that of a vector in the first quarter. -/
def angleBits (s c : Rat) (n m : Nat) : Nat :=
  match n with
  | 0 => m
  | b + 1 =>
    let j := m + 2 ^ b
    let x := j * halfPi / 2 ^ 16
    angleBits s c b (if ((sinScaled x : Int) : Rat) * c ≤ ((cosScaled x : Int) : Rat) * s then j else m)

/-- The angle of a vector in the first quarter, in units of 2^-18 turn: exact on the axis and the diagonal, else one of the
two neighbours. -/
def angleQuarter (s c : Rat) : Nat :=
  if s = 0 then 0
  else if s = c then 2 ^ 15
  else angleBits s c 16 0 + (if Config.atanUp s c then 1 else 0)

/-- The fine angle atan2(s, c) / 2π in [0, 1), in units of 2^-18 of a period (R204); of the zero vector nothing is stated. (DESIGN CHOICE, log 8) -/
def atan2Turn (s c : Rat) : Nat :=
  if s = 0 ∧ c = 0 then Config.atanZero % 2 ^ 18
  else if 0 ≤ s ∧ 0 < c then angleQuarter s c
  else if 0 < s then 2 ^ 16 + angleQuarter (-c) s
  else if c < 0 then 2 ^ 17 + angleQuarter (-s) (-c)
  else (3 * 2 ^ 16 + angleQuarter c (-s)) % 2 ^ 18

/-- The integer that a word shows for a real number: the number itself where it is whole, else one of its two neighbours. (DESIGN CHOICE, log 8) -/
def nearInt (x : Rat) : Int := if x.den = 1 then x.num else x.floor + (if Config.roundUp x then 1 else 0)

end Sys2Proof.Machine
end

