-- ==== Sys2Proof/Machine/Operands.lean ====
section
/-! DEFINITION. The formats of values and the counters: T72 times (R5), P72 positions (R4), fixed-point words (R3), the
five counters and the timestamp status word (R51, R68, R82), and the memories' addresses (R13). -/

namespace Sys2Proof.Machine

/-! Times. A counter is held in 2^-46 ns (R51), that is in 1/64 ns with 40 fraction bits below. -/

/-- Sixty-fourths of a nanosecond in a second. -/
abbrev secUnits : Nat := 64000000000

/-- The part of a counter that a T72 pair shows, in 1/64 ns. -/
def vis64 (c : Nat) : Nat := c / 2 ^ 40

/-- The first word of a T72 pair: seconds modulo 2^36 (R5). -/
def t72Hi (v : Nat) : Nat := v / secUnits % 2 ^ 36

/-- The second word of a T72 pair: nanoseconds and sixty-fourths (R5). -/
def t72Lo (v : Nat) : Nat := v % secUnits

/-- The time that a T72 pair names, in 1/64 ns. -/
def t72 (hi lo : Nat) : Nat := hi * secUnits + lo

/-- Is the second word of a T72 pair acceptable: nanoseconds at most 999,999,999 (R6)? -/
def t72Ok (lo : Nat) : Bool := decide (lo < secUnits)

/-! Positions. -/

/-- A P72 pair in units of 2^-36 turn (R4). -/
def p72 (hi lo : Nat) : Int := sint 36 hi * 2 ^ 36 + lo

/-- The first word of a P72 pair: the floor of whole turns. -/
def p72Hi (p : Int) : Nat := unsint 36 (p / 2 ^ 36)

/-- The second word of a P72 pair: the turn fraction, never negative. -/
def p72Lo (p : Int) : Nat := (p % 2 ^ 36).toNat

/-- A position in turns from units of 2^-36 turn. -/
def turnsOf (p : Int) : Rat := (p : Rat) / 2 ^ 36

/-- A real number rounded down to a unit of 2^-f. -/
def ratFix (f : Nat) (x : Rat) : Int := (x * 2 ^ f).floor

/-- A fixed-point word with f fraction bits, signed. -/
def fixRat (f : Nat) (w : Nat) : Rat := (sint 36 w : Rat) / 2 ^ f

/-- A fixed-point word with f fraction bits, unsigned. -/
def ufixRat (f : Nat) (w : Nat) : Rat := ((w : Int) : Rat) / 2 ^ f

/-! The counters. -/

/-- The count of counter b: 0 to 3 for TB0 to TB3, 4 for CT, which reads TB0 while it is invalid (R68). -/
def State.cnt (s : State) (b : Nat) : Nat :=
  if b == 4 && !(s.flag pTime0 TIME_CT_STAT.valid) then Tab.get (fun _ => 0) s.time.cnt 0
  else Tab.get (fun _ => 0) s.time.cnt b

/-- Set the count of a counter. -/
def State.setCnt (s : State) (b v : Nat) : State :=
  { s with time := { s.time with cnt := Tab.set (fun _ => 0) s.time.cnt b v } }

/-- The value of a counter in 1/64 ns. -/
def State.t64 (s : State) (b : Nat) : Nat := vis64 (s.cnt b)

/-- The generation of a counter: its epoch, and 0 for TB0 (R96). -/
def State.generation (s : State) (b : Nat) : Nat :=
  if b == 0 then 0 else if b == 4 then s.get pTime0 TIME_CT_STAT.epoch else s.get (pTb b) TIME_TB_STAT.epoch

/-- Is a counter valid: TB0 always, TB1 to TB3 with history, CT once valid (R53, R68, R82)? -/
def State.cntValid (s : State) (b : Nat) : Bool :=
  if b == 0 then true else if b == 4 then s.flag pTime0 TIME_CT_STAT.valid else s.flag (pTb b) TIME_TB_STAT.hist

/-- The timestamp status word of a counter, with a tag (R82). -/
def State.stampWord (s : State) (b tag : Nat) : Nat :=
  let st := s.get pTime0 TIME_CT_STAT.state
  let locked :=
    if b == 0 then true else if b == 4 then st == 1 || st == 2 else s.flag (pTb b) TIME_TB_STAT.locked
  let hold := if b == 0 then false else if b == 4 then st == 3 else s.flag (pTb b) TIME_TB_STAT.susp
  let slew := b == 4 && s.flag pTime0 TIME_CT_STAT.slewing
  b2n (s.cntValid b) * 2 ^ 35 + b % 8 * 2 ^ 32 + s.generation b % 256 * 2 ^ 24 + b2n locked * 2 ^ 23
    + b2n hold * 2 ^ 22 + b2n slew * 2 ^ 21 + tag % 2 ^ 12

/-- Cell time in seconds, exact. -/
def State.ctSec (s : State) : Rat := ((s.cnt 4 : Int) : Rat) / (2 ^ 46 * 1000000000)

/-- Which span of cell time an instant lies in: 0 before cell time is valid, else its epoch plus 1. Times of different spans
are never subtracted (R218, R219). -/
def State.ctKey (s : State) : Nat := if s.flag pTime0 TIME_CT_STAT.valid then s.get pTime0 TIME_CT_STAT.epoch + 1 else 0

/-- The nearest integer, a tie going where the unit takes it. (DESIGN CHOICE, log 8) -/
def roundNear (x : Rat) : Int :=
  if x - (x.floor : Rat) = 1 / 2 then x.floor + (if Config.tieUp x then 1 else 0) else (x + 1 / 2).floor

/-- The nearest integer, ties away from zero. -/
def roundAway (x : Rat) : Int := if x < 0 then -((-x + 1 / 2).floor) else (x + 1 / 2).floor

/-- The nearest integer, ties to even. -/
def roundEven (x : Rat) : Int :=
  if x - (x.floor : Rat) = 1 / 2 then (if x.floor % 2 = 0 then x.floor else x.floor + 1) else (x + 1 / 2).floor

/-! Words held for a core after it has read the first word of a set (R97, R200, R214, R265, R269): kind 0 a trigger entry,
1 and 2 the position and the latch set of an FBK page, 3 and 4 those of a PROF page. -/

/-- Hold the later words of a set that begins at an address. -/
def State.holdSet (s : State) (core kind a : Nat) (l : List Word) : State :=
  { s with holds := Tab.set (fun _ => none) s.holds (8 * core + kind) (some (a, l)) }

/-- The words held for a core, with the address of the set. -/
def State.held? (s : State) (core kind : Nat) : Option (Nat × List Word) :=
  Tab.get (fun _ => none) s.holds (8 * core + kind)

/-- End a hold. -/
def State.holdDrop (s : State) (core kind : Nat) : State :=
  { s with holds := Tab.drop s.holds (8 * core + kind) }

/-- ACTL as written: reserved bits read 0, and an rnd of 3 reads back as 2 (R277). -/
def actlWord (v : Nat) : Nat :=
  let one := fun (k : Nat) =>
    let b := v / 2 ^ (8 * k) % 256
    (if b / 64 = 3 then 128 + b % 64 else b) * 2 ^ (8 * k)
  one 0 + one 1 + one 2 + one 3

/-! Addresses of the stores (R13). -/

/-- What a word address names. -/
inductive Target where
  | dram | mram | commons
  | localData (c : Nat) | localInst (c : Nat)
  | alias_ (off : Nat)
  | page
  | nothing
  deriving DecidableEq, Repr

/-- The store or page of a word address (R13). -/
def targetOf (a : Nat) : Target :=
  if a < 0x200000000 then .dram
  else if 0xE00000000 ≤ a ∧ a < 0xE00800000 then .mram
  else if 0xF00000000 ≤ a ∧ a < 0xF00800000 then .commons
  else if 0xF40000000 ≤ a ∧ a < 0xF40800000 then
    let o := (a - 0xF40000000) % 0x20000
    let c := (a - 0xF40000000) / 0x20000
    if o < 0x10000 then .localData c else if o < 0x14000 then .localInst c else .nothing
  else if 0xF80000000 ≤ a ∧ a < 0xF80204000 then .page
  else if 0xFC0000000 ≤ a ∧ a < 0xFC0014000 then .alias_ (a - 0xFC0000000)
  else .nothing

/-- The address of a word of a core's own stores, the alias resolved (R15). -/
def resolveOwn (c a : Nat) : Nat :=
  match targetOf a with
  | .alias_ off => 0xF40000000 + c * 0x20000 + off
  | _ => a

/-- Does an address, seen by a core, lie in its own local stores (R15, R293)? -/
def isOwn (c a : Nat) : Bool :=
  match targetOf a with
  | .alias_ _ => true
  | .localData n => n == c
  | .localInst n => n == c
  | _ => false

/-- Does an address, seen by a core, lie in its own local data store? -/
def isOwnData (c a : Nat) : Bool :=
  match targetOf (resolveOwn c a) with
  | .localData n => n == c
  | _ => false

/-- The address of a word of a core's own instruction store. -/
def ownInst (c i : Nat) : Nat := 0xF40010000 + c * 0x20000 + i % 2 ^ 14

/-! Initiators of accesses: cores 0 to 63, Porter engines 64 to 67, then the safety island, the boot ROM and the
console. -/

abbrev iniIsland : Nat := 72
abbrev iniBoot : Nat := 73
abbrev iniConsole : Nat := 74

/-! Rates. -/

/-- The modulus of a counter: 2^36 seconds in 2^-46 ns. -/
abbrev cntMod : Nat := 2 ^ 36 * secUnits * 2 ^ 40

/-- The advance of a counter on one PCLK edge, 2.5 ns × (1 + r), with r in units of 2^-44 (R51, R54). -/
def edgeInc (r : Int) : Int := 175921860444160 + 10 * r

/-- A rate in ppm in units of 2^-44. -/
def ppm44 (k : Nat) : Int := (k * 2 ^ 44 / 1000000 : Nat)

/-- A counter moved by an amount in 2^-46 ns. -/
def State.moveCnt (s : State) (b : Nat) (d : Int) : State :=
  s.setCnt b (((s.cnt b : Int) + d) % (cntMod : Nat)).toNat

/-- D = TBb - CT of the followed base, in 2^-46 ns (R69). (DEDUCED, log 34) -/
def State.ctDiff (s : State) : Int := (s.cnt (s.get pTime0 TIME_CT_STAT.base) : Int) - s.cnt 4

/-- Does cell time follow a base with the slew of R69: in states 1 and 2? -/
def State.following (s : State) : Bool := inRange (s.get pTime0 TIME_CT_STAT.state) 1 2

/-- The rate of cell time (R69, R71). -/
def State.ctRate (s : State) : Int :=
  let st := s.get pTime0 TIME_CT_STAT.state
  if st = 3 then s.time.frozen
  else
    let r := s.getI (pTb (s.get pTime0 TIME_CT_STAT.base)) TIME_TB_RATE.rate
    let lim := ppm44 1500
    if r < -lim ∨ lim < r ∨ s.get pTime0 TIME_CT_STAT.slewing = 0 then clampI (-lim) lim r
    else
      let sl := ppm44 (s.get pTime0 TIME_SLEW_LIM.ppm)
      clampI (-lim) lim (if s.ctDiff < 0 then r - sl else r + sl)

/-- The advance of a counter on the present edge. -/
def State.incOf (s : State) (b : Nat) : Nat :=
  (if b = 0 then edgeInc 0
   else if b = 4 then (if s.flag pTime0 TIME_CT_STAT.valid then edgeInc s.ctRate else edgeInc 0)
   else edgeInc (s.getI (pTb b) TIME_TB_RATE.rate)).toNat

/-- A counter in 1/64 ns at a tap of 78.125 ps of the PCLK cycle that begins at the present edge (R85, R92, R112). (DESIGN CHOICE, log 38) -/
def State.t64At (s : State) (b tap : Nat) : Nat := vis64 ((s.cnt b + s.incOf b * min tap 31 / 32) % cntMod)

end Sys2Proof.Machine
end

