-- ==== Sys2Proof/Machine/Float.lean ====
section
/-! DEFINITION. Binary floating point as IEEE 754-2019 specifies it, over integers (R7, R8, R304, R305): exact results,
rounded once. A result is a pair: the bits, and the flags as FST holds them (nv 16, dzf 8, of 4, uf 2, nx 1). -/

namespace Sys2Proof.Machine

/-- A binary interchange format: exponent and fraction widths. -/
structure FFmt where
  ew : Nat
  fw : Nat
  deriving DecidableEq, Repr

/-- F36 (R7), binary64 (R8) and binary32. -/
abbrev fmtF36 : FFmt := ⟨8, 27⟩
abbrev fmtD : FFmt := ⟨11, 52⟩
abbrev fmtS : FFmt := ⟨8, 23⟩

/-- The exponent bias. -/
def FFmt.bias (f : FFmt) : Nat := 2 ^ (f.ew - 1) - 1

/-- The sign bit of an encoding. -/
def FFmt.sgn (f : FFmt) (w : Nat) : Bool := bitN w (f.ew + f.fw)

/-- The biased exponent of an encoding. -/
def FFmt.exp (f : FFmt) (w : Nat) : Nat := w / 2 ^ f.fw % 2 ^ f.ew

/-- The fraction of an encoding. -/
def FFmt.frac (f : FFmt) (w : Nat) : Nat := w % 2 ^ f.fw

/-- Is the encoding a NaN, a signalling NaN, an infinity, a zero? -/
def FFmt.isNaN (f : FFmt) (w : Nat) : Bool := f.exp w == 2 ^ f.ew - 1 && f.frac w != 0
def FFmt.isSNaN (f : FFmt) (w : Nat) : Bool := f.isNaN w && !bitN w (f.fw - 1)
def FFmt.isInf (f : FFmt) (w : Nat) : Bool := f.exp w == 2 ^ f.ew - 1 && f.frac w == 0
def FFmt.isZero (f : FFmt) (w : Nat) : Bool := f.exp w == 0 && f.frac w == 0

/-- Encodings: an infinity, a zero, the largest finite number, the default NaN (R305), a NaN made quiet. -/
def FFmt.signBit (f : FFmt) (s : Bool) : Nat := b2n s * 2 ^ (f.ew + f.fw)
def FFmt.inf (f : FFmt) (s : Bool) : Nat := f.signBit s + (2 ^ f.ew - 1) * 2 ^ f.fw
def FFmt.maxFin (f : FFmt) (s : Bool) : Nat := f.inf s - 1
def FFmt.dNaN (f : FFmt) : Nat := (2 ^ f.ew - 1) * 2 ^ f.fw + 2 ^ (f.fw - 1)
def FFmt.quiet (f : FFmt) (w : Nat) : Nat := setBitN w (f.fw - 1)

/-- The significand and the exponent of a finite encoding: its magnitude is `mant × 2^expo`. -/
def FFmt.mant (f : FFmt) (w : Nat) : Nat := if f.exp w = 0 then f.frac w else f.frac w + 2 ^ f.fw
def FFmt.expo (f : FFmt) (w : Nat) : Int :=
  (if f.exp w = 0 then 1 else (f.exp w : Int)) - (f.bias : Int) - (f.fw : Int)

/-- Does rounding move the magnitude up? `half` compares the discarded part with one half: 0 none, 1 less, 2 equal,
3 more. Modes: 0 nearest even, 1 toward zero, 2 toward −∞, 3 toward +∞ (R276). -/
def roundUp (rm : Nat) (s odd : Bool) (half : Nat) : Bool :=
  if half = 0 then false
  else if rm = 0 then half == 3 || (half == 2 && odd)
  else if rm = 1 then false
  else if rm = 2 then s
  else !s

/-- The discarded part of `m` below bit `n`, compared with one half; `sticky` says that more follows below `m`. -/
def halfOf (m n : Nat) (sticky : Bool) : Nat :=
  let r := m % 2 ^ n
  if n = 0 then (if sticky then 1 else 0)
  else if r = 0 then (if sticky then 1 else 0)
  else if r < 2 ^ (n - 1) then 1
  else if r = 2 ^ (n - 1) then (if sticky then 3 else 2)
  else 3

/-- A magnitude `m × 2^e`, with `sticky` for a discarded rest, rounded to a multiple of `2^q`. -/
def roundAt (rm : Nat) (s : Bool) (m : Nat) (e q : Int) (sticky : Bool) : Nat × Bool :=
  if q ≤ e then (m * 2 ^ (e - q).toNat, sticky)
  else
    let n := (q - e).toNat
    let h := halfOf m n sticky
    (m / 2 ^ n + b2n (roundUp rm s (bitN (m / 2 ^ n) 0) h), h != 0)

/-- A signed magnitude `m × 2^e` (with a discarded rest below it when `sticky`) rounded to a format, with its flags. -/
def FFmt.round (f : FFmt) (rm : Nat) (s : Bool) (m : Nat) (e : Int) (sticky : Bool) : Nat × Nat :=
  if m = 0 then (f.signBit s, 0)
  else
    let E : Int := (Nat.log2 m : Int) + e
    let emin : Int := 1 - (f.bias : Int)
    let q : Int := (if E < emin then emin else E) - (f.fw : Int)
    let (n, inexact) := roundAt rm s m e q sticky
    let biased : Nat := (q + (f.fw : Int) + (f.bias : Int) - 1).toNat
    let bits := biased * 2 ^ f.fw + n
    if (2 ^ f.ew - 1) * 2 ^ f.fw ≤ bits then
      (if rm = 0 ∨ (rm = 2 ∧ s = true) ∨ (rm = 3 ∧ s = false) then (f.inf s, 5) else (f.maxFin s, 5))
    else
      let free := (roundAt rm s m e (E - (f.fw : Int)) sticky).1
      let tiny := if Config.tinyAfterRounding then decide (E < emin) && !(E == emin - 1 && decide (2 ^ (f.fw + 1) ≤ free))
        else decide (E < emin)
      (f.signBit s + bits, b2n inexact + (if tiny && inexact then 2 else 0))

/-- The result when an operand is a NaN: the first NaN in order, made quiet; a signalling one sets nv (R305). (DEDUCED, log 20) -/
def FFmt.nanResult (f : FFmt) (l : List Nat) : Option (Nat × Nat) :=
  match l.find? f.isNaN with
  | none => none
  | some w => some (f.quiet w, if l.any f.isSNaN then 16 else 0)

/-- The sum of two signed magnitudes, exact: sign, significand and exponent. -/
def sumExact (s1 : Bool) (m1 : Nat) (e1 : Int) (s2 : Bool) (m2 : Nat) (e2 : Int) : Int × Int :=
  let e := if e1 ≤ e2 then e1 else e2
  let v1 : Int := (m1 * 2 ^ (e1 - e).toNat : Nat)
  let v2 : Int := (m2 * 2 ^ (e2 - e).toNat : Nat)
  ((if s1 then -v1 else v1) + (if s2 then -v2 else v2), e)

/-- An exact sum rounded; an exact zero takes the common sign of its terms, and else + (− toward −∞). -/
def FFmt.roundSum (f : FFmt) (rm : Nat) (v e : Int) (s1 s2 : Bool) : Nat × Nat :=
  if v = 0 then (f.signBit (if s1 == s2 then s1 else rm == 2), 0) else f.round rm (decide (v < 0)) v.natAbs e false

/-- Addition. -/
def FFmt.add (f : FFmt) (rm a b : Nat) : Nat × Nat :=
  match f.nanResult [a, b] with
  | some r => r
  | none =>
    if f.isInf a && f.isInf b && f.sgn a != f.sgn b then (f.dNaN, 16)
    else if f.isInf a then (a, 0)
    else if f.isInf b then (b, 0)
    else
      let (v, e) := sumExact (f.sgn a) (f.mant a) (f.expo a) (f.sgn b) (f.mant b) (f.expo b)
      f.roundSum rm v e (f.sgn a) (f.sgn b)

/-- The encoding with its sign inverted. -/
def FFmt.neg (f : FFmt) (a : Nat) : Nat :=
  if f.sgn a then a - 2 ^ (f.ew + f.fw) else a + 2 ^ (f.ew + f.fw)

/-- Subtraction: a NaN operand keeps its own sign. -/
def FFmt.sub (f : FFmt) (rm a b : Nat) : Nat × Nat :=
  match f.nanResult [a, b] with
  | some r => r
  | none => f.add rm a (f.neg b)

/-- Multiplication. -/
def FFmt.mul (f : FFmt) (rm a b : Nat) : Nat × Nat :=
  match f.nanResult [a, b] with
  | some r => r
  | none =>
    let s := f.sgn a != f.sgn b
    if (f.isInf a && f.isZero b) || (f.isZero a && f.isInf b) then (f.dNaN, 16)
    else if f.isInf a || f.isInf b then (f.inf s, 0)
    else f.round rm s (f.mant a * f.mant b) (f.expo a + f.expo b) false

/-- Fused multiply-add a × b + d, one rounding; with `np` the product is negated first. -/
def FFmt.fma (f : FFmt) (rm a b d : Nat) (np : Bool) : Nat × Nat :=
  let bad := (f.isInf a && f.isZero b) || (f.isZero a && f.isInf b)
  match f.nanResult [a, b, d] with
  | some r => (r.1, if bad && Config.fmaInfZeroNan then r.2 ||| 16 else r.2)
  | none =>
    let s := (f.sgn a != f.sgn b) != np
    if bad then (f.dNaN, 16)
    else if (f.isInf a || f.isInf b) && f.isInf d && s != f.sgn d then (f.dNaN, 16)
    else if f.isInf a || f.isInf b then (f.inf s, 0)
    else if f.isInf d then (d, 0)
    else
      let (v, e) := sumExact s (f.mant a * f.mant b) (f.expo a + f.expo b) (f.sgn d) (f.mant d) (f.expo d)
      f.roundSum rm v e s (f.sgn d)

/-- Division. -/
def FFmt.div (f : FFmt) (rm a b : Nat) : Nat × Nat :=
  match f.nanResult [a, b] with
  | some r => r
  | none =>
    let s := f.sgn a != f.sgn b
    if (f.isInf a && f.isInf b) || (f.isZero a && f.isZero b) then (f.dNaN, 16)
    else if f.isInf a then (f.inf s, 0)
    else if f.isInf b then (f.signBit s, 0)
    else if f.isZero b then (f.inf s, 8)
    else
      let k := 2 * f.fw + 6
      let n := f.mant a * 2 ^ k
      f.round rm s (n / f.mant b) (f.expo a - f.expo b - (k : Int)) (n % f.mant b != 0)

/-- Square root. -/
def FFmt.sqrt (f : FFmt) (rm a : Nat) : Nat × Nat :=
  match f.nanResult [a] with
  | some r => r
  | none =>
    if f.isZero a then (a, 0)
    else if f.sgn a then (f.dNaN, 16)
    else if f.isInf a then (a, 0)
    else
      let odd : Nat := (f.expo a % 2).toNat
      let m := f.mant a * 2 ^ (odd + 2 * (f.fw + 4))
      let r := isqrt m
      f.round rm false r ((f.expo a - (odd : Int)) / 2 - ((f.fw : Int) + 4)) (r * r != m)

/-- The value of a finite or infinite encoding as an ordered key: less, equal, greater. -/
def FFmt.lt (f : FFmt) (a b : Nat) : Bool :=
  let key := fun (w : Nat) =>
    let m : Int := ((f.exp w * 2 ^ f.fw + f.frac w : Nat) : Int)
    if f.sgn w then -m else m
  decide (key a < key b)

/-- Are two encodings equal as numbers: the zeros are. -/
def FFmt.eq (f : FFmt) (a b : Nat) : Bool := !f.lt a b && !f.lt b a

/-- minimumNumber, and with `mx` maximumNumber: a NaN yields to a number, and −0 is below +0. (DEDUCED, log 20) -/
def FFmt.minMax (f : FFmt) (mx : Bool) (a b : Nat) : Nat × Nat :=
  let nv := if f.isSNaN a || f.isSNaN b then 16 else 0
  if f.isNaN a && f.isNaN b then (f.quiet a, nv)
  else if f.isNaN a then (b, nv)
  else if f.isNaN b then (a, nv)
  else
    let aLess := f.lt a b || (f.eq a b && f.sgn a)
    (if aLess == mx then b else a, 0)

/-- A comparison: 0 equal, 1 less, 2 less or equal. A NaN gives 0; nv sets for any NaN under less and less-or-equal, and
for a signalling one under equal (R305). -/
def FFmt.cmp (f : FFmt) (k a b : Nat) : Nat × Nat :=
  if f.isNaN a || f.isNaN b then (0, if k ≠ 0 ∨ f.isSNaN a = true ∨ f.isSNaN b = true then 16 else 0)
  else (b2n (if k = 0 then f.eq a b else if k = 1 then f.lt a b else f.lt a b || f.eq a b), 0)

/-- The class of a value, one-hot in the order of IEEE 754-2019 (R304). -/
def FFmt.class_ (f : FFmt) (a : Nat) : Nat :=
  if f.isSNaN a then 1
  else if f.isNaN a then 2
  else if f.isInf a then (if f.sgn a then 4 else 512)
  else if f.isZero a then (if f.sgn a then 32 else 64)
  else if f.exp a = 0 then (if f.sgn a then 16 else 128)
  else if f.sgn a then 8 else 256

/-- An integer scaled by a power of two, as a number of a format. -/
def FFmt.ofInt (f : FFmt) (rm : Nat) (i e : Int) : Nat × Nat := f.round rm (decide (i < 0)) i.natAbs e false

/-- A number of a format times `2^k`, rounded to S36: value, flags, and whether it saturated (R305). -/
def FFmt.toS36 (f : FFmt) (rm a : Nat) (k : Int) : Int × Nat × Bool :=
  if f.isNaN a then (0, 16, false)
  else if f.isInf a then (if f.sgn a then -(2 ^ 35) else 2 ^ 35 - 1, 16, true)
  else
    let (n, inexact) := roundAt rm (f.sgn a) (f.mant a) (f.expo a + k) 0 false
    let v : Int := if f.sgn a then -(n : Int) else n
    if v < -(2 ^ 35) then (-(2 ^ 35), 16, true)
    else if 2 ^ 35 - 1 < v then (2 ^ 35 - 1, 16, true)
    else (v, b2n inexact, false)

/-- A number of one format converted to another; a NaN keeps the top of its fraction and is made quiet (R305). (DEDUCED, log 20) -/
def FFmt.convert (f g : FFmt) (rm a : Nat) : Nat × Nat :=
  if f.isNaN a then
    let fr := if f.fw ≤ g.fw then f.frac a * 2 ^ (g.fw - f.fw) else f.frac a / 2 ^ (f.fw - g.fw)
    (g.quiet (g.signBit (f.sgn a) + (2 ^ g.ew - 1) * 2 ^ g.fw + fr), if f.isSNaN a then 16 else 0)
  else if f.isInf a then (g.inf (f.sgn a), 0)
  else if f.isZero a then (g.signBit (f.sgn a), 0)
  else g.round rm (f.sgn a) (f.mant a) (f.expo a) false

end Sys2Proof.Machine
end

