-- ==== Sys2Proof/Decode.lean ====
section
/-! DEFINITION. The words that spell commands. The opcode table gives no row any bits, so `decodeTableWord` reads no word.
The instructions of a Synlen core do have 36-bit encodings of their own (R278 to R309): the exception record shows them
(R311), so this file holds their fields, an encoder, a decoder, and the legality rules of R280 that depend on the word. -/

namespace Sys2Proof

open Machine

/-- The command that a word of the opcode table's bits spells: the table gives no row any bits, so none does. (DESIGN CHOICE, log 4) -/
def decodeTableWord (_nbits _w : Nat) : Option Instr := none

/-- A word packed from its fields, high to low, each with its width. -/
def packFields (l : List (Nat × Nat)) (acc : Nat) : Nat :=
  match l with
  | [] => acc
  | f :: r => packFields r (acc * 2 ^ f.1 + f.2)

/-- Does every field hold its value? -/
def fieldsFit (l : List (Nat × Nat)) : Bool := l.all (fun f => decide (f.2 < 2 ^ f.1))

/-- The fields of a core instruction's word, high to low (R278); no fields for a command that is no core instruction. -/
def synlenFields (i : Instr) : List (Nat × Nat) :=
  match i with
  | .add _ d a b => [(6, 1), (4, d), (4, a), (4, b), (6, 0), (12, 0)]
  | .sub _ d a b => [(6, 1), (4, d), (4, a), (4, b), (6, 1), (12, 0)]
  | .addc _ d a b => [(6, 1), (4, d), (4, a), (4, b), (6, 2), (12, 0)]
  | .subc _ d a b => [(6, 1), (4, d), (4, a), (4, b), (6, 3), (12, 0)]
  | .and _ d a b => [(6, 1), (4, d), (4, a), (4, b), (6, 4), (12, 0)]
  | .or _ d a b => [(6, 1), (4, d), (4, a), (4, b), (6, 5), (12, 0)]
  | .xor _ d a b => [(6, 1), (4, d), (4, a), (4, b), (6, 6), (12, 0)]
  | .andn _ d a b => [(6, 1), (4, d), (4, a), (4, b), (6, 7), (12, 0)]
  | .min _ d a b => [(6, 1), (4, d), (4, a), (4, b), (6, 8), (12, 0)]
  | .max _ d a b => [(6, 1), (4, d), (4, a), (4, b), (6, 9), (12, 0)]
  | .minu _ d a b => [(6, 1), (4, d), (4, a), (4, b), (6, 10), (12, 0)]
  | .maxu _ d a b => [(6, 1), (4, d), (4, a), (4, b), (6, 11), (12, 0)]
  | .adds _ d a b => [(6, 1), (4, d), (4, a), (4, b), (6, 12), (12, 0)]
  | .subs _ d a b => [(6, 1), (4, d), (4, a), (4, b), (6, 13), (12, 0)]
  | .abss _ d a => [(6, 1), (4, d), (4, a), (4, 0), (6, 14), (12, 0)]
  | .slt _ d a b => [(6, 1), (4, d), (4, a), (4, b), (6, 16), (12, 0)]
  | .sltu _ d a b => [(6, 1), (4, d), (4, a), (4, b), (6, 17), (12, 0)]
  | .clz _ d a => [(6, 1), (4, d), (4, a), (4, 0), (6, 18), (12, 0)]
  | .popc _ d a => [(6, 1), (4, d), (4, a), (4, 0), (6, 19), (12, 0)]
  | .sll _ d a b => [(6, 2), (4, d), (4, a), (4, b), (6, 0), (12, 0)]
  | .srl _ d a b => [(6, 2), (4, d), (4, a), (4, b), (6, 1), (12, 0)]
  | .sra _ d a b => [(6, 2), (4, d), (4, a), (4, b), (6, 2), (12, 0)]
  | .rol _ d a b => [(6, 2), (4, d), (4, a), (4, b), (6, 3), (12, 0)]
  | .slli _ d a sh => [(6, 2), (4, d), (4, a), (4, 0), (6, 8), (6, 0), (6, sh)]
  | .srli _ d a sh => [(6, 2), (4, d), (4, a), (4, 0), (6, 9), (6, 0), (6, sh)]
  | .srai _ d a sh => [(6, 2), (4, d), (4, a), (4, 0), (6, 10), (6, 0), (6, sh)]
  | .roli _ d a sh => [(6, 2), (4, d), (4, a), (4, 0), (6, 11), (6, 0), (6, sh)]
  | .ext _ d a pos len => [(6, 2), (4, d), (4, a), (4, 0), (6, 16), (6, pos), (6, len)]
  | .exts _ d a pos len => [(6, 2), (4, d), (4, a), (4, 0), (6, 17), (6, pos), (6, len)]
  | .ins _ d a pos len => [(6, 2), (4, d), (4, a), (4, 0), (6, 18), (6, pos), (6, len)]
  | .mul _ d a b => [(6, 3), (4, d), (4, a), (4, b), (6, 0), (12, 0)]
  | .mulh _ d a b => [(6, 3), (4, d), (4, a), (4, b), (6, 1), (12, 0)]
  | .mulhu _ d a b => [(6, 3), (4, d), (4, a), (4, b), (6, 2), (12, 0)]
  | .mulf _ d a b rnd sh => [(6, 3), (4, d), (4, a), (4, b), (6, 3), (4, 0), (2, rnd), (6, sh)]
  | .div _ d a b => [(6, 3), (4, d), (4, a), (4, b), (6, 4), (12, 0)]
  | .divu _ d a b => [(6, 3), (4, d), (4, a), (4, b), (6, 5), (12, 0)]
  | .rem _ d a b => [(6, 3), (4, d), (4, a), (4, b), (6, 6), (12, 0)]
  | .remu _ d a b => [(6, 3), (4, d), (4, a), (4, b), (6, 7), (12, 0)]
  | .addi _ d a imm => [(6, 8), (4, d), (4, a), (22, imm.toNat)]
  | .andi _ d a imm => [(6, 9), (4, d), (4, a), (22, imm.toNat)]
  | .ori _ d a imm => [(6, 10), (4, d), (4, a), (22, imm.toNat)]
  | .xori _ d a imm => [(6, 11), (4, d), (4, a), (22, imm.toNat)]
  | .slti _ d a imm => [(6, 12), (4, d), (4, a), (22, imm.toNat)]
  | .li _ d h imm => [(6, 13), (4, d), (1, b2n h), (7, 0), (18, imm.toNat)]
  | .ld _ d a imm => [(6, 16), (4, d), (4, a), (22, imm.toNat)]
  | .st _ d a imm => [(6, 17), (4, d), (4, a), (22, imm.toNat)]
  | .ld2 _ d a imm => [(6, 18), (4, d), (4, a), (22, imm.toNat)]
  | .st2 _ d a imm => [(6, 19), (4, d), (4, a), (22, imm.toNat)]
  | .ldp _ d p am m circ pair imm => [(6, 20), (4, d), (3, p), (2, am), (2, m), (1, b2n circ), (1, b2n pair), (1, 0), (16, imm.toNat)]
  | .stp _ d p am m circ pair imm => [(6, 21), (4, d), (3, p), (2, am), (2, m), (1, b2n circ), (1, b2n pair), (1, 0), (16, imm.toNat)]
  | .xchg _ d a b => [(6, 22), (4, d), (4, a), (4, b), (6, 0), (12, 0)]
  | .cas _ d a b => [(6, 22), (4, d), (4, a), (4, b), (6, 1), (12, 0)]
  | .faa _ d a b => [(6, 22), (4, d), (4, a), (4, b), (6, 2), (12, 0)]
  | .forA _ d a b => [(6, 22), (4, d), (4, a), (4, b), (6, 3), (12, 0)]
  | .fand _ d a b => [(6, 22), (4, d), (4, a), (4, b), (6, 4), (12, 0)]
  | .sta _ k p am m circ imm => [(6, 23), (2, 0), (2, k), (3, p), (2, am), (2, m), (1, b2n circ), (1, 0), (1, 0), (16, imm.toNat)]
  | .bcc _ cond a b target => [(6, 24), (4, cond), (4, a), (4, b), (4, 0), (14, target.toNat)]
  | .j _ target => [(6, 25), (4, 0), (4, 0), (1, 0), (7, 0), (14, target.toNat)]
  | .jal _ d target => [(6, 25), (4, d), (4, 0), (1, 0), (7, 0), (14, target.toNat)]
  | .jr _ d a => [(6, 25), (4, d), (4, a), (1, 1), (7, 0), (14, 0)]
  | .loop _ lvl src a cnt last => [(6, 26), (1, lvl), (1, b2n src), (4, a), (10, cnt), (14, last.toNat)]
  | .mac _ k a b neg clr sg => [(6, 32), (2, k), (3, 0), (4, a), (4, b), (1, b2n neg), (1, b2n clr), (2, sg), (13, 0)]
  | .macv _ a b neg clr sg => [(6, 32), (2, 0), (3, 1), (4, a), (4, b), (1, b2n neg), (1, b2n clr), (2, sg), (13, 0)]
  | .macw _ a neg clr sg => [(6, 32), (2, 0), (3, 2), (4, a), (4, 0), (1, b2n neg), (1, b2n clr), (2, sg), (13, 0)]
  | .cmac _ k a b neg clr sg => [(6, 32), (2, k), (3, 3), (4, a), (4, b), (1, b2n neg), (1, b2n clr), (2, sg), (13, 0)]
  | .dot2 _ k a b neg clr sg => [(6, 32), (2, k), (3, 4), (4, a), (4, b), (1, b2n neg), (1, b2n clr), (2, sg), (13, 0)]
  | .dot4 _ k a b neg clr sg => [(6, 32), (2, k), (3, 5), (4, a), (4, b), (1, b2n neg), (1, b2n clr), (2, sg), (13, 0)]
  | .ftap _ k win mv px pk circ neg sg dn => [(6, 33), (2, k), (1, b2n win), (1, b2n mv), (3, px), (3, pk), (1, b2n circ), (1, b2n neg), (2, sg), (1, b2n dn), (15, 0)]
  | .wld _ p am m circ imm => [(6, 34), (4, 0), (3, p), (2, am), (2, m), (1, b2n circ), (1, 0), (1, 0), (16, imm.toNat)]
  | .sacc _ d k rnd sh => [(6, 6), (4, d), (2, 0), (2, k), (4, 0), (6, 0), (4, 0), (2, rnd), (6, sh)]
  | .mvax _ d k => [(6, 6), (4, d), (2, 0), (2, k), (4, 0), (6, 1), (12, 0)]
  | .mvah _ d k => [(6, 6), (4, d), (2, 0), (2, k), (4, 0), (6, 2), (12, 0)]
  | .mval _ d k => [(6, 6), (4, d), (2, 0), (2, k), (4, 0), (6, 3), (12, 0)]
  | .seta _ k a sh => [(6, 6), (2, 0), (2, k), (4, a), (4, 0), (6, 4), (6, 0), (6, sh)]
  | .setah _ k a => [(6, 6), (2, 0), (2, k), (4, a), (4, 0), (6, 5), (12, 0)]
  | .setal _ k a => [(6, 6), (2, 0), (2, k), (4, a), (4, 0), (6, 6), (12, 0)]
  | .setax _ k a => [(6, 6), (2, 0), (2, k), (4, a), (4, 0), (6, 7), (12, 0)]
  | .clra _ mask => [(6, 6), (4, 0), (4, 0), (4, 0), (6, 8), (8, 0), (4, mask)]
  | .mvw _ d w => [(6, 6), (4, d), (4, 0), (4, 0), (6, 9), (10, 0), (2, w)]
  | .setw _ w a => [(6, 6), (4, 0), (4, a), (4, 0), (6, 10), (10, 0), (2, w)]
  | .mfs _ d s => [(6, 6), (4, d), (4, 0), (4, 0), (6, 12), (6, 0), (6, s)]
  | .mts _ s a => [(6, 6), (4, 0), (4, a), (4, 0), (6, 13), (6, 0), (6, s)]
  | .fadd _ d a b rm => [(6, 4), (4, d), (4, a), (4, b), (6, 0), (3, 0), (6, 0), (3, rm)]
  | .fsub _ d a b rm => [(6, 4), (4, d), (4, a), (4, b), (6, 1), (3, 0), (6, 0), (3, rm)]
  | .fmul _ d a b rm => [(6, 4), (4, d), (4, a), (4, b), (6, 2), (3, 0), (6, 0), (3, rm)]
  | .fma _ d a b rm => [(6, 4), (4, d), (4, a), (4, b), (6, 3), (3, 0), (6, 0), (3, rm)]
  | .fms _ d a b rm => [(6, 4), (4, d), (4, a), (4, b), (6, 4), (3, 0), (6, 0), (3, rm)]
  | .fdiv _ d a b rm => [(6, 4), (4, d), (4, a), (4, b), (6, 6), (3, 0), (6, 0), (3, rm)]
  | .fmin _ d a b rm => [(6, 4), (4, d), (4, a), (4, b), (6, 8), (3, 0), (6, 0), (3, rm)]
  | .fmax _ d a b rm => [(6, 4), (4, d), (4, a), (4, b), (6, 9), (3, 0), (6, 0), (3, rm)]
  | .fcmpeq _ d a b rm => [(6, 4), (4, d), (4, a), (4, b), (6, 12), (3, 0), (6, 0), (3, rm)]
  | .fcmplt _ d a b rm => [(6, 4), (4, d), (4, a), (4, b), (6, 13), (3, 0), (6, 0), (3, rm)]
  | .fcmple _ d a b rm => [(6, 4), (4, d), (4, a), (4, b), (6, 14), (3, 0), (6, 0), (3, rm)]
  | .fsqrt _ d a rm => [(6, 4), (4, d), (4, a), (4, 0), (6, 7), (3, 0), (6, 0), (3, rm)]
  | .fabs _ d a rm => [(6, 4), (4, d), (4, a), (4, 0), (6, 10), (3, 0), (6, 0), (3, rm)]
  | .fneg _ d a rm => [(6, 4), (4, d), (4, a), (4, 0), (6, 11), (3, 0), (6, 0), (3, rm)]
  | .fclass _ d a rm => [(6, 4), (4, d), (4, a), (4, 0), (6, 15), (3, 0), (6, 0), (3, rm)]
  | .fcvtfi _ d a rm => [(6, 4), (4, d), (4, a), (4, 0), (6, 16), (3, 0), (6, 0), (3, rm)]
  | .fcvtif _ d a rm => [(6, 4), (4, d), (4, a), (4, 0), (6, 17), (3, 0), (6, 0), (3, rm)]
  | .fcvtfd _ d a rm => [(6, 4), (4, d), (4, a), (4, 0), (6, 20), (3, 0), (6, 0), (3, rm)]
  | .fcvtdf _ d a rm => [(6, 4), (4, d), (4, a), (4, 0), (6, 21), (3, 0), (6, 0), (3, rm)]
  | .fcvtfs _ d a rm => [(6, 4), (4, d), (4, a), (4, 0), (6, 22), (3, 0), (6, 0), (3, rm)]
  | .fcvtsf _ d a rm => [(6, 4), (4, d), (4, a), (4, 0), (6, 23), (3, 0), (6, 0), (3, rm)]
  | .fcvtfq _ d a f rm => [(6, 4), (4, d), (4, a), (4, 0), (6, 18), (3, 0), (6, f), (3, rm)]
  | .fcvtqf _ d a f rm => [(6, 4), (4, d), (4, a), (4, 0), (6, 19), (3, 0), (6, f), (3, rm)]
  | .dadd _ d a b rm => [(6, 5), (4, d), (4, a), (4, b), (6, 0), (3, 0), (6, 0), (3, rm)]
  | .dsub _ d a b rm => [(6, 5), (4, d), (4, a), (4, b), (6, 1), (3, 0), (6, 0), (3, rm)]
  | .dmul _ d a b rm => [(6, 5), (4, d), (4, a), (4, b), (6, 2), (3, 0), (6, 0), (3, rm)]
  | .dfma _ d a b rm => [(6, 5), (4, d), (4, a), (4, b), (6, 3), (3, 0), (6, 0), (3, rm)]
  | .ddiv _ d a b rm => [(6, 5), (4, d), (4, a), (4, b), (6, 6), (3, 0), (6, 0), (3, rm)]
  | .dmin _ d a b rm => [(6, 5), (4, d), (4, a), (4, b), (6, 8), (3, 0), (6, 0), (3, rm)]
  | .dmax _ d a b rm => [(6, 5), (4, d), (4, a), (4, b), (6, 9), (3, 0), (6, 0), (3, rm)]
  | .dcmpeq _ d a b rm => [(6, 5), (4, d), (4, a), (4, b), (6, 12), (3, 0), (6, 0), (3, rm)]
  | .dcmplt _ d a b rm => [(6, 5), (4, d), (4, a), (4, b), (6, 13), (3, 0), (6, 0), (3, rm)]
  | .dcmple _ d a b rm => [(6, 5), (4, d), (4, a), (4, b), (6, 14), (3, 0), (6, 0), (3, rm)]
  | .dsqrt _ d a rm => [(6, 5), (4, d), (4, a), (4, 0), (6, 7), (3, 0), (6, 0), (3, rm)]
  | .dcvtdi _ d a rm => [(6, 5), (4, d), (4, a), (4, 0), (6, 16), (3, 0), (6, 0), (3, rm)]
  | .dcvtid _ d a rm => [(6, 5), (4, d), (4, a), (4, 0), (6, 17), (3, 0), (6, 0), (3, rm)]
  | .post _ d a imm => [(6, 62), (6, 1), (4, d), (4, a), (16, imm.toNat)]
  | .posta _ a imm => [(6, 62), (6, 2), (4, 0), (4, a), (16, imm.toNat)]
  | .doneTask _ => [(6, 62), (6, 3), (4, 0), (4, 0), (16, 0)]
  | .yieldTask _ => [(6, 62), (6, 4), (4, 0), (4, 0), (16, 0)]
  | .waitc _ a imm => [(6, 62), (6, 5), (4, 0), (4, a), (16, imm.toNat)]
  | .fence _ stores => [(6, 62), (6, 6), (4, 0), (4, 0), (15, 0), (1, b2n stores)]
  | .isync _ => [(6, 62), (6, 7), (4, 0), (4, 0), (16, 0)]
  | .brk _ => [(6, 62), (6, 8), (4, 0), (4, 0), (16, 0)]
  | .nret _ => [(6, 62), (6, 9), (4, 0), (4, 0), (16, 0)]
  | _ => []

/-- The rounding field of a floating-point instruction: 5 to 7 are reserved (R304). -/
def rmOk (rm : Nat) : Bool := decide (rm < 5)

/-- The pointer constraints of format M (R289, R290). -/
def legalPtr (p am m : Nat) (circ : Bool) (imm : BitVec 16) : Bool :=
  (if am == 0 || am == 1 then m == 0 else imm == 0) && (!circ || decide (p < 4))

/-- Special registers that MFS reads (R277); NPC and NST further need ST.nmi. -/
def sregRead (s : Nat) : Bool := decide (s ≤ 6) || inRange s 8 26

/-- Special registers that MTS writes (R277); NPC and NST further need ST.nmi. -/
def sregWrite (s : Nat) : Bool := decide (s ≤ 2) || inRange s 8 26

/-- Is a core instruction legal as far as its word tells (R280)? (DEDUCED, log 22) -/
def synlenLegal (i : Instr) : Bool :=
  match i with
  | .ext _ _ _ pos len => decide (1 ≤ len) && decide (pos + len ≤ 36)
  | .exts _ _ _ pos len => decide (1 ≤ len) && decide (pos + len ≤ 36)
  | .ins _ _ _ pos len => decide (1 ≤ len) && decide (pos + len ≤ 36)
  | .mulf _ _ _ _ rnd _ => rnd != 3
  | .ld2 _ d _ _ => d % 2 == 0 && decide (2 ≤ d)
  | .st2 _ d _ _ => d % 2 == 0
  | .ldp _ d p am m circ pair imm => legalPtr p am m circ imm && (!pair || (d % 2 == 0 && decide (2 ≤ d)))
  | .stp _ d p am m circ pair imm => legalPtr p am m circ imm && (!pair || d % 2 == 0)
  | .sta _ _ p am m circ imm => legalPtr p am m circ imm
  | .bcc _ cond a b _ => decide (cond < 6) || (decide (cond < 10) && a == 0 && b == 0)
  | .jal _ d _ => d != 0
  | .loop _ _ src _ cnt _ => src || cnt != 0
  | .macv _ _ b _ _ _ => b % 4 == 0
  | .cmac _ k a b _ _ _ => k % 2 == 0 && a % 2 == 0 && b % 2 == 0
  | .dot2 _ _ a b _ _ _ => a % 2 == 0 && b % 2 == 0
  | .dot4 _ _ a b _ _ _ => a % 4 == 0 && b % 4 == 0
  | .ftap _ k win mv px _ circ _ _ _ => (!circ || decide (px < 4)) && (!win || (k == 0 && !mv))
  | .wld _ p am m circ imm => legalPtr p am m circ imm
  | .sacc _ _ _ rnd _ => rnd != 3
  | .mfs _ _ s => sregRead s
  | .mts _ s _ => sregWrite s
  | .fadd _ _ _ _ rm => rmOk rm
  | .fsub _ _ _ _ rm => rmOk rm
  | .fmul _ _ _ _ rm => rmOk rm
  | .fma _ _ _ _ rm => rmOk rm
  | .fms _ _ _ _ rm => rmOk rm
  | .fdiv _ _ _ _ rm => rmOk rm
  | .fmin _ _ _ _ rm => rmOk rm
  | .fmax _ _ _ _ rm => rmOk rm
  | .fcmpeq _ _ _ _ rm => rmOk rm
  | .fcmplt _ _ _ _ rm => rmOk rm
  | .fcmple _ _ _ _ rm => rmOk rm
  | .fsqrt _ _ _ rm => rmOk rm
  | .fabs _ _ _ rm => rmOk rm
  | .fneg _ _ _ rm => rmOk rm
  | .fclass _ _ _ rm => rmOk rm
  | .fcvtfi _ _ _ rm => rmOk rm
  | .fcvtif _ _ _ rm => rmOk rm
  | .fcvtfd _ _ a rm => rmOk rm && a % 2 == 0
  | .fcvtdf _ d _ rm => rmOk rm && d % 2 == 0 && decide (2 ≤ d)
  | .fcvtfs _ _ _ rm => rmOk rm
  | .fcvtsf _ _ _ rm => rmOk rm
  | .fcvtfq _ _ _ _ rm => rmOk rm
  | .fcvtqf _ _ _ _ rm => rmOk rm
  | .dadd _ d a b rm => rmOk rm && a % 2 == 0 && b % 2 == 0 && d % 2 == 0 && decide (2 ≤ d)
  | .dsub _ d a b rm => rmOk rm && a % 2 == 0 && b % 2 == 0 && d % 2 == 0 && decide (2 ≤ d)
  | .dmul _ d a b rm => rmOk rm && a % 2 == 0 && b % 2 == 0 && d % 2 == 0 && decide (2 ≤ d)
  | .dfma _ d a b rm => rmOk rm && a % 2 == 0 && b % 2 == 0 && d % 2 == 0 && decide (2 ≤ d)
  | .ddiv _ d a b rm => rmOk rm && a % 2 == 0 && b % 2 == 0 && d % 2 == 0 && decide (2 ≤ d)
  | .dmin _ d a b rm => rmOk rm && a % 2 == 0 && b % 2 == 0 && d % 2 == 0 && decide (2 ≤ d)
  | .dmax _ d a b rm => rmOk rm && a % 2 == 0 && b % 2 == 0 && d % 2 == 0 && decide (2 ≤ d)
  | .dcmpeq _ _ a b rm => rmOk rm && a % 2 == 0 && b % 2 == 0
  | .dcmplt _ _ a b rm => rmOk rm && a % 2 == 0 && b % 2 == 0
  | .dcmple _ _ a b rm => rmOk rm && a % 2 == 0 && b % 2 == 0
  | .dsqrt _ d a rm => rmOk rm && a % 2 == 0 && d % 2 == 0 && decide (2 ≤ d)
  | .dcvtdi _ d _ rm => rmOk rm && d % 2 == 0 && decide (2 ≤ d)
  | .dcvtid _ _ a rm => rmOk rm && a % 2 == 0
  | .post _ _ a imm => if a == 0 then decide (imm.toNat < 512) else imm == 0
  | .posta _ a imm => if a == 0 then decide (imm.toNat < 512) else imm == 0
  | _ => true

/-- The word of a core instruction. (DESIGN CHOICE, log 4) -/
def encodeSynlen (i : Instr) : Nat := packFields (synlenFields i) 0

/-- Is a command an instruction of a core whose operands fit their fields? -/
def isSynlen (i : Instr) : Bool := !(synlenFields i).isEmpty && fieldsFit (synlenFields i)

/-- A field of a word by its lowest bit and width. -/
def bitsAt (w lo n : Nat) : Nat := w / 2 ^ lo % 2 ^ n

/-- The instruction that the fields of a word name, before its reserved fields are checked (R279). -/
def synlenCandidate (c w : Nat) : Option Instr :=
  match bitsAt w 30 6 with
  | 1 =>
    match bitsAt w 12 6 with
    | 0 => some (.add c (bitsAt w 26 4) (bitsAt w 22 4) (bitsAt w 18 4))
    | 1 => some (.sub c (bitsAt w 26 4) (bitsAt w 22 4) (bitsAt w 18 4))
    | 2 => some (.addc c (bitsAt w 26 4) (bitsAt w 22 4) (bitsAt w 18 4))
    | 3 => some (.subc c (bitsAt w 26 4) (bitsAt w 22 4) (bitsAt w 18 4))
    | 4 => some (.and c (bitsAt w 26 4) (bitsAt w 22 4) (bitsAt w 18 4))
    | 5 => some (.or c (bitsAt w 26 4) (bitsAt w 22 4) (bitsAt w 18 4))
    | 6 => some (.xor c (bitsAt w 26 4) (bitsAt w 22 4) (bitsAt w 18 4))
    | 7 => some (.andn c (bitsAt w 26 4) (bitsAt w 22 4) (bitsAt w 18 4))
    | 8 => some (.min c (bitsAt w 26 4) (bitsAt w 22 4) (bitsAt w 18 4))
    | 9 => some (.max c (bitsAt w 26 4) (bitsAt w 22 4) (bitsAt w 18 4))
    | 10 => some (.minu c (bitsAt w 26 4) (bitsAt w 22 4) (bitsAt w 18 4))
    | 11 => some (.maxu c (bitsAt w 26 4) (bitsAt w 22 4) (bitsAt w 18 4))
    | 12 => some (.adds c (bitsAt w 26 4) (bitsAt w 22 4) (bitsAt w 18 4))
    | 13 => some (.subs c (bitsAt w 26 4) (bitsAt w 22 4) (bitsAt w 18 4))
    | 14 => some (.abss c (bitsAt w 26 4) (bitsAt w 22 4))
    | 16 => some (.slt c (bitsAt w 26 4) (bitsAt w 22 4) (bitsAt w 18 4))
    | 17 => some (.sltu c (bitsAt w 26 4) (bitsAt w 22 4) (bitsAt w 18 4))
    | 18 => some (.clz c (bitsAt w 26 4) (bitsAt w 22 4))
    | 19 => some (.popc c (bitsAt w 26 4) (bitsAt w 22 4))
    | _ => none
  | 2 =>
    match bitsAt w 12 6 with
    | 0 => some (.sll c (bitsAt w 26 4) (bitsAt w 22 4) (bitsAt w 18 4))
    | 1 => some (.srl c (bitsAt w 26 4) (bitsAt w 22 4) (bitsAt w 18 4))
    | 2 => some (.sra c (bitsAt w 26 4) (bitsAt w 22 4) (bitsAt w 18 4))
    | 3 => some (.rol c (bitsAt w 26 4) (bitsAt w 22 4) (bitsAt w 18 4))
    | 8 => some (.slli c (bitsAt w 26 4) (bitsAt w 22 4) (bitsAt w 0 6))
    | 9 => some (.srli c (bitsAt w 26 4) (bitsAt w 22 4) (bitsAt w 0 6))
    | 10 => some (.srai c (bitsAt w 26 4) (bitsAt w 22 4) (bitsAt w 0 6))
    | 11 => some (.roli c (bitsAt w 26 4) (bitsAt w 22 4) (bitsAt w 0 6))
    | 16 => some (.ext c (bitsAt w 26 4) (bitsAt w 22 4) (bitsAt w 6 6) (bitsAt w 0 6))
    | 17 => some (.exts c (bitsAt w 26 4) (bitsAt w 22 4) (bitsAt w 6 6) (bitsAt w 0 6))
    | 18 => some (.ins c (bitsAt w 26 4) (bitsAt w 22 4) (bitsAt w 6 6) (bitsAt w 0 6))
    | _ => none
  | 3 =>
    match bitsAt w 12 6 with
    | 0 => some (.mul c (bitsAt w 26 4) (bitsAt w 22 4) (bitsAt w 18 4))
    | 1 => some (.mulh c (bitsAt w 26 4) (bitsAt w 22 4) (bitsAt w 18 4))
    | 2 => some (.mulhu c (bitsAt w 26 4) (bitsAt w 22 4) (bitsAt w 18 4))
    | 3 => some (.mulf c (bitsAt w 26 4) (bitsAt w 22 4) (bitsAt w 18 4) (bitsAt w 6 2) (bitsAt w 0 6))
    | 4 => some (.div c (bitsAt w 26 4) (bitsAt w 22 4) (bitsAt w 18 4))
    | 5 => some (.divu c (bitsAt w 26 4) (bitsAt w 22 4) (bitsAt w 18 4))
    | 6 => some (.rem c (bitsAt w 26 4) (bitsAt w 22 4) (bitsAt w 18 4))
    | 7 => some (.remu c (bitsAt w 26 4) (bitsAt w 22 4) (bitsAt w 18 4))
    | _ => none
  | 8 => some (.addi c (bitsAt w 26 4) (bitsAt w 22 4) (BitVec.ofNat 22 (bitsAt w 0 22)))
  | 9 => some (.andi c (bitsAt w 26 4) (bitsAt w 22 4) (BitVec.ofNat 22 (bitsAt w 0 22)))
  | 10 => some (.ori c (bitsAt w 26 4) (bitsAt w 22 4) (BitVec.ofNat 22 (bitsAt w 0 22)))
  | 11 => some (.xori c (bitsAt w 26 4) (bitsAt w 22 4) (BitVec.ofNat 22 (bitsAt w 0 22)))
  | 12 => some (.slti c (bitsAt w 26 4) (bitsAt w 22 4) (BitVec.ofNat 22 (bitsAt w 0 22)))
  | 13 => some (.li c (bitsAt w 26 4) (bitsAt w 25 1 == 1) (BitVec.ofNat 18 (bitsAt w 0 18)))
  | 16 => some (.ld c (bitsAt w 26 4) (bitsAt w 22 4) (BitVec.ofNat 22 (bitsAt w 0 22)))
  | 17 => some (.st c (bitsAt w 26 4) (bitsAt w 22 4) (BitVec.ofNat 22 (bitsAt w 0 22)))
  | 18 => some (.ld2 c (bitsAt w 26 4) (bitsAt w 22 4) (BitVec.ofNat 22 (bitsAt w 0 22)))
  | 19 => some (.st2 c (bitsAt w 26 4) (bitsAt w 22 4) (BitVec.ofNat 22 (bitsAt w 0 22)))
  | 20 => some (.ldp c (bitsAt w 26 4) (bitsAt w 23 3) (bitsAt w 21 2) (bitsAt w 19 2) (bitsAt w 18 1 == 1) (bitsAt w 17 1 == 1) (BitVec.ofNat 16 (bitsAt w 0 16)))
  | 21 => some (.stp c (bitsAt w 26 4) (bitsAt w 23 3) (bitsAt w 21 2) (bitsAt w 19 2) (bitsAt w 18 1 == 1) (bitsAt w 17 1 == 1) (BitVec.ofNat 16 (bitsAt w 0 16)))
  | 22 =>
    match bitsAt w 12 6 with
    | 0 => some (.xchg c (bitsAt w 26 4) (bitsAt w 22 4) (bitsAt w 18 4))
    | 1 => some (.cas c (bitsAt w 26 4) (bitsAt w 22 4) (bitsAt w 18 4))
    | 2 => some (.faa c (bitsAt w 26 4) (bitsAt w 22 4) (bitsAt w 18 4))
    | 3 => some (.forA c (bitsAt w 26 4) (bitsAt w 22 4) (bitsAt w 18 4))
    | 4 => some (.fand c (bitsAt w 26 4) (bitsAt w 22 4) (bitsAt w 18 4))
    | _ => none
  | 23 => some (.sta c (bitsAt w 26 2) (bitsAt w 23 3) (bitsAt w 21 2) (bitsAt w 19 2) (bitsAt w 18 1 == 1) (BitVec.ofNat 16 (bitsAt w 0 16)))
  | 24 => some (.bcc c (bitsAt w 26 4) (bitsAt w 22 4) (bitsAt w 18 4) (BitVec.ofNat 14 (bitsAt w 0 14)))
  | 25 =>
    if bitsAt w 21 1 = 1 then some (.jr c (bitsAt w 26 4) (bitsAt w 22 4))
    else if bitsAt w 26 4 = 0 then some (.j c (BitVec.ofNat 14 (bitsAt w 0 14)))
    else some (.jal c (bitsAt w 26 4) (BitVec.ofNat 14 (bitsAt w 0 14)))
  | 26 => some (.loop c (bitsAt w 29 1) (bitsAt w 28 1 == 1) (bitsAt w 24 4) (bitsAt w 14 10) (BitVec.ofNat 14 (bitsAt w 0 14)))
  | 32 =>
    match bitsAt w 25 3 with
    | 0 => some (.mac c (bitsAt w 28 2) (bitsAt w 21 4) (bitsAt w 17 4) (bitsAt w 16 1 == 1) (bitsAt w 15 1 == 1) (bitsAt w 13 2))
    | 1 => some (.macv c (bitsAt w 21 4) (bitsAt w 17 4) (bitsAt w 16 1 == 1) (bitsAt w 15 1 == 1) (bitsAt w 13 2))
    | 2 => some (.macw c (bitsAt w 21 4) (bitsAt w 16 1 == 1) (bitsAt w 15 1 == 1) (bitsAt w 13 2))
    | 3 => some (.cmac c (bitsAt w 28 2) (bitsAt w 21 4) (bitsAt w 17 4) (bitsAt w 16 1 == 1) (bitsAt w 15 1 == 1) (bitsAt w 13 2))
    | 4 => some (.dot2 c (bitsAt w 28 2) (bitsAt w 21 4) (bitsAt w 17 4) (bitsAt w 16 1 == 1) (bitsAt w 15 1 == 1) (bitsAt w 13 2))
    | 5 => some (.dot4 c (bitsAt w 28 2) (bitsAt w 21 4) (bitsAt w 17 4) (bitsAt w 16 1 == 1) (bitsAt w 15 1 == 1) (bitsAt w 13 2))
    | _ => none
  | 33 => some (.ftap c (bitsAt w 28 2) (bitsAt w 27 1 == 1) (bitsAt w 26 1 == 1) (bitsAt w 23 3) (bitsAt w 20 3) (bitsAt w 19 1 == 1) (bitsAt w 18 1 == 1) (bitsAt w 16 2) (bitsAt w 15 1 == 1))
  | 34 => some (.wld c (bitsAt w 23 3) (bitsAt w 21 2) (bitsAt w 19 2) (bitsAt w 18 1 == 1) (BitVec.ofNat 16 (bitsAt w 0 16)))
  | 6 =>
    match bitsAt w 12 6 with
    | 0 => some (.sacc c (bitsAt w 26 4) (bitsAt w 22 2) (bitsAt w 6 2) (bitsAt w 0 6))
    | 1 => some (.mvax c (bitsAt w 26 4) (bitsAt w 22 2))
    | 2 => some (.mvah c (bitsAt w 26 4) (bitsAt w 22 2))
    | 3 => some (.mval c (bitsAt w 26 4) (bitsAt w 22 2))
    | 4 => some (.seta c (bitsAt w 26 2) (bitsAt w 22 4) (bitsAt w 0 6))
    | 5 => some (.setah c (bitsAt w 26 2) (bitsAt w 22 4))
    | 6 => some (.setal c (bitsAt w 26 2) (bitsAt w 22 4))
    | 7 => some (.setax c (bitsAt w 26 2) (bitsAt w 22 4))
    | 8 => some (.clra c (bitsAt w 0 4))
    | 9 => some (.mvw c (bitsAt w 26 4) (bitsAt w 0 2))
    | 10 => some (.setw c (bitsAt w 0 2) (bitsAt w 22 4))
    | 12 => some (.mfs c (bitsAt w 26 4) (bitsAt w 0 6))
    | 13 => some (.mts c (bitsAt w 0 6) (bitsAt w 22 4))
    | _ => none
  | 4 =>
    match bitsAt w 12 6 with
    | 0 => some (.fadd c (bitsAt w 26 4) (bitsAt w 22 4) (bitsAt w 18 4) (bitsAt w 0 3))
    | 1 => some (.fsub c (bitsAt w 26 4) (bitsAt w 22 4) (bitsAt w 18 4) (bitsAt w 0 3))
    | 2 => some (.fmul c (bitsAt w 26 4) (bitsAt w 22 4) (bitsAt w 18 4) (bitsAt w 0 3))
    | 3 => some (.fma c (bitsAt w 26 4) (bitsAt w 22 4) (bitsAt w 18 4) (bitsAt w 0 3))
    | 4 => some (.fms c (bitsAt w 26 4) (bitsAt w 22 4) (bitsAt w 18 4) (bitsAt w 0 3))
    | 6 => some (.fdiv c (bitsAt w 26 4) (bitsAt w 22 4) (bitsAt w 18 4) (bitsAt w 0 3))
    | 8 => some (.fmin c (bitsAt w 26 4) (bitsAt w 22 4) (bitsAt w 18 4) (bitsAt w 0 3))
    | 9 => some (.fmax c (bitsAt w 26 4) (bitsAt w 22 4) (bitsAt w 18 4) (bitsAt w 0 3))
    | 12 => some (.fcmpeq c (bitsAt w 26 4) (bitsAt w 22 4) (bitsAt w 18 4) (bitsAt w 0 3))
    | 13 => some (.fcmplt c (bitsAt w 26 4) (bitsAt w 22 4) (bitsAt w 18 4) (bitsAt w 0 3))
    | 14 => some (.fcmple c (bitsAt w 26 4) (bitsAt w 22 4) (bitsAt w 18 4) (bitsAt w 0 3))
    | 7 => some (.fsqrt c (bitsAt w 26 4) (bitsAt w 22 4) (bitsAt w 0 3))
    | 10 => some (.fabs c (bitsAt w 26 4) (bitsAt w 22 4) (bitsAt w 0 3))
    | 11 => some (.fneg c (bitsAt w 26 4) (bitsAt w 22 4) (bitsAt w 0 3))
    | 15 => some (.fclass c (bitsAt w 26 4) (bitsAt w 22 4) (bitsAt w 0 3))
    | 16 => some (.fcvtfi c (bitsAt w 26 4) (bitsAt w 22 4) (bitsAt w 0 3))
    | 17 => some (.fcvtif c (bitsAt w 26 4) (bitsAt w 22 4) (bitsAt w 0 3))
    | 20 => some (.fcvtfd c (bitsAt w 26 4) (bitsAt w 22 4) (bitsAt w 0 3))
    | 21 => some (.fcvtdf c (bitsAt w 26 4) (bitsAt w 22 4) (bitsAt w 0 3))
    | 22 => some (.fcvtfs c (bitsAt w 26 4) (bitsAt w 22 4) (bitsAt w 0 3))
    | 23 => some (.fcvtsf c (bitsAt w 26 4) (bitsAt w 22 4) (bitsAt w 0 3))
    | 18 => some (.fcvtfq c (bitsAt w 26 4) (bitsAt w 22 4) (bitsAt w 3 6) (bitsAt w 0 3))
    | 19 => some (.fcvtqf c (bitsAt w 26 4) (bitsAt w 22 4) (bitsAt w 3 6) (bitsAt w 0 3))
    | _ => none
  | 5 =>
    match bitsAt w 12 6 with
    | 0 => some (.dadd c (bitsAt w 26 4) (bitsAt w 22 4) (bitsAt w 18 4) (bitsAt w 0 3))
    | 1 => some (.dsub c (bitsAt w 26 4) (bitsAt w 22 4) (bitsAt w 18 4) (bitsAt w 0 3))
    | 2 => some (.dmul c (bitsAt w 26 4) (bitsAt w 22 4) (bitsAt w 18 4) (bitsAt w 0 3))
    | 3 => some (.dfma c (bitsAt w 26 4) (bitsAt w 22 4) (bitsAt w 18 4) (bitsAt w 0 3))
    | 6 => some (.ddiv c (bitsAt w 26 4) (bitsAt w 22 4) (bitsAt w 18 4) (bitsAt w 0 3))
    | 8 => some (.dmin c (bitsAt w 26 4) (bitsAt w 22 4) (bitsAt w 18 4) (bitsAt w 0 3))
    | 9 => some (.dmax c (bitsAt w 26 4) (bitsAt w 22 4) (bitsAt w 18 4) (bitsAt w 0 3))
    | 12 => some (.dcmpeq c (bitsAt w 26 4) (bitsAt w 22 4) (bitsAt w 18 4) (bitsAt w 0 3))
    | 13 => some (.dcmplt c (bitsAt w 26 4) (bitsAt w 22 4) (bitsAt w 18 4) (bitsAt w 0 3))
    | 14 => some (.dcmple c (bitsAt w 26 4) (bitsAt w 22 4) (bitsAt w 18 4) (bitsAt w 0 3))
    | 7 => some (.dsqrt c (bitsAt w 26 4) (bitsAt w 22 4) (bitsAt w 0 3))
    | 16 => some (.dcvtdi c (bitsAt w 26 4) (bitsAt w 22 4) (bitsAt w 0 3))
    | 17 => some (.dcvtid c (bitsAt w 26 4) (bitsAt w 22 4) (bitsAt w 0 3))
    | _ => none
  | 62 =>
    match bitsAt w 24 6 with
    | 1 => some (.post c (bitsAt w 20 4) (bitsAt w 16 4) (BitVec.ofNat 16 (bitsAt w 0 16)))
    | 2 => some (.posta c (bitsAt w 16 4) (BitVec.ofNat 16 (bitsAt w 0 16)))
    | 3 => some (.doneTask c)
    | 4 => some (.yieldTask c)
    | 5 => some (.waitc c (bitsAt w 16 4) (BitVec.ofNat 16 (bitsAt w 0 16)))
    | 6 => some (.fence c (bitsAt w 0 1 == 1))
    | 7 => some (.isync c)
    | 8 => some (.brk c)
    | 9 => some (.nret c)
    | _ => none
  | _ => none

/-- The legal instruction of core `c` that a word is (R278 to R280): every reserved field is 0 and every constraint that the
word shows holds. Every other word is refused. (DESIGN CHOICE, log 4) -/
def decodeSynlen (c w : Nat) : Option Instr :=
  match synlenCandidate c w with
  | none => none
  | some i => if encodeSynlen i = w ∧ synlenLegal i = true then some i else none

end Sys2Proof
end

