-- ==== Sys2Proof/Machine/ProfMath.lean ====
section
/-! DEFINITION. The setpoint curves of the profile generator (R233, R235, R240, R245): segments, their values, and the
plans of a move, a velocity move and a stop. Times are in seconds, positions in turns, speeds in rev/s. -/

namespace Sys2Proof.Machine

/-- The shape factor k of R235. -/
def shapeK (shape : Nat) : Rat := if shape == 0 then 1 else if shape == 1 then 2 else 15 / 8

/-- The rise of the speed over a ramp, 0 to 1, at the fraction x of its time (R235). -/
def rampV (shape : Nat) (x : Rat) : Rat :=
  if shape == 0 then x else if shape == 1 then x - rampSin x else 10 * x ^ 3 - 15 * x ^ 4 + 6 * x ^ 5

/-- The integral of `rampV` from 0 to x. -/
def rampP (shape : Nat) (x : Rat) : Rat :=
  if shape == 0 then x ^ 2 / 2 else if shape == 1 then x ^ 2 / 2 - rampCos x
  else 5 / 2 * x ^ 4 - 3 * x ^ 5 + x ^ 6

/-- The derivative of `rampV`. -/
def rampA (shape : Nat) (x : Rat) : Rat :=
  if shape == 0 then 1 else if shape == 1 then 1 - cosTurn x else 30 * x ^ 2 - 60 * x ^ 3 + 30 * x ^ 4

/-- The absolute value of a rational. -/
def absR (x : Rat) : Rat := if x < 0 then -x else x

/-- The sign of a rational. -/
def signR (x : Rat) : Rat := if x < 0 then -1 else if x = 0 then 0 else 1

/-- The smaller of two rationals. -/
def minR (x y : Rat) : Rat := if x ≤ y then x else y

/-- The larger of two rationals. -/
def maxR (x y : Rat) : Rat := if x ≤ y then y else x

/-- A time that no run reaches: the duration of a cruise that nothing ends. -/
abbrev endless : Rat := 1000000000000000000

/-- Position, speed and acceleration of a segment at a time within it (R235, R245). -/
def Seg.value (g : Seg) (t : Rat) : Rat × Rat × Rat :=
  let T := g.dur
  let x := (t - g.t0) / T
  if g.form == 3 then
    ((2 * x ^ 3 - 3 * x ^ 2 + 1) * g.p0 + (x ^ 3 - 2 * x ^ 2 + x) * T * g.v0 + (-2 * x ^ 3 + 3 * x ^ 2) * g.p1
        + (x ^ 3 - x ^ 2) * T * g.v1,
      ((6 * x ^ 2 - 6 * x) * g.p0 + (3 * x ^ 2 - 4 * x + 1) * T * g.v0 + (-6 * x ^ 2 + 6 * x) * g.p1
        + (3 * x ^ 2 - 2 * x) * T * g.v1) / T,
      ((12 * x - 6) * g.p0 + (6 * x - 4) * T * g.v0 + (-12 * x + 6) * g.p1 + (6 * x - 2) * T * g.v1) / (T * T))
  else
    let dv := g.v1 - g.v0
    (g.p0 + g.v0 * (t - g.t0) + dv * T * rampP g.form x, g.v0 + dv * rampV g.form x,
      if dv = 0 then 0 else dv / T * rampA g.form x)

/-- Position, speed and acceleration of a plan at a time; past its end it rests at its last point with its last speed. (DESIGN CHOICE, log 55) -/
def planValue (rest : Rat) (l : List Seg) (t : Rat) : Rat × Rat × Rat :=
  match l with
  | [] => (rest, 0, 0)
  | g :: r =>
    if t < g.t0 + g.dur then g.value t
    else match r with
      | [] => (g.p1, g.v1, 0)
      | _ :: _ => planValue rest r t

/-- Has a plan ended by a time? -/
def planOver (l : List Seg) (t : Rat) : Bool := l.all (fun g => decide (g.t0 + g.dur ≤ t))

/-- A ramp from v0 to v1 that reaches the acceleration limit A, of no length between equal speeds; a limit of 0 leaves the speed as it
is. (DESIGN CHOICE, log 55) -/
def rampSeg (shape : Nat) (t0 p0 v0 v1 A : Rat) : Seg :=
  if A = 0 ∧ v0 ≠ v1 then { t0 := t0, dur := endless, p0 := p0, v0 := v0, v1 := v0, p1 := p0 + v0 * endless, form := 0 }
  else
    let T := shapeK shape * absR (v1 - v0) / A
    { t0 := t0, dur := T, p0 := p0, v0 := v0, v1 := v1, p1 := p0 + (v0 + v1) * T / 2, form := shape }

/-- A cruise at a speed for a time. -/
def cruiseSeg (t0 p0 v T : Rat) : Seg := { t0 := t0, dur := T, p0 := p0, v0 := v, v1 := v, p1 := p0 + v * T, form := 0 }

/-- The distance in which a speed comes to rest (R235). -/
def stopDist (shape : Nat) (w A : Rat) : Rat := shapeK shape * w ^ 2 / (2 * A)

/-- A plan that ramps to rest. -/
def stopPlan (shape : Nat) (t p v A : Rat) : List Seg := if v = 0 then [] else [rampSeg shape t p v 0 A]

/-- A plan of a velocity move: through zero where the sign changes, then the speed held (R239). -/
def jogPlan (shape : Nat) (t p v v1 am dm : Rat) : List Seg :=
  let hold := fun (g : Seg) => cruiseSeg (g.t0 + g.dur) g.p1 g.v1 endless
  if v * v1 < 0 then
    let a := rampSeg shape t p v 0 dm
    let b := rampSeg shape (a.t0 + a.dur) a.p1 0 v1 am
    [a, b, hold b]
  else
    let a := rampSeg shape t p v v1 (if absR v ≤ absR v1 then am else dm)
    [a, hold a]

/-- The peak speed of a move over a distance D from a speed w toward the target (R240): the largest that fits, down to 2^-60; without an
acceleration limit the speed does not rise. -/
def peakSpeed (k D w vm am dm : Rat) : Rat :=
  if vm < w then vm
  else if am = 0 then w
  else if dm = 0 then 0
  else
    let x := (2 * D / k + w ^ 2 / am) / (1 / am + 1 / dm)
    if vm ^ 2 ≤ x then vm else maxR w (sqrtBelow x)

/-- A plan of a move (R240): the segments, and whether it overshoots. With a deceleration limit of 0 nothing stops a moving axis. -/
def movePlan (shape : Nat) (t p v target vm am dm : Rat) : List Seg × Bool :=
  let d := target - p
  let sg := if d < 0 then (-1 : Rat) else 1
  let w := sg * v
  let D := absR d
  if w < 0 ∨ (d = 0 ∧ v ≠ 0) then (stopPlan shape t p v dm, false)
  else if (dm = 0 ∧ 0 < w) ∨ stopDist shape w dm > D + 1 / 2 ^ 24 then (stopPlan shape t p v dm, true)
  else
    let k := shapeK shape
    let vpk := peakSpeed k D w vm am dm
    if vpk = 0 then (stopPlan shape t p v dm, false)
    else
      let A := if vm < w then dm else am
      let g1 := rampSeg shape t p v (sg * vpk) A
      let rest := maxR 0 (D - k * absR (vpk ^ 2 - w ^ 2) / (2 * A) - stopDist shape vpk dm)
      let g2 := cruiseSeg (t + g1.dur) g1.p1 (sg * vpk) (rest / vpk)
      let g3 := rampSeg shape (g2.t0 + g2.dur) g2.p1 (sg * vpk) 0 dm
      ([g1, g2, { g3 with p1 := target }], false)

/-- The setpoint of a generator at a time: position, speed and acceleration. -/
def ProfSt.value (r : ProfSt) (t : Rat) : Rat × Rat × Rat := planValue r.p r.plan t

/-- The generator with its plan noted as the one in force until a time; plans are kept for 250 µs, longer than a kernel centre lies back
(R162, R251). (DESIGN CHOICE, log 55) -/
def ProfSt.note (r : ProfSt) (t : Rat) : ProfSt :=
  { r with old := { till := t, p := r.p, plan := r.plan, shift := r.shift } :: r.old.filter (fun o => decide (t < o.till + 1 / 4000)) }

/-- Put a new plan in force, keeping the one before it for the instants before. (DESIGN CHOICE, log 55) -/
def ProfSt.replan (r : ProfSt) (t base : Rat) (l : List Seg) (inputs : List Rat) : ProfSt :=
  { r.note t with plan := l, p := base, inputs := inputs }

/-- The generator stopped at once at a time (R249): it rests where it is, with nothing planned or waiting. -/
def ProfSt.stopped (r : ProfSt) (t : Rat) : ProfSt :=
  { r.note t with
    plan := [], p := (r.value t).1, goal := .rest, cmd := .none, target := none, inputs := [], pts := [], last := none, under := false }

end Sys2Proof.Machine
end

