-- ==== Sys2Proof/Machine/Events.lean ====
section
/-! DEFINITION. Page events, posts, the fault counter and its actions, and the event log's queue (R22 to R25, R34, R36 to
R43, R468), with the outputs that fault-counter action 4 blocks (R41). -/

namespace Sys2Proof.Machine

/-- Does a page lie in the PCLK domain, so that its posts cross the FIFO of R33? -/
def Blk.inPclk (b : Blk) : Bool :=
  match b with
  | .time0 | .tb _ | .tsu _ | .prism0 | .prism1 | .prism2 | .pwm _ | .ale _ | .fbk _ | .prof _ | .port _ => true
  | _ => false

/-- Does a post come from a page of the PCLK domain? -/
def Post.fromPclk (q : Post) : Bool := q.cls == 1 && (blkOfIndex q.src).inPclk

/-- Page posts in the PCLK to FAB crossing: its depth is 8 (R33). -/
def State.crossing (s : State) : Nat := (s.wire.filter Post.fromPclk).length

/-- A producer offers a post on the present edge (R46): it goes on its way to the Innkeeper, or is held at a full crossing FIFO
(R34); a page that already waits there for its pending bits waits once. (DESIGN CHOICE, log 12) -/
def State.offerPost (s : State) (q0 : Post) : State :=
  let q : Post := { q0 with at_ := max q0.at_ s.now }
  if q.fromPclk && (decide (8 ≤ s.crossing) || !s.heldPosts.isEmpty) then
    if q.tag = 0 ∧ s.heldPosts.any (fun (h : Post) => h.tag == 0 && h.src == q.src) = true then s
    else { s with heldPosts := s.heldPosts ++ [q] }
  else { s with wire := s.wire ++ [q] }

/-- The page posts PAGE_POST.task (R23, R40): `tag` is 1 for action 1 of its fault counter. -/
def State.pagePost (s : State) (p tag : Nat) : State :=
  s.offerPost { cls := 1, src := (p - pageSpace) / 0x100, task := s.get p PAGE_POST.task, tag := tag }

/-- Set pending bits of a page: bits that go from 0 to 1 on one edge give one post when PAGE_POST.post_en is 1 (R23). (DESIGN CHOICE, log 12) -/
def State.setPend (s : State) (p : Nat) (bits : Nat) : State :=
  let old := s.get p PAGE_EVPEND.evpend
  let new := old ||| bits
  let s1 := s.put p PAGE_EVPEND.evpend new
  if new ≠ old ∧ s.get p PAGE_POST.post_en = 1 ∧ p ∉ s.posted then { s1.pagePost p 0 with posted := p :: s1.posted } else s1

/-- An event of a page occurs (R22): its PAGE_EV bit sets, and its PAGE_EVPEND bit when it is enabled at that moment. -/
def State.ev (s : State) (p bit : Nat) : State :=
  let s1 := s.put p PAGE_EV.ev (setBitN (s.get p PAGE_EV.ev) bit)
  if bitN (s.get p PAGE_EVEN.even) bit then s1.setPend p (2 ^ bit) else s1

/-- Raise the NMI of a core (R313): it pends until the core takes it. -/
def State.raiseNmi (s : State) (c src : Nat) : State :=
  (s.put (pCore c) CORE_NMI.pend 1).put (pCore c) CORE_NMI.src src

/-- Raise the NMI on every core (R40, R499). -/
def State.raiseNmiAll (s : State) (src : Nat) : State := overAll (List.range 64) s (fun c t => t.raiseNmi c src)

/-- The generator record of a channel. -/
def State.pr (s : State) (ch : Nat) : ProfSt := Tab.rd s.prof ch

/-- Write the generator record of a channel. -/
def State.setPr (s : State) (ch : Nat) (r : ProfSt) : State := { s with prof := Tab.wr s.prof ch r }

/-- Steps per turn of the step grid: fspt × 2^mres (R254). -/
def State.stepGrid (s : State) (ch : Nat) : Rat :=
  ((s.get (pProf ch) PROF_STEP.fspt * 2 ^ s.get (pProf ch) PROF_STEP.mres : Nat) : Rat)

/-- Is homing in progress: hstate 1 to 4 (R262)? -/
def State.homing (s : State) (ch : Nat) : Bool := inRange (s.get (pProf ch) PROF_BLK.hstate) 1 4

/-- A stop at once (R249, R250, R263): v and a become 0 and p freezes, for kind 3 at the last launched step; busy and strm
clear; event 3 is recorded; plost sets and ref clears when the channel moved with kind 2 or 3 or was homing; homing fails
with code `hres`. Event 9 of a failed homing counts through `cnt`. -/
def State.stopAtOnce (s : State) (ch hres : Nat) (cnt : State → State) : State :=
  let p := pProf ch
  let r := s.pr ch
  let k := s.get (pPwm ch) PWM_CFG.kind
  let v := (r.value s.ctSec).2.1
  let r1 := r.stopped s.ctSec
  let r2 := if k = 3 then { r1 with p := (r.stepped : Rat) / s.stepGrid ch + r.shift, waits := [], cross := [], base := none } else r1
  let s1 := ((((s.setPr ch r2).put p PROF_BLK.busy 0).put p PROF_BLK.strm 0).put p PROF_SP_CTL.level 0).ev p 3
  let lost := (v ≠ 0 ∧ (k = 2 ∨ k = 3)) ∨ s.homing ch = true
  let s2 := if lost then (s1.put p PROF_BLK.plost 1).put p PROF_BLK.ref 0 else s1
  if s.homing ch then cnt (((s2.put p PROF_BLK.hstate 6).put p PROF_HOME.hres hres).ev p 9) else s2

/-- One count of the fault counter without its action: cur and total increment (R39). -/
def State.fcBump (s : State) (p : Nat) : State :=
  if s.get p FC_CFG.enable = 1 then (s.inc p FC_STAT.cur).inc p FC_STAT.total else s

/-- The action of the fault counter, run in the cycle in which lasting sets (R40); `blk` blocks a page's outputs. -/
def State.fcActionBy (blk : State → Nat → State) (s : State) (p : Nat) : State :=
  let a := s.get p FC_CFG.action
  if a = 1 then s.pagePost p 1
  else if a = 2 then s.raiseNmiAll 1
  else if a = 3 then { s with fcNotify := s.fcNotify ++ [p] }
  else if a = 4 then blk s p
  else s

/-- An event counts in the fault counter of a page (R39), and the action runs when lasting goes from 0 to 1 (R40). The
second part says whether it did. -/
def State.fcStepBy (blk : State → Nat → State) (s : State) (p : Nat) : State × Bool :=
  let s1 := s.fcBump p
  if s.get p FC_CFG.enable = 1 ∧ s.get p FC_STAT.lasting = 0 ∧
      s.get p FC_CFG.n ≤ s1.get p FC_STAT.cur + s1.get p FC_STAT.prev
  then ((s1.put p FC_STAT.lasting 1).fcActionBy blk p, true)
  else (s1, false)

/-- The log record of a counter classed lasting (R469): its words 1 to 6. -/
def State.logFc (s : State) (p : Nat) : LogRec :=
  { kind := 1,
    ws := [t72Hi (s.t64 4), t72Lo (s.t64 4), s.stampWord (if s.flag pTime0 TIME_CT_STAT.valid then 4 else 0) 0,
      (blkOf p).code * 2 ^ 24 + 9 * 2 ^ 16 + (p - pageSpace) / 0x100, s.reg (p + 9), 0] }

/-- A record that finds the log queue full is discarded, with event 3 of MEM page 3 (R468). (DESIGN CHOICE, log 62) -/
def State.logLost (s : State) : State := (s.inc (pMem 3) MEM_LOG_LOST.n).ev (pMem 3) 3

/-- A page's outputs are noted as blocked; the list `blocked` holds the block until R43 ends it (R41). -/
def State.noteBlocked (s : State) (p : Nat) : State :=
  { s with blocked := if p ∈ s.blocked then s.blocked else p :: s.blocked }

/-- The block of a page's outputs where no event can count through it any more: a generator that no longer homes stops at once, and
MEM page 3 has no outputs (R41, R249). -/
def State.blockPlain (s : State) (p : Nat) : State :=
  match blkOf p with
  | .prof ch => (s.noteBlocked p).stopAtOnce ch 6 (fun t => t)
  | _ => s.noteBlocked p

/-- Queue a log record, up to 32, while the logger is on (R468). The event of a lost record counts, and the record of
that counter's own lasting class is lost with it. -/
def State.pushLog (s : State) (r : LogRec) : State :=
  if s.get (pMem 3) MEM_LOG.en = 0 then s
  else if s.logq.length < 32 then { s with logq := s.logq ++ [r] }
  else
    let (s1, l) := s.logLost.fcStepBy State.blockPlain (pMem 3)
    if l then (s1.logLost).fcBump (pMem 3) else s1

/-- An event counts in the fault counter of a page, with its action and its log record (R39, R40, R468). -/
def State.fcBy (blk : State → Nat → State) (s : State) (p : Nat) : State :=
  let (s1, l) := s.fcStepBy blk p
  if l then s1.pushLog (s1.logFc p) else s1

/-- A pad block comes into force on a channel: it is a stop-at-once cause of the channel's generator (R249), whose page is
enabled; event 9 of a homing that it fails counts (R267). (DEDUCED, log 45) -/
def State.padCause (s : State) (ch : Nat) : State :=
  if s.get (pProf ch) PAGE_CTL.en = 1 then s.stopAtOnce ch 6 (fun t => t.fcBy State.blockPlain (pProf ch)) else s

/-- The record of a TIO pin. -/
def State.ti (s : State) (pin : Nat) : TioSt := Tab.rd s.prism.tio pin

/-- Write the record of a TIO pin. -/
def State.setTi (s : State) (pin : Nat) (r : TioSt) : State :=
  { s with prism := { s.prism with tio := Tab.wr s.prism.tio pin r } }

/-- A TIO pin made high-impedance: its level state is reset to idl and a pending fall is dropped (R113). -/
def State.tioFloat (s : State) (pin : Nat) : State :=
  s.setTi pin { s.ti pin with level := s.get pPrism2 (PRISM_TIO_CFG.idl pin) == 1, fall := none }

/-- A core becomes unusable (R339): the task that runs on it is to be preempted, and a task decided for it, or to preempt it, is listed for
another core. -/
def State.loseCore (s : State) (c : Nat) : State :=
  if s.co c = {} then s else s.setCo c { s.co c with evict := (s.co c).task.isSome, assign := none, preempt := none }

/-- The outputs that action 4 of a page blocks at once (R41); the list `blocked` holds the block until R43 ends it. -/
def State.blockOutputs (s : State) (p : Nat) : State :=
  let s0 := s.noteBlocked p
  match blkOf p with
  | .prof ch => s0.stopAtOnce ch 6 (fun t => t.fcBy State.blockPlain p)
  | .time0 => { s0 with time := { s0.time with ppsOut := false, tenOut := false } }
  | .pwm ch | .ale ch | .fbk ch => s0.padCause ch
  | .port q => overAll (List.range 8) s0 (fun i t => t.padCause (8 * q + i))
  | .prism2 => overAll (List.range 16) s0 (fun pin t => t.tioFloat pin)
  | .core c => s0.loseCore c
  | _ => s0

/-- The action of the fault counter of a page (R40). -/
def State.fcAction (s : State) (p : Nat) : State := s.fcActionBy State.blockOutputs p

/-- One count of a page's fault counter with its action (R39, R40), and whether lasting set. -/
def State.fcStep (s : State) (p : Nat) : State × Bool := s.fcStepBy State.blockOutputs p

/-- An event counts in the fault counter of a page, with its action and its log record (R39, R40, R468). -/
def State.fc (s : State) (p : Nat) : State := s.fcBy State.blockOutputs p

/-- A counting event of a page (R22, R39). -/
def State.evC (s : State) (p bit : Nat) : State := (s.ev p bit).fc p

/-- The page whose PAGE_LOCK counts the refused writes of a page: RING page 0 for the name and schedule tables, which have no header.
(DESIGN CHOICE, log 104) -/
def lockPage (p : Nat) : Nat :=
  match blkOf p with
  | .names | .sched => pRing0
  | _ => p

/-- Count one refused write of SL or OL fields in PAGE_LOCK.refused (R10). -/
def State.refuse (s : State) (p : Nat) : State := s.inc (lockPage p) PAGE_LOCK.refused

/-! Windows aligned to cell time (R38). -/

/-- The counter that windows follow: cell time, or TB0 before it is valid (R38). -/
def State.windowTime (s : State) : Nat := if s.flag pTime0 TIME_CT_STAT.valid then s.t64 4 else s.t64 0

/-- Is the edge of a window of a length that began at a TB0 time due (R38): a whole multiple of its length, at which a window that spans
a jump of cell time has lasted its full length in TB0? (DESIGN CHOICE, log 57) -/
def State.windowEnds (s : State) (len start : Nat) : Bool :=
  let ran := s.t64 0 - start
  let full := match s.jumpAt with
    | some j => decide (j < start) || decide (len ≤ ran)
    | none => true
  decide (s.windowTime % len < 161) && decide (len / 2 ≤ ran) && full

/-! Gated and resetting blocks (R21, R26, R503). -/

/-- The first page of the gateable block that an address belongs to (R503). -/
def gatePage (a : Nat) : Option Nat :=
  match blkOf a with
  | .pwm _ | .ale _ | .fbk _ | .prof _ | .port _ | .core _ => some (pageOf a)
  | .porter0 | .porter1 => some pPorter0
  | .ring0 | .ringP _ | .ring11 | .names | .sched => some pRing0
  | .eth0 | .ethP _ => some pEth0
  | _ => none

/-- Is an address the first page of a gateable block? -/
def gateFirst (p : Nat) : Bool := gatePage p == some p

/-- Does the clock of the block of an address stand gated (R503)? -/
def State.clockOff (s : State) (a : Nat) : Bool :=
  match gatePage a with
  | some p => s.flag p PAGE_CTL.gate_ack
  | none => false

/-- What a block does on its own clock: nothing while its clock stands gated (R503). -/
def State.clocked (s : State) (a : Nat) (k : State → State) : State := if s.clockOff a then s else k s

/-- Is a word block-specific: not a header word (R19, R26)? -/
def blockWord (a : Nat) : Bool := !((blkOf a).hasHeader && decide (a % 0x100 < 0x10))

/-- Is the block of an address gated (R26)? -/
def State.gated (s : State) (a : Nat) : Bool := blockWord a && s.clockOff a

/-- Does a block reset of a page reach an address (R21): the page itself, and the other pages and tables of a block whose first page
resets them all (R102, R481)? -/
def srstReach (p a : Nat) : Bool :=
  match blkOf p, blkOf a with
  | .prism0, .prism1 | .prism0, .prism2 | .prism0, .trg | .innk0, .innk1 | .innk0, .innk2 | .innk0, .tsk
  | .porter0, .porter1 | .ring0, .ringP _ | .ring0, .ring11 => true
  | _, _ => pageOf a == p

/-- Does the block of an address hold accesses: a gating request waits (R503), or a block reset runs (R21)? -/
def State.holdsAccess (s : State) (a : Nat) : Bool :=
  blockWord a && ((match gatePage a with | some p => s.gating.contains p | none => false) || s.srstBusy.any (fun p => srstReach p a))

/-- A command that is one write of a register word: with a bus error at a gated block, held while the block holds accesses, else
`k` is its effect (R21, R26, R503). -/
def State.writeWord (s : State) (ini a : Nat) (v : Word) (k : State → State) : State :=
  if s.gated a then s
  else if s.holdsAccess a then { s with held := s.held ++ [{ ini := ini, addr := a, wr := some v }] }
  else k s

/-- A word as it stands with one bit set: what a command that only writes a 1 to that bit carries. -/
def State.withBit (s : State) (a k : Nat) : Word := word (setBitN (s.reg a) k)

/-- A command that is one read of a register word: with a bus error at a gated block, waiting while the block holds accesses, else
`k` is its effect (R21, R26, R503). -/
def State.readWord (s : State) (a : Nat) (k : State → State) : State :=
  if s.gated a || s.holdsAccess a then s else k s

end Sys2Proof.Machine
end

