-- ==== Sys2Proof/Machine/Tasks.lean ====
section
/-! DEFINITION. Tasks and cores: the saved context (R274, R326), the lists of ready tasks (R331), the end of an activation,
and TAKING AN EXCEPTION with the halt of a core (R283, R312, R314, R342). -/

namespace Sys2Proof.Machine

/-- The state of a task (R319). -/
def State.tskState (s : State) (t : Nat) : Nat := s.get (pTsk t) TSK_STAT.state

/-- Set the state of a task. -/
def State.setTskState (s : State) (t v : Nat) : State := s.put (pTsk t) TSK_STAT.state v

/-- Is a task decided for some core and not yet started there (R333)? -/
def State.assigned (s : State) (t : Nat) : Bool :=
  (List.range 64).any (fun c => (s.co c).assign == some t || (s.co c).preempt == some t)

/-- Is a task listed: in state 2 or 4 (R331)? -/
def State.listed (s : State) (t : Nat) : Bool :=
  match Tab.find s.regs (pTsk t + 3) with
  | none => false
  | some w => (fldGet w.toNat TSK_STAT.state == 2 || fldGet w.toNat TSK_STAT.state == 4)

/-- Tasks listed at a level (R348). -/
def State.listedAt (s : State) (lvl : Nat) : Nat :=
  ((List.range 512).filter (fun t => s.listed t && s.get (pTsk t) TSK_CFG.level == lvl)).length

/-- Note the number of tasks listed at a level in its high-water mark (R348). -/
def State.noteLevel (s : State) (lvl : Nat) : State :=
  if s.get pInnk1 (INNK_LVL.hwm lvl) < s.listedAt lvl then s.put pInnk1 (INNK_LVL.hwm lvl) (s.listedAt lvl) else s

/-- Give a task that is listed anew its entry time, the present cycle (R331); event 3 may stand for it again (R352). -/
def State.stampTask (s : State) (t : Nat) : State :=
  { s.setTa t { s.ta t with stamp := s.innk.clock, stuck := false } with innk := { s.innk with clock := s.innk.clock + 1 } }

/-- A task enters the list of its level in a state, with a new entry time (R331). -/
def State.list (s : State) (t st : Nat) : State :=
  ((s.setTskState t st).stampTask t).noteLevel (s.get (pTsk t) TSK_CFG.level)

/-- Save the context words 8 to 63 of a task from a core's registers, and set ctxv (R274, R326, R337). -/
def State.saveCtx (s : State) (c t : Nat) : State :=
  let s1 := overAll (List.range 43) s (fun i u => u.setReg (pTsk t + 8 + i) (u.cr c (1 + i)).toNat)
  let s2 := s1.setReg (pTsk t + 51) ((s1.cr c (rAx 0)).toNat % 256 + (s1.cr c (rAx 1)).toNat % 256 * 2 ^ 8
    + (s1.cr c (rAx 2)).toNat % 256 * 2 ^ 16 + (s1.cr c (rAx 3)).toNat % 256 * 2 ^ 24)
  let s3 := overAll (List.range 12) s2 (fun i u => u.setReg (pTsk t + 52 + i) (u.cr c (48 + i)).toNat)
  s3.put (pTsk t) TSK_STAT.ctxv 1

/-- Load a core's registers from the context words of a task (R335). -/
def State.loadCtx (s : State) (c t : Nat) : State :=
  let s1 := overAll (List.range 43) s (fun i u => u.setCr c (1 + i) (u.regW (pTsk t + 8 + i)))
  let s2 := overAll (List.range 4) s1 (fun k u => u.setCr c (rAx k) (word (u.reg (pTsk t + 51) / 2 ^ (8 * k) % 256)))
  overAll (List.range 12) s2 (fun i u => u.setCr c (48 + i) (u.regW (pTsk t + 52 + i)))

/-- A core's registers cleared for a new activation (R334); the NMI registers are no part of the context. -/
def State.clearCtx (s : State) (c : Nat) : State := overAll (List.range 59) s (fun i u => u.setCr c (1 + i) 0)

/-- Does the NMI handler run on a core (R275)? -/
def State.inNmi (s : State) (c : Nat) : Bool := bitN (s.cr c rST).toNat 29

/-- The core becomes free: no task is dispatched to it. A task decided to preempt it takes it as an idle core (R346). -/
def State.freeCore (s : State) (c : Nat) : State :=
  let r := s.co c
  (s.setCo c { r with task := none, evict := false, orphan := false, drain := .none, hold := .none,
                      assign := if r.assign.isSome then r.assign else r.preempt, preempt := none }).put
    (pCore c) CORE_BLK.run 0

/-- The activation on a core ends as faulted (R312 steps 3 and 4, R342): its context is saved, the task enters state 5, and
the core becomes free. After an srst of the Innkeeper nothing is saved and no state is recorded (R345). (DEDUCED, log 14) -/
def State.endFault (s : State) (c : Nat) : State :=
  match (s.co c).task with
  | none => s.setCo c { s.co c with drain := .none }
  | some t =>
    if (s.co c).orphan then s.freeCore c
    else
      let s1 := ((s.saveCtx c t).setTskState t 5).inc (pTsk t) TSK_CNT.faults
      (s1.evC pInnk0 2).freeCore c

/-- Is a POST in progress: it waits for earlier stores, or for its result (R283)? -/
def Hold.inPost (h : Hold) : Bool :=
  match h with
  | .posting _ _ | .post _ => true
  | _ => false

/-- Have the outstanding accesses of a core, and a POST in progress, arrived (R283)? -/
def State.drained (s : State) (c : Nat) : Bool := (s.co c).outs.isEmpty && !(s.co c).hold.inPost

/-- Finish the end of an activation once its accesses have arrived (R283). -/
def State.tryDrain (s : State) (c : Nat) : State :=
  if (s.co c).drain = .fault ∧ s.drained c = true then s.endFault c else s

/-- A core halts (R314): issue stops, event 3 is recorded, and a task dispatched to it enters state 5 with no usable
context (R342). (DEDUCED, log 23) -/
def State.haltCore (s : State) (c : Nat) : State :=
  let s1 := ((s.setCo c { s.co c with halted := true, hold := .none, assign := none, preempt := none }).put (pCore c) CORE_BLK.halted 1).evC
    (pCore c) 3
  match (s.co c).task with
  | none => s1
  | some t =>
    if (s.co c).orphan then s1.freeCore c
    else ((((s1.put (pTsk t) TSK_STAT.ctxv 0).setTskState t 5).inc (pTsk t) TSK_CNT.faults).evC pInnk0 2).freeCore c

/-- Record an exception (R312 step 2): in the record words when they are free, else as lost. -/
def State.recordExc (s : State) (c cause pc info : Nat) (impr : Bool) : State :=
  let p := pCore c
  if s.get p CORE_EXC_ST.valid = 0 then
    let s1 := ((s.put p CORE_EXC_ST.cause cause).put p CORE_EXC_ST.impr (b2n impr)).put p CORE_EXC_ST.task
      (match (s.co c).task with | some t => t | none => s.get p CORE_BLK.task)
    (((s1.put p CORE_EXC_PC.pc pc).put p CORE_EXC_INFO.info info).put p CORE_EXC_ST.valid 1).evC p 0
  else (s.inc p CORE_EXC_ST.lost).evC p 1

/-- TAKING AN EXCEPTION (R312, R314, R283): a core in its NMI handler halts; otherwise the cause is recorded, a WAITC, FENCE
or ISYNC in progress is abandoned, and the activation ends as faulted when its accesses have arrived. (DEDUCED, log 23) -/
def State.takeExc (s : State) (c cause pc info : Nat) (impr : Bool) : State :=
  if s.inNmi c then s.haltCore c
  else
    let s1 := s.recordExc c cause pc info impr
    let r := s1.co c
    if r.task.isSome then
      (s1.setCo c { r with drain := .fault, stalled := false
                           hold := if r.hold.inPost then r.hold else .none }).tryDrain c
    else s1

/-- The PC of a core. -/
def State.pc (s : State) (c : Nat) : Nat := (s.cr c rPC).toNat

/-- Set the PC of a core, modulo 2^14 (R296). -/
def State.setPc (s : State) (c v : Nat) : State := s.setCr c rPC (word (v % 2 ^ 14))

/-- Is a hardware loop level active, and its first and last addresses (R277)? -/
def State.lbActive (s : State) (c l : Nat) : Bool := bitN (s.cr c (rLB l)).toNat 35
def State.lbFirst (s : State) (c l : Nat) : Nat := (s.cr c (rLB l)).toNat / 2 ^ 14 % 2 ^ 14
def State.lbLast (s : State) (c l : Nat) : Nat := (s.cr c (rLB l)).toNat % 2 ^ 14

/-- Make a loop level inactive. -/
def State.lbEnd (s : State) (c l : Nat) : State :=
  s.setCr c (rLB l) (word ((s.cr c (rLB l)).toNat % 2 ^ 35))

/-- Is PC the last address of an active loop level? -/
def State.loopHere (s : State) (c l : Nat) : Bool := s.lbActive c l && s.lbLast c l == s.pc c

/-- A loop level ends: its count is 0 and it is inactive. -/
def State.loopOut (s : State) (c l : Nat) : State := (s.setCr c (rLC l) 0).lbEnd c l

/-- A loop level repeats: its count goes down and PC goes to its first address. -/
def State.loopBack (s : State) (c l : Nat) : State := (s.setCr c (rLC l) (s.cr c (rLC l) - 1)).setPc c (s.lbFirst c l)

/-- The check of level 0, and the next address where it does not repeat. -/
def State.endLevel0 (s : State) (c : Nat) : State :=
  if s.loopHere c 0 && decide (1 < (s.cr c (rLC 0)).toNat) then s.loopBack c 0
  else (if s.loopHere c 0 then s.loopOut c 0 else s).setPc c (s.pc c + 1)

/-- An instruction that does not change PC completes: the loop ends are checked, level 1 first, and PC moves on (R308). -/
def State.advance (s : State) (c : Nat) : State :=
  if s.inNmi c then s.setPc c (s.pc c + 1)
  else if s.loopHere c 1 && decide (1 < (s.cr c (rLC 1)).toNat) then s.loopBack c 1
  else (if s.loopHere c 1 then s.loopOut c 1 else s).endLevel0 c

/-- A taken branch or jump: each loop level whose body does not contain the target becomes inactive (R308). (DEDUCED, log 23) -/
def State.jumpTo (s : State) (c target : Nat) : State :=
  let drop := fun (u : State) (l : Nat) =>
    if u.lbActive c l && !(decide (u.lbFirst c l ≤ target) && decide (target ≤ u.lbLast c l)) then u.lbEnd c l else u
  (drop (drop s 1) 0).setPc c target

/-! The general registers. -/

/-- The slot of G_i in a bank: the second bank, of the NMI handler, has its own G12 to G15 (R273, R313). -/
def bankSlot (bank : Bool) (i : Nat) : Nat := if bank && decide (12 ≤ i) then rBank (i - 12) else rG i

/-- The slot of G_i: in the NMI handler the second bank of G12 to G15 replaces the first (R273, R313). -/
def State.gSlot (s : State) (c i : Nat) : Nat := bankSlot (s.inNmi c) i

/-- Read G_i: G0 reads 0 (R273). -/
def State.g (s : State) (c i : Nat) : Nat := if i = 0 then 0 else (s.cr c (s.gSlot c i)).toNat

/-- Write G_i modulo 2^36: writes to G0 are discarded (R273). -/
def State.setG (s : State) (c i v : Nat) : State := if i = 0 then s else s.setCr c (s.gSlot c i) (word v)

/-- Write G_i of a bank: a load's result goes to the bank of the instruction that issued it (R281). -/
def State.setGIn (s : State) (c : Nat) (bank : Bool) (i v : Nat) : State :=
  if i = 0 then s else s.setCr c (bankSlot bank i) (word v)

/-! Issue. -/

/-- Is the CORE or FAB domain stopped (R493, R494, R499 to R501, R540): a switch in progress, held for the IRC, dead, or without supply
after an over-temperature shutdown? -/
def State.domStopped (s : State) (d : Nat) : Bool :=
  s.clk.hot || (Tab.get (fun _ => none) s.clk.sw d : Option Nat).isSome || s.clk.held.contains d || s.clk.dead.contains d

/-- Can a core issue an instruction (R281, R283): a task runs on it or its NMI handler does, no NMI waits for this boundary (R313),
its clock runs, and nothing holds issue? -/
def State.canIssue (s : State) (c : Nat) : Bool :=
  decide (c < 64) && ((s.co c).task.isSome || s.inNmi c) && !(s.co c).halted && decide ((s.co c).hold = .none)
    && decide ((s.co c).drain = .none) && s.get (pCore c) PAGE_CTL.gate_ack == 0 && !s.domStopped 0
    && (s.get (pCore c) CORE_NMI.pend == 0 || s.inNmi c)

/-- Are the registers that an instruction names all available (R281): none waits for a load, an atomic or a POST? (DESIGN CHOICE, log 99) -/
def State.regsFree (s : State) (c : Nat) (l : List Nat) : Bool :=
  l.all (fun r => r == 0 || !((s.co c).outs.any (fun o => o.kind != .store && bankSlot o.bank o.dst == s.gSlot c r)))

/-- Cell time in nanoseconds, or TB0 while cell time is invalid (R347). -/
def State.nowNs (s : State) : Nat := s.t64 4 / 64

/-- Record the wait of an activation (R347): a wait across which cell time became valid or was re-epoched is not recorded. -/
def State.recordWait (s : State) (t : Nat) (q : Post) : State :=
  if q.epoch ≠ s.get pTime0 TIME_CT_STAT.epoch then s
  else
    let e := pTsk t
    let w := s.nowNs - q.arrived
    let s1 := s.put e TSK_WWORST.w (satN (2 ^ 36 - 1) (max (s.get e TSK_WWORST.w) w))
    let s2 := if 2 ^ 36 ≤ s1.get e TSK_WSUM.s + w ∨ 2 ^ 24 ≤ s1.get e TSK_WCNT.n + 1 then
        (s1.put e TSK_WSUM.s (s1.get e TSK_WSUM.s / 2)).put e TSK_WCNT.n (s1.get e TSK_WCNT.n / 2)
      else s1
    (s2.put e TSK_WSUM.s (s2.get e TSK_WSUM.s + w)).put e TSK_WCNT.n (s2.get e TSK_WCNT.n + 1)

/-- The task on a core whose activation has not issued its first instruction, with the post of that activation (R347): the next
instruction ends its wait, but not one of the NMI handler, nor of an activation that outlived an srst of the Innkeeper (R345). -/
def State.waitOpen (s : State) (c : Nat) : Option (Nat × Post) :=
  match (s.co c).task with
  | some t => if s.inNmi c || (s.co c).orphan then none else (s.ta t).first.map (fun q => (t, q))
  | none => none

/-- An instruction of a core issues: the first one of an activation ends its wait (R347). -/
def State.issued (s : State) (c : Nat) : State :=
  match s.waitOpen c with
  | some (t, q) => (s.setTa t { s.ta t with first := none }).recordWait t q
  | none => s

/-- The frame of every instruction of a core: an instruction whose operands do not fit its fields, or that issue holds, does
nothing; an illegal one raises exception cause 1 with its word (R280, R311); one whose registers are not available waits;
otherwise `k` is its effect. (DESIGN CHOICE, log 4) -/
def State.instr (s : State) (c : Nat) (i : Instr) (extra : Bool) (regs : List Nat) (k : State → State) : State :=
  if !(fieldsFit (synlenFields i)) || !(s.canIssue c) then s
  else if !(synlenLegal i && extra) then (s.issued c).takeExc c 1 (s.pc c) (encodeSynlen i) false
  else if s.regsFree c regs then k (s.issued c)
  else s

end Sys2Proof.Machine
end

