-- ==== Sys2Proof/Machine/Innkeeper.lean ====
section
/-! DEFINITION. The Innkeeper (R318 to R352): posts arriving and judged, dispatch decisions, starts, resumes and
preemptions, its commands, and the writes of the task table. -/

namespace Sys2Proof.Machine

/-- An action or post of a Prism entry is refused (R108): the entry sets refused and code 7, and the refusal is counted. -/
def State.prismRefuse (s : State) (n reason act : Nat) : State :=
  let s1 := ((s.put (pTrg n) TRG_ST.refused 1).put (pTrg n) TRG_ST.code 7).inc pPrism0 PRISM_REF_CNT.n
  (((s1.put pPrism0 PRISM_REF_LAST.reason reason).put pPrism0 PRISM_REF_LAST.act act).put pPrism0
    PRISM_REF_LAST.entry n).evC pPrism0 1

/-- The producer sees the result code of its post (R25, R108, R310, R330). -/
def State.tellProducer (s : State) (q : Post) (code : Nat) : State :=
  let refused := decide (2 ≤ code)
  if q.cls = 0 then (if refused then s.prismRefuse q.src 1 1 else s)
  else if q.cls = 1 then (if refused then s.put (pageAddr q.src) PAGE_STAT.post_refused 1 else s)
  else if q.tag = 1 then
    (if refused then (s.inc (pCore q.src) CORE_POSTREF.n).ev (pCore q.src) 4 else s)
  else s.setCo q.src { s.co q.src with postRes := some code }

/-- A post is refused (R330): counted in the task unless the code is 3, in INNK page 0, with its last-refusal word and
events, and the producer is told. -/
def State.refusePost (s : State) (q : Post) (code : Nat) : State :=
  let s1 := if code = 3 then s else s.inc (pTsk q.task) TSK_CNT.refused
  let s2 := if code = 2 then s1.inc pInnk0 INNK_REF_A.pfull else if code = 3 then s1.inc pInnk0 INNK_REF_A.qfull
    else s1.inc pInnk0 INNK_REF_B.dis
  let s3 := (((s2.put pInnk0 INNK_REF_LAST.code code).put pInnk0 INNK_REF_LAST.cls q.cls).put pInnk0
    INNK_REF_LAST.src q.src).put pInnk0 INNK_REF_LAST.task q.task
  let s4 := s3.evC pInnk0 0
  (if code = 3 then s4.ev pInnk0 1 else s4).tellProducer q code

/-- Keep the high-water mark of the post queue (R348): at the end of an edge every post in the queue is one that waits. (DESIGN CHOICE, log 12) -/
def State.noteQueue (s : State) : State :=
  if s.get pInnk0 INNK_PQ.hwm < s.innk.queue.length then s.put pInnk0 INNK_PQ.hwm s.innk.queue.length else s

/-- Does one post come before another: offered on an earlier edge, or on the same edge in the order of R46: Prism, page, core, and
the lower number first? -/
def Post.before (a b : Post) : Bool :=
  decide (a.at_ < b.at_) || (a.at_ == b.at_ && (decide (a.cls < b.cls) || (a.cls == b.cls && decide (a.src < b.src))))

/-- The first of some posts in that order. (DESIGN CHOICE, log 12) -/
def firstPost (l : List Post) (best : Post) : Post :=
  match l with
  | [] => best
  | q :: r => firstPost r (if q.before best then q else best)

/-- The post that reaches the Innkeeper next: by the edge on which it was offered, and in the order of R46 on one edge. (DESIGN CHOICE, log 12) -/
def State.nextPost (s : State) : Option Post :=
  match s.wire with
  | [] => none
  | q :: r => some (firstPost r q)

/-- POST_ARRIVE (R328, R345): the next post enters the post queue, or is refused: with code 3 at a full queue, with code 4
while the Innkeeper is being reset. -/
def execPostArrive (s : State) : Out := .next <|
  match s.nextPost with
  | none => s
  | some q =>
    let s1 := { s with wire := s.wire.erase q }
    if pInnk0 ∈ s.srstBusy then s1.refusePost q 4
    else if 64 ≤ s.innk.queue.length then s1.refusePost q 3
    else
      let q1 : Post := { q with arrived := s.nowNs, epoch := s.get pTime0 TIME_CT_STAT.epoch }
      { s1 with innk := { s1.innk with queue := s1.innk.queue ++ [q1] } }

/-- POST_ACCEPT (R329): the oldest queued post is judged: accepted cancelled, refused for a disabled task or 15 pending
activations, or accepted. -/
def execPostAccept (s : State) : Out := .next <|
  match s.innk.queue with
  | [] => s
  | q :: r =>
    let s1 := { s with innk := { s.innk with queue := r } }
    let t := q.task
    let e := pTsk t
    if t ∈ s.innk.cancelled then
      ((s1.inc e TSK_CNT.cancelled).inc pInnk0 INNK_REF_B.canc).tellProducer q 1
    else if s.get e TSK_CFG.en = 0 then s1.refusePost q 4
    else if s.get e TSK_STAT.pend = 15 then s1.refusePost q 2
    else
      let s2 := (s1.put e TSK_STAT.pend (s.get e TSK_STAT.pend + 1)).setTa t
        { s1.ta t with posts := (s1.ta t).posts ++ [q] }
      (if s.tskState t = 1 then s2.list t 2 else s2).tellProducer q 0

/-- Is a core usable (R332)? Core 0 runs the boot ROM or the console, outside any task, until the cores are released (R509,
R516, R519). (DEDUCED, log 94) -/
def State.usable (s : State) (c : Nat) : Bool :=
  (c != 0 || s.get pSys SYS_BOOT.state == 3) && s.get (pCore c) PAGE_CTL.en == 1 && s.get (pCore c) PAGE_CTL.gate_req == 0 && !(s.co c).halted && !s.inNmi c
    && decide (pCore c ∉ s.blocked)

/-- Is a core idle (R332)? -/
def State.idle (s : State) (c : Nat) : Bool :=
  s.usable c && (s.co c).task.isNone && (s.co c).assign.isNone && decide ((s.co c).drain = .none)

/-- Is a core in the affinity of a task (R322)? -/
def State.affine (s : State) (t c : Nat) : Bool :=
  if c < 32 then bitN (s.get (pTsk t) TSK_AFF0.mask) c else bitN (s.get (pTsk t) TSK_AFF1.mask) (c - 32)

/-- The level of the task that a core runs. -/
def State.coreLevel (s : State) (c : Nat) : Nat :=
  match (s.co c).task with
  | some t => s.get (pTsk t) TSK_CFG.level
  | none => 0

/-- May a task of a level preempt the task on a core (R333, rule 2)? An activation that outlived an srst of the Innkeeper runs on (R345). -/
def State.preemptable (s : State) (lvl c : Nat) : Bool :=
  s.usable c && (s.co c).task.isSome && !(s.co c).orphan && (s.co c).preempt.isNone && decide ((s.co c).drain = .none)
    && decide (s.coreLevel c < lvl)

/-- Of some cores, the one whose task has the lowest level, the highest-numbered among equals (R333). -/
def State.victim (s : State) (l : List Nat) (best : Option Nat) : Option Nat :=
  match l with
  | [] => best
  | c :: r =>
    s.victim r (match best with
      | none => some c
      | some b => if s.coreLevel c ≤ s.coreLevel b then some c else some b)

/-- Is a listed task ahead of another: higher level, then earlier entry time (R331, R333)? -/
def State.ahead (s : State) (t u : Nat) : Bool :=
  let lt := s.get (pTsk t) TSK_CFG.level
  let lu := s.get (pTsk u) TSK_CFG.level
  decide (lu < lt) || (lt == lu && decide ((s.ta t).stamp < (s.ta u).stamp))

/-- Insert a task into a list in the order of R333. -/
def State.insertTask (s : State) (t : Nat) (l : List Nat) : List Nat :=
  match l with
  | [] => [t]
  | u :: r => if s.ahead t u then t :: u :: r else u :: s.insertTask t r

/-- The listed tasks for which no decision has been made yet, in the order in which decisions take them (R333). -/
def State.readyOrder (s : State) : List Nat :=
  ((List.range 512).filter (fun t => s.listed t && !s.assigned t)).foldr s.insertTask []

/-- A listed task without a usable core in its affinity records event 3 once each time it enters that condition (R352). -/
def State.noteStuck (s : State) (t : Nat) : State :=
  let stuck := !((List.range 64).any (fun c => s.affine t c && s.usable c))
  if stuck && !(s.ta t).stuck then (s.setTa t { s.ta t with stuck := true }).evC pInnk0 3
  else if !stuck && (s.ta t).stuck then s.setTa t { s.ta t with stuck := false }
  else s

/-- The decisions of one FAB cycle over the listed tasks in order: at most `n` more, and no core twice (R333). -/
def decide_ (s : State) (l : List Nat) (n : Nat) (used : List Nat) : State :=
  match l with
  | [] => s
  | t :: r =>
    if n = 0 then s
    else
      let lvl := s.get (pTsk t) TSK_CFG.level
      match (List.range 64).find? (fun c => s.affine t c && s.idle c && !used.contains c) with
      | some c => decide_ (s.setCo c { s.co c with assign := some t }) r (n - 1) (c :: used)
      | none =>
        match s.victim ((List.range 64).filter (fun c => s.affine t c && s.preemptable lvl c && !used.contains c)) none with
        | some c => decide_ (s.setCo c { s.co c with preempt := some t }) r (n - 1) (c :: used)
        | none => decide_ s r n used

/-- DISPATCH_DECISION (R333, R352): the listed tasks without a usable core are noted, and the decisions of one FAB cycle are made, at
most 4; none while INNK page 0 is not enabled. -/
def execDispatchDecision (s : State) : Out := .next <|
  let s1 := overAll ((List.range 512).filter s.listed) s (fun t u => u.noteStuck t)
  if s.get pInnk0 PAGE_CTL.en = 1 then decide_ s1 s1.readyOrder 4 [] else s1

/-- The activation word of R334. -/
def activationWord (q : Post) (pend seq : Nat) : Nat :=
  q.cls % 4 * 2 ^ 34 + q.src % 2 ^ 14 * 2 ^ 20 + pend % 16 * 2 ^ 16 + seq % 2 ^ 16

/-- A task takes a core: its state becomes 3 and the core shows it (R334 to R336). -/
def State.occupy (s : State) (c t : Nat) : State :=
  let s1 := (s.setTskState t 3).put (pTsk t) TSK_STAT.core c
  let s2 := (s1.put (pCore c) CORE_BLK.run 1).put (pCore c) CORE_BLK.task t
  (s2.setCo c { s2.co c with task := some t, assign := none, hold := .none, drain := .none, orphan := false }).incMod
    pInnk0 INNK_DISP.n

/-- A new activation of a task starts on a core (R334); its wait runs on to its first instruction (R347). -/
def State.activate (s : State) (c t : Nat) : State :=
  let e := pTsk t
  let q := (s.ta t).posts.headD {}
  let s1 := s.setTa t { s.ta t with posts := (s.ta t).posts.tail, first := some q }
  let s2 := ((s1.put e TSK_STAT.pend (s.get e TSK_STAT.pend - 1)).put e TSK_STAT.seq (s.get e TSK_STAT.seq + 1)).put
    e TSK_STAT.ctxv 0
  let s3 := (s2.clearCtx c).setPc c (s.get e TSK_CFG.entry)
  let s4 := s3.setCr c (rG 1) (word (activationWord q (s2.get e TSK_STAT.pend) (s2.get e TSK_STAT.seq)))
  s4.occupy c t

/-- A suspended task resumes on a core with its context loaded (R335). -/
def State.resumeTask (s : State) (c t : Nat) : State := (s.loadCtx c t).occupy c t

/-- A decided task takes the core: a new activation, or a resume; a task cancelled since the decision does not start. -/
def State.startTask (s : State) (c t : Nat) : State :=
  if s.tskState t = 2 then s.activate c t
  else if s.tskState t = 4 then s.resumeTask c t
  else s.setCo c { s.co c with assign := none }

/-- ACTIVATION_START (R334): the task that a decision sent to an idle core starts a new activation there. (DESIGN CHOICE, log 3) -/
def execActivationStart (c : Nat) (s : State) : Out := .next <|
  match (s.co c).assign, (s.co c).task with
  | some t, none => if c < 64 ∧ s.tskState t ≠ 4 ∧ s.inNmi c = false then s.startTask c t else s
  | _, _ => s

/-- RESUME (R335): the suspended task that a decision sent to an idle core resumes there. -/
def execResume (c : Nat) (s : State) : Out := .next <|
  match (s.co c).assign, (s.co c).task with
  | some t, none => if c < 64 ∧ s.tskState t = 4 ∧ s.inNmi c = false then s.startTask c t else s
  | _, _ => s

/-- The running task of a core is preempted (R337, R339): its context is saved, and it enters state 4 with its entry time
kept; after an srst of the Innkeeper nothing is saved (R345). -/
def State.suspend (s : State) (c u : Nat) : State :=
  if (s.co c).orphan then s
  else ((s.saveCtx c u).setTskState u 4).noteLevel (s.get (pTsk u) TSK_CFG.level)

/-- PREEMPTION (R337, R339): a core with a preemption decided, or that became unusable, reaches its boundary with every
access arrived: its task is suspended, and the preempting task starts or resumes on it; a pending NMI is taken first (R346). -/
def execPreemption (c : Nat) (s : State) : Out := .next <|
  let r := s.co c
  match r.task with
  | none => s
  | some u =>
    if 64 ≤ c ∨ s.drained c = false ∨ s.inNmi c = true ∨ r.drain ≠ .none ∨ r.halted = true
        ∨ (r.preempt = none ∧ r.evict = false) ∨ s.get (pCore c) CORE_NMI.pend = 1 then s
    else
      let s1 := (s.suspend c u).incMod pInnk0 INNK_PREEMPT.n
      let s2 := (s1.setCo c { s1.co c with task := none, evict := false, orphan := false, hold := .none, preempt := none }).put
        (pCore c) CORE_BLK.run 0
      match r.preempt with
      | some t => s2.startTask c t
      | none => s2

/-! Commands (R343). -/

/-- A decided but not started task loses its core: the cores that it was sent to forget it. -/
def State.unassign (s : State) (t : Nat) : State :=
  overAll (List.range 64) s (fun c u =>
    if (u.co c).assign = some t then u.setCo c { u.co c with assign := none }
    else if (u.co c).preempt = some t then u.setCo c { u.co c with preempt := none } else u)

/-- The pending activations of a task are removed and counted in TSK_CNT.cancelled (R343, op 1); a post for an enabled task that
is judged in the same cycle is accepted cancelled (R329). (DEDUCED, log 13) -/
def State.cancelPend (s : State) (t : Nat) : State :=
  let e := pTsk t
  let s1 := s.put e TSK_CNT.cancelled (satN 4095 (s.get e TSK_CNT.cancelled + s.get e TSK_STAT.pend))
  let s2 := (s1.put e TSK_STAT.pend 0).setTa t { s1.ta t with posts := [] }
  if s.get e TSK_CFG.en = 1 then { s2 with innk := { s2.innk with cancelled := t :: s2.innk.cancelled } } else s2

/-- The result words of a command (R350). -/
def State.cmdResult (s : State) (t res removed : Nat) : State :=
  ((s.put pInnk0 INNK_CMD_ST.res res).put pInnk0 INNK_CMD_ST.removed removed).put pInnk0 INNK_CMD_ST.task t

/-- A command is refused: res reads 2 and event 4 is recorded (R343). -/
def State.cmdRefused (s : State) (t : Nat) : State := (s.cmdResult t 2 0).ev pInnk0 4

/-- The fields op and task of INNK_CMD as a command's write leaves them (R350). -/
def State.cmdFields (s : State) (op t : Nat) : State := (s.put pInnk0 INNK_CMD.op op).put pInnk0 INNK_CMD.task t

/-- CANCEL (R343, op 1): pend becomes 0; a task in state 2 enters state 1 and leaves its list. -/
def doCancel (t : Nat) (s : State) : State :=
  if 512 ≤ t then s
  else
    let s0 := s.cmdFields 1 t
    if inRange (s.tskState t) 1 5 then
      let s1 := s0.cancelPend t
      let s2 := if s.tskState t = 2 then (s1.setTskState t 1).unassign t else s1
      s2.cmdResult t 1 (s.get (pTsk t) TSK_STAT.pend)
    else s0.cmdRefused t

/-- CLEAR (R343, op 2): a faulted activation is discarded. -/
def doClear (t : Nat) (s : State) : State :=
  if 512 ≤ t then s
  else
    let s0 := s.cmdFields 2 t
    if s.tskState t = 5 then
      let s1 := s0.put (pTsk t) TSK_STAT.ctxv 0
      (if 1 ≤ s.get (pTsk t) TSK_STAT.pend then s1.list t 2 else s1.setTskState t 1).cmdResult t 1 0
    else s0.cmdRefused t

/-- RESUME_COMMAND (R343, op 3): a faulted task with a saved context enters state 4 with a new entry time. -/
def doResumeCommand (t : Nat) (s : State) : State :=
  if 512 ≤ t then s
  else
    let s0 := s.cmdFields 3 t
    if s.tskState t = 5 ∧ s.get (pTsk t) TSK_STAT.ctxv = 1 then (s0.list t 4).cmdResult t 1 0
    else s0.cmdRefused t

/-- CLEAR_STATISTICS (R343, op 4): TSK_CNT, TSK_WWORST, TSK_WSUM and TSK_WCNT become 0. -/
def doClearStatistics (t : Nat) (s : State) : State :=
  if 512 ≤ t then s
  else
    let s0 := s.cmdFields 4 t
    if s.tskState t ≤ 5 then
      ((((s0.setReg (pTsk t + 4) 0).setReg (pTsk t + 5) 0).setReg (pTsk t + 6) 0).setReg (pTsk t + 7) 0).cmdResult t 1 0
    else s0.cmdRefused t

/-- TSK_CFG_WRITE (R323, R344, R348): enable, level and entry are written; en = 0 acts as a cancel and disables, en = 1 moves a
task in state 0 to state 1. -/
def doTskCfgWrite (t : Nat) (v : Word) (s : State) : State :=
  if 512 ≤ t then s
  else
    let e := pTsk t
    let w := v.toNat
    let st := s.tskState t
    let s0 := if fldGet w TSK_CFG.en = 0 ∧ st ≠ 0 then s.cancelPend t else s
    let s1 := ((s0.put e TSK_CFG.en (fldGet w TSK_CFG.en)).put e TSK_CFG.level (fldGet w TSK_CFG.level)).put
      e TSK_CFG.entry (fldGet w TSK_CFG.entry)
    if fldGet w TSK_CFG.en = 0 then
      if st = 1 ∨ st = 2 then (s1.setTskState t 0).unassign t
      else if st = 5 then (s1.setTskState t 0).put e TSK_STAT.ctxv 0
      else if st = 4 then s1.noteLevel (fldGet w TSK_CFG.level)
      else s1
    else if st = 0 then s1.setTskState t 1
    else if st = 2 ∨ st = 4 then s1.noteLevel (fldGet w TSK_CFG.level)
    else s1

/-- TSK_AFF_WRITE (R323): the affinity of cores 0 to 31 or 32 to 63 is written; it governs later dispatches. -/
def doTskAffWrite (t : Nat) (hi : Bool) (v : Word) (s : State) : State :=
  if 512 ≤ t then s
  else if hi then s.put (pTsk t) TSK_AFF1.mask v.toNat else s.put (pTsk t) TSK_AFF0.mask v.toNat

/-- What a context word holds of a number (R326, R277): lengths and loop counts their 24 bits, the guard parts 32, ST its flags and
sticky bits, FST its mode and flags, ACTL no reserved rnd, PC its 14 bits, and a loop bound its three fields. -/
def ctxValue (w v : Nat) : Nat :=
  if inRange w 39 4 then v % 2 ^ 24
  else if w = 51 then v % 2 ^ 32
  else if w = 56 then v / 2 ^ 30 * 2 ^ 30 + v % 16
  else if w = 57 then v / 2 ^ 8 % 4 * 2 ^ 8 + v % 32
  else if w = 58 then actlWord v
  else if w = 59 then v % 2 ^ 14
  else if inRange w 60 2 then v % 2 ^ 24
  else if inRange w 62 2 then v / 2 ^ 35 * 2 ^ 35 + v % 2 ^ 28
  else v

/-- CONTEXT_WRITE (R327): a context word is written in state 0 or 5; in any other state event 5 is recorded. -/
def doContextWrite (t w : Nat) (v : Word) (s : State) : State :=
  if 512 ≤ t ∨ w < 8 ∨ 64 ≤ w then s
  else if s.tskState t = 0 ∨ s.tskState t = 5 then s.setReg (pTsk t + w) (ctxValue w v.toNat)
  else s.ev pInnk0 5

/-- The length of a load window in 1/64 ns (R349). -/
def State.loadLen (s : State) : Nat := 2 ^ s.get pInnk0 INNK_LOAD_CFG.w * 64000

/-- The measuring of a load window begins anew: busy edges count from here, in the window of R38 that runs now. (DESIGN CHOICE, log 100) -/
def State.loadStart (s : State) : State :=
  { overAll (List.range 64) s (fun c u => u.setCo c { u.co c with busy := 0 }) with
    innk := { s.innk with winStart := s.t64 0 - s.windowTime % s.loadLen } }

/-- INNK_SRST (R345, R21): the task table, lists, queue, counts and the words of the three pages return to reset, and the load is
measured anew; queued posts are answered with code 4; activations that run go on without a record. (DEDUCED, log 13) -/
def doInnkSrst (s : State) : State :=
  let s1 := s.innk.queue.foldl (fun u q => u.tellProducer q 4) s
  let keep := fun (a : Nat) => !(inRange a (pTsk 0) 0x8000 || inRange a (pInnk0 + 0x10) 0xF0 || a == pInnk0 + 3 || a == pInnk0 + 5
    || inRange a (pInnk1 + 0x10) 0xF0 || inRange a (pInnk2 + 0x10) 0xF0)
  let s2 := { s1 with regs := s1.regs.filter (fun e => keep e.1), task := [], innk := { s1.innk with queue := [], cancelled := [] } }
  let s3 := overAll (List.range 64) s2 (fun c u =>
    if u.co c = {} then u else u.setCo c { u.co c with assign := none, preempt := none, orphan := (u.co c).task.isSome })
  { s3 with srstBusy := if pInnk0 ∈ s3.srstBusy then s3.srstBusy else pInnk0 :: s3.srstBusy }.loadStart

/-- A write of INNK_LOAD_CFG (R350): en is taken; a w above 20 keeps the previous one and counts in the page's fault counter. -/
def State.loadCfgWrite (s : State) (v : Nat) : State :=
  let w := fldGet v INNK_LOAD_CFG.w
  let on := fldGet v INNK_LOAD_CFG.en
  let s1 := s.put pInnk0 INNK_LOAD_CFG.en on
  let s2 := if w ≤ 20 then s1.put pInnk0 INNK_LOAD_CFG.w w else s1
  let fresh := (s.get pInnk0 INNK_LOAD_CFG.en = 0 ∧ on = 1) ∨ s2.loadLen ≠ s.loadLen
  let s3 := if fresh then s2.loadStart else s2
  if w ≤ 20 then s3 else s3.fc pInnk0

/-- LOAD_WINDOW_END (R349, R38): at the window's edge every core's busy fraction of the window just ended, over its actual length, is
recorded in U1.16, with event 6. (DESIGN CHOICE, log 100) -/
def execLoadWindowEnd (s : State) : Out := .next <|
  if s.get pInnk0 INNK_LOAD_CFG.en = 0 ∨ s.windowEnds s.loadLen s.innk.winStart = false then s
  else
    let len := (s.t64 0 - s.innk.winStart) / 160
    let s1 := overAll (List.range 64) s (fun c u =>
      let f := (u.co c).busy * 2 ^ 16 / len
      let u1 := u.put pInnk2 (INNK_LOAD.last c) f
      let u2 := if u1.get pInnk2 (INNK_LOAD.peak c) < f then u1.put pInnk2 (INNK_LOAD.peak c) f else u1
      u2.setCo c { u2.co c with busy := 0 })
    { s1 with innk := { s1.innk with winStart := s1.t64 0 } }.ev pInnk0 6

/-- The word of INNK_CMD that gives a command (R350). -/
def cmdWord (op t : Nat) : Word := word (2 ^ 35 + op * 2 ^ 32 + t)

/-! The commands. -/

/-- The command CANCEL (R343, op 1). -/
def execCancel (t : Nat) (s : State) : Out := .next (s.writeWord 0 (pInnk0 + 0x10) (cmdWord 1 t) (doCancel t))

/-- The command CLEAR (R343, op 2). -/
def execClear (t : Nat) (s : State) : Out := .next (s.writeWord 0 (pInnk0 + 0x10) (cmdWord 2 t) (doClear t))

/-- The command RESUME_COMMAND (R343, op 3). -/
def execResumeCommand (t : Nat) (s : State) : Out := .next (s.writeWord 0 (pInnk0 + 0x10) (cmdWord 3 t) (doResumeCommand t))

/-- The command CLEAR_STATISTICS (R343, op 4). -/
def execClearStatistics (t : Nat) (s : State) : Out := .next (s.writeWord 0 (pInnk0 + 0x10) (cmdWord 4 t) (doClearStatistics t))

/-- The command TSK_CFG_WRITE (R323, R344). -/
def execTskCfgWrite (t : Nat) (v : Word) (s : State) : Out := .next (s.writeWord 0 (pTsk t) v (doTskCfgWrite t v))

/-- The command TSK_AFF_WRITE (R323). -/
def execTskAffWrite (t : Nat) (hi : Bool) (v : Word) (s : State) : Out :=
  .next (s.writeWord 0 (pTsk t + (if hi then 2 else 1)) v (doTskAffWrite t hi v))

/-- The command CONTEXT_WRITE (R327). -/
def execContextWrite (t w : Nat) (v : Word) (s : State) : Out := .next (s.writeWord 0 (pTsk t + w) v (doContextWrite t w v))

/-- The command INNK_SRST (R345, R21). -/
def execInnkSrst (s : State) : Out := .next (doInnkSrst s)

end Sys2Proof.Machine
end

