-- ==== Sys2Proof/Machine/Pwm.lean ====
section
/-! DEFINITION. The PWM stage (R118 to R141, R151 to R156): channel kinds, the carrier, edges and dead time, the shadow set
and its transfers, the duty envelope, trips, the blocking order at the pads, and MCLK. -/

namespace Sys2Proof.Machine

/-- The record of a PWM stage. -/
def State.pw (s : State) (ch : Nat) : PwmSt := Tab.rd s.pwm ch

/-- Write the record of a PWM stage. -/
def State.setPw (s : State) (ch : Nat) (r : PwmSt) : State := { s with pwm := Tab.wr s.pwm ch r }

/-- The record of an arm port. -/
def State.po (s : State) (p : Nat) : PortSt := Tab.rd s.port p

/-- Write the record of an arm port. -/
def State.setPo (s : State) (p : Nat) (r : PortSt) : State := { s with port := Tab.wr s.port p r }

/-- Does the carrier of a channel run? -/
def State.carrierRuns (s : State) (ch : Nat) : Bool := s.flag (pPwm ch) PWM_BLK.run

/-! Locked fields (R10). -/

/-- Are SL fields open to an initiator: the island always, others before envelope lock (R9, R48)? -/
def State.slOpen (s : State) (ini : Nat) : Bool := ini == iniIsland || !s.slLocked

/-- Write one field of a word by its access type: the new word, and whether a locked field kept another value (R9, R10). -/
def State.mergeField (s : State) (ini old v : Nat) (f : Fld) (acc : Nat × Bool) : Nat × Bool :=
  match f.acc with
  | .rw => (fldPut acc.1 f (fldGet v f), acc.2)
  | .ro | .wo | .sc => acc
  | .w1c => (fldPut acc.1 f (fldGet old f &&& (2 ^ (f.hi + 1 - f.lo) - 1 - fldGet v f)), acc.2)
  | .sl => if s.slOpen ini then (fldPut acc.1 f (fldGet v f), acc.2) else (acc.1, acc.2 || fldGet v f != fldGet old f)
  | .ol => if s.olSealed then (acc.1, acc.2 || fldGet v f != fldGet old f) else (fldPut acc.1 f (fldGet v f), acc.2)

/-- A word as a write leaves it, field by field, and whether the write reached a locked field with another value. -/
def State.mergeWord (s : State) (ini a v : Nat) : Nat × Bool :=
  (wordFields a).foldl (fun acc f => s.mergeField ini (s.reg a) v f acc) (s.reg a, false)

/-- Count a refused write where one occurred (R10). (DEDUCED, log 15) -/
def State.noteRefused (s : State) (a : Nat) (r : Bool) : State := if r then s.refuse (pageOf a) else s

/-- A plain write of a register word (R9, R10): every field by its access type. -/
def State.plainWrite (s : State) (ini a v : Nat) : State :=
  let m := s.mergeWord ini a v
  (s.setReg a m.1).noteRefused a m.2

/-! The blocking order at the pads (R140). -/

/-- Order 1: the port's gate-enable or pad-level block from the safety island, or the pad-level block of the clock unit for a
dead PCLK, CORE or FAB (R501). -/
def State.blk1 (s : State) (ch : Nat) : Bool := !(s.gateEn.contains (ch / 8)) || s.clk.dead.any (fun d => decide (d < 3))

/-- Order 2: PAGE_CTL.en = 0, or gating requested (R49, R50). -/
def State.blk2 (s : State) (ch : Nat) : Bool :=
  s.get (pPwm ch) PAGE_CTL.en == 0 || s.get (pPwm ch) PAGE_CTL.gate_req == 1 || s.get (pPwm ch) PAGE_CTL.gate_ack == 1

/-- Order 3: fault-counter action 4 of a page of the channel or of its port (R41). -/
def State.blk3 (s : State) (ch : Nat) : Bool :=
  s.blocked.any (fun p => p == pPwm ch || p == pAle ch || p == pFbk ch || p == pProf ch || p == pPort (ch / 8))

/-- Order 4: an envelope violation (R137). -/
def State.blk4 (s : State) (ch : Nat) : Bool := s.envBlk.contains ch

/-- Does any of orders 1 to 4 apply (PAGE_STAT.padblk)? -/
def State.padBlocked (s : State) (ch : Nat) : Bool := s.blk1 ch || s.blk2 ch || s.blk3 ch || s.blk4 ch

/-- The outputs stay off until the next carrier start, or update edge for kind 3 (R141, R257). -/
def State.holdPads (s : State) (ch : Nat) : State := s.setPw ch { s.pw ch with padHold := true }

/-- The step and direction pairs of a channel of kind 3, as the generator drives them: the step on the high side of leg 0, the
direction on its low side, inverted by dinv (R119, R254); both are off while the generator's page is disabled (R257). -/
def State.stepPair (s : State) (ch leg : Nat) (hi : Bool) : Bool :=
  leg == 0 && s.flag (pProf ch) PAGE_CTL.en
    && (if hi then (s.pr ch).stepHigh else (s.pr ch).dirPos != s.flag (pProf ch) PROF_STEP.dinv)

/-- Is a gate output on at the pads (R119, R140, R257)? -/
def State.gateOut (s : State) (ch leg : Nat) (hi : Bool) : Bool :=
  let r := s.pw ch
  let l : LegSt := Tab.rd r.legs leg
  let k := s.get (pPwm ch) PWM_CFG.kind
  !s.padBlocked ch && !r.padHold
    && (if k = 3 then s.stepPair ch leg hi
        else s.carrierRuns ch && k != 0 && s.get (pPwm ch) PWM_BLK.trip == 0 && (if hi then l.hi else l.lo))

/-- An envelope violation of a channel (R137, R184, R220, R266): order 4 comes into force and the island is notified. -/
def State.envViolate (s : State) (ch : Nat) : State :=
  let r : IslCh := Tab.rd s.isl.ch ch
  let s1 := { s with envBlk := if ch ∈ s.envBlk then s.envBlk else ch :: s.envBlk, envNotify := s.envNotify ++ [ch],
                     isl := { s.isl with ch := Tab.wr s.isl.ch ch { r with env := some s.now } } }
  (s1.holdPads ch).padCause ch

/-! Edges (R127 to R130). -/

/-- Is a leg enabled? -/
def State.legOn (s : State) (ch k : Nat) : Bool := bitN (s.get (pPwm ch) PWM_CFG.legen) k

/-- The dead time d of R128. -/
def State.deadTime (s : State) (ch : Nat) : Nat := max (s.get (pPwm ch) PWM_DT.dt) (s.get (pPwm ch) PWM_ENV_DT.dtmin)

/-- The ideal interval of the high side (R127): t_r and t_f, for a compare limited to L. -/
def idealSpan (edgeAligned : Bool) (L m : Nat) : Nat × Nat :=
  let m' := min m L
  if edgeAligned then (0, m') else ((L - m') / 2, (L - m') / 2 + m')

/-- The edges of the ideal signal over a period of length L that begins at `at_`, from a level before it: time and whether it
rises; with the level after the period. No edge for m = 0 or m = L but where the level before differs. -/
def idealEdges (edgeAligned : Bool) (L m : Nat) (at_ : Int) (lv : Bool) : List (Int × Bool) × Bool :=
  if m = 0 then (if lv then [(at_, false)] else [], false)
  else if L ≤ m then (if lv then [] else [(at_, true)], true)
  else
    let sp := idealSpan edgeAligned L m
    if sp.1 = 0 then ((if lv then [] else [(at_, true)]) ++ [(at_ + (sp.2 : Int), false)], false)
    else ((if lv then [(at_, false)] else []) ++ [(at_ + (sp.1 : Int), true), (at_ + (sp.2 : Int), false)], decide (sp.2 = L) && false)

/-- The edges of the ideal signal over three periods under one active set. -/
def idealThree (edgeAligned : Bool) (L m : Nat) (lv : Bool) : List (Int × Bool) :=
  let (a, l1) := idealEdges edgeAligned L m 0 lv
  let (b, l2) := idealEdges edgeAligned L m L l1
  a ++ b ++ (idealEdges edgeAligned L m (2 * L : Nat) l2).1

/-- The first edge of a direction at or after a time. -/
def nextEdge (l : List (Int × Bool)) (t : Int) (rise : Bool) : Option Int :=
  (l.find? (fun e => e.2 == rise && decide (t ≤ e.1))).map (·.1)

/-- Does a turn-on at `t` with the given end of its interval stand (R128, R129): it comes before the turn-off and lasts at
least minp? -/
def intervalStands (t : Int) (off : Option Int) (minp : Nat) : Bool :=
  match off with
  | none => true
  | some u => decide (t < u) && decide ((minp : Int) ≤ u - t)

/-- The gate edges that one edge of the ideal signal gives (R128): the turn-off of one side at it, and the turn-on of the
other after the dead time, when its interval stands. -/
def edgePair (leg : Nat) (l : List (Int × Bool)) (d minp : Nat) (e : Int × Bool) : List GateEdge :=
  let t := e.1 + (d : Int)
  { t := e.1, leg := leg, hi := !e.2, on := false } ::
    (if intervalStands t (nextEdge l (e.1 + 1) (!e.2)) minp then [{ t := t, leg := leg, hi := e.2, on := true }] else [])

/-- In a period of length L each side keeps its first turn-on (R128): `hi` and `lo` say which side has had it already. A turn-on at
or beyond the period's end belongs to the next one. -/
def onceEach (L : Int) (hi lo : Bool) (l : List GateEdge) : List GateEdge :=
  match l with
  | [] => []
  | e :: r =>
    if e.on && decide (e.t < L) then
      (if (if e.hi then hi else lo) then onceEach L hi lo r else e :: onceEach L (hi || e.hi) (lo || !e.hi) r)
    else e :: onceEach L hi lo r

/-- The edges of the ideal signal with the first moved to where an interval that is on has lasted minp (R129); no later edge comes
before it. -/
def holdOn (l : LegSt) (minp : Nat) (es : List (Int × Bool)) : List (Int × Bool) :=
  match es with
  | [] => []
  | e :: r =>
    let t := if e.2 then (if l.lo then max e.1 (l.onLo + (minp : Int)) else e.1)
      else (if l.hi then max e.1 (l.onHi + (minp : Int)) else e.1)
    (t, e.2) :: r.map (fun f => (max f.1 t, f.2))

/-- The gate edges of a leg from the edges of its ideal signal in a period of length L, and a turn-on that stands scheduled already,
which is judged against the turn-off that now follows (R128, R129). -/
def legEdges (L : Int) (d minp leg : Nat) (l : LegSt) (es : List (Int × Bool)) (pending : Option (Int × Bool)) : List GateEdge :=
  let on : List GateEdge := match pending with
    | none => []
    | some q =>
      if intervalStands q.1 ((es.find? (fun e => e.2 != q.2)).map (·.1)) minp then
        [{ t := q.1, leg := leg, hi := q.2, on := true }]
      else []
  onceEach L l.cntHi l.cntLo (on ++ (es.filter (fun e => decide (e.1 < L))).flatMap (edgePair leg es d minp))

/-- The turn-on of a leg that stands scheduled. -/
def pendingOn (leg : Nat) (old : List GateEdge) : Option (Int × Bool) :=
  (old.find? (fun e => e.leg == leg && e.on)).map (fun e => (e.t, e.hi))

/-- Schedule the edges of a leg for a period of length L (R127 to R129), with the turn-on carried into it. -/
def scheduleLeg (edgeAligned : Bool) (L m d minp leg : Nat) (l : LegSt) (carried : List GateEdge) : List GateEdge :=
  legEdges L d minp leg l (holdOn l minp (idealThree edgeAligned L m l.lv)) (pendingOn leg carried)

/-- The edges take the tap map in force when they are scheduled (R131). -/
def State.tapMap (s : State) (ch : Nat) (l : List GateEdge) : List GateEdge :=
  l.map (fun e => { e with code := s.get (pPort (ch / 8)) PORT_DLCAL.code })

/-- Schedule a whole period of a channel from the active set, with the turn-ons carried into it. -/
def State.schedule (s : State) (ch : Nat) (carried : List GateEdge) : List GateEdge :=
  let p := pPwm ch
  let r := s.pw ch
  s.tapMap ch (((List.range 4).filter (fun k => s.legOn ch k)).flatMap (fun k =>
    scheduleLeg (s.get p PWM_CFG.carrier == 1) r.len (s.get p (PWM_ACT_CMP.m k)) (s.deadTime ch) (s.get p PWM_DT.minp) k
      (Tab.rd r.legs k) carried))

/-- Recompute the edges of a leg that are not yet emitted after a transfer at X (R136): nothing is placed before
X + 40 ns (512 taps); an interval already on lasts at least minp; a turn-on whose edge of the ideal signal has passed is recomputed
from that edge's new time, no less than d after the other side's turn-off; each side turns on at most once in the period. (DESIGN CHOICE, log 44) -/
def recomputeLeg (edgeAligned : Bool) (L m d minp leg : Nat) (x : Int) (l : LegSt) (old : List GateEdge) : List GateEdge :=
  let t0 : Int := x + 512
  let ideal := idealThree edgeAligned L m false
  let level := (ideal.filter (fun e => decide (e.1 ≤ t0))).getLast?.map (·.2) |>.getD false
  let rest := ideal.filter (fun e => decide (t0 < e.1))
  let first : List (Int × Bool) := if level == l.lv then [] else [(t0, level)]
  let other := if l.lv then l.offLo else l.offHi
  let passed := (ideal.filter (fun e => e.2 == l.lv && decide (e.1 ≤ t0))).getLast?.map (fun e => e.1 + (d : Int))
  let pending := (old.find? (fun e => e.leg == leg && e.on && e.hi == l.lv)).map (fun e =>
    (max (max (passed.getD e.t) t0) (other + (d : Int)), l.lv))
  legEdges L d minp leg l (holdOn l minp (first ++ rest)) pending

/-- The earliest of some edges. -/
def earliest (l : List GateEdge) (best : GateEdge) : GateEdge :=
  match l with
  | [] => best
  | e :: r => earliest r (if e.t < best.t then e else best)

/-- A leg after a gate edge. -/
def LegSt.after (l : LegSt) (e : GateEdge) : LegSt :=
  if e.hi then
    (if e.on then { l with hi := true, onHi := e.t, cntHi := true } else { l with hi := false, offHi := e.t, lv := false })
  else
    (if e.on then { l with lo := true, onLo := e.t, cntLo := true } else { l with lo := false, offLo := e.t, lv := true })

/-- Has a side turned on already in the present period, so that this turn-on would be its second (R128)? -/
def LegSt.second (l : LegSt) (e : GateEdge) : Bool := e.on && (if e.hi then l.cntHi else l.cntLo)

/-- Launch one gate edge: at its delay-line tap, which takes round(tap × code / 32) raw elements, or at tap 0 of its cycle while the
delay line is not locked (R130, R131). A side's second turn-on of the period is not emitted (R128). (DESIGN CHOICE, log 110) -/
def State.launch (s : State) (ch : Nat) (x : GateEdge) : State :=
  let r := s.pw ch
  let locked := s.get (pPort (ch / 8)) PORT_DLCAL.locked == 1
  let y : GateEdge := if locked then x else { x with t := x.t / 32 * 32 }
  let l : LegSt := Tab.rd r.legs x.leg
  if l.second x then s.setPw ch { r with edges := r.edges.erase x }
  else s.setPw ch { r with
    edges := r.edges.erase x
    legs := Tab.wr r.legs x.leg (l.after y)
    raw := ((y.t % 32).toNat * y.code + 16) / 32 }

/-- Launch the scheduled edges that lie before a tap time, the earliest first; `n` bounds their number. -/
def State.launchBefore (s : State) (ch : Nat) (t : Int) (n : Nat) : State :=
  match n with
  | 0 => s
  | n + 1 => match (s.pw ch).edges with
    | [] => s
    | e :: l =>
      let x := earliest l e
      if x.t < t then (s.launch ch x).launchBefore ch t n else s

/-- Launch every scheduled edge that lies before a tap time. -/
def State.launchAll (s : State) (ch : Nat) (t : Int) : State := s.launchBefore ch t (s.pw ch).edges.length

/-- Recompute a channel's pending edges after a transfer in mid-period (R136). (DESIGN CHOICE, log 44) -/
def State.recompute (s : State) (ch : Nat) : State :=
  let p := pPwm ch
  let s1 := s.launchAll ch ((s.pw ch).c : Int)
  let r := s1.pw ch
  s1.setPw ch { r with edges := s1.tapMap ch (((List.range 4).filter (fun k => s.legOn ch k)).flatMap (fun k =>
    recomputeLeg (s.get p PWM_CFG.carrier == 1) r.len (s.get p (PWM_ACT_CMP.m k)) (s.deadTime ch) (s.get p PWM_DT.minp) k
      (r.c : Int) (Tab.rd r.legs k) r.edges)) }

/-! Transfers (R122, R133, R134, R136). -/

/-- Copy the written shadow words to the active set and clear their flags. -/
def State.copyShadow (s : State) (ch : Nat) (all : Bool) : State :=
  let p := pPwm ch
  let w := s.get p PWM_SHSTAT.cmp_w
  let s1 := if all || s.get p PWM_SHSTAT.per_w == 1 then s.put p PWM_ACT_PER.per (s.get p PWM_PER.per) else s
  let s2 := overAll (List.range 4) s1 (fun k u =>
    if all || bitN w k then u.put p (PWM_ACT_CMP.m k) (u.get p (PWM_CMP.m k)) else u)
  ((((s2.put p PWM_SHSTAT.per_w 0).put p PWM_SHSTAT.cmp_w 0).incMod p PWM_XFER.done)).ev p 0

/-- Does the paired policy refuse a transfer (R134): the period is written and an enabled leg's compare is not? -/
def State.pairRefused (s : State) (ch : Nat) : Bool :=
  let p := pPwm ch
  s.get p PWM_CFG.policy == 0 && s.get p PWM_SHSTAT.per_w == 1
    && (List.range 4).any (fun k => s.legOn ch k && !bitN (s.get p PWM_SHSTAT.cmp_w) k)

/-- A transfer (R134): taken, or refused with event 1. Two causes on one edge give one (R133). -/
def State.transfer (s : State) (ch : Nat) : State :=
  if (s.pw ch).xfer then s
  else
    let s0 := s.setPw ch { s.pw ch with xfer := true }
    if s.pairRefused ch then (s0.incMod (pPwm ch) PWM_XFER.refused).ev (pPwm ch) 1 else s0.copyShadow ch false

/-- The words of the active set: the period and the compares of the four legs. -/
def State.activeSet (s : State) (ch : Nat) : List Nat := (List.range 5).map (fun i => s.reg (pPwm ch + 0x1A + i))

/-- Has the present period run to its end, so that a carrier start lies on this edge (R120, R126)? -/
def State.atCarrierStart (s : State) (ch : Nat) : Bool := decide ((s.pw ch).fin ≤ (s.pw ch).c)

/-- A transfer in mid-period: one that changes the active set recomputes the edges not yet emitted (R136). The new period of a carrier
start takes them as it begins. -/
def State.transferMid (s : State) (ch : Nat) : State :=
  let s1 := s.transfer ch
  if s.carrierRuns ch && !s.atCarrierStart ch && s1.activeSet ch != s.activeSet ch then s1.recompute ch else s1

/-- The carrier stops at once: run becomes 0, all gate outputs go off, and event 14 is recorded (R49, R124, R125). -/
def State.stopCarrier (s : State) (ch : Nat) : State :=
  if s.carrierRuns ch then
    ((s.setPw ch { s.pw ch with stop := false, legs := [], edges := [] }).put (pPwm ch) PWM_BLK.run 0).ev (pPwm ch) 14
  else s

/-- Is a start refused (R122)? -/
def State.startRefused (s : State) (ch : Nat) : Bool :=
  let p := pPwm ch
  let k := s.get p PWM_CFG.kind
  let per := s.get p PWM_PER.per
  k == 0 || k == 3 || decide (per < 2000) || decide (32 * per ≤ s.get p PWM_PHASE.ph)
    || s.get (pPort (ch / 8)) PORT_DLCAL.locked == 0

/-- The legs of a stage that starts: an edge of the ideal signal that is not emitted moves the signal and no output (R123). -/
def droppedLegs (l : List GateEdge) : Tab LegSt :=
  (List.range 4).foldl (fun (t : Tab LegSt) k => match (l.filter (fun e => e.leg == k && !e.on)).getLast? with
    | none => t
    | some e => Tab.wr t k { lv := !e.hi }) []

/-- Start the carrier (R122, R123), or refuse it with event 8: c takes PWM_PHASE, the whole shadow set becomes active, and the
edges before 40 ns are not emitted. (DESIGN CHOICE, log 44) -/
def State.startCarrier (s : State) (ch : Nat) : State :=
  let p := pPwm ch
  if s.get p PAGE_CTL.en = 0 ∨ s.carrierRuns ch = true then s
  else if s.startRefused ch then s.ev p 8
  else
    let s1 := (s.copyShadow ch true).put p PWM_BLK.run 1
    let c := s.get p PWM_PHASE.ph
    let L := 32 * s1.get p PWM_ACT_PER.per
    let s2 := (s1.setPw ch { s1.pw ch with c := c, len := L, fin := L, centred := decide (L / 2 ≤ c), stop := false, legs := [],
                                           edges := [], padHold := s1.padBlocked ch, xfer := true, trk := false }).put p PWM_BLK.trip 0
    let (e, gone) := (s2.schedule ch []).partition (fun e => decide ((c : Int) + 512 ≤ e.t))
    s2.setPw ch { s2.pw ch with edges := e, legs := droppedLegs gone }

/-- Carrier tracking at a Prism commit: the error, and the new end of the present period (R126). -/
def State.trackNow (s : State) (ch : Nat) : State :=
  let p := pPwm ch
  let r := s.pw ch
  let half : Int := (r.len : Int) / 2
  let e0 : Int := (s.get p PWM_PHASE.ph : Int) - (r.c : Int)
  let err := if e0 ≤ -half then e0 + (r.len : Int) else if half < e0 then e0 - (r.len : Int) else e0
  let lim : Int := (s.get p PWM_TRK.lim : Int)
  let cl := clampI (-lim) lim err
  let fin : Int := max ((r.len : Int) - cl) ((r.c : Int) + 32)
  let s1 := s.putI p PWM_TRK.err (clampI (-32767) 32767 err)
  let s2 := if cl ≠ err then s1.ev p 9 else s1
  s2.setPw ch { s2.pw ch with fin := fin.toNat }

/-- A Prism commit tracks the carrier (R126); where a carrier start lies on its edge, c is 0 there and the new period is the present one. -/
def State.track (s : State) (ch : Nat) : State :=
  if s.atCarrierStart ch then s.setPw ch { s.pw ch with trk := true } else s.trackNow ch

/-! Register writes of the PWM page. -/

/-- Is a pair of kind and legen allowed (R118)? -/
def kindOk (kind legen : Nat) : Bool :=
  (kind == 0 && legen == 0) || (kind == 1 && (legen == 7 || legen == 15)) || (kind == 2 && legen == 15)
    || (kind == 3 && legen == 0)

/-- PWM_CFG_WRITE (R118, R125, R133, R152): refused with event 7 while running or for an invalid value; the island's change of
kind or legen is taken whatever run holds, and stops the carrier. -/
def doPwmCfgWrite (ini ch : Nat) (v : Word) (s : State) : State :=
  if 96 ≤ ch then s
  else
    let p := pPwm ch
    let a := p + 0x10
    let m := s.mergeWord ini a v.toNat
    let s0 := s.noteRefused a m.2
    let bad := !kindOk (fldGet m.1 PWM_CFG.kind) (fldGet m.1 PWM_CFG.legen) || decide (2 ≤ fldGet m.1 PWM_CFG.carrier)
      || decide (5 ≤ fldGet m.1 PWM_CFG.reload)
    if (ini ≠ iniIsland ∧ s.carrierRuns ch = true) ∨ bad = true then s0.ev p 7
    else
      let changed := fldGet m.1 PWM_CFG.kind != s.get p PWM_CFG.kind || fldGet m.1 PWM_CFG.legen != s.get p PWM_CFG.legen
      let s1 := s0.setReg a m.1
      if changed then s1.stopCarrier ch else s1

/-- The bounds of a compare value under PWM_ENV_DUTY (R137): hi above 1,024 acts as 1,024. -/
def State.dutyOk (s : State) (ch m : Nat) : Bool :=
  let p := pPwm ch
  let L := 32 * s.get p PWM_PER.per
  decide (s.get p PWM_ENV_DUTY.lo * L ≤ m * 1024) && decide (m * 1024 ≤ min 1024 (s.get p PWM_ENV_DUTY.hi) * L)

/-- The bounds of a period under PWM_ENV_PER (R137). -/
def State.perOk (s : State) (ch per : Nat) : Bool :=
  let p := pPwm ch
  decide (4 * s.get p PWM_ENV_PER.min ≤ per) && decide (per ≤ 4 * s.get p PWM_ENV_PER.max + 3)

/-- An envelope violation by a shadow write: event 4, the block and the notice (R137). -/
def State.dutyViolate (s : State) (ch : Nat) : State := (s.ev (pPwm ch) 4).envViolate ch

/-- Put a shadow compare with its written-flag. -/
def State.setCmp (s : State) (ch k m : Nat) : State :=
  (s.put (pPwm ch) (PWM_CMP.m k) m).put (pPwm ch) PWM_SHSTAT.cmp_w (setBitN (s.get (pPwm ch) PWM_SHSTAT.cmp_w) k)

/-- The shadow set transfers on the next edge (R133). -/
def State.goNext (s : State) (ch : Nat) : State := s.setPw ch { s.pw ch with go := true }

/-- The transfer that reload 4 gives to a shadow write, on the edge after it (R133). -/
def State.reloadNow (s : State) (ch : Nat) : State := if s.get (pPwm ch) PWM_CFG.reload = 4 then s.goNext ch else s

/-- A shadow write that lands on the edge of a transfer records event 2 (R135): the transfer has taken the value from before it. -/
def State.noteShadow (s : State) (ch : Nat) : State := if (s.pw ch).xfer then s.ev (pPwm ch) 2 else s

/-- SHADOW_WRITE (R121, R132, R135, R137): a write of PWM_PER or PWM_CMPk enters the shadow set with its flag, or is refused:
with event 7 for the range, event 6 while the ALE owns the compares, or as an envelope violation. -/
def doShadowWrite (ini ch off : Nat) (v : Word) (s : State) : State :=
  let p := pPwm ch
  if 96 ≤ ch then s
  else if off = 0x11 then
    let per := v.toNat % 2 ^ 20
    if per < 2000 then s.ev p 7
    else if !s.perOk ch per then s.dutyViolate ch
    else (((s.noteShadow ch).put p PWM_PER.per per).put p PWM_SHSTAT.per_w 1).reloadNow ch
  else if inRange off 0x14 4 then
    let k := off - 0x14
    let m := v.toNat % 2 ^ 25
    if s.get (pAle ch) PAGE_CTL.en = 1 ∧ ini ≠ iniIsland then s.ev p 6
    else if s.legOn ch k && !s.dutyOk ch m then s.dutyViolate ch
    else ((s.noteShadow ch).setCmp ch k m).reloadNow ch
  else s

/-- PWM_COMMIT_START (R122): a start on the next edge is asked for. -/
def doPwmCommitStart (ch : Nat) (s : State) : State := if ch < 96 then s.setPw ch { s.pw ch with startReq := true } else s

/-- PWM_COMMIT_STOP (R124): on the next edge a stop pends, which the next carrier start takes, or it cancels a start of that edge. -/
def doPwmCommitStop (ch : Nat) (s : State) : State := if ch < 96 then s.setPw ch { s.pw ch with stopReq := true } else s

/-- PWM_COMMIT_GO (R133): the shadow set transfers on the next edge, whatever reload holds. -/
def doPwmCommitGo (ch : Nat) (s : State) : State := if ch < 96 then s.goNext ch else s

/-! Trips (R138, R139). -/

/-- Is the trip input qualified active: sampled active on filt consecutive edges outside blanking (R138)? (DEDUCED, log 45) -/
def State.tripQual (s : State) (ch : Nat) : Bool :=
  let r := s.pw ch
  match r.tripSince with
  | none => false
  | some t =>
    let from_ := match r.outAt with
      | some o => max t (o + s.get (pPwm ch) PWM_TRIP.blank)
      | none => t
    decide (from_ + s.get (pPwm ch) PWM_TRIP.filt ≤ s.now + 1)

/-- A qualified trip acts while PWM_TRIP.en and run are 1 and no pad block is in force (R138, R139): the gates go off until the next
carrier start, and event 3 is recorded once in the period. (DEDUCED, log 45) -/
def State.tripAct (s : State) (ch : Nat) : State :=
  let p := pPwm ch
  if s.tripQual ch && s.flag p PWM_TRIP.en && s.carrierRuns ch && !s.padBlocked ch && !s.flag p PWM_BLK.trip then
    (s.put p PWM_BLK.trip 1).evC p 3
  else s

/-- CARRIER_CENTRE (R120, R133): the carrier has reached its centre, a transfer point of reload 2 and 3. -/
def doCarrierCentre (ch : Nat) (s : State) : State :=
  let r := s.pw ch
  if ch < 96 ∧ s.carrierRuns ch = true ∧ r.centred = false ∧ r.len / 2 ≤ r.c then
    let s1 := s.setPw ch { r with centred := true }
    let rl := s.get (pPwm ch) PWM_CFG.reload
    if rl = 2 ∨ rl = 3 then s1.transferMid ch else s1
  else s

/-- The part of CARRIER_START that is the stage's own (R120, R124, R126, R133, R139, R141): the transfer of the start and the end of
the trip, then a pending stop takes effect, or a new period begins with the pads released and its edges scheduled. (DESIGN CHOICE, log 44) -/
def State.newPeriod (s : State) (ch : Nat) : State :=
  let p := pPwm ch
  let s0 := s.launchAll ch ((s.pw ch).fin : Int)
  let r := s0.pw ch
  let rl := s.get p PWM_CFG.reload
  let due := decide (rl = 1) || decide (rl = 3)
  if r.stop then
    let s1 := ((if due then s0.transfer ch else s0).put p PWM_BLK.trip 0).stopCarrier ch
    s1.setPw ch { s1.pw ch with c := r.c - r.fin, trk := false }
  else
    let keep := if r.fin < r.len then [] else
      (r.edges.filter (fun e => e.on && decide ((r.fin : Int) ≤ e.t))).map (fun e => { e with t := e.t - (r.fin : Int) })
    let legs := r.legs.map (fun e => (e.1, { e.2 with
      onHi := e.2.onHi - (r.fin : Int), onLo := e.2.onLo - (r.fin : Int),
      offHi := e.2.offHi - (r.fin : Int), offLo := e.2.offLo - (r.fin : Int), cntHi := false, cntLo := false }))
    let s1 := s0.setPw ch { r with c := r.c - r.fin, centred := false, legs := legs, edges := keep }
    let s2 := if due then s1.transfer ch else s1
    let L := 32 * s2.get p PWM_ACT_PER.per
    let s3 := (s2.setPw ch { s2.pw ch with len := L, fin := L, padHold := s2.padBlocked ch }).put p PWM_BLK.trip 0
    let s4 := s3.setPw ch { s3.pw ch with edges := s3.schedule ch keep, trk := false }
    (if r.trk then s4.trackNow ch else s4).tripAct ch

/-- GATE_EDGE (R127 to R131): the earliest scheduled edge whose PCLK cycle has come is launched. -/
def doGateEdge (ch : Nat) (s : State) : State :=
  let r := s.pw ch
  if 96 ≤ ch ∨ s.carrierRuns ch = false then s
  else s.launchBefore ch ((r.c : Int) + 32) 1

/-- TRIP_QUALIFIED (R138, R139): PCLK has sampled the trip input active on the last n edges, or samples it inactive; a trip that
qualifies acts. (DEDUCED, log 45) -/
def doTripQualified (ch : Nat) (active : Bool) (n : Nat) (s : State) : State :=
  if 96 ≤ ch then s
  else
    (s.setPw ch { s.pw ch with tripSince := if active then some (s.now + 1 - max n 1) else none }).tripAct ch

/-! Ports: the delay line and MCLK (R131, R142, R144). -/

/-- DLCAL_MEASURE (R131): the replica line's count; calibration is lost with event 5, or regained with event 15, on every
channel of the port. (DESIGN CHOICE, log 110) -/
def doDlcalMeasure (port count : Nat) (s : State) : State :=
  if 12 ≤ port then s
  else
    let p := pPort port
    let r := s.po port
    let n := satN 0xFFFF count
    let near := match r.prev with | some q => decide (n ≤ q + 4) && decide (q ≤ n + 4) | none => true
    let good := decide (40 ≤ n) && decide (n ≤ 120) && near
    let s1 := (s.put p PORT_DLCAL.code n).setPo port { r with prev := some n, ever := r.ever || good }
    if s.get p PORT_DLCAL.locked = 1 ∧ good = false then
      overAll (List.range 8) (s1.put p PORT_DLCAL.locked 0) (fun i u => u.evC (pPwm (8 * port + i)) 5)
    else if s.get p PORT_DLCAL.locked = 0 ∧ good = true then
      let s2 := s1.put p PORT_DLCAL.locked 1
      if r.ever then overAll (List.range 8) s2 (fun i u => u.ev (pPwm (8 * port + i)) 15) else s2
    else s1

/-- Periods that MCLK of a port has run (R147). -/
def State.mclkPeriods (s : State) (port : Nat) : Nat :=
  match (s.po port).mclk with
  | some t => (s.now - t) / (s.po port).div
  | none => 0

/-- The edge of the first sample instant of a port's MCLK at or after an edge (R142, R144). -/
def State.instantFrom (s : State) (port t : Nat) : Nat :=
  let r := s.po port
  match r.mclk with
  | some b => if t ≤ b then b else b + (t - b + r.div - 1) / r.div * r.div
  | none => t

/-- Start MCLK of a port, with the values of its word, with its first rising edge on an edge of PCLK. -/
def State.startMclk (s : State) (port at_ : Nat) : State :=
  let q := pPort port
  (s.setPo port { s.po port with mclk := some at_, div := s.get q PORT_MCLK.div, dly := s.get q PORT_MCLK.dly, stopping := false }).put
    q PORT_MCLK.run 1

/-- The gate outputs of a channel as a word: bit 2 k the high side of leg k, bit 2 k + 1 the low side. -/
def State.outBits (s : State) (ch : Nat) : Nat :=
  (List.range 8).foldl (fun n i => if s.gateOut ch (i / 2) (i % 2 == 0) then n + 2 ^ i else n) 0

/-- The outputs that the edge leaves: a change of any of them is an output edge, which starts blanking (R138). -/
def State.outSettle (s : State) : State :=
  overAll (s.pwm.map (fun e => e.1)) s (fun ch t =>
    if t.outBits ch = (t.pw ch).outs then t else t.setPw ch { t.pw ch with outs := t.outBits ch, outAt := some t.now })

/-- PORT_MCLK_WRITE (R142): refused and counted when it changes div, dly or align while en is 1, or for div outside 16 to 40;
else en starts, stops or resumes MCLK. -/
def doPortMclkWrite (port : Nat) (v : Word) (s : State) : State :=
  if 12 ≤ port then s
  else
    let p := pPort port
    let w := v.toNat
    let en := s.get p PORT_MCLK.en
    let same := fldGet w PORT_MCLK.div == s.get p PORT_MCLK.div && fldGet w PORT_MCLK.dly == s.get p PORT_MCLK.dly
      && fldGet w PORT_MCLK.align == s.get p PORT_MCLK.align
    if (en = 1 ∧ same = false) ∨ fldGet w PORT_MCLK.div < 16 ∨ 40 < fldGet w PORT_MCLK.div then s.evC p 1
    else
      let s1 := (((s.put p PORT_MCLK.en (fldGet w PORT_MCLK.en)).put p PORT_MCLK.align (fldGet w PORT_MCLK.align)).put
        p PORT_MCLK.div (fldGet w PORT_MCLK.div)).put p PORT_MCLK.dly (fldGet w PORT_MCLK.dly)
      let runs := s.get p PORT_MCLK.run = 1
      if fldGet w PORT_MCLK.en = 0 then (if runs then s1.setPo port { s1.po port with stopping := true } else s1)
      else if runs then (if same then s1.setPo port { s1.po port with stopping := false } else s1)
      else if fldGet w PORT_MCLK.align = 0 then s1.startMclk port (s.now + 1)
      else s1

/-- A Prism sample action at one channel (R144): the window opens, or the open is ignored with event 11. -/
def State.openWindow (s : State) (ch : Nat) : State :=
  let p := pPwm ch
  let port := ch / 8
  let q := pPort port
  let runs := s.get q PORT_MCLK.run = 1
  if s.get p PAGE_CTL.en = 0 then s
  else if s.get p PWM_SD_CFG.mode ≠ 1 ∨ (s.pw ch).win.isSome
      ∨ (¬ runs ∧ ¬ (s.get q PORT_MCLK.en = 1 ∧ s.get q PORT_MCLK.align = 1)) then s.ev p 11
  else
    let s1 := if runs then s else s.startMclk port s.now
    s1.setPw ch { s1.pw ch with win := some { k := s.get p PWM_SD_CFG.k, osr := s.get p PWM_SD_CFG.osr,
                                              inen := s.get p PWM_SD_CFG.inen
                                              warm := decide (256 ≤ s1.mclkPeriods port)
                                              first := s1.instantFrom port s.now } }

/-- SD_CFG_WRITE (R148, R155): refused with event 7 for mode 3, osr outside 32 to 256 or k outside 3 to 15. -/
def doSdCfgWrite (ch : Nat) (v : Word) (s : State) : State :=
  if 96 ≤ ch then s
  else
    let w := v.toNat
    let osr := fldGet w PWM_SD_CFG.osr
    let k := fldGet w PWM_SD_CFG.k
    if fldGet w PWM_SD_CFG.mode = 3 ∨ osr < 32 ∨ 256 < osr ∨ k < 3 then s.ev (pPwm ch) 7
    else
      let s1 := s.plainWrite iniBoot (pPwm ch + 0x28) w
      s1.setPw ch { s1.pw ch with cont := (if fldGet w PWM_SD_CFG.mode = 2 then some s.now else none), contN := 0 }

/-! The commands. -/

/-- The command PWM_CFG_WRITE (R118, R125, R133, R152). -/
def execPwmCfgWrite (ini ch : Nat) (v : Word) (s : State) : Out :=
  .next (s.writeWord ini (pPwm ch + 0x10) v (doPwmCfgWrite ini ch v))

/-- The command SHADOW_WRITE (R121, R132, R135, R137). -/
def execShadowWrite (ini ch off : Nat) (v : Word) (s : State) : Out :=
  .next (s.writeWord ini (pPwm ch + off) v (doShadowWrite ini ch off v))

/-- The command PWM_COMMIT_START (R122). -/
def execPwmCommitStart (ch : Nat) (s : State) : Out := .next (s.writeWord 0 (pPwm ch + 0x18) 4 (doPwmCommitStart ch))

/-- The command PWM_COMMIT_STOP (R124). -/
def execPwmCommitStop (ch : Nat) (s : State) : Out := .next (s.writeWord 0 (pPwm ch + 0x18) 2 (doPwmCommitStop ch))

/-- The command PWM_COMMIT_GO (R133). -/
def execPwmCommitGo (ch : Nat) (s : State) : Out := .next (s.writeWord 0 (pPwm ch + 0x18) 1 (doPwmCommitGo ch))

/-- The command CARRIER_CENTRE (R120, R133). -/
def execCarrierCentre (ch : Nat) (s : State) : Out := .next (doCarrierCentre ch s)

/-- The command GATE_EDGE (R127 to R130). -/
def execGateEdge (ch : Nat) (s : State) : Out := .next (doGateEdge ch s)

/-- The command TRIP_QUALIFIED (R138, R139). -/
def execTripQualified (ch : TripSample) (s : State) : Out := .next (s.clocked (pPwm ch.ch) (doTripQualified ch.ch ch.active ch.n))

/-- The command DLCAL_MEASURE (R131). -/
def execDlcalMeasure (port count : Nat) (s : State) : Out := .next (s.clocked (pPort port) (doDlcalMeasure port count))

/-- The command PORT_MCLK_WRITE (R142). -/
def execPortMclkWrite (port : Nat) (v : Word) (s : State) : Out :=
  .next (s.writeWord 0 (pPort port + 0x10) v (doPortMclkWrite port v))

/-- The command SD_CFG_WRITE (R148, R155). -/
def execSdCfgWrite (ch : Nat) (v : Word) (s : State) : Out := .next (s.writeWord 0 (pPwm ch + 0x28) v (doSdCfgWrite ch v))

end Sys2Proof.Machine
end

