-- ==== Sys2Proof/Machine/Fbk.lean ====
section
/-! DEFINITION. Position and speed feedback (R192 to R227): the decoder and its count, loads, the index, sin/cos samples,
serial frames, speed, compare, latches and their sets, the envelope, encoder emulation and the encoder supply. -/

namespace Sys2Proof.Machine

/-- The feedback record of a channel. -/
def State.fb (s : State) (ch : Nat) : FbkSt := Tab.rd s.fbk ch

/-- Write the feedback record of a channel. -/
def State.setFb (s : State) (ch : Nat) (r : FbkSt) : State := { s with fbk := Tab.wr s.fbk ch r }

/-- The mode of an enabled page, 0 for a disabled one and for one whose clock is gated (R503). -/
def State.fbkMode (s : State) (ch : Nat) : Nat :=
  if s.get (pFbk ch) PAGE_CTL.en = 1 ∧ s.get (pFbk ch) PAGE_CTL.gate_ack = 0 then s.get (pFbk ch) FBK_CFG.mode else 0

/-- Counts per turn: cpt in mode 1, four per period in mode 2 (R199, R205). -/
def State.fbkK (s : State) (ch : Nat) : Nat :=
  if s.get (pFbk ch) FBK_CFG.mode = 2 then 4 * s.get (pFbk ch) FBK_CPT.cpt else s.get (pFbk ch) FBK_CPT.cpt

/-- The P72 position of a count (R199). -/
def countPos (K n : Int) : Int := n / K * 2 ^ 36 + n % K * 2 ^ 36 / K

/-- The live position in 2^-36 turn (R200, R201). -/
def State.fbkPos (s : State) (ch : Nat) : Int := (s.fb ch).raw + (s.fb ch).offs

/-- Set unc (R197, R198, R206, R210, R226). -/
def State.setUnc (s : State) (ch : Nat) : State :=
  (s.setFb ch { s.fb ch with uncAt := some s.now }).put (pFbk ch) FBK_BLK.unc 1

/-! Speed (R218, R219). -/

/-- The instant of the n-th edge before the last. -/
def FbkSt.edgeAt (r : FbkSt) (n : Nat) : Nat := r.edges.getD n 0

/-- The speed estimate of modes 1 and 2 at an instant of cell time, in rev/s. -/
def FbkSt.speedAt (r : FbkSt) (K tz t key : Nat) : Rat :=
  let tl := r.edgeAt 0
  let ts : Nat := t - tl
  if r.iv = 0 ∨ r.edges = [] ∨ tz * 64000 < ts ∨ key ≠ r.key then 0
  else
    let dt : Nat := tl - r.edgeAt r.iv
    let v : Rat := (r.dir : Rat) * (r.iv : Rat) * 64000000000 / ((K : Rat) * (dt : Rat))
    if dt < ts * r.iv then (r.dir : Rat) * minR (absR v) (64000000000 / ((K : Rat) * (ts : Rat))) else v

/-- The speed estimate of modes 3 and 4: the last two good positions over their times of validity. -/
def FbkSt.frameSpeed (r : FbkSt) (key : Nat) : Rat :=
  match r.goods with
  | a :: b :: _ =>
    if a.2.2 = b.2.2 ∧ a.2.2 = key then ((a.1 - b.1 : Int) : Rat) / 2 ^ 36 * 64000000000 / ((a.2.1 : Rat) - (b.2.1 : Rat)) else 0
  | _ => 0

/-- The speed estimate of a page at an instant of cell time, S20.16 rev/s. -/
def State.fbkSpeed (s : State) (ch t key : Nat) : Int :=
  let m := s.fbkMode ch
  if m = 1 ∨ m = 2 then
    roundNear ((s.fb ch).speedAt (s.fbkK ch) (s.get (pFbk ch) FBK_SPD_CFG.tz) t key * 2 ^ 16)
  else if m = 3 ∨ m = 4 then roundNear ((s.fb ch).frameSpeed key * 2 ^ 16)
  else 0

/-- Enter an edge into the interval history (R218). -/
def State.speedEdge (s : State) (ch t : Nat) (dn : Int) : State :=
  let p := pFbk ch
  let r := s.fb ch
  let key := s.ctKey
  let discard := r.edges.isEmpty || dn != r.dir || decide (s.get p FBK_SPD_CFG.tz * 64000 < t - r.edgeAt 0) || r.broken
    || key != r.key
  let n := if discard then 0 else min (r.iv + 1) (s.get p FBK_SPD_CFG.m)
  let s1 := s.setFb ch { r with edges := t :: r.edges.take 32, iv := n, dir := dn, key := key, broken := false }
  if discard then s1 else s1.put p FBK_BLK.shist 1

/-! Emulation (R223, R224). -/

/-- The target count of an emulating page. (DESIGN CHOICE, log 52) -/
def State.emuTarget (s : State) (e : Nat) : Int :=
  let p := pFbk e
  let x := s.fbkPos (s.get p FBK_EMU.src)
  let cpt : Int := (s.get p FBK_EMU_CPT.cpt : Int)
  let t := x % 2 ^ 36 * cpt / 2 ^ 36 + cpt * (x / 2 ^ 36)
  if s.get p FBK_EMU.inv = 1 then -t else t

/-- Do the outputs of an emulating page hold: its source in mode 0 or 5, without phist, or with unc? -/
def State.emuHeld (s : State) (e : Nat) : Bool :=
  let src := s.get (pFbk e) FBK_EMU.src
  let m := s.fbkMode src
  m == 0 || m == 5 || s.get (pFbk src) FBK_BLK.phist == 0 || s.get (pFbk src) FBK_BLK.unc == 1

/-- Show the lag of an emulating page, and record event 11 when it comes to exceed 16 counts. -/
def State.emuLag (s : State) (e : Nat) : State :=
  let p := pFbk e
  let lag := (s.emuTarget e - (s.fb e).out).natAbs
  let s1 := s.put p FBK_EMU_ST.lag (satN 0xFFFF lag)
  if 16 < lag ∧ s1.get p FBK_EMU_ST.behind = 0 then (s1.put p FBK_EMU_ST.behind 1).ev p 11
  else if lag = 0 then s1.put p FBK_EMU_ST.behind 0
  else s1

/-- The pages that emulate a source take its new position. -/
def State.emuRefresh (s : State) (src : Nat) : State :=
  overAll (List.range 96) s (fun e u =>
    if u.get (pFbk e) FBK_EMU.src = src ∧ u.fbkMode e = 5 then u.emuLag e else u)

/-- A compare match drives the Z outputs of the pages that emulate the channel with zsel 2. -/
def State.emuMatch (s : State) (src : Nat) : State :=
  overAll (List.range 96) s (fun e u =>
    if u.get (pFbk e) FBK_EMU.src = src ∧ u.fbkMode e = 5 ∧ u.get (pFbk e) FBK_EMU.zsel = 2 then
      u.setFb e { u.fb e with zPulse := true }
    else u)

/-! Compare (R221, R222). -/

/-- The compare target. -/
def State.cmpTarget (s : State) (ch : Nat) : Int := p72 (s.get (pFbk ch) FBK_CMP_HI.p) (s.get (pFbk ch) FBK_CMP_LO.p)

/-- The compare step. -/
def State.cmpStep (s : State) (ch : Nat) : Int := p72 (s.get (pFbk ch) FBK_CMP_SHI.p) (s.get (pFbk ch) FBK_CMP_SLO.p)

/-- Does the match direction rise? -/
def State.cmpUp (s : State) (ch : Nat) : Bool :=
  decide (0 < s.cmpStep ch) || (s.cmpStep ch == 0 && s.get (pFbk ch) FBK_CMP_CTL.dneg == 0)

/-- Does a move from `old` to `new` pass the target in the match direction? -/
def State.cmpPasses (s : State) (ch : Nat) (old new : Int) : Bool :=
  let t := s.cmpTarget ch
  if s.cmpUp ch then decide (old < t) && decide (t ≤ new) else decide (new ≤ t) && decide (t < old)

/-- Put the compare target. -/
def State.putTarget (s : State) (ch : Nat) (t : Int) : State :=
  (s.put (pFbk ch) FBK_CMP_HI.p (p72Hi t)).put (pFbk ch) FBK_CMP_LO.p (p72Lo t)

/-- Targets at or before a position that a move has passed, from the present target on. -/
def State.cmpCount (s : State) (ch : Nat) (new : Int) : Nat :=
  let t := s.cmpTarget ch
  let st := s.cmpStep ch
  if st = 0 then 1
  else if 0 < st then (if t ≤ new then ((new - t) / st + 1).toNat else 0)
  else (if new ≤ t then ((t - new) / (-st) + 1).toNat else 0)

/-- Advance over targets without a match: they are counted, with event 10 (R222). -/
def State.cmpSkip (s : State) (ch : Nat) (new : Int) : State :=
  let k := s.cmpCount ch new
  if k = 0 then s
  else
    let p := pFbk ch
    ((s.putTarget ch (s.cmpTarget ch + (k : Int) * s.cmpStep ch)).put p FBK_CMP_STAT.skip
      (s.get p FBK_CMP_STAT.skip + k)).ev p 10

/-- A count edge or a good frame moves the position: a match where it passes the target, then the further targets (R221). -/
def State.cmpMove (s : State) (ch : Nat) (old new : Int) (t : Nat) : State :=
  let p := pFbk ch
  if s.get p FBK_CMP_CTL.en = 1 ∧ s.cmpPasses ch old new = true then
    let st := s.cmpStep ch
    let c := s.get p FBK_CMP_CTL.cnt
    let s1 := ((s.put p FBK_CMP_THI.t (t72Hi t)).put p FBK_CMP_TLO.t (t72Lo t)).incMod p FBK_CMP_STAT.match
    let s2 := (s1.ev p 9).putTarget ch (s.cmpTarget ch + st)
    let s3 := if c = 0 then s2 else s2.put p FBK_CMP_CTL.cnt (c - 1)
    let s4 := if c = 1 ∨ st = 0 then s3.put p FBK_CMP_CTL.en 0 else s3.cmpSkip ch new
    if s.get p FBK_CMP_CTL.out = 1 then s4.emuMatch ch else s4
  else s

/-- A load or a snap moves the position without a match (R222). (DEDUCED, log 49) -/
def State.cmpLoad (s : State) (ch : Nat) (old new : Int) : State :=
  if s.get (pFbk ch) FBK_CMP_CTL.en = 1 ∧ s.cmpPasses ch old new = true then s.cmpSkip ch new else s

/-- The position before the count edge of this PCLK edge that waits for its compare, else the present one. -/
def State.cmpOld (s : State) (ch : Nat) : Int := match (s.fb ch).cmp with
  | some x => x.1
  | none => s.fbkPos ch

/-- The compare of a PCLK edge, after its count edges and its index (R217, R221, R222): a match where the count passed the target and
the index did not take it back; what the snap alone passes is advanced over. (DEDUCED, log 49) -/
def State.cmpSettle (s : State) (ch : Nat) : State :=
  match (s.fb ch).cmp with
  | none => s
  | some (old, p1, t) =>
    let s1 := s.setFb ch { s.fb ch with cmp := none }
    if s.cmpPasses ch old p1 && s.cmpPasses ch old (s.fbkPos ch) then s1.cmpMove ch old (s.fbkPos ch) t
    else s1.cmpLoad ch old (s.fbkPos ch)

/-- A latch of the edge that ends takes the count and the flags as all actions of the edge have left them (R212, R217); a latch of mode 2
without phist takes the position. (DEDUCED, log 49) -/
def State.settleLatch (s : State) (ch : Nat) (q : PendLatch) : PendLatch :=
  let p := pFbk ch
  let r := s.fb ch
  if q.at_ = s.now then
    { q with cnt := r.n, phist := s.flag p FBK_BLK.phist, shist := s.flag p FBK_BLK.shist, unc := s.flag p FBK_BLK.unc,
             ref := s.flag p FBK_BLK.ref, load := r.loadAt, pos := if q.fresh then q.pos else some (s.fbkPos ch) }
  else q

/-- The latches of the edge that ends, after its other actions (R217). -/
def State.latchSettle (s : State) (ch : Nat) : State :=
  if (s.fb ch).pend.any (fun q => q.at_ == s.now) then s.setFb ch { s.fb ch with pend := (s.fb ch).pend.map (s.settleLatch ch) } else s

/-- The compares and the latches of the edge that ends (R217). -/
def State.fbkSettle (s : State) : State :=
  overAll ((s.fbk.filter (fun e => e.2.cmp.isSome || !e.2.pend.isEmpty)).map (fun e => e.1)) s (fun ch t => (t.cmpSettle ch).latchSettle ch)

/-! The count (R195 to R199). -/

/-- Put the count, with the position that follows from it. -/
def State.putCount (s : State) (ch : Nat) (n : Int) : State :=
  s.setFb ch { s.fb ch with n := n, raw := countPos (s.fbkK ch : Int) n }

/-- A count moved by one edge, and whether its whole turns saturated at the S36 limits (R199). -/
def countStep (K n : Int) : Int × Bool :=
  if 2 ^ 35 ≤ n / K then (n - K, true) else if n / K < -(2 ^ 35) then (n + K, true) else (n, false)

/-- Count one edge: whole turns saturate at the S36 limits, with unc (R199). -/
def State.countBy (s : State) (ch : Nat) (dn : Int) : State :=
  let c := countStep (s.fbkK ch : Int) ((s.fb ch).n + dn)
  if c.2 then (s.putCount ch c.1).setUnc ch else s.putCount ch c.1

/-- The number of a decoder state: 1 for (0, 0), 2 for (1, 0), 3 for (1, 1), 4 for (0, 1). -/
def stateNum (ab : Bool × Bool) : Nat :=
  match ab with
  | (false, false) => 1
  | (true, false) => 2
  | (true, true) => 3
  | (false, true) => 4

/-- The filter's delay on a page: filt + 2 PCLK cycles (R195). -/
def State.fbkDelay (s : State) (ch : Nat) : Nat := s.get (pFbk ch) FBK_CFG.filt + 2

/-- The corrected time of an edge seen now, in 1/64 ns of cell time. -/
def State.corrected (s : State) (ch : Nat) : Nat := s.t64 4 - 160 * s.fbkDelay ch

/-- Fix the latches whose edge lies before the corrected edge `e`: their speeds take no later edge (R212). -/
def State.fixLatches (s : State) (ch : Nat) (e : Int) : State :=
  let r := s.fb ch
  s.setFb ch { r with pend := r.pend.map (fun q =>
    if (q.at_ : Int) < e ∧ q.spd = none then { q with spd := some (s.fbkSpeed ch q.t64 q.key) } else q) }

/-- Does an edge of corrected time `e` lie before a load (R201)? -/
def beforeLoad (load : Option Nat) (e : Int) : Bool :=
  match load with
  | some l => decide (e < (l : Int))
  | none => false

/-- A count edge whose corrected time `e` lies at or before the edge of a latch counts in it, whatever loads follow (R212); one from
before a load that the latch holds does not (R201). (DEDUCED, log 50) -/
def State.latchCount (s : State) (ch : Nat) (e dn : Int) : State :=
  let r := s.fb ch
  s.setFb ch { r with pend := r.pend.map (fun q =>
    if decide (e ≤ (q.at_ : Int)) && !beforeLoad q.load e then { q with cnt := (countStep (s.fbkK ch : Int) (q.cnt + dn)).1 } else q) }

/-- An illegal transition (R197). -/
def State.illegalEdge (s : State) (ch : Nat) : State :=
  ((s.setFb ch { s.fb ch with broken := true, iv := 0 }).setUnc ch).evC (pFbk ch) 1

/-- Does the corrected time `e` of an edge lie before the last load (R201)? -/
def FbkSt.late (r : FbkSt) (e : Int) : Bool := beforeLoad r.loadAt e

/-- An edge from before the last load leaves the loaded position (R201): in mode 1 it does not count; in mode 2 the decoder counts it, and
where the position stood at the count, the offset takes it back; the offset to a sampled position stands. (DEDUCED, log 49) -/
def State.lateEdge (s : State) (ch : Nat) (dn : Int) : State :=
  if s.fbkMode ch = 2 then
    let r := s.fb ch
    let s1 := s.countBy ch dn
    if r.raw = countPos (s.fbkK ch : Int) r.n then s1.setFb ch { s1.fb ch with offs := s.fbkPos ch - (s1.fb ch).raw }
    else s1.setFb ch { s1.fb ch with raw := r.raw }
  else s

/-- A count edge in one direction: the count and the speed history (R196, R218). Its compare waits for the index of the same PCLK
edge (R217, R221). -/
def State.countMove (s : State) (ch : Nat) (dn : Int) : State :=
  let t := s.corrected ch
  let e : Int := (s.now : Int) - (s.fbkDelay ch : Int)
  let s0 := s.latchCount ch e dn
  let s1 := if (s.fb ch).late e then s0.lateEdge ch dn else s0.countBy ch dn
  let s2 := s1.speedEdge ch t dn
  (s2.setFb ch { s2.fb ch with cmp := some (s.cmpOld ch, s2.fbkPos ch, t) }).emuRefresh ch

/-- The filtered pair (R198): the level of a faulted line holds its last value. -/
def FbkSt.heldPair (r : FbkSt) (a b : Bool) : Bool × Bool :=
  match r.ab with
  | none => (a, b)
  | some o => (if r.faults.contains 0 then o.1 else a, if r.faults.contains 1 then o.2 else b)

/-- COUNT_EDGE (R195 to R199): the filtered pair becomes (a, b), but for lines that are faulted. The first pair of a page gives its state
and phist (R194). -/
def doCountEdge (ch : Nat) (a0 b0 : Bool) (s : State) : State :=
  let m := s.fbkMode ch
  let a := ((s.fb ch).heldPair a0 b0).1
  let b := ((s.fb ch).heldPair a0 b0).2
  if 96 ≤ ch ∨ ¬ (m = 1 ∨ m = 2) then s
  else
    let s0 := s.fixLatches ch ((s.now : Int) - (s.fbkDelay ch : Int))
    match (s0.fb ch).ab with
    | none => (s0.setFb ch { s0.fb ch with ab := some (a, b) }).put (pFbk ch) FBK_BLK.phist 1
    | some o =>
      let s1 := s0.setFb ch { s0.fb ch with ab := some (a, b) }
      if o = (a, b) then s0
      else if o.1 ≠ a ∧ o.2 ≠ b then s1.illegalEdge ch
      else
        let up := (stateNum (a, b) + 4 - stateNum o) % 4 == 1
        s1.countMove ch (if up == (s.get (pFbk ch) FBK_CFG.dir == 0) then 1 else -1)

/-- Is a pair of a mode a used input (R192, R198)? -/
def usedInput (mode line : Nat) : Bool :=
  if mode = 1 ∨ mode = 2 then decide (line < 3) else if mode = 3 ∨ mode = 4 then line == 1 else false

/-- LINE_FAULT (R198): a used input pair comes to be open or shorted while lfen is 1, which holds its filtered level, or a faulted pair is
sound again (`bad` false). (DEDUCED, log 50) -/
def doLineFault (ch line : Nat) (bad : Bool) (s : State) : State :=
  let r := s.fb ch
  if ch < 96 ∧ s.get (pFbk ch) FBK_CFG.lfen = 1 ∧ usedInput (s.fbkMode ch) line = true then
    if bad = false then s.setFb ch { r with faults := r.faults.filter (fun l => l != line) }
    else if r.faults.contains line then s
    else ((s.setFb ch { r with faults := line :: r.faults }).setUnc ch).evC (pFbk ch) 4
  else s

/-- The largest count whose fraction does not exceed a written fraction (R201). -/
def countOf (K f : Int) : Int := ((f + 1) * K + 2 ^ 36 - 1) / 2 ^ 36 - 1

/-- Load the position (R201, R264): the count in mode 1, the offset in the other modes; ref sets. A load comes before the count edges and
the compare of its PCLK edge (R217). -/
def State.loadPos (s0 : State) (ch : Nat) (x : Int) : State :=
  let old := s0.cmpOld ch
  let s := s0.setFb ch { s0.fb ch with cmp := none }
  let m := s.fbkMode ch
  let s1 := if m = 1 then s.putCount ch (x / 2 ^ 36 * (s.fbkK ch : Int) + countOf (s.fbkK ch : Int) (x % 2 ^ 36))
    else s.setFb ch { s.fb ch with offs := x - (s.fb ch).raw }
  let s2 := (s1.setFb ch { s1.fb ch with loadAt := some s.now }).put (pFbk ch) FBK_BLK.ref 1
  (s2.cmpLoad ch old (s2.fbkPos ch)).emuRefresh ch

/-- FBK_LOAD (R201): the position takes FBK_POS_SET in modes 1 to 4. (DEDUCED, log 49) -/
def doFbkLoad (ch : Nat) (s : State) : State :=
  if ch < 96 ∧ inRange (s.fbkMode ch) 1 4 = true then
    s.loadPos ch (p72 (s.get (pFbk ch) FBK_POS_SET_HI.p) (s.get (pFbk ch) FBK_POS_SET_LO.p))
  else s

/-- FBK_CLRUNC (R201, R217): unc clears, unless an event sets it on the same edge. -/
def doFbkClrunc (ch : Nat) (s : State) : State :=
  if ch < 96 ∧ (s.fb ch).uncAt ≠ some s.now then s.put (pFbk ch) FBK_BLK.unc 0 else s

/-- FBK_POS_READ (R200): a core reads FBK_POS_HI, and FBK_POS_LO is held for it. -/
def doFbkPosRead (core ch : Nat) (s : State) : State :=
  if 96 ≤ ch then s
  else
    let x := s.fbkPos ch
    let s1 := { s with rdata := word (p72Hi x) }
    if core < 64 then s1.holdSet core 1 (pFbk ch) [word (p72Lo x)] else s1

/-! Index (R202, R203). -/

/-- The wrapped difference of a count to the expected one, in (-K/2, K/2]. -/
def wrapDiff (K q e : Int) : Int := if K < 2 * ((q - e) % K) then (q - e) % K - K else (q - e) % K

/-- Move the count by -d (R203), with the saturation of R199. The compare of a count edge on the same PCLK edge comes after it (R217).
(DEDUCED, log 49) -/
def State.snapCount (s : State) (ch : Nat) (d : Int) : State :=
  let s1 := s.countBy ch (-d)
  (if (s.fb ch).cmp.isSome then s1 else s1.cmpLoad ch (s.fbkPos ch) (s1.fbkPos ch)).emuRefresh ch

/-- What the index does under the policy (R203, R217): snap unless a load fell on the same edge; a snap that saturates leaves unc set
(R199). (DEDUCED, log 49) -/
def State.indexPolicy (s : State) (ch : Nat) (d : Int) : State :=
  let p := pFbk ch
  let ref := s.get p FBK_BLK.ref
  let tol : Int := (s.get p FBK_IDX_CFG.tol : Int)
  let off := decide (tol < d) || decide (d < -tol)
  let snap := fun (u : State) => if (s.fb ch).loadAt = some s.now then u.put p FBK_BLK.unc 0 else (u.put p FBK_BLK.unc 0).snapCount ch d
  if s.get p FBK_IDX_CFG.policy = 0 then (if ref = 1 ∧ off = true then s.evC p 3 else s)
  else if ref = 0 then (snap s).put p FBK_BLK.ref 1
  else if off then (snap s).evC p 3
  else s.put p FBK_BLK.unc 0

/-- Does an index qualify (R198, R202): zen, the decoder state of zgate, no index yet in this pass of Z, and no fault of the line? -/
def State.indexQualifies (s : State) (ch : Nat) : Bool :=
  let p := pFbk ch
  let m := s.fbkMode ch
  let g := s.get p FBK_IDX_CFG.zgate
  (m == 1 || m == 2) && s.get p FBK_IDX_CFG.zen == 1 && !(s.fb ch).zq && !(s.fb ch).faults.contains 2
    && (g == 0 || (match (s.fb ch).ab with | some ab => stateNum ab == g | none => false))

/-- INDEX (R202, R203): a qualified index is recorded and acts under the policy. -/
def State.indexEdge (s : State) (ch : Nat) : State :=
  let p := pFbk ch
  let K : Int := (s.fbkK ch : Int)
  let q := (s.fb ch).n % K
  let d := wrapDiff K q (s.get p FBK_IDX_EXP.exp : Int)
  let t := s.corrected ch
  let s1 := (s.setFb ch { s.fb ch with zq := true }).put p FBK_IDX_ACT.act q.toNat
  let s2 := ((s1.putI p FBK_IDX_ERR.d d).put p FBK_IDX_THI.t (t72Hi t)).put p FBK_IDX_TLO.t (t72Lo t)
  let s3 := (s2.ev p 2).indexPolicy ch d
  (s3.put p FBK_IDX_PHI.p (p72Hi (s3.fbkPos ch))).put p FBK_IDX_PLO.p (p72Lo (s3.fbkPos ch))

/-- Z_FALL (R198, R202): the qualification of the index ends; a faulted line holds its level. -/
def doZFall (ch : Nat) (s : State) : State :=
  if ch < 96 ∧ (s.fb ch).faults.contains 2 = false then s.setFb ch { s.fb ch with zq := false } else s

/-! Sin/cos samples (R204 to R206). -/

/-- The corrected sin and cos of a sample (R204). -/
def State.scValues (s : State) (ch : Nat) (sn cs : Int) : Rat × Rat :=
  let p := pFbk ch
  (((sn - s.getI p FBK_SC_OFF.soff : Int) : Rat) / 2 ^ 15,
    ((cs - s.getI p FBK_SC_OFF.coff : Int) : Rat) / 2 ^ 15 * ((s.get p FBK_SC_GAIN.cgain : Rat) / 2 ^ 16))

/-- The squared amplitude in U2.16 (R206). -/
def scA2 (v : Rat × Rat) : Nat := (clampI 0 (2 ^ 18 - 1) (nearInt ((v.1 * v.1 + v.2 * v.2) * 2 ^ 16))).toNat

/-- The difference of the quadrants wrapped into -1 to 2 (R205). (DEDUCED, log 50) -/
def quadDiff (qf n : Int) : Int := (qf - n % 4 + 1) % 4 - 1

/-- Give a sample's position to the latch whose edge it was taken on (R204); a monitor sample gives it to none. -/
def giveSample (l : List PendLatch) (now : Nat) (pos : Int) (a2 : Nat) (fresh : Bool) : List PendLatch :=
  l.map (fun q => if q.at_ = now ∧ q.pos.isNone = true then { q with pos := some pos, a2 := some a2, fresh := fresh } else q)

/-- The position of a sample (R205): taken with the count corrected by one at most; a difference of 2 is an illegal
transition, and the position stays. -/
def State.scPosition (s : State) (ch : Nat) (phi a2 : Nat) : State :=
  let r := s.fb ch
  let qf : Int := (phi / 2 ^ 16 : Nat)
  let d := quadDiff qf r.n
  if d = 2 then
    let s1 := s.illegalEdge ch
    s1.setFb ch { s1.fb ch with pend := giveSample r.pend s.now (s.fbkPos ch) a2 false }
  else
    let periods := (r.n + d - qf) / 4
    let raw := (periods * 2 ^ 18 + (phi : Int)) * 2 ^ 18 / (s.get (pFbk ch) FBK_CPT.cpt : Int)
    (s.setFb ch { r with raw := raw, pend := giveSample r.pend s.now (raw + r.offs) a2 true }).emuRefresh ch

/-- SINCOS_SAMPLE (R204 to R206): a sample of sin and cos in mode 2: on the edge of a latch it is that latch's, else a monitor sample.
(DEDUCED, log 50) -/
def doSincosSample (ch : Nat) (sn cs : Int) (s : State) : State :=
  let p := pFbk ch
  if 96 ≤ ch ∨ s.fbkMode ch ≠ 2 then s
  else
    let v := s.scValues ch sn cs
    let a2 := scA2 v
    let phi := atan2Turn v.1 v.2
    let s1 := (s.put p FBK_SC_MEAS.a2 a2).put p FBK_SC_MEAS.phi phi
    let s2 := if a2 < s.get p FBK_SC_AMP.lo ∨ s.get p FBK_SC_AMP.hi < a2 then
        ((s1.setFb ch { s1.fb ch with amp := true }).setUnc ch).evC p 5
      else s1
    if s.get p FBK_BLK.phist = 1 then s2.scPosition ch phi a2 else s2

/-! Serial frames (R207 to R211). -/

/-- A list of bits, most significant first, as a number. -/
def bitsNat (l : List Bool) : Nat := l.foldl (fun n b => 2 * n + b2n b) 0

/-- Gray code to binary, most significant first. -/
def grayBits (l : List Bool) (prev : Bool) : List Bool :=
  match l with
  | [] => []
  | b :: r => (b != prev) :: grayBits r (b != prev)

/-- One bit into the CRC with the polynomial x⁶ + x + 1 (R209). -/
def crcBit (c : Nat) (b : Bool) : Nat := if (c / 32 == 1) != b then (c * 2 % 64) ^^^ 3 else c * 2 % 64

/-- Does the CRC of a slave match: over its data, nE and nW from 0, sent inverted (R209)? (PRESUMED, log 106) -/
def BissSlave.crcOk (x : BissSlave) : Bool := x.crc == 63 - (x.bits ++ [x.nE, x.nW]).foldl crcBit 0

/-- Did the start bit arrive within tmo clock periods (R209)? -/
def SerialFrame.started (f : SerialFrame) (tmo : Nat) : Bool :=
  match f.start with
  | some n => decide (n ≤ tmo)
  | none => false

/-- The position bits of a frame: its own in mode 3, those of slave 0 in mode 4 (R207, R209). -/
def SerialFrame.posBits (f : SerialFrame) (mode : Nat) : List Bool := if mode = 3 then f.bits else (f.slaves.headD {}).bits

/-- Why a frame is bad, 0 for a good one (R208 to R210). -/
def frameCause (mode tmo : Nat) (f : SerialFrame) : Nat :=
  if mode = 3 then (if !f.idleHigh then 1 else if f.errBits.any id then 4 else 0)
  else if !f.started tmo then 2
  else if f.slaves.any (fun x => !x.crcOk) then 3
  else if (f.slaves.headD {}).nE then 0 else 4

/-- The slave bits of FBK_SER_STAT (R230). -/
def slaveBits (l : List BissSlave) : Nat :=
  match l with
  | [] => 0
  | x :: r => b2n (!x.nE) + 2 * b2n (!x.nW) + 4 * b2n (!x.crcOk) + 8 * slaveBits r

/-- The length of the data of a slave (R209). -/
def State.slaveLen (s : State) (ch k : Nat) : Nat :=
  let p := pFbk ch
  if k = 0 then s.get p FBK_SER_CFG.mt + s.get p FBK_SER_CFG.st
  else if k = 1 then s.get p FBK_BISS_LEN.len1
  else if k = 2 then s.get p FBK_BISS_LEN.len2
  else s.get p FBK_BISS_LEN.len3

/-- Has a frame the form that the page clocks (R207 to R209): the position and the error bits of mode 3; of mode 4 the configured number
of slaves with data of the configured lengths, or no start bit in time? -/
def State.frameFits (s : State) (ch : Nat) (f : SerialFrame) : Bool :=
  let p := pFbk ch
  if s.fbkMode ch = 3 then f.bits.length == s.slaveLen ch 0 && f.errBits.length == s.get p FBK_SER_CFG.eb
  else !f.started (s.get p FBK_SER_TIM.tmo) || (f.slaves.map (fun x => x.bits.length)
    == (List.range (s.get p FBK_SER_CFG.nsl + 1)).map (fun k => s.slaveLen ch k))

/-- The position bits of a frame in binary (R207). -/
def State.frameBits (s : State) (ch : Nat) (f : SerialFrame) : List Bool :=
  let p := pFbk ch
  let l := f.posBits (s.get p FBK_CFG.mode)
  if s.get p FBK_CFG.mode = 3 ∧ s.get p FBK_SER_CFG.gray = 1 then grayBits l false else l

/-- The raw position of a good frame (R207): with mt = 0 the page counts the turns itself. (DESIGN CHOICE, log 51) -/
def State.framePos (s : State) (ch : Nat) (f : SerialFrame) : Int :=
  let p := pFbk ch
  let r := s.fb ch
  let st := s.get p FBK_SER_CFG.st
  let mt := s.get p FBK_SER_CFG.mt
  let v := bitsNat (s.frameBits ch f)
  let fr : Nat := v % 2 ^ st * 2 ^ (36 - st)
  let neg := s.get p FBK_CFG.dir = 1
  let x : Int :=
    if mt = 0 then
      let t : Int := (if neg then -r.raw else r.raw) / 2 ^ 36
      match r.frac with
      | none => (fr : Int)
      | some o => (if o + 2 ^ 35 < fr then t - 1 else if fr + 2 ^ 35 < o then t + 1 else t) * 2 ^ 36 + (fr : Int)
    else sint mt (v / 2 ^ st) * 2 ^ 36 + (fr : Int)
  if neg then -x else x

/-- A good frame (R210, R219, R221). -/
def State.goodFrame (s : State) (ch : Nat) (f : SerialFrame) (q : PendLatch) (rest : List PendLatch) : State :=
  let p := pFbk ch
  let r := s.fb ch
  let old := s.fbkPos ch
  let raw := s.framePos ch f
  let st := s.get p FBK_SER_CFG.st
  let fr := bitsNat (s.frameBits ch f) % 2 ^ st * 2 ^ (36 - st)
  let first := s.get p FBK_BLK.phist = 0
  let s1 := s.setFb ch { r with
    raw := raw, frac := some fr, vt := q.t64, vk := q.key, bads := 0, goods := (raw, q.t64, q.key) :: r.goods.take 1,
    pend := { q with ended := true, ready := s.now + 3, pos := some (raw + r.offs) } :: rest }
  let s2 := (s1.put p FBK_BLK.phist 1).put p FBK_BLK.unc 0
  let s3 := if 0 < s.get p FBK_SER_CFG.mt ∧ first then s2.put p FBK_BLK.ref 1 else s2
  let s4 := if r.goods = [] then s3 else s3.put p FBK_BLK.shist 1
  let s5 := overAll (List.range 3) s4 (fun k u =>
    if k + 1 < f.slaves.length then u.put p (FBK_BISS_D.d k) (bitsNat ((f.slaves.getD (k + 1) {}).bits)) else u)
  (s5.cmpMove ch old (raw + r.offs) q.t64).emuRefresh ch

/-- A bad frame (R210): the position and its time of validity stay. -/
def State.badFrame (s : State) (ch cause : Nat) (q : PendLatch) (rest : List PendLatch) : State :=
  let p := pFbk ch
  let r := s.fb ch
  let s1 := s.setFb ch { r with
    bads := r.bads + 1, goods := [],
    pend := { q with ended := true, ready := s.now + 3, pos := some (s.fbkPos ch), fresh := false, t64 := r.vt, key := r.vk } :: rest }
  let s2 := ((s1.put p FBK_SER_STAT.cause cause).incMod p FBK_SER_STAT.err).evC p 6
  if r.bads = 2 then
    let s3 := s2.setUnc ch
    if s.get p FBK_SER_CFG.mt = 0 then s3.put p FBK_BLK.ref 0 else s3
  else s2

/-- A register access ends with a frame (R211). (DESIGN CHOICE, log 51) -/
def State.bissEnd (s : State) (ch : Nat) (e : Option (Bool × Nat)) : State :=
  let p := pFbk ch
  match e with
  | none => s
  | some x =>
    if (s.fb ch).biss then
      let s1 := ((s.setFb ch { s.fb ch with biss := false }).put p FBK_BISS_REQ.done 1).put p FBK_BISS_REQ.fail (b2n x.1)
      (if s.get p FBK_BISS_REQ.rd = 1 then s1.put p FBK_BISS_REQ.data x.2 else s1).ev p 14
    else s

/-- SERIAL_FRAME_END (R207 to R211): the frame of the oldest latch of modes 3 and 4 ends, good or bad. (DESIGN CHOICE, log 51) -/
def doSerialFrameEnd (ch : Nat) (f : SerialFrame) (s : State) : State :=
  let p := pFbk ch
  let m := s.fbkMode ch
  if 96 ≤ ch ∨ ¬ (m = 3 ∨ m = 4) ∨ s.frameFits ch f = false then s
  else match (s.fb ch).pend with
    | [] => s
    | q :: rest =>
      if q.ended then s
      else
        let cause := frameCause m (s.get p FBK_SER_TIM.tmo) f
        let w := s.setFb ch { s.fb ch with wait := s.now + (if m = 4 then f.slo else 400 * s.get p FBK_SER_TIM.tm) }
        let s0 := if m = 4 then (w.put p FBK_SER_STAT.sl (slaveBits f.slaves)).put p FBK_SER_LD.ld (satN 0xFFFF f.delay) else w
        let s1 := if cause = 0 then s0.goodFrame ch f q rest else s0.badFrame ch cause q rest
        if m = 4 then s1.bissEnd ch f.accessEnd else s1

/-- BISS_REQ (R211): a write with go = 1 starts a register access in mode 4, or is refused with event 13 while one runs. -/
def doBissReq (ch : Nat) (v : Word) (s : State) : State :=
  let p := pFbk ch
  let w := v.toNat
  if 96 ≤ ch then s
  else if fldGet w FBK_BISS_REQ.go = 1 then
    if (s.fb ch).biss then s.ev p 13
    else
      let s1 := (s.plainWrite iniBoot (p + 0x2C) w).put p FBK_BISS_REQ.done 0
      (s1.put p FBK_BISS_REQ.fail 0).setFb ch { s1.fb ch with biss := true }
  else s.plainWrite iniBoot (p + 0x2C) w

/-! Latches (R212 to R217, R220). -/

/-- Is a serial frame running, or its wait open (R208, R209, R213)? -/
def State.fbkBusy (s : State) (ch : Nat) : Bool :=
  let m := s.fbkMode ch
  (m == 3 || m == 4) && ((s.fb ch).pend.any (fun q => !q.ended) || decide (s.now < (s.fb ch).wait))

/-- The last of the latches on their way, made a Prism latch. -/
def markPrism (l : List PendLatch) (at_ : Nat) : List PendLatch :=
  l.map (fun q => if q.at_ = at_ then { q with prism := true } else q)

/-- The latch of the present edge L (R212): its time of validity, the count and the flags as they stand, which the end of the edge renews
(R217), the edge from which its set can appear, and in mode 2 without phist the present position, since no sample gives one. (DEDUCED, log 50) -/
def State.newLatch (s : State) (ch : Nat) (prism : Bool) : PendLatch :=
  let p := pFbk ch
  let r := s.fb ch
  let m := s.fbkMode ch
  let bare := m == 2 && s.get p FBK_BLK.phist == 0
  { prism := prism, at_ := s.now, t64 := if m = 3 ∨ m = 4 then s.t64 4 + 640 * s.get p FBK_SER_TIM.tlat else s.t64 4,
    key := s.ctKey, pos := if bare then some (s.fbkPos ch) else none, fresh := !bare, cnt := r.n,
    ready := s.now + (if m = 1 then s.get p FBK_CFG.filt + 4 else 170), phist := s.flag p FBK_BLK.phist,
    shist := s.flag p FBK_BLK.shist, unc := s.flag p FBK_BLK.unc, ref := s.flag p FBK_BLK.ref, load := r.loadAt }

/-- Take a latch on the present edge (R212, R213, R215): a Prism and a watch latch of one edge are one, and a Prism latch. -/
def State.fbkLatch (s : State) (ch : Nat) (prism : Bool) : State :=
  let r := s.fb ch
  if ¬ inRange (s.fbkMode ch) 1 4 then s
  else if prism ∧ r.pend.any (fun q => q.at_ == s.now) = true then s.setFb ch { r with pend := markPrism r.pend s.now }
  else if s.fbkBusy ch then s.ev (pFbk ch) 7
  else s.setFb ch { r with pend := r.pend ++ [s.newLatch ch prism], lastL := s.t64 0 }

/-- WATCH_LATCH (R215): 100 µs of TB0 have passed since the last latch. -/
def doWatchLatch (ch : Nat) (s : State) : State :=
  if ch < 96 ∧ (s.fb ch).lastL + 6400000 ≤ s.t64 0 then s.fbkLatch ch false else s

/-- Does a latch set lie outside the envelope (R220)? -/
def State.fbkOutside (s : State) (ch : Nat) (x : LatchSet) : Bool :=
  let p := pFbk ch
  let lo := p72 (s.get p FBK_ENV_PLO_HI.p) (s.get p FBK_ENV_PLO_LO.p)
  let hi := p72 (s.get p FBK_ENV_PHI_HI.p) (s.get p FBK_ENV_PHI_LO.p)
  let tol : Int := (s.get p FBK_ENV_CTL.dtol * 2 ^ 12 : Nat)
  (s.get p FBK_ENV_CTL.sen == 1 && x.shist && decide (s.get p FBK_ENV_SPD.vmax < x.spd.natAbs))
    || (s.get p FBK_ENV_CTL.pwin == 1 && x.phist && x.ref && !x.unc && (decide (x.pos < lo) || decide (hi < x.pos)))
    || (match x.prev with
        | none => false
        | some o => (s.get p FBK_ENV_CTL.dir == 1 && decide (x.pos < o - tol))
            || (s.get p FBK_ENV_CTL.dir == 2 && decide (o + tol < x.pos)))

/-- A set enters the stream to the safety island (R33, R34, R216, R411): it crosses within 12.5 ns, and the island keeps the
latest that has crossed. A newer set replaces one that still waits in the crossing, and counts it. (DESIGN CHOICE, log 82) -/
def State.streamSet (s : State) (ch : Nat) (x : LatchSet) : State :=
  let s1 := match (Tab.get (fun _ => none) s.stream ch : Option LatchSet) with
    | none => s
    | some y =>
      if s.now < (Tab.get (fun _ => none) s.isl.arr ch : Option Nat).getD 0 + 5 then s.inc (pSafe 3) (SAFE_CH.ovr ch)
      else { s with isl := { s.isl with ch := Tab.wr s.isl.ch ch { (Tab.rd s.isl.ch ch : IslCh) with set := some y } } }
  { s1 with
    stream := Tab.set (fun _ => none) s1.stream ch (some x),
    isl := { s1.isl with arr := Tab.set (fun _ => none) s1.isl.arr ch (some s1.now) } }

/-- Write a Prism set to the FBK_LAT words (R212). -/
def State.putLatch (s : State) (ch : Nat) (x : LatchSet) : State :=
  let p := pFbk ch
  let s1 := ((s.put p FBK_LAT_HI.p (p72Hi x.pos)).put p FBK_LAT_LO.p (p72Lo x.pos)).putSat p FBK_LAT_SPD.v x.spd
  let s2 := ((s1.put p FBK_LAT_THI.t (t72Hi x.t64)).put p FBK_LAT_TLO.t (t72Lo x.t64)).put p FBK_LAT_ST.phist (b2n x.phist)
  let s3 := ((s2.put p FBK_LAT_ST.shist (b2n x.shist)).put p FBK_LAT_ST.unc (b2n x.unc)).put p FBK_LAT_ST.ref (b2n x.ref)
  let s4 := (s3.put p FBK_LAT_ST.fresh (b2n x.fresh)).put p FBK_LAT_ST.amp (b2n x.amp)
  (s4.setFb ch { s4.fb ch with inUse := some x, amp := false }).incMod p FBK_LAT_ST.seq |>.ev p 0

/-- The set that a latch gives (R212): in mode 1 the count as of L, else the position of its sample or frame; the flags as of L. -/
def State.formSet (s : State) (ch : Nat) (q : PendLatch) : LatchSet :=
  { pos := if s.fbkMode ch = 1 then countPos (s.fbkK ch : Int) q.cnt + (s.fb ch).offs else q.pos.getD (s.fbkPos ch),
    spd := q.spd.getD (s.fbkSpeed ch q.t64 q.key), t64 := q.t64, epoch := q.key, phist := q.phist, shist := q.shist,
    unc := q.unc, ref := q.ref, fresh := q.fresh, amp := (s.fb ch).amp, a2 := q.a2,
    prev := (s.fb ch).prevPos }

/-- Is the oldest latch complete at an edge, so that its set can appear (R212)? -/
def setComplete (now mode : Nat) (q : PendLatch) : Bool :=
  decide (q.ready ≤ now) && (mode == 1 || (mode == 2 && q.pos.isSome) || q.ended)

/-- LATCH_SET_READY (R212, R216, R220): the oldest set appears, is checked against the envelope and goes to the island. -/
def doLatchSetReady (ch : Nat) (s : State) : State :=
  if 96 ≤ ch then s
  else match (s.fb ch).pend with
    | [] => s
    | q :: rest =>
      if setComplete s.now (s.fbkMode ch) q = false then s
      else
        let x := s.formSet ch q
        let s1 := s.setFb ch { s.fb ch with pend := rest, prevPos := some x.pos }
        let s2 := if q.prism then s1.putLatch ch x else s1
        let s3 := s2.streamSet ch x
        if s.fbkOutside ch x then ((s3.envViolate ch).put (pFbk ch) FBK_BLK.envblk 1).evC (pFbk ch) 8 else s3

/-- FBK_LAT_READ (R214): a core reads FBK_LAT_HI, and the rest of the set is held for it. -/
def doFbkLatRead (core ch : Nat) (s : State) : State :=
  if 96 ≤ ch then s
  else
    let p := pFbk ch
    let s1 := { s with rdata := s.regW (p + 0x48) }
    if core < 64 then s1.holdSet core 2 (p + 0x48) ((List.range 5).map (fun k => s.regW (p + 0x49 + k))) else s1

/-! Emulation edges (R223, R224). -/

/-- EMULATION_EDGE (R223, R224): the output count steps one state toward its target. (DESIGN CHOICE, log 52) -/
def doEmulationEdge (ch : Nat) (s : State) : State :=
  let p := pFbk ch
  let r := s.fb ch
  let t := s.emuTarget ch
  if 96 ≤ ch ∨ s.fbkMode ch ≠ 5 ∨ s.emuHeld ch = true ∨ t = r.out ∨ s.now < r.outAt + s.get p FBK_EMU.minsp then s
  else
    let o := if r.out < t then r.out + 1 else r.out - 1
    let cpt : Int := (s.get p FBK_EMU_CPT.cpt : Int)
    let hit := s.get p FBK_EMU.zsel == 1 && o % cpt == (s.get p FBK_EMU_ZPOS.f : Int) * cpt / 2 ^ 36
    (s.setFb ch { r with out := o, outAt := s.now, zPulse := r.zPulse || hit }).emuLag ch

/-- EMULATION_Z_PULSE_END (R224): the Z pulse ends after zw cycles. -/
def doEmulationZPulseEnd (ch : Nat) (s : State) : State :=
  if ch < 96 then s.setFb ch { s.fb ch with zPulse := false } else s

/-! Encoder supply (R225, R226). -/

/-- The declared power of a supply in units of 10 mW. -/
def supPower (sel budget : Nat) : Nat := budget * (if sel = 1 then 5 else if sel = 2 then 12 else 0)

/-- The declared power of all enabled supplies, FBK_SUP_TOT. -/
def State.supTotal (s : State) : Nat :=
  (List.range 96).foldl (fun n ch =>
    if s.get (pFbk ch) FBK_SUP.en = 1 then n + supPower (s.get (pFbk ch) FBK_SUP.sel) (s.get (pFbk ch) FBK_SUP.budget) else n) 0

/-- The declared power of the enabled supplies but one (R225). -/
def State.supOthers (s : State) (ch : Nat) : Nat :=
  s.supTotal - (if s.get (pFbk ch) FBK_SUP.en = 1 then supPower (s.get (pFbk ch) FBK_SUP.sel) (s.get (pFbk ch) FBK_SUP.budget) else 0)

/-- FBK_SUP_WRITE (R10, R193, R225): the supply is turned on or off; an invalid value, or en = 1 without a voltage or past 60 W, keeps the
word with event 13; budget is fixed while en is 1. (DESIGN CHOICE, log 52) -/
def doFbkSupWrite (ini ch : Nat) (v : Word) (s : State) : State :=
  let p := pFbk ch
  let a := p + 0x3C
  if 96 ≤ ch then s
  else
    let w := v.toNat
    let b := fldGet w FBK_SUP.budget
    let m := s.mergeWord ini a w
    let s0 := s.noteRefused a m.2
    if fldGet w FBK_SUP.sel = 3 ∨ b = 0 ∨ 35 < b then s0.ev p 13
    else
      let on := s.get p FBK_SUP.en = 1
      let held := if on then fldPut m.1 FBK_SUP.budget (s.get p FBK_SUP.budget) else m.1
      let sel := fldGet held FBK_SUP.sel
      let s1 := if on ∧ b ≠ s.get p FBK_SUP.budget then s0.ev p 13 else s0
      if fldGet w FBK_SUP.en = 0 then ((s1.setReg a held).put p FBK_SUP.supok 0).put p FBK_SUP.imeas 0
      else if sel = 0 ∨ 6000 < s.supOthers ch + supPower sel (fldGet held FBK_SUP.budget) then s0.ev p 13
      else if on then (if sel = s.get p FBK_SUP.sel then s1.setReg a held else (s1.setReg a held).put p FBK_SUP.supok 0)
      else (s1.setReg a held).put p FBK_SUP.oc 0

/-- unc after a supply fault, in modes 1 to 4 (R226). -/
def State.supUnc (s : State) (ch : Nat) : State := if inRange (s.fbkMode ch) 1 4 then s.setUnc ch else s

/-- SUPPLY_OK (R225): an enabled supply comes within 5 % of its setting. -/
def doSupplyOk (ch : Nat) (s : State) : State :=
  if ch < 96 ∧ s.get (pFbk ch) FBK_SUP.en = 1 then s.put (pFbk ch) FBK_SUP.supok 1 else s

/-- SUPPLY_OVERCURRENT (R226): an enabled supply above 1.1 times its budget, or above 0.40 A, turns off. -/
def doSupplyOvercurrent (ch ma : Nat) (s : State) : State :=
  let p := pFbk ch
  if ch < 96 ∧ s.get p FBK_SUP.en = 1 ∧ (11 * s.get p FBK_SUP.budget < ma ∨ 400 < ma) then
    let s1 := (((s.put p FBK_SUP.imeas (satN 0xFFF ma)).put p FBK_SUP.oc 1).put p FBK_SUP.en 0).put p FBK_SUP.supok 0
    (s1.supUnc ch).evC p 12
  else s

/-- SUPPLY_UNDERVOLTAGE (R226): an enabled supply falls below 90 % of its setting. -/
def doSupplyUndervoltage (ch : Nat) (s : State) : State :=
  let p := pFbk ch
  if ch < 96 ∧ s.get p FBK_SUP.en = 1 then ((s.put p FBK_SUP.supok 0).supUnc ch).evC p 12 else s

/-! Register writes of the page (R193, R222). -/

/-- Is a value in range for a word of the page (R193, R199, R202, R205, R207 to R209, R218, R223, R224)? (DEDUCED, log 49; DEDUCED, log 103) -/
def State.fbkWordOk (s : State) (ch off v : Nat) : Bool :=
  let mode := s.get (pFbk ch) FBK_CFG.mode
  if off = 0x10 then decide (fldGet v FBK_CFG.mode < 6) && decide (0 < fldGet v FBK_CFG.filt)
  else if off = 0x11 then
    let c := fldGet v FBK_CPT.cpt
    decide (0 < c) && (mode != 1 || decide (4 ≤ c)) && (mode != 2 || decide (c ≤ 2 ^ 20))
  else if off = 0x12 then decide (fldGet v FBK_IDX_CFG.zgate < 5) && decide (fldGet v FBK_IDX_CFG.policy < 2)
  else if off = 0x1D then inRange (fldGet v FBK_SPD_CFG.m) 1 32 && decide (0 < fldGet v FBK_SPD_CFG.tz)
  else if off = 0x25 then
    inRange (fldGet v FBK_SER_CFG.div) 20 1981 && decide (fldGet v FBK_SER_CFG.eb < 3)
      && decide (fldGet v FBK_SER_CFG.mt ≤ 32) && inRange (fldGet v FBK_SER_CFG.st) 8 29
  else if off = 0x26 then decide (0 < fldGet v FBK_SER_TIM.tm) && decide (8 ≤ fldGet v FBK_SER_TIM.tmo)
  else if off = 0x27 then
    decide (fldGet v FBK_BISS_LEN.len1 ≤ 36) && decide (fldGet v FBK_BISS_LEN.len2 ≤ 36)
      && decide (fldGet v FBK_BISS_LEN.len3 ≤ 36)
  else if off = 0x38 then
    decide (fldGet v FBK_EMU.src < 96) && decide (fldGet v FBK_EMU.zsel < 3) && decide (4 ≤ fldGet v FBK_EMU.zw)
      && decide (2 ≤ fldGet v FBK_EMU.minsp)
  else if off = 0x39 then decide (4 ≤ fldGet v FBK_EMU_CPT.cpt)
  else if off = 0x45 then decide (fldGet v FBK_ENV_CTL.dir < 3)
  else true

/-- The words that are fixed while the page is enabled (R193). -/
def fbkFixed (off : Nat) : Bool :=
  off == 0x11 || off == 0x25 || off == 0x26 || off == 0x27 || off == 0x38 || off == 0x39

/-- FBK_CFG_WRITE (R193): whole while disabled, lgrp alone while enabled. -/
def doFbkCfgWrite (ch : Nat) (v : Word) (s : State) : State :=
  let p := pFbk ch
  let w := v.toNat
  if 96 ≤ ch then s
  else if s.fbkWordOk ch 0x10 w = false then s.ev p 13
  else if s.get p PAGE_CTL.en = 1 then
    let m := s.mergeWord iniBoot (p + 0x10) w
    let s1 := s.put p FBK_CFG.lgrp (fldGet w FBK_CFG.lgrp)
    if m.1 ≠ s1.reg (p + 0x10) then s1.ev p 13 else s1
  else s.plainWrite iniBoot (p + 0x10) w

/-- A write of a block-specific word of an FBK page. -/
def State.fbkWrite (s : State) (ini ch off : Nat) (v : Word) : State :=
  let p := pFbk ch
  if off = 0x10 then doFbkCfgWrite ch v s
  else if off = 0x1C then
    let s1 := if bitN v.toNat 35 then doFbkLoad ch s else s
    if bitN v.toNat 34 then doFbkClrunc ch s1 else s1
  else if off = 0x2C then doBissReq ch v s
  else if off = 0x3C then doFbkSupWrite ini ch v s
  else if (fbkFixed off && s.get p PAGE_CTL.en == 1) || (inRange off 0x30 4 && s.get p FBK_CMP_CTL.en == 1)
      || !s.fbkWordOk ch off v.toNat then (s.noteRefused (p + off) (s.mergeWord ini (p + off) v.toNat).2).ev p 13
  else s.plainWrite ini (p + off) v.toNat

/-- PAGE_CTL.en of an FBK page becomes 1 (R194, R215), or 0. -/
def State.fbkEnable (s : State) (ch : Nat) : State :=
  let p := pFbk ch
  let s1 := s.setFb ch { lastL := s.t64 0 }
  let s2 := ((((s1.put p FBK_BLK.phist 0).put p FBK_BLK.shist 0).put p FBK_BLK.unc 0).put p FBK_BLK.ref 0).emuRefresh ch
  if s2.fbkMode ch = 5 then s2.emuLag ch else s2

/-! The commands. -/

/-- The command COUNT_EDGE (R196). -/
def execCountEdge (ch : Nat) (a b : Bool) (s : State) : Out := .next (doCountEdge ch a b s)

/-- The command LINE_FAULT (R198). -/
def execLineFault (ch : Nat) (line : LineState) (s : State) : Out := .next (doLineFault ch line.line line.bad s)

/-- The command FBK_LOAD (R201). -/
def execFbkLoad (ch : Nat) (s : State) : Out := .next (s.writeWord 0 (pFbk ch + 0x1C) (word (2 ^ 35)) (doFbkLoad ch))

/-- The command FBK_CLRUNC (R201). -/
def execFbkClrunc (ch : Nat) (s : State) : Out := .next (s.writeWord 0 (pFbk ch + 0x1C) (word (2 ^ 34)) (doFbkClrunc ch))

/-- The command FBK_POS_READ (R200). -/
def execFbkPosRead (core ch : Nat) (s : State) : Out := .next (s.readWord (pFbk ch + 0x1F) (doFbkPosRead core ch))

/-- The command Z_FALL (R202). -/
def execZFall (ch : Nat) (s : State) : Out := .next (doZFall ch s)

/-- The command SINCOS_SAMPLE (R204). -/
def execSincosSample (ch : Nat) (sn cs : Int) (s : State) : Out := .next (s.clocked (pFbk ch) (doSincosSample ch sn cs))

/-- The command SERIAL_FRAME_END (R210). -/
def execSerialFrameEnd (ch : Nat) (f : SerialFrame) (s : State) : Out := .next (s.clocked (pFbk ch) (doSerialFrameEnd ch f))

/-- The command BISS_REQ (R211). -/
def execBissReq (ch : Nat) (v : Word) (s : State) : Out := .next (s.writeWord 0 (pFbk ch + 0x2C) v (doBissReq ch v))

/-- The command WATCH_LATCH (R215). -/
def execWatchLatch (ch : Nat) (s : State) : Out := .next (s.clocked (pFbk ch) (doWatchLatch ch))

/-- The command LATCH_SET_READY (R212). -/
def execLatchSetReady (ch : Nat) (s : State) : Out := .next (s.clocked (pFbk ch) (doLatchSetReady ch))

/-- The command FBK_LAT_READ (R214). -/
def execFbkLatRead (core ch : Nat) (s : State) : Out := .next (s.readWord (pFbk ch + 0x48) (doFbkLatRead core ch))

/-- The command EMULATION_EDGE (R223). -/
def execEmulationEdge (ch : Nat) (s : State) : Out := .next (s.clocked (pFbk ch) (doEmulationEdge ch))

/-- The command EMULATION_Z_PULSE_END (R224). -/
def execEmulationZPulseEnd (ch : Nat) (s : State) : Out := .next (s.clocked (pFbk ch) (doEmulationZPulseEnd ch))

/-- The command FBK_SUP_WRITE (R225). -/
def execFbkSupWrite (ini ch : Nat) (v : Word) (s : State) : Out :=
  .next (s.writeWord ini (pFbk ch + 0x3C) v (doFbkSupWrite ini ch v))

/-- The command SUPPLY_OK (R225). -/
def execSupplyOk (ch : Nat) (s : State) : Out := .next (doSupplyOk ch s)

/-- The command SUPPLY_OVERCURRENT (R226). -/
def execSupplyOvercurrent (ch ma : Nat) (s : State) : Out := .next (doSupplyOvercurrent ch ma s)

/-- The command SUPPLY_UNDERVOLTAGE (R226). -/
def execSupplyUndervoltage (ch : Nat) (s : State) : Out := .next (doSupplyUndervoltage ch s)

/-- The command FBK_CFG_WRITE (R193). -/
def execFbkCfgWrite (ch : Nat) (v : Word) (s : State) : Out := .next (s.writeWord 0 (pFbk ch + 0x10) v (doFbkCfgWrite ch v))

end Sys2Proof.Machine
end

