-- ==== Sys2Proof/Machine/Ale.lean ====
section
/-! DEFINITION. The axis loop engine (R157 to R187): wakes and snapshots, the angle, the current loop, the stepper path, the
voltage mode, the output stage, references, and the current envelope. Values are exact; where a unit rounds as the spec does
not state, the value that a word shows goes through a constant without a body. -/

namespace Sys2Proof.Machine

/-- The record of an ALE channel. -/
def State.al (s : State) (ch : Nat) : AleSt := Tab.rd s.ale ch

/-- Write the record of an ALE channel. -/
def State.setAl (s : State) (ch : Nat) (r : AleSt) : State := { s with ale := Tab.wr s.ale ch r }

/-! The step angle of the profile generator (R251). -/

/-- The position as moved, without the shifts of R250, and the speed at a time, from the plan that was then in force (R251). -/
def ProfSt.movedAt (r : ProfSt) (t : Rat) : Rat × Rat :=
  match (r.old.filter (fun o => decide (t < o.till))).getLast? with
  | some o => let v := planValue o.p o.plan t; (v.1 - o.shift, v.2.1)
  | none => let v := r.value t; (v.1 - r.shift, v.2.1)

/-- The step angle and its rate at a time (R251): q is the position without the shifts of R250. -/
def State.stepAngle (s : State) (ch : Nat) (t : Rat) : Rat × Rat :=
  let r := s.pr ch
  let p := pProf ch
  let u : Rat := ((4 * 2 ^ s.get p PROF_BLK.res : Nat) : Rat)
  let fspt : Rat := ((s.get p PROF_STEP.fspt : Nat) : Rat)
  let v := r.movedAt t
  let e := v.1 * fspt / 4
  let th := ((e * u).floor : Rat) / u
  (th - (th.floor : Rat), v.2 * fspt / 4)

/-! Fields of a snapshot. -/

/-- A field of the page words of a snapshot. -/
def AleSnap.get (x : AleSnap) (f : Fld) : Nat := fldGet (x.w.getD (f.off - 0x10) 0) f

/-- A whole word of a snapshot as a signed fixed-point number with `k` fraction bits. -/
def AleSnap.fix (x : AleSnap) (k off : Nat) : Rat := fixRat k (x.w.getD (off - 0x10) 0)

/-- A gain in S8.28. -/
def AleSnap.gain (x : AleSnap) (off : Nat) : Rat := x.fix 28 off

/-- The DC link in pu (R165): ALE_VDC, which holds the measured value under vbus = 1. -/
def AleSnap.vdc (x : AleSnap) : Rat := x.fix 34 0x1B

/-- A result in pu. -/
def AleSnap.i (x : AleSnap) (k : Nat) : Rat := (x.res.getD k 0 : Rat) / 2 ^ 34

/-- The length of the shadow period in taps at the wake. -/
def AleSnap.len (x : AleSnap) : Nat := 32 * x.per

/-! Angles (R162 to R164). -/

/-- The fraction of a number of turns. -/
def fracR (x : Rat) : Rat := x - (x.floor : Rat)

/-- The angle before the inversion of ALE_COMM.dir, and the speed; none where the latch set is unusable (R162, R164). -/
def AleSnap.rawAngle (x : AleSnap) (a : AleSt) : Option (Rat × Rat) :=
  let pp : Rat := ((x.get ALE_COMM.pp : Nat) : Rat)
  let wref := x.fix 16 0x15
  let theta : Rat := ufixRat 36 (x.get ALE_THETA.th)
  if x.get ALE_CFG.asrc = 0 then
    match x.latch with
    | none => none
    | some l =>
      if l.phist = false ∨ l.unc = true then none
      else
        let f : Rat := if l.shist then pp * ((l.spd : Rat) / 2 ^ 16) else 0
        let th := fracR (pp * ((l.pos % 2 ^ 36 : Int) : Rat) / 2 ^ 36 + ufixRat 36 (x.get ALE_TOFF.th))
        some (th + f * (((x.tc - (l.t64 : Int) : Int) : Rat) / 64000000000), f)
  else if x.get ALE_CFG.asrc = 1 then some (theta, wref)
  else if x.get ALE_CFG.asrc = 2 then
    match a.th2 with
    | none => some (theta, wref)
    | some y => some (y.1 + wref * ((((x.t : Int) - (y.2 : Int) : Int) : Rat) / 64000000000), wref)
  else some (x.th3, x.f3)

/-- The angle and the speed in use: none when the angle or the DC link is unusable (R164). -/
def AleSnap.angle (x : AleSnap) (a : AleSt) : Option (Rat × Rat) :=
  if x.vdc < 1 / 16 then none
  else match x.rawAngle a with
    | none => none
    | some y => if x.get ALE_COMM.dir = 1 then some (fracR (1 - fracR y.1), -y.2) else some (fracR y.1, y.2)

/-- The integrated angle kept for the next computation (R162). -/
def AleSnap.keepAngle (x : AleSnap) (a : AleSt) : AleSt :=
  if x.get ALE_CFG.asrc = 2 then
    match x.rawAngle a with
    | some y => { a with th2 := some (fracR y.1, x.t) }
    | none => a
  else a

/-- The output angle (R163). -/
def AleSnap.outAngle (x : AleSnap) (th f : Rat) : Rat := fracR (th + f * ((x.get ALE_ADV.adv : Nat) : Rat) / 1000000000)

/-- A vector turned by an angle in turns. -/
def turn (th : Rat) (v : Rat × Rat) : Rat × Rat :=
  let c := cosTurn th
  let n := sinTurn th
  (v.1 * c - v.2 * n, v.1 * n + v.2 * c)

/-- A vector turned back by an angle in turns: the transform into the rotating frame. -/
def unturn (th : Rat) (v : Rat × Rat) : Rat × Rat :=
  let c := cosTurn th
  let n := sinTurn th
  (v.1 * c + v.2 * n, -v.1 * n + v.2 * c)

/-- The square root of 3. -/
def root3 : Rat := sqrtReal 3

/-- Phase quantities in the stationary frame (R166). -/
def clarke (a b c : Rat) : Rat × Rat := ((2 * a - b - c) / 3, (b - c) / root3)

/-- The stationary-frame currents (R166, R175). -/
def AleSnap.currents (x : AleSnap) : Rat × Rat :=
  if x.kind = 2 then (x.i 0, x.i 1)
  else if x.get ALE_CFG.ish = 1 then (x.i 0, (x.i 0 + 2 * x.i 1) / root3)
  else clarke (x.i 0) (x.i 1) (x.i 2)

/-- The voltage applied now, in the stationary frame (R179). -/
def AleSnap.applied (x : AleSnap) : Rat × Rat :=
  let L : Rat := ((32 * x.actPer : Nat) : Rat)
  if x.running = false ∨ x.actPer = 0 then (0, 0)
  else
    let d := fun (k : Nat) => ((x.act.getD k 0 : Nat) : Rat) / L
    if x.kind = 2 then ((d 0 - d 1) * x.vdc, (d 2 - d 3) * x.vdc)
    else
      let m := (d 0 + d 1 + d 2) / 3
      clarke ((d 0 - m) * x.vdc) ((d 1 - m) * x.vdc) ((d 2 - m) * x.vdc)

/-! Controllers and limits (R167 to R169). -/

/-- A number limited to a range. -/
def clampR (lo hi v : Rat) : Rat := if v < lo then lo else if hi < v then hi else v

/-- The S2.34 range (R168). -/
def sat34 (v : Rat) : Rat := clampR (-2) (2 - 1 / 2 ^ 34) v

/-- The envelope's reference magnitude in pu. -/
def AleSnap.imag (x : AleSnap) : Rat := ((x.get ALE_ENV_IREF.imag : Nat) : Rat) / 2 ^ 17

/-- The reference clamp (R167): the pair in use, and whether it acted. -/
def clampRef (imag rd rq : Rat) : (Rat × Rat) × Bool :=
  if rd * rd + rq * rq ≤ imag * imag then ((rd, rq), false)
  else
    let d := clampR (-imag) imag rd
    ((d, signR rq * minR (absR rq) (sqrtReal (imag * imag - d * d))), true)

/-- One PI controller (R168, R179): the integrator and its output. -/
def piStep (hist : Bool) (applied kp ki e ff i : Rat) : Rat × Rat :=
  let i1 := sat34 (if hist then i + ki * e else applied - kp * e - ff)
  (i1, kp * e + i1 + ff)

/-- The circular limit with priority to d (R169). -/
def limitCircle (vmax : Rat) (u : Rat × Rat) : (Rat × Rat) × Bool :=
  let d := clampR (-vmax) vmax u.1
  let q := sqrtReal (vmax * vmax - d * d)
  let r := (d, clampR (-q) q u.2)
  (r, r != u)

/-- The limit of each bridge alone (R175). -/
def limitBox (vmax : Rat) (u : Rat × Rat) : (Rat × Rat) × Bool :=
  let r := (clampR (-vmax) vmax u.1, clampR (-vmax) vmax u.2)
  (r, r != u)

/-- Back-calculation (R169): an integrator never holds more than the limit allows. -/
def backCalc (v u kp e ff i : Rat) : Rat := if v = u then i else sat34 (v - kp * e - ff)

/-- What a computation gives. -/
structure AleRes where
  st : AleSt
  hist : Bool
  path : Nat
  vsat : Bool := false
  rclamp : Bool := false
  evs : List Nat := []
  inval : Bool := false
  meas : Option (Rat × Rat) := none
  ints : Option (Rat × Rat) := none
  out : Option (Rat × Rat) := none
  ang : Option (Rat × Rat) := none
  ms : List Rat := []

/-- Ideal compares of half the period on every leg (R161). -/
def AleSnap.halves (x : AleSnap) : List Rat := List.replicate 4 ((x.len / 2 : Nat) : Rat)

/-- A computation as mode 0 (R160, R161, R178). (DESIGN CHOICE, log 47) -/
def AleSnap.hold (x : AleSnap) (a : AleSt) (evs : List Nat) (inval : Bool) : AleRes :=
  { st := a, hist := false, path := 0, evs := evs, inval := inval, ms := if x.kind = 1 ∨ x.kind = 2 then x.halves else [] }

/-- The term of dead-time compensation of a leg whose current is i (R172). -/
def AleSnap.dtTerm (x : AleSnap) (i : Rat) : Rat :=
  let band := x.fix 34 0x20
  ((x.dt : Nat) : Rat) * (if band = 0 then signR i else clampR (-1) 1 (i / band))

/-- Is dead time compensated in this computation (R172, R177)? -/
def AleSnap.compensates (x : AleSnap) : Bool :=
  x.get ALE_CFG.dtc == 1 && x.valid && !(x.get ALE_CFG.mode == 3 && x.get ALE_CFG.wake == 1 && x.inen == 0)

/-- The ideal compares of a stationary-frame voltage (R170 to R173). -/
def AleSnap.output (x : AleSnap) (v : Rat × Rat) : List Rat :=
  let L : Rat := ((x.len : Nat) : Rat)
  let dt := fun (i : Rat) => if x.compensates then x.dtTerm i else 0
  if x.kind = 2 then
    let da := v.1 / (2 * x.vdc)
    let db := v.2 / (2 * x.vdc)
    [(1 / 2 + da) * L + dt (x.i 0), (1 / 2 - da) * L + dt (-x.i 0), (1 / 2 + db) * L + dt (x.i 1),
      (1 / 2 - db) * L + dt (-x.i 1)]
  else
    let na := v.1 / x.vdc
    let nb := (-v.1 / 2 + root3 / 2 * v.2) / x.vdc
    let nc := (-v.1 / 2 - root3 / 2 * v.2) / x.vdc
    let n0 := -(maxR na (maxR nb nc) + minR na (minR nb nc)) / 2
    let ic := if x.get ALE_CFG.ish = 1 then -x.i 0 - x.i 1 else x.i 2
    [(1 / 2 + na + n0) * L + dt (x.i 0), (1 / 2 + nb + n0) * L + dt (x.i 1), (1 / 2 + nc + n0) * L + dt ic,
      x.fix 34 0x21 * L]

/-- The compares of the last computation recalculated for the present period (R180). -/
def AleSnap.again (x : AleSnap) (a : AleSt) : List Rat :=
  if a.lastL = 0 then x.halves
  else a.last.map (fun m => ((m : Nat) : Rat) * ((x.len : Nat) : Rat) / ((a.lastL : Nat) : Rat))

/-- A computation of mode 1 with a valid result and a usable angle (R166 to R170, R179). -/
def AleSnap.currentLoop (x : AleSnap) (a : AleSt) (hist : Bool) (th f : Rat) : AleRes :=
  let tho := x.outAngle th f
  let i := unturn th x.currents
  let (r, rc) := clampRef x.imag ((x.rd : Rat) / 2 ^ 34) ((x.rq : Rat) / 2 ^ 34)
  let e := (r.1 - i.1, r.2 - i.2)
  let on := x.get ALE_CFG.ff = 1
  let ff : Rat × Rat := if on then (-f * x.gain 0x1D * i.2, f * (x.gain 0x1C * i.1 + x.gain 0x1E)) else (0, 0)
  let ap := unturn tho x.applied
  let d := piStep hist ap.1 (x.gain 0x16) (x.gain 0x17) e.1 ff.1 a.iD
  let q := piStep hist ap.2 (x.gain 0x18) (x.gain 0x19) e.2 ff.2 a.iQ
  let (v, vs) := limitCircle (x.fix 34 0x1A * x.vdc / root3) (d.2, q.2)
  let iD := backCalc v.1 d.2 (x.gain 0x16) e.1 ff.1 d.1
  let iQ := backCalc v.2 q.2 (x.gain 0x18) e.2 ff.2 q.1
  { st := { a with iD := iD, iQ := iQ }, hist := true, path := 1, vsat := vs, rclamp := rc,
    evs := (if rc then [2] else []) ++ (if vs then [1] else []), meas := some i, ints := some (iD, iQ), out := some v,
    ang := some (tho, f), ms := x.output (turn tho v) }

/-- The voltage mode (R177). -/
def AleSnap.voltageMode (x : AleSnap) (a : AleSt) (th f : Rat) : AleRes :=
  let tho := x.outAngle th f
  let u : Rat × Rat := ((x.rd : Rat) / 2 ^ 34, (x.rq : Rat) / 2 ^ 34 + f * x.gain 0x1E)
  let (v, vs) := limitCircle (x.fix 34 0x1A * x.vdc / root3) u
  { st := a, hist := true, path := 4, vsat := vs, evs := if vs then [1] else [], out := some v, ang := some (tho, f),
    ms := x.output (turn tho v) }

/-! The stepper path (R174 to R176). -/

/-- Does the stepper path run strong (R176)? -/
def AleSnap.strongNow (x : AleSnap) (a : AleSt) (f : Rat) : Bool :=
  let w : Rat := ((x.get ALE_STP_CTL.wsw : Nat) : Rat) / 16
  let g := x.get ALE_STP_CTL.force
  if g = 1 then false
  else if g = 2 then true
  else if a.strong then !decide (absR f < 7 / 8 * w) else decide (w ≤ absR f)

/-- The path change: the integrators are carried into the new frame (R176). -/
def AleSnap.changePath (x : AleSnap) (a : AleSt) (tho f : Rat) : AleSt × Bool :=
  let now := x.strongNow a f
  if now == a.strong then (a, false)
  else
    let i := if now then unturn tho (a.iD, a.iQ) else turn tho (a.iD, a.iQ)
    ({ a with strong := now, iD := i.1, iQ := i.2 }, true)

/-- The current amplitude before the clamp (R174). -/
def AleSnap.amplitude (x : AleSnap) (a : AleSt) (f : Rat) : Rat :=
  let still := match a.moved with
    | some t => decide (x.t < t + 64000000 * x.get ALE_STP_CTL.tstill)
    | none => false
  if f ≠ 0 ∨ still = true then ((x.get ALE_STP_I.irun : Nat) : Rat) / 2 ^ 17
  else ((x.get ALE_STP_I.ihold : Nat) : Rat) / 2 ^ 17

/-- A computation of mode 2 with a valid result (R174 to R176, R179). -/
def AleSnap.stepper (x : AleSnap) (a0 : AleSt) (hist : Bool) (th f : Rat) : AleRes :=
  let tho := x.outAngle th f
  let (a, ch) := x.changePath a0 tho f
  let A0 := x.amplitude a f
  let rc := decide (x.imag < A0)
  let A := minR A0 x.imag
  let vl := x.fix 34 0x1A * x.vdc
  let evs0 := (if ch then [10] else []) ++ (if rc then [2] else [])
  if a.strong then
    let i := unturn th x.currents
    let e := (A - i.1, -i.2)
    let ffq : Rat := if x.get ALE_CFG.ff = 1 then f * x.gain 0x1E else 0
    let ap := unturn tho x.applied
    let d := piStep hist ap.1 (x.gain 0x16) (x.gain 0x17) e.1 0 a.iD
    let q := piStep hist ap.2 (x.gain 0x18) (x.gain 0x19) e.2 ffq a.iQ
    let (v, vs) := limitCircle vl (d.2, q.2)
    let iD := backCalc v.1 d.2 (x.gain 0x16) e.1 0 d.1
    let iQ := backCalc v.2 q.2 (x.gain 0x18) e.2 ffq q.1
    { st := { a with iD := iD, iQ := iQ }, hist := true, path := 3, vsat := vs, rclamp := rc,
      evs := evs0 ++ (if vs then [1] else []), meas := some i, ints := some (iD, iQ), out := some v, ang := some (tho, f),
      ms := x.output (turn tho v) }
  else
    let i := x.currents
    let e := (A * cosTurn th - i.1, A * sinTurn th - i.2)
    let ap := x.applied
    let d := piStep hist ap.1 (x.gain 0x16) (x.gain 0x17) e.1 0 a.iD
    let q := piStep hist ap.2 (x.gain 0x16) (x.gain 0x17) e.2 0 a.iQ
    let (v, vs) := limitBox vl (d.2, q.2)
    let iD := backCalc v.1 d.2 (x.gain 0x16) e.1 0 d.1
    let iQ := backCalc v.2 q.2 (x.gain 0x16) e.2 0 q.1
    { st := { a with iD := iD, iQ := iQ }, hist := true, path := 2, vsat := vs, rclamp := rc,
      evs := evs0 ++ (if vs then [1] else []), meas := some i, ints := some (iD, iQ), out := some v, ang := some (tho, f),
      ms := x.output v }

/-- A computation of mode 1 or 2 on an invalid result (R180): the last compares again. In mode 2 the path may change first
(R176), and the integrators are then shown in their new frame (R190). -/
def AleSnap.invalid (x : AleSnap) (a0 : AleSt) (hist : Bool) (th f : Rat) : AleRes :=
  let tho := x.outAngle th f
  let m := x.get ALE_CFG.mode
  let (a, ch) := if m = 2 then x.changePath a0 tho f else (a0, false)
  { st := a, hist := hist, path := if m = 1 then 1 else if a.strong then 3 else 2, evs := if ch then [10] else [],
    inval := true, ints := if ch then some (a.iD, a.iQ) else none, ang := some (tho, f), ms := x.again a }

/-- Does the mode suit the kind and the angle source (R160)? -/
def AleSnap.suits (x : AleSnap) : Bool :=
  let m := x.get ALE_CFG.mode
  if m = 1 then x.kind == 1
  else if m = 2 then x.kind == 2 && x.get ALE_CFG.asrc != 0
  else x.kind == 1 || x.kind == 2

/-- The streak of invalid results ends with a valid one, in every mode (R180). -/
def AleSnap.streak (x : AleSnap) (a : AleSt) : AleSt := if x.valid then { a with inval := 0, invRec := false } else a

/-- The time at which f last differed from 0 (R174). -/
def AleSnap.noteMove (x : AleSnap) (a : AleSt) (f : Rat) : AleSt := if f = 0 then a else { a with moved := some x.t }

/-- One computation (R160 to R180). `hist0` is PAGE_STAT.blk.hist before it. (DESIGN CHOICE, log 47) -/
def AleSnap.compute (x : AleSnap) (a0 : AleSt) (hist0 : Bool) : AleRes :=
  let m := x.get ALE_CFG.mode
  let hist := hist0 && a0.mode == m
  let a := x.streak { a0 with mode := m }
  let bad := !x.valid && (m == 1 || m == 2)
  if x.suits = false then x.hold a [8] false
  else if m = 0 then x.hold a [] false
  else match x.angle a with
    | none => x.hold a [11] bad
    | some y =>
      let a1 := x.noteMove (x.keepAngle a) y.2
      if m = 3 then x.voltageMode a1 y.1 y.2
      else if x.valid = false then x.invalid a1 hist y.1 y.2
      else if m = 1 then x.currentLoop a1 hist y.1 y.2
      else x.stepper a1 hist y.1 y.2

/-! Wakes (R157 to R159, R181 to R183). -/

/-- The references at a wake (R181, R183): the committed set is taken, or the set in use grows older. -/
def State.aleRefs (s : State) (ch : Nat) : State :=
  let p := pAle ch
  let a := s.al ch
  let m := s.get p ALE_CFG.mode
  if s.get p ALE_REF_CTL.cpend = 1 then
    let s1 := s.setAl ch { a with ud := a.cd, uq := a.cq, age := 0 }
    (((s1.put p ALE_REF_CTL.cpend 0).incMod p ALE_REF_CTL.cseq).put p ALE_REF_CTL.tseq
      (s.get (pPwm ch) PWM_SD_STAT.seq)).put p ALE_BLK.stale 0
  else if m = 1 ∨ m = 3 then
    let age := a.age + 1
    let mx := s.get p ALE_CFG.maxage
    let s1 := s.setAl ch { a with age := age }
    if mx ≠ 0 ∧ mx ≤ age ∧ s.get p ALE_BLK.stale = 0 then
      let s2 := if s.get p ALE_CFG.staleact = 1 then s1.setAl ch { a with age := age, ud := 0, uq := 0 } else s1
      (s2.put p ALE_BLK.stale 1).evC p 6
    else s1
  else s

/-- The DC link as ALE_VDC reads it (R165, R190): under vbus = 1 the measured value, and before the first valid result the word that
firmware wrote. (DESIGN CHOICE, log 47) -/
def State.aleVdc (s : State) (ch : Nat) : Nat :=
  if s.get (pAle ch) ALE_CFG.vbus = 1 then (s.al ch).vmeas.getD (s.get (pAle ch) ALE_VDC.v) else s.get (pAle ch) ALE_VDC.v

/-- The snapshot of a wake (R159), for the edge C of R186 and the cell time of the kernel centre. (DESIGN CHOICE, log 47) -/
def State.aleSnap (s : State) (ch c : Nat) (tc : Int) : AleSnap :=
  let p := pAle ch
  let w := pPwm ch
  let a := s.al ch
  let sa := s.stepAngle ch ((tc : Rat) / 64000000000)
  { at_ := s.now, c := c, w := ((List.range 24).map (fun k => s.reg (p + 0x10 + k))).set 0xB (s.aleVdc ch), kind := s.get w PWM_CFG.kind,
    legen := s.get w PWM_CFG.legen, per := s.get w PWM_PER.per, actPer := s.get w PWM_ACT_PER.per,
    act := (List.range 4).map (fun k => s.get w (PWM_ACT_CMP.m k)), running := s.carrierRuns ch, dt := s.deadTime ch,
    valid := s.flag w PWM_SD_STAT.valid, inen := s.get w PWM_SD_CFG.inen,
    res := (List.range 3).map (fun k => s.getI w (PWM_SD_RES.i k)), rd := a.ud, rq := a.uq, t := s.t64 4, tc := tc,
    latch := (s.fb ch).inUse, th3 := sa.1, f3 := sa.2 }

/-- A wake of an enabled page (R158): an unstarted wake is replaced, with event 9. -/
def State.aleWake (s : State) (ch c : Nat) (tc : Int) : State :=
  let p := pAle ch
  if s.get p PAGE_CTL.en = 0 ∨ s.clockOff p = true then s
  else
    let s0 := s.aleRefs ch
    let x := s0.aleSnap ch c tc
    let s1 := if (s0.al ch).wake.isSome then s0.evC p 9 else s0
    s1.setAl ch { s1.al ch with wake := some x }

/-! Computations (R158, R173, R186). -/

/-- The earlier of two waiting channels of a pipeline: the earlier wake edge, then the lower channel. -/
def State.earlierWake (s : State) (best : Option Nat) (ch : Nat) : Option Nat :=
  match (if s.clockOff (pAle ch) then none else (s.al ch).wake) with
  | none => best
  | some x => match best with
    | none => some ch
    | some b => match (s.al b).wake with
      | some y => if x.at_ < y.at_ then some ch else some b
      | none => some ch

/-- The channel a pipeline serves next. -/
def State.nextWake (s : State) (k : Nat) : Option Nat :=
  (List.range 4).foldl (fun b i => s.earlierWake b (4 * k + i)) none

/-- The channel whose computation runs in a pipeline. -/
def State.pipeRuns (s : State) (k : Nat) : Option Nat := Tab.get (fun _ => none) s.pipe k

/-- Set the channel whose computation runs in a pipeline. -/
def State.setPipe (s : State) (k : Nat) (v : Option Nat) : State := { s with pipe := Tab.set (fun _ => none) s.pipe k v }

/-- ALE_COMPUTATION (R157 to R159): an idle pipeline starts its next pending computation. -/
def doAleComputation (k : Nat) (s : State) : State :=
  if 24 ≤ k ∨ (s.pipeRuns k).isSome = true then s
  else match s.nextWake k with
    | none => s
    | some ch =>
      let a := s.al ch
      (s.setAl ch { a with wake := none, run := a.wake }).setPipe k (some ch)

/-- A compare rounded and clamped to the duty envelope, and whether the clamp acted (R173). -/
def State.dutyClamp (s : State) (ch L : Nat) (m : Rat) : Nat × Bool :=
  let p := pPwm ch
  let lo : Int := ((s.get p PWM_ENV_DUTY.lo * L + 1023) / 1024 : Nat)
  let hi : Int := (min 1024 (s.get p PWM_ENV_DUTY.hi) * L / 1024 : Nat)
  let r := roundAway m
  let c := clampI lo hi r
  (c.toNat, c != r)

/-- The ALE writes the compares of the enabled legs on one edge (R132, R137, R173): a value that violates the duty envelope does not
land, and is a violation; the others land. -/
def State.aleCompares (s : State) (ch : Nat) (l : List (Nat × Nat)) : State :=
  let good := l.filter (fun e => s.dutyOk ch e.2)
  let s1 := if good.isEmpty then s
    else (good.foldl (fun (u : State) e => u.setCmp ch e.1 e.2) (s.noteShadow ch)).reloadNow ch
  if good.length < l.length then s1.dutyViolate ch else s1

/-- Put a number in S2.34 into a word that shows it. -/
def State.show34 (s : State) (p : Nat) (f : Fld) (v : Rat) : State := s.putSat p f (nearInt (v * 2 ^ 34))

/-- Show what a computation gave (R188, R190); a word for which it gave nothing keeps its value. (DESIGN CHOICE, log 47) -/
def State.aleShow (s : State) (ch : Nat) (r : AleRes) (dc : Bool) : State :=
  let p := pAle ch
  let s1 := (((s.put p ALE_BLK.hist (b2n r.hist)).put p ALE_BLK.path r.path).put p ALE_BLK.vsat (b2n r.vsat)).put
    p ALE_BLK.rclamp (b2n r.rclamp)
  let s2 := s1.put p ALE_BLK.dclamp (b2n dc)
  let pair := fun (f g : Fld) (o : Option (Rat × Rat)) (u : State) => match o with
    | none => u
    | some y => (u.show34 p f y.1).show34 p g y.2
  let s3 := pair ALE_INT_D.i ALE_INT_Q.i r.ints (pair ALE_MEAS_D.i ALE_MEAS_Q.i r.meas s2)
  let s4 := pair ALE_OUT_D.v ALE_OUT_Q.v r.out s3
  match r.ang with
  | none => s4
  | some v => (s4.putI p ALE_ANG.th (nearInt (v.1 * 2 ^ 36))).putSat p ALE_FE.f (nearInt (v.2 * 2 ^ 16))

/-- An invalid result in mode 1 or 2 (R164, R180): event 4, and, once in a streak that has reached the snapshot's maxinv, event 5 with
hist cleared. -/
def State.aleInvalid (s : State) (ch mx : Nat) : State :=
  let p := pAle ch
  let a := s.al ch
  let hit := decide (mx ≤ a.inval + 1) && !a.invRec
  let s1 := (s.setAl ch { a with inval := a.inval + 1, invRec := a.invRec || hit }).ev p 4
  if hit then (s1.put p ALE_BLK.hist 0).evC p 5 else s1

/-- The end of a computation on its snapshot. -/
def State.aleFinish (s : State) (ch : Nat) (x : AleSnap) : State :=
  let p := pAle ch
  let r := x.compute (s.al ch) (s.flag p ALE_BLK.hist)
  let cl := r.ms.map (s.dutyClamp ch x.len)
  let legs := (List.range cl.length).filter (fun k => bitN x.legen k)
  let dc := legs.any (fun k => (cl.getD k (0, false)).2)
  let vals := legs.map (fun k => (k, (cl.getD k (0, false)).1))
  let lat := satN 255 (s.now - x.c)
  let s1 := (s.setAl ch { r.st with run := none }).aleShow ch r dc
  let s2 := r.evs.foldl (fun (u : State) b => u.ev p b) s1
  let s3 := if r.inval then s2.aleInvalid ch (x.get ALE_CFG.maxinv) else s2
  let s4 := if dc then s3.ev p 12 else s3
  let s5 := if vals.isEmpty then s4
    else (s4.setAl ch { s4.al ch with last := cl.map (·.1), lastL := x.len }).aleCompares ch vals
  let s6 := (s5.put p ALE_LAT.last lat).put p ALE_LAT.worst (max (s5.get p ALE_LAT.worst) lat)
  (s6.incMod p ALE_SEQ.seq).ev p 0

/-- ALE_COMPUTATION_DONE (R173, R186): the running computation of a pipeline ends and its compares are written. -/
def doAleComputationDone (k : Nat) (s : State) : State :=
  if 24 ≤ k then s
  else match s.pipeRuns k with
    | none => s
    | some ch => s.clocked (pAle ch) fun s =>
      let s1 := s.setPipe k none
      match (s.al ch).run with
      | none => s1
      | some x => s1.aleFinish ch x

/-- The current envelope on a valid result (R184): each enabled input but the one that measures the DC link. (DEDUCED, log 48) -/
def State.aleEnvelope (s : State) (ch inen : Nat) : State :=
  let p := pAle ch
  overAll (List.range 3) s (fun k u =>
    if bitN inen k = false ∨ (k = 2 ∧ u.get p ALE_CFG.vbus = 1) then u
    else
      let a := u.al ch
      let high := decide (u.get p ALE_ENV_I.imax * 2 ^ 17 < (u.getI (pPwm ch) (PWM_SD_RES.i k)).natAbs)
      let n := if high then a.envOver.getD k 0 + 1 else 0
      let u1 := u.setAl ch { a with envOver := a.envOver.set k n }
      if high && decide (u.get p ALE_ENV_I.nq ≤ n) && u.get p ALE_BLK.envblk == 0 then ((u1.envViolate ch).put p ALE_BLK.envblk 1).evC p 3 else u1)

/-- A result of the inputs `inen` has appeared (R157, R165, R184): the DC link is taken, the envelope compared, and the channel woken
with wake 0 unless the result is a continuous one. -/
def State.aleResult (s : State) (ch inen : Nat) (wake : Bool) (c : Nat) (tc : Int) : State :=
  let p := pAle ch
  if s.get p PAGE_CTL.en = 0 ∨ s.clockOff p = true then s
  else
    let s1 := if s.get (pPwm ch) PWM_SD_STAT.valid = 1 then
        let u := if s.get p ALE_CFG.vbus = 1 then s.setAl ch { s.al ch with vmeas := some (s.get (pPwm ch) (PWM_SD_RES.i 2)) } else s
        u.aleEnvelope ch inen
      else s
    if wake ∧ s.get p ALE_CFG.wake = 0 then s1.aleWake ch c tc else s1

/-! Register writes of the page (R160, R165, R176, R181, R185, R189, R190). -/

/-- ALE_REF_COMMIT (R181): the pending pair becomes the committed set. -/
def doAleRefCommit (ch : Nat) (s : State) : State :=
  let p := pAle ch
  if 96 ≤ ch then s
  else (s.setAl ch { s.al ch with cd := s.getI p ALE_REF_D.r, cq := s.getI p ALE_REF_Q.r }).put p ALE_REF_CTL.cpend 1

/-- ALE_CFG_WRITE (R160, R165, R189): the whole word, or refused with event 7. -/
def doAleCfgWrite (ch : Nat) (v : Word) (s : State) : State :=
  let p := pAle ch
  let w := v.toNat
  if 96 ≤ ch then s
  else if 4 ≤ fldGet w ALE_CFG.mode ∨ (fldGet w ALE_CFG.vbus = 1 ∧ fldGet w ALE_CFG.ish = 0)
      ∨ fldGet w ALE_CFG.maxinv = 0 then s.ev p 7
  else
    let s1 := s.plainWrite iniBoot (p + 0x10) w
    if fldGet w ALE_CFG.asrc = 2 ∧ s.get p ALE_CFG.asrc ≠ 2 then s1.setAl ch { s1.al ch with th2 := none } else s1

/-- Is a value in range for a word of the page: with event 7 when it is not, or in silence (R185, R190)? (DEDUCED, log 48) -/
def aleWordOk (off v : Nat) : Bool × Bool :=
  if off = 0x1A then (decide (0 < v) && decide (v ≤ 2 ^ 34), true)
  else if off = 0x20 then (decide (v < 2 ^ 35), true)
  else if off = 0x21 then (decide (v ≤ 2 ^ 34), true)
  else if off = 0x25 then (fldGet v ALE_STP_CTL.force != 3, true)
  else if off = 0x22 then (fldGet v ALE_COMM.pp != 0, false)
  else if off = 0x26 then (fldGet v ALE_ENV_I.nq != 0, false)
  else (true, false)

/-- A write of a block-specific word of an ALE page. -/
def State.aleWrite (s : State) (ini ch off : Nat) (v : Word) : State :=
  let p := pAle ch
  let ok := aleWordOk off v.toNat
  if off = 0x10 then doAleCfgWrite ch v s
  else if off = 0x13 then (if bitN v.toNat 35 then doAleRefCommit ch s else s)
  else if ok.1 = false then (if ok.2 then s.ev p 7 else s.noteRefused (p + off) (s.mergeWord ini (p + off) v.toNat).2)
  else if off = 0x1B ∧ s.get p ALE_CFG.vbus = 1 then s
  else s.plainWrite ini (p + off) v.toNat

/-- The page is disabled: nothing waits or runs for it (R157). -/
def State.aleStop (s : State) (ch : Nat) : State :=
  let s1 := if s.pipeRuns (ch / 4) = some ch then s.setPipe (ch / 4) none else s
  s1.setAl ch { s1.al ch with wake := none, run := none }

/-- The page is enabled anew: nothing waits or runs for it, and history is not valid (R157, R178, R180). -/
def State.aleClear (s : State) (ch : Nat) : State :=
  let a := s.al ch
  ((s.aleStop ch).setAl ch { cd := a.cd, cq := a.cq, ud := a.ud, uq := a.uq, envOver := a.envOver, vmeas := a.vmeas }).put
    (pAle ch) ALE_BLK.hist 0

/-! The commands. -/

/-- The command ALE_COMPUTATION (R157 to R159). -/
def execAleComputation (k : Nat) (s : State) : Out := .next (doAleComputation k s)

/-- The command ALE_COMPUTATION_DONE (R173, R186). -/
def execAleComputationDone (k : Nat) (s : State) : Out := .next (doAleComputationDone k s)

/-- The command ALE_REF_COMMIT (R181). -/
def execAleRefCommit (ch : Nat) (s : State) : Out := .next (s.writeWord 0 (pAle ch + 0x13) (s.withBit (pAle ch + 0x13) 35) (doAleRefCommit ch))

/-- The command ALE_CFG_WRITE (R189). -/
def execAleCfgWrite (ch : Nat) (v : Word) (s : State) : Out := .next (s.writeWord 0 (pAle ch + 0x10) v (doAleCfgWrite ch v))

end Sys2Proof.Machine
end

