-- ==== Sys2Proof/Machine/Sdm.lean ====
section
/-! DEFINITION. Sigma-delta results (R142 to R148): the sinc³ decimator, windows that close, continuous results, the stop of
MCLK, and the carrier start that wakes the ALE. -/

namespace Sys2Proof.Machine

/-- Sums of `osr` neighbours, the missing ones being 0. -/
def boxSum (osr : Nat) (l : List Int) : List Int :=
  let p := (l.foldl (fun (acc : Int × List Int) x => (acc.1 + x, (acc.1 + x) :: acc.2)) (0, [])).2.reverse
  List.zipWith (fun a b => a - b) p (List.replicate osr 0 ++ p)

/-- The sinc³ decimator of a cleared bitstream (R145): the running output, whose value at sample n is entry n - 2, so that
the kernel is symmetric about the 3 × osr samples it integrates. -/
def sinc3 (osr : Nat) (bits : List Bool) : List Int :=
  boxSum osr (boxSum osr (boxSum osr (bits.map (fun b => if b then 1 else -1))))

/-- The mean of the settled outputs at samples 3 × osr to k × osr, over osr³ (R145, R146). -/
def sincMean (osr k : Nat) (bits : List Bool) : Rat :=
  let y := sinc3 osr bits
  let sum := (List.range (k - 2)).foldl (fun (n : Int) j => n + y.getD ((j + 3) * osr - 2) 0) 0
  (sum : Rat) / (((k - 2) * osr ^ 3 : Nat) : Rat)

/-- The longest run of one value in a bitstream is at least 64 (R147). -/
def stuckRun (l : List Bool) (prev : Option Bool) (n : Nat) : Bool :=
  match l with
  | [] => false
  | b :: r =>
    let m := if prev = some b then n + 1 else 1
    decide (64 ≤ m) || stuckRun r (some b) m

/-- The result of an input before saturation (R146). -/
def State.sdValue (s : State) (ch i : Nat) (mean : Rat) : Int :=
  let p := pPwm ch
  roundEven (fixRat 28 (s.get p (PWM_SD_GAIN.g i)) * (mean - fixRat 34 (s.get p (PWM_SD_OFF.o i))) * 2 ^ 34)

/-- Write the results of the inputs that are enabled by `inen` (R146, R147). -/
def State.sdResults (s : State) (ch osr k inen : Nat) (warm : Bool) (bits : List (List Bool)) : State :=
  let p := pPwm ch
  let on := (List.range 3).filter (bitN inen)
  let vals := on.map (fun i => (i, s.sdValue ch i (sincMean osr k (bits.getD i []))))
  let sat := (vals.filter (fun e => decide (e.2 < -(2 ^ 35)) || decide (2 ^ 35 ≤ e.2))).foldl (fun n e => n + 2 ^ e.1) 0
  let stuck := (on.filter (fun i => stuckRun (bits.getD i []) none 0)).foldl (fun n i => n + 2 ^ i) 0
  let s1 := vals.foldl (fun (u : State) e => u.putSat p (PWM_SD_RES.i e.1) e.2) s
  let s2 := ((s1.put p PWM_SD_STAT.sat sat).put p PWM_SD_STAT.stuck stuck).put p PWM_SD_STAT.valid
    (b2n (warm && stuck == 0))
  let s3 := s2.incMod p PWM_SD_STAT.seq
  let s4 := if sat ≠ 0 then s3.ev p 13 else s3
  if stuck ≠ 0 then s4.evC p 12 else s4

/-- The kernel centre of a window in half PCLK cycles: the middle of its first and its last sample instant (R145). -/
def State.centreHalf (s : State) (ch : Nat) (w : SdWin) : Nat := 2 * w.first + (w.k * w.osr - 1) * (s.po (ch / 8)).div

/-- The edge on which a window captures its last bit (R143, R144). -/
def State.windowCloses (s : State) (ch : Nat) (w : SdWin) : Nat :=
  w.first + (w.k * w.osr - 1) * (s.po (ch / 8)).div + (s.po (ch / 8)).dly

/-- The cell time of a window's kernel centre, in 1/64 ns (R145, R162): as cell time stood there, or, where a window is closed before
it, as the present rate of cell time reaches it. (DESIGN CHOICE, log 46) -/
def State.kernelCentre (s : State) (ch : Nat) (w : SdWin) : Int :=
  match w.mid with
  | some t => t
  | none => ((s.cnt 4 : Int) + ((s.centreHalf ch w : Int) - 2 * (s.now : Int)) * (s.incOf 4 : Int) / 2) / 2 ^ 40

/-- MCLK of a port whose clock stands gated stands too (R503): the instants that it gives move on by an edge. (DEDUCED, log 61) -/
def State.mclkTick (s : State) : State :=
  overAll (s.port.map (fun e => e.1)) s (fun q t =>
    if t.clockOff (pPort q) then
      overAll (List.range 8) (t.setPo q { t.po q with mclk := (t.po q).mclk.map (· + 1) }) (fun i u =>
        let r := u.pw (8 * q + i)
        if r.cont.isSome || r.win.isSome then
          u.setPw (8 * q + i) { r with cont := r.cont.map (· + 1), win := r.win.map (fun w => { w with first := w.first + 1 }) }
        else u)
    else t)

/-- The kernel centres of the open windows that lie in the PCLK cycle that begins now are noted (R162). -/
def State.centreTick (s : State) : State :=
  overAll (s.pwm.map (fun e => e.1)) s (fun ch t => match (t.pw ch).win with
    | none => t
    | some w =>
      if t.centreHalf ch w / 2 = t.now then
        t.setPw ch { t.pw ch with win := some { w with mid := some (t.t64At 4 (16 * (t.centreHalf ch w % 2))) } }
      else t)

/-- Do the bitstreams of the inputs enabled by `inen` hold n bits? -/
def bitsFit (inen n : Nat) (bits : List (List Bool)) : Bool :=
  (List.range 3).all (fun i => !bitN inen i || (bits.getD i []).length == n)

/-- SD_WINDOW_CLOSE (R144 to R147): an open window closes on the capture edge of its last bit, its results appear and the ALE is
woken. (DESIGN CHOICE, log 46) -/
def doSdWindowClose (ch : Nat) (b0 b1 b2 : List Bool) (s : State) : State :=
  let r := s.pw ch
  match r.win with
  | none => s
  | some w =>
    let n := w.k * w.osr
    if 96 ≤ ch ∨ s.now < s.windowCloses ch w ∨ bitsFit w.inen n [b0, b1, b2] = false then s
    else
      let s1 := (s.setPw ch { r with win := none }).sdResults ch w.osr w.k w.inen w.warm [b0, b1, b2]
      (s1.ev (pPwm ch) 10).aleResult ch w.inen true s.now (s.kernelCentre ch w)

/-- The periods of MCLK before the first sample instant after the edge on which continuous mode was entered (R148). -/
def State.contFirst (s : State) (ch : Nat) : Nat :=
  match (s.pw ch).cont, (s.po (ch / 8)).mclk with
  | some a, some b => if a < b then 0 else (a - b) / (s.po (ch / 8)).div + 1
  | _, _ => 0

/-- The samples captured since continuous mode was entered: the instants of MCLK from the first one after it, each captured dly
cycles later (R143, R148). (DESIGN CHOICE, log 46) -/
def State.contSamples (s : State) (ch : Nat) : Nat :=
  let q := s.po (ch / 8)
  match q.mclk with
  | some b => if s.now < b + q.dly then 0 else (s.now - (b + q.dly)) / q.div + 1 - s.contFirst ch
  | none => 0

/-- SD_CONTINUOUS_RESULT (R147, R148): in continuous mode, every osr samples a result over the last 3 × osr of them; it is valid
only where MCLK had run 256 periods at the first sample of that span. -/
def doSdContinuousResult (ch : Nat) (b0 b1 b2 : List Bool) (s : State) : State :=
  let p := pPwm ch
  let osr := s.get p PWM_SD_CFG.osr
  let n := (s.pw ch).contN
  let inen := s.get p PWM_SD_CFG.inen
  if 96 ≤ ch ∨ s.get p PAGE_CTL.en = 0 ∨ s.get p PWM_SD_CFG.mode ≠ 2 ∨ (s.po (ch / 8)).mclk = none
      ∨ s.contSamples ch < (n + 3) * osr ∨ bitsFit inen (3 * osr) [b0, b1, b2] = false then s
  else
    let s0 := s.setPw ch { s.pw ch with contN := n + 1 }
    (s0.sdResults ch osr 3 inen (decide (256 ≤ s.contFirst ch + n * osr)) [b0, b1, b2]).aleResult ch inen false s.now 0

/-- MCLK stops while a window of a channel is open (R144): the result is invalid, and the ALE is woken. The count of continuous
results begins anew with MCLK (R148). (DESIGN CHOICE, log 46) -/
def State.loseWindow (s0 : State) (ch : Nat) : State :=
  let p := pPwm ch
  let s := s0.setPw ch { s0.pw ch with contN := 0 }
  match (s.pw ch).win with
  | none => s
  | some w =>
    let s1 := (s.setPw ch { s.pw ch with win := none }).put p PWM_SD_STAT.valid 0
    ((s1.incMod p PWM_SD_STAT.seq).ev p 10).aleResult ch w.inen true s.now (s.kernelCentre ch w)

/-- Does a period of a port's MCLK end on the present edge (R142)? -/
def State.mclkEnds (s : State) (port : Nat) : Bool :=
  match (s.po port).mclk with
  | some b => decide (b < s.now) && decide ((s.now - b) % (s.po port).div = 0)
  | none => false

/-- MCLK_STOP (R142, R144): MCLK stops at the end of its period, open windows close, and with en = 1 it starts again. (DESIGN CHOICE, log 46) -/
def doMclkStop (port : Nat) (s : State) : State :=
  let p := pPort port
  let r := s.po port
  if 12 ≤ port ∨ r.stopping = false ∨ s.get p PORT_MCLK.run = 0 ∨ s.mclkEnds port = false then s
  else
    let s1 := (s.setPo port { r with stopping := false, mclk := none }).put p PORT_MCLK.run 0
    let s2 := overAll (List.range 8) s1 (fun i u => u.loseWindow (8 * port + i))
    if s2.get p PORT_MCLK.en = 1 ∧ s2.get p PORT_MCLK.align = 0 then s2.startMclk port s.now else s2

/-- Start a stage (R122): with PWM_PHASE = 0 the start is a carrier start (R120), which wakes the ALE where wake is 1 (R157). (DEDUCED, log 45) -/
def State.startStage (s : State) (ch : Nat) : State :=
  let t := s.startCarrier ch
  if s.carrierRuns ch = false ∧ t.carrierRuns ch = true ∧ s.get (pPwm ch) PWM_PHASE.ph = 0
      ∧ s.get (pAle ch) ALE_CFG.wake = 1 then t.aleWake ch s.now (s.t64 4 : Int)
  else t

/-- A stage on the edge after its PWM_COMMIT was written, or on the transfer edge of a Prism commit of its group (R122, R124, R126,
R133): a commit tracks a carrier that runs and starts one that stands; a start and a stop of one edge cancel each other; a stop
pends until the next carrier start; and the causes of a transfer on the edge give one. (DEDUCED, log 45) -/
def State.pwmEdge (s : State) (ch : Nat) : State := s.clocked (pPwm ch) fun s =>
  let p := pPwm ch
  let r := s.pw ch
  let runs := s.carrierRuns ch
  let com := r.commitReq && s.flag p PAGE_CTL.en
  let start := r.startReq || (com && !runs)
  let s0 := s.setPw ch { r with go := false, startReq := false, stopReq := false, commitReq := false }
  let s1 := if com && runs && s.flag p PWM_CFG.track then s0.track ch else s0
  let s2 :=
    if start && r.stopReq then s1
    else if start then s1.startStage ch
    else if r.stopReq && runs then s1.setPw ch { s1.pw ch with stop := true }
    else s1
  if r.go || (com && s.get p PWM_CFG.reload == 0) then s2.transferMid ch else s2

/-- CARRIER_START (R120, R124, R126, R133, R141, R157): the period has run to its end; the next begins, or a pending stop takes
effect. With wake = 1 the ALE is woken. -/
def doCarrierStart (ch : Nat) (s : State) : State :=
  let r := s.pw ch
  if ch < 96 ∧ s.carrierRuns ch = true ∧ r.fin ≤ r.c then
    let s1 := s.newPeriod ch
    if s.get (pAle ch) ALE_CFG.wake = 1 then s1.aleWake ch s.now (s.t64 4 : Int) else s1
  else s

/-- The command SD_WINDOW_CLOSE (R146). -/
def execSdWindowClose (ch : Nat) (b0 b1 b2 : List Bool) (s : State) : Out := .next (s.clocked (pPwm ch) (doSdWindowClose ch b0 b1 b2))

/-- The command SD_CONTINUOUS_RESULT (R148). -/
def execSdContinuousResult (ch : Nat) (b0 b1 b2 : List Bool) (s : State) : Out :=
  .next (s.clocked (pPwm ch) (doSdContinuousResult ch b0 b1 b2))

/-- The command MCLK_STOP (R142). -/
def execMclkStop (port : Nat) (s : State) : Out := .next (s.clocked (pPort port) (doMclkStop port))

/-- The command CARRIER_START (R120). -/
def execCarrierStart (ch : Nat) (s : State) : Out := .next (doCarrierStart ch s)

end Sys2Proof.Machine
end

