-- ==== Sys2Proof/Machine/Prof.lean ====
section
/-! DEFINITION. The profile generator (R233 to R267): limits in use, commands, planning at update edges, streams, stops, the
limit and home inputs, homing, the step output, the resolution change, the setpoint latch and the setpoint envelope. -/

namespace Sys2Proof.Machine

/-! Values and limits in use (R233, R236). -/

/-- The kind of a channel. -/
def State.kindOf (s : State) (ch : Nat) : Nat := s.get (pPwm ch) PWM_CFG.kind

/-- An unsigned word with f fraction bits. -/
def State.uwordR (s : State) (p : Nat) (f : Fld) (k : Nat) : Rat := ufixRat k (s.get p f)

/-- A P72 pair of words, in turns. -/
def State.turnsAt (s : State) (p : Nat) (hi lo : Fld) : Rat := turnsOf (p72 (s.get p hi) (s.get p lo))

/-- The setpoint now: position, speed, acceleration. -/
def State.setpoint (s : State) (ch : Nat) : Rat × Rat × Rat := (s.pr ch).value s.ctSec

/-- The step-rate limit (R236, R256); none where kind is not 3. -/
def State.vstep (s : State) (ch : Nat) : Option Rat :=
  let p := pProf ch
  if s.kindOf ch = 3 then
    some (100000000 / (((s.get p PROF_STEPT.pw + s.get p PROF_STEPT.minlo : Nat) : Rat) * s.stepGrid ch))
  else none

/-- vm of R236. -/
def State.vmUse (s : State) (ch : Nat) : Rat :=
  let p := pProf ch
  let v := minR (s.uwordR p PROF_VMAX.v 16) (s.uwordR p PROF_ENV_V.vmax 16)
  match s.vstep ch with
  | some w => minR v w
  | none => v

/-- am of R236. -/
def State.amUse (s : State) (ch : Nat) : Rat :=
  minR (s.uwordR (pProf ch) PROF_AMAX.a 12) (s.uwordR (pProf ch) PROF_ENV_A.amax 12)

/-- dm of R236, as written. -/
def State.dmWritten (s : State) (ch : Nat) : Rat :=
  minR (s.uwordR (pProf ch) PROF_DMAX.a 12) (s.uwordR (pProf ch) PROF_ENV_A.amax 12)

/-- Is the plan now in a ramp toward v = 0? -/
def rampsDown (l : List Seg) (t : Rat) : Bool :=
  match l with
  | [] => false
  | g :: r => if t < g.t0 + g.dur then decide (g.form < 3 ∧ g.v1 = 0 ∧ g.v0 ≠ 0) else rampsDown r t

/-- dm in use (R242, R243): with keep, a ramp toward rest keeps the stronger deceleration until it ends. -/
def State.dmUse (s : State) (ch : Nat) : Rat :=
  let r := s.pr ch
  let d := s.dmWritten ch
  if s.get (pProf ch) PROF_CFG.keep = 1 ∧ rampsDown r.plan s.ctSec = true then maxR d (r.inputs.getD 3 0) else d

/-- The deceleration of a controlled stop (R246, R247): ADEC, or dm when it is 0; within homing dm (R261). -/
def State.decUse (s : State) (ch : Nat) : Rat :=
  let a := s.uwordR (pProf ch) PROF_ADEC.a 12
  if a = 0 ∨ s.homing ch = true then s.dmUse ch else a

/-! Inputs (R258 to R260). -/

/-- The role of an input. -/
def State.inRole (s : State) (ch k : Nat) : Nat :=
  if k = 0 then s.get (pProf ch) PROF_LIM.r0 else s.get (pProf ch) PROF_LIM.r1

/-- The record of an input. -/
def ProfSt.inp (r : ProfSt) (k : Nat) : InSt := if k = 0 then r.inA else r.inB

/-- Put the record of an input. -/
def ProfSt.setInp (r : ProfSt) (k : Nat) (i : InSt) : ProfSt := if k = 0 then { r with inA := i } else { r with inB := i }

/-- Is an input active as treated: at its level and polarity, and a chattering limit input always (R259)? -/
def State.inActive (s : State) (ch k : Nat) : Bool :=
  let i := (s.pr ch).inp k
  let pol := if k = 0 then s.get (pProf ch) PROF_LIM.pol0 else s.get (pProf ch) PROF_LIM.pol1
  let rl := s.inRole ch k
  (i.level != (pol == 1)) || (i.chatter && (rl == 1 || rl == 2))

/-- Is an input of a role active? -/
def State.roleActive (s : State) (ch role : Nat) : Bool :=
  (s.inRole ch 0 == role && s.inActive ch 0) || (s.inRole ch 1 == role && s.inActive ch 1)

/-- Show the inputs as treated (R259). -/
def State.showInputs (s : State) (ch : Nat) : State :=
  let p := pProf ch
  ((s.put p PROF_BLK.limp (b2n (s.roleActive ch 1))).put p PROF_BLK.limn (b2n (s.roleActive ch 2))).put
    p PROF_BLK.home (b2n (s.roleActive ch 3))

/-- The role of the reference input of the homing method, 0 for none (R261). -/
def State.refRole (s : State) (ch : Nat) : Nat :=
  let p := pProf ch
  let m := s.get p PROF_HOME.meth
  if m = 1 ∨ m = 2 then 3 else if m = 3 ∨ m = 4 then (if s.get p PROF_HOME.hdir = 0 then 1 else 2) else 0

/-- A failure of homing (R263): a stop at once with its code. -/
def State.homeFail (s : State) (ch code : Nat) : State := s.stopAtOnce ch code (fun u => u.fc (pProf ch))

/-- Is a speed stopped by an active limit (R260)? The reference input of a homing in progress is exempt. -/
def State.limitBlocks (s : State) (ch : Nat) (v : Rat) : Bool :=
  let ex := if s.homing ch then s.refRole ch else 0
  (decide (0 < v) && ex != 1 && s.roleActive ch 1) || (decide (v < 0) && ex != 2 && s.roleActive ch 2)

/-- The stream, if any, ends: its queue is emptied (R246). -/
def State.endStream (s : State) (ch : Nat) : State :=
  ((s.setPr ch { s.pr ch with pts := [], last := none, under := false }).put (pProf ch) PROF_BLK.strm 0).put
    (pProf ch) PROF_SP_CTL.level 0

/-- A limit acts on motion toward it (R260, R263). -/
def State.limitStop (s : State) (ch : Nat) : State :=
  let p := pProf ch
  if s.limitBlocks ch (s.setpoint ch).2.1 then
    if s.homing ch then (s.homeFail ch 2).ev p 6
    else if s.get p PROF_CFG.lact = 0 then (s.stopAtOnce ch 6 (fun u => u.fc p)).ev p 6
    else if (s.pr ch).goal = .stop then s
    else
      let s1 := s.endStream ch
      (s1.setPr ch { s1.pr ch with goal := .stop, cmd := .none, target := none, inputs := [] }).ev p 6
  else s

/-- The position captured for a debounced change (R258). -/
def State.capturePos (s : State) (ch : Nat) : Rat :=
  let p := pProf ch
  let v := s.setpoint ch
  let x := if s.get p PROF_CFG.psrc = 1 then turnsOf (s.fbkPos ch) else v.1
  x - v.2.1 * ((s.get p PROF_LIM.db - 1 : Nat) : Rat) / 1000000

/-- Show a captured position in PROF_HCAP (R262). -/
def State.setCap (s : State) (ch : Nat) (x : Rat) : State :=
  let n := nearInt (x * 2 ^ 36)
  ((s.setPr ch { s.pr ch with cap := some x }).put (pProf ch) PROF_HCAP_HI.p (p72Hi n)).put (pProf ch) PROF_HCAP_LO.p (p72Lo n)

/-- Enter a homing state with a goal (R262). -/
def State.homeGo (s : State) (ch h : Nat) (g : Goal) : State :=
  (s.setPr ch { s.pr ch with goal := g, inputs := [], homeAt := (s.setpoint ch).1, homeRun := 0 }).put (pProf ch) PROF_BLK.hstate h

/-- The speed of a homing stage: sign and word (R261). -/
def State.homeSpeed (s : State) (ch : Nat) (slow back : Bool) : Rat :=
  let p := pProf ch
  let v := if slow then s.uwordR p PROF_HOME_VL.v 16 else s.uwordR p PROF_HOME_VS.v 16
  if (s.get p PROF_HOME.hdir == 1) != back then -v else v

/-- A debounced change of the reference input moves homing on (R262). -/
def State.homeInput (s : State) (ch : Nat) (active : Bool) : State :=
  let p := pProf ch
  let h := s.get p PROF_BLK.hstate
  let m := s.get p PROF_HOME.meth
  if h = 1 ∧ active = true then s.setPr ch { s.pr ch with goal := .stop, inputs := [] }
  else if h = 2 ∧ active = false then
    let s1 := s.setCap ch (s.capturePos ch)
    if m = 1 ∨ m = 3 then s1.homeGo ch 4 .stop else s1.homeGo ch 3 (.jog (s.homeSpeed ch true true))
  else s

/-- INPUT_DEBOUNCED (R258 to R260, R262, R263): db equal samples have changed the level of an input. -/
def doInputDebounced (ch k : Nat) (level : Bool) (s : State) : State :=
  let p := pProf ch
  let r := s.pr ch
  let i := r.inp k
  if 96 ≤ ch ∨ 2 ≤ k ∨ s.get p PAGE_CTL.en = 0 ∨ i.level = level ∨ i.run < s.get p PROF_LIM.db then s
  else
    let now := s.t64 0
    let chat := match i.last with
      | some t => decide (now ≤ t + 64000 * s.get p PROF_LIM.chold)
      | none => false
    let rl := s.inRole ch k
    let isLim := rl == 1 || rl == 2
    let i1 := { i with level := level, run := 0, last := some now, chatter := i.chatter || (chat && isLim) }
    let s1 := (s.setPr ch (r.setInp k i1)).showInputs ch
    let s2 := if chat then s1.evC p 7 else s1
    let isRef := rl != 0 && rl == s.refRole ch
    if s.homing ch = true ∧ chat = true ∧ (isRef || isLim) = true then s2.homeFail ch 3
    else
      let s3 := if s.homing ch = true ∧ isRef = true then s2.homeInput ch (s2.inActive ch k) else s2
      s3.limitStop ch

/-- CHATTER_HOLD_END (R259): chold has passed since the last change of a chattering input. -/
def doChatterHoldEnd (ch k : Nat) (s : State) : State :=
  let r := s.pr ch
  let i := r.inp k
  let due := match i.last with
    | some t => decide (t + 64000 * s.get (pProf ch) PROF_LIM.chold ≤ s.t64 0)
    | none => true
  if 96 ≤ ch ∨ 2 ≤ k ∨ i.chatter = false ∨ due = false then s
  else (s.setPr ch (r.setInp k { i with chatter := false })).showInputs ch

/-- A sample of an input on an update edge (R258). -/
def InSt.sample (i : InSt) (lv : Bool) : InSt := if lv == i.level then { i with run := 0 } else { i with run := i.run + 1 }

/-! Commands (R237 to R239, R247 to R250, R262, R263). -/

/-- Refuse a command with a code (R238). -/
def State.profRefuse (s : State) (ch code : Nat) : State := (s.put (pProf ch) PROF_CRES.cres code).ev (pProf ch) 1

/-- Accept a command: it waits for the next update edge (R237). -/
def State.profAccept (s : State) (ch : Nat) (c : ProfCmd) : State :=
  (s.setPr ch { s.pr ch with cmd := c }).put (pProf ch) PROF_CRES.cres 1

/-- Is a stop-at-once cause in force (R238, R249)? (DEDUCED, log 53) -/
def State.profHeld (s : State) (ch : Nat) : Bool := s.padBlocked ch || s.blocked.contains (pProf ch)

/-- Does a target lie outside the envelope window while it is checked (R238, R244)? -/
def State.outsideWindow (s : State) (ch : Nat) (x : Rat) : Bool :=
  let p := pProf ch
  s.get p PROF_ENV_CTL.pwin == 1 && s.get p PROF_BLK.ref == 1
    && (decide (x < s.turnsAt p PROF_ENV_PLO_HI.p PROF_ENV_PLO_LO.p) || decide (s.turnsAt p PROF_ENV_PHI_HI.p PROF_ENV_PHI_LO.p < x))

/-- The first motion of a command: as the setpoint moves, or toward where it goes from rest (R260). -/
def State.firstMotion (s : State) (ch : Nat) (d : Rat) : Rat :=
  let v := (s.setpoint ch).2.1
  if v = 0 then d else v

/-- The code with which a command is refused, 1 for an accepted one (R238, R249): 6 while action 4 holds the generator, else the lowest
code that applies. (DEDUCED, log 53) -/
def State.profCode (s : State) (ch : Nat) (needRef : Bool) (target : Option Rat) (motion : Rat) (stream : Bool)
    (homeBad : Bool) : Nat :=
  let p := pProf ch
  if s.blocked.contains p then 6
  else if s.homing ch then 2
  else if needRef && s.get p PROF_BLK.ref == 0 && s.get p PROF_CFG.noref == 0 then 3
  else if (match target with | some x => s.outsideWindow ch x | none => false) then 4
  else if s.limitBlocks ch motion then 5
  else if s.profHeld ch then 6
  else if stream && (s.get pTime0 TIME_CT_STAT.valid == 0 || (s.pr ch).pts.isEmpty) then 7
  else if homeBad then 8
  else 1

/-- Issue a command: refused by its code, or accepted. -/
def State.profIssue (s : State) (ch code : Nat) (c : ProfCmd) : State :=
  if s.get (pProf ch) PAGE_CTL.en = 0 then s
  else if code = 1 then s.profAccept ch c
  else s.profRefuse ch code

/-- The target words. -/
def State.tgtWords (s : State) (ch : Nat) : Rat := s.turnsAt (pProf ch) PROF_TGT_HI.p PROF_TGT_LO.p

/-- Issue a move to base + the target words (R237): an accepted one names the last commanded target at once. -/
def State.issueMove (s : State) (ch : Nat) (needRef : Bool) (base : Rat) : State :=
  let x := base + s.tgtWords ch
  let c := s.profCode ch needRef (some x) (s.firstMotion ch (x - (s.setpoint ch).1)) false false
  let s1 := s.profIssue ch c (.move base)
  if c = 1 ∧ s.get (pProf ch) PAGE_CTL.en = 1 then s1.setPr ch { s1.pr ch with target := some x } else s1

/-- ABSOLUTE_MOVE (R237, R238). -/
def doAbsoluteMove (ch : Nat) (s : State) : State := s.issueMove ch true 0

/-- RELATIVE_MOVE (R237, R238): from the last commanded target, or from p where there is none since the last stop. -/
def doRelativeMove (ch : Nat) (s : State) : State := s.issueMove ch false ((s.pr ch).target.getD (s.setpoint ch).1)

/-- VELOCITY_MOVE (R238, R239). -/
def doVelocityMove (ch : Nat) (s : State) : State :=
  let v := fixRat 16 (s.get (pProf ch) PROF_JOG.v)
  s.profIssue ch (s.profCode ch false none (s.firstMotion ch v) false false) (.jog v)

/-- STREAM (R238, R245). -/
def doStream (ch : Nat) (s : State) : State :=
  let d := match (s.pr ch).pts with
    | [] => 0
    | q :: _ => q.p - (s.setpoint ch).1
  s.profIssue ch (s.profCode ch false none (s.firstMotion ch d) true false) .stream

/-- Is the homing configuration unusable (R263)? -/
def State.homeBad (s : State) (ch : Nat) : Bool :=
  let p := pProf ch
  let m := s.get p PROF_HOME.meth
  let role := s.refRole ch
  !inRange m 1 5 || (m != 5 && !(s.inRole ch 0 == role || s.inRole ch 1 == role))
    || ((m == 2 || m == 4 || m == 5)
        && (!(s.fbkMode ch == 1 || s.fbkMode ch == 2) || s.get (pFbk ch) FBK_IDX_CFG.zen == 0))
    || s.get p PROF_HOME_VS.v == 0 || s.get p PROF_HOME_VL.v == 0

/-- The first speed of homing: the state it begins in and its speed (R262). -/
def State.homeStart (s : State) (ch : Nat) : Nat × Rat :=
  if s.get (pProf ch) PROF_HOME.meth = 5 then (3, s.homeSpeed ch true false)
  else if s.roleActive ch (s.refRole ch) then (2, s.homeSpeed ch true true)
  else (1, s.homeSpeed ch false false)

/-- Is a motion at the start of homing blocked by a limit that is not its reference input (R260)? -/
def State.homeBlocked (s : State) (ch : Nat) (v : Rat) : Bool :=
  let ex := s.refRole ch
  (decide (0 < v) && ex != 1 && s.roleActive ch 1) || (decide (v < 0) && ex != 2 && s.roleActive ch 2)

/-- HOME (R262, R263). -/
def doHome (ch : Nat) (s : State) : State :=
  let bad := s.homeBad ch
  let c := s.profCode ch false none 0 false bad
  let c1 := if (c = 1 ∨ 5 < c) ∧ s.blocked.contains (pProf ch) = false ∧ bad = false ∧
      s.homeBlocked ch (s.firstMotion ch (s.homeStart ch).2) = true then 5 else c
  s.profIssue ch c1 .home

/-- ABORT (R247, R248, R263): a controlled stop, or the report that it had no effect. (DEDUCED, log 54) -/
def doAbort (ch : Nat) (s : State) : State :=
  let p := pProf ch
  let r := s.pr ch
  if 96 ≤ ch ∨ s.get p PAGE_CTL.en = 0 then s
  else if r.doneAt = some s.now then s.put p PROF_CRES.abres 2
  else if s.get p PROF_BLK.busy = 0 ∧ r.cmd = .none then s.put p PROF_CRES.abres 3
  else
    let s0 := s.endStream ch
    let s1 := (s0.setPr ch { s0.pr ch with goal := if r.goal = .rest then .rest else .stop, cmd := .none, target := none, inputs := [] })
    let s2 := (s1.put p PROF_CRES.abres 1).ev p 2
    if s.homing ch then
      (((s2.put p PROF_BLK.hstate 6).put p PROF_HOME.hres 5).put p PROF_BLK.ref 0).evC p 9
    else s2

/-- QSTOP (R249). -/
def doQstop (ch : Nat) (s : State) : State :=
  if ch < 96 ∧ s.get (pProf ch) PAGE_CTL.en = 1 then s.stopAtOnce ch 6 (fun u => u.fc (pProf ch)) else s

/-- POSITION_LOAD (R249, R250): the load waits for the next update edge, or is refused: while a stop-at-once cause is in force, in homing,
and while the setpoint moves. (DEDUCED, log 54) -/
def doPositionLoad (ch : Nat) (s : State) : State :=
  let p := pProf ch
  if 96 ≤ ch ∨ s.get p PAGE_CTL.en = 0 then s
  else if s.blocked.contains p then s.profRefuse ch 6
  else if s.homing ch then s.profRefuse ch 2
  else if s.profHeld ch then s.profRefuse ch 6
  else if (s.setpoint ch).2.1 ≠ 0 then s.profRefuse ch 10
  else (s.setPr ch { s.pr ch with load := some (s.turnsAt p PROF_POS_SET_HI.p PROF_POS_SET_LO.p) }).put p PROF_CRES.cres 1

/-- The queue level. -/
def State.showLevel (s : State) (ch : Nat) : State := s.put (pProf ch) PROF_SP_CTL.level (s.pr ch).pts.length

/-- The time of a point, in seconds of cell time. -/
def StreamPt.sec (q : StreamPt) : Rat := ((q.t64 : Int) : Rat) / 64000000000

/-- A Hermite segment to a point (R245). -/
def hermite (t0 p0 v0 : Rat) (q : StreamPt) : Seg :=
  { t0 := t0, dur := q.sec - t0, p0 := p0, v0 := v0, p1 := q.p, v1 := q.v, form := 3 }

/-- One segment per point, the first from a setpoint (R245). -/
def streamSegs (t0 p0 v0 : Rat) (l : List StreamPt) : List Seg :=
  match l with
  | [] => []
  | q :: r => hermite t0 p0 v0 q :: streamSegs q.sec q.p q.v r

/-- What follows the last point of a stream: rest, or its velocity held (R245, R246). -/
def streamTail (q : StreamPt) : List Seg := if q.v = 0 then [] else [cruiseSeg q.sec q.p q.v endless]

/-- The plan of a stream through the points of its queue. -/
def streamPlan (t0 p0 v0 : Rat) (l : List StreamPt) : List Seg :=
  streamSegs t0 p0 v0 l ++ (match l.getLast? with | some q => streamTail q | none => [])

/-- A point that joins the queue of a running stream lengthens its plan. -/
def ProfSt.lengthen (r : ProfSt) (q : StreamPt) : ProfSt :=
  match r.goal, r.under, r.pts.getLast? with
  | .stream, false, some o => { r with plan := r.plan.filter (fun g => g.form == 3) ++ [hermite o.sec o.p o.v q] ++ streamTail q }
  | _, _, _ => r

/-- STREAM_PUSH (R244): the point enters the queue of 8, or is refused with event 10. (DEDUCED, log 54) -/
def doStreamPush (ch : Nat) (s : State) : State :=
  let p := pProf ch
  let r := s.pr ch
  let v := fixRat 16 (s.get p PROF_SP_VEL.v)
  let q : StreamPt := { p := s.turnsAt p PROF_SP_HI.p PROF_SP_LO.p, v := v,
                        t64 := t72 (s.get p PROF_SP_THI.t) (s.get p PROF_SP_TLO.t) }
  let badT := match r.pts.getLast? with
    | some o => decide (q.t64 < o.t64 + 128000) || decide (o.t64 + secUnits < q.t64)
    | none => decide (q.t64 < s.t64 4 + 128000)
  let fast := s.get p PROF_ENV_CTL.ven == 1 && decide (s.uwordR p PROF_ENV_V.vmax 16 < absR v)
  if 96 ≤ ch ∨ s.get p PAGE_CTL.en = 0 then s
  else if 8 ≤ r.pts.length ∨ badT = true ∨ fast = true ∨ s.outsideWindow ch q.p = true then s.ev p 10
  else (s.setPr ch { r.lengthen q with pts := r.pts ++ [q] }).showLevel ch

/-! Planning (R240 to R246). -/

/-- The completion edge of a move or stream (R241): busy clears and event 0 is recorded; the setpoint follows its plan to the end. -/
def State.profComplete (s : State) (ch : Nat) : State :=
  let p := pProf ch
  let s1 := s.setPr ch { s.pr ch with goal := .rest, inputs := [], doneAt := some s.now }
  ((s1.put p PROF_BLK.busy 0).put p PROF_BLK.strm 0).ev p 0

/-- The move, stream or homing is complete with its final ramp at its end (R241): the setpoint rests. -/
def State.profDone (s : State) (ch : Nat) (x : Rat) : State :=
  (s.setPr ch ((s.pr ch).replan s.ctSec x [] [])).profComplete ch

/-- Does the completion wait for a step edge (R241)? -/
def State.stepsWait (s : State) (ch : Nat) : Bool := s.kindOf ch == 3 && !(s.pr ch).waits.isEmpty

/-- Plan a move (R240, R242). -/
def State.planMove (s : State) (ch : Nat) (base : Rat) : State :=
  let p := pProf ch
  let r := s.pr ch
  let t := s.ctSec
  let (x, v, _) := r.value t
  let tgt := base + s.tgtWords ch
  let sh := s.get p PROF_CFG.shape
  let ins := [tgt, s.vmUse ch, s.amUse ch, s.dmUse ch, (sh : Rat)]
  if x = tgt ∧ v = 0 ∧ planOver r.plan t = true then
    (if s.stepsWait ch then s else s.profDone ch x)
  else if r.inputs = ins ∧ planOver r.plan t = false then s
  else
    let m := movePlan sh t x v tgt (s.vmUse ch) (s.amUse ch) (s.dmUse ch)
    let s1 := s.setPr ch { r.replan t x m.1 ins with target := some tgt }
    if m.2 then (s1.put p PROF_BLK.ovs 1).ev p 4 else s1

/-- Plan a velocity move (R239). -/
def State.planJog (s : State) (ch : Nat) (v1 : Rat) : State :=
  let r := s.pr ch
  let t := s.ctSec
  let (x, v, _) := r.value t
  let vm := s.vmUse ch
  let w := if v1 < -vm then -vm else if vm < v1 then vm else v1
  let sh := s.get (pProf ch) PROF_CFG.shape
  let ins := [w, vm, s.amUse ch, s.dmUse ch, (sh : Rat)]
  if r.inputs = ins then s
  else s.setPr ch (r.replan t x (jogPlan sh t x v w (s.amUse ch) (s.dmUse ch)) ins)

/-- Plan a controlled stop (R246, R247); at rest the generator is idle. -/
def State.planStop (s : State) (ch : Nat) : State :=
  let p := pProf ch
  let r := s.pr ch
  let t := s.ctSec
  let (x, v, _) := r.value t
  let sh := s.get p PROF_CFG.shape
  let a := s.decUse ch
  let ins := [0, 0, 0, a, (sh : Rat)]
  if v = 0 then
    let s1 := s.setPr ch { r.replan t x [] [] with goal := if s.homing ch then r.goal else .rest }
    if s.homing ch then s1 else s1.put p PROF_BLK.busy 0
  else if r.inputs = ins then s
  else s.setPr ch (r.replan t x (stopPlan sh t x v a) ins)

/-- The time of the head point has come (R245, R246): it leaves the queue on this edge, and the stream goes on with the next segment of
its plan. After the last point it finishes at rest, or its velocity is held. -/
def State.streamDrop (s : State) (ch : Nat) : State :=
  let r := s.pr ch
  match r.goal, r.under, r.pts with
  | .stream, false, q :: rest =>
    if q.t64 ≤ s.t64 4 then
      let r1 := r.replan q.sec q.p (r.plan.drop 1) []
      let r2 := { r1 with pts := rest, last := some q, under := rest.isEmpty && q.v != 0 }
      (s.setPr ch (if rest.isEmpty ∧ q.v = 0 then { r2 with goal := .finish } else r2)).showLevel ch
    else s
  | _, _, _ => s

/-- At an update edge a stream whose velocity is held takes the points that have come meanwhile. (DEDUCED, log 54) -/
def State.planStream (s : State) (ch : Nat) : State :=
  let r := s.pr ch
  let t := s.ctSec
  if r.under ∧ r.pts ≠ [] then
    let (x, v, _) := r.value t
    s.setPr ch { r.replan t x (streamPlan t x v r.pts) [] with under := false }
  else s

/-- Re-plan for the goal. -/
def State.profPlan (s : State) (ch : Nat) : State :=
  match (s.pr ch).goal with
  | .rest => s
  | .move b => s.planMove ch b
  | .jog v => s.planJog ch v
  | .stream => s.planStream ch
  | .stop => s.planStop ch
  | .finish => if s.stepsWait ch then s else s.profDone ch (s.setpoint ch).1

/-- A stream ends with a ramp to 0 and event 11 (R246). -/
def State.underrun (s : State) (ch : Nat) : State :=
  let s1 := s.endStream ch
  (s1.setPr ch { s1.pr ch with goal := .stop, inputs := [], target := none }).evC (pProf ch) 11

/-- STREAM_UNDERRUN (R246): the hold after the last point has passed. -/
def doStreamUnderrun (ch : Nat) (s : State) : State :=
  let r := s.pr ch
  match r.last with
  | none => s
  | some q =>
    if ch < 96 ∧ r.goal = .stream ∧ r.under = true ∧ r.pts = []
        ∧ q.t64 + 64000 * s.get (pProf ch) PROF_SP_CTL.hold ≤ s.t64 4 then (s.underrun ch).planStop ch
    else s

/-- Cell time steps by `d` sixty-fourths of a nanosecond (R110, R246): a stream ends from this edge, and every other plan goes
on with the time that has elapsed in it. (DESIGN CHOICE, log 55) -/
def State.profStep (s : State) (ch : Nat) (d : Int) : State :=
  let x : Rat := (d : Rat) / 64000000000
  let mv := fun (g : Seg) => { g with t0 := g.t0 + x }
  let r := s.pr ch
  let s1 := if r.plan = [] ∧ r.old = [] then s
    else s.setPr ch { r with plan := r.plan.map mv, old := r.old.map (fun o => { o with till := o.till + x, plan := o.plan.map mv }) }
  if r.goal = .stream then (s1.underrun ch).planStop ch else s1

/-- Take the waiting position load (R250): p shifts, the output does not; a stream goes on from the new position to its head point. A
load that finds the setpoint moving is refused. (DEDUCED, log 54) -/
def State.takeLoad (s : State) (ch : Nat) : State :=
  let r := s.pr ch
  match r.load with
  | none => s
  | some x =>
    let t := s.ctSec
    let v := s.setpoint ch
    if v.2.1 = 0 then
      let l := if r.goal = .stream then streamPlan t x 0 r.pts else []
      ((s.setPr ch { r.replan t x l [] with load := none, shift := r.shift + (x - v.1), target := none }).put
        (pProf ch) PROF_BLK.ref 1).put (pProf ch) PROF_BLK.plost 0
    else (s.setPr ch { r with load := none }).profRefuse ch 10

/-- Take the waiting command (R237, R246, R262). A stream command during a stream ends it with its queue; with no point left the setpoint
ramps to rest. (DESIGN CHOICE, log 18) -/
def State.takeCmd (s : State) (ch : Nat) : State :=
  let p := pProf ch
  let r := s.pr ch
  if r.cmd = .none then s
  else
    let s0 := if r.cmd = .stream ∧ r.goal ≠ .stream then s else s.endStream ch
    let s1 := (((s0.setPr ch { s0.pr ch with cmd := .none, inputs := [] }).put p PROF_BLK.busy 1).put p PROF_BLK.ovs 0).put
      p PROF_BLK.hstate 0
    match r.cmd with
    | .move b => s1.setPr ch { s1.pr ch with goal := .move b, target := some (b + s.tgtWords ch) }
    | .jog v => s1.setPr ch { s1.pr ch with goal := .jog v }
    | .stop => s1.setPr ch { s1.pr ch with goal := .stop }
    | .home => let h := s.homeStart ch; s1.homeGo ch h.1 (.jog h.2)
    | .stream =>
      let t := s.ctSec
      let (x, v, _) := r.value t
      match (s1.pr ch).pts with
      | [] => s1.setPr ch { s1.pr ch with goal := .stop, target := none }
      | l => (s1.setPr ch { (s1.pr ch).replan t x (streamPlan t x v l) [] with goal := .stream, under := false }).put p PROF_BLK.strm 1
    | .none => s1

/-- Homing moves on at an update edge (R262 to R264): the distance travelled counts, state 2 follows the ramp of state 1, and state 4
assigns the position. (DEDUCED, log 54) -/
def State.homeStep (s0 : State) (ch : Nat) : State :=
  let p := pProf ch
  let h := s0.get p PROF_BLK.hstate
  let (x, v, _) := (s0.pr ch).value s0.ctSec
  let r := { s0.pr ch with homeAt := x, homeRun := (s0.pr ch).homeRun + absR (x - (s0.pr ch).homeAt) }
  let s := if inRange h 1 4 then s0.setPr ch r else s0
  if h = 1 ∧ r.goal = .stop ∧ v = 0 then s.homeGo ch 2 (.jog (s.homeSpeed ch true true))
  else if h = 4 ∧ v = 0 then
    let d := s.turnsAt p PROF_HOME_POS_HI.p PROF_HOME_POS_LO.p - r.cap.getD x
    let s1 := s.setPr ch { r.replan s.ctSec (x + d) [] [] with shift := r.shift + d, goal := .rest, target := none }
    let s2 := if s.get p PROF_CFG.psrc = 1 then s1.loadPos ch (s.fbkPos ch + nearInt (d * 2 ^ 36)) else s1
    let s3 := ((((s2.put p PROF_BLK.ref 1).put p PROF_BLK.plost 0).put p PROF_BLK.hstate 5).put p PROF_HOME.hres 1).put
      p PROF_BLK.busy 0
    s3.ev p 8
  else if inRange h 1 4 = true ∧ s.uwordR p PROF_HOME_MAXD.d 16 < r.homeRun then s.homeFail ch 4
  else if h = 3 ∧ 17 / 16 < r.homeRun then s.homeFail ch 7
  else s

/-! The step output and the resolution (R252 to R256). -/

/-- Show the steps due, and record event 12 when they come to exceed 16 (R256). -/
def State.showLag (s : State) (ch : Nat) : State :=
  let p := pProf ch
  let r := s.pr ch
  let lag := r.waits.length
  let s1 := s.put p PROF_STEPLAG.lag (satN 0xFFFF lag)
  if 16 < lag ∧ r.lagRec = false then (s1.setPr ch { r with lagRec := true }).evC p 12
  else if lag ≤ 16 ∧ r.lagRec = true then s1.setPr ch { r with lagRec := false }
  else s1

/-- The crossings of the step grid in an update interval of 400 edges that begins at `now` (R254): the position moves from a to b in
steps by linear interpolation, the crossings up to index `d` being placed already. Each is the edge of the crossing and its direction. -/
def crossings (now : Nat) (d : Int) (a b : Rat) : List (Nat × Bool) :=
  let n := (b.floor - d).natAbs
  let up := decide (d < b.floor)
  (List.range n).map (fun k =>
    let line : Int := if up then d + 1 + (k : Int) else d - (k : Int)
    let x := if a = b then 0 else minR 1 (maxR 0 (((line : Rat) - a) / (b - a)))
    (now + (400 * x).floor.toNat, up))

/-- The grid index of the steps launched, less that of the steps that wait. -/
def waitSum (l : List Bool) : Int := l.foldl (fun n up => n + (if up then 1 else -1)) 0

/-- At an update edge of kind 3 the steps of the coming interval are placed (R254). Where the grid is new (a kind that becomes 3, another
fspt or mres), the index begins where the position stands in it. (DEDUCED, log 56) -/
def State.stepsPlace (s : State) (ch : Nat) : State :=
  let r := s.pr ch
  if s.kindOf ch = 3 then
    let g := s.stepGrid ch
    let q := fun (t : Rat) => ((r.value t).1 - r.shift) * g
    let a := q s.ctSec
    let b := q (s.ctSec + 1 / 1000000)
    let r1 : ProfSt := match r.base with
      | some (h, _) => if h = g then r else { r with base := some (g, a.floor), stepped := a.floor - waitSum r.waits }
      | none => { r with base := some (g, a.floor), stepped := a.floor - waitSum r.waits }
    let d := match r1.base with | some (_, n) => n | none => a.floor
    s.setPr ch { r1 with cross := r.cross ++ crossings s.now d a b, base := some (g, b.floor) }
  else if r.base.isSome then s.setPr ch { r with base := none }
  else s

/-- The steps whose crossing instants have come are due (R254, R256). (DEDUCED, log 56) -/
def State.stepsDue (s : State) (ch : Nat) : State :=
  let r := s.pr ch
  match r.cross.filter (fun e => decide (e.1 ≤ s.now)) with
  | [] => s
  | l => (s.setPr ch { r with waits := r.waits ++ l.map (fun e => e.2), cross := r.cross.filter (fun e => decide (s.now < e.1)) }).showLag ch

/-- The direction changes when the next due step is in the other direction and th has passed since the last rise (R255, step 3). -/
def State.stepTurn (s : State) (ch : Nat) : State :=
  let r := s.pr ch
  let turns := match r.waits with | [] => false | up :: _ => up != r.dirPos
  let held := match r.riseAt with
    | some t => decide (s.now < t + 40 * s.get (pProf ch) PROF_STEPT.th)
    | none => false
  if turns && !held && !s.padBlocked ch && !(s.pw ch).padHold then s.setPr ch { r with dirPos := !r.dirPos, dirAt := some s.now } else s

/-- The halving count of a full-step rate (R252). -/
def halvings (F thr : Rat) : Nat := if F < thr then 0 else 1 + Nat.log2 (F / thr).floor.toNat

/-- Has a multiple of 1/u been crossed or met between two electrical positions? -/
def crossedGrid (u a b : Rat) : Bool := decide ((a * u).floor ≠ (b * u).floor) || decide (((b * u).floor : Rat) = b * u)

/-- The electrical position (R251). -/
def State.electric (s : State) (ch : Nat) : Rat :=
  ((s.setpoint ch).1 - (s.pr ch).shift) * ((s.get (pProf ch) PROF_STEP.fspt : Nat) : Rat) / 4

/-- A due change of the resolution takes effect on the first edge at which the electrical position has come to a boundary of the coarser
grid (R253). -/
def State.resMeet (s : State) (ch : Nat) : State :=
  let p := pProf ch
  let r := s.pr ch
  match r.resDue with
  | none => s
  | some code =>
    let e := s.electric ch
    let u : Rat := ((4 * 2 ^ (min (s.get p PROF_BLK.res) code) : Nat) : Rat)
    if crossedGrid u r.ePrev e then ((s.setPr ch { r with resDue := none, ePrev := e }).put p PROF_BLK.res code).ev p 13
    else s.setPr ch { r with ePrev := e }

/-- The resolution code at an update edge (R252, R253): a change that is due waits for a boundary of the coarser grid, and takes effect
at once on one. -/
def State.resolution (s : State) (ch : Nat) : State :=
  let p := pProf ch
  let r := s.pr ch
  let mres := s.get p PROF_STEP.mres
  let thr := s.uwordR p PROF_MRES.thr 12
  let cur := s.get p PROF_BLK.res
  if s.kindOf ch ≠ 2 then (s.setPr ch { r with resDue := none }).put p PROF_BLK.res mres
  else
    let v := s.setpoint ch
    let fspt : Rat := ((s.get p PROF_STEP.fspt : Nat) : Rat)
    let F := absR v.2.1 * fspt
    let h := if thr = 0 then 0 else halvings F thr
    let finer := decide (thr = 0) || decide (F < 7 / 8 * thr * ((2 ^ (r.halv - 1) : Nat) : Rat))
    let hn := if r.halv < h then h else if h < r.halv ∧ finer = true then h else r.halv
    let code := max (mres - hn) (s.get p PROF_STEP.cmin)
    if code = cur then s.setPr ch { r with halv := hn, resDue := none }
    else (s.setPr ch { r with halv := hn, resDue := some code, ePrev := if r.resDue.isSome then r.ePrev else s.electric ch }).resMeet ch

/-- The setpoint envelope (R266). -/
def State.profEnvelope (s : State) (ch : Nat) : State :=
  let p := pProf ch
  let (x, v, a) := s.setpoint ch
  let bad := (s.get p PROF_ENV_CTL.ven == 1 && decide (s.uwordR p PROF_ENV_V.vmax 16 < absR v))
    || (s.get p PROF_ENV_CTL.aen == 1 && decide (s.uwordR p PROF_ENV_A.amax 12 < absR a)) || s.outsideWindow ch x
  if bad then ((s.envViolate ch).put p PROF_BLK.envblk 1).evC p 5 else s

/-- The pads of a kind 3 channel follow the generator from an update edge after the last block (R257). -/
def State.releaseStepPads (s : State) (ch : Nat) : State :=
  if s.kindOf ch = 3 ∧ s.padBlocked ch = false then s.setPw ch { s.pw ch with padHold := false } else s

/-- What a generator does on every edge: points leave the queue, placed steps come due, the direction changes, and a due change of the
resolution takes effect (R245, R253 to R255). -/
def State.profEdge (s : State) (ch : Nat) : State := s.clocked (pProf ch) fun s => (((s.streamDrop ch).stepsDue ch).stepTurn ch).resMeet ch

/-- The generators that something may happen to on an edge. -/
def ProfSt.busyEdge (r : ProfSt) : Bool := (r.goal == .stream && !r.pts.isEmpty) || !r.cross.isEmpty || !r.waits.isEmpty || r.resDue.isSome

/-- The edge of every generator. -/
def State.profEdges (s : State) : State :=
  overAll ((s.prof.filter (fun e => e.2.busyEdge)).map (fun e => e.1)) s (fun ch t => t.profEdge ch)

/-- UPDATE_EDGE (R233, R240, R242, R253, R258, R260, R262, R266): TB0 is at a whole microsecond; the inputs are sampled, the
waiting load and command taken, the plan renewed, and the limits, homing, steps, resolution and envelope judged. -/
def doUpdateEdge (ch : Nat) (in0 in1 : Bool) (s : State) : State :=
  if 96 ≤ ch ∨ s.get (pProf ch) PAGE_CTL.en = 0 ∨ s.t64 0 % 64000 ≠ 0 then s
  else
    let r := s.pr ch
    let s0 := s.setPr ch { r with inA := r.inA.sample in0, inB := r.inB.sample in1 }
    let s1 := (s0.takeLoad ch).takeCmd ch
    let s2 := ((s1.profPlan ch).limitStop ch).homeStep ch
    let s3 := ((((s2.releaseStepPads ch).stepsPlace ch).profEdge ch).resolution ch)
    s3.profEnvelope ch

/-- May the next step edge rise (R255)? (DEDUCED, log 56) -/
def State.stepReady (s : State) (ch : Nat) : Bool :=
  let p := pProf ch
  let r := s.pr ch
  let low := match r.riseAt with
    | some t => decide (t + 4 * (s.get p PROF_STEPT.pw + s.get p PROF_STEPT.minlo) ≤ s.now)
    | none => true
  let dir := r.waits.head? == some r.dirPos && (match r.dirAt with
    | some t => decide (t + 40 * s.get p PROF_STEPT.tsu ≤ s.now)
    | none => true)
  !r.stepHigh && low && dir

/-- Is a step count the last of the move or stream in progress (R241): the plan ends at the target, and no later step is due? -/
def State.lastStep (s : State) (ch : Nat) (st : Int) : Bool :=
  let r := s.pr ch
  match r.goal with
  | .move b =>
    let tgt := b + s.tgtWords ch
    let ends := match r.plan.getLast? with
      | some g => decide (g.p1 = tgt)
      | none => decide (r.p = tgt)
    ends && decide (st = ((tgt - r.shift) * s.stepGrid ch).floor)
  | .finish => (r.waits.drop 1).isEmpty && r.cross.isEmpty
  | _ => false

/-- STEP_EMIT (R241, R254, R255): the next due step rises once every condition holds; the last one of a move completes it. -/
def doStepEmit (ch : Nat) (s : State) : State :=
  let p := pProf ch
  let r := s.pr ch
  if 96 ≤ ch ∨ s.get p PAGE_CTL.en = 0 ∨ s.kindOf ch ≠ 3 ∨ s.padBlocked ch = true ∨ (s.pw ch).padHold = true
      ∨ s.stepReady ch = false then s
  else
    let up := r.dirPos
    let st := if up then r.stepped + 1 else r.stepped - 1
    let s1 := s.setPr ch { r with stepped := st, waits := r.waits.drop 1, stepHigh := true, riseAt := some s.now }
    let s2 := (s1.putI p PROF_STEPCNT.n (s.getI p PROF_STEPCNT.n + (if up then 1 else -1))).showLag ch
    if s.lastStep ch st then s2.profComplete ch else s2

/-- STEP_PULSE_FALL (R254, R255): the step pair falls pw after its rise. -/
def doStepPulseFall (ch : Nat) (s : State) : State :=
  let r := s.pr ch
  let due := match r.riseAt with
    | some t => decide (t + 4 * s.get (pProf ch) PROF_STEPT.pw ≤ s.now)
    | none => false
  if ch < 96 ∧ r.stepHigh = true ∧ due = true then s.setPr ch { r with stepHigh := false } else s

/-! Latches, reads and writes (R200, R265, R268 to R272). -/

/-- A Prism latch of the channel's group (R265): the setpoint at the latch edge. -/
def State.profLatch (s : State) (ch : Nat) : State :=
  let p := pProf ch
  if s.get p PAGE_CTL.en = 0 then s
  else
    let v := s.setpoint ch
    let x := nearInt (v.1 * 2 ^ 36)
    let s1 := ((s.put p PROF_LAT_HI.p (p72Hi x)).put p PROF_LAT_LO.p (p72Lo x)).putSat p PROF_LAT_VEL.v (nearInt (v.2.1 * 2 ^ 16))
    let s2 := (s1.putSat p PROF_LAT_ACC.a (nearInt (v.2.2 * 2 ^ 12))).put p PROF_LAT_ST.ref (s.get p PROF_BLK.ref)
    (s2.put p PROF_LAT_ST.busy (s.get p PROF_BLK.busy)).incMod p PROF_LAT_ST.seq

/-- The live setpoint position in 2^-36 turn. -/
def State.profPos (s : State) (ch : Nat) : Int := nearInt ((s.setpoint ch).1 * 2 ^ 36)

/-- PROF_POS_READ (R200, R269): a core reads PROF_POS_HI, and PROF_POS_LO is held for it. -/
def doProfPosRead (core ch : Nat) (s : State) : State :=
  if 96 ≤ ch then s
  else
    let x := s.profPos ch
    let s1 := { s with rdata := word (p72Hi x) }
    if core < 64 then s1.holdSet core 3 (pProf ch + 0x1A) [word (p72Lo x)] else s1

/-- PROF_LAT_READ (R265): a core reads PROF_LAT_HI, and the rest of the set is held for it. -/
def doProfLatRead (core ch : Nat) (s : State) : State :=
  if 96 ≤ ch then s
  else
    let p := pProf ch
    let s1 := { s with rdata := s.regW (p + 0x38) }
    if core < 64 then s1.holdSet core 4 (p + 0x38) ((List.range 4).map (fun k => s.regW (p + 0x39 + k))) else s1

/-- Is a value in range for a word of the page (R235, R252, R269, R270)? (DEDUCED, log 53) -/
def profWordOk (off v : Nat) : Bool :=
  if off = 0x10 then fldGet v PROF_CFG.shape != 3 && decide (fldGet v PROF_CFG.lact < 2)
  else if off = 0x20 then
    decide (fldGet v PROF_STEP.cmin ≤ fldGet v PROF_STEP.mres) && decide (fldGet v PROF_STEP.mres ≤ 8)
      && fldGet v PROF_STEP.fspt != 0
  else if off = 0x21 then decide (2 ≤ fldGet v PROF_STEPT.pw) && decide (2 ≤ fldGet v PROF_STEPT.minlo)
  else if off = 0x25 then
    fldGet v PROF_LIM.db != 0 && !(fldGet v PROF_LIM.r0 == fldGet v PROF_LIM.r1 && fldGet v PROF_LIM.r0 != 0)
  else if off = 0x26 then inRange (fldGet v PROF_HOME.meth) 1 5
  else true

/-- The words that are fixed while busy is 1. -/
def profFixed (off : Nat) : Bool := off == 0x20 || off == 0x21 || off == 0x25 || off == 0x26

/-- A write of PROF_CMD (R237, R239): setpos, then the strongest of qstop, abort and go. -/
def State.profCmdWrite (s : State) (ch v : Nat) : State :=
  let p := pProf ch
  let s0 := s.put p PROF_CMD.op (fldGet v PROF_CMD.op)
  let s1 := if fldGet v PROF_CMD.setpos = 1 then doPositionLoad ch s0 else s0
  if fldGet v PROF_CMD.qstop = 1 then doQstop ch s1
  else if fldGet v PROF_CMD.abort = 1 then doAbort ch s1
  else if fldGet v PROF_CMD.go = 1 then
    let op := fldGet v PROF_CMD.op
    if op = 0 then doAbsoluteMove ch s1
    else if op = 1 then doRelativeMove ch s1
    else if op = 2 then doVelocityMove ch s1
    else if op = 3 then doStream ch s1
    else if op = 4 then doHome ch s1
    else if s1.get p PAGE_CTL.en = 0 then s1
    else s1.profRefuse ch (if s1.blocked.contains p then 6 else if s1.homing ch then 2 else if s1.profHeld ch then 6 else 9)
  else s1

/-- A write of a block-specific word of a PROF page. -/
def State.profWrite (s : State) (ini ch off : Nat) (v : Word) : State :=
  let p := pProf ch
  if off = 0x18 then s.profCmdWrite ch v.toNat
  else if off = 0x35 then
    let s1 := s.plainWrite ini (p + off) v.toNat
    if bitN v.toNat 35 then doStreamPush ch s1 else s1
  else if off = 0x34 ∧ t72Ok v.toNat = false then s.fc p
  else if (profFixed off && s.get p PROF_BLK.busy == 1) || !profWordOk off v.toNat then s.ev p 14
  else if off = 0x25 then (s.plainWrite ini (p + off) v.toNat).showInputs ch
  else s.plainWrite ini (p + off) v.toNat

/-- PAGE_CTL.en of a PROF page becomes 1: the setpoint stands at 0, nothing is planned, and no command has come (R238, R251). (DEDUCED, log 54) -/
def State.profEnable (s : State) (ch : Nat) : State :=
  let p := pProf ch
  let s1 := ((s.setPr ch {}).put p PROF_CRES.cres 0).put p PROF_CRES.abres 0
  let s2 := ((((s1.put p PROF_BLK.busy 0).put p PROF_BLK.ref 0).put p PROF_BLK.ovs 0).put p PROF_BLK.hstate 0).put p PROF_BLK.strm 0
  ((s2.put p PROF_BLK.res (s.get p PROF_STEP.mres)).put p PROF_SP_CTL.level 0).showInputs ch

/-- PAGE_CTL.en of a PROF page becomes 0: the generator holds nothing more. -/
def State.profDisable (s : State) (ch : Nat) : State :=
  let p := pProf ch
  ((((s.setPr ch {}).put p PROF_BLK.busy 0).put p PROF_BLK.hstate 0).put p PROF_BLK.strm 0).put p PROF_SP_CTL.level 0

/-- A qualified index in homing state 3 is captured (R262). -/
def State.homeIndex (s : State) (ch : Nat) : State :=
  let p := pProf ch
  if s.get p PAGE_CTL.en = 1 ∧ s.get p PROF_BLK.hstate = 3 then
    (s.setCap ch (s.turnsAt (pFbk ch) FBK_IDX_PHI.p FBK_IDX_PLO.p)).homeGo ch 4 .stop
  else s

/-- INDEX (R202, R203, R262): a qualified index is recorded, acts under the policy, and ends homing state 3. -/
def doIndex (ch : Nat) (s : State) : State :=
  if ch < 96 ∧ s.indexQualifies ch = true then (s.indexEdge ch).homeIndex ch else s

/-- Limit a command of the page to the channels there are. -/
def onChannel (ch : Nat) (f : State → State) (s : State) : State := if ch < 96 then f s else s

/-- The word of PROF_CMD that issues an operation. -/
def profWord (op : Nat) : Word := word (2 ^ 35 + op * 2 ^ 32)

/-! The commands. -/

/-- The command INDEX (R203). -/
def execIndex (ch : Nat) (s : State) : Out := .next (doIndex ch s)

/-- The command UPDATE_EDGE (R240). -/
def execUpdateEdge (ch : Nat) (in0 in1 : Bool) (s : State) : Out := .next (s.clocked (pProf ch) (doUpdateEdge ch in0 in1))

/-- The command ABSOLUTE_MOVE (R240). -/
def execAbsoluteMove (ch : Nat) (s : State) : Out :=
  .next (s.writeWord 0 (pProf ch + 0x18) (profWord 0) (onChannel ch (doAbsoluteMove ch)))

/-- The command RELATIVE_MOVE (R237). -/
def execRelativeMove (ch : Nat) (s : State) : Out :=
  .next (s.writeWord 0 (pProf ch + 0x18) (profWord 1) (onChannel ch (doRelativeMove ch)))

/-- The command VELOCITY_MOVE (R239). -/
def execVelocityMove (ch : Nat) (s : State) : Out :=
  .next (s.writeWord 0 (pProf ch + 0x18) (profWord 2) (onChannel ch (doVelocityMove ch)))

/-- The command STREAM (R245). -/
def execStream (ch : Nat) (s : State) : Out := .next (s.writeWord 0 (pProf ch + 0x18) (profWord 3) (onChannel ch (doStream ch)))

/-- The command HOME (R262). -/
def execHome (ch : Nat) (s : State) : Out := .next (s.writeWord 0 (pProf ch + 0x18) (profWord 4) (onChannel ch (doHome ch)))

/-- The command ABORT (R247). -/
def execAbort (ch : Nat) (s : State) : Out := .next (s.writeWord 0 (pProf ch + 0x18) (word (2 ^ 31)) (doAbort ch))

/-- The command QSTOP (R249). -/
def execQstop (ch : Nat) (s : State) : Out := .next (s.writeWord 0 (pProf ch + 0x18) (word (2 ^ 30)) (doQstop ch))

/-- The command POSITION_LOAD (R250). -/
def execPositionLoad (ch : Nat) (s : State) : Out := .next (s.writeWord 0 (pProf ch + 0x18) (word (2 ^ 29)) (doPositionLoad ch))

/-- The command STREAM_PUSH (R244). -/
def execStreamPush (ch : Nat) (s : State) : Out :=
  .next (s.writeWord 0 (pProf ch + 0x35) (s.withBit (pProf ch + 0x35) 35) (doStreamPush ch))

/-- The command STREAM_UNDERRUN (R246). -/
def execStreamUnderrun (ch : Nat) (s : State) : Out := .next (s.clocked (pProf ch) (doStreamUnderrun ch))

/-- The command STEP_EMIT (R255). -/
def execStepEmit (ch : Nat) (s : State) : Out := .next (s.clocked (pProf ch) (doStepEmit ch))

/-- The command STEP_PULSE_FALL (R254). -/
def execStepPulseFall (ch : Nat) (s : State) : Out := .next (s.clocked (pProf ch) (doStepPulseFall ch))

/-- The command INPUT_DEBOUNCED (R258). -/
def execInputDebounced (ch k : Nat) (level : Bool) (s : State) : Out := .next (s.clocked (pProf ch) (doInputDebounced ch k level))

/-- The command CHATTER_HOLD_END (R259). -/
def execChatterHoldEnd (ch k : Nat) (s : State) : Out := .next (s.clocked (pProf ch) (doChatterHoldEnd ch k))

/-- The command PROF_POS_READ (R269). -/
def execProfPosRead (core ch : Nat) (s : State) : Out := .next (s.readWord (pProf ch + 0x1A) (doProfPosRead core ch))

/-- The command PROF_LAT_READ (R265). -/
def execProfLatRead (core ch : Nat) (s : State) : Out := .next (s.readWord (pProf ch + 0x38) (doProfLatRead core ch))

end Sys2Proof.Machine
end

