-- ==== Sys2Proof/Machine/Blocks.lean ====
section
/-! DEFINITION. What a block reset does to the words of a page (R21), and the writes of registers that hold a value within a
range. -/

namespace Sys2Proof.Machine

/-- Is a field kept across a block reset: an SL field after envelope lock, an OL field after sealing (R21)? -/
def State.kept (s : State) (f : Fld) : Bool := (f.acc == .sl && s.slLocked) || (f.acc == .ol && s.olSealed)

/-- A word's value after a block reset: its reset value, with the kept fields of the old value put back. -/
def State.resetKeep (s : State) (a old : Nat) : Nat :=
  ((wordFields a).filter s.kept).foldl (fun w f => fldPut w f (fldGet old f)) (resetWord a).toNat

/-- Return one word to its reset value, its kept fields apart. -/
def State.resetOne (s : State) (a : Nat) : State := s.setReg a (s.resetKeep a (s.reg a))

/-- Return the listed words from `lo` to below `hi` to their reset values, but for the words that `keep` names. -/
def State.resetWords (s : State) (lo hi : Nat) (keep : Nat → Bool) : State :=
  overAll ((s.regs.map (fun e => e.1)).filter (fun a => decide (lo ≤ a) && decide (a < hi) && !keep a)) s
    (fun a t => t.resetOne a)

/-- The reset of the words of a page (R21): its block-specific words and status, PAGE_EV and PAGE_EVPEND; `blk` is what
PAGE_STAT keeps of the block-specific bits. (DESIGN CHOICE, log 113) -/
def State.resetPage (s : State) (p : Nat) (keep : Nat → Bool) (blk : Nat) : State :=
  let s1 := s.resetWords (p + 0x10) (p + 0x100) keep
  let s2 := s1.setReg (p + 2) (s.reg (p + 2) % 256 + blk)
  (s2.put p PAGE_EV.ev 0).put p PAGE_EVPEND.evpend 0

/-- A write of a field that holds a value within a range: outside it the field keeps its value and the write is counted in
the page's fault counter; else the whole word is taken. -/
def State.rangeWrite (s : State) (ini a v : Nat) (ok : Bool) : State :=
  if ok then s.plainWrite ini a v else s.fc (pageOf a)

/-- Is a value of FC_CFG acceptable (R42)? -/
def fcOk (v : Nat) : Bool := decide (1 ≤ fldGet v FC_CFG.n) && decide (fldGet v FC_CFG.w ≤ 20) && decide (fldGet v FC_CFG.action < 5)

/-- The pages of a single block, from the page that shows its number of pages (R29). -/
def pageBlocked (s : State) (p : Nat) : Bool := decide (p ∈ s.blocked)

end Sys2Proof.Machine
end

