-- ==== Sys2Proof/Machine/Time.lean ====
section
/-! DEFINITION. The time unit (R51 to R90): the counters, the steering of the bases, cell time and its selector, the re-epoch,
snapshots, inputs and outputs, link delays and transmit timestamps; and the walks of the Prism's table that a jump of a counter
makes (R110, R111). -/

namespace Sys2Proof.Machine

/-! Walks (R110, R111). -/

/-- A trigger is disarmed with a code. -/
def State.trgDisarm (s : State) (n code : Nat) : State :=
  let s1 := ((s.put (pTrg n) TRG_CTL.arm 0).put (pTrg n) TRG_ST.armed 0).put (pTrg n) TRG_ST.code code
  { s1 with prism := { s1.prism with
      armed := s1.prism.armed.filter (fun k => k != n)
      armedAt := s1.prism.armedAt.filter (fun k => k.1 != n) } }

/-- The fire time of a trigger in 1/64 ns. -/
def State.trgTime (s : State) (n : Nat) : Nat := t72 (s.get (pTrg n) TRG_TH.sec) (s.get (pTrg n) TRG_TL.frac)

/-- Write the fire time of a trigger. -/
def State.setTrgTime (s : State) (n t : Nat) : State :=
  (s.put (pTrg n) TRG_TH.sec (t72Hi t)).put (pTrg n) TRG_TL.frac (t72Lo t)

/-- The first point at or after `lo` of the grid through `t` with period `P` (R78). -/
def gridFrom (t P lo : Nat) : Nat := lo + (t + P - lo % P) % P

/-- A walk visits an entry (R110): an armed one-shot on the walked counter is disarmed with code 5, and a periodic entry takes
its re-phased fire time and the new generation. (DEDUCED, log 39) -/
def State.walkVisit (s : State) (b v n : Nat) : State :=
  let e := pTrg n
  if s.get e TRG_CTL.arm = 1 ∧ s.get e TRG_CTL.tb = b then
    let P := s.get pPrism1 (PRISM_PER.p (s.get e TRG_CTL.pidx))
    if s.get e TRG_CTL.per = 0 ∨ P = 0 then s.trgDisarm n 5
    else (s.put e TRG_ST.gen (s.generation b)).setTrgTime n (gridFrom (s.trgTime n) P ((v + 2 ^ 40 - 1) / 2 ^ 40 + 64000))
  else s

/-- The running walk visits the 16 entries of its edge number `i`. -/
def State.walkEdge (s : State) (i : Nat) : State :=
  match s.prism.walk with
  | none => s
  | some (b, v) =>
    overAll (s.prism.armed.filter (fun n => n / 16 == i)) s (fun n t => t.walkVisit b v n)

/-- A walk on a counter starts on the present edge. -/
def State.walkBegin (s : State) (b v : Nat) : State :=
  { s with prism := { s.prism with walk := some (b, v), walkAt := s.now } }.walkEdge 0

/-- Put a walk request among the waiting ones, in the order TB1, TB2, TB3, CT, merging with one of the same counter. -/
def waitInsert (b v : Nat) (l : List (Nat × Nat)) : List (Nat × Nat) :=
  match l with
  | [] => [(b, v)]
  | e :: r => if b < e.1 then (b, v) :: e :: r else if b = e.1 then (b, v) :: r else e :: waitInsert b v r

/-- A counter jumps (R110, R111): its walk starts at once, or the request waits. -/
def State.walkRequest (s : State) (b : Nat) : State :=
  match s.prism.walk with
  | none => if s.prism.waiting = [] then s.walkBegin b (s.cnt b)
    else { s with prism := { s.prism with waiting := waitInsert b (s.cnt b) s.prism.waiting } }
  | some _ => { s with prism := { s.prism with waiting := waitInsert b (s.cnt b) s.prism.waiting } }

/-- Does a walk run or wait? -/
def State.walking (s : State) : Bool := s.prism.walk.isSome || !s.prism.waiting.isEmpty

/-- Does a walk of a counter run or wait? -/
def State.walkOn (s : State) (b : Nat) : Bool :=
  (match s.prism.walk with | some w => w.1 == b | none => false) || s.prism.waiting.any (fun w => w.1 == b)

/-- Are the triggers of a counter held: from its jump to the end of its walk, and through a re-epoch for CT (R77, R110)? (DEDUCED, log 40) -/
def State.trgHeld (s : State) (b : Nat) : Bool :=
  s.walkOn b || (b == 4 && s.get pTime0 TIME_CT_STAT.state == 4)

/-- GENERATION_WALK_START (R111): the first waiting request starts its walk, when none runs. -/
def execGenerationWalkStart (s : State) : Out := .next <|
  match s.prism.walk, s.prism.waiting with
  | none, w :: r => { s with prism := { s.prism with waiting := r } }.walkBegin w.1 w.2
  | _, _ => s

/-! Cell time (R67 to R78). -/

/-- Is a base eligible (R67)? -/
def State.eligible (s : State) (n : Nat) : Bool :=
  let p := pTb n
  inRange n 1 3 && s.flag p TIME_TB_STAT.hist && s.flag p TIME_TB_STAT.locked && !s.flag p TIME_TB_STAT.disc
    && (!s.flag pTime0 TIME_CT_STAT.valid
      || decide (((s.cnt n : Int) - s.cnt 4).natAbs ≤ s.get pTime0 TIME_STEP_LIM.lim * 2 ^ 46))

/-- The slew term is active while cell time follows a base and |D| is not below 15.625 ps (R69). (DEDUCED, log 34) -/
def State.noteSlew (s : State) : State :=
  if s.following && decide (2 ^ 40 ≤ s.ctDiff.natAbs) && !s.flag pTime0 TIME_CT_STAT.slewing then
    s.put pTime0 TIME_CT_STAT.slewing 1 else s

/-- The selector takes a state and a followed base (R70): a change records event 1, and an entry to holdover event 2. -/
def State.select (s : State) (st b : Nat) : State :=
  let st0 := s.get pTime0 TIME_CT_STAT.state
  let b0 := s.get pTime0 TIME_CT_STAT.base
  if st0 = st ∧ b0 = b then s
  else
    let s1 := ((s.put pTime0 TIME_CT_STAT.state st).put pTime0 TIME_CT_STAT.base b).ev pTime0 1
    if st = 3 then
      let f := s.getI (pTb b) TIME_TB_FREQ.freq
      ({ s1 with time := { s1.time with frozen := f } }.put pTime0 TIME_CT_STAT.slewing 0).evC pTime0 2
    else s1.noteSlew

/-- The hold-off of R70 counts in TB0 from the instant at which the primary became eligible without a break. -/
def State.noteRevert (s : State) : State :=
  let on := s.get pTime0 TIME_CT_STAT.state == 2 && s.eligible (s.get pTime0 TIME_CT_CTL.pri)
  let r := if on then (match s.time.revert with | some t => some t | none => some (s.t64 0)) else none
  { s with time := { s.time with revert := r } }

/-- The selector applies R70. (DEDUCED, log 34) -/
def State.selector (s : State) : State :=
  let st := s.get pTime0 TIME_CT_STAT.state
  let b := s.get pTime0 TIME_CT_STAT.base
  let pri := s.get pTime0 TIME_CT_CTL.pri
  let mir := s.get pTime0 TIME_CT_CTL.mir
  let s1 :=
    if st = 0 ∨ st = 4 then s
    else if s.flag pTime0 TIME_CT_CTL.hold then s.select 3 b
    else if s.flag pTime0 TIME_CT_CTL.auto_ = false then (if s.eligible pri then s.select 1 pri else s.select 3 b)
    else if st = 2 ∧ s.eligible mir = true then s.select 2 mir
    else if s.eligible pri then s.select 1 pri
    else if s.eligible mir then s.select 2 mir
    else s.select 3 b
  s1.noteRevert.noteSlew

/-- Cell time takes the value of a base: the running window is lengthened, the generators are told of the step, and the
Prism walks (R38, R68, R77). (DEDUCED, log 35) -/
def State.ctLoad (s : State) (b : Nat) : State :=
  let old := s.t64 4
  let v := s.cnt b
  let s1 := { (s.put pTime0 TIME_CT_STAT.valid 1).setCnt 4 v with jumpAt := some (s.t64 0) }
  let s2 := (s1.put pTime0 TIME_CT_STAT.epoch (s.get pTime0 TIME_CT_STAT.epoch + 1)).put pTime0 TIME_CT_STAT.base b
  (overAll (List.range 96) s2 (fun ch t => t.profStep ch ((vis64 v : Int) - old))).walkRequest 4

/-- CT_FIRST_VALIDITY (R68): the primary, or else the Mirror, is eligible: cell time takes its value and becomes valid, its
epoch is 1, and event 0 is recorded; the selector then applies. (DESIGN CHOICE, log 109) -/
def execCtFirstValidity (s : State) : Out := .next <|
  let pri := s.get pTime0 TIME_CT_CTL.pri
  let mir := s.get pTime0 TIME_CT_CTL.mir
  if s.flag pTime0 TIME_CT_STAT.valid then s
  else if s.eligible pri then (((s.ctLoad pri).put pTime0 TIME_CT_STAT.state 1).ev pTime0 0).selector
  else if s.eligible mir then (((s.ctLoad mir).put pTime0 TIME_CT_STAT.state 2).ev pTime0 0).selector
  else s

/-- REVERT_HOLDOFF_EXPIRE (R70): the primary has been eligible for the hold-off without a break: cell time returns to it. -/
def execRevertHoldoffExpire (s : State) : Out := .next <|
  let k := s.get pTime0 TIME_CT_CTL.revert
  match s.noteRevert.time.revert with
  | none => s
  | some t =>
    if s.flag pTime0 TIME_CT_CTL.hold ∨ s.flag pTime0 TIME_CT_CTL.auto_ = false ∨ k = 0 ∨ s.t64 0 < t + k * secUnits then s
    else (s.select 1 (s.get pTime0 TIME_CT_CTL.pri)).noteRevert

/-- SLEW_DONE (R69): |D| is below 15.625 ps: the slew term ends and event 6 is recorded. -/
def execSlewDone (s : State) : Out := .next <|
  if s.following && s.flag pTime0 TIME_CT_STAT.slewing && decide (s.ctDiff.natAbs < 2 ^ 40) then
    (s.put pTime0 TIME_CT_STAT.slewing 0).ev pTime0 6
  else s

/-- CT_CTL_WRITE (R73): a base choice of 0, or an equal one, keeps the register and counts. -/
def doCtCtlWrite (v : Nat) (s : State) : State :=
  let pri := fldGet v TIME_CT_CTL.pri
  let mir := fldGet v TIME_CT_CTL.mir
  if pri = 0 ∨ mir = 0 ∨ pri = mir then s.fc pTime0
  else (s.plainWrite 0 (pTime0 + 0x10) v).selector

/-- RE_EPOCH (R77): a write of TIME_REEPOCH. With go, cell time takes the value of the named base, or the write is refused
with event 4. (DEDUCED, log 35) -/
def doReEpoch (v : Nat) (s : State) : State :=
  let b := fldGet v TIME_REEPOCH.base
  let go := fldGet v TIME_REEPOCH.go
  if b = 0 then (if go = 1 then (s.fc pTime0).ev pTime0 4 else s.fc pTime0)
  else if go = 0 then s.put pTime0 TIME_REEPOCH.base b
  else if s.flag pTime0 TIME_CT_STAT.valid = false ∨ s.get pTime0 TIME_CT_STAT.state = 4
      ∨ s.flag (pTb b) TIME_TB_STAT.locked = false then s.ev pTime0 4
  else
    let s1 := (s.put pTime0 TIME_REEPOCH.base b).put pTime0 TIME_CT_STAT.state 4
    let s2 := if s.flag pTime0 TIME_CT_STAT.slewing then (s1.put pTime0 TIME_CT_STAT.slewing 0).ev pTime0 6 else s1
    s2.ctLoad b

/-- RE_EPOCH_DONE (R77, step 5): the walk of cell time has ended: triggers on it and the selector resume, with event 3. The selector
applies from the state that follows the named base: 2 for the Mirror, else 1. (DESIGN CHOICE, log 109) -/
def execReEpochDone (s : State) : Out := .next <|
  let b := s.get pTime0 TIME_CT_STAT.base
  if s.get pTime0 TIME_CT_STAT.state ≠ 4 ∨ s.walkOn 4 = true then s
  else
    let st := if b = s.get pTime0 TIME_CT_CTL.mir then 2 else 1
    ((s.put pTime0 TIME_CT_STAT.state st).ev pTime0 3).selector

/-! Steering a base (R56 to R66). -/

/-- A base unlocks (R58): locked and good become 0, and an unlock of a locked base records event 2 and counts. -/
def State.tbUnlock (s : State) (n : Nat) : State :=
  let p := pTb n
  let was := s.flag p TIME_TB_STAT.locked
  let s1 := (s.put p TIME_TB_STAT.locked 0).put p TIME_TB_STAT.good 0
  let s2 := { s1 with time := { s1.time with bad := Tab.wr s1.time.bad n 0 } }
  if was then s2.evC p 2 else s2

/-- A measurement within the step limit counts toward the lock state (R58). -/
def State.tbCount (s : State) (n : Nat) (e : Int) : State :=
  let p := pTb n
  if e.natAbs ≤ s.get p TIME_TB_LOCK.thr then
    let s1 := s.inc p TIME_TB_STAT.good
    let s2 := { s1 with time := { s1.time with bad := Tab.wr s1.time.bad n 0 } }
    if s2.flag p TIME_TB_STAT.locked = false ∧ 16 ≤ s2.get p TIME_TB_STAT.good then (s2.put p TIME_TB_STAT.locked 1).ev p 1
    else s2
  else
    let k := Tab.rd s.time.bad n + 1
    let s1 := s.put p TIME_TB_STAT.good 0
    let s2 := { s1 with time := { s1.time with bad := Tab.wr s1.time.bad n k } }
    if 4 ≤ k ∧ s.flag p TIME_TB_STAT.locked = true then s2.tbUnlock n else s2

/-- A base steps by an offset in 1/64 ns: its epoch increments, event 4 is recorded, and the Prism walks (R61, R66). -/
def State.tbJump (s : State) (n v : Nat) : State :=
  let p := pTb n
  (((s.setCnt n v).put p TIME_TB_STAT.epoch (s.get p TIME_TB_STAT.epoch + 1)).ev p 4).walkRequest n

/-- A base value moved by an offset in 1/64 ns. -/
def State.tbPlus (s : State) (n : Nat) (e : Int) : Nat := (((s.cnt n : Int) + e * 2 ^ 40) % (cntMod : Nat)).toNat

/-- A rate contribution k × e / τ in units of 2^-44, formed exactly and rounded with ties away from zero (R57). -/
def servoTerm (k e : Int) (tau : Nat) : Int := roundAway (((k * e * 1024 : Int) : Rat) / (tau : Int))

/-- The measurement timeout of a base restarts (R58). -/
def State.tbRestart (s : State) (n : Nat) : State :=
  { s with time := { s.time with mt := Tab.wr s.time.mt n (s.t64 0), lapsed := s.time.lapsed.filter (fun k => k != n) } }

/-- A measurement beyond the step limit with servo = 1 (R57): the frequency is held, and agreeing measurements lead to an
autostep. -/
def State.tbFar (s : State) (n : Nat) (e : Int) : State :=
  let p := pTb n
  let s1 := s.put p TIME_TB_RATE.rate (s.get p TIME_TB_FREQ.freq)
  let far := Tab.rd s.time.far n
  let first := decide (far = 0) || decide (64000 < (e - Tab.rd s.time.eFirst n).natAbs)
  let far1 := if first then 1 else far + 1
  let ef := if first then e else Tab.rd s.time.eFirst n
  let step := s.flag p TIME_TB_CTL.autostep && decide (s.get p TIME_TB_CTL.confirm ≤ far1)
  let s2 := { s1 with time := { s1.time with
      far := Tab.wr s1.time.far n (if step then 0 else far1), eFirst := Tab.wr s1.time.eFirst n ef } }
  if step then s2.tbJump n (s2.tbPlus n e) else s2

/-- The servo of a measurement within the step limit (R57). (DEDUCED, log 32) -/
def State.tbServo (s : State) (n : Nat) (e : Int) (tau : Nat) : State :=
  let p := pTb n
  let lim := ppm44 (s.get pTime0 TIME_SLEW_LIM.ppm)
  let f := clampI (-8796093022) 8796093022
    (s.getI p TIME_TB_FREQ.freq + servoTerm (s.getI p TIME_TB_KI.ki) e tau)
  let sl := clampI (-lim) lim (servoTerm (s.getI p TIME_TB_KP.kp) e tau)
  let s1 := { s with time := { s.time with far := Tab.wr s.time.far n 0 } }
  (s1.putI p TIME_TB_FREQ.freq f).putI p TIME_TB_RATE.rate (f + sl)

/-- A measurement of a base joins its last 16, and two consecutive ones beyond RING_SYNC.lim are noted for the next cycle start (R375, R376). -/
def State.noteMeas (s : State) (n : Nat) (e : Int) : State :=
  let l := Tab.rd s.ring.meas n
  let far := fun (d : Int) => decide (s.get pRing0 RING_SYNC.lim * 64 < d.natAbs)
  { s with ring := { s.ring with
      meas := Tab.wr s.ring.meas n ((e :: l).take 16)
      far := if far e && l.head?.any far then n :: s.ring.far else s.ring.far } }

/-- A measurement e (in 1/64 ns) of a base at interval τ (in ns): R57, R58. (DEDUCED, log 32) -/
def State.tbMeasure (s : State) (n : Nat) (e : Int) (tau : Nat) : State :=
  let p := pTb n
  let s0 := (((s.noteMeas n e).putSat p TIME_TB_MEAS.meas e).incMod p TIME_TB_STAT.count).tbRestart n
  let beyond := decide (s.get pTime0 TIME_STEP_LIM.lim * 64 < e.natAbs)
  let servo := s.flag p TIME_TB_CTL.servo
  let s1 :=
    if servo && !s.flag p TIME_TB_STAT.hist then
      ((s0.put p TIME_TB_STAT.hist 1).ev p 0).tbJump n (s0.tbPlus n e)
    else if beyond then
      let t := ((s0.put p TIME_TB_STAT.disc 1).tbUnlock n).evC p 3
      if servo then (t.ev p 0).tbFar n e else t
    else if servo then ((s0.tbServo n e tau).ev p 0).tbCount n e
    else s0.tbCount n e
  s1.selector

/-- The interval of a base's source in ns (R56): the ring cycle, TIME_TBn_INTV, 1 s or 1 ms. -/
def State.tbTau (s : State) (n : Nat) : Nat :=
  let src := s.get (pTb n) TIME_TB_CTL.src
  if src = 0 then 0
  else if src ≤ 2 then (if s.get pRing0 RING_CYC.k = 0 then 1 else s.get pRing0 RING_CYC.k) * 31250
  else if src = 3 then s.get (pTb n) TIME_TB_INTV.tau
  else if src = 4 then 1000000000 else 1000000

/-- TB_MEAS_WRITE (R65): with source 3 a write of TIME_TBn_MEAS is a measurement; with any other it has no effect. -/
def doTbMeasWrite (n v : Nat) (s : State) : State :=
  if inRange n 1 3 && s.get (pTb n) TIME_TB_CTL.src == 3 then s.tbMeasure n (sint 36 v) (s.tbTau n) else s

/-- TB_MEAS_TIMEOUT (R58): no measurement has arrived within the timeout in force: the base unlocks and runs on. (DEDUCED, log 32) -/
def execTbMeasTimeout (n : Nat) (s : State) : Out := .next <|
  let p := pTb n
  let tmo := max (s.get p TIME_TB_LOCK.tmo * 2000000) (2 * s.tbTau n * 64)
  if inRange n 1 3 = false ∨ s.get p TIME_TB_LOCK.tmo = 0 ∨ s.flag p TIME_TB_STAT.susp
      ∨ n ∈ s.time.lapsed ∨ s.t64 0 < Tab.rd s.time.mt n + tmo then s
  else
    let s1 := if s.flag p TIME_TB_CTL.servo then s.put p TIME_TB_RATE.rate (s.get p TIME_TB_FREQ.freq) else s
    let s2 := { s1 with time := { s1.time with lapsed := n :: s1.time.lapsed } }
    ((s2.tbUnlock n).ev p 5).selector

/-- TB_LOAD (R60): the base takes TIME_TBn_SET, sets hist and clears f and the rate. -/
def doTbLoad (n : Nat) (s : State) : State :=
  let p := pTb n
  if inRange n 1 3 then
    let v := t72 (s.get p TIME_TB_SET_HI.sec) (s.get p TIME_TB_SET_LO.frac)
    let s1 := ((s.put p TIME_TB_STAT.hist 1).put p TIME_TB_FREQ.freq 0).put p TIME_TB_RATE.rate 0
    (s1.tbJump n (v * 2 ^ 40)).selector
  else s

/-- TB_STEP (R60): the base adds TIME_TBn_MEAS to itself, whatever the step limit. -/
def doTbStep (n : Nat) (s : State) : State :=
  if inRange n 1 3 then (s.tbJump n (s.tbPlus n (s.getI (pTb n) TIME_TB_MEAS.meas))).selector else s

/-- TB_RATE_WRITE (R62): the rate holds until the next measurement replaces it. -/
def doTbRateWrite (n v : Nat) (s : State) : State :=
  if inRange n 1 3 then s.put (pTb n) TIME_TB_RATE.rate v else s

/-- TB_FREQ_WRITE (R62, R65): a value outside ±500 ppm keeps the previous one and counts. -/
def doTbFreqWrite (n v : Nat) (s : State) : State :=
  if inRange n 1 3 then
    if (sint 36 v).natAbs ≤ 8796093022 then s.put (pTb n) TIME_TB_FREQ.freq v else s.fc (pTb n)
  else s

/-- TB_SRST (R546): the base keeps its value, its epoch and hist; its other words and the servo state are reset. -/
def doTbSrst (n : Nat) (s : State) : State :=
  let p := pTb n
  if inRange n 1 3 then
    let hist := s.get p TIME_TB_STAT.hist
    let ep := s.get p TIME_TB_STAT.epoch
    let susp := s.get p TIME_TB_STAT.susp
    let s1 := s.resetPage p (fun _ => false) (s.reg (p + 2) / 256 * 256)
    let s2 := ((s1.put p TIME_TB_STAT.hist hist).put p TIME_TB_STAT.epoch ep).put p TIME_TB_STAT.susp susp
    { s2 with time := { s2.time with
        far := Tab.wr s2.time.far n 0, bad := Tab.wr s2.time.bad n 0, eFirst := Tab.wr s2.time.eFirst n 0
        pps6 := Tab.wr s2.time.pps6 n none } }.selector
  else s

/-- TIME_SRST (R547): cell time and the selector keep their state; the settings return to their defaults, and the selector
applies R70 with them. -/
def doTimeSrst (s : State) : State :=
  let s1 := s.resetPage pTime0 (fun a => a == pTime0 + 0x11) (s.reg (pTime0 + 2) / 256 * 256)
  { s1 with time := { s1.time with ppsOut := false, tenOut := false } }.selector

/-! Inputs and outputs (R56, R75, R76). -/

/-- The offset to the nearest multiple of `m` of a time, in (-m/2, m/2] (R56). -/
def nearestOffset (t m : Nat) : Int := if 2 * (t % m) < m then -((t % m : Nat) : Int) else (m : Int) - (t % m : Nat)

/-- The counter that a field names: 0 to 4 (R75); the spec gives 5 to 7 no meaning, and they are taken as CT. (DEDUCED, log 36) -/
def ctrOf (k : Nat) : Nat := min k 4

/-- PPS_IN_EDGE (R56, R75, R85): the marking edge, at a delay-line tap after the present PCLK edge, is stamped, event 5 is recorded, and
bases with source 4 are measured; with source 6 the measurement waits for the 10 MHz input's. -/
def execPpsInEdge (rising : CapEdge) (s : State) : Out := .next <|
  let tap := rising.tap
  if s.flag pTime0 TIME_IN_CTL.pps_en && (rising.rising != s.flag pTime0 TIME_IN_CTL.pps_fall) then
    let b := ctrOf (s.get pTime0 TIME_IN_CTL.tb)
    let s1 := ((s.put pTime0 TIME_PPS_IN_HI.sec (t72Hi (s.t64At b tap))).put pTime0 TIME_PPS_IN_LO.frac (t72Lo (s.t64At b tap))).put
      pTime0 TIME_PPS_IN_ST.st (s.stampWord b 0)
    overAll [1, 2, 3] (s1.ev pTime0 5) (fun n t =>
      let e := nearestOffset (t.t64At n tap) secUnits
      let src := t.get (pTb n) TIME_TB_CTL.src
      if src = 4 then t.tbMeasure n e 1000000000
      else if src = 6 then { t with time := { t.time with pps6 := Tab.wr t.time.pps6 n (some (e, t.t64 0)) } }
      else t)
  else s

/-- TEN_MHZ_IN_EDGE (R56, R85): the edge taken of a millisecond measures the bases with source 5 and 6; the 1PPS measurement of a
base with source 6 of the same millisecond takes its place when they differ by more than 50 ns. The row brings no tap: it is a free value (log 37).
(DEDUCED, log 32; DESIGN CHOICE, log 37) -/
def execTenMhzInEdge (s0 : State) : Out := .next <|
  if s0.flag pTime0 TIME_IN_CTL.ten_en then
    let tap := Config.inputTap s0.freeN % 32
    let s := { s0 with freeN := s0.freeN + 1 }
    overAll [1, 2, 3] s (fun n t =>
      let e := nearestOffset (t.t64At n tap) 6400
      let src := t.get (pTb n) TIME_TB_CTL.src
      if src = 5 then t.tbMeasure n e 1000000
      else if src = 6 then
        let e1 := match Tab.rd t.time.pps6 n with
          | some p => if t.t64 0 < p.2 + 64000000 ∧ 3200 < (p.1 - e).natAbs then p.1 else e
          | none => e
        { t with time := { t.time with pps6 := Tab.wr t.time.pps6 n none } }.tbMeasure n e1 1000000
      else t)
  else s0

/-- PPS_OUTPUT (R76): the output rises at a whole second of its counter, and falls pps_w µs later. (DESIGN CHOICE, log 112) -/
def execPpsOutput (rise : Bool) (s : State) : Out := .next <|
  let b := ctrOf (s.get pTime0 TIME_OUT_CTL.pps_tb)
  if rise then
    if s.flag pTime0 TIME_OUT_CTL.pps_en && s.cntValid b && !pageBlocked s pTime0 && decide (s.t64 b % secUnits < 161) then
      { s with time := { s.time with ppsOut := true, ppsRise := s.t64 0 - s.t64 b % secUnits } }
    else s
  else if s.time.ppsRise + s.get pTime0 TIME_OUT_CTL.pps_w * 64000 ≤ s.t64 0 then { s with time := { s.time with ppsOut := false } }
  else s

/-- TEN_MHZ_OUTPUT (R76): the output rises at a multiple of 100 ns of its counter, and falls 50 ns later. (DESIGN CHOICE, log 112) -/
def execTenMhzOutput (rise : Bool) (s : State) : Out := .next <|
  let b := ctrOf (s.get pTime0 TIME_OUT_CTL.ten_tb)
  if rise then
    if s.flag pTime0 TIME_OUT_CTL.ten_en && s.cntValid b && !pageBlocked s pTime0 && decide (s.t64 b % 6400 < 161) then
      { s with time := { s.time with tenOut := true, tenRise := s.t64 0 - s.t64 b % 6400 } }
    else s
  else if s.time.tenRise + 3200 ≤ s.t64 0 then { s with time := { s.time with tenOut := false } }
  else s

/-- Outputs that are disabled or blocked, or whose counter is not valid, are low (R41, R76). -/
def State.timeOutputs (s : State) : State :=
  let off := pageBlocked s pTime0
  { s with time := { s.time with
      ppsOut := s.time.ppsOut && !off && s.flag pTime0 TIME_OUT_CTL.pps_en && s.cntValid (ctrOf (s.get pTime0 TIME_OUT_CTL.pps_tb))
      tenOut := s.time.tenOut && !off && s.flag pTime0 TIME_OUT_CTL.ten_en && s.cntValid (ctrOf (s.get pTime0 TIME_OUT_CTL.ten_tb)) } }

/-- SNAPSHOT_READ (R35, R80): the read of word 3b takes a new snapshot of counter b, unless the last one has not been read to
its third word, and returns its seconds. -/
def doSnapshotRead (core b : Nat) (s : State) : State :=
  let a := pSnap core + 3 * b
  let k := 8 * core + b
  if 64 ≤ core ∨ 5 ≤ b then s
  else if k ∈ s.time.snapBusy then { s with rdata := s.regW a }
  else
    let s1 := ((s.setReg a (t72Hi (s.t64 b))).setReg (a + 1) (t72Lo (s.t64 b))).setReg (a + 2) (s.stampWord b 0)
    { s1 with rdata := word (t72Hi (s.t64 b)), time := { s1.time with snapBusy := k :: s1.time.snapBusy } }

/-! Timestamp units (R81, R85 to R90). -/

/-- LINK_DELAY_MEASURE (R81, R85): the mean delay of a link from its four stamps, those of its own unit adjusted, averaged over the last
16 cycles. (DESIGN CHOICE, log 37; DESIGN CHOICE, log 112) -/
def execLinkDelayMeasure (u : Nat) (t1 t2 t3 t4 : Int) (s : State) : Out := .next <|
  if 10 ≤ u then s
  else
    let own := (t4 - s.getI (pTsu u) TIME_TSU_ING_ADJ.adj) - (t1 + s.getI (pTsu u) TIME_TSU_EGR_ADJ.adj)
    let h := ((own - (t3 - t2)) :: Tab.rd s.time.linkHist u).take 16
    let s1 := { s with time := { s.time with linkHist := Tab.wr s.time.linkHist u h } }
    s1.putI (pTsu u) TIME_TSU_LINK.m (nearInt ((h.foldl (fun a x => a + x) 0 : Int) / (2 * h.length : Nat)))

/-- The head record of a transmit timestamp queue shows in its words; an empty queue reads 0 (R89). -/
def State.txqShow (s : State) (u : Nat) : State :=
  let p := pTsu u
  let q := Tab.rd s.time.txq u
  let r := q.headD {}
  (((s.put p TIME_TSU_TXQ_ST.st r.st).put p TIME_TSU_TXQ_HI.sec (t72Hi r.t64)).put p TIME_TSU_TXQ_LO.frac (t72Lo r.t64)).put
    p TIME_TSU_STAT.level q.length

/-- A tagged egress stamp enters the queue, or is discarded at a full queue (R89). -/
def State.txqPush (s : State) (u : Nat) (r : StampRec) : State :=
  let q := Tab.rd s.time.txq u
  if 16 ≤ q.length then (s.inc (pTsu u) TIME_TSU_STAT.ovf).evC (pTsu u) 1
  else ({ s with time := { s.time with txq := Tab.wr s.time.txq u (q ++ [r]) } }.txqShow u).ev (pTsu u) 0

/-- TXQ_LO_READ (R89): the read of TXQ_LO returns the head record's low word and removes the record. -/
def doTxqLoRead (u : Nat) (s : State) : State :=
  if 12 ≤ u then s
  else
    let s1 := { s with rdata := s.regW (pTsu u + 0x18) }
    { s1 with time := { s1.time with txq := Tab.wr s1.time.txq u (Tab.rd s1.time.txq u).tail } }.txqShow u

/-- The reset of a timestamp unit's page (R21). -/
def State.tsuReset (s : State) (u : Nat) : State :=
  let s1 := s.resetPage (pTsu u) (fun _ => false) 0
  { s1 with time := { s1.time with txq := Tab.wr s1.time.txq u [], linkHist := Tab.wr s1.time.linkHist u [] } }

/-! Writes of the words of the time pages that need no step of their own. -/

/-- A base forgets a 1PPS measurement that waits for the 10 MHz one of its millisecond (R56). (DEDUCED, log 32) -/
def State.noPps6 (s : State) (n : Nat) : State := { s with time := { s.time with pps6 := Tab.wr s.time.pps6 n none } }

/-- TIME_TBn_CTL (R63): a reserved source keeps its field and counts, confirm 0 keeps its field, and load and step act. (DEDUCED, log 33) -/
def State.tbCtlWrite (s : State) (n v : Nat) : State :=
  let p := pTb n
  let src := fldGet v TIME_TB_CTL.src
  let conf := fldGet v TIME_TB_CTL.confirm
  let s1 := (s.put p TIME_TB_CTL.autostep (fldGet v TIME_TB_CTL.autostep)).put p TIME_TB_CTL.servo (fldGet v TIME_TB_CTL.servo)
  let s2 := if conf = 0 then s1 else s1.put p TIME_TB_CTL.confirm conf
  let s3 := if 7 ≤ src then s2.fc p else (if src = s.get p TIME_TB_CTL.src then s2 else s2.noPps6 n).put p TIME_TB_CTL.src src
  let s4 := if fldGet v TIME_TB_CTL.load = 1 then doTbLoad n s3 else s3
  if fldGet v TIME_TB_CTL.step = 1 then doTbStep n s4 else s4

/-- A write of a word of a TB page (R59, R60, R63, R65); the words of TB0 are fixed. -/
def State.tbWrite (s : State) (n off v : Nat) : State :=
  let p := pTb n
  if n = 0 then s
  else if off = 0x10 then s.tbCtlWrite n v
  else if off = 0x11 then (s.plainWrite 0 (p + 0x11) v).selector
  else if off = 0x12 then doTbRateWrite n v s
  else if off = 0x13 then doTbFreqWrite n v s
  else if off = 0x14 then doTbMeasWrite n v s
  else if off = 0x19 then s.rangeWrite 0 (p + 0x19) v (t72Ok v)
  else if off = 0x1A then s.rangeWrite 0 (p + 0x1A) v (decide (1000 ≤ v) && decide (v ≤ 1000000000))
  else s.plainWrite 0 (p + off) v

/-- A write of a word of TIME page 0 (R73, R75). (DESIGN CHOICE, log 109) -/
def State.timeWrite (s : State) (off v : Nat) : State :=
  if off = 0x10 then doCtCtlWrite v s
  else if off = 0x13 then (s.rangeWrite 0 (pTime0 + off) v (decide (1000 ≤ v) && decide (v ≤ 1000000000))).selector
  else if off = 0x14 then
    s.rangeWrite 0 (pTime0 + off) v (inRange (fldGet v TIME_SLEW_LIM.ppm) 1 1000)
  else if off = 0x15 then doReEpoch v s
  else (s.plainWrite 0 (pTime0 + off) v).timeOutputs

/-- TIME_TBn_INTV as it reads: the interval of the source in force (R65). TIME_CT_DIFF as it reads: D in 1/64 ns (R75). -/
def State.timeView (s : State) (a : Nat) : Option Nat :=
  match blkOf a with
  | .tb n => if n ≠ 0 ∧ a = pTb n + 0x1A then some (s.tbTau n) else none
  | .time0 =>
    if a = pTime0 + 0x12 then
      some (if s.get pTime0 TIME_CT_STAT.state = 0 then 0
        else unsint 36 (clampI (-(2 ^ 35)) (2 ^ 35 - 1) ((s.t64 (s.get pTime0 TIME_CT_STAT.base) : Int) - s.t64 4)))
    else none
  | _ => none

/-- The time unit on one PCLK edge (R51): every counter advances at its rate. (DESIGN CHOICE, log 2) -/
def State.timeTick (s : State) : State :=
  let r := s.ctRate
  let s1 := s.moveCnt 0 (edgeInc 0)
  let s2 := overAll [1, 2, 3] s1 (fun n t => t.moveCnt n (edgeInc (t.getI (pTb n) TIME_TB_RATE.rate)))
  let s3 := if s.flag pTime0 TIME_CT_STAT.valid then s2.moveCnt 4 (edgeInc r) else s2
  s3.selector

/-! The commands. -/

/-- The command TB_SRST (R546). -/
def execTbSrst (n : Nat) (s : State) : Out := .next (doTbSrst n s)

/-- The command TIME_SRST (R547). -/
def execTimeSrst (s : State) : Out := .next (doTimeSrst s)

/-- The command SNAPSHOT_READ (R80). -/
def execSnapshotRead (core b : Nat) (s : State) : Out := .next (doSnapshotRead core b s)

/-- The command TB_MEAS_WRITE (R65). -/
def execTbMeasWrite (n : Nat) (v : Word) (s : State) : Out := .next (s.writeWord 0 (pTb n + 0x14) v (doTbMeasWrite n v.toNat))

/-- The command TB_LOAD (R60). -/
def execTbLoad (n : Nat) (s : State) : Out := .next (s.writeWord 0 (pTb n + 0x10) (s.withBit (pTb n + 0x10) 35) (doTbLoad n))

/-- The command TB_STEP (R60). -/
def execTbStep (n : Nat) (s : State) : Out := .next (s.writeWord 0 (pTb n + 0x10) (s.withBit (pTb n + 0x10) 34) (doTbStep n))

/-- The command TB_RATE_WRITE (R62). -/
def execTbRateWrite (n : Nat) (v : Word) (s : State) : Out := .next (s.writeWord 0 (pTb n + 0x12) v (doTbRateWrite n v.toNat))

/-- The command TB_FREQ_WRITE (R62). -/
def execTbFreqWrite (n : Nat) (v : Word) (s : State) : Out := .next (s.writeWord 0 (pTb n + 0x13) v (doTbFreqWrite n v.toNat))

/-- The command CT_CTL_WRITE (R73). -/
def execCtCtlWrite (v : Word) (s : State) : Out := .next (s.writeWord 0 (pTime0 + 0x10) v (doCtCtlWrite v.toNat))

/-- The command RE_EPOCH (R77). -/
def execReEpoch (v : Word) (s : State) : Out := .next (s.writeWord 0 (pTime0 + 0x15) v (doReEpoch v.toNat))

/-- The command TXQ_LO_READ (R89). -/
def execTxqLoRead (u : Nat) (s : State) : Out := .next (s.readWord (pTsu u + 0x18) (doTxqLoRead u))

end Sys2Proof.Machine
end

