-- ==== Sys2Proof/Machine/Memory.lean ====
section
/-! DEFINITION. The stores' errors, their counting and tracking, the scrubbers, the event log, the MRAM write queue (R457 to
R476), and the start of Porter chains (R477, R481). -/

namespace Sys2Proof.Machine

/-- A free value: nothing constrains it, and the next one is another. (DESIGN CHOICE, log 9; DESIGN CHOICE, log 70; DESIGN CHOICE, log 98) -/
def State.freeVal (s : State) : Nat × State := (Config.free s.freeN, { s with freeN := s.freeN + 1 })

/-! DRAM addresses (R458). -/

/-- The channel of a DRAM word address. (DESIGN CHOICE, log 69) -/
def dramCh (a : Nat) : Nat := a / 64 % 2

/-- The address within the channel. -/
def dramL (a : Nat) : Nat := a / 128 * 64 + a % 64

/-- The bank of a DRAM word address. (DESIGN CHOICE, log 69) -/
def dramBank (a : Nat) : Nat := dramL a / 2 ^ 11 % 32

/-- The row of a DRAM word address. (DESIGN CHOICE, log 69) -/
def dramRow (a : Nat) : Nat := dramL a / 2 ^ 16 % 2 ^ 16

/-! Counting of errors (R461, R462, R465 to R467). -/

/-- The cell time of a log record (R469, words 1 to 3): TB0 while cell time is invalid. -/
def State.logTime (s : State) : List Nat :=
  [t72Hi (s.t64 4), t72Lo (s.t64 4), s.stampWord (if s.flag pTime0 TIME_CT_STAT.valid then 4 else 0) 0]

/-- Word 4 of a log record for a counter of a MEM page. -/
def memLogWord4 (k off : Nat) : Nat := 6 * 2 ^ 24 + off * 2 ^ 16 + (0x500 + k)

/-- A log record of a bank counter or a row entry classed lasting (R466, R469). -/
def State.logTrack (s : State) (k off st w6 : Nat) : LogRec := { kind := 1, ws := s.logTime ++ [memLogWord4 k off, st, w6] }

/-- One count of a status word of the layout of R37, and whether it becomes lasting at threshold n. -/
def statCount (w n : Nat) : Nat × Bool :=
  let cur := satN 255 (w % 256 + 1)
  let tot := satN 65535 (w / 2 ^ 16 % 2 ^ 16 + 1)
  let lasting := bitN w 35
  let now := decide (n ≤ cur + w / 256 % 256)
  (b2n (lasting || now) * 2 ^ 35 + tot * 2 ^ 16 + w / 256 % 256 * 256 + cur, !lasting && now)

/-- A window edge of a status word of the layout of R37. -/
def statEdge (w : Nat) : Nat := w / 2 ^ 16 * 2 ^ 16 + w % 256 * 256

/-- A clear of a status word of the layout of R37 (R43); `one` when an event counts in the same cycle. -/
def statClear (w : Nat) : Nat := w / 2 ^ 16 % 2 ^ 16 * 2 ^ 16

/-- The bank counter of an error counts (R466). -/
def State.bankCount (s : State) (k b : Nat) : State :=
  let a := pMem k + 0x40 + b
  let r := statCount (s.reg a) (s.get (pMem k) MEM_DTHR.nbank)
  let s1 := s.setReg a r.1
  if r.2 then ((s1.ev (pMem k) 2)).pushLog (s1.logTrack k (0x40 + b) r.1 0) else s1

/-- The entry of the row tracker for a bank and row (R467): the one that holds them, else the lowest free one. -/
def State.rowEntry (s : State) (k b r : Nat) : Option Nat :=
  let p := pMem k
  match (List.range 16).find? (fun i =>
      s.get p (MEM_DROW.used i) == 1 && s.get p (MEM_DROW.bank i) == b && s.get p (MEM_DROW.row i) == r) with
  | some i => some i
  | none => (List.range 16).find? (fun i => s.get p (MEM_DROW.used i) == 0)

/-- The sum of a row entry's counts. -/
def State.rowSum (s : State) (k i : Nat) : Nat :=
  s.get (pMem k) (MEM_DROWS.cur i) + s.get (pMem k) (MEM_DROWS.prev i)

/-- The row entry to replace: of those not lasting, the least sum and the lowest number among equals (R467). -/
def State.rowVictim (s : State) (k : Nat) (l : List Nat) (best : Option Nat) : Option Nat :=
  match l with
  | [] => best
  | i :: r =>
    s.rowVictim k r (if s.get (pMem k) (MEM_DROWS.lasting i) = 1 then best
      else match best with
        | none => some i
        | some j => if s.rowSum k i < s.rowSum k j then some i else some j)

/-- The row counter of an error counts in an entry, whose place it takes where the entry held another row. -/
def State.rowCount (s : State) (k i b r : Nat) : State :=
  let p := pMem k
  let same := s.get p (MEM_DROW.used i) == 1 && s.get p (MEM_DROW.bank i) == b && s.get p (MEM_DROW.row i) == r
  let s0 := if same then s
    else (s.setReg (p + 0x60 + 2 * i) (2 ^ 35 + b * 2 ^ 16 + r)).setReg (p + 0x61 + 2 * i) 0
  let a := p + 0x61 + 2 * i
  let c := statCount (s0.reg a) (s.get p MEM_DTHR.nrow)
  let s1 := s0.setReg a c.1
  if c.2 then (s1.ev p 3).pushLog (s1.logTrack k (0x61 + 2 * i) c.1 (s1.reg (p + 0x60 + 2 * i))) else s1

/-- DRAM_ERROR_TRACK (R467): an error counts in its bank counter and in the row tracker. (DESIGN CHOICE, log 69) -/
def State.dramTrack (s : State) (k a : Nat) : State :=
  let b := dramBank a
  let r := dramRow a
  let s1 := s.bankCount k b
  match s1.rowEntry k b r with
  | some i => s1.rowCount k i b r
  | none =>
    match s1.rowVictim k (List.range 16) none with
    | some i => s1.rowCount k i b r
    | none => (s1.inc (pMem k) MEM_DROVF.n).ev (pMem k) 4

/-- The log record of an uncorrectable error (R462, R469). -/
def State.logUe (s : State) (k info a : Nat) : LogRec := { kind := 2, ws := s.logTime ++ [memLogWord4 k 0, info, a] }

/-- An error of an SRAM word (R461, R462, R474). -/
def State.sramError (s : State) (a src ini syn : Nat) (ue : Bool) : State :=
  let p := pMem 0
  let info := b2n ue * 2 ^ 35 + src * 2 ^ 32 + ini % 256 * 2 ^ 24 + syn % 128
  let s1 := (s.setReg (p + 0x13) a).setReg (p + 0x14) info
  if ue then ((s1.inc p MEM_SR_UE.n).evC p 1).pushLog (s1.logUe 0 info a) else (s1.inc p MEM_SR_CE.n).evC p 0

/-- An error of a DRAM pair (R461, R462, R467, R475). -/
def State.dramError (s : State) (a src ini syn : Nat) (ue adr : Bool) : State :=
  let k := 1 + dramCh a
  let p := pMem k
  let info := b2n ue * 2 ^ 35 + b2n adr * 2 ^ 34 + src * 2 ^ 32 + ini % 256 * 2 ^ 24 + syn % 256
  let s1 := (s.setReg (p + 0x14) a).setReg (p + 0x15) info
  let s2 := if ue then ((s1.inc p MEM_DUE.n).evC p 1).pushLog (s1.logUe k info a) else (s1.inc p MEM_DCE.n).evC p 0
  s2.dramTrack k a

/-- An error of an MRAM word (R461, R462, R465, R476). (DEDUCED, log 63) -/
def State.mramError (s : State) (a : Nat) (ue : Bool) : State :=
  let p := pMem 3
  if ue then ((s.inc p MEM_MUE.n).evC p 5).pushLog (s.logUe 3 0 a) else (s.inc p MEM_MCE.n).evC p 4

/-- An error found by a read at an address: `scrub` for the scrubber, `own` for a core's access to its own stores. (DESIGN CHOICE, log 28) -/
def State.memError (s : State) (a ini syn : Nat) (scrub own ue adr : Bool) : State :=
  match targetOf a with
  | .dram => s.dramError a (if scrub then 2 else 1) ini syn ue adr
  | .commons | .localData _ | .localInst _ => s.sramError a (if scrub then 2 else if own then 0 else 1) ini syn ue
  | .mram => s.mramError a ue
  | _ => s

/-- What a read of a store does with the outcome of its error check: the error is counted; a word is delivered unless the
error is uncorrectable (R461, R462). (DESIGN CHOICE, log 28) -/
def State.noteRead (s : State) (a ini : Nat) (scrub own : Bool) (how : AccessEnd) : State :=
  match how with
  | .corrected syn => s.memError a ini syn scrub own false false
  | .uncorrectable syn => s.memError a ini syn scrub own true false
  | .addressKind syn => s.memError a ini syn scrub own true (decide (targetOf a = .dram))
  | _ => s

/-- Does an access outcome deliver its data? -/
def AccessEnd.good (h : AccessEnd) : Bool :=
  match h with
  | .ok | .corrected _ => true
  | _ => false

/-! The scrubbers (R464). -/

/-- The word after an SRAM word in ascending order of address, and the lowest after the highest (R13). (DEDUCED, log 64) -/
def sramNext (a : Nat) : Nat :=
  if a = 0xF007FFFFF then 0xF40000000
  else if a = 0xF40000000 + 63 * 0x20000 + 0x13FFF then 0xF00000000
  else if decide (0xF40000000 ≤ a) && a % 0x20000 == 0x13FFF then a + 0xC001
  else a + 1

/-- Where a scrubber stands: the SRAM address (0), or the burst of a DRAM channel (1 or 2), that it reads next. (DEDUCED, log 64) -/
def State.scrubAt (s : State) (k : Nat) : Nat := Tab.get (fun i => if i = 0 then 0xF00000000 else 0) s.scrubPos k

/-- Move a scrubber on. -/
def State.setScrub (s : State) (k v : Nat) : State :=
  { s with scrubPos := Tab.set (fun i => if i = 0 then 0xF00000000 else 0) s.scrubPos k v }

/-- The pass of a DRAM scrubber keeps to its schedule (R464): a pass begins with its first burst; a burst that comes more than 1 % of the
pass time late records event 6, once per pass, counted in the page's fault counter. (DEDUCED, log 64) -/
def State.scrubPace (s : State) (a : Nat) : State :=
  let c := dramCh a
  let p := pMem (1 + c)
  let i := dramL a / 32
  let r : Nat × Bool := Tab.get (fun _ => (0, false)) s.dscrub c
  let put := fun (u : State) (x : Nat × Bool) => { u with dscrub := Tab.set (fun _ => (0, false)) u.dscrub c x }
  if i = 0 then put s (s.t64 0, false)
  else if r.2 = false ∧ s.get p MEM_DSCRUB.per * secUnits * (100 * i + 2 ^ 27) < 100 * 2 ^ 27 * (s.t64 0 - r.1) then
    (put s (r.1, true)).evC p 6
  else s

/-- SCRUB_READ (R464): the scrubber of the store, where it is on, reads its next word or burst in ascending order and corrects it; a pass
ends at the highest address. The initiator that the last-error word shows for a scrub read is a free value. (DEDUCED, log 64; DESIGN CHOICE, log 70) -/
def execScrubRead (addr : Word) (how : AccessEnd) (s : State) : Out := .next <|
  let a := addr.toNat
  let f := s.freeVal
  let s1 := match how with
    | .ok | .noResponse => s
    | _ => f.2.noteRead a f.1 true false how
  match targetOf a with
  | .dram =>
    let k := 1 + dramCh a
    let i := dramL a / 32
    if s.flag (pMem k) MEM_DSCRUB.en && i == s.scrubAt k then
      let s2 := (s1.scrubPace a).setScrub k ((i + 1) % 2 ^ 27)
      if i = 2 ^ 27 - 1 then (s2.incMod (pMem k) MEM_DPASS.n).ev (pMem k) 5 else s2
    else s
  | .commons | .localData _ | .localInst _ =>
    if s.flag (pMem 0) MEM_SCRUB.en && a == s.scrubAt 0 then
      let s2 := s1.setScrub 0 (sramNext a)
      if sramNext a = 0xF00000000 then (s2.incMod (pMem 0) MEM_SR_PASS.n).ev (pMem 0) 2 else s2
    else s
  | _ => s

/-! The event log (R468 to R470). -/

/-- The base of the MRAM window. -/
abbrev mramBase : Nat := 0xE00000000

/-- The address of record r of the event log (R469). -/
def logAddr (r : Nat) : Nat := mramBase + 0x710000 + 8 * r

/-- Write the words of a log record. (DESIGN CHOICE, log 62) -/
def State.writeLog (s : State) (a : Nat) (l : List Nat) : State :=
  match l with
  | [] => s
  | w :: r => (s.setMem a (word w)).writeLog (a + 1) r

/-- LOG_RECORD_WRITE (R468, R469): the oldest queued record is written, at most one per 100 µs and none during the scan. -/
def execLogRecordWrite (s : State) : Out := .next <|
  let p := pMem 3
  let early := match s.logAt with | some t => decide (s.t64 0 < t + 6400000) | none => false
  match s.logq with
  | [] => s
  | r :: q =>
    if early || !s.logScanned then s
    else
      let n := s.get p MEM_LOG.next
      let q0 := s.get p MEM_LOG_SEQ.seq
      let s1 := s.writeLog (logAddr n) ((r.kind * 2 ^ 32 + q0) :: (r.ws ++ [0]))
      let s2 := (s1.put p MEM_LOG.next (if n = 122879 then 0 else n + 1)).put p MEM_LOG_SEQ.seq (q0 + 1)
      { s2 with logq := q, logAt := some (s.t64 0) }.ev p 2

/-- Of the records in the log, the one with the highest sequence number, compared modulo 2^32 (R470). -/
def lastRecord (l : List (Nat × Word)) (best : Option (Nat × Nat)) : Option (Nat × Nat) :=
  match l with
  | [] => best
  | e :: r =>
    let a := e.1 - (mramBase + 0x710000)
    let sq := e.2.toNat % 2 ^ 32
    let isRec := inRange e.1 (mramBase + 0x710000) 983040 && a % 8 == 0 && decide (1 ≤ e.2.toNat / 2 ^ 32)
    lastRecord r (if isRec then
        (match best with
          | none => some (a / 8, sq)
          | some b => if (sq + 2 ^ 32 - b.2) % 2 ^ 32 < 2 ^ 31 then some (a / 8, sq) else some b)
      else best)

/-- LOG_SCAN_DONE (R470): the scan after module reset ends, and the logger resumes after the record with the highest seq. -/
def execLogScanDone (s : State) : Out := .next <|
  let p := pMem 3
  if s.logScanned then s
  else
    match lastRecord s.mem none with
    | none => { s with logScanned := true }
    | some b =>
      { (s.put p MEM_LOG.next (if b.1 = 122879 then 0 else b.1 + 1)).put p MEM_LOG_SEQ.seq (b.2 + 1) with logScanned := true }

/-! The MRAM write queue (R471, R472). -/

/-- The region of an MRAM offset (R471). -/
def mramRegion (off : Nat) : Nat :=
  if off < 0x010000 then 0 else if off < 0x210000 then 1 else if off < 0x410000 then 2 else if off < 0x490000 then 3
  else if off < 0x510000 then 4 else if off < 0x710000 then 5 else 6

/-- Is a region open to writes (R471)? -/
def State.mramOpen (s : State) (off : Nat) : Bool := bitN (s.get (pMem 3) MEM_MWP.we) (mramRegion off)

/-- Show the level of the queue: it holds 16 words, and further writes wait for room. -/
def State.showMwq (s : State) : State := s.put (pMem 3) MEM_MSTAT.level (satN 16 s.mwq.length)

/-- A word enters the queue, or waits for room in it. (DEDUCED, log 65) -/
def State.mramPush (s : State) (r : MramWr) : State := { s with mwq := s.mwq ++ [r] }.showMwq

/-- MW_DATA_WRITE (R472): one word is queued for MEM_MW_ADDR, which increments; for a protected region the write is
discarded. (DEDUCED, log 15) -/
def doMwDataWrite (v : Word) (s : State) : State :=
  let p := pMem 3
  let off := s.get p MEM_MW_ADDR.off
  if s.mramOpen off then (s.mramPush { off := off, w := v }).incMod p MEM_MW_ADDR.off
  else (s.inc p MEM_MSTAT.refused).ev p 1

/-- MRAM_WORD_WRITE (R472): the oldest queued word is written and read back, and written once more after a mismatch; after a
second mismatch the word's content is undefined. (DESIGN CHOICE, log 98) -/
def execMramWordWrite (first second : Bool) (s : State) : Out := .next <|
  match s.mwq with
  | [] => s
  | r :: q =>
    let s1 := { s with mwq := q }.showMwq
    if first || second then s1.setMem (mramBase + r.off) r.w
    else
      let f := s1.freeVal
      ((f.2.setMem (mramBase + r.off) (word f.1)).inc (pMem 3) MEM_MWERR.n).evC (pMem 3) 0

/-! Writes of the words of the MEM pages (R474 to R476). -/

/-- A write of a status word of a bank or a row entry: 1 to lasting clears it, and frees the row entry (R466). -/
def State.trackWrite (s : State) (k off v : Nat) : State :=
  let a := pMem k + off
  if bitN v 35 then
    let s1 := s.setReg a (statClear (s.reg a))
    if 0x60 ≤ off then s1.setReg (a - 1) 0 else s1
  else s

/-- A write of a block-specific word of MEM page k. -/
def State.memWrite (s : State) (ini k off v : Nat) : State :=
  let p := pMem k
  let bounded := fun (ok : Bool) (e : Nat) => if ok then s.plainWrite ini (p + off) v else s.ev p e
  if k = 0 then
    if off = 0x10 then bounded (decide (100 ≤ fldGet v MEM_SCRUB.per) && decide (fldGet v MEM_SCRUB.per ≤ 1000)) 3
    else s.plainWrite ini (p + off) v
  else if k ≤ 2 then
    if off = 0x10 then bounded (decide (8 ≤ fldGet v MEM_DSCRUB.per) && decide (fldGet v MEM_DSCRUB.per ≤ 60)) 7
    else if off = 0x16 then bounded (decide (1 ≤ fldGet v MEM_DTHR.nbank) && decide (1 ≤ fldGet v MEM_DTHR.nrow)) 7
    else if inRange off 0x40 32 || (inRange off 0x60 32 && off % 2 == 1) then s.trackWrite k off v
    else s.plainWrite ini (p + off) v
  else if off = 0x11 then doMwDataWrite (word v) s
  else s.plainWrite ini (p + off) v

/-- The window edge of the bank counters and row entries of a DRAM page (R466). -/
def State.trackEdge (s : State) (k : Nat) : State :=
  overAll (s.regs.map (fun e => e.1)) s (fun a t =>
    let off := a - pMem k
    if decide (pMem k ≤ a) && (inRange off 0x40 32 || (inRange off 0x60 32 && off % 2 == 1)) then t.setReg a (statEdge (t.reg a))
    else t)

/-- MEM_LOG as it reads: scan is 1 while the reset scan runs (R470). -/
def State.memView (s : State) (a : Nat) : Option Nat :=
  if a = pMem 3 + 0x14 then some (fldPut (s.reg a) MEM_LOG.scan (b2n (!s.logScanned))) else none

/-! A descriptor's fields (R478). -/

/-- Word `i` of a descriptor. -/
def dw (d : List Word) (i : Nat) : Nat := (d.getD i 0).toNat

/-- The kind: 0 copy, 1 fill, 2 MRAM write. -/
def dKind (d : List Word) : Nat := dw d 0 / 2 ^ 32 % 8

/-- Rows and words per row. -/
def dRows (d : List Word) : Nat := dw d 3 / 2 ^ 24 + 1
def dLen (d : List Word) : Nat := dw d 3 % 2 ^ 24

/-- Is a descriptor's form valid (R480 code 1)? -/
def dValid (d : List Word) : Bool :=
  bitN (dw d 0) 35 && decide (dKind d ≤ 2) && dw d 0 / 2 ^ 12 % 2 ^ 10 == 0 && dw d 0 % 64 == 0 && dw d 7 == 0
    && decide (1 ≤ dLen d)

/-- The source and destination of the word `k` of a descriptor, in the order of the moves (R479). -/
def dMove (d : List Word) (k : Nat) : Nat × Nat :=
  let i := k / dLen d
  let j := k % dLen d
  (unsint 36 ((dw d 1 : Int) + sint 36 (dw d 4) * i + j), unsint 36 ((dw d 2 : Int) + sint 36 (dw d 5) * i + j))

/-- How many words a descriptor moves. -/
def dCount (d : List Word) : Nat := dRows d * dLen d

/-- The source and destination of every word in the order of the moves (R479). -/
def dMoves (d : List Word) : List (Nat × Nat) := (List.range (dCount d)).map (dMove d)

/-- Is the word `k` written as one half of a whole DRAM pair: both its words are written in one row (R463, R479)? -/
def dWhole (d : List Word) (k : Nat) : Bool :=
  let m := (dMove d k).2
  decide (targetOf m = .dram) && (if m % 2 = 0 then decide (k % dLen d + 1 < dLen d) else decide (1 ≤ k % dLen d))

/-- The addresses that the next move of an engine touches: one that copies or fills and has words left. -/
def PorterEng.next (r : PorterEng) : List Nat :=
  match r.desc with
  | some d =>
    if dKind d = 2 ∨ dCount d ≤ r.moved then [] else
      let m := dMove d r.moved
      if dKind d = 1 then [m.2] else [m.1, m.2]
  | none => []

/-! Starting Porter chains (R477, R481). -/

/-- An engine of the Porters. -/
def State.pe (s : State) (e : Nat) : Option PorterEng := Tab.rd s.porter.eng e

/-- Write an engine of the Porters. -/
def State.setPe (s : State) (e : Nat) (r : Option PorterEng) : State :=
  { s with porter := { s.porter with eng := Tab.wr s.porter.eng e r } }

/-- The addresses that initiators ask of the fabric: the outstanding accesses of the cores, and the next move of each Porter engine. -/
def State.requests (s : State) : List Nat :=
  s.core.flatMap (fun e => e.2.outs.map (fun o => o.addr)) ++ ((List.range 4).filterMap s.pe).flatMap PorterEng.next

/-- The slots of the chains in flight. -/
def State.chains (s : State) : List Nat :=
  s.porter.queue ++ ((List.range 4).filterMap s.pe).map (fun r => r.slot)

/-- Show the chains in flight, of the module and of a slot (R483). -/
def State.showChains (s : State) (k : Nat) : State :=
  let l := s.chains
  let s1 := (s.put pPorter0 PORTER_STAT.inflight l.length).put pPorter1 (PORTER_SCTL.queued k) (l.filter (fun x => x == k)).length
  if s1.get pPorter0 PORTER_STAT.hwm < l.length then s1.put pPorter0 PORTER_STAT.hwm l.length else s1

/-- The record of a failed descriptor (R480). (DEDUCED, log 72) -/
def State.porterFail (s : State) (k a code : Nat) : State :=
  (((s.put pPorter0 PORTER_ELAST.code code).put pPorter0 PORTER_ELAST.slot k).put pPorter0 PORTER_EADDR.a a).evC pPorter0 2

/-- A start of slot k (R477): accepted, or refused at 32 chains in flight, under fault-counter action 4 (R41) and during a
block reset (R481). The second part says whether it was accepted. (DEDUCED, log 72) -/
def State.porterStart (s : State) (k : Nat) : State × Bool :=
  if decide (32 ≤ s.chains.length) || pageBlocked s pPorter0 || s.srstBusy.contains pPorter0 then
    ((s.inc pPorter0 PORTER_STAT.refused).evC pPorter0 1, false)
  else if s.flag pPorter1 (PORTER_SCTL.en k) = false then
    (s.porterFail k (s.get pPorter1 (PORTER_SHEAD.head k)) 8, true)
  else ({ s with porter := { s.porter with queue := s.porter.queue ++ [k] } }.showChains k, true)

/-- PORTER_START (R477): a write of PORTER_START with go = 1. -/
def doPorterStart (k : Nat) (s : State) : State :=
  if k < 64 then ((s.put pPorter0 PORTER_START.slot k).porterStart k).1 else s

/-- Word 0 of a descriptor as the Porter writes it back (R478 to R480). -/
def writeBack (w : Nat) (done err code : Nat) : Nat := w % 64 + code % 16 * 64 + err * 2 ^ 10 + done * 2 ^ 11 + w / 2 ^ 12 * 2 ^ 12

/-- Write a descriptor's word 0 back, where the engine has read one. (DEDUCED, log 68) -/
def State.descBack (s : State) (r : PorterEng) (done err code : Nat) : State :=
  match r.desc with
  | some (w :: _) => s.setMem r.addr (word (writeBack w.toNat done err code))
  | _ => s

/-- PORTER_SRST (R481): every chain in flight is aborted, with code 6 in the descriptors in progress; slot words are kept. (DEDUCED, log 68) -/
def doPorterSrst (s : State) : State :=
  let n := s.chains.length
  let s1 := overAll (List.range 4) s (fun e t => match t.pe e with | some r => t.descBack r 0 1 6 | none => t)
  let s2 := overAll (List.range 64) (s1.resetPage pPorter0 (fun _ => false) 0)
    (fun k t => if s.chains.contains k then t.put pPorter1 (PORTER_SCTL.queued k) 0 else t)
  let s3 := { s2 with porter := {}, mwq := s2.mwq.take 16 ++ (s2.mwq.drop 16).filter (fun (r : MramWr) => r.src == 0)
                      srstBusy := if pPorter0 ∈ s2.srstBusy then s2.srstBusy else pPorter0 :: s2.srstBusy }.showMwq
  if n = 0 then s3 else s3.ev pPorter0 3

/-! The commands. -/

/-- The command MW_DATA_WRITE (R472). -/
def execMwDataWrite (v : Word) (s : State) : Out := .next (s.writeWord 0 (pMem 3 + 0x11) v (doMwDataWrite v))

/-- The command PORTER_START (R477). -/
def execPorterStart (k : Nat) (s : State) : Out := .next (s.writeWord 0 (pPorter0 + 0x10) (word (2 ^ 35 + k)) (doPorterStart k))

/-- The command PORTER_SRST (R481). -/
def execPorterSrst (s : State) : Out := .next (doPorterSrst s)

end Sys2Proof.Machine
end

