-- ==== Sys2Proof/Machine/Prism.lean ====
section
/-! DEFINITION. The Prism launch fabric (R93 to R117): arming, cancelling and firing triggers, the actions, the end of a
generation walk, and the TIO pins. -/

namespace Sys2Proof.Machine

/-! Arming and cancelling (R98 to R101). -/

/-- Is an action's argument in range (R107)? -/
def argOk (act arg : Nat) : Bool :=
  if act = 1 then decide (arg < 512) else if act = 7 then decide (arg < 4) else decide (arg < 64)

/-- The reason for which an arm with control word v is refused (R98, R115), or 0. (DESIGN CHOICE, log 108) -/
def State.armReason (s : State) (n v : Nat) : Nat :=
  let tb := fldGet v TRG_CTL.tb
  let act := fldGet v TRG_CTL.act
  let arg := fldGet v TRG_CTL.arg
  if 5 ≤ tb then 1
  else if act = 0 ∨ 8 ≤ act then 2
  else if argOk act arg = false then 3
  else if inRange tb 1 3 = true ∧ s.flag (pTb tb) TIME_TB_STAT.hist = false then 4
  else if fldGet v TRG_CTL.per = 1 ∧ s.get pPrism1 (PRISM_PER.p (fldGet v TRG_CTL.pidx)) = 0 then 5
  else if act = 5 ∧ s.get pPrism2 (PRISM_TIO_CFG.oe (arg % 16)) = 0 then 6
  else if s.flag (pTrg n) TRG_ST.gchk = true ∧ s.get (pTrg n) TRG_ST.gen ≠ s.generation tb then 7
  else 0

/-- Put an entry among the armed ones, in rising order. -/
def insertNat (n : Nat) (l : List Nat) : List Nat :=
  match l with
  | [] => [n]
  | k :: r => if n < k then n :: k :: r else if n = k then k :: r else k :: insertNat n r

/-- A write of TRG_CTL with arm = 1 to an entry that is not armed (R98). -/
def State.trgArmNow (s : State) (n v : Nat) : State :=
  let e := pTrg n
  let r := s.armReason n v
  let s1 := s.setReg (e + 2) (v % 2 ^ 36)
  if r = 0 then
    let s2 := (((s1.put e TRG_ST.armed 1).put e TRG_ST.code 1).put e TRG_ST.gen (s.generation (fldGet v TRG_CTL.tb))).put
      e TRG_ST.fires 0
    { s2 with prism := { s2.prism with armed := insertNat n s2.prism.armed, armedAt := (n, s2.now) :: s2.prism.armedAt } }
  else
    (((((s1.put e TRG_CTL.arm 0).put e TRG_ST.code 6).put pPrism0 PRISM_ARM_LAST.reason r).put pPrism0
      PRISM_ARM_LAST.entry n)).ev pPrism0 2

/-- A write of TRG_CTL with arm = 0 (R99, R101): an armed entry, or one that fires on this edge, is cancelled with code 4. -/
def State.trgCancelNow (s : State) (n v : Nat) : State :=
  let e := pTrg n
  let was := s.get e TRG_CTL.arm = 1
  let s1 := if was then s.trgDisarm n 4 else if n ∈ s.prism.firedNow then s.put e TRG_ST.code 4 else s
  (s1.setReg (e + 2) (v % 2 ^ 36)).put e TRG_CTL.arm 0

/-- A write of word `off` of entry n lands (R93 to R95, R98, R99). (DESIGN CHOICE, log 108) -/
def State.trgWriteNow (s : State) (n off : Nat) (w : Word) : State :=
  let e := pTrg n
  let v := w.toNat
  let armed := s.get e TRG_CTL.arm = 1
  if off = 2 then
    if fldGet v TRG_CTL.arm = 0 then s.trgCancelNow n v else if armed then s else s.trgArmNow n v
  else if off = 3 then
    let s1 := (if bitN v 31 then s.put e TRG_ST.late 0 else s)
    let s2 := (if bitN v 30 then s1.put e TRG_ST.refused 0 else s1)
    if armed then s2 else (s2.put e TRG_ST.gchk (fldGet v TRG_ST.gchk)).put e TRG_ST.gen (fldGet v TRG_ST.gen)
  else if armed then s
  else if off = 1 ∧ t72Ok v = false then s.fc pPrism0
  else s.setReg (e + off) v

/-- A write of a word of the trigger table: while walks run or wait, it waits (R111). -/
def State.trgWrite (s : State) (n off : Nat) (w : Word) : State :=
  if 1024 ≤ n then s
  else if s.walking then { s with prism := { s.prism with held := s.prism.held ++ [(n, off, w)] } }
  else s.trgWriteNow n off w

/-- TRG_ARM (R98): a write of TRG_CTL with arm = 1. -/
def execTrgArm (n : Nat) (v : Word) (s : State) : Out :=
  .next (s.writeWord 0 (pTrg n + 2) (v ||| 0x800000000) (fun t => t.trgWrite n 2 (v ||| 0x800000000)))

/-- TRG_CANCEL (R99): a write of TRG_CTL with arm = 0. -/
def execTrgCancel (n : Nat) (v : Word) (s : State) : Out :=
  .next (s.writeWord 0 (pTrg n + 2) (v &&& 0x7FFFFFFFF) (fun t => t.trgWrite n 2 (v &&& 0x7FFFFFFFF)))

/-- TRG_TH_READ (R97): a read of TRG_TH returns the seconds and holds TRG_TL for the core. -/
def doTrgThRead (core n : Nat) (s : State) : State :=
  if 1024 ≤ n then s
  else
    let s1 := { s with rdata := s.regW (pTrg n) }
    if core < 64 then s1.holdSet core 0 (pTrg n) [s.regW (pTrg n + 1)] else s1

/-- The table writes that waited for a walk land, in order. (DEDUCED, log 40) -/
def replayTrg (s : State) (l : List (Nat × Nat × Word)) : State :=
  l.foldl (fun t e => t.trgWriteNow e.1 e.2.1 e.2.2) s

/-- The running walk is over: it visits the entries that no edge has visited yet. -/
def State.walkOver (s : State) : State :=
  let s1 := overAll ((List.range 64).filter (fun i => decide (s.now < s.prism.walkAt + i))) s (fun i t => t.walkEdge i)
  { s1 with prism := { s1.prism with walk := none } }

/-- The held table writes land when no walk runs or waits (R111). -/
def State.releaseTrg (s : State) : State :=
  if s.walking then s else replayTrg { s with prism := { s.prism with held := [] } } s.prism.held

/-- GENERATION_WALK_END (R111): the running walk has visited every entry; event 3 is recorded, and when none waits the held
writes land. -/
def execGenerationWalkEnd (s : State) : Out := .next <|
  match s.prism.walk with
  | none => s
  | some _ => (s.walkOver.ev pPrism0 3).releaseTrg

/-! TIO pins (R112 to R114, R117). -/

/-- The time of TB0 at which an act 5 edge with fire time t on counter b appears: the fire time itself when the fire is at
most 1 cycle late, else the fire edge at the delay-line tap of the fire time (R104); on the tap of 78.125 ps at or before it
(R112). (DESIGN CHOICE, log 38) -/
def State.tioTime (s : State) (b t lat : Nat) : Nat :=
  let d : Int := (t : Int) - s.t64 b
  (if lat ≤ 1 then (s.t64 0 : Int) + d else (s.t64 0 : Int) + d % 160).toNat / 5 * 5

/-- An output edge of a pin to a level at a time of TB0; the second part says whether it was too close to the last (R113). (DESIGN CHOICE, log 38) -/
def State.tioEdge (s : State) (pin : Nat) (lv : Bool) (t : Nat) : State × Bool :=
  let r := s.ti pin
  if r.level = lv then (s, false)
  else
    match r.lastOut with
    | some o => if t < o + 320 then (s, true) else (s.setTi pin { r with level := lv, lastOut := some t }, false)
    | none => (s.setTi pin { r with level := lv, lastOut := some t }, false)

/-- The pending fall of a pulse at or before a time takes place, or is refused where it comes too close to the last edge (R113). -/
def State.tioFallDue (s : State) (pin t : Nat) : State :=
  match (s.ti pin).fall with
  | none => s
  | some (u, n) =>
    if u ≤ t then
      let e := (s.setTi pin { s.ti pin with fall := none }).tioEdge pin false u
      if e.2 then e.1.prismRefuse n 4 5 else e.1
    else s

/-- The pin edge of an act 5 at its time (R113): the pulse fall that lies before it comes first. -/
def State.tioDo (s : State) (x : PrismAct) : State :=
  let pin := x.arg % 16
  let kind := x.arg / 16 % 4
  if s.get pPrism2 (PRISM_TIO_CFG.oe pin) = 0 ∨ pageBlocked s pPrism2 = true then s
  else
    let s1 := s.tioFallDue pin x.t
    let e := s1.tioEdge pin (if kind = 2 then !(s1.ti pin).level else kind != 1) x.t
    if e.2 then s1.prismRefuse x.entry 4 5
    else if kind = 1 then e.1.setTi pin { e.1.ti pin with fall := none }
    else if kind = 3 then
      e.1.setTi pin { e.1.ti pin with fall := some (x.t + 5 * s.get pPrism2 (PRISM_TIO_CFG.pw pin), x.entry) }
    else e.1

/-- TIO_PULSE_FALL (R113): the pending fall of a pulse, in the PCLK cycle in which it lies. -/
def execTioPulseFall (pin : Nat) (s : State) : Out := .next <|
  if pin < 16 then s.tioFallDue pin (s.t64 0 + 159) else s

/-- The head record of a pin's capture queue shows in its words (R117). -/
def State.tioShow (s : State) (pin : Nat) : State :=
  let q := (s.ti pin).q
  let r := q.headD {}
  ((((s.put pPrism2 (PRISM_TIO_CSTAT.rise pin) (b2n r.rise)).put pPrism2 (PRISM_TIO_CSTAT.level pin) q.length).put
    pPrism2 (PRISM_TIO_CST.st pin) r.st).put pPrism2 (PRISM_TIO_CHI.sec pin) (t72Hi r.t64)).put
    pPrism2 (PRISM_TIO_CLO.frac pin) (t72Lo r.t64)

/-- TIO_CAPTURE (R112, R114): an edge at a pin that captures, at a delay-line tap after the present PCLK edge, is queued, or discarded
at a full queue or within 5 ns of the last. (DESIGN CHOICE, log 108) -/
def execTioCapture (pin : Nat) (rising : CapEdge) (s : State) : Out := .next <|
  let tap := rising.tap
  let c := s.get pPrism2 (PRISM_TIO_CFG.cedge pin)
  let want := c == 2 || (c == 0 && rising.rising) || (c == 1 && !rising.rising)
  if 16 ≤ pin ∨ s.get pPrism2 (PRISM_TIO_CFG.cen pin) = 0 ∨ want = false then s
  else
    let r := s.ti pin
    let b := ctrOf (s.get pPrism2 (PRISM_TIO_CFG.ctb pin))
    let close := match r.lastCap with | some t => decide (s.t64At 0 tap < t + 320) | none => false
    if close || decide (8 ≤ r.q.length) then (s.inc pPrism2 (PRISM_TIO_CSTAT.ovf pin)).evC pPrism2 (16 + pin)
    else
      let x : StampRec := { t64 := s.t64At b tap, st := s.stampWord b 0, rise := rising.rising }
      ((s.setTi pin { r with q := r.q ++ [x], lastCap := some (s.t64At 0 tap) }).tioShow pin).ev pPrism2 pin

/-- TIO_CLO_READ (R114): the read of CLO returns the head record's low word and removes the record. -/
def doTioCloRead (pin : Nat) (s : State) : State :=
  if 16 ≤ pin then s
  else
    let r := s.ti pin
    ({ s with rdata := s.regW (pPrism2 + 0x23 + 4 * pin) }.setTi pin { r with q := r.q.tail }).tioShow pin

/-- TIO_CFG_WRITE (R113, R117): an invalid word is kept out and counted; oe is outward-locked; while oe is 0 the level is the
idle level. -/
def doTioCfgWrite (ini pin : Nat) (v : Word) (s : State) : State :=
  let w := v.toNat
  let a := pPrism2 + 0x10 + pin
  if 16 ≤ pin then s
  else if fldGet w (PRISM_TIO_CFG.cedge pin) = 3 ∨ 4 < fldGet w (PRISM_TIO_CFG.ctb pin) ∨ fldGet w (PRISM_TIO_CFG.pw pin) < 64 then
    (s.noteRefused a (s.mergeWord ini a w).2).fc pPrism2
  else
    let was := s.get pPrism2 (PRISM_TIO_CFG.oe pin)
    let s1 := s.plainWrite ini a w
    if was = 0 ∨ s1.get pPrism2 (PRISM_TIO_CFG.oe pin) = 0 then s1.tioFloat pin else s1

/-- PRISM_PER_WRITE (R106, R116): a period of 1 to 6,399 keeps the previous value and counts. -/
def doPrismPerWrite (k : Nat) (v : Word) (s : State) : State :=
  if 64 ≤ k then s
  else if v.toNat = 0 ∨ 6400 ≤ v.toNat then s.put pPrism1 (PRISM_PER.p k) v.toNat
  else s.fc pPrism1

/-! Firing (R100, R103 to R109). -/

/-- The time at which an entry is due: its fire time, or 10 ns before it for act 5 (R103). -/
def State.trgDue (s : State) (n : Nat) : Nat :=
  if s.get (pTrg n) TRG_CTL.act = 5 then s.trgTime n - 640 else s.trgTime n

/-- The edge on which an armed entry is compared first: the edge after its arm (R98). -/
def State.trgSince (s : State) (n : Nat) : Nat :=
  match s.prism.armedAt.find? (fun e => e.1 == n) with
  | some e => e.2 + 1
  | none => 0

/-- How many edges ago an entry became due (R103, R104): since its counter reached the time it is due, and not before its
first compare. (DESIGN CHOICE, log 38; DEDUCED, log 41) -/
def State.trgLate (s : State) (n : Nat) : Nat :=
  let b := s.get (pTrg n) TRG_CTL.tb
  min ((s.cnt b - s.trgDue n * 2 ^ 40) / s.incOf b) (s.now - s.trgSince n)

/-- Is an armed entry compared for the first time on this edge? -/
def State.trgFresh (s : State) (n : Nat) : Bool :=
  s.prism.armedAt.any (fun e => e.1 == n) && s.trgSince n == s.now

/-- Is an entry past at its first compare: its counter more than 2.5 ns past the fire time (R100)? (DEDUCED, log 41) -/
def State.isPast (s : State) (n : Nat) : Bool :=
  s.trgFresh n && decide (s.trgTime n * 2 ^ 40 + 175921860444160 < s.cnt (s.get (pTrg n) TRG_CTL.tb))

/-- Is an entry due on this edge (R102, R103, R110), and has it not fired on it? (DESIGN CHOICE, log 108) -/
def State.isDue (s : State) (n : Nat) : Bool :=
  let e := pTrg n
  let b := s.get e TRG_CTL.tb
  s.flag pPrism0 PAGE_CTL.en && s.flag e TRG_CTL.arm && decide (s.trgSince n ≤ s.now) && !s.trgHeld b && decide (s.trgDue n * 2 ^ 40 ≤ s.cnt b)
    && !s.prism.firedNow.contains n && !(s.isPast n && s.flag e TRG_CTL.pol)

/-- Does entry k fire before entry n (R104)? (DEDUCED, log 41) -/
def State.firesBefore (s : State) (k n : Nat) : Bool :=
  decide (s.trgLate n < s.trgLate k) || (s.trgLate n == s.trgLate k && decide (k < n))

/-- Keep the largest number of triggers due on one edge (R104). -/
def State.noteDue (s : State) : State :=
  let n := s.prism.firedNow.length + (s.prism.armed.filter s.isDue).length
  if s.get pPrism0 PRISM_DUE_HWM.hwm < n then s.put pPrism0 PRISM_DUE_HWM.hwm n else s

/-- Act 7 (R116): all five counters are captured into a set. (DEDUCED, log 43) -/
def State.capture (s : State) (n k : Nat) : State :=
  let p := pPrism1
  let s1 := overAll (List.range 5) s (fun b t =>
    let a := p + 0x50 + 16 * k + 3 * b
    ((t.setReg a (t72Hi (t.t64 b))).setReg (a + 1) (t72Lo (t.t64 b))).setReg (a + 2) (t.stampWord b 0))
  (s1.put p (PRISM_CAPSEQ.entry k) n).incMod p (PRISM_CAPSEQ.seq k)

/-- The channels of a group. -/
def State.groupOf (s : State) (page : Nat → Nat) (f : Fld) (g : Nat) : List Nat :=
  (List.range 96).filter (fun ch => s.get (page ch) f == g)

/-- Does a launched action take effect before another: on an earlier edge, or earlier within it? -/
def PrismAct.before (x y : PrismAct) : Bool := decide (x.at_ < y.at_) || (x.at_ == y.at_ && decide (x.t < y.t))

/-- Put a launched action among the others, in the order of their effects. -/
def insertAct (x : PrismAct) (l : List PrismAct) : List PrismAct :=
  match l with
  | [] => [x]
  | y :: r => if x.before y then x :: y :: r else y :: insertAct x r

/-- Launch an action. -/
def State.launchAct (s : State) (x : PrismAct) : State :=
  { s with prism := { s.prism with acts := insertAct x s.prism.acts } }

/-- A launched action takes effect (R107): 2 commits a group, 3 opens windows, 4 latches, 5 moves a pin. -/
def State.doAct (s : State) (x : PrismAct) : State :=
  if x.act = 2 then overAll (s.groupOf pPwm PWM_CFG.cgrp x.arg) s (fun ch u => u.setPw ch { u.pw ch with commitReq := true })
  else if x.act = 3 then overAll (s.groupOf pPwm PWM_CFG.sgrp x.arg) s (fun ch u => u.openWindow ch)
  else if x.act = 4 then overAll (s.groupOf pFbk FBK_CFG.lgrp x.arg) s (fun ch u => (u.fbkLatch ch true).profLatch ch)
  else if x.act = 5 then s.tioDo x
  else s

/-- The launched actions whose edge has come take effect, in order (R107). -/
def State.dueActs (s : State) : State :=
  let due := s.prism.acts.filter (fun x => decide (x.at_ ≤ s.now))
  due.foldl (fun t x => t.doAct x)
    { s with prism := { s.prism with acts := s.prism.acts.filter (fun x => !decide (x.at_ ≤ s.now)) } }

/-- Act 5 on its fire edge (R103, R107, R112): refused while the pin's oe is 0; else the pin edge is launched for the cycle in which
its time lies. -/
def State.tioAct (s : State) (n arg b t lat : Nat) : State :=
  if s.get pPrism2 (PRISM_TIO_CFG.oe (arg % 16)) = 0 then s.prismRefuse n 3 5
  else
    let u := s.tioTime b t lat
    let x : PrismAct := { at_ := s.now + (u - s.t64 0) / 160, act := 5, arg := arg, entry := n, t := u }
    if x.at_ ≤ s.now then s.tioDo x else s.launchAct x

/-- The action of a fire (R107): act 1 offers a post at E + 1, 2 commits a group, 3 opens windows and 4 latches at E + 2, 5 moves a
pin, 6 starts a Porter chain, 7 captures the counters. (DEDUCED, log 42) -/
def State.trgAction (s : State) (n act arg b t lat : Nat) : State :=
  if act = 1 then s.offerPost { cls := 0, src := n, task := arg % 512, tag := 1, at_ := s.now + 1 }
  else if inRange act 2 3 then s.launchAct { at_ := s.now + 2, act := act, arg := arg, entry := n }
  else if act = 5 then s.tioAct n arg b t lat
  else if act = 6 then
    let r := s.porterStart arg
    if r.2 then r.1 else r.1.prismRefuse n 2 6
  else if act = 7 then s.capture n arg
  else s

/-- The log words and the event of a late fire (R104, R115). -/
def State.noteLate (s : State) (n cause lat : Nat) : State :=
  (((((s.put (pTrg n) TRG_ST.late 1).inc pPrism0 PRISM_LATE_CNT.n).put pPrism0 PRISM_LATE_LAST.cause cause).put
    pPrism0 PRISM_LATE_LAST.lat lat).put pPrism0 PRISM_LATE_LAST.entry n).evC pPrism0 0

/-- A fire (R104, R105): its status and lateness, its disarm or its next fire time, its action, and its post. -/
def State.trgFireNow (s : State) (n : Nat) (past : Bool) : State :=
  let e := pTrg n
  let b := s.get e TRG_CTL.tb
  let t := s.trgTime n
  let late := if past then (s.cnt b - t * 2 ^ 40) / 175921860444160 else s.trgLate n
  let P := s.get pPrism1 (PRISM_PER.p (s.get e TRG_CTL.pidx))
  let again := s.flag e TRG_CTL.per && decide (0 < P)
  let skip := if again then (if t + P ≤ s.t64 b then (s.t64 b - t) / P else 0) else 0
  let isLate := decide (0 < late) || decide (0 < skip)
  let cause := if 0 < skip then 3 else if past then 2 else 1
  let s0 := { s with prism := { s.prism with
      firedNow := n :: s.prism.firedNow } }
  let s1 := if again then s0.setTrgTime n (t + P * (1 + skip)) else s0.trgDisarm n 1
  let s2 := (((s1.put e TRG_ST.code (if isLate then 2 else 1)).put e TRG_ST.lat (satN 255 late)).incMod e TRG_ST.fires)
  let s3 := if isLate then s2.noteLate n cause (satN 255 late) else s2
  let s4 := if s.flag e TRG_CTL.apost then s3.offerPost { cls := 0, src := n, task := s.get e TRG_CTL.ptask, tag := 0, at_ := s.now + 1 } else s3
  s4.trgAction n (s.get e TRG_CTL.act) (s.get e TRG_CTL.arg) b t late

/-- TRG_FIRE (R103 to R105): a due trigger fires, at most 16 on one edge, in the order of R104. (DESIGN CHOICE, log 3) -/
def execTrgFire (n : Nat) (s : State) : Out := .next <|
  if n < 1024 ∧ s.isDue n = true ∧ s.prism.firedNow.length < 16
      ∧ (s.prism.armed.any (fun k => s.isDue k && s.firesBefore k n)) = false then
    s.noteDue.trgFireNow n (s.isPast n)
  else s

/-- TRG_PAST (R100): a trigger that is past at its first compare fires late, expires, or moves on its grid. (DESIGN CHOICE, log 108) -/
def execTrgPast (n : Nat) (s : State) : Out := .next <|
  let e := pTrg n
  let b := s.get e TRG_CTL.tb
  if 1024 ≤ n ∨ s.flag pPrism0 PAGE_CTL.en = false ∨ s.flag e TRG_CTL.arm = false ∨ s.trgHeld b = true ∨ s.isPast n = false then s
  else if s.flag e TRG_CTL.pol then
    let P := s.get pPrism1 (PRISM_PER.p (s.get e TRG_CTL.pidx))
    if s.flag e TRG_CTL.per && decide (0 < P) then
      let t := s.trgTime n
      (s.setTrgTime n (t + P * (1 + (s.t64 b - t) / P))).ev pPrism0 4
    else (s.trgDisarm n 3).ev pPrism0 4
  else if s.isDue n = true ∧ s.prism.firedNow.length < 16
      ∧ (s.prism.armed.any (fun k => s.isDue k && s.firesBefore k n)) = false then s.noteDue.trgFireNow n true
  else s

/-- PAGE_CTL.en of PRISM page 0 becomes 1: every armed entry is compared as for the first time (R102). -/
def State.prismEnable (s : State) : State :=
  { s with prism := { s.prism with armedAt := s.prism.armed.map (fun n => (n, s.now)) } }

/-- PRISM_SRST (R102): the table, the words of the three pages and the pins are reset, with the copies of TRG_TL that cores hold; sealed
output enables are kept, and actions that are launched already, pin edges apart, take effect. (DEDUCED, log 40) -/
def doPrismSrst (s : State) : State :=
  let held := s.prism.held
  let acts := s.prism.acts.filter (fun x => x.act != 5)
  let s1 := s.resetWords (pTrg 0) (pTrg 1024) (fun _ => false)
  let s2 := ((s1.resetPage pPrism0 (fun _ => false) 0).resetPage pPrism1 (fun _ => false) 0).resetPage pPrism2 (fun _ => false) 0
  let s3 := { s2 with
    prism := { acts := acts }
    holds := s2.holds.filter (fun e => e.1 % 8 != 0)
    srstBusy := if pPrism0 ∈ s2.srstBusy then s2.srstBusy else pPrism0 :: s2.srstBusy }
  replayTrg s3 held

/-- The reset of the words of PRISM page 1 or 2 alone (R102). -/
def State.prismPageReset (s : State) (k : Nat) : State :=
  let p := if k = 1 then pPrism1 else pPrism2
  let s1 := s.resetPage p (fun _ => false) 0
  if k = 1 then s1 else { s1 with prism := { s1.prism with tio := [] } }

/-- PRISM_STAT as it reads (R111, R115). -/
def State.prismView (s : State) (a : Nat) : Option Nat :=
  if a = pPrism0 + 0x10 then
    some (b2n s.walking * 2 ^ 35 + (match s.prism.walk with | some w => w.1 | none => 0) * 2 ^ 32 + s.prism.armed.length)
  else none

/-- The Prism on one PCLK edge: the fires of the last edge are over, and the running walk visits its entries. -/
def State.prismTick (s : State) : State :=
  let s1 := { s with prism := { s.prism with firedNow := [] } }
  if s1.now ≤ s1.prism.walkAt + 63 then s1.walkEdge (s1.now - s1.prism.walkAt) else s1

/-! The commands. -/

/-- The command TRG_TH_READ (R97). -/
def execTrgThRead (core n : Nat) (s : State) : Out := .next (s.readWord (pTrg n) (doTrgThRead core n))

/-- The command TIO_CLO_READ (R114). -/
def execTioCloRead (pin : Nat) (s : State) : Out := .next (s.readWord (pPrism2 + 0x23 + 4 * pin) (doTioCloRead pin))

/-- The command TIO_CFG_WRITE (R117). -/
def execTioCfgWrite (ini pin : Nat) (v : Word) (s : State) : Out :=
  .next (s.writeWord ini (pPrism2 + 0x10 + pin) v (doTioCfgWrite ini pin v))

/-- The command PRISM_PER_WRITE (R116). -/
def execPrismPerWrite (k : Nat) (v : Word) (s : State) : Out := .next (s.writeWord 0 (pPrism1 + 0x10 + k) v (doPrismPerWrite k v))

/-- The command PRISM_SRST (R102). -/
def execPrismSrst (s : State) : Out := .next (doPrismSrst s)

end Sys2Proof.Machine
end

