-- ==== Sys2Proof/Machine/Ring.lean ====
section
/-! DEFINITION. The Wichapen ring (R353 to R385): the schedule and its check, guardians, frames taken, forwarded and sent, node
states, cycle points, breaks and their healing, the asynchronous class, and the descriptor queues. -/

namespace Sys2Proof.Machine

/-! The schedule and the name table. -/

/-- A field of schedule entry e. -/
def State.sch (s : State) (e : Nat) (f : Nat → Fld) : Nat := s.get (pSched e) (f 0)

/-- The valid entries of the schedule table. -/
def State.slotTable (s : State) : List Nat :=
  ((s.regs.map (fun x => x.1)).filter (fun a =>
    inRange a (pSched 0) 32768 && (a - pSched 0) % 8 == 0 && bitN (s.reg a) 35)).map (fun a => (a - pSched 0) / 8)

/-- The 64-bit serial identity of this unit (R17). -/
def State.ownSerial (s : State) : Nat := s.get pSys SYS_SERIAL_HI.serial_hi * 2 ^ 32 + s.get pSys SYS_SERIAL_LO.serial_lo

/-- The serial identity that the name table holds for an address (R357). -/
def State.nameSerial (s : State) (a : Nat) : Nat :=
  s.get (pNames + 2 * a) (NAME_HI.serhi 0) * 2 ^ 32 + s.get (pNames + 2 * a) (NAME_LO.serlo 0)

/-- Is a node configured at an address (R357)? -/
def State.namePresent (s : State) (a : Nat) : Bool := decide (a < 2048) && s.get (pNames + 2 * a) (NAME_HI.present 0) == 1

/-- Does the name lock of a serial hold at an address (R358)? -/
def State.nameLock (s : State) (a serial : Nat) : Bool := s.namePresent a && s.nameSerial a == serial

/-- The number of star nodes. -/
def State.nstar (s : State) : Nat := s.get pRing0 RING_NODE.nstar + 1

/-- The own ring-order index: the star of the name table that carries the own serial. (DEDUCED, log 77) -/
def State.ownIndex (s : State) : Option Nat :=
  (List.range s.nstar).find? (fun i => s.nameLock (32 * i) s.ownSerial)

/-- The cycle length in 1/64 ns (R359). (DEDUCED, log 77) -/
def State.cycLen (s : State) : Nat :=
  (if s.get pRing0 RING_CYC.k = 0 then 1 else s.get pRing0 RING_CYC.k) * 2000000

/-- The cycle in which cell time lies (R359). -/
def State.cycNow (s : State) : Nat := s.t64 4 / s.cycLen

/-- The configured length of the chain of spoke q (R356). -/
def State.chainLen (s : State) (q : Nat) : Nat := s.get pRing0 RING_SPOKES.len / 2 ^ (4 * q) % 16

/-- The sum of the configured chain lengths of the spokes below q. -/
def State.chainSum (s : State) (q : Nat) : Nat := ((List.range q).map s.chainLen).foldl (fun a x => a + x) 0

/-- The own state of the node (R371). -/
def State.rState (s : State) : Nat := s.get pRing0 RING_STAT.state

/-- The own address of the node. -/
def State.rAddr (s : State) : Nat := s.get pRing0 RING_STAT.addr

/-- The node changes state (R372): event 0, and a re-integration when it falls from state 4 to 3. -/
def State.rGo (s : State) (st : Nat) : State :=
  let s1 := (s.put pRing0 RING_STAT.state st).ev pRing0 0
  if s.rState = 4 ∧ st = 3 then (s1.inc pRing0 RING_REINT.n).evC pRing0 3 else s1

/-- The node enters state 5 with a cause (R356, R358, R361, R372). -/
def State.rHold (s : State) (cause : Nat) : State :=
  let s1 := (s.rGo 5).put pRing0 RING_STAT.hcause cause
  if cause = 1 then s1.evC pRing0 6 else if cause = 2 ∨ cause = 4 then s1.evC pRing0 7 else s1

/-- Do two entries share a slot id and a receive port (R361)? -/
def State.sameSlot (s : State) (e f : Nat) : Bool :=
  s.sch e SCHED_W2.idn == s.sch f SCHED_W2.idn && s.sch e SCHED_W1.inp == s.sch f SCHED_W1.inp

/-- The ports of an own transmit (R360): `out`, and both backbone ports with dup. -/
def State.ownPorts (s : State) (e : Nat) : List Nat :=
  (List.range 10).filter (fun u => bitN (s.sch e SCHED_W1.out) u || (s.sch e SCHED_W1.dup == 1 && decide (u < 2)))

/-- Do two own-transmit entries overlap on one port (R361)? -/
def State.overlap (s : State) (e f : Nat) : Bool :=
  let se := s.sch e SCHED_W0.start
  let sf := s.sch f SCHED_W0.start
  s.sch e SCHED_W0.role == 0 && s.sch f SCHED_W0.role == 0 && (s.ownPorts e).any (fun u => (s.ownPorts f).contains u)
    && decide (se < sf + s.sch f SCHED_W1.len) && decide (sf < se + s.sch e SCHED_W1.len)

/-- Is an entry well formed by itself (R360, R361)? -/
def State.entryOk (s : State) (e : Nat) : Bool :=
  let kind := s.sch e SCHED_W0.kind
  let role := s.sch e SCHED_W0.role
  let inp := s.sch e SCHED_W1.inp
  decide (role ≤ 3) && decide (kind ≤ 3) && (decide (inp ≤ 9) || inp == 15) && decide (1 ≤ s.sch e SCHED_W1.len)
    && decide ((s.sch e SCHED_W0.start + s.sch e SCHED_W1.len) * 640 ≤ s.cycLen)
    && decide (s.sch e SCHED_W2.ftime * 640 < s.cycLen) && decide (s.sch e SCHED_W3.plen ≤ 1536)
    && (!(kind == 1 && role == 0) || s.sch e SCHED_W1.dup == 1) && (!(kind == 3) || role == 0 || role == 3)

/-- Do the entries of a list rise in start, and stand at 0, 1, 2 and so on (R361)? -/
def State.entriesRise (s : State) (k : Nat) (l : List Nat) : Bool :=
  match l with
  | [] => true
  | e :: r => e == k && (match r with | f :: _ => decide (s.sch e SCHED_W0.start ≤ s.sch f SCHED_W0.start) | [] => true)
      && s.entriesRise (k + 1) r

/-- Does no pair of a list clash? -/
def State.noClash (s : State) (l : List Nat) : Bool :=
  match l with
  | [] => true
  | e :: r => r.all (fun f => !(s.sameSlot e f) && !(s.overlap e f)) && s.noClash r

/-- SCHEDULE_CHECK (R361): the table is well formed. (DEDUCED, log 78) -/
def State.scheduleOk (s : State) : Bool :=
  s.entriesRise 0 s.slotTable && s.slotTable.all s.entryOk && s.noClash s.slotTable

/-- What sealing checks of the ring (R356, R361). -/
def State.ringSeal (s : State) : State :=
  if 31 < s.chainSum 8 then s.rHold 4 else if s.scheduleOk then s else s.rHold 2

/-- State 0 is left when the locks are sealed, the page is enabled and a backbone link is up (R372). -/
def State.ringWake (s : State) : State :=
  if s.rState = 0 ∧ s.olSealed = true ∧ s.flag pRing0 PAGE_CTL.en
      ∧ (s.flag (pRing 0) RING_P_STAT.up || s.flag (pRing 1) RING_P_STAT.up) = true then
    { s with ring := { s.ring with heard := s.t64 0 } }.rGo 1
  else s

/-! Paths (R379, R355). -/

/-- Hops from index i0 to index i1 clockwise among n stars. -/
def cwDist (n i0 i1 : Nat) : Nat := (i1 + n - i0 % n) % n

/-- The length of the path of the time frames from the master to this star: clockwise (path 0) or counter-clockwise, looped at
a broken hop h between stars h and h + 1 (R379). -/
def pathLen (n im i path : Nat) (brk : List Nat) : Nat :=
  let d := if path = 0 then cwDist n im i else cwDist n i im
  match brk.find? (fun h => decide ((if path = 0 then cwDist n im h else cwDist n (h + 1) im) < d)) with
  | none => d
  | some h => if path = 0 then cwDist n im h + cwDist n i h else cwDist n (h + 1) im + cwDist n (h + 1) i

/-- Does a broken hop lie on the unbroken path from the master to this star? -/
def pathHit (n im i path h : Nat) : Bool :=
  if path = 0 then decide (cwDist n im h < cwDist n im i) else decide (cwDist n (h + 1) im < cwDist n i im)

/-- The address of the time master: the owner that the schedule names for time frames, by default the cold-start node. -/
def State.masterAddr (s : State) : Nat :=
  match s.slotTable.find? (fun e => s.sch e SCHED_W0.kind == 1 && s.sch e SCHED_W0.cs == 0) with
  | some e => s.sch e SCHED_W0.owner
  | none => s.get pRing0 RING_STAT.csaddr

/-- Is this node the time master (R375, R389): one that has its address and has not still to win the ring? -/
def State.timeMaster (s : State) : Bool := s.ring.known && s.masterAddr == s.rAddr && inRange s.rState 3 2

/-- Show the path lengths of the hop list in force. -/
def State.showHops (s : State) : State :=
  let n := s.nstar
  let im := s.masterAddr / 32
  let i := s.rAddr / 32
  (s.put pRing0 RING_HOPS.hpri (pathLen n im i 0 s.ring.inForce)).put pRing0 RING_HOPS.hctr (pathLen n im i 1 s.ring.inForce)

/-- The bases steered by a ring path are suppressed, and run at rate f (R83). -/
def State.suspend_ (s : State) (h : Nat) : State :=
  let n := s.nstar
  let im := s.masterAddr / 32
  let i := s.rAddr / 32
  overAll [1, 2, 3] s (fun b t =>
    let src := t.get (pTb b) TIME_TB_CTL.src
    if (src = 1 ∧ pathHit n im i 0 h = true) ∨ (src = 2 ∧ pathHit n im i 1 h = true) then
      (t.put (pTb b) TIME_TB_STAT.susp 1).put (pTb b) TIME_TB_RATE.rate (t.get (pTb b) TIME_TB_FREQ.freq)
    else t)

/-- The suppression of the bases ends, and their timeouts restart (R58, R83). -/
def State.unsuspend (s : State) : State :=
  overAll [1, 2, 3] s (fun b t =>
    if t.flag (pTb b) TIME_TB_STAT.susp then (t.put (pTb b) TIME_TB_STAT.susp 0).tbRestart b else t)

/-- A break of hop h, declared in cycle d, becomes known to this star (R379). -/
def State.learnBreak (s : State) (h d : Nat) (ports : List Nat) : State :=
  if s.ring.breaks.contains (h, d) then s
  else
    let s1 := { s with ring := { s.ring with breaks := s.ring.breaks ++ [(h, d)] } }
    (overAll ports s1 (fun u t =>
      { t with ring := { t.ring with notices := Tab.wr t.ring.notices u (Tab.rd t.ring.notices u ++ [(h, d)]) } })).suspend_ h

/-- The hop at a backbone port: hop h lies between stars h and h + 1. -/
def State.hopOf (s : State) (u : Nat) : Nat :=
  let i := s.rAddr / 32
  if u = 0 then i else (i + s.nstar - 1) % s.nstar

/-- BREAK_DECLARE (R378, R379): a backbone port declares its hop broken: the node wraps there and sends a break notice through
its other port. -/
def State.breakPort (s : State) (u : Nat) : State :=
  let p := pRing u
  if 2 ≤ u ∨ s.flag p RING_P_STAT.broken then s
  else
    let s1 := ((((s.put p RING_P_STAT.broken 1).put p RING_P_STAT.wrap 1).put pRing0 RING_STAT.wrapped 1).inc p
      RING_P_DOWN.n).evC p 1
    s1.learnBreak (s.hopOf u) s.cycNow [1 - u]

/-- The own receive of a backbone port fails: its hop is broken, and its link blocks report the failure (R378). -/
def State.failReceive (s : State) (u : Nat) : State :=
  if u < 2 ∧ s.ring.rxFail.contains u = false then { s with ring := { s.ring with rxFail := u :: s.ring.rxFail } }.breakPort u
  else s.breakPort u

/-- BREAK_DECLARE (R378): the own receive of a port has failed, which its link blocks report from now on. -/
def execBreakDeclare (u : Nat) (s : State) : Out := .next (s.clocked pRing0 fun s => s.failReceive u)

/-- A restore of cycle r becomes known to this star (R380): until the unbroken hop list is in force the bases whose path it changes are
suppressed (R83). -/
def State.learnRestore (s : State) (r : Nat) (ports : List Nat) : State :=
  if s.ring.restores.contains (0, r) then s
  else
    let s1 := overAll ports { s with ring := { s.ring with restores := s.ring.restores ++ [(0, r)] } } (fun u t =>
      { t with ring := { t.ring with restNotes := Tab.wr t.ring.restNotes u (Tab.rd t.ring.restNotes u ++ [r]) } })
    overAll s.ring.inForce s1 (fun h t => t.suspend_ h)

/-- HOP_RESTORE (R380): both ends of the broken hop have held a good link for 1 ms: restore notices go out. -/
def execHopRestore (u : Nat) (s : State) : Out := .next <| s.clocked pRing0 fun s =>
  if 2 ≤ u ∨ s.flag (pRing u) RING_P_STAT.broken = false then s
  else
    { s.put (pRing u) RING_P_STAT.broken 0 with ring := { s.ring with rxFail := s.ring.rxFail.filter (fun x => x != u) } }.learnRestore
      s.cycNow [0, 1]

/-! Links (R354, R358, R372, R382, R390). -/

/-- RING_LINK_UP (R354, R372, R382): the link is up with 128 credits; with a backbone link the node may leave state 0. -/
def execRingLinkUp (u : Nat) (s : State) : Out := .next <|
  let p := pRing u
  if 10 ≤ u ∨ s.flag p RING_P_STAT.up then s
  else
    let s1 := ((s.put p RING_P_STAT.up 1).put p RING_P_CRED.cred 128).ev p 0
    { s1 with ring := { s1.ring with used := Tab.wr s1.ring.used u 0, owed := Tab.wr s1.ring.owed u 0 } }.ringWake

/-- RING_LINK_LOST (R390): a spoke link goes down, with event 1 counted. -/
def execRingLinkLost (u : Nat) (s : State) : Out := .next <|
  let p := pRing u
  if inRange u 2 8 && s.flag p RING_P_STAT.up then ((s.put p RING_P_STAT.up 0).inc p RING_P_DOWN.n).evC p 1 else s

/-- The offset in the cycle at which a slot's frame starts on a port (R360, R365, R368): own transmits at their start, frames that cross
between a spoke and the backbone at their ftime. -/
def State.slotStarts (s : State) (u : Nat) : List Nat :=
  (s.slotTable.filter (fun e => bitN (s.sch e SCHED_W1.out) u && decide (s.sch e SCHED_W0.kind ≤ 2))).map (fun e =>
    (if s.sch e SCHED_W0.role = 0 then s.sch e SCHED_W0.start else s.sch e SCHED_W2.ftime) * 640)

/-- Would a link frame on a spoke end before the next slot start on that port (R354): 28 octets of 8 ns from preamble to FCS? A backbone
port is not bound. (DEDUCED, log 74) -/
def State.linkFrameFits (s : State) (u : Nat) : Bool :=
  decide (u < 2) || (s.slotStarts u).all (fun o => decide (14336 ≤ (o + s.cycLen - s.t64 4 % s.cycLen) % s.cycLen))

/-- LINK_BLOCK (R354, R382): a link block goes out with the credits owed, the failed receive, and one notice of each kind; on a spoke,
as a link frame, only when it ends before the next slot start. -/
def execLinkBlock (u : Nat) (s : State) : Out := .next <| s.clocked pRing0 fun s =>
  if 10 ≤ u ∨ s.flag (pRing u) RING_P_STAT.up = false ∨ s.rState = 0 ∨ s.flag pClk CLK_DOM_FIX.pdead = true ∨ s.linkFrameFits u = false then s
  else
    let b : LinkBlock := { credits := Tab.rd s.ring.owed u, rxFail := s.ring.rxFail.contains u
                           brk := (Tab.rd s.ring.notices u).head?, restore := (Tab.rd s.ring.restNotes u).head?, nbr := s.rAddr }
    { s with ring := { s.ring with
        blk := Tab.wr s.ring.blk u (some b), owed := Tab.wr s.ring.owed u 0
        notices := Tab.wr s.ring.notices u (Tab.rd s.ring.notices u).tail
        restNotes := Tab.wr s.ring.restNotes u (Tab.rd s.ring.restNotes u).tail } }

/-- LINK_BLOCK_RECEIVE (R378 to R380, R382): the port receives, credits come back, and the neighbour, its failed receive and its notices
are taken. -/
def execLinkBlockReceive (u : Nat) (b : LinkBlock) (s : State) : Out := .next <| s.clocked pRing0 fun s =>
  let p := pRing u
  if 10 ≤ u ∨ s.flag p RING_P_STAT.up = false ∨ s.rState = 0 then s
  else
    let s0 := { s with ring := { s.ring with rxFail := s.ring.rxFail.filter (fun x => x != u) } }
    let s1 := s0.put p RING_P_CRED.cred (satN 128 (s.get p RING_P_CRED.cred + b.credits))
    if 2 ≤ u then s1
    else
      let s2 := s1.put p RING_P_STAT.nbr b.nbr
      let s3 := if b.rxFail then s2.breakPort u else s2
      let s4 := match b.brk with | some x => s3.learnBreak x.1 x.2 [1 - u] | none => s3
      match b.restore with | some r => s4.learnRestore r [1 - u] | none => s4

/-! Descriptor queues (R383 to R385). -/

/-- The register set of queue q: 0 and 1 the ring's receive and transmit queue, then for each Ethernet port 4 receive and 8
transmit queues. -/
def qAddr (q : Nat) : Nat :=
  if q = 0 then pRing0 + 0x20 else if q = 1 then pRing0 + 0x24
  else
    let e := (q - 2) / 12
    let k := (q - 2) % 12
    if k < 4 then pEth e + 0x20 + 4 * k else pEth e + 0x30 + 4 * (k - 4)

/-- The register set that a queue's words lie in, by address. -/
def State.qEn (s : State) (a : Nat) : Bool := bitN (s.reg (a + 1)) 35

/-- The number of entries of a queue (R383). -/
def State.qSize (s : State) (a : Nat) : Nat := 2 ^ (s.reg (a + 1) / 2 ^ 31 % 16)

/-- The head of a queue. -/
def State.qHead (s : State) (a : Nat) : Nat := s.reg (a + 2)

/-- Does a queue hold descriptors for the hardware: enabled, and head is not tail? -/
def State.qReady (s : State) (a : Nat) : Bool := s.qEn a && s.reg (a + 2) % s.qSize a != s.reg (a + 3) % s.qSize a

/-- The address of the descriptor at the head of a queue. -/
def State.qDesc (s : State) (a : Nat) : Nat := s.reg a + 8 * (s.qHead a % s.qSize a)

/-- The page of a queue, and its bit for a refused write (R389, R392). -/
def qPage (a : Nat) : Nat × Nat := if pageOf a = pRing0 then (pRing0, 11) else (pageOf a, 5)

/-- The head advances, and the queue's task is posted when it asks for it (R383). -/
def State.qAdvance (s : State) (a : Nat) : State :=
  let s1 := s.setReg (a + 2) ((s.qHead a + 1) % s.qSize a)
  if bitN (s.reg (a + 1)) 30 then
    s1.offerPost { cls := 1, src := (pageOf a - pageSpace) / 0x100, task := s.reg (a + 1) / 2 ^ 21 % 512 }
  else s1

/-- Octets packed into words, four to a word, octet 0 in the low bits (R2). -/
def packWords (l : List Nat) : List Word :=
  match l with
  | [] => []
  | a :: [] => [word (a % 256)]
  | a :: b :: [] => [word (a % 256 + b % 256 * 256)]
  | a :: b :: c :: [] => [word (a % 256 + b % 256 * 256 + c % 256 * 65536)]
  | a :: b :: c :: d :: r => word (a % 256 + b % 256 * 256 + c % 256 * 65536 + d % 256 * 16777216) :: packWords r

/-- Write words into memory from an address. -/
def State.putWords (s : State) (a : Nat) (l : List Word) : State :=
  match l with
  | [] => s
  | w :: r => (s.setMem a w).putWords (a + 1) r

/-- The octet k of a packed area of memory (R2). -/
def State.octet (s : State) (a k : Nat) : Nat := (s.memW (a + k / 4)).toNat / 2 ^ (8 * (k % 4)) % 256

/-- n octets of a packed area of memory. -/
def State.octets (s : State) (a n : Nat) : List Nat := (List.range n).map (s.octet a)

/-- A frame as it is received on a port: its ingress stamp is the capture, from which the factory latency is taken out already, minus
TIME_TSU_ING_ADJ (R85). (DESIGN CHOICE, log 37) -/
def State.ingress (s : State) (u stamp : Nat) : Nat := ((stamp : Int) - s.getI (pTsu u) TIME_TSU_ING_ADJ.adj).toNat

/-- An ingress stamp of cell time, in the counter that a port's timestamp unit names; 0 while the unit is disabled (R86, R90).
(DESIGN CHOICE, log 37) -/
def State.stampIn (s : State) (u stamp : Nat) : Nat :=
  if s.flag (pTsu u) TIME_TSU_CFG.en then
    ((stamp : Int) + s.t64 (ctrOf (s.get (pTsu u) TIME_TSU_CFG.tb)) - s.t64 4).toNat
  else 0

/-- The status word of a port's stamps. -/
def State.stampStat (s : State) (u : Nat) : Nat :=
  if s.flag (pTsu u) TIME_TSU_CFG.en then s.stampWord (ctrOf (s.get (pTsu u) TIME_TSU_CFG.tb)) 0 else 0

/-- The receive stamp of a frame as captured: its ingress stamp and status word (R82, R86). -/
def State.rxStamp (s : State) (u stamp : Nat) : StampRec := { t64 := s.stampIn u stamp, st := s.stampStat u }

/-- A received frame is written to the descriptor at the head of a queue (R384): buffer, words 2 to 5, word 0 last. -/
def State.rxDeliver (s : State) (a port : Nat) (oct : List Nat) (x : StampRec) (w5 : Nat) : State :=
  let d := s.qDesc a
  let s1 := s.putWords (s.memW (d + 1)).toNat (packWords oct)
  let s2 := ((((s1.setMem (d + 2) (word (t72Hi x.t64))).setMem (d + 3) (word (t72Lo x.t64))).setMem (d + 4) (word x.st)).setMem
    (d + 5) (word w5)).setMem (d + 6) 0
  ((s2.setMem (d + 7) 0).setMem d (word (2 ^ 35 + port * 2 ^ 30 + oct.length))).qAdvance a

/-- Asynchronous frames that wait for a descriptor are delivered while the receive queue has any (R384). -/
def asyncDeliver (s : State) (l : List (Nat × RingFrame × StampRec)) : State :=
  match l with
  | [] => s
  | x :: r =>
    let a := pRing0 + 0x20
    let f := x.2.1
    let n := (f.payload.length + 20 + 63) / 64
    if s.qReady a then
      let s1 := { s with ring := { s.ring with
          wait := s.ring.wait.tail, used := Tab.wr s.ring.used x.1 (Tab.rd s.ring.used x.1 - n)
          owed := Tab.wr s.ring.owed x.1 (Tab.rd s.ring.owed x.1 + n) } }
      if s.reg (a + 1) % 256 * 64 < f.payload.length then asyncDeliver (s1.inc (pRing x.1) RING_P_DROP.n) r
      else asyncDeliver ((s1.rxDeliver a x.1 f.payload x.2.2 (f.hop % 256 * 2 ^ 16 + f.src)).ev pRing0 9) r
    else s

/-! Frames (R363 to R369). -/

/-- The link delay and asymmetry of a port, in 1/64 ns (R81). -/
def State.linkMa (s : State) (u : Nat) : Int := (s.get (pTsu u) TIME_TSU_LINK.m : Int) + s.getI (pTsu u) TIME_TSU_ASYM.a

/-- A frame is dropped by the guardian of a port (R369). (DEDUCED, log 74) -/
def State.rDrop (s : State) (u reason : Nat) (e : Option Nat) (id : Nat) : State :=
  let p := pRing u
  let s1 := match e with | some k => s.incMod (pSched k) (SCHED_W4.drop 0) | none => s
  (((s1.inc p RING_P_DROP.n).put p RING_P_DLAST.reason reason).put p RING_P_DLAST.idn id).evC p 2

/-- Is the node time-good (R369)? (DEDUCED, log 74) -/
def State.timeGood (s : State) : Bool := s.flag pTime0 TIME_CT_STAT.valid && inRange (s.get pTime0 TIME_CT_STAT.state) 1 2

/-- Does an entry receive a frame on a port (R369, R379): on its own port, or, for a frame looped at a break, where the hop list in force
lets it come back: on the other backbone port, or on the one by which it was sent? (DEDUCED, log 74) -/
def State.entryPort (s : State) (e u : Nat) (looped : Bool) : Bool :=
  let inp := s.sch e SCHED_W1.inp
  if looped then
    s.sch e SCHED_W1.wrap == 1 && !s.ring.inForce.isEmpty && decide (u < 2)
      && (if inp < 2 then inp != u else bitN (s.sch e SCHED_W1.out) u)
  else inp == u

/-- The entry of a frame on a port. -/
def State.slotEntry (s : State) (f : RingFrame) (u : Nat) : Option Nat :=
  s.slotTable.find? (fun e => s.sch e SCHED_W2.idn == f.slot && s.entryPort e u f.wrap)

/-- The cycle, near the present one, whose number modulo 2^16 a frame carries. -/
def State.cycOf (s : State) (c : Nat) : Option Nat :=
  [s.cycNow, s.cycNow - 1, s.cycNow + 1].find? (fun k => k % 65536 == c)

/-- The time at which a frame of an entry is expected at a port (R369), in 1/64 ns of cell time. -/
def State.tExp (s : State) (e c u : Nat) (f : RingFrame) : Int :=
  (c * s.cycLen + s.sch e SCHED_W0.start * 640 + f.transit : Nat) + s.linkMa u

/-- The owner of an entry (R360). -/
def State.ownerOf (s : State) (e : Nat) : Nat :=
  if s.sch e SCHED_W0.cs = 1 then s.get pRing0 RING_STAT.csaddr else s.sch e SCHED_W0.owner

/-- Is the leaf that a spoke frame comes from shut out: without an address, or with a failed lock (R356, R358)? -/
def State.leafBad (s : State) (u src : Nat) : Bool :=
  if u < 2 then false
  else
    let k := u - 2
    let j := src - s.rAddr - s.chainSum k
    !s.ring.known || decide (31 < s.chainSum 8) || decide (src < s.rAddr + s.chainSum k + 1) || decide (s.chainLen k < j)
      || bitN (s.get (pRing u) RING_P_STAT.lkfail) (j - 1)

/-- When a frame that still runs is cut off (R369). -/
def State.cutAt (s : State) (u e c : Nat) (f : RingFrame) : Int :=
  s.tExp e c u f + (s.sch e SCHED_W1.len * 640 + s.get pRing0 RING_GUARD.w * 64 : Nat)

/-- The guardian's reason for dropping a frame of types 0 to 2 with an entry and its cycle, or 0 (R369). -/
def State.guard (s : State) (u e : Nat) (f : RingFrame) : Nat :=
  match s.cycOf f.cyc with
  | none => 1
  | some c =>
    let t := s.tExp e c u f
    let w : Int := (s.get pRing0 RING_GUARD.w * 64 : Nat)
    if (f.stamp : Int) < t - w ∨ t + w < f.stamp then 1
    else if f.src ≠ s.ownerOf e then 2
    else if s.sch e SCHED_W0.kind ≠ f.typ then 4
    else if s.cutAt u e c f < (f.stamp : Int) + f.dur then 3
    else 0

/-- A frame leaves on a port, unless the outputs of the page or of the port are blocked and the frame is an own one (R41), or PCLK is
dead, with which the ring's transmitters stop (R501). -/
def State.rSend (s : State) (u : Nat) (own : Bool) (f : RingFrame) : State :=
  let off := s.flag pClk CLK_DOM_FIX.pdead || own && (pageBlocked s pRing0 || pageBlocked s (pRing u) || s.ring.txHold.contains pRing0
    || s.ring.txHold.contains (pRing u))
  if off then s else { s with ring := { s.ring with tx := Tab.wr s.ring.tx u (some f) } }

/-- A frame is sent or forwarded on a port (R379): at a broken hop a wrap frame leaves through the other backbone port with the
wrap flag set, one that carries the flag already is removed, and any other is dropped. -/
def State.rLeave (s : State) (u : Nat) (own wrap : Bool) (f : RingFrame) : State :=
  if u < 2 ∧ s.flag (pRing u) RING_P_STAT.wrap then
    if wrap ∧ f.wrap = false then s.rSend (1 - u) own { f with wrap := true, dir := decide (u = 0) } else s
  else s.rSend u own f

/-- The port by which a frame for a port leaves: at a broken hop the other backbone port (R379). -/
def State.viaPort (s : State) (u : Nat) : Nat := if u < 2 ∧ s.flag (pRing u) RING_P_STAT.wrap then 1 - u else u

/-- A number from octets in network order. (DEDUCED, log 75) -/
def beNum (l : List Nat) : Nat := l.foldl (fun a x => a * 256 + x % 256) 0

/-- A number as n octets in network order. -/
def beOct (n v : Nat) : List Nat :=
  match n with
  | 0 => []
  | k + 1 => v / 256 ^ k % 256 :: beOct k v

/-- Replace octets of a list from an offset. -/
def patch (l : List Nat) (o : Nat) (v : List Nat) : List Nat := l.take o ++ v ++ l.drop (o + v.length)

/-- A frame to which a forwarding node adds a time in 1/64 ns (R365, R366): to its transit, and for a time frame to its correction, in
2^-16 ns, too. -/
def RingFrame.delayed (f : RingFrame) (d : Int) : RingFrame :=
  { f with
    transit := satN (2 ^ 32 - 1) ((f.transit : Int) + d).toNat
    payload := if f.typ = 1 then
        patch f.payload 12 (beOct 8 (unsint 64 (sint 64 (beNum ((f.payload.drop 12).take 8)) + d * 1024)))
      else f.payload }

/-- Does a frame come back to its source, to be removed there (R365)? -/
def State.returns (s : State) (f : RingFrame) : Bool := s.ring.known && f.src == s.rAddr && !f.wrap

/-- A frame without an entry goes on along the backbone, cut-through (R365). (DESIGN CHOICE, log 76) -/
def State.passOn (s : State) (u : Nat) (f : RingFrame) : State :=
  if u < 2 then
    let v := s.freeVal
    v.2.rLeave (1 - u) false false (f.delayed (s.linkMa u + (v.1 % 12801 : Nat)))
  else s

/-- The ports on which a frame of an entry goes on: those of `out`; a looped one goes on along the backbone, and to the spokes of `out`
where its slot has not been accepted in its cycle (R365, R379). (DEDUCED, log 74) -/
def State.onPorts (s : State) (u e : Nat) (f : RingFrame) : List Nat :=
  let seen := (Tab.rd s.ring.took f.slot ++ Tab.rd s.ring.got f.slot).any (fun c => c % 65536 == f.cyc)
  (List.range 10).filter (fun o =>
    if f.wrap && decide (o < 2) then o == 1 - u else bitN (s.sch e SCHED_W1.out) o && !(f.wrap && seen))

/-- Forward a frame of an entry on some ports (R365, R368): cut-through on the backbone, held between spoke and backbone. (DESIGN CHOICE, log 76) -/
def State.rForward (s : State) (ports : List Nat) (u : Nat) (f : RingFrame) (e : Nat) : State :=
  let v := s.freeVal
  let f0 := f.delayed (s.linkMa u)
  let f1 := f.delayed (s.linkMa u + (v.1 % 12801 : Nat))
  overAll ports v.2 (fun o t =>
    if (u < 2) = (o < 2) then t.rLeave o false (t.sch e SCHED_W1.wrap == 1) f1
    else
      let t1 := match Tab.rd t.ring.hold o with
        | some x => t.rDrop o 6 (some x.1) x.2.slot
        | none => t
      { t1 with ring := { t1.ring with hold := Tab.wr t1.ring.hold o (some (e, f0)) } })

/-- The address of a TT buffer (R367). -/
def State.ttBuf (s : State) (e : Nat) : Nat := s.get pRing0 RING_TTBASE.base + 0x400 * s.sch e SCHED_W3.buf

/-- A received TT frame is placed in the half that sel does not name, and sel flips (R367). (DEDUCED, log 75) -/
def State.ttTake (s : State) (u e : Nat) (f : RingFrame) : State :=
  let b := s.ttBuf e
  let ctl := (s.memW b).toNat
  let half := if bitN ctl 35 then 0x10 else 0x210
  let t := s.stampIn u f.stamp
  let s1 := s.putWords (b + half) (packWords f.payload)
  let s2 := (((s1.setMem (b + 1) (word (t72Hi t))).setMem (b + 2) (word (t72Lo t))).setMem (b + 3) (word (s.stampStat u))).setMem
    (b + 4) (word (f.src * 2 ^ 16 + f.cyc))
  s2.setMem b (word (b2n (!bitN ctl 35) * 2 ^ 35 + 2 ^ 34 + ctl / 2 ^ 16 % 2 ^ 18 * 2 ^ 16 + (ctl + 1) % 2 ^ 16))

/-- An entry's task is posted for an accepted or sent frame (R360, R377). -/
def State.slotPost (s : State) (e : Nat) : State :=
  if s.sch e SCHED_W3.post = 1 then s.offerPost { cls := 1, src := 0x700, task := s.sch e SCHED_W3.task } else s

/-- The offset of a time frame from a base's time, in 1/64 ns (R81, R366). (DESIGN CHOICE, log 112) -/
def State.frameOffset (s : State) (u n : Nat) (f : RingFrame) : Int :=
  let p := f.payload
  let T : Nat := beNum (p.take 6) * secUnits + beNum ((p.drop 6).take 4) * 64 + p.getD 10 0 % 64
  let corr : Rat := (sint 64 (beNum ((p.drop 12).take 8)) : Rat) / 1024
  let rx : Int := (f.stamp : Int) + s.t64 n - s.t64 4
  nearInt ((T : Int) + corr + (s.linkMa u : Rat) - (rx : Rat))

/-- A time frame measures the bases that its path steers (R56, R81, R83, R375): one whose hop count differs from the hop list in
force is discarded and counted. -/
def State.timeFrame (s : State) (u : Nat) (e : Option Nat) (f : RingFrame) : State :=
  let path := f.payload.getD 21 0 % 2
  let exp := if path = 0 then s.get pRing0 RING_HOPS.hpri else s.get pRing0 RING_HOPS.hctr
  if exp ≠ 0 ∧ f.hop ≠ exp then s.rDrop u 1 e f.slot
  else
    overAll [1, 2, 3] s (fun n t =>
      if t.get (pTb n) TIME_TB_CTL.src = path + 1 ∧ t.flag (pTb n) TIME_TB_STAT.susp = false then
        let d := t.frameOffset u n f
        t.tbMeasure n d (t.tbTau n)
      else t)

/-- The address that a star derives from a startup or time frame (R355). -/
def State.derive (s : State) (f : RingFrame) : Nat :=
  let n := s.nstar
  let h := f.hop % n
  32 * ((f.src / 32 + (if f.dir then n - h else h)) % n)

/-- The name lock of a leaf that has reported (R358): position j of the chain at a port, with its serial. -/
def State.leafLock (s : State) (u j serial : Nat) : State :=
  let p := pRing u
  let lk := s.get p RING_P_STAT.lkfail
  let clr := if bitN lk (j - 1) then lk - 2 ^ (j - 1) else lk
  if s.nameLock (s.rAddr + j + s.chainSum (u - 2)) serial then s.put p RING_P_STAT.lkfail clr
  else (s.put p RING_P_STAT.lkfail (setBitN clr (j - 1))).evC pRing0 6

/-- The node takes an address (R355, R373), by which the leaves that have reported are judged (R358). (DEDUCED, log 75) -/
def State.setAddress (s : State) (a cs : Nat) : State :=
  let s1 := { (s.put pRing0 RING_STAT.addr a).put pRing0 RING_STAT.csaddr cs with ring := { s.ring with known := true } }
  if (s.ring.known && s.rAddr == a) || decide (31 < s.chainSum 8) then s1
  else
    overAll (List.range 8) s1 (fun k t =>
      (Tab.rd t.ring.leaves (k + 2)).foldl (fun r x => r.leafLock (k + 2) x.1 x.2) t)

/-- The node takes its address and its cold-start node from a frame that reached it without a wrap, and its name lock is
checked (R355, R358, R372); from a source that is no star's address none can be derived. (DEDUCED, log 75) -/
def State.takeAddress (s : State) (f : RingFrame) : State :=
  if f.wrap then s
  else if f.src % 32 ≠ 0 ∨ s.nstar ≤ f.src / 32 then s.rHold 3
  else
    let a := s.derive f
    let s1 := s.setAddress a f.src
    if s.nameLock a s.ownSerial then s1.showHops else s1.rHold 1

/-- A time frame is accepted (R372): a listening or starting node integrates; one that integrated by a looped frame still derives its
address from the first that is not looped. -/
def State.timeSeen (s : State) (f : RingFrame) : State :=
  let s1 := if s.rState = 1 ∨ s.rState = 2 ∨ (s.rState = 3 ∧ s.ring.known = false) then s.takeAddress f else s
  if s1.rState = 1 then s1.rGo 3 else if s1.rState = 2 then (s1.rGo 3).ev pRing0 2 else s1

/-- STARTUP_FRAME (R373, R374): a node of any state but 4 follows the lowest serial seen in the last 4 cycles; a starter that
sees a lower serial than its own yields; a held one follows it as the cold-start node alone. -/
def State.startupFrame (s : State) (f : RingFrame) : State :=
  if s.rState = 4 ∨ s.rState = 0 then s
  else
    let ser := beNum (f.payload.take 8)
    let now := s.cycNow
    let recent := s.ring.seen.filter (fun x => decide (now < x.2 + 4))
    let s1 := { s with ring := { s.ring with seen := (ser, now) :: recent } }
    if recent.any (fun x => decide (x.1 < ser)) then s1
    else if s.rState = 5 then (if f.wrap then s1 else s1.put pRing0 RING_STAT.csaddr f.src)
    else if s.rState = 2 then
      (if ser < s.ownSerial then
        let s2 := s1.takeAddress f
        if s2.rState = 5 then s2 else (s2.rGo 3).ev pRing0 2
       else s1)
    else s1.takeAddress f

/-- IDENTITY_FRAME (R356, R358): a leaf reports its serial and chain position; its name lock is checked when the star has its address.
All frames of a leaf above the configured length are dropped with reason 7. (DEDUCED, log 75) -/
def State.identityFrame (s : State) (u : Nat) (f : RingFrame) : State :=
  let j := f.payload.getD 8 0
  let serial := beNum (f.payload.take 8)
  if u < 2 then s
  else if j = 0 ∨ s.chainLen (u - 2) < j then s.rDrop u 7 none 0
  else
    let l := (j, serial) :: (Tab.rd s.ring.leaves u).filter (fun (x : Nat × Nat) => x.1 != j)
    let s1 := { s with ring := { s.ring with leaves := Tab.wr s.ring.leaves u l } }.put (pRing u) RING_P_STAT.found l.length
    if s.ring.known && decide (s.chainSum 8 ≤ 31) then s1.leafLock u j serial else s1

/-- Does a stamp lie in a kind 3 window of a port (R369, R381)? -/
def State.inWindow (s : State) (u : Nat) (f : RingFrame) : Bool :=
  let x : Int := (f.stamp : Int) - s.linkMa u
  let off := (x % (s.cycLen : Int))
  let w : Int := (s.get pRing0 RING_GUARD.w * 64 : Nat)
  s.slotTable.any (fun e => s.sch e SCHED_W0.kind == 3 && s.sch e SCHED_W0.role == 3 && s.sch e SCHED_W1.inp == u
    && decide ((s.sch e SCHED_W0.start * 640 : Nat) - w ≤ off)
    && decide (off ≤ ((s.sch e SCHED_W0.start + s.sch e SCHED_W1.len) * 640 : Nat) + w))

/-- The port by which an asynchronous frame for a destination leaves (R381): the leaf's spoke, else the direction with fewer
hops, clockwise on a tie. -/
def State.asyncPort (s : State) (dst : Nat) : Nat :=
  let a := s.rAddr
  if a < dst ∧ dst < a + 32 then
    2 + ((List.range 8).find? (fun k => decide (dst - a ≤ s.chainSum (k + 1)))).getD 0
  else
    let hops := fun (path : Nat) => pathLen s.nstar (a / 32) (dst / 32) path s.ring.inForce
    if hops 0 ≤ hops 1 then 0 else 1

/-- Is the ring wrapped (R379, R381): at this node, or in the hop list in force? -/
def State.ringWrapped (s : State) : Bool := s.flag pRing0 RING_STAT.wrapped || !s.ring.inForce.isEmpty

/-- Receive buffer of a port is freed, and its credits are owed to the sender (R382). -/
def State.creditBack (s : State) (u n : Nat) : State :=
  { s with ring := { s.ring with owed := Tab.wr s.ring.owed u (Tab.rd s.ring.owed u + n) } }

/-- An asynchronous frame waits to be forwarded on a port (R381). -/
def State.queueFwd (s : State) (o u : Nat) (f : RingFrame) : State :=
  { s with ring := { s.ring with fwd := Tab.wr s.ring.fwd o (Tab.rd s.ring.fwd o ++ [(u, f)]) } }

/-- An asynchronous frame arrives (R381, R382): checked for a window and room, then taken, sent to a leaf or forwarded. (DEDUCED, log 74) -/
def State.asyncFrame (s : State) (u : Nat) (f : RingFrame) : State :=
  let n := (f.payload.length + 20 + 63) / 64
  let home := s.ring.known && f.src == s.rAddr
  if s.timeGood = true ∧ s.inWindow u f = false then (s.rDrop u 8 none 0).creditBack u n
  else if 128 < Tab.rd s.ring.used u + n then (s.rDrop u 8 none 0).evC (pRing u) 4
  else if s.returns f then (s.inc (pRing u) RING_P_RXF.n).creditBack u n
  else
    let s1 := s.inc (pRing u) RING_P_RXF.n
    let own := (f.bcast || f.slot == s.rAddr) && !home
    let leaf := decide (s.rAddr < f.slot) && decide (f.slot < s.rAddr + 32) && !f.bcast
    let use := fun (t : State) => { t with ring := { t.ring with used := Tab.wr t.ring.used u (Tab.rd t.ring.used u + n) } }
    let s2 := if own then
        let t := use s1
        let x := (u, f, s.rxStamp u f.stamp)
        asyncDeliver { t with ring := { t.ring with wait := t.ring.wait ++ [x] } } (t.ring.wait ++ [x])
      else s1
    if own && !f.bcast then s2
    else
      let o := if leaf then s.asyncPort f.slot else if u < 2 then 1 - u else if f.bcast then 0 else s.asyncPort f.slot
      let s3 := (if own then s2 else use s2).queueFwd o u f
      if 2 ≤ u ∧ f.bcast = true ∧ s.ringWrapped = true then s3.queueFwd 1 u { f with dir := true } else s3

/-- A frame goes on by the ports that the state before its acceptance gives it. -/
def State.forwardSeen (t s : State) (u e : Nat) (f : RingFrame) : State := t.rForward (s.onPorts u e f) u f e

/-- A frame of types 0 to 2 that the guardian accepts (R363, R367, R369): counted, taken once per cycle and id, and forwarded; the second
copy of a dup frame that has been taken is discarded. (DEDUCED, log 74) -/
def State.slotAccept (s : State) (u e : Nat) (f : RingFrame) : State :=
  let role := s.sch e SCHED_W0.role
  let c := (s.cycOf f.cyc).getD s.cycNow
  let g := Tab.rd s.ring.got f.slot
  let k := Tab.rd s.ring.took f.slot
  let mine := decide (role = 1) || decide (role = 3)
  let again := mine && f.typ != 1 && k.contains c
  let s0 := s.inc (pRing u) RING_P_RXF.n
  if again && f.dup then s0
  else
    let takes := mine && !again
    let s1 := { (if role = 0 then s0 else s0.incMod (pSched e) (SCHED_W4.ok 0)) with ring := { s0.ring with
      got := Tab.wr s0.ring.got f.slot ((c :: g).take 4)
      took := if takes then Tab.wr s0.ring.took f.slot ((c :: k).take 4) else s0.ring.took } }
    let s2 := if takes && f.typ == 0 then s1.ttTake u e f
      else if f.typ == 1 then (let t := s1.timeSeen f; if takes then t.timeFrame u (some e) f else t) else s1
    let s3 := if takes then s2.slotPost e else s2
    if (f.wrap = true ∨ role = 2 ∨ role = 3) ∧ s.returns f = false then s3.forwardSeen s u e f else s3

/-- A frame of types 0 to 2 while the node is not time-good (R369): forwarded when its source is in the name table, and not
taken; a time frame still serves the time unit. -/
def State.slotLoose (s : State) (u : Nat) (f : RingFrame) : State :=
  let e := s.slotEntry f u
  if s.namePresent f.src then
    let s0 := s.inc (pRing u) RING_P_RXF.n
    let s1 := if f.typ = 1 then (s0.timeSeen f).timeFrame u e f else s0
    if s.returns f then s1
    else
      match e with
      | some k => s1.forwardSeen s u k f
      | none => s1.passOn u f
  else s.rDrop u 4 e f.slot

/-- The largest payload of a type (R364). -/
def maxPayload (typ : Nat) : Nat := if typ = 0 ∨ typ = 2 then 1536 else if typ = 1 ∨ typ = 4 then 32 else if typ = 7 then 0 else 2020

/-- Is the header one of R364: version 1, and no payload beyond the largest of its type? -/
def RingFrame.headerOk (f : RingFrame) : Bool := f.ver == 1 && decide (f.payload.length ≤ maxPayload f.typ)

/-- The 16-octet header of a frame in network order (R364). -/
def RingFrame.header (f : RingFrame) : List Nat :=
  [f.ver * 16 + f.typ, b2n f.wrap * 128 + b2n f.dup * 64 + b2n f.bcast * 32 + b2n f.dir * 16] ++ beOct 2 (f.src % 2048)
    ++ beOct 2 (f.slot % 4096) ++ beOct 2 f.cyc ++ beOct 4 f.transit ++ beOct 2 f.payload.length ++ [f.hop, f.seq]

/-- One bit of the FCS of IEEE 802.3. -/
def fcsBit (c : Nat) : Nat := if c % 2 = 1 then c / 2 ^^^ 0xEDB88320 else c / 2

/-- The FCS register after an octet. -/
def fcsOct (c o : Nat) : Nat := fcsBit (fcsBit (fcsBit (fcsBit (fcsBit (fcsBit (fcsBit (fcsBit (c ^^^ o))))))))

/-- The octets of a frame as it stands in memory and on the wire after its SFD: header, payload and the 32-bit FCS of IEEE 802.3, which is
inverted for a frame that was cut off (R364, R369). -/
def RingFrame.wire (f : RingFrame) : List Nat :=
  let l := f.header ++ f.payload
  let c := (l.foldl fcsOct 0xFFFFFFFF) ^^^ (if f.fcsOk then 0xFFFFFFFF else 0)
  l ++ (beOct 4 c).reverse

/-- A frame that runs past its slot's end plus w is cut off: its forwarded copy ends with an invalid FCS, and it is dropped with reason 3 (R369). -/
def State.cutOff (s : State) (u e : Nat) (f : RingFrame) : State :=
  let s1 := if f.wrap = true ∨ 2 ≤ s.sch e SCHED_W0.role then s.rForward (s.onPorts u e f) u { f with fcsOk := false } e else s
  s1.rDrop u 3 (some e) f.slot

/-- A frame is dropped before any entry is looked at; one of type 3 gives its credits back (R382). -/
def State.rDiscard (s : State) (u reason : Nat) (e : Option Nat) (f : RingFrame) : State :=
  let s1 := s.rDrop u reason e (if f.typ ≤ 2 then f.slot else 0)
  if f.typ = 3 then s1.creditBack u ((f.payload.length + 20 + 63) / 64) else s1

/-- A startup or time frame has been received (R372). -/
def State.hear (s : State) (f : RingFrame) : State :=
  if f.typ = 1 ∨ f.typ = 4 then { s with ring := { s.ring with heard := s.t64 0 } } else s

/-- A frame with a good FCS and its hop counted is checked and taken, forwarded or dropped (R356, R358, R365, R369, R373, R381). A header
that R364 does not give is dropped as one of a wrong kind. (DEDUCED, log 74) -/
def State.frameIn (s : State) (u : Nat) (f : RingFrame) : State :=
  let e := if f.typ ≤ 2 then s.slotEntry f u else none
  if 200 ≤ f.hop then s.rDiscard u 7 e f
  else if f.headerOk = false then s.rDiscard u 4 e f
  else if f.typ = 6 then s.identityFrame u f
  else if s.leafBad u f.src then s.rDiscard u 7 e f
  else if f.typ = 4 then
    let s1 := (s.inc (pRing u) RING_P_RXF.n).startupFrame f
    if s.returns f then s1 else s1.passOn u f
  else if f.typ = 3 then s.asyncFrame u f
  else if 3 < f.typ then s
  else if s.timeGood = false then s.slotLoose u f
  else
    match e with
    | none => s.rDrop u 4 none f.slot
    | some k =>
      let r := s.guard u k f
      if r = 0 then s.slotAccept u k f else if r = 3 then s.cutOff u k f else s.rDrop u r (some k) f.slot

/-- RING_FRAME_RECEIVE (R369): a received frame's FCS and header are checked, by the guardian too, and it is taken, forwarded or dropped. -/
def execRingFrameReceive (u : Nat) (f0 : RingFrame) (s : State) : Out := .next <| s.clocked pRing0 fun s =>
  let p := pRing u
  let f := { f0 with hop := f0.hop + 1, stamp := s.ingress u f0.stamp }
  if 10 ≤ u ∨ s.flag p RING_P_STAT.up = false ∨ s.rState = 0 then s
  else if f.fcsOk = false then
    let k := Tab.rd s.ring.bad u + 1
    let s1 := (({ s with ring := { s.ring with bad := Tab.wr s.ring.bad u k } }.inc p RING_P_FCS.n).evC p 3).rDiscard u 5
      (if f.typ ≤ 2 then s.slotEntry f u else none) f
    if u < 2 ∧ 16 ≤ k then s1.failReceive u else s1
  else (s.hear f).frameIn u f

/-- FRAME_OVERRUN_CUTOFF (R369): a frame in progress that the guardian would accept still runs at its slot's end plus w: it is cut off. -/
def execFrameOverrunCutoff (u : Nat) (f0 : RingFrame) (s : State) : Out := .next <| s.clocked pRing0 fun s =>
  let f := { f0 with hop := f0.hop + 1, stamp := s.ingress u f0.stamp, dur := 0 }
  if 10 ≤ u ∨ s.flag (pRing u) RING_P_STAT.up = false ∨ s.rState = 0 ∨ s.timeGood = false ∨ 2 < f.typ then s
  else
    match s.slotEntry f u, s.cycOf f.cyc with
    | some e, some c => if s.guard u e f = 0 ∧ s.cutAt u e c f ≤ (s.t64 4 : Int) then s.cutOff u e f else s
    | _, _ => s

/-! Sending (R365 to R368, R370). -/

/-- Does cell time reach an offset of the cycle a time x from now (R365, R367)? All in 1/64 ns; the command is taken on the PCLK edge. -/
def State.ctIn (s : State) (x o : Nat) : Bool :=
  decide (o ≤ (s.t64 4 + x) % s.cycLen) && decide ((s.t64 4 + x) % s.cycLen < o + 160)

/-- TT_CONTROL_READ (R367): 2 µs before the transmit instant, the control word of an own entry's buffer is read, and picks the half to
send. -/
def execTtControlRead (e : Nat) (s : State) : Out := .next <| s.clocked pRing0 fun s =>
  if s.slotTable.contains e && s.sch e SCHED_W0.role == 0 && s.sch e SCHED_W0.kind == 0
      && s.ctIn 128000 (s.sch e SCHED_W0.start * 640) then
    { s with ring := { s.ring with ctl := Tab.wr s.ring.ctl e (some (bitN (s.memW (s.ttBuf e)).toNat 35)) } }
  else s

/-- The payload of a time frame (R366), sent at the present cell time. -/
def State.timePayload (s : State) (path : Nat) : List Nat :=
  let t := s.t64 4
  beOct 6 (t72Hi t) ++ beOct 4 (t72Lo t / 64) ++ [t % 64, s.get pTime0 TIME_CT_STAT.epoch] ++ List.replicate 8 0
    ++ [s.get pTime0 TIME_CT_STAT.state, path] ++ List.replicate 10 0

/-- The payload of an own frame (R366, R367, R422). -/
def State.ownPayload (s : State) (e path : Nat) : List Nat :=
  let kind := s.sch e SCHED_W0.kind
  if kind = 0 then
    let half := if (Tab.rd s.ring.ctl e).getD (bitN (s.memW (s.ttBuf e)).toNat 35) then 0x210 else 0x10
    s.octets (s.ttBuf e + half) (s.sch e SCHED_W3.plen)
  else if kind = 1 then s.timePayload path
  else Tab.rd s.ring.safety (s.sch e SCHED_W2.idn)

/-- Is cell time at an offset of the cycle (R365)? -/
def State.atOffset (s : State) (o : Nat) : Bool := s.ctIn 0 o

/-- SLOT_TRANSMIT (R365, R370, R371): in state 4 the owner sends its frame at its slot start. -/
def execSlotTransmit (e : Nat) (s : State) : Out := .next <| s.clocked pRing0 fun s =>
  let mine := decide (s.sch e SCHED_W0.cs = 0) || s.get pRing0 RING_STAT.csaddr == s.rAddr
  if s.slotTable.contains e && s.rState == 4 && s.sch e SCHED_W0.role == 0 && decide (s.sch e SCHED_W0.kind ≤ 2) && mine
      && s.atOffset (s.sch e SCHED_W0.start * 640) then
    let f : RingFrame := { typ := s.sch e SCHED_W0.kind, dup := s.sch e SCHED_W1.dup == 1, src := s.rAddr
                           slot := s.sch e SCHED_W2.idn, cyc := s.cycNow % 65536 }
    let s1 := overAll (s.ownPorts e) s (fun u t =>
      t.rLeave u true (t.sch e SCHED_W1.wrap == 1) { f with dir := decide (u = 1), payload := s.ownPayload e (if u = 1 then 1 else 0) })
    let b := s.ttBuf e
    let w := (s.memW b).toNat
    let s2 := if s.sch e SCHED_W0.kind = 0 then s1.setMem b (word (w / 2 ^ 16 * 2 ^ 16 + (w + 1) % 2 ^ 16)) else s1
    ({ s2 with ring := { s2.ring with ctl := Tab.wr s2.ring.ctl e none } }.incMod (pSched e) (SCHED_W4.ok 0)).slotPost e
  else s

/-- The egress stamp of a port in a counter: the capture, at a tap of the PCLK cycle, plus TIME_TSU_EGR_ADJ (R85). (DESIGN CHOICE, log 37) -/
def State.egress (s : State) (u b tap : Nat) : Nat := ((s.t64At b tap : Int) + s.getI (pTsu u) TIME_TSU_EGR_ADJ.adj).toNat

/-- The residence of a frame that is launched now on a port (R365): its egress stamp minus its ingress stamp. (DESIGN CHOICE, log 37) -/
def State.residence (s : State) (u : Nat) (f : RingFrame) : Int × State :=
  ((s.egress u 4 (Config.egressTap s.freeN % 32) : Int) - f.stamp, { s with freeN := s.freeN + 1 })

/-- HELD_FRAME_LAUNCH (R368): the held frame of a port is launched at the cycle start plus ftime; its residence joins its
transit and, for a time frame, its correction (R365, R366). -/
def execHeldFrameLaunch (u : Nat) (s : State) : Out := .next <| s.clocked pRing0 fun s =>
  match Tab.rd s.ring.hold u with
  | none => s
  | some x =>
    if s.atOffset (s.sch x.1 SCHED_W2.ftime * 640) then
      let r := s.residence (s.viaPort u) x.2
      { r.2 with ring := { r.2.ring with hold := Tab.wr r.2.ring.hold u none } }.rLeave u false (s.sch x.1 SCHED_W1.wrap == 1)
        (x.2.delayed r.1)
    else s

/-! Cycle starts and node states (R363, R371 to R380). -/

/-- The base that cell time follows is steered by the ring (R375). -/
def State.ringBase (s : State) : Bool :=
  let b := s.get pTime0 TIME_CT_STAT.base
  s.timeGood && inRange (s.get (pTb b) TIME_TB_CTL.src) 1 2

/-- The Sync condition (R375). (DEDUCED, log 77) -/
def State.syncOk (s : State) : Bool :=
  let b := s.get pTime0 TIME_CT_STAT.base
  let l := Tab.rd s.ring.meas b
  s.nameLock s.rAddr s.ownSerial
    && (if s.timeMaster then s.timeGood
      else s.ringBase && s.flag (pTb b) TIME_TB_STAT.locked && decide (16 ≤ l.length)
        && l.all (fun d => decide (2 * d.natAbs ≤ s.get pRing0 RING_SYNC.lim * 64)))

/-- The silence condition (R376). -/
def State.silent (s : State) : Bool :=
  !s.timeMaster
    && (!s.flag pTime0 TIME_CT_STAT.valid || s.jumpAt != s.ring.jump
      || decide (s.get pRing0 RING_SYNC.hold < s.ring.holdover)
      || s.ring.far.contains (s.get pTime0 TIME_CT_STAT.base))

/-- EMPTY_SLOT (R363): an entry of role 1 or 3 without an accepted frame of a cycle is empty for it. (DEDUCED, log 77) -/
def State.emptySlots (s : State) (c : Nat) : State :=
  overAll s.slotTable s (fun e t =>
    let role := t.sch e SCHED_W0.role
    if (role = 1 ∨ role = 3) ∧ t.sch e SCHED_W0.kind ≠ 3 ∧ (Tab.rd t.ring.got (t.sch e SCHED_W2.idn)).contains c = false then
      let t1 := (t.incMod (pSched e) (SCHED_W4.empty 0)).inc pRing0 RING_EMPTY.n
      if t.sch e SCHED_W1.crit = 1 then t1.evC pRing0 8 else t1
    else t)

/-- New hop lists come into force two cycles after their notices (R379, R380); a restore leaves the wraps of own ports that are still
broken. (DESIGN CHOICE, log 76) -/
def State.hopLists (s : State) (c : Nat) : State :=
  let due := s.ring.breaks.filter (fun x => decide (x.2 + 2 ≤ c))
  let s1 := if due = [] then s
    else
      let t := { s with ring := { s.ring with
          breaks := s.ring.breaks.filter (fun x => !decide (x.2 + 2 ≤ c)), inForce := s.ring.inForce ++ due.map (fun (x : Nat × Nat) => x.1) } }
      (t.showHops.unsuspend).evC pRing0 4
  let rst := s1.ring.restores.filter (fun x => decide (x.2 + 2 ≤ c))
  if rst = [] then s1
  else
    let keep := [0, 1].filter (fun u => s1.flag (pRing u) RING_P_STAT.broken)
    let t := { s1 with ring := { s1.ring with
        restores := s1.ring.restores.filter (fun x => !decide (x.2 + 2 ≤ c)), inForce := keep.map s1.hopOf } }
    ((((t.put (pRing 0) RING_P_STAT.wrap (b2n (keep.contains 0))).put (pRing 1) RING_P_STAT.wrap (b2n (keep.contains 1))).put pRing0
      RING_STAT.wrapped (b2n (!keep.isEmpty))).showHops.unsuspend).ev pRing0 5

/-- The startup frame of a cycle goes out of both backbone ports (R373). -/
def State.sendStartup (s : State) : State :=
  let i := (s.ownIndex.getD 0)
  overAll [0, 1] s (fun u t =>
    t.rSend u true { typ := 4, dir := decide (u = 1), src := 32 * i, cyc := s.cycNow % 65536
                     payload := beOct 8 s.ownSerial ++ [i, s.get pRing0 RING_CYC.k] ++ List.replicate 6 0 })

/-- The state changes of a cycle start (R372 to R376). -/
def State.cycleState (s : State) : State :=
  let st := s.rState
  if st = 2 then
    if 4 ≤ s.ring.starts then
      let a := s.rAddr
      if s.nameLock a s.ownSerial then
        ({ s with ring := { s.ring with starts := 0 } }.rGo 4).ev pRing0 1
      else s.rHold 1
    else { s with ring := { s.ring with starts := s.ring.starts + 1 } }.sendStartup
  else if st = 3 ∧ s.syncOk = true then s.rGo 4
  else if st = 4 ∧ s.silent = true then s.rGo 3
  else s

/-- CYCLE_START (R359, R363, R372): the cycle in which cell time lies begins. -/
def execCycleStart (s : State) : Out := .next <| s.clocked pRing0 fun s =>
  let c := s.cycNow
  if s.rState = 0 ∨ s.ring.cycle = some c then s
  else
    let hold := s.get pTime0 TIME_CT_STAT.state = 3
    let s1 := { s with ring := { s.ring with
        cycle := some c, bad := [], txHold := [], holdover := if hold then s.ring.holdover + 1 else 0 } }
    let s2 := (s1.hopLists c).cycleState
    let s3 := if 2 ≤ c then s2.emptySlots (c - 2) else s2
    { s3 with ring := { s3.ring with jump := s3.jumpAt, far := [] } }

/-- COLD_START_TIMEOUT (R372, R373): a listening candidate with valid cell time has heard neither a startup nor a time frame for
tl cycles: it starts the ring under its own index. -/
def execColdStartTimeout (s : State) : Out := .next <| s.clocked pRing0 fun s =>
  match s.ownIndex with
  | none => s
  | some i =>
    if s.rState = 1 ∧ s.get (pNames + 64 * i) (NAME_HI.cand 0) = 1 ∧ s.flag pTime0 TIME_CT_STAT.valid
        ∧ s.ring.heard + s.get pRing0 RING_START.tl * s.cycLen ≤ s.t64 0 then
      let s1 := (s.setAddress (32 * i) (32 * i)).rGo 2
      { s1 with ring := { s1.ring with starts := 0 } }
    else s

/-- CYCLE_POINT (R377): cell time reaches an enabled cycle point, which posts its task; points within 1 µs of a jump of cell
time are skipped. -/
def execCyclePoint (k : Nat) (s : State) : Out := .next <| s.clocked pRing0 fun s =>
  let near := match s.jumpAt with | some t => decide (s.t64 0 < t + 64000) | none => false
  if decide (k < 16) && s.get pRing11 (RING_CP.en k) == 1 && s.flag pTime0 TIME_CT_STAT.valid && inRange s.rState 3 2
      && s.atOffset (s.get pRing11 (RING_CP.off k) * 640) && !near then
    s.offerPost { cls := 1, src := 0x70B, task := s.get pRing11 (RING_CP.task k) }
  else s

/-! Transmit timestamps (R87, R88). -/

/-- The 16-bit word at an even distance from an offset. -/
def word16 (l : List Nat) (o : Nat) : Nat := l.getD o 0 * 256 + l.getD (o + 1) 0

/-- The ones' complement sum of the changes of the 16-bit words from offset o. -/
def csumDelta (old new : List Nat) (o n : Nat) : Nat :=
  match n with
  | 0 => 0
  | k + 1 => (65535 - word16 old o) + word16 new o + csumDelta old new (o + 2) k

/-- Fold a sum to 16 bits with end-around carry. -/
def fold16 (x : Nat) : Nat :=
  let a := x % 65536 + x / 65536
  let b := a % 65536 + a / 65536
  b % 65536 + b / 65536

/-- A UDP checksum updated for the change of a frame (R87). (DESIGN CHOICE, log 112) -/
def udpFix (old new : List Nat) (o : Nat) : List Nat :=
  if o = 0 then new
  else
    let par := o % 2
    let d := csumDelta (old.take (old.length)) new par ((new.length + 1) / 2)
    patch new o (beOct 2 (65535 - fold16 ((65535 - word16 old o) + d)))

/-- TIMESTAMP_INSERTION (R87, R88): a frame with its stamp inserted, and whether the insertion failed: its field lies beyond the first
256 octets, or in mode 2 the ingress stamp is of another epoch. (DESIGN CHOICE, log 107; DESIGN CHOICE, log 112) -/
def stampInsert (mode H csum : Nat) (egress ingress : Nat) (sameEpoch : Bool) (l : List Nat) : List Nat × Bool :=
  if mode = 1 then
    if 256 < H + 44 ∨ l.length < H + 44 then (l, true)
    else
      let l1 := patch l (H + 34) (beOct 6 (t72Hi egress) ++ beOct 4 (t72Lo egress / 64))
      let l2 := patch l1 (H + 8) (beOct 8 ((beNum ((l.drop (H + 8)).take 8) + egress % 64 * 1024) % 2 ^ 64))
      (udpFix l l2 csum, false)
  else if mode = 2 then
    if 256 < H + 16 ∨ l.length < H + 16 ∨ sameEpoch = false then (l, true)
    else
      let d := unsint 64 (((egress : Int) - ingress) * 1024)
      (udpFix l (patch l (H + 8) (beOct 8 ((beNum ((l.drop (H + 8)).take 8) + d) % 2 ^ 64))) csum, false)
  else (l, false)

/-- The frame of a transmit descriptor with its timestamp, and the queue record of mode 3 (R85, R87 to R89); a mode without a meaning
leaves the frame as it is. (DESIGN CHOICE, log 37; DESIGN CHOICE, log 107; DESIGN CHOICE, log 112) -/
def State.txStamp (s0 : State) (u d : Nat) (l : List Nat) : List Nat × State :=
  let w0 := (s0.memW d).toNat
  let w2 := (s0.memW (d + 2)).toNat
  let mode := w0 / 2 ^ 32 % 8
  if s0.flag (pTsu u) TIME_TSU_CFG.en = false ∨ mode = 0 ∨ 3 < mode then (l, s0)
  else
    let tap := Config.egressTap s0.freeN % 32
    let s := { s0 with freeN := s0.freeN + 1 }
    let stamp := fun (b : Nat) => s.egress u b tap
    if mode = 3 then
      let b := ctrOf (s.get (pTsu u) TIME_TSU_CFG.tb)
      (l, s.txqPush u { t64 := stamp b, st := s.stampWord b ((s.memW (d + 3)).toNat % 4096) })
    else
      let ing := t72 (s.memW (d + 4)).toNat (s.memW (d + 5)).toNat
      let b := ctrOf (w0 / 2 ^ 29 % 8)
      let same := Config.stampEpoch b ing % 256 == s.generation b
      let r := stampInsert mode (w2 / 2 ^ 16 % 2 ^ 16) (w2 % 2 ^ 16) (stamp b) ing same l
      (r.1, if r.2 then s.evC (pTsu u) 2 else s)

/-! The asynchronous class (R381, R382). -/

/-- The time, in 1/64 ns, that a frame of n payload octets takes on a port, preamble to FCS. -/
def airTime (u n : Nat) : Nat := (8 + 16 + n + 4) * (if u < 2 then 512 else 2560) / 5

/-- Is a window open on a port that a frame of n octets would leave at least 20 ns before its end (R370, R381)? -/
def State.windowOpen (s : State) (u n : Nat) (own : Bool) : Bool :=
  let t := s.t64 4 % s.cycLen
  s.slotTable.any (fun e => s.sch e SCHED_W0.kind == 3 && (s.sch e SCHED_W0.role == 0 || s.sch e SCHED_W0.role == 3)
    && bitN (s.sch e SCHED_W1.out) u && decide (s.sch e SCHED_W0.start * 640 ≤ t)
    && decide (t + airTime u n + 1280 ≤ (s.sch e SCHED_W0.start + s.sch e SCHED_W1.len) * 640))
    && (!own || s.rState == 4)

/-- The transmit queue's head descriptor is done (R385). -/
def State.txDone (s : State) (a d res : Nat) : State :=
  let w0 := (s.memW d).toNat
  ((s.setMem (d + 6) (word res)).setMem d (word (w0 % 2 ^ 35))).qAdvance a

/-- ASYNC_SEND (R379, R381, R382, R385): a port, or at its broken hop the other backbone port, starts a forwarded asynchronous frame, or
the one at the head of the transmit queue, when its window is open and its credits suffice; a looped frame is removed at a second wrap. -/
def execAsyncSend (u : Nat) (s : State) : Out := .next <| s.clocked pRing0 fun s =>
  let o := s.viaPort u
  let p := pRing o
  let cred := s.get p RING_P_CRED.cred
  let a := pRing0 + 0x24
  if 10 ≤ u ∨ s.flag p RING_P_STAT.up = false ∨ s.rState = 0 then s
  else
    match Tab.rd s.ring.fwd u with
    | x :: r =>
      let n := (x.2.payload.length + 20 + 63) / 64
      let gone := x.2.wrap && o != u
      if gone = true ∨ (s.windowOpen o x.2.payload.length (decide (x.1 = 10)) = true ∧ n ≤ cred) then
        let mine := decide (x.1 = 10)
        let q := s.residence o x.2
        let f := if mine then x.2 else x.2.delayed (s.linkMa x.1 + q.1)
        let s1 := if gone then s else (q.2.put p RING_P_CRED.cred (cred - n)).rLeave u mine true f
        let free := if mine || (x.2.bcast && !(s.ring.known && x.2.src == s.rAddr)) then 0 else n
        { s1 with ring := { s1.ring with
            fwd := Tab.wr s1.ring.fwd u r, used := Tab.wr s1.ring.used x.1 (Tab.rd s1.ring.used x.1 - free)
            owed := Tab.wr s1.ring.owed x.1 (Tab.rd s1.ring.owed x.1 + free) } }
      else s
    | [] =>
      let d := s.qDesc a
      let w0 := (s.memW d).toNat
      let w3 := (s.memW (d + 3)).toNat
      let len := w0 % 2 ^ 16
      let dst := w3 / 2 ^ 12 % 2 ^ 11
      let bc := bitN w3 23
      let n := (len + 20 + 63) / 64
      if s.qReady a = false ∨ bitN w0 35 = false then s
      else if 2020 < len then s.txDone a d (2 ^ 34 + 1)
      else if bc = false ∧ s.namePresent dst = false then s.txDone a d (2 ^ 34 + 2)
      else if (if bc then u = 0 else s.asyncPort dst = u) ∧ s.windowOpen o len true = true ∧ n ≤ cred
          ∧ pageBlocked s pRing0 = false ∧ pageBlocked s p = false ∧ s.ring.txHold.contains pRing0 = false
          ∧ s.ring.txHold.contains p = false then
        let x := s.txStamp o d (s.octets (s.memW (d + 1)).toNat len)
        let f : RingFrame := { typ := 3, bcast := bc, dir := decide (u = 1), src := s.rAddr, slot := dst
                               cyc := s.cycNow % 65536, seq := s.ring.seq, payload := x.1 }
        let s1 := (x.2.put p RING_P_CRED.cred (cred - n)).rLeave u true true f
        let s2 := if bc && s.ringWrapped then s1.queueFwd 1 10 { f with dir := true } else s1
        ({ s2 with ring := { s2.ring with seq := (s2.ring.seq + 1) % 256 } }.txDone a d (2 ^ 35)).ev pRing0 10
      else s

/-! Writes of the RING pages (R377, R383, R389). -/

/-- A write of QBASE (R383): refused while the queue is in use or for an address that is no multiple of 8. -/
def State.qbaseWrite (s : State) (a v : Nat) : State :=
  if s.qEn a ∨ v % 8 ≠ 0 then s.ev (qPage a).1 (qPage a).2 else s.setReg a v

/-- Is a register set a transmit queue's: the ring's second, or one of an Ethernet port's last eight? -/
def qSends (a : Nat) : Bool := if pageOf a = pRing0 then a == pRing0 + 0x24 else decide (0x30 ≤ a % 0x100)

/-- The descriptors that a transmit queue still holds when its use ends are dropped with reason 3 (R385). (DESIGN CHOICE, log 79) -/
def State.txFlush (s : State) (a : Nat) : State :=
  let n := s.qSize a
  let k := (s.reg (a + 3) % n + n - s.qHead a % n) % n
  if qSends a then
    overAll (List.range k) s (fun i t =>
      let d := t.reg a + 8 * ((t.qHead a + i) % n)
      if bitN (t.memW d).toNat 35 then (t.setMem (d + 6) (word (2 ^ 34 + 3))).setMem d (word ((t.memW d).toNat % 2 ^ 35)) else t)
  else s

/-- QCFG_WRITE (R383): while the queue is in use only post, task and the end of use are taken; at the end head becomes 0. The buffer size
is ignored for a transmit queue. -/
def State.qcfgWrite (s : State) (a v : Nat) : State :=
  let old := s.reg (a + 1)
  let lg := v / 2 ^ 31 % 16
  let sz := v % 256
  let ok := decide (4 ≤ lg) && decide (lg ≤ 12) && (qSends a || (decide (1 ≤ sz) && decide (sz ≤ 144)))
  let q := qPage a
  if s.qEn a then
    let fixed := lg == old / 2 ^ 31 % 16 && sz == old % 256
    let s0 := if bitN v 35 then s else s.txFlush a
    let s1 := s0.setReg (a + 1) (v / 2 ^ 35 % 2 * 2 ^ 35 + old / 2 ^ 31 % 16 * 2 ^ 31 + v / 2 ^ 21 % 2 ^ 10 * 2 ^ 21 + old % 256)
    let s2 := if bitN v 35 then s1 else s1.setReg (a + 2) 0
    if fixed then s2 else s2.ev q.1 q.2
  else if ok then s.setReg (a + 1) (v / 2 ^ 21 % 2 ^ 15 * 2 ^ 21 + sz)
  else s.ev q.1 q.2

/-- A write of a word of RING page 0 (R389); a write of an RW word outside its range records event 11. (DEDUCED, log 78) -/
def State.ringWrite (s : State) (ini off v : Nat) : State :=
  let a := pRing0 + off
  let bounded := fun (ok : Bool) => if ok then s.plainWrite ini a v else s.ev pRing0 11
  if off = 0x14 then
    bounded (inRange (fldGet v RING_SYNC.lim) 10 991 && decide (1 ≤ fldGet v RING_SYNC.hold))
  else if off = 0x15 then bounded (decide (4 ≤ fldGet v RING_START.tl))
  else if off = 0x18 then bounded (v % 0x400 == 0)
  else if off = 0x20 ∨ off = 0x24 then s.qbaseWrite a v
  else if off = 0x21 ∨ off = 0x25 then
    let s1 := s.qcfgWrite (a - 1) v
    asyncDeliver s1 s1.ring.wait
  else if off = 0x23 then
    let s1 := s.plainWrite ini a v
    asyncDeliver s1 s1.ring.wait
  else s.plainWrite ini a v

/-- A write of a cycle point (R377): an offset at or beyond the cycle length keeps the word and counts. -/
def State.cpWrite (s : State) (ini off v : Nat) : State :=
  s.rangeWrite ini (pRing11 + off) v (!inRange off 0x10 16 || decide (fldGet v (RING_CP.off 0) * 640 < s.cycLen))

/-- The reset of a RING page (R21, R372): its words and its state return to reset, and bases that a heal suppressed run on (R83); a node in
state 5 stays there. A port comes back with its next link-up. (DEDUCED, log 16) -/
def State.ringReset (s : State) (p : Nat) : State :=
  if p = pRing0 then
    let st := s.reg (pRing0 + 0x16)
    let s1 := (s.resetPage p (fun _ => false) 0).unsuspend
    let s2 := { s1 with ring := { blk := s.ring.blk, tx := s.ring.tx, used := s.ring.used, owed := s.ring.owed, leaves := s.ring.leaves } }
    if s.rState = 5 then s2.setReg (pRing0 + 0x16) st else s2.ringWake
  else
    let u := (p - pRing 0) / 0x100
    let r := s.ring
    { s.resetPage p (fun _ => false) 0 with ring := { r with
        hold := Tab.drop r.hold u, fwd := Tab.drop r.fwd u, used := Tab.drop r.used u, owed := Tab.drop r.owed u, bad := Tab.drop r.bad u
        leaves := Tab.drop r.leaves u, notices := Tab.drop r.notices u, restNotes := Tab.drop r.restNotes u
        wait := r.wait.filter (fun x => x.1 != u), rxFail := r.rxFail.filter (fun x => x != u) } }

end Sys2Proof.Machine
end

