-- ==== Sys2Proof/Machine/Eth.lean ====
section
/-! DEFINITION. The plant Ethernet ports (R386 to R388, R391, R392): receive with priority flow control, egress shaping and
transmit. -/

namespace Sys2Proof.Machine

/-- The record of an Ethernet port. -/
def State.et (s : State) (e : Nat) : EthSt := Tab.rd s.eth e

/-- Write the record of an Ethernet port. -/
def State.setEt (s : State) (e : Nat) (r : EthSt) : State := { s with eth := Tab.wr s.eth e r }

/-! Buffers (R388, R391). -/

/-- The octets of a list of buffered frames. -/
def rxOctets (l : List EthRx) : Nat := l.foldl (fun a x => a + x.frame.octets.length) 0

/-- The 64-octet units that a port's frames take of the shared buffer. -/
def rxUnits (l : List EthRx) : Nat := l.foldl (fun a x => if x.head then a else a + (x.frame.octets.length + 63) / 64) 0

/-- The shared buffer in use by both ports, in 64-octet units. -/
def State.ethUse (s : State) : Nat := rxUnits (s.et 0).rx + rxUnits (s.et 1).rx

/-- The octets of a priority of a port in the shared buffer. -/
def State.ethLevel (s : State) (e prio : Nat) : Nat := rxOctets ((s.et e).rx.filter (fun x => x.prio == prio && !x.head))

/-- Show the shared buffer's use and keep its largest value. -/
def State.ethShow (s : State) : State :=
  let u := s.ethUse
  let s1 := s.put pEth0 ETH_BUF.use u
  if s1.get pEth0 ETH_BUF.hwm < u then s1.put pEth0 ETH_BUF.hwm u else s1

/-- Is a priority lossless at a port? -/
def State.lossless (s : State) (e prio : Nat) : Bool :=
  s.flag (pEth e) ETH_PFC.en && (s.get (pEth e) ETH_PFC.pa == prio || s.get (pEth e) ETH_PFC.pb == prio)

/-- A PFC frame for one priority (IEEE 802.1Qbb). -/
def State.pfcFrame (s : State) (e prio quanta : Nat) : EthFrame :=
  { octets := [0x01, 0x80, 0xC2, 0, 0, 1] ++ beOct 2 (s.get (pEth e) ETH_MAC_HI.a) ++ beOct 4 (s.get (pEth e) ETH_MAC_LO.a)
      ++ [0x88, 0x08, 0x01, 0x01] ++ beOct 2 (2 ^ prio)
      ++ ((List.range 8).map (fun k => if k = prio then beOct 2 quanta else [0, 0])).flatten ++ List.replicate 26 0 }

/-- A port sends a PFC frame, which is counted, unless its transmission is blocked (R41) or its cap has rate 0 (R387). -/
def State.sendPfc (s : State) (e prio quanta : Nat) : State :=
  if pageBlocked s pEth0 || pageBlocked s (pEth e) || s.get (pEth e) ETH_CAP.rate == 0 then s
  else (s.setEt e { s.et e with sent := some (s.pfcFrame e prio quanta) }).inc (pEth e) ETH_PFCC.tx

/-- A priority whose level fell below xon resumes (R388). -/
def State.pfcResume (s : State) (e : Nat) : State :=
  overAll (s.et e).xoff s (fun p t =>
    if t.ethLevel e p < t.get (pEth e) ETH_PFC.xon * 1024 then
      (t.setEt e { t.et e with xoff := (t.et e).xoff.filter (fun k => k != p) }).sendPfc e p 0
    else t)

/-- The receive queue of a priority (R392). -/
def State.rxQueue (s : State) (e prio : Nat) : Nat := s.get (pEth e) ETH_RXMAP.map / 4 ^ prio % 4

/-- Buffered frames are delivered to descriptors, in order within each queue; `l` is what is still to be looked at, `kept` what
waits, newest first, and `blocked` the queues without a descriptor. -/
def ethDeliver (s : State) (e : Nat) (l kept : List EthRx) (blocked : List Nat) : State :=
  match l with
  | [] => s.setEt e { s.et e with rx := kept.reverse }
  | x :: r =>
    let q := s.rxQueue e x.prio
    let a := pEth e + 0x20 + 4 * q
    if blocked.contains q || !s.qReady a then ethDeliver s e r (x :: kept) (q :: blocked)
    else if s.reg (a + 1) % 256 * 64 < x.frame.octets.length then ethDeliver (s.inc (pEth e) ETH_RXD.n) e r kept blocked
    else ethDeliver (((s.rxDeliver a (10 + e) x.frame.octets x.rx 0).inc (pEth e) ETH_RXF.n).ev (pEth e) 2)
      e r kept blocked

/-- Deliver what can be delivered, and resume what may resume. -/
def State.ethDrain (s : State) (e : Nat) : State := ((ethDeliver s e (s.et e).rx [] []).pfcResume e).ethShow

/-! Receive (R386, R388). -/

/-- Is a frame addressed to a port (R386)? -/
def State.ethMine (s : State) (e : Nat) (o : List Nat) : Bool :=
  let d := o.take 6
  s.flag (pEth e) ETH_CFG.promisc || d == List.replicate 6 0xFF
    || (o.getD 0 0 % 2 == 1 && s.flag (pEth e) ETH_CFG.mcall)
    || d == beOct 2 (s.get (pEth e) ETH_MAC_HI.a) ++ beOct 4 (s.get (pEth e) ETH_MAC_LO.a)

/-- The priority of a frame: its PCP, or 0 untagged (R386). -/
def framePcp (o : List Nat) : Nat := if word16 o 12 = 0x8100 then o.getD 14 0 / 32 else 0

/-- The line rate of a port in Mbit/s. -/
def State.ethRate (s : State) (e : Nat) : Nat :=
  match s.get (pEth e) ETH_LINK.speed with
  | 1 => 1000
  | 2 => 2500
  | 3 => 5000
  | 4 => 10000
  | _ => 0

/-- A received PFC frame pauses the transmit queues of the two priorities as IEEE 802.1Qbb gives. (DEDUCED, log 80) -/
def State.pfcReceive (s : State) (e : Nat) (o : List Nat) : State :=
  overAll [s.get (pEth e) ETH_PFC.pa, s.get (pEth e) ETH_PFC.pb] s (fun p t =>
    if bitN (word16 o 16) p && t.flag (pEth e) ETH_PFC.en then
      let q := word16 o (18 + 2 * p)
      let len := q * 512 * 64000 / t.ethRate e
      t.setEt e { t.et e with paused := Tab.wr (t.et e).paused p (if q = 0 then none else some (t.t64 0 + len)) }
    else t)

/-- Buffer a received frame of a priority, or drop it (R388). (DEDUCED, log 80) -/
def State.ethBuffer (s : State) (e prio : Nat) (f : EthFrame) : State :=
  let n := f.octets.length
  let r := s.et e
  let x : EthRx := { prio := prio, rx := s.rxStamp (10 + e) (s.ingress (10 + e) f.stamp), frame := f }
  let room := decide (s.ethUse + (n + 63) / 64 ≤ 8192)
  if s.lossless e prio then
    if r.xoff.contains prio || !room then
      if rxOctets (r.rx.filter (fun x => x.prio == prio && x.head)) + n ≤ 40960 then
        s.setEt e { r with rx := r.rx ++ [{ x with head := true }] }
      else (s.inc (pEth e) ETH_HROV.n).evC (pEth e) 3
    else
      let s1 := s.setEt e { r with rx := r.rx ++ [x] }
      if s.get (pEth e) ETH_PFC.xoff * 1024 ≤ s1.ethLevel e prio then
        (s1.setEt e { s1.et e with xoff := prio :: (s1.et e).xoff }).sendPfc e prio 0xFFFF
      else s1
  else if room then s.setEt e { r with rx := r.rx ++ [x] }
  else s.inc (pEth e) ETH_RXD.n

/-- A frame passes a port: its indicator shows traffic (R544), and `k` follows. -/
def State.ethBusy (s : State) (e : Nat) (k : State → State) : State := k (s.setEt e { s.et e with busyAt := some s.now })

/-- ETH_FRAME_RECEIVE (R386, R388): a received frame is buffered, queued to a descriptor, or dropped. -/
def execEthFrameReceive (e : Nat) (f : EthFrame) (s : State) : Out := .next <| s.clocked pEth0 fun s =>
  let p := pEth e
  let o := f.octets
  if 2 ≤ e ∨ s.flag p ETH_LINK.up = false ∨ s.flag p PAGE_CTL.en = false then s
  else s.ethBusy e fun s =>
  if f.fcsOk = false ∨ o.length + 4 < 64 ∨ s.get p ETH_CFG.maxfr < o.length + 4 then s.inc p ETH_RXE.n
  else if word16 o 12 = 0x8808 then
    let s1 := s.inc p ETH_PFCC.rx
    if word16 o 14 = 0x0101 then s1.pfcReceive e o else s1
  else if s.ethMine e o = false then s
  else (s.ethBuffer e (framePcp o) f).ethShow.ethDrain e

/-- PFC_FRAME_REPEAT (R388): while the level stays at or above xon, the port sends its PFC frame again. -/
def execPfcFrameRepeat (e prio : Nat) (s : State) : Out := .next <| s.clocked pEth0 fun s =>
  if e < 2 ∧ (s.et e).xoff.contains prio = true ∧ s.get (pEth e) ETH_PFC.xon * 1024 ≤ s.ethLevel e prio then
    s.sendPfc e prio 0xFFFF
  else s

/-- PFC_PAUSE_EXPIRE (R388): the quanta time of a received PFC frame has run out. -/
def execPfcPauseExpire (e prio : Nat) (s : State) : Out := .next <| s.clocked pEth0 fun s =>
  match Tab.rd (s.et e).paused prio with
  | some t => if e < 2 ∧ t ≤ s.t64 0 then s.setEt e { s.et e with paused := Tab.wr (s.et e).paused prio none } else s
  | none => s

/-! Transmit (R385 to R387). -/

/-- The rate and depth of a bucket: 0 to 7 the queues', 8 the port's. -/
def State.bucket (s : State) (e b : Nat) : Nat × Nat :=
  if b = 8 then (s.get (pEth e) ETH_CAP.rate, s.get (pEth e) ETH_CAP.burst)
  else (s.get (pEth e) (ETH_QCAP.rate b), s.get (pEth e) (ETH_QCAP.burst b))

/-- What a bucket lacks of its depth at this time, in 1/512,000 octet. (DESIGN CHOICE, log 79) -/
def State.bucketLack (s : State) (e b : Nat) : Nat :=
  Tab.rd (s.et e).lack b - (s.bucket e b).1 * (s.t64 0 - Tab.rd (s.et e).lackAt b)

/-- Does a bucket hold n octets? -/
def State.bucketHas (s : State) (e b n : Nat) : Bool :=
  decide (n * 512000 + s.bucketLack e b ≤ (s.bucket e b).2 * 512000)

/-- Spend n octets of a bucket. (DESIGN CHOICE, log 79) -/
def State.bucketSpend (s : State) (e b n : Nat) : State :=
  let k := s.bucketLack e b + n * 512000
  s.setEt e { s.et e with lack := Tab.wr (s.et e).lack b k, lackAt := Tab.wr (s.et e).lackAt b (s.t64 0) }

/-- The register set of a transmit queue. -/
def txqAddr (e q : Nat) : Nat := pEth e + 0x30 + 4 * q

/-- May the frame at the head of a queue start (R386, R387): each bucket it passes holds its length, with its FCS, plus 20 octets? -/
def State.ethCan (s : State) (e q : Nat) : Bool :=
  let a := txqAddr e q
  let w0 := (s.memW (s.qDesc a)).toNat
  let n := w0 % 2 ^ 16 + 24
  s.qReady a && bitN w0 35 && (Tab.rd (s.et e).paused q).isNone && (s.bucket e 8).1 != 0 && s.bucketHas e 8 n
    && ((s.bucket e q).1 == 0 || s.bucketHas e q n)

/-- ETH_TRANSMIT (R385 to R387): the frame at the head of a queue starts when every bucket it passes holds enough, no higher
queue can start, and the port may send. (DEDUCED, log 80) -/
def execEthTransmit (e q : Nat) (s : State) : Out := .next <| s.clocked pEth0 fun s =>
  let p := pEth e
  let a := txqAddr e q
  let d := s.qDesc a
  let w0 := (s.memW d).toNat
  let len := w0 % 2 ^ 16
  if 2 ≤ e ∨ 8 ≤ q ∨ s.flag p ETH_LINK.up = false ∨ s.flag p PAGE_CTL.en = false ∨ pageBlocked s pEth0 = true
      ∨ pageBlocked s p = true ∨ s.qReady a = false ∨ bitN w0 35 = false then s
  else if s.get p ETH_CFG.maxfr < len + 4 then s.txDone a d (2 ^ 34 + 1)
  else if s.ethCan e q = false ∨ (List.range 8).any (fun k => decide (q < k) && s.ethCan e k) = true then s
  else
    let s1 := s.bucketSpend e 8 (len + 24)
    let s2 := if (s.bucket e q).1 = 0 then s1 else s1.bucketSpend e q (len + 24)
    let x := s2.txStamp (10 + e) d (s.octets (s.memW (d + 1)).toNat len)
    let s3 := x.2.setEt e { x.2.et e with sent := some { octets := x.1 }, busyAt := some s.now }
    ((s3.inc p ETH_TXF.n).txDone a d (2 ^ 35)).ev p 4

/-- ETH_LINK_CHANGE (R386, R392): the link comes up at an offered speed, or is lost. -/
def execEthLinkChange (e speed : Nat) (s : State) : Out := .next <|
  let p := pEth e
  if 2 ≤ e ∨ 4 < speed then s
  else if speed = 0 then
    if s.flag p ETH_LINK.up then (((s.put p ETH_LINK.up 0).put p ETH_LINK.speed 0).inc p ETH_LINK.down).evC p 1 else s
  else if bitN (s.get p ETH_CFG.spd) (speed - 1) then
    let was := s.flag p ETH_LINK.up
    let s1 := (s.put p ETH_LINK.up 1).put p ETH_LINK.speed speed
    if was then s1 else s1.ev p 0
  else s

/-! Writes of the ETH pages (R383, R391, R392). -/

/-- Is a cap acceptable: rate at most 10,000, and a burst large enough for a rate (R392)? -/
def State.capOk (s : State) (e v : Nat) : Bool :=
  let r := fldGet v ETH_CAP.rate
  decide (r ≤ 10000) && (r == 0 || decide (s.get (pEth e) ETH_CFG.maxfr + 20 ≤ fldGet v ETH_CAP.burst))

/-- A write of a word of an ETH port page. -/
def State.ethWrite (s : State) (ini e off v : Nat) : State :=
  let p := pEth e
  let a := p + off
  let bounded := fun (ok : Bool) => if ok then s.plainWrite ini a v else s.ev p 5
  if off = 0x10 then bounded (inRange (fldGet v ETH_CFG.maxfr) 64 9153)
  else if off = 0x15 then
    bounded (fldGet v ETH_PFC.pa != fldGet v ETH_PFC.pb && decide (fldGet v ETH_PFC.xon < fldGet v ETH_PFC.xoff))
  else if inRange off 0x16 9 then (if s.olSealed then s.plainWrite ini a v else bounded (s.capOk e v))
  else if inRange off 0x20 48 then
    if off % 4 = 0 then s.qbaseWrite a v
    else if off % 4 = 1 then (let s1 := s.qcfgWrite (a - 1) v; if off < 0x30 then s1.ethDrain e else s1)
    else if off % 4 = 3 then
      let s1 := s.plainWrite ini a v
      if off < 0x30 then s1.ethDrain e else s1
    else s
  else s.plainWrite ini a v

/-- QTAIL_WRITE (R383, R384, R388): descriptors are given to the hardware, and waiting frames take them. -/
def doQtailWrite (q : Nat) (v : Word) (s : State) : State :=
  if 26 ≤ q then s
  else
    let a := qAddr q + 3
    if q < 2 then s.ringWrite 0 (a - pRing0) v.toNat
    else s.ethWrite 0 ((q - 2) / 12) (a - pEth ((q - 2) / 12)) v.toNat

/-- QCFG_WRITE (R383, R384, R388): a queue's use begins, with the frames that wait for it, or ends. -/
def doQcfgWrite (q : Nat) (v : Word) (s : State) : State :=
  if 26 ≤ q then s
  else
    let a := qAddr q + 1
    if q < 2 then s.ringWrite 0 (a - pRing0) v.toNat
    else s.ethWrite 0 ((q - 2) / 12) (a - pEth ((q - 2) / 12)) v.toNat

/-- The reset of an ETH page (R21): a port comes back with its next link-up. (DEDUCED, log 16) -/
def State.ethReset (s : State) (p : Nat) : State :=
  if p = pEth0 then s.resetPage p (fun _ => false) 0
  else
    let e := (p - pEth 0) / 0x100
    let s1 := s.resetPage p (fun _ => false) 0
    (s1.setEt e { sent := (s1.et e).sent }).ethShow

/-! The commands. -/

/-- The command QTAIL_WRITE (R383). -/
def execQtailWrite (q : Nat) (v : Word) (s : State) : Out := .next (s.writeWord 0 (qAddr q + 3) v (doQtailWrite q v))

/-- The command QCFG_WRITE (R383). -/
def execQcfgWrite (q : Nat) (v : Word) (s : State) : Out := .next (s.writeWord 0 (qAddr q + 1) v (doQcfgWrite q v))

end Sys2Proof.Machine
end

