-- ==== Sys2Proof/Machine/Crypto.lean ====
section
/-! DEFINITION. The digest and the signature that R513, R517 and R521 name: SHA-512 (FIPS 180-4) and pure Ed25519 (RFC 8032),
over lists of octets. -/

namespace Sys2Proof.Machine

/-! SHA-512. -/

/-- The integer part of the k-th root of a number, bit by bit from bit `n`. -/
def rootGo (k n x r : Nat) : Nat :=
  match n with
  | 0 => r
  | m + 1 => rootGo k m x (if (r + 2 ^ m) ^ k ≤ x then r + 2 ^ m else r)

/-- The first 80 primes. -/
def primes80 : List Nat :=
  [2, 3, 5, 7, 11, 13, 17, 19, 23, 29, 31, 37, 41, 43, 47, 53, 59, 61, 67, 71, 73, 79, 83, 89, 97, 101, 103, 107, 109, 113] ++
  [127, 131, 137, 139, 149, 151, 157, 163, 167, 173, 179, 181, 191, 193, 197, 199, 211, 223, 227, 229, 233, 239, 241, 251] ++
  [257, 263, 269, 271, 277, 281, 283, 293, 307, 311, 313, 317, 331, 337, 347, 349, 353, 359, 367, 373, 379, 383, 389, 397] ++
  [401, 409]

/-- The round constants: 64 fraction bits of the cube roots of the first 80 primes. -/
def shaK : List Nat := primes80.map (fun p => rootGo 3 68 (p * 2 ^ 192) 0 % 2 ^ 64)

/-- The initial hash value: 64 fraction bits of the square roots of the first 8 primes. -/
def shaH : List Nat := (primes80.take 8).map (fun p => rootGo 2 67 (p * 2 ^ 128) 0 % 2 ^ 64)

/-- Rotate a 64-bit number right. -/
def rotr64 (n x : Nat) : Nat := x / 2 ^ n + x % 2 ^ n * 2 ^ (64 - n)

def bigSig (a b c x : Nat) : Nat := rotr64 a x ^^^ rotr64 b x ^^^ rotr64 c x
def smallSig (a b c x : Nat) : Nat := rotr64 a x ^^^ rotr64 b x ^^^ (x / 2 ^ c)

/-- The number that octets spell, the first most significant. -/
def beVal (l : List Nat) : Nat := l.foldl (fun a o => a * 256 + o % 256) 0

/-- The number that octets spell, the first least significant. -/
def leVal (l : List Nat) : Nat := l.foldr (fun o a => o % 256 + 256 * a) 0

/-- The octets of a number, the first least significant. -/
def leOctets (n v : Nat) : List Nat := (List.range n).map (fun i => v / 256 ^ i % 256)

/-- Lists of `k` elements cut from a list; `n` bounds their number. -/
def chunks {α : Type} (k n : Nat) (l : List α) : List (List α) :=
  match n with
  | 0 => []
  | m + 1 => if l.isEmpty then [] else l.take k :: chunks k m (l.drop k)

/-- The message schedule, newest word first, extended by `n` words. -/
def shaExtend (n : Nat) (w : List Nat) : List Nat :=
  match n with
  | 0 => w
  | m + 1 =>
    let at_ := fun i => w.getD i 0
    shaExtend m (((smallSig 19 61 6 (at_ 1) + at_ 6 + smallSig 1 8 7 (at_ 14) + at_ 15) % 2 ^ 64) :: w)

/-- One round on the eight working variables. -/
def shaRound (v : List Nat) (kw : Nat × Nat) : List Nat :=
  match v with
  | [a, b, c, d, e, f, g, h] =>
    let ch := (e &&& f) ^^^ ((2 ^ 64 - 1 - e) &&& g)
    let t1 := h + bigSig 14 18 41 e + ch + kw.1 + kw.2
    let t2 := bigSig 28 34 39 a + ((a &&& b) ^^^ (a &&& c) ^^^ (b &&& c))
    [(t1 + t2) % 2 ^ 64, a, b, c, (d + t1) % 2 ^ 64, e, f, g]
  | _ => v

/-- One block of 128 octets. -/
def shaBlock (h : List Nat) (b : List Nat) : List Nat :=
  let w := (shaExtend 64 ((chunks 8 16 b).map beVal).reverse).reverse
  let v := (shaK.zip w).foldl shaRound h
  List.zipWith (fun x y => (x + y) % 2 ^ 64) h v

/-- The padding of a message of `n` octets: to a multiple of 128 octets, with its length in bits at the end. -/
def shaPad (n : Nat) : List Nat :=
  0x80 :: List.replicate ((111 + 128 - n % 128) % 128) 0 ++ (leOctets 16 (8 * n)).reverse

/-- The SHA-512 digest of a list of octets, as 64 octets. -/
def sha512 (m : List Nat) : List Nat :=
  let p := m ++ shaPad m.length
  ((chunks 128 (p.length / 128) p).foldl shaBlock shaH).flatMap (fun x => (leOctets 8 x).reverse)

/-! Ed25519. -/

abbrev edP : Nat := 2 ^ 255 - 19
abbrev edL : Nat := 2 ^ 252 + 27742317777372353535851937790883648493

/-- A power modulo p; `n` bounds the bits of the exponent. -/
def edPow (n b e : Nat) : Nat :=
  match n with
  | 0 => 1
  | m + 1 => let r := edPow m (b * b % edP) (e / 2); if e % 2 = 1 then r * b % edP else r

def edInv (x : Nat) : Nat := edPow 255 x (edP - 2)
def edD : Nat := (edP - 121665) * edInv 121666 % edP
def edSqrtM1 : Nat := edPow 255 2 ((edP - 1) / 4)

/-- A point in extended coordinates X, Y, Z, T. -/
abbrev EdPoint : Type := Nat × Nat × Nat × Nat

/-- The sum of two points. -/
def edAdd (p q : EdPoint) : EdPoint :=
  let a := (p.2.1 + edP - p.1) * (q.2.1 + edP - q.1) % edP
  let b := (p.2.1 + p.1) * (q.2.1 + q.1) % edP
  let c := 2 * p.2.2.2 % edP * q.2.2.2 % edP * edD % edP
  let d := 2 * p.2.2.1 % edP * q.2.2.1 % edP
  let e := (b + edP - a) % edP
  let f := (d + edP - c) % edP
  let g := (d + c) % edP
  let h := (b + a) % edP
  (e * f % edP, g * h % edP, f * g % edP, e * h % edP)

/-- A multiple of a point; `n` bounds the bits of the factor. -/
def edMul (n k : Nat) (p : EdPoint) : EdPoint :=
  match n with
  | 0 => (0, 1, 1, 0)
  | m + 1 => let r := edMul m (k / 2) (edAdd p p); if k % 2 = 1 then edAdd r p else r

/-- Are two points equal? -/
def edEq (p q : EdPoint) : Bool :=
  (p.1 * q.2.2.1 + edP * edP - q.1 * p.2.2.1) % edP == 0 && (p.2.1 * q.2.2.1 + edP * edP - q.2.1 * p.2.2.1) % edP == 0

/-- The x coordinate that belongs to y with a sign bit (RFC 8032, 5.1.3). -/
def edX (y sign : Nat) : Option Nat :=
  let x2 := (y * y + edP - 1) * edInv (edD * y * y + 1) % edP
  if edP ≤ y then none
  else if x2 = 0 then (if sign = 1 then none else some 0)
  else
    let r := edPow 255 x2 ((edP + 3) / 8)
    let x := if r * r % edP = x2 then some r
      else if (r * edSqrtM1 % edP) * (r * edSqrtM1 % edP) % edP = x2 then some (r * edSqrtM1 % edP) else none
    x.map (fun x => if x % 2 = sign then x else edP - x)

/-- The point that 32 octets encode. -/
def edDecode (o : List Nat) : Option EdPoint :=
  let v := leVal (o.take 32)
  let y := v % 2 ^ 255
  (edX y (v / 2 ^ 255 % 2)).map (fun x => (x, y, 1, x * y % edP))

/-- The base point. -/
def edB : Option EdPoint :=
  let y := 4 * edInv 5 % edP
  (edX y 0).map (fun x => (x, y, 1, x * y % edP))

/-- Does an Ed25519 signature of 64 octets match a message under a public key (RFC 8032, 5.1.7)? (DESIGN CHOICE, log 96) -/
def edVerify (key msg sig : List Nat) : Bool :=
  let S := leVal ((sig.drop 32).take 32)
  match edDecode key, edDecode sig, edB with
  | some a, some r, some b =>
    let k := leVal (sha512 (sig.take 32 ++ key.take 32 ++ msg)) % edL
    decide (sig.length = 64) && decide (key.length = 32) && decide (S < edL)
      && edEq (edMul 4 8 (edMul 256 S b)) (edMul 4 8 (edAdd r (edMul 256 k a)))
  | _, _, _ => false

end Sys2Proof.Machine
end

