-- ==== Sys2Proof/Machine/Image.lean ====
section
/-! DEFINITION. Guestbook images in MRAM and their check (R511 to R514), and the commissioning record (R517). -/

namespace Sys2Proof.Machine

/-- Octet `k` of the octet-packed words from an address (R2). -/
def State.octAt (s : State) (a k : Nat) : Nat := (s.memW (a + k / 4)).toNat / 256 ^ (k % 4) % 256

/-- Octets `k` to `k + n - 1`. -/
def State.octs (s : State) (a k n : Nat) : List Nat := (List.range n).map (fun i => s.octAt a (k + i))

/-- A little-endian field of `n` octets at octet `k`. -/
def State.leAt (s : State) (a k n : Nat) : Nat := leVal (s.octs a k n)

/-- Put one octet into the octet-packed words from an address. -/
def State.putOct (s : State) (a k v : Nat) : State :=
  let w := (s.memW (a + k / 4)).toNat
  let d := 256 ^ (k % 4)
  s.setMem (a + k / 4) (word (w % d + v % 256 * d + w / (256 * d) * (256 * d)))

/-- Put octets from octet `k` on. -/
def State.putOcts (s : State) (a k : Nat) (l : List Nat) : State :=
  match l with
  | [] => s
  | v :: r => (s.putOct a k v).putOcts a (k + 1) r

/-- A bank of MRAM: its base address and size in words (R471), by kind (0 main, 1 safety) and bank (false A, true B). -/
def bankBase (kind : Nat) (b : Bool) : Nat :=
  mramBase + (if kind = 0 then (if b then 0x210000 else 0x10000) else (if b then 0x490000 else 0x410000))

def bankOctets (kind : Nat) : Nat := if kind = 0 then 4 * 0x200000 else 4 * 0x80000

/-- The commissioning record (R517). -/
abbrev commBase : Nat := mramBase

/-- Is an integrator key installed? -/
def State.integratorKey (s : State) : Bool := (s.octs commBase 36 32).any (fun o => o != 0)

/-- The public key of a key slot. -/
def State.keySlot (s : State) (slot : Nat) : List Nat := s.octs commBase (if slot = 0 then 4 else 36) 32

/-- A section entry (R512): type, destination, data offset, count, and whether its reserved bits are 0. -/
structure Section where
  typ : Nat := 0
  dst : Nat := 0
  off : Nat := 0
  count : Nat := 0
  clean : Bool := true
  deriving DecidableEq, Repr, Inhabited

/-- Section entry `k` of an image. -/
def State.imgSection (s : State) (a k : Nat) : Section :=
  let e := 64 + 16 * k
  { typ := s.octAt a e, dst := s.octAt a (e + 1) % 16 * 2 ^ 32 + s.leAt a (e + 4) 4, off := s.leAt a (e + 8) 4,
    count := s.leAt a (e + 12) 4,
    clean := s.octAt a (e + 1) / 16 == 0 && s.octAt a (e + 2) == 0 && s.octAt a (e + 3) == 0
      && (s.octAt a e != 2 || (s.octAt a (e + 1) == 0 && s.leAt a (e + 4) 4 == 0)) }

/-- The octets that a section's data takes (R512). -/
def Section.size (x : Section) : Nat := if x.typ = 2 then 10 * x.count else if x.typ = 3 then 5 * x.count + 64 else 5 * x.count

/-- The sections of an image. -/
def State.imgSections (s : State) (a : Nat) : List Section := (List.range (s.leAt a 20 2)).map (s.imgSection a)

/-- Data word `k` at an octet offset: 5 octets, bits 35:32 in the low half of the fifth (R512). -/
def State.dataWord (s : State) (a k : Nat) : Nat := s.leAt a k 5 % 2 ^ 36

/-- The register writes of a type 2 section: address and value. -/
def State.sectionWrites (s : State) (a : Nat) (x : Section) : List (Nat × Nat) :=
  (List.range x.count).map (fun i => (s.dataWord a (x.off + 10 * i), s.dataWord a (x.off + 10 * i + 5)))

/-- The register writes of an image, in image order. -/
def State.imgWrites (s : State) (a : Nat) : List (Nat × Nat) :=
  ((s.imgSections a).filter (fun (x : Section) => x.typ == 2)).flatMap (s.sectionWrites a)

/-- May a load go to these words (R512): a local store, the Commons or DRAM? -/
def loadAllowed (dst count : Nat) : Bool :=
  match targetOf dst, targetOf (dst + count - 1) with
  | .dram, .dram | .commons, .commons => true
  | .localData c, .localData d | .localData c, .localInst d | .localInst c, .localInst d => c == d
  | _, _ => false

/-- May a register write of an image go to this address (R512)? -/
def regAllowed (a : Nat) : Bool :=
  targetOf a == .page && a != pSys + 0x1B && a != pSys + 0x1D &&
  (match blkOf a with
   | .safe0 | .safe1 | .safe2 | .safe3 | .lens0 | .lens1 | .lens2 | .absent => false
   | _ => true)

/-- The value that the image's register writes leave in a word: the last write governs, else the reset value. -/
def lastWrite (l : List (Nat × Nat)) (a : Nat) : Nat := ((l.reverse.find? (fun e => e.1 == a)).map (·.2)).getD (resetWord a).toNat

/-- Does the release mask of an image name a core (R511: bit 0 is ignored, core 0 always runs)? -/
def State.released (s : State) (a c : Nat) : Bool := c == 0 || bitN (s.leAt a 24 8) c

/-- Is the image's boot task runnable (R514, code 10)? -/
def State.bootTaskOk (s : State) (a : Nat) : Bool :=
  let t := s.leAt a 22 2
  let l := s.imgWrites a
  decide (t < 512) && fldGet (lastWrite l (pTsk t)) TSK_CFG.en == 1 &&
  (List.range 64).any (fun c => s.released a c && bitN (lastWrite l (pTsk t + 1 + c / 32)) (c % 32))

/-- The digest that the signature covers (R513). -/
def State.imgDigest (s : State) (a : Nat) : List Nat := sha512 (s.octs a 0 (s.leAt a 8 4))

/-- Do the signatures of an image match (R512, R513): the image's, and that of each type 3 section under the Oviskuk key? -/
def State.imgSigned (s : State) (a : Nat) : Bool :=
  edVerify (s.keySlot (s.octAt a 7)) (s.imgDigest a) (s.octs a (s.leAt a 8 4) 64) &&
  (s.imgSections a).all (fun x => x.typ != 3 ||
    edVerify (s.keySlot 0) (sha512 (s.octs a x.off (5 * x.count))) (s.octs a (x.off + 5 * x.count) 64))

/-- Code 2: magic, version or kind wrong, or a reserved field not 0. (DEDUCED, log 92) -/
def State.imgBadForm (s : State) (a kind : Nat) : Bool :=
  s.octs a 0 4 != [0x47, 0x42, 0x4B, 0x31] || s.leAt a 4 2 != 1 || s.octAt a 6 != kind || decide (1 < s.octAt a 19)
    || (s.octs a 32 32).any (fun o => o != 0)
    || (List.range (min 1024 (s.leAt a 20 2))).any (fun k => !(s.imgSection a k).clean)

/-- Code 3: L, a section entry or its data outside the image. (DESIGN CHOICE, log 83) -/
def State.imgBadExtent (s : State) (a kind : Nat) : Bool :=
  let L := s.leAt a 8 4
  let n := s.leAt a 20 2
  L % 4 != 0 || decide (bankOctets kind < L + 64) || n == 0 || decide (1024 < n) || decide (L < 64 + 16 * n)
    || (s.imgSections a).any (fun (x : Section) => x.typ == 0 || decide (3 < x.typ) || x.off % 4 != 0 || decide (L < x.off + x.size))
    || (kind == 1 && (s.imgSection a 0).typ != 3)

/-- Code 5: the key slot is empty, or the Oviskuk key is refused by policy. -/
def State.imgBadKey (s : State) (a kind : Nat) : Bool :=
  decide (1 < s.octAt a 7) || (s.octAt a 7 == 1 && !s.integratorKey)
    || (s.octAt a 7 == 0 && kind == 0 && s.integratorKey && s.octAt commBase 76 % 2 == 1)

/-- Code 8: a destination or a register address that R512 does not permit. -/
def State.imgBadTarget (s : State) (a : Nat) : Bool :=
  (s.imgSections a).any (fun (x : Section) => x.typ != 2 && decide (0 < x.count) && !loadAllowed x.dst x.count)
    || (s.imgWrites a).any (fun e => !regAllowed e.1)

/-- The check of a bank (R514), of a safety image in the same way (R516): the code of the first failure, or 1. (DESIGN CHOICE, log 83) -/
def State.imgCode (s : State) (kind : Nat) (b ue : Bool) : Nat :=
  let a := bankBase kind b
  if s.imgBadForm a kind then 2
  else if s.imgBadExtent a kind then 3
  else if s.leAt a 16 2 ≠ s.get pSys SYS_CAP0.family ∨ s.octAt a 18 ≠ s.get pSys SYS_CAP0.member then 4
  else if s.imgBadKey a kind then 5
  else if s.leAt a 12 4 < s.leAt commBase (68 + 4 * kind) 4 then 6
  else if !s.imgSigned a then 7
  else if s.imgBadTarget a then 8
  else if ue then 9
  else if s.bootTaskOk a = false then 10
  else 1

/-- Is a bank's header readable: its magic is there? (DEDUCED, log 92) -/
def State.headerShows (s : State) (kind : Nat) (b : Bool) : Bool := s.octs (bankBase kind b) 0 4 == [0x47, 0x42, 0x4B, 0x31]

/-- Is bank B tried first (R514): both headers are readable and B's shows the higher issue? -/
def State.firstB (s : State) (kind : Nat) : Bool :=
  s.headerShows kind false && s.headerShows kind true
    && decide (s.leAt (bankBase kind false) 12 4 < s.leAt (bankBase kind true) 12 4)

/-- The first 36 bits of an image's digest (R513, R428). -/
def State.imgId (s : State) (a : Nat) : Nat := leVal ((s.imgDigest a).take 5) % 2 ^ 36

end Sys2Proof.Machine
end

