-- ==== Sys2Proof/Machine/Lens.lean ====
section
/-! DEFINITION. The Lens (R433 to R452): capsule poses and speed bounds, intrusion objects, protective separation, stops and
limit-set requests, and the self-test. -/

namespace Sys2Proof.Machine

/-! The island's records. -/

/-- The island's record of a channel. -/
def State.ic (s : State) (ch : Nat) : IslCh := Tab.rd s.isl.ch ch

/-- Write the island's record of a channel. -/
def State.setIc (s : State) (ch : Nat) (r : IslCh) : State := { s with isl := { s.isl with ch := Tab.wr s.isl.ch ch r } }

/-- The island's record of a port. -/
def State.ip (s : State) (p : Nat) : IslPort := Tab.rd s.isl.port p

/-- Write the island's record of a port. -/
def State.setIp (s : State) (p : Nat) (r : IslPort) : State := { s with isl := { s.isl with port := Tab.wr s.isl.port p r } }

/-- The Lens. -/
def State.lens (s : State) : LensSt := s.isl.lens

/-- Write the Lens. -/
def State.setLens (s : State) (r : LensSt) : State := { s with isl := { s.isl with lens := r } }

/-- A milli- or microsecond in edges of 2.5 ns. (DESIGN CHOICE, log 81) -/
abbrev edgesMs : Nat := 400000
abbrev edgesUs : Nat := 400

/-- The age of a channel's latest set in edges: none where no set has arrived (R411, R431). (DESIGN CHOICE, log 81) -/
def State.setAge (s : State) (ch : Nat) : Option Nat :=
  (Tab.get (fun _ => none) s.isl.arr ch : Option Nat).map (fun t => s.now - t)

/-- Has a channel had no set for 200 µs of island time (R410, R411)? -/
def State.setOld (s : State) (ch : Nat) : Bool :=
  match s.setAge ch with
  | none => true
  | some a => decide (200 * edgesUs ≤ a)

/-- Is the age of a channel's latest set over 200 µs (R441)? -/
def State.setOver (s : State) (ch : Nat) : Bool :=
  match s.setAge ch with
  | none => true
  | some a => decide (200 * edgesUs < a)

/-! The records of the model (R435 to R438). -/

/-- Word `k` of a record. -/
def recW (l : List Word) (k : Nat) : Nat := (l.getD k 0).toNat

/-- `n` signed words of a record from word `k` on. -/
def recInts (l : List Word) (k n : Nat) : List Int := (List.range n).map (fun i => sint 36 (recW l (k + i)))

/-- A pose in twelve words: the translation, then the rotation row by row. -/
def recPose (l : List Word) (k : Nat) : Pose := { t := recInts l k 3, r := recInts l (k + 3) 9 }

/-- Joint record (R436). -/
def lensJoint (l : List Word) : LensJoint :=
  { pos := recW l 0 / 2 ^ 33, prismatic := bitN (recW l 0) 32, ratio := sint 36 (recW l 1), zero := p72 (recW l 2) (recW l 3),
    vjmax := recW l 4, link := recPose l 5 }

/-- Capsule record (R437): none where it is not in use. -/
def lensCapsule (l : List Word) : Option LensCapsule :=
  if bitN (recW l 0) 35 then
    some { tool := bitN (recW l 0) 34, link := recW l 0 / 2 ^ 30 % 16, r := recW l 1, e0 := recInts l 2 3, e1 := recInts l 5 3 }
  else none

/-- The capsules in use with their numbers, from number `k` on. -/
def lensCapsules (l : List (List Word)) (k : Nat) : List (Nat × LensCapsule) :=
  match l with
  | [] => []
  | x :: r => match lensCapsule x with
    | some c => (k, c) :: lensCapsules r (k + 1)
    | none => lensCapsules r (k + 1)

/-- The number of joints in an arm record. -/
def LensRecs.nj (x : LensRecs) : Nat := recW x.arm 0 / 2 ^ 31 % 16

/-- Arm record with its joints and capsules (R435): none where the arm is not modelled. -/
def LensRecs.decode (x : LensRecs) (a : Nat) : Option LensArm :=
  let w := recW x.arm
  if bitN (w 0) 35 then
    some { arm := a, ss1 := bitN (w 0) 30, pairs := w 0 / 2 ^ 18 % 2 ^ 12, base := recPose x.arm 1, zr := w 13, as_ := w 14, tsd := w 15,
           b1 := w 16, b2 := w 17, b3 := w 18, hb := w 19, thold := w 20, reach := w 21, caa := w 22,
           joints := (x.joints.take x.nj).map lensJoint, capsules := lensCapsules x.caps 0 }
  else none

/-- Scanner record (R438): none where the scanner is not in use. -/
def lensScanner (l : List Word) (k : Nat) : Option LensScanner :=
  if bitN (recW l 0) 35 then
    some { scan := k, conn := recW l 0 / 2 ^ 29 % 64, arms := recW l 0 / 2 ^ 17 % 2 ^ 12, vh := recW l 1, tscan := recW l 2, c := recW l 3,
           zd := recW l 4, pose := recPose l 5 }
  else none

/-- The modelled arms of records from arm `a` on. -/
def armsFrom (l : List LensRecs) (a : Nat) : List LensArm :=
  match l with
  | [] => []
  | x :: r => match x.decode a with
    | some y => y :: armsFrom r (a + 1)
    | none => armsFrom r (a + 1)

/-- The scanners in use of records from scanner `k` on. -/
def scannersFrom (l : List (List Word)) (k : Nat) : List LensScanner :=
  match l with
  | [] => []
  | x :: r => match lensScanner x k with
    | some y => y :: scannersFrom r (k + 1)
    | none => scannersFrom r (k + 1)

/-- The modelled arms of an image (R433, R435). -/
def SafetyImage.arms (m : SafetyImage) : List LensArm := armsFrom m.model 0

/-- The scanners in use of an image (R438). -/
def SafetyImage.scanners (m : SafetyImage) : List LensScanner := scannersFrom m.scan 0

/-- Is a receive connection healthy (R422, R428)? -/
def State.connOk (s : State) (k : Nat) : Bool :=
  if k < 32 then bitN (s.get (pSafe 0) SAFE_CONN0.ok) k else bitN (s.get (pSafe 0) SAFE_CONN1.ok) (k - 32)

/-! Vectors and poses. -/

/-- A component of a vector or matrix. -/
def comp (v : List Rat) (i : Nat) : Rat := v.getD i 0

def vadd (a b : List Rat) : List Rat := (List.range 3).map (fun i => comp a i + comp b i)
def vsub (a b : List Rat) : List Rat := (List.range 3).map (fun i => comp a i - comp b i)
def vmul (k : Rat) (a : List Rat) : List Rat := a.map (fun x => k * x)
def vdot (a b : List Rat) : Rat := comp a 0 * comp b 0 + comp a 1 * comp b 1 + comp a 2 * comp b 2

/-- The length of a vector, never below the true one (R442). -/
def vlen (a : List Rat) : Rat := sqrtAbove (vdot a a)

/-- A matrix, stored row by row, times a vector. -/
def mvec (m v : List Rat) : List Rat :=
  (List.range 3).map (fun i => comp m (3 * i) * comp v 0 + comp m (3 * i + 1) * comp v 1 + comp m (3 * i + 2) * comp v 2)

/-- The product of two matrices. -/
def mmul (a b : List Rat) : List Rat :=
  (List.range 9).map (fun k =>
    comp a (k / 3 * 3) * comp b (k % 3) + comp a (k / 3 * 3 + 1) * comp b (3 + k % 3) + comp a (k / 3 * 3 + 2) * comp b (6 + k % 3))

/-- A placed frame: its origin and rotation. -/
abbrev Frame : Type := List Rat × List Rat

/-- A pose of the model as a frame: S16.20 metres and S2.34 (R434). -/
def Pose.frame (p : Pose) : Frame := (p.t.map (fun (i : Int) => (i : Rat) / 2 ^ 20), p.r.map (fun (i : Int) => (i : Rat) / 2 ^ 34))

/-- A point of the child frame in the parent frame. -/
def Frame.at_ (f : Frame) (v : List Rat) : List Rat := vadd (mvec f.2 v) f.1

/-- A frame followed by another. -/
def Frame.then_ (f g : Frame) : Frame := (f.at_ g.1, mmul f.2 g.2)

/-- The motion of a joint (R440): a rotation about z by q turns, or a translation along z by q metres. -/
def LensJoint.motion (j : LensJoint) (q : Rat) : Frame :=
  if j.prismatic then ([0, 0, q], [1, 0, 0, 0, 1, 0, 0, 0, 1])
  else ([0, 0, 0], [cosTurn q, -sinTurn q, 0, sinTurn q, cosTurn q, 0, 0, 0, 1])

/-- The joint coordinate for a latched position (R440). -/
def LensJoint.coord (j : LensJoint) (p : Int) : Rat := (j.ratio : Rat) / 2 ^ 28 * ((p - j.zero : Int) : Rat) / 2 ^ 36

/-- The frames F_0 to F_nj and the axis origins o_1 to o_nj, from a base frame and the joints with their coordinates. -/
def frames (f : Frame) (l : List (LensJoint × Rat)) : List Frame × List (List Rat) :=
  match l with
  | [] => ([f], [])
  | (j, q) :: r =>
    let g := f.then_ j.link.frame
    let x := frames (g.then_ (j.motion q)) r
    (f :: x.1, g.1 :: x.2)

/-! Poses and speeds of an arm (R439 to R442). -/

/-- The channel of a joint (R433). -/
def LensArm.chan (a : LensArm) (j : LensJoint) : Nat := 8 * a.arm + j.pos

/-- The pose state of an arm (R441): 0 known, 1 reach, 2 unknown. -/
def State.poseState (s : State) (a : LensArm) : Nat :=
  let sets := a.joints.map (fun j => (s.setOver (a.chan j), (s.ic (a.chan j)).set))
  if sets.any (fun x => x.1 || (match x.2 with | none => true | some y => y.unc || !y.phist)) then 2
  else if sets.any (fun x => match x.2 with | none => true | some y => !y.ref) then 1
  else 0

/-- The speed of a joint in motor revolutions per second (R442): the set's, or vjmax without speed history. -/
def State.jointSpeed (s : State) (a : LensArm) (worst : Bool) (j : LensJoint) : Rat :=
  let vm : Rat := ((j.vjmax : Int) : Rat) / 2 ^ 16
  match (s.ic (a.chan j)).set with
  | some x => if x.shist && !worst then ((x.spd.natAbs : Int) : Rat) / 2 ^ 16 else vm
  | none => vm

/-- What one joint adds to the speed bound of a point (R442). -/
def LensJoint.bound (j : LensJoint) (w dist : Rat) : Rat :=
  let k := absR ((j.ratio : Rat) / 2 ^ 28) * w
  if j.prismatic then k else twoPiAbove * k * dist

/-- The speed bound of an end point over the joints up to its link (R442). -/
def speedBound (e : List Rat) (r : Rat) (l : List (LensJoint × Rat × List Rat)) : Rat :=
  l.foldl (fun acc x => acc + x.1.bound x.2.1 (vlen (vsub e x.2.2) + r)) 0

/-- The reach sphere of an arm (R441, R442): about the base origin, with every joint included. -/
def State.reachCaps (s : State) (a : LensArm) (worst : Bool) : List LensCap :=
  let b := a.base.frame.1
  let r : Rat := ((a.reach : Int) : Rat) / 2 ^ 20
  let f := frames a.base.frame (a.joints.map (fun j =>
    (j, j.coord (match (s.ic (a.chan j)).set with | some x => x.pos | none => j.zero))))
  let v := speedBound b r (List.zipWith (fun j o => (j, s.jointSpeed a worst j, o)) a.joints f.2)
  [{ n := 0, e0 := b, e1 := b, r := r, v := v }]

/-- The capsules of an arm whose pose is known (R440, R442). -/
def State.knownCaps (s : State) (a : LensArm) : List LensCap :=
  let f := frames a.base.frame (a.joints.map (fun j =>
    (j, j.coord (match (s.ic (a.chan j)).set with | some x => x.pos | none => j.zero))))
  let js := List.zipWith (fun j o => (j, s.jointSpeed a false j, o)) a.joints f.2
  a.capsules.map (fun c =>
    let fr := f.1.getD c.2.link a.base.frame
    let e0 := fr.at_ (c.2.e0.map (fun (i : Int) => (i : Rat) / 2 ^ 20))
    let e1 := fr.at_ (c.2.e1.map (fun (i : Int) => (i : Rat) / 2 ^ 20))
    let r : Rat := ((c.2.r : Int) : Rat) / 2 ^ 20
    { n := c.1, e0 := e0, e1 := e1, r := r, v := maxR (speedBound e0 r (js.take c.2.link)) (speedBound e1 r (js.take c.2.link)),
      tool := c.2.tool })

/-- The capsules with which an arm is evaluated (R441, R448). (DESIGN CHOICE, log 97) -/
def State.armCaps (s : State) (a : LensArm) : List LensCap :=
  match s.poseState a with
  | 0 => s.knownCaps a
  | 1 => s.reachCaps a false
  | _ => match (Tab.get (fun _ => none) s.lens.known a.arm : Option (List LensCap)) with
    | some k => k
    | none => s.reachCaps a true

/-! Distances (R447). -/

/-- A number limited to 0 to 1. -/
def unit01 (x : Rat) : Rat := minR 1 (maxR 0 x)

/-- The squared least distance between two segments. -/
def segDist2 (p1 q1 p2 q2 : List Rat) : Rat :=
  let d1 := vsub q1 p1
  let d2 := vsub q2 p2
  let r := vsub p1 p2
  let a := vdot d1 d1
  let e := vdot d2 d2
  let b := vdot d1 d2
  let c := vdot d1 r
  let f := vdot d2 r
  let den := a * e - b * b
  let st : Rat × Rat :=
    if a = 0 ∧ e = 0 then (0, 0)
    else if a = 0 then (0, unit01 (f / e))
    else if e = 0 then (unit01 (-c / a), 0)
    else
      let u := if den = 0 then 0 else unit01 ((b * f - c * e) / den)
      let t := (b * u + f) / e
      if t < 0 then (unit01 (-c / a), 0) else if 1 < t then (unit01 ((b - c) / a), 1) else (u, t)
  let w := vsub (vadd p1 (vmul st.1 d1)) (vadd p2 (vmul st.2 d2))
  vdot w w

/-- The distance of two capsules, less 0.1 mm for computation (R447). -/
def capDist (e0 e1 : List Rat) (r : Rat) (f0 f1 : List Rat) (q : Rat) : Rat :=
  sqrtReal (segDist2 e0 e1 f0 f1) - r - q - 1 / 10000

/-- Lengths of the model in metres: U16.20. -/
def metres (n : Nat) : Rat := ((n : Int) : Rat) / 2 ^ 20

/-- The stopping distance S_s of a capsule speed (R447). -/
def LensArm.stopDist (a : LensArm) (v : Rat) : Rat :=
  v * (((a.tsd : Int) : Rat) / 1000000) + v * v / (2 * metres a.as_)

/-- T_r': the largest set age and the stop bound, 1.2 ms. -/
abbrev robotSide : Rat := 12 / 10000

/-- The protective separation distance S_p (R447). -/
def LensArm.sep (a : LensArm) (x : LensScanner) (wdMs : Nat) (v : Rat) : Rat :=
  let tr : Rat := ((x.tscan : Int) : Rat) / 1000000 + ((wdMs : Int) : Rat) / 1000 + 1 / 1000
  let ts : Rat := ((a.tsd : Int) : Rat) / 1000000 + v / metres a.as_
  metres x.vh * (tr + ts) + v * robotSide + a.stopDist v + metres x.c + metres x.zd + metres a.zr + 1 / 10000

/-- An intrusion margin with what gives it: margin, d, S_p, capsule, scanner, object, tool mark. -/
structure Margin where
  m : Rat := 0
  d : Rat := 0
  sp : Rat := 0
  cap : Nat := 0
  scan : Nat := 0
  obj : Nat := 0
  tool : Bool := false
  deriving DecidableEq, Repr, Inhabited

/-- The lesser of two margins, the first of equals. -/
def lesser (a : Option Margin) (b : Margin) : Option Margin :=
  match a with
  | none => some b
  | some x => if b.m < x.m then some b else some x

/-- The scanners of the model, which stand in order of their numbers (R438, R446). -/
def State.scanners (s : State) : List LensScanner := s.isl.img.scanners

/-- The objects of one cycle (R446): scanner, number in its message, and object, at most 256; and the scanners that have an
object left out. -/
def State.lensObjects (s : State) : List (LensScanner × Nat × LensObj) × List Nat :=
  let l := s.scanners.flatMap (fun x =>
    if s.connOk x.conn then
      let o := (Tab.rd s.lens.scans x.scan : LensScan).objs
      List.zipWith (fun i y => (x, i, y)) (List.range o.length) o
    else [])
  (l.take 256, (l.drop 256).map (fun y => y.1.scan))

/-- The watchdog time of a connection in ms (R423, R447). -/
def State.wdOf (s : State) (k : Nat) : Nat :=
  match s.isl.img.rx.find? (fun e => e.1 == k) with
  | some e => e.2.wdMs
  | none => 20

/-- The intrusion margin of an arm (R447). (DESIGN CHOICE, log 97) -/
def State.intrusion (s : State) (a : LensArm) (caps : List LensCap) (objs : List (LensScanner × Nat × LensObj)) : Option Margin :=
  (caps.flatMap (fun c => (objs.filter (fun o => bitN o.1.arms a.arm)).map (fun o =>
    let f := o.1.pose.frame
    let d := capDist c.e0 c.e1 c.r (f.at_ [o.2.2.x, o.2.2.y, o.2.2.z0]) (f.at_ [o.2.2.x, o.2.2.y, o.2.2.z1]) o.2.2.r
    let sp := a.sep o.1 (s.wdOf o.1.conn) c.v
    ({ m := d - sp, d := d, sp := sp, cap := c.n, scan := o.1.scan, obj := o.2.1, tool := c.tool } : Margin)))).foldl lesser none

/-- Is a pair of arms checked (R448)? -/
def pairChecked (a b : LensArm) : Bool := a.arm != b.arm && (bitN a.pairs b.arm || bitN b.pairs a.arm)

/-- The arm margin of an arm (R448): `scan` names the other arm and `obj` its capsule. (DESIGN CHOICE, log 97) -/
def armMargin (all : List (LensArm × List LensCap)) (a : LensArm) (caps : List LensCap) : Option Margin :=
  ((all.filter (fun x => pairChecked a x.1)).flatMap (fun x => caps.flatMap (fun c => x.2.map (fun e =>
    let d := capDist c.e0 c.e1 c.r e.e0 e.e1 e.r
    let sab := c.v * robotSide + a.stopDist c.v + e.v * robotSide + x.1.stopDist e.v + metres a.zr + metres x.1.zr
      + maxR (metres a.caa) (metres x.1.caa) + 1 / 10000
    ({ m := d - sab, d := d, sp := sab, cap := c.n, scan := x.1.arm, obj := e.n, tool := c.tool } : Margin))))).foldl lesser none

/-! Stops and requests (R445, R446, R449, R450). -/

/-- Does a scanner call for a stop of the arms it covers (R445)? -/
def State.scanStops (s : State) (x : LensScanner) : Bool :=
  let r : LensScan := Tab.rd s.lens.scans x.scan
  !r.good || r.bad || !s.connOk x.conn

/-- Is a margin at or above a bound? No margin is unbounded. -/
def atLeast (m : Option Margin) (b : Rat) : Bool :=
  match m with
  | none => true
  | some x => decide (b ≤ x.m)

/-- The results of an arm in one cycle. -/
structure ArmResult where
  arm : LensArm := {}
  pose : Nat := 0
  caps : List LensCap := []
  mi : Option Margin := none
  ma : Option Margin := none
  calls : Bool := false
  deriving DecidableEq, Repr, Inhabited

/-- Evaluate every arm of the model. -/
def State.lensArms (s : State) : List ArmResult :=
  let all := s.isl.img.arms.map (fun a => (a, s.armCaps a))
  let objs := s.lensObjects
  all.map (fun x => {
    arm := x.1, pose := s.poseState x.1, caps := x.2, mi := s.intrusion x.1 x.2 objs.1, ma := armMargin all x.1 x.2,
    calls := s.isl.img.scanners.any (fun c => bitN c.arms x.1.arm && (s.scanStops c || objs.2.contains c.scan)) })

/-- Does a cycle set the Lens stop of an arm (R449)? -/
def ArmResult.stops (r : ArmResult) : Bool := r.pose == 2 || r.calls || !atLeast r.mi 0 || !atLeast r.ma 0

/-- A bit of a word put to a value. -/
def putBitN (w k : Nat) (b : Bool) : Nat := if b then setBitN w k else if bitN w k then w - 2 ^ k else w

/-- The new stop of an arm and the edge since which it may clear (R449). -/
def State.newStop (s : State) (r : ArmResult) : Bool × Option Nat :=
  let old := bitN (s.get (pLens 0) LENS_STOP.stop) r.arm.arm
  if r.stops then (true, none)
  else if !old then (false, none)
  else if !(atLeast r.mi (metres r.arm.hb) && atLeast r.ma (metres r.arm.hb)) then (true, none)
  else
    let t := ((s.ip r.arm.arm).clearFrom).getD s.now
    if t + r.arm.thold * edgesMs ≤ s.now then (false, none) else (true, some t)

/-- The band of a request. -/
def LensArm.band (a : LensArm) (k : Nat) : Rat := if k = 1 then metres a.b1 else if k = 2 then metres a.b2 else metres a.b3

/-- The request that a cycle computes (R450). -/
def ArmResult.wants (r : ArmResult) : Nat :=
  if r.pose = 1 then 3
  else if !atLeast r.mi (r.arm.band 3) then 3
  else if !atLeast r.mi (r.arm.band 2) then 2
  else if !atLeast r.mi (r.arm.band 1) then 1
  else 0

/-- The new request of an arm and the edge since which it may loosen (R450). -/
def State.newReq (s : State) (r : ArmResult) : Nat × Option Nat :=
  let old := s.get (pLens 0) LENS_LREQ.lreq / 4 ^ r.arm.arm % 4
  if old ≤ r.wants then (r.wants, none)
  else if !atLeast r.mi (r.arm.band old + metres r.arm.hb) then (old, none)
  else
    let t := ((s.ip r.arm.arm).looseFrom).getD s.now
    if t + r.arm.thold * edgesMs ≤ s.now then (r.wants, none) else (old, some t)

/-- A length as a word shows it: S16.20, limited. -/
def shown20 (x : Rat) : Int := nearInt (x * 2 ^ 20)

/-- Show a margin, or that there is none (R455). (DESIGN CHOICE, log 97) -/
def State.putMargin (s : State) (f : Fld) (m : Option Margin) (v : Margin → Rat) (none_ : Nat) : State :=
  match m with
  | none => s.put (pLens 1) f none_
  | some x => s.putSat (pLens 1) f (shown20 (v x))

/-- The words of an arm on LENS page 1 (R455). -/
def State.showArm (s : State) (r : ArmResult) : State :=
  let a := r.arm.arm
  let s1 := (((s.putMargin (LENS_MARG.m a) r.mi (·.m) 0x7FFFFFFFF).putMargin (LENS_DIST.d a) r.mi (·.d) 0).putMargin
    (LENS_SP.sp a) r.mi (·.sp) 0).putMargin (LENS_AAM.m a) r.ma (·.m) 0x7FFFFFFFF
  let i := r.mi.getD {}
  let o := r.ma.getD {}
  let governs := match r.ma, r.mi with | some x, some y => decide (x.m < y.m) | some _, none => true | _, _ => false
  let s2 := ((s1.put (pLens 1) (LENS_WHO.cap a) i.cap).put (pLens 1) (LENS_WHO.scan a) i.scan).put (pLens 1) (LENS_WHO.obj a) i.obj
  let s3 := ((s2.put (pLens 1) (LENS_WHO.oarm a) o.scan).put (pLens 1) (LENS_WHO.ocap a) o.obj).put (pLens 1) (LENS_WHO.acap a) o.cap
  s3.put (pLens 1) (LENS_WHO.tool a) (b2n (if governs then o.tool else i.tool))

/-- Take the results of one arm: its words, stop, request and marks, with their events (R449, R450, R454). -/
def State.takeArm (s : State) (r : ArmResult) : State :=
  let p := pLens 0
  let a := r.arm.arm
  let st := s.newStop r
  let rq := s.newReq r
  let oldStop := bitN (s.get p LENS_STOP.stop) a
  let oldUnk := bitN (s.get p LENS_STOP.unk) a
  let oldReq := s.get p LENS_LREQ.lreq / 4 ^ a % 4
  let s1 := (s.showArm r).setIp a { s.ip a with clearFrom := st.2, looseFrom := rq.2 }
  let s2 := ((s1.put p LENS_STOP.stop (putBitN (s.get p LENS_STOP.stop) a st.1)).put p LENS_STOP.unk
    (putBitN (s.get p LENS_STOP.unk) a (r.pose == 2))).put p LENS_STOP.aa (putBitN (s.get p LENS_STOP.aa) a (!atLeast r.ma 0))
  let s3 := (s2.put p LENS_LREQ.lreq (s.get p LENS_LREQ.lreq - oldReq * 4 ^ a + rq.1 * 4 ^ a)).put p LENS_LREQ.reach
    (putBitN (s.get p LENS_LREQ.reach) a (r.pose == 1))
  let s4 := s3.put (pSafe 2) (SAFE_PORT.lreq a) rq.1
  let l := s4.lens
  let s5 := s4.setLens { l with caps := Tab.wr l.caps a r.caps,
                                known := if r.pose = 0 then Tab.set (fun _ => none) l.known a (some r.caps) else l.known }
  let s6 := if st.1 != oldStop then s5.ev p 1 else s5
  let s7 := if rq.1 ≠ oldReq then s6.ev p 2 else s6
  if r.pose = 2 ∧ oldUnk = false then s7.evC p 6 else s7

/-- Take the results of every arm. -/
def takeArms (l : List ArmResult) (s : State) : State :=
  match l with
  | [] => s
  | r :: t => takeArms t (s.takeArm r)

/-- The results of a whole cycle appear (R439 to R450, R454). -/
def State.lensTake (s : State) : State :=
  let p := pLens 0
  let objs := s.lensObjects
  let s1 := takeArms s.lensArms s
  let s2 := (s1.put p LENS_STAT.nobj objs.1.length).put p LENS_STAT.ovf (b2n (!objs.2.isEmpty))
  let s3 := if objs.2.isEmpty then s2 else s2.evC p 3
  (s3.incMod p LENS_STAT.seq).ev p 0

/-- A second self-test failure in a row (R452): the Lens has failed, and every present arm is in Lens stop; a stop that sets records
event 1. (DESIGN CHOICE, log 97) -/
def State.lensFail (s : State) : State :=
  let p := pLens 0
  let s1 := s.isl.img.arms.foldl (fun t (a : LensArm) => t.put p LENS_STOP.stop (setBitN (t.get p LENS_STOP.stop) a.arm)) s
  let s2 := (s1.setLens { s1.lens with failed := true }).put p LENS_STAT.state 2
  let s3 := if s2.get p LENS_STOP.stop = s.get p LENS_STOP.stop then s2 else s2.ev p 1
  s3.ev p 8

/-- LENS_EVALUATION and LENS_SELF_TEST of one cycle (R449, R452). -/
def State.lensCycle (s : State) (ok : Bool) : State :=
  let p := pLens 0
  let again := s.lens.failedOnce
  if s.lens.failed then s
  else
    let s1 := (s.setLens { s.lens with failedOnce := !ok }).put p LENS_STAT.rep (b2n again)
    if ok then s1.lensTake
    else if again then (s1.evC p 7).lensFail
    else s1.evC p 7

/-! Scanner messages (R443 to R445). -/

/-- A two's complement number of octets in network order. -/
def beInt (l : List Nat) : Int := sint (8 * l.length) (beVal l)

/-- The object in 16 octets (R443). -/
def lensObj (o : List Nat) : LensObj :=
  { x := (beInt (o.take 4) : Rat) / 1000000, y := (beInt ((o.drop 4).take 4) : Rat) / 1000000,
    r := ((beVal ((o.drop 8).take 2) : Int) : Rat) / 1000, z0 := (beInt ((o.drop 10).take 2) : Rat) / 1000,
    z1 := (beInt ((o.drop 12).take 2) : Rat) / 1000 }

/-- Is a scanner message well formed (R444)? -/
def scanFormat (d : List Nat) : Bool :=
  let n := d.getD 4 0
  d.length == 8 + 16 * n && decide (n ≤ 64) && d.getD 0 0 == 1
    && ((d.drop 5).take 3).all (fun o => o == 0)
    && (chunks 16 64 (d.drop 8)).all (fun o => decide ((lensObj o).z0 ≤ (lensObj o).z1) && (o.drop 14).all (fun x => x == 0))

/-- SCANNER_MESSAGE (R444, R445, R454): the objects are taken for the Lens, or the message is refused by format. LENS_SCANs shows the
last message either way, with a count above 127 shown as 127. (DESIGN CHOICE, log 97) -/
def State.scanMessage (s : State) (k : Nat) (d : List Nat) : State :=
  let p := pLens 0
  let ok := scanFormat d
  let sf := d.getD 1 0 % 2 == 1
  let r : LensScan := { good := true, bad := !ok || sf, objs := if ok then (chunks 16 64 (d.drop 8)).map lensObj else [] }
  let s1 := s.setLens { s.lens with scans := Tab.wr s.lens.scans k r }
  let s2 := (s1.incMod p (LENS_SCAN.seq k)).put p (LENS_SCAN.fmt k) (b2n (!ok))
  let s3 := (s2.put p (LENS_SCAN.sf k) (b2n sf)).put p (LENS_SCAN.nobj k) (min 127 (d.getD 4 0))
  let s4 := if sf then s3.ev p 4 else s3
  if ok then s4 else s4.evC p 5

/-- What a read of a LENS word shows where it is not held in it (R454, R456): the connection's health, and page 2. -/
def State.lensView (s : State) (a : Nat) : Option Nat :=
  if a = pLens 0 + 2 ∨ a < pLens 0 + 0x20 then none
  else if a < pLens 0 + 0x30 then
    match s.isl.img.scanners.find? (fun x => pLens 0 + 0x20 + x.scan == a) with
    | some x => some (fldPut (s.reg a) (LENS_SCAN.hl x.scan) (b2n (s.connOk x.conn)))
    | none => none
  else if pLens 2 + 0x10 ≤ a ∧ a < pLens 2 + 0x90 then
    let l : List LensCap := Tab.rd s.lens.caps (s.get (pLens 0) LENS_WSEL.arm)
    let o := a - pLens 2 - 0x10
    match l.find? (fun c => c.n == o / 8) with
    | none => some 0
    | some c =>
      let i := o % 8
      some (unsint 36 (shown20 (if i < 3 then comp c.e0 i else if i < 6 then comp c.e1 (i - 3) else if i = 6 then c.r else c.v)))
  else none

end Sys2Proof.Machine
end

