-- ==== Sys2Proof/Machine/Island.lean ====
section
/-! DEFINITION. The safety island (R393 to R431): its start and the envelope lock, faults, evaluation cycles, ports and stops,
envelope stops, monitoring functions, brakes, safety inputs and outputs, acknowledges, connections and the mailbox. -/

namespace Sys2Proof.Machine

/-! Parameters (R423). -/

/-- Parameters listed by number, or their defaults. -/
def paramOf {α : Type} (d : α) (l : List (Nat × α)) (k : Nat) : α := ((l.find? (fun e => e.1 == k)).map (·.2)).getD d

def State.chCfg (s : State) (ch : Nat) : ChCfg := paramOf {} s.isl.img.chans ch
def State.portCfg (s : State) (p : Nat) : PortCfg := paramOf {} s.isl.img.ports p
def State.siCfg (s : State) (i : Nat) : SiCfg := paramOf {} s.isl.img.si i

/-- Is a channel monitored (R407, R423)? -/
def ChCfg.watched (c : ChCfg) : Bool := c.monitored || c.sls || c.slp || c.sdi

/-- The channels of a port. -/
def portChans (p : Nat) : List Nat := (List.range 8).map (fun j => 8 * p + j)

/-- The monitored channels of a port (R407). -/
def State.monitoredOf (s : State) (p : Nat) : List Nat := (portChans p).filter (fun ch => (s.chCfg ch).watched)

def SiCfg.ok (c : SiCfg) : Bool :=
  decide (c.role ≤ 5) && decide (c.ports < 2 ^ 12) && (c.pair.all (fun j => decide (j < 32)))
    && (c.tpGroup.all (fun g => decide (g < 8))) && c.filterUs % 250 == 0 && decide (250 ≤ c.filterUs)
    && decide (c.filterUs ≤ 4000) && decide (10 ≤ c.tdiscMs) && decide (c.tdiscMs ≤ 1000)

def PortCfg.ok (c : PortCfg) : Bool := decide (10 ≤ c.ts1Ms) && decide (c.ts1Ms ≤ 10000) && decide (c.ackSet < 2 ^ 16)

def LimitSet.ok (c : LimitSet) : Bool :=
  c.vlim.all (fun v => decide (v < 2 ^ 36)) && decide (-(2 ^ 71) ≤ c.plo) && decide (c.plo < 2 ^ 71) && decide (-(2 ^ 71) ≤ c.phi)
    && decide (c.phi < 2 ^ 71) && decide (c.dir ≤ 2)

/-- A deceleration of 1 to 10⁵ rev/s². -/
def decelOk (d : Nat) : Bool := decide (1 ≤ d) && decide (d ≤ 100000)

def ChCfg.ok (c : ChCfg) : Bool :=
  decide (c.envReact ≤ 1) && decide (c.sets.length ≤ 4) && c.sets.all LimitSet.ok && decelOk c.dsls && decelOk c.dslp && decelOk c.d1
    && decide (c.tol1 < 2 ^ 36) && decide (c.vstand < 2 ^ 36) && decide (c.vhome < 2 ^ 36)
    && decide (2 ^ 12 ≤ c.tolSdi) && decide (c.tolSdi ≤ 2 ^ 36) && decide (2 ^ 12 ≤ c.hwin) && decide (c.hwin ≤ 2 ^ 36)
    && decide (c.violReact ≤ 1) && decide (10 ≤ c.tpullMs) && decide (c.tpullMs ≤ 500) && decide (25 ≤ c.hold)
    && decide (c.hold ≤ 100) && decide (c.sbcMs ≤ 100) && decide (100 ≤ c.tbtMs) && decide (c.tbtMs ≤ 10000)
    && decide (50 ≤ c.tbpUs) && decide (c.tbpUs ≤ 400) && decide (1 ≤ c.testH) && decide (c.testH ≤ 168)
    && decide (200 ≤ c.tminMs) && decide (c.tminMs ≤ 5000) && decide (c.graceH ≤ 24) && decide (c.a2lo < 2 ^ 18) && decide (c.a2hi < 2 ^ 18)

def ConnCfg.ok (c : ConnCfg) : Bool :=
  decide (c.conn < 2 ^ 16) && decide (1 ≤ c.wdMs) && decide (c.wdMs ≤ 1000) && decide (c.ports < 2 ^ 12)

/-- Is a rotation orthonormal within 2^-20 per element (R434)? -/
def Pose.ok (p : Pose) : Bool :=
  let m := p.frame.2
  p.r.length == 9 && p.t.length == 3 &&
  (List.range 9).all (fun k =>
    let d := vdot ((m.drop (k / 3 * 3)).take 3) ((m.drop (k % 3 * 3)).take 3) - (if k / 3 = k % 3 then 1 else 0)
    decide (absR d ≤ 1 / 2 ^ 20))

/-- Does a record have its length, with its reserved bits 0: the low `b` bits of word 0 and the words listed (R435 to R438)? -/
def recClean (l : List Word) (n b : Nat) (zero : List Nat) : Bool :=
  l.length == n && recW l 0 % 2 ^ b == 0 && zero.all (fun k => recW l k == 0)

def LensArm.ok (a : LensArm) : Bool :=
  decide (0 < a.as_) && decide (a.tsd ≤ 1000000) && decide (a.b2 ≤ a.b1) && decide (a.b3 ≤ a.b2) && decide (10 ≤ a.thold)
    && decide (a.thold ≤ 10000) && a.base.ok && a.joints.all (fun j => j.link.ok)
    && a.capsules.all (fun c => decide (c.2.link ≤ a.joints.length))

/-- Are the records of an arm in their ranges (R434 to R437)? A modelled arm has one record for each of its joints. -/
def LensRecs.ok (x : LensRecs) (a : Nat) : Bool :=
  match x.decode a with
  | none => true
  | some y => recClean x.arm 24 18 [23] && decide (x.nj ≤ 8) && x.joints.length == x.nj && x.joints.all (fun l => recClean l 18 32 [17])
      && decide (x.caps.length ≤ 16) && x.caps.all (fun l => recClean l 8 30 []) && y.ok

def LensScanner.ok (x : LensScanner) : Bool := decide (16 * 2 ^ 20 ≤ 10 * x.vh) && decide (2 * x.vh ≤ 5 * 2 ^ 20) && x.pose.ok

/-- Do the parameters of an image lie in their ranges (R423, R434)? An SO mask has the 14 conditions of R421. (DESIGN CHOICE, log 83) -/
def SafetyImage.ok (m : SafetyImage) : Bool :=
  m.si.all (fun e => decide (e.1 < 32) && e.2.ok) && m.tpwUs.all (fun t => decide (100 ≤ t) && decide (t ≤ 500))
    && m.so.all (fun w => decide (w < 2 ^ 14))
    && m.ports.all (fun e => decide (e.1 < 12) && e.2.ok) && m.chans.all (fun e => decide (e.1 < 96) && e.2.ok)
    && m.fcReact.all (fun e => decide (e.2 ≤ 2)) && m.rx.all (fun e => decide (e.1 < 64) && e.2.ok)
    && m.tx.all (fun e => decide (e.1 < 32) && e.2.ok) && decide (m.model.length ≤ 12) && m.model.all (fun x => x.ok 0)
    && decide (m.scan.length ≤ 16) && m.scan.all (fun l => (lensScanner l 0).isNone || recClean l 20 17 [17, 18, 19])
    && m.scanners.all LensScanner.ok

/-! Island state, outputs and brakes. -/

def State.islState (s : State) : Nat := s.get (pSafe 0) SAFE_STAT.state

/-- Enter an island state (R397): event 0 of SAFE page 0, and the Lens runs in state 4 only (R454). -/
def State.setIslState (s : State) (v : Nat) : State :=
  if s.islState = v then s
  else
    ((s.put (pSafe 0) SAFE_STAT.state v).put (pLens 0) LENS_STAT.state (if v = 4 then (if s.lens.failed then 2 else 1) else 0)).ev
      (pSafe 0) 0

def State.pstate (s : State) (p : Nat) : Nat := s.get (pSafe 2) (SAFE_PORT.pstate p)

/-- Is an SO on (R421, R397): its source mask's bits are 0 island in Run, 1 + p port p in Run, 13 no Lens protective stop? Off in state
5, in the hardware safe state and when faulted, whatever the mask. (DESIGN CHOICE, log 83) -/
def State.soOn (s : State) (k : Nat) : Bool :=
  let m := s.isl.img.so.getD k 1
  s.islState != 5 && (!bitN m 0 || s.islState == 4) && !s.flag (pSafe 0) SAFE_STAT.hwsafe
    && !bitN (s.get (pSafe 2) SAFE_OUT.sofault) k
    && (List.range 12).all (fun p => !bitN m (1 + p) || s.pstate p == 2)
    && (!bitN m 13 || s.get (pLens 0) LENS_STOP.stop == 0)

/-- The level of SO `k` at its pin: on, but for its own off-pulses (R421). -/
def State.soLevel (s : State) (k : Nat) : Bool := s.soOn k && decide (Tab.rd s.isl.soPulse k ≤ s.now)

/-- The level of TP `k` at its pin: on, but for its off-pulses, whose mask lasts 50 µs longer (R418, R419); off in the hardware safe
state (R395). -/
def State.tpLevel (s : State) (k : Nat) : Bool :=
  !s.flag (pSafe 0) SAFE_STAT.hwsafe && decide (Tab.rd s.isl.mask k ≤ s.now + 50 * edgesUs)

/-- Bring the SO outputs to their conditions. SAFE_OUT.so shows them without the off-pulses. (DEDUCED, log 89) -/
def State.soUpdate (s : State) : State :=
  s.put (pSafe 2) SAFE_OUT.so ((List.range 4).foldl (fun w k => if s.soOn k then w + 2 ^ k else w) 0)

def State.bstate (s : State) (ch : Nat) : Nat := s.get (pSafe 3) (SAFE_CH.bstate ch)
def State.setBstate (s : State) (ch v : Nat) : State := s.put (pSafe 3) (SAFE_CH.bstate ch) v

/-- Apply a brake (R415): both switches open. -/
def State.applyBrake (s : State) (ch : Nat) : State :=
  let s1 := s.setIc ch { s.ic ch with sbc := none }
  if inRange (s.bstate ch) 1 2 then s1.setBstate ch 0 else s1

/-- Apply a brake under safe brake control: after its SBC delay (R406, R415). A decision already taken is not put off. -/
def State.applyAfterSbc (s : State) (ch : Nat) : State :=
  let d := (s.chCfg ch).sbcMs
  if d = 0 ∨ inRange (s.bstate ch) 1 2 = false then s.applyBrake ch
  else if (s.ic ch).sbc.isSome then s
  else s.setIc ch { s.ic ch with sbc := some (s.now + d * edgesMs) }

/-! Ports and stops (R405 to R408). -/

/-- A port enters STO (R406, R409): both paths act, each brake follows after its SBC delay, the cause is recorded, and ackreq
sets when `by_` lies in the acknowledge set. (DEDUCED, log 88) -/
def State.enterSto (s : State) (p code by_ : Nat) : State :=
  let s1 := { s with gateEn := s.gateEn.filter (fun q => q != p) }
  let s2 := s1.put (pSafe 2) SAFE_OUT.gen (putBitN (s.get (pSafe 2) SAFE_OUT.gen) p false)
  let s3 := overAll (portChans p) s2 (fun ch t => ((t.holdPads ch).padCause ch).applyAfterSbc ch)
  let s4 := (s3.put (pSafe 2) (SAFE_PORT.pstate p) 0).put (pSafe 2) (SAFE_PORT.cause p) code
  let s5 := if bitN (s.portCfg p).ackSet by_ then s4.put (pSafe 2) (SAFE_PORT.ackreq p) 1 else s4
  ((s5.setIp p { s5.ip p with stopAt := some s.now }).ev (pSafe 0) 1).soUpdate

/-- The magnitude of the speed of a channel's latest set, in 2^-16 rev/s; 0 without a set. -/
def State.absV (s : State) (ch : Nat) : Nat := match (s.ic ch).set with | some x => x.spd.natAbs | none => 0

/-- Is every monitored channel of a port at or below vstand (R407)? -/
def State.stands (s : State) (p : Nat) : Bool := (s.monitoredOf p).all (fun ch => decide (s.absV ch ≤ (s.chCfg ch).vstand))

/-- SS1 of a port starts (R407): the speeds are recorded, with event 1. -/
def State.enterSs1 (s : State) (p code : Nat) : State :=
  let r := s.ip p
  let still := if s.stands p then some s.now else none
  let s1 := s.setIp p { r with ts := s.now, v0 := (portChans p).map s.absV, by_ := code, still := still, stopAt := some s.now }
  (((s1.put (pSafe 2) (SAFE_PORT.pstate p) 1).put (pSafe 2) (SAFE_PORT.cause p) code).ev (pSafe 0) 1).soUpdate

/-- Does an edge lie in the present evaluation cycle? -/
def State.inCycle (s : State) (e : Option Nat) : Bool :=
  match e with
  | none => false
  | some t => decide (s.isl.cycAt ≤ t)

/-- Did a port stop in the present evaluation cycle (R408)? -/
def State.stoppedNow (s : State) (p : Nat) : Bool := s.inCycle (s.ip p).stopAt

/-- Did a stop cause of a port in STO arrive in the present evaluation cycle (R410)? -/
def State.causedNow (s : State) (p : Nat) : Bool := s.inCycle (s.ip p).causeAt

/-- A stop cause of a port in STO arrives. -/
def State.noteCause (s : State) (p : Nat) : State := s.setIp p { s.ip p with causeAt := some s.now }

/-- A further cause of the kind of the stop arrives: in the cycle of the stop the lowest code is recorded (R408), and it counts for
the acknowledge (R409). (DEDUCED, log 88) -/
def State.lowerCause (s : State) (p code : Nat) : State :=
  if s.stoppedNow p = false ∨ s.get (pSafe 2) (SAFE_PORT.cause p) ≤ code then s
  else
    let s1 := s.put (pSafe 2) (SAFE_PORT.cause p) code
    if s.pstate p = 1 then s1.setIp p { s1.ip p with by_ := code }
    else if bitN (s.portCfg p).ackSet code then s1.put (pSafe 2) (SAFE_PORT.ackreq p) 1 else s1

/-- A stop cause acts on a port (R407, R408): STO at once, or SS1 from Run. A port that has stopped stays as it is, but for the
code recorded. -/
def State.stopPort (s : State) (p code : Nat) (ss1 : Bool) : State :=
  let st := s.pstate p
  if st = 0 then (if ss1 then s.noteCause p else (s.noteCause p).lowerCause p code)
  else if ss1 then (if st = 2 then s.enterSs1 p code else s.lowerCause p code)
  else s.enterSto p code code

/-- The island's faults (R397, R401): state 5, with the first fault recorded, every port in STO and the brakes applied. -/
def State.islandFault (s : State) (fc info : Nat) : State :=
  if s.islState = 5 then s
  else
    let s1 := (s.put (pSafe 0) SAFE_STAT.fcause fc).put (pSafe 0) SAFE_FINFO.info info
    let s2 := overAll (List.range 12) (s1.setIslState 5) (fun p t => t.stopPort p 1 false)
    (overAll (List.range 96) s2 (fun ch t => t.applyBrake ch)).soUpdate

/-- A fault whose SAFE_FINFO the spec does not state: a free value. (DESIGN CHOICE, log 84) -/
def State.islandFaultFree (s : State) (fc : Nat) : State := let x := s.freeVal; x.2.islandFault fc x.1

/-- A brake fault (R416, R527): bstate 4, event 5, and the port stops with cause 12. -/
def State.brakeFault (s : State) (ch : Nat) : State :=
  if s.bstate ch = 5 then s
  else (((s.setIc ch { s.ic ch with sbc := none }).setBstate ch 4).evC (pSafe 0) 5).stopPort (ch / 8) 12 false

/-! Present stop causes (R408, R409). -/

/-- Does an input count as demand by itself: its qualified level, or a fault (R418, R419)? -/
def State.siDemand (s : State) (i : Nat) : Bool := !bitN (s.get (pSafe 2) SAFE_SIQ.q) i || bitN (s.get (pSafe 2) SAFE_SIF.f) i

/-- The demand of an input, its pair partner included (R420). -/
def State.inDemand (s : State) (i : Nat) : Bool :=
  s.siDemand i || (match (s.siCfg i).pair with | some j => s.siDemand j | none => false)

/-- The causes that an input presents to a port: code, and whether its kind is SS1. -/
def State.inputCauses (s : State) (p i : Nat) : List (Nat × Bool) :=
  let c := s.siCfg i
  if c.role = 0 ∨ bitN c.ports p = false then []
  else (if bitN (s.get (pSafe 2) SAFE_SIF.f) i then [(2, false)] else [])
    ++ (if inRange c.role 1 2 && s.inDemand i then [(3, c.role == 2)] else [])

/-- The causes that a channel presents to its port. -/
def State.chanCauses (s : State) (ch : Nat) : List (Nat × Bool) :=
  let c := s.chCfg ch
  (if s.flag (pSafe 3) (SAFE_CH.envstop ch) && c.envReact == 1 then [(6, false)] else [])
    ++ (s.ic ch).codes.map (fun k => (k, k != 10 && c.violReact == 1))

/-- The stop causes present at a port (R408). (DEDUCED, log 88) -/
def State.causesOf (s : State) (p : Nat) : List (Nat × Bool) :=
  (if s.islState = 4 then [] else [(1, false)]) ++ (List.range 32).flatMap (s.inputCauses p)
    ++ (if bitN (s.get (pLens 0) LENS_STOP.stop) p then
          [(4, s.isl.img.arms.any (fun a => a.arm == p && a.ss1))] else [])
    ++ ((s.isl.img.rx.filter (fun e => bitN e.2.ports p && !s.connOk e.1)).map (fun e => (5, e.2.ss1)))
    ++ (portChans p).flatMap s.chanCauses ++ (if p / 6 ∈ s.isl.brakeBad then [(12, false)] else [])

/-- The lower code of two. -/
def lowerCode (o : Option Nat) (c : Nat) : Option Nat := match o with | none => some c | some d => some (min c d)

/-- The cause that acts when several arrive (R408): STO goes before SS1, and the lowest code is recorded. -/
def governing (l : List (Nat × Bool)) : Option (Nat × Bool) :=
  match ((l.filter (fun c => !c.2)).map (·.1)).foldl lowerCode none with
  | some c => some (c, false)
  | none => (((l.filter (fun c => c.2)).map (·.1)).foldl lowerCode none).map (fun c => (c, true))

/-- Let listed causes act on a port. -/
def State.actOn (s : State) (p : Nat) (l : List (Nat × Bool)) : State :=
  match governing l with
  | none => s
  | some c => s.stopPort p c.1 c.2

/-! Monitoring functions (R411 to R413). -/

/-- The limit set in use of a channel's port. -/
def State.limitSet (s : State) (ch : Nat) : LimitSet := (s.chCfg ch).sets.getD (s.get (pSafe 2) (SAFE_PORT.lset (ch / 8))) {}

/-- Seconds between two edges. -/
def edgeSec (a b : Nat) : Rat := (((b - a : Nat) : Int) : Rat) / 400000000

/-- The SLS limit in force, in 2^-16 rev/s (R412). (DEDUCED, log 89) -/
def State.vlimNow (s : State) (ch : Nat) : Rat :=
  let vnew : Rat := ((((s.limitSet ch).vlim.getD (2 ^ 36 - 1) : Nat) : Int) : Rat)
  match (s.ic ch).ramp with
  | none => vnew
  | some (vold, tc) => maxR vnew (vold - (((s.chCfg ch).dsls * 65536 : Nat) : Int) * edgeSec tc s.now)

/-- The set that a port's limit-set inputs encode, or 3 when any of them has a fault (R412). -/
def State.inputSet (s : State) (p : Nat) : Nat :=
  let l := (List.range 32).filter (fun i => inRange (s.siCfg i).role 4 2 && bitN (s.siCfg i).ports p)
  let bit := fun (r : Nat) => l.any (fun i => (s.siCfg i).role == r && s.inDemand i == Config.limitBitOnDemand)
  if l.any (fun i => bitN (s.get (pSafe 2) SAFE_SIF.f) i) then 3 else b2n (bit 4) + 2 * b2n (bit 5)

/-- Bring a port's limit set to the largest request (R412): a stricter one starts the ramp, a looser one applies at once. -/
def State.updateLset (s : State) (p : Nat) : State :=
  let f := SAFE_PORT.lset p
  let old := s.get (pSafe 2) f
  let new := max (max (s.inputSet p) (s.get (pSafe 2) (SAFE_PORT.lreq p))) (s.ip p).mreq
  if new = old then s
  else
    let s1 := overAll (portChans p) s (fun ch t =>
      t.setIc ch { t.ic ch with ramp := if old < new then some (s.vlimNow ch, s.now) else none })
    s1.put (pSafe 2) f new

/-- Is the latest set of a monitored channel an encoder data fault (R411)? -/
def State.setFault (s : State) (ch : Nat) : Bool :=
  let c := s.chCfg ch
  s.setOld ch || (match (s.ic ch).set with
    | none => true
    | some x => x.unc || (!x.phist && s.pstate (ch / 8) != 0) || (c.sincos && (match x.a2 with
        | none => true
        | some a => decide (a < c.a2lo) || decide (c.a2hi < a))))

/-- The predicted stop position of SLP, in 2^-36 turn (R413). -/
def slpStop (p v : Int) (d : Nat) : Rat := (p : Rat) + 8 * (v : Rat) * absR (v : Rat) / ((d : Int) : Rat)

/-- Is SLP violated (R413)? Without a reference it is SLS at vhome. -/
def slpCode (c : ChCfg) (l : LimitSet) (x : LatchSet) : List Nat :=
  if !c.slp then []
  else if !x.ref then (if c.vhome < x.spd.natAbs then [7] else [])
  else
    let ps := slpStop x.pos x.spd c.dslp
    if x.pos < l.plo ∨ l.phi < x.pos ∨ ps < (l.plo : Rat) ∨ (l.phi : Rat) < ps then [8] else []

/-- The extreme position of SDI with a new position, and whether SDI is violated (R413). -/
def sdiStep (c : ChCfg) (dir : Nat) (ext : Option (Nat × Int)) (p : Int) : Option (Nat × Int) × Bool :=
  if !c.sdi || dir == 0 then (none, false)
  else
    let e := match ext with | some (d, m) => if d = dir then m else p | none => p
    if dir = 1 then (some (1, max e p), decide (p < e - (c.tolSdi : Int)))
    else (some (2, min e p), decide (e + (c.tolSdi : Int) < p))

/-- Judge a channel in an evaluation cycle (R411, R413). The plausibility of standstill under STO (R394) is kept as `moved`: the spec
gives it no reaction. (DESIGN CHOICE, log 111) -/
def State.judgeCh (s : State) (ch : Nat) : State :=
  let c := s.chCfg ch
  let r := s.ic ch
  if !c.watched then s
  else
    let ed := s.setFault ch
    let sd := match r.set with
      | none => (r.ext, false)
      | some x => sdiStep c (s.limitSet ch).dir r.ext x.pos
    let viols := match r.set with
      | none => []
      | some x => (if c.sls && decide (s.vlimNow ch < ((x.spd.natAbs : Int) : Rat)) then [7] else [])
          ++ slpCode c (s.limitSet ch) x ++ (if sd.2 then [9] else [])
    let s1 := s.setIc ch { r with codes := viols ++ (if ed then [10] else []), ext := sd.1,
                                  moved := s.pstate (ch / 8) == 0 && decide (c.vstand < s.absV ch) }
    let s2 := if ed then s1.put (pSafe 3) (SAFE_CH.edata ch) 1 else s1
    if viols.isEmpty then s2
    else
      let s3 := s2.put (pSafe 3) (SAFE_CH.viol ch) 1
      if r.codes.any (fun k => k != 10) then s3 else s3.evC (pSafe 0) 3

/-- SS1 of a port in an evaluation cycle (R407): the ramp, standstill for 10 ms, and ts1. (DEDUCED, log 89) -/
def State.ss1Port (s : State) (p : Nat) : State :=
  if s.pstate p ≠ 1 then s
  else
    let r := s.ip p
    let l := s.monitoredOf p
    let dt := edgeSec r.ts s.now
    let allowed := fun (ch : Nat) =>
      let c := s.chCfg ch
      maxR ((c.vstand : Int) : Rat) ((((r.v0.getD (ch % 8) 0 + c.tol1 : Nat) : Int) : Rat) - ((c.d1 * 65536 : Nat) : Int) * dt)
    if l.any (fun ch => decide (allowed ch < ((s.absV ch : Int) : Rat))) then s.enterSto p 11 11
    else
      let still := if s.stands p then some (r.still.getD s.now) else none
      let s1 := s.setIp p { r with still := still }
      let over1 := match still with | some t => decide (t + 10 * edgesMs ≤ s.now) | none => false
      if over1 || decide (r.ts + (s.portCfg p).ts1Ms * edgesMs ≤ s.now) then s1.enterSto p 15 r.by_ else s1

/-! The holding test (R417). -/

/-- An hour in edges. -/
abbrev edgesHour : Nat := 3600000 * edgesMs

/-- The holding test of a channel fails (R417): hres 2, bstate 4 and cause 12. -/
def State.holdFail (s : State) (ch : Nat) : State := (s.put (pSafe 3) (SAFE_CH.hres ch) 2).brakeFault ch

/-- The holding test in an evaluation cycle: it fails when the axis has moved by more than hwin. -/
def State.holdJudge (s : State) (ch : Nat) : State :=
  match (s.ic ch).set with
  | some x =>
    if s.get (pSafe 3) (SAFE_CH.hres ch) = 3 ∧ ((s.chCfg ch).hwin : Int) < ((x.pos - (s.ic ch).p0).natAbs : Nat) then s.holdFail ch else s
  | none => s

/-- Is a holding test of the port overdue by more than its grace time (R410, R417)? -/
def State.holdOverdue (s : State) (p : Nat) : Bool :=
  (portChans p).any (fun ch => (s.chCfg ch).brake
    && decide ((s.ic ch).passAt + ((s.chCfg ch).testH + (s.chCfg ch).graceH) * edgesHour < s.now))

/-! Acknowledges (R409). -/

/-- Faults of inputs and TP outputs clear at an acknowledge once their checks have passed for 100 ms, a faulted pair only after
both inputs have read demand and then healthy (R419, R420). -/
def State.ackInput (s : State) (i : Nat) : State :=
  let r : IslIn := Tab.rd s.isl.si i
  if bitN (s.get (pSafe 2) SAFE_SIF.f) i && decide (r.badAt + 100 * edgesMs ≤ s.now) && r.seq == 2
  then s.put (pSafe 2) SAFE_SIF.f (putBitN (s.get (pSafe 2) SAFE_SIF.f) i false) else s

def State.ackTp (s : State) (k : Nat) : State :=
  if Tab.rd s.isl.tpBad k + 100 * edgesMs ≤ s.now then
    s.put (pSafe 2) SAFE_OUT.tpfault (putBitN (s.get (pSafe 2) SAFE_OUT.tpfault) k false)
  else s

/-- An acknowledge of the listed ports (R409): faults that may clear are cleared, ackreq clears at each port without a present
cause, and the acknowledge is counted as taken or ignored. -/
def State.acknowledge (s : State) (l : List Nat) : State :=
  let p0 := pSafe 0
  let mine := fun (i : Nat) => l.any (fun p => bitN (s.siCfg i).ports p) || l.length == 12
  let s1 := overAll (List.range 8) (overAll ((List.range 32).filter mine) s (fun i t => t.ackInput i)) (fun k t => t.ackTp k)
  let clear := l.filter (fun p => (s1.causesOf p).isEmpty)
  let stuck := l.any (fun p => !(s1.causesOf p).isEmpty)
  let s2 := overAll clear s1 (fun p t =>
    overAll (portChans p) (t.put (pSafe 2) (SAFE_PORT.ackreq p) 0) (fun ch u => if u.bstate ch = 4 then u.setBstate ch 0 else u))
  let s3 := if stuck then s2.incMod p0 SAFE_ACK.ign else s2
  if !stuck || clear.any (fun p => s1.flag (pSafe 2) (SAFE_PORT.ackreq p)) then (s3.incMod p0 SAFE_ACK.acc).ev p0 9 else s3

/-! The mailbox (R427). -/

/-- Answer the waiting mailbox command: reason 0 means done. -/
def State.mbAnswer (s : State) (op reason : Nat) : State :=
  let p := pSafe 1
  let s1 := { s with isl := { s.isl with mb := none, mbTaken := false } }
  let s2 := ((s1.put p SAFE_MB_CMD.busy 0).put p SAFE_MB_RES.res (if reason = 0 then 1 else 2)).put p SAFE_MB_RES.op op
  ((s2.put p SAFE_MB_RES.reason reason).incMod p SAFE_MB_RES.seq).ev (pSafe 0) 7

/-- A port leaves STO for Run (R410, R405). -/
def State.leaveSto (s : State) (p : Nat) : State :=
  let s1 := { s with gateEn := if p ∈ s.gateEn then s.gateEn else p :: s.gateEn }
  let s2 := (s1.put (pSafe 2) SAFE_OUT.gen (setBitN (s.get (pSafe 2) SAFE_OUT.gen) p)).put (pSafe 2) (SAFE_PORT.pstate p) 2
  let s3 := overAll (portChans p) s2 (fun ch t =>
    ((t.setIc ch { t.ic ch with ext := none }).holdPads ch |>.put (pSafe 3) (SAFE_CH.viol ch) 0).put (pSafe 3) (SAFE_CH.edata ch) 0)
  (s3.ev (pSafe 0) 1).soUpdate

/-- Mailbox op 1 (R410). Encoder data that are not ready have their own reason. (DEDUCED, log 85) -/
def State.mbEnable (s : State) (p : Nat) : State :=
  if s.islState ≠ 4 then s.mbAnswer 1 1
  else if 12 ≤ p then s.mbAnswer 1 4
  else if s.pstate p = 2 then s.mbAnswer 1 0
  else if s.flag (pSafe 2) (SAFE_PORT.ackreq p) then s.mbAnswer 1 3
  else if s.pstate p = 1 ∨ (s.causesOf p).any (fun c => c.1 != 10) = true
      ∨ (List.range 32).any (fun i => (s.siCfg i).role == 3 && bitN (s.siCfg i).ports p && s.inDemand i) = true then s.mbAnswer 1 2
  else if (s.monitoredOf p).any (fun ch => s.setOld ch || !(match (s.ic ch).set with | some x => x.phist | none => false)) then
    s.mbAnswer 1 8
  else if (s.causesOf p).isEmpty = false ∨ s.causedNow p = true then s.mbAnswer 1 2
  else if s.holdOverdue p then s.mbAnswer 1 9
  else (s.leaveSto p).mbAnswer 1 0

/-- Mailbox op 2 (R408, R427). -/
def State.mbStop (s : State) (p : Nat) (ss1 : Bool) : State :=
  if s.islState ≠ 4 then s.mbAnswer 2 1
  else if 12 ≤ p then s.mbAnswer 2 4
  else (s.stopPort p 14 ss1).mbAnswer 2 0

/-- Mailbox op 3 (R415). -/
def State.mbRelease (s : State) (ch : Nat) : State :=
  if s.islState ≠ 4 then s.mbAnswer 3 1
  else if 96 ≤ ch ∨ s.bstate ch = 5 then s.mbAnswer 3 4
  else if s.pstate (ch / 8) ≠ 2 ∨ s.bstate ch ≠ 0 then s.mbAnswer 3 5
  else ((s.setIc ch { s.ic ch with pullAt := s.now }).setBstate ch 1).mbAnswer 3 0

/-- Mailbox op 4 (R415). (DEDUCED, log 85) -/
def State.mbApply (s : State) (ch : Nat) : State :=
  if s.islState ≠ 4 then s.mbAnswer 4 1
  else if 96 ≤ ch then s.mbAnswer 4 4
  else (s.applyBrake ch).mbAnswer 4 0

/-- Does the latest set of a channel comply with the FBK and PROF envelope values (R403)? -/
def State.setComplies (s : State) (ch : Nat) : Bool :=
  let p := pProf ch
  match (s.ic ch).set with
  | none => true
  | some x =>
    let lo := p72 (s.get p PROF_ENV_PLO_HI.p) (s.get p PROF_ENV_PLO_LO.p)
    let hi := p72 (s.get p PROF_ENV_PHI_HI.p) (s.get p PROF_ENV_PHI_LO.p)
    !s.fbkOutside ch x && (s.get p PROF_ENV_CTL.ven == 0 || decide (x.spd.natAbs ≤ s.get p PROF_ENV_V.vmax))
      && (s.get p PROF_ENV_CTL.pwin == 0 || !x.ref || (decide (lo ≤ x.pos) && decide (x.pos ≤ hi)))

/-- The block of order 4 of a channel ends, with its envblk bits (R403, R184). -/
def State.envRelease (s : State) (ch : Nat) : State :=
  let s1 := { s with envBlk := s.envBlk.filter (fun c => c != ch) }
  let s2 := (s1.setAl ch { s1.al ch with envOver := [0, 0, 0] }).put (pSafe 3) (SAFE_CH.envstop ch) 0
  ((s2.put (pAle ch) ALE_BLK.envblk 0).put (pFbk ch) FBK_BLK.envblk 0).put (pProf ch) PROF_BLK.envblk 0

/-- Mailbox op 5 (R403). -/
def State.mbRelEnv (s : State) (ch : Nat) : State :=
  if s.islState ≠ 4 then s.mbAnswer 5 1
  else if 96 ≤ ch then s.mbAnswer 5 4
  else if s.pstate (ch / 8) = 1 then s.mbAnswer 5 5
  else if (match (s.ic ch).env with | some t => decide (s.now < t + 10 * edgesMs) | none => false) = true
      ∨ s.setComplies ch = false then s.mbAnswer 5 6
  else (s.envRelease ch).mbAnswer 5 0

/-- Mailbox op 6 (R417). A channel without a latch set has no position to hold. (DEDUCED, log 85) -/
def State.mbHoldBegin (s : State) (ch : Nat) : State :=
  if s.islState ≠ 4 then s.mbAnswer 6 1
  else if 96 ≤ ch then s.mbAnswer 6 4
  else if s.bstate ch ≠ 0 ∨ s.pstate (ch / 8) ≠ 2 ∨ (s.chCfg ch).vstand < s.absV ch then s.mbAnswer 6 7
  else
    match (s.ic ch).set with
    | none => s.mbAnswer 6 8
    | some x => ((s.setIc ch { s.ic ch with testStart := s.now, p0 := x.pos }).put (pSafe 3) (SAFE_CH.hres ch) 3).mbAnswer 6 0

/-- Mailbox op 7 (R417): the test passes when tmin has passed. (DEDUCED, log 85) -/
def State.mbHoldEnd (s : State) (ch : Nat) : State :=
  if s.islState ≠ 4 then s.mbAnswer 7 1
  else if 96 ≤ ch then s.mbAnswer 7 4
  else if s.get (pSafe 3) (SAFE_CH.hres ch) ≠ 3 then s.mbAnswer 7 7
  else if (s.ic ch).testStart + (s.chCfg ch).tminMs * edgesMs ≤ s.now then
    ((((s.put (pSafe 3) (SAFE_CH.hres ch) 1).put (pSafe 3) (SAFE_CH.hdue ch) 0).setIc ch { s.ic ch with passAt := s.now }).evC
      (pSafe 0) 5).mbAnswer 7 0
  else (s.put (pSafe 3) (SAFE_CH.hres ch) 0).mbAnswer 7 0

/-- Mailbox op 8 (R409). -/
def State.mbAck (s : State) (p : Nat) : State :=
  if s.islState ≠ 4 then s.mbAnswer 8 1
  else if 12 ≤ p ∨ (s.portCfg p).softAck = false then s.mbAnswer 8 4
  else
    let s1 := s.acknowledge [p]
    s1.mbAnswer 8 (if s1.flag (pSafe 2) (SAFE_PORT.ackreq p) then 2 else 0)

/-- Mailbox op 9 (R412). -/
def State.mbLimit (s : State) (p k : Nat) : State :=
  if s.islState ≠ 4 then s.mbAnswer 9 1
  else if 12 ≤ p then s.mbAnswer 9 4
  else (s.setIp p { s.ip p with mreq := k }).mbAnswer 9 0

/-- The island takes the waiting mailbox command at a cycle start (R427). Op 1 is decided within its cycle, by ENABLE_PORT, so that a
cause that arrives in the cycle goes before it (R410), and at the next cycle start at the latest. (DEDUCED, log 85) -/
def State.mbTake (s : State) : State :=
  match s.isl.mb with
  | none => s
  | some (op, arg) =>
    if op = 1 then
      (if s.islState ≠ 4 ∨ s.isl.mbTaken = true then s.mbEnable (arg % 16) else { s with isl := { s.isl with mbTaken := true } })
    else if op = 2 then s.mbStop (arg % 16) (bitN arg 4)
    else if op = 3 then s.mbRelease (arg % 128)
    else if op = 4 then s.mbApply (arg % 128)
    else if op = 5 then s.mbRelEnv (arg % 128)
    else if op = 6 then s.mbHoldBegin (arg % 128)
    else if op = 7 then s.mbHoldEnd (arg % 128)
    else if op = 8 then s.mbAck (arg % 16)
    else if op = 9 then s.mbLimit (arg % 16) (arg / 16 % 4)
    else s.mbAnswer op (if s.islState = 4 then 4 else 1)


/-- A core writes SAFE_MB_CMD (R427, R429): with go = 1 and busy 0, the command waits for the next cycle start. -/
def State.mbWrite (s : State) (v : Nat) : State :=
  let p := pSafe 1
  let s1 := s.put p SAFE_MB_CMD.op (fldGet v SAFE_MB_CMD.op)
  if bitN v 35 then
    if s.flag p SAFE_MB_CMD.busy then s
    else
      let s2 := s1.put p SAFE_MB_CMD.busy 1
      { s2 with isl := { s2.isl with mb := some (fldGet v SAFE_MB_CMD.op, s.get p SAFE_MB_ARG.arg) } }
  else s1

/-! Evaluation cycles (R396, R414). -/

/-- Does an evaluation cycle start now (R396): cell time as the island receives it, no more than 10 ns late (R33), reaches a whole
multiple of 250 µs, or 260 µs of the island's own count have passed since the last start? (DESIGN CHOICE, log 81) -/
def State.cycleDue (s : State) : Bool :=
  s.islState != 0 &&
  ((decide (s.t64 4 % 16000000 < 800) && decide (s.isl.cycAt + 4 < s.now))
    || decide (s.isl.cycAt + 260 * edgesUs ≤ s.now))

/-- May the island take the waiting mailbox command now (R427), as the command given: op 1 in the cycle that has taken it (R410), any
other at a cycle start? (DEDUCED, log 85) -/
def State.mbIs (s : State) (op m v : Nat) : Bool :=
  match s.isl.mb with
  | none => false
  | some (o, a) => o == op && a % m == v && (if op = 1 then s.isl.mbTaken else s.cycleDue)

/-- The island takes the waiting latch set of a channel (R411, R414). (DESIGN CHOICE, log 82) -/
def State.takeSet (s : State) (ch : Nat) : State :=
  match (Tab.get (fun _ => none) s.stream ch : Option LatchSet) with
  | none => s
  | some x =>
    let s1 := s.setIc ch { s.ic ch with set := some x }
    { s1 with stream := Tab.drop s1.stream ch }

/-- A read-back failure of SO `k` (R421): it turns off, its sofault bit sets, and event 4 is recorded. -/
def State.soFail (s : State) (k : Nat) : State :=
  ((s.put (pSafe 2) SAFE_OUT.sofault (setBitN (s.get (pSafe 2) SAFE_OUT.sofault) k)).soUpdate).evC (pSafe 0) 4

/-- An input faults (R419, R420): its bit of SAFE_SIF sets, event 4 is recorded, and its ports stop with cause 2. -/
def State.siFault (s : State) (i : Nat) : State :=
  let r : IslIn := Tab.rd s.isl.si i
  let s1 := { s with isl := { s.isl with si := Tab.wr s.isl.si i { r with badAt := s.now } } }
  let s2 := s1.put (pSafe 2) SAFE_SIF.f (setBitN (s.get (pSafe 2) SAFE_SIF.f) i)
  let s3 := if bitN (s.get (pSafe 2) SAFE_SIF.f) i then s2 else s2.evC (pSafe 0) 4
  overAll ((List.range 12).filter (fun p => bitN (s.siCfg i).ports p)) s3 (fun p t => t.stopPort p 2 false)

/-- A read-back failure of TP `k` (R419): the output and every input of its group are faulted, with event 4. -/
def State.tpFail (s : State) (k : Nat) : State :=
  let s2 := overAll ((List.range 32).filter (fun i => (s.siCfg i).tpGroup == some k)) s (fun i t => t.siFault i)
  let s3 := { s2 with isl := { s2.isl with tpBad := Tab.wr s2.isl.tpBad k s.now } }
  (s3.put (pSafe 2) SAFE_OUT.tpfault (setBitN (s.get (pSafe 2) SAFE_OUT.tpfault) k)).evC (pSafe 0) 4

/-- The read-back of an evaluation cycle (R394, R406, R419, R421): `bad` numbers the output that differs: 64 + k is SO k, 72 + k is TP
k, and any other a pad-block line or gate-enable pair, whose mismatch is an island fault when it lasts two cycles. (DESIGN CHOICE, log 111) -/
def State.readBack (s : State) (bad : Option Nat) : State :=
  let stop := bad.filter (fun o => !inRange o 64 16)
  let s1 := { s with isl := { s.isl with mism := stop } }
  match bad with
  | none => s1
  | some o =>
    if inRange o 64 4 then s1.soFail (o - 64)
    else if inRange o 72 8 then s1.tpFail (o - 72)
    else if stop = some o ∧ s.isl.mism = some o then s1.islandFault 6 o
    else s1

/-- What an evaluation cycle does in state 4. The end of an SS1 is judged before the causes that stop its port, so that the lowest code
of the cycle is the one recorded (R408). -/
def State.evaluate (s : State) (bad : Option Nat) (nodesOn : List Nat) (lensOk : Bool) : State :=
  let s0 := s.readBack bad
  if s0.islState ≠ 4 then s0.mbTake else
  let s1 := s0.lensCycle lensOk
  let s2 := overAll (List.range 12) s1 (fun p t => t.updateLset p)
  let s3 := overAll (List.range 12) (overAll (List.range 96) s2 (fun ch t => t.judgeCh ch)) (fun p t => t.ss1Port p)
  let s4 := overAll (nodesOn.filter (fun ch => decide (ch < 96))) (overAll (List.range 96) s3 (fun ch t => t.holdJudge ch))
    (fun ch t => if t.bstate ch = 0 then t.brakeFault ch else t)
  let s5 := overAll (List.range 12) s4 (fun p t => t.actOn p (t.causesOf p))
  s5.soUpdate.mbTake

/-- EVALUATION_CYCLE (R396, R406 to R416, R427): `bad` names a stop-path output whose read-back differs, `nodesOn` the applied brakes
of which a switched node reads on, `lensOk` the result of the Lens's test case. -/
def doEvaluationCycle (bad : Option Nat) (nodesOn : List Nat) (lensOk : Bool) (s : State) : State :=
  if !s.cycleDue then s
  else
    let s1 := (s.incMod (pSafe 0) SAFE_STAT.cyc)
    let s2 := overAll (List.range 96) { s1 with isl := { s1.isl with cycAt := s.now } } (fun ch t => t.takeSet ch)
    if s.islState = 4 then s2.evaluate bad nodesOn lensOk else s2.mbTake

/-! Start, restart and the envelope lock (R398 to R401). -/

/-- The words of the envelope lock (R399). -/
def lockWords : List Nat :=
  (List.range 96).flatMap (fun ch =>
    [0x10, 0x20, 0x22, 0x23, 0x24, 0x08].map (fun o => pPwm ch + o) ++ [0x26, 0x27, 0x08].map (fun o => pAle ch + o)
      ++ [0x40, 0x41, 0x42, 0x43, 0x44, 0x45, 0x08].map (fun o => pFbk ch + o)
      ++ [0x40, 0x41, 0x42, 0x43, 0x44, 0x45, 0x46, 0x08].map (fun o => pProf ch + o))
    ++ [pSafe 0 + 8, pSafe 1 + 8, pSafe 2 + 8, pSafe 3 + 8]

/-- The SL fields of a word: FC_CFG whole in the pages where it is SL (R44), else the word's own. -/
def slFields (a : Nat) : List Fld :=
  if a % 0x100 = 8 then [FC_CFG.enable, FC_CFG.action, FC_CFG.n, FC_CFG.w] else (wordFields a).filter (fun f => f.acc == .sl)

/-- A word with its SL fields taken from another. -/
def slMerge (a old w : Nat) : Nat := (slFields a).foldl (fun v f => fldPut v f (fldGet w f)) old

/-- A value that a write keeps out of a word, whoever writes (R42, R138, R185, R232). -/
def slKept (a w : Nat) : Bool :=
  let o := a % 0x100
  if o = 8 then !fcOk w
  else match blkOf a with
    | .pwm _ => o == 0x20 && fldGet w PWM_TRIP.filt == 0
    | .ale _ => o == 0x26 && fldGet w ALE_ENV_I.nq == 0
    | .fbk _ => o == 0x45 && fldGet w FBK_ENV_CTL.dir == 3
    | _ => false

/-- The island writes the SL fields of one word (R399), whatever the state of the block (R125). -/
def State.slWrite (s : State) (a w : Nat) : State :=
  if slKept a w then s
  else match blkOf a with
  | .pwm ch => if a % 0x100 = 0x10 then doPwmCfgWrite iniIsland ch (word (slMerge a (s.reg a) w)) s else s.setReg a (slMerge a (s.reg a) w)
  | _ => s.setReg a (slMerge a (s.reg a) w)

/-- The image's value of a lock word: a word that the image does not name is written with its reset value. -/
def SafetyImage.slWord (m : SafetyImage) (a : Nat) : Nat := (paramOf (resetWord a) m.sl a).toNat

/-- The envelope lock (R399). (DESIGN CHOICE, log 83) -/
def State.envelopeLock (s : State) : State :=
  overAll lockWords { s with slLocked := true } (fun a t => t.slWrite a (s.isl.img.slWord a))

/-- The first word of the lock whose SL fields do not read back as the image gives them (R399). -/
def State.lockBad (s : State) : Option Nat :=
  lockWords.find? (fun a => (slFields a).any (fun f => fldGet (s.reg a) f != fldGet (s.isl.img.slWord a) f))

/-- A channel after the parameters are loaded (R398, R415, R431). An envelope block that stands is shown (R403). -/
def State.loadCh (s : State) (ch : Nat) : State :=
  let c := s.chCfg ch
  let p := pSafe 3
  let s1 := ((s.put p (SAFE_CH.sls ch) (b2n c.sls)).put p (SAFE_CH.slp ch) (b2n c.slp)).put p (SAFE_CH.sdi ch) (b2n c.sdi)
  let s2 := (s1.setBstate ch (if c.brake then 0 else 5)).put p (SAFE_CH.envstop ch) (b2n (s.blk4 ch))
  s2.setIc ch { passAt := s.now }

/-- A port after the parameters are loaded: STO with cause 0. -/
def State.loadPort (s : State) (p : Nat) : State :=
  let q := pSafe 2
  ((s.put q (SAFE_PORT.pstate p) 0).put q (SAFE_PORT.cause p) 0).put q (SAFE_PORT.ackreq p) (b2n (s.portCfg p).ackPowerUp)

/-- Steps 3 and 4 of R398, after the parameters are loaded: the tests and the envelope lock. (DESIGN CHOICE, log 84) -/
def State.islandTests (s : State) (testsOk echoOk : Bool) : State :=
  if !testsOk then s.islandFaultFree 2
  else
    let s1 := (s.setIslState 3).envelopeLock
    match s1.lockBad with
    | some a => s1.islandFault 5 a
    | none =>
    if !echoOk then s1.islandFaultFree 5
    else ((s1.put (pSafe 0) SAFE_STAT.locked 1).setIslState 4).soUpdate

/-- The island runs from a bank (R398). A mailbox command that waits is answered at its first cycle start (R427). -/
def State.islandRun (s : State) (b : Bool) (m : SafetyImage) (testsOk echoOk : Bool) : State :=
  let s1 := ((s.put (pSafe 0) SAFE_STAT.bank (b2n b)).put (pSafe 0) SAFE_IMG.idn (s.imgId (bankBase 1 b))).setIslState 2
  let s2 := { s1 with isl := { img := m, cycAt := s.now, startAt := s.now, mb := s.isl.mb, arr := s.isl.arr, erstUsed := s.isl.erstUsed,
                               brakeBad := s.isl.brakeBad } }
  let s3 := overAll (List.range 12) (overAll (List.range 96) s2 (fun ch t => t.loadCh ch)) (fun p t => t.loadPort p)
  s3.islandTests testsOk echoOk

/-- The start of the island (R398): the banks are checked, the one that R514 puts first before the other. -/
def State.islandBoot (s : State) (imgA imgB : SafetyImage) (ueA ueB testsOk echoOk : Bool) : State :=
  let s1 := overAll (List.range 4) (s.setIslState 1) (fun k t => t.put (pSafe k) PAGE_CTL.en 1)
  let okA := s.imgCode 1 false ueA == 1 && imgA.ok
  let okB := s.imgCode 1 true ueB == 1 && imgB.ok
  if okA && !(s.firstB 1 && okB) then s1.islandRun false imgA testsOk echoOk
  else if okB then s1.islandRun true imgB testsOk echoOk
  else s1.islandFaultFree 1

/-- ISLAND_START (R398): from state 0. -/
def doIslandStart (imgA imgB : SafetyImage) (ueA ueB testsOk echoOk : Bool) (s : State) : State :=
  if s.islState = 0 then s.islandBoot imgA imgB ueA ueB testsOk echoOk else s

/-- ISLAND_RESTART (R401): in state 5 without a hardware safe state, a hold of ERST over 5 s restarts the island from state 0; the
SL fields stay locked. (DEDUCED, log 88) -/
def doIslandRestart (imgA imgB : SafetyImage) (ueA ueB testsOk echoOk : Bool) (s : State) : State :=
  if s.islState ≠ 5 ∨ s.flag (pSafe 0) SAFE_STAT.hwsafe = true then s
  else
    let s1 := overAll [0, 1, 2, 3] s (fun k t => t.resetWords (pSafe k + 0x10) (pSafe k + 0x100) (fun _ => false))
    let s2 := overAll [0, 1, 2] s1 (fun k t => t.resetWords (pLens k + 0x10) (pLens k + 0x100) (fun a => a == pLens 0 + 0x13))
    { s2 with isl := { arr := s.isl.arr, erstUsed := true, brakeBad := s.isl.brakeBad } }.islandBoot imgA imgB ueA ueB testsOk echoOk

/-! Hardware safe state, notifications, tests and timers. -/

/-- HARDWARE_SAFE_STATE (R395): every pad blocked, every gate-enable and brake off, SO and TP off, without the island core; the
island takes the fault that the cause names. (DEDUCED, log 88) -/
def doHardwareSafeState (cause : Nat) (s : State) : State :=
  let s1 := s.put (pSafe 0) SAFE_STAT.hwsafe 1
  let s2 := s1.islandFaultFree cause
  overAll (List.range 96) { s2 with gateEn := [] }
    (fun ch t => t.applyBrake ch) |>.soUpdate

/-- ENVELOPE_NOTIFY (R402): envstop, event 2 and the channel's reaction. -/
def doEnvelopeNotify (ch : Nat) (s : State) : State :=
  if ch ∉ s.envNotify ∨ 96 ≤ ch then s
  else
    let s1 := { s with envNotify := s.envNotify.erase ch }
    let s2 := (s1.put (pSafe 3) (SAFE_CH.envstop ch) 1).ev (pSafe 0) 2
    if (s.chCfg ch).envReact = 1 then s2.stopPort (ch / 8) 6 false else s2.applyAfterSbc ch

/-- The port of a page, where it has one (R404). -/
def Blk.portOf (b : Blk) : Option Nat :=
  match b with
  | .pwm ch | .ale ch | .fbk ch | .prof ch => some (ch / 8)
  | .port p => some p
  | _ => none

/-- The reaction to a fault-counter notification of a block (R404). -/
def State.fcReaction (s : State) (b : Blk) : Nat := paramOf (if b.portOf.isSome then 1 else 0) s.isl.img.fcReact b.code

/-- FC_NOTIFY (R404): event 8 and the reaction that the image sets for the block type. -/
def doFcNotify (page : Nat) (s : State) : State :=
  if page ∉ s.fcNotify then s
  else
    let s1 := { s with fcNotify := s.fcNotify.erase page }.ev (pSafe 0) 8
    let k := s.fcReaction (blkOf page)
    if k = 1 then (match (blkOf page).portOf with | some p => s1.stopPort p 13 false | none => s1)
    else if k = 2 then overAll (List.range 12) s1 (fun p t => t.stopPort p 13 false)
    else s1

/-- BRAKE_PULL_IN_END (R415). -/
def doBrakePullInEnd (ch : Nat) (s : State) : State :=
  if ch < 96 ∧ s.bstate ch = 1 ∧ (s.ic ch).pullAt + (s.chCfg ch).tpullMs * edgesMs ≤ s.now then
    (s.setIc ch { s.ic ch with testAt := s.now }).setBstate ch 2
  else s

/-- SBC_DELAY_EXPIRE (R406, R415). -/
def doSbcDelayExpire (ch : Nat) (s : State) : State :=
  match (s.ic ch).sbc with
  | none => s
  | some t => if ch < 96 ∧ t ≤ s.now then s.applyBrake ch else s

/-- BRAKE_SWITCH_TEST (R416): every tbt while released, the switches in turn; a node that does not follow faults the brake. -/
def doBrakeSwitchTest (ch : Nat) (ok : Bool) (s : State) : State :=
  let r := s.ic ch
  if ch < 96 ∧ s.bstate ch = 2 ∧ r.testAt + (s.chCfg ch).tbtMs * edgesMs ≤ s.now then
    let s1 := s.setIc ch { r with testAt := s.now, low := !r.low }
    if ok then s1 else s1.brakeFault ch
  else s

/-- HOLDING_TEST_TIMEOUT (R417): 10 s without op 7. -/
def doHoldingTestTimeout (ch : Nat) (s : State) : State :=
  if ch < 96 ∧ s.get (pSafe 3) (SAFE_CH.hres ch) = 3 ∧ (s.ic ch).testStart + 10000 * edgesMs ≤ s.now then s.holdFail ch else s

/-- HOLDING_TEST_DUE (R417). -/
def doHoldingTestDue (ch : Nat) (s : State) : State :=
  if ch < 96 ∧ (s.chCfg ch).brake = true ∧ (s.ic ch).passAt + (s.chCfg ch).testH * edgesHour ≤ s.now then
    s.put (pSafe 3) (SAFE_CH.hdue ch) 1
  else s

/-- BRAKE_OVERCURRENT (R527): a switch that conducts above 4 A for 20 µs. -/
def doBrakeOvercurrent (ch : Nat) (s : State) : State := if ch < 96 ∧ inRange (s.bstate ch) 1 2 = true then s.brakeFault ch else s

/-! Safety inputs and outputs (R418 to R421). -/

/-- One sample of one input (R418): not counted while its group's mask is open, and qualified once it has held for the filter
time. -/
def State.siOne (s : State) (raw i : Nat) : State :=
  let c := s.siCfg i
  let masked := match c.tpGroup with | some g => decide (s.now < Tab.rd s.isl.mask g) | none => false
  if masked then s
  else
    let r : IslIn := Tab.rd s.isl.si i
    let lv := bitN raw i
    let r1 := if lv = r.level then { r with run := r.run + 1 } else { r with level := lv, run := 1 }
    let s1 := { s with isl := { s.isl with si := Tab.wr s.isl.si i r1 } }
    if c.filterUs ≤ 10 * (r1.run - 1) then s1.put (pSafe 2) SAFE_SIQ.q (putBitN (s.get (pSafe 2) SAFE_SIQ.q) i lv) else s1

/-- The pair bookkeeping of an input after a sample (R420): since when it differs from its partner, and the release sequence. -/
def State.siPair (s : State) (i : Nat) : State :=
  match (s.siCfg i).pair with
  | none => s
  | some j =>
    let r : IslIn := Tab.rd s.isl.si i
    let a := bitN (s.get (pSafe 2) SAFE_SIQ.q) i
    let b := bitN (s.get (pSafe 2) SAFE_SIQ.q) j
    let seq := if r.seq = 0 ∧ a = false ∧ b = false then 1 else if r.seq = 1 ∧ a = true ∧ b = true then 2 else r.seq
    let differ := if a = b then none else some (r.differ.getD s.now)
    { s with isl := { s.isl with si := Tab.wr s.isl.si i { r with seq := seq, differ := differ } } }

/-- SI_SAMPLE (R418, R420, R424): every 10 µs, every input is sampled and filtered, and a qualified demand acts at once. -/
def doSiSample (raw : Nat) (s : State) : State :=
  if s.isl.siAt.any (fun t => decide (s.now < t + 10 * edgesUs)) then s
  else
    let s0 := { s with isl := { s.isl with siAt := some s.now } }
    let s1 := s0.put (pSafe 2) SAFE_SI.raw raw
    let s2 := overAll (List.range 32) s1 (fun i t => t.siOne raw i)
    let s3 := overAll (List.range 32) s2 (fun i t => t.siPair i)
    overAll (List.range 12) s3 (fun p t => t.actOn p ((List.range 32).flatMap (t.inputCauses p)))

/-- Is a phase of the island's 10 ms test frame reached, in µs? The frames start with the island. (DESIGN CHOICE, log 111) -/
def State.phaseIs (s : State) (us : Nat) : Bool :=
  s.islState != 0 && (s.now - s.isl.startAt) % (10000 * edgesUs) == us * edgesUs

/-- Is the off-pulse of TP `k` due (R419)? In the hardware safe state the outputs are off (R395). -/
def State.tpDue (s : State) (k : Nat) : Bool :=
  decide (k < 8) && !s.flag (pSafe 0) SAFE_STAT.hwsafe && s.phaseIs (1250 * k) && decide (Tab.rd s.isl.mask k ≤ s.now)

/-- TEST_PULSE (R419): output `k` gives its off-pulse; the inputs of its group shall read 0 within the mask, those of other groups
that are healthy outside it shall not, and the output's read-back shall follow. -/
def doTestPulse (k inMask : Nat) (readOk : Bool) (s : State) : State :=
  if s.tpDue k = false then s
  else
    let until_ := s.now + (s.isl.img.tpwUs.getD k 250 + 50) * edgesUs
    let s1 := { s with isl := { s.isl with mask := Tab.wr s.isl.mask k until_ } }
    let fails := fun (i : Nat) => match (s.siCfg i).tpGroup with
      | none => false
      | some g => if g = k then readOk && bitN inMask i else !bitN inMask i && bitN (s.get (pSafe 2) SAFE_SI.raw) i
    let s2 := overAll ((List.range 32).filter fails) s1 (fun i t => t.siFault i)
    if readOk then s2 else s2.tpFail k

/-- PAIR_DISCREPANCY (R420): an input has differed from its partner for longer than tdisc; both are faulted. -/
def doPairDiscrepancy (i : Nat) (s : State) : State :=
  match (s.siCfg i).pair, (Tab.rd s.isl.si i : IslIn).differ with
  | some j, some t =>
    if i < 32 ∧ t + (s.siCfg i).tdiscMs * edgesMs < s.now then
      overAll [i, j] ((s.siFault i).siFault j) (fun k u =>
        { u with isl := { u.isl with si := Tab.wr u.isl.si k { (Tab.rd u.isl.si k : IslIn) with seq := 0 } } })
    else s
  | _, _ => s

/-- Is the off-pulse of SO `k` due (R421)? -/
def State.soDue (s : State) (k : Nat) : Bool :=
  decide (k < 4) && !s.flag (pSafe 0) SAFE_STAT.hwsafe && s.phaseIs (625 + 1250 * k) && decide (Tab.rd s.isl.soPulse k ≤ s.now)

/-- SO_TEST_PULSE (R421): SO `k` is off for 300 µs and read back; a read-back failure turns it off, sets its sofault bit and records
event 4. -/
def doSoTestPulse (k : Nat) (readOk : Bool) (s : State) : State :=
  if s.soDue k = false then s
  else
    let s1 := { s with isl := { s.isl with soPulse := Tab.wr s.isl.soPulse k (s.now + 300 * edgesUs) } }
    if readOk then s1 else s1.soFail k

/-- ERST_FALLING_EDGE (R409): 0.2 s to 2 s acknowledges every port; any other length is ignored and counted, but for a hold that
restarted the island. (DEDUCED, log 89) -/
def doErstFallingEdge (ms : Nat) (s : State) : State :=
  let s1 := { s with isl := { s.isl with erstUsed := false } }
  if s.isl.erstUsed then s1
  else if 200 ≤ ms ∧ ms ≤ 2000 then s1.acknowledge (List.range 12)
  else s1.incMod (pSafe 0) SAFE_ACK.ign

/-! Connections (R422). -/

/-- CRC-32 of a list of octets under a polynomial, most significant bit first, from a seed. -/
def crcBits (n poly c : Nat) : Nat :=
  match n with
  | 0 => c
  | m + 1 => crcBits m poly (if bitN c 31 then (c * 2 % 2 ^ 32) ^^^ poly else c * 2)

def crc32 (poly seed : Nat) (l : List Nat) : Nat := l.foldl (fun c o => crcBits 8 poly (c ^^^ (o % 256 * 2 ^ 24))) seed

/-- The safety CRC of a message's octets before it. (PRESUMED, log 86) -/
def safetyCrc (c : ConnCfg) (l : List Nat) : Nat := crc32 0xF4ACFB13 ((c.seed % 2 ^ 32) ^^^ (c.conn * 2 ^ 16 % 2 ^ 32)) l

/-- A message of a connection (R422). -/
def safetyMessage (c : ConnCfg) (num : Nat) (data : List Nat) : List Nat :=
  let l := (leOctets 2 c.conn).reverse ++ (leOctets 2 num).reverse ++ (leOctets 2 data.length).reverse ++ data
  l ++ (leOctets 4 (safetyCrc c l)).reverse

/-- The number and data of a message with the right connection, length and CRC. -/
def safetyParse (c : ConnCfg) (o : List Nat) : Option (Nat × List Nat) :=
  let n := beVal ((o.drop 4).take 2)
  let l := o.take (6 + n)
  if beVal (o.take 2) = c.conn ∧ n ≤ 1520 ∧ 10 + n ≤ o.length ∧ beVal ((o.drop (6 + n)).take 4) = safetyCrc c l then
    some (beVal ((o.drop 2).take 2), l.drop 6)
  else none

/-- Show the health of a receive connection. -/
def State.setConnOk (s : State) (k : Nat) (b : Bool) : State :=
  let f := if k < 32 then SAFE_CONN0.ok else SAFE_CONN1.ok
  s.put (pSafe 0) f (putBitN (s.get (pSafe 0) f) (k % 32) b)

/-- A connection fails (R422): when it was healthy, event 6 and its reaction with cause 5. -/
def State.connFail (s : State) (k : Nat) (c : ConnCfg) : State :=
  let r : IslConn := Tab.rd s.isl.conn k
  let s1 := { s with isl := { s.isl with conn := Tab.wr s.isl.conn k { r with goods := 0 } } }
  if s.connOk k then
    overAll ((List.range 12).filter (fun p => bitN c.ports p)) ((s1.setConnOk k false).evC (pSafe 0) 6)
      (fun p t => t.stopPort p 5 c.ss1)
  else s1

/-- A message of a connection arrives: good when its CRC matches, its number follows, and it comes within the watchdog time. (DEDUCED, log 87) -/
def State.connMessage (s : State) (k : Nat) (c : ConnCfg) (o : List Nat) : State :=
  let r : IslConn := Tab.rd s.isl.conn k
  match safetyParse c o with
  | none => s.connFail k c
  | some (num, data) =>
    let follows := match r.num with | none => true | some x => num == (x + 1) % 2 ^ 16
    let late := decide (1 ≤ r.goods) && decide (r.at_ + c.wdMs * edgesMs < s.now)
    let s0 := { s with isl := { s.isl with conn := Tab.wr s.isl.conn k { r with num := some num, at_ := s.now, goods := r.goods + 1 } } }
    if !follows || late then s0.connFail k c
    else
      let s1 := if 1 ≤ r.goods then s0.setConnOk k true else s0
      s1.isl.img.scanners.foldl (fun t (x : LensScanner) => if x.conn = k then t.scanMessage x.scan data else t) s1

/-- SAFETY_MESSAGE_RECEIVE (R422, R444): a payload of a slot reaches the connections that the image binds to it. -/
def doSafetyMessageReceive (slot : Nat) (octets : List Nat) (s : State) : State :=
  (s.isl.img.rx.filter (fun e => e.2.slot == slot)).foldl (fun t e => t.connMessage e.1 e.2 octets) s

/-- CONNECTION_WATCHDOG_EXPIRE (R422). -/
def doConnectionWatchdogExpire (k : Nat) (s : State) : State :=
  match s.isl.img.rx.find? (fun e => e.1 == k) with
  | none => s
  | some e => if s.connOk k && decide ((Tab.rd s.isl.conn k : IslConn).at_ + e.2.wdMs * edgesMs < s.now) then s.connFail k e.2 else s

/-- The present ring cycle, which numbers the sends of R422: none before the first cycle start. -/
def State.sendCycle (s : State) : Nat := match s.ring.cycle with | some c => c + 1 | none => 0

/-- SAFETY_MESSAGE_SEND (R422): once per ring cycle, the next message of a transmit connection is handed to its slot, with the safety CRC
seeded from the module's own serial. -/
def doSafetyMessageSend (k : Nat) (data : List Nat) (s : State) : State :=
  match s.isl.img.tx.find? (fun e => e.1 == k) with
  | none => s
  | some e =>
    if 1520 < data.length ∨ (Tab.get (fun _ => none) s.isl.txCyc k : Option Nat) = some s.sendCycle then s
    else
      let n := Tab.rd s.isl.txNum k
      let c := { e.2 with seed := s.get pSys SYS_SERIAL_LO.serial_lo }
      let s1 := { s with isl := { s.isl with txNum := Tab.wr s.isl.txNum k ((n + 1) % 2 ^ 16),
                                             txCyc := Tab.set (fun _ => none) s.isl.txCyc k (some s.sendCycle) } }
      { s1 with ring := { s1.ring with safety := Tab.wr s1.ring.safety e.2.slot (safetyMessage c n data) } }

/-- The words of the island's SRAM (R393). -/
abbrev islandWords : Nat := 2 ^ 18

/-- ISLAND_SRAM_SCRUB (R394): the next word in order is read; a corrected error is masked, an uncorrectable one is a fault with its
address. (DESIGN CHOICE, log 111) -/
def doIslandSramScrub (addr : Nat) (how : AccessEnd) (s : State) : State :=
  if addr ≠ s.isl.sramAt then s
  else
    let s1 := { s with isl := { s.isl with sramAt := (addr + 1) % islandWords } }
    if how.good then s1 else s1.islandFault 4 addr

/-! The two sides. -/

/-- The island treats a compute reset as a stop of every port with cause 0 (R507). -/
def State.islandStopAll (s : State) (code : Nat) : State := overAll (List.range 12) s (fun p t => t.stopPort p code false)

/-- What a read of a SAFE word shows where it is not held in it (R430, R431): chstop and hdue of a port, and the age of a set. -/
def State.safeView (s : State) (a : Nat) : Option Nat :=
  if pSafe 2 + 0x20 ≤ a ∧ a < pSafe 2 + 0x2C then
    let p := a - pSafe 2 - 0x20
    let chs := (List.range 8).foldl (fun w j =>
      if s.flag (pSafe 3) (SAFE_CH.envstop (8 * p + j)) || s.flag (pSafe 3) (SAFE_CH.viol (8 * p + j)) then w + 2 ^ j else w) 0
    let due := (portChans p).any (fun ch => s.flag (pSafe 3) (SAFE_CH.hdue ch))
    some (fldPut (fldPut (s.reg a) (SAFE_PORT.chstop p) chs) (SAFE_PORT.hdue p) (b2n due))
  else if pSafe 3 + 0x10 ≤ a ∧ a < pSafe 3 + 0x70 then
    let ch := a - pSafe 3 - 0x10
    some (fldPut (s.reg a) (SAFE_CH.age ch) (match s.setAge ch with | none => 0xFFFF | some e => satN 0xFFFF (e / edgesUs)))
  else none

/-! The commands. -/

/-- The command ISLAND_START (R398). -/
def execIslandStart (imgA imgB : SafetyImage) (ueA ueB testsOk echoOk : Bool) (s : State) : Out := .next (doIslandStart imgA imgB ueA ueB testsOk echoOk s)

/-- The command HARDWARE_SAFE_STATE (R395). -/
def execHardwareSafeState (cause : Nat) (s : State) : Out := .next (doHardwareSafeState cause s)

/-- The command ISLAND_RESTART (R401). -/
def execIslandRestart (imgA imgB : SafetyImage) (ueA ueB testsOk echoOk : Bool) (s : State) : Out := .next (doIslandRestart imgA imgB ueA ueB testsOk echoOk s)

/-- The command EVALUATION_CYCLE (R396). -/
def execEvaluationCycle (bad : Option Nat) (nodesOn : List Nat) (lensOk : Bool) (s : State) : Out := .next (doEvaluationCycle bad nodesOn lensOk s)

/-- The command ENVELOPE_NOTIFY (R402). -/
def execEnvelopeNotify (ch : Nat) (s : State) : Out := .next (doEnvelopeNotify ch s)

/-- The command FC_NOTIFY (R404). -/
def execFcNotify (page : Nat) (s : State) : Out := .next (doFcNotify page s)

/-- The command BRAKE_PULL_IN_END (R415). -/
def execBrakePullInEnd (ch : Nat) (s : State) : Out := .next (doBrakePullInEnd ch s)

/-- The command SBC_DELAY_EXPIRE (R415). -/
def execSbcDelayExpire (ch : Nat) (s : State) : Out := .next (doSbcDelayExpire ch s)

/-- The command BRAKE_SWITCH_TEST (R416). -/
def execBrakeSwitchTest (ch : Nat) (ok : Bool) (s : State) : Out := .next (doBrakeSwitchTest ch ok s)

/-- The command HOLDING_TEST_TIMEOUT (R417). -/
def execHoldingTestTimeout (ch : Nat) (s : State) : Out := .next (doHoldingTestTimeout ch s)

/-- The command HOLDING_TEST_DUE (R417). -/
def execHoldingTestDue (ch : Nat) (s : State) : Out := .next (doHoldingTestDue ch s)

/-- The command BRAKE_OVERCURRENT (R527). -/
def execBrakeOvercurrent (ch : Nat) (s : State) : Out := .next (doBrakeOvercurrent ch s)

/-- The command SI_SAMPLE (R418). -/
def execSiSample (raw : Nat) (s : State) : Out := .next (doSiSample raw s)

/-- The command TEST_PULSE (R419). -/
def execTestPulse (k inMask : Nat) (readOk : Bool) (s : State) : Out := .next (doTestPulse k inMask readOk s)

/-- The command PAIR_DISCREPANCY (R420). -/
def execPairDiscrepancy (i : Nat) (s : State) : Out := .next (doPairDiscrepancy i s)

/-- The command SO_TEST_PULSE (R421). -/
def execSoTestPulse (k : Nat) (readOk : Bool) (s : State) : Out := .next (doSoTestPulse k readOk s)

/-- The command ERST_FALLING_EDGE (R409). -/
def execErstFallingEdge (ms : Nat) (s : State) : Out := .next (doErstFallingEdge ms s)

/-- The command SAFETY_MESSAGE_RECEIVE (R422). -/
def execSafetyMessageReceive (slot : Nat) (octets : List Nat) (s : State) : Out := .next (doSafetyMessageReceive slot octets s)

/-- The command CONNECTION_WATCHDOG_EXPIRE (R422). -/
def execConnectionWatchdogExpire (k : Nat) (s : State) : Out := .next (doConnectionWatchdogExpire k s)

/-- The command SAFETY_MESSAGE_SEND (R422). -/
def execSafetyMessageSend (k : Nat) (data : List Nat) (s : State) : Out := .next (doSafetyMessageSend k data s)

/-- The command ISLAND_SRAM_SCRUB (R394). -/
def execIslandSramScrub (addr : Nat) (how : AccessEnd) (s : State) : Out := .next (doIslandSramScrub addr how s)

/-- The command ENABLE_PORT (R410): the island takes this mailbox op, which waits. -/
def execEnablePort (port : Nat) (s : State) : Out := .next (if s.mbIs 1 16 port then s.mbEnable port else s)

/-- The command STOP_PORT (R427): the island takes this mailbox op, which waits. -/
def execStopPort (port : Nat) (ss1 : Bool) (s : State) : Out := .next (if s.mbIs 2 32 (port + 16 * b2n ss1) then s.mbStop port ss1 else s)

/-- The command RELEASE_BRAKE (R415): the island takes this mailbox op, which waits. -/
def execReleaseBrake (ch : Nat) (s : State) : Out := .next (if s.mbIs 3 128 ch then s.mbRelease ch else s)

/-- The command APPLY_BRAKE (R415): the island takes this mailbox op, which waits. -/
def execApplyBrake (ch : Nat) (s : State) : Out := .next (if s.mbIs 4 128 ch then s.mbApply ch else s)

/-- The command RELEASE_ENVELOPE_STOP (R403): the island takes this mailbox op, which waits. -/
def execReleaseEnvelopeStop (ch : Nat) (s : State) : Out := .next (if s.mbIs 5 128 ch then (s.takeSet ch).mbRelEnv ch else s)

/-- The command HOLDING_TEST_BEGIN (R417): the island takes this mailbox op, which waits. -/
def execHoldingTestBegin (ch : Nat) (s : State) : Out := .next (if s.mbIs 6 128 ch then s.mbHoldBegin ch else s)

/-- The command HOLDING_TEST_END (R417): the island takes this mailbox op, which waits. -/
def execHoldingTestEnd (ch : Nat) (s : State) : Out := .next (if s.mbIs 7 128 ch then s.mbHoldEnd ch else s)

/-- The command ACKNOWLEDGE (R409): the island takes this mailbox op, which waits. -/
def execAcknowledge (port : Nat) (s : State) : Out := .next (if s.mbIs 8 16 port then s.mbAck port else s)

/-- The command REQUEST_LIMIT_SET (R412): the island takes this mailbox op, which waits. -/
def execRequestLimitSet (port set : Nat) (s : State) : Out := .next (if s.mbIs 9 64 (port + 16 * set) then s.mbLimit port set else s)

end Sys2Proof.Machine
end

