-- ==== Sys2Proof/Machine/Clock.lean ====
section
/-! DEFINITION. Clocks (R488 to R505, R522): sources and PLLs, the switching of CORE and FAB, throttling, spread, monitors and
fallback, dead domains, and clock gating. -/

namespace Sys2Proof.Machine

/-! Domains and sources. Domain 0 is CORE, 1 is FAB. -/

/-- The base offset of the fields of a domain's word: CLK_DOM_CORE's or CLK_DOM_FAB's. -/
def domFld (d : Nat) (f : Fld) : Fld := { f with off := 0x12 + d }

/-- The source in use by a domain. -/
def State.domCur (s : State) (d : Nat) : Nat := s.get pClk (domFld d CLK_DOM_CORE.cur)

/-- The target of the switch in progress of a domain. -/
def State.domTarget (s : State) (d : Nat) : Option Nat := Tab.get (fun _ => none) s.clk.sw d

/-- Begin or end a switch of a domain. -/
def State.setTarget (s : State) (d : Nat) (t : Option Nat) : State :=
  { s with clk := { s.clk with sw := Tab.set (fun _ => none) s.clk.sw d t } }

/-- The monitor of a source of a domain: IRC 1, PLL-C 2, PLL-F 3. -/
def srcMonitor (d src : Nat) : Nat := if src = 0 then 1 else 2 + d

/-- Did a monitor trip in the last 2 µs (R495)? -/
def State.tripped2us (s : State) (k : Nat) : Bool :=
  match (Tab.get (fun _ => none) s.clk.tripAt k : Option Nat) with
  | none => false
  | some t => decide (s.now < t + 2 * edgesUs)

/-- Is a source reserved (R522)? -/
def srcReserved (d src : Nat) : Bool := src == 3 || (d == 1 && src == 2)

/-- Is a source of a domain ready (R495)? -/
def State.srcReady (s : State) (d src : Nat) : Bool :=
  if src = 0 then s.flag pClk CLK_SRC.irc_rdy
  else bitN (s.get pClk CLK_PLL.lock) d && !s.tripped2us (srcMonitor d src)
    && !(d == 0 && src == 1 && s.flag pClk CLK_DOM_CORE.thr)

/-- A request to switch a domain (R493 to R495): refused with its code, or the switch begins and the domain stops. (DESIGN CHOICE, log 93) -/
def State.switchRequest (s : State) (d src : Nat) (checked : Bool) : State :=
  let res := domFld d CLK_DOM_CORE.res
  if 2 ≤ d ∨ srcReserved d src = true then s.ev pClk 1
  else
    let s1 := (s.put pClk (domFld d CLK_DOM_CORE.sw) (b2n checked)).put pClk (domFld d CLK_DOM_CORE.src) src
    if s.domStopped d ∨ s.srcReady d src = false then (s1.put pClk res 2).ev pClk 1
    else if checked ∧ s.get pSys SYS_BOOT.state = 3 ∧ s.get pSys SYS_BOOT.test = 0 then (s1.put pClk res 3).ev pClk 1
    else s1.setTarget d (some src)

/-- A write of CLK_DOM_CORE or CLK_DOM_FAB (R493 to R495, R522). -/
def State.domWrite (s : State) (d v : Nat) : State :=
  let src := fldGet v CLK_DOM_CORE.src
  if bitN v 35 then s.switchRequest d src (bitN v 34)
  else if srcReserved d src then s.ev pClk 1
  else (s.put pClk (domFld d CLK_DOM_CORE.sw) (b2n (bitN v 34))).put pClk (domFld d CLK_DOM_CORE.src) src

/-- SWITCH_DONE (R493, R494): the first edge of the new clock reaches the domain. (DESIGN CHOICE, log 93) -/
def doSwitchDone (fab : Bool) (s : State) : State :=
  let d := b2n fab
  match s.domTarget d with
  | none => s
  | some t =>
    let s1 := ((s.setTarget d none).put pClk (domFld d CLK_DOM_CORE.cur) t).put pClk (domFld d CLK_DOM_CORE.res) 1
    (s1.put pClk (domFld d CLK_DOM_CORE.fb) 0).ev pClk 0

/-- Has the throttling condition been absent for 10 s (R496)? (DEDUCED, log 90) -/
def State.coolLong (s : State) : Bool :=
  !s.flag pSys1 SYS_ENVST.thrc && s.clk.thrAt.all (fun t => decide (t + 10000000 * edgesUs ≤ s.now))

/-- THROTTLE_CHANGE (R496): thr sets while the throttling condition holds, and CORE moves from 1.2 GHz to 800 MHz; it clears once the
condition has been absent for 10 s, and a CORE that was moved returns to the source that src names. (DEDUCED, log 90) -/
def doThrottleChange (on : Bool) (s : State) : State :=
  if on = s.flag pClk CLK_DOM_CORE.thr ∨ (if on then s.flag pSys1 SYS_ENVST.thrc else s.coolLong) = false then s
  else
    let s1 := (s.put pClk CLK_DOM_CORE.thr (b2n on)).ev pClk 5
    let src := s.get pClk CLK_DOM_CORE.src
    if on then
      if s.domTarget 0 = some 1 ∨ (s.domStopped 0 = false ∧ s.domCur 0 = 1) then s1.setTarget 0 (some 2) else s1
    else if (s.domTarget 0 = some 2 ∨ (s.domStopped 0 = false ∧ s.domCur 0 = 2)) ∧ src ≠ 2 ∧ s1.srcReady 0 src = true then
      s1.setTarget 0 (some src)
    else s1

/-! Sources and PLLs (R488 to R490). PLLs are 0 PLL-C, 1 PLL-F, 2 PLL-P, 3 PLL-M. -/

/-- Does the PLL source of CORE or FAB drive it, now or after the switch in progress: the domain is not dead, nor held for the IRC? -/
def State.pllFeeds (s : State) (d : Nat) : Bool :=
  !s.clk.dead.contains d && !s.clk.held.contains d && (s.domCur d != 0 || (s.domTarget d).any (fun t => t != 0))

/-- Does a PLL drive a running domain (R489)? -/
def State.pllDrives (s : State) (k : Nat) : Bool :=
  if k < 2 then s.pllFeeds k
  else if k = 2 then s.flag pClk CLK_DOM_FIX.prun
  else s.flag pClk CLK_DOM_FIX.mrun

/-- CLK_PLL_WRITE (R489): enables, each kept with event 1 where its PLL drives a running domain; lost is W1C. -/
def doClkPllWrite (v : Word) (s : State) : State :=
  let en := fldGet v.toNat CLK_PLL.en
  let old := s.get pClk CLK_PLL.en
  let kept := fun (k : Nat) => bitN old k && !bitN en k && s.pllDrives k
  let new := (List.range 4).foldl (fun w k => if bitN en k || kept k then w + 2 ^ k else w) 0
  let lost := s.get pClk CLK_PLL.lost &&& (15 - fldGet v.toNat CLK_PLL.lost)
  let s1 := ((s.put pClk CLK_PLL.en new).put pClk CLK_PLL.lock (s.get pClk CLK_PLL.lock &&& new)).put pClk CLK_PLL.lost lost
  if (List.range 4).any kept then s1.ev pClk 1 else s1

/-- PLL_LOCK (R489): an enabled PLL on a ready XO-M locks. -/
def doPllLock (k : Nat) (s : State) : State :=
  if k < 4 ∧ bitN (s.get pClk CLK_PLL.en) k = true ∧ s.flag pClk CLK_SRC.xom_rdy = true then
    s.put pClk CLK_PLL.lock (setBitN (s.get pClk CLK_PLL.lock) k)
  else s

/-- XO_M_READY (R488). -/
def doXoMReady (s : State) : State := s.put pClk CLK_SRC.xom_rdy 1

/-- A domain falls back to the IRC (R499): cur = 0, fb = 1, and the NMI on every core with source 2. -/
def State.toIrc (s : State) (d : Nat) : State :=
  ((s.put pClk (domFld d CLK_DOM_CORE.cur) 0).put pClk (domFld d CLK_DOM_CORE.fb) 1).raiseNmiAll 2

/-- IRC_READY (R500): the IRC is ready; domains held stopped for it restart. -/
def doIrcReady (s : State) : State :=
  if s.get pClk CLK_SRC.irc_en = 0 then s
  else
    let s1 := { s.put pClk CLK_SRC.irc_rdy 1 with clk := { s.clk with held := [] } }
    overAll s.clk.held s1 (fun d t => t.toIrc d)

/-- The most that the pull may have moved since it was last known: 0.1 ppm/s, in 2⁻¹³ ppm (R490). -/
def State.pullReach (s : State) : Int := ((8192 * (s.now - s.clk.pullAt) / 4000000000 : Nat) : Int)

/-- A pull that XO-M may have now: no further from the last known one than its pace allows, and within ±60 ppm (R490). (DESIGN CHOICE, log 93) -/
def State.pullWithin (s : State) (pull : Int) : Int :=
  let p0 := s.getI pClk CLK_SRC.pull
  clampI (-491520) 491520 (p0 + clampI (-s.pullReach) s.pullReach (pull - p0))

/-- The pull in use (R490): where XO-M follows the input it is free within its pace and its range; else it stands. (DESIGN CHOICE, log 93) -/
def State.pullNow (s : State) : Int :=
  let p0 := s.getI pClk CLK_SRC.pull
  if s.clk.follow.isSome then s.pullWithin (p0 + Config.pullDrift s.now) else p0

/-- Does XO-M follow the 10 MHz input: disc and ext_ok are 1 (R490)? -/
def State.follows (s : State) : Bool := s.flag pClk CLK_SRC.disc && s.flag pClk CLK_SRC.ext_ok

/-- The words of CLK_SRC have changed (R490): XO-M begins to follow the input, or its pull freezes at its present value. (DESIGN CHOICE, log 93) -/
def State.followStep (s : State) : State :=
  if s.follows then
    (if s.clk.follow.isSome then s else { s with clk := { s.clk with follow := some s.now, pullAt := s.now } })
  else
    let s1 := s.put pClk CLK_SRC.dlock 0
    if s.clk.follow.isSome then
      let s2 := s1.putI pClk CLK_SRC.pull s.pullNow
      { s2 with clk := { s2.clk with follow := none } }
    else s1

/-- A write of CLK_SRC (R490, R500, R522). -/
def State.srcWrite (s : State) (v : Nat) : State :=
  let en := fldGet v CLK_SRC.irc_en
  let s1 := (s.put pClk CLK_SRC.irc_en en).put pClk CLK_SRC.disc (fldGet v CLK_SRC.disc)
  (if en = 0 then s1.put pClk CLK_SRC.irc_rdy 0 else s1).followStep

/-- EXT_OK_CHANGE (R490): the input arrives, or is lost and the pull stays as it is. (DESIGN CHOICE, log 93) -/
def doExtOkChange (ok : Bool) (s : State) : State := (s.put pClk CLK_SRC.ext_ok (b2n ok)).followStep

/-- DISCIPLINE_LOCK (R490): the rate has stayed within 0.01 ppm of the input for 10 s; the pull in use is known. -/
def doDisciplineLock (pull : Int) (s : State) : State :=
  if s.follows && s.clk.follow.any (fun t => decide (t + 10000000 * edgesUs ≤ s.now)) then
    let s1 := (s.putI pClk CLK_SRC.pull (s.pullWithin pull)).put pClk CLK_SRC.dlock 1
    { s1 with clk := { s1.clk with pullAt := s.now } }
  else s

/-- PCLK_RELEASE (R492): once, when PLL-P is locked; else event 1. -/
def doPclkRelease (s : State) : State :=
  if s.flag pClk CLK_DOM_FIX.prun || s.flag pClk CLK_DOM_FIX.pdead || !bitN (s.get pClk CLK_PLL.lock) 2 then s.ev pClk 1
  else s.put pClk CLK_DOM_FIX.prun 1

/-- MEMC_RELEASE (R492). -/
def doMemcRelease (s : State) : State :=
  if s.flag pClk CLK_DOM_FIX.mrun || s.flag pClk CLK_DOM_FIX.mdead || !bitN (s.get pClk CLK_PLL.lock) 3 then s.ev pClk 1
  else s.put pClk CLK_DOM_FIX.mrun 1

/-- A write of CLK_DOM_FIX. -/
def State.fixWrite (s : State) (v : Nat) : State :=
  let s1 := if bitN v 35 then doPclkRelease s else s
  if bitN v 34 then doMemcRelease s1 else s1

/-- CLK_SSC_WRITE (R497): a depth above 4 or a rate outside 250 to 400 keeps the word, with event 1; else the word is taken, and comes
into force with the next modulation period. -/
def doClkSscWrite (v : Word) (s : State) : State :=
  let n := v.toNat
  if 4 < fldGet n CLK_SSC.cdep ∨ 4 < fldGet n CLK_SSC.mdep ∨ fldGet n CLK_SSC.rate < 250 ∨ 400 < fldGet n CLK_SSC.rate then s.ev pClk 1
  else s.plainWrite iniBoot (pClk + 0x15) n

/-! Monitors (R498 to R502). Clocks are 0 XO-M, 1 IRC, 2 PLL-C, 3 PLL-F, 4 PLL-P, 5 PLL-M. -/

/-- A domain is dead (R501): it stops, with event 7; for PCLK, CORE and FAB the pads of every channel are blocked. -/
def State.domDead (s : State) (d : Nat) : State :=
  if d ∈ s.clk.dead then s
  else
    let s1 := { s with clk := { s.clk with dead := d :: s.clk.dead } }
    let s2 := if d = 2 then (s1.put pClk CLK_DOM_FIX.pdead 1).put pClk CLK_DOM_FIX.prun 0
      else if d = 3 then (s1.put pClk CLK_DOM_FIX.mdead 1).put pClk CLK_DOM_FIX.mrun 0 else s1
    let s3 := if d = 3 then s2 else overAll (List.range 96) s2 (fun ch t => (t.holdPads ch).padCause ch)
    s3.evC pClk 7

/-- FALLBACK (R499, R500, R502): a trip abandons a switch of the domain with res 2 and sends the domain to the IRC, at once or, when
it does not run, once it is ready. (DEDUCED, log 90) -/
def State.fallback (s : State) (d : Nat) : State :=
  let s1 := if (s.domTarget d).isSome then (s.setTarget d none).put pClk (domFld d CLK_DOM_CORE.res) 2 else s
  if s.flag pClk CLK_SRC.irc_rdy then s1.toIrc d
  else
    let s2 := s1.put pClk CLK_SRC.irc_en 1
    { s2 with clk := { s2.clk with held := if d ∈ s2.clk.held then s2.clk.held else d :: s2.clk.held } }

/-- What the trip of a clock does to CORE or FAB. -/
def State.tripDomain (s : State) (clk d : Nat) : State :=
  let uses := fun (src : Nat) => if src = 0 then clk == 1 else clk == 0 || clk == 2 + d
  let cur := uses (s.domCur d) && !s.clk.held.contains d
  let tgt := (s.domTarget d).any uses
  if s.clk.dead.contains d then s
  else if clk = 1 then
    (if cur && (s.domTarget d).isNone then s.domDead d
     else if tgt || cur then ((s.setTarget d none).put pClk (domFld d CLK_DOM_CORE.res) 2).domDead d else s)
  else if cur || tgt then s.fallback d
  else s

/-- What a trip records (R498): the monitor's words, event 2, and for a PLL its lock and event 4. -/
def State.tripRecord (s : State) (clk : Nat) (kind : Bool) : State :=
  let s1 := s.put pClk CLK_MON.trip (setBitN (s.get pClk CLK_MON.trip) (5 - clk))
  let s2 := (s1.inc pClk CLK_MON.count).put pClk CLK_MON_LAST.clk clk
  let s3 := (s2.put pClk CLK_MON_LAST.kind (b2n kind)).evC pClk 2
  { s3 with clk := { s3.clk with tripAt := Tab.set (fun _ => none) s3.clk.tripAt clk (some s.now) } }

/-- The lock that a trip takes from a PLL, or from the IRC its readiness (R498). -/
def State.tripLock (s : State) (clk : Nat) : State :=
  if clk = 0 then s
  else if clk = 1 then s.put pClk CLK_SRC.irc_rdy 0
  else
    let k := clk - 2
    let s1 := s.put pClk CLK_PLL.lock (putBitN (s.get pClk CLK_PLL.lock) k false)
    (s1.put pClk CLK_PLL.lost (setBitN (s.get pClk CLK_PLL.lost) k)).evC pClk 4

/-- PCLK and MEMC die with their PLL or XO-M (R501). -/
def State.tripFixed (s : State) (clk : Nat) : State :=
  let s1 := if clk = 0 ∨ clk = 4 then s.domDead 2 else s
  if clk = 0 ∨ clk = 5 then s1.domDead 3 else s1

/-- MONITOR_TRIP (R313, R498 to R502): the trip raises the NMI on every core, once no domain is held stopped for it. (DESIGN CHOICE, log 93) -/
def doMonitorTrip (clk : Nat) (kind : Bool) (s : State) : State :=
  if 6 ≤ clk ∨ (clk = 1 ∧ s.flag pClk CLK_SRC.irc_rdy = false) then s
  else
    let s1 := ((((s.tripRecord clk kind).tripLock clk).tripDomain clk 0).tripDomain clk 1).tripFixed clk
    if s1.clk.held.isEmpty then s1.raiseNmiAll 2 else s1

/-! Gating (R26, R49, R503 to R505). -/

/-- GATE_REQUEST (R49, R503): the block holds new accesses; a PWM page's gates are blocked at once, and a task that runs on a core
is preempted (R339). PAGE_CTL of a SAFE or LENS page is no word that cores may write (R30). -/
def State.gateRequest (s : State) (p : Nat) : State :=
  if (blkOf p).readOnly then s.refuse p
  else if !gateFirst p || s.flag p PAGE_CTL.gate_req then s
  else
    let s1 := { s.put p PAGE_CTL.gate_req 1 with gating := p :: s.gating }
    match blkOf p with
    | .pwm ch => (s1.holdPads ch).padCause ch
    | .core c => s1.loseCore c
    | _ => s1

/-- The accesses held for the block of a page. -/
def State.heldOf (s : State) (p : Nat) : List HeldAcc := s.held.filter (fun (h : HeldAcc) => gatePage h.addr == some p)

/-- A block's clock stops (R503, R49): gate_ack sets, held accesses end with a bus error, a carrier stops with event 14. -/
def State.gateStop (s : State) (p : Nat) : State :=
  let s1 := { s.put p PAGE_CTL.gate_ack 1 with
    gating := s.gating.filter (fun q => q != p), held := s.held.filter (fun (h : HeldAcc) => gatePage h.addr != some p) }
  match blkOf p with
  | .pwm ch => if s1.carrierRuns ch then s1.stopCarrier ch else s1
  | _ => s1

/-- Is a post one of a page of a block? -/
def Post.ofBlock (q : Post) (p : Nat) : Bool := q.cls == 1 && gatePage (pageAddr q.src) == some p

/-- Is an address one of a block: a word of its pages, or of a core's stores? -/
def inBlock (p a : Nat) : Bool :=
  match targetOf a with
  | .page => gatePage a == some p
  | .localData c | .localInst c => p == pCore c
  | _ => false

/-- Is a block idle (R503): no access to it is in progress, and no item of it waits in a crossing FIFO: no post of its pages, no latch
set of an FBK page, no access or preemption of a core? (DEDUCED, log 61) -/
def State.crossIdle (s : State) (p : Nat) : Bool :=
  (s.wire ++ s.heldPosts).all (fun q => !q.ofBlock p) && s.requests.all (fun a => !inBlock p a) &&
  (match blkOf p with
   | .fbk ch => (Tab.get (fun _ => none) s.stream ch : Option LatchSet).isNone
   | .core c => (s.co c).outs.isEmpty && !(s.co c).evict
   | _ => true)

/-- The items of a block in crossing FIFOs are gone (R505). -/
def State.dropItems (s : State) (p : Nat) : State :=
  let s1 := { s with wire := s.wire.filter (fun q => !q.ofBlock p), heldPosts := s.heldPosts.filter (fun q => !q.ofBlock p) }
  match blkOf p with
  | .fbk ch => { s1 with stream := Tab.drop s1.stream ch }
  | _ => s1

/-- GATE_ACK (R503): the block that was asked is idle. -/
def doGateAck (page : Nat) (s : State) : State :=
  let p := pageAddr page
  if s.gating.contains p && s.crossIdle p then s.gateStop p else s

/-- A forced gate of the block of a page (R505): in recovery only; what waits in a crossing FIFO is gone, and accesses in progress end
with a bus error at a block that stands gated. (DEDUCED, log 61) -/
def State.forcedGate (s : State) (page : Nat) : State :=
  match gatePage (pageAddr page) with
  | some p =>
    if s.get pSys SYS_BOOT.state = 1 then (((s.put p PAGE_CTL.gate_req 1).gateStop p).dropItems p).ev pClk 6 else s.ev pClk 1
  | none => s.ev pClk 1

/-- A write of CLK_FGATE (R505, R522). -/
def State.fgateWrite (s : State) (v : Nat) : State :=
  let s1 := s.put pClk CLK_FGATE.page (fldGet v CLK_FGATE.page)
  if bitN v 35 then s1.forcedGate (fldGet v CLK_FGATE.page) else s1

/-- The word of CLK_DOM_CORE or CLK_DOM_FAB that asks for a switch. -/
def domWord (src : Nat) (checked : Bool) : Word := word (2 ^ 35 + b2n checked * 2 ^ 34 + src * 2 ^ 32)

/-! The commands. -/

/-- The command CLK_PLL_WRITE (R489). -/
def execClkPllWrite (v : Word) (s : State) : Out := .next (s.writeWord 0 (pClk + 0x11) v (doClkPllWrite v))

/-- The command PLL_LOCK (R489). -/
def execPllLock (k : Nat) (s : State) : Out := .next (doPllLock k s)

/-- The command XO_M_READY (R488). -/
def execXoMReady (s : State) : Out := .next (doXoMReady s)

/-- The command IRC_READY (R500). -/
def execIrcReady (s : State) : Out := .next (doIrcReady s)

/-- The command EXT_OK_CHANGE (R490). -/
def execExtOkChange (ok : Bool) (s : State) : Out := .next (doExtOkChange ok s)

/-- The command DISCIPLINE_LOCK (R490). -/
def execDisciplineLock (pull : Int) (s : State) : Out := .next (doDisciplineLock pull s)

/-- The command PCLK_RELEASE (R492). -/
def execPclkRelease (s : State) : Out := .next (s.writeWord 0 (pClk + 0x14) (word (2 ^ 35)) (doPclkRelease))

/-- The command MEMC_RELEASE (R492). -/
def execMemcRelease (s : State) : Out := .next (s.writeWord 0 (pClk + 0x14) (word (2 ^ 34)) (doMemcRelease))

/-- The command STOP_SWITCH_RESTART (R493, R495): a request with sw = 0. -/
def execStopSwitchRestart (fab : Bool) (src : Nat) (s : State) : Out :=
  .next (s.writeWord 0 (pClk + 0x12 + b2n fab) (domWord src false) (fun t => t.switchRequest (b2n fab) src false))

/-- The command CHECKED_SWITCH (R494, R495): a request with sw = 1. -/
def execCheckedSwitch (fab : Bool) (src : Nat) (s : State) : Out :=
  .next (s.writeWord 0 (pClk + 0x12 + b2n fab) (domWord src true) (fun t => t.switchRequest (b2n fab) src true))

/-- The command SWITCH_DONE (R493). -/
def execSwitchDone (fab : Bool) (s : State) : Out := .next (doSwitchDone fab s)

/-- The command THROTTLE_CHANGE (R496). -/
def execThrottleChange (on : Bool) (s : State) : Out := .next (doThrottleChange on s)

/-- The command CLK_SSC_WRITE (R497). -/
def execClkSscWrite (v : Word) (s : State) : Out := .next (s.writeWord 0 (pClk + 0x15) v (doClkSscWrite v))

/-- The command MONITOR_TRIP (R498). -/
def execMonitorTrip (clk : Nat) (kind : Bool) (s : State) : Out := .next (doMonitorTrip clk kind s)

/-- The command FORCED_GATE (R505): a write of CLK_FGATE with go = 1. -/
def execForcedGate (page : Nat) (s : State) : Out :=
  .next (s.writeWord 0 (pClk + 0x19) (word (2 ^ 35 + page)) (fun t => (t.put pClk CLK_FGATE.page page).forcedGate page))

/-- The command GATE_REQUEST (R503). -/
def execGateRequest (page : Nat) (s : State) : Out := .next (s.gateRequest (pageAddr page))

/-- The command GATE_ACK (R503). -/
def execGateAck (page : Nat) (s : State) : Out := .next (doGateAck page s)

end Sys2Proof.Machine
end

