-- ==== Sys2Proof/Machine/Reset.lean ====
section
/-! DEFINITION. Power-on, module and compute reset (R506 to R508, R535, R540). -/

namespace Sys2Proof.Machine

/-- The MRAM words of the memory: they survive every reset. (DEDUCED, log 66) -/
def mramOnly (t : Tab Word) : Tab Word := t.filter (fun e => targetOf e.1 == .mram)

/-- The words of the MRAM write queue are written (R473, R535). (DEDUCED, log 65) -/
def drainMwq (l : List MramWr) (t : Tab Word) : Tab Word :=
  match l with
  | [] => t
  | r :: q => drainMwq q (Tab.set (fun _ => 0) t (mramBase + r.off) r.w)

/-- SYS_RCAUSE (R523). -/
def State.setCause (s : State) (kind src ot count : Nat) : State :=
  s.setReg (pSys + 0x1A) (kind * 2 ^ 34 + src * 2 ^ 32 + ot * 2 ^ 31 + count % 2 ^ 16)

/-- The machine as a power-on or module reset leaves it: the MRAM contents stand, and the waiting commands and the supply of free
values are no part of the module. (DEDUCED, log 66) -/
def State.hardReset (s : State) (mem : Tab Word) : State :=
  { State.reset with pending := s.pending, mem := mramOnly mem, freeN := s.freeN }

/-- POWER_ON_RESET (R506, R535): the MRAM write queue, which takes no new word, is drained. (DEDUCED, log 71) -/
def doPowerOnReset (s : State) : State := s.hardReset (drainMwq (s.mwq.take 16) s.mem)

/-- MODULE_RESET (R506, R508): as power-on, with SYS_RCAUSE.count kept and counted; `svc` for a command of the service port. (DEDUCED, log 71) -/
def doModuleReset (rec_ svc : Bool) (s : State) : State :=
  let s1 := (s.hardReset s.mem).setCause 2 (if svc then 3 else 2) 0 (s.get pSys SYS_RCAUSE.count + 1)
  { s1 with clk := { s1.clk with recov := rec_ } }

/-- A register word across a compute reset (R506): the island's pages stay, SL fields stay, all else returns to reset. (DEDUCED, log 17) -/
def acrossReset (a : Nat) (w : Word) : Word :=
  match blkOf a with
  | .safe0 | .safe1 | .safe2 | .safe3 | .lens0 | .lens1 | .lens2 => w
  | .pwm _ | .ale _ | .fbk _ | .prof _ => word (slMerge a (resetWord a).toNat w.toNat)
  | _ => resetWord a

/-- The register words across a compute reset, in canonical form. (DEDUCED, log 17) -/
def regsAcross (t : Tab Word) : Tab Word :=
  t.filterMap (fun e =>
    let v := acrossReset e.1 (Tab.get resetWord t e.1)
    if v = resetWord e.1 then none else some (e.1, v))

/-- COMPUTE_RESET (R506, R507, R540): everything outside the safety island is reset; the island stops every port with cause 0; a dead
PCLK, CORE or FAB stays dead (R501). (DEDUCED, log 17; DEDUCED, log 91) -/
def State.computeReset (s : State) (rec_ : Bool) (src ot : Nat) : State :=
  let s0 := s.islandStopAll 0
  let s1 : State := { State.reset with
    pending := s.pending, now := s.now, regs := regsAcross s0.regs, mem := mramOnly s.mem, isl := s0.isl, gateEn := s0.gateEn
    slLocked := s.slLocked, freeN := s0.freeN
    clk := { recov := rec_, hot := s.clk.hot, dead := s.clk.dead.filter (fun d => decide (d < 3)) } }
  ((s1.put pClk CLK_SRC.xom_rdy (s.get pClk CLK_SRC.xom_rdy)).put
    pClk CLK_DOM_FIX.pdead (s.get pClk CLK_DOM_FIX.pdead)).setCause 3 src ot (s.get pSys SYS_RCAUSE.count + 1)

/-- COMPUTE_RESET with its source: 1 over-temperature, 2 SYS_RST, 3 the service port (R523). -/
def doComputeReset (rec_ : Bool) (src : Nat) (s : State) : State :=
  if inRange src 1 3 then s.computeReset rec_ src (b2n (src == 1)) else s

/-- OVER_TEMPERATURE_SHUTDOWN (R540): at 125 °C a compute reset that holds until the die has cooled below 100 °C. -/
def doOverTemperatureShutdown (on : Bool) (s : State) : State :=
  if on = s.clk.hot then s
  else if on then
    let s1 := s.computeReset false 1 1
    { s1 with clk := { s1.clk with hot := true } }
  else { s with clk := { s.clk with hot := false } }

/-- A write of SYS_RST (R508): with the key and kind 1 or 2 the reset starts; any other write has no effect, with event 1. (DEDUCED, log 71) -/
def State.rstWrite (s : State) (v : Nat) : State :=
  if fldGet v SYS_RST.key ≠ 0xA5C then s.ev pSys 1
  else if fldGet v SYS_RST.kind = 1 then doModuleReset (fldGet v SYS_RST.rec_ == 1) false s
  else if fldGet v SYS_RST.kind = 2 then doComputeReset (fldGet v SYS_RST.rec_ == 1) 2 s
  else s.ev pSys 1

/-! The commands. -/

/-- The command POWER_ON_RESET (R506). -/
def execPowerOnReset (s : State) : Out := .next (doPowerOnReset s)

/-- The command MODULE_RESET (R508). -/
def execModuleReset (rec_ svc : Bool) (s : State) : Out := .next (doModuleReset rec_ svc s)

/-- The command COMPUTE_RESET (R507). -/
def execComputeReset (rec_ : Bool) (src : Nat) (s : State) : Out := .next (doComputeReset rec_ src s)

/-- The command OVER_TEMPERATURE_SHUTDOWN (R540). -/
def execOverTemperatureShutdown (on : Bool) (s : State) : Out := .next (doOverTemperatureShutdown on s)

end Sys2Proof.Machine
end

