-- ==== Sys2Proof/Machine/Flags.lean ====
section
/-! DEFINITION. Flag computations and rounding of the Synlen core: ST and FST (R275, R276), saturation (R284, R298) and the
rounding shifts of R302. -/

namespace Sys2Proof.Machine

/-- A result of the integer units: the value modulo 2^36, what c and v become (none: kept), and whether it saturated. -/
structure AluOut where
  r : Nat
  c : Option Bool := none
  v : Option Bool := none
  ss : Bool := false
  deriving DecidableEq, Repr

/-- The status register of a core. -/
def State.st (s : State) (c : Nat) : Nat := (s.cr c rST).toNat

/-- Carry (bit 1) of ST. -/
def State.carry (s : State) (c : Nat) : Bool := bitN (s.st c) 1

/-- Set a sticky bit of ST (R275). -/
def State.sticky (s : State) (c k : Nat) (b : Bool) : State :=
  if b then s.setCr c rST (word (setBitN (s.st c) k)) else s

/-- The four flags of ST from a result: z and n always, c and v where the result says (R284). -/
def State.setZncv (s : State) (c : Nat) (o : AluOut) : State :=
  let st := s.st c
  s.setCr c rST (word (st / 16 * 16 + b2n (o.r == 0) * 8 + b2n (bitN o.r 35) * 4 + b2n (o.c.getD (bitN st 1)) * 2
    + b2n (o.v.getD (bitN st 0))))

/-- Does an integer lie outside S36? -/
def outS36 (i : Int) : Bool := decide (i < -(2 ^ 35)) || decide (2 ^ 35 ≤ i)

/-- sat36 (R284). -/
def sat36 (i : Int) : Int := clampI (-(2 ^ 35)) (2 ^ 35 - 1) i

/-- x + y + carry in: the sum, the carry out of bit 35, and signed overflow (R284). -/
def addOut (x y cin : Nat) : AluOut :=
  { r := (x + y + cin) % 2 ^ 36, c := some (decide (2 ^ 36 ≤ x + y + cin)),
    v := some (outS36 (sint 36 x + sint 36 y + cin)) }

/-- x − y − (1 − cin): c is 1 when no borrow occurs (R284). -/
def subOut (x y cin : Nat) : AluOut :=
  { r := (x + 2 ^ 36 - y + cin + 2 ^ 36 - 1) % 2 ^ 36, c := some (decide (y + 1 ≤ x + cin)),
    v := some (outS36 (sint 36 x - sint 36 y - 1 + cin)) }

/-- A logic result: c and v become 0 (R284). -/
def logicOut (r : Nat) : AluOut := { r := r, c := some false, v := some false }

/-- A result that sets z and n only (R284). -/
def plainOut (r : Nat) : AluOut := { r := r }

/-- A saturating result: v and ss record the saturation (R284). -/
def satOut (i : Int) : AluOut := { r := unsint 36 (sat36 i), v := some (outS36 i), ss := outS36 i }

/-- The arithmetic right shift with rounding of R302: 0 toward −∞, 1 to nearest with ties toward +∞, 2 to nearest even. -/
def roundShift (rnd sh : Nat) (i : Int) : Int :=
  let q := i / 2 ^ sh
  let r := i % 2 ^ sh
  if rnd = 0 then q
  else if rnd = 1 then (if 2 ^ sh ≤ 2 * r then q + 1 else q)
  else if 2 ^ sh < 2 * r ∨ (2 ^ sh = 2 * r ∧ q % 2 = 1) then q + 1
  else q

/-- Leading zeros of a 36-bit word (R284). -/
def clz36 (x : Nat) : Nat := if x = 0 then 36 else 35 - Nat.log2 x

/-- The number of 1 bits of a word below bit `n`. -/
def popCount (n x : Nat) : Nat :=
  match n with
  | 0 => 0
  | k + 1 => b2n (bitN x k) + popCount k x

/-- Record floating-point flags in FST; they are sticky (R276, R305). -/
def State.fflags (s : State) (c fl : Nat) : State := s.setCr c rFST (word ((s.cr c rFST).toNat ||| fl))

/-- The rounding in use: FST.rm for 0, and else the mode the instruction names (R304). -/
def State.rmode (s : State) (c rm : Nat) : Nat := if rm = 0 then (s.cr c rFST).toNat / 2 ^ 8 % 4 else rm - 1

/-- The value of an accumulator: 80 bits, signed, in parts x, h and l (R273). -/
def State.acc (s : State) (c k : Nat) : Int :=
  sint 80 ((s.cr c (rAx k)).toNat % 256 * 2 ^ 72 + (s.cr c (rAh k)).toNat * 2 ^ 36 + (s.cr c (rAl k)).toNat)

/-- Write the 80 bits of an accumulator. -/
def State.setAcc (s : State) (c k : Nat) (i : Int) : State :=
  let n := unsint 80 i
  ((s.setCr c (rAx k) (word (n / 2 ^ 72))).setCr c (rAh k) (word (n / 2 ^ 36 % 2 ^ 36))).setCr c (rAl k) (word (n % 2 ^ 36))

/-- Write an exact result to an accumulator: it saturates at 80 bits and ST.as bit k sets (R298). -/
def State.setAccSat (s : State) (c k : Nat) (i : Int) : State :=
  (s.setAcc c k (clampI (-(2 ^ 79)) (2 ^ 79 - 1) i)).sticky c (32 + k) (decide (i < -(2 ^ 79)) || decide (2 ^ 79 ≤ i))

end Sys2Proof.Machine
end

