-- ==== Sys2Proof/Machine/SynlenAlu.lean ====
section
/-! DEFINITION. The integer instructions of the Synlen core (R284 to R287): ALU, shifts and bit fields, multiply and divide,
and immediates. -/

namespace Sys2Proof.Machine

/-- Retire an instruction that writes Gd and sets flags of ST. -/
def State.aluDone (s : State) (c d : Nat) (o : AluOut) : State :=
  (((s.setG c d o.r).setZncv c o).sticky c 31 o.ss).advance c

/-- Retire an instruction that writes Gd and sets no flags. -/
def State.regDone (s : State) (c d r : Nat) : State := (s.setG c d r).advance c

/-- A three-register instruction whose result sets flags. -/
def State.alu3 (s : State) (c : Nat) (i : Instr) (d a b : Nat) (f : Nat → Nat → AluOut) : State :=
  s.instr c i true [d, a, b] (fun u => u.aluDone c d (f (u.g c a) (u.g c b)))

/-- A three-register instruction that sets no flags. -/
def State.reg3 (s : State) (c : Nat) (i : Instr) (d a b : Nat) (f : Nat → Nat → Nat) : State :=
  s.instr c i true [d, a, b] (fun u => u.regDone c d (f (u.g c a) (u.g c b)))

/-- A two-register instruction that sets no flags. -/
def State.reg2 (s : State) (c : Nat) (i : Instr) (d a : Nat) (f : Nat → Nat) : State :=
  s.instr c i true [d, a] (fun u => u.regDone c d (f (u.g c a)))

/-! The integer ALU (R284). -/

/-- ADD: Gd ← Ga + Gb. -/
def execAdd (c d a b : Nat) (s : State) : Out := .next <| s.alu3 c (.add c d a b) d a b (fun x y => addOut x y 0)

/-- SUB: Gd ← Ga − Gb. -/
def execSub (c d a b : Nat) (s : State) : Out := .next <| s.alu3 c (.sub c d a b) d a b (fun x y => subOut x y 1)

/-- ADDC: Gd ← Ga + Gb + c. -/
def execAddc (c d a b : Nat) (s : State) : Out := .next <|
  s.alu3 c (.addc c d a b) d a b (fun x y => addOut x y (b2n (s.carry c)))

/-- SUBC: Gd ← Ga − Gb − 1 + c. -/
def execSubc (c d a b : Nat) (s : State) : Out := .next <|
  s.alu3 c (.subc c d a b) d a b (fun x y => subOut x y (b2n (s.carry c)))

/-- AND. -/
def execAnd (c d a b : Nat) (s : State) : Out := .next <| s.alu3 c (.and c d a b) d a b (fun x y => logicOut (x &&& y))

/-- OR. -/
def execOr (c d a b : Nat) (s : State) : Out := .next <| s.alu3 c (.or c d a b) d a b (fun x y => logicOut (x ||| y))

/-- XOR. -/
def execXor (c d a b : Nat) (s : State) : Out := .next <| s.alu3 c (.xor c d a b) d a b (fun x y => logicOut (x ^^^ y))

/-- ANDN: Gd ← Ga & ~Gb. -/
def execAndn (c d a b : Nat) (s : State) : Out := .next <|
  s.alu3 c (.andn c d a b) d a b (fun x y => logicOut (x &&& (2 ^ 36 - 1 - y)))

/-- MIN: the signed minimum. -/
def execMin (c d a b : Nat) (s : State) : Out := .next <|
  s.alu3 c (.min c d a b) d a b (fun x y => plainOut (if sint 36 x ≤ sint 36 y then x else y))

/-- MAX: the signed maximum. -/
def execMax (c d a b : Nat) (s : State) : Out := .next <|
  s.alu3 c (.max c d a b) d a b (fun x y => plainOut (if sint 36 x ≤ sint 36 y then y else x))

/-- MINU: the unsigned minimum. -/
def execMinu (c d a b : Nat) (s : State) : Out := .next <|
  s.alu3 c (.minu c d a b) d a b (fun x y => plainOut (if x ≤ y then x else y))

/-- MAXU: the unsigned maximum. -/
def execMaxu (c d a b : Nat) (s : State) : Out := .next <|
  s.alu3 c (.maxu c d a b) d a b (fun x y => plainOut (if x ≤ y then y else x))

/-- ADDS: the saturating sum. -/
def execAdds (c d a b : Nat) (s : State) : Out := .next <|
  s.alu3 c (.adds c d a b) d a b (fun x y => satOut (sint 36 x + sint 36 y))

/-- SUBS: the saturating difference. -/
def execSubs (c d a b : Nat) (s : State) : Out := .next <|
  s.alu3 c (.subs c d a b) d a b (fun x y => satOut (sint 36 x - sint 36 y))

/-- ABSS: the saturating absolute value. -/
def execAbss (c d a : Nat) (s : State) : Out := .next <|
  s.alu3 c (.abss c d a) d a 0 (fun x _ => satOut (sint 36 x).natAbs)

/-- SLT: 1 when Ga < Gb signed. -/
def execSlt (c d a b : Nat) (s : State) : Out := .next <|
  s.alu3 c (.slt c d a b) d a b (fun x y => plainOut (b2n (decide (sint 36 x < sint 36 y))))

/-- SLTU: 1 when Ga < Gb unsigned. -/
def execSltu (c d a b : Nat) (s : State) : Out := .next <|
  s.alu3 c (.sltu c d a b) d a b (fun x y => plainOut (b2n (decide (x < y))))

/-- CLZ: leading zeros of Ga. -/
def execClz (c d a : Nat) (s : State) : Out := .next <| s.alu3 c (.clz c d a) d a 0 (fun x _ => plainOut (clz36 x))

/-- POPC: the number of 1 bits in Ga. -/
def execPopc (c d a : Nat) (s : State) : Out := .next <| s.alu3 c (.popc c d a) d a 0 (fun x _ => plainOut (popCount 36 x))

/-! Shifts and bit fields (R285). -/

/-- Shift left: 0 for amounts of 36 or more. -/
def shl36 (x n : Nat) : Nat := x * 2 ^ n % 2 ^ 36

/-- Logical shift right: 0 for amounts of 36 or more. -/
def shr36 (x n : Nat) : Nat := x / 2 ^ n

/-- Arithmetic shift right: copies of the sign bit for amounts of 36 or more. -/
def sar36 (x n : Nat) : Nat := unsint 36 (sint 36 x / 2 ^ n)

/-- Rotate left by the amount modulo 36. -/
def rol36 (x n : Nat) : Nat := x * 2 ^ (n % 36) % 2 ^ 36 + x / 2 ^ (36 - n % 36)

/-- SLL: shift left by Gb[5:0]. -/
def execSll (c d a b : Nat) (s : State) : Out := .next <| s.reg3 c (.sll c d a b) d a b (fun x y => shl36 x (y % 64))

/-- SRL: shift right by Gb[5:0]. -/
def execSrl (c d a b : Nat) (s : State) : Out := .next <| s.reg3 c (.srl c d a b) d a b (fun x y => shr36 x (y % 64))

/-- SRA: arithmetic shift right by Gb[5:0]. -/
def execSra (c d a b : Nat) (s : State) : Out := .next <| s.reg3 c (.sra c d a b) d a b (fun x y => sar36 x (y % 64))

/-- ROL: rotate left by Gb[5:0]. -/
def execRol (c d a b : Nat) (s : State) : Out := .next <| s.reg3 c (.rol c d a b) d a b (fun x y => rol36 x (y % 64))

/-- SLLI: shift left by an immediate. -/
def execSlli (c d a sh : Nat) (s : State) : Out := .next <| s.reg2 c (.slli c d a sh) d a (fun x => shl36 x sh)

/-- SRLI: shift right by an immediate. -/
def execSrli (c d a sh : Nat) (s : State) : Out := .next <| s.reg2 c (.srli c d a sh) d a (fun x => shr36 x sh)

/-- SRAI: arithmetic shift right by an immediate. -/
def execSrai (c d a sh : Nat) (s : State) : Out := .next <| s.reg2 c (.srai c d a sh) d a (fun x => sar36 x sh)

/-- ROLI: rotate left by an immediate. -/
def execRoli (c d a sh : Nat) (s : State) : Out := .next <| s.reg2 c (.roli c d a sh) d a (fun x => rol36 x sh)

/-- EXT: a bit field of Ga, zero-extended. -/
def execExt (c d a pos len : Nat) (s : State) : Out := .next <|
  s.reg2 c (.ext c d a pos len) d a (fun x => x / 2 ^ pos % 2 ^ len)

/-- EXTS: a bit field of Ga, sign-extended. -/
def execExts (c d a pos len : Nat) (s : State) : Out := .next <|
  s.reg2 c (.exts c d a pos len) d a (fun x => unsint 36 (sint len (x / 2 ^ pos % 2 ^ len)))

/-- INS: a bit field of Gd replaced by the low bits of Ga, the other bits of Gd kept. -/
def execIns (c d a pos len : Nat) (s : State) : Out := .next <|
  s.reg3 c (.ins c d a pos len) d a d (fun x y =>
    y % 2 ^ pos + x % 2 ^ len * 2 ^ pos + y / 2 ^ (pos + len) * 2 ^ (pos + len))

/-! Multiply and divide (R286). -/

/-- MUL: bits 35:0 of the product. -/
def execMul (c d a b : Nat) (s : State) : Out := .next <| s.reg3 c (.mul c d a b) d a b (fun x y => x * y % 2 ^ 36)

/-- MULH: bits 71:36 of the signed product. -/
def execMulh (c d a b : Nat) (s : State) : Out := .next <|
  s.reg3 c (.mulh c d a b) d a b (fun x y => unsint 36 (sint 36 x * sint 36 y / 2 ^ 36))

/-- MULHU: bits 71:36 of the unsigned product. -/
def execMulhu (c d a b : Nat) (s : State) : Out := .next <| s.reg3 c (.mulhu c d a b) d a b (fun x y => x * y / 2 ^ 36)

/-- MULF: the signed product shifted right with rounding and saturated. -/
def execMulf (c d a b rnd sh : Nat) (s : State) : Out := .next <|
  s.instr c (.mulf c d a b rnd sh) true [d, a, b] (fun u =>
    let i := roundShift rnd sh (sint 36 (u.g c a) * sint 36 (u.g c b))
    ((u.setG c d (unsint 36 (sat36 i))).sticky c 31 (outS36 i)).advance c)

/-- A division: the result, and ST.dz for a zero divisor. -/
def State.divide (s : State) (c : Nat) (i : Instr) (d a b : Nat) (f : Nat → Nat → Nat) : State :=
  s.instr c i true [d, a, b] (fun u =>
    ((u.setG c d (f (u.g c a) (u.g c b))).sticky c 30 (u.g c b == 0)).advance c)

/-- DIV: the signed quotient, rounded toward zero. -/
def execDiv (c d a b : Nat) (s : State) : Out := .next <|
  s.divide c (.div c d a b) d a b (fun x y => if y = 0 then 2 ^ 36 - 1 else unsint 36 ((sint 36 x).tdiv (sint 36 y)))

/-- DIVU: the unsigned quotient. -/
def execDivu (c d a b : Nat) (s : State) : Out := .next <|
  s.divide c (.divu c d a b) d a b (fun x y => if y = 0 then 2 ^ 36 - 1 else x / y)

/-- REM: the signed remainder, with the sign of the dividend. -/
def execRem (c d a b : Nat) (s : State) : Out := .next <|
  s.divide c (.rem c d a b) d a b (fun x y => if y = 0 then x else unsint 36 ((sint 36 x).tmod (sint 36 y)))

/-- REMU: the unsigned remainder. -/
def execRemu (c d a b : Nat) (s : State) : Out := .next <|
  s.divide c (.remu c d a b) d a b (fun x y => if y = 0 then x else x % y)

/-! Immediates (R287). -/

/-- The S22 immediate, sign-extended to 36 bits. -/
def imm22 (imm : BitVec 22) : Nat := unsint 36 imm.toInt

/-- ADDI: Gd ← Ga + imm. -/
def execAddi (c d a : Nat) (imm : BitVec 22) (s : State) : Out := .next <|
  s.reg2 c (.addi c d a imm) d a (fun x => (x + imm22 imm) % 2 ^ 36)

/-- ANDI: Gd ← Ga & imm. -/
def execAndi (c d a : Nat) (imm : BitVec 22) (s : State) : Out := .next <|
  s.reg2 c (.andi c d a imm) d a (fun x => x &&& imm22 imm)

/-- ORI: Gd ← Ga | imm. -/
def execOri (c d a : Nat) (imm : BitVec 22) (s : State) : Out := .next <|
  s.reg2 c (.ori c d a imm) d a (fun x => x ||| imm22 imm)

/-- XORI: Gd ← Ga ^ imm. -/
def execXori (c d a : Nat) (imm : BitVec 22) (s : State) : Out := .next <|
  s.reg2 c (.xori c d a imm) d a (fun x => x ^^^ imm22 imm)

/-- SLTI: 1 when Ga < imm, signed. -/
def execSlti (c d a : Nat) (imm : BitVec 22) (s : State) : Out := .next <|
  s.reg2 c (.slti c d a imm) d a (fun x => b2n (decide (sint 36 x < imm.toInt)))

/-- LI: with h, Gd ← imm shifted left by 18; without, Gd[17:0] ← imm and the rest is kept. -/
def execLi (c d : Nat) (h : Bool) (imm : BitVec 18) (s : State) : Out := .next <|
  s.reg2 c (.li c d h imm) d d (fun x => if h then imm.toNat * 2 ^ 18 else x / 2 ^ 18 * 2 ^ 18 + imm.toNat)

end Sys2Proof.Machine
end

