-- ==== Sys2Proof/Machine/SynlenFloat.lean ====
section
/-! DEFINITION. The F36 and binary64 instructions of the Synlen core (R304 to R306). -/

namespace Sys2Proof.Machine

/-- A binary64 operand: the low and high 32 bits of a register pair, bits 35:32 of both ignored (R8, R305). -/
def State.pairD (s : State) (c a : Nat) : Nat := s.g c a % 2 ^ 32 + s.g c (a + 1) % 2 ^ 32 * 2 ^ 32

/-- Write a binary64 result to a pair, bits 35:32 of both 0 (R8, R305). -/
def State.setPairD (s : State) (c d w : Nat) : State :=
  (s.setG c d (w % 2 ^ 32)).setG c (d + 1) (w / 2 ^ 32)

/-- Retire an F36 result. -/
def State.fDone (s : State) (c d : Nat) (r : Nat × Nat) : State := ((s.setG c d r.1).fflags c r.2).advance c

/-- Retire a binary64 result. -/
def State.dDone (s : State) (c d : Nat) (r : Nat × Nat) : State := ((s.setPairD c d r.1).fflags c r.2).advance c

/-- Retire a conversion to S36: saturation sets ss beside nv (R305). -/
def State.iDone (s : State) (c d : Nat) (r : Int × Nat × Bool) : State :=
  (((s.setG c d (unsint 36 r.1)).fflags c r.2.1).sticky c 31 r.2.2).advance c

/-! F36 (R304). -/

/-- An F36 instruction over Ga and Gb under a rounding mode. -/
def State.f2 (s : State) (c : Nat) (i : Instr) (d a b rm : Nat) (f : Nat → Nat → Nat → Nat × Nat) : State :=
  s.instr c i true [d, a, b] (fun u => u.fDone c d (f (u.rmode c rm) (u.g c a) (u.g c b)))

/-- FADD. -/
def execFadd (c d a b rm : Nat) (s : State) : Out := .next <| s.f2 c (.fadd c d a b rm) d a b rm fmtF36.add

/-- FSUB. -/
def execFsub (c d a b rm : Nat) (s : State) : Out := .next <| s.f2 c (.fsub c d a b rm) d a b rm fmtF36.sub

/-- FMUL. -/
def execFmul (c d a b rm : Nat) (s : State) : Out := .next <| s.f2 c (.fmul c d a b rm) d a b rm fmtF36.mul

/-- FMA: Gd ← Ga × Gb + Gd, one rounding. -/
def execFma (c d a b rm : Nat) (s : State) : Out := .next <|
  s.instr c (.fma c d a b rm) true [d, a, b] (fun u =>
    u.fDone c d (fmtF36.fma (u.rmode c rm) (u.g c a) (u.g c b) (u.g c d) false))

/-- FMS: Gd ← Gd − Ga × Gb, one rounding. -/
def execFms (c d a b rm : Nat) (s : State) : Out := .next <|
  s.instr c (.fms c d a b rm) true [d, a, b] (fun u =>
    u.fDone c d (fmtF36.fma (u.rmode c rm) (u.g c a) (u.g c b) (u.g c d) true))

/-- FDIV. -/
def execFdiv (c d a b rm : Nat) (s : State) : Out := .next <| s.f2 c (.fdiv c d a b rm) d a b rm fmtF36.div

/-- FSQRT. -/
def execFsqrt (c d a rm : Nat) (s : State) : Out := .next <|
  s.f2 c (.fsqrt c d a rm) d a 0 rm (fun r x _ => fmtF36.sqrt r x)

/-- FMIN: minimumNumber. -/
def execFmin (c d a b rm : Nat) (s : State) : Out := .next <|
  s.f2 c (.fmin c d a b rm) d a b rm (fun _ x y => fmtF36.minMax false x y)

/-- FMAX: maximumNumber. -/
def execFmax (c d a b rm : Nat) (s : State) : Out := .next <|
  s.f2 c (.fmax c d a b rm) d a b rm (fun _ x y => fmtF36.minMax true x y)

/-- FABS: sign cleared. -/
def execFabs (c d a rm : Nat) (s : State) : Out := .next <|
  s.f2 c (.fabs c d a rm) d a 0 rm (fun _ x _ => (x % 2 ^ 35, 0))

/-- FNEG: sign inverted. -/
def execFneg (c d a rm : Nat) (s : State) : Out := .next <|
  s.f2 c (.fneg c d a rm) d a 0 rm (fun _ x _ => (fmtF36.neg x, 0))

/-- FCMPEQ. -/
def execFcmpeq (c d a b rm : Nat) (s : State) : Out := .next <|
  s.f2 c (.fcmpeq c d a b rm) d a b rm (fun _ x y => fmtF36.cmp 0 x y)

/-- FCMPLT. -/
def execFcmplt (c d a b rm : Nat) (s : State) : Out := .next <|
  s.f2 c (.fcmplt c d a b rm) d a b rm (fun _ x y => fmtF36.cmp 1 x y)

/-- FCMPLE. -/
def execFcmple (c d a b rm : Nat) (s : State) : Out := .next <|
  s.f2 c (.fcmple c d a b rm) d a b rm (fun _ x y => fmtF36.cmp 2 x y)

/-- FCLASS: the one-hot class of Ga. -/
def execFclass (c d a rm : Nat) (s : State) : Out := .next <|
  s.f2 c (.fclass c d a rm) d a 0 rm (fun _ x _ => (fmtF36.class_ x, 0))

/-- FCVTFI: F36 of Ga read as S36. -/
def execFcvtfi (c d a rm : Nat) (s : State) : Out := .next <|
  s.f2 c (.fcvtfi c d a rm) d a 0 rm (fun r x _ => fmtF36.ofInt r (sint 36 x) 0)

/-- FCVTIF: S36 of Ga, rounded. -/
def execFcvtif (c d a rm : Nat) (s : State) : Out := .next <|
  s.instr c (.fcvtif c d a rm) true [d, a] (fun u => u.iDone c d (fmtF36.toS36 (u.rmode c rm) (u.g c a) 0))

/-- FCVTFQ: F36 of Ga × 2^−f, Ga read as S36. -/
def execFcvtfq (c d a f rm : Nat) (s : State) : Out := .next <|
  s.f2 c (.fcvtfq c d a f rm) d a 0 rm (fun r x _ => fmtF36.ofInt r (sint 36 x) (-(f : Int)))

/-- FCVTQF: Ga × 2^f as S36, rounded. -/
def execFcvtqf (c d a f rm : Nat) (s : State) : Out := .next <|
  s.instr c (.fcvtqf c d a f rm) true [d, a] (fun u => u.iDone c d (fmtF36.toS36 (u.rmode c rm) (u.g c a) f))

/-- FCVTFD: F36 of the binary64 pair Ga, Ga+1. -/
def execFcvtfd (c d a rm : Nat) (s : State) : Out := .next <|
  s.instr c (.fcvtfd c d a rm) true [d, a, a + 1] (fun u =>
    u.fDone c d (fmtD.convert fmtF36 (u.rmode c rm) (u.pairD c a)))

/-- FCVTDF: pair Gd, Gd+1 ← binary64 of Ga. -/
def execFcvtdf (c d a rm : Nat) (s : State) : Out := .next <|
  s.instr c (.fcvtdf c d a rm) true [d, d + 1, a] (fun u =>
    u.dDone c d (fmtF36.convert fmtD (u.rmode c rm) (u.g c a)))

/-- FCVTFS: F36 of the binary32 value in Ga[31:0]. -/
def execFcvtfs (c d a rm : Nat) (s : State) : Out := .next <|
  s.f2 c (.fcvtfs c d a rm) d a 0 rm (fun r x _ => fmtS.convert fmtF36 r (x % 2 ^ 32))

/-- FCVTSF: Gd[31:0] ← binary32 of Ga, Gd[35:32] ← 0. -/
def execFcvtsf (c d a rm : Nat) (s : State) : Out := .next <|
  s.f2 c (.fcvtsf c d a rm) d a 0 rm (fun r x _ => fmtF36.convert fmtS r x)

/-! binary64 (R306). -/

/-- A binary64 instruction over two pairs. -/
def State.d2 (s : State) (c : Nat) (i : Instr) (d a b rm : Nat) (f : Nat → Nat → Nat → Nat × Nat) : State :=
  s.instr c i true [d, d + 1, a, a + 1, b, b + 1] (fun u =>
    u.dDone c d (f (u.rmode c rm) (u.pairD c a) (u.pairD c b)))

/-- A binary64 comparison: the result goes to one register. -/
def State.dCmp (s : State) (c : Nat) (i : Instr) (d a b k : Nat) : State :=
  s.instr c i true [d, a, a + 1, b, b + 1] (fun u => u.fDone c d (fmtD.cmp k (u.pairD c a) (u.pairD c b)))

/-- DADD. -/
def execDadd (c d a b rm : Nat) (s : State) : Out := .next <| s.d2 c (.dadd c d a b rm) d a b rm fmtD.add

/-- DSUB. -/
def execDsub (c d a b rm : Nat) (s : State) : Out := .next <| s.d2 c (.dsub c d a b rm) d a b rm fmtD.sub

/-- DMUL. -/
def execDmul (c d a b rm : Nat) (s : State) : Out := .next <| s.d2 c (.dmul c d a b rm) d a b rm fmtD.mul

/-- DFMA: pair d ← pair a × pair b + pair d, one rounding. -/
def execDfma (c d a b rm : Nat) (s : State) : Out := .next <|
  s.instr c (.dfma c d a b rm) true [d, d + 1, a, a + 1, b, b + 1] (fun u =>
    u.dDone c d (fmtD.fma (u.rmode c rm) (u.pairD c a) (u.pairD c b) (u.pairD c d) false))

/-- DDIV. -/
def execDdiv (c d a b rm : Nat) (s : State) : Out := .next <| s.d2 c (.ddiv c d a b rm) d a b rm fmtD.div

/-- DSQRT. -/
def execDsqrt (c d a rm : Nat) (s : State) : Out := .next <|
  s.instr c (.dsqrt c d a rm) true [d, d + 1, a, a + 1] (fun u =>
    u.dDone c d (fmtD.sqrt (u.rmode c rm) (u.pairD c a)))

/-- DMIN: minimumNumber. -/
def execDmin (c d a b rm : Nat) (s : State) : Out := .next <|
  s.d2 c (.dmin c d a b rm) d a b rm (fun _ x y => fmtD.minMax false x y)

/-- DMAX: maximumNumber. -/
def execDmax (c d a b rm : Nat) (s : State) : Out := .next <|
  s.d2 c (.dmax c d a b rm) d a b rm (fun _ x y => fmtD.minMax true x y)

/-- DCMPEQ. -/
def execDcmpeq (c d a b rm : Nat) (s : State) : Out := .next <| s.dCmp c (.dcmpeq c d a b rm) d a b 0

/-- DCMPLT. -/
def execDcmplt (c d a b rm : Nat) (s : State) : Out := .next <| s.dCmp c (.dcmplt c d a b rm) d a b 1

/-- DCMPLE. -/
def execDcmple (c d a b rm : Nat) (s : State) : Out := .next <| s.dCmp c (.dcmple c d a b rm) d a b 2

/-- DCVTDI: pair d ← binary64 of Ga read as S36. -/
def execDcvtdi (c d a rm : Nat) (s : State) : Out := .next <|
  s.instr c (.dcvtdi c d a rm) true [d, d + 1, a] (fun u =>
    u.dDone c d (fmtD.ofInt (u.rmode c rm) (sint 36 (u.g c a)) 0))

/-- DCVTID: Gd ← S36 of pair a, rounded. -/
def execDcvtid (c d a rm : Nat) (s : State) : Out := .next <|
  s.instr c (.dcvtid c d a rm) true [d, a, a + 1] (fun u => u.iDone c d (fmtD.toS36 (u.rmode c rm) (u.pairD c a) 0))

end Sys2Proof.Machine
end

