-- ==== Sys2Proof/Machine/SynlenMem.lean ====
section
/-! DEFINITION. Addresses and issue of the memory instructions of the Synlen core (R288 to R296): base-register and pointer
forms, circular buffers, local accesses, and accesses that become outstanding. -/

namespace Sys2Proof.Machine

/-- Loads and atomics outstanding (R45, CORE_OUT.rd). -/
def State.readsOut (s : State) (c : Nat) : Nat := ((s.co c).outs.filter (fun o => o.kind != .store)).length

/-- Stores outstanding (R293, CORE_OUT.wr). -/
def State.storesOut (s : State) (c : Nat) : Nat := ((s.co c).outs.filter (fun o => o.kind == .store)).length

/-- Append an outstanding access. -/
def State.pushOut (s : State) (c : Nat) (o : OutAcc) : State :=
  s.setCo c { s.co c with outs := (s.co c).outs ++ [o] }

/-- Is an access of a word served at once in the core's own stores: a load of either, a store of the data store only, since
a store to the own instruction store is posted (R293)? An own-store word with a store outstanding waits for it (R294). -/
def servedLocally (c a : Nat) (store : Bool) : Bool := if store then isOwnData c a else isOwn c a

/-- Must a load wait for an outstanding store of the core to the same word of its own instruction store (R294)? -/
def State.ownBusy (s : State) (c a : Nat) : Bool :=
  (s.co c).outs.any (fun o => o.kind == .store && resolveOwn c o.addr == resolveOwn c a)

/-- A load of one word into Gd: at once from an own store, else outstanding. (DESIGN CHOICE, log 28; DESIGN CHOICE, log 99) -/
def State.loadWord (s : State) (c d a : Nat) : State :=
  if servedLocally c a false then s.setG c d (s.memW (resolveOwn c a)).toNat
  else s.pushOut c { kind := .load, addr := a, dst := d, bank := s.inNmi c, pc := s.pc c }

/-- A store of one word, one half of a whole DRAM pair or not (R463): at once to the own data store, else posted. -/
def State.storeWord (s : State) (c a v : Nat) (whole : Bool) : State :=
  if servedLocally c a true then s.setMem (resolveOwn c a) (word v)
  else s.pushOut c { kind := .store, addr := a, val := word v, pc := s.pc c, whole := whole }

/-- Do some stores make one aligned DRAM pair (R463)? -/
def wholePair (l : List Nat) : Bool :=
  match l with
  | [a, b] => decide (targetOf a = .dram) && a % 2 == 0 && b == a + 1
  | _ => false

/-- Do some loads find room among the 16 outstanding reads (R45)? (DESIGN CHOICE, log 24) -/
def State.loadRoom (s : State) (c : Nat) (l : List Nat) : Bool :=
  decide (s.readsOut c + (l.filter (fun a => !servedLocally c a false)).length ≤ 16)

/-- Has every store of the core to the words of its own stores that some loads read completed (R294)? -/
def State.loadClear (s : State) (c : Nat) (l : List Nat) : Bool := l.all (fun a => !(servedLocally c a false && s.ownBusy c a))

/-- Do some stores find room in the store path (R293)? -/
def State.storeRoom (s : State) (c : Nat) (l : List Nat) : Bool :=
  decide (s.storesOut c + (l.filter (fun a => !servedLocally c a true)).length ≤ 16)

/-- Issue some loads, each a destination and an address: at the bound of outstanding reads issue holds until a read completes, and
CORE_STALL counts the cycles (R45, R293); while a store to an own word that is read is outstanding issue holds; otherwise they are made, `k`
updates what else changes, and the instruction completes. -/
def State.loads (s : State) (c : Nat) (l : List (Nat × Nat)) (k : State → State) : State :=
  if !s.loadRoom c (l.map (·.2)) then s.setCo c { s.co c with stalled := true }
  else if s.loadClear c (l.map (·.2)) then (k (l.foldl (fun u e => u.loadWord c e.1 e.2) s)).advance c
  else s

/-- Issue some stores, each an address and a value. -/
def State.stores (s : State) (c : Nat) (l : List (Nat × Nat)) (k : State → State) : State :=
  if s.storeRoom c (l.map (·.1)) then
    ((k (l.foldl (fun u e => u.storeWord c e.1 e.2 (wholePair (l.map (·.1)))) s)).advance c)
  else s

/-- The effective address of a base-register form (R288). -/
def State.eaBase (s : State) (c a : Nat) (imm : BitVec 22) : Nat := (s.g c a + imm22 imm) % 2 ^ 36

/-! Pointer addressing (R289, R290). -/

/-- Pointer, modifier, circular base and length. -/
def State.ptr (s : State) (c p : Nat) : Nat := (s.cr c (rP p)).toNat
def State.modf (s : State) (c m : Nat) : Int := sint 36 (s.cr c (rM m)).toNat
def State.cbase (s : State) (c p : Nat) : Nat := (s.cr c (rB p)).toNat
def State.clen (s : State) (c p : Nat) : Nat := (s.cr c (rL p)).toNat % 2 ^ 24

/-- The sum of an address and a step, folded into the circular buffer of P_p when `circ` holds and its length is not 0. -/
def State.fold (s : State) (c p : Nat) (circ : Bool) (x : Nat) (step : Int) : Nat :=
  if circ ∧ s.clen c p ≠ 0 then
    unsint 36 ((s.cbase c p : Int) + ((x : Int) - (s.cbase c p : Int) + step) % (s.clen c p : Int))
  else unsint 36 ((x : Int) + step)

/-- The effective address of format M (R289). -/
def State.eaPtr (s : State) (c p am m : Nat) (circ : Bool) (imm : BitVec 16) : Nat :=
  if am = 0 then s.fold c p circ (s.ptr c p) imm.toInt
  else if am = 3 then s.fold c p circ (s.ptr c p) (s.modf c m)
  else s.ptr c p

/-- The pointer update of format M (R289). -/
def State.updPtr (s : State) (c p am m : Nat) (circ : Bool) (imm : BitVec 16) : State :=
  if am = 0 then s
  else if am = 1 then s.setCr c (rP p) (word (s.fold c p circ (s.ptr c p) imm.toInt))
  else s.setCr c (rP p) (word (s.fold c p circ (s.ptr c p) (s.modf c m)))

/-! Loads and stores. -/

/-- LD: Gd ← [Ga + imm] (R288). (DESIGN CHOICE, log 24) -/
def execLd (c d a : Nat) (imm : BitVec 22) (s : State) : Out := .next <|
  s.instr c (.ld c d a imm) true [d, a] (fun u => u.loads c [(d, u.eaBase c a imm)] id)

/-- ST: [Ga + imm] ← Gd (R288). -/
def execSt (c d a : Nat) (imm : BitVec 22) (s : State) : Out := .next <|
  s.instr c (.st c d a imm) true [d, a] (fun u => u.stores c [(u.eaBase c a imm, u.g c d)] id)

/-- LD2: Gd and Gd+1 from [EA] and [EA + 1] (R288). -/
def execLd2 (c d a : Nat) (imm : BitVec 22) (s : State) : Out := .next <|
  s.instr c (.ld2 c d a imm) true [d, d + 1, a] (fun u =>
    u.loads c [(d, u.eaBase c a imm), (d + 1, (u.eaBase c a imm + 1) % 2 ^ 36)] id)

/-- ST2: [EA] and [EA + 1] from Gd and Gd+1 (R288). -/
def execSt2 (c d a : Nat) (imm : BitVec 22) (s : State) : Out := .next <|
  s.instr c (.st2 c d a imm) true [d, d + 1, a] (fun u =>
    u.stores c [(u.eaBase c a imm, u.g c d), ((u.eaBase c a imm + 1) % 2 ^ 36, u.g c (d + 1))] id)

/-- LDP: load through a pointer, a pair in the buffer when `pair` holds (R289, R290). -/
def execLdp (c d p am m : Nat) (circ pair : Bool) (imm : BitVec 16) (s : State) : Out := .next <|
  s.instr c (.ldp c d p am m circ pair imm) true (if pair then [d, d + 1] else [d]) (fun u =>
    let ea := u.eaPtr c p am m circ imm
    u.loads c (if pair then [(d, ea), (d + 1, u.fold c p circ ea 1)] else [(d, ea)])
      (fun v => v.updPtr c p am m circ imm))

/-- STP: store through a pointer (R289, R290). -/
def execStp (c d p am m : Nat) (circ pair : Bool) (imm : BitVec 16) (s : State) : Out := .next <|
  s.instr c (.stp c d p am m circ pair imm) true (if pair then [d, d + 1] else [d]) (fun u =>
    let ea := u.eaPtr c p am m circ imm
    u.stores c (if pair then [(ea, u.g c d), (u.fold c p circ ea 1, u.g c (d + 1))] else [(ea, u.g c d)])
      (fun v => v.updPtr c p am m circ imm))

/-! Atomics (R295). -/

/-- The word that an atomic leaves at its address. -/
def atomicResult (k : AccKind) (t val cmp : Word) : Word :=
  match k with
  | .load => t
  | .store => val
  | .xchg => val
  | .cas => if t = cmp then val else t
  | .faa => t + val
  | .fora => t ||| val
  | .fand => t &&& val

/-- An atomic (R294, R295): it waits until nothing is outstanding; on the own data store it completes at once; elsewhere it
is outstanding and holds issue; on the own instruction store it is a bus error, cause 4, with 0 in Gd (R297). (DEDUCED, log 25) -/
def State.atomic (s : State) (c : Nat) (i : Instr) (k : AccKind) (d a b : Nat) : State :=
  s.instr c i true [d, a, b] (fun u =>
    let ea := u.g c a
    if !(u.co c).outs.isEmpty then u
    else if isOwnData c ea then
      let t := u.memW (resolveOwn c ea)
      (((u.setMem (resolveOwn c ea) (atomicResult k t (word (u.g c b)) (word (u.g c d)))).setG c d t.toNat).advance c)
    else if isOwn c ea then ((u.setG c d 0).advance c).takeExc c 4 (u.pc c) ea true
    else
      let u1 := u.pushOut c { kind := k, addr := ea, dst := d, bank := u.inNmi c, val := word (u.g c b), cmp := word (u.g c d)
                              pc := u.pc c }
      u1.setCo c { u1.co c with hold := .atomic })

/-- XCHG. -/
def execXchg (c d a b : Nat) (s : State) : Out := .next <| s.atomic c (.xchg c d a b) .xchg d a b

/-- CAS. -/
def execCas (c d a b : Nat) (s : State) : Out := .next <| s.atomic c (.cas c d a b) .cas d a b

/-- FAA. -/
def execFaa (c d a b : Nat) (s : State) : Out := .next <| s.atomic c (.faa c d a b) .faa d a b

/-- FOR. -/
def execForA (c d a b : Nat) (s : State) : Out := .next <| s.atomic c (.forA c d a b) .fora d a b

/-- FAND. -/
def execFand (c d a b : Nat) (s : State) : Out := .next <| s.atomic c (.fand c d a b) .fand d a b

end Sys2Proof.Machine
end

