-- ==== Sys2Proof/Machine/SynlenMac.lean ====
section
/-! DEFINITION. The multiply-accumulate instructions of the Synlen core (R298 to R303): accumulators, the window, filter
taps, and the moves of accumulators, windows and special registers. -/

namespace Sys2Proof.Machine

/-- An operand read signed, or unsigned when its bit of sg is 1 (R298). -/
def macVal (uns : Bool) (x : Nat) : Int := if uns then (x : Int) else sint 36 x

/-- The exact product of two operands under sg (R298): sg[1] for the first, sg[0] for the second. -/
def macMul (sg x y : Nat) : Int := macVal (bitN sg 1) x * macVal (bitN sg 0) y

/-- Add an exact sum to an accumulator, or subtract it; with clr it replaces the old value (R298). -/
def State.accAdd (s : State) (c k : Nat) (neg clr : Bool) (sum : Int) : State :=
  s.setAccSat c k ((if clr then 0 else s.acc c k) + (if neg then -sum else sum))

/-- A window register. -/
def State.win (s : State) (c j : Nat) : Nat := (s.cr c (rW j)).toNat

/-- MAC: A_k ± Ga·Gb. -/
def execMac (c k a b : Nat) (neg clr : Bool) (sg : Nat) (s : State) : Out := .next <|
  s.instr c (.mac c k a b neg clr sg) true [a, b] (fun u =>
    (u.accAdd c k neg clr (macMul sg (u.g c a) (u.g c b))).advance c)

/-- MACV: A_j ± Ga·G(b+j), j = 0 to 3. -/
def execMacv (c a b : Nat) (neg clr : Bool) (sg : Nat) (s : State) : Out := .next <|
  s.instr c (.macv c a b neg clr sg) true [a, b, b + 1, b + 2, b + 3] (fun u =>
    (overAll (List.range 4) u (fun j v => v.accAdd c j neg clr (macMul sg (u.g c a) (u.g c (b + j))))).advance c)

/-- MACW: A_j ± Ga·W_j, j = 0 to 3. -/
def execMacw (c a : Nat) (neg clr : Bool) (sg : Nat) (s : State) : Out := .next <|
  s.instr c (.macw c a neg clr sg) true [a] (fun u =>
    (overAll (List.range 4) u (fun j v => v.accAdd c j neg clr (macMul sg (u.g c a) (u.win c j)))).advance c)

/-- CMAC: the complex product into A_k and A_(k+1). -/
def execCmac (c k a b : Nat) (neg clr : Bool) (sg : Nat) (s : State) : Out := .next <|
  s.instr c (.cmac c k a b neg clr sg) true [a, a + 1, b, b + 1] (fun u =>
    let x := macMul sg (u.g c a) (u.g c b) - macMul sg (u.g c (a + 1)) (u.g c (b + 1))
    let y := macMul sg (u.g c a) (u.g c (b + 1)) + macMul sg (u.g c (a + 1)) (u.g c b)
    (((u.accAdd c k neg clr x).accAdd c (k + 1) neg clr y)).advance c)

/-- DOT2: A_k ± (Ga·Gb + G(a+1)·G(b+1)). -/
def execDot2 (c k a b : Nat) (neg clr : Bool) (sg : Nat) (s : State) : Out := .next <|
  s.instr c (.dot2 c k a b neg clr sg) true [a, a + 1, b, b + 1] (fun u =>
    (u.accAdd c k neg clr (macMul sg (u.g c a) (u.g c b) + macMul sg (u.g c (a + 1)) (u.g c (b + 1)))).advance c)

/-- DOT4: A_k ± Σ G(a+j)·G(b+j), j = 0 to 3. -/
def execDot4 (c k a b : Nat) (neg clr : Bool) (sg : Nat) (s : State) : Out := .next <|
  s.instr c (.dot4 c k a b neg clr sg) true [a, a + 1, a + 2, a + 3, b, b + 1, b + 2, b + 3] (fun u =>
    (u.accAdd c k neg clr (macMul sg (u.g c a) (u.g c b) + macMul sg (u.g c (a + 1)) (u.g c (b + 1))
      + macMul sg (u.g c (a + 2)) (u.g c (b + 2)) + macMul sg (u.g c (a + 3)) (u.g c (b + 3)))).advance c)

/-- Shift the window and take a new W0 (R300, R301). -/
def State.shiftWin (s : State) (c : Nat) (x : Word) : State :=
  (((s.setCr c (rW 3) (s.cr c (rW 2))).setCr c (rW 2) (s.cr c (rW 1))).setCr c (rW 1) (s.cr c (rW 0))).setCr c (rW 0) x

/-- A coefficient of the own instruction store as a coefficient read sees it (R300, R509): until the cores are released, the boot ROM
overlays addresses 0x3000 to 0x3FFF of core 0. (DESIGN CHOICE, log 105) -/
def State.coef (s : State) (c i : Nat) : Word :=
  if c = 0 ∧ inRange (i % 2 ^ 14) 0x3000 0x1000 = true ∧ s.get pSys SYS_BOOT.state ≠ 3 then Config.bootRom (i % 2 ^ 14)
  else s.memW (ownInst c i)

/-- FTAP (R300): one filter tap. The data address, and the address of the move, lie in the own data store, or exception
cause 7 is raised. The coefficient comes from the own instruction store at P_pk[13:0], after any earlier store of the core to it
(R294). (DEDUCED, log 21) -/
def execFtap (c k : Nat) (win mv : Bool) (px pk : Nat) (circ neg : Bool) (sg : Nat) (dn : Bool) (s : State) : Out := .next <|
  s.instr c (.ftap c k win mv px pk circ neg sg dn) true [] (fun u =>
    let step : Int := if dn then -1 else 1
    let pd := u.ptr c px
    let to_ := u.fold c px circ pd (-step)
    if !isOwnData c pd then u.takeExc c 7 (u.pc c) pd false
    else if mv && !isOwnData c to_ then u.takeExc c 7 (u.pc c) to_ false
    else if u.ownBusy c (ownInst c (u.ptr c pk)) then u
    else
      let x := u.memW (resolveOwn c pd)
      let h := (u.coef c (u.ptr c pk)).toNat
      let u1 := if win then
          (overAll (List.range 4) u (fun j v => v.accAdd c j neg false (macMul sg (u.win c j) h))).shiftWin c x
        else u.accAdd c k neg false (macMul sg x.toNat h)
      let u2 := if mv then u1.setMem (resolveOwn c to_) x else u1
      let u3 := u2.setCr c (rP px) (word (u.fold c px circ pd step))
      (u3.setCr c (rP pk) (word ((u3.ptr c pk + 1) % 2 ^ 36))).advance c)

/-- WLD (R301): the window shifts and W0 ← [EA], which lies in the own data store, or exception cause 7 is raised. -/
def execWld (c p am m : Nat) (circ : Bool) (imm : BitVec 16) (s : State) : Out := .next <|
  s.instr c (.wld c p am m circ imm) true [] (fun u =>
    let ea := u.eaPtr c p am m circ imm
    if isOwnData c ea then ((u.shiftWin c (u.memW (resolveOwn c ea))).updPtr c p am m circ imm).advance c
    else u.takeExc c 7 (u.pc c) ea false)

/-- STA (R303): [EA] ← sat36(rnd(A_k >> sh)) with sh and rnd of A_k in ACTL; an rnd of 3 acts as 2. -/
def execSta (c k p am m : Nat) (circ : Bool) (imm : BitVec 16) (s : State) : Out := .next <|
  s.instr c (.sta c k p am m circ imm) true [] (fun u =>
    let ctl := (u.cr c rACTL).toNat / 2 ^ (8 * k) % 256
    let i := roundShift (ctl / 64) (ctl % 64) (u.acc c k)
    u.stores c [(u.eaPtr c p am m circ imm, unsint 36 (sat36 i))]
      (fun v => (v.updPtr c p am m circ imm).sticky c 31 (outS36 i)))

/-! Moves (R302). -/

/-- SACC: Gd ← sat36(rnd(A_k >> sh)); saturation sets ST.ss (R275). -/
def execSacc (c d k rnd sh : Nat) (s : State) : Out := .next <|
  s.instr c (.sacc c d k rnd sh) true [d] (fun u =>
    let i := roundShift rnd sh (u.acc c k)
    ((u.setG c d (unsint 36 (sat36 i))).sticky c 31 (outS36 i)).advance c)

/-- MVAX: Gd ← A_k.x, sign-extended. -/
def execMvax (c d k : Nat) (s : State) : Out := .next <|
  s.instr c (.mvax c d k) true [d] (fun u => u.regDone c d (unsint 36 (sint 8 (u.cr c (rAx k)).toNat)))

/-- MVAH: Gd ← A_k.h. -/
def execMvah (c d k : Nat) (s : State) : Out := .next <|
  s.instr c (.mvah c d k) true [d] (fun u => u.regDone c d (u.cr c (rAh k)).toNat)

/-- MVAL: Gd ← A_k.l. -/
def execMval (c d k : Nat) (s : State) : Out := .next <|
  s.instr c (.mval c d k) true [d] (fun u => u.regDone c d (u.cr c (rAl k)).toNat)

/-- SETA: A_k ← sat80(Ga × 2^sh), Ga signed. -/
def execSeta (c k a sh : Nat) (s : State) : Out := .next <|
  s.instr c (.seta c k a sh) true [a] (fun u => (u.setAccSat c k (sint 36 (u.g c a) * 2 ^ sh)).advance c)

/-- SETAH: A_k.h ← Ga. -/
def execSetah (c k a : Nat) (s : State) : Out := .next <|
  s.instr c (.setah c k a) true [a] (fun u => (u.setCr c (rAh k) (word (u.g c a))).advance c)

/-- SETAL: A_k.l ← Ga. -/
def execSetal (c k a : Nat) (s : State) : Out := .next <|
  s.instr c (.setal c k a) true [a] (fun u => (u.setCr c (rAl k) (word (u.g c a))).advance c)

/-- SETAX: A_k.x ← Ga[7:0]. -/
def execSetax (c k a : Nat) (s : State) : Out := .next <|
  s.instr c (.setax c k a) true [a] (fun u => (u.setCr c (rAx k) (word (u.g c a % 256))).advance c)

/-- CLRA: A_k ← 0 for each k with its bit set. -/
def execClra (c mask : Nat) (s : State) : Out := .next <|
  s.instr c (.clra c mask) true [] (fun u =>
    (overAll (List.range 4) u (fun k v => if bitN mask k then v.setAcc c k 0 else v)).advance c)

/-- MVW: Gd ← W_j. -/
def execMvw (c d w : Nat) (s : State) : Out := .next <|
  s.instr c (.mvw c d w) true [d] (fun u => u.regDone c d (u.win c w))

/-- SETW: W_j ← Ga. -/
def execSetw (c w a : Nat) (s : State) : Out := .next <|
  s.instr c (.setw c w a) true [a] (fun u => (u.setCr c (rW w) (word (u.g c a))).advance c)

/-- CYC: CORE cycles since module reset, modulo 2^36; State counts hundredths of a cycle (R277). -/
def State.cycles (s : State) : Nat := s.cyc / 1000000 % 2 ^ 36

/-- The slot of a special register that is held in the register file (R277). -/
def sregSlot (k : Nat) : Nat :=
  if k = 0 then rST else if k = 1 then rFST else if k = 2 then rACTL
  else if k < 0x10 then rP (k - 8) else if k < 0x14 then rM (k - 0x10) else if k < 0x18 then rB (k - 0x14)
  else if k < 0x1C then rL (k - 0x18) else if k < 0x1E then rLC (k - 0x1C) else if k < 0x20 then rLB (k - 0x1E)
  else if k = 0x20 then rNPC else rNST

/-- A special register as MFS reads it (R277). -/
def State.sreg (s : State) (c k : Nat) : Nat :=
  if k = 3 then s.pc c
  else if k = 4 then (match (s.co c).task with | some t => 2 ^ 35 + t | none => 0)
  else if k = 5 then c
  else if k = 6 then s.cycles
  else (s.cr c (sregSlot k)).toNat

/-- The value that MTS leaves in a special register: its reserved and read-only bits are not written (R275 to R277). -/
def State.sregValue (s : State) (c k v : Nat) : Nat :=
  if k = 0 then v / 2 ^ 30 * 2 ^ 30 + b2n (bitN (s.st c) 29) * 2 ^ 29 + v % 16
  else if k = 1 then v / 2 ^ 8 % 4 * 2 ^ 8 + v % 32
  else if k = 2 then actlWord v
  else if inRange k 0x18 6 then v % 2 ^ 24
  else if inRange k 0x1E 2 then v / 2 ^ 35 % 2 * 2 ^ 35 + v % 2 ^ 28
  else if k = 0x20 then v % 2 ^ 14
  else if k = 0x21 then v / 2 ^ 30 * 2 ^ 30 + v % 16
  else v

/-- Are NPC and NST, where a special register is one of them, accessible: only in the NMI handler (R277)? -/
def State.sregOpen (s : State) (c k : Nat) : Bool := decide (k < 0x20) || s.inNmi c

/-- MFS: Gd ← special register. -/
def execMfs (c d k : Nat) (s : State) : Out := .next <|
  s.instr c (.mfs c d k) (s.sregOpen c k) [d] (fun u => u.regDone c d (u.sreg c k))

/-- MTS: special register ← Ga. -/
def execMts (c k a : Nat) (s : State) : Out := .next <|
  s.instr c (.mts c k a) (s.sregOpen c k) [a] (fun u =>
    (u.setCr c (sregSlot k) (word (u.sregValue c k (u.g c a)))).advance c)

end Sys2Proof.Machine
end

