-- ==== Sys2Proof/Machine/SynlenFlow.lean ====
section
/-! DEFINITION. Control flow and the system instructions of the Synlen core, its exceptions and its NMI (R307 to R314,
R340, R341). -/

namespace Sys2Proof.Machine

/-- Is a branch condition met (R307)? -/
def State.condMet (s : State) (c cond a b : Nat) : Bool :=
  let x := s.g c a
  let y := s.g c b
  if cond = 0 then x == y
  else if cond = 1 then x != y
  else if cond = 2 then decide (sint 36 x < sint 36 y)
  else if cond = 3 then decide (sint 36 y ≤ sint 36 x)
  else if cond = 4 then decide (x < y)
  else if cond = 5 then decide (y ≤ x)
  else if cond = 6 then bitN (s.st c) 1
  else if cond = 7 then !bitN (s.st c) 1
  else if cond = 8 then bitN (s.st c) 0
  else !bitN (s.st c) 0

/-- BCC: PC ← target when the condition holds. -/
def execBcc (c cond a b : Nat) (target : BitVec 14) (s : State) : Out := .next <|
  s.instr c (.bcc c cond a b target) true [a, b] (fun u =>
    if u.condMet c cond a b then u.jumpTo c target.toNat else u.advance c)

/-- J: PC ← target. -/
def execJ (c : Nat) (target : BitVec 14) (s : State) : Out := .next <|
  s.instr c (.j c target) true [] (fun u => u.jumpTo c target.toNat)

/-- JAL: Gd ← PC + 1, PC ← target. -/
def execJal (c d : Nat) (target : BitVec 14) (s : State) : Out := .next <|
  s.instr c (.jal c d target) true [d] (fun u => (u.setG c d ((u.pc c + 1) % 2 ^ 14)).jumpTo c target.toNat)

/-- JR: Gd ← PC + 1, PC ← Ga[13:0]. -/
def execJr (c d a : Nat) (s : State) : Out := .next <|
  s.instr c (.jr c d a) true [d, a] (fun u => (u.setG c d ((u.pc c + 1) % 2 ^ 14)).jumpTo c (u.g c a % 2 ^ 14))

/-- LOOP (R308): level `lvl` is started over the body from PC + 1 to `last`; a register count of 0 skips the body. It is
illegal in the NMI handler, and when the body is empty. (DEDUCED, log 19) -/
def execLoop (c lvl : Nat) (src : Bool) (a cnt : Nat) (last : BitVec 14) (s : State) : Out := .next <|
  s.instr c (.loop c lvl src a cnt last) (!s.inNmi c && decide (s.pc c + 1 ≤ last.toNat)) (if src then [a] else [])
    (fun u =>
      let n := if src then u.g c a % 2 ^ 24 else cnt
      if n = 0 then ((u.setCr c (rLC lvl) 0).lbEnd c lvl).setPc c (last.toNat + 1)
      else ((u.setCr c (rLC lvl) (word n)).setCr c (rLB lvl)
        (word (2 ^ 35 + (u.pc c + 1) * 2 ^ 14 + last.toNat))).advance c)

/-! System instructions (R309). -/

/-- Put a hold on issue. -/
def State.holdIssue (s : State) (c : Nat) (h : Hold) : State := s.setCo c { s.co c with hold := h }

/-- The task that a POST names: Ga[8:0], or imm[8:0] when a is 0 (R309). -/
def State.postTask (s : State) (c a : Nat) (imm : BitVec 16) : Nat := (if a = 0 then imm.toNat else s.g c a) % 2 ^ 9

/-- POST: posts a task once every earlier store has completed (R294), which it waits for, and holds issue until the code returns. -/
def execPost (c d a : Nat) (imm : BitVec 16) (s : State) : Out := .next <|
  s.instr c (.post c d a imm) true [d, a] (fun u =>
    if u.storesOut c ≠ 0 then u.holdIssue c (.posting d (u.postTask c a imm))
    else (u.offerPost { cls := 2, src := c, task := u.postTask c a imm }).holdIssue c (.post d))

/-- POSTAs join those that wait for the last store of some outstanding accesses (R294): none where no store is outstanding. -/
def joinStore (l : List Nat) (outs : List OutAcc) : Option (List OutAcc) :=
  match outs with
  | [] => none
  | o :: r =>
    match joinStore l r with
    | some r' => some (o :: r')
    | none => if o.kind = .store then some ({ o with after := o.after ++ l } :: r) else none

/-- The POSTAs of a core for some tasks take effect, one after the other (R309). -/
def State.postas (s : State) (c : Nat) (l : List Nat) : State :=
  l.foldl (fun u t => u.offerPost { cls := 2, src := c, task := t, tag := 1 }) s

/-- POSTAs of a core take effect once every earlier store has completed (R294, R309): at once, or after the last of them. -/
def State.postaAfter (s : State) (c : Nat) (l : List Nat) : State :=
  match joinStore l (s.co c).outs with
  | some outs => s.setCo c { s.co c with outs := outs }
  | none => s.postas c l

/-- POSTA: issue goes on, and the post is made once every earlier store has completed. -/
def execPosta (c a : Nat) (imm : BitVec 16) (s : State) : Out := .next <|
  s.instr c (.posta c a imm) true [a] (fun u =>
    (u.postaAfter c [u.postTask c a imm]).advance c)

/-- The activation on a core ends by DONE (R340): without a context transfer, ctxv clears, the core becomes idle, and the
task enters state 0, 2 or 1. -/
def State.endActivation (s : State) (c : Nat) : State :=
  match (s.co c).task with
  | none => s.advance c
  | some t =>
    if (s.co c).orphan then s.freeCore c
    else
      let e := pTsk t
      let s1 := s.put e TSK_STAT.ctxv 0
      (if s.get e TSK_CFG.en = 0 then s1.setTskState t 0
        else if 1 ≤ s.get e TSK_STAT.pend then s1.list t 2
        else s1.setTskState t 1).freeCore c

/-- DONE (R340): once every access has arrived and every store has completed, the activation ends. (DEDUCED, log 23) -/
def execDoneTask (c : Nat) (s : State) : Out := .next <|
  s.instr c (.doneTask c) true [] (fun u => if u.drained c then u.endActivation c else u)

/-- The first listed task of a level or higher whose affinity includes a core (R341): none for a core that is not usable (R332), and
none while INNK page 0 makes no dispatch. -/
def State.yieldTo (s : State) (c : Nat) : Option Nat :=
  if s.usable c && s.flag pInnk0 PAGE_CTL.en then
    s.readyOrder.find? (fun t => s.affine t c && decide (s.coreLevel c ≤ s.get (pTsk t) TSK_CFG.level))
  else none

/-- YIELD (R341, R345, R346): in the NMI handler, and without another ready task for the core, the program goes on; otherwise, once its
accesses have arrived, its context is saved, it enters state 4 with a new entry time, and the core goes to the other task. An
activation that outlived an srst of the Innkeeper ends: its core becomes idle. -/
def execYieldTask (c : Nat) (s : State) : Out := .next <|
  s.instr c (.yieldTask c) true [] (fun u =>
    let next := match (u.co c).preempt with | some t => some t | none => u.yieldTo c
    if u.inNmi c then u.advance c
    else if (u.co c).orphan then (if u.drained c then u.freeCore c else u)
    else match (u.co c).task, next with
    | some t, some t' =>
      if !u.drained c then u
      else
        let u1 := ((((u.advance c).saveCtx c t).list t 4)).freeCore c
        u1.setCo c { u1.co c with assign := some t' }
    | _, _ => u.advance c)

/-- Does a WAITC until `t` still hold issue: (t − CYC) mod 2^36 lies in 1 to 2^35 (R309)? -/
def State.waits (s : State) (t : Nat) : Bool := inRange ((t + 2 ^ 36 - s.cycles) % 2 ^ 36) 1 (2 ^ 35)

/-- WAITC: holds issue until an absolute cycle count. -/
def execWaitc (c a : Nat) (imm : BitVec 16) (s : State) : Out := .next <|
  s.instr c (.waitc c a imm) true [a] (fun u =>
    let t := unsint 36 ((u.g c a : Int) + imm.toInt)
    if u.waits t then u.holdIssue c (.waitc t) else u.advance c)

/-- WAITC_EXPIRE (R309): CYC has reached the target, and issue resumes. -/
def execWaitcExpire (c : Nat) (s : State) : Out := .next <|
  match (s.co c).hold with
  | .waitc t => if s.waits t then s else (s.holdIssue c .none).advance c
  | _ => s

/-- FENCE (R294): holds issue until every earlier access, or with imm[0] every earlier store, has completed. -/
def execFence (c : Nat) (stores : Bool) (s : State) : Out := .next <|
  s.instr c (.fence c stores) true [] (fun u =>
    if (if stores then u.storesOut c == 0 else (u.co c).outs.isEmpty) then u.advance c else u.holdIssue c (.fence stores))

/-- Have the core's stores to its own instruction store completed (R296)? -/
def State.instStored (s : State) (c : Nat) : Bool :=
  (s.co c).outs.all (fun o => !(o.kind == .store && isOwn c o.addr))

/-- ISYNC (R296): holds issue until the core's stores to its instruction store have completed. -/
def execIsync (c : Nat) (s : State) : Out := .next <|
  s.instr c (.isync c) true [] (fun u => if u.instStored c then u.advance c else u.holdIssue c .isync)

/-- BRK: exception cause 5. -/
def execBrk (c : Nat) (s : State) : Out := .next <|
  s.instr c (.brk c) true [] (fun u => u.takeExc c 5 (u.pc c) (encodeSynlen (.brk c)) false)

/-- Are the loads, atomics and POST of a core over, as NMI entry needs (R283, R313)? -/
def State.nmiReady (s : State) (c : Nat) : Bool :=
  s.readsOut c == 0 && !(s.co c).hold.inPost && decide ((s.co c).drain = .none)

/-- NMI entry (R313): NPC and NST take PC and ST, ST.nmi sets, PC takes the vector, the count increments and event 2 is
recorded; a WAITC or FENCE in progress is abandoned, and a preemption decided waits for a later decision (R338). -/
def State.enterNmi (s : State) (c : Nat) : State :=
  let p := pCore c
  let s1 := ((s.setCr c rNPC (s.cr c rPC)).setCr c rNST (s.cr c rST)).setCr c rST (word (setBitN (s.st c) 29))
  let s2 := (s1.setPc c (s.get p CORE_NMI_VEC.vec)).setCo c { s.co c with hold := .none, preempt := none }
  ((s2.put p CORE_NMI.pend 0).incMod p CORE_NMI.count).ev p 2

/-- NMI_ENTRY (R313, R314): a pending NMI is taken at an instruction boundary of a core whose clock runs and that does not run its
handler. -/
def execNmiEntry (c : Nat) (s : State) : Out := .next <|
  if c < 64 ∧ s.get (pCore c) CORE_NMI.pend = 1 ∧ s.inNmi c = false ∧ (s.co c).halted = false ∧ s.nmiReady c = true
      ∧ s.clockOff (pCore c) = false ∧ s.domStopped 0 = false
  then s.enterNmi c else s

/-- NRET (R314): ST, PC and the register bank are restored; a pending NMI is taken at this boundary. Illegal outside the
handler. -/
def execNret (c : Nat) (s : State) : Out := .next <|
  s.instr c (.nret c) (s.inNmi c) [] (fun u =>
    let u1 := (u.setCr c rST (u.cr c rNST)).setCr c rPC (u.cr c rNPC)
    if u1.get (pCore c) CORE_NMI.pend = 1 ∧ u1.nmiReady c = true then u1.enterNmi c else u1)

/-- NMI_SET (R313): a write of 1 to CORE_NMI.set raises the NMI on that core. -/
def doNmiSet (c : Nat) (s : State) : State := if c < 64 then s.raiseNmi c 0 else s

/-- POST_RESULT (R310): the code of a POST returns to Gd and issue goes on; an activation end that waited for it follows. -/
def execPostResult (c : Nat) (s : State) : Out := .next <|
  match (s.co c).hold, (s.co c).postRes with
  | .post d, some code =>
    ((((s.setCo c { s.co c with hold := .none, postRes := none }).setG c d code).advance c)).tryDrain c
  | _, _ => s

/-! The commands. -/

/-- The command NMI_SET (R313). -/
def execNmiSet (c : Nat) (s : State) : Out := .next (s.writeWord 0 (pCore c + 0x14) (word (2 ^ 34)) (doNmiSet c))

end Sys2Proof.Machine
end

