-- ==== Sys2Proof/Machine/View.lean ====
section
/-! DEFINITION. Reads of register words (R9, R11, R19, R26, R35, R97, R200, R214): what each word shows, and the reads that change
state. -/

namespace Sys2Proof.Machine

/-- The fields of a list, each with a value, put into a word. -/
def putAll (w : Nat) (l : List (Fld × Nat)) : Nat := l.foldl (fun v e => fldPut v e.1 e.2) w

/-- The block-specific bits of PAGE_STAT that follow other state: the PWM page's copies and pad block (R151), the FBK page's busy and
supok (R228), the PROF page's blocked (R268), and the CORE page's wait and copy of ST.nmi (R315). -/
def State.blkBits (s : State) (b : Blk) : List (Fld × Nat) :=
  match b with
  | .pwm ch =>
    [(PWM_BLK.cal, s.get (pPort (ch / 8)) PORT_DLCAL.locked), (PWM_BLK.padblk, b2n (s.padBlocked ch)),
     (PWM_BLK.gen, b2n (s.gateEn.contains (ch / 8))), (PWM_BLK.owned, s.get (pAle ch) PAGE_CTL.en)]
  | .fbk ch => [(FBK_BLK.busy, b2n (s.fbkBusy ch)), (FBK_BLK.supok, s.get (pFbk ch) FBK_SUP.supok)]
  | .prof ch => [(PROF_BLK.blocked, b2n (s.blocked.contains (pProf ch)))]
  | .core c =>
    [(CORE_BLK.wait, match (s.co c).hold with | .posting _ _ | .post _ | .waitc _ | .fence _ | .isync => 1 | _ => 0),
     (CORE_BLK.nmi, b2n (s.inNmi c))]
  | _ => []

/-- PAGE_STAT as it reads (R19): running while the block is enabled and out of reset, gated and fault as copies. -/
def State.statView (s : State) (p : Nat) : Nat :=
  putAll (s.reg (p + 2)) ([(PAGE_STAT.running, b2n (s.flag p PAGE_CTL.en && !s.srstBusy.contains p)),
    (PAGE_STAT.gated, s.get p PAGE_CTL.gate_ack), (PAGE_STAT.fault, s.get p FC_STAT.lasting)] ++ s.blkBits (blkOf p))

/-- Does a page hold SL fields (R44, R47)? -/
def Blk.hasSl (b : Blk) : Bool :=
  match b with
  | .pwm _ | .ale _ | .fbk _ | .prof _ | .safe0 | .safe1 | .safe2 | .safe3 => true
  | _ => false

/-- PAGE_LOCK as it reads (R19): sealing sets ol_sealed in every page (R515). -/
def State.lockView (s : State) (p : Nat) : Nat :=
  putAll (s.reg (p + 7)) [(PAGE_LOCK.sl_locked, b2n (s.slLocked && (blkOf p).hasSl)), (PAGE_LOCK.ol_sealed, b2n s.olSealed)]

/-- A header word as it reads. -/
def State.headerView (s : State) (a : Nat) : Nat :=
  if a % 0x100 = 2 then s.statView (pageOf a) else if a % 0x100 = 7 then s.lockView (pageOf a) else s.reg a

/-- Tasks in a state (R350). -/
def State.tasksIn (s : State) (l : List Nat) : Nat :=
  (s.regs.filter (fun e => match blkOf e.1 with
    | .tsk => e.1 % 0x40 == 3 && l.contains (fldGet e.2.toNat TSK_STAT.state)
    | _ => false)).length

/-- Live words of an FBK page (R200, R218, R225, R231): the current of an enabled supply is a free value. (DESIGN CHOICE, log 52) -/
def State.fbkView (s : State) (ch off : Nat) : Option Nat :=
  if off = 0x3C ∧ s.get (pFbk ch) FBK_SUP.en = 1 then some (fldPut (s.reg (pFbk ch + off)) FBK_SUP.imeas (Config.supplyCurrent ch s.now))
  else if off = 0x1E then some (unsint 36 (s.fbkSpeed ch (s.t64 4) s.ctKey))
  else if off = 0x1F then some (p72Hi (s.fbkPos ch))
  else if off = 0x20 then some (p72Lo (s.fbkPos ch))
  else if off = 0x3D then some (s.supTotal % 2 ^ 16)
  else none

/-- Live words of a PWM page: the bits of PWM_COMMIT whose actions have yet to be taken (R9, R122, R124, R133), and PWM_CTR (R153). -/
def State.pwmView (s : State) (ch off : Nat) : Option Nat :=
  let r := s.pw ch
  if off = 0x18 then
    some (putAll 0 [(PWM_COMMIT.go, b2n r.go), (PWM_COMMIT.stop, b2n (r.stop || r.stopReq)), (PWM_COMMIT.start, b2n r.startReq)])
  else if off = 0x25 then some (r.c % 2 ^ 25)
  else none

/-- Live words of a PROF page (R269), with the bits of PROF_CMD whose actions have yet to be taken (R9, R237). -/
def State.profView (s : State) (ch off : Nat) : Option Nat :=
  let r := s.pr ch
  if off = 0x18 then
    some (putAll (s.reg (pProf ch + off)) [(PROF_CMD.setpos, b2n r.load.isSome), (PROF_CMD.abort, b2n (r.cmd == .stop)),
      (PROF_CMD.go, b2n (r.cmd != .none && r.cmd != .stop))])
  else if off = 0x1A then some (p72Hi (s.profPos ch))
  else if off = 0x1B then some (p72Lo (s.profPos ch))
  else if off = 0x1C then some (unsint 36 (nearInt ((s.setpoint ch).2.1 * 2 ^ 16)))
  else if off = 0x1D then some (unsint 36 (nearInt ((s.setpoint ch).2.2 * 2 ^ 12)))
  else none

/-- Live words of the CORE and INNK pages (R316, R348, R350). -/
def State.coreView (s : State) (b : Blk) (off : Nat) : Option Nat :=
  match b with
  | .core c =>
    if off = 0x15 then some s.cycles
    else if off = 0x18 then some (s.readsOut c * 2 ^ 8 + s.storesOut c)
    else none
  | .innk0 =>
    if off = 0x12 then some (fldPut (s.reg (pInnk0 + off)) INNK_PQ.level (s.innk.queue.length))
    else if off = 0x13 then some (s.tasksIn [2, 4] * 2 ^ 22 + s.tasksIn [5] * 2 ^ 12 + s.tasksIn [3]) else none
  | .innk1 =>
    if inRange off 0x10 64 then some (fldPut (s.reg (pInnk1 + off)) (INNK_LVL.cur (off - 0x10)) (s.listedAt (off - 0x10))) else none
  | _ => none

/-- The requests that a DRAM channel holds, at most 64; past the bound the controller holds the fabric back and initiators wait (R45).
(DESIGN CHOICE, log 27; DEDUCED, log 64) -/
def State.dramLevel (s : State) (c : Nat) : Nat := min 64 (s.requests.filter (fun a => targetOf a == .dram && dramCh a == c)).length

/-- What the word at an address shows, where that follows other state than the word itself. -/
def State.liveView (s : State) (a : Nat) : Option Nat :=
  let off := a % 0x100
  match blkOf a with
  | .time0 | .tb _ => s.timeView a
  | .mem3 => s.memView a
  | .mem1 => if off = 0x11 then some (fldPut (s.reg a) MEM_DOCC.level (s.dramLevel 0)) else none
  | .mem2 => if off = 0x11 then some (fldPut (s.reg a) MEM_DOCC.level (s.dramLevel 1)) else none
  | .prism0 => s.prismView a
  | .safe2 | .safe3 => s.safeView a
  | .lens0 | .lens2 => s.lensView a
  | .ale ch => if off = 0x1B then some (s.aleVdc ch) else none
  | .pwm ch => s.pwmView ch off
  | .fbk ch => s.fbkView ch off
  | .prof ch => s.profView ch off
  | .core c => s.coreView (.core c) off
  | .innk0 => s.coreView .innk0 off
  | .ring0 => if off = 0x16 then some (fldPut (s.reg a) RING_STAT.tm (b2n s.timeMaster)) else none
  | .clk => if off = 0x10 then some (fldPut (s.reg a) CLK_SRC.pull (unsint 20 s.pullNow)) else none
  | .innk1 => s.coreView .innk1 off
  | _ => none

/-- A word that no SC or WO field keeps a value in is shown as held; what a read returns, with no effect of the read (R9, R11). -/
def State.viewWord (s : State) (a : Nat) : Nat :=
  if (blkOf a).hasHeader && decide (a % 0x100 < 0x10) then s.headerView a else (s.liveView a).getD (s.reg a)

/-! Reads that change state. -/

/-- The word `i` of the set held for a core from an address, where it holds one (R97, R200, R214, R265, R269). The hold ends with its
last word. -/
def State.readHeld (s : State) (core kind base i : Nat) (a : Nat) : Word × State :=
  match s.held? core kind with
  | some (b, l) =>
    if core < 64 ∧ b = base ∧ i < l.length then (l.getD i 0, if i + 1 = l.length then s.holdDrop core kind else s)
    else (word (s.viewWord a), s)
  | none => (word (s.viewWord a), s)

/-- The word that a read with an effect returned. -/
def readOut (t : State) : Word × State := (t.rdata, t)

/-- A read of a core's snapshot words (R80, R35): word 3b takes a snapshot of counter b, and the read of its third word ends it. -/
def State.snapRead (s : State) (a : Nat) : Word × State :=
  let core := (a - pSnap 0) / 0x10
  let o := a % 0x10
  if o = 15 then (0, s)
  else if o % 3 = 0 then readOut (doSnapshotRead core (o / 3) s)
  else if o % 3 = 2 then
    (s.regW a, { s with time := { s.time with snapBusy := s.time.snapBusy.filter (fun k => k != 8 * core + o / 3) } })
  else (s.regW a, s)

/-- A read of a word of an FBK page (R200, R214). -/
def State.fbkRead (s : State) (ini ch off a : Nat) : Word × State :=
  if off = 0x1F then readOut (doFbkPosRead ini ch s)
  else if off = 0x20 then s.readHeld ini 1 (pFbk ch) 0 a
  else if off = 0x48 then readOut (doFbkLatRead ini ch s)
  else if inRange off 0x49 5 then s.readHeld ini 2 (pFbk ch + 0x48) (off - 0x49) a
  else (word (s.viewWord a), s)

/-- A read of a word of a PROF page (R265, R269). -/
def State.profRead (s : State) (ini ch off a : Nat) : Word × State :=
  if off = 0x1A then readOut (doProfPosRead ini ch s)
  else if off = 0x1B then s.readHeld ini 3 (pProf ch + 0x1A) 0 a
  else if off = 0x38 then readOut (doProfLatRead ini ch s)
  else if inRange off 0x39 4 then s.readHeld ini 4 (pProf ch + 0x38) (off - 0x39) a
  else (word (s.viewWord a), s)

/-- A read of a word of the register-page space by an initiator, with its effects (R35, R89, R97, R114, R200, R214, R265). -/
def State.pageRead (s : State) (ini a : Nat) : Word × State :=
  let off := a % 0x100
  match blkOf a with
  | .snap => s.snapRead a
  | .trg =>
    if a % 4 = 0 then readOut (doTrgThRead ini ((a - pTrg 0) / 4) s)
    else if a % 4 = 1 then s.readHeld ini 0 (a - 1) 0 a
    else (word (s.viewWord a), s)
  | .tsu u => if off = 0x18 then readOut (doTxqLoRead u s) else (word (s.viewWord a), s)
  | .prism2 =>
    if inRange off 0x20 64 && off % 4 == 3 then readOut (doTioCloRead ((off - 0x20) / 4) s) else (word (s.viewWord a), s)
  | .fbk ch => s.fbkRead ini ch off a
  | .prof ch => s.profRead ini ch off a
  | _ => (word (s.viewWord a), s)

/-- A read of a word by an initiator: none for a bus error (R11, R13, R15, R26, R501). -/
def State.busRead (s : State) (ini a : Nat) : Option Word × State :=
  match targetOf a with
  | .dram => if s.clk.dead.contains 3 then (none, s) else (some (s.memW a), s)
  | .mram | .commons | .localData _ | .localInst _ => (some (s.memW a), s)
  | .alias_ _ => if ini < 64 then (some (s.memW (resolveOwn ini a)), s) else (none, s)
  | .page => if s.gated a then (none, s) else (some (s.pageRead ini a).1, (s.pageRead ini a).2)
  | .nothing => (some 0, s)

end Sys2Proof.Machine
end

