-- ==== Sys2Proof/Machine/Bus.lean ====
section
/-! DEFINITION. Writes of register words and of memory, block resets, the fault counter's configuration and windows, and held
accesses (R9 to R11, R13 to R15, R19 to R26, R30, R34, R38, R42 to R44, R49, R503, R504, R515). -/

namespace Sys2Proof.Machine

/-! Enabling and disabling a block (R20). -/

/-- What a change of PAGE_CTL.en does in the block of a page (R50, R102, R124, R148, R157, R178, R194, R257, R339, R372). -/
def State.enEffect (s : State) (b : Blk) (on : Bool) : State :=
  match b with
  | .pwm ch =>
    if on then (if s.get (pPwm ch) PWM_SD_CFG.mode = 2 then s.setPw ch { s.pw ch with cont := some s.now, contN := 0 } else s)
    else ((s.stopCarrier ch).holdPads ch).padCause ch
  | .ale ch => if on then s.aleClear ch else s.aleStop ch
  | .fbk ch => if on then s.fbkEnable ch else s
  | .prof ch => if on then s.profEnable ch else s.profDisable ch
  | .prism0 => if on then s.prismEnable else s
  | .ring0 => if on then s.ringWake else s
  | .core c => if on then s else s.loseCore c
  | _ => s

/-- PAGE_CTL.en of a page takes a value (R20). -/
def State.enWrite (s : State) (p : Nat) (on : Bool) : State :=
  if s.flag p PAGE_CTL.en = on then s else (s.put p PAGE_CTL.en (b2n on)).enEffect (blkOf p) on

/-! Block resets (R21). -/

/-- A block reset runs on a page until SRST_END: its block-specific words hold accesses. -/
def State.resetBusy (s : State) (p : Nat) : State :=
  { s with srstBusy := if p ∈ s.srstBusy then s.srstBusy else p :: s.srstBusy }

/-- The bit of a page's block status that an envelope block keeps (R21). -/
def State.envBit (s : State) (p : Nat) (f : Fld) : Nat := s.get p f * 2 ^ f.lo

/-- The block reset of a PWM page: the carrier stops, and nothing of the stage stands but its locked fields. -/
def State.pwmReset (s : State) (ch : Nat) : State :=
  let s1 := (s.stopCarrier ch).resetPage (pPwm ch) (fun _ => false) 0
  ((s1.setPw ch {}).holdPads ch)

/-- The block reset of an ALE page. -/
def State.aleReset (s : State) (ch : Nat) : State :=
  let s1 := (s.aleClear ch).resetPage (pAle ch) (fun _ => false) (s.envBit (pAle ch) ALE_BLK.envblk)
  s1.setAl ch {}

/-- The block reset of an FBK page. -/
def State.fbkReset (s : State) (ch : Nat) : State :=
  let s1 := s.resetPage (pFbk ch) (fun _ => false) (s.envBit (pFbk ch) FBK_BLK.envblk)
  (s1.setFb ch { lastL := s.t64 0 }).emuRefresh ch

/-- The block reset of a PROF page. -/
def State.profReset (s : State) (ch : Nat) : State :=
  (s.resetPage (pProf ch) (fun _ => false) (s.envBit (pProf ch) PROF_BLK.envblk)).setPr ch {}

/-- The block reset of a PORT page (R142): PORT_MCLK returns to its reset value, so MCLK stops at the end of its period; the
measurements stay. -/
def State.portReset (s : State) (p : Nat) : State :=
  let a := pPort p
  let run := s.get a PORT_MCLK.run
  let s1 := (s.resetPage a (fun w => w == a + 0x11 || w == a + 0x12) 0).put a PORT_MCLK.run run
  if run = 1 then s1.setPo p { s1.po p with stopping := true } else s1

/-- The block reset of a CORE page (R311 cause 8, R314, R342): its registers and words return to reset, a halt ends, and a task that
was dispatched ends as faulted without a usable context; the exception is recorded after the words return to reset. (DEDUCED, log 16) -/
def State.coreReset (s : State) (c : Nat) : State :=
  let pc := s.pc c
  let s1 := s.resetPage (pCore c) (fun _ => false) 0
  let s2 := { s1 with crs := s1.crs.filter (fun e => !inRange e.1 (128 * c) 128) }
  let s3 := s2.setCo c { s2.co c with halted := false, hold := .none, postRes := none, drain := .none, stalled := false
                                      outs := (s2.co c).outs.filter (fun (o : OutAcc) => o.kind == .store) }
  match (s.co c).task with
  | none => s3
  | some t =>
    if (s.co c).orphan then s3.freeCore c
    else
      let s4 := s3.recordExc c 8 pc 0 false
      ((((s4.put (pTsk t) TSK_STAT.ctxv 0).setTskState t 5).inc (pTsk t) TSK_CNT.faults).evC pInnk0 2).freeCore c

/-- The block reset of the CLK page: its words return to reset, so the domains run on the IRC and PCLK and MEMC stand until they are
started again; a dead domain stays dead (R501). (DEDUCED, log 16) -/
def State.clkReset (s : State) : State :=
  let s1 := ((s.resetPage pClk (fun _ => false) 0).put pClk CLK_DOM_FIX.pdead (s.get pClk CLK_DOM_FIX.pdead)).put pClk
    CLK_DOM_FIX.mdead (s.get pClk CLK_DOM_FIX.mdead)
  { s1 with clk := { s1.clk with sw := [], tripAt := [], held := [] } }

/-- The block reset of a SYS page: the cause of the last reset is no part of it, and the seal stays with the fields it fixes (R515,
R523). (DEDUCED, log 16) -/
def State.sysReset (s : State) (p : Nat) : State :=
  let s1 := s.resetPage p (fun a => a == pSys + 0x1A) 0
  if s.olSealed ∧ p = pSys then s1.put pSys SYS_SEAL.sealed 1 else s1

/-- The block reset of PORTER page 1: the slots return to reset, and the chains that wait for an engine are discarded with their
counts. (DEDUCED, log 16) -/
def State.slotsReset (s : State) : State :=
  let s1 := { s.resetPage pPorter1 (fun _ => false) 0 with porter := { s.porter with queue := [] } }
  s1.put pPorter0 PORTER_STAT.inflight s1.chains.length

/-- The block reset of a MEM page: page 3 also loses the words and records that wait, and scans the log again (R468, R470, R472). (DEDUCED, log 16) -/
def State.memReset (s : State) (k : Nat) : State :=
  let s1 := s.resetPage (pMem k) (fun _ => false) 0
  if k = 3 then { s1 with logq := [], mwq := [], logScanned := false }
  else { s1 with scrubPos := Tab.drop s1.scrubPos k, dscrub := if k = 0 then s1.dscrub else Tab.drop s1.dscrub (k - 1) }

/-- SRST (R21): the block of a page is reset. (DEDUCED, log 16) -/
def State.srst (s : State) (p : Nat) : State :=
  match blkOf p with
  | .sys0 | .sys1 => (s.sysReset p).resetBusy p
  | .clk => s.clkReset.resetBusy p
  | .time0 => (doTimeSrst s).resetBusy p
  | .tb n => (doTbSrst n s).resetBusy p
  | .tsu u => (s.tsuReset u).resetBusy p
  | .prism0 => doPrismSrst s
  | .prism1 => (s.prismPageReset 1).resetBusy p
  | .prism2 => (s.prismPageReset 2).resetBusy p
  | .innk0 => doInnkSrst s
  | .innk1 | .innk2 | .ring11 => (s.resetPage p (fun _ => false) 0).resetBusy p
  | .mem0 => (s.memReset 0).resetBusy p
  | .mem1 => (s.memReset 1).resetBusy p
  | .mem2 => (s.memReset 2).resetBusy p
  | .mem3 => (s.memReset 3).resetBusy p
  | .porter0 => doPorterSrst s
  | .porter1 => s.slotsReset.resetBusy p
  | .ring0 | .ringP _ => (s.ringReset p).resetBusy p
  | .eth0 | .ethP _ => (s.ethReset p).resetBusy p
  | .pwm ch => (s.pwmReset ch).resetBusy p
  | .ale ch => (s.aleReset ch).resetBusy p
  | .fbk ch => (s.fbkReset ch).resetBusy p
  | .prof ch => (s.profReset ch).resetBusy p
  | .port q => (s.portReset q).resetBusy p
  | .core c => (s.coreReset c).resetBusy p
  | .safe0 | .safe1 | .safe2 | .safe3 | .lens0 | .lens1 | .lens2 => s.refuse p
  | .snap | .trg | .tsk | .names | .sched | .absent => s

/-! The fault counter (R38, R42 to R44). -/

/-- The length of a page's window in 1/64 ns. -/
def State.windowLen (s : State) (p : Nat) : Nat := 2 ^ s.get p FC_CFG.w * 64000

/-- The TB0 time at which the running window of a page began. (DESIGN CHOICE, log 57) -/
def State.windowStart (s : State) (p : Nat) : Nat := Tab.get (fun _ => 0) s.fcStart p

/-- Note the beginning of a window. -/
def State.setWindow (s : State) (p t : Nat) : State := { s with fcStart := Tab.set (fun _ => 0) s.fcStart p t }

/-- Is a window edge of a page due (R38)? -/
def State.windowDue (s : State) (p : Nat) : Bool := s.windowEnds (s.windowLen p) (s.windowStart p)

/-- Does FC_CFG of a page stand locked against an initiator (R44)? (DEDUCED, log 58) -/
def State.fcLocked (s : State) (ini p : Nat) : Bool := (blkOf p).hasSl && !s.slOpen ini

/-- FC_CFG_WRITE (R10, R42, R44): a locked word keeps its value; an invalid value keeps the word and total counts; else the word is
taken, and cur and prev clear. (DESIGN CHOICE, log 57; DEDUCED, log 58) -/
def doFcCfgWrite (ini page : Nat) (v : Word) (s : State) : State :=
  let p := pageAddr page
  let a := p + 8
  let n := slMerge a (s.reg a) v.toNat
  if (blkOf p).hasHeader = false then s
  else if s.fcLocked ini p then s.noteRefused a (n != s.reg a)
  else if !fcOk v.toNat then s.inc p FC_STAT.total
  else
    let s1 := ((s.setReg a n).put p FC_STAT.cur 0).put p FC_STAT.prev 0
    s1.setWindow p (s1.t64 0 - s1.windowTime % s1.windowLen p)

/-- FC_WINDOW_EDGE (R38, R466): prev takes cur and cur becomes 0, in the page's counter and in the bank and row counters of a DRAM
page. -/
def doFcWindowEdge (page : Nat) (s : State) : State :=
  let p := pageAddr page
  if (blkOf p).hasHeader && s.windowDue p then
    let s1 := ((s.put p FC_STAT.prev (s.get p FC_STAT.cur)).put p FC_STAT.cur 0).setWindow p (s.t64 0)
    match blkOf p with
    | .mem1 => s1.trackEdge 1
    | .mem2 => s1.trackEdge 2
    | _ => s1
  else s

/-- The outputs that a page blocked return (R41, R139, R141): a PWM page's block stays while its trip input is qualified active. (DEDUCED, log 60) -/
def State.unblock (s : State) (p : Nat) : State :=
  let s1 := { s with blocked := s.blocked.filter (fun q => q != p) }
  match blkOf p with
  | .pwm ch => if s.tripQual ch then s else s1.holdPads ch
  | .ale ch | .fbk ch | .prof ch => s1.holdPads ch
  | .port q => overAll (List.range 8) s1 (fun i t => t.holdPads (8 * q + i))
  | .ring0 | .ringP _ => { s1 with ring := { s1.ring with txHold := if p ∈ s1.ring.txHold then s1.ring.txHold else p :: s1.ring.txHold } }
  | _ => s1

/-- FAULT_CLEAR (R43): lasting, cur and prev clear, and the outputs blocked by action 4 return; an event of the same cycle counts
into the cleared counter. (DEDUCED, log 45; DEDUCED, log 60) -/
def doFaultClear (page : Nat) (counted : Bool) (s : State) : State :=
  let p := pageAddr page
  if (blkOf p).hasHeader then
    let s1 := ((s.put p FC_STAT.lasting 0).put p FC_STAT.cur 0).put p FC_STAT.prev 0
    let s2 := if p ∈ s1.blocked then s1.unblock p else s1
    if counted then s2.fc p else s2
  else s

/-- EVENT_CLEAR (R24): a write of 1 clears bits; an event of the same cycle sets its bits again, and posts as if they went from 0
to 1. PAGE_EV of a LENS page is no word that cores may write: the write is counted as refused. (DESIGN CHOICE, log 59) -/
def doEventClear (page : Nat) (pend : Bool) (mask newEv : Word) (s : State) : State :=
  let p := pageAddr page
  if (blkOf p).hasHeader then
    let s1 := if pend then s.put p PAGE_EVPEND.evpend (s.get p PAGE_EVPEND.evpend &&& (2 ^ 36 - 1 - mask.toNat))
      else if (blkOf p).isLens then s.refuse p
      else s.put p PAGE_EV.ev (s.get p PAGE_EV.ev &&& (2 ^ 36 - 1 - mask.toNat))
    let s2 := s1.put p PAGE_EV.ev (s1.get p PAGE_EV.ev ||| newEv.toNat)
    s2.setPend p (newEv.toNat &&& s.get p PAGE_EVEN.even)
  else s

/-- PAGE_POST_DELIVER (R34): a post held at a full crossing FIFO goes on its way when the FIFO has room; one that its PAGE_EVPEND bits
held ends with them, and names the task of PAGE_POST now. (DESIGN CHOICE, log 12) -/
def doPagePostDeliver (s : State) : State :=
  match s.heldPosts with
  | [] => s
  | q :: r =>
    let p := pageAddr q.src
    if 8 ≤ s.crossing then s
    else if q.tag ≠ 0 then { s with heldPosts := r, wire := s.wire ++ [{ q with at_ := s.now }] }
    else if s.get p PAGE_EVPEND.evpend = 0 then { s with heldPosts := r }
    else { s with heldPosts := r, wire := s.wire ++ [{ q with at_ := s.now, task := s.get p PAGE_POST.task }] }

/-- GATE_RELEASE (R503, R49): gate_req is written 0: a waiting request is withdrawn, or the gated clock runs again. (DEDUCED, log 61) -/
def State.ungate (s : State) (p : Nat) : State :=
  if s.flag p PAGE_CTL.gate_req then
    { (s.put p PAGE_CTL.gate_req 0).put p PAGE_CTL.gate_ack 0 with gating := s.gating.filter (fun q => q != p) }
  else s

/-! The writes of each block. -/

/-- A write of PAGE_CTL (R20, R21, R49, R503): gate_req acts on the first page of a gateable block alone. -/
def State.ctlWrite (s : State) (p v : Nat) : State :=
  let s1 := s.enWrite p (bitN v 0)
  let s2 := if gateFirst p then (if bitN v 2 then s1.gateRequest p else s1.ungate p) else s1
  if bitN v 1 then s2.srst p else s2

/-- A write of a header word (R19, R24, R42, R43). -/
def State.headerWrite (s : State) (ini a : Nat) (v : Word) : State :=
  let p := pageOf a
  let page := (p - pageSpace) / 0x100
  let off := a % 0x100
  if off = 1 then s.ctlWrite p v.toNat
  else if off = 3 then doEventClear page false v 0 s
  else if off = 5 then doEventClear page true v 0 s
  else if off = 8 then doFcCfgWrite ini page v s
  else if off = 9 then (if bitN v.toNat 35 then doFaultClear page false s else s)
  else s.plainWrite ini a v.toNat

/-- Sealing (R515): once; OL fields become fixed in every page, and event 0 of the SYS page is recorded. -/
def State.seal (s : State) : State :=
  if s.olSealed then s
  else ((({ s with olSealed := true }.put pSys SYS_SEAL.sealed 1).ringSeal).ringWake).ev pSys 0

/-- A write of a block-specific word of SYS page 0. -/
def State.sysWrite (s : State) (ini a : Nat) (v : Word) : State :=
  if a = pSys + 0x1B then s.rstWrite v.toNat
  else if a = pSys + 0x1D then (if bitN v.toNat 35 then s.seal else s)
  else s.plainWrite ini a v.toNat

/-- A write of a block-specific word of the CLK page (R522). -/
def State.clkWrite (s : State) (ini off : Nat) (v : Word) : State :=
  if off = 0x10 then s.srcWrite v.toNat
  else if off = 0x11 then doClkPllWrite v s
  else if off = 0x12 then s.domWrite 0 v.toNat
  else if off = 0x13 then s.domWrite 1 v.toNat
  else if off = 0x14 then s.fixWrite v.toNat
  else if off = 0x15 then doClkSscWrite v s
  else if off = 0x19 then s.fgateWrite v.toNat
  else s.plainWrite ini (pClk + off) v.toNat

/-- A write of INNK_CMD (R343, R350): with go = 1 the command acts; a reserved op is refused. -/
def State.innkCmd (s : State) (v : Nat) : State :=
  let op := fldGet v INNK_CMD.op
  let t := fldGet v INNK_CMD.task
  if !bitN v 35 then s.cmdFields op t
  else if op = 1 then doCancel t s
  else if op = 2 then doClear t s
  else if op = 3 then doResumeCommand t s
  else if op = 4 then doClearStatistics t s
  else (s.cmdFields op t).cmdRefused t

/-- A write of a block-specific word of INNK page 0. -/
def State.innkWrite (s : State) (ini off : Nat) (v : Word) : State :=
  if off = 0x10 then s.innkCmd v.toNat
  else if off = 0x17 then s.loadCfgWrite v.toNat
  else s.plainWrite ini (pInnk0 + off) v.toNat

/-- A write of a word of the task table (R321 to R327). -/
def State.tskWrite (s : State) (a : Nat) (v : Word) : State :=
  let t := (a - pTsk 0) / 0x40
  let w := a % 0x40
  if w = 0 then doTskCfgWrite t v s
  else if w = 1 then doTskAffWrite t false v s
  else if w = 2 then doTskAffWrite t true v s
  else doContextWrite t w v s

/-- A write of a block-specific word of PORTER page 0 (R477, R483). -/
def State.porterWrite (s : State) (ini off : Nat) (v : Word) : State :=
  if off = 0x10 then
    (if bitN v.toNat 35 then doPorterStart (fldGet v.toNat PORTER_START.slot) s
     else s.put pPorter0 PORTER_START.slot (fldGet v.toNat PORTER_START.slot))
  else s.plainWrite ini (pPorter0 + off) v.toNat

/-- A write of PWM_COMMIT (R122, R124, R133): its bits act on the next edge. -/
def State.commitWrite (s : State) (ch v : Nat) : State :=
  let s1 := if bitN v 2 then doPwmCommitStart ch s else s
  let s2 := if bitN v 1 then doPwmCommitStop ch s1 else s1
  if bitN v 0 then doPwmCommitGo ch s2 else s2

/-- A write of PWM_TRIP (R138): filt = 0 keeps the word, with event 7. -/
def State.tripWrite (s : State) (ini ch v : Nat) : State :=
  let a := pPwm ch + 0x20
  let m := s.mergeWord ini a v
  if fldGet m.1 PWM_TRIP.filt = 0 then (s.noteRefused a m.2).ev (pPwm ch) 7 else s.plainWrite ini a v

/-- A write of a block-specific word of a PWM page (R125, R132, R152 to R155). -/
def State.pwmWrite (s : State) (ini ch off : Nat) (v : Word) : State :=
  if off = 0x10 then doPwmCfgWrite ini ch v s
  else if off = 0x11 ∨ inRange off 0x14 4 = true then doShadowWrite ini ch off v s
  else if off = 0x12 ∨ off = 0x13 then
    (if s.carrierRuns ch then s.ev (pPwm ch) 7 else s.plainWrite ini (pPwm ch + off) v.toNat)
  else if off = 0x18 then s.commitWrite ch v.toNat
  else if off = 0x20 then s.tripWrite ini ch v.toNat
  else if off = 0x28 then doSdCfgWrite ch v s
  else s.plainWrite ini (pPwm ch + off) v.toNat

/-- A write of a block-specific word of a CORE page (R313, R316): valid written 1 also clears lost. -/
def State.coreWrite (s : State) (ini c off : Nat) (v : Word) : State :=
  let p := pCore c
  if off = 0x10 then (if bitN v.toNat 35 then (s.put p CORE_EXC_ST.valid 0).put p CORE_EXC_ST.lost 0 else s)
  else if off = 0x14 then (if bitN v.toNat 34 then doNmiSet c s else s)
  else s.plainWrite ini (p + off) v.toNat

/-- A core's write of a SAFE word (R30, R427): the mailbox words, the event and post words, FC_CFG and FC_STAT; any other is counted
as refused whatever it carries. (DESIGN CHOICE, log 29) -/
def State.safeWrite (s : State) (ini a : Nat) (v : Word) : State :=
  let off := a % 0x100
  if a = pSafe 1 + 0x10 then s.mbWrite v.toNat
  else if a = pSafe 1 + 0x11 then s.put (pSafe 1) SAFE_MB_ARG.arg v.toNat
  else if off = 3 ∨ off = 4 ∨ off = 5 ∨ off = 6 ∨ off = 8 ∨ off = 9 then s.headerWrite ini a v
  else s.refuse (pageOf a)

/-- A core's write of a LENS word (R454): the words named there; any other is counted as refused. (DESIGN CHOICE, log 29) -/
def State.lensWrite (s : State) (ini a : Nat) (v : Word) : State :=
  let off := a % 0x100
  if off = 4 ∨ off = 5 ∨ off = 6 ∨ off = 8 ∨ off = 9 then s.headerWrite ini a v
  else if a = pLens 0 + 0x13 then
    (if 11 < fldGet v.toNat LENS_WSEL.arm then s.ev (pLens 0) 9 else s.put (pLens 0) LENS_WSEL.arm (fldGet v.toNat LENS_WSEL.arm))
  else s.refuse (pageOf a)

/-- A write of a block-specific word. -/
def State.blockWrite (s : State) (ini a : Nat) (v : Word) : State :=
  let off := a % 0x100
  match blkOf a with
  | .sys0 => s.sysWrite ini a v
  | .clk => s.clkWrite ini off v
  | .time0 => s.timeWrite off v.toNat
  | .tb n => s.tbWrite n off v.toNat
  | .trg => s.trgWrite ((a - pTrg 0) / 4) (a % 4) v
  | .prism1 => if inRange off 0x10 64 then doPrismPerWrite (off - 0x10) v s else s
  | .prism2 => if inRange off 0x10 16 then doTioCfgWrite ini (off - 0x10) v s else s
  | .innk0 => s.innkWrite ini off v
  | .innk1 => (s.plainWrite ini a v.toNat).noteLevel (off - 0x10)
  | .tsk => s.tskWrite a v
  | .mem0 => s.memWrite ini 0 off v.toNat
  | .mem1 => s.memWrite ini 1 off v.toNat
  | .mem2 => s.memWrite ini 2 off v.toNat
  | .mem3 => s.memWrite ini 3 off v.toNat
  | .porter0 => s.porterWrite ini off v
  | .ring0 => s.ringWrite ini off v.toNat
  | .ring11 => s.cpWrite ini off v.toNat
  | .ethP e => s.ethWrite ini e off v.toNat
  | .pwm ch => s.pwmWrite ini ch off v
  | .ale ch => s.aleWrite ini ch off v
  | .fbk ch => s.fbkWrite ini ch off v
  | .prof ch => s.profWrite ini ch off v
  | .port p => if off = 0x10 then doPortMclkWrite p v s else s
  | .core c => s.coreWrite ini c off v
  | .absent | .snap => s
  | _ => s.plainWrite ini a v.toNat

/-- A write of a word of the register-page space by an initiator (R9 to R11, R30). (DEDUCED, log 15; DEDUCED, log 102) -/
def State.pageWrite (s : State) (ini a : Nat) (v : Word) : State :=
  match blkOf a with
  | .safe0 | .safe1 | .safe2 | .safe3 => s.safeWrite ini a v
  | .lens0 | .lens1 | .lens2 => s.lensWrite ini a v
  | b => if b.hasHeader && decide (a % 0x100 < 0x10) then s.headerWrite ini a v else s.blockWrite ini a v

/-- A write of a word by an initiator, and whether it completes with a bus error (R11, R13 to R15, R26, R501). -/
def State.busWrite (s : State) (ini a : Nat) (v : Word) : State × Bool :=
  match targetOf a with
  | .dram => if s.clk.dead.contains 3 then (s, true) else (s.setMem a v, false)
  | .mram => (s, true)
  | .commons | .localData _ | .localInst _ => (s.setMem a v, false)
  | .alias_ _ => if ini < 64 then (s.setMem (resolveOwn ini a) v, false) else (s, true)
  | .page => if s.gated a then (s, true) else (s.pageWrite ini a v, false)
  | .nothing => (s, false)

/-- Does an access wait before its target takes it: the block of a page holds it (R21, R503)? (DESIGN CHOICE, log 31) -/
def State.mustWait (s : State) (a : Nat) : Bool :=
  match targetOf a with
  | .page => !s.gated a && s.holdsAccess a
  | _ => false

/-- Accesses held for a block proceed in order, once it holds none (R21, R504). (DESIGN CHOICE, log 31) -/
def State.proceed (s : State) (l : List HeldAcc) : State :=
  match l with
  | [] => s
  | h :: r =>
    if s.mustWait h.addr then { s with held := s.held ++ [h] }.proceed r
    else match h.wr with
      | some v => ((s.busWrite h.ini h.addr v).1).proceed r
      | none => s.proceed r

/-- Let the held accesses proceed whose block holds them no more. (DESIGN CHOICE, log 31) -/
def State.proceedHeld (s : State) : State := { s with held := [] }.proceed s.held

/-! The commands. -/

/-- REGISTER_WRITE (R9 to R11, R30): a write by an initiator, held where its block holds accesses. (DEDUCED, log 102) -/
def doRegisterWrite (ini : Nat) (addr v : Word) (s : State) : State :=
  if s.mustWait addr.toNat then { s with held := s.held ++ [{ ini := ini, addr := addr.toNat, wr := some v }] }
  else (s.busWrite ini addr.toNat v).1

/-- The command REGISTER_WRITE (R10). -/
def execRegisterWrite (ini : Nat) (addr v : Word) (s : State) : Out := .next (doRegisterWrite ini addr v s)

/-- The command SRST (R21). -/
def execSrst (page : Nat) (s : State) : Out := .next (s.srst (pageAddr page))

/-- The command SRST_END (R21): the reset of the page is over, and held accesses proceed. -/
def execSrstEnd (page : Nat) (s : State) : Out := .next <|
  { s with srstBusy := s.srstBusy.filter (fun p => p != pageAddr page) }.proceedHeld

/-- The command PAGE_ENABLE_WRITE (R20), for the pages that cores may enable (R30). -/
def execPageEnableWrite (page : Nat) (en : Bool) (s : State) : Out := .next <|
  let p := pageAddr page
  if (blkOf p).readOnly then s.refuse p
  else if (blkOf p).hasHeader then s.enWrite p en
  else s

/-- A gating request of the block whose first page has an index is refused (R504). -/
def State.gateRefuse (s : State) (page : Nat) : State :=
  let p := pageAddr page
  let s1 := ({ s.put p PAGE_CTL.gate_req 0 with gating := s.gating.filter (fun q => q != p) }.put pClk CLK_GATE_REF.page page).inc
    pClk CLK_GATE_REF.n
  (s1.evC pClk 3).proceedHeld

/-- The command GATE_REFUSED (R504): the block was not idle within 1,024 cycles. -/
def execGateRefused (page : Nat) (s : State) : Out := .next (if pageAddr page ∈ s.gating then s.gateRefuse page else s)

/-- The command GATE_RELEASE (R503): a write of PAGE_CTL, which cores may not write on a SAFE or LENS page (R30). -/
def execGateRelease (page : Nat) (s : State) : Out := .next <|
  let p := pageAddr page
  if (blkOf p).readOnly then s.refuse p
  else if gateFirst p then (s.ungate p).proceedHeld
  else s

/-- The command PAGE_POST_DELIVER (R34). -/
def execPagePostDeliver (s : State) : Out := .next (doPagePostDeliver s)

/-- The command EVENT_CLEAR (R24). -/
def execEventClear (page : Nat) (pend : Bool) (mask newEv : Word) (s : State) : Out := .next (doEventClear page pend mask newEv s)

/-- The command FC_CFG_WRITE (R42). -/
def execFcCfgWrite (ini page : Nat) (v : Word) (s : State) : Out := .next (doFcCfgWrite ini page v s)

/-- The command FC_WINDOW_EDGE (R38). -/
def execFcWindowEdge (page : Nat) (s : State) : Out := .next (doFcWindowEdge page s)

/-- The command FAULT_CLEAR (R43). -/
def execFaultClear (page : Nat) (counted : Bool) (s : State) : Out := .next (doFaultClear page counted s)

end Sys2Proof.Machine
end

