-- ==== Sys2Proof/Machine/CoreMem.lean ====
section
/-! DEFINITION. The completion of a core's outstanding accesses at their targets, and accesses of other initiators to a core's stores
(R27, R292 to R297, R461 to R463). -/

namespace Sys2Proof.Machine

/-- The outstanding access `k` of a core. -/
def State.outAt (s : State) (c k : Nat) : Option OutAcc := (s.co c).outs[k]?

/-- Must one access wait for an earlier one: the same word (R294), or the same register page (R27)? (DESIGN CHOICE, log 27) -/
def orderedAfter (c : Nat) (o e : OutAcc) : Bool :=
  resolveOwn c o.addr == resolveOwn c e.addr
    || (decide (targetOf o.addr = .page) && decide (targetOf e.addr = .page) && pageOf o.addr == pageOf e.addr)

/-- Can the outstanding access `k` complete now: its earlier accesses allow it, its target's block does not hold it, and the fabric
runs where it needs it (R21, R27, R294, R501)? (DESIGN CHOICE, log 27) -/
def State.canComplete (s : State) (c k : Nat) (o : OutAcc) : Bool :=
  decide (c < 64) && ((s.co c).outs.take k).all (fun e => !orderedAfter c o e) && !s.mustWait o.addr
    && (isOwn c o.addr || !s.domStopped 1)

/-- Drop the outstanding access `k`: a read that completes lets a load held at the bound issue (R45), and the POSTAs that waited for a
store take effect, or wait for an earlier one (R294). -/
def State.dropOut (s : State) (c k : Nat) : State :=
  let o := (s.outAt c k).getD { kind := .store }
  let l := (s.co c).outs
  let s1 := s.setCo c { s.co c with outs := l.eraseIdx k, stalled := (s.co c).stalled && o.kind == .store }
  match joinStore o.after (l.take k) with
  | some e => s1.setCo c { s1.co c with outs := e ++ l.drop (k + 1) }
  | none => s1.postas c o.after

/-- What follows the end of an access: a POST that waited for its stores is made, a FENCE or ISYNC whose accesses are all complete
ends (R294, R296), and an activation that waits for them ends (R283). -/
def State.afterAccess (s : State) (c : Nat) : State :=
  let s1 := match (s.co c).hold with
    | .fence st => if (if st then s.storesOut c == 0 else (s.co c).outs.isEmpty) then (s.holdIssue c .none).advance c else s
    | .isync => if s.instStored c then (s.holdIssue c .none).advance c else s
    | .posting d t =>
      if s.storesOut c = 0 then (s.offerPost { cls := 2, src := c, task := t }).holdIssue c (.post d) else s
    | _ => s
  s1.tryDrain c

/-- A read of a memory with the outcome of its check (R461, R462); none for a bus error. (DESIGN CHOICE, log 28) -/
def State.checkedRead (s : State) (ini a : Nat) (own : Bool) (how : AccessEnd) : Option Word × State :=
  match targetOf a with
  | .page | .nothing | .alias_ _ => if how = .noResponse then (none, s) else s.busRead ini a
  | _ => if how.good then (s.noteRead a ini false own how).busRead ini a else (none, s.noteRead a ini false own how)

/-- The exception cause of a bus error by the kind of the access (R311). -/
def AccKind.cause (k : AccKind) : Nat :=
  match k with
  | .load => 2
  | .store => 3
  | _ => 4

/-- An outstanding access ends with a bus error (R297): a load or atomic leaves 0 in its destination, a store nothing; the exception
is imprecise and names the access. (DEDUCED, log 26; DEDUCED, log 30) -/
def State.accessError (s : State) (c k : Nat) (o : OutAcc) : State :=
  let s1 := s.dropOut c k
  let s2 := if o.kind = .store then s1 else s1.setGIn c o.bank o.dst 0
  let s3 := if (s2.co c).hold = .atomic then (s2.holdIssue c .none).advance c else s2
  (s3.takeExc c o.kind.cause o.pc o.addr true).afterAccess c

/-- A load completes (R293). -/
def State.loadDone (s : State) (c k : Nat) (o : OutAcc) (how : AccessEnd) : State :=
  let r := s.checkedRead c o.addr false how
  match r.1 with
  | some w => ((r.2.dropOut c k).setGIn c o.bank o.dst w.toNat).afterAccess c
  | none => r.2.accessError c k o

/-- Where an atomic of a core may act: on another core's local data store and on the Commons (R295). -/
def atomicTarget (a : Nat) : Bool :=
  match targetOf a with
  | .commons | .localData _ => true
  | _ => false

/-- An atomic completes (R295): the word is read and written at once, the old word goes to its destination, and issue resumes. -/
def State.atomicDone (s : State) (c k : Nat) (o : OutAcc) (how : AccessEnd) : State :=
  if atomicTarget o.addr then
    let r := s.checkedRead c o.addr false how
    match r.1 with
    | some t =>
      let s1 := ((r.2.setMem o.addr (atomicResult o.kind t o.val o.cmp)).dropOut c k).setGIn c o.bank o.dst t.toNat
      (if (s1.co c).hold = .atomic then (s1.holdIssue c .none).advance c else s1).afterAccess c
    | none => r.2.accessError c k o
  else s.accessError c k o

/-- Does a store read its target first: a single word into a DRAM pair (R463)? -/
def OutAcc.readsFirst (o : OutAcc) : Bool := decide (targetOf o.addr = .dram) && !o.whole

/-- Does a store fail: an uncorrectable error where it reads its target first, or no response (R463)? -/
def OutAcc.fails (o : OutAcc) (how : AccessEnd) : Bool := (o.readsFirst && !how.good) || decide (how = .noResponse)

/-- A posted store completes (R293, R463). -/
def State.storeDone (s : State) (c k : Nat) (o : OutAcc) (how : AccessEnd) : State :=
  if isOwn c o.addr then ((s.setMem (resolveOwn c o.addr) o.val).dropOut c k).afterAccess c
  else
    let s1 := if o.readsFirst then s.noteRead o.addr c false false how else s
    if o.fails how then s1.accessError c k o
    else
      let w := s1.busWrite c o.addr o.val
      if w.2 then w.1.accessError c k o else (w.1.dropOut c k).afterAccess c

/-- LOAD_RETURN (R293): the outstanding load or atomic `k` of a core returns. -/
def doLoadReturn (c k : Nat) (how : AccessEnd) (s : State) : State :=
  match s.outAt c k with
  | none => s
  | some o =>
    if !s.canComplete c k o || o.kind == .store then s
    else if o.kind = .load then s.loadDone c k o how
    else s.atomicDone c k o how

/-- STORE_COMPLETE (R293): the posted store `k` of a core completes. -/
def doStoreComplete (c k : Nat) (how : AccessEnd) (s : State) : State :=
  match s.outAt c k with
  | none => s
  | some o => if s.canComplete c k o && o.kind == .store then s.storeDone c k o how else s

/-- ACCESS_TIMEOUT (R297): the access `k`, outside the core's own stores, got no response within 4 µs. -/
def doAccessTimeout (c k : Nat) (s : State) : State :=
  match s.outAt c k with
  | none => s
  | some o => if isOwn c o.addr || decide (64 ≤ c) then s else s.accessError c k o

/-- An uncorrectable error that a core found in its own stores is counted and recorded (R462, R465, R474); the syndrome is a free value.
(DESIGN CHOICE, log 28) -/
def State.ownError (s : State) (c a : Nat) : State :=
  let f := s.freeVal
  f.2.memError (resolveOwn c a) c f.1 false true true false

/-- EXCEPTION (R312): an exception of a cause of R311, with its information, is taken at the present boundary of a core that
runs; cause 6 is an error of its own stores (R462). -/
def execException (c cause : Nat) (info : Word) (s : State) : Out := .next <|
  if c < 64 ∧ 1 ≤ cause ∧ cause ≤ 7 ∧ ((s.co c).task.isSome ∨ s.inNmi c = true) ∧ (s.co c).drain = .none ∧
      (s.co c).halted = false
  then (if cause = 6 then s.ownError c info.toNat else s).takeExc c cause (s.pc c) info.toNat (inRange cause 2 3)
  else s

/-- REMOTE_STORE_ACCESS (R292): another initiator reads or writes a word of a core's local store; the word read is shown in
`rdata`. (DESIGN CHOICE, log 28) -/
def doRemoteStoreAccess (ini : Nat) (addr : Word) (wr : Option Word) (s : State) : State :=
  match targetOf addr.toNat with
  | .localData c | .localInst c =>
    if ini = c then s
    else match wr with
      | some v => (s.busWrite ini addr.toNat v).1
      | none =>
        let r := s.busRead ini addr.toNat
        { r.2 with rdata := r.1.getD 0 }
  | _ => s

/-! The commands. -/

/-- The command LOAD_RETURN (R293). -/
def execLoadReturn (c k : Nat) (how : AccessEnd) (s : State) : Out := .next (doLoadReturn c k how s)

/-- The command STORE_COMPLETE (R293). -/
def execStoreComplete (c k : Nat) (how : AccessEnd) (s : State) : Out := .next (doStoreComplete c k how s)

/-- The command ACCESS_TIMEOUT (R297). -/
def execAccessTimeout (c k : Nat) (s : State) : Out := .next (doAccessTimeout c k s)

/-- The command REMOTE_STORE_ACCESS (R292). -/
def execRemoteStoreAccess (ini : Nat) (addr : Word) (wr : Option Word) (s : State) : Out := .next (doRemoteStoreAccess ini addr wr s)

end Sys2Proof.Machine
end

