-- ==== Sys2Proof/Machine/Porter.lean ====
section
/-! DEFINITION. The Porter engines: descriptors, their words, and their ends (R41, R477 to R481). -/

namespace Sys2Proof.Machine

/-- The initiator number of an engine. (DESIGN CHOICE, log 7) -/
def engIni (e : Nat) : Nat := 64 + e

/-- Does an engine's page let it work: enabled, not in reset, its clock not gated (R503), and the fabric runs? (DEDUCED, log 67) -/
def State.porterRuns (s : State) : Bool :=
  s.flag pPorter0 PAGE_CTL.en && !s.srstBusy.contains pPorter0 && !s.domStopped 1 && !s.clockOff pPorter0

/-- The completion post of a descriptor (R479, R480). -/
def State.descPost (s : State) (d : List Word) : State :=
  if bitN (dw d 0) 31 then s.offerPost { cls := 1, src := 0x600, task := dw d 0 / 2 ^ 22 % 512 } else s

/-- A descriptor fails with a code (R480): word 0 is written back where it was read, the chain ends. (DEDUCED, log 68) -/
def State.descFail (s : State) (e : Nat) (r : PorterEng) (code : Nat) : State :=
  let s1 := (s.descBack r 0 1 code).descPost (r.desc.getD [])
  ((s1.porterFail r.slot r.addr code).setPe e none).showChains r.slot

/-! Moving words. -/

/-- One word of a copy or a fill: the failure code where it fails (R480). -/
def State.moveWord (s : State) (e : Nat) (d : List Word) (m : Nat × Nat) : Option Nat × State :=
  let put := fun (v : Word) (t : State) =>
    let w := t.busWrite (engIni e) m.2 v
    if w.2 then (some 3, w.1) else (none, w.1.incMod pPorter0 PORTER_WORDS.n)
  if dKind d = 1 then put (d.getD 1 0) s
  else
    let r := s.busRead (engIni e) m.1
    match r.1 with
    | some v => put v r.2
    | none => (some 2, r.2)

/-- An engine moves the next word of its copy or fill, unless a block holds it (R479, R480). (DESIGN CHOICE, log 73) -/
def State.moveStep (s : State) (e : Nat) : State :=
  match s.pe e with
  | some { desc := some d, slot := k, addr := a, moved := n } =>
    let r : PorterEng := { slot := k, addr := a, desc := some d, moved := n }
    if !s.porterRuns || r.next.isEmpty || r.next.any s.mustWait then s
    else
      let t := s.moveWord e d (dMove d n)
      match t.1 with
      | some c => t.2.descFail e r c
      | none => if t.2.pe e = some r then t.2.setPe e (some { r with moved := n + 1 }) else t.2
  | _ => s

/-- An engine moves up to `n` words. -/
def State.moveSteps (s : State) (e n : Nat) : State :=
  match n with
  | 0 => s
  | m + 1 => (s.moveStep e).moveSteps e m

/-- Each engine moves one word on an edge (R479), which lies below its pace of one word per FAB cycle. (DESIGN CHOICE, log 73) -/
def State.porterTick (s : State) : State := overAll (List.range 4) s (fun e t => t.moveStep e)

/-- The words of an MRAM write are queued in order (R472, R478), up to a read that fails. -/
def State.queueAll (s : State) (e : Nat) (l : List (Nat × Nat)) : Option Nat × State :=
  match l with
  | [] => (none, s)
  | m :: r =>
    let t := s.busRead (engIni e) m.1
    match t.1 with
    | some v => ((t.2.mramPush { off := m.2, w := v, src := 1 + e }).incMod pPorter0 PORTER_WORDS.n).queueAll e r
    | none => (some 2, t.2)

/-- Words that an engine still has in the MRAM queue. -/
def State.mramLeft (s : State) (e : Nat) : Nat := (s.mwq.filter (fun r => r.src == 1 + e)).length

/-! Beginning a descriptor. -/

/-- Is a descriptor's address permitted (R478): a multiple of 8 in the Commons or DRAM? -/
def descAddrOk (a : Nat) : Bool := a % 8 == 0 && (decide (targetOf a = .commons) || decide (targetOf a = .dram))

/-- An MRAM write begins: a protected region is code 4, and no word is then queued; a word beyond the MRAM is code 5, and the words
before it are queued (R480). (DEDUCED, log 67) -/
def State.beginMram (s : State) (e : Nat) (r : PorterEng) (d : List Word) : State :=
  let l := (dMoves d).takeWhile (fun m => decide (m.2 < 0x800000))
  if l.any (fun m => !s.mramOpen m.2) then s.descFail e r 4
  else
    let q := s.queueAll e l
    match q.1 with
    | some k => q.2.descFail e r k
    | none => if l.length < dCount d then q.2.descFail e r 5 else q.2

/-- An engine begins a descriptor (R478 to R480): it reads the 8 words once and checks them. -/
def State.beginDesc (s : State) (e : Nat) (r : PorterEng) : State :=
  if descAddrOk r.addr = false then s.descFail e { r with desc := none } 7
  else if (s.busRead (engIni e) r.addr).1.isNone then s.descFail e { r with desc := none } 2
  else
    let d := (List.range 8).map (fun i => s.memW (r.addr + i))
    let r1 := { r with desc := some d }
    let s1 := s.setPe e (some r1)
    if dValid d = false then s1.descFail e r1 1
    else if dKind d = 2 then s1.beginMram e r1 d
    else s1

/-- The chain that an idle engine takes (R477): the oldest of an urgent slot, else the oldest; chains of one slot run one after the
other. -/
def State.nextChain (s : State) : Option Nat :=
  let busy := ((List.range 4).filterMap s.pe).map (fun r => r.slot)
  let l := s.porter.queue.filter (fun k => !busy.contains k)
  match l.find? (fun k => s.flag pPorter1 (PORTER_SCTL.urg k)) with
  | some k => some k
  | none => l.head?

/-- ENGINE_ASSIGN (R477, R41): an idle engine takes a chain, and an engine whose next descriptor waits begins it. (DEDUCED, log 67) -/
def doEngineAssign (e : Nat) (s : State) : State :=
  if decide (4 ≤ e) || !s.porterRuns || pageBlocked s pPorter0 then s
  else match s.pe e with
    | some r => if r.desc.isNone then s.beginDesc e r else s
    | none =>
      match s.nextChain with
      | none => s
      | some k =>
        { s with porter := { s.porter with queue := s.porter.queue.erase k } }.beginDesc e
          { slot := k, addr := s.get pPorter1 (PORTER_SHEAD.head k) }

/-! The end of a descriptor. -/

/-- A descriptor is done (R479): done is written back, the task posted, and the next descriptor begins; after the last, the chain's
run counts and event 0 is recorded. -/
def State.descEnd (s : State) (e : Nat) (r : PorterEng) (d : List Word) : State :=
  let s1 := (s.descBack r 1 0 0).descPost d
  if dw d 6 = 0 then
    (((s1.incMod pPorter1 (PORTER_SCTL.runs r.slot)).ev pPorter0 0).setPe e none).showChains r.slot
  else
    let r1 : PorterEng := { slot := r.slot, addr := dw d 6 }
    let s2 := s1.setPe e (some r1)
    if pageBlocked s2 pPorter0 then s2 else s2.beginDesc e r1

/-- DESCRIPTOR_DONE (R479): the words that are left are moved, up to one that a block holds; once every word has been, the descriptor is
done. A word that has no target fails it instead (R480). (DESIGN CHOICE, log 73) -/
def doDescriptorDone (e : Nat) (s : State) : State :=
  match s.pe e with
  | some { desc := some d, slot := k, addr := a, moved := n } =>
    let r : PorterEng := { slot := k, addr := a, desc := some d, moved := n }
    if !s.porterRuns then s
    else if dKind d = 2 then (if s.mramLeft e = 0 then s.descEnd e r d else s)
    else
      let t := s.moveSteps e (dCount d - n)
      let r1 := { r with moved := dCount d }
      if t.pe e = some r1 then t.descEnd e r1 d else t
  | _ => s

/-- Of the words that an engine queued for MRAM, keep the first `n`. -/
def keepQueued (e n : Nat) (l : List MramWr) : List MramWr :=
  match l with
  | [] => []
  | r :: q => if r.src = 1 + e then (if n = 0 then keepQueued e 0 q else r :: keepQueued e (n - 1) q) else r :: keepQueued e n q

/-- Does a write of the word `k` read its target first: a single word into a DRAM pair (R463)? -/
def dReadsFirst (d : List Word) (k : Nat) : Bool := decide (targetOf (dMove d k).2 = .dram) && !dWhole d k

/-- The word of a descriptor, not yet moved, that an engine reads from or writes to an address: the first such. -/
def PorterEng.wordAt (r : PorterEng) (d : List Word) (addr : Nat) (onWrite : Bool) : Option Nat :=
  (List.range (dCount d)).find? (fun k =>
    decide (r.moved ≤ k) && (if onWrite then (dMove d k).2 == addr else dKind d != 1 && (dMove d k).1 == addr))

/-- The words of an MRAM write before the word `k` are queued, and the engine stops there. -/
def State.cutMram (s : State) (e k : Nat) (d : List Word) : Option State :=
  let written := dCount d - s.mramLeft e
  if k < written then none else some { s with mwq := keepQueued e (k - written) s.mwq }.showMwq

/-- DESCRIPTOR_FAILED (R480): the engine stops at the word whose read or write fails; the words before it are moved. A read of the
descriptor itself may fail as well; an outcome that is no failure is counted (R461), and the engine goes on.
(DESIGN CHOICE, log 28; DESIGN CHOICE, log 73) -/
def doDescriptorFailed (e addr : Nat) (onWrite : Bool) (how : AccessEnd) (s : State) : State :=
  match s.pe e with
  | some { desc := some d, slot := k, addr := a, moved := n } =>
    let r : PorterEng := { slot := k, addr := a, desc := some d, moved := n }
    let code := if onWrite then 3 else 2
    let note := fun (t : State) => t.noteRead addr (engIni e) false false how
    if !s.porterRuns then s
    else if !onWrite && inRange addr a 8 then (if how.good then note s else (note s).descFail e r code)
    else match r.wordAt d addr onWrite with
      | none => s
      | some i =>
        if onWrite && !dReadsFirst d i && decide (how ≠ .noResponse) then s
        else if how.good then note s
        else if dKind d = 2 then
          (match s.cutMram e i d with
           | some t => if onWrite then s else (note t).descFail e r code
           | none => s)
        else
          let t := s.moveSteps e (i - n)
          let r1 := { r with moved := i }
          if t.pe e = some r1 then (note t).descFail e r1 code else t
  | _ => s

/-! The commands. -/

/-- The command ENGINE_ASSIGN (R477). -/
def execEngineAssign (e : Nat) (s : State) : Out := .next (doEngineAssign e s)

/-- The command DESCRIPTOR_DONE (R479). -/
def execDescriptorDone (e : Nat) (s : State) : Out := .next (doDescriptorDone e s)

/-- The command DESCRIPTOR_FAILED (R480). -/
def execDescriptorFailed (e addr : Nat) (onWrite : Bool) (how : AccessEnd) (s : State) : Out := .next (doDescriptorFailed e addr onWrite how s)

end Sys2Proof.Machine
end

