-- ==== Sys2Proof/Machine/Boot.lean ====
section
/-! DEFINITION. The boot from the release of a reset to the release of the cores (R509 to R517), recovery (R519), and the recovery
console (R520, R521). -/

namespace Sys2Proof.Machine

/-! Loading an image (R510 steps 8 to 10, R512, R515, R516). -/

/-- Load words in ascending order. -/
def State.loadWords (s : State) (a : Nat) (l : List Nat) : State :=
  match l with
  | [] => s
  | w :: r => (s.setMem a (word w)).loadWords (a + 1) r

/-- Block resets and gating requests that a write began have come to their ends (R21, R503, R504). (DEDUCED, log 94) -/
def State.settle (s : State) : State :=
  overAll s.gating { s with srstBusy := [] }.proceedHeld (fun p t =>
    let page := (p - pageSpace) / 0x100
    if t.crossIdle p then doGateAck page t else t.gateRefuse page)

/-- Apply register writes in order, each as a write of that value; the block resets and gating requests that one begins end before the
next. (DEDUCED, log 94) -/
def State.applyWrites (s : State) (l : List (Nat × Nat)) : State :=
  match l with
  | [] => s
  | e :: r => (doRegisterWrite iniBoot (word e.1) (word e.2) s).settle.applyWrites r

/-- Load one section of the image at `a`. -/
def State.loadSection (s : State) (a : Nat) (x : Section) : State :=
  if x.typ = 2 then s.applyWrites (s.sectionWrites a x)
  else s.loadWords x.dst ((List.range x.count).map (fun i => s.dataWord a (x.off + 5 * i)))

/-- Load the sections in image order. -/
def State.loadImage (s : State) (a : Nat) (l : List Section) : State :=
  match l with
  | [] => s
  | x :: r => (s.loadSection a x).loadImage a r

/-- Little-endian octets of a number. -/
def octetsOf (n v : Nat) : List Nat := (List.range n).map (fun i => v / 256 ^ i % 256)

/-- The boot record (R517): boots, the bank booted, and the codes of both banks. -/
def State.writeBootRecord (s : State) (b : Bool) (codeA codeB : Nat) : State :=
  s.putOcts commBase 128 (octetsOf 4 (s.leAt commBase 128 4 + 1) ++ [b2n b, codeA, codeB])

/-- The clocks as steps 1 to 4 leave them (R489, R492, R494, R496, R510): XO-M ready, every PLL locked, FAB and CORE on their PLLs by a
checked switch, CORE on 800 MHz while it is throttled, PCLK, unless it is dead, and MEMC released. (DEDUCED, log 90) -/
def State.bootClocks (s : State) : State :=
  let s1 := ((s.put pClk CLK_SRC.xom_rdy 1).put pClk CLK_PLL.en 15).put pClk CLK_PLL.lock 15
  let s2 := overAll [0, 1] s1 (fun d t =>
    let cur := if d = 0 ∧ t.flag pClk CLK_DOM_CORE.thr = true then 2 else 1
    (((t.put pClk (domFld d CLK_DOM_CORE.cur) cur).put pClk (domFld d CLK_DOM_CORE.src) 1).put
      pClk (domFld d CLK_DOM_CORE.sw) 1).put pClk (domFld d CLK_DOM_CORE.res) 1)
  ((s2.put pClk CLK_DOM_FIX.prun (1 - s.get pClk CLK_DOM_FIX.pdead)).put pClk CLK_DOM_FIX.mrun 1).ev pClk 0

/-- The codes of banks A and B (R514): the bank that is tried first, and the other when that fails. (DEDUCED, log 92) -/
def State.bankCodes (s : State) (ueA ueB : Bool) : Nat × Nat :=
  if s.firstB 0 then
    let cb := s.imgCode 0 true ueB
    (if cb = 1 then 0 else s.imgCode 0 false ueA, cb)
  else
    let ca := s.imgCode 0 false ueA
    (ca, if ca = 1 then 0 else s.imgCode 0 true ueB)

/-- The release of the cores (R516). -/
def State.releaseCores (s : State) (a : Nat) : State :=
  overAll (List.range 64) s (fun c t => if s.released a c then t.enWrite (pCore c) true else t)

/-- Steps 8 to 10 of R510 with the bank that passed. -/
def State.bootBank (s : State) (b : Bool) (codeA codeB ms : Nat) : State :=
  let a := bankBase 0 b
  let s1 := (s.loadImage a (s.imgSections a)).writeBootRecord b codeA codeB
  let s2 := (s1.put (pMem 3) MEM_MWP.we (if b then 0x62 else 0x64)).seal
  let s3 := ((s2.put pSys SYS_IMG.idn (s.imgId a)).put pSys SYS_IMG_ISSUE.issue (s.leAt a 12 4)).put pSys SYS_BOOT.bank (b2n b)
  let s4 := ((s3.put pSys SYS_BOOT.slot (s.octAt a 7)).put pSys SYS_BOOT.test (s.octAt a 19)).put pSys SYS_BOOT.ms ms
  ((s4.releaseCores a).put pSys SYS_BOOT.state 3).offerPost { cls := 2, src := 0, task := s.leAt a 22 2 }

/-- Steps 1 to 7 of R510: the clocks run, and every store outside the MRAM is filled with zeros. -/
def State.bootMemory (s : State) : State := { s.bootClocks with mem := mramOnly s.bootClocks.mem }

/-- Note the codes of the banks, and take the request for recovery. -/
def State.noteCodes (s : State) (ca cb : Nat) : State :=
  { (s.put pSys SYS_BOOT.acode ca).put pSys SYS_BOOT.bcode cb with clk := { s.clk with recov := false } }

/-- Steps 6 to 10 of R510, or recovery (R519). -/
def State.bootImage (s : State) (ms : Nat) (c : Nat × Nat) : State :=
  if s.clk.recov || (c.1 != 1 && c.2 != 1) then (s.noteCodes c.1 c.2).put pSys SYS_BOOT.state 1
  else (s.noteCodes c.1 c.2).bootBank (c.2 == 1) c.1 c.2 ms

/-- Can the boot ROM run: the module has come out of a reset and has not booted since, and neither CORE nor FAB is dead (R501)? -/
def State.canBoot (s : State) : Bool := s.get pSys SYS_BOOT.state == 0 && !s.clk.hot && !s.olSealed && s.clk.dead.all (fun d => decide (1 < d))

/-- BOOT (R509 to R519): the boot ROM runs from the release of the reset to the release of the cores or to recovery. `ms` is the
time it took, `ueA` and `ueB` whether a bank's read meets an uncorrectable MRAM error. (DEDUCED, log 94) -/
def doBoot (ms : Nat) (ueA ueB : Bool) (s : State) : State :=
  if s.canBoot then s.bootMemory.bootImage ms (s.bootMemory.bankCodes ueA ueB) else s

/-- RECOVERY_REQUEST (R519): before sealing, the boot that runs enters recovery. -/
def doRecoveryRequest (s : State) : State :=
  if s.get pSys SYS_BOOT.state = 0 ∧ s.olSealed = false then { s with clk := { s.clk with recov := true } } else s

/-! The console (R520). -/

/-- The console runs in recovery; it answers OK or ERR with a code, which is a free value, and words. (DESIGN CHOICE, log 96) -/
def State.answer (s : State) (ok : Bool) (ws : List Word) : State :=
  { s.freeVal.2 with console := { ok := ok, code := s.freeVal.1, ws := ws } }

/-- A console command, which only a module in recovery takes. (DESIGN CHOICE, log 96) -/
def State.onConsole (s : State) (k : State → State) : State := if s.get pSys SYS_BOOT.state = 1 then k s else s

/-- CONSOLE_INFO: the identity words, SYS_RCAUSE, SYS_BOOT and the boot record. -/
def execConsoleInfo (s : State) : Out := .next <| s.onConsole (fun u =>
  u.answer true ([u.regW (pSys + 0x17), u.regW (pSys + 0x18), u.regW (pSys + 0x19), u.regW (pSys + 0x1A), u.regW (pSys + 0x1C),
    u.memW (commBase + 32), u.memW (commBase + 33)]))

/-- CONSOLE_READ: up to 4,096 words of the MRAM. -/
def execConsoleRead (off count : Nat) (s : State) : Out := .next <| s.onConsole (fun u =>
  if 4096 < count ∨ 0x800000 < off + count then u.answer false []
  else u.answer true ((List.range count).map (fun i => u.memW (mramBase + off + i))))

/-- CONSOLE_WRITE: words to MRAM regions 1 to 5 only. -/
def execConsoleWrite (off : Nat) (ws : List Word) (s : State) : Out := .next <| s.onConsole (fun u =>
  if off < 0x10000 ∨ 0x710000 < off + ws.length then u.answer false []
  else (u.loadWords (mramBase + off) (ws.map (fun w => w.toNat))).answer true [])

/-- What the signature of a KEY request covers (R521): the digest of the new key followed by the serial identity. (DESIGN CHOICE, log 96) -/
def keyDigest (key : List Nat) : List Nat := sha512 (key ++ octetsOf 8 Config.serial)

/-- CONSOLE_KEY (R521): an empty slot takes the key; an installed key is replaced or cleared only under its own signature. -/
def execConsoleKey (key sig : List Nat) (s : State) : Out := .next <| s.onConsole (fun u =>
  if key.length = 32 ∧ (u.integratorKey = false ∨ edVerify (u.keySlot 1) (keyDigest key) sig = true) then
    (u.putOcts commBase 36 key).answer true []
  else u.answer false [])

/-- CONSOLE_MINISSUE: raises a minimum issue; a value below the present one is refused. -/
def execConsoleMinissue (safety : Bool) (issue : Nat) (s : State) : Out := .next <| s.onConsole (fun u =>
  let k := 68 + 4 * b2n safety
  if u.leAt commBase k 4 ≤ issue ∧ issue < 2 ^ 32 then (u.putOcts commBase k (octetsOf 4 issue)).answer true []
  else u.answer false [])

/-- CONSOLE_GATE: a forced gate (R505). -/
def execConsoleGate (page : Nat) (s : State) : Out := .next <| s.onConsole (fun u =>
  (u.forcedGate page).answer (gatePage (pageAddr page)).isSome [])

/-- CONSOLE_RESET: kind 1 a module reset, 2 a compute reset, 3 a module reset into recovery. -/
def execConsoleReset (kind : Nat) (s : State) : Out := .next <| s.onConsole (fun u =>
  if kind = 1 then (doModuleReset false true u).answer true []
  else if kind = 2 then (doComputeReset false 3 u).answer true []
  else if kind = 3 then (doModuleReset true true u).answer true []
  else u.answer false [])

/-- The command BOOT (R510). -/
def execBoot (ms : Nat) (ueA ueB : Bool) (s : State) : Out := .next (doBoot ms ueA ueB s)

/-- The command RECOVERY_REQUEST (R519). -/
def execRecoveryRequest (s : State) : Out := .next (doRecoveryRequest s)

end Sys2Proof.Machine
end

