-- ==== Sys2Proof/Machine/Envir.lean ====
section
/-! DEFINITION. The module's supplies, fans and temperatures, the port identity resistors, the arm-port drivers and the front
panel (R526, R528, R529, R535, R536, R538 to R541, R544). -/

namespace Sys2Proof.Machine

/-! The port identity (R528, R529). -/

/-- Code, if any, of a resistance in ohm: (k + 1) kΩ ± 0.3 kΩ. -/
def idCode (ohm : Nat) : Option Nat := (List.range 16).find? (fun k => decide (1000 * (k + 1) ≤ ohm + 300) && decide (ohm ≤ 1000 * (k + 1) + 300))

/-- The state that a resistance reads as: 0 code valid, 1 open, 2 short, 3 between bands. -/
def idState (ohm : Nat) : Nat := if 20000 < ohm then 1 else if ohm < 300 then 2 else if (idCode ohm).isSome then 0 else 3

/-- PORT_IDENTITY_MEASURE (R528): the word follows the resistance, and a change of st or code records event 0. (DESIGN CHOICE, log 101) -/
def doPortIdentityMeasure (port ohm : Nat) (s : State) : State :=
  let p := pPort port
  let st := idState ohm
  let code := if st = 0 then (idCode ohm).getD 0 else 0
  if 12 ≤ port then s
  else
    let s1 := ((s.put p PORT_IDR.st st).put p PORT_IDR.code code).put p PORT_IDR.r (satN 65535 (ohm / 10))
    if s.get p PORT_IDR.st = st ∧ s.get p PORT_IDR.code = code then s1 else s1.evC p 0

/-! The supplies (R535, R536). -/

/-- The presence bit of a LOGIC input. -/
def logicFld (b : Bool) : Fld := if b then SYS_ENVST.lb else SYS_ENVST.la

/-- LOGIC_INPUT_LOST (R535). -/
def doLogicInputLost (b : Bool) (s : State) : State :=
  if s.flag pSys1 (logicFld b) then (s.put pSys1 (logicFld b) 0).evC pSys1 0 else s

/-- LOGIC_INPUT_RETURNED (R535). -/
def doLogicInputReturned (b : Bool) (s : State) : State :=
  if s.flag pSys1 (logicFld b) then s else (s.put pSys1 (logicFld b) 1).ev pSys1 1

/-- BRAKE_INPUT_FAULT (R536, R416, R226): the brakes of the input's ports fault, the ports stop with cause 12, and their encoder
supplies fail. -/
def doBrakeInputFault (b : Bool) (s : State) : State :=
  let i := b2n b
  if i ∈ s.isl.brakeBad then s
  else
    let s1 := { s with isl := { s.isl with brakeBad := i :: s.isl.brakeBad } }
    let s2 := overAll (List.range 48) s1 (fun k t => t.brakeFault (48 * i + k))
    let s3 := overAll (List.range 6) s2 (fun k t => t.stopPort (6 * i + k) 12 false)
    let s4 := (s3.put pSys1 (if b then SYS_ENVST.b2ok else SYS_ENVST.b1ok) 0).evC pSys1 2
    overAll (List.range 48) s4 (fun k t => doSupplyUndervoltage (48 * i + k) t)

/-! Fans and temperatures (R538 to R541). -/

/-- The failure bit of a fan. -/
def fanFld (k : Nat) : Fld := if k = 0 then SYS_FAN.f0fail else SYS_FAN.f1fail

/-- Does the throttling condition hold (R539)? Temperatures are in sixteenths of a degree. -/
def State.throttling (s : State) : Bool :=
  let f0 := s.flag pSys1 SYS_FAN.f0fail
  let f1 := s.flag pSys1 SYS_FAN.f1fail
  ((f0 || f1) && decide (800 ≤ s.getI pSys1 SYS_TEMP.intake)) || (f0 && f1) || decide (1760 ≤ s.getI pSys1 SYS_TEMP.die)

/-- SYS_ENVST.thrc follows the condition; each change records event 4 (R539), and the condition's end is noted (R496). -/
def State.showThrottling (s : State) : State :=
  if s.flag pSys1 SYS_ENVST.thrc = s.throttling then s
  else
    let s1 := (s.put pSys1 SYS_ENVST.thrc (b2n s.throttling)).ev pSys1 4
    if s.throttling then s1 else { s1 with clk := { s1.clk with thrAt := some s.now } }

/-- FAN_FAILED (R538). -/
def doFanFailed (k : Nat) (s : State) : State :=
  if 2 ≤ k ∨ s.flag pSys1 (fanFld k) = true then s else ((s.put pSys1 (fanFld k) 1).evC pSys1 3).showThrottling

/-- FAN_RUNNING (R538). -/
def doFanRunning (k : Nat) (s : State) : State :=
  if 2 ≤ k ∨ s.flag pSys1 (fanFld k) = false then s else (s.put pSys1 (fanFld k) 0).showThrottling

/-- TEMPERATURE_WARNING (R540): warn sets at a threshold, with event 5, and clears 2 °C below both. -/
def doTemperatureWarning (on : Bool) (s : State) : State :=
  if s.flag pSys1 SYS_ENVST.warn = on then s
  else if on then (s.put pSys1 SYS_ENVST.warn 1).evC pSys1 5 else s.put pSys1 SYS_ENVST.warn 0

/-- The temperature warning by the measured temperatures (R540): from 70 °C at the intake or 105 °C at the die, until both lie 2 °C
below. -/
def State.showWarning (s : State) : State :=
  let a := s.getI pSys1 SYS_TEMP.intake
  let d := s.getI pSys1 SYS_TEMP.die
  if 1120 ≤ a ∨ 1680 ≤ d then doTemperatureWarning true s
  else if a ≤ 1088 ∧ d ≤ 1648 then doTemperatureWarning false s
  else s

/-- A presence bit by its input's voltage in 10 mV (R535): below 18.0 V the input is lost, above 18.5 V it returns. (DEDUCED, log 95) -/
def State.showLogic (s : State) (b : Bool) (v : Nat) : State :=
  if v < 1800 then doLogicInputLost b s else if 1850 < v then doLogicInputReturned b s else s

/-- The ok bit of a BRAKE input that is in range and below its limit, and with it the end of its fault. (DEDUCED, log 95) -/
def State.showBrake (s : State) (b : Bool) (v i : Nat) : State :=
  if 1800 ≤ v ∧ i < 1800 then
    let s1 := { s with isl := { s.isl with brakeBad := s.isl.brakeBad.filter (fun k => k != b2n b) } }
    s1.put pSys1 (if b then SYS_ENVST.b2ok else SYS_ENVST.b1ok) 1
  else s

/-- The words of SYS page 1 take the measured values (R541); the fans' failure bits stay. -/
def State.showEnvironment (s : State) (temp fan vlogic vbrake ibrake : Word) : State :=
  let p := pSys1
  let f := fan.toNat
  let s1 := ((s.setReg (p + 0x10) temp.toNat).put p SYS_FAN.f0rpm (fldGet f SYS_FAN.f0rpm)).put p SYS_FAN.f1rpm (fldGet f SYS_FAN.f1rpm)
  let s2 := ((s1.setReg (p + 0x12) vlogic.toNat).setReg (p + 0x13) (vbrake.toNat / 2 ^ 12 * 2 ^ 12)).setReg (p + 0x14)
    (ibrake.toNat / 2 ^ 12 * 2 ^ 12)
  let s3 := (s2.showLogic false (fldGet vlogic.toNat SYS_VLOGIC.va)).showLogic true (fldGet vlogic.toNat SYS_VLOGIC.vb)
  ((s3.showBrake false (fldGet vbrake.toNat SYS_VBRAKE.v1) (fldGet ibrake.toNat SYS_IBRAKE.i1)).showBrake true
    (fldGet vbrake.toNat SYS_VBRAKE.v2) (fldGet ibrake.toNat SYS_IBRAKE.i2)).showWarning.showThrottling

/-- ENVIRONMENT_UPDATE (R540, R541): every 10 ms the words take the measured values; a die at 125 °C shuts the compute side down, until
it has cooled below 100 °C; the words of a compute side without supply stand. (DEDUCED, log 95; DESIGN CHOICE, log 101) -/
def doEnvironmentUpdate (temp fan vlogic vbrake ibrake : Word) (s : State) : State :=
  let die := sint 12 (fldGet temp.toNat SYS_TEMP.die)
  if s.clk.hot then (if die < 1600 then doOverTemperatureShutdown false s else s)
  else
    let t := s.showEnvironment temp fan vlogic vbrake ibrake
    if 2000 ≤ die then doOverTemperatureShutdown true t else t

/-! What the pads and the front panel show, which no register holds. -/

/-- Do the gate, GEN and MCLK drivers of the arm ports drive their pairs (R526): since PCLK first ran after the reset? A dead PCLK
has run. (DEDUCED, log 95) -/
def State.driversOn (s : State) : Bool := s.flag pClk CLK_DOM_FIX.prun || s.flag pClk CLK_DOM_FIX.pdead

/-- An indicator of the front panel (R544). -/
inductive Lamp where
  | off | green | greenFlash | amber | amberFlash | red | redFlash
  deriving DecidableEq, Repr

/-- PWR: the worst state that holds shows. (DEDUCED, log 95) -/
def State.lampPwr (s : State) : Lamp :=
  let la := s.flag pSys1 SYS_ENVST.la
  let lb := s.flag pSys1 SYS_ENVST.lb
  if !la && !lb then .off else if !s.isl.brakeBad.isEmpty then .red else if la && lb then .green else .amber

/-- SYS. -/
def State.lampSys (s : State) : Lamp :=
  let st := s.get pSys SYS_BOOT.state
  if !s.clk.dead.isEmpty then .red else if st = 1 then .redFlash else if st = 0 then .greenFlash
  else if s.flag pSys SYS_BOOT.test then .amber else .green

/-- SAFE. -/
def State.lampSafe (s : State) : Lamp :=
  let st := s.get (pSafe 0) SAFE_STAT.state
  if s.flag (pSafe 0) SAFE_STAT.hwsafe then .redFlash else if st = 5 then .red else if st = 4 then .green
  else if st = 2 ∨ st = 3 then .amberFlash else .off

/-- FAN. -/
def State.lampFan (s : State) : Lamp :=
  if s.flag pSys1 SYS_ENVST.thrc then .red
  else if s.flag pSys1 SYS_FAN.f0fail || s.flag pSys1 SYS_FAN.f1fail then .amber else .green

/-- The indicator of an arm port. -/
def State.lampPort (s : State) (p : Nat) : Lamp :=
  let st := s.get (pSafe 2) (SAFE_PORT.pstate p)
  if s.flag (pSafe 2) (SAFE_PORT.ackreq p) then .amberFlash
  else if st = 2 then .green else if st = 1 then .amber else .off

/-- RING-E and RING-W: ring ports 0 and 1. -/
def State.lampRing (s : State) (u : Nat) : Lamp :=
  let st := s.get pRing0 RING_STAT.state
  if s.flag (pRing u) RING_P_STAT.broken then .red else if st = 5 then .redFlash
  else if !s.flag (pRing u) RING_P_STAT.up then .off
  else if st = 4 then .green else if st = 0 then .off else .amber

/-- SPK-0 to SPK-7: ring ports 2 to 9. -/
def State.lampSpoke (s : State) (u : Nat) : Lamp :=
  if 0 < s.get (pRing u) RING_P_STAT.lkfail then .amber else if s.flag (pRing u) RING_P_STAT.up then .green else .off

/-- The indicator of a plant Ethernet port: it flashes while a frame is recent. (DEDUCED, log 95) -/
def State.lampEth (s : State) (e : Nat) : Lamp :=
  if !s.flag (pEth e) ETH_LINK.up then .off
  else if (s.et e).busyAt.any (fun t => decide (s.now < t + Config.trafficShown)) then .amberFlash else .green

/-! The commands. -/

/-- The command PORT_IDENTITY_MEASURE (R528). -/
def execPortIdentityMeasure (port ohm : Nat) (s : State) : Out := .next (doPortIdentityMeasure port ohm s)

/-- The command LOGIC_INPUT_LOST (R535). -/
def execLogicInputLost (b : Bool) (s : State) : Out := .next (doLogicInputLost b s)

/-- The command LOGIC_INPUT_RETURNED (R535). -/
def execLogicInputReturned (b : Bool) (s : State) : Out := .next (doLogicInputReturned b s)

/-- The command BRAKE_INPUT_FAULT (R536). -/
def execBrakeInputFault (b : Bool) (s : State) : Out := .next (doBrakeInputFault b s)

/-- The command FAN_FAILED (R538). -/
def execFanFailed (k : Nat) (s : State) : Out := .next (doFanFailed k s)

/-- The command FAN_RUNNING (R538). -/
def execFanRunning (k : Nat) (s : State) : Out := .next (doFanRunning k s)

/-- The command TEMPERATURE_WARNING (R540). -/
def execTemperatureWarning (on : Bool) (s : State) : Out := .next (doTemperatureWarning on s)

/-- The command ENVIRONMENT_UPDATE (R541). -/
def execEnvironmentUpdate (temp fan vlogic vbrake ibrake : Word) (s : State) : Out :=
  .next (doEnvironmentUpdate temp fan vlogic vbrake ibrake s)

end Sys2Proof.Machine
end

