-- ==== Sys2Proof/Machine/Dispatch.lean ====
section
/-! DEFINITION. What each command does: one arm per constructor of Instr. -/

namespace Sys2Proof.Machine

/-- The effect of a command on everything but the queue. (DESIGN CHOICE, log 99) -/
def exec (i : Instr) (s : State) : Host.Outcome State Fault Refusal :=
  match i with
  | .registerWrite ini addr v => Sys2Proof.Machine.execRegisterWrite ini addr v s
  | .srst page => Sys2Proof.Machine.execSrst page s
  | .srstEnd page => Sys2Proof.Machine.execSrstEnd page s
  | .tbSrst n => Sys2Proof.Machine.execTbSrst n s
  | .timeSrst => Sys2Proof.Machine.execTimeSrst s
  | .prismSrst => Sys2Proof.Machine.execPrismSrst s
  | .pageEnableWrite page en => Sys2Proof.Machine.execPageEnableWrite page en s
  | .gateRequest page => Sys2Proof.Machine.execGateRequest page s
  | .gateAck page => Sys2Proof.Machine.execGateAck page s
  | .gateRefused page => Sys2Proof.Machine.execGateRefused page s
  | .gateRelease page => Sys2Proof.Machine.execGateRelease page s
  | .pagePostDeliver => Sys2Proof.Machine.execPagePostDeliver s
  | .eventClear page pend mask newEv => Sys2Proof.Machine.execEventClear page pend mask newEv s
  | .fcCfgWrite ini page v => Sys2Proof.Machine.execFcCfgWrite ini page v s
  | .fcWindowEdge page => Sys2Proof.Machine.execFcWindowEdge page s
  | .faultClear page counted => Sys2Proof.Machine.execFaultClear page counted s
  | .snapshotRead core b => Sys2Proof.Machine.execSnapshotRead core b s
  | .ppsInEdge rising => Sys2Proof.Machine.execPpsInEdge rising s
  | .tenMhzInEdge => Sys2Proof.Machine.execTenMhzInEdge s
  | .tbMeasWrite n v => Sys2Proof.Machine.execTbMeasWrite n v s
  | .tbMeasTimeout n => Sys2Proof.Machine.execTbMeasTimeout n s
  | .tbLoad n => Sys2Proof.Machine.execTbLoad n s
  | .tbStep n => Sys2Proof.Machine.execTbStep n s
  | .tbRateWrite n v => Sys2Proof.Machine.execTbRateWrite n v s
  | .tbFreqWrite n v => Sys2Proof.Machine.execTbFreqWrite n v s
  | .ctFirstValidity => Sys2Proof.Machine.execCtFirstValidity s
  | .revertHoldoffExpire => Sys2Proof.Machine.execRevertHoldoffExpire s
  | .slewDone => Sys2Proof.Machine.execSlewDone s
  | .ctCtlWrite v => Sys2Proof.Machine.execCtCtlWrite v s
  | .reEpoch v => Sys2Proof.Machine.execReEpoch v s
  | .reEpochDone => Sys2Proof.Machine.execReEpochDone s
  | .generationWalkStart => Sys2Proof.Machine.execGenerationWalkStart s
  | .generationWalkEnd => Sys2Proof.Machine.execGenerationWalkEnd s
  | .ppsOutput rise => Sys2Proof.Machine.execPpsOutput rise s
  | .tenMhzOutput rise => Sys2Proof.Machine.execTenMhzOutput rise s
  | .linkDelayMeasure u t1 t2 t3 t4 => Sys2Proof.Machine.execLinkDelayMeasure u t1 t2 t3 t4 s
  | .txqLoRead u => Sys2Proof.Machine.execTxqLoRead u s
  | .trgArm n v => Sys2Proof.Machine.execTrgArm n v s
  | .trgCancel n v => Sys2Proof.Machine.execTrgCancel n v s
  | .trgThRead core n => Sys2Proof.Machine.execTrgThRead core n s
  | .trgPast n => Sys2Proof.Machine.execTrgPast n s
  | .trgFire n => Sys2Proof.Machine.execTrgFire n s
  | .prismPerWrite k v => Sys2Proof.Machine.execPrismPerWrite k v s
  | .tioPulseFall pin => Sys2Proof.Machine.execTioPulseFall pin s
  | .tioCapture pin rising => Sys2Proof.Machine.execTioCapture pin rising s
  | .tioCloRead pin => Sys2Proof.Machine.execTioCloRead pin s
  | .tioCfgWrite ini pin v => Sys2Proof.Machine.execTioCfgWrite ini pin v s
  | .pwmCfgWrite ini ch v => Sys2Proof.Machine.execPwmCfgWrite ini ch v s
  | .shadowWrite ini ch off v => Sys2Proof.Machine.execShadowWrite ini ch off v s
  | .pwmCommitStart ch => Sys2Proof.Machine.execPwmCommitStart ch s
  | .pwmCommitStop ch => Sys2Proof.Machine.execPwmCommitStop ch s
  | .pwmCommitGo ch => Sys2Proof.Machine.execPwmCommitGo ch s
  | .carrierStart ch => Sys2Proof.Machine.execCarrierStart ch s
  | .carrierCentre ch => Sys2Proof.Machine.execCarrierCentre ch s
  | .dlcalMeasure port count => Sys2Proof.Machine.execDlcalMeasure port count s
  | .tripQualified ch => Sys2Proof.Machine.execTripQualified ch s
  | .portMclkWrite port v => Sys2Proof.Machine.execPortMclkWrite port v s
  | .mclkStop port => Sys2Proof.Machine.execMclkStop port s
  | .sdWindowClose ch bits0 bits1 bits2 => Sys2Proof.Machine.execSdWindowClose ch bits0 bits1 bits2 s
  | .sdContinuousResult ch bits0 bits1 bits2 => Sys2Proof.Machine.execSdContinuousResult ch bits0 bits1 bits2 s
  | .sdCfgWrite ch v => Sys2Proof.Machine.execSdCfgWrite ch v s
  | .aleComputation k => Sys2Proof.Machine.execAleComputation k s
  | .aleComputationDone k => Sys2Proof.Machine.execAleComputationDone k s
  | .aleRefCommit ch => Sys2Proof.Machine.execAleRefCommit ch s
  | .aleCfgWrite ch v => Sys2Proof.Machine.execAleCfgWrite ch v s
  | .fbkCfgWrite ch v => Sys2Proof.Machine.execFbkCfgWrite ch v s
  | .countEdge ch a b => Sys2Proof.Machine.execCountEdge ch a b s
  | .lineFault ch line => Sys2Proof.Machine.execLineFault ch line s
  | .fbkLoad ch => Sys2Proof.Machine.execFbkLoad ch s
  | .fbkClrunc ch => Sys2Proof.Machine.execFbkClrunc ch s
  | .fbkPosRead core ch => Sys2Proof.Machine.execFbkPosRead core ch s
  | .index ch => Sys2Proof.Machine.execIndex ch s
  | .sincosSample ch sn cs => Sys2Proof.Machine.execSincosSample ch sn cs s
  | .serialFrameEnd ch frame => Sys2Proof.Machine.execSerialFrameEnd ch frame s
  | .bissReq ch v => Sys2Proof.Machine.execBissReq ch v s
  | .latchSetReady ch => Sys2Proof.Machine.execLatchSetReady ch s
  | .watchLatch ch => Sys2Proof.Machine.execWatchLatch ch s
  | .fbkLatRead core ch => Sys2Proof.Machine.execFbkLatRead core ch s
  | .emulationEdge ch => Sys2Proof.Machine.execEmulationEdge ch s
  | .emulationZPulseEnd ch => Sys2Proof.Machine.execEmulationZPulseEnd ch s
  | .fbkSupWrite ini ch v => Sys2Proof.Machine.execFbkSupWrite ini ch v s
  | .supplyOk ch => Sys2Proof.Machine.execSupplyOk ch s
  | .supplyOvercurrent ch ma => Sys2Proof.Machine.execSupplyOvercurrent ch ma s
  | .supplyUndervoltage ch => Sys2Proof.Machine.execSupplyUndervoltage ch s
  | .updateEdge ch in0 in1 => Sys2Proof.Machine.execUpdateEdge ch in0 in1 s
  | .absoluteMove ch => Sys2Proof.Machine.execAbsoluteMove ch s
  | .relativeMove ch => Sys2Proof.Machine.execRelativeMove ch s
  | .velocityMove ch => Sys2Proof.Machine.execVelocityMove ch s
  | .stream ch => Sys2Proof.Machine.execStream ch s
  | .home ch => Sys2Proof.Machine.execHome ch s
  | .abort ch => Sys2Proof.Machine.execAbort ch s
  | .qstop ch => Sys2Proof.Machine.execQstop ch s
  | .positionLoad ch => Sys2Proof.Machine.execPositionLoad ch s
  | .streamPush ch => Sys2Proof.Machine.execStreamPush ch s
  | .streamUnderrun ch => Sys2Proof.Machine.execStreamUnderrun ch s
  | .stepEmit ch => Sys2Proof.Machine.execStepEmit ch s
  | .stepPulseFall ch => Sys2Proof.Machine.execStepPulseFall ch s
  | .inputDebounced ch inp level => Sys2Proof.Machine.execInputDebounced ch inp level s
  | .chatterHoldEnd ch inp => Sys2Proof.Machine.execChatterHoldEnd ch inp s
  | .profPosRead core ch => Sys2Proof.Machine.execProfPosRead core ch s
  | .profLatRead core ch => Sys2Proof.Machine.execProfLatRead core ch s
  | .add c d a b => Sys2Proof.Machine.execAdd c d a b s
  | .sub c d a b => Sys2Proof.Machine.execSub c d a b s
  | .addc c d a b => Sys2Proof.Machine.execAddc c d a b s
  | .subc c d a b => Sys2Proof.Machine.execSubc c d a b s
  | .and c d a b => Sys2Proof.Machine.execAnd c d a b s
  | .or c d a b => Sys2Proof.Machine.execOr c d a b s
  | .xor c d a b => Sys2Proof.Machine.execXor c d a b s
  | .andn c d a b => Sys2Proof.Machine.execAndn c d a b s
  | .min c d a b => Sys2Proof.Machine.execMin c d a b s
  | .max c d a b => Sys2Proof.Machine.execMax c d a b s
  | .minu c d a b => Sys2Proof.Machine.execMinu c d a b s
  | .maxu c d a b => Sys2Proof.Machine.execMaxu c d a b s
  | .adds c d a b => Sys2Proof.Machine.execAdds c d a b s
  | .subs c d a b => Sys2Proof.Machine.execSubs c d a b s
  | .abss c d a => Sys2Proof.Machine.execAbss c d a s
  | .slt c d a b => Sys2Proof.Machine.execSlt c d a b s
  | .sltu c d a b => Sys2Proof.Machine.execSltu c d a b s
  | .clz c d a => Sys2Proof.Machine.execClz c d a s
  | .popc c d a => Sys2Proof.Machine.execPopc c d a s
  | .sll c d a b => Sys2Proof.Machine.execSll c d a b s
  | .srl c d a b => Sys2Proof.Machine.execSrl c d a b s
  | .sra c d a b => Sys2Proof.Machine.execSra c d a b s
  | .rol c d a b => Sys2Proof.Machine.execRol c d a b s
  | .slli c d a sh => Sys2Proof.Machine.execSlli c d a sh s
  | .srli c d a sh => Sys2Proof.Machine.execSrli c d a sh s
  | .srai c d a sh => Sys2Proof.Machine.execSrai c d a sh s
  | .roli c d a sh => Sys2Proof.Machine.execRoli c d a sh s
  | .ext c d a pos len => Sys2Proof.Machine.execExt c d a pos len s
  | .exts c d a pos len => Sys2Proof.Machine.execExts c d a pos len s
  | .ins c d a pos len => Sys2Proof.Machine.execIns c d a pos len s
  | .mul c d a b => Sys2Proof.Machine.execMul c d a b s
  | .mulh c d a b => Sys2Proof.Machine.execMulh c d a b s
  | .mulhu c d a b => Sys2Proof.Machine.execMulhu c d a b s
  | .mulf c d a b rnd sh => Sys2Proof.Machine.execMulf c d a b rnd sh s
  | .div c d a b => Sys2Proof.Machine.execDiv c d a b s
  | .divu c d a b => Sys2Proof.Machine.execDivu c d a b s
  | .rem c d a b => Sys2Proof.Machine.execRem c d a b s
  | .remu c d a b => Sys2Proof.Machine.execRemu c d a b s
  | .addi c d a imm => Sys2Proof.Machine.execAddi c d a imm s
  | .andi c d a imm => Sys2Proof.Machine.execAndi c d a imm s
  | .ori c d a imm => Sys2Proof.Machine.execOri c d a imm s
  | .xori c d a imm => Sys2Proof.Machine.execXori c d a imm s
  | .slti c d a imm => Sys2Proof.Machine.execSlti c d a imm s
  | .li c d h imm => Sys2Proof.Machine.execLi c d h imm s
  | .ld c d a imm => Sys2Proof.Machine.execLd c d a imm s
  | .st c d a imm => Sys2Proof.Machine.execSt c d a imm s
  | .ld2 c d a imm => Sys2Proof.Machine.execLd2 c d a imm s
  | .st2 c d a imm => Sys2Proof.Machine.execSt2 c d a imm s
  | .ldp c d p am m circ pair imm => Sys2Proof.Machine.execLdp c d p am m circ pair imm s
  | .stp c d p am m circ pair imm => Sys2Proof.Machine.execStp c d p am m circ pair imm s
  | .xchg c d a b => Sys2Proof.Machine.execXchg c d a b s
  | .cas c d a b => Sys2Proof.Machine.execCas c d a b s
  | .faa c d a b => Sys2Proof.Machine.execFaa c d a b s
  | .forA c d a b => Sys2Proof.Machine.execForA c d a b s
  | .fand c d a b => Sys2Proof.Machine.execFand c d a b s
  | .loadReturn c k how => Sys2Proof.Machine.execLoadReturn c k how s
  | .storeComplete c k how => Sys2Proof.Machine.execStoreComplete c k how s
  | .accessTimeout c k => Sys2Proof.Machine.execAccessTimeout c k s
  | .remoteStoreAccess ini addr wr => Sys2Proof.Machine.execRemoteStoreAccess ini addr wr s
  | .sta c k p am m circ imm => Sys2Proof.Machine.execSta c k p am m circ imm s
  | .bcc c cond a b target => Sys2Proof.Machine.execBcc c cond a b target s
  | .j c target => Sys2Proof.Machine.execJ c target s
  | .jal c d target => Sys2Proof.Machine.execJal c d target s
  | .jr c d a => Sys2Proof.Machine.execJr c d a s
  | .loop c lvl src a cnt last => Sys2Proof.Machine.execLoop c lvl src a cnt last s
  | .mac c k a b neg clr sg => Sys2Proof.Machine.execMac c k a b neg clr sg s
  | .macv c a b neg clr sg => Sys2Proof.Machine.execMacv c a b neg clr sg s
  | .macw c a neg clr sg => Sys2Proof.Machine.execMacw c a neg clr sg s
  | .cmac c k a b neg clr sg => Sys2Proof.Machine.execCmac c k a b neg clr sg s
  | .dot2 c k a b neg clr sg => Sys2Proof.Machine.execDot2 c k a b neg clr sg s
  | .dot4 c k a b neg clr sg => Sys2Proof.Machine.execDot4 c k a b neg clr sg s
  | .ftap c k win mv px pk circ neg sg dn => Sys2Proof.Machine.execFtap c k win mv px pk circ neg sg dn s
  | .wld c p am m circ imm => Sys2Proof.Machine.execWld c p am m circ imm s
  | .sacc c d k rnd sh => Sys2Proof.Machine.execSacc c d k rnd sh s
  | .mvax c d k => Sys2Proof.Machine.execMvax c d k s
  | .mvah c d k => Sys2Proof.Machine.execMvah c d k s
  | .mval c d k => Sys2Proof.Machine.execMval c d k s
  | .seta c k a sh => Sys2Proof.Machine.execSeta c k a sh s
  | .setah c k a => Sys2Proof.Machine.execSetah c k a s
  | .setal c k a => Sys2Proof.Machine.execSetal c k a s
  | .setax c k a => Sys2Proof.Machine.execSetax c k a s
  | .clra c mask => Sys2Proof.Machine.execClra c mask s
  | .mvw c d w => Sys2Proof.Machine.execMvw c d w s
  | .setw c w a => Sys2Proof.Machine.execSetw c w a s
  | .mfs c d sp => Sys2Proof.Machine.execMfs c d sp s
  | .mts c sp a => Sys2Proof.Machine.execMts c sp a s
  | .fadd c d a b rm => Sys2Proof.Machine.execFadd c d a b rm s
  | .fsub c d a b rm => Sys2Proof.Machine.execFsub c d a b rm s
  | .fmul c d a b rm => Sys2Proof.Machine.execFmul c d a b rm s
  | .fma c d a b rm => Sys2Proof.Machine.execFma c d a b rm s
  | .fms c d a b rm => Sys2Proof.Machine.execFms c d a b rm s
  | .fdiv c d a b rm => Sys2Proof.Machine.execFdiv c d a b rm s
  | .fsqrt c d a rm => Sys2Proof.Machine.execFsqrt c d a rm s
  | .fmin c d a b rm => Sys2Proof.Machine.execFmin c d a b rm s
  | .fmax c d a b rm => Sys2Proof.Machine.execFmax c d a b rm s
  | .fabs c d a rm => Sys2Proof.Machine.execFabs c d a rm s
  | .fneg c d a rm => Sys2Proof.Machine.execFneg c d a rm s
  | .fcmpeq c d a b rm => Sys2Proof.Machine.execFcmpeq c d a b rm s
  | .fcmplt c d a b rm => Sys2Proof.Machine.execFcmplt c d a b rm s
  | .fcmple c d a b rm => Sys2Proof.Machine.execFcmple c d a b rm s
  | .fclass c d a rm => Sys2Proof.Machine.execFclass c d a rm s
  | .fcvtfi c d a rm => Sys2Proof.Machine.execFcvtfi c d a rm s
  | .fcvtif c d a rm => Sys2Proof.Machine.execFcvtif c d a rm s
  | .fcvtfq c d a f rm => Sys2Proof.Machine.execFcvtfq c d a f rm s
  | .fcvtqf c d a f rm => Sys2Proof.Machine.execFcvtqf c d a f rm s
  | .fcvtfd c d a rm => Sys2Proof.Machine.execFcvtfd c d a rm s
  | .fcvtdf c d a rm => Sys2Proof.Machine.execFcvtdf c d a rm s
  | .fcvtfs c d a rm => Sys2Proof.Machine.execFcvtfs c d a rm s
  | .fcvtsf c d a rm => Sys2Proof.Machine.execFcvtsf c d a rm s
  | .dadd c d a b rm => Sys2Proof.Machine.execDadd c d a b rm s
  | .dsub c d a b rm => Sys2Proof.Machine.execDsub c d a b rm s
  | .dmul c d a b rm => Sys2Proof.Machine.execDmul c d a b rm s
  | .dfma c d a b rm => Sys2Proof.Machine.execDfma c d a b rm s
  | .ddiv c d a b rm => Sys2Proof.Machine.execDdiv c d a b rm s
  | .dsqrt c d a rm => Sys2Proof.Machine.execDsqrt c d a rm s
  | .dmin c d a b rm => Sys2Proof.Machine.execDmin c d a b rm s
  | .dmax c d a b rm => Sys2Proof.Machine.execDmax c d a b rm s
  | .dcmpeq c d a b rm => Sys2Proof.Machine.execDcmpeq c d a b rm s
  | .dcmplt c d a b rm => Sys2Proof.Machine.execDcmplt c d a b rm s
  | .dcmple c d a b rm => Sys2Proof.Machine.execDcmple c d a b rm s
  | .dcvtdi c d a rm => Sys2Proof.Machine.execDcvtdi c d a rm s
  | .dcvtid c d a rm => Sys2Proof.Machine.execDcvtid c d a rm s
  | .post c d a imm => Sys2Proof.Machine.execPost c d a imm s
  | .postResult c => Sys2Proof.Machine.execPostResult c s
  | .posta c a imm => Sys2Proof.Machine.execPosta c a imm s
  | .doneTask c => Sys2Proof.Machine.execDoneTask c s
  | .yieldTask c => Sys2Proof.Machine.execYieldTask c s
  | .waitc c a imm => Sys2Proof.Machine.execWaitc c a imm s
  | .waitcExpire c => Sys2Proof.Machine.execWaitcExpire c s
  | .fence c stores => Sys2Proof.Machine.execFence c stores s
  | .isync c => Sys2Proof.Machine.execIsync c s
  | .brk c => Sys2Proof.Machine.execBrk c s
  | .nret c => Sys2Proof.Machine.execNret c s
  | .exception c cause info => Sys2Proof.Machine.execException c cause info s
  | .nmiEntry c => Sys2Proof.Machine.execNmiEntry c s
  | .nmiSet c => Sys2Proof.Machine.execNmiSet c s
  | .postArrive => Sys2Proof.Machine.execPostArrive s
  | .postAccept => Sys2Proof.Machine.execPostAccept s
  | .dispatchDecision => Sys2Proof.Machine.execDispatchDecision s
  | .activationStart c => Sys2Proof.Machine.execActivationStart c s
  | .resume c => Sys2Proof.Machine.execResume c s
  | .preemption c => Sys2Proof.Machine.execPreemption c s
  | .cancel t => Sys2Proof.Machine.execCancel t s
  | .clear t => Sys2Proof.Machine.execClear t s
  | .resumeCommand t => Sys2Proof.Machine.execResumeCommand t s
  | .clearStatistics t => Sys2Proof.Machine.execClearStatistics t s
  | .tskCfgWrite t v => Sys2Proof.Machine.execTskCfgWrite t v s
  | .tskAffWrite t hi v => Sys2Proof.Machine.execTskAffWrite t hi v s
  | .contextWrite t w v => Sys2Proof.Machine.execContextWrite t w v s
  | .innkSrst => Sys2Proof.Machine.execInnkSrst s
  | .loadWindowEnd => Sys2Proof.Machine.execLoadWindowEnd s
  | .ringLinkUp u => Sys2Proof.Machine.execRingLinkUp u s
  | .ringFrameReceive u frame => Sys2Proof.Machine.execRingFrameReceive u frame s
  | .frameOverrunCutoff u frame => Sys2Proof.Machine.execFrameOverrunCutoff u frame s
  | .slotTransmit e => Sys2Proof.Machine.execSlotTransmit e s
  | .ttControlRead e => Sys2Proof.Machine.execTtControlRead e s
  | .heldFrameLaunch u => Sys2Proof.Machine.execHeldFrameLaunch u s
  | .cycleStart => Sys2Proof.Machine.execCycleStart s
  | .coldStartTimeout => Sys2Proof.Machine.execColdStartTimeout s
  | .linkBlock u => Sys2Proof.Machine.execLinkBlock u s
  | .linkBlockReceive u block => Sys2Proof.Machine.execLinkBlockReceive u block s
  | .breakDeclare u => Sys2Proof.Machine.execBreakDeclare u s
  | .hopRestore u => Sys2Proof.Machine.execHopRestore u s
  | .cyclePoint k => Sys2Proof.Machine.execCyclePoint k s
  | .asyncSend u => Sys2Proof.Machine.execAsyncSend u s
  | .qtailWrite q v => Sys2Proof.Machine.execQtailWrite q v s
  | .qcfgWrite q v => Sys2Proof.Machine.execQcfgWrite q v s
  | .ethFrameReceive e frame => Sys2Proof.Machine.execEthFrameReceive e frame s
  | .ethTransmit e q => Sys2Proof.Machine.execEthTransmit e q s
  | .ethLinkChange e speed => Sys2Proof.Machine.execEthLinkChange e speed s
  | .islandStart imgA imgB ueA ueB testsOk echoOk => Sys2Proof.Machine.execIslandStart imgA imgB ueA ueB testsOk echoOk s
  | .hardwareSafeState cause => Sys2Proof.Machine.execHardwareSafeState cause s
  | .islandRestart imgA imgB ueA ueB testsOk echoOk => Sys2Proof.Machine.execIslandRestart imgA imgB ueA ueB testsOk echoOk s
  | .evaluationCycle bad nodesOn lensOk => Sys2Proof.Machine.execEvaluationCycle bad nodesOn lensOk s
  | .envelopeNotify ch => Sys2Proof.Machine.execEnvelopeNotify ch s
  | .fcNotify page => Sys2Proof.Machine.execFcNotify page s
  | .enablePort port => Sys2Proof.Machine.execEnablePort port s
  | .stopPort port ss1 => Sys2Proof.Machine.execStopPort port ss1 s
  | .releaseBrake ch => Sys2Proof.Machine.execReleaseBrake ch s
  | .applyBrake ch => Sys2Proof.Machine.execApplyBrake ch s
  | .releaseEnvelopeStop ch => Sys2Proof.Machine.execReleaseEnvelopeStop ch s
  | .holdingTestBegin ch => Sys2Proof.Machine.execHoldingTestBegin ch s
  | .holdingTestEnd ch => Sys2Proof.Machine.execHoldingTestEnd ch s
  | .acknowledge port => Sys2Proof.Machine.execAcknowledge port s
  | .requestLimitSet port set => Sys2Proof.Machine.execRequestLimitSet port set s
  | .siSample raw => Sys2Proof.Machine.execSiSample raw s
  | .testPulse k inMask readOk => Sys2Proof.Machine.execTestPulse k inMask readOk s
  | .pairDiscrepancy n => Sys2Proof.Machine.execPairDiscrepancy n s
  | .soTestPulse k readOk => Sys2Proof.Machine.execSoTestPulse k readOk s
  | .erstFallingEdge ms => Sys2Proof.Machine.execErstFallingEdge ms s
  | .safetyMessageReceive slot octets => Sys2Proof.Machine.execSafetyMessageReceive slot octets s
  | .connectionWatchdogExpire k => Sys2Proof.Machine.execConnectionWatchdogExpire k s
  | .safetyMessageSend k data => Sys2Proof.Machine.execSafetyMessageSend k data s
  | .brakePullInEnd ch => Sys2Proof.Machine.execBrakePullInEnd ch s
  | .sbcDelayExpire ch => Sys2Proof.Machine.execSbcDelayExpire ch s
  | .brakeSwitchTest ch ok => Sys2Proof.Machine.execBrakeSwitchTest ch ok s
  | .holdingTestTimeout ch => Sys2Proof.Machine.execHoldingTestTimeout ch s
  | .holdingTestDue ch => Sys2Proof.Machine.execHoldingTestDue ch s
  | .brakeOvercurrent ch => Sys2Proof.Machine.execBrakeOvercurrent ch s
  | .scrubRead addr how => Sys2Proof.Machine.execScrubRead addr how s
  | .logRecordWrite => Sys2Proof.Machine.execLogRecordWrite s
  | .logScanDone => Sys2Proof.Machine.execLogScanDone s
  | .mwDataWrite v => Sys2Proof.Machine.execMwDataWrite v s
  | .mramWordWrite first second => Sys2Proof.Machine.execMramWordWrite first second s
  | .porterStart k => Sys2Proof.Machine.execPorterStart k s
  | .engineAssign e => Sys2Proof.Machine.execEngineAssign e s
  | .descriptorDone e => Sys2Proof.Machine.execDescriptorDone e s
  | .descriptorFailed e addr onWrite how => Sys2Proof.Machine.execDescriptorFailed e addr onWrite how s
  | .porterSrst => Sys2Proof.Machine.execPorterSrst s
  | .clkPllWrite v => Sys2Proof.Machine.execClkPllWrite v s
  | .pllLock k => Sys2Proof.Machine.execPllLock k s
  | .xoMReady => Sys2Proof.Machine.execXoMReady s
  | .ircReady => Sys2Proof.Machine.execIrcReady s
  | .extOkChange ok => Sys2Proof.Machine.execExtOkChange ok s
  | .disciplineLock pull => Sys2Proof.Machine.execDisciplineLock pull s
  | .pclkRelease => Sys2Proof.Machine.execPclkRelease s
  | .memcRelease => Sys2Proof.Machine.execMemcRelease s
  | .stopSwitchRestart fab src => Sys2Proof.Machine.execStopSwitchRestart fab src s
  | .checkedSwitch fab src => Sys2Proof.Machine.execCheckedSwitch fab src s
  | .switchDone fab => Sys2Proof.Machine.execSwitchDone fab s
  | .throttleChange on => Sys2Proof.Machine.execThrottleChange on s
  | .clkSscWrite v => Sys2Proof.Machine.execClkSscWrite v s
  | .monitorTrip clk kind => Sys2Proof.Machine.execMonitorTrip clk kind s
  | .forcedGate page => Sys2Proof.Machine.execForcedGate page s
  | .moduleReset rec svc => Sys2Proof.Machine.execModuleReset rec svc s
  | .computeReset rec src => Sys2Proof.Machine.execComputeReset rec src s
  | .powerOnReset => Sys2Proof.Machine.execPowerOnReset s
  | .boot ms ueA ueB => Sys2Proof.Machine.execBoot ms ueA ueB s
  | .recoveryRequest => Sys2Proof.Machine.execRecoveryRequest s
  | .consoleInfo => Sys2Proof.Machine.execConsoleInfo s
  | .consoleRead off count => Sys2Proof.Machine.execConsoleRead off count s
  | .consoleWrite off ws => Sys2Proof.Machine.execConsoleWrite off ws s
  | .consoleKey key sig => Sys2Proof.Machine.execConsoleKey key sig s
  | .consoleMinissue safety issue => Sys2Proof.Machine.execConsoleMinissue safety issue s
  | .consoleGate page => Sys2Proof.Machine.execConsoleGate page s
  | .consoleReset kind => Sys2Proof.Machine.execConsoleReset kind s
  | .portIdentityMeasure port ohm => Sys2Proof.Machine.execPortIdentityMeasure port ohm s
  | .logicInputLost b => Sys2Proof.Machine.execLogicInputLost b s
  | .logicInputReturned b => Sys2Proof.Machine.execLogicInputReturned b s
  | .brakeInputFault b => Sys2Proof.Machine.execBrakeInputFault b s
  | .fanFailed k => Sys2Proof.Machine.execFanFailed k s
  | .fanRunning k => Sys2Proof.Machine.execFanRunning k s
  | .temperatureWarning on => Sys2Proof.Machine.execTemperatureWarning on s
  | .overTemperatureShutdown on => Sys2Proof.Machine.execOverTemperatureShutdown on s
  | .environmentUpdate temp fan vlogic vbrake ibrake => Sys2Proof.Machine.execEnvironmentUpdate temp fan vlogic vbrake ibrake s
  | .gateEdge ch => Sys2Proof.Machine.execGateEdge ch s
  | .zFall ch => Sys2Proof.Machine.execZFall ch s
  | .ringLinkLost u => Sys2Proof.Machine.execRingLinkLost u s
  | .pfcFrameRepeat e prio => Sys2Proof.Machine.execPfcFrameRepeat e prio s
  | .pfcPauseExpire e prio => Sys2Proof.Machine.execPfcPauseExpire e prio s
  | .islandSramScrub addr how => Sys2Proof.Machine.execIslandSramScrub addr how s

end Sys2Proof.Machine
end

