-- ==== Sys2Proof/Machine/Tick.lean ====
section
/-! DEFINITION. What time does when no command waits: one step is one edge of PCLK, 2.5 ns (R51, R120, R277, R349, R491). -/

namespace Sys2Proof.Machine

/-- The length of a modulation period of the spread in PCLK edges (R497). -/
def State.sscPeriod (s : State) : Nat := 4000000 / fldGet s.clk.ssc CLK_SSC.rate

/-- By how much the spread slows a rate at this edge (R497): its triangle begins and ends each modulation period at the nominal rate.
(DESIGN CHOICE, log 93) -/
def State.sscCut (s : State) (f : Nat) : Nat :=
  let p := s.sscPeriod
  let x := s.now - s.clk.sscAt
  if fldGet s.clk.ssc CLK_SSC.cen = 0 then 0 else f * fldGet s.clk.ssc CLK_SSC.cdep * 2 * min x (p - x) / (400 * p)

/-- The word of the spread comes into force with each modulation period (R497). -/
def State.sscTick (s : State) : State :=
  if s.sscPeriod ≤ s.now - s.clk.sscAt then { s with clk := { s.clk with ssc := s.reg (pClk + 0x15), sscAt := s.now } } else s

/-- CORE cycles in 2.5 ns, in millionths: 3 at 1.2 GHz, 2 at 800 MHz, both less the spread, 0.16 on the IRC of 64 MHz, none while CORE is
stopped. (DESIGN CHOICE, log 2) -/
def State.cycStep (s : State) : Nat :=
  let f := if s.get pClk CLK_DOM_CORE.cur = 1 then 3000000 else 2000000
  if s.domStopped 0 then 0 else if s.get pClk CLK_DOM_CORE.cur = 0 then 160000 else f - s.sscCut f

/-- The carriers that run advance by 32 taps, and the transfers of the last edge are over (R120, R135). -/
def State.pwmTick (s : State) : State :=
  overAll (s.pwm.map (fun e => e.1)) s (fun ch t =>
    let r := t.pw ch
    t.setPw ch { r with c := if t.carrierRuns ch then r.c + 32 else r.c, xfer := false })

/-- What the stages do on the edge: what their commits ask for, and the trips (R122, R124, R126, R133, R138). -/
def State.pwmEdges (s : State) : State :=
  overAll (s.pwm.map (fun e => e.1)) s (fun ch t => (t.pwmEdge ch).tripAct ch)

/-- The cores that run a task count a busy edge while the load is measured (R349). (DESIGN CHOICE, log 100) -/
def State.busyTick (s : State) : State :=
  if s.flag pInnk0 INNK_LOAD_CFG.en then
    { s with core := s.core.map (fun e => if e.2.task.isSome then (e.1, { e.2 with busy := e.2.busy + 1 }) else e) }
  else s

/-- A core whose load stands held at the bound of outstanding reads counts the CORE cycles of the edge (R45, R293). (DESIGN CHOICE, log 24) -/
def State.stallTick (s : State) (n : Nat) : State :=
  overAll ((s.core.filter (fun e => e.2.stalled)).map (fun e => e.1)) s (fun c t =>
    t.put (pCore c) CORE_STALL.n (satN (2 ^ 36 - 1) (t.get (pCore c) CORE_STALL.n + n)))

/-- The high-water marks of the DRAM channels (R45, R475). -/
def State.doccTick (s : State) : State :=
  overAll [0, 1] s (fun c t =>
    if t.get (pMem (c + 1)) MEM_DOCC.hwm < t.dramLevel c then t.put (pMem (c + 1)) MEM_DOCC.hwm (t.dramLevel c) else t)

/-- The blocks on PCLK: the time bases, the Prism, the carriers and the profile generators. (DESIGN CHOICE, log 2) -/
def State.pclkTick (s : State) : State :=
  if s.flag pClk CLK_DOM_FIX.prun then
    s.timeTick.prismTick.pwmTick.mclkTick.centreTick.dueActs.pwmEdges.profEdges
  else s

/-- One edge: the compares of the edge that ends are made (R217), its output edges are noted (R138), accesses proceed
whose block holds them no more (R504), and time moves on for the module, and for the blocks whose clock runs. (DESIGN CHOICE, log 2) -/
def State.tick (s0 : State) : State :=
  let s := s0.fbkSettle.outSettle.proceedHeld
  let s1 := { s with now := s.now + 1, cyc := s.cyc + s.cycStep, posted := [], innk := { s.innk with cancelled := [] } }
  ((s1.sscTick.pclkTick.busyTick).stallTick (s1.cyc / 1000000 - s.cyc / 1000000)).porterTick.doccTick.noteQueue

end Sys2Proof.Machine
end

