-- ==== Sys2Proof/Safety.lean ====
section
/-! DEFINITION. What counts as a safe run: no command faults or is refused, and the stores keep their canonical form. -/

namespace Sys2Proof

open Machine

/-- The stores of the machine are in canonical form: the register words, the memories and the core registers. -/
def Machine.State.wf (s : State) : Bool :=
  Tab.wf resetWord s.regs && Tab.wf (fun _ => (0 : Word)) s.mem && Tab.wf (fun _ => (0 : Word)) s.crs

/-- The canonical form of the memories alone. (DESIGN CHOICE, log 5) -/
def Memory.wf (s : State) : Bool := Tab.wf (fun _ => (0 : Word)) s.mem

/-- A step is safe when it answers a next state. -/
def SafeStep (s : State) : Prop := ∃ t, step s = .next t

/-- `n` steps, each of which answers a next state, lead from one state to another. -/
def Runs : Nat → State → State → Prop
  | 0, s, t => t = s
  | n + 1, s, t => ∃ u, step s = .next u ∧ Runs n u t

/-! The terms in which statements about core instructions are made. -/

namespace Machine

/-- A core can issue an instruction in `u` (R280, R281): its fields fit its encoding, it is legal, the core issues, and the registers
it names are available. `s` is the state in which it has its effect: `u`, but with the wait of the activation recorded where this is
its first instruction (R347). -/
def CoreReady (c : Nat) (i : Instr) (regs : List Nat) (u s : State) : Prop :=
  fieldsFit (synlenFields i) = true ∧ synlenLegal i = true ∧ u.canIssue c = true ∧ u.regsFree c regs = true ∧ s = u.issued c

/-- The registers that the end of every instruction may change: PC, and the counts and bounds of the loops (R308). -/
def seqSlots : List Nat := [rPC, rLC 0, rLC 1, rLB 0, rLB 1]

/-- The register-file slot of a destination G_d: none for G0, whose writes are discarded (R273). -/
def State.dst (s : State) (c d : Nat) : List Nat := if d = 0 then [] else [s.gSlot c d]

/-- Nothing of the machine differs but some slots of the register file of one core. -/
def CoreOnly (c : Nat) (l : List Nat) (s t : State) : Prop :=
  (∀ e i, i < 128 → e ≠ c ∨ i ∉ l → t.cr e i = s.cr e i) ∧ t = { s with crs := t.crs }

/-- Nothing of the machine differs but some slots of the register file of one core and some words of memory. -/
def CoreMemOnly (c : Nat) (l as : List Nat) (s t : State) : Prop :=
  (∀ e i, i < 128 → e ≠ c ∨ i ∉ l → t.cr e i = s.cr e i) ∧ (∀ a, a ∉ as → t.memW a = s.memW a) ∧
    t = { s with crs := t.crs, mem := t.mem }

/-- The flags after an integer result (R275, R284): z and n follow it, c and v are as given or kept, ss is sticky, and no other bit of
ST changes. -/
def FlagsAfter (c v : Nat) (cf vf : Option Bool) (ss : Bool) (s t : State) : Prop :=
  bitN (t.st c) 3 = (v == 0) ∧ bitN (t.st c) 2 = bitN v 35 ∧ bitN (t.st c) 1 = cf.getD (bitN (s.st c) 1)
    ∧ bitN (t.st c) 0 = vf.getD (bitN (s.st c) 0) ∧ ∀ k, 4 ≤ k → bitN (t.st c) k = (bitN (s.st c) k || (k == 31 && ss))

/-- An instruction that can issue writes `v` to G_d, with flags; it changes nothing but G_d, ST and what ends every instruction. -/
def AluClaim (i : Instr) (c d : Nat) (regs : List Nat) (v : State → Nat) (cf vf : State → Option Bool) (ss : State → Bool) : Prop :=
  ∀ u s, CoreReady c i regs u s → ∃ t, exec i u = .next t ∧ (d ≠ 0 → t.g c d = v s) ∧ FlagsAfter c (v s) (cf s) (vf s) (ss s) s t ∧
    CoreOnly c (s.dst c d ++ rST :: seqSlots) s t

/-- An instruction that can issue writes `v` to G_d and sets no flag but the sticky bits of ST that `sets` lists. -/
def RegClaim (i : Instr) (c d : Nat) (regs : List Nat) (v : State → Nat) (sets : State → List Nat) : Prop :=
  ∀ u s, CoreReady c i regs u s → ∃ t, exec i u = .next t ∧ (d ≠ 0 → t.g c d = v s) ∧
    (∀ k, bitN (t.st c) k = (bitN (s.st c) k || (sets s).contains k)) ∧ CoreOnly c (s.dst c d ++ rST :: seqSlots) s t

/-- An instruction that can issue writes an F36 result to G_d and sets its flags in FST, which are sticky (R276, R305). -/
def FpClaim (i : Instr) (c d : Nat) (regs : List Nat) (r : State → Nat × Nat) : Prop :=
  ∀ u s, CoreReady c i regs u s → ∃ t, exec i u = .next t ∧ (d ≠ 0 → t.g c d = (r s).1 % 2 ^ 36) ∧
    t.cr c rFST = s.cr c rFST ||| word (r s).2 ∧ CoreOnly c (s.dst c d ++ rFST :: seqSlots) s t

/-- An instruction that can issue writes a binary64 result to the pair of G_d, with bits 35:32 of both words 0, and its flags (R305). -/
def PairClaim (i : Instr) (c d : Nat) (regs : List Nat) (r : State → Nat × Nat) : Prop :=
  ∀ u s, CoreReady c i regs u s → ∃ t, exec i u = .next t ∧ (d ≠ 0 → t.g c d = (r s).1 % 2 ^ 32) ∧
    t.g c (d + 1) = (r s).1 / 2 ^ 32 % 2 ^ 36 ∧ t.cr c rFST = s.cr c rFST ||| word (r s).2 ∧
    CoreOnly c (s.dst c d ++ s.dst c (d + 1) ++ rFST :: seqSlots) s t

/-- An instruction that can issue writes an S36 result to G_d and sets flags in FST, and ST.ss where it saturates (R305). -/
def ToIntClaim (i : Instr) (c d : Nat) (regs : List Nat) (r : State → Int × Nat × Bool) : Prop :=
  ∀ u s, CoreReady c i regs u s → ∃ t, exec i u = .next t ∧ (d ≠ 0 → t.g c d = unsint 36 (r s).1) ∧
    t.cr c rFST = s.cr c rFST ||| word (r s).2.1 ∧
    (∀ k, bitN (t.st c) k = (bitN (s.st c) k || (k == 31 && (r s).2.2))) ∧
    CoreOnly c (s.dst c d ++ rST :: rFST :: seqSlots) s t

/-- The slots of an accumulator. -/
def accSlots (k : Nat) : List Nat := [rAx k, rAh k, rAl k]

/-- An instruction that can issue leaves the exact value `v` in each accumulator that `ks` lists, limited to 80 bits, with ST.as (R298);
it changes nothing but those accumulators, ST and what ends every instruction. -/
def AccClaim (i : Instr) (c : Nat) (regs ks : List Nat) (v : State → Nat → Int) : Prop :=
  ∀ u s, CoreReady c i regs u s → ∃ t, exec i u = .next t ∧
    (∀ k ∈ ks, t.acc c k = clampI (-(2 ^ 79)) (2 ^ 79 - 1) (v s k)) ∧
    (∀ j, bitN (t.st c) j = (bitN (s.st c) j || ks.any (fun k => j == 32 + k && (decide (v s k < -(2 ^ 79)) || decide (2 ^ 79 ≤ v s k))))) ∧
    CoreOnly c (ks.flatMap accSlots ++ rST :: seqSlots) s t

/-- The old value of an accumulator, or 0 with clr, plus a sum, or less it with neg (R298). -/
def accNew (s : State) (c k : Nat) (neg clr : Bool) (sum : Int) : Int :=
  (if clr then 0 else s.acc c k) + (if neg then -sum else sum)

/-! Memory instructions. -/

/-- What a word of memory holds after some words, each an address and a value, are stored in order by a core at once (R293). -/
def storedWord (c x : Nat) (w : Word) : List (Nat × Nat) → Word
  | [] => w
  | e :: r => storedWord c x (if isOwnData c e.1 = true ∧ resolveOwn c e.1 = x then word e.2 else w) r

/-- Nothing differs but some slots of a core's register file, memory, and accesses added to those outstanding. -/
def OutsOnly (c : Nat) (l : List Nat) (os : List OutAcc) (s t : State) : Prop :=
  (∀ e i, i < 128 → e ≠ c ∨ i ∉ l → t.cr e i = s.cr e i) ∧ t.co c = { s.co c with outs := (s.co c).outs ++ os } ∧
    (∀ e, e ≠ c → t.co e = s.co e) ∧ t = { s with crs := t.crs, mem := t.mem, core := t.core }

/-- The pointer that a format M instruction updates, and its new value (R289, R290). -/
def State.ptrAfter (s : State) (c p am m : Nat) (circ : Bool) (imm : BitVec 16) : Option (Nat × Nat) :=
  if am = 0 then none
  else if am = 1 then some (p, s.fold c p circ (s.ptr c p) imm.toInt)
  else some (p, s.fold c p circ (s.ptr c p) (s.modf c m))

/-- The slot of the pointer updated. -/
def ptrSlot (u : Option (Nat × Nat)) : List Nat :=
  match u with
  | some e => [rP e.1]
  | none => []

/-- The value that STA stores before it is limited (R303): A_k shifted and rounded as its bits of ACTL say. -/
def State.staValue (s : State) (c k : Nat) : Int :=
  roundShift ((s.cr c rACTL).toNat / 2 ^ (8 * k + 6) % 4) ((s.cr c rACTL).toNat / 2 ^ (8 * k) % 64) (s.acc c k)

/-- A load instruction that can issue and finds room: each word of an own store that it reads is in its register, each other access
is outstanding, and the pointer is updated; nothing else of the machine changes but what ends every instruction. -/
def LoadClaim (i : Instr) (c : Nat) (regs : List Nat) (l : State → List (Nat × Nat)) (up : State → Option (Nat × Nat)) : Prop :=
  ∀ u s, CoreReady c i regs u s → s.loadRoom c ((l s).map (·.2)) = true → s.loadClear c ((l s).map (·.2)) = true →
    ∃ t, exec i u = .next t ∧
      (∀ e ∈ l s, isOwn c e.2 = true → e.1 ≠ 0 → t.g c e.1 = (s.memW (resolveOwn c e.2)).toNat) ∧
      (∀ e, up s = some e → t.cr c (rP e.1) = word e.2) ∧ t.mem = s.mem ∧
      OutsOnly c ((l s).flatMap (fun e => if isOwn c e.2 then s.dst c e.1 else []) ++ ptrSlot (up s) ++ seqSlots)
        ((l s).filterMap (fun e => if isOwn c e.2 then none else some { kind := .load, addr := e.2, dst := e.1, pc := s.pc c, bank := s.inNmi c })) s t

/-- A store instruction that can issue and finds room: each word of the own data store is written, each other store is posted, and the
pointer is updated; two stores of an aligned DRAM pair are each posted as a half of it (R463); nothing else of the machine changes but
what ends every instruction, and ST.ss where `ss` holds. -/
def StoreClaim (i : Instr) (c : Nat) (regs : List Nat) (l : State → List (Nat × Nat)) (up : State → Option (Nat × Nat))
    (ss : State → Bool) : Prop :=
  ∀ u s, CoreReady c i regs u s → s.storeRoom c ((l s).map (·.1)) = true → ∃ t, exec i u = .next t ∧
    (∀ x, t.memW x = storedWord c x (s.memW x) (l s)) ∧ (∀ e, up s = some e → t.cr c (rP e.1) = word e.2) ∧
    (∀ j, bitN (t.st c) j = (bitN (s.st c) j || (j == 31 && ss s))) ∧
    OutsOnly c (ptrSlot (up s) ++ rST :: seqSlots)
      ((l s).filterMap (fun e => if isOwnData c e.1 then none
        else some { kind := .store, addr := e.1, val := word e.2, pc := s.pc c, whole := wholePair ((l s).map (·.1)) })) s t

/-- An atomic that can issue, with nothing outstanding (R295): on the own data store it reads and writes the word at once; on another
address outside the own stores it is outstanding and holds issue; on the own instruction store it is a bus error. -/
def AtomicClaim (i : Instr) (c d a b : Nat) (k : AccKind) (f : Word → Word → Word → Word) : Prop :=
  ∀ u s, CoreReady c i [d, a, b] u s →
    ((s.co c).outs ≠ [] → exec i u = .next s) ∧
    ((s.co c).outs = [] → isOwnData c (s.g c a) = true → ∃ t, exec i u = .next t ∧
      (d ≠ 0 → t.g c d = (s.memW (resolveOwn c (s.g c a))).toNat) ∧
      t.memW (resolveOwn c (s.g c a)) = f (s.memW (resolveOwn c (s.g c a))) (word (s.g c b)) (word (s.g c d)) ∧
      CoreMemOnly c (s.dst c d ++ seqSlots) [resolveOwn c (s.g c a)] s t) ∧
    ((s.co c).outs = [] → isOwn c (s.g c a) = false → ∃ t, exec i u = .next t ∧
      t.co c = { s.co c with outs := [{ kind := k, addr := s.g c a, dst := d, bank := s.inNmi c, pc := s.pc c
                                        val := word (s.g c b), cmp := word (s.g c d) }],
                             hold := .atomic } ∧
      (∀ e, e ≠ c → t.co e = s.co e) ∧ t = { s with core := t.core }) ∧
    ((s.co c).outs = [] → isOwnData c (s.g c a) = false → isOwn c (s.g c a) = true →
      exec i u = .next (((s.setG c d 0).advance c).takeExc c 4 (s.pc c) (s.g c a) true))

/-! Register pages. -/

/-- An access to a register word is carried out at once: its block is not gated (R26), and it holds no accesses, while a gating request
waits (R503) or a block reset runs (R21). -/
abbrev State.takes (s : State) (a : Nat) : Prop := s.gated a = false ∧ s.holdsAccess a = false

/-- A command that is one write, by `ini`, of the register word at `a`: at a gated block it only has its bus error (R26); while the block
holds accesses the write waits (R21, R503). -/
def WriteGuard (i : Instr) (ini a : Nat) (v : State → Word) : Prop :=
  ∀ s : State, (s.gated a = true → exec i s = .next s) ∧
    (s.gated a = false → s.holdsAccess a = true → exec i s = .next { s with held := s.held ++ [{ ini := ini, addr := a, wr := some (v s) }] })

/-- A command that is one read of the register word at `a`: at a gated block it only has its bus error (R26), and while the block holds
accesses it waits (R21, R503). -/
def ReadGuard (i : Instr) (a : Nat) : Prop := ∀ s : State, s.gated a = true ∨ s.holdsAccess a = true → exec i s = .next s

/-- Nothing differs but some register words. -/
def RegsOnly (as : List Nat) (s t : State) : Prop := (∀ a, a ∉ as → t.regW a = s.regW a) ∧ t = { s with regs := t.regs }

end Machine

end Sys2Proof
end

