-- ==== Sys2Proof/Certificates/Slice0/Obligations.lean ====
section
/-! DEFINITION. The statements about the model of the module, one proposition each, from the numbered rules of
the specification. Every statement of a result is also the completion of the commands it names: its conclusion is that
`exec` answers the next state described. The terms they use stand in `Sys2Proof.Safety`. -/

open Sys2Proof Sys2Proof.Machine

/-- The integer ALU: result and flags of each instruction, and what it leaves alone. For each of the 19 integer ALU
instructions, on every state in which the core can issue it, exec answers a next state in which Gd holds the result of
R284 (G0 discards it), z, n, c, v and ss are as R284 gives them, the other bits of ST stay, and nothing else of the
machine changes but PC and the loop registers. Rules: R273, R275, R284. -/
def Obligations.AluResults : Prop :=
  (∀ c d a b, AluClaim (.add c d a b) c d [d, a, b]
    (fun s => (s.g c a + s.g c b) % 2 ^ 36)
    (fun s => some (decide (2 ^ 36 ≤ s.g c a + s.g c b))) (fun s => some (outS36 (sint 36 (s.g c a) + sint 36 (s.g c b)))) (fun _ => false)) ∧
  (∀ c d a b, AluClaim (.sub c d a b) c d [d, a, b]
    (fun s => (s.g c a + 2 ^ 36 - s.g c b) % 2 ^ 36)
    (fun s => some (decide (s.g c b ≤ s.g c a))) (fun s => some (outS36 (sint 36 (s.g c a) - sint 36 (s.g c b)))) (fun _ => false)) ∧
  (∀ c d a b, AluClaim (.addc c d a b) c d [d, a, b]
    (fun s => (s.g c a + s.g c b + b2n (s.carry c)) % 2 ^ 36)
    (fun s => some (decide (2 ^ 36 ≤ s.g c a + s.g c b + b2n (s.carry c)))) (fun s => some (outS36 (sint 36 (s.g c a) + sint 36 (s.g c b) + b2n (s.carry c)))) (fun _ => false)) ∧
  (∀ c d a b, AluClaim (.subc c d a b) c d [d, a, b]
    (fun s => (s.g c a + 2 ^ 37 - s.g c b - 1 + b2n (s.carry c)) % 2 ^ 36)
    (fun s => some (decide (s.g c b + 1 ≤ s.g c a + b2n (s.carry c)))) (fun s => some (outS36 (sint 36 (s.g c a) - sint 36 (s.g c b) - 1 + b2n (s.carry c)))) (fun _ => false)) ∧
  (∀ c d a b, AluClaim (.and c d a b) c d [d, a, b]
    (fun s => s.g c a &&& s.g c b)
    (fun _ => some false) (fun _ => some false) (fun _ => false)) ∧
  (∀ c d a b, AluClaim (.or c d a b) c d [d, a, b]
    (fun s => s.g c a ||| s.g c b)
    (fun _ => some false) (fun _ => some false) (fun _ => false)) ∧
  (∀ c d a b, AluClaim (.xor c d a b) c d [d, a, b]
    (fun s => s.g c a ^^^ s.g c b)
    (fun _ => some false) (fun _ => some false) (fun _ => false)) ∧
  (∀ c d a b, AluClaim (.andn c d a b) c d [d, a, b]
    (fun s => s.g c a &&& (2 ^ 36 - 1 - s.g c b))
    (fun _ => some false) (fun _ => some false) (fun _ => false)) ∧
  (∀ c d a b, AluClaim (.min c d a b) c d [d, a, b]
    (fun s => if sint 36 (s.g c a) ≤ sint 36 (s.g c b) then s.g c a else s.g c b)
    (fun _ => none) (fun _ => none) (fun _ => false)) ∧
  (∀ c d a b, AluClaim (.max c d a b) c d [d, a, b]
    (fun s => if sint 36 (s.g c a) ≤ sint 36 (s.g c b) then s.g c b else s.g c a)
    (fun _ => none) (fun _ => none) (fun _ => false)) ∧
  (∀ c d a b, AluClaim (.minu c d a b) c d [d, a, b]
    (fun s => min (s.g c a) (s.g c b))
    (fun _ => none) (fun _ => none) (fun _ => false)) ∧
  (∀ c d a b, AluClaim (.maxu c d a b) c d [d, a, b]
    (fun s => max (s.g c a) (s.g c b))
    (fun _ => none) (fun _ => none) (fun _ => false)) ∧
  (∀ c d a b, AluClaim (.adds c d a b) c d [d, a, b]
    (fun s => unsint 36 (clampI (-(2 ^ 35)) (2 ^ 35 - 1) (sint 36 (s.g c a) + sint 36 (s.g c b))))
    (fun _ => none) (fun s => some (outS36 (sint 36 (s.g c a) + sint 36 (s.g c b)))) (fun s => outS36 (sint 36 (s.g c a) + sint 36 (s.g c b)))) ∧
  (∀ c d a b, AluClaim (.subs c d a b) c d [d, a, b]
    (fun s => unsint 36 (clampI (-(2 ^ 35)) (2 ^ 35 - 1) (sint 36 (s.g c a) - sint 36 (s.g c b))))
    (fun _ => none) (fun s => some (outS36 (sint 36 (s.g c a) - sint 36 (s.g c b)))) (fun s => outS36 (sint 36 (s.g c a) - sint 36 (s.g c b)))) ∧
  (∀ c d a, AluClaim (.abss c d a) c d [d, a, 0]
    (fun s => unsint 36 (clampI (-(2 ^ 35)) (2 ^ 35 - 1) |sint 36 (s.g c a)|))
    (fun _ => none) (fun s => some (outS36 |sint 36 (s.g c a)|)) (fun s => outS36 |sint 36 (s.g c a)|)) ∧
  (∀ c d a b, AluClaim (.slt c d a b) c d [d, a, b]
    (fun s => if sint 36 (s.g c a) < sint 36 (s.g c b) then 1 else 0)
    (fun _ => none) (fun _ => none) (fun _ => false)) ∧
  (∀ c d a b, AluClaim (.sltu c d a b) c d [d, a, b]
    (fun s => if s.g c a < s.g c b then 1 else 0)
    (fun _ => none) (fun _ => none) (fun _ => false)) ∧
  (∀ c d a, AluClaim (.clz c d a) c d [d, a, 0]
    (fun s => clz36 (s.g c a))
    (fun _ => none) (fun _ => none) (fun _ => false)) ∧
  (∀ c d a, AluClaim (.popc c d a) c d [d, a, 0]
    (fun s => popCount 36 (s.g c a))
    (fun _ => none) (fun _ => none) (fun _ => false))

/-- Shifts, bit fields and immediates: the result of each instruction, no flag, and nothing else. For each of the 11 shift
and bit-field instructions, on every state in which the core can issue it, exec answers a next state in which Gd holds
the result of R285 (amounts of 36 or more give 0 or copies of the sign, rotates are modulo 36), no flag changes, and
nothing else of the machine changes but PC and the loop registers. For each immediate instruction, on every state in
which the core can issue it, exec answers a next state in which Gd holds the result of R287, with the S22 immediate
sign-extended; LI with h = 1 loads the upper half and with h = 0 replaces Gd[17:0]; no flag changes and nothing else
of the machine but PC and the loop registers. Rules: R273, R285, R287. -/
def Obligations.ShiftAndImmediateResults : Prop :=
  (∀ c d a b, RegClaim (.sll c d a b) c d [d, a, b]
    (fun s => s.g c a * 2 ^ (s.g c b % 64) % 2 ^ 36) (fun _ => [])) ∧
  (∀ c d a b, RegClaim (.srl c d a b) c d [d, a, b]
    (fun s => s.g c a / 2 ^ (s.g c b % 64)) (fun _ => [])) ∧
  (∀ c d a b, RegClaim (.sra c d a b) c d [d, a, b]
    (fun s => unsint 36 (sint 36 (s.g c a) / 2 ^ (s.g c b % 64))) (fun _ => [])) ∧
  (∀ c d a b, RegClaim (.rol c d a b) c d [d, a, b]
    (fun s => (s.g c a * 2 ^ ((s.g c b % 64) % 36) + s.g c a / 2 ^ (36 - (s.g c b % 64) % 36)) % 2 ^ 36) (fun _ => [])) ∧
  (∀ c d a sh, RegClaim (.slli c d a sh) c d [d, a]
    (fun s => s.g c a * 2 ^ sh % 2 ^ 36) (fun _ => [])) ∧
  (∀ c d a sh, RegClaim (.srli c d a sh) c d [d, a]
    (fun s => s.g c a / 2 ^ sh) (fun _ => [])) ∧
  (∀ c d a sh, RegClaim (.srai c d a sh) c d [d, a]
    (fun s => unsint 36 (sint 36 (s.g c a) / 2 ^ sh)) (fun _ => [])) ∧
  (∀ c d a sh, RegClaim (.roli c d a sh) c d [d, a]
    (fun s => (s.g c a * 2 ^ (sh % 36) + s.g c a / 2 ^ (36 - sh % 36)) % 2 ^ 36) (fun _ => [])) ∧
  (∀ c d a pos len, RegClaim (.ext c d a pos len) c d [d, a]
    (fun s => s.g c a / 2 ^ pos % 2 ^ len) (fun _ => [])) ∧
  (∀ c d a pos len, RegClaim (.exts c d a pos len) c d [d, a]
    (fun s => unsint 36 (sint len (s.g c a / 2 ^ pos))) (fun _ => [])) ∧
  (∀ c d a pos len, RegClaim (.ins c d a pos len) c d [d, a, d]
    (fun s => s.g c d % 2 ^ pos + s.g c a % 2 ^ len * 2 ^ pos + s.g c d / 2 ^ (pos + len) * 2 ^ (pos + len)) (fun _ => [])) ∧
  (∀ c (d a : Nat) (imm : BitVec 22), RegClaim (.addi c d a imm) c d [d, a]
    (fun s => (s.g c a + unsint 36 imm.toInt) % 2 ^ 36) (fun _ => [])) ∧
  (∀ c (d a : Nat) (imm : BitVec 22), RegClaim (.andi c d a imm) c d [d, a]
    (fun s => s.g c a &&& unsint 36 imm.toInt) (fun _ => [])) ∧
  (∀ c (d a : Nat) (imm : BitVec 22), RegClaim (.ori c d a imm) c d [d, a]
    (fun s => s.g c a ||| unsint 36 imm.toInt) (fun _ => [])) ∧
  (∀ c (d a : Nat) (imm : BitVec 22), RegClaim (.xori c d a imm) c d [d, a]
    (fun s => s.g c a ^^^ unsint 36 imm.toInt) (fun _ => [])) ∧
  (∀ c (d a : Nat) (imm : BitVec 22), RegClaim (.slti c d a imm) c d [d, a]
    (fun s => if sint 36 (s.g c a) < imm.toInt then 1 else 0) (fun _ => [])) ∧
  (∀ c (d : Nat) (imm : BitVec 18), RegClaim (.li c d true imm) c d [d, d]
    (fun _ => imm.toNat * 2 ^ 18) (fun _ => [])) ∧
  (∀ c (d : Nat) (imm : BitVec 18), RegClaim (.li c d false imm) c d [d, d]
    (fun s => s.g c d / 2 ^ 18 * 2 ^ 18 + imm.toNat) (fun _ => []))

/-- Multiply and divide: results, division by zero, and saturation. For each of the 8 multiply and divide instructions, on
every state in which the core can issue it, exec answers a next state in which Gd holds the result of R286: a division
by zero gives 0xF_FFFF_FFFF or the dividend and sets ST.dz, MULF saturates with ST.ss; nothing else of the machine
changes but PC and the loop registers. Rules: R275, R286, R302. -/
def Obligations.MulDivResults : Prop :=
  (∀ c d a b, RegClaim (.mul c d a b) c d [d, a, b]
    (fun s => s.g c a * s.g c b % 2 ^ 36) (fun _ => [])) ∧
  (∀ c d a b, RegClaim (.mulh c d a b) c d [d, a, b]
    (fun s => unsint 36 (sint 36 (s.g c a) * sint 36 (s.g c b) / 2 ^ 36)) (fun _ => [])) ∧
  (∀ c d a b, RegClaim (.mulhu c d a b) c d [d, a, b]
    (fun s => s.g c a * s.g c b / 2 ^ 36) (fun _ => [])) ∧
  (∀ c d a b rnd sh, RegClaim (.mulf c d a b rnd sh) c d [d, a, b]
    (fun s => unsint 36 (clampI (-(2 ^ 35)) (2 ^ 35 - 1) (roundShift rnd sh (sint 36 (s.g c a) * sint 36 (s.g c b))))) (fun s => if outS36 (roundShift rnd sh (sint 36 (s.g c a) * sint 36 (s.g c b))) then [31] else [])) ∧
  (∀ c d a b, RegClaim (.div c d a b) c d [d, a, b]
    (fun s => if s.g c b = 0 then 0xFFFFFFFFF else unsint 36 ((sint 36 (s.g c a)).tdiv (sint 36 (s.g c b)))) (fun s => if s.g c b = 0 then [30] else [])) ∧
  (∀ c d a b, RegClaim (.divu c d a b) c d [d, a, b]
    (fun s => if s.g c b = 0 then 0xFFFFFFFFF else s.g c a / s.g c b) (fun s => if s.g c b = 0 then [30] else [])) ∧
  (∀ c d a b, RegClaim (.rem c d a b) c d [d, a, b]
    (fun s => if s.g c b = 0 then s.g c a else unsint 36 ((sint 36 (s.g c a)).tmod (sint 36 (s.g c b)))) (fun s => if s.g c b = 0 then [30] else [])) ∧
  (∀ c d a b, RegClaim (.remu c d a b) c d [d, a, b]
    (fun s => if s.g c b = 0 then s.g c a else s.g c a % s.g c b) (fun s => if s.g c b = 0 then [30] else []))

/-- The F36 and binary64 instructions: where result and flags go, and what they leave alone. For each of the 23 F36
instructions of R304, on every state in which the core can issue it, exec answers a next state in which Gd (for FCVTDF
the pair) holds the result of the format operation under the rounding mode that x selects (0: FST.rm), its flags are
added to the sticky flags of FST, conversions to S36 that saturate set ST.ss, and nothing else of the machine changes
but PC and the loop registers. For each of the 13 binary64 instructions of R306, on every state in which the core can
issue it, exec answers a next state in which the pair of Gd (for comparisons and DCVTID the register Gd) holds the
result of the format operation on the 32 low bits of the operand words, flags are added to FST, and nothing else of
the machine changes but PC and the loop registers. Rules: R276, R304, R305, R306. -/
def Obligations.FloatingPointResults : Prop :=
  (∀ c d a b rm, FpClaim (.fadd c d a b rm) c d [d, a, b]
    (fun s => fmtF36.add (s.rmode c rm) (s.g c a) (s.g c b))) ∧
  (∀ c d a b rm, FpClaim (.fsub c d a b rm) c d [d, a, b]
    (fun s => fmtF36.sub (s.rmode c rm) (s.g c a) (s.g c b))) ∧
  (∀ c d a b rm, FpClaim (.fmul c d a b rm) c d [d, a, b]
    (fun s => fmtF36.mul (s.rmode c rm) (s.g c a) (s.g c b))) ∧
  (∀ c d a b rm, FpClaim (.fma c d a b rm) c d [d, a, b]
    (fun s => fmtF36.fma (s.rmode c rm) (s.g c a) (s.g c b) (s.g c d) false)) ∧
  (∀ c d a b rm, FpClaim (.fms c d a b rm) c d [d, a, b]
    (fun s => fmtF36.fma (s.rmode c rm) (s.g c a) (s.g c b) (s.g c d) true)) ∧
  (∀ c d a b rm, FpClaim (.fdiv c d a b rm) c d [d, a, b]
    (fun s => fmtF36.div (s.rmode c rm) (s.g c a) (s.g c b))) ∧
  (∀ c d a rm, FpClaim (.fsqrt c d a rm) c d [d, a, 0]
    (fun s => fmtF36.sqrt (s.rmode c rm) (s.g c a))) ∧
  (∀ c d a b rm, FpClaim (.fmin c d a b rm) c d [d, a, b]
    (fun s => fmtF36.minMax false (s.g c a) (s.g c b))) ∧
  (∀ c d a b rm, FpClaim (.fmax c d a b rm) c d [d, a, b]
    (fun s => fmtF36.minMax true (s.g c a) (s.g c b))) ∧
  (∀ c d a rm, FpClaim (.fabs c d a rm) c d [d, a, 0]
    (fun s => (s.g c a % 2 ^ 35, 0))) ∧
  (∀ c d a rm, FpClaim (.fneg c d a rm) c d [d, a, 0]
    (fun s => (if s.g c a < 2 ^ 35 then s.g c a + 2 ^ 35 else s.g c a - 2 ^ 35, 0))) ∧
  (∀ c d a b rm, FpClaim (.fcmpeq c d a b rm) c d [d, a, b]
    (fun s => fmtF36.cmp 0 (s.g c a) (s.g c b))) ∧
  (∀ c d a b rm, FpClaim (.fcmplt c d a b rm) c d [d, a, b]
    (fun s => fmtF36.cmp 1 (s.g c a) (s.g c b))) ∧
  (∀ c d a b rm, FpClaim (.fcmple c d a b rm) c d [d, a, b]
    (fun s => fmtF36.cmp 2 (s.g c a) (s.g c b))) ∧
  (∀ c d a rm, FpClaim (.fclass c d a rm) c d [d, a, 0]
    (fun s => (fmtF36.class_ (s.g c a), 0))) ∧
  (∀ c d a rm, FpClaim (.fcvtfi c d a rm) c d [d, a, 0]
    (fun s => fmtF36.ofInt (s.rmode c rm) (sint 36 (s.g c a)) 0)) ∧
  (∀ c d a f rm, FpClaim (.fcvtfq c d a f rm) c d [d, a, 0]
    (fun s => fmtF36.ofInt (s.rmode c rm) (sint 36 (s.g c a)) (-(f : Int)))) ∧
  (∀ c d a rm, ToIntClaim (.fcvtif c d a rm) c d [d, a]
    (fun s => fmtF36.toS36 (s.rmode c rm) (s.g c a) 0)) ∧
  (∀ c d a f rm, ToIntClaim (.fcvtqf c d a f rm) c d [d, a]
    (fun s => fmtF36.toS36 (s.rmode c rm) (s.g c a) f)) ∧
  (∀ c d a rm, FpClaim (.fcvtfd c d a rm) c d [d, a, a + 1]
    (fun s => fmtD.convert fmtF36 (s.rmode c rm) (s.pairD c a))) ∧
  (∀ c d a rm, PairClaim (.fcvtdf c d a rm) c d [d, d + 1, a]
    (fun s => fmtF36.convert fmtD (s.rmode c rm) (s.g c a))) ∧
  (∀ c d a rm, FpClaim (.fcvtfs c d a rm) c d [d, a, 0]
    (fun s => fmtS.convert fmtF36 (s.rmode c rm) (s.g c a % 2 ^ 32))) ∧
  (∀ c d a rm, FpClaim (.fcvtsf c d a rm) c d [d, a, 0]
    (fun s => fmtF36.convert fmtS (s.rmode c rm) (s.g c a))) ∧
  (∀ c d a b rm, PairClaim (.dadd c d a b rm) c d [d, d + 1, a, a + 1, b, b + 1]
    (fun s => fmtD.add (s.rmode c rm) (s.pairD c a) (s.pairD c b))) ∧
  (∀ c d a b rm, PairClaim (.dsub c d a b rm) c d [d, d + 1, a, a + 1, b, b + 1]
    (fun s => fmtD.sub (s.rmode c rm) (s.pairD c a) (s.pairD c b))) ∧
  (∀ c d a b rm, PairClaim (.dmul c d a b rm) c d [d, d + 1, a, a + 1, b, b + 1]
    (fun s => fmtD.mul (s.rmode c rm) (s.pairD c a) (s.pairD c b))) ∧
  (∀ c d a b rm, PairClaim (.dfma c d a b rm) c d [d, d + 1, a, a + 1, b, b + 1]
    (fun s => fmtD.fma (s.rmode c rm) (s.pairD c a) (s.pairD c b) (s.pairD c d) false)) ∧
  (∀ c d a b rm, PairClaim (.ddiv c d a b rm) c d [d, d + 1, a, a + 1, b, b + 1]
    (fun s => fmtD.div (s.rmode c rm) (s.pairD c a) (s.pairD c b))) ∧
  (∀ c d a rm, PairClaim (.dsqrt c d a rm) c d [d, d + 1, a, a + 1]
    (fun s => fmtD.sqrt (s.rmode c rm) (s.pairD c a))) ∧
  (∀ c d a b rm, PairClaim (.dmin c d a b rm) c d [d, d + 1, a, a + 1, b, b + 1]
    (fun s => fmtD.minMax false (s.pairD c a) (s.pairD c b))) ∧
  (∀ c d a b rm, PairClaim (.dmax c d a b rm) c d [d, d + 1, a, a + 1, b, b + 1]
    (fun s => fmtD.minMax true (s.pairD c a) (s.pairD c b))) ∧
  (∀ c d a b rm, FpClaim (.dcmpeq c d a b rm) c d [d, a, a + 1, b, b + 1]
    (fun s => fmtD.cmp 0 (s.pairD c a) (s.pairD c b))) ∧
  (∀ c d a b rm, FpClaim (.dcmplt c d a b rm) c d [d, a, a + 1, b, b + 1]
    (fun s => fmtD.cmp 1 (s.pairD c a) (s.pairD c b))) ∧
  (∀ c d a b rm, FpClaim (.dcmple c d a b rm) c d [d, a, a + 1, b, b + 1]
    (fun s => fmtD.cmp 2 (s.pairD c a) (s.pairD c b))) ∧
  (∀ c d a rm, PairClaim (.dcvtdi c d a rm) c d [d, d + 1, a]
    (fun s => fmtD.ofInt (s.rmode c rm) (sint 36 (s.g c a)) 0)) ∧
  (∀ c d a rm, ToIntClaim (.dcvtid c d a rm) c d [d, a, a + 1]
    (fun s => fmtD.toS36 (s.rmode c rm) (s.pairD c a) 0))

/-- The multiply-accumulate modes: exact sums, saturation at 80 bits, ST.as. For MAC, MACV, MACW, CMAC, DOT2, DOT4 and
SETA, on every state in which the core can issue them, exec answers a next state in which each accumulator that the
instruction names holds the exact value of R298, R299 or R302 limited to 80 bits, ST.as of each that was limited is
set, and nothing else of the machine changes but PC and the loop registers. Rules: R298, R299, R302. -/
def Obligations.MacResults : Prop :=
  (∀ c (k a b : Nat) (neg clr : Bool) (sg : Nat), AccClaim (.mac c k a b neg clr sg) c [a, b] [k]
    (fun s _ => accNew s c k neg clr (macMul sg (s.g c a) (s.g c b)))) ∧
  (∀ c (a b : Nat) (neg clr : Bool) (sg : Nat), AccClaim (.macv c a b neg clr sg) c [a, b, b + 1, b + 2, b + 3] [0, 1, 2, 3]
    (fun s j => accNew s c j neg clr (macMul sg (s.g c a) (s.g c (b + j))))) ∧
  (∀ c (a : Nat) (neg clr : Bool) (sg : Nat), AccClaim (.macw c a neg clr sg) c [a] [0, 1, 2, 3]
    (fun s j => accNew s c j neg clr (macMul sg (s.g c a) ((s.cr c (rW j)).toNat)))) ∧
  (∀ c (k a b : Nat) (neg clr : Bool) (sg : Nat), AccClaim (.cmac c k a b neg clr sg) c [a, a + 1, b, b + 1] [k, k + 1]
    (fun s j => accNew s c j neg clr (if j = k then macMul sg (s.g c a) (s.g c b) - macMul sg (s.g c (a + 1)) (s.g c (b + 1))
      else macMul sg (s.g c a) (s.g c (b + 1)) + macMul sg (s.g c (a + 1)) (s.g c b)))) ∧
  (∀ c (k a b : Nat) (neg clr : Bool) (sg : Nat), AccClaim (.dot2 c k a b neg clr sg) c [a, a + 1, b, b + 1] [k]
    (fun s _ => accNew s c k neg clr (macMul sg (s.g c a) (s.g c b) + macMul sg (s.g c (a + 1)) (s.g c (b + 1))))) ∧
  (∀ c (k a b : Nat) (neg clr : Bool) (sg : Nat), AccClaim (.dot4 c k a b neg clr sg) c [a, a + 1, a + 2, a + 3, b, b + 1, b + 2, b + 3] [k]
    (fun s _ => accNew s c k neg clr (macMul sg (s.g c a) (s.g c b) + macMul sg (s.g c (a + 1)) (s.g c (b + 1))
      + macMul sg (s.g c (a + 2)) (s.g c (b + 2)) + macMul sg (s.g c (a + 3)) (s.g c (b + 3))))) ∧
  (∀ c (k a sh : Nat), AccClaim (.seta c k a sh) c [a] [k]
    (fun s _ => sint 36 (s.g c a) * 2 ^ sh))

/-- Moves of accumulators, window registers and special registers. For SACC, MVAX, MVAH, MVAL, SETAH, SETAL, SETAX, CLRA,
MVW and SETW, on every state in which the core can issue them, exec answers a next state with the effect R302 gives:
reads of an accumulator part or window register go to Gd, SACC rounds, shifts and saturates with ST.ss, writes replace
exactly the named part, and CLRA clears exactly the accumulators of its mask. MFS puts the special register s of R277
into Gd and MTS writes Ga, without its reserved bits, into it; ST.nmi is read-only; NPC and NST are accessible only
while ST.nmi is 1, and otherwise the instruction takes exception cause 1 with its word. Rules: R298, R302, R277, R311. -/
def Obligations.AccumulatorWindowAndSpecialMoves : Prop :=
  (∀ c d k rnd sh, RegClaim (.sacc c d k rnd sh) c d [d]
    (fun s => unsint 36 (clampI (-(2 ^ 35)) (2 ^ 35 - 1) (roundShift rnd sh (s.acc c k)))) (fun s => if outS36 (roundShift rnd sh (s.acc c k)) then [31] else [])) ∧
  (∀ c d k, RegClaim (.mvax c d k) c d [d] (fun s => unsint 36 (sint 8 (s.cr c (rAx k)).toNat)) (fun _ => [])) ∧
  (∀ c d k, RegClaim (.mvah c d k) c d [d] (fun s => (s.cr c (rAh k)).toNat) (fun _ => [])) ∧
  (∀ c d k, RegClaim (.mval c d k) c d [d] (fun s => (s.cr c (rAl k)).toNat) (fun _ => [])) ∧
  (∀ c d w, RegClaim (.mvw c d w) c d [d] (fun s => (s.cr c (rW w)).toNat) (fun _ => [])) ∧
  (∀ c k a s₀ s, CoreReady c (.setah c k a) [a] s₀ s → exec (.setah c k a) s₀ = .next ((s.setCr c (rAh k) (word (s.g c a))).advance c)) ∧
  (∀ c k a s₀ s, CoreReady c (.setal c k a) [a] s₀ s → exec (.setal c k a) s₀ = .next ((s.setCr c (rAl k) (word (s.g c a))).advance c)) ∧
  (∀ c k a s₀ s, CoreReady c (.setax c k a) [a] s₀ s → exec (.setax c k a) s₀ = .next ((s.setCr c (rAx k) (word (s.g c a % 256))).advance c)) ∧
  (∀ c w a s₀ s, CoreReady c (.setw c w a) [a] s₀ s → exec (.setw c w a) s₀ = .next ((s.setCr c (rW w) (word (s.g c a))).advance c)) ∧
  (∀ c mask s₀ s, CoreReady c (.clra c mask) [] s₀ s → ∃ t : State, exec (.clra c mask) s₀ = .next t ∧
    (∀ k < 4, t.acc c k = if bitN mask k then 0 else s.acc c k) ∧
    CoreOnly c ([0, 1, 2, 3].flatMap accSlots ++ seqSlots) s t) ∧
  (∀ c d k s₀ s, CoreReady c (.mfs c d k) [d] s₀ s → (k < 0x20 ∨ s.inNmi c = true) → ∃ t : State, exec (.mfs c d k) s₀ = .next t ∧
    (d ≠ 0 → t.g c d = (if k = 3 then s.pc c else if k = 4 then (match (s.co c).task with | some t => 2 ^ 35 + t | none => 0)
      else if k = 5 then c else if k = 6 then s.cycles else (s.cr c (sregSlot k)).toNat) % 2 ^ 36) ∧
    (∀ j, bitN (t.st c) j = bitN (s.st c) j) ∧ CoreOnly c (s.dst c d ++ rST :: seqSlots) s t) ∧
  (∀ c k a s₀ s, CoreReady c (.mts c k a) [a] s₀ s → (k < 0x20 ∨ s.inNmi c = true) →
    exec (.mts c k a) s₀ = .next ((s.setCr c (sregSlot k) (word (s.sregValue c k (s.g c a)))).advance c)) ∧
  (∀ c d k s₀ s, CoreReady c (.mfs c d k) [d] s₀ s → ¬(k < 0x20 ∨ s.inNmi c = true) →
    exec (.mfs c d k) s₀ = .next (s.takeExc c 1 (s.pc c) (encodeSynlen (.mfs c d k)) false)) ∧
  (∀ c k a s₀ s, CoreReady c (.mts c k a) [a] s₀ s → ¬(k < 0x20 ∨ s.inNmi c = true) →
    exec (.mts c k a) s₀ = .next (s.takeExc c 1 (s.pc c) (encodeSynlen (.mts c k a)) false)) ∧
  (∀ (s : State) c v, bitN (s.sregValue c 0 v) 29 = s.inNmi c)

/-- LD, LD2 and LDP: what a load reads, where an access becomes outstanding, and the pointer update. On every state in
which the core can issue the load and the loads find room and no store to the own words read is outstanding, exec
answers a next state in which every word of the own stores that the instruction addresses (the base-register address,
or the pointer address with its circular fold; the second word of a pair at the next address) is in its register,
every other access is appended to the outstanding accesses, the pointer is updated, no byte of memory changes, and
nothing else of the machine changes but PC and the loop registers. At the bound of 16 reads LD holds issue, and
CORE_STALL counts the cycles of each edge. Rules: R288, R289, R290, R293, R294. -/
def Obligations.LoadResults : Prop :=
  (∀ c (d a : Nat) (imm : BitVec 22), LoadClaim (.ld c d a imm) c [d, a] (fun s => [(d, (s.eaBase c a imm))]) (fun _ => none)) ∧
  (∀ c (d a : Nat) (imm : BitVec 22), LoadClaim (.ld2 c d a imm) c [d, d + 1, a] (fun s => [(d, (s.eaBase c a imm)), (d + 1, ((s.eaBase c a imm + 1) % 2 ^ 36))]) (fun _ => none)) ∧
  (∀ c d (p am m : Nat) (circ pair : Bool) (imm : BitVec 16), LoadClaim (.ldp c d p am m circ pair imm) c (if pair then [d, d + 1] else [d])
    (fun s => if pair then [(d, (s.eaPtr c p am m circ imm)), (d + 1, (s.fold c p circ (s.eaPtr c p am m circ imm) 1))] else [(d, (s.eaPtr c p am m circ imm))]) (fun s => s.ptrAfter c p am m circ imm)) ∧
  (∀ (s₀ s : State) c (d a : Nat) (imm : BitVec 22), CoreReady c (.ld c d a imm) [d, a] s₀ s → s.loadRoom c [s.eaBase c a imm] = false →
    exec (.ld c d a imm) s₀ = .next (s.setCo c { s.co c with stalled := true })) ∧
  (∀ (s : State) n, ∃ t : State, s.stallTick n = t ∧ (∀ c < 64, (s.co c).stalled = false → t.get (pCore c) CORE_STALL.n = s.get (pCore c) CORE_STALL.n) ∧ t = { s with regs := t.regs }) ∧
  (∀ (s : State) n c r, s.core = [(c, r)] → r.stalled = true → c < 64 → s.stallTick n = s.put (pCore c) CORE_STALL.n (min (2 ^ 36 - 1) (s.get (pCore c) CORE_STALL.n + n))) ∧
  (∀ (s : State) c (a : Nat) (imm : BitVec 22), s.eaBase c a imm = (s.g c a + unsint 36 imm.toInt) % 2 ^ 36) ∧
  (∀ (s : State) c p (x : Nat) (step : Int), s.clen c p ≠ 0 → s.fold c p true x step
    = unsint 36 ((s.cbase c p : Int) + ((x : Int) - s.cbase c p + step) % (s.clen c p : Int)))

/-- ST, ST2, STP and STA: the words stored, where a store is posted, and the pointer update. On every state in which the
core can issue the store and the store path has room, exec answers a next state in which each word of the own data
store that the instruction addresses holds the stored value (STA: the accumulator shifted and rounded as ACTL says and
limited to 36 bits, with ST.ss), every other byte of memory is unchanged, each other store is posted, the pointer is
updated, and nothing else of the machine changes but PC and the loop registers. With 16 stores outstanding ST waits.
Rules: R288, R289, R290, R293, R303. -/
def Obligations.StoreResults : Prop :=
  (∀ c (d a : Nat) (imm : BitVec 22), StoreClaim (.st c d a imm) c [d, a] (fun s => [((s.eaBase c a imm), s.g c d)]) (fun _ => none) (fun _ => false)) ∧
  (∀ c (d a : Nat) (imm : BitVec 22), StoreClaim (.st2 c d a imm) c [d, d + 1, a]
    (fun s => [((s.eaBase c a imm), s.g c d), (((s.eaBase c a imm + 1) % 2 ^ 36), s.g c (d + 1))]) (fun _ => none) (fun _ => false)) ∧
  (∀ c d (p am m : Nat) (circ pair : Bool) (imm : BitVec 16), StoreClaim (.stp c d p am m circ pair imm) c (if pair then [d, d + 1] else [d])
    (fun s => if pair then [((s.eaPtr c p am m circ imm), s.g c d), ((s.fold c p circ (s.eaPtr c p am m circ imm) 1), s.g c (d + 1))] else [((s.eaPtr c p am m circ imm), s.g c d)]) (fun s => s.ptrAfter c p am m circ imm) (fun _ => false)) ∧
  (∀ c (k p am m : Nat) (circ : Bool) (imm : BitVec 16), StoreClaim (.sta c k p am m circ imm) c []
    (fun s => [((s.eaPtr c p am m circ imm), unsint 36 (clampI (-(2 ^ 35)) (2 ^ 35 - 1) (s.staValue c k)))]) (fun s => s.ptrAfter c p am m circ imm) (fun s => outS36 (s.staValue c k))) ∧
  (∀ (s₀ s : State) c (d a : Nat) (imm : BitVec 22), CoreReady c (.st c d a imm) [d, a] s₀ s → s.storeRoom c [s.eaBase c a imm] = false →
    exec (.st c d a imm) s₀ = .next s)

/-- Atomics and outstanding accesses: the word read and written, the value delivered, the bus error. For XCHG, CAS, FAA,
FOR and FAND, on every state in which the core can issue them: with accesses outstanding they wait; on a word of the
own data store exec answers a next state in which Gd holds the old word, the word at Ga holds the result of R295, and
every other byte of memory and everything else but PC and the loop registers is unchanged; on an address outside the
own stores the access is outstanding with its operands and issue is held; on the own instruction store cause 4 is
raised with the address (that Gd is then 0 is log entry 30, the model's reading). A load that may complete delivers
the word of its target to its register, leaves the outstanding list, and changes no other register of any core; a
store to the own instruction store writes exactly its word; a store to the MRAM window, and any access outside the own
stores without a response, is a bus error: a failed load writes 0, the exception is imprecise and names the access.
Another initiator reads or writes exactly the word of a local store that it names. Rules: R294, R295, R297, R292,
R293, R14. -/
def Obligations.AtomicsAndOutstandingAccesses : Prop :=
  (∀ c d a b, AtomicClaim (.xchg c d a b) c d a b .xchg (fun _ v _ => v)) ∧
  (∀ c d a b, AtomicClaim (.cas c d a b) c d a b .cas (fun t v e => if t = e then v else t)) ∧
  (∀ c d a b, AtomicClaim (.faa c d a b) c d a b .faa (fun t v _ => t + v)) ∧
  (∀ c d a b, AtomicClaim (.forA c d a b) c d a b .fora (fun t v _ => t ||| v)) ∧
  (∀ c d a b, AtomicClaim (.fand c d a b) c d a b .fand (fun t v _ => t &&& v)) ∧
  (∀ (s : State) c k o how, s.outAt c k = some o → o.kind = .load → o.dst < 16 → o.after = [] → s.canComplete c k o = true →
    (s.co c).hold = .none → (s.co c).drain = .none → AccessEnd.good how = true → (s.checkedRead c o.addr false how).2.core = s.core →
    (s.checkedRead c o.addr false how).2.crs = s.crs → ∀ w, (s.checkedRead c o.addr false how).1 = some w → ∃ t : State,
      exec (.loadReturn c k how) s = .next t ∧ (o.dst ≠ 0 → t.cr c (bankSlot o.bank o.dst) = w) ∧
      (t.co c).outs = (s.co c).outs.eraseIdx k ∧
      (∀ e i, i < 128 → e ≠ c ∨ i ∉ (if o.dst = 0 then [] else [bankSlot o.bank o.dst]) → t.cr e i = s.cr e i) ∧
      t = { (s.checkedRead c o.addr false how).2 with crs := t.crs, core := t.core }) ∧
  (∀ (s : State) c a, (targetOf a = .commons ∨ ∃ n, targetOf a = .localData n ∨ targetOf a = .localInst n) →
    s.checkedRead c a false .ok = (some (s.memW a), s)) ∧
  (∀ (s : State) c k o how, s.outAt c k = some o → o.kind ≠ .load → o.kind ≠ .store → s.canComplete c k o = true →
    exec (.loadReturn c k how) s = .next (s.atomicDone c k o how)) ∧
  (∀ (s : State) c k o, s.outAt c k = some o → o.kind = .store → isOwn c o.addr = true → o.after = [] → s.canComplete c k o = true →
    (s.co c).hold = .none → (s.co c).drain = .none → ∀ how, ∃ t : State, exec (.storeComplete c k how) s = .next t ∧
      t.memW (resolveOwn c o.addr) = o.val ∧ (∀ a, a ≠ resolveOwn c o.addr → t.memW a = s.memW a) ∧
      (t.co c).outs = (s.co c).outs.eraseIdx k ∧ t = { s with mem := t.mem, core := t.core }) ∧
  (∀ (s : State) c k o, s.outAt c k = some o → o.kind = .store → targetOf o.addr = .mram → s.canComplete c k o = true →
    exec (.storeComplete c k .ok) s = .next (s.accessError c k o)) ∧
  (∀ (s : State) c k o, c < 64 → s.outAt c k = some o → isOwn c o.addr = false →
    exec (.accessTimeout c k) s = .next (s.accessError c k o)) ∧
  (∀ (s : State) c k o, o.kind = .load → (s.co c).hold = .none → s.accessError c k o
    = ((((s.dropOut c k).setGIn c o.bank o.dst 0).takeExc c 2 o.pc o.addr true).afterAccess c)) ∧
  (∀ (s : State) c ini (a v : Word), (targetOf a.toNat = .localData c ∨ targetOf a.toNat = .localInst c) → ini ≠ c →
    exec (.remoteStoreAccess ini a (some v)) s = .next (s.setMem a.toNat v) ∧
    exec (.remoteStoreAccess ini a none) s = .next { s with rdata := s.memW a.toNat })

/-- FTAP and WLD: the tap, the window, the moved word, the pointers, and exception cause 7. On every state in which the
core can issue FTAP with its data address (and with mv the address of the move) in the own data store, and no store to
the word of the coefficient outstanding (else FTAP waits), exec answers a next state with the accumulation of R300
(the coefficient is the word of the own instruction store, but for the boot ROM overlay of core 0, which is log entry
105, the model's choice) (one accumulator, or with win = 1 all four from the window before the shift), the window
shifted, the sample moved, both pointers advanced (P_px folded when circ = 1), every other byte of memory and
everything else but ST.as, PC and the loop registers unchanged. WLD shifts the window and loads W0. With the data
address outside the own data store both take exception cause 7 with that address. Rules: R300, R301, R311. -/
def Obligations.FilterTaps : Prop :=
  (∀ (s₀ s : State) c k win mv px pk circ neg sg dn, CoreReady c (.ftap c k win mv px pk circ neg sg dn) [] s₀ s →
    isOwnData c (s.ptr c px) = true → (mv = true → isOwnData c (s.fold c px circ (s.ptr c px) (if dn then 1 else -1)) = true) →
    s.ownBusy c (ownInst c (s.ptr c pk)) = false → ∃ t : State, exec (.ftap c k win mv px pk circ neg sg dn) s₀ = .next t ∧
      (win = false → t.acc c k = clampI (-(2 ^ 79)) (2 ^ 79 - 1) (accNew s c k neg false
        (macMul sg (s.memW (resolveOwn c (s.ptr c px))).toNat (s.coef c (s.ptr c pk)).toNat))) ∧
      (win = true → ∀ j < 4, t.acc c j = clampI (-(2 ^ 79)) (2 ^ 79 - 1) (accNew s c j neg false
        (macMul sg (s.cr c (rW j)).toNat (s.coef c (s.ptr c pk)).toNat))) ∧
      (win = true → t.cr c (rW 0) = s.memW (resolveOwn c (s.ptr c px)) ∧ ∀ j < 3, t.cr c (rW (j + 1)) = s.cr c (rW j)) ∧
      (mv = true → t.memW (resolveOwn c (s.fold c px circ (s.ptr c px) (if dn then 1 else -1))) = s.memW (resolveOwn c (s.ptr c px))) ∧
      (px ≠ pk → t.ptr c px = s.fold c px circ (s.ptr c px) (if dn then -1 else 1) ∧ t.ptr c pk = (s.ptr c pk + 1) % 2 ^ 36) ∧
      CoreMemOnly c ((if win then [0, 1, 2, 3].flatMap accSlots ++ [rW 0, rW 1, rW 2, rW 3] else accSlots k)
        ++ rP px :: rP pk :: rST :: seqSlots)
        (if mv then [resolveOwn c (s.fold c px circ (s.ptr c px) (if dn then 1 else -1))] else []) s t) ∧
  (∀ (s₀ s : State) c k win mv px pk circ neg sg dn, CoreReady c (.ftap c k win mv px pk circ neg sg dn) [] s₀ s →
    isOwnData c (s.ptr c px) = true → (mv = true → isOwnData c (s.fold c px circ (s.ptr c px) (if dn then 1 else -1)) = true) →
    s.ownBusy c (ownInst c (s.ptr c pk)) = true → exec (.ftap c k win mv px pk circ neg sg dn) s₀ = .next s) ∧
  (∀ (s : State) c i, (c ≠ 0 ∨ i % 2 ^ 14 < 0x3000 ∨ s.get pSys SYS_BOOT.state = 3) → s.coef c i = s.memW (ownInst c i)) ∧
  (∀ (s₀ s : State) c k win mv px pk circ neg sg dn, CoreReady c (.ftap c k win mv px pk circ neg sg dn) [] s₀ s →
    isOwnData c (s.ptr c px) = false →
    exec (.ftap c k win mv px pk circ neg sg dn) s₀ = .next (s.takeExc c 7 (s.pc c) (s.ptr c px) false)) ∧
  (∀ (s₀ s : State) c (p am m : Nat) (circ : Bool) (imm : BitVec 16), CoreReady c (.wld c p am m circ imm) [] s₀ s →
    isOwnData c (s.eaPtr c p am m circ imm) = true → ∃ t : State, exec (.wld c p am m circ imm) s₀ = .next t ∧
      t.cr c (rW 0) = s.memW (resolveOwn c (s.eaPtr c p am m circ imm)) ∧ (∀ j < 3, t.cr c (rW (j + 1)) = s.cr c (rW j)) ∧
      (∀ e, s.ptrAfter c p am m circ imm = some e → t.cr c (rP e.1) = word e.2) ∧
      CoreOnly c ([rW 0, rW 1, rW 2, rW 3] ++ ptrSlot (s.ptrAfter c p am m circ imm) ++ seqSlots) s t) ∧
  (∀ (s₀ s : State) c (p am m : Nat) (circ : Bool) (imm : BitVec 16), CoreReady c (.wld c p am m circ imm) [] s₀ s →
    isOwnData c (s.eaPtr c p am m circ imm) = false →
    exec (.wld c p am m circ imm) s₀ = .next (s.takeExc c 7 (s.pc c) (s.eaPtr c p am m circ imm) false))

/-- BCC, J, JAL and JR: the condition, the target, the link, and the loop levels left behind. On every state in which the
core can issue them: BCC goes to its target exactly when its condition of R307 holds and otherwise ends as any
instruction does; J goes to its target; JAL and JR put PC + 1 into Gd and go to the target or to Ga[13:0] (Ga read
before Gd is written); a jump makes inactive each loop level whose body does not contain the target; nothing changes
but Gd, PC and the bounds of the loops. Rules: R307, R308. -/
def Obligations.BranchResults : Prop :=
  (∀ (s₀ s : State) c a b (target : BitVec 14), CoreReady c (.bcc c 0 a b target) [a, b] s₀ s →
    (s.g c a = s.g c b → exec (.bcc c 0 a b target) s₀ = .next (s.jumpTo c target.toNat)) ∧
    (¬(s.g c a = s.g c b) → exec (.bcc c 0 a b target) s₀ = .next (s.advance c))) ∧
  (∀ (s₀ s : State) c a b (target : BitVec 14), CoreReady c (.bcc c 1 a b target) [a, b] s₀ s →
    (s.g c a ≠ s.g c b → exec (.bcc c 1 a b target) s₀ = .next (s.jumpTo c target.toNat)) ∧
    (¬(s.g c a ≠ s.g c b) → exec (.bcc c 1 a b target) s₀ = .next (s.advance c))) ∧
  (∀ (s₀ s : State) c a b (target : BitVec 14), CoreReady c (.bcc c 2 a b target) [a, b] s₀ s →
    (sint 36 (s.g c a) < sint 36 (s.g c b) → exec (.bcc c 2 a b target) s₀ = .next (s.jumpTo c target.toNat)) ∧
    (¬(sint 36 (s.g c a) < sint 36 (s.g c b)) → exec (.bcc c 2 a b target) s₀ = .next (s.advance c))) ∧
  (∀ (s₀ s : State) c a b (target : BitVec 14), CoreReady c (.bcc c 3 a b target) [a, b] s₀ s →
    (sint 36 (s.g c b) ≤ sint 36 (s.g c a) → exec (.bcc c 3 a b target) s₀ = .next (s.jumpTo c target.toNat)) ∧
    (¬(sint 36 (s.g c b) ≤ sint 36 (s.g c a)) → exec (.bcc c 3 a b target) s₀ = .next (s.advance c))) ∧
  (∀ (s₀ s : State) c a b (target : BitVec 14), CoreReady c (.bcc c 4 a b target) [a, b] s₀ s →
    (s.g c a < s.g c b → exec (.bcc c 4 a b target) s₀ = .next (s.jumpTo c target.toNat)) ∧
    (¬(s.g c a < s.g c b) → exec (.bcc c 4 a b target) s₀ = .next (s.advance c))) ∧
  (∀ (s₀ s : State) c a b (target : BitVec 14), CoreReady c (.bcc c 5 a b target) [a, b] s₀ s →
    (s.g c b ≤ s.g c a → exec (.bcc c 5 a b target) s₀ = .next (s.jumpTo c target.toNat)) ∧
    (¬(s.g c b ≤ s.g c a) → exec (.bcc c 5 a b target) s₀ = .next (s.advance c))) ∧
  (∀ (s₀ s : State) c a b (target : BitVec 14), CoreReady c (.bcc c 6 a b target) [a, b] s₀ s →
    (bitN (s.st c) 1 = true → exec (.bcc c 6 a b target) s₀ = .next (s.jumpTo c target.toNat)) ∧
    (¬(bitN (s.st c) 1 = true) → exec (.bcc c 6 a b target) s₀ = .next (s.advance c))) ∧
  (∀ (s₀ s : State) c a b (target : BitVec 14), CoreReady c (.bcc c 7 a b target) [a, b] s₀ s →
    (bitN (s.st c) 1 = false → exec (.bcc c 7 a b target) s₀ = .next (s.jumpTo c target.toNat)) ∧
    (¬(bitN (s.st c) 1 = false) → exec (.bcc c 7 a b target) s₀ = .next (s.advance c))) ∧
  (∀ (s₀ s : State) c a b (target : BitVec 14), CoreReady c (.bcc c 8 a b target) [a, b] s₀ s →
    (bitN (s.st c) 0 = true → exec (.bcc c 8 a b target) s₀ = .next (s.jumpTo c target.toNat)) ∧
    (¬(bitN (s.st c) 0 = true) → exec (.bcc c 8 a b target) s₀ = .next (s.advance c))) ∧
  (∀ (s₀ s : State) c a b (target : BitVec 14), CoreReady c (.bcc c 9 a b target) [a, b] s₀ s →
    (bitN (s.st c) 0 = false → exec (.bcc c 9 a b target) s₀ = .next (s.jumpTo c target.toNat)) ∧
    (¬(bitN (s.st c) 0 = false) → exec (.bcc c 9 a b target) s₀ = .next (s.advance c))) ∧
  (∀ (s₀ s : State) c (target : BitVec 14), CoreReady c (.j c target) [] s₀ s → exec (.j c target) s₀ = .next (s.jumpTo c target.toNat)) ∧
  (∀ (s₀ s : State) c d (target : BitVec 14), CoreReady c (.jal c d target) [d] s₀ s → ∃ t : State, exec (.jal c d target) s₀ = .next t ∧
    t.pc c = target.toNat ∧ (d ≠ 0 → t.g c d = (s.pc c + 1) % 2 ^ 14) ∧ CoreOnly c (s.dst c d ++ [rPC, rLB 0, rLB 1]) s t) ∧
  (∀ (s₀ s : State) c d a, CoreReady c (.jr c d a) [d, a] s₀ s → a ≠ d → ∃ t : State, exec (.jr c d a) s₀ = .next t ∧
    t.pc c = s.g c a % 2 ^ 14 ∧ (d ≠ 0 → t.g c d = (s.pc c + 1) % 2 ^ 14) ∧ CoreOnly c (s.dst c d ++ [rPC, rLB 0, rLB 1]) s t) ∧
  (∀ (s₀ s : State) c d, CoreReady c (.jr c d d) [d, d] s₀ s → ∃ t : State, exec (.jr c d d) s₀ = .next t ∧
    t.pc c = s.g c d % 2 ^ 14 ∧ (d ≠ 0 → t.g c d = (s.pc c + 1) % 2 ^ 14) ∧ CoreOnly c (s.dst c d ++ [rPC, rLB 0, rLB 1]) s t) ∧
  (∀ (s : State) c (target : Nat), (s.jumpTo c target).pc c = target % 2 ^ 14 ∧ CoreOnly c [rPC, rLB 0, rLB 1] s (s.jumpTo c target) ∧
    ∀ l < 2, (s.jumpTo c target).lbActive c l
      = (s.lbActive c l && decide (s.lbFirst c l ≤ target) && decide (target ≤ s.lbLast c l)))

/-- LOOP and the end of a loop body: level 1 first, the counts, the bounds, and PC. When an instruction that does not
change PC completes outside the NMI handler, the active level whose last address is PC repeats while its count is
above 1 (level 1 checked before level 0), or ends with count 0, inactive, and the next address; in the NMI handler the
end checks are suspended. LOOP starts its level over PC + 1 to end with its count, skips the body for a register count
of 0, and is illegal in the NMI handler or with end below PC + 1 (the last is log entry 19, the model's reading). In
each case nothing else of the machine changes. Rules: R277, R280, R308. -/
def Obligations.LoopsAndSequencing : Prop :=
  (∀ (s : State) c, s.inNmi c = true → s.advance c = s.setPc c (s.pc c + 1)) ∧
  (∀ (s : State) c, s.inNmi c = false → s.loopHere c 1 = false → s.loopHere c 0 = false →
    (s.advance c).pc c = (s.pc c + 1) % 2 ^ 14 ∧ CoreOnly c [rPC] s (s.advance c)) ∧
  (∀ (s : State) c, s.inNmi c = false → s.loopHere c 1 = true → 1 < (s.cr c (rLC 1)).toNat →
    (s.advance c).pc c = s.lbFirst c 1 ∧ (s.advance c).cr c (rLC 1) = s.cr c (rLC 1) - 1 ∧ CoreOnly c [rPC, rLC 1] s (s.advance c)) ∧
  (∀ (s : State) c, s.inNmi c = false → s.loopHere c 1 = false → s.loopHere c 0 = true → 1 < (s.cr c (rLC 0)).toNat →
    (s.advance c).pc c = s.lbFirst c 0 ∧ (s.advance c).cr c (rLC 0) = s.cr c (rLC 0) - 1 ∧ CoreOnly c [rPC, rLC 0] s (s.advance c)) ∧
  (∀ (s : State) c, s.inNmi c = false → s.loopHere c 1 = true → (s.cr c (rLC 1)).toNat ≤ 1 → s.loopHere c 0 = false →
    (s.advance c).pc c = (s.pc c + 1) % 2 ^ 14 ∧ (s.advance c).cr c (rLC 1) = 0 ∧ (s.advance c).lbActive c 1 = false ∧
      CoreOnly c [rPC, rLC 1, rLB 1] s (s.advance c)) ∧
  (∀ (s : State) c, s.inNmi c = false → s.loopHere c 1 = true → (s.cr c (rLC 1)).toNat ≤ 1 → s.loopHere c 0 = true →
    1 < (s.cr c (rLC 0)).toNat → (s.advance c).pc c = s.lbFirst c 0 ∧ (s.advance c).cr c (rLC 1) = 0 ∧
      (s.advance c).lbActive c 1 = false ∧ (s.advance c).cr c (rLC 0) = s.cr c (rLC 0) - 1 ∧
      CoreOnly c [rPC, rLC 1, rLB 1, rLC 0] s (s.advance c)) ∧
  (∀ (s : State) c, s.inNmi c = false → s.loopHere c 1 = false → s.loopHere c 0 = true → (s.cr c (rLC 0)).toNat ≤ 1 →
    (s.advance c).pc c = (s.pc c + 1) % 2 ^ 14 ∧ (s.advance c).cr c (rLC 0) = 0 ∧ (s.advance c).lbActive c 0 = false ∧
      CoreOnly c [rPC, rLC 0, rLB 0] s (s.advance c)) ∧
  (∀ (s₀ s : State) c (lvl : Nat) src (a cnt : Nat) (last : BitVec 14), lvl < 2 →
    CoreReady c (.loop c lvl src a cnt last) (if src then [a] else []) s₀ s → s.inNmi c = false → s.pc c + 1 ≤ last.toNat →
    ((if src then s.g c a % 2 ^ 24 else cnt) ≠ 0 → exec (.loop c lvl src a cnt last) s₀ = .next
      (((s.setCr c (rLC lvl) (word (if src then s.g c a % 2 ^ 24 else cnt))).setCr c (rLB lvl)
        (word (2 ^ 35 + (s.pc c + 1) * 2 ^ 14 + last.toNat))).advance c)) ∧
    ((if src then s.g c a % 2 ^ 24 else cnt) = 0 → ∃ t : State, exec (.loop c lvl src a cnt last) s₀ = .next t ∧
      t.pc c = (last.toNat + 1) % 2 ^ 14 ∧ t.lbActive c lvl = false ∧ CoreOnly c [rPC, rLC lvl, rLB lvl] s t)) ∧
  (∀ (s₀ s : State) c (lvl : Nat) src (a cnt : Nat) (last : BitVec 14), CoreReady c (.loop c lvl src a cnt last) (if src then [a] else []) s₀ s →
    (s.inNmi c = true ∨ last.toNat < s.pc c + 1) →
    exec (.loop c lvl src a cnt last) s₀ = .next (s.takeExc c 1 (s.pc c) (encodeSynlen (.loop c lvl src a cnt last)) false))

/-- POST, POSTA and POST_RESULT: what is posted, when, and where the code goes. While a store of the core is outstanding,
POST holds issue and POSTA goes on, and its post is made when the last of the earlier stores has completed; otherwise
they offer a post of producer class 2 for task Ga[8:0], or imm[8:0] when a is 0, and POST holds issue while POSTA goes
on. When the code of a POST has arrived, POST_RESULT puts it into Gd, ends the hold and completes the instruction, and
nothing else of the machine changes. Rules: R294, R309, R310. -/
def Obligations.PostingFromCores : Prop :=
  (∀ (s₀ s : State) c d a (imm : BitVec 16), CoreReady c (.post c d a imm) [d, a] s₀ s → s.storesOut c = 0 →
    exec (.post c d a imm) s₀ = .next ((s.offerPost { cls := 2, src := c, task := (if a = 0 then imm.toNat else s.g c a) % 2 ^ 9 }).holdIssue c (.post d))) ∧
  (∀ (s₀ s : State) c a (imm : BitVec 16), CoreReady c (.posta c a imm) [a] s₀ s → s.storesOut c = 0 →
    exec (.posta c a imm) s₀ = .next ((s.offerPost { cls := 2, src := c, task := (if a = 0 then imm.toNat else s.g c a) % 2 ^ 9, tag := 1 }).advance c)) ∧
  (∀ (s₀ s : State) c d a (imm : BitVec 16), CoreReady c (.post c d a imm) [d, a] s₀ s → s.storesOut c ≠ 0 →
    exec (.post c d a imm) s₀ = .next (s.setCo c { s.co c with hold := .posting d ((if a = 0 then imm.toNat else s.g c a) % 2 ^ 9) })) ∧
  (∀ (s₀ s : State) c a (imm : BitVec 16), CoreReady c (.posta c a imm) [a] s₀ s → s.storesOut c ≠ 0 →
    exec (.posta c a imm) s₀ = .next ((s.postaAfter c [(if a = 0 then imm.toNat else s.g c a) % 2 ^ 9]).advance c)) ∧
  (∀ (s : State) c l pre o post, (s.co c).outs = pre ++ o :: post → o.kind = .store → (∀ e ∈ post, e.kind ≠ .store) →
    s.postaAfter c l = s.setCo c { s.co c with outs := pre ++ { o with after := o.after ++ l } :: post }) ∧
  (∀ (s : State) c k o t, (s.co c).outs[k]? = some o → o.kind = .store → o.after = [t] → (∀ e ∈ (s.co c).outs.take k, e.kind ≠ .store) →
    s.dropOut c k = { s.setCo c { s.co c with outs := (s.co c).outs.eraseIdx k } with
      wire := s.wire ++ [{ cls := 2, src := c, task := t, tag := 1, at_ := s.now }] }) ∧
  (∀ (s : State) (q : Post), q.cls = 2 → s.offerPost q = { s with wire := s.wire ++ [{ q with at_ := max q.at_ s.now }] }) ∧
  (∀ (s : State) c d code, d < 16 → (s.co c).hold = .post d → (s.co c).postRes = some code → (s.co c).drain = .none → code < 2 ^ 36 →
    ∃ t : State, exec (.postResult c) s = .next t ∧ (d ≠ 0 → t.g c d = code) ∧ t.co c = { s.co c with hold := .none, postRes := none } ∧
      (∀ e, e ≠ c → t.co e = s.co e) ∧ (∀ e i, i < 128 → e ≠ c ∨ i ∉ s.dst c d ++ seqSlots → t.cr e i = s.cr e i) ∧
      t = { s with crs := t.crs, core := t.core })

/-- DONE, YIELD, WAITC, WAITC_EXPIRE, FENCE and ISYNC: the end of an activation and when issue is held. DONE waits until
the accesses of the core have arrived; then ctxv clears, the task enters state 0, 2 or 1 as R340 says, and the core
becomes free. YIELD goes on at once when no other listed task of the level or higher may take the core; otherwise its
56 context words are saved at words 8 to 63 with ctxv, the task enters state 4 with a new entry time, and the core
goes to the first such task. An activation that survived an INNK srst ends with no record. WAITC holds issue while (t
- CYC) mod 2^36 lies in 1 to 2^35 for t = Ga + imm, and its end completes the instruction once that no longer holds;
FENCE holds issue while an access (with imm[0] = 1 a store) is outstanding, ISYNC while a store to the own local
stores is; when nothing holds them they only complete. Rules: R326, R340, R341, R345, R294, R296, R309. -/
def Obligations.ActivationEndsAndHeldIssue : Prop :=
  (∀ (s₀ s : State) c t, CoreReady c (.doneTask c) [] s₀ s → s.drained c = true → (s.co c).task = some t → (s.co c).orphan = false →
    exec (.doneTask c) s₀ = .next ((if s.get (pTsk t) TSK_CFG.en = 0 then (s.put (pTsk t) TSK_STAT.ctxv 0).setTskState t 0
      else if 1 ≤ s.get (pTsk t) TSK_STAT.pend then (s.put (pTsk t) TSK_STAT.ctxv 0).list t 2
      else (s.put (pTsk t) TSK_STAT.ctxv 0).setTskState t 1).freeCore c)) ∧
  (∀ (s₀ s : State) c, CoreReady c (.doneTask c) [] s₀ s → s.drained c = false → exec (.doneTask c) s₀ = .next s) ∧
  (∀ (s₀ s : State) c t, CoreReady c (.doneTask c) [] s₀ s → s.drained c = true → (s.co c).task = some t → (s.co c).orphan = true →
    exec (.doneTask c) s₀ = .next (s.freeCore c)) ∧
  (∀ (s₀ s : State) c, CoreReady c (.yieldTask c) [] s₀ s → (s.co c).preempt = none → s.yieldTo c = none →
    exec (.yieldTask c) s₀ = .next (s.advance c)) ∧
  (∀ (s₀ s : State) c t u, CoreReady c (.yieldTask c) [] s₀ s → s.drained c = true → (s.co c).task = some t → (s.co c).orphan = false →
    (s.co c).preempt = none → s.yieldTo c = some u → ∃ v : State, exec (.yieldTask c) s₀ = .next v ∧
      v = ((((s.advance c).saveCtx c t).list t 4).freeCore c).setCo c { (((s.advance c).saveCtx c t).list t 4).freeCore c |>.co c with assign := some u } ∧
      (v.co c).task = none ∧ (v.co c).assign = some u) ∧
  (∀ (s : State) c t, ((s.freeCore c).co c).task = none ∧ ((s.freeCore c).co c).hold = .none ∧ (s.freeCore c).get (pCore c) CORE_BLK.run = 0 ∧
    (s.list t 4).ta t = { s.ta t with stamp := s.innk.clock } ∧ ((s.list t 4).innk).clock = s.innk.clock + 1) ∧
  (∀ (s : State) c t, (s.saveCtx c t).get (pTsk t) TSK_STAT.ctxv = 1 ∧
    (∀ i < 43, (s.saveCtx c t).regW (pTsk t + 8 + i) = s.cr c (1 + i)) ∧ (∀ i < 12, (s.saveCtx c t).regW (pTsk t + 52 + i) = s.cr c (48 + i))) ∧
  (∀ (s₀ s : State) c a (imm : BitVec 16), CoreReady c (.waitc c a imm) [a] s₀ s →
    (1 ≤ (unsint 36 ((s.g c a : Int) + imm.toInt) + 2 ^ 36 - s.cycles) % 2 ^ 36 ∧
      (unsint 36 ((s.g c a : Int) + imm.toInt) + 2 ^ 36 - s.cycles) % 2 ^ 36 ≤ 2 ^ 35 →
      exec (.waitc c a imm) s₀ = .next (s.setCo c { s.co c with hold := .waitc (unsint 36 ((s.g c a : Int) + imm.toInt)) })) ∧
    (¬(1 ≤ (unsint 36 ((s.g c a : Int) + imm.toInt) + 2 ^ 36 - s.cycles) % 2 ^ 36 ∧
      (unsint 36 ((s.g c a : Int) + imm.toInt) + 2 ^ 36 - s.cycles) % 2 ^ 36 ≤ 2 ^ 35) → exec (.waitc c a imm) s₀ = .next (s.advance c))) ∧
  (∀ (s : State) c u, (s.co c).hold = .waitc u →
    (s.waits u = true → exec (.waitcExpire c) s = .next s) ∧
    (s.waits u = false → exec (.waitcExpire c) s = .next ((s.setCo c { s.co c with hold := .none }).advance c))) ∧
  (∀ (s₀ s : State) c, CoreReady c (.fence c false) [] s₀ s → exec (.fence c false) s₀ = .next
    (if (s.co c).outs = [] then s.advance c else s.setCo c { s.co c with hold := .fence false })) ∧
  (∀ (s₀ s : State) c, CoreReady c (.fence c true) [] s₀ s → exec (.fence c true) s₀ = .next
    (if (∀ o ∈ (s.co c).outs, o.kind ≠ .store) then s.advance c else s.setCo c { s.co c with hold := .fence true })) ∧
  (∀ (s₀ s : State) c, CoreReady c (.isync c) [] s₀ s → exec (.isync c) s₀ = .next
    (if (∀ o ∈ (s.co c).outs, ¬(o.kind = .store ∧ isOwn c o.addr = true)) then s.advance c else s.setCo c { s.co c with hold := .isync }))

/-- Exceptions and non-maskable events: the record, the saved state, the return. BRK takes cause 5 and an illegal
instruction cause 1, each with its word and with no other effect; EXCEPTION takes a cause of R311, and cause 6 is also
accounted for on the memory page. With no record held, cause, task, PC and information are recorded, valid sets and
event 0 is recorded; with one held, lost increments and event 1 is recorded. The activation waits for its accesses
with a WAITC, FENCE or ISYNC abandoned, and then ends as faulted: context saved, state 5, faults counted, event 2 of
INNK page 0, the core free. In the NMI handler the core halts instead: halted sets and event 3 is recorded. NMI_SET
makes the NMI of a core pend with source 0 and changes no other word. A pending NMI is taken at a boundary of a core
that does not run its handler: NPC and NST take PC and ST, ST.nmi sets, the second bank replaces G12 to G15, PC takes
the vector, the count increments, event 2 is recorded; no other register of any core and no memory changes. NRET
restores ST, PC and the bank, and is an illegal instruction outside the handler. Rules: R280, R283, R311, R312, R314,
R342, R313. -/
def Obligations.ExceptionsAndNonMaskableEvents : Prop :=
  (∀ (s₀ s : State) c, CoreReady c (.brk c) [] s₀ s → exec (.brk c) s₀ = .next (s.takeExc c 5 (s.pc c) (encodeSynlen (.brk c)) false)) ∧
  (∀ (s : State) c (cause : Nat) (info : Word), c < 64 → 1 ≤ cause → cause ≤ 7 → ((s.co c).task.isSome = true ∨ s.inNmi c = true) →
    (s.co c).drain = .none → (s.co c).halted = false →
    (cause ≠ 6 → exec (.exception c cause info) s = .next (s.takeExc c cause (s.pc c) info.toNat (decide (2 ≤ cause ∧ cause ≤ 4)))) ∧
    (cause = 6 → exec (.exception c cause info) s = .next ((s.ownError c info.toNat).takeExc c 6 (s.pc c) info.toNat false))) ∧
  (∀ (s : State) c i, fieldsFit (synlenFields i) = true → s.canIssue c = true → synlenLegal i = false → ∀ k e r,
    s.instr c i e r k = (s.issued c).takeExc c 1 (s.pc c) (encodeSynlen i) false) ∧
  (∀ (s : State) c cause pc info impr, s.get (pCore c) CORE_EXC_ST.valid = 0 → cause < 16 → pc < 2 ^ 14 → info < 2 ^ 36 →
    ∃ u : State, s.recordExc c cause pc info impr = u.evC (pCore c) 0 ∧ u.get (pCore c) CORE_EXC_ST.valid = 1 ∧
      u.get (pCore c) CORE_EXC_ST.cause = cause ∧ u.get (pCore c) CORE_EXC_ST.impr = b2n impr ∧ u.get (pCore c) CORE_EXC_PC.pc = pc ∧
      u.get (pCore c) CORE_EXC_INFO.info = info ∧ (∀ t < 512, (s.co c).task = some t → u.get (pCore c) CORE_EXC_ST.task = t) ∧
      RegsOnly [pCore c + 0x10, pCore c + 0x11, pCore c + 0x12] s u) ∧
  (∀ (s : State) c cause pc info impr, s.get (pCore c) CORE_EXC_ST.valid ≠ 0 →
    s.recordExc c cause pc info impr = (s.inc (pCore c) CORE_EXC_ST.lost).evC (pCore c) 1) ∧
  (∀ (s : State) c cause pc info impr, s.inNmi c = true → s.takeExc c cause pc info impr = s.haltCore c) ∧
  (∀ (s : State) c t cause pc info impr, s.inNmi c = false → ((s.recordExc c cause pc info impr).co c).task = some t →
    ((s.recordExc c cause pc info impr).co c).outs ≠ [] → ∃ u : State, s.takeExc c cause pc info impr = u ∧ (u.co c).drain = .fault ∧
      (u.co c).task = some t ∧ (∀ n, (u.co c).hold ≠ .waitc n) ∧ (∀ b, (u.co c).hold ≠ .fence b) ∧ (u.co c).hold ≠ .isync ∧
      u = { s.recordExc c cause pc info impr with core := u.core }) ∧
  (∀ (s : State) c t, (s.co c).task = some t → (s.co c).orphan = false → s.endFault c
    = ((((s.saveCtx c t).setTskState t 5).inc (pTsk t) TSK_CNT.faults).evC pInnk0 2).freeCore c) ∧
  (∀ (s : State) c, (s.co c).task = none → ∃ u : State, s.haltCore c = u.evC (pCore c) 3 ∧ (u.co c).halted = true ∧
    u.get (pCore c) CORE_BLK.halted = 1) ∧
  (∀ (s : State) c, s.takes (pCore c + 0x14) →
    c < 64 → ∃ t : State, exec (.nmiSet c) s = .next t ∧ t.get (pCore c) CORE_NMI.pend = 1 ∧ t.get (pCore c) CORE_NMI.src = 0 ∧
    RegsOnly [pCore c + 0x14] s t) ∧
  (∀ (s : State) c, c < 64 → s.get (pCore c) CORE_NMI.pend = 1 → s.inNmi c = false → (s.co c).halted = false → s.nmiReady c = true →
    s.clockOff (pCore c) = false → s.domStopped 0 = false → exec (.nmiEntry c) s = .next (s.enterNmi c)) ∧
  (∀ (s : State) c, (s.get (pCore c) CORE_NMI.pend = 0 ∨ s.inNmi c = true ∨ s.clockOff (pCore c) = true ∨ s.domStopped 0 = true) →
    exec (.nmiEntry c) s = .next s) ∧
  (∀ (s : State) c, c < 64 → s.inNmi c = false → ∃ u : State, s.enterNmi c = u.ev (pCore c) 2 ∧ u.cr c rNPC = s.cr c rPC ∧ u.cr c rNST = s.cr c rST ∧
    u.inNmi c = true ∧ u.pc c = s.get (pCore c) CORE_NMI_VEC.vec ∧ u.get (pCore c) CORE_NMI.pend = 0 ∧
    u.get (pCore c) CORE_NMI.count = (s.get (pCore c) CORE_NMI.count + 1) % 2 ^ 16 ∧ fldGet (u.statView (pCore c)) CORE_BLK.nmi = 1 ∧ (u.co c).preempt = none ∧
    (u.co c).hold = .none ∧ (∀ i, 12 ≤ i → i < 16 → u.gSlot c i = rBank (i - 12)) ∧
    (∀ e i, i < 128 → e ≠ c ∨ i ∉ [rNPC, rNST, rST, rPC] → u.cr e i = s.cr e i) ∧ u.mem = s.mem) ∧
  (∀ (s₀ s : State) c, CoreReady c (.nret c) [] s₀ s → s.inNmi c = true → s.get (pCore c) CORE_NMI.pend = 0 → ∃ t : State, exec (.nret c) s₀ = .next t ∧
    t.cr c rST = s.cr c rNST ∧ t.cr c rPC = s.cr c rNPC ∧ fldGet (t.statView (pCore c)) CORE_BLK.nmi = b2n (bitN (s.cr c rNST).toNat 29) ∧
    (∀ e i, i < 128 → e ≠ c ∨ i ∉ [rST, rPC] → t.cr e i = s.cr e i) ∧ t = { s with crs := t.crs }) ∧
  (∀ (s₀ s : State) c, CoreReady c (.nret c) [] s₀ s → s.inNmi c = false →
    exec (.nret c) s₀ = .next (s.takeExc c 1 (s.pc c) (encodeSynlen (.nret c)) false))

/-- REGISTER_WRITE: memories, event enables, a safety-locked field, held and gated blocks, and the SAFE pages. A write
reaches exactly the word it names: a word of the Commons, of a local store or of the own alias; the MRAM window and
unassigned addresses keep everything; PAGE_EVEN of a channel or core page takes the written word and nothing else
changes. A safety-locked field (PWM_ENV_DT.dtmin) keeps its value after envelope lock, and the refusal is counted
exactly when the written value differs; before the lock it takes the value. A write to a block that holds accesses
waits, one to a gated block has no effect, and one to a SAFE word is counted as refused whatever it carries. Rules:
R9, R10, R13, R14, R15, R26, R30. -/
def Obligations.RegisterWrites : Prop :=
  (∀ (s : State) ini (a v : Word), (targetOf a.toNat = .commons ∨ ∃ c, targetOf a.toNat = .localData c ∨ targetOf a.toNat = .localInst c) →
    exec (.registerWrite ini a v) s = .next (s.setMem a.toNat v)) ∧
  (∀ (s : State) ini (a v : Word), targetOf a.toNat = .mram ∨ targetOf a.toNat = .nothing → exec (.registerWrite ini a v) s = .next s) ∧
  (∀ (s : State) ini (a v : Word), ini < 64 → (∃ o, targetOf a.toNat = .alias_ o) →
    exec (.registerWrite ini a v) s = .next (s.setMem (resolveOwn ini a.toNat) v)) ∧
  (∀ (s : State) ini (a v : Word), 64 ≤ ini → (∃ o, targetOf a.toNat = .alias_ o) → exec (.registerWrite ini a v) s = .next s) ∧
  (∀ (s : State) ini (a v : Word), targetOf a.toNat = .page → a.toNat % 0x100 = 4 →
    (∃ ch, blkOf a.toNat = .pwm ch ∨ blkOf a.toNat = .ale ch ∨ blkOf a.toNat = .fbk ch ∨ blkOf a.toNat = .prof ch ∨ blkOf a.toNat = .core ch) →
    ∃ t : State, exec (.registerWrite ini a v) s = .next t ∧ t.regW a.toNat = v ∧ RegsOnly [a.toNat] s t) ∧
  (∀ (s : State) ini (v : Word) ch, ch < 96 → s.mustWait (pPwm ch + 0x24) = false → s.gated (pPwm ch + 0x24) = false →
    s.slLocked = true → ini ≠ iniIsland → v.toNat % 2 ^ 16 ≠ s.get (pPwm ch) PWM_ENV_DT.dtmin →
    ∃ t : State, exec (.registerWrite ini (word (pPwm ch + 0x24)) v) s = .next t ∧ t.get (pPwm ch) PWM_ENV_DT.dtmin = s.get (pPwm ch) PWM_ENV_DT.dtmin ∧
      t.get (pPwm ch) PAGE_LOCK.refused = min 0xFFFF (s.get (pPwm ch) PAGE_LOCK.refused + 1) ∧ RegsOnly [pPwm ch + 7] s t) ∧
  (∀ (s : State) ini (v : Word) ch, ch < 96 → s.mustWait (pPwm ch + 0x24) = false → s.gated (pPwm ch + 0x24) = false →
    s.slLocked = true → ini ≠ iniIsland → v.toNat % 2 ^ 16 = s.get (pPwm ch) PWM_ENV_DT.dtmin →
    ∃ t : State, exec (.registerWrite ini (word (pPwm ch + 0x24)) v) s = .next t ∧ RegsOnly [] s t) ∧
  (∀ (s : State) ini (v : Word) ch, ch < 96 → s.mustWait (pPwm ch + 0x24) = false → s.gated (pPwm ch + 0x24) = false → s.slLocked = false →
    ∃ t : State, exec (.registerWrite ini (word (pPwm ch + 0x24)) v) s = .next t ∧ t.get (pPwm ch) PWM_ENV_DT.dtmin = v.toNat % 2 ^ 16 ∧
      RegsOnly [pPwm ch + 0x24] s t) ∧
  (∀ (s : State) ini (a v : Word), s.mustWait a.toNat = true →
    exec (.registerWrite ini a v) s = .next { s with held := s.held ++ [{ ini := ini, addr := a.toNat, wr := some v }] }) ∧
  (∀ (s : State) ini (a v : Word), targetOf a.toNat = .page → s.gated a.toNat = true → exec (.registerWrite ini a v) s = .next s) ∧
  (∀ (s : State) ini (v : Word) off, 0x10 ≤ off → off < 0x100 → s.mustWait (pSafe 2 + off) = false →
    exec (.registerWrite ini (word (pSafe 2 + off)) v) s = .next (s.refuse (pSafe 2)))

/-- Clock gating, block resets and page enables: the handshake, the words reset, the words kept. A request sets gate_req
and makes the block hold accesses; on a PWM page order 2 of the pad blocks applies at once. The acknowledge sets
gate_ack and ends the held accesses of the block; a block not idle in time clears gate_req, records its page and event
3 of the CLK page; a release clears gate_req and gate_ack and changes no other word. While gate_ack stands, the block
does nothing of its own: each of its timed commands changes nothing. A command that is one write or read of a register
word has no effect at a gated block, and waits while its block holds accesses: a write joins the held accesses with
its initiator, address and value. A block reset of MEM page 0 returns every block-specific word to its reset value,
clears PAGE_EV and PAGE_EVPEND, keeps PAGE_CTL, PAGE_EVEN, PAGE_POST, PAGE_LOCK, FC_CFG and FC_STAT and every other
word, and holds the page until SRST_END, at which the held accesses proceed. On a PWM page the locked envelope fields
and the envelope block survive. PAGE_ENABLE_WRITE sets PAGE_CTL.en; on a core that runs a task a 0 evicts it; SAFE
pages refuse it. Rules: R26, R49, R503, R504, R20, R21, R30, R339. -/
def Obligations.BlockGatingResetsAndEnables : Prop :=
  (∀ (s : State) page, gateFirst (pageAddr page) = true → s.flag (pageAddr page) PAGE_CTL.gate_req = true → exec (.gateRequest page) s = .next s) ∧
  (∀ s : State, s.flag pEth0 PAGE_CTL.gate_req = false →
    exec (.gateRequest 0x800) s = .next { s.put pEth0 PAGE_CTL.gate_req 1 with gating := pEth0 :: s.gating }) ∧
  (∀ (s : State) ch, ch < 96 → s.flag (pPwm ch) PAGE_CTL.gate_req = false → ∃ u : State,
    exec (.gateRequest (0x1000 + ch)) s = .next (u.padCause ch) ∧ u.get (pPwm ch) PAGE_CTL.gate_req = 1 ∧ pPwm ch ∈ u.gating ∧
      u.blk2 ch = true ∧ (u.pw ch).padHold = true) ∧
  (∀ (s : State) page, (∀ ch, blkOf (pageAddr page) ≠ .pwm ch) → s.gating.contains (pageAddr page) = true → s.crossIdle (pageAddr page) = true →
    exec (.gateAck page) s = .next { s.put (pageAddr page) PAGE_CTL.gate_ack 1 with
      gating := s.gating.filter (fun q => q != pageAddr page),
      held := s.held.filter (fun (h : HeldAcc) => gatePage h.addr != some (pageAddr page)) }) ∧
  (∀ (s : State) page, s.gating.contains (pageAddr page) = false → exec (.gateAck page) s = .next s ∧ exec (.gateRefused page) s = .next s) ∧
  (∀ (s : State) page, page < 2 ^ 14 → pageAddr page ∈ s.gating → ∃ u : State, exec (.gateRefused page) s = .next ((u.evC pClk 3).proceedHeld) ∧
    u.get (pageAddr page) PAGE_CTL.gate_req = 0 ∧ pageAddr page ∉ u.gating ∧ u.get pClk CLK_GATE_REF.page = page) ∧
  (∀ (s : State) ch a b, s.clockOff (pProf ch) = true → exec (.updateEdge ch a b) s = .next s ∧ exec (.streamUnderrun ch) s = .next s ∧
    exec (.stepEmit ch) s = .next s ∧ exec (.stepPulseFall ch) s = .next s ∧ (∀ k, exec (.inputDebounced ch k a) s = .next s) ∧
    (∀ k, exec (.chatterHoldEnd ch k) s = .next s)) ∧
  (∀ (s : State) ch, s.clockOff (pFbk ch) = true → (∀ a b, exec (.sincosSample ch a b) s = .next s) ∧
    (∀ f, exec (.serialFrameEnd ch f) s = .next s) ∧ exec (.watchLatch ch) s = .next s ∧ exec (.latchSetReady ch) s = .next s ∧
    exec (.emulationEdge ch) s = .next s ∧ exec (.emulationZPulseEnd ch) s = .next s) ∧
  (∀ (s : State) ch, s.clockOff (pPwm ch) = true → (∀ a b d, exec (.sdWindowClose ch a b d) s = .next s) ∧
    (∀ a b d, exec (.sdContinuousResult ch a b d) s = .next s) ∧ (∀ x : TripSample, x.ch = ch → exec (.tripQualified x) s = .next s)) ∧
  (∀ (s : State) p, s.clockOff (pPort p) = true → (∀ n, exec (.dlcalMeasure p n) s = .next s) ∧ exec (.mclkStop p) s = .next s) ∧
  (∀ s : State, s.clockOff pRing0 = true → (∀ u, exec (.breakDeclare u) s = .next s ∧ exec (.hopRestore u) s = .next s ∧
    exec (.linkBlock u) s = .next s ∧ (∀ b, exec (.linkBlockReceive u b) s = .next s) ∧ (∀ f, exec (.ringFrameReceive u f) s = .next s) ∧
    (∀ f, exec (.frameOverrunCutoff u f) s = .next s) ∧ exec (.ttControlRead u) s = .next s ∧ exec (.slotTransmit u) s = .next s ∧
    exec (.heldFrameLaunch u) s = .next s ∧ exec (.cyclePoint u) s = .next s ∧ exec (.asyncSend u) s = .next s) ∧
    exec .cycleStart s = .next s ∧ exec .coldStartTimeout s = .next s) ∧
  (∀ s : State, s.clockOff pEth0 = true → ∀ e q, (∀ f, exec (.ethFrameReceive e f) s = .next s) ∧ exec (.pfcFrameRepeat e q) s = .next s ∧
    exec (.pfcPauseExpire e q) s = .next s ∧ exec (.ethTransmit e q) s = .next s) ∧
  (∀ (s : State) page, gateFirst (pageAddr page) = true → s.held = [] → s.flag (pageAddr page) PAGE_CTL.gate_req = true → ∃ t : State,
    exec (.gateRelease page) s = .next t ∧ t.get (pageAddr page) PAGE_CTL.gate_req = 0 ∧ t.get (pageAddr page) PAGE_CTL.gate_ack = 0 ∧
      pageAddr page ∉ t.gating ∧ (∀ a, a ≠ pageAddr page + 1 → t.regW a = s.regW a)) ∧
  (∀ s : State, ∃ t : State, exec (.srst 0x500) s = .next t ∧ pMem 0 ∈ t.srstBusy ∧ t.get (pMem 0) PAGE_EV.ev = 0 ∧
    t.get (pMem 0) PAGE_EVPEND.evpend = 0 ∧ (∀ a, pMem 0 + 0x10 ≤ a → a < pMem 0 + 0x100 → t.regW a = resetWord a) ∧
    (∀ a, (a < pMem 0 ∨ pMem 0 + 0x100 ≤ a ∨ a - pMem 0 ∈ [0, 1, 4, 6, 7, 8, 9]) → t.regW a = s.regW a) ∧
    t = { s with regs := t.regs, srstBusy := t.srstBusy, scrubPos := Tab.drop s.scrubPos 0 }) ∧
  (∀ (s : State) ch, ch < 96 → s.slLocked = true → ∃ t : State, exec (.srst (0x1000 + ch)) s = .next t ∧
    t.get (pPwm ch) PWM_ENV_DT.dtmin = s.get (pPwm ch) PWM_ENV_DT.dtmin ∧ t.reg (pPwm ch + 1) = s.reg (pPwm ch + 1) ∧
    t.reg (pPwm ch + 8) = s.reg (pPwm ch + 8) ∧ t.reg (pPwm ch + 0x10) = (resetWord (pPwm ch + 0x10)).toNat ∧
    t.get (pPwm ch) PAGE_EV.ev = 0 ∧ t.envBlk = s.envBlk) ∧
  (∀ (s : State) page, s.held = [] → exec (.srstEnd page) s = .next { s with srstBusy := s.srstBusy.filter (fun p => p != pageAddr page) }) ∧
  (∀ (s : State) page ini a (v : Word), s.held = [{ ini := ini, addr := a, wr := some v }] →
    (∀ u : State, u.regs = s.regs → u.gating = s.gating → u.srstBusy = s.srstBusy.filter (fun p => p != pageAddr page) → u.mustWait a = false) →
    exec (.srstEnd page) s = .next
      ({ s with srstBusy := s.srstBusy.filter (fun p => p != pageAddr page), held := [] }.busWrite ini a v).1) ∧
  (∀ (s : State) e en, e < 2 → s.flag (pEth e) PAGE_CTL.en ≠ en → ∃ t : State, exec (.pageEnableWrite (0x801 + e) en) s = .next t ∧
    t.flag (pEth e) PAGE_CTL.en = en ∧ RegsOnly [pEth e + 1] s t) ∧
  (∀ (s : State) c, c < 64 → s.flag (pCore c) PAGE_CTL.en = true → (s.co c).task ≠ none →
    exec (.pageEnableWrite (0x2000 + c) false) s = .next ((s.put (pCore c) PAGE_CTL.en 0).setCo c { s.co c with evict := true, assign := none, preempt := none })) ∧
  (∀ (s : State) k en, k < 4 → exec (.pageEnableWrite (0x900 + k) en) s = .next (s.refuse (pSafe k))) ∧
  (∀ (n : Nat) (v : Word), WriteGuard (.tbMeasWrite n v) 0 (pTb n + 0x14) (fun _ => v)) ∧
  (∀ (n : Nat), WriteGuard (.tbLoad n) 0 (pTb n + 0x10) (fun s => s.withBit (pTb n + 0x10) 35)) ∧
  (∀ (n : Nat), WriteGuard (.tbStep n) 0 (pTb n + 0x10) (fun s => s.withBit (pTb n + 0x10) 34)) ∧
  (∀ (n : Nat) (v : Word), WriteGuard (.tbRateWrite n v) 0 (pTb n + 0x12) (fun _ => v)) ∧
  (∀ (n : Nat) (v : Word), WriteGuard (.tbFreqWrite n v) 0 (pTb n + 0x13) (fun _ => v)) ∧
  (∀ (v : Word), WriteGuard (.ctCtlWrite v) 0 (pTime0 + 0x10) (fun _ => v)) ∧
  (∀ (v : Word), WriteGuard (.reEpoch v) 0 (pTime0 + 0x15) (fun _ => v)) ∧
  (∀ (u : Nat), ReadGuard (.txqLoRead u) (pTsu u + 0x18)) ∧
  (∀ (ch : Nat), WriteGuard (.fbkLoad ch) 0 (pFbk ch + 0x1C) (fun _ => (word (2 ^ 35)))) ∧
  (∀ (ch : Nat), WriteGuard (.fbkClrunc ch) 0 (pFbk ch + 0x1C) (fun _ => (word (2 ^ 34)))) ∧
  (∀ (core : Nat) (ch : Nat), ReadGuard (.fbkPosRead core ch) (pFbk ch + 0x1F)) ∧
  (∀ (ch : Nat) (v : Word), WriteGuard (.bissReq ch v) 0 (pFbk ch + 0x2C) (fun _ => v)) ∧
  (∀ (core : Nat) (ch : Nat), ReadGuard (.fbkLatRead core ch) (pFbk ch + 0x48)) ∧
  (∀ (ini : Nat) (ch : Nat) (v : Word), WriteGuard (.fbkSupWrite ini ch v) ini (pFbk ch + 0x3C) (fun _ => v)) ∧
  (∀ (ch : Nat) (v : Word), WriteGuard (.fbkCfgWrite ch v) 0 (pFbk ch + 0x10) (fun _ => v)) ∧
  (∀ (ch : Nat), WriteGuard (.absoluteMove ch) 0 (pProf ch + 0x18) (fun _ => (profWord 0))) ∧
  (∀ (ch : Nat), WriteGuard (.relativeMove ch) 0 (pProf ch + 0x18) (fun _ => (profWord 1))) ∧
  (∀ (ch : Nat), WriteGuard (.velocityMove ch) 0 (pProf ch + 0x18) (fun _ => (profWord 2))) ∧
  (∀ (ch : Nat), WriteGuard (.stream ch) 0 (pProf ch + 0x18) (fun _ => (profWord 3))) ∧
  (∀ (ch : Nat), WriteGuard (.home ch) 0 (pProf ch + 0x18) (fun _ => (profWord 4))) ∧
  (∀ (ch : Nat), WriteGuard (.abort ch) 0 (pProf ch + 0x18) (fun _ => (word (2 ^ 31)))) ∧
  (∀ (ch : Nat), WriteGuard (.qstop ch) 0 (pProf ch + 0x18) (fun _ => (word (2 ^ 30)))) ∧
  (∀ (ch : Nat), WriteGuard (.positionLoad ch) 0 (pProf ch + 0x18) (fun _ => (word (2 ^ 29)))) ∧
  (∀ (ch : Nat), WriteGuard (.streamPush ch) 0 (pProf ch + 0x35) (fun s => s.withBit (pProf ch + 0x35) 35)) ∧
  (∀ (core : Nat) (ch : Nat), ReadGuard (.profPosRead core ch) (pProf ch + 0x1A)) ∧
  (∀ (core : Nat) (ch : Nat), ReadGuard (.profLatRead core ch) (pProf ch + 0x38)) ∧
  (∀ (ch : Nat), WriteGuard (.aleRefCommit ch) 0 (pAle ch + 0x13) (fun s => s.withBit (pAle ch + 0x13) 35)) ∧
  (∀ (ch : Nat) (v : Word), WriteGuard (.aleCfgWrite ch v) 0 (pAle ch + 0x10) (fun _ => v)) ∧
  (∀ (v : Word), WriteGuard (.mwDataWrite v) 0 (pMem 3 + 0x11) (fun _ => v)) ∧
  (∀ (k : Nat), WriteGuard (.porterStart k) 0 (pPorter0 + 0x10) (fun _ => (word (2 ^ 35 + k)))) ∧
  (∀ (c : Nat), WriteGuard (.nmiSet c) 0 (pCore c + 0x14) (fun _ => (word (2 ^ 34)))) ∧
  (∀ (t : Nat), WriteGuard (.cancel t) 0 (pInnk0 + 0x10) (fun _ => (cmdWord 1 t))) ∧
  (∀ (t : Nat), WriteGuard (.clear t) 0 (pInnk0 + 0x10) (fun _ => (cmdWord 2 t))) ∧
  (∀ (t : Nat), WriteGuard (.resumeCommand t) 0 (pInnk0 + 0x10) (fun _ => (cmdWord 3 t))) ∧
  (∀ (t : Nat), WriteGuard (.clearStatistics t) 0 (pInnk0 + 0x10) (fun _ => (cmdWord 4 t))) ∧
  (∀ (t : Nat) (v : Word), WriteGuard (.tskCfgWrite t v) 0 (pTsk t) (fun _ => v)) ∧
  (∀ (t : Nat) (hi : Bool) (v : Word), WriteGuard (.tskAffWrite t hi v) 0 (pTsk t + (if hi then 2 else 1)) (fun _ => v)) ∧
  (∀ (t : Nat) (w : Nat) (v : Word), WriteGuard (.contextWrite t w v) 0 (pTsk t + w) (fun _ => v)) ∧
  (∀ (n : Nat) (v : Word), WriteGuard (.trgArm n v) 0 (pTrg n + 2) (fun _ => (v ||| 0x800000000))) ∧
  (∀ (n : Nat) (v : Word), WriteGuard (.trgCancel n v) 0 (pTrg n + 2) (fun _ => (v &&& 0x7FFFFFFFF))) ∧
  (∀ (core : Nat) (n : Nat), ReadGuard (.trgThRead core n) (pTrg n)) ∧
  (∀ (pin : Nat), ReadGuard (.tioCloRead pin) (pPrism2 + 0x23 + 4 * pin)) ∧
  (∀ (ini : Nat) (pin : Nat) (v : Word), WriteGuard (.tioCfgWrite ini pin v) ini (pPrism2 + 0x10 + pin) (fun _ => v)) ∧
  (∀ (k : Nat) (v : Word), WriteGuard (.prismPerWrite k v) 0 (pPrism1 + 0x10 + k) (fun _ => v)) ∧
  (∀ (v : Word), WriteGuard (.clkPllWrite v) 0 (pClk + 0x11) (fun _ => v)) ∧
  (WriteGuard .pclkRelease 0 (pClk + 0x14) (fun _ => (word (2 ^ 35)))) ∧
  (WriteGuard .memcRelease 0 (pClk + 0x14) (fun _ => (word (2 ^ 34)))) ∧
  (∀ (fab : Bool) (src : Nat), WriteGuard (.stopSwitchRestart fab src) 0 (pClk + 0x12 + b2n fab) (fun _ => (domWord src false))) ∧
  (∀ (fab : Bool) (src : Nat), WriteGuard (.checkedSwitch fab src) 0 (pClk + 0x12 + b2n fab) (fun _ => (domWord src true))) ∧
  (∀ (v : Word), WriteGuard (.clkSscWrite v) 0 (pClk + 0x15) (fun _ => v)) ∧
  (∀ (page : Nat), WriteGuard (.forcedGate page) 0 (pClk + 0x19) (fun _ => (word (2 ^ 35 + page)))) ∧
  (∀ (q : Nat) (v : Word), WriteGuard (.qtailWrite q v) 0 (qAddr q + 3) (fun _ => v)) ∧
  (∀ (q : Nat) (v : Word), WriteGuard (.qcfgWrite q v) 0 (qAddr q + 1) (fun _ => v)) ∧
  (∀ (ini : Nat) (ch : Nat) (v : Word), WriteGuard (.pwmCfgWrite ini ch v) ini (pPwm ch + 0x10) (fun _ => v)) ∧
  (∀ (ini : Nat) (ch : Nat) (off : Nat) (v : Word), WriteGuard (.shadowWrite ini ch off v) ini (pPwm ch + off) (fun _ => v)) ∧
  (∀ (ch : Nat), WriteGuard (.pwmCommitStart ch) 0 (pPwm ch + 0x18) (fun _ => 4)) ∧
  (∀ (ch : Nat), WriteGuard (.pwmCommitStop ch) 0 (pPwm ch + 0x18) (fun _ => 2)) ∧
  (∀ (ch : Nat), WriteGuard (.pwmCommitGo ch) 0 (pPwm ch + 0x18) (fun _ => 1)) ∧
  (∀ (port : Nat) (v : Word), WriteGuard (.portMclkWrite port v) 0 (pPort port + 0x10) (fun _ => v)) ∧
  (∀ (ch : Nat) (v : Word), WriteGuard (.sdCfgWrite ch v) 0 (pPwm ch + 0x28) (fun _ => v))

/-- Events and their posts: PAGE_EV, PAGE_EVPEND, EVENT_CLEAR, and posts held at the crossing FIFO. An event sets its
PAGE_EV bit; its PAGE_EVPEND bit also sets when it is enabled at that moment, and a bit that goes from 0 to 1 posts
PAGE_POST.task when post_en is 1, a bit already 1 does not. EVENT_CLEAR clears exactly the written bits and nothing
else; a new event of the same cycle keeps its bit and posts again. A page post at a full crossing FIFO is held and
delivered when it has room. Rules: R22, R23, R24, R34. -/
def Obligations.PageEventsAndPosts : Prop :=
  (∀ (s : State) page (mask : Word), (blkOf (pageAddr page)).hasHeader = true → (blkOf (pageAddr page)).isLens = false → ∃ t : State, exec (.eventClear page false mask 0) s = .next t ∧
    t.get (pageAddr page) PAGE_EV.ev = s.get (pageAddr page) PAGE_EV.ev &&& (2 ^ 36 - 1 - mask.toNat) ∧ RegsOnly [pageAddr page + 3] s t) ∧
  (∀ (s : State) page (mask : Word), (blkOf (pageAddr page)).hasHeader = true → ∃ t : State, exec (.eventClear page true mask 0) s = .next t ∧
    t.get (pageAddr page) PAGE_EVPEND.evpend = s.get (pageAddr page) PAGE_EVPEND.evpend &&& (2 ^ 36 - 1 - mask.toNat) ∧
    RegsOnly [pageAddr page + 5] s t) ∧
  (∀ (s : State) page k, (blkOf (pageAddr page)).hasHeader = true → k < 36 → s.get (pageAddr page) PAGE_POST.post_en = 1 → bitN (s.get (pageAddr page) PAGE_EVEN.even) k = true →
    pageAddr page ∉ s.posted → ∃ u : State, exec (.eventClear page true (word (2 ^ k)) (word (2 ^ k))) s
        = .next { u.pagePost (pageAddr page) 0 with posted := pageAddr page :: s.posted } ∧
      bitN (u.get (pageAddr page) PAGE_EV.ev) k = true ∧ bitN (u.get (pageAddr page) PAGE_EVPEND.evpend) k = true ∧
      RegsOnly [pageAddr page + 3, pageAddr page + 5] s u) ∧
  (∀ (s : State) page (mask : Word), (blkOf (pageAddr page)).hasHeader = true → (blkOf (pageAddr page)).isLens = true →
    exec (.eventClear page false mask 0) s = .next (s.refuse (pageAddr page))) ∧
  (∀ (s : State) p k, k < 36 → bitN (s.get p PAGE_EVEN.even) k = false → s.ev p k = s.put p PAGE_EV.ev (setBitN (s.get p PAGE_EV.ev) k)) ∧
  (∀ (s : State) p k, k < 36 → bitN (s.get p PAGE_EVEN.even) k = true → bitN (s.get p PAGE_EVPEND.evpend) k = true →
    RegsOnly [p + 3] s (s.ev p k) ∧ bitN ((s.ev p k).get p PAGE_EV.ev) k = true) ∧
  (∀ (s : State) p k, k < 36 → bitN (s.get p PAGE_EVEN.even) k = true → bitN (s.get p PAGE_EVPEND.evpend) k = false →
    s.get p PAGE_POST.post_en = 1 → p ∉ s.posted → ∃ u : State, s.ev p k = { u.pagePost p 0 with posted := p :: s.posted } ∧ bitN (u.get p PAGE_EV.ev) k = true ∧
      bitN (u.get p PAGE_EVPEND.evpend) k = true ∧ RegsOnly [p + 3, p + 5] s u) ∧
  (∀ (s : State) p k, k < 36 → bitN (s.get p PAGE_EVEN.even) k = true → p ∈ s.posted → ∃ u : State, s.ev p k = u ∧ u.wire = s.wire ∧
      u.heldPosts = s.heldPosts ∧ bitN (u.get p PAGE_EVPEND.evpend) k = true ∧ RegsOnly [p + 3, p + 5] s u) ∧
  (∀ (s : State) q r, s.heldPosts = q :: r → s.crossing < 8 → q.tag ≠ 0 →
    exec .pagePostDeliver s = .next { s with heldPosts := r, wire := s.wire ++ [{ q with at_ := s.now }] }) ∧
  (∀ (s : State) q r, s.heldPosts = q :: r → s.crossing < 8 → q.tag = 0 →
    exec .pagePostDeliver s = .next (if s.get (pageAddr q.src) PAGE_EVPEND.evpend = 0 then { s with heldPosts := r }
      else { s with heldPosts := r, wire := s.wire ++ [{ q with at_ := s.now, task := s.get (pageAddr q.src) PAGE_POST.task }] })) ∧
  (∀ s : State, 8 ≤ s.crossing → exec .pagePostDeliver s = .next s) ∧
  (∀ (s : State) p, Post.fromPclk { cls := 1, src := (p - pageSpace) / 0x100, task := s.get p PAGE_POST.task } = true → 8 ≤ s.crossing →
    (∀ h ∈ s.heldPosts, ¬(h.tag = 0 ∧ h.src = (p - pageSpace) / 0x100)) →
    s.pagePost p 0 = { s with heldPosts := s.heldPosts ++ [{ cls := 1, src := (p - pageSpace) / 0x100, task := s.get p PAGE_POST.task, at_ := s.now }] })

/-- The fault counter: counting, the lasting class and its action, FC_CFG_WRITE, FC_WINDOW_EDGE and FAULT_CLEAR. An event
counts in cur and total, both saturating, only while enable is 1; lasting sets, and the action runs once, exactly when
cur + prev reaches n; action 0 only counts, 1 posts, 2 raises the NMI on every core, 3 notifies the island, 4 blocks
the outputs. A window edge moves cur to prev. FC_CFG takes a valid value and clears cur and prev with total and
lasting kept; an invalid one keeps the register and counts in total; a locked one keeps it. FAULT_CLEAR clears
lasting, cur and prev; an event of the same cycle counts into the cleared counter. No other word changes. Rules: R38,
R39, R40, R42, R43, R44. -/
def Obligations.FaultCounters : Prop :=
  (∀ (s : State) ini page (v : Word), (blkOf (pageAddr page)).hasHeader = true → s.fcLocked ini (pageAddr page) = false → fcOk v.toNat = false →
    ∃ t : State, exec (.fcCfgWrite ini page v) s = .next t ∧ t.get (pageAddr page) FC_STAT.total = min 0xFFFF (s.get (pageAddr page) FC_STAT.total + 1) ∧
      RegsOnly [pageAddr page + 9] s t) ∧
  (∀ (s : State) ini page (v : Word), (blkOf (pageAddr page)).hasHeader = true → s.fcLocked ini (pageAddr page) = false → fcOk v.toNat = true →
    ∃ t : State, exec (.fcCfgWrite ini page v) s = .next t ∧ t.get (pageAddr page) FC_CFG.enable = fldGet v.toNat FC_CFG.enable ∧
      t.get (pageAddr page) FC_CFG.action = fldGet v.toNat FC_CFG.action ∧ t.get (pageAddr page) FC_CFG.n = fldGet v.toNat FC_CFG.n ∧
      t.get (pageAddr page) FC_CFG.w = fldGet v.toNat FC_CFG.w ∧ t.get (pageAddr page) FC_STAT.cur = 0 ∧ t.get (pageAddr page) FC_STAT.prev = 0 ∧
      t.get (pageAddr page) FC_STAT.total = s.get (pageAddr page) FC_STAT.total ∧
      t.get (pageAddr page) FC_STAT.lasting = s.get (pageAddr page) FC_STAT.lasting ∧
      (∀ a, a ≠ pageAddr page + 8 → a ≠ pageAddr page + 9 → t.regW a = s.regW a) ∧ t = { s with regs := t.regs, fcStart := t.fcStart }) ∧
  (∀ (s : State) ini page (v : Word), (blkOf (pageAddr page)).hasHeader = true → s.fcLocked ini (pageAddr page) = true → ∃ t : State, exec (.fcCfgWrite ini page v) s = .next t ∧
      RegsOnly [pageAddr page + 7] s t) ∧
  (∀ (s : State) page, (blkOf (pageAddr page)).hasHeader = true → blkOf (pageAddr page) ≠ .mem1 → blkOf (pageAddr page) ≠ .mem2 → s.windowDue (pageAddr page) = true →
    ∃ t : State, exec (.fcWindowEdge page) s = .next t ∧ t.get (pageAddr page) FC_STAT.prev = s.get (pageAddr page) FC_STAT.cur ∧
      t.get (pageAddr page) FC_STAT.cur = 0 ∧ t.get (pageAddr page) FC_STAT.total = s.get (pageAddr page) FC_STAT.total ∧
      t.get (pageAddr page) FC_STAT.lasting = s.get (pageAddr page) FC_STAT.lasting ∧
      (∀ a, a ≠ pageAddr page + 9 → t.regW a = s.regW a) ∧ t = { s with regs := t.regs, fcStart := t.fcStart }) ∧
  (∀ (s : State) page, (blkOf (pageAddr page)).hasHeader = true → pageAddr page ∉ s.blocked → ∃ t : State, exec (.faultClear page false) s = .next t ∧
      t.get (pageAddr page) FC_STAT.lasting = 0 ∧ t.get (pageAddr page) FC_STAT.cur = 0 ∧ t.get (pageAddr page) FC_STAT.prev = 0 ∧
      t.get (pageAddr page) FC_STAT.total = s.get (pageAddr page) FC_STAT.total ∧ RegsOnly [pageAddr page + 9] s t ∧
      exec (.faultClear page true) s = .next (t.fc (pageAddr page))) ∧
  (∀ (s : State) p, s.get p FC_CFG.enable = 0 → s.fc p = s) ∧
  (∀ (s : State) p, s.get p FC_CFG.enable = 1 → (s.fcBump p).get p FC_STAT.cur = min 255 (s.get p FC_STAT.cur + 1) ∧
    (s.fcBump p).get p FC_STAT.total = min 0xFFFF (s.get p FC_STAT.total + 1) ∧ RegsOnly [p + 9] s (s.fcBump p) ∧
    (s.get p FC_STAT.lasting = 1 → s.fc p = s.fcBump p) ∧
    ((s.fcBump p).get p FC_STAT.cur + (s.fcBump p).get p FC_STAT.prev < s.get p FC_CFG.n → s.fc p = s.fcBump p) ∧
    (s.get p FC_STAT.lasting = 0 → s.get p FC_CFG.n ≤ (s.fcBump p).get p FC_STAT.cur + (s.fcBump p).get p FC_STAT.prev →
      s.fcStep p = (((s.fcBump p).put p FC_STAT.lasting 1).fcAction p, true))) ∧
  (∀ (s : State) p, (s.get p FC_CFG.action = 0 → s.fcAction p = s) ∧ (s.get p FC_CFG.action = 1 → s.fcAction p = s.pagePost p 1) ∧
    (s.get p FC_CFG.action = 3 → s.fcAction p = { s with fcNotify := s.fcNotify ++ [p] }) ∧
    (s.get p FC_CFG.action = 4 → p ∈ (s.fcAction p).blocked)) ∧
  (∀ (s : State) p, s.get p FC_CFG.action = 2 → ∀ c < 64, (s.fcAction p).get (pCore c) CORE_NMI.pend = 1 ∧ (s.fcAction p).get (pCore c) CORE_NMI.src = 1)

/-- The time bases: load, step, rate, frequency, measurements, the servo, the timeout, and the reset of a base. TB_LOAD
takes SET_HI and SET_LO, sets hist, clears f and the rate, increments the epoch, records event 4 and walks the Prism;
TB_STEP adds the measurement and leaves rate and f. A rate or frequency write changes exactly its word, a frequency
outside +-500 ppm only counts. A measurement by firmware acts with source 3 and has no effect with another; with servo
0 it changes no base and is recorded and counted; with servo 1 within the step limit f and the rate follow R57 with
its clamps. A timeout unlocks, clears good and records event 5. An srst of a base keeps value, epoch, hist and susp
and resets the servo state. Rules: R57, R58, R60, R61, R62, R65, R66, R546. -/
def Obligations.TimeBases : Prop :=
  (∀ (s : State) n, s.takes (pTb n + 0x10) → 1 ≤ n → n ≤ 3 → ∃ u : State, exec (.tbLoad n) s
      = .next ((((u.setCnt n (t72 (s.get (pTb n) TIME_TB_SET_HI.sec) (s.get (pTb n) TIME_TB_SET_LO.frac) * 2 ^ 40)).put (pTb n) TIME_TB_STAT.epoch
          (s.get (pTb n) TIME_TB_STAT.epoch + 1)).ev (pTb n) 4).walkRequest n).selector ∧
      u.get (pTb n) TIME_TB_STAT.hist = 1 ∧ u.get (pTb n) TIME_TB_FREQ.freq = 0 ∧ u.get (pTb n) TIME_TB_RATE.rate = 0 ∧
      RegsOnly [pTb n + 0x11, pTb n + 0x12, pTb n + 0x13] s u) ∧
  (∀ (s : State) n, s.takes (pTb n + 0x10) → 1 ≤ n → n ≤ 3 → exec (.tbStep n) s
      = .next ((((s.setCnt n (((s.cnt n : Int) + s.getI (pTb n) TIME_TB_MEAS.meas * 2 ^ 40) % (cntMod : Nat)).toNat).put (pTb n) TIME_TB_STAT.epoch
          (s.get (pTb n) TIME_TB_STAT.epoch + 1)).ev (pTb n) 4).walkRequest n).selector) ∧
  (∀ (s : State) n (v : Word), s.takes (pTb n + 0x12) →
    1 ≤ n → n ≤ 3 → ∃ t : State, exec (.tbRateWrite n v) s = .next t ∧ t.get (pTb n) TIME_TB_RATE.rate = v.toNat ∧
      RegsOnly [pTb n + 0x12] s t) ∧
  (∀ (s : State) n (v : Word), s.takes (pTb n + 0x13) →
    1 ≤ n → n ≤ 3 → (sint 36 v.toNat).natAbs ≤ 8796093022 → ∃ t : State, exec (.tbFreqWrite n v) s = .next t ∧
      t.get (pTb n) TIME_TB_FREQ.freq = v.toNat ∧ RegsOnly [pTb n + 0x13] s t) ∧
  (∀ (s : State) n (v : Word), s.takes (pTb n + 0x13) →
    1 ≤ n → n ≤ 3 → 8796093022 < (sint 36 v.toNat).natAbs → exec (.tbFreqWrite n v) s = .next (s.fc (pTb n))) ∧
  (∀ (s : State) n (v : Word), s.takes (pTb n + 0x14) → 1 ≤ n → n ≤ 3 → s.get (pTb n) TIME_TB_CTL.src ≠ 3 → exec (.tbMeasWrite n v) s = .next s) ∧
  (∀ (s : State) n (v : Word), s.takes (pTb n + 0x14) → 1 ≤ n → n ≤ 3 → s.get (pTb n) TIME_TB_CTL.src = 3 →
      exec (.tbMeasWrite n v) s = .next (s.tbMeasure n (sint 36 v.toNat) (s.get (pTb n) TIME_TB_INTV.tau))) ∧
  (∀ (s : State) n e tau, 1 ≤ n → n ≤ 3 → s.flag (pTb n) TIME_TB_CTL.servo = false → e.natAbs ≤ s.get pTime0 TIME_STEP_LIM.lim * 64 →
      ∃ u : State, s.tbMeasure n e tau = (u.tbCount n e).selector ∧ u.getI (pTb n) TIME_TB_MEAS.meas = clampI (-(2 ^ 35)) (2 ^ 35 - 1) e ∧
        u.get (pTb n) TIME_TB_STAT.count = (s.get (pTb n) TIME_TB_STAT.count + 1) % 2 ^ 16 ∧ u.time.cnt = s.time.cnt ∧
        (∀ a, a ≠ pTb n + 0x11 → a ≠ pTb n + 0x14 → u.regW a = s.regW a)) ∧
  (∀ (s : State) n e tau, 1 ≤ n → n ≤ 3 →
      (s.tbServo n e tau).getI (pTb n) TIME_TB_FREQ.freq
        = clampI (-8796093022) 8796093022 (s.getI (pTb n) TIME_TB_FREQ.freq + servoTerm (s.getI (pTb n) TIME_TB_KI.ki) e tau) ∧
      (s.tbServo n e tau).getI (pTb n) TIME_TB_RATE.rate
        = clampI (-8796093022) 8796093022 (s.getI (pTb n) TIME_TB_FREQ.freq + servoTerm (s.getI (pTb n) TIME_TB_KI.ki) e tau)
          + clampI (-(ppm44 (s.get pTime0 TIME_SLEW_LIM.ppm))) (ppm44 (s.get pTime0 TIME_SLEW_LIM.ppm)) (servoTerm (s.getI (pTb n) TIME_TB_KP.kp) e tau) ∧
      (∀ a, a ≠ pTb n + 0x12 → a ≠ pTb n + 0x13 → (s.tbServo n e tau).regW a = s.regW a)) ∧
  (∀ (s : State) n, 1 ≤ n → n ≤ 3 → s.get (pTb n) TIME_TB_LOCK.tmo ≠ 0 →
      s.flag (pTb n) TIME_TB_STAT.susp = false → n ∉ s.time.lapsed →
      Tab.rd s.time.mt n + max (s.get (pTb n) TIME_TB_LOCK.tmo * 2000000) (2 * s.tbTau n * 64) ≤ s.t64 0 →
      ∃ u : State, exec (.tbMeasTimeout n) s = .next (((u.tbUnlock n).ev (pTb n) 5).selector) ∧
        (s.flag (pTb n) TIME_TB_CTL.servo = true → u.get (pTb n) TIME_TB_RATE.rate = s.get (pTb n) TIME_TB_FREQ.freq) ∧
        (s.flag (pTb n) TIME_TB_CTL.servo = false → u.regs = s.regs) ∧ u.time.cnt = s.time.cnt) ∧
  (∀ (s : State) n, s.flag (pTb n) TIME_TB_STAT.locked = true → ∃ u : State, s.tbUnlock n = u.evC (pTb n) 2 ∧
      u.flag (pTb n) TIME_TB_STAT.locked = false ∧ u.get (pTb n) TIME_TB_STAT.good = 0) ∧
  (∀ (s : State) n, 1 ≤ n → n ≤ 3 → ∃ u : State, exec (.tbSrst n) s = .next u.selector ∧ u.time.cnt = s.time.cnt ∧
      u.get (pTb n) TIME_TB_STAT.hist = s.get (pTb n) TIME_TB_STAT.hist ∧ u.get (pTb n) TIME_TB_STAT.epoch = s.get (pTb n) TIME_TB_STAT.epoch ∧
      u.get (pTb n) TIME_TB_STAT.susp = s.get (pTb n) TIME_TB_STAT.susp ∧ u.get (pTb n) TIME_TB_STAT.locked = 0 ∧
      u.get (pTb n) TIME_TB_STAT.disc = 0 ∧ u.get (pTb n) TIME_TB_STAT.good = 0 ∧ u.get (pTb n) TIME_TB_FREQ.freq = 0 ∧
      u.get (pTb n) TIME_TB_RATE.rate = 0 ∧ u.prism = s.prism) ∧
  (∀ s : State, exec (.tbSrst 0) s = .next s)

/-- Cell time: first validity, the selector, the slew, the re-epoch, and the reset of TIME page 0. At first validity cell
time takes the primary base, or else the Mirror, and event 0 is recorded; a valid cell time is not loaded again. The
hold-off over, it returns to the primary. Below 15.625 ps the slew ends with event 6. CT_CTL takes a valid word and
refuses a base choice of 0 or an equal one with a count. A re-epoch onto a locked base with cell time valid and none
in progress enters state 4 and loads cell time from it, or is refused with event 4; it ends with event 3 once the walk
of cell time is over. A load sets valid, increments the epoch, names the followed base, and asks for a walk. In
holdover the rate is the frozen frequency; else it lies within +-1,500 ppm. An srst of the page keeps the counters,
validity, epoch, state and base. Model choices: the order of the events at the first validity and the state after a
re-epoch (log entry 109). Rules: R68, R69, R70, R71, R73, R75, R77, R547. -/
def Obligations.CellTime : Prop :=
  (∀ s : State, s.flag pTime0 TIME_CT_STAT.valid = false → s.eligible (s.get pTime0 TIME_CT_CTL.pri) = true → exec .ctFirstValidity s
    = .next ((((s.ctLoad (s.get pTime0 TIME_CT_CTL.pri)).put pTime0 TIME_CT_STAT.state 1).ev pTime0 0).selector)) ∧
  (∀ s : State, s.flag pTime0 TIME_CT_STAT.valid = false → s.eligible (s.get pTime0 TIME_CT_CTL.pri) = false →
    s.eligible (s.get pTime0 TIME_CT_CTL.mir) = true → exec .ctFirstValidity s
    = .next ((((s.ctLoad (s.get pTime0 TIME_CT_CTL.mir)).put pTime0 TIME_CT_STAT.state 2).ev pTime0 0).selector)) ∧
  (∀ s : State, s.flag pTime0 TIME_CT_STAT.valid = true → exec .ctFirstValidity s = .next s) ∧
  (∀ (s : State) t, s.noteRevert.time.revert = some t → s.flag pTime0 TIME_CT_CTL.hold = false → s.flag pTime0 TIME_CT_CTL.auto_ = true →
    s.get pTime0 TIME_CT_CTL.revert ≠ 0 → t + s.get pTime0 TIME_CT_CTL.revert * secUnits ≤ s.t64 0 →
    exec .revertHoldoffExpire s = .next ((s.select 1 (s.get pTime0 TIME_CT_CTL.pri)).noteRevert)) ∧
  (∀ s : State, s.following = true → s.flag pTime0 TIME_CT_STAT.slewing = true → s.ctDiff.natAbs < 2 ^ 40 →
    exec .slewDone s = .next ((s.put pTime0 TIME_CT_STAT.slewing 0).ev pTime0 6)) ∧
  (∀ (s : State) (v : Word), s.takes (pTime0 + 0x10) → fldGet v.toNat TIME_CT_CTL.pri = 0 ∨ fldGet v.toNat TIME_CT_CTL.mir = 0 ∨
      fldGet v.toNat TIME_CT_CTL.pri = fldGet v.toNat TIME_CT_CTL.mir → exec (.ctCtlWrite v) s = .next (s.fc pTime0)) ∧
  (∀ (s : State) (v : Word), s.takes (pTime0 + 0x10) → fldGet v.toNat TIME_CT_CTL.pri ≠ 0 → fldGet v.toNat TIME_CT_CTL.mir ≠ 0 →
      fldGet v.toNat TIME_CT_CTL.pri ≠ fldGet v.toNat TIME_CT_CTL.mir → ∃ u : State, exec (.ctCtlWrite v) s = .next u.selector ∧
      u.get pTime0 TIME_CT_CTL.hold = fldGet v.toNat TIME_CT_CTL.hold ∧ u.get pTime0 TIME_CT_CTL.auto_ = fldGet v.toNat TIME_CT_CTL.auto_ ∧
      u.get pTime0 TIME_CT_CTL.revert = fldGet v.toNat TIME_CT_CTL.revert ∧ u.get pTime0 TIME_CT_CTL.pri = fldGet v.toNat TIME_CT_CTL.pri ∧
      u.get pTime0 TIME_CT_CTL.mir = fldGet v.toNat TIME_CT_CTL.mir ∧ RegsOnly [pTime0 + 0x10] s u) ∧
  (∀ (s : State) (v : Word), s.takes (pTime0 + 0x15) → fldGet v.toNat TIME_REEPOCH.base ≠ 0 → fldGet v.toNat TIME_REEPOCH.go = 1 →
      (s.flag pTime0 TIME_CT_STAT.valid = false ∨ s.get pTime0 TIME_CT_STAT.state = 4 ∨
        s.flag (pTb (fldGet v.toNat TIME_REEPOCH.base)) TIME_TB_STAT.locked = false) → exec (.reEpoch v) s = .next (s.ev pTime0 4)) ∧
  (∀ (s : State) (v : Word), s.takes (pTime0 + 0x15) → fldGet v.toNat TIME_REEPOCH.base ≠ 0 → fldGet v.toNat TIME_REEPOCH.go = 1 →
      s.flag pTime0 TIME_CT_STAT.valid = true → s.get pTime0 TIME_CT_STAT.state ≠ 4 →
      s.flag (pTb (fldGet v.toNat TIME_REEPOCH.base)) TIME_TB_STAT.locked = true → s.flag pTime0 TIME_CT_STAT.slewing = false →
      exec (.reEpoch v) s = .next (((s.put pTime0 TIME_REEPOCH.base (fldGet v.toNat TIME_REEPOCH.base)).put pTime0 TIME_CT_STAT.state 4).ctLoad
        (fldGet v.toNat TIME_REEPOCH.base))) ∧
  (∀ (s : State) (v : Word), s.takes (pTime0 + 0x15) → fldGet v.toNat TIME_REEPOCH.base = 0 → fldGet v.toNat TIME_REEPOCH.go = 1 →
      exec (.reEpoch v) s = .next ((s.fc pTime0).ev pTime0 4)) ∧
  (∀ s : State, s.get pTime0 TIME_CT_STAT.state = 4 → s.walkOn 4 = false →
      exec .reEpochDone s = .next (((s.put pTime0 TIME_CT_STAT.state
        (if s.get pTime0 TIME_CT_STAT.base = s.get pTime0 TIME_CT_CTL.mir then 2 else 1)).ev pTime0 3).selector)) ∧
  (∀ s : State, s.get pTime0 TIME_CT_STAT.state = 4 → s.walkOn 4 = true → exec .reEpochDone s = .next s) ∧
  (∀ s : State, ∃ u : State, exec .timeSrst s = .next u.selector ∧ u.time.cnt = s.time.cnt ∧ u.reg (pTime0 + 0x11) = s.reg (pTime0 + 0x11) ∧
      u.regW (pTime0 + 0x10) = resetWord (pTime0 + 0x10) ∧ u.regW (pTime0 + 0x13) = resetWord (pTime0 + 0x13) ∧
      u.regW (pTime0 + 0x16) = resetWord (pTime0 + 0x16) ∧ u.time.ppsOut = false ∧ u.time.tenOut = false ∧ u.time.frozen = s.time.frozen) ∧
  (∀ (s : State) b, ∃ u : State, s.ctLoad b = u.walkRequest 4 ∧ u.flag pTime0 TIME_CT_STAT.valid = true ∧ Tab.get (fun _ => 0) u.time.cnt 4 = s.cnt b ∧
      u.get pTime0 TIME_CT_STAT.epoch = (s.get pTime0 TIME_CT_STAT.epoch + 1) % 256 ∧ u.get pTime0 TIME_CT_STAT.base = b % 4 ∧
      u.jumpAt = some (s.t64 0)) ∧
  (∀ s : State, s.get pTime0 TIME_CT_STAT.state = 3 → s.ctRate = s.time.frozen) ∧
  (∀ s : State, s.get pTime0 TIME_CT_STAT.state ≠ 3 → (s.ctRate : Int) ≤ ppm44 1500 ∧ -(ppm44 1500) ≤ s.ctRate)

/-- Snapshots, the 1PPS and 10 MHz inputs and outputs, link delays and the transmit queues. The read of word 3b takes a
snapshot of counter b into its three words and returns its seconds, unless the last one has not been read to its third
word. An enabled 1PPS edge of the marking direction is stamped, records event 5 and changes no other word; a 10 MHz
edge measures a base with source 5 by the offset to the nearest multiple of 100 ns, at a delay-line tap that the row
does not bring: a free value (the model's choice, log 37). The outputs rise at a whole second or 100 ns point of a
valid counter and stay low while the counter is invalid or the page is blocked. The mean delay of a link is half of
(t4 - t1) - (t3 - t2), t1 and t4 adjusted by the unit's EGR_ADJ and ING_ADJ, over the last 16 cycles. The read of
TXQ_LO removes the head record and shows the next. Rules: R35, R56, R75, R76, R80, R81, R89. -/
def Obligations.TimeStampsAndOutputs : Prop :=
  (∀ (s : State) c b, c < 64 → b < 5 → 8 * c + b ∉ s.time.snapBusy → ∃ t : State, exec (.snapshotRead c b) s = .next t ∧
    t.reg (pSnap c + 3 * b) = t72Hi (s.t64 b) ∧ t.reg (pSnap c + 3 * b + 1) = t72Lo (s.t64 b) ∧
    t.reg (pSnap c + 3 * b + 2) = s.stampWord b 0 % 2 ^ 36 ∧ t.rdata = word (t72Hi (s.t64 b)) ∧ 8 * c + b ∈ t.time.snapBusy ∧
    (∀ a, a ∉ [pSnap c + 3 * b, pSnap c + 3 * b + 1, pSnap c + 3 * b + 2] → t.regW a = s.regW a)) ∧
  (∀ (s : State) c b, c < 64 → b < 5 → 8 * c + b ∈ s.time.snapBusy → exec (.snapshotRead c b) s = .next { s with rdata := s.regW (pSnap c + 3 * b) }) ∧
  (∀ s : State, exec (.ppsOutput false) s = .next (if s.time.ppsRise + s.get pTime0 TIME_OUT_CTL.pps_w * 64000 ≤ s.t64 0
      then { s with time := { s.time with ppsOut := false } } else s) ∧
    exec (.tenMhzOutput false) s = .next (if s.time.tenRise + 3200 ≤ s.t64 0 then { s with time := { s.time with tenOut := false } } else s)) ∧
  (∀ s : State, s.flag pTime0 TIME_OUT_CTL.pps_en = true → s.cntValid (ctrOf (s.get pTime0 TIME_OUT_CTL.pps_tb)) = true → pTime0 ∉ s.blocked →
    s.t64 (ctrOf (s.get pTime0 TIME_OUT_CTL.pps_tb)) % secUnits < 161 → exec (.ppsOutput true) s
      = .next { s with time := { s.time with ppsOut := true, ppsRise := s.t64 0 - s.t64 (ctrOf (s.get pTime0 TIME_OUT_CTL.pps_tb)) % secUnits } }) ∧
  (∀ s : State, s.flag pTime0 TIME_OUT_CTL.ten_en = true → s.cntValid (ctrOf (s.get pTime0 TIME_OUT_CTL.ten_tb)) = true → pTime0 ∉ s.blocked →
    s.t64 (ctrOf (s.get pTime0 TIME_OUT_CTL.ten_tb)) % 6400 < 161 → exec (.tenMhzOutput true) s
      = .next { s with time := { s.time with tenOut := true, tenRise := s.t64 0 - s.t64 (ctrOf (s.get pTime0 TIME_OUT_CTL.ten_tb)) % 6400 } }) ∧
  (∀ s : State, s.cntValid (ctrOf (s.get pTime0 TIME_OUT_CTL.pps_tb)) = false ∨ pTime0 ∈ s.blocked → exec (.ppsOutput true) s = .next s) ∧
  (∀ (s : State) rising tap, s.flag pTime0 TIME_IN_CTL.pps_en = false → exec (.ppsInEdge ⟨rising, tap⟩) s = .next s) ∧
  (∀ (s : State) rising tap, s.flag pTime0 TIME_IN_CTL.pps_en = true → rising ≠ s.flag pTime0 TIME_IN_CTL.pps_fall →
    (∀ n ∈ [1, 2, 3], s.get (pTb n) TIME_TB_CTL.src ≠ 4 ∧ s.get (pTb n) TIME_TB_CTL.src ≠ 6) → s.get pTime0 PAGE_EVEN.even = 0 →
    ∃ t : State, exec (.ppsInEdge ⟨rising, tap⟩) s = .next t ∧
      t.get pTime0 TIME_PPS_IN_HI.sec = t72Hi (s.t64At (ctrOf (s.get pTime0 TIME_IN_CTL.tb)) tap) ∧
      t.get pTime0 TIME_PPS_IN_LO.frac = t72Lo (s.t64At (ctrOf (s.get pTime0 TIME_IN_CTL.tb)) tap) ∧
      t.get pTime0 TIME_PPS_IN_ST.st = s.stampWord (ctrOf (s.get pTime0 TIME_IN_CTL.tb)) 0 % 2 ^ 36 ∧ bitN (t.get pTime0 PAGE_EV.ev) 5 = true ∧
      RegsOnly [pTime0 + 3, pTime0 + 0x18, pTime0 + 0x19, pTime0 + 0x1A] s t) ∧
  (∀ s : State, s.flag pTime0 TIME_IN_CTL.ten_en = false → exec .tenMhzInEdge s = .next s) ∧
  (∀ s : State, s.flag pTime0 TIME_IN_CTL.ten_en = true → s.get (pTb 1) TIME_TB_CTL.src = 5 → s.get (pTb 2) TIME_TB_CTL.src < 5 →
    s.get (pTb 3) TIME_TB_CTL.src < 5 → (∀ u : State, u = { s with freeN := s.freeN + 1 }.tbMeasure 1 (nearestOffset (s.t64At 1 (Config.inputTap s.freeN % 32)) 6400) 1000000 →
      u.get (pTb 2) TIME_TB_CTL.src < 5 ∧ u.get (pTb 3) TIME_TB_CTL.src < 5) →
    exec .tenMhzInEdge s = .next ({ s with freeN := s.freeN + 1 }.tbMeasure 1 (nearestOffset (s.t64At 1 (Config.inputTap s.freeN % 32)) 6400) 1000000)) ∧
  (∀ t m : Nat, 0 < m → -(m : Int) < 2 * nearestOffset t m ∧ 2 * nearestOffset t m ≤ m ∧ ((t : Int) + nearestOffset t m) % m = 0) ∧
  (∀ (s : State) u t1 t2 t3 t4, u < 10 → ∃ t : State, exec (.linkDelayMeasure u t1 t2 t3 t4) s = .next t ∧
    Tab.rd t.time.linkHist u = (((t4 - s.getI (pTsu u) TIME_TSU_ING_ADJ.adj) - (t1 + s.getI (pTsu u) TIME_TSU_EGR_ADJ.adj) - (t3 - t2))
      :: Tab.rd s.time.linkHist u).take 16 ∧
    (Tab.rd s.time.linkHist u = [] → s.getI (pTsu u) TIME_TSU_ING_ADJ.adj = 0 → s.getI (pTsu u) TIME_TSU_EGR_ADJ.adj = 0 →
      ((t4 - t1) - (t3 - t2)) % 2 = 0 → t.get (pTsu u) TIME_TSU_LINK.m = unsint 36 (((t4 - t1) - (t3 - t2)) / 2)) ∧
    (∀ a, a ≠ pTsu u + 0x14 → t.regW a = s.regW a) ∧ t = { s with regs := t.regs, time := t.time }) ∧
  (∀ (s : State) u, s.takes (pTsu u + 0x18) → u < 12 → ∃ t : State, exec (.txqLoRead u) s = .next t ∧ t.rdata = s.regW (pTsu u + 0x18) ∧
    Tab.rd t.time.txq u = (Tab.rd s.time.txq u).tail ∧ t.get (pTsu u) TIME_TSU_STAT.level = (Tab.rd s.time.txq u).tail.length % 32 ∧
    t.get (pTsu u) TIME_TSU_TXQ_HI.sec = t72Hi ((Tab.rd s.time.txq u).tail.headD {}).t64 ∧
    t.get (pTsu u) TIME_TSU_TXQ_LO.frac = t72Lo ((Tab.rd s.time.txq u).tail.headD {}).t64 ∧
    (∀ a, a ∉ [pTsu u + 0x15, pTsu u + 0x16, pTsu u + 0x17, pTsu u + 0x18] → t.regW a = s.regW a))

/-- Arming and cancelling triggers, generation walks, and the reset of the Prism. An arm of an entry that is not armed and
has no reason of refusal arms it: armed and code 1, fires 0, the generation of its counter; a refused one clears arm
with code 6, the reason and event 2; an arm of an armed entry has no effect; a cancel of an armed entry disarms it
with code 4; no other word changes. While a walk runs or waits the writes of the table wait. A walk start takes the
first waiting request; at its end event 3 is recorded. A visited one-shot of the counter is cancelled with code 5, an
entry of another counter or not armed is left alone; a periodic one keeps its grid. PRISM_SRST returns every entry to
its reset words, empties the fabric and clears the events. Model choices: the lowest reason of several and the ignored
TRG_TL write (log entry 108), and what a walk does with a period of 0 (log entry 39). Rules: R97, R98, R99, R102,
R110, R111, R78. -/
def Obligations.TriggersAndWalks : Prop :=
  (∀ (s : State) n (v : Word), s.takes (pTrg n + 2) → n < 1024 → s.walking = true →
    exec (.trgArm n v) s = .next { s with prism := { s.prism with held := s.prism.held ++ [(n, 2, v ||| 0x800000000)] } } ∧
    exec (.trgCancel n v) s = .next { s with prism := { s.prism with held := s.prism.held ++ [(n, 2, v &&& 0x7FFFFFFFF)] } }) ∧
  (∀ (s : State) n (v : Word), s.takes (pTrg n + 2) → n < 1024 → s.walking = false → s.get (pTrg n) TRG_CTL.arm = 1 → exec (.trgArm n v) s = .next s) ∧
  (∀ (s : State) n (v : Word), s.takes (pTrg n + 2) →
    n < 1024 → s.walking = false → s.get (pTrg n) TRG_CTL.arm ≠ 1 → s.armReason n (v ||| 0x800000000).toNat = 0 →
    ∃ t : State, exec (.trgArm n v) s = .next t ∧ t.reg (pTrg n + 2) = (v ||| 0x800000000).toNat ∧ t.get (pTrg n) TRG_ST.armed = 1 ∧
      t.get (pTrg n) TRG_ST.code = 1 ∧ t.get (pTrg n) TRG_ST.fires = 0 ∧
      t.get (pTrg n) TRG_ST.gen = s.generation (fldGet v.toNat TRG_CTL.tb) % 256 ∧ n ∈ t.prism.armed ∧
      (∀ k, k ≠ n → (k ∈ t.prism.armed ↔ k ∈ s.prism.armed)) ∧ (∀ a, a ∉ [pTrg n + 2, pTrg n + 3] → t.regW a = s.regW a) ∧
      t = { s with regs := t.regs, prism := t.prism }) ∧
  (∀ (s : State) n (v : Word), s.takes (pTrg n + 2) →
    n < 1024 → s.walking = false → s.get (pTrg n) TRG_CTL.arm ≠ 1 → s.armReason n (v ||| 0x800000000).toNat ≠ 0 →
    ∃ u : State, exec (.trgArm n v) s = .next (u.ev pPrism0 2) ∧ u.get (pTrg n) TRG_CTL.arm = 0 ∧ u.get (pTrg n) TRG_ST.code = 6 ∧
      u.get pPrism0 PRISM_ARM_LAST.reason = s.armReason n (v ||| 0x800000000).toNat % 16 ∧ u.get pPrism0 PRISM_ARM_LAST.entry = n ∧ u.prism = s.prism) ∧
  (∀ (s : State) n (v : Word), s.takes (pTrg n + 2) → n < 1024 → s.walking = false → s.get (pTrg n) TRG_CTL.arm = 1 → ∃ t : State,
    exec (.trgCancel n v) s = .next t ∧ t.get (pTrg n) TRG_CTL.arm = 0 ∧ t.get (pTrg n) TRG_ST.armed = 0 ∧ t.get (pTrg n) TRG_ST.code = 4 ∧
      n ∉ t.prism.armed ∧ (∀ a, a ∉ [pTrg n + 2, pTrg n + 3] → t.regW a = s.regW a) ∧ t = { s with regs := t.regs, prism := t.prism }) ∧
  (∀ (s : State) c n, s.takes (pTrg n) → n < 1024 → c < 64 → ∃ t : State, exec (.trgThRead c n) s = .next t ∧ t.rdata = s.regW (pTrg n) ∧
    t.held? c 0 = some (pTrg n, [s.regW (pTrg n + 1)]) ∧ t.regs = s.regs) ∧
  (∀ s : State, s.prism.walk = none → exec .generationWalkEnd s = .next s) ∧
  (∀ s : State, s.prism.walk ≠ none → exec .generationWalkEnd s = .next ((s.walkOver.ev pPrism0 3).releaseTrg) ∧ s.walkOver.prism.walk = none) ∧
  (∀ (s : State) w r, s.prism.walk = none → s.prism.waiting = w :: r → ∃ t : State, exec .generationWalkStart s = .next t ∧
    t.prism.walk = some w ∧ t.prism.waiting = r ∧ t.prism.walkAt = s.now) ∧
  (∀ (s : State) b v n, s.get (pTrg n) TRG_CTL.arm = 1 → s.get (pTrg n) TRG_CTL.tb = b → s.get (pTrg n) TRG_CTL.per = 0 →
    (s.walkVisit b v n).get (pTrg n) TRG_CTL.arm = 0 ∧ (s.walkVisit b v n).get (pTrg n) TRG_ST.code = 5 ∧ n ∉ (s.walkVisit b v n).prism.armed) ∧
  (∀ (s : State) b v n, s.get (pTrg n) TRG_CTL.arm ≠ 1 ∨ s.get (pTrg n) TRG_CTL.tb ≠ b → s.walkVisit b v n = s) ∧
  (∀ t P lo, 0 < P → gridFrom t P lo % P = t % P ∧ lo ≤ gridFrom t P lo ∧ gridFrom t P lo < lo + P) ∧
  (∀ s : State, ∃ u : State, exec .prismSrst s = .next (replayTrg u s.prism.held) ∧
    u.prism = { acts := s.prism.acts.filter (fun x => x.act != 5) } ∧ pPrism0 ∈ u.srstBusy ∧
    (∀ p ∈ [pPrism0, pPrism1, pPrism2], u.get p PAGE_EV.ev = 0 ∧ u.get p PAGE_EVPEND.evpend = 0) ∧ (∀ n < 1024, ∀ k < 4, u.regW (pTrg n + k) = resetWord (pTrg n + k)) ∧
    u.reg (pPrism0 + 8) = s.reg (pPrism0 + 8) ∧ u.mem = s.mem)

/-- Firing triggers, past triggers, and the period words. A due trigger fires when fewer than 16 have fired on the edge
and none due comes before it: a one-shot with act 1 that is on time disarms with code 1 and lateness 0, counts one
fire, posts its argument and changes no other word; act 2 commits, 3 opens the windows of, and 4 latches exactly the
channels of the group named; act 7 captures all five counters. A past trigger with pol 1 expires with code 3 and event
4, with pol 0 fires late. While the page is not enabled nothing fires. A period of 0 or at least 6,400 is taken,
another only counts. Model choices: a past entry with pol 1 and a period of 0, and which entries count as due (log
entry 108). Rules: R100, R102, R103, R104, R105, R106, R107, R116. -/
def Obligations.TriggerFires : Prop :=
  (∀ (s : State) n, n < 1024 → s.isDue n = true → s.prism.firedNow.length < 16 → (s.prism.armed.any (fun k => s.isDue k && s.firesBefore k n)) = false →
    exec (.trgFire n) s = .next (s.noteDue.trgFireNow n (s.isPast n))) ∧
  (∀ (s : State) n, s.isDue n = false ∨ 16 ≤ s.prism.firedNow.length → exec (.trgFire n) s = .next s) ∧
  (∀ (s : State) n past, n < 1024 → s.flag (pTrg n) TRG_CTL.per = false → s.get (pTrg n) TRG_CTL.act = 1 → s.flag (pTrg n) TRG_CTL.apost = false →
    past = false → s.trgLate n = 0 → ∃ t : State, s.trgFireNow n past = t ∧ t.get (pTrg n) TRG_CTL.arm = 0 ∧ t.get (pTrg n) TRG_ST.armed = 0 ∧
      t.get (pTrg n) TRG_ST.code = 1 ∧ t.get (pTrg n) TRG_ST.lat = 0 ∧ t.get (pTrg n) TRG_ST.fires = (s.get (pTrg n) TRG_ST.fires + 1) % 256 ∧
      t.wire = s.wire ++ [{ cls := 0, src := n, task := s.get (pTrg n) TRG_CTL.arg % 512, tag := 1, at_ := s.now + 1 }] ∧
      (∀ a, a ∉ [pTrg n + 2, pTrg n + 3] → t.regW a = s.regW a)) ∧
  (∀ (s : State) n k arg b t lat, 2 ≤ k → k ≤ 4 →
    s.trgAction n k arg b t lat = s.launchAct { at_ := s.now + 2, act := k, arg := arg, entry := n }) ∧
  (∀ (s : State) (x : PrismAct),
    (x.act = 2 → s.doAct x = overAll ((List.range 96).filter (fun ch => s.get (pPwm ch) PWM_CFG.cgrp == x.arg)) s
      (fun ch u => u.setPw ch { u.pw ch with commitReq := true })) ∧
    (x.act = 3 → s.doAct x = overAll ((List.range 96).filter (fun ch => s.get (pPwm ch) PWM_CFG.sgrp == x.arg)) s (fun ch u => u.openWindow ch)) ∧
    (x.act = 4 → s.doAct x = overAll ((List.range 96).filter (fun ch => s.get (pFbk ch) FBK_CFG.lgrp == x.arg)) s
      (fun ch u => (u.fbkLatch ch true).profLatch ch))) ∧
  (∀ (s : State) x, s.prism.acts = [x] → s.dueActs = if x.at_ ≤ s.now then { s with prism := { s.prism with acts := [] } }.doAct x else s) ∧
  (∀ (s : State) n k b t lat, k < 4 → (∀ c < 5, (s.trgAction n 7 k b t lat).reg (pPrism1 + 0x50 + 16 * k + 3 * c) = t72Hi (s.t64 c) ∧
      (s.trgAction n 7 k b t lat).reg (pPrism1 + 0x50 + 16 * k + 3 * c + 1) = t72Lo (s.t64 c))) ∧
  (∀ (s : State) n, n < 1024 → s.flag pPrism0 PAGE_CTL.en = true → s.flag (pTrg n) TRG_CTL.arm = true → s.trgHeld (s.get (pTrg n) TRG_CTL.tb) = false →
    s.isPast n = true → s.flag (pTrg n) TRG_CTL.pol = true → s.flag (pTrg n) TRG_CTL.per = false →
    exec (.trgPast n) s = .next ((s.trgDisarm n 3).ev pPrism0 4) ∧ (s.trgDisarm n 3).get (pTrg n) TRG_ST.code = 3 ∧ n ∉ (s.trgDisarm n 3).prism.armed) ∧
  (∀ (s : State) n, n < 1024 → s.flag pPrism0 PAGE_CTL.en = true → s.flag (pTrg n) TRG_CTL.arm = true → s.trgHeld (s.get (pTrg n) TRG_CTL.tb) = false →
    s.isPast n = true → s.flag (pTrg n) TRG_CTL.pol = false → s.isDue n = true → s.prism.firedNow.length < 16 →
    (s.prism.armed.any (fun k => s.isDue k && s.firesBefore k n)) = false → exec (.trgPast n) s = .next (s.noteDue.trgFireNow n true)) ∧
  (∀ (s : State) n, s.flag pPrism0 PAGE_CTL.en = false → exec (.trgPast n) s = .next s ∧ exec (.trgFire n) s = .next s) ∧
  (∀ (s : State) k (v : Word), s.takes (pPrism1 + 0x10 + k) →
    k < 64 → v.toNat = 0 ∨ 6400 ≤ v.toNat → ∃ t : State, exec (.prismPerWrite k v) s = .next t ∧
    t.get pPrism1 (PRISM_PER.p k) = v.toNat ∧ RegsOnly [pPrism1 + (PRISM_PER.p k).off] s t) ∧
  (∀ (s : State) k (v : Word), s.takes (pPrism1 + 0x10 + k) →
    k < 64 → 0 < v.toNat → v.toNat < 6400 → exec (.prismPerWrite k v) s = .next (s.fc pPrism1))

/-- The TIO pins: pulse falls, captures, the capture queue, and the locked output enable. The pending fall of a pulse
lowers its pin at its time and no other pin changes. A capture on an enabled pin queues the value and status word of
its counter with the edge direction and records the pin's event; at a full queue it is discarded, counted and recorded
with event 16 + pin. The read of CLO removes the head record. An invalid configuration word only counts; a valid one
is taken, but oe keeps its value once outward locks are sealed. Model choice: en of PRISM page 2 gates nothing (log
entry 108). Rules: R113, R114, R117. -/
def Obligations.TioPins : Prop :=
  (∀ (s : State) pin f n, pin < 16 → (s.ti pin).fall = some (f, n) → f ≤ s.t64 0 + 159 → (s.ti pin).level = true →
    (∀ o, (s.ti pin).lastOut = some o → o + 320 ≤ f) → ∃ t : State, exec (.tioPulseFall pin) s = .next t ∧ (t.ti pin).level = false ∧
      (t.ti pin).fall = none ∧ (t.ti pin).lastOut = some f ∧ (∀ k, k ≠ pin → t.ti k = s.ti k) ∧ t = { s with prism := t.prism }) ∧
  (∀ (s : State) pin, (s.ti pin).fall = none → exec (.tioPulseFall pin) s = .next s) ∧
  (∀ (s : State) pin f n o, pin < 16 → (s.ti pin).fall = some (f, n) → f ≤ s.t64 0 + 159 → (s.ti pin).level = true →
    (s.ti pin).lastOut = some o → f < o + 320 →
    exec (.tioPulseFall pin) s = .next ((s.setTi pin { s.ti pin with fall := none }).prismRefuse n 4 5)) ∧
  (∀ (s : State) pin rising tap, pin < 16 → s.get pPrism2 (PRISM_TIO_CFG.cen pin) ≠ 0 → s.get pPrism2 (PRISM_TIO_CFG.cedge pin) = 2 →
    (s.ti pin).lastCap = none → (s.ti pin).q = [] → ∃ u : State, exec (.tioCapture pin ⟨rising, tap⟩) s = .next (u.ev pPrism2 pin) ∧
      (u.ti pin).q = [{ t64 := s.t64At (ctrOf (s.get pPrism2 (PRISM_TIO_CFG.ctb pin))) tap,
                        st := s.stampWord (ctrOf (s.get pPrism2 (PRISM_TIO_CFG.ctb pin))) 0, rise := rising }] ∧
      (u.ti pin).lastCap = some (s.t64At 0 tap) ∧ u.get pPrism2 (PRISM_TIO_CSTAT.level pin) = 1 ∧
      u.get pPrism2 (PRISM_TIO_CHI.sec pin) = t72Hi (s.t64At (ctrOf (s.get pPrism2 (PRISM_TIO_CFG.ctb pin))) tap)) ∧
  (∀ (s : State) pin rising tap, pin < 16 → s.get pPrism2 (PRISM_TIO_CFG.cen pin) ≠ 0 → s.get pPrism2 (PRISM_TIO_CFG.cedge pin) = 2 →
    8 ≤ (s.ti pin).q.length → exec (.tioCapture pin ⟨rising, tap⟩) s = .next ((s.inc pPrism2 (PRISM_TIO_CSTAT.ovf pin)).evC pPrism2 (16 + pin))) ∧
  (∀ (s : State) pin rising tap, s.get pPrism2 (PRISM_TIO_CFG.cen pin) = 0 → exec (.tioCapture pin ⟨rising, tap⟩) s = .next s) ∧
  (∀ (s : State) pin, s.takes (pPrism2 + 0x23 + 4 * pin) →
    pin < 16 → ∃ t : State, exec (.tioCloRead pin) s = .next t ∧ t.rdata = s.regW (pPrism2 + 0x23 + 4 * pin) ∧
    (t.ti pin).q = (s.ti pin).q.tail ∧ (t.ti pin).level = (s.ti pin).level ∧
    t.get pPrism2 (PRISM_TIO_CSTAT.level pin) = (s.ti pin).q.tail.length % 16) ∧
  (∀ (s : State) ini pin (v : Word), s.takes (pPrism2 + 0x10 + pin) →
    pin < 16 → fldGet v.toNat (PRISM_TIO_CFG.cedge pin) = 3 ∨ 4 < fldGet v.toNat (PRISM_TIO_CFG.ctb pin) ∨
    fldGet v.toNat (PRISM_TIO_CFG.pw pin) < 64 → exec (.tioCfgWrite ini pin v) s = .next (if s.olSealed = true ∧
      fldGet v.toNat (PRISM_TIO_CFG.oe pin) ≠ s.get pPrism2 (PRISM_TIO_CFG.oe pin) then (s.refuse pPrism2).fc pPrism2 else s.fc pPrism2)) ∧
  (∀ (s : State) ini pin (v : Word), s.takes (pPrism2 + 0x10 + pin) →
    pin < 16 → fldGet v.toNat (PRISM_TIO_CFG.cedge pin) ≠ 3 → fldGet v.toNat (PRISM_TIO_CFG.ctb pin) ≤ 4 →
    64 ≤ fldGet v.toNat (PRISM_TIO_CFG.pw pin) → s.olSealed = true → ∃ t : State, exec (.tioCfgWrite ini pin v) s = .next t ∧
      t.get pPrism2 (PRISM_TIO_CFG.oe pin) = s.get pPrism2 (PRISM_TIO_CFG.oe pin) ∧
      t.get pPrism2 (PRISM_TIO_CFG.pw pin) = fldGet v.toNat (PRISM_TIO_CFG.pw pin) ∧
      (∀ a, a ≠ pPrism2 + 0x10 + pin → a ≠ pPrism2 + 7 → t.regW a = s.regW a)) ∧
  (∀ (s : State) ini pin (v : Word), s.takes (pPrism2 + 0x10 + pin) →
    pin < 16 → fldGet v.toNat (PRISM_TIO_CFG.cedge pin) ≠ 3 → fldGet v.toNat (PRISM_TIO_CFG.ctb pin) ≤ 4 →
    64 ≤ fldGet v.toNat (PRISM_TIO_CFG.pw pin) → s.olSealed = false → ∃ t : State, exec (.tioCfgWrite ini pin v) s = .next t ∧
      t.get pPrism2 (PRISM_TIO_CFG.oe pin) = fldGet v.toNat (PRISM_TIO_CFG.oe pin) ∧ RegsOnly [pPrism2 + 0x10 + pin] s { t with prism := s.prism })

/-- PWM_CFG_WRITE and SHADOW_WRITE: what is taken, what is refused and with which event, and the envelope. PWM_CFG is
refused with event 7 while the carrier runs or for an invalid value; else every field takes its value, the safety-
locked kind and legen only while open, and the island changing the kind of a running channel stops the carrier with
event 14. A shadow write enters the shadow set with its flag and changes no other word; a period below 2,000 gives
event 7, a compare owned by the ALE event 6, a value outside the envelope event 4 with the order-4 block and the
notice to the island, the word keeping its value; a write on the edge of a transfer records event 2; with reload 4 the
shadow set transfers on the next edge. Rules: R118, R121, R125, R132, R133, R135, R137, R152, R10. -/
def Obligations.PwmConfigurationAndShadow : Prop :=
  (∀ (s : State) ini ch (v : Word), s.takes (pPwm ch + 0x10) → ch < 96 → ini ≠ iniIsland → s.carrierRuns ch = true →
    ∃ u : State, exec (.pwmCfgWrite ini ch v) s = .next (u.ev (pPwm ch) 7) ∧ RegsOnly [pPwm ch + 7] s u ∧ (s.slOpen ini = true → u = s)) ∧
  (∀ (s : State) ini ch (v : Word), s.takes (pPwm ch + 0x10) → ch < 96 → s.slOpen ini = true →
    (kindOk (fldGet v.toNat PWM_CFG.kind) (fldGet v.toNat PWM_CFG.legen) = false ∨ 2 ≤ fldGet v.toNat PWM_CFG.carrier ∨
      5 ≤ fldGet v.toNat PWM_CFG.reload) → exec (.pwmCfgWrite ini ch v) s = .next (s.ev (pPwm ch) 7)) ∧
  (∀ (s : State) ini ch (v : Word), s.takes (pPwm ch + 0x10) → ch < 96 → s.slOpen ini = true → s.carrierRuns ch = false →
    kindOk (fldGet v.toNat PWM_CFG.kind) (fldGet v.toNat PWM_CFG.legen) = true → fldGet v.toNat PWM_CFG.carrier < 2 →
    fldGet v.toNat PWM_CFG.reload < 5 → ∃ t : State, exec (.pwmCfgWrite ini ch v) s = .next t ∧
      (∀ f ∈ [PWM_CFG.kind, PWM_CFG.legen, PWM_CFG.carrier, PWM_CFG.reload, PWM_CFG.policy, PWM_CFG.track, PWM_CFG.cgrp, PWM_CFG.sgrp],
        t.get (pPwm ch) f = fldGet v.toNat f) ∧ RegsOnly [pPwm ch + 0x10] s t) ∧
  (∀ (s : State) ini ch (v : Word), s.takes (pPwm ch + 0x10) → ch < 96 → s.slOpen ini = false → s.carrierRuns ch = false →
    kindOk (s.get (pPwm ch) PWM_CFG.kind) (s.get (pPwm ch) PWM_CFG.legen) = true → fldGet v.toNat PWM_CFG.carrier < 2 →
    fldGet v.toNat PWM_CFG.reload < 5 → ∃ t : State, exec (.pwmCfgWrite ini ch v) s = .next t ∧
      t.get (pPwm ch) PWM_CFG.kind = s.get (pPwm ch) PWM_CFG.kind ∧ t.get (pPwm ch) PWM_CFG.legen = s.get (pPwm ch) PWM_CFG.legen ∧
      (∀ f ∈ [PWM_CFG.carrier, PWM_CFG.reload, PWM_CFG.policy, PWM_CFG.track, PWM_CFG.cgrp, PWM_CFG.sgrp],
        t.get (pPwm ch) f = fldGet v.toNat f) ∧ RegsOnly [pPwm ch + 7, pPwm ch + 0x10] s t) ∧
  (∀ (s : State) ch (v : Word), s.takes (pPwm ch + 0x10) → ch < 96 → s.carrierRuns ch = true →
    kindOk (fldGet v.toNat PWM_CFG.kind) (fldGet v.toNat PWM_CFG.legen) = true → fldGet v.toNat PWM_CFG.carrier < 2 →
    fldGet v.toNat PWM_CFG.reload < 5 → fldGet v.toNat PWM_CFG.kind ≠ s.get (pPwm ch) PWM_CFG.kind →
    ∃ u : State, exec (.pwmCfgWrite iniIsland ch v) s = .next (u.ev (pPwm ch) 14) ∧ u.carrierRuns ch = false ∧
      u.get (pPwm ch) PWM_CFG.kind = fldGet v.toNat PWM_CFG.kind ∧ (u.pw ch).edges = [] ∧ (u.pw ch).legs = []) ∧
  (∀ (s : State) ini ch (v : Word), s.takes (pPwm ch + 0x11) →
    ch < 96 → v.toNat % 2 ^ 20 < 2000 → exec (.shadowWrite ini ch 0x11 v) s = .next (s.ev (pPwm ch) 7)) ∧
  (∀ (s : State) ini ch (v : Word), s.takes (pPwm ch + 0x11) → ch < 96 → 2000 ≤ v.toNat % 2 ^ 20 → s.perOk ch (v.toNat % 2 ^ 20) = false →
    ∃ u : State, exec (.shadowWrite ini ch 0x11 v) s = .next (u.padCause ch) ∧ ch ∈ u.envBlk ∧ u.envNotify = s.envNotify ++ [ch] ∧
      u.blk4 ch = true ∧ (u.pw ch).padHold = true ∧ bitN (u.get (pPwm ch) PAGE_EV.ev) 4 = true ∧
      u.reg (pPwm ch + 0x11) = s.reg (pPwm ch + 0x11)) ∧
  (∀ (s : State) ini ch (v : Word), s.takes (pPwm ch + 0x11) →
    ch < 96 → 2000 ≤ v.toNat % 2 ^ 20 → s.perOk ch (v.toNat % 2 ^ 20) = true → (s.pw ch).xfer = false →
    s.get (pPwm ch) PWM_CFG.reload ≠ 4 → ∃ t : State, exec (.shadowWrite ini ch 0x11 v) s = .next t ∧
      t.get (pPwm ch) PWM_PER.per = v.toNat % 2 ^ 20 ∧ t.get (pPwm ch) PWM_SHSTAT.per_w = 1 ∧
      t.get (pPwm ch) PWM_SHSTAT.cmp_w = s.get (pPwm ch) PWM_SHSTAT.cmp_w ∧ RegsOnly [pPwm ch + 0x11, pPwm ch + 0x19] s t) ∧
  (∀ (s : State) ini ch k (v : Word), s.takes (pPwm ch + (0x14 + k)) → ch < 96 → k < 4 → s.get (pAle ch) PAGE_CTL.en = 1 → ini ≠ iniIsland →
    exec (.shadowWrite ini ch (0x14 + k) v) s = .next (s.ev (pPwm ch) 6)) ∧
  (∀ (s : State) ini ch k (v : Word), s.takes (pPwm ch + (0x14 + k)) →
    ch < 96 → k < 4 → (s.get (pAle ch) PAGE_CTL.en ≠ 1 ∨ ini = iniIsland) → s.legOn ch k = true →
    s.dutyOk ch (v.toNat % 2 ^ 25) = false → ∃ u : State, exec (.shadowWrite ini ch (0x14 + k) v) s = .next (u.padCause ch) ∧ ch ∈ u.envBlk ∧
      u.envNotify = s.envNotify ++ [ch] ∧ u.blk4 ch = true ∧ (u.pw ch).padHold = true ∧ bitN (u.get (pPwm ch) PAGE_EV.ev) 4 = true ∧
      u.reg (pPwm ch + 0x14 + k) = s.reg (pPwm ch + 0x14 + k)) ∧
  (∀ (s : State) ini ch k (v : Word), s.takes (pPwm ch + (0x14 + k)) → ch < 96 → k < 4 → (s.get (pAle ch) PAGE_CTL.en ≠ 1 ∨ ini = iniIsland) →
    (s.legOn ch k = false ∨ s.dutyOk ch (v.toNat % 2 ^ 25) = true) → (s.pw ch).xfer = false → s.get (pPwm ch) PWM_CFG.reload ≠ 4 →
    ∃ t : State, exec (.shadowWrite ini ch (0x14 + k) v) s = .next t ∧ t.get (pPwm ch) (PWM_CMP.m k) = v.toNat % 2 ^ 25 ∧
      t.get (pPwm ch) PWM_SHSTAT.per_w = s.get (pPwm ch) PWM_SHSTAT.per_w ∧
      (∀ j < 4, bitN (t.get (pPwm ch) PWM_SHSTAT.cmp_w) j = (bitN (s.get (pPwm ch) PWM_SHSTAT.cmp_w) j || j == k)) ∧
      RegsOnly [pPwm ch + 0x14 + k, pPwm ch + 0x19] s t) ∧
  (∀ (s : State) ini ch (v : Word), s.takes (pPwm ch + 0x11) →
    ch < 96 → 2000 ≤ v.toNat % 2 ^ 20 → s.perOk ch (v.toNat % 2 ^ 20) = true → (s.pw ch).xfer = true →
    s.get (pPwm ch) PWM_CFG.reload ≠ 4 → ∃ t : State, exec (.shadowWrite ini ch 0x11 v) s = .next t ∧
      t.get (pPwm ch) PWM_PER.per = v.toNat % 2 ^ 20 ∧ bitN (t.get (pPwm ch) PAGE_EV.ev) 2 = true) ∧
  (∀ (s : State) ini ch (v : Word), s.takes (pPwm ch + 0x11) →
    ch < 96 → 2000 ≤ v.toNat % 2 ^ 20 → s.perOk ch (v.toNat % 2 ^ 20) = true → (s.pw ch).xfer = false →
    s.get (pPwm ch) PWM_CFG.reload = 4 → ∃ t : State, exec (.shadowWrite ini ch 0x11 v) s = .next t ∧
      t.get (pPwm ch) PWM_PER.per = v.toNat % 2 ^ 20 ∧ t.get (pPwm ch) PWM_SHSTAT.per_w = 1 ∧ t.pw ch = { s.pw ch with go := true } ∧
      RegsOnly [pPwm ch + 0x11, pPwm ch + 0x19] { s with pwm := t.pwm } t)

/-- The carrier: start, stop, the period, the centre, and the transfers of the shadow set. PWM_COMMIT_START, STOP and GO
act on the next edge: a start and a stop of one edge cancel, a commit of a Prism group starts a standing carrier and
transfers with reload 0. A start is refused with event 8 for kind 0 or 3, a period below 2,000, a phase outside the
period or an uncalibrated line; else the carrier runs from PWM_PHASE with the whole shadow set active, trips clear,
and no edge before 40 ns, and with phase 0 wakes the ALE where wake is 1; it has no effect on a running carrier or a
disabled page. A stop takes effect at the next carrier start with event 14 and all gates off (the counter then reads
what lay beyond the period's end, log entry 44, the model's choice). A transfer in mid-period that changes the active
set recomputes the edges. A transfer copies exactly the written words, clears the flags, counts and records event 0;
the paired policy refuses it with event 1; two causes on one edge give one. A carrier start begins a period of 32 x
the active period, clears the trip, and wakes the ALE where wake is 1; the centre transfers with reload 2 or 3. Rules:
R120, R122, R123, R124, R126, R133, R134, R136, R139, R141, R157. -/
def Obligations.CarrierAndTransfers : Prop :=
  (∀ (s : State) ch, s.takes (pPwm ch + 0x18) → ch < 96 → exec (.pwmCommitStart ch) s = .next (s.setPw ch { s.pw ch with startReq := true })) ∧
  (∀ (s : State) ch, s.takes (pPwm ch + 0x18) → ch < 96 → exec (.pwmCommitStop ch) s = .next (s.setPw ch { s.pw ch with stopReq := true })) ∧
  (∀ (s : State) ch, s.takes (pPwm ch + 0x18) → ch < 96 → exec (.pwmCommitGo ch) s = .next (s.setPw ch { s.pw ch with go := true })) ∧
  (∀ (s : State) ch, s.clockOff (pPwm ch) = false → (s.pw ch).go = false → (s.pw ch).startReq = true → (s.pw ch).stopReq = false → (s.pw ch).commitReq = false →
    s.pwmEdge ch = (s.setPw ch { s.pw ch with go := false, startReq := false, stopReq := false, commitReq := false }).startStage ch) ∧
  (∀ (s : State) ch, s.clockOff (pPwm ch) = false → (s.pw ch).go = false → (s.pw ch).startReq = true → (s.pw ch).stopReq = true → (s.pw ch).commitReq = false →
    s.pwmEdge ch = s.setPw ch { s.pw ch with go := false, startReq := false, stopReq := false, commitReq := false }) ∧
  (∀ (s : State) ch, s.clockOff (pPwm ch) = false → (s.pw ch).go = false → (s.pw ch).startReq = false → (s.pw ch).stopReq = true → (s.pw ch).commitReq = false → s.carrierRuns ch = true →
    s.pwmEdge ch = s.setPw ch { s.pw ch with go := false, startReq := false, stopReq := false, commitReq := false, stop := true }) ∧
  (∀ (s : State) ch, s.clockOff (pPwm ch) = false → (s.pw ch).go = false → (s.pw ch).startReq = false → (s.pw ch).stopReq = true → (s.pw ch).commitReq = false → s.carrierRuns ch = false →
    s.pwmEdge ch = s.setPw ch { s.pw ch with go := false, startReq := false, stopReq := false, commitReq := false }) ∧
  (∀ (s : State) ch, s.clockOff (pPwm ch) = false → (s.pw ch).go = true → (s.pw ch).startReq = false → (s.pw ch).stopReq = false → (s.pw ch).commitReq = false →
    s.pwmEdge ch = (s.setPw ch { s.pw ch with go := false, startReq := false, stopReq := false, commitReq := false }).transferMid ch) ∧
  (∀ (s : State) ch, s.clockOff (pPwm ch) = false → (s.pw ch).go = false → (s.pw ch).startReq = false → (s.pw ch).stopReq = false → (s.pw ch).commitReq = true →
    s.flag (pPwm ch) PAGE_CTL.en = true → s.carrierRuns ch = true → s.flag (pPwm ch) PWM_CFG.track = false →
    s.pwmEdge ch = (if s.get (pPwm ch) PWM_CFG.reload = 0 then (s.setPw ch { s.pw ch with go := false, startReq := false, stopReq := false, commitReq := false }).transferMid ch
      else s.setPw ch { s.pw ch with go := false, startReq := false, stopReq := false, commitReq := false })) ∧
  (∀ (s : State) ch, s.get (pPwm ch) PAGE_CTL.en = 1 → s.carrierRuns ch = false →
    (s.get (pPwm ch) PWM_CFG.kind = 0 ∨ s.get (pPwm ch) PWM_CFG.kind = 3 ∨ s.get (pPwm ch) PWM_PER.per < 2000 ∨
      32 * s.get (pPwm ch) PWM_PER.per ≤ s.get (pPwm ch) PWM_PHASE.ph ∨ s.get (pPort (ch / 8)) PORT_DLCAL.locked = 0) →
    s.startStage ch = s.ev (pPwm ch) 8) ∧
  (∀ (s : State) ch, ch < 96 → s.get (pPwm ch) PAGE_CTL.en = 1 → s.carrierRuns ch = false →
    s.get (pPwm ch) PWM_CFG.kind ≠ 0 → s.get (pPwm ch) PWM_CFG.kind ≠ 3 → 2000 ≤ s.get (pPwm ch) PWM_PER.per →
    s.get (pPwm ch) PWM_PHASE.ph < 32 * s.get (pPwm ch) PWM_PER.per → s.get (pPort (ch / 8)) PORT_DLCAL.locked = 1 →
    ∃ t : State, s.startCarrier ch = t ∧ t.carrierRuns ch = true ∧ (t.pw ch).c = s.get (pPwm ch) PWM_PHASE.ph ∧
      (t.pw ch).len = 32 * s.get (pPwm ch) PWM_PER.per ∧
      (∀ k, (Tab.rd (t.pw ch).legs k : LegSt).hi = false ∧ (Tab.rd (t.pw ch).legs k : LegSt).lo = false) ∧
      (∀ e ∈ (t.pw ch).edges, (s.get (pPwm ch) PWM_PHASE.ph : Int) + 512 ≤ e.t) ∧
      t.get (pPwm ch) PWM_ACT_PER.per = s.get (pPwm ch) PWM_PER.per ∧
      (∀ k < 4, t.get (pPwm ch) (PWM_ACT_CMP.m k) = s.get (pPwm ch) (PWM_CMP.m k)) ∧ t.get (pPwm ch) PWM_SHSTAT.per_w = 0 ∧
      t.get (pPwm ch) PWM_SHSTAT.cmp_w = 0 ∧ t.get (pPwm ch) PWM_XFER.done = (s.get (pPwm ch) PWM_XFER.done + 1) % 2 ^ 16 ∧
      t.get (pPwm ch) PWM_BLK.trip = 0 ∧ (t.pw ch).xfer = true ∧ bitN (t.get (pPwm ch) PAGE_EV.ev) 0 = true) ∧
  (∀ (s : State) ch, s.carrierRuns ch = false → (s.startCarrier ch).carrierRuns ch = true → s.startStage ch
    = if s.get (pPwm ch) PWM_PHASE.ph = 0 ∧ s.get (pAle ch) ALE_CFG.wake = 1 then (s.startCarrier ch).aleWake ch s.now (s.t64 4)
      else s.startCarrier ch) ∧
  (∀ (s : State) ch, s.get (pPwm ch) PAGE_CTL.en = 0 ∨ s.carrierRuns ch = true → s.startStage ch = s) ∧
  (∀ (s : State) ch, s.carrierRuns ch = true → (s.transfer ch).activeSet ch = s.activeSet ch → s.transferMid ch = s.transfer ch) ∧
  (∀ (s : State) ch, s.carrierRuns ch = true → (s.transfer ch).activeSet ch ≠ s.activeSet ch →
    s.transferMid ch = (s.transfer ch).recompute ch) ∧
  (∀ (s : State) ch, (s.pw ch).xfer = true → s.transfer ch = s) ∧
  (∀ (s : State) ch k, (s.pw ch).xfer = false → s.get (pPwm ch) PWM_CFG.policy = 0 → s.get (pPwm ch) PWM_SHSTAT.per_w = 1 → k < 4 →
    s.legOn ch k = true → bitN (s.get (pPwm ch) PWM_SHSTAT.cmp_w) k = false → ∃ u : State, s.transfer ch = u.ev (pPwm ch) 1 ∧
      u.get (pPwm ch) PWM_XFER.refused = (s.get (pPwm ch) PWM_XFER.refused + 1) % 2 ^ 16 ∧
      (∀ a, a ≠ pPwm ch + 0x1F → u.regW a = s.regW a)) ∧
  (∀ (s : State) ch, (s.pw ch).xfer = false → (s.get (pPwm ch) PWM_CFG.policy ≠ 0 ∨ s.get (pPwm ch) PWM_SHSTAT.per_w = 0 ∨
      ∀ k < 4, s.legOn ch k = true → bitN (s.get (pPwm ch) PWM_SHSTAT.cmp_w) k = true) →
    ∃ u : State, s.transfer ch = u.ev (pPwm ch) 0 ∧ u.get (pPwm ch) PWM_SHSTAT.per_w = 0 ∧ u.get (pPwm ch) PWM_SHSTAT.cmp_w = 0 ∧
      u.get (pPwm ch) PWM_ACT_PER.per
        = (if s.get (pPwm ch) PWM_SHSTAT.per_w = 1 then s.get (pPwm ch) PWM_PER.per else s.get (pPwm ch) PWM_ACT_PER.per) ∧
      (∀ k < 4, u.get (pPwm ch) (PWM_ACT_CMP.m k)
        = (if bitN (s.get (pPwm ch) PWM_SHSTAT.cmp_w) k = true then s.get (pPwm ch) (PWM_CMP.m k) else s.get (pPwm ch) (PWM_ACT_CMP.m k))) ∧
      u.get (pPwm ch) PWM_XFER.done = (s.get (pPwm ch) PWM_XFER.done + 1) % 2 ^ 16) ∧
  (∀ (s : State) ch, s.carrierRuns ch = false ∨ (s.pw ch).c < (s.pw ch).fin → exec (.carrierStart ch) s = .next s) ∧
  (∀ (s : State) ch, ch < 96 → s.carrierRuns ch = true → (s.pw ch).stop = true →
    ∃ t : State, s.newPeriod ch = t ∧ t.carrierRuns ch = false ∧ (t.pw ch).edges = [] ∧ (t.pw ch).legs = [] ∧
      (t.pw ch).stop = false ∧ (t.pw ch).c = (s.pw ch).c - (s.pw ch).fin ∧ t.get (pPwm ch) PWM_BLK.trip = 0 ∧
      bitN (t.get (pPwm ch) PAGE_EV.ev) 14 = true) ∧
  (∀ (s : State) ch, ch < 96 → s.carrierRuns ch = true → (s.pw ch).fin ≤ (s.pw ch).c →
    s.get (pAle ch) ALE_CFG.wake ≠ 1 → exec (.carrierStart ch) s = .next (s.newPeriod ch)) ∧
  (∀ (s : State) ch, ch < 96 → s.carrierRuns ch = true → (s.pw ch).fin ≤ (s.pw ch).c →
    s.get (pAle ch) ALE_CFG.wake = 1 → exec (.carrierStart ch) s = .next ((s.newPeriod ch).aleWake ch s.now (s.t64 4))) ∧
  (∀ (s : State) ch, (s.pw ch).stop = false → (s.pw ch).trk = false → s.get (pPwm ch) PWM_CFG.reload ≠ 1 → s.get (pPwm ch) PWM_CFG.reload ≠ 3 →
    (s.pw ch).tripSince = none → ∃ t : State, s.newPeriod ch = t ∧ (t.pw ch).c = (s.pw ch).c - (s.pw ch).fin ∧ (t.pw ch).centred = false ∧
      (t.pw ch).len = 32 * s.get (pPwm ch) PWM_ACT_PER.per ∧ (t.pw ch).fin = 32 * s.get (pPwm ch) PWM_ACT_PER.per ∧
      (t.pw ch).padHold = s.padBlocked ch ∧ t.get (pPwm ch) PWM_BLK.trip = 0 ∧ RegsOnly [pPwm ch + 2] { s with pwm := t.pwm } t) ∧
  (∀ (s : State) ch, s.carrierRuns ch = false ∨ (s.pw ch).centred = true ∨ (s.pw ch).c < (s.pw ch).len / 2 →
    exec (.carrierCentre ch) s = .next s) ∧
  (∀ (s : State) ch, ch < 96 → s.carrierRuns ch = true → (s.pw ch).centred = false → (s.pw ch).len / 2 ≤ (s.pw ch).c →
    s.get (pPwm ch) PWM_CFG.reload ≠ 2 → s.get (pPwm ch) PWM_CFG.reload ≠ 3 →
    exec (.carrierCentre ch) s = .next (s.setPw ch { s.pw ch with centred := true })) ∧
  (∀ (s : State) ch, ch < 96 → s.carrierRuns ch = true → (s.pw ch).centred = false → (s.pw ch).len / 2 ≤ (s.pw ch).c →
    s.get (pPwm ch) PWM_CFG.reload = 2 ∨ s.get (pPwm ch) PWM_CFG.reload = 3 →
    exec (.carrierCentre ch) s = .next ((s.setPw ch { s.pw ch with centred := true }).transferMid ch))

/-- GATE_EDGE, TRIP_QUALIFIED, DLCAL_MEASURE, PORT_MCLK_WRITE and MCLK_STOP. The earliest scheduled edge whose cycle has
come switches its side of its leg and nothing else; a turn-off stands at its ideal edge and a turn-on the dead time
after it, dropped where the interval ends first or falls short of minp. Each side turns on at most once in a period.
While the line is not calibrated an edge is launched at tap 0 of its cycle; else it takes round(tap x code / 32) raw
elements. A gate is on at the pads only with no pad block, the carrier running and no trip; the pairs of leg 0 of a
step/direction channel follow the generator. A trip sampled active on filt edges outside blanking sets trip and
records event 3 once in the period. The delay line locks on a count within 40 to 120 and within 4 of the last, loses
lock with event 5 and regains it with event 15 on the eight channels of the port. PORT_MCLK refuses div outside 16 to
40 and changes while en is 1, with a count; en starts MCLK, or lets it stop at the end of its period. Model choices:
the first lock of the delay line and the rounding of the tap map (log entry 110). Rules: R127, R128, R129, R130, R131,
R138, R139, R140, R142. -/
def Obligations.GatesTripsAndPorts : Prop :=
  (∀ (s : State) ch, s.carrierRuns ch = false ∨ (s.pw ch).edges = [] → exec (.gateEdge ch) s = .next s) ∧
  (∀ (s : State) ch, (∀ e ∈ (s.pw ch).edges, ((s.pw ch).c : Int) + 32 ≤ e.t) → exec (.gateEdge ch) s = .next s) ∧
  (∀ (s : State) ch e l, ch < 96 → s.carrierRuns ch = true → (s.pw ch).edges = e :: l → (∀ f ∈ l, e.t ≤ f.t) → e.t < ((s.pw ch).c : Int) + 32 →
    (Tab.rd (s.pw ch).legs e.leg : LegSt).second e = false → ∃ t : State, exec (.gateEdge ch) s = .next t ∧ (t.pw ch).edges = l ∧
      (Tab.rd (t.pw ch).legs e.leg : LegSt) = (Tab.rd (s.pw ch).legs e.leg : LegSt).after
        (if s.get (pPort (ch / 8)) PORT_DLCAL.locked = 1 then e else { e with t := e.t / 32 * 32 }) ∧
      (t.pw ch).raw = (if s.get (pPort (ch / 8)) PORT_DLCAL.locked = 1 then ((e.t % 32).toNat * e.code + 16) / 32 else 0) ∧
      (∀ k, k ≠ e.leg → (Tab.rd (t.pw ch).legs k : LegSt) = Tab.rd (s.pw ch).legs k) ∧ t = { s with pwm := t.pwm }) ∧
  (∀ (s : State) ch e l, ch < 96 → s.carrierRuns ch = true → (s.pw ch).edges = e :: l → (∀ f ∈ l, e.t ≤ f.t) → e.t < ((s.pw ch).c : Int) + 32 →
    (Tab.rd (s.pw ch).legs e.leg : LegSt).second e = true → exec (.gateEdge ch) s = .next (s.setPw ch { s.pw ch with edges := l })) ∧
  (∀ (l : LegSt) (e : GateEdge), l.second e = true ↔ e.on = true ∧ (if e.hi then l.cntHi = true else l.cntLo = true)) ∧
  (∀ (l : LegSt) (e : GateEdge), (l.after e).hi = (if e.hi then e.on else l.hi) ∧ (l.after e).lo = (if e.hi then l.lo else e.on)) ∧
  (∀ (leg : Nat) (l : List (Int × Bool)) (d minp : Nat) (t : Int) (rise : Bool), ∀ e ∈ edgePair leg l d minp (t, rise),
    e.leg = leg ∧ (e.on = false → e.t = t ∧ e.hi = !rise) ∧
      (e.on = true → e.t = t + d ∧ e.hi = rise ∧ ∀ u, nextEdge l (t + 1) (!rise) = some u → t + d < u ∧ (minp : Int) ≤ u - (t + d))) ∧
  (∀ (L : Int) (hi lo sd : Bool) (l : List GateEdge),
    ((onceEach L hi lo l).filter (fun e => e.on && decide (e.t < L) && (e.hi == sd))).length ≤ 1) ∧
  (∀ (s : State) ch leg hi, s.get (pPwm ch) PWM_CFG.kind ≠ 3 → (s.gateOut ch leg hi = true ↔ s.padBlocked ch = false ∧ (s.pw ch).padHold = false ∧
    s.carrierRuns ch = true ∧ s.get (pPwm ch) PWM_CFG.kind ≠ 0 ∧ s.get (pPwm ch) PWM_BLK.trip = 0 ∧
    (if hi then (Tab.rd (s.pw ch).legs leg : LegSt).hi else (Tab.rd (s.pw ch).legs leg : LegSt).lo) = true)) ∧
  (∀ (s : State) ch leg hi, s.get (pPwm ch) PWM_CFG.kind = 3 → (s.gateOut ch leg hi = true ↔ s.padBlocked ch = false ∧ (s.pw ch).padHold = false ∧
    leg = 0 ∧ s.flag (pProf ch) PAGE_CTL.en = true ∧
    (if hi then (s.pr ch).stepHigh = true else (s.pr ch).dirPos ≠ s.flag (pProf ch) PROF_STEP.dinv))) ∧
  (∀ (s : State) ch n, s.clockOff (pPwm ch) = false → ch < 96 → s.get (pPwm ch) PWM_TRIP.en = 1 → s.carrierRuns ch = true → s.padBlocked ch = false →
    s.get (pPwm ch) PWM_BLK.trip = 0 → (s.pw ch).outAt = none → s.get (pPwm ch) PWM_TRIP.filt ≤ max n 1 → s.get (pPwm ch) PWM_TRIP.filt ≤ s.now + 1 →
    ∃ u : State, u = (s.setPw ch { s.pw ch with tripSince := some (s.now + 1 - max n 1) }).put (pPwm ch) PWM_BLK.trip 1 ∧
      exec (.tripQualified ⟨ch, true, n⟩) s = .next (u.evC (pPwm ch) 3) ∧ (s.get (pPwm ch) PWM_CFG.kind ≠ 3 → ∀ leg hi, u.gateOut ch leg hi = false)) ∧
  (∀ (s : State) ch n, s.clockOff (pPwm ch) = false →
    ch < 96 → s.get (pPwm ch) PWM_TRIP.en = 0 ∨ s.carrierRuns ch = false ∨ s.padBlocked ch = true ∨ s.get (pPwm ch) PWM_BLK.trip = 1 →
    exec (.tripQualified ⟨ch, true, n⟩) s = .next (s.setPw ch { s.pw ch with tripSince := some (s.now + 1 - max n 1) })) ∧
  (∀ (s : State) ch n, s.clockOff (pPwm ch) = false →
    ch < 96 → max n 1 < s.get (pPwm ch) PWM_TRIP.filt → max n 1 ≤ s.now + 1 → exec (.tripQualified ⟨ch, true, n⟩) s = .next (s.setPw ch { s.pw ch with tripSince := some (s.now + 1 - max n 1) })) ∧
  (∀ (s : State) ch n o, s.clockOff (pPwm ch) = false →
    ch < 96 → (s.pw ch).outAt = some o → s.now + 1 < o + s.get (pPwm ch) PWM_TRIP.blank + s.get (pPwm ch) PWM_TRIP.filt →
    exec (.tripQualified ⟨ch, true, n⟩) s = .next (s.setPw ch { s.pw ch with tripSince := some (s.now + 1 - max n 1) })) ∧
  (∀ (s : State) ch n, s.clockOff (pPwm ch) = false →
    ch < 96 → exec (.tripQualified ⟨ch, false, n⟩) s = .next (s.setPw ch { s.pw ch with tripSince := none })) ∧
  (∀ (s : State) port count, s.clockOff (pPort port) = false → port < 12 → s.get (pPort port) PORT_DLCAL.locked = 1 → (count < 40 ∨ 120 < count) →
    ∃ u : State, exec (.dlcalMeasure port count) s = .next (overAll (List.range 8) u (fun i w => w.evC (pPwm (8 * port + i)) 5)) ∧
      u.get (pPort port) PORT_DLCAL.locked = 0 ∧ u.get (pPort port) PORT_DLCAL.code = min 0xFFFF count ∧
      (u.po port).prev = some (min 0xFFFF count) ∧ (∀ a, a ≠ pPort port + 0x11 → u.regW a = s.regW a)) ∧
  (∀ (s : State) port count, s.clockOff (pPort port) = false → port < 12 → 40 ≤ count → count ≤ 120 →
    (∀ q, (s.po port).prev = some q → count ≤ q + 4 ∧ q ≤ count + 4) → s.get (pPort port) PORT_DLCAL.locked = 1 →
    ∃ t : State, exec (.dlcalMeasure port count) s = .next t ∧ t.get (pPort port) PORT_DLCAL.locked = 1 ∧
      t.get (pPort port) PORT_DLCAL.code = count ∧ (t.po port).prev = some count ∧ (∀ a, a ≠ pPort port + 0x11 → t.regW a = s.regW a)) ∧
  (∀ (s : State) port count, s.clockOff (pPort port) = false → port < 12 → 40 ≤ count → count ≤ 120 →
    (∀ q, (s.po port).prev = some q → count ≤ q + 4 ∧ q ≤ count + 4) → s.get (pPort port) PORT_DLCAL.locked = 0 → (s.po port).ever = false →
    ∃ t : State, exec (.dlcalMeasure port count) s = .next t ∧ t.get (pPort port) PORT_DLCAL.locked = 1 ∧
      t.get (pPort port) PORT_DLCAL.code = count ∧ (t.po port).ever = true ∧ (∀ a, a ≠ pPort port + 0x11 → t.regW a = s.regW a)) ∧
  (∀ (s : State) port count, s.clockOff (pPort port) = false → port < 12 → 40 ≤ count → count ≤ 120 →
    (∀ q, (s.po port).prev = some q → count ≤ q + 4 ∧ q ≤ count + 4) → s.get (pPort port) PORT_DLCAL.locked = 0 → (s.po port).ever = true →
    ∃ u : State, exec (.dlcalMeasure port count) s = .next (overAll (List.range 8) u (fun i w => w.ev (pPwm (8 * port + i)) 15)) ∧
      u.get (pPort port) PORT_DLCAL.locked = 1 ∧ u.get (pPort port) PORT_DLCAL.code = count) ∧
  (∀ (s : State) port (v : Word), s.takes (pPort port + 0x10) → port < 12 → (s.get (pPort port) PORT_MCLK.en = 1 ∧
      ¬ (fldGet v.toNat PORT_MCLK.div = s.get (pPort port) PORT_MCLK.div ∧ fldGet v.toNat PORT_MCLK.dly = s.get (pPort port) PORT_MCLK.dly ∧
        fldGet v.toNat PORT_MCLK.align = s.get (pPort port) PORT_MCLK.align) ∨
      fldGet v.toNat PORT_MCLK.div < 16 ∨ 40 < fldGet v.toNat PORT_MCLK.div) → exec (.portMclkWrite port v) s = .next (s.evC (pPort port) 1)) ∧
  (∀ (s : State) port (v : Word), s.takes (pPort port + 0x10) → port < 12 → s.get (pPort port) PORT_MCLK.en = 0 → 16 ≤ fldGet v.toNat PORT_MCLK.div →
    fldGet v.toNat PORT_MCLK.div ≤ 40 → s.get (pPort port) PORT_MCLK.run = 0 → ∃ t : State, exec (.portMclkWrite port v) s = .next t ∧
      (∀ f ∈ [PORT_MCLK.en, PORT_MCLK.align, PORT_MCLK.div, PORT_MCLK.dly], t.get (pPort port) f = fldGet v.toNat f) ∧
      (fldGet v.toNat PORT_MCLK.en = 1 ∧ fldGet v.toNat PORT_MCLK.align = 0 →
        t.get (pPort port) PORT_MCLK.run = 1 ∧ (t.po port).mclk = some (s.now + 1)) ∧
      (fldGet v.toNat PORT_MCLK.en = 0 ∨ fldGet v.toNat PORT_MCLK.align = 1 → t.get (pPort port) PORT_MCLK.run = 0 ∧ t.port = s.port) ∧
      (∀ a, a ≠ pPort port + 0x10 → t.regW a = s.regW a) ∧ t = { s with regs := t.regs, port := t.port }) ∧
  (∀ (s : State) port (v : Word), s.takes (pPort port + 0x10) →
    port < 12 → s.get (pPort port) PORT_MCLK.en = 1 → s.get (pPort port) PORT_MCLK.run = 1 →
    fldGet v.toNat PORT_MCLK.en = 0 → fldGet v.toNat PORT_MCLK.div = s.get (pPort port) PORT_MCLK.div →
    fldGet v.toNat PORT_MCLK.dly = s.get (pPort port) PORT_MCLK.dly → fldGet v.toNat PORT_MCLK.align = s.get (pPort port) PORT_MCLK.align →
    16 ≤ fldGet v.toNat PORT_MCLK.div → fldGet v.toNat PORT_MCLK.div ≤ 40 → ∃ t : State, exec (.portMclkWrite port v) s = .next t ∧
      t.get (pPort port) PORT_MCLK.en = 0 ∧ t.get (pPort port) PORT_MCLK.run = 1 ∧ (t.po port).stopping = true ∧
      (t.po port).mclk = (s.po port).mclk ∧ (∀ a, a ≠ pPort port + 0x10 → t.regW a = s.regW a)) ∧
  (∀ (s : State) port, (s.po port).stopping = false ∨ s.get (pPort port) PORT_MCLK.run = 0 ∨ s.mclkEnds port = false → exec (.mclkStop port) s = .next s) ∧
  (∀ (s : State) port b, (s.po port).mclk = some b → (s.mclkEnds port = true ↔ b < s.now ∧ (s.now - b) % (s.po port).div = 0)) ∧
  (∀ (s : State) port, s.clockOff (pPort port) = false →
    port < 12 → (s.po port).stopping = true → s.get (pPort port) PORT_MCLK.run = 1 → s.get (pPort port) PORT_MCLK.en = 0 → s.mclkEnds port = true →
    (∀ i < 8, (s.pw (8 * port + i)).win = none) → ∃ t : State, exec (.mclkStop port) s = .next t ∧ t.get (pPort port) PORT_MCLK.run = 0 ∧
      (t.po port).mclk = none ∧ (t.po port).stopping = false ∧ (∀ a, a ≠ pPort port + 0x10 → t.regW a = s.regW a) ∧
      (∀ ch, t.pw ch = if ch / 8 = port then { s.pw ch with contN := 0 } else s.pw ch) ∧
      t = { s with regs := t.regs, port := t.port, pwm := t.pwm })

/-- The sigma-delta inputs: windows, continuous results, SD_CFG_WRITE, and the values the sinc3 decimator gives. An open
window closes on the capture edge of its last bit, k x osr samples of MCLK from the first instant at or after its
opening, not before; it writes (gain x (mean - offset)) rounded and saturated into each enabled result, steps seq,
sets valid only on a warm MCLK with no stuck input, records event 10 and wakes the ALE; a saturation records event 13,
a run of 64 equal bits event 12. A steady bitstream of ones has mean 1 and one of zeros mean -1. Continuous mode gives
a result every osr samples over the last 3 x osr of them, valid only where MCLK had run 256 periods at the first of
them. SD_CFG refuses mode 3, osr outside 32 to 256 and k below 3 with event 7, and else takes its fields. A Prism open
on a channel not in mode 1 or with a window open is ignored with event 11. A window lost with MCLK gives an invalid
result. Rules: R143, R144, R145, R146, R147, R148, R155. -/
def Obligations.SigmaDelta : Prop :=
  (∀ (s : State) ch b0 b1 b2, (s.pw ch).win = none → exec (.sdWindowClose ch b0 b1 b2) s = .next s) ∧
  (∀ (s : State) ch b0 b1 b2 w, s.clockOff (pPwm ch) = false →
    ch < 96 → (s.pw ch).win = some w → (∀ i < 3, bitN w.inen i = true → ([b0, b1, b2].getD i []).length = w.k * w.osr) →
    s.windowCloses ch w ≤ s.now → ∃ u : State, exec (.sdWindowClose ch b0 b1 b2) s = .next ((u.ev (pPwm ch) 10).aleResult ch w.inen true s.now (s.kernelCentre ch w)) ∧
      u = (s.setPw ch { s.pw ch with win := none }).sdResults ch w.osr w.k w.inen w.warm [b0, b1, b2] ∧ (u.pw ch).win = none) ∧
  (∀ (s : State) ch b0 b1 b2 w i, (s.pw ch).win = some w → i < 3 → bitN w.inen i = true → ([b0, b1, b2].getD i []).length ≠ w.k * w.osr →
    exec (.sdWindowClose ch b0 b1 b2) s = .next s) ∧
  (∀ (s : State) ch b0 b1 b2 w, (s.pw ch).win = some w → s.now < s.windowCloses ch w → exec (.sdWindowClose ch b0 b1 b2) s = .next s) ∧
  (∀ (s : State) ch w, s.windowCloses ch w = w.first + (w.k * w.osr - 1) * (s.po (ch / 8)).div + (s.po (ch / 8)).dly) ∧
  (∀ (s : State) ch osr k inen warm bits i, ch < 96 → i < 3 → bitN inen i = true → (s.sdResults ch osr k inen warm bits).getI (pPwm ch) (PWM_SD_RES.i i)
    = clampI (-(2 ^ 35)) (2 ^ 35 - 1) (s.sdValue ch i (sincMean osr k (bits.getD i [])))) ∧
  (∀ (s : State) ch osr k inen warm bits, ch < 96 → ∃ u : State, ∃ sat stuck : Bool,
    s.sdResults ch osr k inen warm bits = (if stuck = true then (if sat = true then u.ev (pPwm ch) 13 else u).evC (pPwm ch) 12
      else if sat = true then u.ev (pPwm ch) 13 else u) ∧
    (sat = true ↔ u.get (pPwm ch) PWM_SD_STAT.sat ≠ 0) ∧ (stuck = true ↔ u.get (pPwm ch) PWM_SD_STAT.stuck ≠ 0) ∧
    u.get (pPwm ch) PWM_SD_STAT.seq = (s.get (pPwm ch) PWM_SD_STAT.seq + 1) % 2 ^ 16 ∧
    (∀ i < 3, bitN (u.get (pPwm ch) PWM_SD_STAT.stuck) i = (bitN inen i && stuckRun (bits.getD i []) none 0)) ∧
    (∀ i < 3, bitN (u.get (pPwm ch) PWM_SD_STAT.sat) i = (bitN inen i && outS36 (s.sdValue ch i (sincMean osr k (bits.getD i []))))) ∧
    (u.flag (pPwm ch) PWM_SD_STAT.valid = true ↔ warm = true ∧ u.get (pPwm ch) PWM_SD_STAT.stuck = 0) ∧
    (∀ a, a ∉ [pPwm ch + 0x30, pPwm ch + 0x31, pPwm ch + 0x32, pPwm ch + 0x33] → u.regW a = s.regW a)) ∧
  (∀ osr k, 0 < osr → 3 ≤ k → sincMean osr k (List.replicate (k * osr) true) = 1 ∧ sincMean osr k (List.replicate (k * osr) false) = -1) ∧
  (∀ (l : List Bool) (b : Bool) (n : Nat), 64 ≤ n → stuckRun (l ++ List.replicate n b) none 0 = true) ∧
  (∀ (s : State) ch b0 b1 b2, s.get (pPwm ch) PAGE_CTL.en = 0 ∨ s.get (pPwm ch) PWM_SD_CFG.mode ≠ 2 → exec (.sdContinuousResult ch b0 b1 b2) s = .next s) ∧
  (∀ (s : State) ch b0 b1 b2, s.clockOff (pPwm ch) = false → ch < 96 → s.get (pPwm ch) PAGE_CTL.en = 1 → s.get (pPwm ch) PWM_SD_CFG.mode = 2 →
    (s.po (ch / 8)).mclk ≠ none → ((s.pw ch).contN + 3) * s.get (pPwm ch) PWM_SD_CFG.osr ≤ s.contSamples ch →
    (∀ i < 3, bitN (s.get (pPwm ch) PWM_SD_CFG.inen) i = true → ([b0, b1, b2].getD i []).length = 3 * s.get (pPwm ch) PWM_SD_CFG.osr) →
    exec (.sdContinuousResult ch b0 b1 b2) s = .next (((s.setPw ch { s.pw ch with contN := (s.pw ch).contN + 1 }).sdResults ch
      (s.get (pPwm ch) PWM_SD_CFG.osr) 3 (s.get (pPwm ch) PWM_SD_CFG.inen)
      (decide (256 ≤ s.contFirst ch + (s.pw ch).contN * s.get (pPwm ch) PWM_SD_CFG.osr)) [b0, b1, b2]).aleResult ch
        (s.get (pPwm ch) PWM_SD_CFG.inen) false s.now 0)) ∧
  (∀ (s : State) ch b0 b1 b2, s.contSamples ch < ((s.pw ch).contN + 3) * s.get (pPwm ch) PWM_SD_CFG.osr ∨ (s.po (ch / 8)).mclk = none →
    exec (.sdContinuousResult ch b0 b1 b2) s = .next s) ∧
  (∀ (s : State) ch (v : Word), s.takes (pPwm ch + 0x28) → ch < 96 → (fldGet v.toNat PWM_SD_CFG.mode = 3 ∨ fldGet v.toNat PWM_SD_CFG.osr < 32 ∨
    256 < fldGet v.toNat PWM_SD_CFG.osr ∨ fldGet v.toNat PWM_SD_CFG.k < 3) → exec (.sdCfgWrite ch v) s = .next (s.ev (pPwm ch) 7)) ∧
  (∀ (s : State) ch (v : Word), s.takes (pPwm ch + 0x28) → ch < 96 → fldGet v.toNat PWM_SD_CFG.mode ≠ 3 → 32 ≤ fldGet v.toNat PWM_SD_CFG.osr →
    fldGet v.toNat PWM_SD_CFG.osr ≤ 256 → 3 ≤ fldGet v.toNat PWM_SD_CFG.k → ∃ t : State, exec (.sdCfgWrite ch v) s = .next t ∧
      (∀ f ∈ [PWM_SD_CFG.mode, PWM_SD_CFG.osr, PWM_SD_CFG.k, PWM_SD_CFG.inen], t.get (pPwm ch) f = fldGet v.toNat f) ∧
      ((t.pw ch).cont = some s.now ↔ fldGet v.toNat PWM_SD_CFG.mode = 2) ∧ (t.pw ch).contN = 0 ∧ (t.pw ch).win = (s.pw ch).win ∧
      (∀ a, a ≠ pPwm ch + 0x28 → t.regW a = s.regW a) ∧ t = { s with regs := t.regs, pwm := t.pwm }) ∧
  (∀ (s : State) ch, s.get (pPwm ch) PAGE_CTL.en = 1 → (s.get (pPwm ch) PWM_SD_CFG.mode ≠ 1 ∨ (s.pw ch).win ≠ none) →
    s.openWindow ch = s.ev (pPwm ch) 11) ∧
  (∀ (s : State) ch, s.get (pPwm ch) PAGE_CTL.en = 1 → s.get (pPwm ch) PWM_SD_CFG.mode = 1 → (s.pw ch).win = none →
    s.get (pPort (ch / 8)) PORT_MCLK.run = 1 → s.openWindow ch = s.setPw ch { s.pw ch with
      win := some { k := s.get (pPwm ch) PWM_SD_CFG.k,
                    osr := s.get (pPwm ch) PWM_SD_CFG.osr, inen := s.get (pPwm ch) PWM_SD_CFG.inen,
                    warm := decide (256 ≤ s.mclkPeriods (ch / 8)),
                    first := s.instantFrom (ch / 8) s.now } }) ∧
  (∀ (s : State) q t b, (s.po q).mclk = some b → 0 < (s.po q).div → t ≤ s.instantFrom q t ∧ b ≤ s.instantFrom q t ∧
    (s.instantFrom q t - b) % (s.po q).div = 0 ∧ (b < t → s.instantFrom q t < t + (s.po q).div)) ∧
  (∀ (s : State) ch w, (s.pw ch).win = some w → ∃ u : State, s.loseWindow ch
      = (u.ev (pPwm ch) 10).aleResult ch w.inen true s.now (s.kernelCentre ch w) ∧ (u.pw ch).win = none ∧
      u.get (pPwm ch) PWM_SD_STAT.valid = 0 ∧ u.get (pPwm ch) PWM_SD_STAT.seq = (s.get (pPwm ch) PWM_SD_STAT.seq + 1) % 2 ^ 16)

/-- The axis loop engine: wakes, computations, references, limits, and its configuration. An idle pipeline starts its
earliest waiting channel, the lower of two equal ones, and a busy or idle one with none waiting does nothing. A
computation ends with its latency, seq and event 0. Mode 0, an unsuitable mode (event 8) or an unusable angle or DC
link (event 11) give half-period compares; mode 1 drives the current loop with its d voltage within the limit, an
invalid result scales the last compares to the present period; mode 3 is the voltage mode; mode 2 takes the path that
force names. Compares are clamped into the duty envelope. A wake takes a committed pair with its sequence numbers; a
commit takes the pending pair. ALE_CFG takes a valid word whole and refuses another with event 7. Model choices: what
the words show that a computation leaves, and which neighbour a word shows (log entries 47 and 8). Rules: R157, R158,
R159, R160, R161, R164, R167, R169, R173, R180, R181, R189. -/
def Obligations.AxisLoopEngine : Prop :=
  (∀ (s : State) k, (s.pipeRuns k).isSome = true → exec (.aleComputation k) s = .next s) ∧
  (∀ (s : State) k, (∀ i < 4, (s.al (4 * k + i)).wake = none ∨ s.clockOff (pAle (4 * k + i)) = true) → exec (.aleComputation k) s = .next s) ∧
  (∀ (s : State) k i x, k < 24 → i < 4 → s.pipeRuns k = none → (s.al (4 * k + i)).wake = some x → (∀ j < 4, s.clockOff (pAle (4 * k + j)) = false) →
    (∀ j < 4, j ≠ i → ∀ y, (s.al (4 * k + j)).wake = some y → x.at_ < y.at_ ∨ x.at_ = y.at_ ∧ i < j) →
    ∃ t : State, exec (.aleComputation k) s = .next t ∧ t.pipeRuns k = some (4 * k + i) ∧ (t.al (4 * k + i)).wake = none ∧
      (t.al (4 * k + i)).run = some x ∧ (∀ c, c ≠ 4 * k + i → t.al c = s.al c) ∧ (∀ j, j ≠ k → t.pipeRuns j = s.pipeRuns j) ∧
      t = { s with ale := t.ale, pipe := t.pipe }) ∧
  (∀ (s : State) k, s.pipeRuns k = none → exec (.aleComputationDone k) s = .next s) ∧
  (∀ (s : State) k ch, s.pipeRuns k = some ch → s.clockOff (pAle ch) = true → exec (.aleComputationDone k) s = .next s) ∧
  (∀ (s : State) k ch, k < 24 → s.pipeRuns k = some ch → s.clockOff (pAle ch) = false → (s.al ch).run = none → exec (.aleComputationDone k) s = .next (s.setPipe k none)) ∧
  (∀ (s : State) k ch x, k < 24 → s.pipeRuns k = some ch → s.clockOff (pAle ch) = false → (s.al ch).run = some x → ∃ u : State,
    exec (.aleComputationDone k) s = .next (u.ev (pAle ch) 0) ∧ u.pipeRuns k = none ∧ (u.al ch).run = none ∧
      u.get (pAle ch) ALE_LAT.last = min 255 (s.now - x.c) ∧
      u.get (pAle ch) ALE_SEQ.seq = (s.get (pAle ch) ALE_SEQ.seq + 1) % 2 ^ 16) ∧
  (∀ (x : AleSnap) (a : AleSt) hist, x.suits = false → (x.compute a hist).path = 0 ∧ (x.compute a hist).evs = [8] ∧ (x.compute a hist).hist = false ∧
    (∀ m ∈ (x.compute a hist).ms, m = ((x.len / 2 : Nat) : Rat))) ∧
  (∀ (x : AleSnap) (a : AleSt) hist, x.suits = true → x.get ALE_CFG.mode = 0 → (x.compute a hist).path = 0 ∧ (x.compute a hist).evs = [] ∧
    (x.compute a hist).ms = x.halves) ∧
  (∀ (x : AleSnap) (a : AleSt) hist, x.suits = true → x.get ALE_CFG.mode ≠ 0 → x.vdc < 1 / 16 → (x.compute a hist).evs = [11] ∧
    (x.compute a hist).ms = x.halves ∧ (x.compute a hist).hist = false) ∧
  (∀ (x : AleSnap) (a : AleSt) hist y, x.suits = true → x.get ALE_CFG.mode = 1 → x.valid = true → x.angle { a with mode := 1 } = some y →
    (x.compute a hist).path = 1 ∧ (x.compute a hist).hist = true ∧ (x.compute a hist).inval = false ∧ (x.compute a hist).st.inval = 0 ∧
    ∃ v : Rat × Rat, (x.compute a hist).out = some v ∧ (x.compute a hist).ms = x.output (turn (x.outAngle y.1 y.2) v) ∧
      absR v.1 ≤ absR (x.fix 34 0x1A * x.vdc / root3)) ∧
  (∀ (x : AleSnap) (a : AleSt) hist y, x.suits = true → x.get ALE_CFG.mode = 1 → x.valid = false → x.angle { a with mode := 1 } = some y →
    (x.compute a hist).path = 1 ∧ (x.compute a hist).inval = true ∧ (x.compute a hist).evs = [] ∧
    (a.lastL ≠ 0 → (x.compute a hist).ms = a.last.map (fun m => ((m : Nat) : Rat) * ((x.len : Nat) : Rat) / ((a.lastL : Nat) : Rat)))) ∧
  (∀ (x : AleSnap) (a : AleSt) hist y, x.suits = true → x.get ALE_CFG.mode = 3 → x.angle { a with mode := 3 } = some y →
    (x.compute a hist).path = 4 ∧ (x.compute a hist).rclamp = false ∧ (x.compute a hist).inval = false) ∧
  (∀ (x : AleSnap) (a : AleSt) hist y, x.suits = true → x.get ALE_CFG.mode = 2 → x.valid = true → x.angle { a with mode := 2 } = some y →
    ((x.compute a hist).path = 2 ∨ (x.compute a hist).path = 3) ∧ (x.get ALE_STP_CTL.force = 1 → (x.compute a hist).path = 2) ∧
    (x.get ALE_STP_CTL.force = 2 → (x.compute a hist).path = 3)) ∧
  (∀ imag rd rq : Rat, (rd * rd + rq * rq ≤ imag * imag → clampRef imag rd rq = ((rd, rq), false)) ∧
    (imag * imag < rd * rd + rq * rq → 0 ≤ imag → (clampRef imag rd rq).2 = true ∧ absR (clampRef imag rd rq).1.1 ≤ imag)) ∧
  (∀ (v u kp e ff i : Rat), (v = u → backCalc v u kp e ff i = i) ∧ (v ≠ u → backCalc v u kp e ff i = sat34 (v - kp * e - ff))) ∧
  (∀ (s : State) ch L m, s.get (pPwm ch) PWM_ENV_DUTY.lo ≤ min 1024 (s.get (pPwm ch) PWM_ENV_DUTY.hi) →
    (s.get (pPwm ch) PWM_ENV_DUTY.lo * L + 1023) / 1024 ≤ min 1024 (s.get (pPwm ch) PWM_ENV_DUTY.hi) * L / 1024 →
    s.get (pPwm ch) PWM_ENV_DUTY.lo * L ≤ (s.dutyClamp ch L m).1 * 1024 ∧
    (s.dutyClamp ch L m).1 * 1024 ≤ min 1024 (s.get (pPwm ch) PWM_ENV_DUTY.hi) * L ∧
    ((s.dutyClamp ch L m).2 = false → ((s.dutyClamp ch L m).1 : Int) = roundAway m)) ∧
  (∀ (s : State) ch c tc, s.clockOff (pAle ch) = false → s.get (pAle ch) PAGE_CTL.en = 1 → s.get (pAle ch) ALE_REF_CTL.cpend = 1 → (s.al ch).wake = none →
    ∃ t : State, s.aleWake ch c tc = t ∧ (t.al ch).ud = (s.al ch).cd ∧ (t.al ch).uq = (s.al ch).cq ∧ (t.al ch).age = 0 ∧
      (∃ x, (t.al ch).wake = some x ∧ x.at_ = s.now ∧ x.c = c ∧ x.tc = tc ∧ x.rd = (s.al ch).cd ∧ x.rq = (s.al ch).cq) ∧
      t.get (pAle ch) ALE_REF_CTL.cpend = 0 ∧ t.get (pAle ch) ALE_REF_CTL.cseq = (s.get (pAle ch) ALE_REF_CTL.cseq + 1) % 2 ^ 16 ∧
      t.get (pAle ch) ALE_REF_CTL.tseq = s.get (pPwm ch) PWM_SD_STAT.seq ∧ t.get (pAle ch) ALE_BLK.stale = 0 ∧
      RegsOnly [pAle ch + 2, pAle ch + 0x13] { s with ale := t.ale } t) ∧
  (∀ (s : State) ch c tc, s.get (pAle ch) PAGE_CTL.en = 0 ∨ s.clockOff (pAle ch) = true → s.aleWake ch c tc = s) ∧
  (∀ (s : State) ch, s.takes (pAle ch + 0x13) →
    ch < 96 → ∃ t : State, exec (.aleRefCommit ch) s = .next t ∧ (t.al ch).cd = s.getI (pAle ch) ALE_REF_D.r ∧
    (t.al ch).cq = s.getI (pAle ch) ALE_REF_Q.r ∧ (t.al ch).ud = (s.al ch).ud ∧ (t.al ch).uq = (s.al ch).uq ∧
    t.get (pAle ch) ALE_REF_CTL.cpend = 1 ∧ RegsOnly [pAle ch + 0x13] { s with ale := t.ale } t) ∧
  (∀ (s : State) ch (v : Word), s.takes (pAle ch + 0x10) →
    ch < 96 → (4 ≤ fldGet v.toNat ALE_CFG.mode ∨ fldGet v.toNat ALE_CFG.vbus = 1 ∧ fldGet v.toNat ALE_CFG.ish = 0 ∨
    fldGet v.toNat ALE_CFG.maxinv = 0) → exec (.aleCfgWrite ch v) s = .next (s.ev (pAle ch) 7)) ∧
  (∀ (s : State) ch (v : Word), s.takes (pAle ch + 0x10) → ch < 96 → fldGet v.toNat ALE_CFG.mode < 4 →
    (fldGet v.toNat ALE_CFG.vbus = 0 ∨ fldGet v.toNat ALE_CFG.ish = 1) → fldGet v.toNat ALE_CFG.maxinv ≠ 0 →
    ∃ t : State, exec (.aleCfgWrite ch v) s = .next t ∧
      (∀ f ∈ [ALE_CFG.mode, ALE_CFG.asrc, ALE_CFG.ish, ALE_CFG.vbus, ALE_CFG.ff, ALE_CFG.dtc, ALE_CFG.wake, ALE_CFG.staleact, ALE_CFG.maxage, ALE_CFG.maxinv],
        t.get (pAle ch) f = fldGet v.toNat f) ∧ RegsOnly [pAle ch + 0x10] { s with ale := t.ale } t) ∧
  (∀ (s : State) ch inen c tc, s.clockOff (pAle ch) = false → s.get (pAle ch) PAGE_CTL.en = 1 → s.get (pPwm ch) PWM_SD_STAT.valid = 0 → s.get (pAle ch) ALE_CFG.wake = 0 →
    s.aleResult ch inen true c tc = s.aleWake ch c tc ∧ s.aleResult ch inen false c tc = s)

/-- FBK_CFG_WRITE, COUNT_EDGE, LINE_FAULT, FBK_LOAD, FBK_CLRUNC and FBK_POS_READ. FBK_CFG is taken whole while the page is
disabled, lgrp alone while it is enabled, with event 13 for another change or an invalid value. The first filtered
pair sets phist; a change of both lines is an illegal transition, with unc and event 1, and the position stays; a
change of one counts up or down by the decoder states and dir. A line fault of a used input with lfen sets unc and
records event 4, and the level of the faulted line holds. A load sets the offset, in mode 1 the largest count not past
the written fraction, and ref, with no match. unc clears unless it sets on the same edge. FBK_POS_HI reads the
position and holds FBK_POS_LO for the core. Rules: R193, R194, R195, R196, R197, R198, R199, R200, R201. -/
def Obligations.FeedbackCounts : Prop :=
  (∀ (s : State) ch (v : Word), s.takes (pFbk ch + 0x10) →
    ch < 96 → s.fbkWordOk ch 0x10 v.toNat = false → exec (.fbkCfgWrite ch v) s = .next (s.ev (pFbk ch) 13)) ∧
  (∀ (s : State) ch (v : Word), s.takes (pFbk ch + 0x10) →
    ch < 96 → fldGet v.toNat FBK_CFG.mode < 6 → 0 < fldGet v.toNat FBK_CFG.filt → s.get (pFbk ch) PAGE_CTL.en = 0 →
    ∃ t : State, exec (.fbkCfgWrite ch v) s = .next t ∧ (∀ f ∈ [FBK_CFG.mode, FBK_CFG.lgrp, FBK_CFG.dir, FBK_CFG.lfen, FBK_CFG.filt],
      t.get (pFbk ch) f = fldGet v.toNat f) ∧ RegsOnly [pFbk ch + 0x10] s t) ∧
  (∀ (s : State) ch (v : Word), s.takes (pFbk ch + 0x10) → ch < 96 → s.get (pFbk ch) PAGE_CTL.en = 1 →
    (∀ f ∈ [FBK_CFG.mode, FBK_CFG.dir, FBK_CFG.lfen, FBK_CFG.filt], fldGet v.toNat f = s.get (pFbk ch) f) →
    fldGet v.toNat FBK_CFG.mode < 6 → 0 < fldGet v.toNat FBK_CFG.filt → ∃ t : State, exec (.fbkCfgWrite ch v) s = .next t ∧
      t.get (pFbk ch) FBK_CFG.lgrp = fldGet v.toNat FBK_CFG.lgrp ∧ RegsOnly [pFbk ch + 0x10] s t) ∧
  (∀ (s : State) ch (v : Word), s.takes (pFbk ch + 0x10) →
    ch < 96 → s.get (pFbk ch) PAGE_CTL.en = 1 → fldGet v.toNat FBK_CFG.mode ≠ s.get (pFbk ch) FBK_CFG.mode →
    fldGet v.toNat FBK_CFG.mode < 6 → 0 < fldGet v.toNat FBK_CFG.filt → ∃ u : State, exec (.fbkCfgWrite ch v) s = .next (u.ev (pFbk ch) 13) ∧
      u.get (pFbk ch) FBK_CFG.mode = s.get (pFbk ch) FBK_CFG.mode ∧ u.get (pFbk ch) FBK_CFG.lgrp = fldGet v.toNat FBK_CFG.lgrp ∧
      RegsOnly [pFbk ch + 0x10] s u) ∧
  (∀ (s : State) ch a b, s.fbkMode ch ≠ 1 → s.fbkMode ch ≠ 2 → exec (.countEdge ch a b) s = .next s) ∧
  (∀ (s : State) ch a b, ch < 96 → (s.fbkMode ch = 1 ∨ s.fbkMode ch = 2) → (s.fb ch).ab = none → (s.fb ch).pend = [] → ∃ t : State,
    exec (.countEdge ch a b) s = .next t ∧ (t.fb ch).ab = some (a, b) ∧ t.get (pFbk ch) FBK_BLK.phist = 1 ∧ t.fbkPos ch = s.fbkPos ch ∧
      RegsOnly [pFbk ch + 2] { s with fbk := t.fbk } t) ∧
  (∀ (s : State) ch a b, ch < 96 → (s.fbkMode ch = 1 ∨ s.fbkMode ch = 2) → (s.fb ch).pend = [] → (s.fb ch).faults = [] →
    (s.fb ch).ab = some (!a, !b) → ∃ u : State,
    exec (.countEdge ch a b) s = .next (u.evC (pFbk ch) 1) ∧ (u.fb ch).ab = some (a, b) ∧ u.get (pFbk ch) FBK_BLK.unc = 1 ∧ u.fbkPos ch = s.fbkPos ch) ∧
  (∀ (s : State) ch a b o, ch < 96 → (s.fbkMode ch = 1 ∨ s.fbkMode ch = 2) → (s.fb ch).pend = [] → (s.fb ch).faults = [] → (s.fb ch).ab = some o →
    (o.1 = a ∨ o.2 = b) → o ≠ (a, b) → ∃ u : State, exec (.countEdge ch a b) s = .next (u.countMove ch
        (if ((stateNum (a, b) + 4 - stateNum o) % 4 == 1) == (s.get (pFbk ch) FBK_CFG.dir == 0) then 1 else -1)) ∧
      u.fb ch = { s.fb ch with ab := some (a, b) } ∧ u = { s with fbk := u.fbk }) ∧
  (∀ (s : State) ch dn, -(2 ^ 35) * (s.fbkK ch : Int) ≤ (s.fb ch).n + dn →
    (s.fb ch).n + dn < 2 ^ 35 * (s.fbkK ch : Int) → (s.countBy ch dn) = s.putCount ch ((s.fb ch).n + dn) ∧
      ((s.countBy ch dn).fb ch).raw = countPos (s.fbkK ch) ((s.fb ch).n + dn)) ∧
  (∀ K n : Int, 0 < K → countPos K n / 2 ^ 36 = n / K ∧ 0 ≤ countPos K n - n / K * 2 ^ 36) ∧
  (∀ (s : State) ch line bad, s.get (pFbk ch) FBK_CFG.lfen = 0 ∨ usedInput (s.fbkMode ch) line = false →
    exec (.lineFault ch ⟨line, bad⟩) s = .next s) ∧
  (∀ (s : State) ch line, ch < 96 → s.get (pFbk ch) FBK_CFG.lfen = 1 → usedInput (s.fbkMode ch) line = true →
    exec (.lineFault ch ⟨line, false⟩) s = .next (s.setFb ch { s.fb ch with faults := (s.fb ch).faults.filter (fun l => l != line) })) ∧
  (∀ (s : State) ch line, line ∈ (s.fb ch).faults → exec (.lineFault ch ⟨line, true⟩) s = .next s) ∧
  (∀ (s : State) ch a b o, (s.fb ch).ab = some o → 0 ∈ (s.fb ch).faults →
    exec (.countEdge ch a b) s = exec (.countEdge ch o.1 b) s) ∧
  (∀ (s : State) ch a b o, (s.fb ch).ab = some o → 1 ∈ (s.fb ch).faults →
    exec (.countEdge ch a b) s = exec (.countEdge ch a o.2) s) ∧
  (∀ (s : State) ch line, ch < 96 → s.get (pFbk ch) FBK_CFG.lfen = 1 → usedInput (s.fbkMode ch) line = true →
    line ∉ (s.fb ch).faults → ∃ u : State,
    exec (.lineFault ch ⟨line, true⟩) s = .next (u.evC (pFbk ch) 4) ∧ (u.fb ch).faults = line :: (s.fb ch).faults ∧ u.get (pFbk ch) FBK_BLK.unc = 1 ∧ u.fbkPos ch = s.fbkPos ch ∧
      RegsOnly [pFbk ch + 2] { s with fbk := u.fbk } u) ∧
  (∀ (s : State) ch, s.takes (pFbk ch + 0x1C) → s.fbkMode ch = 0 ∨ s.fbkMode ch = 5 → exec (.fbkLoad ch) s = .next s) ∧
  (∀ (s : State) ch, s.takes (pFbk ch + 0x1C) →
    ch < 96 → (s.fbkMode ch = 2 ∨ s.fbkMode ch = 3 ∨ s.fbkMode ch = 4) → s.get (pFbk ch) FBK_CMP_CTL.en = 0 →
    (∀ e < 96, s.fbkMode e ≠ 5) → ∃ t : State, exec (.fbkLoad ch) s = .next t ∧
      t.fbkPos ch = p72 (s.get (pFbk ch) FBK_POS_SET_HI.p) (s.get (pFbk ch) FBK_POS_SET_LO.p) ∧ (t.fb ch).raw = (s.fb ch).raw ∧
      t.get (pFbk ch) FBK_BLK.ref = 1 ∧ (t.fb ch).loadAt = some s.now ∧ RegsOnly [pFbk ch + 2] { s with fbk := t.fbk } t) ∧
  (∀ (s : State) ch, s.takes (pFbk ch + 0x1C) →
    ch < 96 → s.fbkMode ch = 1 → s.get (pFbk ch) FBK_CMP_CTL.en = 0 → (∀ e < 96, s.fbkMode e ≠ 5) → ∃ t : State,
    exec (.fbkLoad ch) s = .next t ∧ (t.fb ch).n = p72 (s.get (pFbk ch) FBK_POS_SET_HI.p) (s.get (pFbk ch) FBK_POS_SET_LO.p) / 2 ^ 36 * (s.fbkK ch : Int)
        + countOf (s.fbkK ch) (p72 (s.get (pFbk ch) FBK_POS_SET_HI.p) (s.get (pFbk ch) FBK_POS_SET_LO.p) % 2 ^ 36) ∧
      t.get (pFbk ch) FBK_BLK.ref = 1 ∧ RegsOnly [pFbk ch + 2] { s with fbk := t.fbk } t) ∧
  (∀ K f : Int, 0 < K → 0 ≤ f → f < 2 ^ 36 → countOf K f * 2 ^ 36 / K ≤ f ∧ f < (countOf K f + 1) * 2 ^ 36 / K) ∧
  (∀ (s : State) ch, s.takes (pFbk ch + 0x1C) →
    ch < 96 → (s.fb ch).uncAt ≠ some s.now → exec (.fbkClrunc ch) s = .next (s.put (pFbk ch) FBK_BLK.unc 0)) ∧
  (∀ (s : State) ch, s.takes (pFbk ch + 0x1C) → (s.fb ch).uncAt = some s.now → exec (.fbkClrunc ch) s = .next s) ∧
  (∀ (s : State) c ch, s.takes (pFbk ch + 0x1F) →
    c < 64 → ch < 96 → ∃ t : State, exec (.fbkPosRead c ch) s = .next t ∧ t.rdata = word (p72Hi (s.fbkPos ch)) ∧
    t.held? c 1 = some (pFbk ch, [word (p72Lo (s.fbkPos ch))]) ∧ t.regs = s.regs)

/-- INDEX, Z_FALL, SINCOS_SAMPLE, SERIAL_FRAME_END and BISS_REQ. A qualified index records the count, its wrapped
difference to the expected one, its corrected time, the position after the policy, and event 2; policy 1 snaps an
unreferenced count, clears unc within the tolerance, and snaps with event 3 outside it; policy 0 records event 3
alone. A sample shows its squared amplitude and phase; an amplitude outside the bounds sets unc and records event 5. A
bad frame keeps the position, counts with its cause and event 6 and marks its latch stale; a good one gives the
position, clears unc and ends its latch. A register access is refused with event 13 while one runs. Model choice: the
form of the CRC of a slave (log entry 106). Rules: R202, R203, R204, R205, R206, R207, R208, R209, R210, R211. -/
def Obligations.FeedbackIndexAndFrames : Prop :=
  (∀ (s : State) ch, s.indexQualifies ch = false → exec (.index ch) s = .next s) ∧
  (∀ (s : State) ch, ch < 96 → s.indexQualifies ch = true → ∃ u : State, exec (.index ch) s = .next u ∧
    u.get (pFbk ch) FBK_IDX_ACT.act = ((s.fb ch).n % (s.fbkK ch : Int)).toNat % 2 ^ 28 ∧
    u.getI (pFbk ch) FBK_IDX_ERR.d = sint 36 (unsint 36 (wrapDiff (s.fbkK ch) ((s.fb ch).n % (s.fbkK ch : Int)) (s.get (pFbk ch) FBK_IDX_EXP.exp))) ∧
    u.reg (pFbk ch + 0x18) = t72Hi (s.corrected ch) % 2 ^ 36 ∧ u.reg (pFbk ch + 0x19) = t72Lo (s.corrected ch) % 2 ^ 36 ∧
    u.reg (pFbk ch + 0x16) = p72Hi (u.fbkPos ch) % 2 ^ 36 ∧ u.reg (pFbk ch + 0x17) = p72Lo (u.fbkPos ch) % 2 ^ 36 ∧
    bitN (u.get (pFbk ch) PAGE_EV.ev) 2 = true) ∧
  (∀ K q e : Int, 0 < K → -K < 2 * wrapDiff K q e ∧ 2 * wrapDiff K q e ≤ K ∧ (q - e - wrapDiff K q e) % K = 0) ∧
  (∀ (s : State) ch d, s.get (pFbk ch) FBK_IDX_CFG.policy = 1 → s.get (pFbk ch) FBK_BLK.ref = 0 → (s.fb ch).loadAt = none →
    s.indexPolicy ch d = ((s.put (pFbk ch) FBK_BLK.unc 0).snapCount ch d).put (pFbk ch) FBK_BLK.ref 1) ∧
  (∀ (s : State) ch d, s.get (pFbk ch) FBK_IDX_CFG.policy = 1 → s.get (pFbk ch) FBK_BLK.ref = 1 →
    d.natAbs ≤ s.get (pFbk ch) FBK_IDX_CFG.tol → s.indexPolicy ch d = s.put (pFbk ch) FBK_BLK.unc 0) ∧
  (∀ (s : State) ch d, s.get (pFbk ch) FBK_IDX_CFG.policy = 1 → s.get (pFbk ch) FBK_BLK.ref = 1 → (s.fb ch).loadAt = none →
    s.get (pFbk ch) FBK_IDX_CFG.tol < d.natAbs → s.indexPolicy ch d = ((s.put (pFbk ch) FBK_BLK.unc 0).snapCount ch d).evC (pFbk ch) 3) ∧
  (∀ (s : State) ch d, s.get (pFbk ch) FBK_IDX_CFG.policy = 0 →
    s.indexPolicy ch d = (if s.get (pFbk ch) FBK_BLK.ref = 1 ∧ s.get (pFbk ch) FBK_IDX_CFG.tol < d.natAbs then s.evC (pFbk ch) 3 else s)) ∧
  (∀ (s : State) ch, ch < 96 → (s.fb ch).faults.contains 2 = false → exec (.zFall ch) s = .next (s.setFb ch { s.fb ch with zq := false })) ∧
  (∀ (s : State) ch, (s.fb ch).faults.contains 2 = true → exec (.zFall ch) s = .next s ∧ exec (.index ch) s = .next s) ∧
  (∀ (s : State) ch a b, s.fbkMode ch ≠ 2 → exec (.sincosSample ch a b) s = .next s) ∧
  (∀ (s : State) ch a b, s.clockOff (pFbk ch) = false → ch < 96 → s.fbkMode ch = 2 → s.get (pFbk ch) FBK_BLK.phist = 0 →
    s.get (pFbk ch) FBK_SC_AMP.lo ≤ scA2 (s.scValues ch a b) → scA2 (s.scValues ch a b) ≤ s.get (pFbk ch) FBK_SC_AMP.hi →
    ∃ t : State, exec (.sincosSample ch a b) s = .next t ∧ t.get (pFbk ch) FBK_SC_MEAS.a2 = scA2 (s.scValues ch a b) ∧
      t.get (pFbk ch) FBK_SC_MEAS.phi = atan2Turn (s.scValues ch a b).1 (s.scValues ch a b).2 % 2 ^ 18 ∧ RegsOnly [pFbk ch + 0x24] s t) ∧
  (∀ (s : State) ch a b, s.clockOff (pFbk ch) = false → ch < 96 → s.fbkMode ch = 2 → s.get (pFbk ch) FBK_BLK.phist = 0 →
    (scA2 (s.scValues ch a b) < s.get (pFbk ch) FBK_SC_AMP.lo ∨ s.get (pFbk ch) FBK_SC_AMP.hi < scA2 (s.scValues ch a b)) →
    ∃ u : State, exec (.sincosSample ch a b) s = .next (u.evC (pFbk ch) 5) ∧ (u.fb ch).amp = true ∧ u.get (pFbk ch) FBK_BLK.unc = 1 ∧
      u.get (pFbk ch) FBK_SC_MEAS.a2 = scA2 (s.scValues ch a b)) ∧
  (∀ (s : State) ch a b, s.clockOff (pFbk ch) = false → ch < 96 → s.fbkMode ch = 2 → s.get (pFbk ch) FBK_BLK.phist = 1 →
    s.get (pFbk ch) FBK_SC_AMP.lo ≤ scA2 (s.scValues ch a b) → scA2 (s.scValues ch a b) ≤ s.get (pFbk ch) FBK_SC_AMP.hi →
    ∃ u : State, exec (.sincosSample ch a b) s = .next (u.scPosition ch (atan2Turn (s.scValues ch a b).1 (s.scValues ch a b).2)
      (scA2 (s.scValues ch a b))) ∧ RegsOnly [pFbk ch + 0x24] s u) ∧
  (∀ (s : State) ch f, s.fbkMode ch ≠ 3 → s.fbkMode ch ≠ 4 → exec (.serialFrameEnd ch f) s = .next s) ∧
  (∀ (s : State) ch f, (s.fb ch).pend = [] → exec (.serialFrameEnd ch f) s = .next s) ∧
  (∀ (s : State) ch (f : SerialFrame) q rest, s.clockOff (pFbk ch) = false →
    ch < 96 → s.fbkMode ch = 3 → (s.fb ch).pend = q :: rest → q.ended = false →
    s.frameFits ch f = true → frameCause 3 (s.get (pFbk ch) FBK_SER_TIM.tmo) f ≠ 0 → (s.fb ch).bads ≠ 2 →
    ∃ u : State, exec (.serialFrameEnd ch f) s = .next (u.evC (pFbk ch) 6) ∧ u.fbkPos ch = s.fbkPos ch ∧ (u.fb ch).bads = (s.fb ch).bads + 1 ∧
      u.get (pFbk ch) FBK_SER_STAT.cause = frameCause 3 (s.get (pFbk ch) FBK_SER_TIM.tmo) f ∧ u.get (pFbk ch) FBK_SER_STAT.err = (s.get (pFbk ch) FBK_SER_STAT.err + 1) % 2 ^ 12 ∧
      (u.fb ch).wait = s.now + 400 * s.get (pFbk ch) FBK_SER_TIM.tm ∧
      (u.fb ch).pend = { q with ended := true, ready := s.now + 3, pos := some (s.fbkPos ch), fresh := false, t64 := (s.fb ch).vt, key := (s.fb ch).vk } :: rest) ∧
  (∀ (s : State) ch f, s.frameFits ch f = false → exec (.serialFrameEnd ch f) s = .next s) ∧
  (∀ (s : State) ch (f : SerialFrame) q rest, s.clockOff (pFbk ch) = false →
    ch < 96 → s.fbkMode ch = 4 → (s.fb ch).pend = q :: rest → q.ended = false →
    f.started (s.get (pFbk ch) FBK_SER_TIM.tmo) = false → f.accessEnd = none → (s.fb ch).bads ≠ 2 → ∃ u : State,
    exec (.serialFrameEnd ch f) s = .next (u.evC (pFbk ch) 6) ∧ u.fbkPos ch = s.fbkPos ch ∧ u.get (pFbk ch) FBK_SER_STAT.cause = 2 ∧
      (u.fb ch).wait = s.now + f.slo) ∧
  (∀ (s : State) ch (f : SerialFrame) q rest, s.clockOff (pFbk ch) = false →
    ch < 96 → s.fbkMode ch = 3 → (s.fb ch).pend = q :: rest → q.ended = false →
    s.frameFits ch f = true → frameCause 3 (s.get (pFbk ch) FBK_SER_TIM.tmo) f = 0 →
    s.get (pFbk ch) FBK_CMP_CTL.en = 0 → (∀ e < 96, s.fbkMode e ≠ 5) → ∃ t : State, exec (.serialFrameEnd ch f) s = .next t ∧
      (t.fb ch).raw = s.framePos ch f ∧ (t.fb ch).bads = 0 ∧ t.get (pFbk ch) FBK_BLK.phist = 1 ∧ t.get (pFbk ch) FBK_BLK.unc = 0 ∧
      (t.fb ch).pend = { q with ended := true, ready := s.now + 3, pos := some (s.framePos ch f + (s.fb ch).offs) } :: rest) ∧
  (∀ (s : State) ch (f : SerialFrame) q rest, s.clockOff (pFbk ch) = false →
    ch < 96 → s.fbkMode ch = 4 → (s.fb ch).pend = q :: rest → q.ended = false →
    s.frameFits ch f = true → frameCause 4 (s.get (pFbk ch) FBK_SER_TIM.tmo) f = 0 → f.accessEnd = none →
    s.get (pFbk ch) FBK_CMP_CTL.en = 0 → (∀ e < 96, s.fbkMode e ≠ 5) → ∃ t : State, exec (.serialFrameEnd ch f) s = .next t ∧
      (t.fb ch).raw = s.framePos ch f ∧ t.get (pFbk ch) FBK_BLK.phist = 1 ∧ t.get (pFbk ch) FBK_BLK.unc = 0 ∧
      t.get (pFbk ch) FBK_SER_STAT.sl = slaveBits f.slaves % 2 ^ 12 ∧ t.get (pFbk ch) FBK_SER_LD.ld = min 0xFFFF f.delay ∧
      (t.fb ch).wait = s.now + f.slo ∧ (t.fb ch).pend = { q with ended := true, ready := s.now + 3, pos := some (s.framePos ch f + (s.fb ch).offs) } :: rest) ∧
  (∀ (s : State) ch (v : Word), s.takes (pFbk ch + 0x2C) →
    ch < 96 → fldGet v.toNat FBK_BISS_REQ.go = 1 → (s.fb ch).biss = true → exec (.bissReq ch v) s = .next (s.ev (pFbk ch) 13)) ∧
  (∀ (s : State) ch (v : Word), s.takes (pFbk ch + 0x2C) →
    ch < 96 → fldGet v.toNat FBK_BISS_REQ.go = 1 → (s.fb ch).biss = false → ∃ t : State, exec (.bissReq ch v) s = .next t ∧
      (t.fb ch).biss = true ∧ t.get (pFbk ch) FBK_BISS_REQ.done = 0 ∧ t.get (pFbk ch) FBK_BISS_REQ.fail = 0 ∧
      (∀ f ∈ [FBK_BISS_REQ.rd, FBK_BISS_REQ.idn, FBK_BISS_REQ.addr, FBK_BISS_REQ.data], t.get (pFbk ch) f = fldGet v.toNat f) ∧
      RegsOnly [pFbk ch + 0x2C] { s with fbk := t.fbk } t) ∧
  (∀ (s : State) ch (v : Word), s.takes (pFbk ch + 0x2C) →
    ch < 96 → fldGet v.toNat FBK_BISS_REQ.go = 0 → ∃ t : State, exec (.bissReq ch v) s = .next t ∧
      (∀ f ∈ [FBK_BISS_REQ.rd, FBK_BISS_REQ.idn, FBK_BISS_REQ.addr, FBK_BISS_REQ.data], t.get (pFbk ch) f = fldGet v.toNat f) ∧
      RegsOnly [pFbk ch + 0x2C] s t)

/-- Latch sets, the watch latch, FBK_LAT reads, encoder emulation, and the encoder supplies. The oldest complete set
appears: a Prism set in the FBK_LAT words with seq and event 0, every set in the stream to the island; a set outside
the envelope blocks the channel, notifies the island and records event 8. A watch latch is due 100 us of TB0 after the
last and is lost with event 7 while a frame runs. The read of FBK_LAT_HI holds the rest of the set for the core. An
emulating page steps one state toward its target at most every minsp. A supply turns on within the module total of
60.00 W, else event 13; overcurrent turns it off, undervoltage clears supok, both with unc and event 12. Rules: R212,
R213, R214, R215, R216, R220, R223, R224, R225, R226. -/
def Obligations.FeedbackLatchesAndSupply : Prop :=
  (∀ (s : State) ch, (s.fb ch).pend = [] → exec (.latchSetReady ch) s = .next s) ∧
  (∀ (s : State) ch q rest, (s.fb ch).pend = q :: rest → setComplete s.now (s.fbkMode ch) q = false → exec (.latchSetReady ch) s = .next s) ∧
  (∀ (s : State) ch q rest, s.clockOff (pFbk ch) = false →
    ch < 96 → (s.fb ch).pend = q :: rest → setComplete s.now (s.fbkMode ch) q = true → q.prism = false →
    s.fbkOutside ch (s.formSet ch q) = false → Tab.get (fun _ => none) s.stream ch = none → ∃ t : State, exec (.latchSetReady ch) s = .next t ∧
      (t.fb ch).pend = rest ∧ (t.fb ch).prevPos = some (s.formSet ch q).pos ∧ Tab.get (fun _ => none) t.stream ch = some (s.formSet ch q) ∧
      t.regs = s.regs) ∧
  (∀ (s : State) ch q rest, s.clockOff (pFbk ch) = false →
    ch < 96 → (s.fb ch).pend = q :: rest → setComplete s.now (s.fbkMode ch) q = true → q.prism = true →
    s.fbkOutside ch (s.formSet ch q) = false → ∃ t : State, exec (.latchSetReady ch) s = .next t ∧ (t.fb ch).pend = rest ∧
      (t.fb ch).inUse = some (s.formSet ch q) ∧ Tab.get (fun _ => none) t.stream ch = some (s.formSet ch q) ∧
      t.reg (pFbk ch + 0x48) = p72Hi (s.formSet ch q).pos % 2 ^ 36 ∧ t.reg (pFbk ch + 0x49) = p72Lo (s.formSet ch q).pos % 2 ^ 36 ∧
      t.getI (pFbk ch) FBK_LAT_SPD.v = clampI (-(2 ^ 35)) (2 ^ 35 - 1) (s.formSet ch q).spd ∧
      t.reg (pFbk ch + 0x4B) = t72Hi (s.formSet ch q).t64 % 2 ^ 36 ∧ t.reg (pFbk ch + 0x4C) = t72Lo (s.formSet ch q).t64 % 2 ^ 36 ∧
      t.flag (pFbk ch) FBK_LAT_ST.phist = (s.formSet ch q).phist ∧ t.flag (pFbk ch) FBK_LAT_ST.shist = (s.formSet ch q).shist ∧
      t.flag (pFbk ch) FBK_LAT_ST.unc = (s.formSet ch q).unc ∧ t.flag (pFbk ch) FBK_LAT_ST.ref = (s.formSet ch q).ref ∧
      t.flag (pFbk ch) FBK_LAT_ST.fresh = (s.formSet ch q).fresh ∧ t.flag (pFbk ch) FBK_LAT_ST.amp = (s.formSet ch q).amp ∧
      t.get (pFbk ch) FBK_LAT_ST.seq = (s.get (pFbk ch) FBK_LAT_ST.seq + 1) % 2 ^ 16 ∧ bitN (t.get (pFbk ch) PAGE_EV.ev) 0 = true) ∧
  (∀ (s : State) ch q rest, s.clockOff (pFbk ch) = false → ch < 96 → (s.fb ch).pend = q :: rest → setComplete s.now (s.fbkMode ch) q = true →
    s.fbkOutside ch (s.formSet ch q) = true → ∃ u : State, exec (.latchSetReady ch) s = .next (u.evC (pFbk ch) 8) ∧ ch ∈ u.envBlk ∧
      u.envNotify = s.envNotify ++ [ch] ∧ u.get (pFbk ch) FBK_BLK.envblk = 1 ∧ (u.fb ch).pend = rest) ∧
  (∀ (s : State) ch x, (s.get (pFbk ch) FBK_ENV_CTL.sen = 0 → s.get (pFbk ch) FBK_ENV_CTL.pwin = 0 → s.get (pFbk ch) FBK_ENV_CTL.dir = 0 →
      s.fbkOutside ch x = false) ∧
    (s.get (pFbk ch) FBK_ENV_CTL.sen = 1 → x.shist = true → s.get (pFbk ch) FBK_ENV_SPD.vmax < x.spd.natAbs → s.fbkOutside ch x = true) ∧
    (s.get (pFbk ch) FBK_ENV_CTL.pwin = 1 → x.phist = true → x.ref = true → x.unc = false →
      x.pos < p72 (s.get (pFbk ch) FBK_ENV_PLO_HI.p) (s.get (pFbk ch) FBK_ENV_PLO_LO.p) → s.fbkOutside ch x = true)) ∧
  (∀ (s : State) ch, s.t64 0 < (s.fb ch).lastL + 6400000 → exec (.watchLatch ch) s = .next s) ∧
  (∀ (s : State) ch, s.clockOff (pFbk ch) = false → ch < 96 → (s.fb ch).lastL + 6400000 ≤ s.t64 0 → (s.fbkMode ch = 1 ∨ s.fbkMode ch = 2 ∨
    (s.fbkMode ch = 3 ∨ s.fbkMode ch = 4) ∧ s.fbkBusy ch = false) → exec (.watchLatch ch) s = .next
    (s.setFb ch { s.fb ch with pend := (s.fb ch).pend ++ [s.newLatch ch false], lastL := s.t64 0 })) ∧
  (∀ (s : State) ch prism, (s.newLatch ch prism).prism = prism ∧ (s.newLatch ch prism).at_ = s.now ∧
    (s.newLatch ch prism).t64 = (if s.fbkMode ch = 3 ∨ s.fbkMode ch = 4 then s.t64 4 + 640 * s.get (pFbk ch) FBK_SER_TIM.tlat else s.t64 4) ∧
    (s.newLatch ch prism).cnt = (s.fb ch).n ∧ (s.newLatch ch prism).phist = s.flag (pFbk ch) FBK_BLK.phist ∧
    (s.newLatch ch prism).shist = s.flag (pFbk ch) FBK_BLK.shist ∧ (s.newLatch ch prism).unc = s.flag (pFbk ch) FBK_BLK.unc ∧
    (s.newLatch ch prism).ref = s.flag (pFbk ch) FBK_BLK.ref) ∧
  (∀ (s : State) ch q, inRange (s.fbkMode ch) 1 4 = true → q ∈ (s.fb ch).pend → q.at_ = s.now →
    s.fbkLatch ch true = s.setFb ch { s.fb ch with pend := markPrism (s.fb ch).pend s.now }) ∧
  (∀ (s : State) ch, s.clockOff (pFbk ch) = false → ch < 96 → (s.fb ch).lastL + 6400000 ≤ s.t64 0 → (s.fbkMode ch = 3 ∨ s.fbkMode ch = 4) →
    s.now < (s.fb ch).wait → exec (.watchLatch ch) s = .next (s.ev (pFbk ch) 7)) ∧
  (∀ (s : State) ch, s.fbkMode ch = 0 ∨ s.fbkMode ch = 5 → exec (.watchLatch ch) s = .next s) ∧
  (∀ (s : State) c ch, s.takes (pFbk ch + 0x48) →
    c < 64 → ch < 96 → ∃ t : State, exec (.fbkLatRead c ch) s = .next t ∧ t.rdata = s.regW (pFbk ch + 0x48) ∧
    t.held? c 2 = some (pFbk ch + 0x48, [s.regW (pFbk ch + 0x49), s.regW (pFbk ch + 0x4A), s.regW (pFbk ch + 0x4B), s.regW (pFbk ch + 0x4C),
      s.regW (pFbk ch + 0x4D)]) ∧ t.regs = s.regs) ∧
  (∀ (s : State) ch, (s.fbkMode ch ≠ 5 ∨ s.emuHeld ch = true ∨ s.emuTarget ch = (s.fb ch).out ∨
    s.now < (s.fb ch).outAt + s.get (pFbk ch) FBK_EMU.minsp) → exec (.emulationEdge ch) s = .next s) ∧
  (∀ (s : State) ch, s.clockOff (pFbk ch) = false → ch < 96 → s.fbkMode ch = 5 → s.emuHeld ch = false → s.emuTarget ch ≠ (s.fb ch).out →
    (s.fb ch).outAt + s.get (pFbk ch) FBK_EMU.minsp ≤ s.now → ∃ t : State, exec (.emulationEdge ch) s = .next t ∧ (t.fb ch).outAt = s.now ∧
      (t.fb ch).out = (s.fb ch).out + (if (s.fb ch).out < s.emuTarget ch then 1 else -1)) ∧
  (∀ (s : State) ch, s.clockOff (pFbk ch) = false → ch < 96 → exec (.emulationZPulseEnd ch) s = .next (s.setFb ch { s.fb ch with zPulse := false })) ∧
  (∀ (s : State) ini ch (v : Word), s.takes (pFbk ch + 0x3C) →
    ch < 96 → (fldGet v.toNat FBK_SUP.sel = 3 ∨ fldGet v.toNat FBK_SUP.budget = 0 ∨ 35 < fldGet v.toNat FBK_SUP.budget) →
    exec (.fbkSupWrite ini ch v) s = .next (if s.olSealed = true ∧ fldGet v.toNat FBK_SUP.sel ≠ s.get (pFbk ch) FBK_SUP.sel
      then (s.refuse (pFbk ch)).ev (pFbk ch) 13 else s.ev (pFbk ch) 13)) ∧
  (∀ (s : State) ini ch (v : Word), s.takes (pFbk ch + 0x3C) →
    ch < 96 → fldGet v.toNat FBK_SUP.sel < 3 → fldGet v.toNat FBK_SUP.sel ≠ 0 → 1 ≤ fldGet v.toNat FBK_SUP.budget →
    fldGet v.toNat FBK_SUP.budget ≤ 35 → s.olSealed = false → s.get (pFbk ch) FBK_SUP.en = 0 → fldGet v.toNat FBK_SUP.en = 1 →
    s.supTotal + supPower (fldGet v.toNat FBK_SUP.sel) (fldGet v.toNat FBK_SUP.budget) ≤ 6000 →
    ∃ t : State, exec (.fbkSupWrite ini ch v) s = .next t ∧ t.get (pFbk ch) FBK_SUP.en = 1 ∧ t.get (pFbk ch) FBK_SUP.oc = 0 ∧
      t.get (pFbk ch) FBK_SUP.sel = fldGet v.toNat FBK_SUP.sel ∧ t.get (pFbk ch) FBK_SUP.budget = fldGet v.toNat FBK_SUP.budget ∧
      RegsOnly [pFbk ch + 0x3C] s t) ∧
  (∀ (s : State) ini ch (v : Word), s.takes (pFbk ch + 0x3C) → ch < 96 → fldGet v.toNat FBK_SUP.sel < 3 → 1 ≤ fldGet v.toNat FBK_SUP.budget →
    fldGet v.toNat FBK_SUP.budget ≤ 35 → s.olSealed = false → s.get (pFbk ch) FBK_SUP.en = 0 → fldGet v.toNat FBK_SUP.en = 1 →
    (fldGet v.toNat FBK_SUP.sel = 0 ∨ 6000 < s.supTotal + supPower (fldGet v.toNat FBK_SUP.sel) (fldGet v.toNat FBK_SUP.budget)) →
    exec (.fbkSupWrite ini ch v) s = .next (s.ev (pFbk ch) 13)) ∧
  (∀ (s : State) ini ch (v : Word), s.takes (pFbk ch + 0x3C) →
    ch < 96 → s.olSealed = false → s.get (pFbk ch) FBK_SUP.en = 1 → fldGet v.toNat FBK_SUP.en = 1 →
    fldGet v.toNat FBK_SUP.budget = s.get (pFbk ch) FBK_SUP.budget → 1 ≤ fldGet v.toNat FBK_SUP.budget → fldGet v.toNat FBK_SUP.budget ≤ 35 →
    fldGet v.toNat FBK_SUP.sel < 3 → (fldGet v.toNat FBK_SUP.sel = 0 ∨
      6000 < s.supOthers ch + supPower (fldGet v.toNat FBK_SUP.sel) (fldGet v.toNat FBK_SUP.budget)) →
    exec (.fbkSupWrite ini ch v) s = .next (s.ev (pFbk ch) 13)) ∧
  (∀ (s : State) ini ch (v : Word), s.takes (pFbk ch + 0x3C) →
    ch < 96 → fldGet v.toNat FBK_SUP.sel < 3 → s.get (pFbk ch) FBK_SUP.en = 1 → fldGet v.toNat FBK_SUP.en = 0 →
    1 ≤ fldGet v.toNat FBK_SUP.budget → fldGet v.toNat FBK_SUP.budget ≤ 35 → fldGet v.toNat FBK_SUP.budget = s.get (pFbk ch) FBK_SUP.budget →
    ∃ t : State, exec (.fbkSupWrite ini ch v) s = .next t ∧ t.get (pFbk ch) FBK_SUP.en = 0 ∧ t.get (pFbk ch) FBK_SUP.supok = 0 ∧
      t.get (pFbk ch) FBK_SUP.imeas = 0 ∧ RegsOnly [pFbk ch + 7, pFbk ch + 0x3C] s t) ∧
  (∀ (s : State) ch, s.get (pFbk ch) FBK_SUP.en = 0 → exec (.supplyOk ch) s = .next s ∧ exec (.supplyUndervoltage ch) s = .next s ∧
    ∀ ma, exec (.supplyOvercurrent ch ma) s = .next s) ∧
  (∀ (s : State) ch, ch < 96 → s.get (pFbk ch) FBK_SUP.en = 1 → exec (.supplyOk ch) s = .next (s.put (pFbk ch) FBK_SUP.supok 1)) ∧
  (∀ (s : State) ch ma, ch < 96 → s.get (pFbk ch) FBK_SUP.en = 1 → (11 * s.get (pFbk ch) FBK_SUP.budget < ma ∨ 400 < ma) → ∃ u : State,
    exec (.supplyOvercurrent ch ma) s = .next (u.evC (pFbk ch) 12) ∧ u.get (pFbk ch) FBK_SUP.en = 0 ∧ u.get (pFbk ch) FBK_SUP.supok = 0 ∧
      u.get (pFbk ch) FBK_SUP.oc = 1 ∧ u.get (pFbk ch) FBK_SUP.imeas = min 0xFFF ma ∧
      (inRange (s.fbkMode ch) 1 4 = true → u.get (pFbk ch) FBK_BLK.unc = 1)) ∧
  (∀ (s : State) ch ma, s.get (pFbk ch) FBK_SUP.en = 1 → ma ≤ 11 * s.get (pFbk ch) FBK_SUP.budget → ma ≤ 400 → exec (.supplyOvercurrent ch ma) s = .next s) ∧
  (∀ (s : State) ch, ch < 96 → s.get (pFbk ch) FBK_SUP.en = 1 → ∃ u : State, exec (.supplyUndervoltage ch) s = .next (u.evC (pFbk ch) 12) ∧
    u.get (pFbk ch) FBK_SUP.supok = 0 ∧ u.get (pFbk ch) FBK_SUP.en = 1 ∧ (inRange (s.fbkMode ch) 1 4 = true → u.get (pFbk ch) FBK_BLK.unc = 1))

/-- The motion commands: acceptance and refusal codes, abort, qstop, position loads and stream points. Each command of an
enabled page is accepted with result 1, waiting for the next update edge and changing no other word (a move names the
last commanded target at once), or refused with the lowest code that applies and event 1 (code 6 first while action 4
of the fault counter holds the page): 2 while homing, 3 without a reference, 4 outside the window, 5 toward an active
limit, 6 under a stop-at-once cause, 7 for a stream without valid cell time or points, 8 for a homing that cannot run,
10 for a position load in motion. Abort stops along a ramp and empties the stream, or reports that it had no effect.
Qstop freezes the setpoint at once with event 3, loses the position of a moving stepper, and fails a homing with code
6. A stream point is queued up to 8 or refused with event 10. A disabled page ignores them all. Rules: R237, R238,
R239, R244, R245, R246, R247, R249, R250, R262, R263. -/
def Obligations.MotionCommands : Prop :=
  (∀ (s : State) ch, s.takes (pProf ch + 0x18) →
    ch < 96 → s.get (pProf ch) PAGE_CTL.en = 1 → s.profCode ch true (some (s.tgtWords ch)) (s.firstMotion ch (s.tgtWords ch - (s.setpoint ch).1)) false false = 1 → ∃ t : State, exec (.absoluteMove ch) s = .next t ∧
      (t.pr ch).cmd = .move 0 ∧ (t.pr ch).target = some (s.tgtWords ch) ∧ (t.pr ch).goal = (s.pr ch).goal ∧ (t.pr ch).plan = (s.pr ch).plan ∧
      t.get (pProf ch) PROF_CRES.cres = 1 ∧ RegsOnly [pProf ch + 0x19] { s with prof := t.prof } t) ∧
  (∀ (s : State) ch, s.takes (pProf ch + 0x18) →
    ch < 96 → s.get (pProf ch) PAGE_CTL.en = 1 → s.profCode ch true (some (s.tgtWords ch)) (s.firstMotion ch (s.tgtWords ch - (s.setpoint ch).1)) false false ≠ 1 → ∃ u : State, exec (.absoluteMove ch) s = .next (u.ev (pProf ch) 1) ∧
      u.get (pProf ch) PROF_CRES.cres = s.profCode ch true (some (s.tgtWords ch)) (s.firstMotion ch (s.tgtWords ch - (s.setpoint ch).1)) false false ∧ RegsOnly [pProf ch + 0x19] s u) ∧
  (∀ (s : State) ch, s.takes (pProf ch + 0x18) →
    ch < 96 → s.get (pProf ch) PAGE_CTL.en = 1 → s.profCode ch false (some ((s.pr ch).target.getD (s.setpoint ch).1 + s.tgtWords ch)) (s.firstMotion ch ((s.pr ch).target.getD (s.setpoint ch).1 + s.tgtWords ch - (s.setpoint ch).1)) false false = 1 → ∃ t : State, exec (.relativeMove ch) s = .next t ∧
      (t.pr ch).cmd = .move ((s.pr ch).target.getD (s.setpoint ch).1) ∧ (t.pr ch).target = some ((s.pr ch).target.getD (s.setpoint ch).1 + s.tgtWords ch) ∧ (t.pr ch).goal = (s.pr ch).goal ∧ (t.pr ch).plan = (s.pr ch).plan ∧
      t.get (pProf ch) PROF_CRES.cres = 1 ∧ RegsOnly [pProf ch + 0x19] { s with prof := t.prof } t) ∧
  (∀ (s : State) ch, s.takes (pProf ch + 0x18) →
    ch < 96 → s.get (pProf ch) PAGE_CTL.en = 1 → s.profCode ch false (some ((s.pr ch).target.getD (s.setpoint ch).1 + s.tgtWords ch)) (s.firstMotion ch ((s.pr ch).target.getD (s.setpoint ch).1 + s.tgtWords ch - (s.setpoint ch).1)) false false ≠ 1 → ∃ u : State, exec (.relativeMove ch) s = .next (u.ev (pProf ch) 1) ∧
      u.get (pProf ch) PROF_CRES.cres = s.profCode ch false (some ((s.pr ch).target.getD (s.setpoint ch).1 + s.tgtWords ch)) (s.firstMotion ch ((s.pr ch).target.getD (s.setpoint ch).1 + s.tgtWords ch - (s.setpoint ch).1)) false false ∧ RegsOnly [pProf ch + 0x19] s u) ∧
  (∀ (s : State) ch, s.takes (pProf ch + 0x18) →
    ch < 96 → s.get (pProf ch) PAGE_CTL.en = 1 → s.profCode ch false none (s.firstMotion ch (fixRat 16 (s.get (pProf ch) PROF_JOG.v))) false false = 1 → ∃ t : State, exec (.velocityMove ch) s = .next t ∧
      (t.pr ch).cmd = .jog (fixRat 16 (s.get (pProf ch) PROF_JOG.v)) ∧ (t.pr ch).target = (s.pr ch).target ∧ (t.pr ch).goal = (s.pr ch).goal ∧ (t.pr ch).plan = (s.pr ch).plan ∧
      t.get (pProf ch) PROF_CRES.cres = 1 ∧ RegsOnly [pProf ch + 0x19] { s with prof := t.prof } t) ∧
  (∀ (s : State) ch, s.takes (pProf ch + 0x18) →
    ch < 96 → s.get (pProf ch) PAGE_CTL.en = 1 → s.profCode ch false none (s.firstMotion ch (fixRat 16 (s.get (pProf ch) PROF_JOG.v))) false false ≠ 1 → ∃ u : State, exec (.velocityMove ch) s = .next (u.ev (pProf ch) 1) ∧
      u.get (pProf ch) PROF_CRES.cres = s.profCode ch false none (s.firstMotion ch (fixRat 16 (s.get (pProf ch) PROF_JOG.v))) false false ∧ RegsOnly [pProf ch + 0x19] s u) ∧
  (∀ (s : State) ch q r, s.takes (pProf ch + 0x18) → ch < 96 → s.get (pProf ch) PAGE_CTL.en = 1 → (s.pr ch).pts = q :: r →
    s.profCode ch false none (s.firstMotion ch (q.p - (s.setpoint ch).1)) true false = 1 → ∃ t : State, exec (.stream ch) s = .next t ∧
      (t.pr ch).cmd = .stream ∧ (t.pr ch).pts = q :: r ∧ t.get (pProf ch) PROF_CRES.cres = 1 ∧ RegsOnly [pProf ch + 0x19] { s with prof := t.prof } t) ∧
  (∀ (s : State) ch, s.takes (pProf ch + 0x18) →
    ch < 96 → s.get (pProf ch) PAGE_CTL.en = 1 → (s.pr ch).pts = [] → s.homing ch = false → s.profHeld ch = false →
    s.limitBlocks ch (s.firstMotion ch 0) = false → ∃ u : State, exec (.stream ch) s = .next (u.ev (pProf ch) 1) ∧
      u.get (pProf ch) PROF_CRES.cres = 7 ∧ RegsOnly [pProf ch + 0x19] s u) ∧
  (∀ (s : State) ch, s.takes (pProf ch + 0x18) →
    ch < 96 → s.get (pProf ch) PAGE_CTL.en = 1 → s.homing ch = false → s.profHeld ch = false → s.homeBad ch = false →
    s.limitBlocks ch 0 = false → s.homeBlocked ch (s.firstMotion ch (s.homeStart ch).2) = false → ∃ t : State, exec (.home ch) s = .next t ∧
      (t.pr ch).cmd = .home ∧ t.get (pProf ch) PROF_CRES.cres = 1 ∧ RegsOnly [pProf ch + 0x19] { s with prof := t.prof } t) ∧
  (∀ (s : State) ch, s.takes (pProf ch + 0x18) →
    ch < 96 → s.get (pProf ch) PAGE_CTL.en = 1 → s.homing ch = false → s.profHeld ch = false → s.homeBad ch = true →
    s.limitBlocks ch 0 = false → ∃ u : State, exec (.home ch) s = .next (u.ev (pProf ch) 1) ∧
      u.get (pProf ch) PROF_CRES.cres = 8 ∧ RegsOnly [pProf ch + 0x19] s u) ∧
  (∀ (s : State) ch needRef target motion stream homeBad,
    (s.blocked.contains (pProf ch) = true → s.profCode ch needRef target motion stream homeBad = 6) ∧
    (s.blocked.contains (pProf ch) = false → s.homing ch = true → s.profCode ch needRef target motion stream homeBad = 2) ∧
    (s.blocked.contains (pProf ch) = false → s.homing ch = false → needRef = true → s.get (pProf ch) PROF_BLK.ref = 0 → s.get (pProf ch) PROF_CFG.noref = 0 →
      s.profCode ch needRef target motion stream homeBad = 3) ∧
    (∀ x, s.blocked.contains (pProf ch) = false → s.homing ch = false → needRef = false → target = some x → s.outsideWindow ch x = true →
      s.profCode ch needRef target motion stream homeBad = 4) ∧
    (s.blocked.contains (pProf ch) = false → s.homing ch = false → needRef = false → target = none → s.limitBlocks ch motion = true →
      s.profCode ch needRef target motion stream homeBad = 5) ∧
    (s.homing ch = false → needRef = false → target = none → s.limitBlocks ch motion = false → s.profHeld ch = true →
      s.profCode ch needRef target motion stream homeBad = 6)) ∧
  (∀ (s : State) ch, s.takes (pProf ch + 0x18) → s.takes (pProf ch + 0x35) →
    s.get (pProf ch) PAGE_CTL.en = 0 → exec (.absoluteMove ch) s = .next s ∧ exec (.relativeMove ch) s = .next s ∧
    exec (.velocityMove ch) s = .next s ∧ exec (.stream ch) s = .next s ∧ exec (.home ch) s = .next s ∧ exec (.abort ch) s = .next s ∧
    exec (.qstop ch) s = .next s ∧ exec (.positionLoad ch) s = .next s ∧ exec (.streamPush ch) s = .next s) ∧
  (∀ (s : State) ch, s.takes (pProf ch + 0x18) → ch < 96 → s.get (pProf ch) PAGE_CTL.en = 1 → (s.pr ch).doneAt = some s.now →
    exec (.abort ch) s = .next (s.put (pProf ch) PROF_CRES.abres 2)) ∧
  (∀ (s : State) ch, s.takes (pProf ch + 0x18) →
    ch < 96 → s.get (pProf ch) PAGE_CTL.en = 1 → (s.pr ch).doneAt ≠ some s.now → s.get (pProf ch) PROF_BLK.busy = 0 →
    (s.pr ch).cmd = .none → exec (.abort ch) s = .next (s.put (pProf ch) PROF_CRES.abres 3)) ∧
  (∀ (s : State) ch, s.takes (pProf ch + 0x18) →
    ch < 96 → s.get (pProf ch) PAGE_CTL.en = 1 → (s.pr ch).doneAt ≠ some s.now → s.get (pProf ch) PROF_BLK.busy = 1 →
    s.homing ch = false → (s.pr ch).goal ≠ .rest → ∃ u : State, exec (.abort ch) s = .next (u.ev (pProf ch) 2) ∧ (u.pr ch).goal = .stop ∧
      (u.pr ch).cmd = .none ∧ (u.pr ch).pts = [] ∧ (u.pr ch).plan = (s.pr ch).plan ∧ u.get (pProf ch) PROF_CRES.abres = 1 ∧
      u.get (pProf ch) PROF_BLK.strm = 0 ∧ u.get (pProf ch) PROF_SP_CTL.level = 0 ∧ u.get (pProf ch) PROF_BLK.busy = 1 ∧
      RegsOnly [pProf ch + 2, pProf ch + 0x19, pProf ch + 0x35] { s with prof := u.prof } u) ∧
  (∀ (s : State) ch, s.takes (pProf ch + 0x18) →
    ch < 96 → s.get (pProf ch) PAGE_CTL.en = 1 → s.homing ch = false → ∃ u : State, exec (.qstop ch) s = .next u ∧
      (u.pr ch).goal = .rest ∧ (u.pr ch).plan = [] ∧ u.get (pProf ch) PROF_BLK.busy = 0 ∧ u.get (pProf ch) PROF_BLK.strm = 0 ∧
      bitN (u.get (pProf ch) PAGE_EV.ev) 3 = true ∧
      (((s.pr ch).value s.ctSec).2.1 ≠ 0 → (s.get (pPwm ch) PWM_CFG.kind = 2 ∨ s.get (pPwm ch) PWM_CFG.kind = 3) →
        u.get (pProf ch) PROF_BLK.plost = 1 ∧ u.get (pProf ch) PROF_BLK.ref = 0)) ∧
  (∀ (s : State) ch, s.takes (pProf ch + 0x18) →
    ch < 96 → s.get (pProf ch) PAGE_CTL.en = 1 → s.homing ch = true → ∃ u : State, exec (.qstop ch) s = .next u ∧
      u.get (pProf ch) PROF_BLK.hstate = 6 ∧ u.get (pProf ch) PROF_HOME.hres = 6 ∧ u.get (pProf ch) PROF_BLK.plost = 1 ∧
      u.get (pProf ch) PROF_BLK.ref = 0) ∧
  (∀ (s : State) ch, s.takes (pProf ch + 0x18) →
    ch < 96 → s.get (pProf ch) PAGE_CTL.en = 1 → s.homing ch = false → s.profHeld ch = false → (s.setpoint ch).2.1 = 0 → ∃ t : State,
    exec (.positionLoad ch) s = .next t ∧ (t.pr ch).load = some (s.turnsAt (pProf ch) PROF_POS_SET_HI.p PROF_POS_SET_LO.p) ∧
      t.get (pProf ch) PROF_CRES.cres = 1 ∧ RegsOnly [pProf ch + 0x19] { s with prof := t.prof } t) ∧
  (∀ (s : State) ch, s.takes (pProf ch + 0x18) →
    ch < 96 → s.get (pProf ch) PAGE_CTL.en = 1 → (s.profHeld ch = true ∨ s.homing ch = true ∨ (s.setpoint ch).2.1 ≠ 0) →
    ∃ u : State, exec (.positionLoad ch) s = .next (u.ev (pProf ch) 1) ∧
      (s.blocked.contains (pProf ch) = true → u.get (pProf ch) PROF_CRES.cres = 6) ∧
      (s.blocked.contains (pProf ch) = false → s.homing ch = true → u.get (pProf ch) PROF_CRES.cres = 2) ∧
      (s.homing ch = false → s.profHeld ch = true → u.get (pProf ch) PROF_CRES.cres = 6) ∧
      (s.homing ch = false → s.profHeld ch = false → u.get (pProf ch) PROF_CRES.cres = 10) ∧
      RegsOnly [pProf ch + 0x19] s u) ∧
  (∀ (s : State) ch, s.takes (pProf ch + 0x35) →
    ch < 96 → s.get (pProf ch) PAGE_CTL.en = 1 → 8 ≤ (s.pr ch).pts.length → exec (.streamPush ch) s = .next (s.ev (pProf ch) 10)) ∧
  (∀ (s : State) ch, s.takes (pProf ch + 0x35) → ch < 96 → s.get (pProf ch) PAGE_CTL.en = 1 → (s.pr ch).pts = [] →
    t72 (s.get (pProf ch) PROF_SP_THI.t) (s.get (pProf ch) PROF_SP_TLO.t) < s.t64 4 + 128000 → exec (.streamPush ch) s = .next (s.ev (pProf ch) 10)) ∧
  (∀ (s : State) ch, s.takes (pProf ch + 0x35) → ch < 96 → s.get (pProf ch) PAGE_CTL.en = 1 → (s.pr ch).pts = [] →
    s.t64 4 + 128000 ≤ t72 (s.get (pProf ch) PROF_SP_THI.t) (s.get (pProf ch) PROF_SP_TLO.t) → s.get (pProf ch) PROF_ENV_CTL.ven = 0 →
    s.get (pProf ch) PROF_ENV_CTL.pwin = 0 → ∃ t : State, exec (.streamPush ch) s = .next t ∧
      (t.pr ch).pts = [StreamPt.mk (s.turnsAt (pProf ch) PROF_SP_HI.p PROF_SP_LO.p) (fixRat 16 (s.get (pProf ch) PROF_SP_VEL.v))
        (t72 (s.get (pProf ch) PROF_SP_THI.t) (s.get (pProf ch) PROF_SP_TLO.t))] ∧
      t.get (pProf ch) PROF_SP_CTL.level = 1 ∧ RegsOnly [pProf ch + 0x35] { s with prof := t.prof } t)

/-- The generator: update edges, taking commands and loads, streams, steps, inputs, limits and chatter. An update edge
comes at a whole microsecond of TB0 of an enabled page; idle, it samples the inputs and keeps the setpoint. A taken
move sets busy, clears ovs and names its target; a taken load shifts p, sets ref and clears plost, and is refused with
code 10 in motion; completion clears busy with event 0. A stream point leaves the queue on the edge of its time. A
stream past its hold ends with a stop and event 11. Steps fall due on the edges of their crossings within the
interval, one for each line crossed, and each waits with its direction. A due step rises only for kind 3 with no pad
block, after pw + minlo from the last rise and tsu from the change of direction, and falls after pw; the direction
turns for the next due step once th has passed since the last rise. A debounced change is shown in the status by its
role and polarity; one within chold of the last is chatter, event 7, held as active for a limit until chold has
passed. A limit stops motion toward it at once with event 6 when lact is 0, and fails a homing with code 2. Reads of
PROF_POS_HI and PROF_LAT_HI hold the rest for the core. Rules: R233, R240, R241, R246, R250, R254, R255, R256, R258,
R259, R260, R265. -/
def Obligations.MotionGenerator : Prop :=
  (∀ (s : State) ch a b, s.get (pProf ch) PAGE_CTL.en = 0 ∨ s.t64 0 % 64000 ≠ 0 → exec (.updateEdge ch a b) s = .next s) ∧
  (∀ (s : State) ch a b, s.clockOff (pProf ch) = false →
    ch < 96 → s.get (pProf ch) PAGE_CTL.en = 1 → s.t64 0 % 64000 = 0 → (s.pr ch).cmd = .none → (s.pr ch).load = none →
    (s.pr ch).goal = .rest → (s.pr ch).plan = [] → (s.pr ch).cross = [] → (s.pr ch).waits = [] → (s.pr ch).base = none → (s.pr ch).resDue = none →
    s.get (pPwm ch) PWM_CFG.kind = 1 → s.get (pProf ch) PROF_BLK.hstate = 0 →
    s.get (pProf ch) PROF_ENV_CTL.ven = 0 → s.get (pProf ch) PROF_ENV_CTL.aen = 0 → s.get (pProf ch) PROF_ENV_CTL.pwin = 0 →
    ∃ t : State, exec (.updateEdge ch a b) s = .next t ∧ (t.pr ch).inA = (s.pr ch).inA.sample a ∧ (t.pr ch).inB = (s.pr ch).inB.sample b ∧
      (t.pr ch).p = (s.pr ch).p ∧ (t.pr ch).goal = .rest ∧ t.get (pProf ch) PROF_BLK.res = s.get (pProf ch) PROF_STEP.mres ∧ RegsOnly [pProf ch + 2] { s with prof := t.prof } t) ∧
  (∀ (s : State) ch b, (s.pr ch).cmd = .move b → ∃ u : State, s.takeCmd ch = u ∧ (u.pr ch).goal = .move b ∧ (u.pr ch).cmd = .none ∧
    (u.pr ch).target = some (b + s.tgtWords ch) ∧ u.get (pProf ch) PROF_BLK.busy = 1 ∧ u.get (pProf ch) PROF_BLK.ovs = 0 ∧ (u.pr ch).pts = []) ∧
  (∀ (s : State) ch v, (s.pr ch).cmd = .jog v → ∃ u : State, s.takeCmd ch = u ∧ (u.pr ch).goal = .jog v ∧ (u.pr ch).cmd = .none ∧
    u.get (pProf ch) PROF_BLK.busy = 1) ∧
  (∀ (s : State) ch, (s.pr ch).cmd = .home → ∃ u : State, s.takeCmd ch = u ∧ (u.pr ch).goal = .jog (s.homeStart ch).2 ∧
    u.get (pProf ch) PROF_BLK.hstate = (s.homeStart ch).1 ∧ (u.pr ch).homeAt = (u.setpoint ch).1 ∧ (u.pr ch).homeRun = 0) ∧
  (∀ (s : State) ch x, (s.pr ch).load = some x → (s.setpoint ch).2.1 = 0 → (s.pr ch).goal ≠ .stream → ∃ u : State, s.takeLoad ch = u ∧ (u.pr ch).p = x ∧ (u.pr ch).plan = [] ∧
    (u.pr ch).shift = (s.pr ch).shift + (x - (s.setpoint ch).1) ∧ u.get (pProf ch) PROF_BLK.ref = 1 ∧ u.get (pProf ch) PROF_BLK.plost = 0) ∧
  (∀ (s : State) ch x, (s.pr ch).load = some x → (s.setpoint ch).2.1 ≠ 0 → s.takeLoad ch = (s.setPr ch { s.pr ch with load := none }).profRefuse ch 10) ∧
  (∀ (s : State) ch x, ∃ u : State, s.profDone ch x = u.ev (pProf ch) 0 ∧ u.get (pProf ch) PROF_BLK.busy = 0 ∧ (u.pr ch).p = x ∧
    (u.pr ch).plan = [] ∧ (u.pr ch).doneAt = some s.now) ∧
  (∀ (s : State) ch, (s.pr ch).last = none ∨ (s.pr ch).under = false → exec (.streamUnderrun ch) s = .next s) ∧
  (∀ (s : State) ch q, (s.pr ch).last = some q → s.t64 4 < q.t64 + 64000 * s.get (pProf ch) PROF_SP_CTL.hold → exec (.streamUnderrun ch) s = .next s) ∧
  (∀ (s : State) ch q, s.clockOff (pProf ch) = false →
    ch < 96 → (s.pr ch).last = some q → (s.pr ch).goal = .stream → (s.pr ch).under = true → (s.pr ch).pts = [] →
    q.t64 + 64000 * s.get (pProf ch) PROF_SP_CTL.hold ≤ s.t64 4 → ∃ u : State, exec (.streamUnderrun ch) s = .next ((u.evC (pProf ch) 11).planStop ch) ∧
      (u.pr ch).goal = .stop ∧ (u.pr ch).target = none ∧ (u.pr ch).pts = [] ∧ (u.pr ch).last = none ∧ u.get (pProf ch) PROF_BLK.strm = 0) ∧
  (∀ (s : State) ch, s.get (pPwm ch) PWM_CFG.kind ≠ 3 ∨ s.padBlocked ch = true ∨ (s.pw ch).padHold = true ∨ (s.pr ch).waits = [] ∨ (s.pr ch).stepHigh = true →
    exec (.stepEmit ch) s = .next s) ∧
  (∀ (s : State) ch up w, s.clockOff (pProf ch) = false →
    ch < 96 → s.get (pProf ch) PAGE_CTL.en = 1 → s.get (pPwm ch) PWM_CFG.kind = 3 → s.padBlocked ch = false →
    (s.pw ch).padHold = false → s.stepReady ch = true → (s.pr ch).waits = up :: w → (s.pr ch).goal = .rest → ∃ t : State, exec (.stepEmit ch) s = .next t ∧
      (t.pr ch).stepHigh = true ∧ (t.pr ch).riseAt = some s.now ∧ (t.pr ch).stepped = (s.pr ch).stepped + (if up then 1 else -1) ∧
      (t.pr ch).waits = w ∧ (t.pr ch).dirPos = up ∧ (t.pr ch).dirPos = (s.pr ch).dirPos ∧
      t.get (pProf ch) PROF_STEPLAG.lag = min 0xFFFF w.length) ∧
  (∀ (s : State) ch t0, (s.pr ch).riseAt = some t0 → s.now < t0 + 4 * (s.get (pProf ch) PROF_STEPT.pw + s.get (pProf ch) PROF_STEPT.minlo) →
    exec (.stepEmit ch) s = .next s) ∧
  (∀ (s : State) ch t0, (s.pr ch).dirAt = some t0 → s.now < t0 + 40 * s.get (pProf ch) PROF_STEPT.tsu → exec (.stepEmit ch) s = .next s) ∧
  (∀ (s : State) ch up w, (s.pr ch).waits = up :: w → (s.pr ch).dirPos ≠ up →
    s.padBlocked ch = false → (s.pw ch).padHold = false → (∀ t0, (s.pr ch).riseAt = some t0 → t0 + 40 * s.get (pProf ch) PROF_STEPT.th ≤ s.now) →
    s.stepTurn ch = s.setPr ch { s.pr ch with dirPos := !(s.pr ch).dirPos, dirAt := some s.now }) ∧
  (∀ (s : State) ch, (∀ up w, (s.pr ch).waits = up :: w → (s.pr ch).dirPos = up) → s.stepTurn ch = s) ∧
  (∀ (s : State) ch t0, (s.pr ch).riseAt = some t0 → s.now < t0 + 40 * s.get (pProf ch) PROF_STEPT.th → s.stepTurn ch = s) ∧
  (∀ (s : State) ch, (∀ e ∈ (s.pr ch).cross, s.now < e.1) → s.stepsDue ch = s) ∧
  (∀ (s : State) ch n d, ch < 96 → (s.pr ch).cross = [(n, d)] → n ≤ s.now → ∃ u : State, s.stepsDue ch = u.showLag ch ∧ (u.pr ch).waits = (s.pr ch).waits ++ [d] ∧
    (u.pr ch).cross = [] ∧ (u.pr ch).stepped = (s.pr ch).stepped ∧ u = { s with prof := u.prof }) ∧
  (∀ (now : Nat) (d : Int) (a b : Rat), (crossings now d a b).length = (b.floor - d).natAbs ∧
    ∀ e ∈ crossings now d a b, now ≤ e.1 ∧ e.1 ≤ now + 400 ∧ e.2 = decide (d < b.floor)) ∧
  (∀ (s : State) ch q, (s.pr ch).goal = .stream → (s.pr ch).under = false → (s.pr ch).pts = [q] → q.t64 ≤ s.t64 4 → q.v = 0 → ch < 96 →
    ((s.streamDrop ch).pr ch).goal = .finish ∧ ((s.streamDrop ch).pr ch).pts = [] ∧ ((s.streamDrop ch).pr ch).p = q.p ∧
    (s.streamDrop ch).get (pProf ch) PROF_SP_CTL.level = 0) ∧
  (∀ (s : State) ch q r, (s.pr ch).goal = .stream → (s.pr ch).under = false → (s.pr ch).pts = q :: r → r ≠ [] → q.t64 ≤ s.t64 4 → ch < 96 →
    ((s.streamDrop ch).pr ch).goal = .stream ∧ ((s.streamDrop ch).pr ch).pts = r ∧ ((s.streamDrop ch).pr ch).p = q.p ∧
    ((s.streamDrop ch).pr ch).last = some q) ∧
  (∀ (s : State) ch q r, (s.pr ch).pts = q :: r → s.t64 4 < q.t64 → s.streamDrop ch = s) ∧
  (∀ (s : State) ch t0, s.clockOff (pProf ch) = false →
    ch < 96 → (s.pr ch).stepHigh = true → (s.pr ch).riseAt = some t0 → t0 + 4 * s.get (pProf ch) PROF_STEPT.pw ≤ s.now →
    exec (.stepPulseFall ch) s = .next (s.setPr ch { s.pr ch with stepHigh := false })) ∧
  (∀ (s : State) ch t0, (s.pr ch).riseAt = some t0 → s.now < t0 + 4 * s.get (pProf ch) PROF_STEPT.pw → exec (.stepPulseFall ch) s = .next s) ∧
  (∀ (s : State) ch k lv, s.get (pProf ch) PAGE_CTL.en = 0 ∨ ((s.pr ch).inp k).level = lv ∨ ((s.pr ch).inp k).run < s.get (pProf ch) PROF_LIM.db →
    exec (.inputDebounced ch k lv) s = .next s) ∧
  (∀ (s : State) ch k lv, s.clockOff (pProf ch) = false → ch < 96 → k < 2 → s.get (pProf ch) PAGE_CTL.en = 1 → ((s.pr ch).inp k).level ≠ lv →
    s.get (pProf ch) PROF_LIM.db ≤ ((s.pr ch).inp k).run → ((s.pr ch).inp k).last = none → s.homing ch = false →
    ∃ u : State, exec (.inputDebounced ch k lv) s = .next (u.limitStop ch) ∧ ((u.pr ch).inp k).level = lv ∧ ((u.pr ch).inp k).run = 0 ∧
      ((u.pr ch).inp k).last = some (s.t64 0) ∧ u.flag (pProf ch) PROF_BLK.limp = u.roleActive ch 1 ∧
      u.flag (pProf ch) PROF_BLK.limn = u.roleActive ch 2 ∧ u.flag (pProf ch) PROF_BLK.home = u.roleActive ch 3 ∧
      RegsOnly [pProf ch + 2] { s with prof := u.prof } u) ∧
  (∀ (s : State) ch k lv t0, s.clockOff (pProf ch) = false → ch < 96 → k < 2 → s.get (pProf ch) PAGE_CTL.en = 1 → ((s.pr ch).inp k).level ≠ lv →
    s.get (pProf ch) PROF_LIM.db ≤ ((s.pr ch).inp k).run → ((s.pr ch).inp k).last = some t0 →
    s.t64 0 ≤ t0 + 64000 * s.get (pProf ch) PROF_LIM.chold → s.homing ch = false →
    ∃ u : State, exec (.inputDebounced ch k lv) s = .next ((u.evC (pProf ch) 7).limitStop ch) ∧ ((u.pr ch).inp k).level = lv ∧
      (((u.pr ch).inp k).chatter = true ↔ ((s.pr ch).inp k).chatter = true ∨ s.inRole ch k = 1 ∨ s.inRole ch k = 2)) ∧
  (∀ (s : State) ch, s.limitBlocks ch (s.setpoint ch).2.1 = false → s.limitStop ch = s) ∧
  (∀ (s : State) ch, s.limitBlocks ch (s.setpoint ch).2.1 = true → s.homing ch = false → s.get (pProf ch) PROF_CFG.lact = 0 →
    s.limitStop ch = (s.stopAtOnce ch 6 (fun u => u.fc (pProf ch))).ev (pProf ch) 6) ∧
  (∀ (s : State) ch, s.limitBlocks ch (s.setpoint ch).2.1 = true → s.homing ch = true →
    s.limitStop ch = (s.stopAtOnce ch 2 (fun u => u.fc (pProf ch))).ev (pProf ch) 6) ∧
  (∀ (s : State) ch k t0, s.clockOff (pProf ch) = false → ch < 96 → k < 2 → ((s.pr ch).inp k).chatter = true → ((s.pr ch).inp k).last = some t0 →
    t0 + 64000 * s.get (pProf ch) PROF_LIM.chold ≤ s.t64 0 → ∃ t : State, exec (.chatterHoldEnd ch k) s = .next t ∧
      ((t.pr ch).inp k).chatter = false ∧ t.flag (pProf ch) PROF_BLK.limp = t.roleActive ch 1 ∧ t.flag (pProf ch) PROF_BLK.limn = t.roleActive ch 2 ∧
      RegsOnly [pProf ch + 2] { s with prof := t.prof } t) ∧
  (∀ (s : State) ch k, ((s.pr ch).inp k).chatter = false → exec (.chatterHoldEnd ch k) s = .next s) ∧
  (∀ (s : State) c ch, s.takes (pProf ch + 0x1A) →
    c < 64 → ch < 96 → ∃ t : State, exec (.profPosRead c ch) s = .next t ∧ t.rdata = word (p72Hi (s.profPos ch)) ∧
    t.held? c 3 = some (pProf ch + 0x1A, [word (p72Lo (s.profPos ch))]) ∧ t.regs = s.regs) ∧
  (∀ (s : State) c ch, s.takes (pProf ch + 0x38) →
    c < 64 → ch < 96 → ∃ t : State, exec (.profLatRead c ch) s = .next t ∧ t.rdata = s.regW (pProf ch + 0x38) ∧
    t.held? c 4 = some (pProf ch + 0x38, [s.regW (pProf ch + 0x39), s.regW (pProf ch + 0x3A), s.regW (pProf ch + 0x3B), s.regW (pProf ch + 0x3C)]) ∧
    t.regs = s.regs)

/-- POST_ARRIVE and POST_ACCEPT: the order of posts, the queue, acceptance, refusal, and what the producer sees. Posts
arrive in order, and where more than four are offered in the order Prism, page, core and the lower number; a post
enters the queue of 64 with its time, its level and high-water mark kept, or is refused with code 3, or 4 in a reset.
The oldest post is accepted cancelled for a task cancelled in the cycle, refused with code 4 for a disabled task and 2
for 15 pending, or becomes a pending activation, a task in state 1 entering state 2. A refusal is counted in the task,
shown in INNK_REF_LAST, and records event 0, and event 1 for a full queue; the producer sees its code. Rules: R25,
R46, R310, R328, R329, R330, R348. -/
def Obligations.PostsAndAcceptance : Prop :=
  (∀ s : State, s.wire = [] → exec .postArrive s = .next s) ∧
  (∀ (s : State) q, s.nextPost = some q → q ∈ s.wire ∧ ∀ x ∈ s.wire, x.before q = false) ∧
  (∀ (s : State) x r, s.wire = x :: r → ∃ q, s.nextPost = some q) ∧
  (∀ a b : Post, a.before b = true ↔ a.at_ < b.at_ ∨ a.at_ = b.at_ ∧ (a.cls < b.cls ∨ a.cls = b.cls ∧ a.src < b.src)) ∧
  (∀ (s : State) q, s.nextPost = some q → pInnk0 ∈ s.srstBusy → ∃ u : State, exec .postArrive s = .next (u.refusePost q 4) ∧
    u = { s with wire := s.wire.erase q }) ∧
  (∀ (s : State) q, s.nextPost = some q → pInnk0 ∉ s.srstBusy → 64 ≤ s.innk.queue.length → exec .postArrive s
    = .next ({ s with wire := s.wire.erase q }.refusePost q 3)) ∧
  (∀ (s : State) q, s.nextPost = some q → pInnk0 ∉ s.srstBusy → s.innk.queue.length < 64 → ∃ t : State, exec .postArrive s = .next t ∧
    t.wire = s.wire.erase q ∧ t.innk.queue = s.innk.queue ++ [{ q with arrived := s.nowNs, epoch := s.get pTime0 TIME_CT_STAT.epoch }] ∧
    fldGet (t.viewWord (pInnk0 + 0x12)) INNK_PQ.level = s.innk.queue.length + 1 ∧ t.regs = s.regs) ∧
  (∀ s : State, s.innk.queue.length ≤ 64 → s.noteQueue.get pInnk0 INNK_PQ.hwm = max (s.get pInnk0 INNK_PQ.hwm) s.innk.queue.length ∧
    RegsOnly [pInnk0 + 0x12] s s.noteQueue) ∧
  (∀ s : State, s.innk.queue = [] → exec .postAccept s = .next s) ∧
  (∀ (s : State) q r, s.innk.queue = q :: r → q.task < 512 → q.task ∈ s.innk.cancelled → ∃ u : State,
    exec .postAccept s = .next (u.tellProducer q 1) ∧ u.innk.queue = r ∧
    u.get (pTsk q.task) TSK_CNT.cancelled = min 4095 (s.get (pTsk q.task) TSK_CNT.cancelled + 1) ∧
    u.get (pTsk q.task) TSK_STAT.pend = s.get (pTsk q.task) TSK_STAT.pend) ∧
  (∀ (s : State) q r, s.innk.queue = q :: r → q.task < 512 → q.task ∉ s.innk.cancelled → s.get (pTsk q.task) TSK_CFG.en = 0 → ∃ u : State,
    exec .postAccept s = .next (u.refusePost q 4) ∧ u.innk.queue = r ∧ u = { s with innk := u.innk }) ∧
  (∀ (s : State) q r, s.innk.queue = q :: r → q.task < 512 → q.task ∉ s.innk.cancelled → s.get (pTsk q.task) TSK_CFG.en = 1 →
    s.get (pTsk q.task) TSK_STAT.pend = 15 → ∃ u : State, exec .postAccept s = .next (u.refusePost q 2) ∧ u.innk.queue = r ∧
      u = { s with innk := u.innk }) ∧
  (∀ (s : State) q r, s.innk.queue = q :: r → q.task < 512 → q.task ∉ s.innk.cancelled → s.get (pTsk q.task) TSK_CFG.en = 1 →
    s.get (pTsk q.task) TSK_STAT.pend < 15 → ∃ u : State, exec .postAccept s = .next (u.tellProducer q 0) ∧ u.innk.queue = r ∧
      (u.ta q.task).posts = (s.ta q.task).posts ++ [q] ∧ u.get (pTsk q.task) TSK_STAT.pend = s.get (pTsk q.task) TSK_STAT.pend + 1 ∧
      u.tskState q.task = (if s.tskState q.task = 1 then 2 else s.tskState q.task)) ∧
  (∀ (s : State) q code, q.task < 512 → ∃ u v : State, s.refusePost q code = v.tellProducer q code ∧
    (v = (u.evC pInnk0 0).ev pInnk0 1 ∧ code = 3 ∨ v = u.evC pInnk0 0 ∧ code ≠ 3) ∧
    u.get pInnk0 INNK_REF_LAST.code = code % 16 ∧ u.get pInnk0 INNK_REF_LAST.task = q.task ∧ u.get pInnk0 INNK_REF_LAST.cls = q.cls % 4 ∧
    (code ≠ 3 → u.get (pTsk q.task) TSK_CNT.refused = min 4095 (s.get (pTsk q.task) TSK_CNT.refused + 1))) ∧
  (∀ (s : State) q code, (code < 2 → q.cls < 2 → s.tellProducer q code = s) ∧
    (2 ≤ code → q.cls = 0 → s.tellProducer q code = s.prismRefuse q.src 1 1) ∧
    (2 ≤ code → q.cls = 1 → s.tellProducer q code = s.put (pageAddr q.src) PAGE_STAT.post_refused 1) ∧
    (q.cls = 2 → q.tag ≠ 1 → s.tellProducer q code = s.setCo q.src { s.co q.src with postRes := some code }) ∧
    (2 ≤ code → q.cls = 2 → q.tag = 1 → s.tellProducer q code = (s.inc (pCore q.src) CORE_POSTREF.n).ev (pCore q.src) 4))

/-- DISPATCH_DECISION, ACTIVATION_START, RESUME, PREEMPTION and LOAD_WINDOW_END. Decisions take the listed tasks by level
and entry time, at most four in a cycle, and send a task to the lowest idle core of its affinity; none is taken while
the page is disabled; a listed task without a usable core records event 3 once. An activation clears the context, sets
PC to the entry, puts the activation word into G1, and steps pend and seq; a resume loads the saved context. A
preemption waits for outstanding accesses, a pending NMI and the NMI handler, saves the context words 8 to 63, moves
the task to state 4 with its entry time kept, and starts the preempting task. Load windows record the busy fraction of
every core with event 6. Rules: R274, R319, R326, R331, R333, R334, R335, R337, R339, R347, R349, R352. -/
def Obligations.DispatchAndActivation : Prop :=
  (∀ s v : State, v = overAll ((List.range 512).filter s.listed) s (fun t u => u.noteStuck t) →
    (s.get pInnk0 PAGE_CTL.en = 0 → exec .dispatchDecision s = .next v) ∧
    (s.get pInnk0 PAGE_CTL.en = 1 → exec .dispatchDecision s = .next (decide_ v v.readyOrder 4 []))) ∧
  (∀ (s : State) t c, s.readyOrder = [t] → s.affine t c = true → s.idle c = true → c < 64 →
    (∀ d < c, s.affine t d = false ∨ s.idle d = false) →
    decide_ s s.readyOrder 4 [] = s.setCo c { s.co c with assign := some t }) ∧
  (∀ (s : State) t, t ∈ s.readyOrder ↔ t < 512 ∧ s.listed t = true ∧ s.assigned t = false) ∧
  (∀ (s : State) (t u : Nat) (l : List Nat), s.insertTask t (u :: l) = (if s.ahead t u then t :: u :: l else u :: s.insertTask t l)) ∧
  (∀ (s : State) t u, s.ahead t u = true ↔ s.get (pTsk u) TSK_CFG.level < s.get (pTsk t) TSK_CFG.level ∨
    s.get (pTsk t) TSK_CFG.level = s.get (pTsk u) TSK_CFG.level ∧ (s.ta t).stamp < (s.ta u).stamp) ∧
  (∀ (s : State) c t, c < 64 → (s.co c).assign = some t → (s.co c).task = none → s.inNmi c = false → s.tskState t = 2 →
    exec (.activationStart c) s = .next (s.activate c t)) ∧
  (∀ (s : State) c t, c < 64 → (s.co c).assign = some t → (s.co c).task = none → s.inNmi c = false → s.tskState t = 4 →
    exec (.resume c) s = .next ((s.loadCtx c t).occupy c t) ∧ exec (.activationStart c) s = .next s) ∧
  (∀ (s : State) c, (s.co c).assign = none ∨ (s.co c).task ≠ none → exec (.activationStart c) s = .next s ∧ exec (.resume c) s = .next s) ∧
  (∀ (s : State) c t q r, c < 64 → t < 512 → (s.ta t).posts = q :: r → 1 ≤ s.get (pTsk t) TSK_STAT.pend → ∃ u : State, s.activate c t = u ∧
    (u.ta t).posts = r ∧ (u.ta t).first = some q ∧ u.get (pTsk t) TSK_STAT.pend = s.get (pTsk t) TSK_STAT.pend - 1 ∧
    u.get (pTsk t) TSK_STAT.seq = (s.get (pTsk t) TSK_STAT.seq + 1) % 2 ^ 16 ∧ u.tskState t = 3 ∧ u.get (pTsk t) TSK_STAT.ctxv = 0 ∧
    u.get (pTsk t) TSK_STAT.core = c ∧ (u.co c).task = some t ∧ (u.co c).assign = none ∧ u.pc c = s.get (pTsk t) TSK_CFG.entry ∧
    u.cr c (rG 1) = word (activationWord q (s.get (pTsk t) TSK_STAT.pend - 1) ((s.get (pTsk t) TSK_STAT.seq + 1) % 2 ^ 16)) ∧
    (∀ i, 2 ≤ i → i < 55 → u.cr c i = 0) ∧ u.get (pCore c) CORE_BLK.run = 1 ∧ u.get (pCore c) CORE_BLK.task = t) ∧
  (∀ (s : State) c t, c < 64 → t < 512 → ∃ u : State, (s.loadCtx c t).occupy c t = u ∧ u.tskState t = 3 ∧ (u.co c).task = some t ∧
    (∀ i < 43, u.cr c (1 + i) = s.regW (pTsk t + 8 + i)) ∧ (∀ k < 4, u.cr c (rAx k) = word (s.reg (pTsk t + 51) / 2 ^ (8 * k) % 256)) ∧
    (∀ i < 12, u.cr c (48 + i) = s.regW (pTsk t + 52 + i)) ∧ u.get pInnk0 INNK_DISP.n = (s.get pInnk0 INNK_DISP.n + 1) % 2 ^ 36) ∧
  (∀ (s : State) c t, c < 64 → t < 512 → ∃ u : State, s.saveCtx c t = u ∧ (∀ i < 43, u.regW (pTsk t + 8 + i) = s.cr c (1 + i)) ∧
    (∀ i < 12, u.regW (pTsk t + 52 + i) = s.cr c (48 + i)) ∧ u.get (pTsk t) TSK_STAT.ctxv = 1 ∧
    (∀ a, a ≠ pTsk t + 3 → (a < pTsk t + 8 ∨ pTsk t + 64 ≤ a) → u.regW a = s.regW a) ∧ u = { s with regs := u.regs }) ∧
  (∀ (s : State) c, (s.co c).task = none ∨ s.drained c = false ∨ s.inNmi c = true ∨ (s.co c).halted = true ∨
    (s.co c).preempt = none ∧ (s.co c).evict = false ∨ s.get (pCore c) CORE_NMI.pend = 1 → exec (.preemption c) s = .next s) ∧
  (∀ (s : State) c u, c < 64 → (s.co c).task = some u → u < 512 → s.drained c = true → s.inNmi c = false → (s.co c).drain = .none →
    (s.co c).halted = false → s.get (pCore c) CORE_NMI.pend ≠ 1 → (s.co c).preempt = none → (s.co c).evict = true → (s.co c).orphan = false → ∃ t : State,
      exec (.preemption c) s = .next t ∧ (t.co c).task = none ∧ (t.co c).evict = false ∧ t.tskState u = 4 ∧
      t.get (pTsk u) TSK_STAT.ctxv = 1 ∧ (∀ i < 43, t.regW (pTsk u + 8 + i) = s.cr c (1 + i)) ∧ (t.ta u) = (s.ta u) ∧
      t.get pInnk0 INNK_PREEMPT.n = (s.get pInnk0 INNK_PREEMPT.n + 1) % 2 ^ 36 ∧ t.get (pCore c) CORE_BLK.run = 0) ∧
  (∀ (s : State) c u w, c < 64 → (s.co c).task = some u → s.drained c = true → s.inNmi c = false → (s.co c).drain = .none →
    (s.co c).halted = false → s.get (pCore c) CORE_NMI.pend ≠ 1 → (s.co c).preempt = some w → ∃ v : State, exec (.preemption c) s = .next (v.startTask c w) ∧ (v.co c).task = none ∧
      (v.co c).preempt = none) ∧
  (∀ (s : State) t q, q.epoch ≠ s.get pTime0 TIME_CT_STAT.epoch → s.recordWait t q = s) ∧
  (∀ (s : State) c t q, (s.co c).task = some t → (s.ta t).first = some q → s.inNmi c = false → (s.co c).orphan = false →
    ∃ u : State, s.issued c = u.recordWait t q ∧ (u.ta t).first = none ∧ (∀ x, x ≠ t → u.ta x = s.ta x) ∧ u = { s with task := u.task }) ∧
  (∀ (s : State) c, ((s.co c).task = none ∨ s.inNmi c = true ∨ (s.co c).orphan = true ∨ ∃ t, (s.co c).task = some t ∧ (s.ta t).first = none) → s.issued c = s) ∧
  (∀ s : State, (s.get pInnk0 INNK_LOAD_CFG.en = 0 ∨ s.windowEnds s.loadLen s.innk.winStart = false) → exec .loadWindowEnd s = .next s) ∧
  (∀ s : State, s.get pInnk0 INNK_LOAD_CFG.en = 1 → s.windowEnds s.loadLen s.innk.winStart = true → ∃ u : State,
    exec .loadWindowEnd s = .next (u.ev pInnk0 6) ∧ u.innk.winStart = s.t64 0 ∧ (∀ c < 64, (u.co c).busy = 0 ∧
      u.get pInnk2 (INNK_LOAD.last c) = ((s.co c).busy * 2 ^ 16 / ((s.t64 0 - s.innk.winStart) / 160)) % 2 ^ 17)) ∧
  (∀ (s : State) t, (s.ta t).stuck = false → (∀ c < 64, s.affine t c = true → s.usable c = false) → ∃ u : State, s.noteStuck t = u ∧
    (u.ta t).stuck = true ∧ bitN (u.get pInnk0 PAGE_EV.ev) 3 = true)

/-- The commands of the Innkeeper, the writes of the task table, and its reset. CANCEL removes the pending activations of
an enabled task, counts them and moves a ready task to state 1; CLEAR discards a faulted activation, RESUME_COMMAND
lists it again with a new entry time, CLEAR_STATISTICS zeroes its four words; each is refused in another state with
result 2 and event 4, changing nothing else. A TSK_CFG write with en = 1 takes state 0 to state 1, one with en = 0
cancels and disables. TSK_AFF takes its mask, and a context word is written in states 0 and 5 only, else event 5. An
srst returns the task table, lists, queue and the words of the three pages to reset, begins a load window, answers
queued posts with code 4, and leaves the running activations without a record. Rules: R323, R327, R343, R344, R345,
R350. -/
def Obligations.InnkeeperCommands : Prop :=
  (∀ (s : State) t, s.takes (pInnk0 + 0x10) →
    t < 512 → (s.tskState t = 0 ∨ 5 < s.tskState t) → ∃ u : State, exec (.cancel t) s = .next (u.ev pInnk0 4) ∧
    u.get pInnk0 INNK_CMD_ST.res = 2 ∧ u.get pInnk0 INNK_CMD_ST.task = t ∧ RegsOnly [pInnk0 + 0x10, pInnk0 + 0x11] s u) ∧
  (∀ (s : State) t, s.takes (pInnk0 + 0x10) →
    t < 512 → 1 ≤ s.tskState t → s.tskState t ≤ 5 → ∃ u : State, exec (.cancel t) s = .next u ∧ u.get (pTsk t) TSK_STAT.pend = 0 ∧
    (u.ta t).posts = [] ∧ u.tskState t = (if s.tskState t = 2 then 1 else s.tskState t) ∧
    u.get (pTsk t) TSK_CNT.cancelled = min 4095 (s.get (pTsk t) TSK_CNT.cancelled + s.get (pTsk t) TSK_STAT.pend) ∧
    u.get pInnk0 INNK_CMD_ST.res = 1 ∧ u.get pInnk0 INNK_CMD_ST.removed = s.get (pTsk t) TSK_STAT.pend ∧
    u.get pInnk0 INNK_CMD_ST.task = t ∧ (s.get (pTsk t) TSK_CFG.en = 1 → t ∈ u.innk.cancelled) ∧
    (∀ a, a ∉ [pInnk0 + 0x10, pInnk0 + 0x11, pTsk t + 3, pTsk t + 4] → u.regW a = s.regW a)) ∧
  (∀ (s : State) t, s.takes (pInnk0 + 0x10) → t < 512 → s.tskState t ≠ 5 → ∃ u : State, exec (.clear t) s = .next (u.ev pInnk0 4) ∧
    u.get pInnk0 INNK_CMD_ST.res = 2 ∧ u.tskState t = s.tskState t ∧ RegsOnly [pInnk0 + 0x10, pInnk0 + 0x11] s u) ∧
  (∀ (s : State) t, s.takes (pInnk0 + 0x10) →
    t < 512 → s.tskState t = 5 → ∃ u : State, exec (.clear t) s = .next u ∧ u.get pInnk0 INNK_CMD_ST.res = 1 ∧
    u.get (pTsk t) TSK_STAT.ctxv = 0 ∧ u.tskState t = (if 1 ≤ s.get (pTsk t) TSK_STAT.pend then 2 else 1) ∧
    u.get (pTsk t) TSK_STAT.pend = s.get (pTsk t) TSK_STAT.pend) ∧
  (∀ (s : State) t, s.takes (pInnk0 + 0x10) → t < 512 → s.tskState t ≠ 5 ∨ s.get (pTsk t) TSK_STAT.ctxv = 0 → ∃ u : State,
    exec (.resumeCommand t) s = .next (u.ev pInnk0 4) ∧ u.get pInnk0 INNK_CMD_ST.res = 2 ∧ RegsOnly [pInnk0 + 0x10, pInnk0 + 0x11] s u) ∧
  (∀ (s : State) t, s.takes (pInnk0 + 0x10) →
    t < 512 → s.tskState t = 5 → s.get (pTsk t) TSK_STAT.ctxv = 1 → ∃ u : State, exec (.resumeCommand t) s = .next u ∧
    u.tskState t = 4 ∧ u.get (pTsk t) TSK_STAT.ctxv = 1 ∧ (u.ta t).stamp = s.innk.clock ∧ u.innk.clock = s.innk.clock + 1 ∧
    u.get pInnk0 INNK_CMD_ST.res = 1) ∧
  (∀ (s : State) t, s.takes (pInnk0 + 0x10) →
    t < 512 → s.tskState t ≤ 5 → ∃ u : State, exec (.clearStatistics t) s = .next u ∧ u.reg (pTsk t + 4) = 0 ∧
    u.reg (pTsk t + 5) = 0 ∧ u.reg (pTsk t + 6) = 0 ∧ u.reg (pTsk t + 7) = 0 ∧ u.get pInnk0 INNK_CMD_ST.res = 1 ∧
    RegsOnly [pInnk0 + 0x10, pInnk0 + 0x11, pTsk t + 4, pTsk t + 5, pTsk t + 6, pTsk t + 7] s u) ∧
  (∀ (s : State) t (v : Word), s.takes (pTsk t) → t < 512 → fldGet v.toNat TSK_CFG.en = 1 → s.tskState t ≠ 2 → s.tskState t ≠ 4 → ∃ u : State,
    exec (.tskCfgWrite t v) s = .next u ∧ u.get (pTsk t) TSK_CFG.en = 1 ∧ u.get (pTsk t) TSK_CFG.level = fldGet v.toNat TSK_CFG.level ∧
    u.get (pTsk t) TSK_CFG.entry = fldGet v.toNat TSK_CFG.entry ∧ u.tskState t = (if s.tskState t = 0 then 1 else s.tskState t) ∧
    RegsOnly [pTsk t, pTsk t + 3] s u) ∧
  (∀ (s : State) t (v : Word), s.takes (pTsk t) → t < 512 → fldGet v.toNat TSK_CFG.en = 1 → s.tskState t = 2 ∨ s.tskState t = 4 → ∃ u : State,
    exec (.tskCfgWrite t v) s = .next u ∧ u.get (pTsk t) TSK_CFG.en = 1 ∧ u.get (pTsk t) TSK_CFG.level = fldGet v.toNat TSK_CFG.level ∧
    u.get (pTsk t) TSK_CFG.entry = fldGet v.toNat TSK_CFG.entry ∧ u.tskState t = s.tskState t ∧ u.task = s.task) ∧
  (∀ (s : State) t (v : Word), s.takes (pTsk t) → t < 512 → fldGet v.toNat TSK_CFG.en = 0 → s.tskState t = 4 → ∃ u : State,
    exec (.tskCfgWrite t v) s = .next (u.noteLevel (fldGet v.toNat TSK_CFG.level)) ∧ u.get (pTsk t) TSK_CFG.en = 0 ∧
    u.get (pTsk t) TSK_CFG.level = fldGet v.toNat TSK_CFG.level ∧ u.get (pTsk t) TSK_STAT.pend = 0 ∧ u.tskState t = 4 ∧
    RegsOnly [pTsk t, pTsk t + 3, pTsk t + 4] { s with task := u.task, innk := u.innk } u) ∧
  (∀ (s : State) t (v : Word), s.takes (pTsk t) →
    t < 512 → fldGet v.toNat TSK_CFG.en = 0 → s.tskState t ≠ 4 → ∃ u : State, exec (.tskCfgWrite t v) s = .next u ∧
    u.get (pTsk t) TSK_CFG.en = 0 ∧ u.get (pTsk t) TSK_CFG.level = fldGet v.toNat TSK_CFG.level ∧
    u.get (pTsk t) TSK_CFG.entry = fldGet v.toNat TSK_CFG.entry ∧ (s.tskState t ≠ 0 → u.get (pTsk t) TSK_STAT.pend = 0) ∧
    u.tskState t = (if s.tskState t = 1 ∨ s.tskState t = 2 ∨ s.tskState t = 5 then 0 else s.tskState t) ∧
    RegsOnly [pTsk t, pTsk t + 3, pTsk t + 4] { s with task := u.task, innk := u.innk, core := u.core } u) ∧
  (∀ (s : State) t (v : Word), s.takes (pTsk t + 1) → s.takes (pTsk t + 2) → t < 512 → (∃ u : State, exec (.tskAffWrite t false v) s = .next u ∧
      u.get (pTsk t) TSK_AFF0.mask = v.toNat % 2 ^ 32 ∧ RegsOnly [pTsk t + 1] s u) ∧
    (∃ u : State, exec (.tskAffWrite t true v) s = .next u ∧ u.get (pTsk t) TSK_AFF1.mask = v.toNat % 2 ^ 32 ∧ RegsOnly [pTsk t + 2] s u)) ∧
  (∀ (s : State) t w (v : Word), s.takes (pTsk t + w) → t < 512 → 8 ≤ w → w < 64 → s.tskState t = 0 ∨ s.tskState t = 5 → ∃ u : State,
    exec (.contextWrite t w v) s = .next u ∧ u.reg (pTsk t + w) = ctxValue w v.toNat ∧
    (w < 39 ∨ 43 ≤ w ∧ w < 51 ∨ 52 ≤ w ∧ w < 56 → u.regW (pTsk t + w) = v) ∧ (w = 59 → u.reg (pTsk t + w) = v.toNat % 2 ^ 14) ∧
    (w = 56 → bitN (u.reg (pTsk t + w)) 29 = false) ∧ RegsOnly [pTsk t + w] s u) ∧
  (∀ (s : State) t w (v : Word), s.takes (pTsk t + w) → t < 512 → 8 ≤ w → w < 64 → s.tskState t ≠ 0 → s.tskState t ≠ 5 →
    exec (.contextWrite t w v) s = .next (s.ev pInnk0 5)) ∧
  (∀ s : State, s.innk.queue = [] → ∃ u : State, exec .innkSrst s = .next u ∧ (∀ t < 512, ∀ w < 64, u.regW (pTsk t + w) = resetWord (pTsk t + w)) ∧
    (∀ k, 0x10 ≤ k → k < 0x100 → u.regW (pInnk0 + k) = resetWord (pInnk0 + k) ∧ u.regW (pInnk1 + k) = resetWord (pInnk1 + k) ∧
      u.regW (pInnk2 + k) = resetWord (pInnk2 + k)) ∧ u.innk.winStart = s.t64 0 - s.windowTime % 65536000 ∧ (∀ c < 64, (u.co c).busy = 0) ∧ u.task = [] ∧ u.innk.queue = [] ∧ u.innk.cancelled = [] ∧
    pInnk0 ∈ u.srstBusy ∧ (∀ c < 64, (u.co c).assign = none ∧ (u.co c).preempt = none ∧ (u.co c).task = (s.co c).task ∧
      (u.co c).orphan = (s.co c).task.isSome) ∧ u.crs = s.crs) ∧
  (∀ (s : State) q, s.innk.queue = [q] → q.cls = 1 → q.src = 0x500 → ∃ u : State, exec .innkSrst s = .next u ∧
    u.get (pMem 0) PAGE_STAT.post_refused = 1 ∧ u.innk.queue = [])

/-- The ring: links, link blocks, breaks and restores, cycle starts, cold start, and the states of the node. A link that
comes up starts with 128 credits and event 0, and takes a sealed enabled node out of state 0; a spoke lost is counted
with event 1. A link block carries the owed credits and one notice of each kind; a received one gives back credits up
to 128 and names the neighbour. A declared break sets broken and wrap, counts, and goes out as a notice once; a
restore clears broken, sends restore notices on both ports and suppresses the bases whose path changes back. The time
master is the node that the schedule names, else the cold-start node. A cycle start is taken once per cycle; state 2
becomes 4 with event 1 after its startup frames, 3 becomes 4 with Sync, 4 falls to 3 in silence with a counted re-
integration. A candidate that hears nothing for tl cycles starts the ring. Rules: R354, R371, R372, R373, R375, R376,
R378, R379, R380, R382, R390. -/
def Obligations.RingLinksAndStates : Prop :=
  (∀ (s : State) u, s.flag (pRing u) RING_P_STAT.up = true → exec (.ringLinkUp u) s = .next s) ∧
  (∀ (s : State) u, u < 10 → s.flag (pRing u) RING_P_STAT.up = false → ∃ v : State, exec (.ringLinkUp u) s = .next v.ringWake ∧
    v.get (pRing u) RING_P_STAT.up = 1 ∧ v.get (pRing u) RING_P_CRED.cred = 128 ∧ Tab.rd v.ring.used u = 0 ∧ Tab.rd v.ring.owed u = 0 ∧
    bitN (v.get (pRing u) PAGE_EV.ev) 0 = true) ∧
  (∀ s : State, s.rState ≠ 0 → s.ringWake = s) ∧
  (∀ s : State, s.rState = 0 → s.olSealed = true → s.flag pRing0 PAGE_CTL.en = true →
    (s.flag (pRing 0) RING_P_STAT.up = true ∨ s.flag (pRing 1) RING_P_STAT.up = true) → ∃ v : State, s.ringWake = v.ev pRing0 0 ∧
      v.rState = 1 ∧ v.ring.heard = s.t64 0 ∧ RegsOnly [pRing0 + 0x16] { s with ring := v.ring } v) ∧
  (∀ (s : State) u, (u < 2 ∨ 10 ≤ u ∨ s.flag (pRing u) RING_P_STAT.up = false) → exec (.ringLinkLost u) s = .next s) ∧
  (∀ (s : State) u, 2 ≤ u → u < 10 → s.flag (pRing u) RING_P_STAT.up = true → ∃ v : State, exec (.ringLinkLost u) s = .next (v.evC (pRing u) 1) ∧
    v.get (pRing u) RING_P_STAT.up = 0 ∧ v.get (pRing u) RING_P_DOWN.n = min (2 ^ 36 - 1) (s.get (pRing u) RING_P_DOWN.n + 1) ∧
    RegsOnly [pRing u + 0x10, pRing u + 0x16] s v) ∧
  (∀ (s : State) u, (s.flag (pRing u) RING_P_STAT.up = false ∨ s.rState = 0) → exec (.linkBlock u) s = .next s ∧
    (∀ b, exec (.linkBlockReceive u b) s = .next s) ∧ (∀ f, exec (.ringFrameReceive u f) s = .next s)) ∧
  (∀ (s : State) u, (s.flag pClk CLK_DOM_FIX.pdead = true ∨ s.linkFrameFits u = false) → exec (.linkBlock u) s = .next s) ∧
  (∀ (s : State) u, 2 ≤ u → (s.linkFrameFits u = true ↔ ∀ o ∈ s.slotStarts u, 14336 ≤ (o + s.cycLen - s.t64 4 % s.cycLen) % s.cycLen)) ∧
  (∀ (s : State) u, s.clockOff pRing0 = false →
    u < 10 → s.flag (pRing u) RING_P_STAT.up = true → s.rState ≠ 0 → s.flag pClk CLK_DOM_FIX.pdead = false →
    s.linkFrameFits u = true → ∃ t : State, exec (.linkBlock u) s = .next t ∧
    Tab.rd t.ring.blk u = some { credits := Tab.rd s.ring.owed u, rxFail := s.ring.rxFail.contains u, brk := (Tab.rd s.ring.notices u).head?, restore := (Tab.rd s.ring.restNotes u).head?, nbr := s.rAddr } ∧
    Tab.rd t.ring.owed u = 0 ∧ Tab.rd t.ring.notices u = (Tab.rd s.ring.notices u).tail ∧
    Tab.rd t.ring.restNotes u = (Tab.rd s.ring.restNotes u).tail ∧ t = { s with ring := t.ring }) ∧
  (∀ (s : State) u b, s.clockOff pRing0 = false →
    2 ≤ u → u < 10 → s.flag (pRing u) RING_P_STAT.up = true → s.rState ≠ 0 → exec (.linkBlockReceive u b) s
    = .next ({ s with ring := { s.ring with rxFail := s.ring.rxFail.filter (fun x => x != u) } }.put (pRing u) RING_P_CRED.cred
      (satN 128 (s.get (pRing u) RING_P_CRED.cred + b.credits)))) ∧
  (∀ (s : State) u b, s.clockOff pRing0 = false →
    u < 2 → s.flag (pRing u) RING_P_STAT.up = true → s.rState ≠ 0 → b.rxFail = false → b.brk = none → b.restore = none →
    ∃ t : State, exec (.linkBlockReceive u b) s = .next t ∧ t.get (pRing u) RING_P_STAT.nbr = b.nbr % 2 ^ 11 ∧
      t.get (pRing u) RING_P_CRED.cred = min 128 (s.get (pRing u) RING_P_CRED.cred + b.credits) ∧
      u ∉ t.ring.rxFail ∧ RegsOnly [pRing u + 0x10, pRing u + 0x15] { s with ring := { s.ring with rxFail := t.ring.rxFail } } t) ∧
  (∀ (s : State) u, (2 ≤ u ∨ s.flag (pRing u) RING_P_STAT.broken = true ∧ u ∈ s.ring.rxFail) → exec (.breakDeclare u) s = .next s) ∧
  (∀ (s : State) u, s.clockOff pRing0 = false → u < 2 → s.flag (pRing u) RING_P_STAT.broken = true → u ∉ s.ring.rxFail →
    exec (.breakDeclare u) s = .next { s with ring := { s.ring with rxFail := u :: s.ring.rxFail } }) ∧
  (∀ (s : State) u, s.clockOff pRing0 = false → u < 2 → s.flag (pRing u) RING_P_STAT.broken = false → ∃ v : State, exec (.breakDeclare u) s
      = .next ((v.evC (pRing u) 1).learnBreak (if u = 0 then s.rAddr / 32 else (s.rAddr / 32 + s.nstar - 1) % s.nstar) s.cycNow [1 - u]) ∧ u ∈ v.ring.rxFail ∧
    v.get (pRing u) RING_P_STAT.broken = 1 ∧ v.get (pRing u) RING_P_STAT.wrap = 1 ∧ v.get pRing0 RING_STAT.wrapped = 1 ∧
    v.get (pRing u) RING_P_DOWN.n = min (2 ^ 36 - 1) (s.get (pRing u) RING_P_DOWN.n + 1) ∧
    RegsOnly [pRing u + 0x10, pRing u + 0x16, pRing0 + 0x16] { s with ring := { s.ring with rxFail := v.ring.rxFail } } v) ∧
  (∀ (s : State) h d ports, (h, d) ∈ s.ring.breaks → s.learnBreak h d ports = s) ∧
  (∀ (s : State) h d u, (h, d) ∉ s.ring.breaks → ∃ v : State, s.learnBreak h d [u] = v.suspend_ h ∧ v.ring.breaks = s.ring.breaks ++ [(h, d)] ∧
    Tab.rd v.ring.notices u = Tab.rd s.ring.notices u ++ [(h, d)] ∧ v = { s with ring := v.ring }) ∧
  (∀ (s : State) u, (2 ≤ u ∨ s.flag (pRing u) RING_P_STAT.broken = false) → exec (.hopRestore u) s = .next s) ∧
  (∀ (s : State) u, s.clockOff pRing0 = false → u < 2 → s.flag (pRing u) RING_P_STAT.broken = true → (0, s.cycNow) ∉ s.ring.restores → ∃ t : State,
    exec (.hopRestore u) s = .next (overAll s.ring.inForce t (fun h v => v.suspend_ h)) ∧ t.get (pRing u) RING_P_STAT.broken = 0 ∧ u ∉ t.ring.rxFail ∧ t.ring.restores = s.ring.restores ++ [(0, s.cycNow)] ∧
    (∀ k < 2, Tab.rd t.ring.restNotes k = Tab.rd s.ring.restNotes k ++ [s.cycNow]) ∧ RegsOnly [pRing u + 0x10] { s with ring := t.ring } t) ∧
  (∀ s : State, (s.rState = 0 ∨ s.ring.cycle = some s.cycNow) → exec .cycleStart s = .next s) ∧
  (∀ s : State, s.clockOff pRing0 = false → s.rState = 4 → s.ring.cycle ≠ some s.cycNow → s.ring.breaks = [] → s.ring.restores = [] →
    s.silent = false → s.get pTime0 TIME_CT_STAT.state ≠ 3 → s.slotTable = [] →
    ∃ t : State, exec .cycleStart s = .next t ∧ t.ring.cycle = some s.cycNow ∧ t.rState = 4 ∧ t.ring.bad = [] ∧ t.ring.txHold = [] ∧
      t.regs = s.regs) ∧
  (∀ s : State, s.rState = 2 → 4 ≤ s.ring.starts → s.nameLock s.rAddr s.ownSerial = true → ∃ v : State, s.cycleState = v.ev pRing0 1 ∧
    v.rState = 4 ∧ v.ring.starts = 0) ∧
  (∀ s : State, (s.timeMaster = true ↔ s.ring.known = true ∧ s.masterAddr = s.rAddr ∧ 3 ≤ s.rState ∧ s.rState ≤ 4) ∧
    fldGet (s.viewWord (pRing0 + 0x16)) RING_STAT.tm = b2n s.timeMaster ∧ (s.slotTable = [] → s.masterAddr = s.get pRing0 RING_STAT.csaddr)) ∧
  (∀ s : State, s.rState = 3 → (s.syncOk = true → s.cycleState = s.rGo 4) ∧ (s.syncOk = false → s.cycleState = s)) ∧
  (∀ s : State, s.rState = 4 → (s.silent = true → s.cycleState = s.rGo 3) ∧ (s.silent = false → s.cycleState = s)) ∧
  (∀ s : State, s.rState = 4 → ∃ v : State, s.rGo 3 = v.evC pRing0 3 ∧ v.rState = 3 ∧
    v.get pRing0 RING_REINT.n = min (2 ^ 36 - 1) (s.get pRing0 RING_REINT.n + 1)) ∧
  (∀ s : State, (s.rState ≠ 1 ∨ s.flag pTime0 TIME_CT_STAT.valid = false ∨ s.ownIndex = none ∨
    s.t64 0 < s.ring.heard + s.get pRing0 RING_START.tl * s.cycLen) → exec .coldStartTimeout s = .next s) ∧
  (∀ (s : State) i, s.clockOff pRing0 = false → s.rState = 1 → s.ownIndex = some i → s.get (pNames + 64 * i) (NAME_HI.cand 0) = 1 →
    s.flag pTime0 TIME_CT_STAT.valid = true → s.ring.heard + s.get pRing0 RING_START.tl * s.cycLen ≤ s.t64 0 → i < 64 → ∃ t : State,
    exec .coldStartTimeout s = .next t ∧ t.rState = 2 ∧ t.ring.known = true ∧ t.rAddr = 32 * i ∧ t.get pRing0 RING_STAT.csaddr = 32 * i ∧ t.ring.starts = 0)

/-- The ring: frames received, guarded, taken, wrapped and sent, held frames, and cycle points. A frame past its hop limit
is dropped with reason 7, one whose header R364 does not give with reason 4 (log entry 74), one without an entry with
reason 4; the guardian accepts exactly a frame of the right cycle, window, owner, kind and duration, and drops another
with its reason; a drop is counted, shown and recorded. A second copy of a taken dup frame is discarded and a repeat
is not taken again; an accepted TT frame goes into the half of its buffer that sel does not name, sel flips and seq
steps. At a broken hop a wrap frame leaves by the other backbone port with the wrap flag set, and any other is
removed. An own frame goes out at its slot start in state 4; a held frame at its ftime with its residence in the
transit. An enabled cycle point posts its task in states 3 and 4, but not within 1 us of a jump. Rules: R360, R363,
R364, R365, R367, R368, R369, R370, R373, R377, R379, R41. -/
def Obligations.RingFrames : Prop :=
  (∀ (s : State) u f, 10 ≤ u → exec (.ringFrameReceive u f) s = .next s) ∧
  (∀ (s : State) u f, s.clockOff pRing0 = false → u < 10 → s.flag (pRing u) RING_P_STAT.up = true → s.rState ≠ 0 → f.fcsOk = true →
    exec (.ringFrameReceive u f) s = .next ((s.hear f).frameIn u { f with hop := f.hop + 1, stamp := s.ingress u f.stamp })) ∧
  (∀ (s : State) f, s.hear f = (if f.typ = 1 ∨ f.typ = 4 then { s with ring := { s.ring with heard := s.t64 0 } } else s)) ∧
  (∀ (s : State) u f, f.headerOk = false → f.hop < 200 → f.typ ≠ 3 → s.frameIn u f =
    s.rDrop u 4 (if f.typ ≤ 2 then s.slotEntry f u else none) (if f.typ ≤ 2 then f.slot else 0)) ∧
  (∀ (f : RingFrame), f.headerOk = true ↔ f.ver = 1 ∧ f.payload.length ≤ maxPayload f.typ) ∧
  (∀ (f : RingFrame), f.header.length = 16 ∧ f.wire.length = f.payload.length + 20) ∧
  (∀ (s : State) u e f, f.typ = 3 → 200 ≤ f.hop → s.frameIn u f = (s.rDrop u 7 none 0).creditBack u ((f.payload.length + 20 + 63) / 64) ∧
    s.rDiscard u 5 e f = (s.rDrop u 5 e 0).creditBack u ((f.payload.length + 20 + 63) / 64)) ∧
  (∀ (s : State) u f, s.clockOff pRing0 = false →
    u < 10 → s.flag (pRing u) RING_P_STAT.up = true → s.rState ≠ 0 → f.fcsOk = true → 199 ≤ f.hop → f.typ ≠ 3 →
    ∃ v : State, exec (.ringFrameReceive u f) s = .next (v.evC (pRing u) 2) ∧ v.get (pRing u) RING_P_DLAST.reason = 7 ∧
      v.get (pRing u) RING_P_DROP.n = min (2 ^ 36 - 1) (s.get (pRing u) RING_P_DROP.n + 1)) ∧
  (∀ (s : State) u f, f.headerOk = true → f.hop < 200 → f.typ ≤ 2 →
    s.leafBad u f.src = false → s.timeGood = true → s.slotEntry f u = none → s.frameIn u f = s.rDrop u 4 none f.slot) ∧
  (∀ (s : State) u f e, f.headerOk = true → f.hop < 200 → f.typ ≤ 2 →
    s.leafBad u f.src = false → s.timeGood = true → s.slotEntry f u = some e → (s.guard u e f = 0 → s.frameIn u f = s.slotAccept u e f) ∧
    (s.guard u e f = 3 → s.frameIn u f = s.cutOff u e f) ∧
    (s.guard u e f ≠ 0 → s.guard u e f ≠ 3 → s.frameIn u f = s.rDrop u (s.guard u e f) (some e) f.slot)) ∧
  (∀ (s : State) u f, f.headerOk = true → f.hop < 200 → f.typ ≤ 2 → s.leafBad u f.src = false → s.timeGood = false →
    s.frameIn u f = s.slotLoose u f) ∧
  (∀ (s : State) u stamp, s.ingress u stamp = ((stamp : Int) - s.getI (pTsu u) TIME_TSU_ING_ADJ.adj).toNat) ∧
  (∀ (s : State) u f, s.namePresent f.src = true → f.typ ≠ 1 → s.returns f = true → s.slotLoose u f = s.inc (pRing u) RING_P_RXF.n) ∧
  (∀ (s : State) u f, u < 2 → s.namePresent f.src = true → f.typ ≠ 1 → s.returns f = false → s.slotEntry f u = none →
    s.slotLoose u f = (s.inc (pRing u) RING_P_RXF.n).passOn u f) ∧
  (∀ (s : State) u f, 2 ≤ u → f.payload.getD 8 0 = 0 ∨ s.chainLen (u - 2) < f.payload.getD 8 0 → s.identityFrame u f = s.rDrop u 7 none 0) ∧
  (∀ (s : State) u f, 2 ≤ u → 1 ≤ f.payload.getD 8 0 → f.payload.getD 8 0 ≤ s.chainLen (u - 2) → s.ring.known = false →
    ∃ v : State, s.identityFrame u f = v ∧ (f.payload.getD 8 0, beNum (f.payload.take 8)) ∈ Tab.rd v.ring.leaves u ∧
      v.get (pRing u) RING_P_STAT.found = (Tab.rd v.ring.leaves u).length % 16 ∧ RegsOnly [pRing u + 0x10] { s with ring := v.ring } v) ∧
  (∀ (s : State) u f, s.namePresent f.src = false → s.slotLoose u f = s.rDrop u 4 (s.slotEntry f u) f.slot) ∧
  (∀ (s : State) u e f c, s.cycOf f.cyc = some c →
    (s.guard u e f = 0 ↔ (s.tExp e c u f - (s.get pRing0 RING_GUARD.w * 64 : Nat) ≤ f.stamp ∧ (f.stamp : Int) ≤ s.tExp e c u f + (s.get pRing0 RING_GUARD.w * 64 : Nat)) ∧
      f.src = s.ownerOf e ∧ s.sch e SCHED_W0.kind = f.typ ∧
      (f.stamp : Int) + f.dur ≤ s.tExp e c u f + (s.sch e SCHED_W1.len * 640 : Nat) + (s.get pRing0 RING_GUARD.w * 64 : Nat))) ∧
  (∀ (s : State) u e f, s.cycOf f.cyc = none → s.guard u e f = 1) ∧
  (∀ (s : State) u reason id, reason < 16 → id < 2 ^ 12 → ∃ v : State, s.rDrop u reason none id = v.evC (pRing u) 2 ∧
    v.get (pRing u) RING_P_DROP.n = min (2 ^ 36 - 1) (s.get (pRing u) RING_P_DROP.n + 1) ∧ v.get (pRing u) RING_P_DLAST.reason = reason ∧
    v.get (pRing u) RING_P_DLAST.idn = id ∧ RegsOnly [pRing u + 0x12, pRing u + 0x13] s v) ∧
  (∀ (s : State) u e f, f.typ ≠ 1 → f.dup = true → (s.sch e SCHED_W0.role = 1 ∨ s.sch e SCHED_W0.role = 3) →
    (s.cycOf f.cyc).getD s.cycNow ∈ Tab.rd s.ring.took f.slot → s.slotAccept u e f = s.inc (pRing u) RING_P_RXF.n) ∧
  (∀ (s : State) u e f, f.typ ≠ 1 → f.dup = false → f.wrap = false → s.sch e SCHED_W0.role = 1 → e < 4096 → u < 10 →
    (s.cycOf f.cyc).getD s.cycNow ∈ Tab.rd s.ring.took f.slot → ∃ v : State, s.slotAccept u e f = v ∧
      v.get (pSched e) (SCHED_W4.ok 0) = (s.get (pSched e) (SCHED_W4.ok 0) + 1) % 2 ^ 12 ∧ v.mem = s.mem ∧ v.wire = s.wire ∧
      RegsOnly [pRing u + 0x11, pSched e + 4] { s with ring := v.ring } v) ∧
  (∀ (s : State) u e f, u < 10 → s.sch e SCHED_W0.role = 1 → f.typ = 0 → f.wrap = false → s.sch e SCHED_W3.post = 0 → e < 4096 →
    (s.cycOf f.cyc).getD s.cycNow ∉ Tab.rd s.ring.took f.slot → ∃ v : State, s.slotAccept u e f = v.ttTake u e f ∧
      v.get (pSched e) (SCHED_W4.ok 0) = (s.get (pSched e) (SCHED_W4.ok 0) + 1) % 2 ^ 12 ∧
      Tab.rd v.ring.got f.slot = ((s.cycOf f.cyc).getD s.cycNow :: Tab.rd s.ring.got f.slot).take 4 ∧
      Tab.rd v.ring.took f.slot = ((s.cycOf f.cyc).getD s.cycNow :: Tab.rd s.ring.took f.slot).take 4 ∧ v.mem = s.mem) ∧
  (∀ (s : State) u e f, bitN (s.memW (s.ttBuf e)).toNat 35 = false → f.payload.length ≤ 1536 →
    (s.ttTake u e f).memW (s.ttBuf e) = word (2 ^ 35 + 2 ^ 34 + (s.memW (s.ttBuf e)).toNat / 2 ^ 16 % 2 ^ 18 * 2 ^ 16 + ((s.memW (s.ttBuf e)).toNat + 1) % 2 ^ 16) ∧
    (∀ k < f.payload.length, (s.ttTake u e f).octet (s.ttBuf e + 0x210) k = f.payload.getD k 0 % 256) ∧
    (∀ a, a < s.ttBuf e ∨ s.ttBuf e + 4 < a → a < s.ttBuf e + 0x210 ∨ s.ttBuf e + 0x210 + (f.payload.length + 3) / 4 ≤ a →
      (s.ttTake u e f).memW a = s.memW a)) ∧
  (∀ (s : State) u (f : RingFrame), (10 ≤ u ∨ s.flag (pRing u) RING_P_STAT.up = false ∨ s.rState = 0 ∨ s.timeGood = false ∨ 2 < f.typ ∨
    s.slotEntry f u = none ∨ s.cycOf f.cyc = none) → exec (.frameOverrunCutoff u f) s = .next s) ∧
  (∀ (s : State) u (f g : RingFrame) e c, s.clockOff pRing0 = false →
    u < 10 → s.flag (pRing u) RING_P_STAT.up = true → s.rState ≠ 0 → s.timeGood = true → f.typ ≤ 2 →
    g = { f with hop := f.hop + 1, stamp := s.ingress u f.stamp, dur := 0 } → s.slotEntry f u = some e → s.cycOf f.cyc = some c →
    exec (.frameOverrunCutoff u f) s = .next (if s.guard u e g = 0 ∧ s.cutAt u e c g ≤ (s.t64 4 : Int) then s.cutOff u e g else s)) ∧
  (∀ (s : State) u e c f, s.cutAt u e c f = s.tExp e c u f + (s.sch e SCHED_W1.len * 640 + s.get pRing0 RING_GUARD.w * 64 : Nat)) ∧
  (∀ (s : State) u f e, (f.wrap = false → s.sch e SCHED_W0.role < 2 → s.cutOff u e f = s.rDrop u 3 (some e) f.slot) ∧
    (2 ≤ s.sch e SCHED_W0.role → s.cutOff u e f = (s.rForward (s.onPorts u e f) u { f with fcsOk := false } e).rDrop u 3 (some e) f.slot)) ∧
  (∀ (s : State) u e f o, o < 10 → f.wrap = false → (o ∈ s.onPorts u e f ↔ bitN (s.sch e SCHED_W1.out) o = true)) ∧
  (∀ (s : State) u e f o, f.wrap = true → o < 2 → (o ∈ s.onPorts u e f ↔ o = 1 - u)) ∧
  (∀ (s : State) e u, s.entryPort e u false = true ↔ s.sch e SCHED_W1.inp = u) ∧
  (∀ (s : State) e u, s.entryPort e u true = true → s.sch e SCHED_W1.wrap = 1 ∧ s.ring.inForce ≠ [] ∧ u < 2 ∧ s.sch e SCHED_W1.inp ≠ u ∨
    2 ≤ s.sch e SCHED_W1.inp) ∧
  (∀ (s : State) u own wrap f, (2 ≤ u ∨ s.flag (pRing u) RING_P_STAT.wrap = false) → s.rLeave u own wrap f = s.rSend u own f) ∧
  (∀ (s : State) u own wrap (f : RingFrame), u < 2 → s.flag (pRing u) RING_P_STAT.wrap = true → (wrap = false ∨ f.wrap = true) → s.rLeave u own wrap f = s) ∧
  (∀ (s : State) u own (f : RingFrame), u < 2 → s.flag (pRing u) RING_P_STAT.wrap = true → f.wrap = false →
    s.rLeave u own true f = s.rSend (1 - u) own { f with wrap := true, dir := decide (u = 0) }) ∧
  (∀ (s : State) u f, s.flag pClk CLK_DOM_FIX.pdead = false →
    s.rSend u false f = { s with ring := { s.ring with tx := Tab.wr s.ring.tx u (some f) } }) ∧
  (∀ (s : State) u own f, s.flag pClk CLK_DOM_FIX.pdead = true → s.rSend u own f = s) ∧
  (∀ (s : State) u f, pRing0 ∈ s.blocked → s.rSend u true f = s) ∧
  (∀ (s : State) f, s.rState = 0 ∨ s.rState = 4 → s.startupFrame f = s) ∧
  (∀ (s : State) f, s.rState = 5 → f.wrap = false → s.ring.seen = [] → (s.startupFrame f).get pRing0 RING_STAT.csaddr = f.src % 2 ^ 11 ∧
    (s.startupFrame f).rState = 5) ∧
  (∀ (s : State) e, s.slotTable.contains e = false ∨ s.sch e SCHED_W0.role ≠ 0 → exec (.slotTransmit e) s = .next s ∧ exec (.ttControlRead e) s = .next s) ∧
  (∀ (s : State) e, s.rState ≠ 4 ∨ s.atOffset (s.sch e SCHED_W0.start * 640) = false → exec (.slotTransmit e) s = .next s) ∧
  (∀ (s : State) e, s.ctIn 128000 (s.sch e SCHED_W0.start * 640) = false → exec (.ttControlRead e) s = .next s) ∧
  (∀ (s : State) x o, s.ctIn x o = true ↔ o ≤ (s.t64 4 + x) % s.cycLen ∧ (s.t64 4 + x) % s.cycLen < o + 160) ∧
  (∀ (s : State) e, s.clockOff pRing0 = false → s.slotTable.contains e = true → s.sch e SCHED_W0.role = 0 → s.sch e SCHED_W0.kind = 0 →
    s.ctIn 128000 (s.sch e SCHED_W0.start * 640) = true → ∃ t : State,
    exec (.ttControlRead e) s = .next t ∧ Tab.rd t.ring.ctl e = some (bitN (s.memW (s.ttBuf e)).toNat 35) ∧ t = { s with ring := t.ring }) ∧
  (∀ (s : State) e u, s.clockOff pRing0 = false →
    s.slotTable.contains e = true → s.rState = 4 → s.sch e SCHED_W0.role = 0 → s.sch e SCHED_W0.kind = 2 →
    s.sch e SCHED_W0.cs = 0 → s.atOffset (s.sch e SCHED_W0.start * 640) = true → s.ownPorts e = [u] → s.flag (pRing u) RING_P_STAT.wrap = false →
    s.blocked = [] → s.ring.txHold = [] → s.flag pClk CLK_DOM_FIX.pdead = false → s.sch e SCHED_W3.post = 0 → ∃ t : State, exec (.slotTransmit e) s = .next t ∧
      Tab.rd t.ring.tx u = some { typ := 2, dup := s.sch e SCHED_W1.dup == 1, src := s.rAddr, slot := s.sch e SCHED_W2.idn, cyc := s.cycNow % 65536, dir := decide (u = 1), payload := Tab.rd s.ring.safety (s.sch e SCHED_W2.idn) } ∧
      (∀ o, o ≠ u → Tab.rd t.ring.tx o = Tab.rd s.ring.tx o) ∧
      t.get (pSched e) (SCHED_W4.ok 0) = (s.get (pSched e) (SCHED_W4.ok 0) + 1) % 2 ^ 12 ∧ t.mem = s.mem) ∧
  (∀ (s : State) u, Tab.rd s.ring.hold u = none → exec (.heldFrameLaunch u) s = .next s) ∧
  (∀ (s : State) u x, Tab.rd s.ring.hold u = some x → s.atOffset (s.sch x.1 SCHED_W2.ftime * 640) = false → exec (.heldFrameLaunch u) s = .next s) ∧
  (∀ (s : State) u x, s.clockOff pRing0 = false → Tab.rd s.ring.hold u = some x → s.atOffset (s.sch x.1 SCHED_W2.ftime * 640) = true →
    s.flag pClk CLK_DOM_FIX.pdead = false → (2 ≤ u ∨ s.flag (pRing u) RING_P_STAT.wrap = false) → ∃ t : State,
    exec (.heldFrameLaunch u) s = .next t ∧ Tab.rd t.ring.hold u = none ∧
      Tab.rd t.ring.tx u = some (x.2.delayed ((s.egress u 4 (Config.egressTap s.freeN % 32) : Int) - x.2.stamp)) ∧
      t = { s with ring := t.ring, freeN := s.freeN + 1 }) ∧
  (∀ (s : State) u b tap, s.egress u b tap = ((s.t64At b tap : Int) + s.getI (pTsu u) TIME_TSU_EGR_ADJ.adj).toNat) ∧
  (∀ (f : RingFrame) d, f.typ ≠ 1 → f.delayed d = { f with transit := min (2 ^ 32 - 1) ((f.transit : Int) + d).toNat }) ∧
  (∀ (s : State) k, (16 ≤ k ∨ s.get pRing11 (RING_CP.en k) = 0 ∨ s.flag pTime0 TIME_CT_STAT.valid = false ∨ s.rState < 3 ∨ 4 < s.rState ∨
    s.atOffset (s.get pRing11 (RING_CP.off k) * 640) = false) → exec (.cyclePoint k) s = .next s) ∧
  (∀ (s : State) k, s.clockOff pRing0 = false →
    k < 16 → s.get pRing11 (RING_CP.en k) = 1 → s.flag pTime0 TIME_CT_STAT.valid = true → 3 ≤ s.rState → s.rState ≤ 4 →
    s.atOffset (s.get pRing11 (RING_CP.off k) * 640) = true → (∀ t, s.jumpAt = some t → t + 64000 ≤ s.t64 0) → exec (.cyclePoint k) s
      = .next { s with wire := s.wire ++ [{ cls := 1, src := 0x70B, task := s.get pRing11 (RING_CP.task k), at_ := s.now }] }) ∧
  (∀ (s : State) k t, s.jumpAt = some t → s.t64 0 < t + 64000 → exec (.cyclePoint k) s = .next s)

/-- Descriptor queues, the asynchronous class, and the plant Ethernet ports. QCFG of an idle queue takes a valid value and
refuses another with its event; in use only the end of use and the post are taken, and the end returns head to 0 and
drops the descriptors that a transmit queue still holds with result 3 (log entry 79). QTAIL takes the tail. A
forwarded asynchronous frame goes out in an open window with enough credits, which it spends, and its units become
owed to the port it came from; a descriptor that is too long is done with result 1. A received Ethernet frame is
counted as an error, not taken, or buffered; a lossless frame beyond the headroom is counted with event 3. A transmit
takes the highest queue whose buckets hold enough, spends them, ends its descriptor and records event 4. A link loss
is counted with event 1. A PFC frame repeats while the level is at or above xon; a pause expires. Rules: R381, R382,
R383, R384, R385, R386, R387, R388, R391, R392. -/
def Obligations.QueuesAndEthernet : Prop :=
  (∀ (s : State) (v : Word), s.takes (qAddr 1 + 1) → s.qEn (pRing0 + 0x24) = true → v.toNat / 2 ^ 31 % 16 = s.reg (pRing0 + 0x25) / 2 ^ 31 % 16 →
    v.toNat % 256 = s.reg (pRing0 + 0x25) % 256 → bitN v.toNat 35 = false → s.ring.wait = [] → ∃ t : State, exec (.qcfgWrite 1 v) s = .next t ∧ t.mem = (s.txFlush (pRing0 + 0x24)).mem ∧
      t.qEn (pRing0 + 0x24) = false ∧ t.reg (pRing0 + 0x26) = 0 ∧ RegsOnly [pRing0 + 0x25, pRing0 + 0x26] { s with mem := t.mem } t) ∧
  (∀ (s : State) a d, qSends a = true → (s.reg (a + 3) % s.qSize a + s.qSize a - s.qHead a % s.qSize a) % s.qSize a = 1 →
    d = s.reg a + 8 * (s.qHead a % s.qSize a) → bitN (s.memW d).toNat 35 = true →
    s.txFlush a = (s.setMem (d + 6) (word (2 ^ 34 + 3))).setMem d (word ((s.memW d).toNat % 2 ^ 35))) ∧
  (∀ (s : State) a, (qSends a = false ∨ (s.reg (a + 3) % s.qSize a + s.qSize a - s.qHead a % s.qSize a) % s.qSize a = 0) → s.txFlush a = s) ∧
  (∀ q, q < 26 → (qSends (qAddr q) = true ↔ q = 1 ∨ 6 ≤ q ∧ q < 14 ∨ 18 ≤ q)) ∧
  (∀ (s : State) q (v : Word), s.takes (qAddr q + 1) → q < 26 → s.qEn (qAddr q) = false → 4 ≤ v.toNat / 2 ^ 31 % 16 → v.toNat / 2 ^ 31 % 16 ≤ 12 →
    (qSends (qAddr q) = true ∨ 1 ≤ v.toNat % 256 ∧ v.toNat % 256 ≤ 144) → s.ring.wait = [] → (∀ e < 2, (s.et e).rx = []) → ∃ t : State, exec (.qcfgWrite q v) s = .next t ∧ t.qEn (qAddr q) = bitN v.toNat 35 ∧
      t.qSize (qAddr q) = 2 ^ (v.toNat / 2 ^ 31 % 16) ∧ t.reg (qAddr q + 1) % 256 = v.toNat % 256 ∧ RegsOnly [qAddr q + 1] s t) ∧
  (∀ (s : State) q (v : Word), s.takes (qAddr q + 1) → q < 26 → s.qEn (qAddr q) = false → (v.toNat / 2 ^ 31 % 16 < 4 ∨ 12 < v.toNat / 2 ^ 31 % 16 ∨
    qSends (qAddr q) = false ∧ (v.toNat % 256 = 0 ∨ 144 < v.toNat % 256)) → s.ring.wait = [] → (∀ e < 2, (s.et e).rx = []) → exec (.qcfgWrite q v) s = .next (s.ev (qPage (qAddr q)).1 (qPage (qAddr q)).2)) ∧
  (∀ (s : State) (v : Word), s.takes (qAddr 1 + 3) →
    ∃ t : State, exec (.qtailWrite 1 v) s = .next t ∧ t.reg (pRing0 + 0x27) % 2 ^ 12 = v.toNat % 2 ^ 12 ∧
    RegsOnly [pRing0 + 0x27] s t) ∧
  (∀ (s : State) (v : Word), s.takes (qAddr 0 + 3) →
    s.ring.wait = [] → ∃ t : State, exec (.qtailWrite 0 v) s = .next t ∧ t.reg (pRing0 + 0x23) % 2 ^ 12 = v.toNat % 2 ^ 12 ∧
    RegsOnly [pRing0 + 0x23] s t) ∧
  (∀ (s : State) e k (v : Word), s.takes (qAddr (2 + 12 * e + 4 + k) + 3) →
    e < 2 → k < 8 → ∃ t : State, exec (.qtailWrite (2 + 12 * e + 4 + k) v) s = .next t ∧
    t.reg (pEth e + 0x33 + 4 * k) % 2 ^ 12 = v.toNat % 2 ^ 12 ∧ RegsOnly [pEth e + 0x33 + 4 * k] s t) ∧
  (∀ (s : State) u, (s.flag (pRing (s.viaPort u)) RING_P_STAT.up = false ∨ s.rState = 0 ∨ Tab.rd s.ring.fwd u = [] ∧
    s.qReady (pRing0 + 0x24) = false) → exec (.asyncSend u) s = .next s) ∧
  (∀ (s : State) u, s.viaPort u = (if u < 2 ∧ s.flag (pRing u) RING_P_STAT.wrap = true then 1 - u else u)) ∧
  (∀ (s : State) u x r, Tab.rd s.ring.fwd u = x :: r → (x.2.wrap = false ∨ s.viaPort u = u) →
    s.windowOpen (s.viaPort u) x.2.payload.length (decide (x.1 = 10)) = false →
    exec (.asyncSend u) s = .next s) ∧
  (∀ (s : State) u (x : Nat × RingFrame) r, s.clockOff pRing0 = false →
    u < 10 → s.flag (pRing u) RING_P_STAT.up = true → s.rState ≠ 0 → Tab.rd s.ring.fwd u = x :: r →
    x.1 < 10 → s.windowOpen u x.2.payload.length false = true → (x.2.payload.length + 20 + 63) / 64 ≤ s.get (pRing u) RING_P_CRED.cred →
    s.flag pClk CLK_DOM_FIX.pdead = false → (2 ≤ u ∨ s.flag (pRing u) RING_P_STAT.wrap = false) →
    (x.2.bcast = false ∨ s.ring.known = true ∧ x.2.src = s.rAddr) → ∃ t : State, exec (.asyncSend u) s = .next t ∧
      Tab.rd t.ring.tx u = some (x.2.delayed (s.linkMa x.1 + ((s.egress u 4 (Config.egressTap s.freeN % 32) : Int) - x.2.stamp))) ∧ Tab.rd t.ring.fwd u = r ∧
      t.get (pRing u) RING_P_CRED.cred = s.get (pRing u) RING_P_CRED.cred - (x.2.payload.length + 20 + 63) / 64 ∧
      Tab.rd t.ring.owed x.1 = Tab.rd s.ring.owed x.1 + (x.2.payload.length + 20 + 63) / 64 ∧ RegsOnly [pRing u + 0x15] { s with ring := t.ring, freeN := s.freeN + 1 } t) ∧
  (∀ (s : State) u, s.clockOff pRing0 = false →
    u < 10 → s.flag (pRing (s.viaPort u)) RING_P_STAT.up = true → s.rState ≠ 0 → Tab.rd s.ring.fwd u = [] → s.qReady (pRing0 + 0x24) = true →
    bitN (s.memW (s.qDesc (pRing0 + 0x24))).toNat 35 = true → 2020 < (s.memW (s.qDesc (pRing0 + 0x24))).toNat % 2 ^ 16 →
    exec (.asyncSend u) s = .next (s.txDone (pRing0 + 0x24) (s.qDesc (pRing0 + 0x24)) (2 ^ 34 + 1))) ∧
  (∀ (s : State) a d res, s.reg (a + 1) / 2 ^ 30 % 2 = 0 → ∃ t : State, s.txDone a d res = t ∧ t.memW (d + 6) = word res ∧
    t.memW d = word ((s.memW d).toNat % 2 ^ 35) ∧ t.reg (a + 2) = (s.qHead a + 1) % s.qSize a % 2 ^ 36 ∧
    (∀ x, x ≠ d → x ≠ d + 6 → t.memW x = s.memW x) ∧ (∀ x, x ≠ a + 2 → t.regW x = s.regW x)) ∧
  (∀ (s : State) e f, (2 ≤ e ∨ s.flag (pEth e) ETH_LINK.up = false ∨ s.flag (pEth e) PAGE_CTL.en = false) → exec (.ethFrameReceive e f) s = .next s) ∧
  (∀ (s : State) e f, s.clockOff pEth0 = false → e < 2 → s.flag (pEth e) ETH_LINK.up = true → s.flag (pEth e) PAGE_CTL.en = true →
    (f.fcsOk = false ∨ f.octets.length < 60 ∨ s.get (pEth e) ETH_CFG.maxfr < f.octets.length + 4) →
    exec (.ethFrameReceive e f) s = .next ((s.setEt e { s.et e with busyAt := some s.now }).inc (pEth e) ETH_RXE.n)) ∧
  (∀ (s : State) e f, s.clockOff pEth0 = false →
    e < 2 → s.flag (pEth e) ETH_LINK.up = true → s.flag (pEth e) PAGE_CTL.en = true → f.fcsOk = true → 60 ≤ f.octets.length →
    f.octets.length + 4 ≤ s.get (pEth e) ETH_CFG.maxfr → word16 f.octets 12 ≠ 0x8808 → s.ethMine e f.octets = false →
    exec (.ethFrameReceive e f) s = .next (s.setEt e { s.et e with busyAt := some s.now })) ∧
  (∀ (s : State) e f, s.clockOff pEth0 = false →
    e < 2 → s.flag (pEth e) ETH_LINK.up = true → s.flag (pEth e) PAGE_CTL.en = true → f.fcsOk = true → 60 ≤ f.octets.length →
    f.octets.length + 4 ≤ s.get (pEth e) ETH_CFG.maxfr → word16 f.octets 12 ≠ 0x8808 → s.ethMine e f.octets = true →
    exec (.ethFrameReceive e f) s = .next (((s.setEt e { s.et e with busyAt := some s.now }).ethBuffer e (framePcp f.octets) f).ethShow.ethDrain e)) ∧
  (∀ (s : State) e prio f, s.lossless e prio = false → (s.ethUse + (f.octets.length + 63) / 64 ≤ 8192 →
      ((s.ethBuffer e prio f).et e).rx = (s.et e).rx ++ [{ prio := prio, head := false, rx := s.rxStamp (10 + e) (s.ingress (10 + e) f.stamp), frame := f }] ∧ (s.ethBuffer e prio f).regs = s.regs) ∧
    (8192 < s.ethUse + (f.octets.length + 63) / 64 → s.ethBuffer e prio f = s.inc (pEth e) ETH_RXD.n)) ∧
  (∀ (s : State) e prio f, s.lossless e prio = true → prio ∈ (s.et e).xoff →
    40960 < rxOctets ((s.et e).rx.filter (fun x => x.prio == prio && x.head)) + f.octets.length →
    s.ethBuffer e prio f = (s.inc (pEth e) ETH_HROV.n).evC (pEth e) 3) ∧
  (∀ (s : State) e q, (2 ≤ e ∨ 8 ≤ q ∨ s.flag (pEth e) ETH_LINK.up = false ∨ s.flag (pEth e) PAGE_CTL.en = false ∨ pageBlocked s (pEth e) = true ∨
    s.qReady (txqAddr e q) = false) → exec (.ethTransmit e q) s = .next s) ∧
  (∀ (s : State) e q k, s.get (pEth e) ETH_CFG.maxfr ≥ (s.memW (s.qDesc (txqAddr e q))).toNat % 2 ^ 16 + 4 → k < 8 →
    (s.ethCan e q = false ∨ q < k ∧ s.ethCan e k = true) → exec (.ethTransmit e q) s = .next s) ∧
  (∀ (s : State) e q, s.clockOff pEth0 = false →
    e < 2 → q < 8 → s.flag (pEth e) ETH_LINK.up = true → s.flag (pEth e) PAGE_CTL.en = true → pageBlocked s pEth0 = false →
    pageBlocked s (pEth e) = false → s.get (pEth e) ETH_CFG.maxfr ≥ (s.memW (s.qDesc (txqAddr e q))).toNat % 2 ^ 16 + 4 →
    s.ethCan e q = true → (∀ k, q < k → k < 8 → s.ethCan e k = false) → s.flag (pTsu (10 + e)) TIME_TSU_CFG.en = false → ∃ u : State,
      exec (.ethTransmit e q) s = .next ((u.txDone (txqAddr e q) (s.qDesc (txqAddr e q)) (2 ^ 35)).ev (pEth e) 4) ∧
      (u.et e).sent = some { octets := s.octets (s.memW (s.qDesc (txqAddr e q) + 1)).toNat ((s.memW (s.qDesc (txqAddr e q))).toNat % 2 ^ 16) } ∧
      u.get (pEth e) ETH_TXF.n = min (2 ^ 36 - 1) (s.get (pEth e) ETH_TXF.n + 1) ∧
      Tab.rd (u.et e).lack 8 = s.bucketLack e 8 + ((s.memW (s.qDesc (txqAddr e q))).toNat % 2 ^ 16 + 24) * 512000 ∧ u.mem = s.mem) ∧
  (∀ (s : State) e, (∀ sp, 4 < sp → exec (.ethLinkChange e sp) s = .next s) ∧
    (s.flag (pEth e) ETH_LINK.up = false → exec (.ethLinkChange e 0) s = .next s)) ∧
  (∀ (s : State) e, e < 2 → s.flag (pEth e) ETH_LINK.up = true → ∃ u : State, exec (.ethLinkChange e 0) s = .next (u.evC (pEth e) 1) ∧
    u.get (pEth e) ETH_LINK.up = 0 ∧ u.get (pEth e) ETH_LINK.speed = 0 ∧
    u.get (pEth e) ETH_LINK.down = min 0xFFFF (s.get (pEth e) ETH_LINK.down + 1) ∧ RegsOnly [pEth e + 0x11] s u) ∧
  (∀ (s : State) e sp, e < 2 → 1 ≤ sp → sp ≤ 4 → bitN (s.get (pEth e) ETH_CFG.spd) (sp - 1) = true → s.flag (pEth e) ETH_LINK.up = false →
    ∃ u : State, exec (.ethLinkChange e sp) s = .next (u.ev (pEth e) 0) ∧ u.get (pEth e) ETH_LINK.up = 1 ∧ u.get (pEth e) ETH_LINK.speed = sp ∧
      RegsOnly [pEth e + 0x11] s u) ∧
  (∀ (s : State) e prio, prio ∉ (s.et e).xoff ∨ s.ethLevel e prio < s.get (pEth e) ETH_PFC.xon * 1024 → exec (.pfcFrameRepeat e prio) s = .next s) ∧
  (∀ (s : State) e prio, s.clockOff pEth0 = false →
    e < 2 → prio ∈ (s.et e).xoff → s.get (pEth e) ETH_PFC.xon * 1024 ≤ s.ethLevel e prio → s.get (pEth e) ETH_CAP.rate ≠ 0 →
    pageBlocked s pEth0 = false → pageBlocked s (pEth e) = false → ∃ t : State,
    exec (.pfcFrameRepeat e prio) s = .next t ∧ (t.et e).sent = some (s.pfcFrame e prio 0xFFFF) ∧
      t.get (pEth e) ETH_PFCC.tx = min (2 ^ 18 - 1) (s.get (pEth e) ETH_PFCC.tx + 1) ∧ RegsOnly [pEth e + 0x55] { s with eth := t.eth } t) ∧
  (∀ (s : State) e prio, Tab.rd (s.et e).paused prio = none → exec (.pfcPauseExpire e prio) s = .next s) ∧
  (∀ (s : State) e prio tt, s.clockOff pEth0 = false →
    e < 2 → Tab.rd (s.et e).paused prio = some tt → tt ≤ s.t64 0 → ∃ t : State, exec (.pfcPauseExpire e prio) s = .next t ∧
    Tab.rd (t.et e).paused prio = none ∧ (∀ k, k ≠ prio → Tab.rd (t.et e).paused k = Tab.rd (s.et e).paused k) ∧ t = { s with eth := t.eth })

/-- The safety island: stops, faults, start and restart, notifications and the evaluation cycle. A stop to STO blocks both
paths of the port, applies its brakes after their delays, records the cause and asks for an acknowledge where the
cause is in the set; SS1 starts from Run only. Of several causes STO goes before SS1 and the lowest code acts, and of
those that arrive in one evaluation cycle the lowest is recorded; a brake decision already taken is not put off. An
island fault, and a hardware safe state, bring state 5, every port to STO, every brake on and every SO off, with the
first fault recorded. The island starts from a good bank only and ends in Run or in a fault with its cause; it
restarts from state 5. An envelope block and a fault counter act as the image sets. An evaluation cycle takes place
when it is due, takes the latch sets, judges the monitoring functions and supervises SS1. Model choices: the fault
word that the spec does not state is a free value (log entry 84), and a later, lower cause counts for the acknowledge
(log entry 88). Rules: R395, R396, R397, R398, R401, R402, R404, R406, R407, R408, R411, R413. -/
def Obligations.IslandSupervision : Prop :=
  (∀ (s : State) p code ss1, p < 12 → s.stoppedNow p = false → s.pstate p = 0 → s.stopPort p code ss1 = s.noteCause p) ∧
  (∀ (s : State) p code, s.stoppedNow p = false → s.pstate p ≠ 0 → s.pstate p ≠ 2 → s.stopPort p code true = s) ∧
  (∀ (s : State) p code, p < 12 → s.pstate p = 2 → ∃ t : State, s.stopPort p code true = t ∧ t.pstate p = 1 ∧
    t.get (pSafe 2) (SAFE_PORT.cause p) = code % 16 ∧ (t.ip p).ts = s.now ∧ (t.ip p).v0 = (portChans p).map s.absV ∧
    (t.ip p).by_ = code ∧ (∀ q < 12, q ≠ p → t.pstate q = s.pstate q) ∧ t.gateEn = s.gateEn ∧ t.mem = s.mem) ∧
  (∀ (s : State) p code, p < 12 → s.pstate p ≠ 0 → ∃ t : State, s.stopPort p code false = t ∧ t.pstate p = 0 ∧
    t.get (pSafe 2) (SAFE_PORT.cause p) = code % 16 ∧ p ∉ t.gateEn ∧ bitN (t.get (pSafe 2) SAFE_OUT.gen) p = false ∧
    t.flag (pSafe 2) (SAFE_PORT.ackreq p) = (bitN (s.portCfg p).ackSet code || s.flag (pSafe 2) (SAFE_PORT.ackreq p)) ∧
    (∀ ch, ch / 8 = p → (s.chCfg ch).sbcMs = 0 → inRange (t.bstate ch) 1 2 = false) ∧
    (∀ ch, ch / 8 = p → (s.chCfg ch).sbcMs ≠ 0 → inRange (s.bstate ch) 1 2 = true →
      (t.ic ch).sbc = some ((s.ic ch).sbc.getD (s.now + (s.chCfg ch).sbcMs * edgesMs)) ∧ t.bstate ch = s.bstate ch) ∧
    (t.ip p).stopAt = some s.now ∧
    (∀ q < 12, q ≠ p → t.pstate q = s.pstate q) ∧ t.mem = s.mem) ∧
  (∀ l : List (Nat × Bool), (governing l = none ↔ l = []) ∧
    (∀ c, governing l = some (c, false) ↔ (c, false) ∈ l ∧ ∀ d, (d, false) ∈ l → c ≤ d) ∧
    (∀ c, governing l = some (c, true) ↔ (∀ d, (d, false) ∉ l) ∧ (c, true) ∈ l ∧ ∀ d, (d, true) ∈ l → c ≤ d)) ∧
  (∀ (s : State) fc info, s.islState = 5 → s.islandFault fc info = s) ∧
  (∀ (s : State) fc info, s.islState ≠ 5 → ∃ t : State, s.islandFault fc info = t ∧ t.islState = 5 ∧
    t.get (pSafe 0) SAFE_STAT.fcause = fc % 256 ∧ t.get (pSafe 0) SAFE_FINFO.info = info % 2 ^ 36 ∧ (∀ p < 12, t.pstate p = 0) ∧
    (∀ ch < 96, inRange (t.bstate ch) 1 2 = false) ∧ t.get (pSafe 2) SAFE_OUT.so = 0 ∧ t.get (pLens 0) LENS_STAT.state = 0) ∧
  (∀ (s : State) a (how : AccessEnd), a ≠ s.isl.sramAt → exec (.islandSramScrub a how) s = .next s) ∧
  (∀ (s : State) (how : AccessEnd), ∃ v : State, exec (.islandSramScrub s.isl.sramAt how) s = .next (if how.good then v else v.islandFault 4 s.isl.sramAt) ∧
    v = { s with isl := { s.isl with sramAt := (s.isl.sramAt + 1) % 2 ^ 18 } }) ∧
  (∀ (s : State) cause, ∃ t : State, exec (.hardwareSafeState cause) s = .next t ∧ t.flag (pSafe 0) SAFE_STAT.hwsafe = true ∧
    t.islState = 5 ∧ t.gateEn = [] ∧ t.get (pSafe 2) SAFE_OUT.so = 0 ∧ (∀ ch < 96, inRange (t.bstate ch) 1 2 = false) ∧
    (s.islState ≠ 5 → t.get (pSafe 0) SAFE_STAT.fcause = cause % 256 ∧
      t.get (pSafe 0) SAFE_FINFO.info = Config.free s.freeN % 2 ^ 36 ∧ t.freeN = s.freeN + 1 ∧ ∀ p < 12, t.pstate p = 0)) ∧
  (∀ (s : State) a b ua ub te ec, s.islState ≠ 0 → exec (.islandStart a b ua ub te ec) s = .next s) ∧
  (∀ (s : State) (a b : SafetyImage) ua ub te ec, s.islState = 0 → (s.imgCode 1 false ua ≠ 1 ∨ a.ok = false) →
    (s.imgCode 1 true ub ≠ 1 ∨ b.ok = false) → ∃ t : State, exec (.islandStart a b ua ub te ec) s = .next t ∧ t.islState = 5 ∧
      t.get (pSafe 0) SAFE_STAT.fcause = 1 ∧ t.slLocked = s.slLocked ∧ ∀ k < 4, t.get (pSafe k) PAGE_CTL.en = 1) ∧
  (∀ (s : State) (a b : SafetyImage) ua ub ec, s.islState = 0 → s.imgCode 1 false ua = 1 → a.ok = true →
    (s.firstB 1 = false ∨ s.imgCode 1 true ub ≠ 1 ∨ b.ok = false) → ∃ t : State, exec (.islandStart a b ua ub false ec) s = .next t ∧
      t.islState = 5 ∧ t.get (pSafe 0) SAFE_STAT.fcause = 2 ∧ t.isl.img = a ∧ t.get (pSafe 0) SAFE_STAT.bank = 0) ∧
  (∀ (s : State) (a b : SafetyImage) ua ub, s.islState = 0 → s.imgCode 1 false ua = 1 → a.ok = true →
    (s.firstB 1 = false ∨ s.imgCode 1 true ub ≠ 1 ∨ b.ok = false) → ∃ t : State, exec (.islandStart a b ua ub true false) s = .next t ∧
      t.islState = 5 ∧ t.get (pSafe 0) SAFE_STAT.fcause = 5 ∧ t.slLocked = true ∧ t.isl.img = a) ∧
  (∀ (s : State) (a b : SafetyImage) ua ub, s.islState = 0 → s.imgCode 1 true ub = 1 → b.ok = true →
    (s.firstB 1 = true ∨ s.imgCode 1 false ua ≠ 1 ∨ a.ok = false) → ∃ t : State, exec (.islandStart a b ua ub true true) s = .next t ∧
      t.slLocked = true ∧ t.isl.img = b ∧ t.get (pSafe 0) SAFE_STAT.bank = 1 ∧
      (∀ p < 12, t.pstate p = 0 ∧ t.get (pSafe 2) (SAFE_PORT.cause p) = 0 ∧
        t.flag (pSafe 2) (SAFE_PORT.ackreq p) = (paramOf {} b.ports p : PortCfg).ackPowerUp) ∧
      (∀ ch < 96, t.bstate ch = (if (paramOf {} b.chans ch : ChCfg).brake then 0 else 5)) ∧
      (t.islState = 4 ∧ t.flag (pSafe 0) SAFE_STAT.locked = true ∨ t.islState = 5 ∧ t.get (pSafe 0) SAFE_STAT.fcause = 5)) ∧
  (∀ (s : State) a b ua ub te ec, (s.islState ≠ 5 ∨ s.flag (pSafe 0) SAFE_STAT.hwsafe = true) →
    exec (.islandRestart a b ua ub te ec) s = .next s) ∧
  (∀ (s : State) a b ua ub te ec, s.islState = 5 → s.flag (pSafe 0) SAFE_STAT.hwsafe = false → ∃ v t : State,
    exec (.islandRestart a b ua ub te ec) s = .next t ∧ exec (.islandStart a b ua ub te ec) v = .next t ∧ v.islState = 0 ∧ v.slLocked = s.slLocked ∧
      v.isl.erstUsed = true ∧ (∀ k < 4, ∀ i, 0x10 ≤ i → i < 0x100 → v.regW (pSafe k + i) = resetWord (pSafe k + i)) ∧ v.mem = s.mem) ∧
  (∀ (s : State) ch, (ch ∉ s.envNotify ∨ 96 ≤ ch) → exec (.envelopeNotify ch) s = .next s) ∧
  (∀ (s : State) ch, ch < 96 → ch ∈ s.envNotify → ∃ v : State, exec (.envelopeNotify ch) s = .next
      (if (s.chCfg ch).envReact = 1 then v.stopPort (ch / 8) 6 false else v.applyAfterSbc ch) ∧
    v.envNotify = s.envNotify.erase ch ∧ v.isl = s.isl ∧ v.flag (pSafe 3) (SAFE_CH.envstop ch) = true ∧
    bitN (v.get (pSafe 0) PAGE_EV.ev) 2 = true ∧ (∀ p < 12, v.pstate p = s.pstate p)) ∧
  (∀ (s : State) ch, ch < 96 → ((s.envViolate ch).ic ch).env = some s.now ∧ ch ∈ (s.envViolate ch).envBlk ∧ ch ∈ (s.envViolate ch).envNotify) ∧
  (∀ (s : State) page, page ∉ s.fcNotify → exec (.fcNotify page) s = .next s) ∧
  (∀ (s : State) page, page ∈ s.fcNotify → s.fcReaction (blkOf page) = 0 → exec (.fcNotify page) s
    = .next (({ s with fcNotify := s.fcNotify.erase page } : State).ev (pSafe 0) 8)) ∧
  (∀ (s : State) page p, page ∈ s.fcNotify → s.fcReaction (blkOf page) = 1 → (blkOf page).portOf = some p → exec (.fcNotify page) s
    = .next ((({ s with fcNotify := s.fcNotify.erase page } : State).ev (pSafe 0) 8).stopPort p 13 false)) ∧
  (∀ (s : State) page, page ∈ s.fcNotify → s.fcReaction (blkOf page) = 2 → ∃ t : State, exec (.fcNotify page) s = .next t ∧
    (∀ p < 12, t.pstate p = 0 ∧ (s.pstate p ≠ 0 → t.get (pSafe 2) (SAFE_PORT.cause p) = 13)) ∧ bitN (t.get (pSafe 0) PAGE_EV.ev) 8 = true) ∧
  (∀ (s : State) bad on lens, s.cycleDue = false → exec (.evaluationCycle bad on lens) s = .next s) ∧
  (∀ (s : State) bad on lens, s.cycleDue = true → ∃ v : State, exec (.evaluationCycle bad on lens) s
      = .next (if s.islState = 4 then v.evaluate bad on lens else v.mbTake) ∧
    v.get (pSafe 0) SAFE_STAT.cyc = (s.get (pSafe 0) SAFE_STAT.cyc + 1) % 65536 ∧ v.isl.cycAt = s.now ∧ v.islState = s.islState ∧
    (∀ ch < 96, ∀ x, Tab.get (fun _ => none) s.stream ch = some x → (v.ic ch).set = some x ∧
      Tab.get (fun _ => none) v.stream ch = none) ∧
    (∀ ch < 96, Tab.get (fun _ => none) s.stream ch = none → (v.ic ch).set = (s.ic ch).set) ∧ RegsOnly [pSafe 0 + 0x10]
      { s with isl := v.isl, stream := v.stream } v) ∧
  (∀ s : State, (s.cycleDue = true ↔ s.islState ≠ 0 ∧ ((s.t64 4 % (250000 * 64) < 5 * 160 ∧ s.isl.cycAt + 4 < s.now) ∨ s.isl.cycAt + 260 * edgesUs ≤ s.now))) ∧
  (∀ (s : State) o, (o < 64 ∨ 80 ≤ o) → s.isl.mism = some o → s.islState = 4 → ∃ t : State, s.readBack (some o) = t ∧ t.islState = 5 ∧
    t.get (pSafe 0) SAFE_STAT.fcause = 6 ∧ t.get (pSafe 0) SAFE_FINFO.info = o % 2 ^ 36) ∧
  (∀ (s : State) o, (o < 64 ∨ 80 ≤ o) → s.isl.mism ≠ some o → s.readBack (some o) = { s with isl := { s.isl with mism := some o } }) ∧
  (∀ (s : State) k, (k < 4 → s.readBack (some (64 + k)) = ({ s with isl := { s.isl with mism := none } } : State).soFail k) ∧
    (k < 8 → s.readBack (some (72 + k)) = ({ s with isl := { s.isl with mism := none } } : State).tpFail k)) ∧
  (∀ s : State, s.readBack none = { s with isl := { s.isl with mism := none } }) ∧
  (∀ (s : State) ch, (s.chCfg ch).watched = false → s.judgeCh ch = s) ∧
  (∀ (s : State) ch, ch < 96 → (s.chCfg ch).watched = true → ((s.ic ch).set = none ∨ ∃ x, (s.ic ch).set = some x ∧ x.unc = true) →
    ∃ t : State, s.judgeCh ch = t ∧ 10 ∈ (t.ic ch).codes ∧ t.get (pSafe 3) (SAFE_CH.edata ch) = 1) ∧
  (∀ (s : State) ch x, ch < 96 → (s.chCfg ch).sls = true → (s.ic ch).set = some x → s.vlimNow ch < ((x.spd.natAbs : Int) : Rat) →
    ∃ t : State, s.judgeCh ch = t ∧ 7 ∈ (t.ic ch).codes ∧ t.get (pSafe 3) (SAFE_CH.viol ch) = 1) ∧
  (∀ (s : State) ch x, ch < 96 → (s.chCfg ch).slp = true → (s.ic ch).set = some x → x.ref = true →
    (x.pos < (s.limitSet ch).plo ∨ (s.limitSet ch).phi < x.pos) →
    ∃ t : State, s.judgeCh ch = t ∧ 8 ∈ (t.ic ch).codes ∧ t.get (pSafe 3) (SAFE_CH.viol ch) = 1) ∧
  (∀ (s : State) p, s.pstate p ≠ 1 → s.ss1Port p = s) ∧
  (∀ (s : State) p, p < 12 → s.pstate p = 1 → (s.ip p).ts + (s.portCfg p).ts1Ms * edgesMs ≤ s.now → s.monitoredOf p = [] →
    ∃ t : State, s.ss1Port p = t ∧ t.pstate p = 0 ∧ t.get (pSafe 2) (SAFE_PORT.cause p) = 15) ∧
  (∀ (s : State) p, p < 12 → s.pstate p = 1 → (s.ip p).ts = s.now → (∃ ch ∈ s.monitoredOf p,
      max (s.chCfg ch).vstand (((s.ip p).v0.getD (ch % 8) 0) + (s.chCfg ch).tol1) < s.absV ch) →
    ∃ t : State, s.ss1Port p = t ∧ t.pstate p = 0 ∧ t.get (pSafe 2) (SAFE_PORT.cause p) = 11) ∧
  (∀ (s : State) p, p < 12 → (s.stoppedNow p = true ↔ ∃ e, (s.ip p).stopAt = some e ∧ s.isl.cycAt ≤ e) ∧
    (s.causedNow p = true ↔ ∃ e, (s.ip p).causeAt = some e ∧ s.isl.cycAt ≤ e) ∧
    (s.isl.cycAt ≤ s.now → (s.noteCause p).causedNow p = true) ∧ RegsOnly [] { s with isl := (s.noteCause p).isl } (s.noteCause p)) ∧
  (∀ (s : State) p code, p < 12 → code < 16 → s.stoppedNow p = true → s.pstate p = 0 → ∃ t : State, s.stopPort p code false = t ∧
    t.pstate p = 0 ∧ t.get (pSafe 2) (SAFE_PORT.cause p) = min (s.get (pSafe 2) (SAFE_PORT.cause p)) code ∧
    t.flag (pSafe 2) (SAFE_PORT.ackreq p) = (s.flag (pSafe 2) (SAFE_PORT.ackreq p) ||
      decide (code < s.get (pSafe 2) (SAFE_PORT.cause p)) && bitN (s.portCfg p).ackSet code) ∧
    RegsOnly [pSafe 2 + 0x20 + p] { s with isl := t.isl } t) ∧
  (∀ (s : State) p code, p < 12 → code < 16 → s.stoppedNow p = true → s.pstate p = 1 → ∃ t : State, s.stopPort p code true = t ∧
    t.pstate p = 1 ∧ t.get (pSafe 2) (SAFE_PORT.cause p) = min (s.get (pSafe 2) (SAFE_PORT.cause p)) code ∧
    (code < s.get (pSafe 2) (SAFE_PORT.cause p) → (t.ip p).by_ = code) ∧
    RegsOnly [pSafe 2 + 0x20 + p] { s with isl := t.isl } t)

/-- The mailbox of the safety island: how a command is taken and answered, and the nine operations. A write of go with
busy 0 leaves the command waiting; its answer clears busy, shows the result, the operation, the reason and a new
sequence number, and records event 7. Operation 1 enables a port only in island state 4, with no acknowledge wanted,
no cause present, the channel sets good and no holding test overdue; in the cycle that takes it ENABLE_PORT or the
next cycle start decides, and a cause that arrives in that cycle refuses it; 2 stops it; 3 and 4 release and apply a
brake; 5 releases the block of an envelope stop 10 ms after it, when the latest set, taken first, complies; 6 and 7
begin and end a holding test; 8 acknowledges; 9 requests a limit set, and the strictest request applies. Model
choices: when operation 1 is decided, the order of the reasons and the conditions of reasons 2 to 9 (log entries 85
and 88). Rules: R403, R405, R409, R410, R412, R415, R417, R427, R429. -/
def Obligations.IslandMailbox : Prop :=
  (∀ (s : State) (v : Word), bitN v.toNat 35 = true → s.flag (pSafe 1) SAFE_MB_CMD.busy = false → ∃ t : State, s.mbWrite v.toNat = t ∧
    t.isl.mb = some (v.toNat / 2 ^ 24 % 256, s.get (pSafe 1) SAFE_MB_ARG.arg) ∧ t.get (pSafe 1) SAFE_MB_CMD.busy = 1 ∧
    t.get (pSafe 1) SAFE_MB_CMD.op = v.toNat / 2 ^ 24 % 256 ∧ RegsOnly [pSafe 1 + 0x10] { s with isl := { s.isl with mb := t.isl.mb } } t) ∧
  (∀ (s : State) (v : Word), bitN v.toNat 35 = true → s.flag (pSafe 1) SAFE_MB_CMD.busy = true → s.mbWrite v.toNat = s) ∧
  (∀ (s : State) op reason, op < 256 → reason < 256 → ∃ v : State, s.mbAnswer op reason = v.ev (pSafe 0) 7 ∧
    v.get (pSafe 1) SAFE_MB_CMD.busy = 0 ∧ v.get (pSafe 1) SAFE_MB_RES.res = (if reason = 0 then 1 else 2) ∧
    v.get (pSafe 1) SAFE_MB_RES.op = op ∧ v.get (pSafe 1) SAFE_MB_RES.reason = reason ∧
    v.get (pSafe 1) SAFE_MB_RES.seq = (s.get (pSafe 1) SAFE_MB_RES.seq + 1) % 65536 ∧
    RegsOnly [pSafe 1 + 0x10, pSafe 1 + 0x12] { s with isl := { s.isl with mb := none, mbTaken := false } } v) ∧
  (∀ (s : State) op arg, s.isl.mb = some (op, arg) → s.islState ≠ 4 → s.mbTake = s.mbAnswer op 1) ∧
  (∀ (s : State) op arg, s.isl.mb = some (op, arg) → s.islState = 4 → (op = 0 ∨ 10 ≤ op) → s.mbTake = s.mbAnswer op 4) ∧
  (∀ s : State, s.isl.mb = none → s.mbTake = s ∧ (∀ p, exec (.enablePort p) s = .next s) ∧ (∀ p b, exec (.stopPort p b) s = .next s) ∧
    (∀ ch, exec (.releaseBrake ch) s = .next s) ∧ (∀ ch, exec (.applyBrake ch) s = .next s) ∧
    (∀ ch, exec (.releaseEnvelopeStop ch) s = .next s) ∧ (∀ ch, exec (.holdingTestBegin ch) s = .next s) ∧
    (∀ ch, exec (.holdingTestEnd ch) s = .next s) ∧ (∀ p, exec (.acknowledge p) s = .next s) ∧
    (∀ p k, exec (.requestLimitSet p k) s = .next s)) ∧
  (∀ (s : State) p, s.isl.mb = some (1, p) → s.isl.mbTaken = true → s.islState = 4 → 12 ≤ p → p < 16 → exec (.enablePort p) s = .next (s.mbAnswer 1 4)) ∧
  (∀ (s : State) p, s.isl.mb = some (1, p) → s.isl.mbTaken = true → s.islState = 4 → p < 12 → s.pstate p = 2 → exec (.enablePort p) s = .next (s.mbAnswer 1 0)) ∧
  (∀ (s : State) p, s.isl.mb = some (1, p) → s.isl.mbTaken = true → s.islState = 4 → p < 12 → s.pstate p ≠ 2 → s.flag (pSafe 2) (SAFE_PORT.ackreq p) = true →
    exec (.enablePort p) s = .next (s.mbAnswer 1 3)) ∧
  (∀ (s : State) p, s.isl.mb = some (1, p) → s.isl.mbTaken = true → s.islState = 4 → p < 12 → s.pstate p = 0 → s.flag (pSafe 2) (SAFE_PORT.ackreq p) = false →
    (∃ c ∈ s.causesOf p, c.1 ≠ 10) → exec (.enablePort p) s = .next (s.mbAnswer 1 2)) ∧
  (∀ (s : State) p ch, s.isl.mb = some (1, p) → s.isl.mbTaken = true → s.islState = 4 → p < 12 → s.pstate p = 0 → s.flag (pSafe 2) (SAFE_PORT.ackreq p) = false →
    (∀ c ∈ s.causesOf p, c.1 = 10) → s.isl.img.si = [] → ch ∈ s.monitoredOf p → s.setOld ch = true → exec (.enablePort p) s = .next (s.mbAnswer 1 8)) ∧
  (∀ (s : State) p, s.isl.mb = some (1, p) → s.isl.mbTaken = true → s.islState = 4 → p < 12 → s.pstate p = 0 → s.flag (pSafe 2) (SAFE_PORT.ackreq p) = false →
    s.causesOf p = [] → s.causedNow p = false → s.isl.img.si = [] → s.monitoredOf p = [] → s.holdOverdue p = true → exec (.enablePort p) s = .next (s.mbAnswer 1 9)) ∧
  (∀ (s : State) p, s.isl.mb = some (1, p) → s.isl.mbTaken = true → s.islState = 4 → p < 12 → s.pstate p = 0 → s.flag (pSafe 2) (SAFE_PORT.ackreq p) = false →
    s.causesOf p = [] → s.causedNow p = false → s.isl.img.si = [] → s.monitoredOf p = [] → s.holdOverdue p = false → ∃ v : State,
    exec (.enablePort p) s = .next (v.mbAnswer 1 0) ∧ v.pstate p = 2 ∧ p ∈ v.gateEn ∧ bitN (v.get (pSafe 2) SAFE_OUT.gen) p = true ∧
      (∀ ch, ch / 8 = p → v.flag (pSafe 3) (SAFE_CH.viol ch) = false ∧ v.flag (pSafe 3) (SAFE_CH.edata ch) = false) ∧
      (∀ q < 12, q ≠ p → v.pstate q = s.pstate q) ∧ bitN (v.get (pSafe 0) PAGE_EV.ev) 1 = true ∧ v.mem = s.mem) ∧
  (∀ (s : State) p b, s.isl.mb = some (2, p + 16 * b2n b) → s.cycleDue = true → s.islState = 4 → p < 12 → exec (.stopPort p b) s
    = .next ((s.stopPort p 14 b).mbAnswer 2 0)) ∧
  (∀ (s : State) ch, s.isl.mb = some (3, ch) → s.cycleDue = true → s.islState = 4 → ch < 96 → s.bstate ch = 0 → s.pstate (ch / 8) = 2 → ∃ v : State,
    exec (.releaseBrake ch) s = .next (v.mbAnswer 3 0) ∧ v.bstate ch = 1 ∧ (v.ic ch).pullAt = s.now ∧
      RegsOnly [pSafe 3 + 0x10 + ch] { s with isl := v.isl } v) ∧
  (∀ (s : State) ch, s.isl.mb = some (3, ch) → s.cycleDue = true → s.islState = 4 → ch < 96 → s.bstate ch ≠ 5 → (s.bstate ch ≠ 0 ∨ s.pstate (ch / 8) ≠ 2) →
    exec (.releaseBrake ch) s = .next (s.mbAnswer 3 5)) ∧
  (∀ (s : State) ch, s.isl.mb = some (3, ch) → s.cycleDue = true → s.islState = 4 → ch < 96 → s.bstate ch = 5 → exec (.releaseBrake ch) s = .next (s.mbAnswer 3 4)) ∧
  (∀ (s : State) ch, s.isl.mb = some (4, ch) → s.cycleDue = true → s.islState = 4 → ch < 96 → ∃ v : State, exec (.applyBrake ch) s = .next (v.mbAnswer 4 0) ∧
    v.bstate ch = (if inRange (s.bstate ch) 1 2 then 0 else s.bstate ch) ∧ (v.ic ch).sbc = none ∧
    RegsOnly [pSafe 3 + 0x10 + ch] { s with isl := v.isl } v) ∧
  (∀ (s : State) ch, s.isl.mb = some (5, ch) → s.cycleDue = true → s.islState = 4 → ch < 96 → s.pstate (ch / 8) = 1 →
    exec (.releaseEnvelopeStop ch) s = .next ((s.takeSet ch).mbAnswer 5 5)) ∧
  (∀ (s : State) ch t, s.isl.mb = some (5, ch) → s.cycleDue = true → s.islState = 4 → ch < 96 → s.pstate (ch / 8) ≠ 1 → (s.ic ch).env = some t →
    s.now < t + 10 * edgesMs → exec (.releaseEnvelopeStop ch) s = .next ((s.takeSet ch).mbAnswer 5 6)) ∧
  (∀ (s : State) ch, s.isl.mb = some (5, ch) → s.cycleDue = true → s.islState = 4 → ch < 96 → s.pstate (ch / 8) ≠ 1 →
    (∀ t, (s.ic ch).env = some t → t + 10 * edgesMs ≤ s.now) → (s.takeSet ch).setComplies ch = true → ∃ v : State,
    exec (.releaseEnvelopeStop ch) s = .next (v.mbAnswer 5 0) ∧ ch ∉ v.envBlk ∧ v.flag (pSafe 3) (SAFE_CH.envstop ch) = false ∧
      v.get (pAle ch) ALE_BLK.envblk = 0 ∧ v.get (pFbk ch) FBK_BLK.envblk = 0 ∧ v.get (pProf ch) PROF_BLK.envblk = 0 ∧ v.mem = s.mem) ∧
  (∀ (s : State) ch, s.isl.mb = some (6, ch) → s.cycleDue = true → s.islState = 4 → ch < 96 → (s.bstate ch ≠ 0 ∨ s.pstate (ch / 8) ≠ 2 ∨
    (s.chCfg ch).vstand < s.absV ch) → exec (.holdingTestBegin ch) s = .next (s.mbAnswer 6 7)) ∧
  (∀ (s : State) ch, s.isl.mb = some (6, ch) → s.cycleDue = true → s.islState = 4 → ch < 96 → s.bstate ch = 0 → s.pstate (ch / 8) = 2 →
    s.absV ch ≤ (s.chCfg ch).vstand → (s.ic ch).set = none → exec (.holdingTestBegin ch) s = .next (s.mbAnswer 6 8)) ∧
  (∀ (s : State) ch x, s.isl.mb = some (6, ch) → s.cycleDue = true → s.islState = 4 → ch < 96 → s.bstate ch = 0 → s.pstate (ch / 8) = 2 →
    s.absV ch ≤ (s.chCfg ch).vstand → (s.ic ch).set = some x → ∃ v : State, exec (.holdingTestBegin ch) s = .next (v.mbAnswer 6 0) ∧
      v.get (pSafe 3) (SAFE_CH.hres ch) = 3 ∧ (v.ic ch).testStart = s.now ∧ (v.ic ch).p0 = x.pos ∧
      RegsOnly [pSafe 3 + 0x10 + ch] { s with isl := v.isl } v) ∧
  (∀ (s : State) ch, s.isl.mb = some (7, ch) → s.cycleDue = true → s.islState = 4 → ch < 96 → s.get (pSafe 3) (SAFE_CH.hres ch) ≠ 3 →
    exec (.holdingTestEnd ch) s = .next (s.mbAnswer 7 7)) ∧
  (∀ (s : State) ch, s.isl.mb = some (7, ch) → s.cycleDue = true → s.islState = 4 → ch < 96 → s.get (pSafe 3) (SAFE_CH.hres ch) = 3 →
    (s.ic ch).testStart + (s.chCfg ch).tminMs * edgesMs ≤ s.now → ∃ v : State, exec (.holdingTestEnd ch) s
      = .next ((v.evC (pSafe 0) 5).mbAnswer 7 0) ∧ v.get (pSafe 3) (SAFE_CH.hres ch) = 1 ∧
      v.get (pSafe 3) (SAFE_CH.hdue ch) = 0 ∧ (v.ic ch).passAt = s.now ∧ RegsOnly [pSafe 3 + 0x10 + ch] { s with isl := v.isl } v) ∧
  (∀ (s : State) p, s.isl.mb = some (8, p) → s.cycleDue = true → s.islState = 4 → p < 12 → (s.portCfg p).softAck = false →
    exec (.acknowledge p) s = .next (s.mbAnswer 8 4)) ∧
  (∀ (s : State) p, s.isl.mb = some (8, p) → s.cycleDue = true → s.islState = 4 → p < 12 → (s.portCfg p).softAck = true → exec (.acknowledge p) s
    = .next ((s.acknowledge [p]).mbAnswer 8 (if (s.acknowledge [p]).flag (pSafe 2) (SAFE_PORT.ackreq p) then 2 else 0))) ∧
  (∀ (s : State) l, s.get (pSafe 2) SAFE_SIF.f = 0 → (∀ p ∈ l, p < 12 ∧ s.causesOf p = []) → ∃ v : State,
    s.acknowledge l = v.ev (pSafe 0) 9 ∧ (∀ p ∈ l, v.flag (pSafe 2) (SAFE_PORT.ackreq p) = false ∧
      ∀ ch, ch / 8 = p → s.bstate ch = 4 → v.bstate ch = 0) ∧
      v.get (pSafe 0) SAFE_ACK.acc = (s.get (pSafe 0) SAFE_ACK.acc + 1) % 65536 ∧
      v.get (pSafe 0) SAFE_ACK.ign = s.get (pSafe 0) SAFE_ACK.ign ∧ (∀ p < 12, v.pstate p = s.pstate p)) ∧
  (∀ (s : State) p, p < 12 → s.islState ≠ 4 → s.flag (pSafe 2) (SAFE_PORT.ackreq p) = true →
    (s.acknowledge [p]).flag (pSafe 2) (SAFE_PORT.ackreq p) = true ∧
    (s.acknowledge [p]).get (pSafe 0) SAFE_ACK.ign = (s.get (pSafe 0) SAFE_ACK.ign + 1) % 65536 ∧
    (s.acknowledge [p]).get (pSafe 0) SAFE_ACK.acc = s.get (pSafe 0) SAFE_ACK.acc) ∧
  (∀ (s : State) p, s.get (pSafe 2) SAFE_SIF.f = 0 → s.causesOf p ≠ [] →
    (s.acknowledge [p]).get (pSafe 0) SAFE_ACK.ign = (s.get (pSafe 0) SAFE_ACK.ign + 1) % 65536 ∧
    (s.acknowledge [p]).get (pSafe 0) SAFE_ACK.acc = s.get (pSafe 0) SAFE_ACK.acc) ∧
  (∀ (s : State) p k, s.isl.mb = some (9, p + 16 * k) → s.cycleDue = true → s.islState = 4 → p < 12 → k < 4 → ∃ v : State,
    exec (.requestLimitSet p k) s = .next (v.mbAnswer 9 0) ∧ (v.ip p).mreq = k ∧ (∀ q, q ≠ p → v.ip q = s.ip q) ∧
      v = { s with isl := v.isl }) ∧
  (∀ (s : State) p, p < 12 → max (max (s.inputSet p) (s.get (pSafe 2) (SAFE_PORT.lreq p))) (s.ip p).mreq = s.get (pSafe 2) (SAFE_PORT.lset p) →
    s.updateLset p = s) ∧
  (∀ (s : State) p, p < 12 → (s.ip p).mreq < 4 →
    (s.updateLset p).get (pSafe 2) (SAFE_PORT.lset p) = max (max (s.inputSet p) (s.get (pSafe 2) (SAFE_PORT.lreq p))) (s.ip p).mreq) ∧
  (∀ (s : State) p, s.isl.mb = some (1, p) → s.islState = 4 → p < 16 →
    s.mbTake = (if s.isl.mbTaken then s.mbEnable p else { s with isl := { s.isl with mbTaken := true } }) ∧
    (s.isl.mbTaken = true → exec (.enablePort p) s = .next (s.mbEnable p)) ∧
    (s.isl.mbTaken = false → exec (.enablePort p) s = .next s)) ∧
  (∀ (s : State) o arg, s.isl.mb = some (o, arg) → s.cycleDue = false → o ≠ 1 → (∀ p, exec (.enablePort p) s = .next s) ∧
    (∀ p b, exec (.stopPort p b) s = .next s) ∧ (∀ ch, exec (.releaseBrake ch) s = .next s) ∧ (∀ ch, exec (.applyBrake ch) s = .next s) ∧
    (∀ ch, exec (.releaseEnvelopeStop ch) s = .next s) ∧ (∀ ch, exec (.holdingTestBegin ch) s = .next s) ∧
    (∀ ch, exec (.holdingTestEnd ch) s = .next s) ∧ (∀ p, exec (.acknowledge p) s = .next s) ∧
    (∀ p k, exec (.requestLimitSet p k) s = .next s)) ∧
  (∀ (s : State) p, s.isl.mb = some (1, p) → s.isl.mbTaken = true → s.islState = 4 → p < 12 → s.pstate p = 0 → s.flag (pSafe 2) (SAFE_PORT.ackreq p) = false →
    s.monitoredOf p = [] → s.causedNow p = true → exec (.enablePort p) s = .next (s.mbAnswer 1 2)) ∧
  (∀ (s : State) p, s.isl.mb = some (1, p) → s.isl.mbTaken = true → s.islState = 4 → p < 12 → s.pstate p = 0 → s.flag (pSafe 2) (SAFE_PORT.ackreq p) = false →
    s.causesOf p ≠ [] → s.monitoredOf p = [] → exec (.enablePort p) s = .next (s.mbAnswer 1 2))

/-- Safety inputs and outputs, connections, and brakes of the safety island. Inputs are sampled at least 10 us apart. An
input is qualified once its level has held for the filter time, and not while its test pulse masks it; a qualified
demand acts at once. A test pulse comes at its phase of the 10 ms frame and masks its group, and an input or a read-
back that fails it is a fault with its ports stopped; a pair that differs too long faults both; an SO whose read-back
fails goes off. A hold of ERST from 0.2 s to 2 s acknowledges every port, any other length is counted as ignored. A
connection sends once per ring cycle. A message of a connection carries number, length and CRC, and parses back; two
good messages in a row within the watchdog time make the connection healthy, and a bad, late or missing one makes it
fail with its reaction. A brake releases after its pull-in time, is tested, and faults with cause 12 on an overcurrent
or a failed test. Model choices: the layout of the CRC (log entry 86) and when a connection becomes healthy (log entry
87). Rules: R409, R415, R416, R417, R418, R419, R420, R421, R422, R527. -/
def Obligations.SafetyInputsAndBrakes : Prop :=
  (∀ (s : State) raw t, s.isl.siAt = some t → s.now < t + 10 * edgesUs → exec (.siSample raw) s = .next s) ∧
  (∀ (s : State) raw, (∀ t, s.isl.siAt = some t → t + 10 * edgesUs ≤ s.now) → ∃ t : State, exec (.siSample raw) s = .next t ∧ t.isl.siAt = some s.now ∧ t.get (pSafe 2) SAFE_SI.raw = raw % 2 ^ 32 ∧
    ∀ p < 12, ∀ c, governing ((List.range 32).flatMap (t.inputCauses p)) = some (c, false) → t.pstate p = 0) ∧
  (∀ (s : State) raw i g, (s.siCfg i).tpGroup = some g → s.now < Tab.rd s.isl.mask g → s.siOne raw i = s) ∧
  (∀ (s : State) raw i, i < 32 → (s.siCfg i).tpGroup = none → bitN raw i ≠ (Tab.rd s.isl.si i : IslIn).level → 0 < (s.siCfg i).filterUs →
    ∃ t : State, s.siOne raw i = t ∧ Tab.rd t.isl.si i = ({ (Tab.rd s.isl.si i : IslIn) with level := bitN raw i, run := 1 } : IslIn) ∧
      t = { s with isl := t.isl }) ∧
  (∀ (s : State) raw i, i < 32 → (s.siCfg i).tpGroup = none → bitN raw i = (Tab.rd s.isl.si i : IslIn).level →
    (s.siCfg i).filterUs ≤ 10 * (Tab.rd s.isl.si i : IslIn).run → ∃ t : State, s.siOne raw i = t ∧
      bitN (t.get (pSafe 2) SAFE_SIQ.q) i = bitN raw i ∧ (Tab.rd t.isl.si i : IslIn).run = (Tab.rd s.isl.si i : IslIn).run + 1 ∧
      (∀ j < 32, j ≠ i → bitN (t.get (pSafe 2) SAFE_SIQ.q) j = bitN (s.get (pSafe 2) SAFE_SIQ.q) j) ∧
      RegsOnly [pSafe 2 + 0x11] { s with isl := t.isl } t) ∧
  (∀ (s : State) k m r, s.tpDue k = false → exec (.testPulse k m r) s = .next s) ∧
  (∀ (s : State) k, (s.tpDue k = true ↔ k < 8 ∧ s.flag (pSafe 0) SAFE_STAT.hwsafe = false ∧ s.islState ≠ 0 ∧
      (s.now - s.isl.startAt) % (10000 * edgesUs) = 1250 * k * edgesUs ∧ Tab.rd s.isl.mask k ≤ s.now) ∧
    (s.soDue k = true ↔ k < 4 ∧ s.flag (pSafe 0) SAFE_STAT.hwsafe = false ∧ s.islState ≠ 0 ∧
      (s.now - s.isl.startAt) % (10000 * edgesUs) = (625 + 1250 * k) * edgesUs ∧ Tab.rd s.isl.soPulse k ≤ s.now)) ∧
  (∀ (s : State) k, s.flag (pSafe 0) SAFE_STAT.hwsafe = true → s.tpLevel k = false ∧ s.soLevel k = false) ∧
  (∀ (s : State) k m, s.tpDue k = true → (∀ i < 32, (s.siCfg i).tpGroup = some k → bitN m i = false) → (∀ i < 32, ∀ g, (s.siCfg i).tpGroup = some g →
      g ≠ k → bitN m i = true ∨ bitN (s.get (pSafe 2) SAFE_SI.raw) i = false) → ∃ t : State, exec (.testPulse k m true) s = .next t ∧
    Tab.rd t.isl.mask k = s.now + (s.isl.img.tpwUs.getD k 250 + 50) * edgesUs ∧ t = { s with isl := { s.isl with mask := t.isl.mask } }) ∧
  (∀ (s : State) k m i, s.tpDue k = true → i < 32 → (s.siCfg i).tpGroup = some k → bitN m i = true → ∃ t : State, exec (.testPulse k m true) s = .next t ∧
    bitN (t.get (pSafe 2) SAFE_SIF.f) i = true ∧ (Tab.rd t.isl.si i : IslIn).badAt = s.now ∧
    ∀ p < 12, bitN (s.siCfg i).ports p = true → t.pstate p = 0) ∧
  (∀ (s : State) k m, s.tpDue k = true → ∃ v : State, exec (.testPulse k m false) s = .next (v.evC (pSafe 0) 4) ∧
    bitN (v.get (pSafe 2) SAFE_OUT.tpfault) k = true ∧ Tab.rd v.isl.tpBad k = s.now ∧
    ∀ i < 32, (s.siCfg i).tpGroup = some k → bitN (v.get (pSafe 2) SAFE_SIF.f) i = true) ∧
  (∀ (s : State) i, ((s.siCfg i).pair = none ∨ (Tab.rd s.isl.si i : IslIn).differ = none ∨ 32 ≤ i) → exec (.pairDiscrepancy i) s = .next s) ∧
  (∀ (s : State) i j t, (s.siCfg i).pair = some j → (Tab.rd s.isl.si i : IslIn).differ = some t → s.now ≤ t + (s.siCfg i).tdiscMs * edgesMs →
    exec (.pairDiscrepancy i) s = .next s) ∧
  (∀ (s : State) i j t, i < 32 → j < 32 → (s.siCfg i).pair = some j → (Tab.rd s.isl.si i : IslIn).differ = some t →
    t + (s.siCfg i).tdiscMs * edgesMs < s.now → ∃ u : State, exec (.pairDiscrepancy i) s = .next u ∧
      bitN (u.get (pSafe 2) SAFE_SIF.f) i = true ∧ bitN (u.get (pSafe 2) SAFE_SIF.f) j = true ∧
      (Tab.rd u.isl.si i : IslIn).seq = 0 ∧ (Tab.rd u.isl.si j : IslIn).seq = 0) ∧
  (∀ (s : State) k r, s.soDue k = false → exec (.soTestPulse k r) s = .next s) ∧
  (∀ (s : State) k, s.soDue k = true → ∃ t : State, exec (.soTestPulse k true) s = .next t ∧ Tab.rd t.isl.soPulse k = s.now + 300 * edgesUs ∧
    t.soLevel k = false ∧ t = { s with isl := { s.isl with soPulse := t.isl.soPulse } }) ∧
  (∀ (s : State) k, s.soDue k = true → ∃ v : State, exec (.soTestPulse k false) s = .next (v.evC (pSafe 0) 4) ∧
    bitN (v.get (pSafe 2) SAFE_OUT.sofault) k = true ∧ bitN (v.get (pSafe 2) SAFE_OUT.so) k = false ∧
    RegsOnly [pSafe 2 + 0x13] { s with isl := v.isl } v) ∧
  (∀ s : State, s.soUpdate.get (pSafe 2) SAFE_OUT.so < 16 ∧ ∀ k < 4, bitN (s.soUpdate.get (pSafe 2) SAFE_OUT.so) k = s.soOn k) ∧
  (∀ (s : State) ms, s.isl.erstUsed = true → exec (.erstFallingEdge ms) s = .next { s with isl := { s.isl with erstUsed := false } }) ∧
  (∀ (s : State) ms, s.isl.erstUsed = false → 200 ≤ ms → ms ≤ 2000 → exec (.erstFallingEdge ms) s = .next (s.acknowledge (List.range 12))) ∧
  (∀ (s : State) ms, s.isl.erstUsed = false → (ms < 200 ∨ 2000 < ms) → ∃ t : State, exec (.erstFallingEdge ms) s = .next t ∧
    t.get (pSafe 0) SAFE_ACK.ign = (s.get (pSafe 0) SAFE_ACK.ign + 1) % 65536 ∧ RegsOnly [pSafe 0 + 0x13] s t) ∧
  (∀ (c : ConnCfg) num data, c.conn < 65536 → num < 65536 → data.length ≤ 1520 → safetyParse c (safetyMessage c num data) = some (num, data)) ∧
  (∀ (s : State) slot octets, s.isl.img.rx = [] → exec (.safetyMessageReceive slot octets) s = .next s) ∧
  (∀ (s : State) slot octets k c, s.isl.img.rx = [(k, c)] → (c.slot ≠ slot → exec (.safetyMessageReceive slot octets) s = .next s) ∧
    (c.slot = slot → exec (.safetyMessageReceive slot octets) s = .next (s.connMessage k c octets))) ∧
  (∀ (s : State) k c o, safetyParse c o = none → s.connMessage k c o = s.connFail k c) ∧
  (∀ (s : State) k c o num data, k < 64 → safetyParse c o = some (num, data) → (Tab.rd s.isl.conn k : IslConn).num = some ((num + 65535) % 65536) →
    num < 65536 → 1 ≤ (Tab.rd s.isl.conn k : IslConn).goods → s.now ≤ (Tab.rd s.isl.conn k : IslConn).at_ + c.wdMs * edgesMs →
    s.isl.img.scanners = [] → ∃ t : State, s.connMessage k c o = t ∧ t.connOk k = true ∧ Tab.rd t.isl.conn k = ({ num := some num, goods := (Tab.rd s.isl.conn k : IslConn).goods + 1, at_ := s.now } : IslConn) ∧
      (∀ j < 64, j ≠ k → t.connOk j = s.connOk j)) ∧
  (∀ (s : State) k c o num data, k < 64 → safetyParse c o = some (num, data) → (Tab.rd s.isl.conn k : IslConn).num = some ((num + 65535) % 65536) →
    num < 65536 → (Tab.rd s.isl.conn k : IslConn).goods = 0 → s.isl.img.scanners = [] → ∃ t : State, s.connMessage k c o = t ∧
      t.connOk k = s.connOk k ∧ Tab.rd t.isl.conn k = ({ num := some num, goods := 1, at_ := s.now } : IslConn) ∧ t.regs = s.regs) ∧
  (∀ (s : State) k c o num data, k < 64 → safetyParse c o = some (num, data) → (∃ x, (Tab.rd s.isl.conn k : IslConn).num = some x ∧
    num ≠ (x + 1) % 65536) → s.connOk k = true → (s.connMessage k c o).connOk k = false) ∧
  (∀ (s : State) k c, s.connOk k = false → ∃ t : State, s.connFail k c = t ∧ (Tab.rd t.isl.conn k : IslConn).goods = 0 ∧ t = { s with isl := t.isl }) ∧
  (∀ (s : State) k c, k < 64 → s.connOk k = true → ∃ t : State, s.connFail k c = t ∧ (Tab.rd t.isl.conn k : IslConn).goods = 0 ∧
    t.connOk k = false ∧ bitN (t.get (pSafe 0) PAGE_EV.ev) 6 = true ∧ (c.ss1 = false → ∀ p < 12, bitN c.ports p = true → t.pstate p = 0)) ∧
  (∀ (s : State) k, (∀ e ∈ s.isl.img.rx, e.1 ≠ k) ∨ s.connOk k = false → exec (.connectionWatchdogExpire k) s = .next s) ∧
  (∀ (s : State) k c, s.isl.img.rx.find? (fun e => e.1 == k) = some (k, c) → s.connOk k = true →
    (s.now ≤ (Tab.rd s.isl.conn k : IslConn).at_ + c.wdMs * edgesMs → exec (.connectionWatchdogExpire k) s = .next s) ∧
    ((Tab.rd s.isl.conn k : IslConn).at_ + c.wdMs * edgesMs < s.now → exec (.connectionWatchdogExpire k) s = .next (s.connFail k c))) ∧
  (∀ (s : State) k data, (∀ e ∈ s.isl.img.tx, e.1 ≠ k) ∨ 1520 < data.length ∨
    (Tab.get (fun _ => none) s.isl.txCyc k : Option Nat) = some s.sendCycle → exec (.safetyMessageSend k data) s = .next s) ∧
  (∀ (s : State) k c data, s.isl.img.tx.find? (fun e => e.1 == k) = some (k, c) → data.length ≤ 1520 →
    (Tab.get (fun _ => none) s.isl.txCyc k : Option Nat) ≠ some s.sendCycle → ∃ t : State, exec (.safetyMessageSend k data) s = .next t ∧
      Tab.rd t.ring.safety c.slot = safetyMessage { c with seed := s.get pSys SYS_SERIAL_LO.serial_lo } (Tab.rd s.isl.txNum k) data ∧
      (Tab.get (fun _ => none) t.isl.txCyc k : Option Nat) = some s.sendCycle ∧ Tab.rd t.isl.txNum k = (Tab.rd s.isl.txNum k + 1) % 65536 ∧ t = { s with isl := t.isl, ring := t.ring }) ∧
  (∀ (s : State) ch, s.bstate ch = 5 → s.brakeFault ch = s) ∧
  (∀ (s : State) ch, ch < 96 → s.bstate ch ≠ 5 → ∃ t : State, s.brakeFault ch = t ∧ t.bstate ch = 4 ∧ t.pstate (ch / 8) = 0 ∧
    (s.pstate (ch / 8) ≠ 0 → t.get (pSafe 2) (SAFE_PORT.cause (ch / 8)) = 12) ∧ bitN (t.get (pSafe 0) PAGE_EV.ev) 5 = true) ∧
  (∀ (s : State) ch, (96 ≤ ch ∨ s.bstate ch ≠ 1 ∨ s.now < (s.ic ch).pullAt + (s.chCfg ch).tpullMs * edgesMs) →
    exec (.brakePullInEnd ch) s = .next s) ∧
  (∀ (s : State) ch, ch < 96 → s.bstate ch = 1 → (s.ic ch).pullAt + (s.chCfg ch).tpullMs * edgesMs ≤ s.now → ∃ t : State,
    exec (.brakePullInEnd ch) s = .next t ∧ t.bstate ch = 2 ∧ (t.ic ch).testAt = s.now ∧ RegsOnly [pSafe 3 + 0x10 + ch] { s with isl := t.isl } t) ∧
  (∀ (s : State) ch, ((s.ic ch).sbc = none ∨ 96 ≤ ch ∨ ∃ t, (s.ic ch).sbc = some t ∧ s.now < t) → exec (.sbcDelayExpire ch) s = .next s) ∧
  (∀ (s : State) ch t, ch < 96 → (s.ic ch).sbc = some t → t ≤ s.now → ∃ u : State, exec (.sbcDelayExpire ch) s = .next u ∧
    u.bstate ch = (if inRange (s.bstate ch) 1 2 then 0 else s.bstate ch) ∧ (u.ic ch).sbc = none ∧
    RegsOnly [pSafe 3 + 0x10 + ch] { s with isl := u.isl } u) ∧
  (∀ (s : State) ch ok, (96 ≤ ch ∨ s.bstate ch ≠ 2 ∨ s.now < (s.ic ch).testAt + (s.chCfg ch).tbtMs * edgesMs) →
    exec (.brakeSwitchTest ch ok) s = .next s) ∧
  (∀ (s : State) ch ok, ch < 96 → s.bstate ch = 2 → (s.ic ch).testAt + (s.chCfg ch).tbtMs * edgesMs ≤ s.now → ∃ v : State,
    exec (.brakeSwitchTest ch ok) s = .next (if ok then v else v.brakeFault ch) ∧ (v.ic ch).testAt = s.now ∧
      (v.ic ch).low = !(s.ic ch).low ∧ v = { s with isl := v.isl }) ∧
  (∀ (s : State) ch, (96 ≤ ch ∨ s.get (pSafe 3) (SAFE_CH.hres ch) ≠ 3 ∨ s.now < (s.ic ch).testStart + 10000 * edgesMs) →
    exec (.holdingTestTimeout ch) s = .next s) ∧
  (∀ (s : State) ch, ch < 96 → s.get (pSafe 3) (SAFE_CH.hres ch) = 3 → (s.ic ch).testStart + 10000 * edgesMs ≤ s.now → s.bstate ch ≠ 5 →
    ∃ t : State, exec (.holdingTestTimeout ch) s = .next t ∧ t.get (pSafe 3) (SAFE_CH.hres ch) = 2 ∧ t.bstate ch = 4 ∧ t.pstate (ch / 8) = 0) ∧
  (∀ (s : State) ch, (96 ≤ ch ∨ (s.chCfg ch).brake = false ∨ s.now < (s.ic ch).passAt + (s.chCfg ch).testH * edgesHour) →
    exec (.holdingTestDue ch) s = .next s) ∧
  (∀ (s : State) ch, ch < 96 → (s.chCfg ch).brake = true → (s.ic ch).passAt + (s.chCfg ch).testH * edgesHour ≤ s.now → ∃ t : State,
    exec (.holdingTestDue ch) s = .next t ∧ t.get (pSafe 3) (SAFE_CH.hdue ch) = 1 ∧ RegsOnly [pSafe 3 + 0x10 + ch] s t) ∧
  (∀ (s : State) ch, (96 ≤ ch ∨ inRange (s.bstate ch) 1 2 = false) → exec (.brakeOvercurrent ch) s = .next s) ∧
  (∀ (s : State) ch, ch < 96 → inRange (s.bstate ch) 1 2 = true → ∃ t : State, exec (.brakeOvercurrent ch) s = .next t ∧ t.bstate ch = 4 ∧
    t.pstate (ch / 8) = 0)

/-- The stores: scrub reads, error counts, the event log and the MRAM write queue. A scrubber that is on reads its words
in ascending order, counts what it finds, records a pass more than 1 % late once with event 6, and counts a pass at
the last word; one that is off does nothing. An error is counted, shown in the last-error words with its source, and
classed lasting by bank and by row at its threshold. Log records wait in a queue of 32, and at most one per 100 us is
written, behind the last one, with its sequence number. A word written to MEM_MW_DATA is queued for an open region,
else counted as refused; a queued word is written, and after two mismatches its content is undefined: a free value.
Model choices: the initiator that a scrub read shows is a free value (log entry 70). Rules: R461, R462, R464, R465,
R466, R467, R468, R469, R470, R471, R472. -/
def Obligations.MemoryCommands : Prop :=
  (∀ (s : State) a how, (targetOf a.toNat = .dram → s.flag (pMem (1 + dramCh a.toNat)) MEM_DSCRUB.en = false ∨
      dramL a.toNat / 32 ≠ s.scrubAt (1 + dramCh a.toNat)) →
    (∀ c, targetOf a.toNat = .commons ∨ targetOf a.toNat = .localData c ∨ targetOf a.toNat = .localInst c → s.flag (pMem 0) MEM_SCRUB.en = false ∨
      a.toNat ≠ s.scrubAt 0) → exec (.scrubRead a how) s = .next s) ∧
  (∀ (s : State) (a : Word) i, targetOf a.toNat = .dram → s.flag (pMem (1 + dramCh a.toNat)) MEM_DSCRUB.en = true → i = dramL a.toNat / 32 →
    i = s.scrubAt (1 + dramCh a.toNat) → i < 2 ^ 27 - 1 →
    exec (.scrubRead a .ok) s = .next ((s.scrubPace a.toNat).setScrub (1 + dramCh a.toNat) (i + 1)) ∧ (∀ syn, exec (.scrubRead a (.corrected syn)) s
      = .next (((({ s with freeN := s.freeN + 1 } : State).dramError a.toNat 2 (Config.free s.freeN) syn false false).scrubPace a.toNat).setScrub
        (1 + dramCh a.toNat) (i + 1)))) ∧
  (∀ (s : State) k v, (s.setScrub k v).scrubAt k = v ∧ (∀ j, j ≠ k → (s.setScrub k v).scrubAt j = s.scrubAt j) ∧
    s.setScrub k v = { s with scrubPos := (s.setScrub k v).scrubPos }) ∧
  (∀ a, targetOf a = .commons ∨ (∃ c, targetOf a = .localData c ∨ targetOf a = .localInst c) →
    (∃ c, targetOf (sramNext a) = .localData c ∨ targetOf (sramNext a) = .localInst c) ∨ targetOf (sramNext a) = .commons) ∧
  (∀ (s : State) a, dramL a / 32 = 0 → s.scrubPace a
    = { s with dscrub := Tab.set (fun _ => (0, false)) s.dscrub (dramCh a) (s.t64 0, false) }) ∧
  (∀ (s : State) a t, 1 ≤ dramL a / 32 → Tab.get (fun _ => (0, false)) s.dscrub (dramCh a) = (t, false) →
    100 * 2 ^ 27 * (s.t64 0 - t) ≤ s.get (pMem (1 + dramCh a)) MEM_DSCRUB.per * secUnits * (100 * (dramL a / 32) + 2 ^ 27) →
    s.scrubPace a = s) ∧
  (∀ (s : State) a t, 1 ≤ dramL a / 32 → Tab.get (fun _ => (0, false)) s.dscrub (dramCh a) = (t, false) →
    s.get (pMem (1 + dramCh a)) MEM_DSCRUB.per * secUnits * (100 * (dramL a / 32) + 2 ^ 27) < 100 * 2 ^ 27 * (s.t64 0 - t) →
    s.scrubPace a = ({ s with dscrub := Tab.set (fun _ => (0, false)) s.dscrub (dramCh a) (t, true) } : State).evC (pMem (1 + dramCh a)) 6) ∧
  (∀ (s : State) a t, 1 ≤ dramL a / 32 → Tab.get (fun _ => (0, false)) s.dscrub (dramCh a) = (t, true) → s.scrubPace a = s) ∧
  (∀ (s : State) (a : Word), targetOf a.toNat = .dram → s.flag (pMem (1 + dramCh a.toNat)) MEM_DSCRUB.en = true → dramL a.toNat / 32 = 2 ^ 27 - 1 →
    s.scrubAt (1 + dramCh a.toNat) = 2 ^ 27 - 1 → ∃ v : State, exec (.scrubRead a .ok) s = .next (v.ev (pMem (1 + dramCh a.toNat)) 5) ∧
      v.scrubAt (1 + dramCh a.toNat) = 0 ∧ v.get (pMem (1 + dramCh a.toNat)) MEM_DPASS.n = (s.get (pMem (1 + dramCh a.toNat)) MEM_DPASS.n + 1) % 2 ^ 36) ∧
  (∀ (s : State) (a : Word), targetOf a.toNat = .commons → s.flag (pMem 0) MEM_SCRUB.en = true → a.toNat = s.scrubAt 0 →
    exec (.scrubRead a .ok) s = .next (s.setScrub 0 (sramNext a.toNat)) ∧ ∀ syn, exec (.scrubRead a (.uncorrectable syn)) s
      = .next ((({ s with freeN := s.freeN + 1 } : State).sramError a.toNat 2 (Config.free s.freeN) syn true).setScrub 0 (sramNext a.toNat))) ∧
  (∀ (s : State) (a : Word), a.toNat = 0xF40000000 + 63 * 0x20000 + 0x13FFF → s.flag (pMem 0) MEM_SCRUB.en = true → a.toNat = s.scrubAt 0 →
    ∃ v : State, exec (.scrubRead a .ok) s = .next (v.ev (pMem 0) 2) ∧ v.scrubAt 0 = 0xF00000000 ∧
      v.get (pMem 0) MEM_SR_PASS.n = (s.get (pMem 0) MEM_SR_PASS.n + 1) % 2 ^ 36) ∧
  (∀ (s : State) a src ini syn, src < 4 → ∃ v : State, s.sramError a src ini syn false = v.evC (pMem 0) 0 ∧ v.reg (pMem 0 + 0x13) = a % 2 ^ 36 ∧
    v.reg (pMem 0 + 0x14) = src * 2 ^ 32 + ini % 256 * 2 ^ 24 + syn % 128 ∧
    v.get (pMem 0) MEM_SR_CE.n = min (2 ^ 36 - 1) (s.get (pMem 0) MEM_SR_CE.n + 1)) ∧
  (∀ (s : State) a src ini syn, src < 4 → ∃ v u : State, RegsOnly [pMem 0 + 0x13, pMem 0 + 0x14] s u ∧ s.sramError a src ini syn true = (v.evC (pMem 0) 1).pushLog (u.logUe 0 (2 ^ 35 + src * 2 ^ 32 + ini % 256 * 2 ^ 24 + syn % 128) a) ∧
    v.get (pMem 0) MEM_SR_UE.n = min (2 ^ 36 - 1) (s.get (pMem 0) MEM_SR_UE.n + 1)) ∧
  (∀ (s : State) a, (∃ v : State, s.mramError a false = v.evC (pMem 3) 4 ∧ v.get (pMem 3) MEM_MCE.n = min (2 ^ 36 - 1) (s.get (pMem 3) MEM_MCE.n + 1)) ∧
    ∃ v : State, s.mramError a true = (v.evC (pMem 3) 5).pushLog (s.logUe 3 0 a) ∧
      v.get (pMem 3) MEM_MUE.n = min (2 ^ 36 - 1) (s.get (pMem 3) MEM_MUE.n + 1)) ∧
  (∀ (s : State) k b, k < 4 → b < 32 → s.reg (pMem k + 0x40 + b) % 256 < 255 → bitN (s.reg (pMem k + 0x40 + b)) 35 = false →
    s.reg (pMem k + 0x40 + b) % 256 + 1 + s.reg (pMem k + 0x40 + b) / 256 % 256 < s.get (pMem k) MEM_DTHR.nbank →
    s.reg (pMem k + 0x40 + b) / 2 ^ 16 % 2 ^ 16 < 65535 → ∃ t : State, s.bankCount k b = t ∧
      t.reg (pMem k + 0x40 + b) % 256 = s.reg (pMem k + 0x40 + b) % 256 + 1 ∧
      t.reg (pMem k + 0x40 + b) / 256 % 256 = s.reg (pMem k + 0x40 + b) / 256 % 256 ∧
      t.reg (pMem k + 0x40 + b) / 2 ^ 16 % 2 ^ 16 = s.reg (pMem k + 0x40 + b) / 2 ^ 16 % 2 ^ 16 + 1 ∧ RegsOnly [pMem k + 0x40 + b] s t) ∧
  (∀ (s : State) k b, k < 4 → b < 32 → bitN (s.reg (pMem k + 0x40 + b)) 35 = false →
    s.get (pMem k) MEM_DTHR.nbank ≤ s.reg (pMem k + 0x40 + b) % 256 + s.reg (pMem k + 0x40 + b) / 256 % 256 → ∃ v : State,
    s.bankCount k b = (v.ev (pMem k) 2).pushLog (v.logTrack k (0x40 + b) (v.reg (pMem k + 0x40 + b)) 0) ∧
      bitN (v.reg (pMem k + 0x40 + b)) 35 = true ∧ RegsOnly [pMem k + 0x40 + b] s v) ∧
  (∀ (s : State) k b r i, s.rowEntry k b r = some i → i < 16 ∧ (s.get (pMem k) (MEM_DROW.used i) = 0 ∨
    s.get (pMem k) (MEM_DROW.used i) = 1 ∧ s.get (pMem k) (MEM_DROW.bank i) = b ∧ s.get (pMem k) (MEM_DROW.row i) = r)) ∧
  (∀ (s : State) k i, s.rowVictim k (List.range 16) none = some i → i < 16 ∧ s.get (pMem k) (MEM_DROWS.lasting i) ≠ 1 ∧
    ∀ j < 16, s.get (pMem k) (MEM_DROWS.lasting j) ≠ 1 → s.rowSum k i < s.rowSum k j ∨ s.rowSum k i = s.rowSum k j ∧ i ≤ j) ∧
  (∀ (s : State) r, s.get (pMem 3) MEM_LOG.en = 1 → s.logq.length < 32 → s.pushLog r = { s with logq := s.logq ++ [r] }) ∧
  (∀ (s : State) r, s.get (pMem 3) MEM_LOG.en = 0 → s.pushLog r = s) ∧
  (∀ s : State, (s.logq = [] ∨ s.logScanned = false ∨ ∃ t, s.logAt = some t ∧ s.t64 0 < t + 6400000) → exec .logRecordWrite s = .next s) ∧
  (∀ (s : State) r q, s.logq = r :: q → s.logScanned = true → (∀ t, s.logAt = some t → t + 6400000 ≤ s.t64 0) → r.ws.length = 6 →
    ∃ v : State, exec .logRecordWrite s = .next (v.ev (pMem 3) 2) ∧ v.logq = q ∧ v.logAt = some (s.t64 0) ∧
      v.memW (logAddr (s.get (pMem 3) MEM_LOG.next)) = word (r.kind * 2 ^ 32 + s.get (pMem 3) MEM_LOG_SEQ.seq) ∧
      (∀ i < 6, v.memW (logAddr (s.get (pMem 3) MEM_LOG.next) + 1 + i) = word (r.ws.getD i 0)) ∧
      v.memW (logAddr (s.get (pMem 3) MEM_LOG.next) + 7) = 0 ∧
      (∀ a, (a < logAddr (s.get (pMem 3) MEM_LOG.next) ∨ logAddr (s.get (pMem 3) MEM_LOG.next) + 8 ≤ a) → v.memW a = s.memW a) ∧
      (s.get (pMem 3) MEM_LOG.next < 122879 → v.get (pMem 3) MEM_LOG.next = s.get (pMem 3) MEM_LOG.next + 1) ∧
      (s.get (pMem 3) MEM_LOG.next = 122879 → v.get (pMem 3) MEM_LOG.next = 0) ∧
      v.get (pMem 3) MEM_LOG_SEQ.seq = (s.get (pMem 3) MEM_LOG_SEQ.seq + 1) % 2 ^ 32) ∧
  (∀ s : State, s.logScanned = true → exec .logScanDone s = .next s) ∧
  (∀ s : State, s.logScanned = false → ∃ t : State, exec .logScanDone s = .next t ∧ t.logScanned = true ∧ t.mem = s.mem ∧
    (s.mem = [] → t = { s with logScanned := true }) ∧
    (∀ b, lastRecord s.mem none = some b → b.1 < 122879 → t.get (pMem 3) MEM_LOG.next = b.1 + 1 ∧
      t.get (pMem 3) MEM_LOG_SEQ.seq = (b.2 + 1) % 2 ^ 32)) ∧
  (∀ (s : State) v, s.takes (pMem 3 + 0x11) → s.mramOpen (s.get (pMem 3) MEM_MW_ADDR.off) = true → ∃ t : State, exec (.mwDataWrite v) s = .next t ∧
    t.mwq = s.mwq ++ [{ off := s.get (pMem 3) MEM_MW_ADDR.off, w := v }] ∧
    t.get (pMem 3) MEM_MW_ADDR.off = (s.get (pMem 3) MEM_MW_ADDR.off + 1) % 2 ^ 23 ∧
    t.get (pMem 3) MEM_MSTAT.level = min 16 (s.mwq.length + 1) ∧ t.mem = s.mem) ∧
  (∀ (s : State) v, s.takes (pMem 3 + 0x11) →
    s.mramOpen (s.get (pMem 3) MEM_MW_ADDR.off) = false → ∃ u : State, exec (.mwDataWrite v) s = .next (u.ev (pMem 3) 1) ∧
    u.get (pMem 3) MEM_MSTAT.refused = satN (2 ^ (MEM_MSTAT.refused.hi + 1 - MEM_MSTAT.refused.lo) - 1) (s.get (pMem 3) MEM_MSTAT.refused + 1) ∧
    u.mwq = s.mwq ∧ u.get (pMem 3) MEM_MW_ADDR.off = s.get (pMem 3) MEM_MW_ADDR.off) ∧
  (∀ (s : State) a b, s.mwq = [] → exec (.mramWordWrite a b) s = .next s) ∧
  (∀ (s : State) r q a b, s.mwq = r :: q → (a = true ∨ b = true) → ∃ t : State, exec (.mramWordWrite a b) s = .next t ∧ t.mwq = q ∧
    t.memW (0xE00000000 + r.off) = r.w ∧ (∀ x, x ≠ 0xE00000000 + r.off → t.memW x = s.memW x) ∧
    t.get (pMem 3) MEM_MSTAT.level = min 16 q.length) ∧
  (∀ (s : State) r q, s.mwq = r :: q → ∃ v : State, exec (.mramWordWrite false false) s = .next (v.evC (pMem 3) 0) ∧ v.mwq = q ∧
    v.memW (0xE00000000 + r.off) = word (Config.free s.freeN) ∧ (∀ x, x ≠ 0xE00000000 + r.off → v.memW x = s.memW x))

/-- The Porters: starts, engines, descriptors done and failed, and the block reset. A start is refused with 32 chains in
flight, under action 4 and during the block reset; for a disabled slot it is a failure with code 8; else the chain
waits and is counted. An idle engine takes the oldest chain of an urgent slot, else the oldest, never two of one slot;
it reads the descriptor and checks it. A copy or a fill moves one word on an edge, unless a block holds it; a fill
writes its word to every destination; at the end done is written back, the task is posted and the chain ends or goes
on. A failure writes err and code back, records slot and address, and ends the chain. The block reset aborts every
chain with code 6. Model choices: a start with code 8 records event 2 and is no refusal (log entry 72), and the pace
of the moves, the rest of which happen at the command that ends the descriptor (log entry 73). Rules: R41, R477, R478,
R479, R480, R481. -/
def Obligations.PorterCommands : Prop :=
  (∀ (s : State) k, s.takes (pPorter0 + 0x10) → 64 ≤ k → exec (.porterStart k) s = .next s) ∧
  (∀ (s : State) k, s.takes (pPorter0 + 0x10) →
    k < 64 → (32 ≤ s.chains.length ∨ pPorter0 ∈ s.srstBusy ∨ pageBlocked s pPorter0 = true) → ∃ v : State,
    exec (.porterStart k) s = .next (v.evC pPorter0 1) ∧ v.porter = s.porter ∧
      v.get pPorter0 PORTER_STAT.refused = satN (2 ^ (PORTER_STAT.refused.hi + 1 - PORTER_STAT.refused.lo) - 1) (s.get pPorter0 PORTER_STAT.refused + 1)) ∧
  (∀ (s : State) k, s.takes (pPorter0 + 0x10) → k < 64 → s.chains.length < 32 → pPorter0 ∉ s.srstBusy → pageBlocked s pPorter0 = false →
    s.flag pPorter1 (PORTER_SCTL.en k) = false → ∃ v : State, exec (.porterStart k) s = .next (v.evC pPorter0 2) ∧
      v.get pPorter0 PORTER_ELAST.code = 8 ∧ v.get pPorter0 PORTER_ELAST.slot = k ∧
      v.get pPorter0 PORTER_EADDR.a = s.get pPorter1 (PORTER_SHEAD.head k) ∧ v.porter = s.porter) ∧
  (∀ (s : State) k, s.takes (pPorter0 + 0x10) → k < 64 → s.chains.length < 32 → pPorter0 ∉ s.srstBusy → pageBlocked s pPorter0 = false →
    s.flag pPorter1 (PORTER_SCTL.en k) = true → ∃ t : State, exec (.porterStart k) s = .next t ∧
      t.porter = { s.porter with queue := s.porter.queue ++ [k] } ∧ t.get pPorter0 PORTER_STAT.inflight = s.chains.length + 1 ∧
      s.chains.length + 1 ≤ t.get pPorter0 PORTER_STAT.hwm ∧ t.mem = s.mem) ∧
  (∀ (s : State) e, (4 ≤ e ∨ s.porterRuns = false ∨ pageBlocked s pPorter0 = true) → exec (.engineAssign e) s = .next s) ∧
  (∀ (s : State) e r d, s.pe e = some r → r.desc = some d → exec (.engineAssign e) s = .next s) ∧
  (∀ (s : State) e, s.pe e = none → s.nextChain = none → exec (.engineAssign e) s = .next s) ∧
  (∀ s : State, s.porter.queue = [] → s.nextChain = none) ∧
  (∀ (s : State) k, s.nextChain = some k → k ∈ s.porter.queue ∧ (∀ e < 4, ∀ r, s.pe e = some r → r.slot ≠ k) ∧
    (s.flag pPorter1 (PORTER_SCTL.urg k) = false → ∀ j ∈ s.porter.queue, s.flag pPorter1 (PORTER_SCTL.urg j) = true → ∃ e < 4, ∃ r, s.pe e = some r ∧ r.slot = j)) ∧
  (∀ (s : State) e k, e < 4 → s.porterRuns = true → pageBlocked s pPorter0 = false → s.pe e = none → s.nextChain = some k → ∃ v : State,
    exec (.engineAssign e) s = .next (v.beginDesc e { slot := k, addr := s.get pPorter1 (PORTER_SHEAD.head k) }) ∧
      v = { s with porter := { s.porter with queue := s.porter.queue.erase k } }) ∧
  (∀ (s : State) e (r : PorterEng), descAddrOk r.addr = false → s.beginDesc e r = s.descFail e { r with desc := none } 7) ∧
  (∀ a, descAddrOk a = true ↔ a % 8 = 0 ∧ (targetOf a = .commons ∨ targetOf a = .dram)) ∧
  (∀ (s : State) e (r : PorterEng) d, descAddrOk r.addr = true → (s.busRead (engIni e) r.addr).1.isSome = true →
    d = (List.range 8).map (fun i => s.memW (r.addr + i)) → (dValid d = false → s.beginDesc e r
      = (s.setPe e (some { r with desc := some d })).descFail e { r with desc := some d } 1) ∧
    (dValid d = true → dKind d < 2 → s.beginDesc e r = s.setPe e (some { r with desc := some d }))) ∧
  (∀ (s : State) e (r : PorterEng) d (w : Word) l code, code < 16 → e < 4 → r.slot < 64 → r.desc = some d → d = w :: l → bitN w.toNat 31 = false → ∃ v : State,
    s.descFail e r code = v.showChains r.slot ∧ v.pe e = none ∧ v.get pPorter0 PORTER_ELAST.code = code ∧
      v.get pPorter0 PORTER_ELAST.slot = r.slot ∧ v.get pPorter0 PORTER_EADDR.a = r.addr % 2 ^ 36 ∧
      v.memW r.addr = word (w.toNat % 64 + code * 64 + 2 ^ 10 + w.toNat / 2 ^ 12 * 2 ^ 12) ∧ (∀ a, a ≠ r.addr → v.memW a = s.memW a) ∧
      bitN (v.get pPorter0 PAGE_EV.ev) 2 = true) ∧
  (∀ (s : State) e, (∀ r d, s.pe e = some r → r.desc = some d → s.porterRuns = false) → exec (.descriptorDone e) s = .next s ∧
    ∀ a w how, exec (.descriptorFailed e a w how) s = .next s) ∧
  (∀ (s : State) e (r : PorterEng) d, s.pe e = some r → r.desc = some d → s.porterRuns = true → dKind d = 2 → 0 < s.mramLeft e → exec (.descriptorDone e) s = .next s) ∧
  (∀ (s : State) e (r : PorterEng) d, s.pe e = some r → r.desc = some d → s.porterRuns = true → dKind d = 2 → s.mramLeft e = 0 →
    exec (.descriptorDone e) s = .next (s.descEnd e r d)) ∧
  (∀ (s : State) e (r : PorterEng) d, s.pe e = some r → r.desc = some d → s.porterRuns = true → dKind d = 1 →
    (∀ m ∈ dMoves d, s.mustWait m.2 = false) → (∀ m ∈ dMoves d, targetOf m.2 = .commons) → pageBlocked s pPorter0 = false → r.moved = 0 →
    ∃ v : State, exec (.descriptorDone e) s = .next (v.descEnd e { r with moved := dCount d } d) ∧ (∀ m ∈ dMoves d, v.memW m.2 = d.getD 1 0) ∧
      (∀ a, (∀ m ∈ dMoves d, a ≠ m.2) → v.memW a = s.memW a) ∧ v.porter.queue = s.porter.queue) ∧
  (∀ (s : State) e (r : PorterEng) d, s.pe e = some r → r.desc = some d → s.porterRuns = true → dKind d = 1 → r.moved < dCount d →
    s.mustWait (dMove d r.moved).2 = false → targetOf (dMove d r.moved).2 = .commons → pageBlocked s pPorter0 = false →
    (s.moveStep e).memW (dMove d r.moved).2 = d.getD 1 0 ∧ (∀ a, a ≠ (dMove d r.moved).2 → (s.moveStep e).memW a = s.memW a) ∧
      (s.moveStep e).pe e = some { r with moved := r.moved + 1 } ∧ (∀ j, j ≠ e → (s.moveStep e).pe j = s.pe j)) ∧
  (∀ (s : State) e (r : PorterEng), s.pe e = some r → s.mustWait (r.next.getD 0 0) = true → s.moveStep e = s) ∧
  (∀ (s : State) e (r : PorterEng) d (w : Word) l, r.desc = some d → d = w :: l → bitN w.toNat 31 = false → dw d 6 = 0 → e < 4 → r.slot < 64 → ∃ v : State,
    s.descEnd e r d = ((v.ev pPorter0 0).setPe e none).showChains r.slot ∧
      v.memW r.addr = word (w.toNat % 64 + 2 ^ 11 + w.toNat / 2 ^ 12 * 2 ^ 12) ∧ (∀ a, a ≠ r.addr → v.memW a = s.memW a) ∧
      v.porter = s.porter) ∧
  (∀ (s : State) e a w, exec (.descriptorFailed e a w .ok) s = .next s) ∧
  (∀ (s : State) e a syn (r : PorterEng) d, s.pe e = some r → r.desc = some d → s.porterRuns = true → r.addr ≤ a → a < r.addr + 8 →
    exec (.descriptorFailed e a false (.corrected syn)) s = .next (s.noteRead a (engIni e) false false (.corrected syn))) ∧
  (∀ (s : State) e a (how : AccessEnd) (r : PorterEng) d, s.pe e = some r → r.desc = some d → s.porterRuns = true → how.good = false →
    r.addr ≤ a → a < r.addr + 8 → exec (.descriptorFailed e a false how) s
      = .next ((s.noteRead a (engIni e) false false how).descFail e r 2)) ∧
  (∀ (s : State) e a (how : AccessEnd) (r : PorterEng) d m l, s.pe e = some r → r.desc = some d → s.porterRuns = true → how.good = false →
    dKind d < 2 → r.moved = 0 → (how = .noResponse ∨ dReadsFirst d 0 = true) → dMoves d = m :: l → m.2 = a → exec (.descriptorFailed e a true how) s
      = .next ((s.noteRead a (engIni e) false false how).descFail e r 3)) ∧
  (∀ s : State, ∃ t : State, exec .porterSrst s = .next t ∧ t.porter.queue = [] ∧ (∀ e, t.pe e = none) ∧ pPorter0 ∈ t.srstBusy) ∧
  (∀ (s : State) (r : PorterEng) (w : Word) d, s.porter.queue = [] → s.pe 0 = some r → s.pe 1 = none → s.pe 2 = none → s.pe 3 = none → r.desc = some (w :: d) →
    ∃ t : State, exec .porterSrst s = .next t ∧ bitN (t.get pPorter0 PAGE_EV.ev) 3 = true ∧
      t.memW r.addr = word (w.toNat % 64 + 6 * 64 + 2 ^ 10 + w.toNat / 2 ^ 12 * 2 ^ 12) ∧ ∀ a, a ≠ r.addr → t.memW a = s.memW a)

/-- Clocks: PLLs and sources, releases, switches, throttling, spread, monitors, fallback, dead domains and forced gates.
An enable of a PLL that drives a running domain is kept with event 1; a PLL locks when it is enabled on a ready XO-M.
PCLK and MEMC are released once, on their locked PLL. A switch to a reserved source is event 1, to a source that is
not ready code 2, a checked switch outside test after the boot code 3; else the domain stops until its switch is done,
with event 0. Throttling moves CORE from 1.2 GHz to 800 MHz, and back to its source after 10 s without the condition.
XO-M follows the input within its pace and range, locks after 10 s, and keeps its pull when the input is lost (its
drift between is a free value, log entry 93). A spread outside its bounds is kept out. A monitor trip is recorded; a
PLL loses its lock, its domain falls back to the IRC with the NMI or is held until the IRC is ready; PCLK and MEMC die
with their PLL or XO-M, and a domain on the IRC with the IRC. A forced gate acts in recovery only, on the block of the
page. Model choice: a fallback is shown at the trip (log entry 90). Rules: R488, R489, R490, R492, R493, R495, R496,
R497, R498, R499, R501, R505. -/
def Obligations.ClocksAndMonitors : Prop :=
  (∀ (s : State) (v : Word), s.takes (pClk + 0x11) →
    ∃ u : State, exec (.clkPllWrite v) s = .next (if (List.range 4).any (fun k => bitN (s.get pClk CLK_PLL.en) k && !bitN (fldGet v.toNat CLK_PLL.en) k && s.pllDrives k) then u.ev pClk 1 else u) ∧
    (∀ k < 4, bitN (u.get pClk CLK_PLL.en) k = (bitN (fldGet v.toNat CLK_PLL.en) k || (bitN (s.get pClk CLK_PLL.en) k && s.pllDrives k)) ∧
      bitN (u.get pClk CLK_PLL.lock) k = (bitN (s.get pClk CLK_PLL.lock) k && bitN (u.get pClk CLK_PLL.en) k) ∧
      bitN (u.get pClk CLK_PLL.lost) k = (bitN (s.get pClk CLK_PLL.lost) k && !bitN (fldGet v.toNat CLK_PLL.lost) k)) ∧
    RegsOnly [pClk + CLK_PLL.en.off] s u) ∧
  (∀ (s : State) k, k < 4 → bitN (s.get pClk CLK_PLL.en) k = true → s.flag pClk CLK_SRC.xom_rdy = true → ∃ t : State,
    exec (.pllLock k) s = .next t ∧ bitN (t.get pClk CLK_PLL.lock) k = true ∧
      (∀ j < 4, j ≠ k → bitN (t.get pClk CLK_PLL.lock) j = bitN (s.get pClk CLK_PLL.lock) j) ∧ RegsOnly [pClk + CLK_PLL.lock.off] s t) ∧
  (∀ (s : State) k, (4 ≤ k ∨ bitN (s.get pClk CLK_PLL.en) k = false ∨ s.flag pClk CLK_SRC.xom_rdy = false) → exec (.pllLock k) s = .next s) ∧
  (∀ s : State, ∃ t : State, exec .xoMReady s = .next t ∧ t.flag pClk CLK_SRC.xom_rdy = true ∧ RegsOnly [pClk + CLK_SRC.xom_rdy.off] s t) ∧
  (∀ s : State, s.get pClk CLK_SRC.irc_en = 0 → exec .ircReady s = .next s) ∧
  (∀ s : State, s.get pClk CLK_SRC.irc_en = 1 → ∃ t : State, exec .ircReady s = .next t ∧ t.flag pClk CLK_SRC.irc_rdy = true ∧
    t.clk.held = [] ∧ ∀ d < 2, d ∈ s.clk.held → t.domCur d = 0 ∧ t.get pClk (domFld d CLK_DOM_CORE.fb) = 1 ∧
      ∀ c < 64, t.get (pCore c) CORE_NMI.pend = 1 ∧ t.get (pCore c) CORE_NMI.src = 2) ∧
  (∀ s : State, ∃ t : State, exec (.extOkChange true) s = .next t ∧ t.flag pClk CLK_SRC.ext_ok = true ∧
    (s.flag pClk CLK_SRC.disc = true → t.get pClk CLK_SRC.pull = s.get pClk CLK_SRC.pull ∧ t.get pClk CLK_SRC.dlock = s.get pClk CLK_SRC.dlock ∧
      t.clk.follow = some (s.clk.follow.getD s.now)) ∧ RegsOnly [pClk + CLK_SRC.ext_ok.off] { s with clk := t.clk } t) ∧
  (∀ s : State, ∃ t : State, exec (.extOkChange false) s = .next t ∧ t.flag pClk CLK_SRC.ext_ok = false ∧
    t.get pClk CLK_SRC.dlock = 0 ∧ t.clk.follow = none ∧ (s.clk.follow = none → t.get pClk CLK_SRC.pull = s.get pClk CLK_SRC.pull) ∧
    (s.clk.follow.isSome = true → t.getI pClk CLK_SRC.pull = s.pullNow) ∧ RegsOnly [pClk + CLK_SRC.ext_ok.off] { s with clk := t.clk } t) ∧
  (∀ (s : State) p, -491520 ≤ s.pullWithin p ∧ s.pullWithin p ≤ 491520 ∧ (s.clk.follow = none → s.pullNow = s.getI pClk CLK_SRC.pull) ∧
    ((p - s.getI pClk CLK_SRC.pull).natAbs ≤ 8192 * (s.now - s.clk.pullAt) / 4000000000 → -491520 ≤ p → p ≤ 491520 → s.pullWithin p = p)) ∧
  (∀ (s : State) pull, (s.flag pClk CLK_SRC.disc = false ∨ s.flag pClk CLK_SRC.ext_ok = false ∨ s.clk.follow = none ∨
    ∃ t, s.clk.follow = some t ∧ s.now < t + 10000000 * edgesUs) → exec (.disciplineLock pull) s = .next s) ∧
  (∀ (s : State) pull a, s.flag pClk CLK_SRC.disc = true → s.flag pClk CLK_SRC.ext_ok = true → s.clk.follow = some a → a + 10000000 * edgesUs ≤ s.now →
    ∃ t : State, exec (.disciplineLock pull) s = .next t ∧ t.getI pClk CLK_SRC.pull = s.pullWithin pull ∧ t.get pClk CLK_SRC.dlock = 1 ∧
      t.clk.pullAt = s.now ∧ RegsOnly [pClk + CLK_SRC.pull.off] { s with clk := t.clk } t) ∧
  (∀ s : State, s.takes (pClk + 0x14) →
    s.flag pClk CLK_DOM_FIX.prun = false → s.flag pClk CLK_DOM_FIX.pdead = false → bitN (s.get pClk CLK_PLL.lock) 2 = true →
    exec .pclkRelease s = .next (s.put pClk CLK_DOM_FIX.prun 1)) ∧
  (∀ s : State, s.takes (pClk + 0x14) →
    (s.flag pClk CLK_DOM_FIX.prun = true ∨ s.flag pClk CLK_DOM_FIX.pdead = true ∨ bitN (s.get pClk CLK_PLL.lock) 2 = false) →
    exec .pclkRelease s = .next (s.ev pClk 1)) ∧
  (∀ s : State, s.takes (pClk + 0x14) →
    s.flag pClk CLK_DOM_FIX.mrun = false → s.flag pClk CLK_DOM_FIX.mdead = false → bitN (s.get pClk CLK_PLL.lock) 3 = true →
    exec .memcRelease s = .next (s.put pClk CLK_DOM_FIX.mrun 1)) ∧
  (∀ s : State, s.takes (pClk + 0x14) →
    (s.flag pClk CLK_DOM_FIX.mrun = true ∨ s.flag pClk CLK_DOM_FIX.mdead = true ∨ bitN (s.get pClk CLK_PLL.lock) 3 = false) →
    exec .memcRelease s = .next (s.ev pClk 1)) ∧
  (∀ (s : State) fab src, s.takes (pClk + 0x12 + b2n fab) →
    srcReserved (b2n fab) src = true → exec (.stopSwitchRestart fab src) s = .next (s.ev pClk 1) ∧
    exec (.checkedSwitch fab src) s = .next (s.ev pClk 1)) ∧
  (∀ d src, d < 2 → src < 4 → (srcReserved d src = true ↔ src = 3 ∨ d = 1 ∧ src = 2)) ∧
  (∀ (s : State) fab src, s.takes (pClk + 0x12 + b2n fab) →
    src < 3 → srcReserved (b2n fab) src = false → (s.domStopped (b2n fab) = true ∨ s.srcReady (b2n fab) src = false) →
    ∃ u v : State, exec (.stopSwitchRestart fab src) s = .next (u.ev pClk 1) ∧ exec (.checkedSwitch fab src) s = .next (v.ev pClk 1) ∧
      u.get pClk (domFld (b2n fab) CLK_DOM_CORE.res) = 2 ∧ v.get pClk (domFld (b2n fab) CLK_DOM_CORE.res) = 2 ∧
      u.domCur (b2n fab) = s.domCur (b2n fab) ∧ v.domCur (b2n fab) = s.domCur (b2n fab) ∧ u.clk = s.clk ∧ v.clk = s.clk) ∧
  (∀ (s : State) fab src, s.takes (pClk + 0x12 + b2n fab) →
    src < 3 → srcReserved (b2n fab) src = false → s.domStopped (b2n fab) = false → s.srcReady (b2n fab) src = true →
    ∃ t : State, exec (.stopSwitchRestart fab src) s = .next t ∧ t.domTarget (b2n fab) = some src ∧ t.domStopped (b2n fab) = true ∧
      t.get pClk (domFld (b2n fab) CLK_DOM_CORE.src) = src ∧ t.domCur (b2n fab) = s.domCur (b2n fab)) ∧
  (∀ (s : State) fab src, s.takes (pClk + 0x12 + b2n fab) →
    src < 3 → srcReserved (b2n fab) src = false → s.domStopped (b2n fab) = false → s.srcReady (b2n fab) src = true →
    (s.get pSys SYS_BOOT.state = 3 → s.get pSys SYS_BOOT.test = 0 → ∃ u : State, exec (.checkedSwitch fab src) s = .next (u.ev pClk 1) ∧
      u.get pClk (domFld (b2n fab) CLK_DOM_CORE.res) = 3 ∧ u.clk = s.clk) ∧
    (s.get pSys SYS_BOOT.state ≠ 3 ∨ s.get pSys SYS_BOOT.test ≠ 0 → ∃ t : State, exec (.checkedSwitch fab src) s = .next t ∧
      t.domTarget (b2n fab) = some src ∧ t.domCur (b2n fab) = s.domCur (b2n fab))) ∧
  (∀ (s : State) src d, (src = 1 ∨ src = 2) → d < 2 → s.srcReady d src = true → bitN (s.get pClk CLK_PLL.lock) d = true ∧
    ∀ t, Tab.get (fun _ => none) s.clk.tripAt (2 + d) = some t → t + 2 * edgesUs ≤ s.now) ∧
  (∀ (s : State) fab, s.domTarget (b2n fab) = none → exec (.switchDone fab) s = .next s) ∧
  (∀ (s : State) fab k, k < 4 → s.domTarget (b2n fab) = some k → ∃ u : State, exec (.switchDone fab) s = .next (u.ev pClk 0) ∧
    u.domTarget (b2n fab) = none ∧ u.domCur (b2n fab) = k ∧ u.get pClk (domFld (b2n fab) CLK_DOM_CORE.res) = 1 ∧
    u.get pClk (domFld (b2n fab) CLK_DOM_CORE.fb) = 0 ∧ RegsOnly [pClk + 0x12 + b2n fab] { s with clk := u.clk } u) ∧
  (∀ (s : State) on, (on = s.flag pClk CLK_DOM_CORE.thr ∨ on = true ∧ s.flag pSys1 SYS_ENVST.thrc = false ∨ on = false ∧ s.coolLong = false) → exec (.throttleChange on) s = .next s) ∧
  (∀ s : State, s.coolLong = true ↔ s.flag pSys1 SYS_ENVST.thrc = false ∧ ∀ t, s.clk.thrAt = some t → t + 10000000 * edgesUs ≤ s.now) ∧
  (∀ s : State, s.flag pClk CLK_DOM_CORE.thr = false → s.flag pSys1 SYS_ENVST.thrc = true → s.domStopped 0 = false → s.domCur 0 = 1 → ∃ t : State,
    exec (.throttleChange true) s = .next t ∧ t.flag pClk CLK_DOM_CORE.thr = true ∧ t.domTarget 0 = some 2 ∧
      bitN (t.get pClk PAGE_EV.ev) 5 = true) ∧
  (∀ s : State, s.flag pClk CLK_DOM_CORE.thr = false → s.flag pSys1 SYS_ENVST.thrc = true → s.domStopped 0 = false → s.domCur 0 ≠ 1 → ∃ u : State,
    exec (.throttleChange true) s = .next (u.ev pClk 5) ∧ u = s.put pClk CLK_DOM_CORE.thr 1) ∧
  (∀ (s : State) k, s.flag pClk CLK_DOM_CORE.thr = true → s.coolLong = true → s.domTarget 0 = some 2 ∨ s.domStopped 0 = false ∧ s.domCur 0 = 2 →
    s.get pClk CLK_DOM_CORE.src = k → (k = 0 ∧ s.flag pClk CLK_SRC.irc_rdy = true ∨ k = 1 ∧ bitN (s.get pClk CLK_PLL.lock) 0 = true ∧ s.tripped2us 2 = false) →
    ∃ t : State, exec (.throttleChange false) s = .next t ∧ t.flag pClk CLK_DOM_CORE.thr = false ∧ t.domTarget 0 = some k) ∧
  (∀ (s : State) (v : Word), s.takes (pClk + 0x15) →
    (4 < fldGet v.toNat CLK_SSC.cdep ∨ 4 < fldGet v.toNat CLK_SSC.mdep ∨ fldGet v.toNat CLK_SSC.rate < 250 ∨
    400 < fldGet v.toNat CLK_SSC.rate) → exec (.clkSscWrite v) s = .next (s.ev pClk 1)) ∧
  (∀ (s : State) (v : Word), s.takes (pClk + 0x15) →
    fldGet v.toNat CLK_SSC.cdep ≤ 4 → fldGet v.toNat CLK_SSC.mdep ≤ 4 → 250 ≤ fldGet v.toNat CLK_SSC.rate →
    fldGet v.toNat CLK_SSC.rate ≤ 400 → ∃ t : State, exec (.clkSscWrite v) s = .next t ∧
      t.get pClk CLK_SSC.cdep = fldGet v.toNat CLK_SSC.cdep ∧ t.get pClk CLK_SSC.mdep = fldGet v.toNat CLK_SSC.mdep ∧
      t.get pClk CLK_SSC.rate = fldGet v.toNat CLK_SSC.rate ∧ RegsOnly [pClk + 0x15] s t) ∧
  (∀ (s : State) clk kind, (6 ≤ clk ∨ clk = 1 ∧ s.flag pClk CLK_SRC.irc_rdy = false) → exec (.monitorTrip clk kind) s = .next s) ∧
  (∀ (s : State) kind, 2 ∉ s.clk.dead → 3 ∉ s.clk.dead → s.domCur 0 = 0 → s.domCur 1 = 0 →
    s.domTarget 0 = none → s.domTarget 1 = none → ∃ t : State, exec (.monitorTrip 0 kind) s = .next t ∧
      bitN (t.get pClk CLK_MON.trip) 5 = true ∧ t.get pClk CLK_MON_LAST.clk = 0 ∧ t.get pClk CLK_MON_LAST.kind = b2n kind ∧
      t.get pClk CLK_PLL.lock = s.get pClk CLK_PLL.lock ∧ t.clk.dead = 3 :: 2 :: s.clk.dead ∧ t.clk.held = s.clk.held ∧
      (s.clk.held = [] → ∀ c < 64, t.get (pCore c) CORE_NMI.pend = 1 ∧ t.get (pCore c) CORE_NMI.src = 2)) ∧
  (∀ (s : State) kind, s.domStopped 0 = false → s.domCur 0 = 1 → s.flag pClk CLK_SRC.irc_rdy = true → s.domTarget 1 = none → ∃ t : State,
    exec (.monitorTrip 2 kind) s = .next t ∧ t.domCur 0 = 0 ∧ t.get pClk (domFld 0 CLK_DOM_CORE.fb) = 1 ∧
      bitN (t.get pClk CLK_PLL.lock) 0 = false ∧ bitN (t.get pClk CLK_PLL.lost) 0 = true ∧ bitN (t.get pClk CLK_MON.trip) 3 = true ∧
      t.get pClk CLK_MON_LAST.clk = 2 ∧ bitN (t.get pClk PAGE_EV.ev) 2 = true ∧ bitN (t.get pClk PAGE_EV.ev) 4 = true ∧
      ∀ c < 64, t.get (pCore c) CORE_NMI.pend = 1 ∧ t.get (pCore c) CORE_NMI.src = 2) ∧
  (∀ (s : State) kind, s.domStopped 0 = false → s.domCur 0 = 1 → s.flag pClk CLK_SRC.irc_rdy = false → s.domTarget 1 = none → ∃ t : State,
    exec (.monitorTrip 2 kind) s = .next t ∧ 0 ∈ t.clk.held ∧ t.domStopped 0 = true ∧ t.get pClk CLK_SRC.irc_en = 1) ∧
  (∀ (s : State) kind, s.clk.dead = [] → s.flag pClk CLK_DOM_FIX.pdead = false → ∃ t : State, exec (.monitorTrip 4 kind) s = .next t ∧
    2 ∈ t.clk.dead ∧ t.flag pClk CLK_DOM_FIX.prun = false ∧ t.flag pClk CLK_DOM_FIX.pdead = true ∧ bitN (t.get pClk PAGE_EV.ev) 7 = true) ∧
  (∀ (s : State) kind, s.clk.dead = [] → s.clk.held = [] → s.domCur 0 = 0 → s.domTarget 0 = none → s.flag pClk CLK_SRC.irc_rdy = true → ∃ t : State,
    exec (.monitorTrip 1 kind) s = .next t ∧ 0 ∈ t.clk.dead ∧ t.flag pClk CLK_SRC.irc_rdy = false ∧ bitN (t.get pClk PAGE_EV.ev) 7 = true) ∧
  (∀ (s : State) page, s.takes (pClk + 0x19) →
    (s.get pSys SYS_BOOT.state ≠ 1 ∨ gatePage (pageAddr page) = none) → ∃ u : State, exec (.forcedGate page) s = .next (u.ev pClk 1) ∧
    u = s.put pClk CLK_FGATE.page page) ∧
  (∀ (s : State) page p, s.takes (pClk + 0x19) →
    s.get pSys SYS_BOOT.state = 1 → gatePage (pageAddr page) = some p → ∃ u : State, exec (.forcedGate page) s = .next (u.ev pClk 6) ∧
    u.get p PAGE_CTL.gate_req = 1 ∧ u.get p PAGE_CTL.gate_ack = 1 ∧ p ∉ u.gating)

/-- Power-on, module and compute reset, over-temperature, the boot, recovery and the recovery console. A power-on or
module reset brings every register word and every core register to reset and leaves the MRAM, with the words its queue
still held after a power-on; a module reset records kind, source and count. A compute reset leaves the island, the
locks of the SL fields and time on the island side, stops every port with cause 0 and records its source; at 125 C it
holds. The boot runs once after a reset: with recovery requested, or no good bank, it ends in recovery, else it loads
the bank, seals and ends in state 3. The console answers in recovery only, with a code that is a free value (log entry
96): reads and writes within bounds, a key into an empty slot or under its own signature, a higher minimum issue, a
forced gate, and the resets. Model choices: the island time goes on through a compute reset (log entry 91), and a bank
not tried reads code 0 (log entry 92). Rules: R506, R507, R508, R510, R512, R514, R517, R519, R520, R521, R523, R540. -/
def Obligations.ResetsBootAndConsole : Prop :=
  (∀ s : State, ∃ t : State, exec .powerOnReset s = .next t ∧ t.regs = [] ∧ t.crs = State.reset.crs ∧ t.now = 0 ∧ t.pending = s.pending ∧ t.mwq = [] ∧
    t.slLocked = false ∧ t.olSealed = false ∧ (∀ a, targetOf a ≠ .mram → t.memW a = 0) ∧
    ∀ a, targetOf a = .mram → t.memW a = Tab.get (fun _ => (0 : Word)) (drainMwq (s.mwq.take 16) s.mem) a) ∧
  (∀ (t : Tab Word) l r a, drainMwq [] t = t ∧ Tab.get (fun _ => (0 : Word)) (drainMwq (l ++ [r]) t) a
    = (if a = 0xE00000000 + r.off then r.w else Tab.get (fun _ => (0 : Word)) (drainMwq l t) a)) ∧
  (∀ (s : State) rec_ svc, ∃ t : State, exec (.moduleReset rec_ svc) s = .next t ∧ t.get pSys SYS_RCAUSE.kind = 2 ∧
    t.get pSys SYS_RCAUSE.src = (if svc then 3 else 2) ∧ t.get pSys SYS_RCAUSE.ot = 0 ∧
    t.get pSys SYS_RCAUSE.count = (s.get pSys SYS_RCAUSE.count + 1) % 65536 ∧ t.clk.recov = rec_ ∧
    (∀ a, a ≠ pSys + 0x1A → t.regW a = resetWord a) ∧ t.crs = State.reset.crs ∧ t.pending = s.pending ∧
    ∀ a, t.memW a = if targetOf a = .mram then s.memW a else 0) ∧
  (∀ (s : State) rec_ src, (src = 0 ∨ 4 ≤ src) → exec (.computeReset rec_ src) s = .next s) ∧
  (∀ (s : State) rec_ src, 1 ≤ src → src ≤ 3 → ∃ t : State, exec (.computeReset rec_ src) s = .next t ∧ t.get pSys SYS_RCAUSE.kind = 3 ∧
    t.get pSys SYS_RCAUSE.src = src ∧ t.get pSys SYS_RCAUSE.ot = (if src = 1 then 1 else 0) ∧
    t.get pSys SYS_RCAUSE.count = (s.get pSys SYS_RCAUSE.count + 1) % 65536 ∧ t.now = s.now ∧ t.slLocked = s.slLocked ∧ t.olSealed = false ∧
    t.crs = State.reset.crs ∧ t.clk.recov = rec_ ∧ t.flag pClk CLK_DOM_FIX.pdead = s.flag pClk CLK_DOM_FIX.pdead ∧
    (∀ d < 3, d ∈ t.clk.dead ↔ d ∈ s.clk.dead) ∧ (∀ p < 12, t.pstate p = 0) ∧ t.islState = s.islState ∧
    (∀ p < 12, s.pstate p ≠ 0 → t.get (pSafe 2) (SAFE_PORT.cause p) = 0) ∧
    ∀ a, t.memW a = if targetOf a = .mram then s.memW a else 0) ∧
  (∀ s : State, s.clk.hot = true → exec (.overTemperatureShutdown true) s = .next s ∧
    exec (.overTemperatureShutdown false) s = .next { s with clk := { s.clk with hot := false } }) ∧
  (∀ s : State, s.clk.hot = false → exec (.overTemperatureShutdown false) s = .next s ∧ ∃ v : State,
    exec (.computeReset false 1) s = .next v ∧ exec (.overTemperatureShutdown true) s = .next { v with clk := { v.clk with hot := true } }) ∧
  (∀ (s : State) ms a b, s.canBoot = false → exec (.boot ms a b) s = .next s) ∧
  (∀ s : State, s.canBoot = true ↔ s.get pSys SYS_BOOT.state = 0 ∧ s.clk.hot = false ∧ s.olSealed = false ∧ ∀ d ∈ s.clk.dead, 1 < d) ∧
  (∀ (s : State) ms a b, s.canBoot = true → s.clk.recov = true → ∃ t : State, exec (.boot ms a b) s = .next t ∧ t.get pSys SYS_BOOT.state = 1 ∧
    t.clk.recov = false ∧ t.olSealed = false ∧ t.get pClk CLK_PLL.lock = 15 ∧ t.flag pClk CLK_DOM_FIX.prun = !s.flag pClk CLK_DOM_FIX.pdead ∧
    t.flag pClk CLK_DOM_FIX.mrun = true ∧ t.domCur 0 = (if s.flag pClk CLK_DOM_CORE.thr = true then 2 else 1) ∧ t.domCur 1 = 1 ∧ ∀ x, t.memW x = if targetOf x = .mram then s.memW x else 0) ∧
  (∀ (s : State) ms a b, s.canBoot = true → s.clk.recov = false → (s.bootMemory.bankCodes a b).1 ≠ 1 → (s.bootMemory.bankCodes a b).2 ≠ 1 →
    ∃ t : State, exec (.boot ms a b) s = .next t ∧ t.get pSys SYS_BOOT.state = 1 ∧
      t.get pSys SYS_BOOT.acode = (s.bootMemory.bankCodes a b).1 % 16 ∧ t.get pSys SYS_BOOT.bcode = (s.bootMemory.bankCodes a b).2 % 16) ∧
  (∀ (s : State) ms a b, s.canBoot = true → s.clk.recov = false → (s.bootMemory.bankCodes a b).1 = 1 → (s.bootMemory.bankCodes a b).2 ≠ 1 →
    ∃ t : State, exec (.boot ms a b) s = .next t ∧ t.get pSys SYS_BOOT.state = 3 ∧ t.get pSys SYS_BOOT.bank = 0 ∧ t.olSealed = true) ∧
  (∀ (s : State) a b, s.firstB 0 = false → s.imgCode 0 false a = 1 → s.bankCodes a b = (1, 0)) ∧
  (∀ (s : State) a b, s.firstB 0 = true → s.imgCode 0 true b = 1 → s.bankCodes a b = (0, 1)) ∧
  (∀ s : State, s.get pSys SYS_BOOT.state = 0 → s.olSealed = false → exec .recoveryRequest s = .next { s with clk := { s.clk with recov := true } }) ∧
  (∀ s : State, (s.get pSys SYS_BOOT.state ≠ 0 ∨ s.olSealed = true) → exec .recoveryRequest s = .next s) ∧
  (∀ s : State, s.get pSys SYS_BOOT.state ≠ 1 → exec .consoleInfo s = .next s ∧ (∀ o c, exec (.consoleRead o c) s = .next s) ∧
    (∀ o w, exec (.consoleWrite o w) s = .next s) ∧ (∀ k g, exec (.consoleKey k g) s = .next s) ∧
    (∀ b i, exec (.consoleMinissue b i) s = .next s) ∧ (∀ p, exec (.consoleGate p) s = .next s) ∧ ∀ k, exec (.consoleReset k) s = .next s) ∧
  (∀ s : State, s.get pSys SYS_BOOT.state = 1 → ∃ t : State, exec .consoleInfo s = .next t ∧ t.console.ok = true ∧
    t.console.ws = [s.regW (pSys + 0x17), s.regW (pSys + 0x18), s.regW (pSys + 0x19), s.regW (pSys + 0x1A), s.regW (pSys + 0x1C), s.memW (commBase + 32), s.memW (commBase + 33)] ∧
    t = { s with console := t.console, freeN := s.freeN + 1 }) ∧
  (∀ (s : State) o c, s.get pSys SYS_BOOT.state = 1 → c ≤ 4096 → o + c ≤ 0x800000 → ∃ t : State, exec (.consoleRead o c) s = .next t ∧
    t.console.ok = true ∧ t.console.ws = (List.range c).map (fun i => s.memW (0xE00000000 + o + i)) ∧ t = { s with console := t.console, freeN := s.freeN + 1 }) ∧
  (∀ (s : State) o c, s.get pSys SYS_BOOT.state = 1 → (4096 < c ∨ 0x800000 < o + c) → exec (.consoleRead o c) s
    = .next { s with console := { ok := false, code := Config.free s.freeN, ws := [] }, freeN := s.freeN + 1 }) ∧
  (∀ (s : State) o ws, s.get pSys SYS_BOOT.state = 1 → 0x10000 ≤ o → o + ws.length ≤ 0x710000 → ∃ t : State,
    exec (.consoleWrite o ws) s = .next t ∧ t.console.ok = true ∧ t.console.ws = [] ∧
      (∀ i < ws.length, t.memW (0xE00000000 + o + i) = ws.getD i 0) ∧
      (∀ a, (a < 0xE00000000 + o ∨ 0xE00000000 + o + ws.length ≤ a) → t.memW a = s.memW a) ∧ t.regs = s.regs) ∧
  (∀ (s : State) o ws, s.get pSys SYS_BOOT.state = 1 → (o < 0x10000 ∨ 0x710000 < o + ws.length) → exec (.consoleWrite o ws) s
    = .next { s with console := { ok := false, code := Config.free s.freeN, ws := [] }, freeN := s.freeN + 1 }) ∧
  (∀ (s : State) k g, s.get pSys SYS_BOOT.state = 1 → (k.length ≠ 32 ∨ s.integratorKey = true ∧ edVerify (s.keySlot 1) (keyDigest k) g = false) →
    exec (.consoleKey k g) s = .next { s with console := { ok := false, code := Config.free s.freeN, ws := [] }, freeN := s.freeN + 1 }) ∧
  (∀ (s : State) k g, s.get pSys SYS_BOOT.state = 1 → k.length = 32 → (s.integratorKey = false ∨ edVerify (s.keySlot 1) (keyDigest k) g = true) →
    ∃ t : State, exec (.consoleKey k g) s = .next t ∧ t.console.ok = true ∧ t.console.ws = [] ∧ t.mem = (s.putOcts commBase 36 k).mem ∧ t.regs = s.regs) ∧
  (∀ (s : State) b n, s.get pSys SYS_BOOT.state = 1 → (n < s.leAt commBase (68 + 4 * b2n b) 4 ∨ 2 ^ 32 ≤ n) → exec (.consoleMinissue b n) s
    = .next { s with console := { ok := false, code := Config.free s.freeN, ws := [] }, freeN := s.freeN + 1 }) ∧
  (∀ (s : State) b n, s.get pSys SYS_BOOT.state = 1 → s.leAt commBase (68 + 4 * b2n b) 4 ≤ n → n < 2 ^ 32 → ∃ t : State,
    exec (.consoleMinissue b n) s = .next t ∧ t.console.ok = true ∧ t.console.ws = [] ∧ t.leAt commBase (68 + 4 * b2n b) 4 = n ∧ t.regs = s.regs) ∧
  (∀ (s : State) p, s.get pSys SYS_BOOT.state = 1 → gatePage (pageAddr p) = none → ∃ t : State, exec (.consoleGate p) s = .next t ∧
    t.console.ok = false ∧ t.console.ws = []) ∧
  (∀ (s : State) p q, s.get pSys SYS_BOOT.state = 1 → gatePage (pageAddr p) = some q → ∃ t : State, exec (.consoleGate p) s = .next t ∧
    t.console.ok = true ∧ t.console.ws = [] ∧ t.get q PAGE_CTL.gate_ack = 1) ∧
  (∀ s : State, s.get pSys SYS_BOOT.state = 1 → ∃ t u v : State,
    exec (.consoleReset 1) s = .next (t.answer true []) ∧ exec (.moduleReset false true) s = .next t ∧
    exec (.consoleReset 2) s = .next (u.answer true []) ∧ exec (.computeReset false 3) s = .next u ∧
    exec (.consoleReset 3) s = .next (v.answer true []) ∧ exec (.moduleReset true true) s = .next v) ∧
  (∀ (s : State) k, s.get pSys SYS_BOOT.state = 1 → (k = 0 ∨ 4 ≤ k) → exec (.consoleReset k) s = .next { s with console := { ok := false, code := Config.free s.freeN, ws := [] }, freeN := s.freeN + 1 })

/-- Port identities, LOGIC and BRAKE inputs, fans, temperatures and the environment words. The identity resistance of a
port reads as open, short, between bands or a valid code, and a change of it records event 0. A LOGIC input lost
clears its bit with event 0, returned sets it with event 1. A BRAKE input that faults puts its 6 ports in STO with
cause 12 and its brakes in state 4. A failed fan records event 3; the throttling condition holds with a failed fan at
50 C intake, with both fans failed, or at 110 C, and each change records event 4; a warning records event 5. An update
takes the measured values, and the presence bits, the warning and the throttling follow them with their events; a die
at 125 C shuts the compute side down until it is below 100 C. Model choice: the state of a BRAKE input follows its
words (log entry 95). Rules: R528, R529, R535, R536, R538, R539, R540, R541. -/
def Obligations.EnvironmentAndSupplies : Prop :=
  (∀ (s : State) p ohm, 12 ≤ p → exec (.portIdentityMeasure p ohm) s = .next s) ∧
  (∀ (s : State) p ohm, p < 12 → ∃ u : State, exec (.portIdentityMeasure p ohm) s = .next
      (if s.get (pPort p) PORT_IDR.st = idState ohm ∧ s.get (pPort p) PORT_IDR.code = (if idState ohm = 0 then (idCode ohm).getD 0 else 0) then u
       else u.evC (pPort p) 0) ∧
    u.get (pPort p) PORT_IDR.st = idState ohm ∧ u.get (pPort p) PORT_IDR.code = (if idState ohm = 0 then (idCode ohm).getD 0 else 0) ∧
    u.get (pPort p) PORT_IDR.r = min 65535 (ohm / 10) ∧ RegsOnly [pPort p + PORT_IDR.r.off] s u) ∧
  (∀ ohm k, k < 16 → 1000 * (k + 1) ≤ ohm + 300 → ohm ≤ 1000 * (k + 1) + 300 → idCode ohm = some k ∧ idState ohm = 0) ∧
  (∀ ohm, (20000 < ohm ↔ idState ohm = 1) ∧ (ohm < 300 ↔ idState ohm = 2)) ∧
  (∀ (s : State) b, s.flag pSys1 (logicFld b) = false → exec (.logicInputLost b) s = .next s) ∧
  (∀ (s : State) b, s.flag pSys1 (logicFld b) = true → ∃ u : State, exec (.logicInputLost b) s = .next (u.evC pSys1 0) ∧
    u = s.put pSys1 (logicFld b) 0 ∧ u.flag pSys1 (logicFld b) = false) ∧
  (∀ (s : State) b, s.flag pSys1 (logicFld b) = true → exec (.logicInputReturned b) s = .next s) ∧
  (∀ (s : State) b, s.flag pSys1 (logicFld b) = false → ∃ u : State, exec (.logicInputReturned b) s = .next (u.ev pSys1 1) ∧
    u = s.put pSys1 (logicFld b) 1 ∧ u.flag pSys1 (logicFld b) = true) ∧
  (∀ (s : State) b, b2n b ∈ s.isl.brakeBad → exec (.brakeInputFault b) s = .next s) ∧
  (∀ (s : State) b, b2n b ∉ s.isl.brakeBad → ∃ t : State, exec (.brakeInputFault b) s = .next t ∧ b2n b ∈ t.isl.brakeBad ∧
    t.flag pSys1 (if b then SYS_ENVST.b2ok else SYS_ENVST.b1ok) = false ∧ bitN (t.get pSys1 PAGE_EV.ev) 2 = true ∧
    (∀ ch, 48 * b2n b ≤ ch → ch < 48 * b2n b + 48 → s.bstate ch ≠ 5 → t.bstate ch = 4) ∧
    (∀ p, 6 * b2n b ≤ p → p < 6 * b2n b + 6 → t.pstate p = 0 ∧ (s.pstate p ≠ 0 → t.get (pSafe 2) (SAFE_PORT.cause p) = 12)) ∧
    (∀ p < 12, (p < 6 * b2n b ∨ 6 * b2n b + 6 ≤ p) → t.pstate p = s.pstate p)) ∧
  (∀ (s : State) k, (2 ≤ k ∨ s.flag pSys1 (fanFld k) = true) → exec (.fanFailed k) s = .next s) ∧
  (∀ (s : State) k, k < 2 → s.flag pSys1 (fanFld k) = false → ∃ u : State, exec (.fanFailed k) s = .next (u.evC pSys1 3).showThrottling ∧
    u = s.put pSys1 (fanFld k) 1 ∧ u.flag pSys1 (fanFld k) = true) ∧
  (∀ (s : State) k, (2 ≤ k ∨ s.flag pSys1 (fanFld k) = false) → exec (.fanRunning k) s = .next s) ∧
  (∀ (s : State) k, k < 2 → s.flag pSys1 (fanFld k) = true → ∃ u : State, exec (.fanRunning k) s = .next u.showThrottling ∧
    u = s.put pSys1 (fanFld k) 0 ∧ u.flag pSys1 (fanFld k) = false) ∧
  (∀ s : State, s.flag pSys1 SYS_ENVST.thrc = s.throttling → s.showThrottling = s) ∧
  (∀ s : State, s.flag pSys1 SYS_ENVST.thrc ≠ s.throttling → ∃ u : State, s.showThrottling = u.ev pSys1 4 ∧
    u.flag pSys1 SYS_ENVST.thrc = s.throttling ∧ (s.throttling = false → u.clk.thrAt = some s.now) ∧
    RegsOnly [pSys1 + SYS_ENVST.thrc.off] { s with clk := u.clk } u) ∧
  (∀ s : State, s.throttling = true ↔ (s.flag pSys1 SYS_FAN.f0fail = true ∨ s.flag pSys1 SYS_FAN.f1fail = true) ∧ 50 * 16 ≤ s.getI pSys1 SYS_TEMP.intake ∨
    s.flag pSys1 SYS_FAN.f0fail = true ∧ s.flag pSys1 SYS_FAN.f1fail = true ∨ 110 * 16 ≤ s.getI pSys1 SYS_TEMP.die) ∧
  (∀ (s : State) on, s.flag pSys1 SYS_ENVST.warn = on → exec (.temperatureWarning on) s = .next s) ∧
  (∀ s : State, s.flag pSys1 SYS_ENVST.warn = false → ∃ u : State, exec (.temperatureWarning true) s = .next (u.evC pSys1 5) ∧
    u = s.put pSys1 SYS_ENVST.warn 1 ∧ u.flag pSys1 SYS_ENVST.warn = true) ∧
  (∀ s : State, s.flag pSys1 SYS_ENVST.warn = true → ∃ t : State, exec (.temperatureWarning false) s = .next t ∧
    t.flag pSys1 SYS_ENVST.warn = false ∧ RegsOnly [pSys1 + SYS_ENVST.warn.off] s t) ∧
  (∀ (s : State) (temp fan vl vb ib : Word), s.clk.hot = false → sint 12 (fldGet temp.toNat SYS_TEMP.die) < 2000 → ∃ u : State, exec (.environmentUpdate temp fan vl vb ib) s = .next (((((u.showLogic false
      (fldGet vl.toNat SYS_VLOGIC.va)).showLogic true (fldGet vl.toNat SYS_VLOGIC.vb)).showBrake false (fldGet vb.toNat SYS_VBRAKE.v1)
      (fldGet ib.toNat SYS_IBRAKE.i1)).showBrake true (fldGet vb.toNat SYS_VBRAKE.v2) (fldGet ib.toNat SYS_IBRAKE.i2)).showWarning.showThrottling) ∧
    u.regW (pSys1 + 0x10) = temp ∧ u.regW (pSys1 + 0x12) = vl ∧ u.reg (pSys1 + 0x13) = vb.toNat / 2 ^ 12 * 2 ^ 12 ∧
    u.reg (pSys1 + 0x14) = ib.toNat / 2 ^ 12 * 2 ^ 12 ∧ u.get pSys1 SYS_FAN.f0rpm = fldGet fan.toNat SYS_FAN.f0rpm ∧
    u.get pSys1 SYS_FAN.f1rpm = fldGet fan.toNat SYS_FAN.f1rpm ∧ u.get pSys1 SYS_FAN.f0fail = s.get pSys1 SYS_FAN.f0fail ∧
    u.get pSys1 SYS_FAN.f1fail = s.get pSys1 SYS_FAN.f1fail ∧
    RegsOnly [pSys1 + 0x10, pSys1 + 0x11, pSys1 + 0x12, pSys1 + 0x13, pSys1 + 0x14] s u) ∧
  (∀ (s : State) (temp fan vl vb ib : Word), s.clk.hot = false → 2000 ≤ sint 12 (fldGet temp.toNat SYS_TEMP.die) → ∃ v t : State,
    exec (.environmentUpdate temp fan vl vb ib) s = .next t ∧ exec (.overTemperatureShutdown true) v = .next t ∧ v.regW (pSys1 + 0x10) = temp ∧
      t.get pSys SYS_RCAUSE.ot = 1) ∧
  (∀ (s : State) (temp fan vl vb ib : Word), s.clk.hot = true →
    (sint 12 (fldGet temp.toNat SYS_TEMP.die) < 1600 → exec (.environmentUpdate temp fan vl vb ib) s = .next { s with clk := { s.clk with hot := false } }) ∧
    (1600 ≤ sint 12 (fldGet temp.toNat SYS_TEMP.die) → exec (.environmentUpdate temp fan vl vb ib) s = .next s)) ∧
  (∀ (s : State) b x, (x < 1800 → exec (.logicInputLost b) s = .next (s.showLogic b x)) ∧
    (1850 < x → exec (.logicInputReturned b) s = .next (s.showLogic b x)) ∧ (1800 ≤ x → x ≤ 1850 → s.showLogic b x = s)) ∧
  (∀ s : State, (70 * 16 ≤ s.getI pSys1 SYS_TEMP.intake ∨ 105 * 16 ≤ s.getI pSys1 SYS_TEMP.die →
      exec (.temperatureWarning true) s = .next s.showWarning) ∧
    (s.getI pSys1 SYS_TEMP.intake ≤ 68 * 16 → s.getI pSys1 SYS_TEMP.die ≤ 103 * 16 → exec (.temperatureWarning false) s = .next s.showWarning) ∧
    (s.getI pSys1 SYS_TEMP.intake < 70 * 16 → s.getI pSys1 SYS_TEMP.die < 105 * 16 →
      (68 * 16 < s.getI pSys1 SYS_TEMP.intake ∨ 103 * 16 < s.getI pSys1 SYS_TEMP.die) → s.showWarning = s)) ∧
  (∀ (s : State) b v i, (v < 1800 ∨ 1800 ≤ i → s.showBrake b v i = s) ∧ (1800 ≤ v → i < 1800 → ∃ t : State, s.showBrake b v i = t ∧
    b2n b ∉ t.isl.brakeBad ∧ t.flag pSys1 (if b then SYS_ENVST.b2ok else SYS_ENVST.b1ok) = true ∧
    RegsOnly [pSys1 + SYS_ENVST.la.off] { s with isl := t.isl } t))

/-- A step runs the command at the front of the queue on the state with the queue's rest. For every command and state, a
step of the state with the command at the front of its queue is exec of that command on the state. The queue is the
interface of the model (log entry 1). Rules: R1. -/
def Obligations.StepRunsFrontCommand : Prop :=
  ∀ (c : Instr) (s : State), step { s with pending := c :: s.pending } = exec c s

/-- Every step answers a next state; with no command waiting, one edge of PCLK passes. No command of the table is refused
and none faults. With an empty queue the step is one edge of PCLK: the island time counts it, the core cycles advance
as the CORE clock does, and memory and the queue stay while no access is held and no Porter moves words; while PCLK
stands the blocks on it stay too, and no register changes but the compares of the edge that ends, the counts of
stalled cycles and the high-water marks (the tick is the model's choice, log entry 2). Rules: R1, R120, R277. -/
def Obligations.EveryStepAnswers : Prop :=
  (∀ s : State, SafeStep s) ∧
  (∀ (i : Instr) (s : State), ∃ t, exec i s = .next t) ∧
  (∀ s : State, s.pending = [] → s.held = [] → (∀ e, s.pe e = none) → ∃ t : State, step s = .next t ∧ t.pending = [] ∧ t.now = s.now + 1 ∧
    t.mem = s.mem ∧ (s.domStopped 0 = true → t.cyc = s.cyc) ∧ (s.domStopped 0 = false → s.domCur 0 = 1 → fldGet s.clk.ssc CLK_SSC.cen = 0 →
      t.cyc = s.cyc + 3000000)) ∧
  (∀ s : State, s.pending = [] → s.held = [] → (∀ e, s.pe e = none) → s.flag pClk CLK_DOM_FIX.prun = false →
    (∀ e ∈ s.pwm, s.outBits e.1 = (s.pw e.1).outs) → ∃ t : State, step s = .next t ∧
    t.time = s.time ∧ t.prism = s.prism ∧ t.pwm = s.pwm ∧ t.prof = s.prof) ∧
  (∀ s : State, s.pending = [] → s.held = [] → (∀ e, s.pe e = none) → s.flag pClk CLK_DOM_FIX.prun = false → (∀ e ∈ s.fbk, e.2.cmp = none) → (∀ e ∈ s.core, e.2.stalled = false) →
    (∀ c < 2, s.dramLevel c ≤ s.get (pMem (c + 1)) MEM_DOCC.hwm) → s.innk.queue.length ≤ s.get pInnk0 INNK_PQ.hwm →
    ∃ t : State, step s = .next t ∧ t.regs = s.regs)

/-- After module reset PAGE_CTL.en reads 1 in the SYS, CLK, TIME, MEM and INNK pages and in the CORE page of core 0, and 0
in every other page. After a module reset, a read of PAGE_CTL by a core shows en = 1 in the pages of types SYS, CLK,
TIME, MEM and INNK and in the CORE page of core 0, and en = 0 in every other page. Rules: R20. -/
def Obligations.EnabledPagesAfterReset : Prop :=
  ∀ (s t : State) (rec_ svc : Bool) (page : Nat), exec (.moduleReset rec_ svc) s = .next t → page < 8256 → (blkOf (pageAddr page)).hasHeader = true →
    ∃ v : Word, (t.busRead 0 (pageAddr page + 1)).1 = some v ∧
      fldGet v.toNat PAGE_CTL.en = (if (blkOf (pageAddr page)).code ∈ [0x001, 0x002, 0x003, 0x005, 0x006] ∨ page = 0x2000 then 1 else 0)

/-- An event sets its PAGE_EV bit, and its PAGE_EVPEND bit where PAGE_EVEN is set at that moment; a later enable makes
nothing pending. When an event of a page occurs, its PAGE_EV bit sets and no other bit of PAGE_EV changes; its
PAGE_EVPEND bit sets too where the PAGE_EVEN bit is 1, and else PAGE_EVPEND stays. A write of PAGE_EVEN leaves
PAGE_EVPEND as it is. Rules: R22. -/
def Obligations.EventsSetTheirBits : Prop :=
  (∀ (s : State) p k, k < 36 → bitN ((s.ev p k).get p PAGE_EV.ev) k = true ∧
    (∀ j < 36, j ≠ k → bitN ((s.ev p k).get p PAGE_EV.ev) j = bitN (s.get p PAGE_EV.ev) j) ∧
    (bitN (s.get p PAGE_EVEN.even) k = true → bitN ((s.ev p k).get p PAGE_EVPEND.evpend) k = true) ∧
    (∀ j < 36, j ≠ k → bitN ((s.ev p k).get p PAGE_EVPEND.evpend) j = bitN (s.get p PAGE_EVPEND.evpend) j) ∧
    (bitN (s.get p PAGE_EVEN.even) k = false → (s.ev p k).get p PAGE_EVPEND.evpend = s.get p PAGE_EVPEND.evpend)) ∧
  (∀ (s : State) ini page (v : Word), (blkOf (pageAddr page)).hasHeader = true → ∃ t : State,
    exec (.registerWrite ini (word (pageAddr page + 4)) v) s = .next t ∧
      t.get (pageAddr page) PAGE_EVPEND.evpend = s.get (pageAddr page) PAGE_EVPEND.evpend)

/-- A write of FC_CFG takes effect at once and clears cur and prev; an invalid one keeps the register and total
increments. A valid write of FC_CFG that no lock refuses takes every field at once, clears cur and prev, and keeps
total and lasting. With n = 0, w above 20 or action 5 to 7 the whole register keeps its value and total increments, up
to 0xFFFF. Rules: R42. -/
def Obligations.FaultCounterConfiguration : Prop :=
  (∀ (s : State) ini page (v : Word), (blkOf (pageAddr page)).hasHeader = true → s.fcLocked ini (pageAddr page) = false →
    fldGet v.toNat FC_CFG.n ≠ 0 → fldGet v.toNat FC_CFG.w ≤ 20 → fldGet v.toNat FC_CFG.action < 5 → ∃ t : State,
    exec (.fcCfgWrite ini page v) s = .next t ∧ t.get (pageAddr page) FC_CFG.enable = fldGet v.toNat FC_CFG.enable ∧
      t.get (pageAddr page) FC_CFG.n = fldGet v.toNat FC_CFG.n ∧ t.get (pageAddr page) FC_CFG.w = fldGet v.toNat FC_CFG.w ∧
      t.get (pageAddr page) FC_CFG.action = fldGet v.toNat FC_CFG.action ∧ t.get (pageAddr page) FC_STAT.cur = 0 ∧
      t.get (pageAddr page) FC_STAT.prev = 0 ∧ t.get (pageAddr page) FC_STAT.total = s.get (pageAddr page) FC_STAT.total ∧
      t.get (pageAddr page) FC_STAT.lasting = s.get (pageAddr page) FC_STAT.lasting ∧
      (∀ a, a ≠ pageAddr page + 8 → a ≠ pageAddr page + 9 → t.regW a = s.regW a) ∧ t.mem = s.mem ∧ t.crs = s.crs) ∧
  (∀ (s : State) ini page (v : Word), (blkOf (pageAddr page)).hasHeader = true → s.fcLocked ini (pageAddr page) = false →
    (fldGet v.toNat FC_CFG.n = 0 ∨ 20 < fldGet v.toNat FC_CFG.w ∨ 5 ≤ fldGet v.toNat FC_CFG.action) → ∃ t : State,
    exec (.fcCfgWrite ini page v) s = .next t ∧ t.regW (pageAddr page + 8) = s.regW (pageAddr page + 8) ∧
      t.get (pageAddr page) FC_STAT.total = min 0xFFFF (s.get (pageAddr page) FC_STAT.total + 1) ∧ RegsOnly [pageAddr page + 9] s t)

/-- The state after reset: every register word, core register and memory word, the clocks, the locks and the queue. After
reset no command waits, every register word holds its reset value, memory reads 0, every core register is 0 but the PC
of core 0, which is 0x3000, nothing is locked or sealed, no gate is enabled, CORE and FAB run on the IRC, PCLK and
MEMC stand, cell time is not valid, the island is in state 0 and the module has not booted. Model choices: what
unwritten memory reads as (log entry 5) and the reset values that the spec does not give (log entry 6). Rules: R20,
R399, R407, R491, R492, R509, R515, R523. -/
def Obligations.ResetState : Prop :=
  State.reset.pending = [] ∧
  State.reset.now = 0 ∧
  (∀ a, State.reset.regW a = resetWord a) ∧
  (∀ a, State.reset.memW a = 0) ∧
  (∀ c i, i < 128 → State.reset.cr c i = if c = 0 ∧ i = rPC then 0x3000 else 0) ∧
  State.reset.slLocked = false ∧
  State.reset.olSealed = false ∧
  State.reset.gateEn = [] ∧
  State.reset.blocked = [] ∧
  State.reset.get pClk CLK_DOM_CORE.cur = 0 ∧
  State.reset.get pClk CLK_DOM_FAB.cur = 0 ∧
  State.reset.get pClk CLK_DOM_FIX.prun = 0 ∧
  State.reset.get pClk CLK_DOM_FIX.mrun = 0 ∧
  State.reset.get pTime0 TIME_CT_STAT.valid = 0 ∧
  State.reset.islState = 0 ∧
  State.reset.get pSys SYS_BOOT.state = 0 ∧
  State.reset.get pSys SYS_RCAUSE.kind = 1 ∧
  (∀ p < 12, State.reset.pstate p = 0) ∧
  (∀ ch < 96, State.reset.bstate ch = 5) ∧
  (∀ c < 64, State.reset.co c = {})

/-- The stores of the state after reset are in canonical form. The register words, the memories and the core registers
after reset are sorted by address, with no entry that equals what an unlisted address reads as. Rules: R1. -/
def Obligations.ResetStoresAreCanonical : Prop :=
  State.reset.wf = true ∧ Memory.wf State.reset = true

/-- Every step keeps the register words, the memories and the core registers in canonical form. From every state whose
stores are in canonical form, whatever command is at the front of the queue or none, a step leads to a state whose
stores are in canonical form: equal contents stay equal data. The canonical form is the model's (log entry 5). Rules:
R1, R11, R13. -/
def Obligations.StepKeepsStoresCanonical : Prop :=
  ∀ s t : State, s.wf = true → step s = .next t → t.wf = true

/-- The word of every legal core instruction decodes back to it. For every instruction of a core whose operands fit their
fields and that is legal, the decoder reads the encoder's word as that same instruction, with every operand. Rules:
R278, R279, R280. -/
def Obligations.CoreWordsDecodeBack : Prop :=
  ∀ i : Instr, isSynlen i = true → synlenLegal i = true → ∃ c, decodeSynlen c (encodeSynlen i) = some i

/-- QTAIL_WRITE, QCFG_WRITE and ASYNC_SEND complete: what a queue takes, what it delivers, and what a port sends. A tail
write gives descriptors to the hardware: every queue takes the tail, and a receive queue then delivers the frames that
wait, each written to its descriptor and buffer with its stamp, its status and, last, word 0 with done, or counted as
a drop where it is longer than the buffer. A configuration write of a queue in use takes post, task and the end of
use, which returns head to 0, and keeps the rest, with the event where the rest differs; of an idle queue it takes
every field. A port whose way is free starts the frame at the head of the transmit queue, with the destination, the
cycle, the sequence number and the payload of its descriptor, spends its credits, ends the descriptor and records
event 10; a destination that is not in the name table ends it with result 2; a closed window or too few credits leave
it. No timestamp is inserted here (R87). Rules: R357, R381, R382, R383, R384, R385, R389. -/
def Obligations.QueueWritesAndAsynchronousSends : Prop :=
  (∀ (s : State) u, s.clockOff pRing0 = false → u < 10 → s.flag (pRing u) RING_P_STAT.up = true → s.rState ≠ 0 → Tab.rd s.ring.fwd u = [] →
    s.qReady (pRing0 + 0x24) = true → bitN (s.memW (s.qDesc (pRing0 + 0x24))).toNat 35 = true → (s.memW (s.qDesc (pRing0 + 0x24))).toNat % 2 ^ 16 ≤ 2020 →
    bitN (s.memW (s.qDesc (pRing0 + 0x24) + 3)).toNat 23 = false → s.namePresent ((s.memW (s.qDesc (pRing0 + 0x24) + 3)).toNat / 2 ^ 12 % 2 ^ 11) = true →
    s.asyncPort ((s.memW (s.qDesc (pRing0 + 0x24) + 3)).toNat / 2 ^ 12 % 2 ^ 11) = u → (2 ≤ u ∨ s.flag (pRing u) RING_P_STAT.wrap = false) →
    s.windowOpen u ((s.memW (s.qDesc (pRing0 + 0x24))).toNat % 2 ^ 16) true = true → ((s.memW (s.qDesc (pRing0 + 0x24))).toNat % 2 ^ 16 + 83) / 64 ≤ s.get (pRing u) RING_P_CRED.cred →
    pageBlocked s pRing0 = false → pageBlocked s (pRing u) = false → s.ring.txHold = [] → s.flag pClk CLK_DOM_FIX.pdead = false →
    s.flag (pTsu u) TIME_TSU_CFG.en = false → ∃ t : State,
    exec (.asyncSend u) s = .next ((t.txDone (pRing0 + 0x24) (s.qDesc (pRing0 + 0x24)) (2 ^ 35)).ev pRing0 10) ∧
      Tab.rd t.ring.tx u = some { typ := 3, bcast := false, dir := decide (u = 1), src := s.rAddr,
                                  slot := (s.memW (s.qDesc (pRing0 + 0x24) + 3)).toNat / 2 ^ 12 % 2 ^ 11, cyc := s.cycNow % 65536, seq := s.ring.seq,
                                  payload := s.octets (s.memW (s.qDesc (pRing0 + 0x24) + 1)).toNat ((s.memW (s.qDesc (pRing0 + 0x24))).toNat % 2 ^ 16) } ∧
      t.get (pRing u) RING_P_CRED.cred = s.get (pRing u) RING_P_CRED.cred - ((s.memW (s.qDesc (pRing0 + 0x24))).toNat % 2 ^ 16 + 83) / 64 ∧
      t.ring.seq = (s.ring.seq + 1) % 256 ∧ RegsOnly [pRing u + 0x15] { s with ring := t.ring } t) ∧
  (∀ (s : State) u, s.clockOff pRing0 = false → u = 0 → s.flag (pRing u) RING_P_STAT.up = true → s.rState ≠ 0 → Tab.rd s.ring.fwd u = [] →
    s.qReady (pRing0 + 0x24) = true → bitN (s.memW (s.qDesc (pRing0 + 0x24))).toNat 35 = true → (s.memW (s.qDesc (pRing0 + 0x24))).toNat % 2 ^ 16 ≤ 2020 →
    bitN (s.memW (s.qDesc (pRing0 + 0x24) + 3)).toNat 23 = true → s.ringWrapped = false → s.flag (pRing u) RING_P_STAT.wrap = false →
    s.windowOpen u ((s.memW (s.qDesc (pRing0 + 0x24))).toNat % 2 ^ 16) true = true → ((s.memW (s.qDesc (pRing0 + 0x24))).toNat % 2 ^ 16 + 83) / 64 ≤ s.get (pRing u) RING_P_CRED.cred →
    pageBlocked s pRing0 = false → pageBlocked s (pRing u) = false → s.ring.txHold = [] → s.flag pClk CLK_DOM_FIX.pdead = false →
    s.flag (pTsu u) TIME_TSU_CFG.en = false → ∃ t : State,
    exec (.asyncSend u) s = .next ((t.txDone (pRing0 + 0x24) (s.qDesc (pRing0 + 0x24)) (2 ^ 35)).ev pRing0 10) ∧
      Tab.rd t.ring.tx 0 = some { typ := 3, bcast := true, dir := false, src := s.rAddr,
                                  slot := (s.memW (s.qDesc (pRing0 + 0x24) + 3)).toNat / 2 ^ 12 % 2 ^ 11, cyc := s.cycNow % 65536, seq := s.ring.seq,
                                  payload := s.octets (s.memW (s.qDesc (pRing0 + 0x24) + 1)).toNat ((s.memW (s.qDesc (pRing0 + 0x24))).toNat % 2 ^ 16) } ∧
      t.ring.fwd = s.ring.fwd ∧ t.ring.seq = (s.ring.seq + 1) % 256 ∧ RegsOnly [pRing 0 + 0x15] { s with ring := t.ring } t) ∧
  (∀ (s : State) u, s.clockOff pRing0 = false →
    u < 10 → s.flag (pRing (s.viaPort u)) RING_P_STAT.up = true → s.rState ≠ 0 → Tab.rd s.ring.fwd u = [] →
    s.qReady (pRing0 + 0x24) = true → bitN (s.memW (s.qDesc (pRing0 + 0x24))).toNat 35 = true → (s.memW (s.qDesc (pRing0 + 0x24))).toNat % 2 ^ 16 ≤ 2020 →
    bitN (s.memW (s.qDesc (pRing0 + 0x24) + 3)).toNat 23 = false → s.namePresent ((s.memW (s.qDesc (pRing0 + 0x24) + 3)).toNat / 2 ^ 12 % 2 ^ 11) = false →
    exec (.asyncSend u) s = .next (s.txDone (pRing0 + 0x24) (s.qDesc (pRing0 + 0x24)) (2 ^ 34 + 2))) ∧
  (∀ (s : State) u, u < 10 → s.flag (pRing (s.viaPort u)) RING_P_STAT.up = true → s.rState ≠ 0 → Tab.rd s.ring.fwd u = [] →
    s.qReady (pRing0 + 0x24) = true → bitN (s.memW (s.qDesc (pRing0 + 0x24))).toNat 35 = true → (s.memW (s.qDesc (pRing0 + 0x24))).toNat % 2 ^ 16 ≤ 2020 →
    (s.windowOpen (s.viaPort u) ((s.memW (s.qDesc (pRing0 + 0x24))).toNat % 2 ^ 16) true = false ∨ s.get (pRing (s.viaPort u)) RING_P_CRED.cred < ((s.memW (s.qDesc (pRing0 + 0x24))).toNat % 2 ^ 16 + 83) / 64) →
    bitN (s.memW (s.qDesc (pRing0 + 0x24) + 3)).toNat 23 = true → exec (.asyncSend u) s = .next s) ∧
  (∀ (s : State) q (v : Word), s.takes (qAddr q + 3) →
    q < 26 → q ≠ 0 → (q = 1 ∨ 4 ≤ (q - 2) % 12) → ∃ t : State, exec (.qtailWrite q v) s = .next t ∧
    t.reg (qAddr q + 3) % 2 ^ 12 = v.toNat % 2 ^ 12 ∧ RegsOnly [qAddr q + 3] s t) ∧
  (∀ (s : State) (v : Word), s.takes (qAddr 0 + 3) → ∃ u : State, exec (.qtailWrite 0 v) s = .next (asyncDeliver u s.ring.wait) ∧
    u.reg (qAddr 0 + 3) % 2 ^ 12 = v.toNat % 2 ^ 12 ∧ RegsOnly [qAddr 0 + 3] s u) ∧
  (∀ (s : State) e k (v : Word), s.takes (qAddr (2 + 12 * e + k) + 3) →
    e < 2 → k < 4 → ∃ u : State, exec (.qtailWrite (2 + 12 * e + k) v) s = .next (u.ethDrain e) ∧
    u.reg (pEth e + 0x23 + 4 * k) % 2 ^ 12 = v.toNat % 2 ^ 12 ∧ RegsOnly [pEth e + 0x23 + 4 * k] s u) ∧
  (∀ (s : State) l, (l = [] ∨ s.qReady (pRing0 + 0x20) = false) → asyncDeliver s l = s) ∧
  (∀ (s : State) u f x, s.ring.wait = [(u, f, x)] → s.qReady (pRing0 + 0x20) = true → u < 10 →
    f.payload.length ≤ s.reg (pRing0 + 0x21) % 256 * 64 → ∃ v : State,
    asyncDeliver s s.ring.wait = (v.rxDeliver (pRing0 + 0x20) u f.payload x (f.hop % 256 * 2 ^ 16 + f.src)).ev pRing0 9 ∧ v.ring.wait = [] ∧
      Tab.rd v.ring.owed u = Tab.rd s.ring.owed u + (f.payload.length + 83) / 64 ∧
      Tab.rd v.ring.used u = Tab.rd s.ring.used u - (f.payload.length + 83) / 64 ∧ v = { s with ring := v.ring }) ∧
  (∀ (s : State) u f x, s.ring.wait = [(u, f, x)] → s.qReady (pRing0 + 0x20) = true → u < 10 →
    s.reg (pRing0 + 0x21) % 256 * 64 < f.payload.length → ∃ v : State, asyncDeliver s s.ring.wait = v.inc (pRing u) RING_P_DROP.n ∧
      v.ring.wait = [] ∧ v = { s with ring := v.ring }) ∧
  (∀ (s : State) a port oct (x : StampRec) w5, s.reg (a + 1) / 2 ^ 30 % 2 = 0 → ∃ t : State, s.rxDeliver a port oct x w5 = t ∧
    t.memW (s.qDesc a) = word (2 ^ 35 + port * 2 ^ 30 + oct.length) ∧ t.memW (s.qDesc a + 2) = word (t72Hi x.t64) ∧
    t.memW (s.qDesc a + 3) = word (t72Lo x.t64) ∧ t.memW (s.qDesc a + 4) = word x.st ∧ t.memW (s.qDesc a + 5) = word w5 ∧
    t.reg (a + 2) = (s.qHead a + 1) % s.qSize a % 2 ^ 36 ∧ (∀ b, b ≠ a + 2 → t.regW b = s.regW b)) ∧
  (∀ (s : State) q (v : Word), s.takes (qAddr q + 1) → q < 26 → s.qEn (qAddr q) = true → v.toNat / 2 ^ 31 % 16 = s.reg (qAddr q + 1) / 2 ^ 31 % 16 →
    v.toNat % 256 = s.reg (qAddr q + 1) % 256 → s.ring.wait = [] → (∀ e < 2, (s.et e).rx = []) → ∃ t : State, exec (.qcfgWrite q v) s = .next t ∧
      t.mem = (if bitN v.toNat 35 = true then s else s.txFlush (qAddr q)).mem ∧ t.qEn (qAddr q) = bitN v.toNat 35 ∧
      t.qSize (qAddr q) = s.qSize (qAddr q) ∧ t.reg (qAddr q + 1) % 256 = s.reg (qAddr q + 1) % 256 ∧
      t.reg (qAddr q + 1) / 2 ^ 21 % 2 ^ 10 = v.toNat / 2 ^ 21 % 2 ^ 10 ∧ (bitN v.toNat 35 = true → t.qHead (qAddr q) = s.qHead (qAddr q)) ∧
      (bitN v.toNat 35 = false → t.qHead (qAddr q) = 0) ∧ RegsOnly [qAddr q + 1, qAddr q + 2] { s with mem := t.mem } t) ∧
  (∀ (s : State) q (v : Word), s.takes (qAddr q + 1) → q < 26 → s.qEn (qAddr q) = true → (v.toNat / 2 ^ 31 % 16 ≠ s.reg (qAddr q + 1) / 2 ^ 31 % 16 ∨
    v.toNat % 256 ≠ s.reg (qAddr q + 1) % 256) → s.ring.wait = [] → (∀ e < 2, (s.et e).rx = []) → ∃ t : State,
    exec (.qcfgWrite q v) s = .next (t.ev (qPage (qAddr q)).1 (qPage (qAddr q)).2) ∧ t.qEn (qAddr q) = bitN v.toNat 35 ∧
      t.qSize (qAddr q) = s.qSize (qAddr q) ∧ t.reg (qAddr q + 1) % 256 = s.reg (qAddr q + 1) % 256 ∧
      t.reg (qAddr q + 1) / 2 ^ 21 % 2 ^ 10 = v.toNat / 2 ^ 21 % 2 ^ 10 ∧ RegsOnly [qAddr q + 1, qAddr q + 2] { s with mem := t.mem } t) ∧
  (∀ (s : State) q (v : Word), s.takes (qAddr q + 1) → q < 26 → s.qEn (qAddr q) = false → 4 ≤ v.toNat / 2 ^ 31 % 16 → v.toNat / 2 ^ 31 % 16 ≤ 12 →
    (qSends (qAddr q) = true ∨ 1 ≤ v.toNat % 256 ∧ v.toNat % 256 ≤ 144) → s.ring.wait = [] → (∀ e < 2, (s.et e).rx = []) → ∃ t : State, exec (.qcfgWrite q v) s = .next t ∧ t.qEn (qAddr q) = bitN v.toNat 35 ∧
      t.qSize (qAddr q) = 2 ^ (v.toNat / 2 ^ 31 % 16) ∧ t.reg (qAddr q + 1) % 256 = v.toNat % 256 ∧
      t.reg (qAddr q + 1) / 2 ^ 21 % 2 ^ 10 = v.toNat / 2 ^ 21 % 2 ^ 10 ∧ RegsOnly [qAddr q + 1] s t) ∧
  (∀ (s : State) q v, s.takes (qAddr q + 1) → s.takes (qAddr q + 3) →
    26 ≤ q → exec (.qcfgWrite q v) s = .next s ∧ exec (.qtailWrite q v) s = .next s)

/-- The plant Ethernet commands complete: frames received, sent and repeated, pauses that end, and links that change. A
frame for the port takes the descriptor at the head of its queue, counts, and records event 2, or waits in the shared
buffer; a PAUSE frame is only counted, and a PFC frame pauses the two priorities for its quanta at the line rate. A
transmit queue that may start sends its frame, spends its octets with their FCS and 20 more of every bucket it passes,
ends the descriptor and records event 4; a frame longer than maxfr - 4 ends with result 1. A lost link counts with
event 1, a link that comes up records event 0, a change of speed shows. The PFC frame is sent again while the level is
at or above xon, unless the port is blocked; a pause ends at its time. No timestamp is inserted here (R87). Model
choices: the buckets fill with the island time (log entry 79), and what a PFC frame pauses (log entry 80). Rules: R41,
R384, R385, R386, R387, R388, R391, R392. -/
def Obligations.EthernetPortsReceiveAndSend : Prop :=
  (∀ (s : State) e f, s.clockOff pEth0 = false →
    e < 2 → s.flag (pEth e) ETH_LINK.up = true → s.flag (pEth e) PAGE_CTL.en = true → f.fcsOk = true → 60 ≤ f.octets.length →
    f.octets.length + 4 ≤ s.get (pEth e) ETH_CFG.maxfr →
    word16 f.octets 12 = 0x8808 → word16 f.octets 14 ≠ 0x0101 → exec (.ethFrameReceive e f) s = .next ((s.setEt e { s.et e with busyAt := some s.now }).inc (pEth e) ETH_PFCC.rx)) ∧
  (∀ (s : State) e f, s.clockOff pEth0 = false →
    e < 2 → s.flag (pEth e) ETH_LINK.up = true → s.flag (pEth e) PAGE_CTL.en = true → f.fcsOk = true → 60 ≤ f.octets.length →
    f.octets.length + 4 ≤ s.get (pEth e) ETH_CFG.maxfr →
    word16 f.octets 12 = 0x8808 → word16 f.octets 14 = 0x0101 →
    exec (.ethFrameReceive e f) s = .next (((s.setEt e { s.et e with busyAt := some s.now }).inc (pEth e) ETH_PFCC.rx).pfcReceive e f.octets)) ∧
  (∀ (s : State) e o, s.flag (pEth e) ETH_PFC.en = true → s.get (pEth e) ETH_PFC.pa ≠ s.get (pEth e) ETH_PFC.pb → ∃ t : State,
    s.pfcReceive e o = t ∧ t = { s with eth := t.eth } ∧ (∀ p, (p = s.get (pEth e) ETH_PFC.pa ∨ p = s.get (pEth e) ETH_PFC.pb) →
      bitN (word16 o 16) p = true → Tab.rd (t.et e).paused p = (if word16 o (18 + 2 * p) = 0 then none
        else some (s.t64 0 + word16 o (18 + 2 * p) * 512 * 64000 / s.ethRate e))) ∧
    (∀ p, (p ≠ s.get (pEth e) ETH_PFC.pa ∧ p ≠ s.get (pEth e) ETH_PFC.pb ∨ bitN (word16 o 16) p = false) →
      Tab.rd (t.et e).paused p = Tab.rd (s.et e).paused p)) ∧
  (∀ (s : State) e f a, s.clockOff pEth0 = false →
    e < 2 → s.flag (pEth e) ETH_LINK.up = true → s.flag (pEth e) PAGE_CTL.en = true → f.fcsOk = true → 60 ≤ f.octets.length →
    f.octets.length + 4 ≤ s.get (pEth e) ETH_CFG.maxfr →
    word16 f.octets 12 ≠ 0x8808 → s.ethMine e f.octets = true → s.lossless e (framePcp f.octets) = false → (s.et e).rx = [] →
    (s.et e).xoff = [] → s.ethUse + (f.octets.length + 63) / 64 ≤ 8192 → a = pEth e + 0x20 + 4 * s.rxQueue e (framePcp f.octets) →
    s.qReady a = true → f.octets.length ≤ s.reg (a + 1) % 256 * 64 → ∃ t : State, exec (.ethFrameReceive e f) s = .next t ∧
      (t.et e).rx = [] ∧ t.get (pEth e) ETH_RXF.n = min (2 ^ 36 - 1) (s.get (pEth e) ETH_RXF.n + 1) ∧
      bitN (t.get (pEth e) PAGE_EV.ev) 2 = true ∧ t.memW (s.qDesc a) = word (2 ^ 35 + (10 + e) * 2 ^ 30 + f.octets.length) ∧
      t.memW (s.qDesc a + 4) = word (s.stampStat (10 + e)) ∧ t.reg (a + 2) = (s.qHead a + 1) % s.qSize a % 2 ^ 36) ∧
  (∀ (s : State) e f a, s.clockOff pEth0 = false →
    e < 2 → s.flag (pEth e) ETH_LINK.up = true → s.flag (pEth e) PAGE_CTL.en = true → f.fcsOk = true → 60 ≤ f.octets.length →
    f.octets.length + 4 ≤ s.get (pEth e) ETH_CFG.maxfr →
    word16 f.octets 12 ≠ 0x8808 → s.ethMine e f.octets = true → s.lossless e (framePcp f.octets) = false → (s.et e).rx = [] →
    (s.et e).xoff = [] → s.ethUse + (f.octets.length + 63) / 64 ≤ 8192 → a = pEth e + 0x20 + 4 * s.rxQueue e (framePcp f.octets) →
    s.qReady a = false → ∃ t : State, exec (.ethFrameReceive e f) s = .next t ∧ t.mem = s.mem ∧
      (t.et e).rx.map (fun x => (x.prio, x.head, x.frame)) = [(framePcp f.octets, false, f)] ∧
      t.get pEth0 ETH_BUF.use = (s.ethUse + (f.octets.length + 63) / 64) % 2 ^ 18 ∧ RegsOnly [pEth0 + 0x10] { s with eth := t.eth } t) ∧
  (∀ (s : State) e q, s.clockOff pEth0 = false →
    e < 2 → q < 8 → s.flag (pEth e) ETH_LINK.up = true → s.flag (pEth e) PAGE_CTL.en = true → pageBlocked s pEth0 = false →
    pageBlocked s (pEth e) = false → s.qReady (txqAddr e q) = true → bitN (s.memW (s.qDesc (txqAddr e q))).toNat 35 = true →
    s.get (pEth e) ETH_CFG.maxfr < (s.memW (s.qDesc (txqAddr e q))).toNat % 2 ^ 16 + 4 →
    exec (.ethTransmit e q) s = .next (s.txDone (txqAddr e q) (s.qDesc (txqAddr e q)) (2 ^ 34 + 1))) ∧
  (∀ (s : State) e q, s.clockOff pEth0 = false →
    e < 2 → q < 8 → s.flag (pEth e) ETH_LINK.up = true → s.flag (pEth e) PAGE_CTL.en = true → pageBlocked s pEth0 = false →
    pageBlocked s (pEth e) = false → (s.memW (s.qDesc (txqAddr e q))).toNat % 2 ^ 16 + 4 ≤ s.get (pEth e) ETH_CFG.maxfr →
    s.ethCan e q = true → (∀ k, q < k → k < 8 → s.ethCan e k = false) → s.flag (pTsu (10 + e)) TIME_TSU_CFG.en = false → ∃ u : State,
      exec (.ethTransmit e q) s = .next ((u.txDone (txqAddr e q) (s.qDesc (txqAddr e q)) (2 ^ 35)).ev (pEth e) 4) ∧
      (u.et e).sent = some { octets := s.octets (s.memW ((s.qDesc (txqAddr e q)) + 1)).toNat ((s.memW (s.qDesc (txqAddr e q))).toNat % 2 ^ 16) } ∧
      u.get (pEth e) ETH_TXF.n = min (2 ^ 36 - 1) (s.get (pEth e) ETH_TXF.n + 1) ∧
      Tab.rd (u.et e).lack 8 = s.bucketLack e 8 + ((s.memW (s.qDesc (txqAddr e q))).toNat % 2 ^ 16 + 24) * 512000 ∧
      ((s.bucket e q).1 ≠ 0 → Tab.rd (u.et e).lack q = s.bucketLack e q + ((s.memW (s.qDesc (txqAddr e q))).toNat % 2 ^ 16 + 24) * 512000) ∧
      RegsOnly [pEth e + 0x54] { s with eth := u.eth } u) ∧
  (∀ (s : State) e, e < 2 → s.flag (pEth e) ETH_LINK.up = true → ∃ u : State, exec (.ethLinkChange e 0) s = .next (u.evC (pEth e) 1) ∧
    u.get (pEth e) ETH_LINK.up = 0 ∧ u.get (pEth e) ETH_LINK.speed = 0 ∧
    u.get (pEth e) ETH_LINK.down = min 0xFFFF (s.get (pEth e) ETH_LINK.down + 1) ∧ RegsOnly [pEth e + 0x11] s u) ∧
  (∀ (s : State) e sp, e < 2 → 1 ≤ sp → sp ≤ 4 → bitN (s.get (pEth e) ETH_CFG.spd) (sp - 1) = true → ∃ u : State,
    exec (.ethLinkChange e sp) s = .next (if s.flag (pEth e) ETH_LINK.up = true then u else u.ev (pEth e) 0) ∧
      u.get (pEth e) ETH_LINK.up = 1 ∧ u.get (pEth e) ETH_LINK.speed = sp ∧
      u.get (pEth e) ETH_LINK.down = s.get (pEth e) ETH_LINK.down ∧ RegsOnly [pEth e + 0x11] s u) ∧
  (∀ (s : State) e sp, e < 2 → 1 ≤ sp → bitN (s.get (pEth e) ETH_CFG.spd) (sp - 1) = false → exec (.ethLinkChange e sp) s = .next s) ∧
  (∀ (s : State) e prio, s.clockOff pEth0 = false →
    e < 2 → prio ∈ (s.et e).xoff → s.get (pEth e) ETH_PFC.xon * 1024 ≤ s.ethLevel e prio → s.get (pEth e) ETH_CAP.rate ≠ 0 →
    pageBlocked s pEth0 = false → pageBlocked s (pEth e) = false → ∃ t : State, exec (.pfcFrameRepeat e prio) s = .next t ∧
      (t.et e).sent = some (s.pfcFrame e prio 0xFFFF) ∧ (t.et e).rx = (s.et e).rx ∧ (t.et e).xoff = (s.et e).xoff ∧
      t.get (pEth e) ETH_PFCC.tx = min (2 ^ 18 - 1) (s.get (pEth e) ETH_PFCC.tx + 1) ∧ RegsOnly [pEth e + 0x55] { s with eth := t.eth } t) ∧
  (∀ (s : State) e prio, pageBlocked s pEth0 = true ∨ pageBlocked s (pEth e) = true → exec (.pfcFrameRepeat e prio) s = .next s) ∧
  (∀ (s : State) e prio tt, s.clockOff pEth0 = false →
    e < 2 → Tab.rd (s.et e).paused prio = some tt → tt ≤ s.t64 0 → ∃ t : State, exec (.pfcPauseExpire e prio) s = .next t ∧
    Tab.rd (t.et e).paused prio = none ∧ (∀ k, k ≠ prio → Tab.rd (t.et e).paused k = Tab.rd (s.et e).paused k) ∧
    (t.et e).rx = (s.et e).rx ∧ t = { s with eth := t.eth }) ∧
  (∀ (s : State) e prio tt, Tab.rd (s.et e).paused prio = some tt → s.t64 0 < tt → exec (.pfcPauseExpire e prio) s = .next s)
end

