-- ==== Sys2Proof/Laws/State.lean ====
section
/-! SUPPORT. What the named updates of State leave alone: one lemma per update and field. -/

namespace Sys2Proof.Machine

@[simp] theorem State.setReg_pending (s : State) (a v : Nat) : (s.setReg a v).pending = s.pending := rfl
@[simp] theorem State.setReg_now (s : State) (a v : Nat) : (s.setReg a v).now = s.now := rfl
@[simp] theorem State.setReg_cyc (s : State) (a v : Nat) : (s.setReg a v).cyc = s.cyc := rfl
@[simp] theorem State.setReg_mem (s : State) (a v : Nat) : (s.setReg a v).mem = s.mem := rfl
@[simp] theorem State.setReg_crs (s : State) (a v : Nat) : (s.setReg a v).crs = s.crs := rfl
@[simp] theorem State.setReg_core (s : State) (a v : Nat) : (s.setReg a v).core = s.core := rfl
@[simp] theorem State.setReg_task (s : State) (a v : Nat) : (s.setReg a v).task = s.task := rfl
@[simp] theorem State.setReg_innk (s : State) (a v : Nat) : (s.setReg a v).innk = s.innk := rfl
@[simp] theorem State.setReg_time (s : State) (a v : Nat) : (s.setReg a v).time = s.time := rfl
@[simp] theorem State.setReg_prism (s : State) (a v : Nat) : (s.setReg a v).prism = s.prism := rfl
@[simp] theorem State.setReg_prof (s : State) (a v : Nat) : (s.setReg a v).prof = s.prof := rfl
@[simp] theorem State.setReg_pwm (s : State) (a v : Nat) : (s.setReg a v).pwm = s.pwm := rfl
@[simp] theorem State.setReg_port (s : State) (a v : Nat) : (s.setReg a v).port = s.port := rfl
@[simp] theorem State.setReg_fbk (s : State) (a v : Nat) : (s.setReg a v).fbk = s.fbk := rfl
@[simp] theorem State.setReg_ale (s : State) (a v : Nat) : (s.setReg a v).ale = s.ale := rfl
@[simp] theorem State.setReg_pipe (s : State) (a v : Nat) : (s.setReg a v).pipe = s.pipe := rfl
@[simp] theorem State.setReg_stream (s : State) (a v : Nat) : (s.setReg a v).stream = s.stream := rfl
@[simp] theorem State.setReg_holds (s : State) (a v : Nat) : (s.setReg a v).holds = s.holds := rfl
@[simp] theorem State.setReg_envBlk (s : State) (a v : Nat) : (s.setReg a v).envBlk = s.envBlk := rfl
@[simp] theorem State.setReg_envNotify (s : State) (a v : Nat) : (s.setReg a v).envNotify = s.envNotify := rfl
@[simp] theorem State.setReg_gateEn (s : State) (a v : Nat) : (s.setReg a v).gateEn = s.gateEn := rfl
@[simp] theorem State.setReg_wire (s : State) (a v : Nat) : (s.setReg a v).wire = s.wire := rfl
@[simp] theorem State.setReg_heldPosts (s : State) (a v : Nat) : (s.setReg a v).heldPosts = s.heldPosts := rfl
@[simp] theorem State.setReg_posted (s : State) (a v : Nat) : (s.setReg a v).posted = s.posted := rfl
@[simp] theorem State.setReg_blocked (s : State) (a v : Nat) : (s.setReg a v).blocked = s.blocked := rfl
@[simp] theorem State.setReg_srstBusy (s : State) (a v : Nat) : (s.setReg a v).srstBusy = s.srstBusy := rfl
@[simp] theorem State.setReg_gating (s : State) (a v : Nat) : (s.setReg a v).gating = s.gating := rfl
@[simp] theorem State.setReg_held (s : State) (a v : Nat) : (s.setReg a v).held = s.held := rfl
@[simp] theorem State.setReg_slLocked (s : State) (a v : Nat) : (s.setReg a v).slLocked = s.slLocked := rfl
@[simp] theorem State.setReg_olSealed (s : State) (a v : Nat) : (s.setReg a v).olSealed = s.olSealed := rfl
@[simp] theorem State.setReg_fcNotify (s : State) (a v : Nat) : (s.setReg a v).fcNotify = s.fcNotify := rfl
@[simp] theorem State.setReg_fcStart (s : State) (a v : Nat) : (s.setReg a v).fcStart = s.fcStart := rfl
@[simp] theorem State.setReg_jumpAt (s : State) (a v : Nat) : (s.setReg a v).jumpAt = s.jumpAt := rfl
@[simp] theorem State.setReg_logq (s : State) (a v : Nat) : (s.setReg a v).logq = s.logq := rfl
@[simp] theorem State.setReg_logAt (s : State) (a v : Nat) : (s.setReg a v).logAt = s.logAt := rfl
@[simp] theorem State.setReg_dscrub (s : State) (a v : Nat) : (s.setReg a v).dscrub = s.dscrub := rfl
@[simp] theorem State.setReg_scrubPos (s : State) (a v : Nat) : (s.setReg a v).scrubPos = s.scrubPos := rfl
@[simp] theorem State.setReg_logScanned (s : State) (a v : Nat) : (s.setReg a v).logScanned = s.logScanned := rfl
@[simp] theorem State.setReg_mwq (s : State) (a v : Nat) : (s.setReg a v).mwq = s.mwq := rfl
@[simp] theorem State.setReg_porter (s : State) (a v : Nat) : (s.setReg a v).porter = s.porter := rfl
@[simp] theorem State.setReg_ring (s : State) (a v : Nat) : (s.setReg a v).ring = s.ring := rfl
@[simp] theorem State.setReg_eth (s : State) (a v : Nat) : (s.setReg a v).eth = s.eth := rfl
@[simp] theorem State.setReg_isl (s : State) (a v : Nat) : (s.setReg a v).isl = s.isl := rfl
@[simp] theorem State.setReg_clk (s : State) (a v : Nat) : (s.setReg a v).clk = s.clk := rfl
@[simp] theorem State.setReg_console (s : State) (a v : Nat) : (s.setReg a v).console = s.console := rfl
@[simp] theorem State.setReg_rdata (s : State) (a v : Nat) : (s.setReg a v).rdata = s.rdata := rfl
@[simp] theorem State.setReg_freeN (s : State) (a v : Nat) : (s.setReg a v).freeN = s.freeN := rfl

@[simp] theorem State.resetReg_pending (s : State) (a : Nat) : (s.resetReg a).pending = s.pending := rfl
@[simp] theorem State.resetReg_now (s : State) (a : Nat) : (s.resetReg a).now = s.now := rfl
@[simp] theorem State.resetReg_cyc (s : State) (a : Nat) : (s.resetReg a).cyc = s.cyc := rfl
@[simp] theorem State.resetReg_mem (s : State) (a : Nat) : (s.resetReg a).mem = s.mem := rfl
@[simp] theorem State.resetReg_crs (s : State) (a : Nat) : (s.resetReg a).crs = s.crs := rfl
@[simp] theorem State.resetReg_core (s : State) (a : Nat) : (s.resetReg a).core = s.core := rfl
@[simp] theorem State.resetReg_task (s : State) (a : Nat) : (s.resetReg a).task = s.task := rfl
@[simp] theorem State.resetReg_innk (s : State) (a : Nat) : (s.resetReg a).innk = s.innk := rfl
@[simp] theorem State.resetReg_time (s : State) (a : Nat) : (s.resetReg a).time = s.time := rfl
@[simp] theorem State.resetReg_prism (s : State) (a : Nat) : (s.resetReg a).prism = s.prism := rfl
@[simp] theorem State.resetReg_prof (s : State) (a : Nat) : (s.resetReg a).prof = s.prof := rfl
@[simp] theorem State.resetReg_pwm (s : State) (a : Nat) : (s.resetReg a).pwm = s.pwm := rfl
@[simp] theorem State.resetReg_port (s : State) (a : Nat) : (s.resetReg a).port = s.port := rfl
@[simp] theorem State.resetReg_fbk (s : State) (a : Nat) : (s.resetReg a).fbk = s.fbk := rfl
@[simp] theorem State.resetReg_ale (s : State) (a : Nat) : (s.resetReg a).ale = s.ale := rfl
@[simp] theorem State.resetReg_pipe (s : State) (a : Nat) : (s.resetReg a).pipe = s.pipe := rfl
@[simp] theorem State.resetReg_stream (s : State) (a : Nat) : (s.resetReg a).stream = s.stream := rfl
@[simp] theorem State.resetReg_holds (s : State) (a : Nat) : (s.resetReg a).holds = s.holds := rfl
@[simp] theorem State.resetReg_envBlk (s : State) (a : Nat) : (s.resetReg a).envBlk = s.envBlk := rfl
@[simp] theorem State.resetReg_envNotify (s : State) (a : Nat) : (s.resetReg a).envNotify = s.envNotify := rfl
@[simp] theorem State.resetReg_gateEn (s : State) (a : Nat) : (s.resetReg a).gateEn = s.gateEn := rfl
@[simp] theorem State.resetReg_wire (s : State) (a : Nat) : (s.resetReg a).wire = s.wire := rfl
@[simp] theorem State.resetReg_heldPosts (s : State) (a : Nat) : (s.resetReg a).heldPosts = s.heldPosts := rfl
@[simp] theorem State.resetReg_posted (s : State) (a : Nat) : (s.resetReg a).posted = s.posted := rfl
@[simp] theorem State.resetReg_blocked (s : State) (a : Nat) : (s.resetReg a).blocked = s.blocked := rfl
@[simp] theorem State.resetReg_srstBusy (s : State) (a : Nat) : (s.resetReg a).srstBusy = s.srstBusy := rfl
@[simp] theorem State.resetReg_gating (s : State) (a : Nat) : (s.resetReg a).gating = s.gating := rfl
@[simp] theorem State.resetReg_held (s : State) (a : Nat) : (s.resetReg a).held = s.held := rfl
@[simp] theorem State.resetReg_slLocked (s : State) (a : Nat) : (s.resetReg a).slLocked = s.slLocked := rfl
@[simp] theorem State.resetReg_olSealed (s : State) (a : Nat) : (s.resetReg a).olSealed = s.olSealed := rfl
@[simp] theorem State.resetReg_fcNotify (s : State) (a : Nat) : (s.resetReg a).fcNotify = s.fcNotify := rfl
@[simp] theorem State.resetReg_fcStart (s : State) (a : Nat) : (s.resetReg a).fcStart = s.fcStart := rfl
@[simp] theorem State.resetReg_jumpAt (s : State) (a : Nat) : (s.resetReg a).jumpAt = s.jumpAt := rfl
@[simp] theorem State.resetReg_logq (s : State) (a : Nat) : (s.resetReg a).logq = s.logq := rfl
@[simp] theorem State.resetReg_logAt (s : State) (a : Nat) : (s.resetReg a).logAt = s.logAt := rfl
@[simp] theorem State.resetReg_dscrub (s : State) (a : Nat) : (s.resetReg a).dscrub = s.dscrub := rfl
@[simp] theorem State.resetReg_scrubPos (s : State) (a : Nat) : (s.resetReg a).scrubPos = s.scrubPos := rfl
@[simp] theorem State.resetReg_logScanned (s : State) (a : Nat) : (s.resetReg a).logScanned = s.logScanned := rfl
@[simp] theorem State.resetReg_mwq (s : State) (a : Nat) : (s.resetReg a).mwq = s.mwq := rfl
@[simp] theorem State.resetReg_porter (s : State) (a : Nat) : (s.resetReg a).porter = s.porter := rfl
@[simp] theorem State.resetReg_ring (s : State) (a : Nat) : (s.resetReg a).ring = s.ring := rfl
@[simp] theorem State.resetReg_eth (s : State) (a : Nat) : (s.resetReg a).eth = s.eth := rfl
@[simp] theorem State.resetReg_isl (s : State) (a : Nat) : (s.resetReg a).isl = s.isl := rfl
@[simp] theorem State.resetReg_clk (s : State) (a : Nat) : (s.resetReg a).clk = s.clk := rfl
@[simp] theorem State.resetReg_console (s : State) (a : Nat) : (s.resetReg a).console = s.console := rfl
@[simp] theorem State.resetReg_rdata (s : State) (a : Nat) : (s.resetReg a).rdata = s.rdata := rfl
@[simp] theorem State.resetReg_freeN (s : State) (a : Nat) : (s.resetReg a).freeN = s.freeN := rfl

@[simp] theorem State.put_pending (s : State) (p : Nat) (f : Fld) (v : Nat) : (s.put p f v).pending = s.pending := rfl
@[simp] theorem State.put_now (s : State) (p : Nat) (f : Fld) (v : Nat) : (s.put p f v).now = s.now := rfl
@[simp] theorem State.put_cyc (s : State) (p : Nat) (f : Fld) (v : Nat) : (s.put p f v).cyc = s.cyc := rfl
@[simp] theorem State.put_mem (s : State) (p : Nat) (f : Fld) (v : Nat) : (s.put p f v).mem = s.mem := rfl
@[simp] theorem State.put_crs (s : State) (p : Nat) (f : Fld) (v : Nat) : (s.put p f v).crs = s.crs := rfl
@[simp] theorem State.put_core (s : State) (p : Nat) (f : Fld) (v : Nat) : (s.put p f v).core = s.core := rfl
@[simp] theorem State.put_task (s : State) (p : Nat) (f : Fld) (v : Nat) : (s.put p f v).task = s.task := rfl
@[simp] theorem State.put_innk (s : State) (p : Nat) (f : Fld) (v : Nat) : (s.put p f v).innk = s.innk := rfl
@[simp] theorem State.put_time (s : State) (p : Nat) (f : Fld) (v : Nat) : (s.put p f v).time = s.time := rfl
@[simp] theorem State.put_prism (s : State) (p : Nat) (f : Fld) (v : Nat) : (s.put p f v).prism = s.prism := rfl
@[simp] theorem State.put_prof (s : State) (p : Nat) (f : Fld) (v : Nat) : (s.put p f v).prof = s.prof := rfl
@[simp] theorem State.put_pwm (s : State) (p : Nat) (f : Fld) (v : Nat) : (s.put p f v).pwm = s.pwm := rfl
@[simp] theorem State.put_port (s : State) (p : Nat) (f : Fld) (v : Nat) : (s.put p f v).port = s.port := rfl
@[simp] theorem State.put_fbk (s : State) (p : Nat) (f : Fld) (v : Nat) : (s.put p f v).fbk = s.fbk := rfl
@[simp] theorem State.put_ale (s : State) (p : Nat) (f : Fld) (v : Nat) : (s.put p f v).ale = s.ale := rfl
@[simp] theorem State.put_pipe (s : State) (p : Nat) (f : Fld) (v : Nat) : (s.put p f v).pipe = s.pipe := rfl
@[simp] theorem State.put_stream (s : State) (p : Nat) (f : Fld) (v : Nat) : (s.put p f v).stream = s.stream := rfl
@[simp] theorem State.put_holds (s : State) (p : Nat) (f : Fld) (v : Nat) : (s.put p f v).holds = s.holds := rfl
@[simp] theorem State.put_envBlk (s : State) (p : Nat) (f : Fld) (v : Nat) : (s.put p f v).envBlk = s.envBlk := rfl
@[simp] theorem State.put_envNotify (s : State) (p : Nat) (f : Fld) (v : Nat) : (s.put p f v).envNotify = s.envNotify := rfl
@[simp] theorem State.put_gateEn (s : State) (p : Nat) (f : Fld) (v : Nat) : (s.put p f v).gateEn = s.gateEn := rfl
@[simp] theorem State.put_wire (s : State) (p : Nat) (f : Fld) (v : Nat) : (s.put p f v).wire = s.wire := rfl
@[simp] theorem State.put_heldPosts (s : State) (p : Nat) (f : Fld) (v : Nat) : (s.put p f v).heldPosts = s.heldPosts := rfl
@[simp] theorem State.put_posted (s : State) (p : Nat) (f : Fld) (v : Nat) : (s.put p f v).posted = s.posted := rfl
@[simp] theorem State.put_blocked (s : State) (p : Nat) (f : Fld) (v : Nat) : (s.put p f v).blocked = s.blocked := rfl
@[simp] theorem State.put_srstBusy (s : State) (p : Nat) (f : Fld) (v : Nat) : (s.put p f v).srstBusy = s.srstBusy := rfl
@[simp] theorem State.put_gating (s : State) (p : Nat) (f : Fld) (v : Nat) : (s.put p f v).gating = s.gating := rfl
@[simp] theorem State.put_held (s : State) (p : Nat) (f : Fld) (v : Nat) : (s.put p f v).held = s.held := rfl
@[simp] theorem State.put_slLocked (s : State) (p : Nat) (f : Fld) (v : Nat) : (s.put p f v).slLocked = s.slLocked := rfl
@[simp] theorem State.put_olSealed (s : State) (p : Nat) (f : Fld) (v : Nat) : (s.put p f v).olSealed = s.olSealed := rfl
@[simp] theorem State.put_fcNotify (s : State) (p : Nat) (f : Fld) (v : Nat) : (s.put p f v).fcNotify = s.fcNotify := rfl
@[simp] theorem State.put_fcStart (s : State) (p : Nat) (f : Fld) (v : Nat) : (s.put p f v).fcStart = s.fcStart := rfl
@[simp] theorem State.put_jumpAt (s : State) (p : Nat) (f : Fld) (v : Nat) : (s.put p f v).jumpAt = s.jumpAt := rfl
@[simp] theorem State.put_logq (s : State) (p : Nat) (f : Fld) (v : Nat) : (s.put p f v).logq = s.logq := rfl
@[simp] theorem State.put_logAt (s : State) (p : Nat) (f : Fld) (v : Nat) : (s.put p f v).logAt = s.logAt := rfl
@[simp] theorem State.put_dscrub (s : State) (p : Nat) (f : Fld) (v : Nat) : (s.put p f v).dscrub = s.dscrub := rfl
@[simp] theorem State.put_scrubPos (s : State) (p : Nat) (f : Fld) (v : Nat) : (s.put p f v).scrubPos = s.scrubPos := rfl
@[simp] theorem State.put_logScanned (s : State) (p : Nat) (f : Fld) (v : Nat) : (s.put p f v).logScanned = s.logScanned := rfl
@[simp] theorem State.put_mwq (s : State) (p : Nat) (f : Fld) (v : Nat) : (s.put p f v).mwq = s.mwq := rfl
@[simp] theorem State.put_porter (s : State) (p : Nat) (f : Fld) (v : Nat) : (s.put p f v).porter = s.porter := rfl
@[simp] theorem State.put_ring (s : State) (p : Nat) (f : Fld) (v : Nat) : (s.put p f v).ring = s.ring := rfl
@[simp] theorem State.put_eth (s : State) (p : Nat) (f : Fld) (v : Nat) : (s.put p f v).eth = s.eth := rfl
@[simp] theorem State.put_isl (s : State) (p : Nat) (f : Fld) (v : Nat) : (s.put p f v).isl = s.isl := rfl
@[simp] theorem State.put_clk (s : State) (p : Nat) (f : Fld) (v : Nat) : (s.put p f v).clk = s.clk := rfl
@[simp] theorem State.put_console (s : State) (p : Nat) (f : Fld) (v : Nat) : (s.put p f v).console = s.console := rfl
@[simp] theorem State.put_rdata (s : State) (p : Nat) (f : Fld) (v : Nat) : (s.put p f v).rdata = s.rdata := rfl
@[simp] theorem State.put_freeN (s : State) (p : Nat) (f : Fld) (v : Nat) : (s.put p f v).freeN = s.freeN := rfl

@[simp] theorem State.putI_pending (s : State) (p : Nat) (f : Fld) (i : Int) : (s.putI p f i).pending = s.pending := rfl
@[simp] theorem State.putI_now (s : State) (p : Nat) (f : Fld) (i : Int) : (s.putI p f i).now = s.now := rfl
@[simp] theorem State.putI_cyc (s : State) (p : Nat) (f : Fld) (i : Int) : (s.putI p f i).cyc = s.cyc := rfl
@[simp] theorem State.putI_mem (s : State) (p : Nat) (f : Fld) (i : Int) : (s.putI p f i).mem = s.mem := rfl
@[simp] theorem State.putI_crs (s : State) (p : Nat) (f : Fld) (i : Int) : (s.putI p f i).crs = s.crs := rfl
@[simp] theorem State.putI_core (s : State) (p : Nat) (f : Fld) (i : Int) : (s.putI p f i).core = s.core := rfl
@[simp] theorem State.putI_task (s : State) (p : Nat) (f : Fld) (i : Int) : (s.putI p f i).task = s.task := rfl
@[simp] theorem State.putI_innk (s : State) (p : Nat) (f : Fld) (i : Int) : (s.putI p f i).innk = s.innk := rfl
@[simp] theorem State.putI_time (s : State) (p : Nat) (f : Fld) (i : Int) : (s.putI p f i).time = s.time := rfl
@[simp] theorem State.putI_prism (s : State) (p : Nat) (f : Fld) (i : Int) : (s.putI p f i).prism = s.prism := rfl
@[simp] theorem State.putI_prof (s : State) (p : Nat) (f : Fld) (i : Int) : (s.putI p f i).prof = s.prof := rfl
@[simp] theorem State.putI_pwm (s : State) (p : Nat) (f : Fld) (i : Int) : (s.putI p f i).pwm = s.pwm := rfl
@[simp] theorem State.putI_port (s : State) (p : Nat) (f : Fld) (i : Int) : (s.putI p f i).port = s.port := rfl
@[simp] theorem State.putI_fbk (s : State) (p : Nat) (f : Fld) (i : Int) : (s.putI p f i).fbk = s.fbk := rfl
@[simp] theorem State.putI_ale (s : State) (p : Nat) (f : Fld) (i : Int) : (s.putI p f i).ale = s.ale := rfl
@[simp] theorem State.putI_pipe (s : State) (p : Nat) (f : Fld) (i : Int) : (s.putI p f i).pipe = s.pipe := rfl
@[simp] theorem State.putI_stream (s : State) (p : Nat) (f : Fld) (i : Int) : (s.putI p f i).stream = s.stream := rfl
@[simp] theorem State.putI_holds (s : State) (p : Nat) (f : Fld) (i : Int) : (s.putI p f i).holds = s.holds := rfl
@[simp] theorem State.putI_envBlk (s : State) (p : Nat) (f : Fld) (i : Int) : (s.putI p f i).envBlk = s.envBlk := rfl
@[simp] theorem State.putI_envNotify (s : State) (p : Nat) (f : Fld) (i : Int) : (s.putI p f i).envNotify = s.envNotify := rfl
@[simp] theorem State.putI_gateEn (s : State) (p : Nat) (f : Fld) (i : Int) : (s.putI p f i).gateEn = s.gateEn := rfl
@[simp] theorem State.putI_wire (s : State) (p : Nat) (f : Fld) (i : Int) : (s.putI p f i).wire = s.wire := rfl
@[simp] theorem State.putI_heldPosts (s : State) (p : Nat) (f : Fld) (i : Int) : (s.putI p f i).heldPosts = s.heldPosts := rfl
@[simp] theorem State.putI_posted (s : State) (p : Nat) (f : Fld) (i : Int) : (s.putI p f i).posted = s.posted := rfl
@[simp] theorem State.putI_blocked (s : State) (p : Nat) (f : Fld) (i : Int) : (s.putI p f i).blocked = s.blocked := rfl
@[simp] theorem State.putI_srstBusy (s : State) (p : Nat) (f : Fld) (i : Int) : (s.putI p f i).srstBusy = s.srstBusy := rfl
@[simp] theorem State.putI_gating (s : State) (p : Nat) (f : Fld) (i : Int) : (s.putI p f i).gating = s.gating := rfl
@[simp] theorem State.putI_held (s : State) (p : Nat) (f : Fld) (i : Int) : (s.putI p f i).held = s.held := rfl
@[simp] theorem State.putI_slLocked (s : State) (p : Nat) (f : Fld) (i : Int) : (s.putI p f i).slLocked = s.slLocked := rfl
@[simp] theorem State.putI_olSealed (s : State) (p : Nat) (f : Fld) (i : Int) : (s.putI p f i).olSealed = s.olSealed := rfl
@[simp] theorem State.putI_fcNotify (s : State) (p : Nat) (f : Fld) (i : Int) : (s.putI p f i).fcNotify = s.fcNotify := rfl
@[simp] theorem State.putI_fcStart (s : State) (p : Nat) (f : Fld) (i : Int) : (s.putI p f i).fcStart = s.fcStart := rfl
@[simp] theorem State.putI_jumpAt (s : State) (p : Nat) (f : Fld) (i : Int) : (s.putI p f i).jumpAt = s.jumpAt := rfl
@[simp] theorem State.putI_logq (s : State) (p : Nat) (f : Fld) (i : Int) : (s.putI p f i).logq = s.logq := rfl
@[simp] theorem State.putI_logAt (s : State) (p : Nat) (f : Fld) (i : Int) : (s.putI p f i).logAt = s.logAt := rfl
@[simp] theorem State.putI_dscrub (s : State) (p : Nat) (f : Fld) (i : Int) : (s.putI p f i).dscrub = s.dscrub := rfl
@[simp] theorem State.putI_scrubPos (s : State) (p : Nat) (f : Fld) (i : Int) : (s.putI p f i).scrubPos = s.scrubPos := rfl
@[simp] theorem State.putI_logScanned (s : State) (p : Nat) (f : Fld) (i : Int) : (s.putI p f i).logScanned = s.logScanned := rfl
@[simp] theorem State.putI_mwq (s : State) (p : Nat) (f : Fld) (i : Int) : (s.putI p f i).mwq = s.mwq := rfl
@[simp] theorem State.putI_porter (s : State) (p : Nat) (f : Fld) (i : Int) : (s.putI p f i).porter = s.porter := rfl
@[simp] theorem State.putI_ring (s : State) (p : Nat) (f : Fld) (i : Int) : (s.putI p f i).ring = s.ring := rfl
@[simp] theorem State.putI_eth (s : State) (p : Nat) (f : Fld) (i : Int) : (s.putI p f i).eth = s.eth := rfl
@[simp] theorem State.putI_isl (s : State) (p : Nat) (f : Fld) (i : Int) : (s.putI p f i).isl = s.isl := rfl
@[simp] theorem State.putI_clk (s : State) (p : Nat) (f : Fld) (i : Int) : (s.putI p f i).clk = s.clk := rfl
@[simp] theorem State.putI_console (s : State) (p : Nat) (f : Fld) (i : Int) : (s.putI p f i).console = s.console := rfl
@[simp] theorem State.putI_rdata (s : State) (p : Nat) (f : Fld) (i : Int) : (s.putI p f i).rdata = s.rdata := rfl
@[simp] theorem State.putI_freeN (s : State) (p : Nat) (f : Fld) (i : Int) : (s.putI p f i).freeN = s.freeN := rfl

@[simp] theorem State.putSat_pending (s : State) (p : Nat) (f : Fld) (i : Int) : (s.putSat p f i).pending = s.pending := rfl
@[simp] theorem State.putSat_now (s : State) (p : Nat) (f : Fld) (i : Int) : (s.putSat p f i).now = s.now := rfl
@[simp] theorem State.putSat_cyc (s : State) (p : Nat) (f : Fld) (i : Int) : (s.putSat p f i).cyc = s.cyc := rfl
@[simp] theorem State.putSat_mem (s : State) (p : Nat) (f : Fld) (i : Int) : (s.putSat p f i).mem = s.mem := rfl
@[simp] theorem State.putSat_crs (s : State) (p : Nat) (f : Fld) (i : Int) : (s.putSat p f i).crs = s.crs := rfl
@[simp] theorem State.putSat_core (s : State) (p : Nat) (f : Fld) (i : Int) : (s.putSat p f i).core = s.core := rfl
@[simp] theorem State.putSat_task (s : State) (p : Nat) (f : Fld) (i : Int) : (s.putSat p f i).task = s.task := rfl
@[simp] theorem State.putSat_innk (s : State) (p : Nat) (f : Fld) (i : Int) : (s.putSat p f i).innk = s.innk := rfl
@[simp] theorem State.putSat_time (s : State) (p : Nat) (f : Fld) (i : Int) : (s.putSat p f i).time = s.time := rfl
@[simp] theorem State.putSat_prism (s : State) (p : Nat) (f : Fld) (i : Int) : (s.putSat p f i).prism = s.prism := rfl
@[simp] theorem State.putSat_prof (s : State) (p : Nat) (f : Fld) (i : Int) : (s.putSat p f i).prof = s.prof := rfl
@[simp] theorem State.putSat_pwm (s : State) (p : Nat) (f : Fld) (i : Int) : (s.putSat p f i).pwm = s.pwm := rfl
@[simp] theorem State.putSat_port (s : State) (p : Nat) (f : Fld) (i : Int) : (s.putSat p f i).port = s.port := rfl
@[simp] theorem State.putSat_fbk (s : State) (p : Nat) (f : Fld) (i : Int) : (s.putSat p f i).fbk = s.fbk := rfl
@[simp] theorem State.putSat_ale (s : State) (p : Nat) (f : Fld) (i : Int) : (s.putSat p f i).ale = s.ale := rfl
@[simp] theorem State.putSat_pipe (s : State) (p : Nat) (f : Fld) (i : Int) : (s.putSat p f i).pipe = s.pipe := rfl
@[simp] theorem State.putSat_stream (s : State) (p : Nat) (f : Fld) (i : Int) : (s.putSat p f i).stream = s.stream := rfl
@[simp] theorem State.putSat_holds (s : State) (p : Nat) (f : Fld) (i : Int) : (s.putSat p f i).holds = s.holds := rfl
@[simp] theorem State.putSat_envBlk (s : State) (p : Nat) (f : Fld) (i : Int) : (s.putSat p f i).envBlk = s.envBlk := rfl
@[simp] theorem State.putSat_envNotify (s : State) (p : Nat) (f : Fld) (i : Int) : (s.putSat p f i).envNotify = s.envNotify := rfl
@[simp] theorem State.putSat_gateEn (s : State) (p : Nat) (f : Fld) (i : Int) : (s.putSat p f i).gateEn = s.gateEn := rfl
@[simp] theorem State.putSat_wire (s : State) (p : Nat) (f : Fld) (i : Int) : (s.putSat p f i).wire = s.wire := rfl
@[simp] theorem State.putSat_heldPosts (s : State) (p : Nat) (f : Fld) (i : Int) : (s.putSat p f i).heldPosts = s.heldPosts := rfl
@[simp] theorem State.putSat_posted (s : State) (p : Nat) (f : Fld) (i : Int) : (s.putSat p f i).posted = s.posted := rfl
@[simp] theorem State.putSat_blocked (s : State) (p : Nat) (f : Fld) (i : Int) : (s.putSat p f i).blocked = s.blocked := rfl
@[simp] theorem State.putSat_srstBusy (s : State) (p : Nat) (f : Fld) (i : Int) : (s.putSat p f i).srstBusy = s.srstBusy := rfl
@[simp] theorem State.putSat_gating (s : State) (p : Nat) (f : Fld) (i : Int) : (s.putSat p f i).gating = s.gating := rfl
@[simp] theorem State.putSat_held (s : State) (p : Nat) (f : Fld) (i : Int) : (s.putSat p f i).held = s.held := rfl
@[simp] theorem State.putSat_slLocked (s : State) (p : Nat) (f : Fld) (i : Int) : (s.putSat p f i).slLocked = s.slLocked := rfl
@[simp] theorem State.putSat_olSealed (s : State) (p : Nat) (f : Fld) (i : Int) : (s.putSat p f i).olSealed = s.olSealed := rfl
@[simp] theorem State.putSat_fcNotify (s : State) (p : Nat) (f : Fld) (i : Int) : (s.putSat p f i).fcNotify = s.fcNotify := rfl
@[simp] theorem State.putSat_fcStart (s : State) (p : Nat) (f : Fld) (i : Int) : (s.putSat p f i).fcStart = s.fcStart := rfl
@[simp] theorem State.putSat_jumpAt (s : State) (p : Nat) (f : Fld) (i : Int) : (s.putSat p f i).jumpAt = s.jumpAt := rfl
@[simp] theorem State.putSat_logq (s : State) (p : Nat) (f : Fld) (i : Int) : (s.putSat p f i).logq = s.logq := rfl
@[simp] theorem State.putSat_logAt (s : State) (p : Nat) (f : Fld) (i : Int) : (s.putSat p f i).logAt = s.logAt := rfl
@[simp] theorem State.putSat_dscrub (s : State) (p : Nat) (f : Fld) (i : Int) : (s.putSat p f i).dscrub = s.dscrub := rfl
@[simp] theorem State.putSat_scrubPos (s : State) (p : Nat) (f : Fld) (i : Int) : (s.putSat p f i).scrubPos = s.scrubPos := rfl
@[simp] theorem State.putSat_logScanned (s : State) (p : Nat) (f : Fld) (i : Int) : (s.putSat p f i).logScanned = s.logScanned := rfl
@[simp] theorem State.putSat_mwq (s : State) (p : Nat) (f : Fld) (i : Int) : (s.putSat p f i).mwq = s.mwq := rfl
@[simp] theorem State.putSat_porter (s : State) (p : Nat) (f : Fld) (i : Int) : (s.putSat p f i).porter = s.porter := rfl
@[simp] theorem State.putSat_ring (s : State) (p : Nat) (f : Fld) (i : Int) : (s.putSat p f i).ring = s.ring := rfl
@[simp] theorem State.putSat_eth (s : State) (p : Nat) (f : Fld) (i : Int) : (s.putSat p f i).eth = s.eth := rfl
@[simp] theorem State.putSat_isl (s : State) (p : Nat) (f : Fld) (i : Int) : (s.putSat p f i).isl = s.isl := rfl
@[simp] theorem State.putSat_clk (s : State) (p : Nat) (f : Fld) (i : Int) : (s.putSat p f i).clk = s.clk := rfl
@[simp] theorem State.putSat_console (s : State) (p : Nat) (f : Fld) (i : Int) : (s.putSat p f i).console = s.console := rfl
@[simp] theorem State.putSat_rdata (s : State) (p : Nat) (f : Fld) (i : Int) : (s.putSat p f i).rdata = s.rdata := rfl
@[simp] theorem State.putSat_freeN (s : State) (p : Nat) (f : Fld) (i : Int) : (s.putSat p f i).freeN = s.freeN := rfl

@[simp] theorem State.inc_pending (s : State) (p : Nat) (f : Fld) : (s.inc p f).pending = s.pending := rfl
@[simp] theorem State.inc_now (s : State) (p : Nat) (f : Fld) : (s.inc p f).now = s.now := rfl
@[simp] theorem State.inc_cyc (s : State) (p : Nat) (f : Fld) : (s.inc p f).cyc = s.cyc := rfl
@[simp] theorem State.inc_mem (s : State) (p : Nat) (f : Fld) : (s.inc p f).mem = s.mem := rfl
@[simp] theorem State.inc_crs (s : State) (p : Nat) (f : Fld) : (s.inc p f).crs = s.crs := rfl
@[simp] theorem State.inc_core (s : State) (p : Nat) (f : Fld) : (s.inc p f).core = s.core := rfl
@[simp] theorem State.inc_task (s : State) (p : Nat) (f : Fld) : (s.inc p f).task = s.task := rfl
@[simp] theorem State.inc_innk (s : State) (p : Nat) (f : Fld) : (s.inc p f).innk = s.innk := rfl
@[simp] theorem State.inc_time (s : State) (p : Nat) (f : Fld) : (s.inc p f).time = s.time := rfl
@[simp] theorem State.inc_prism (s : State) (p : Nat) (f : Fld) : (s.inc p f).prism = s.prism := rfl
@[simp] theorem State.inc_prof (s : State) (p : Nat) (f : Fld) : (s.inc p f).prof = s.prof := rfl
@[simp] theorem State.inc_pwm (s : State) (p : Nat) (f : Fld) : (s.inc p f).pwm = s.pwm := rfl
@[simp] theorem State.inc_port (s : State) (p : Nat) (f : Fld) : (s.inc p f).port = s.port := rfl
@[simp] theorem State.inc_fbk (s : State) (p : Nat) (f : Fld) : (s.inc p f).fbk = s.fbk := rfl
@[simp] theorem State.inc_ale (s : State) (p : Nat) (f : Fld) : (s.inc p f).ale = s.ale := rfl
@[simp] theorem State.inc_pipe (s : State) (p : Nat) (f : Fld) : (s.inc p f).pipe = s.pipe := rfl
@[simp] theorem State.inc_stream (s : State) (p : Nat) (f : Fld) : (s.inc p f).stream = s.stream := rfl
@[simp] theorem State.inc_holds (s : State) (p : Nat) (f : Fld) : (s.inc p f).holds = s.holds := rfl
@[simp] theorem State.inc_envBlk (s : State) (p : Nat) (f : Fld) : (s.inc p f).envBlk = s.envBlk := rfl
@[simp] theorem State.inc_envNotify (s : State) (p : Nat) (f : Fld) : (s.inc p f).envNotify = s.envNotify := rfl
@[simp] theorem State.inc_gateEn (s : State) (p : Nat) (f : Fld) : (s.inc p f).gateEn = s.gateEn := rfl
@[simp] theorem State.inc_wire (s : State) (p : Nat) (f : Fld) : (s.inc p f).wire = s.wire := rfl
@[simp] theorem State.inc_heldPosts (s : State) (p : Nat) (f : Fld) : (s.inc p f).heldPosts = s.heldPosts := rfl
@[simp] theorem State.inc_posted (s : State) (p : Nat) (f : Fld) : (s.inc p f).posted = s.posted := rfl
@[simp] theorem State.inc_blocked (s : State) (p : Nat) (f : Fld) : (s.inc p f).blocked = s.blocked := rfl
@[simp] theorem State.inc_srstBusy (s : State) (p : Nat) (f : Fld) : (s.inc p f).srstBusy = s.srstBusy := rfl
@[simp] theorem State.inc_gating (s : State) (p : Nat) (f : Fld) : (s.inc p f).gating = s.gating := rfl
@[simp] theorem State.inc_held (s : State) (p : Nat) (f : Fld) : (s.inc p f).held = s.held := rfl
@[simp] theorem State.inc_slLocked (s : State) (p : Nat) (f : Fld) : (s.inc p f).slLocked = s.slLocked := rfl
@[simp] theorem State.inc_olSealed (s : State) (p : Nat) (f : Fld) : (s.inc p f).olSealed = s.olSealed := rfl
@[simp] theorem State.inc_fcNotify (s : State) (p : Nat) (f : Fld) : (s.inc p f).fcNotify = s.fcNotify := rfl
@[simp] theorem State.inc_fcStart (s : State) (p : Nat) (f : Fld) : (s.inc p f).fcStart = s.fcStart := rfl
@[simp] theorem State.inc_jumpAt (s : State) (p : Nat) (f : Fld) : (s.inc p f).jumpAt = s.jumpAt := rfl
@[simp] theorem State.inc_logq (s : State) (p : Nat) (f : Fld) : (s.inc p f).logq = s.logq := rfl
@[simp] theorem State.inc_logAt (s : State) (p : Nat) (f : Fld) : (s.inc p f).logAt = s.logAt := rfl
@[simp] theorem State.inc_dscrub (s : State) (p : Nat) (f : Fld) : (s.inc p f).dscrub = s.dscrub := rfl
@[simp] theorem State.inc_scrubPos (s : State) (p : Nat) (f : Fld) : (s.inc p f).scrubPos = s.scrubPos := rfl
@[simp] theorem State.inc_logScanned (s : State) (p : Nat) (f : Fld) : (s.inc p f).logScanned = s.logScanned := rfl
@[simp] theorem State.inc_mwq (s : State) (p : Nat) (f : Fld) : (s.inc p f).mwq = s.mwq := rfl
@[simp] theorem State.inc_porter (s : State) (p : Nat) (f : Fld) : (s.inc p f).porter = s.porter := rfl
@[simp] theorem State.inc_ring (s : State) (p : Nat) (f : Fld) : (s.inc p f).ring = s.ring := rfl
@[simp] theorem State.inc_eth (s : State) (p : Nat) (f : Fld) : (s.inc p f).eth = s.eth := rfl
@[simp] theorem State.inc_isl (s : State) (p : Nat) (f : Fld) : (s.inc p f).isl = s.isl := rfl
@[simp] theorem State.inc_clk (s : State) (p : Nat) (f : Fld) : (s.inc p f).clk = s.clk := rfl
@[simp] theorem State.inc_console (s : State) (p : Nat) (f : Fld) : (s.inc p f).console = s.console := rfl
@[simp] theorem State.inc_rdata (s : State) (p : Nat) (f : Fld) : (s.inc p f).rdata = s.rdata := rfl
@[simp] theorem State.inc_freeN (s : State) (p : Nat) (f : Fld) : (s.inc p f).freeN = s.freeN := rfl

@[simp] theorem State.incMod_pending (s : State) (p : Nat) (f : Fld) : (s.incMod p f).pending = s.pending := rfl
@[simp] theorem State.incMod_now (s : State) (p : Nat) (f : Fld) : (s.incMod p f).now = s.now := rfl
@[simp] theorem State.incMod_cyc (s : State) (p : Nat) (f : Fld) : (s.incMod p f).cyc = s.cyc := rfl
@[simp] theorem State.incMod_mem (s : State) (p : Nat) (f : Fld) : (s.incMod p f).mem = s.mem := rfl
@[simp] theorem State.incMod_crs (s : State) (p : Nat) (f : Fld) : (s.incMod p f).crs = s.crs := rfl
@[simp] theorem State.incMod_core (s : State) (p : Nat) (f : Fld) : (s.incMod p f).core = s.core := rfl
@[simp] theorem State.incMod_task (s : State) (p : Nat) (f : Fld) : (s.incMod p f).task = s.task := rfl
@[simp] theorem State.incMod_innk (s : State) (p : Nat) (f : Fld) : (s.incMod p f).innk = s.innk := rfl
@[simp] theorem State.incMod_time (s : State) (p : Nat) (f : Fld) : (s.incMod p f).time = s.time := rfl
@[simp] theorem State.incMod_prism (s : State) (p : Nat) (f : Fld) : (s.incMod p f).prism = s.prism := rfl
@[simp] theorem State.incMod_prof (s : State) (p : Nat) (f : Fld) : (s.incMod p f).prof = s.prof := rfl
@[simp] theorem State.incMod_pwm (s : State) (p : Nat) (f : Fld) : (s.incMod p f).pwm = s.pwm := rfl
@[simp] theorem State.incMod_port (s : State) (p : Nat) (f : Fld) : (s.incMod p f).port = s.port := rfl
@[simp] theorem State.incMod_fbk (s : State) (p : Nat) (f : Fld) : (s.incMod p f).fbk = s.fbk := rfl
@[simp] theorem State.incMod_ale (s : State) (p : Nat) (f : Fld) : (s.incMod p f).ale = s.ale := rfl
@[simp] theorem State.incMod_pipe (s : State) (p : Nat) (f : Fld) : (s.incMod p f).pipe = s.pipe := rfl
@[simp] theorem State.incMod_stream (s : State) (p : Nat) (f : Fld) : (s.incMod p f).stream = s.stream := rfl
@[simp] theorem State.incMod_holds (s : State) (p : Nat) (f : Fld) : (s.incMod p f).holds = s.holds := rfl
@[simp] theorem State.incMod_envBlk (s : State) (p : Nat) (f : Fld) : (s.incMod p f).envBlk = s.envBlk := rfl
@[simp] theorem State.incMod_envNotify (s : State) (p : Nat) (f : Fld) : (s.incMod p f).envNotify = s.envNotify := rfl
@[simp] theorem State.incMod_gateEn (s : State) (p : Nat) (f : Fld) : (s.incMod p f).gateEn = s.gateEn := rfl
@[simp] theorem State.incMod_wire (s : State) (p : Nat) (f : Fld) : (s.incMod p f).wire = s.wire := rfl
@[simp] theorem State.incMod_heldPosts (s : State) (p : Nat) (f : Fld) : (s.incMod p f).heldPosts = s.heldPosts := rfl
@[simp] theorem State.incMod_posted (s : State) (p : Nat) (f : Fld) : (s.incMod p f).posted = s.posted := rfl
@[simp] theorem State.incMod_blocked (s : State) (p : Nat) (f : Fld) : (s.incMod p f).blocked = s.blocked := rfl
@[simp] theorem State.incMod_srstBusy (s : State) (p : Nat) (f : Fld) : (s.incMod p f).srstBusy = s.srstBusy := rfl
@[simp] theorem State.incMod_gating (s : State) (p : Nat) (f : Fld) : (s.incMod p f).gating = s.gating := rfl
@[simp] theorem State.incMod_held (s : State) (p : Nat) (f : Fld) : (s.incMod p f).held = s.held := rfl
@[simp] theorem State.incMod_slLocked (s : State) (p : Nat) (f : Fld) : (s.incMod p f).slLocked = s.slLocked := rfl
@[simp] theorem State.incMod_olSealed (s : State) (p : Nat) (f : Fld) : (s.incMod p f).olSealed = s.olSealed := rfl
@[simp] theorem State.incMod_fcNotify (s : State) (p : Nat) (f : Fld) : (s.incMod p f).fcNotify = s.fcNotify := rfl
@[simp] theorem State.incMod_fcStart (s : State) (p : Nat) (f : Fld) : (s.incMod p f).fcStart = s.fcStart := rfl
@[simp] theorem State.incMod_jumpAt (s : State) (p : Nat) (f : Fld) : (s.incMod p f).jumpAt = s.jumpAt := rfl
@[simp] theorem State.incMod_logq (s : State) (p : Nat) (f : Fld) : (s.incMod p f).logq = s.logq := rfl
@[simp] theorem State.incMod_logAt (s : State) (p : Nat) (f : Fld) : (s.incMod p f).logAt = s.logAt := rfl
@[simp] theorem State.incMod_dscrub (s : State) (p : Nat) (f : Fld) : (s.incMod p f).dscrub = s.dscrub := rfl
@[simp] theorem State.incMod_scrubPos (s : State) (p : Nat) (f : Fld) : (s.incMod p f).scrubPos = s.scrubPos := rfl
@[simp] theorem State.incMod_logScanned (s : State) (p : Nat) (f : Fld) : (s.incMod p f).logScanned = s.logScanned := rfl
@[simp] theorem State.incMod_mwq (s : State) (p : Nat) (f : Fld) : (s.incMod p f).mwq = s.mwq := rfl
@[simp] theorem State.incMod_porter (s : State) (p : Nat) (f : Fld) : (s.incMod p f).porter = s.porter := rfl
@[simp] theorem State.incMod_ring (s : State) (p : Nat) (f : Fld) : (s.incMod p f).ring = s.ring := rfl
@[simp] theorem State.incMod_eth (s : State) (p : Nat) (f : Fld) : (s.incMod p f).eth = s.eth := rfl
@[simp] theorem State.incMod_isl (s : State) (p : Nat) (f : Fld) : (s.incMod p f).isl = s.isl := rfl
@[simp] theorem State.incMod_clk (s : State) (p : Nat) (f : Fld) : (s.incMod p f).clk = s.clk := rfl
@[simp] theorem State.incMod_console (s : State) (p : Nat) (f : Fld) : (s.incMod p f).console = s.console := rfl
@[simp] theorem State.incMod_rdata (s : State) (p : Nat) (f : Fld) : (s.incMod p f).rdata = s.rdata := rfl
@[simp] theorem State.incMod_freeN (s : State) (p : Nat) (f : Fld) : (s.incMod p f).freeN = s.freeN := rfl

@[simp] theorem State.setMem_pending (s : State) (a : Nat) (v : Word) : (s.setMem a v).pending = s.pending := rfl
@[simp] theorem State.setMem_now (s : State) (a : Nat) (v : Word) : (s.setMem a v).now = s.now := rfl
@[simp] theorem State.setMem_cyc (s : State) (a : Nat) (v : Word) : (s.setMem a v).cyc = s.cyc := rfl
@[simp] theorem State.setMem_regs (s : State) (a : Nat) (v : Word) : (s.setMem a v).regs = s.regs := rfl
@[simp] theorem State.setMem_crs (s : State) (a : Nat) (v : Word) : (s.setMem a v).crs = s.crs := rfl
@[simp] theorem State.setMem_core (s : State) (a : Nat) (v : Word) : (s.setMem a v).core = s.core := rfl
@[simp] theorem State.setMem_task (s : State) (a : Nat) (v : Word) : (s.setMem a v).task = s.task := rfl
@[simp] theorem State.setMem_innk (s : State) (a : Nat) (v : Word) : (s.setMem a v).innk = s.innk := rfl
@[simp] theorem State.setMem_time (s : State) (a : Nat) (v : Word) : (s.setMem a v).time = s.time := rfl
@[simp] theorem State.setMem_prism (s : State) (a : Nat) (v : Word) : (s.setMem a v).prism = s.prism := rfl
@[simp] theorem State.setMem_prof (s : State) (a : Nat) (v : Word) : (s.setMem a v).prof = s.prof := rfl
@[simp] theorem State.setMem_pwm (s : State) (a : Nat) (v : Word) : (s.setMem a v).pwm = s.pwm := rfl
@[simp] theorem State.setMem_port (s : State) (a : Nat) (v : Word) : (s.setMem a v).port = s.port := rfl
@[simp] theorem State.setMem_fbk (s : State) (a : Nat) (v : Word) : (s.setMem a v).fbk = s.fbk := rfl
@[simp] theorem State.setMem_ale (s : State) (a : Nat) (v : Word) : (s.setMem a v).ale = s.ale := rfl
@[simp] theorem State.setMem_pipe (s : State) (a : Nat) (v : Word) : (s.setMem a v).pipe = s.pipe := rfl
@[simp] theorem State.setMem_stream (s : State) (a : Nat) (v : Word) : (s.setMem a v).stream = s.stream := rfl
@[simp] theorem State.setMem_holds (s : State) (a : Nat) (v : Word) : (s.setMem a v).holds = s.holds := rfl
@[simp] theorem State.setMem_envBlk (s : State) (a : Nat) (v : Word) : (s.setMem a v).envBlk = s.envBlk := rfl
@[simp] theorem State.setMem_envNotify (s : State) (a : Nat) (v : Word) : (s.setMem a v).envNotify = s.envNotify := rfl
@[simp] theorem State.setMem_gateEn (s : State) (a : Nat) (v : Word) : (s.setMem a v).gateEn = s.gateEn := rfl
@[simp] theorem State.setMem_wire (s : State) (a : Nat) (v : Word) : (s.setMem a v).wire = s.wire := rfl
@[simp] theorem State.setMem_heldPosts (s : State) (a : Nat) (v : Word) : (s.setMem a v).heldPosts = s.heldPosts := rfl
@[simp] theorem State.setMem_posted (s : State) (a : Nat) (v : Word) : (s.setMem a v).posted = s.posted := rfl
@[simp] theorem State.setMem_blocked (s : State) (a : Nat) (v : Word) : (s.setMem a v).blocked = s.blocked := rfl
@[simp] theorem State.setMem_srstBusy (s : State) (a : Nat) (v : Word) : (s.setMem a v).srstBusy = s.srstBusy := rfl
@[simp] theorem State.setMem_gating (s : State) (a : Nat) (v : Word) : (s.setMem a v).gating = s.gating := rfl
@[simp] theorem State.setMem_held (s : State) (a : Nat) (v : Word) : (s.setMem a v).held = s.held := rfl
@[simp] theorem State.setMem_slLocked (s : State) (a : Nat) (v : Word) : (s.setMem a v).slLocked = s.slLocked := rfl
@[simp] theorem State.setMem_olSealed (s : State) (a : Nat) (v : Word) : (s.setMem a v).olSealed = s.olSealed := rfl
@[simp] theorem State.setMem_fcNotify (s : State) (a : Nat) (v : Word) : (s.setMem a v).fcNotify = s.fcNotify := rfl
@[simp] theorem State.setMem_fcStart (s : State) (a : Nat) (v : Word) : (s.setMem a v).fcStart = s.fcStart := rfl
@[simp] theorem State.setMem_jumpAt (s : State) (a : Nat) (v : Word) : (s.setMem a v).jumpAt = s.jumpAt := rfl
@[simp] theorem State.setMem_logq (s : State) (a : Nat) (v : Word) : (s.setMem a v).logq = s.logq := rfl
@[simp] theorem State.setMem_logAt (s : State) (a : Nat) (v : Word) : (s.setMem a v).logAt = s.logAt := rfl
@[simp] theorem State.setMem_dscrub (s : State) (a : Nat) (v : Word) : (s.setMem a v).dscrub = s.dscrub := rfl
@[simp] theorem State.setMem_scrubPos (s : State) (a : Nat) (v : Word) : (s.setMem a v).scrubPos = s.scrubPos := rfl
@[simp] theorem State.setMem_logScanned (s : State) (a : Nat) (v : Word) : (s.setMem a v).logScanned = s.logScanned := rfl
@[simp] theorem State.setMem_mwq (s : State) (a : Nat) (v : Word) : (s.setMem a v).mwq = s.mwq := rfl
@[simp] theorem State.setMem_porter (s : State) (a : Nat) (v : Word) : (s.setMem a v).porter = s.porter := rfl
@[simp] theorem State.setMem_ring (s : State) (a : Nat) (v : Word) : (s.setMem a v).ring = s.ring := rfl
@[simp] theorem State.setMem_eth (s : State) (a : Nat) (v : Word) : (s.setMem a v).eth = s.eth := rfl
@[simp] theorem State.setMem_isl (s : State) (a : Nat) (v : Word) : (s.setMem a v).isl = s.isl := rfl
@[simp] theorem State.setMem_clk (s : State) (a : Nat) (v : Word) : (s.setMem a v).clk = s.clk := rfl
@[simp] theorem State.setMem_console (s : State) (a : Nat) (v : Word) : (s.setMem a v).console = s.console := rfl
@[simp] theorem State.setMem_rdata (s : State) (a : Nat) (v : Word) : (s.setMem a v).rdata = s.rdata := rfl
@[simp] theorem State.setMem_freeN (s : State) (a : Nat) (v : Word) : (s.setMem a v).freeN = s.freeN := rfl

@[simp] theorem State.setCr_pending (s : State) (c i : Nat) (v : Word) : (s.setCr c i v).pending = s.pending := rfl
@[simp] theorem State.setCr_now (s : State) (c i : Nat) (v : Word) : (s.setCr c i v).now = s.now := rfl
@[simp] theorem State.setCr_cyc (s : State) (c i : Nat) (v : Word) : (s.setCr c i v).cyc = s.cyc := rfl
@[simp] theorem State.setCr_regs (s : State) (c i : Nat) (v : Word) : (s.setCr c i v).regs = s.regs := rfl
@[simp] theorem State.setCr_mem (s : State) (c i : Nat) (v : Word) : (s.setCr c i v).mem = s.mem := rfl
@[simp] theorem State.setCr_core (s : State) (c i : Nat) (v : Word) : (s.setCr c i v).core = s.core := rfl
@[simp] theorem State.setCr_task (s : State) (c i : Nat) (v : Word) : (s.setCr c i v).task = s.task := rfl
@[simp] theorem State.setCr_innk (s : State) (c i : Nat) (v : Word) : (s.setCr c i v).innk = s.innk := rfl
@[simp] theorem State.setCr_time (s : State) (c i : Nat) (v : Word) : (s.setCr c i v).time = s.time := rfl
@[simp] theorem State.setCr_prism (s : State) (c i : Nat) (v : Word) : (s.setCr c i v).prism = s.prism := rfl
@[simp] theorem State.setCr_prof (s : State) (c i : Nat) (v : Word) : (s.setCr c i v).prof = s.prof := rfl
@[simp] theorem State.setCr_pwm (s : State) (c i : Nat) (v : Word) : (s.setCr c i v).pwm = s.pwm := rfl
@[simp] theorem State.setCr_port (s : State) (c i : Nat) (v : Word) : (s.setCr c i v).port = s.port := rfl
@[simp] theorem State.setCr_fbk (s : State) (c i : Nat) (v : Word) : (s.setCr c i v).fbk = s.fbk := rfl
@[simp] theorem State.setCr_ale (s : State) (c i : Nat) (v : Word) : (s.setCr c i v).ale = s.ale := rfl
@[simp] theorem State.setCr_pipe (s : State) (c i : Nat) (v : Word) : (s.setCr c i v).pipe = s.pipe := rfl
@[simp] theorem State.setCr_stream (s : State) (c i : Nat) (v : Word) : (s.setCr c i v).stream = s.stream := rfl
@[simp] theorem State.setCr_holds (s : State) (c i : Nat) (v : Word) : (s.setCr c i v).holds = s.holds := rfl
@[simp] theorem State.setCr_envBlk (s : State) (c i : Nat) (v : Word) : (s.setCr c i v).envBlk = s.envBlk := rfl
@[simp] theorem State.setCr_envNotify (s : State) (c i : Nat) (v : Word) : (s.setCr c i v).envNotify = s.envNotify := rfl
@[simp] theorem State.setCr_gateEn (s : State) (c i : Nat) (v : Word) : (s.setCr c i v).gateEn = s.gateEn := rfl
@[simp] theorem State.setCr_wire (s : State) (c i : Nat) (v : Word) : (s.setCr c i v).wire = s.wire := rfl
@[simp] theorem State.setCr_heldPosts (s : State) (c i : Nat) (v : Word) : (s.setCr c i v).heldPosts = s.heldPosts := rfl
@[simp] theorem State.setCr_posted (s : State) (c i : Nat) (v : Word) : (s.setCr c i v).posted = s.posted := rfl
@[simp] theorem State.setCr_blocked (s : State) (c i : Nat) (v : Word) : (s.setCr c i v).blocked = s.blocked := rfl
@[simp] theorem State.setCr_srstBusy (s : State) (c i : Nat) (v : Word) : (s.setCr c i v).srstBusy = s.srstBusy := rfl
@[simp] theorem State.setCr_gating (s : State) (c i : Nat) (v : Word) : (s.setCr c i v).gating = s.gating := rfl
@[simp] theorem State.setCr_held (s : State) (c i : Nat) (v : Word) : (s.setCr c i v).held = s.held := rfl
@[simp] theorem State.setCr_slLocked (s : State) (c i : Nat) (v : Word) : (s.setCr c i v).slLocked = s.slLocked := rfl
@[simp] theorem State.setCr_olSealed (s : State) (c i : Nat) (v : Word) : (s.setCr c i v).olSealed = s.olSealed := rfl
@[simp] theorem State.setCr_fcNotify (s : State) (c i : Nat) (v : Word) : (s.setCr c i v).fcNotify = s.fcNotify := rfl
@[simp] theorem State.setCr_fcStart (s : State) (c i : Nat) (v : Word) : (s.setCr c i v).fcStart = s.fcStart := rfl
@[simp] theorem State.setCr_jumpAt (s : State) (c i : Nat) (v : Word) : (s.setCr c i v).jumpAt = s.jumpAt := rfl
@[simp] theorem State.setCr_logq (s : State) (c i : Nat) (v : Word) : (s.setCr c i v).logq = s.logq := rfl
@[simp] theorem State.setCr_logAt (s : State) (c i : Nat) (v : Word) : (s.setCr c i v).logAt = s.logAt := rfl
@[simp] theorem State.setCr_dscrub (s : State) (c i : Nat) (v : Word) : (s.setCr c i v).dscrub = s.dscrub := rfl
@[simp] theorem State.setCr_scrubPos (s : State) (c i : Nat) (v : Word) : (s.setCr c i v).scrubPos = s.scrubPos := rfl
@[simp] theorem State.setCr_logScanned (s : State) (c i : Nat) (v : Word) : (s.setCr c i v).logScanned = s.logScanned := rfl
@[simp] theorem State.setCr_mwq (s : State) (c i : Nat) (v : Word) : (s.setCr c i v).mwq = s.mwq := rfl
@[simp] theorem State.setCr_porter (s : State) (c i : Nat) (v : Word) : (s.setCr c i v).porter = s.porter := rfl
@[simp] theorem State.setCr_ring (s : State) (c i : Nat) (v : Word) : (s.setCr c i v).ring = s.ring := rfl
@[simp] theorem State.setCr_eth (s : State) (c i : Nat) (v : Word) : (s.setCr c i v).eth = s.eth := rfl
@[simp] theorem State.setCr_isl (s : State) (c i : Nat) (v : Word) : (s.setCr c i v).isl = s.isl := rfl
@[simp] theorem State.setCr_clk (s : State) (c i : Nat) (v : Word) : (s.setCr c i v).clk = s.clk := rfl
@[simp] theorem State.setCr_console (s : State) (c i : Nat) (v : Word) : (s.setCr c i v).console = s.console := rfl
@[simp] theorem State.setCr_rdata (s : State) (c i : Nat) (v : Word) : (s.setCr c i v).rdata = s.rdata := rfl
@[simp] theorem State.setCr_freeN (s : State) (c i : Nat) (v : Word) : (s.setCr c i v).freeN = s.freeN := rfl

@[simp] theorem State.setPc_pending (s : State) (c v : Nat) : (s.setPc c v).pending = s.pending := rfl
@[simp] theorem State.setPc_now (s : State) (c v : Nat) : (s.setPc c v).now = s.now := rfl
@[simp] theorem State.setPc_cyc (s : State) (c v : Nat) : (s.setPc c v).cyc = s.cyc := rfl
@[simp] theorem State.setPc_regs (s : State) (c v : Nat) : (s.setPc c v).regs = s.regs := rfl
@[simp] theorem State.setPc_mem (s : State) (c v : Nat) : (s.setPc c v).mem = s.mem := rfl
@[simp] theorem State.setPc_core (s : State) (c v : Nat) : (s.setPc c v).core = s.core := rfl
@[simp] theorem State.setPc_task (s : State) (c v : Nat) : (s.setPc c v).task = s.task := rfl
@[simp] theorem State.setPc_innk (s : State) (c v : Nat) : (s.setPc c v).innk = s.innk := rfl
@[simp] theorem State.setPc_time (s : State) (c v : Nat) : (s.setPc c v).time = s.time := rfl
@[simp] theorem State.setPc_prism (s : State) (c v : Nat) : (s.setPc c v).prism = s.prism := rfl
@[simp] theorem State.setPc_prof (s : State) (c v : Nat) : (s.setPc c v).prof = s.prof := rfl
@[simp] theorem State.setPc_pwm (s : State) (c v : Nat) : (s.setPc c v).pwm = s.pwm := rfl
@[simp] theorem State.setPc_port (s : State) (c v : Nat) : (s.setPc c v).port = s.port := rfl
@[simp] theorem State.setPc_fbk (s : State) (c v : Nat) : (s.setPc c v).fbk = s.fbk := rfl
@[simp] theorem State.setPc_ale (s : State) (c v : Nat) : (s.setPc c v).ale = s.ale := rfl
@[simp] theorem State.setPc_pipe (s : State) (c v : Nat) : (s.setPc c v).pipe = s.pipe := rfl
@[simp] theorem State.setPc_stream (s : State) (c v : Nat) : (s.setPc c v).stream = s.stream := rfl
@[simp] theorem State.setPc_holds (s : State) (c v : Nat) : (s.setPc c v).holds = s.holds := rfl
@[simp] theorem State.setPc_envBlk (s : State) (c v : Nat) : (s.setPc c v).envBlk = s.envBlk := rfl
@[simp] theorem State.setPc_envNotify (s : State) (c v : Nat) : (s.setPc c v).envNotify = s.envNotify := rfl
@[simp] theorem State.setPc_gateEn (s : State) (c v : Nat) : (s.setPc c v).gateEn = s.gateEn := rfl
@[simp] theorem State.setPc_wire (s : State) (c v : Nat) : (s.setPc c v).wire = s.wire := rfl
@[simp] theorem State.setPc_heldPosts (s : State) (c v : Nat) : (s.setPc c v).heldPosts = s.heldPosts := rfl
@[simp] theorem State.setPc_posted (s : State) (c v : Nat) : (s.setPc c v).posted = s.posted := rfl
@[simp] theorem State.setPc_blocked (s : State) (c v : Nat) : (s.setPc c v).blocked = s.blocked := rfl
@[simp] theorem State.setPc_srstBusy (s : State) (c v : Nat) : (s.setPc c v).srstBusy = s.srstBusy := rfl
@[simp] theorem State.setPc_gating (s : State) (c v : Nat) : (s.setPc c v).gating = s.gating := rfl
@[simp] theorem State.setPc_held (s : State) (c v : Nat) : (s.setPc c v).held = s.held := rfl
@[simp] theorem State.setPc_slLocked (s : State) (c v : Nat) : (s.setPc c v).slLocked = s.slLocked := rfl
@[simp] theorem State.setPc_olSealed (s : State) (c v : Nat) : (s.setPc c v).olSealed = s.olSealed := rfl
@[simp] theorem State.setPc_fcNotify (s : State) (c v : Nat) : (s.setPc c v).fcNotify = s.fcNotify := rfl
@[simp] theorem State.setPc_fcStart (s : State) (c v : Nat) : (s.setPc c v).fcStart = s.fcStart := rfl
@[simp] theorem State.setPc_jumpAt (s : State) (c v : Nat) : (s.setPc c v).jumpAt = s.jumpAt := rfl
@[simp] theorem State.setPc_logq (s : State) (c v : Nat) : (s.setPc c v).logq = s.logq := rfl
@[simp] theorem State.setPc_logAt (s : State) (c v : Nat) : (s.setPc c v).logAt = s.logAt := rfl
@[simp] theorem State.setPc_dscrub (s : State) (c v : Nat) : (s.setPc c v).dscrub = s.dscrub := rfl
@[simp] theorem State.setPc_scrubPos (s : State) (c v : Nat) : (s.setPc c v).scrubPos = s.scrubPos := rfl
@[simp] theorem State.setPc_logScanned (s : State) (c v : Nat) : (s.setPc c v).logScanned = s.logScanned := rfl
@[simp] theorem State.setPc_mwq (s : State) (c v : Nat) : (s.setPc c v).mwq = s.mwq := rfl
@[simp] theorem State.setPc_porter (s : State) (c v : Nat) : (s.setPc c v).porter = s.porter := rfl
@[simp] theorem State.setPc_ring (s : State) (c v : Nat) : (s.setPc c v).ring = s.ring := rfl
@[simp] theorem State.setPc_eth (s : State) (c v : Nat) : (s.setPc c v).eth = s.eth := rfl
@[simp] theorem State.setPc_isl (s : State) (c v : Nat) : (s.setPc c v).isl = s.isl := rfl
@[simp] theorem State.setPc_clk (s : State) (c v : Nat) : (s.setPc c v).clk = s.clk := rfl
@[simp] theorem State.setPc_console (s : State) (c v : Nat) : (s.setPc c v).console = s.console := rfl
@[simp] theorem State.setPc_rdata (s : State) (c v : Nat) : (s.setPc c v).rdata = s.rdata := rfl
@[simp] theorem State.setPc_freeN (s : State) (c v : Nat) : (s.setPc c v).freeN = s.freeN := rfl

@[simp] theorem State.setCo_pending (s : State) (c : Nat) (r : CoreSt) : (s.setCo c r).pending = s.pending := rfl
@[simp] theorem State.setCo_now (s : State) (c : Nat) (r : CoreSt) : (s.setCo c r).now = s.now := rfl
@[simp] theorem State.setCo_cyc (s : State) (c : Nat) (r : CoreSt) : (s.setCo c r).cyc = s.cyc := rfl
@[simp] theorem State.setCo_regs (s : State) (c : Nat) (r : CoreSt) : (s.setCo c r).regs = s.regs := rfl
@[simp] theorem State.setCo_mem (s : State) (c : Nat) (r : CoreSt) : (s.setCo c r).mem = s.mem := rfl
@[simp] theorem State.setCo_crs (s : State) (c : Nat) (r : CoreSt) : (s.setCo c r).crs = s.crs := rfl
@[simp] theorem State.setCo_task (s : State) (c : Nat) (r : CoreSt) : (s.setCo c r).task = s.task := rfl
@[simp] theorem State.setCo_innk (s : State) (c : Nat) (r : CoreSt) : (s.setCo c r).innk = s.innk := rfl
@[simp] theorem State.setCo_time (s : State) (c : Nat) (r : CoreSt) : (s.setCo c r).time = s.time := rfl
@[simp] theorem State.setCo_prism (s : State) (c : Nat) (r : CoreSt) : (s.setCo c r).prism = s.prism := rfl
@[simp] theorem State.setCo_prof (s : State) (c : Nat) (r : CoreSt) : (s.setCo c r).prof = s.prof := rfl
@[simp] theorem State.setCo_pwm (s : State) (c : Nat) (r : CoreSt) : (s.setCo c r).pwm = s.pwm := rfl
@[simp] theorem State.setCo_port (s : State) (c : Nat) (r : CoreSt) : (s.setCo c r).port = s.port := rfl
@[simp] theorem State.setCo_fbk (s : State) (c : Nat) (r : CoreSt) : (s.setCo c r).fbk = s.fbk := rfl
@[simp] theorem State.setCo_ale (s : State) (c : Nat) (r : CoreSt) : (s.setCo c r).ale = s.ale := rfl
@[simp] theorem State.setCo_pipe (s : State) (c : Nat) (r : CoreSt) : (s.setCo c r).pipe = s.pipe := rfl
@[simp] theorem State.setCo_stream (s : State) (c : Nat) (r : CoreSt) : (s.setCo c r).stream = s.stream := rfl
@[simp] theorem State.setCo_holds (s : State) (c : Nat) (r : CoreSt) : (s.setCo c r).holds = s.holds := rfl
@[simp] theorem State.setCo_envBlk (s : State) (c : Nat) (r : CoreSt) : (s.setCo c r).envBlk = s.envBlk := rfl
@[simp] theorem State.setCo_envNotify (s : State) (c : Nat) (r : CoreSt) : (s.setCo c r).envNotify = s.envNotify := rfl
@[simp] theorem State.setCo_gateEn (s : State) (c : Nat) (r : CoreSt) : (s.setCo c r).gateEn = s.gateEn := rfl
@[simp] theorem State.setCo_wire (s : State) (c : Nat) (r : CoreSt) : (s.setCo c r).wire = s.wire := rfl
@[simp] theorem State.setCo_heldPosts (s : State) (c : Nat) (r : CoreSt) : (s.setCo c r).heldPosts = s.heldPosts := rfl
@[simp] theorem State.setCo_posted (s : State) (c : Nat) (r : CoreSt) : (s.setCo c r).posted = s.posted := rfl
@[simp] theorem State.setCo_blocked (s : State) (c : Nat) (r : CoreSt) : (s.setCo c r).blocked = s.blocked := rfl
@[simp] theorem State.setCo_srstBusy (s : State) (c : Nat) (r : CoreSt) : (s.setCo c r).srstBusy = s.srstBusy := rfl
@[simp] theorem State.setCo_gating (s : State) (c : Nat) (r : CoreSt) : (s.setCo c r).gating = s.gating := rfl
@[simp] theorem State.setCo_held (s : State) (c : Nat) (r : CoreSt) : (s.setCo c r).held = s.held := rfl
@[simp] theorem State.setCo_slLocked (s : State) (c : Nat) (r : CoreSt) : (s.setCo c r).slLocked = s.slLocked := rfl
@[simp] theorem State.setCo_olSealed (s : State) (c : Nat) (r : CoreSt) : (s.setCo c r).olSealed = s.olSealed := rfl
@[simp] theorem State.setCo_fcNotify (s : State) (c : Nat) (r : CoreSt) : (s.setCo c r).fcNotify = s.fcNotify := rfl
@[simp] theorem State.setCo_fcStart (s : State) (c : Nat) (r : CoreSt) : (s.setCo c r).fcStart = s.fcStart := rfl
@[simp] theorem State.setCo_jumpAt (s : State) (c : Nat) (r : CoreSt) : (s.setCo c r).jumpAt = s.jumpAt := rfl
@[simp] theorem State.setCo_logq (s : State) (c : Nat) (r : CoreSt) : (s.setCo c r).logq = s.logq := rfl
@[simp] theorem State.setCo_logAt (s : State) (c : Nat) (r : CoreSt) : (s.setCo c r).logAt = s.logAt := rfl
@[simp] theorem State.setCo_dscrub (s : State) (c : Nat) (r : CoreSt) : (s.setCo c r).dscrub = s.dscrub := rfl
@[simp] theorem State.setCo_scrubPos (s : State) (c : Nat) (r : CoreSt) : (s.setCo c r).scrubPos = s.scrubPos := rfl
@[simp] theorem State.setCo_logScanned (s : State) (c : Nat) (r : CoreSt) : (s.setCo c r).logScanned = s.logScanned := rfl
@[simp] theorem State.setCo_mwq (s : State) (c : Nat) (r : CoreSt) : (s.setCo c r).mwq = s.mwq := rfl
@[simp] theorem State.setCo_porter (s : State) (c : Nat) (r : CoreSt) : (s.setCo c r).porter = s.porter := rfl
@[simp] theorem State.setCo_ring (s : State) (c : Nat) (r : CoreSt) : (s.setCo c r).ring = s.ring := rfl
@[simp] theorem State.setCo_eth (s : State) (c : Nat) (r : CoreSt) : (s.setCo c r).eth = s.eth := rfl
@[simp] theorem State.setCo_isl (s : State) (c : Nat) (r : CoreSt) : (s.setCo c r).isl = s.isl := rfl
@[simp] theorem State.setCo_clk (s : State) (c : Nat) (r : CoreSt) : (s.setCo c r).clk = s.clk := rfl
@[simp] theorem State.setCo_console (s : State) (c : Nat) (r : CoreSt) : (s.setCo c r).console = s.console := rfl
@[simp] theorem State.setCo_rdata (s : State) (c : Nat) (r : CoreSt) : (s.setCo c r).rdata = s.rdata := rfl
@[simp] theorem State.setCo_freeN (s : State) (c : Nat) (r : CoreSt) : (s.setCo c r).freeN = s.freeN := rfl

@[simp] theorem State.setTa_pending (s : State) (t : Nat) (r : TaskSt) : (s.setTa t r).pending = s.pending := rfl
@[simp] theorem State.setTa_now (s : State) (t : Nat) (r : TaskSt) : (s.setTa t r).now = s.now := rfl
@[simp] theorem State.setTa_cyc (s : State) (t : Nat) (r : TaskSt) : (s.setTa t r).cyc = s.cyc := rfl
@[simp] theorem State.setTa_regs (s : State) (t : Nat) (r : TaskSt) : (s.setTa t r).regs = s.regs := rfl
@[simp] theorem State.setTa_mem (s : State) (t : Nat) (r : TaskSt) : (s.setTa t r).mem = s.mem := rfl
@[simp] theorem State.setTa_crs (s : State) (t : Nat) (r : TaskSt) : (s.setTa t r).crs = s.crs := rfl
@[simp] theorem State.setTa_core (s : State) (t : Nat) (r : TaskSt) : (s.setTa t r).core = s.core := rfl
@[simp] theorem State.setTa_innk (s : State) (t : Nat) (r : TaskSt) : (s.setTa t r).innk = s.innk := rfl
@[simp] theorem State.setTa_time (s : State) (t : Nat) (r : TaskSt) : (s.setTa t r).time = s.time := rfl
@[simp] theorem State.setTa_prism (s : State) (t : Nat) (r : TaskSt) : (s.setTa t r).prism = s.prism := rfl
@[simp] theorem State.setTa_prof (s : State) (t : Nat) (r : TaskSt) : (s.setTa t r).prof = s.prof := rfl
@[simp] theorem State.setTa_pwm (s : State) (t : Nat) (r : TaskSt) : (s.setTa t r).pwm = s.pwm := rfl
@[simp] theorem State.setTa_port (s : State) (t : Nat) (r : TaskSt) : (s.setTa t r).port = s.port := rfl
@[simp] theorem State.setTa_fbk (s : State) (t : Nat) (r : TaskSt) : (s.setTa t r).fbk = s.fbk := rfl
@[simp] theorem State.setTa_ale (s : State) (t : Nat) (r : TaskSt) : (s.setTa t r).ale = s.ale := rfl
@[simp] theorem State.setTa_pipe (s : State) (t : Nat) (r : TaskSt) : (s.setTa t r).pipe = s.pipe := rfl
@[simp] theorem State.setTa_stream (s : State) (t : Nat) (r : TaskSt) : (s.setTa t r).stream = s.stream := rfl
@[simp] theorem State.setTa_holds (s : State) (t : Nat) (r : TaskSt) : (s.setTa t r).holds = s.holds := rfl
@[simp] theorem State.setTa_envBlk (s : State) (t : Nat) (r : TaskSt) : (s.setTa t r).envBlk = s.envBlk := rfl
@[simp] theorem State.setTa_envNotify (s : State) (t : Nat) (r : TaskSt) : (s.setTa t r).envNotify = s.envNotify := rfl
@[simp] theorem State.setTa_gateEn (s : State) (t : Nat) (r : TaskSt) : (s.setTa t r).gateEn = s.gateEn := rfl
@[simp] theorem State.setTa_wire (s : State) (t : Nat) (r : TaskSt) : (s.setTa t r).wire = s.wire := rfl
@[simp] theorem State.setTa_heldPosts (s : State) (t : Nat) (r : TaskSt) : (s.setTa t r).heldPosts = s.heldPosts := rfl
@[simp] theorem State.setTa_posted (s : State) (t : Nat) (r : TaskSt) : (s.setTa t r).posted = s.posted := rfl
@[simp] theorem State.setTa_blocked (s : State) (t : Nat) (r : TaskSt) : (s.setTa t r).blocked = s.blocked := rfl
@[simp] theorem State.setTa_srstBusy (s : State) (t : Nat) (r : TaskSt) : (s.setTa t r).srstBusy = s.srstBusy := rfl
@[simp] theorem State.setTa_gating (s : State) (t : Nat) (r : TaskSt) : (s.setTa t r).gating = s.gating := rfl
@[simp] theorem State.setTa_held (s : State) (t : Nat) (r : TaskSt) : (s.setTa t r).held = s.held := rfl
@[simp] theorem State.setTa_slLocked (s : State) (t : Nat) (r : TaskSt) : (s.setTa t r).slLocked = s.slLocked := rfl
@[simp] theorem State.setTa_olSealed (s : State) (t : Nat) (r : TaskSt) : (s.setTa t r).olSealed = s.olSealed := rfl
@[simp] theorem State.setTa_fcNotify (s : State) (t : Nat) (r : TaskSt) : (s.setTa t r).fcNotify = s.fcNotify := rfl
@[simp] theorem State.setTa_fcStart (s : State) (t : Nat) (r : TaskSt) : (s.setTa t r).fcStart = s.fcStart := rfl
@[simp] theorem State.setTa_jumpAt (s : State) (t : Nat) (r : TaskSt) : (s.setTa t r).jumpAt = s.jumpAt := rfl
@[simp] theorem State.setTa_logq (s : State) (t : Nat) (r : TaskSt) : (s.setTa t r).logq = s.logq := rfl
@[simp] theorem State.setTa_logAt (s : State) (t : Nat) (r : TaskSt) : (s.setTa t r).logAt = s.logAt := rfl
@[simp] theorem State.setTa_dscrub (s : State) (t : Nat) (r : TaskSt) : (s.setTa t r).dscrub = s.dscrub := rfl
@[simp] theorem State.setTa_scrubPos (s : State) (t : Nat) (r : TaskSt) : (s.setTa t r).scrubPos = s.scrubPos := rfl
@[simp] theorem State.setTa_logScanned (s : State) (t : Nat) (r : TaskSt) : (s.setTa t r).logScanned = s.logScanned := rfl
@[simp] theorem State.setTa_mwq (s : State) (t : Nat) (r : TaskSt) : (s.setTa t r).mwq = s.mwq := rfl
@[simp] theorem State.setTa_porter (s : State) (t : Nat) (r : TaskSt) : (s.setTa t r).porter = s.porter := rfl
@[simp] theorem State.setTa_ring (s : State) (t : Nat) (r : TaskSt) : (s.setTa t r).ring = s.ring := rfl
@[simp] theorem State.setTa_eth (s : State) (t : Nat) (r : TaskSt) : (s.setTa t r).eth = s.eth := rfl
@[simp] theorem State.setTa_isl (s : State) (t : Nat) (r : TaskSt) : (s.setTa t r).isl = s.isl := rfl
@[simp] theorem State.setTa_clk (s : State) (t : Nat) (r : TaskSt) : (s.setTa t r).clk = s.clk := rfl
@[simp] theorem State.setTa_console (s : State) (t : Nat) (r : TaskSt) : (s.setTa t r).console = s.console := rfl
@[simp] theorem State.setTa_rdata (s : State) (t : Nat) (r : TaskSt) : (s.setTa t r).rdata = s.rdata := rfl
@[simp] theorem State.setTa_freeN (s : State) (t : Nat) (r : TaskSt) : (s.setTa t r).freeN = s.freeN := rfl

@[simp] theorem State.setPr_pending (s : State) (ch : Nat) (r : ProfSt) : (s.setPr ch r).pending = s.pending := rfl
@[simp] theorem State.setPr_now (s : State) (ch : Nat) (r : ProfSt) : (s.setPr ch r).now = s.now := rfl
@[simp] theorem State.setPr_cyc (s : State) (ch : Nat) (r : ProfSt) : (s.setPr ch r).cyc = s.cyc := rfl
@[simp] theorem State.setPr_regs (s : State) (ch : Nat) (r : ProfSt) : (s.setPr ch r).regs = s.regs := rfl
@[simp] theorem State.setPr_mem (s : State) (ch : Nat) (r : ProfSt) : (s.setPr ch r).mem = s.mem := rfl
@[simp] theorem State.setPr_crs (s : State) (ch : Nat) (r : ProfSt) : (s.setPr ch r).crs = s.crs := rfl
@[simp] theorem State.setPr_core (s : State) (ch : Nat) (r : ProfSt) : (s.setPr ch r).core = s.core := rfl
@[simp] theorem State.setPr_task (s : State) (ch : Nat) (r : ProfSt) : (s.setPr ch r).task = s.task := rfl
@[simp] theorem State.setPr_innk (s : State) (ch : Nat) (r : ProfSt) : (s.setPr ch r).innk = s.innk := rfl
@[simp] theorem State.setPr_time (s : State) (ch : Nat) (r : ProfSt) : (s.setPr ch r).time = s.time := rfl
@[simp] theorem State.setPr_prism (s : State) (ch : Nat) (r : ProfSt) : (s.setPr ch r).prism = s.prism := rfl
@[simp] theorem State.setPr_pwm (s : State) (ch : Nat) (r : ProfSt) : (s.setPr ch r).pwm = s.pwm := rfl
@[simp] theorem State.setPr_port (s : State) (ch : Nat) (r : ProfSt) : (s.setPr ch r).port = s.port := rfl
@[simp] theorem State.setPr_fbk (s : State) (ch : Nat) (r : ProfSt) : (s.setPr ch r).fbk = s.fbk := rfl
@[simp] theorem State.setPr_ale (s : State) (ch : Nat) (r : ProfSt) : (s.setPr ch r).ale = s.ale := rfl
@[simp] theorem State.setPr_pipe (s : State) (ch : Nat) (r : ProfSt) : (s.setPr ch r).pipe = s.pipe := rfl
@[simp] theorem State.setPr_stream (s : State) (ch : Nat) (r : ProfSt) : (s.setPr ch r).stream = s.stream := rfl
@[simp] theorem State.setPr_holds (s : State) (ch : Nat) (r : ProfSt) : (s.setPr ch r).holds = s.holds := rfl
@[simp] theorem State.setPr_envBlk (s : State) (ch : Nat) (r : ProfSt) : (s.setPr ch r).envBlk = s.envBlk := rfl
@[simp] theorem State.setPr_envNotify (s : State) (ch : Nat) (r : ProfSt) : (s.setPr ch r).envNotify = s.envNotify := rfl
@[simp] theorem State.setPr_gateEn (s : State) (ch : Nat) (r : ProfSt) : (s.setPr ch r).gateEn = s.gateEn := rfl
@[simp] theorem State.setPr_wire (s : State) (ch : Nat) (r : ProfSt) : (s.setPr ch r).wire = s.wire := rfl
@[simp] theorem State.setPr_heldPosts (s : State) (ch : Nat) (r : ProfSt) : (s.setPr ch r).heldPosts = s.heldPosts := rfl
@[simp] theorem State.setPr_posted (s : State) (ch : Nat) (r : ProfSt) : (s.setPr ch r).posted = s.posted := rfl
@[simp] theorem State.setPr_blocked (s : State) (ch : Nat) (r : ProfSt) : (s.setPr ch r).blocked = s.blocked := rfl
@[simp] theorem State.setPr_srstBusy (s : State) (ch : Nat) (r : ProfSt) : (s.setPr ch r).srstBusy = s.srstBusy := rfl
@[simp] theorem State.setPr_gating (s : State) (ch : Nat) (r : ProfSt) : (s.setPr ch r).gating = s.gating := rfl
@[simp] theorem State.setPr_held (s : State) (ch : Nat) (r : ProfSt) : (s.setPr ch r).held = s.held := rfl
@[simp] theorem State.setPr_slLocked (s : State) (ch : Nat) (r : ProfSt) : (s.setPr ch r).slLocked = s.slLocked := rfl
@[simp] theorem State.setPr_olSealed (s : State) (ch : Nat) (r : ProfSt) : (s.setPr ch r).olSealed = s.olSealed := rfl
@[simp] theorem State.setPr_fcNotify (s : State) (ch : Nat) (r : ProfSt) : (s.setPr ch r).fcNotify = s.fcNotify := rfl
@[simp] theorem State.setPr_fcStart (s : State) (ch : Nat) (r : ProfSt) : (s.setPr ch r).fcStart = s.fcStart := rfl
@[simp] theorem State.setPr_jumpAt (s : State) (ch : Nat) (r : ProfSt) : (s.setPr ch r).jumpAt = s.jumpAt := rfl
@[simp] theorem State.setPr_logq (s : State) (ch : Nat) (r : ProfSt) : (s.setPr ch r).logq = s.logq := rfl
@[simp] theorem State.setPr_logAt (s : State) (ch : Nat) (r : ProfSt) : (s.setPr ch r).logAt = s.logAt := rfl
@[simp] theorem State.setPr_dscrub (s : State) (ch : Nat) (r : ProfSt) : (s.setPr ch r).dscrub = s.dscrub := rfl
@[simp] theorem State.setPr_scrubPos (s : State) (ch : Nat) (r : ProfSt) : (s.setPr ch r).scrubPos = s.scrubPos := rfl
@[simp] theorem State.setPr_logScanned (s : State) (ch : Nat) (r : ProfSt) : (s.setPr ch r).logScanned = s.logScanned := rfl
@[simp] theorem State.setPr_mwq (s : State) (ch : Nat) (r : ProfSt) : (s.setPr ch r).mwq = s.mwq := rfl
@[simp] theorem State.setPr_porter (s : State) (ch : Nat) (r : ProfSt) : (s.setPr ch r).porter = s.porter := rfl
@[simp] theorem State.setPr_ring (s : State) (ch : Nat) (r : ProfSt) : (s.setPr ch r).ring = s.ring := rfl
@[simp] theorem State.setPr_eth (s : State) (ch : Nat) (r : ProfSt) : (s.setPr ch r).eth = s.eth := rfl
@[simp] theorem State.setPr_isl (s : State) (ch : Nat) (r : ProfSt) : (s.setPr ch r).isl = s.isl := rfl
@[simp] theorem State.setPr_clk (s : State) (ch : Nat) (r : ProfSt) : (s.setPr ch r).clk = s.clk := rfl
@[simp] theorem State.setPr_console (s : State) (ch : Nat) (r : ProfSt) : (s.setPr ch r).console = s.console := rfl
@[simp] theorem State.setPr_rdata (s : State) (ch : Nat) (r : ProfSt) : (s.setPr ch r).rdata = s.rdata := rfl
@[simp] theorem State.setPr_freeN (s : State) (ch : Nat) (r : ProfSt) : (s.setPr ch r).freeN = s.freeN := rfl

@[simp] theorem State.setPw_pending (s : State) (ch : Nat) (r : PwmSt) : (s.setPw ch r).pending = s.pending := rfl
@[simp] theorem State.setPw_now (s : State) (ch : Nat) (r : PwmSt) : (s.setPw ch r).now = s.now := rfl
@[simp] theorem State.setPw_cyc (s : State) (ch : Nat) (r : PwmSt) : (s.setPw ch r).cyc = s.cyc := rfl
@[simp] theorem State.setPw_regs (s : State) (ch : Nat) (r : PwmSt) : (s.setPw ch r).regs = s.regs := rfl
@[simp] theorem State.setPw_mem (s : State) (ch : Nat) (r : PwmSt) : (s.setPw ch r).mem = s.mem := rfl
@[simp] theorem State.setPw_crs (s : State) (ch : Nat) (r : PwmSt) : (s.setPw ch r).crs = s.crs := rfl
@[simp] theorem State.setPw_core (s : State) (ch : Nat) (r : PwmSt) : (s.setPw ch r).core = s.core := rfl
@[simp] theorem State.setPw_task (s : State) (ch : Nat) (r : PwmSt) : (s.setPw ch r).task = s.task := rfl
@[simp] theorem State.setPw_innk (s : State) (ch : Nat) (r : PwmSt) : (s.setPw ch r).innk = s.innk := rfl
@[simp] theorem State.setPw_time (s : State) (ch : Nat) (r : PwmSt) : (s.setPw ch r).time = s.time := rfl
@[simp] theorem State.setPw_prism (s : State) (ch : Nat) (r : PwmSt) : (s.setPw ch r).prism = s.prism := rfl
@[simp] theorem State.setPw_prof (s : State) (ch : Nat) (r : PwmSt) : (s.setPw ch r).prof = s.prof := rfl
@[simp] theorem State.setPw_port (s : State) (ch : Nat) (r : PwmSt) : (s.setPw ch r).port = s.port := rfl
@[simp] theorem State.setPw_fbk (s : State) (ch : Nat) (r : PwmSt) : (s.setPw ch r).fbk = s.fbk := rfl
@[simp] theorem State.setPw_ale (s : State) (ch : Nat) (r : PwmSt) : (s.setPw ch r).ale = s.ale := rfl
@[simp] theorem State.setPw_pipe (s : State) (ch : Nat) (r : PwmSt) : (s.setPw ch r).pipe = s.pipe := rfl
@[simp] theorem State.setPw_stream (s : State) (ch : Nat) (r : PwmSt) : (s.setPw ch r).stream = s.stream := rfl
@[simp] theorem State.setPw_holds (s : State) (ch : Nat) (r : PwmSt) : (s.setPw ch r).holds = s.holds := rfl
@[simp] theorem State.setPw_envBlk (s : State) (ch : Nat) (r : PwmSt) : (s.setPw ch r).envBlk = s.envBlk := rfl
@[simp] theorem State.setPw_envNotify (s : State) (ch : Nat) (r : PwmSt) : (s.setPw ch r).envNotify = s.envNotify := rfl
@[simp] theorem State.setPw_gateEn (s : State) (ch : Nat) (r : PwmSt) : (s.setPw ch r).gateEn = s.gateEn := rfl
@[simp] theorem State.setPw_wire (s : State) (ch : Nat) (r : PwmSt) : (s.setPw ch r).wire = s.wire := rfl
@[simp] theorem State.setPw_heldPosts (s : State) (ch : Nat) (r : PwmSt) : (s.setPw ch r).heldPosts = s.heldPosts := rfl
@[simp] theorem State.setPw_posted (s : State) (ch : Nat) (r : PwmSt) : (s.setPw ch r).posted = s.posted := rfl
@[simp] theorem State.setPw_blocked (s : State) (ch : Nat) (r : PwmSt) : (s.setPw ch r).blocked = s.blocked := rfl
@[simp] theorem State.setPw_srstBusy (s : State) (ch : Nat) (r : PwmSt) : (s.setPw ch r).srstBusy = s.srstBusy := rfl
@[simp] theorem State.setPw_gating (s : State) (ch : Nat) (r : PwmSt) : (s.setPw ch r).gating = s.gating := rfl
@[simp] theorem State.setPw_held (s : State) (ch : Nat) (r : PwmSt) : (s.setPw ch r).held = s.held := rfl
@[simp] theorem State.setPw_slLocked (s : State) (ch : Nat) (r : PwmSt) : (s.setPw ch r).slLocked = s.slLocked := rfl
@[simp] theorem State.setPw_olSealed (s : State) (ch : Nat) (r : PwmSt) : (s.setPw ch r).olSealed = s.olSealed := rfl
@[simp] theorem State.setPw_fcNotify (s : State) (ch : Nat) (r : PwmSt) : (s.setPw ch r).fcNotify = s.fcNotify := rfl
@[simp] theorem State.setPw_fcStart (s : State) (ch : Nat) (r : PwmSt) : (s.setPw ch r).fcStart = s.fcStart := rfl
@[simp] theorem State.setPw_jumpAt (s : State) (ch : Nat) (r : PwmSt) : (s.setPw ch r).jumpAt = s.jumpAt := rfl
@[simp] theorem State.setPw_logq (s : State) (ch : Nat) (r : PwmSt) : (s.setPw ch r).logq = s.logq := rfl
@[simp] theorem State.setPw_logAt (s : State) (ch : Nat) (r : PwmSt) : (s.setPw ch r).logAt = s.logAt := rfl
@[simp] theorem State.setPw_dscrub (s : State) (ch : Nat) (r : PwmSt) : (s.setPw ch r).dscrub = s.dscrub := rfl
@[simp] theorem State.setPw_scrubPos (s : State) (ch : Nat) (r : PwmSt) : (s.setPw ch r).scrubPos = s.scrubPos := rfl
@[simp] theorem State.setPw_logScanned (s : State) (ch : Nat) (r : PwmSt) : (s.setPw ch r).logScanned = s.logScanned := rfl
@[simp] theorem State.setPw_mwq (s : State) (ch : Nat) (r : PwmSt) : (s.setPw ch r).mwq = s.mwq := rfl
@[simp] theorem State.setPw_porter (s : State) (ch : Nat) (r : PwmSt) : (s.setPw ch r).porter = s.porter := rfl
@[simp] theorem State.setPw_ring (s : State) (ch : Nat) (r : PwmSt) : (s.setPw ch r).ring = s.ring := rfl
@[simp] theorem State.setPw_eth (s : State) (ch : Nat) (r : PwmSt) : (s.setPw ch r).eth = s.eth := rfl
@[simp] theorem State.setPw_isl (s : State) (ch : Nat) (r : PwmSt) : (s.setPw ch r).isl = s.isl := rfl
@[simp] theorem State.setPw_clk (s : State) (ch : Nat) (r : PwmSt) : (s.setPw ch r).clk = s.clk := rfl
@[simp] theorem State.setPw_console (s : State) (ch : Nat) (r : PwmSt) : (s.setPw ch r).console = s.console := rfl
@[simp] theorem State.setPw_rdata (s : State) (ch : Nat) (r : PwmSt) : (s.setPw ch r).rdata = s.rdata := rfl
@[simp] theorem State.setPw_freeN (s : State) (ch : Nat) (r : PwmSt) : (s.setPw ch r).freeN = s.freeN := rfl

@[simp] theorem State.setPo_pending (s : State) (p : Nat) (r : PortSt) : (s.setPo p r).pending = s.pending := rfl
@[simp] theorem State.setPo_now (s : State) (p : Nat) (r : PortSt) : (s.setPo p r).now = s.now := rfl
@[simp] theorem State.setPo_cyc (s : State) (p : Nat) (r : PortSt) : (s.setPo p r).cyc = s.cyc := rfl
@[simp] theorem State.setPo_regs (s : State) (p : Nat) (r : PortSt) : (s.setPo p r).regs = s.regs := rfl
@[simp] theorem State.setPo_mem (s : State) (p : Nat) (r : PortSt) : (s.setPo p r).mem = s.mem := rfl
@[simp] theorem State.setPo_crs (s : State) (p : Nat) (r : PortSt) : (s.setPo p r).crs = s.crs := rfl
@[simp] theorem State.setPo_core (s : State) (p : Nat) (r : PortSt) : (s.setPo p r).core = s.core := rfl
@[simp] theorem State.setPo_task (s : State) (p : Nat) (r : PortSt) : (s.setPo p r).task = s.task := rfl
@[simp] theorem State.setPo_innk (s : State) (p : Nat) (r : PortSt) : (s.setPo p r).innk = s.innk := rfl
@[simp] theorem State.setPo_time (s : State) (p : Nat) (r : PortSt) : (s.setPo p r).time = s.time := rfl
@[simp] theorem State.setPo_prism (s : State) (p : Nat) (r : PortSt) : (s.setPo p r).prism = s.prism := rfl
@[simp] theorem State.setPo_prof (s : State) (p : Nat) (r : PortSt) : (s.setPo p r).prof = s.prof := rfl
@[simp] theorem State.setPo_pwm (s : State) (p : Nat) (r : PortSt) : (s.setPo p r).pwm = s.pwm := rfl
@[simp] theorem State.setPo_fbk (s : State) (p : Nat) (r : PortSt) : (s.setPo p r).fbk = s.fbk := rfl
@[simp] theorem State.setPo_ale (s : State) (p : Nat) (r : PortSt) : (s.setPo p r).ale = s.ale := rfl
@[simp] theorem State.setPo_pipe (s : State) (p : Nat) (r : PortSt) : (s.setPo p r).pipe = s.pipe := rfl
@[simp] theorem State.setPo_stream (s : State) (p : Nat) (r : PortSt) : (s.setPo p r).stream = s.stream := rfl
@[simp] theorem State.setPo_holds (s : State) (p : Nat) (r : PortSt) : (s.setPo p r).holds = s.holds := rfl
@[simp] theorem State.setPo_envBlk (s : State) (p : Nat) (r : PortSt) : (s.setPo p r).envBlk = s.envBlk := rfl
@[simp] theorem State.setPo_envNotify (s : State) (p : Nat) (r : PortSt) : (s.setPo p r).envNotify = s.envNotify := rfl
@[simp] theorem State.setPo_gateEn (s : State) (p : Nat) (r : PortSt) : (s.setPo p r).gateEn = s.gateEn := rfl
@[simp] theorem State.setPo_wire (s : State) (p : Nat) (r : PortSt) : (s.setPo p r).wire = s.wire := rfl
@[simp] theorem State.setPo_heldPosts (s : State) (p : Nat) (r : PortSt) : (s.setPo p r).heldPosts = s.heldPosts := rfl
@[simp] theorem State.setPo_posted (s : State) (p : Nat) (r : PortSt) : (s.setPo p r).posted = s.posted := rfl
@[simp] theorem State.setPo_blocked (s : State) (p : Nat) (r : PortSt) : (s.setPo p r).blocked = s.blocked := rfl
@[simp] theorem State.setPo_srstBusy (s : State) (p : Nat) (r : PortSt) : (s.setPo p r).srstBusy = s.srstBusy := rfl
@[simp] theorem State.setPo_gating (s : State) (p : Nat) (r : PortSt) : (s.setPo p r).gating = s.gating := rfl
@[simp] theorem State.setPo_held (s : State) (p : Nat) (r : PortSt) : (s.setPo p r).held = s.held := rfl
@[simp] theorem State.setPo_slLocked (s : State) (p : Nat) (r : PortSt) : (s.setPo p r).slLocked = s.slLocked := rfl
@[simp] theorem State.setPo_olSealed (s : State) (p : Nat) (r : PortSt) : (s.setPo p r).olSealed = s.olSealed := rfl
@[simp] theorem State.setPo_fcNotify (s : State) (p : Nat) (r : PortSt) : (s.setPo p r).fcNotify = s.fcNotify := rfl
@[simp] theorem State.setPo_fcStart (s : State) (p : Nat) (r : PortSt) : (s.setPo p r).fcStart = s.fcStart := rfl
@[simp] theorem State.setPo_jumpAt (s : State) (p : Nat) (r : PortSt) : (s.setPo p r).jumpAt = s.jumpAt := rfl
@[simp] theorem State.setPo_logq (s : State) (p : Nat) (r : PortSt) : (s.setPo p r).logq = s.logq := rfl
@[simp] theorem State.setPo_logAt (s : State) (p : Nat) (r : PortSt) : (s.setPo p r).logAt = s.logAt := rfl
@[simp] theorem State.setPo_dscrub (s : State) (p : Nat) (r : PortSt) : (s.setPo p r).dscrub = s.dscrub := rfl
@[simp] theorem State.setPo_scrubPos (s : State) (p : Nat) (r : PortSt) : (s.setPo p r).scrubPos = s.scrubPos := rfl
@[simp] theorem State.setPo_logScanned (s : State) (p : Nat) (r : PortSt) : (s.setPo p r).logScanned = s.logScanned := rfl
@[simp] theorem State.setPo_mwq (s : State) (p : Nat) (r : PortSt) : (s.setPo p r).mwq = s.mwq := rfl
@[simp] theorem State.setPo_porter (s : State) (p : Nat) (r : PortSt) : (s.setPo p r).porter = s.porter := rfl
@[simp] theorem State.setPo_ring (s : State) (p : Nat) (r : PortSt) : (s.setPo p r).ring = s.ring := rfl
@[simp] theorem State.setPo_eth (s : State) (p : Nat) (r : PortSt) : (s.setPo p r).eth = s.eth := rfl
@[simp] theorem State.setPo_isl (s : State) (p : Nat) (r : PortSt) : (s.setPo p r).isl = s.isl := rfl
@[simp] theorem State.setPo_clk (s : State) (p : Nat) (r : PortSt) : (s.setPo p r).clk = s.clk := rfl
@[simp] theorem State.setPo_console (s : State) (p : Nat) (r : PortSt) : (s.setPo p r).console = s.console := rfl
@[simp] theorem State.setPo_rdata (s : State) (p : Nat) (r : PortSt) : (s.setPo p r).rdata = s.rdata := rfl
@[simp] theorem State.setPo_freeN (s : State) (p : Nat) (r : PortSt) : (s.setPo p r).freeN = s.freeN := rfl

@[simp] theorem State.setTi_pending (s : State) (pin : Nat) (r : TioSt) : (s.setTi pin r).pending = s.pending := rfl
@[simp] theorem State.setTi_now (s : State) (pin : Nat) (r : TioSt) : (s.setTi pin r).now = s.now := rfl
@[simp] theorem State.setTi_cyc (s : State) (pin : Nat) (r : TioSt) : (s.setTi pin r).cyc = s.cyc := rfl
@[simp] theorem State.setTi_regs (s : State) (pin : Nat) (r : TioSt) : (s.setTi pin r).regs = s.regs := rfl
@[simp] theorem State.setTi_mem (s : State) (pin : Nat) (r : TioSt) : (s.setTi pin r).mem = s.mem := rfl
@[simp] theorem State.setTi_crs (s : State) (pin : Nat) (r : TioSt) : (s.setTi pin r).crs = s.crs := rfl
@[simp] theorem State.setTi_core (s : State) (pin : Nat) (r : TioSt) : (s.setTi pin r).core = s.core := rfl
@[simp] theorem State.setTi_task (s : State) (pin : Nat) (r : TioSt) : (s.setTi pin r).task = s.task := rfl
@[simp] theorem State.setTi_innk (s : State) (pin : Nat) (r : TioSt) : (s.setTi pin r).innk = s.innk := rfl
@[simp] theorem State.setTi_time (s : State) (pin : Nat) (r : TioSt) : (s.setTi pin r).time = s.time := rfl
@[simp] theorem State.setTi_prof (s : State) (pin : Nat) (r : TioSt) : (s.setTi pin r).prof = s.prof := rfl
@[simp] theorem State.setTi_pwm (s : State) (pin : Nat) (r : TioSt) : (s.setTi pin r).pwm = s.pwm := rfl
@[simp] theorem State.setTi_port (s : State) (pin : Nat) (r : TioSt) : (s.setTi pin r).port = s.port := rfl
@[simp] theorem State.setTi_fbk (s : State) (pin : Nat) (r : TioSt) : (s.setTi pin r).fbk = s.fbk := rfl
@[simp] theorem State.setTi_ale (s : State) (pin : Nat) (r : TioSt) : (s.setTi pin r).ale = s.ale := rfl
@[simp] theorem State.setTi_pipe (s : State) (pin : Nat) (r : TioSt) : (s.setTi pin r).pipe = s.pipe := rfl
@[simp] theorem State.setTi_stream (s : State) (pin : Nat) (r : TioSt) : (s.setTi pin r).stream = s.stream := rfl
@[simp] theorem State.setTi_holds (s : State) (pin : Nat) (r : TioSt) : (s.setTi pin r).holds = s.holds := rfl
@[simp] theorem State.setTi_envBlk (s : State) (pin : Nat) (r : TioSt) : (s.setTi pin r).envBlk = s.envBlk := rfl
@[simp] theorem State.setTi_envNotify (s : State) (pin : Nat) (r : TioSt) : (s.setTi pin r).envNotify = s.envNotify := rfl
@[simp] theorem State.setTi_gateEn (s : State) (pin : Nat) (r : TioSt) : (s.setTi pin r).gateEn = s.gateEn := rfl
@[simp] theorem State.setTi_wire (s : State) (pin : Nat) (r : TioSt) : (s.setTi pin r).wire = s.wire := rfl
@[simp] theorem State.setTi_heldPosts (s : State) (pin : Nat) (r : TioSt) : (s.setTi pin r).heldPosts = s.heldPosts := rfl
@[simp] theorem State.setTi_posted (s : State) (pin : Nat) (r : TioSt) : (s.setTi pin r).posted = s.posted := rfl
@[simp] theorem State.setTi_blocked (s : State) (pin : Nat) (r : TioSt) : (s.setTi pin r).blocked = s.blocked := rfl
@[simp] theorem State.setTi_srstBusy (s : State) (pin : Nat) (r : TioSt) : (s.setTi pin r).srstBusy = s.srstBusy := rfl
@[simp] theorem State.setTi_gating (s : State) (pin : Nat) (r : TioSt) : (s.setTi pin r).gating = s.gating := rfl
@[simp] theorem State.setTi_held (s : State) (pin : Nat) (r : TioSt) : (s.setTi pin r).held = s.held := rfl
@[simp] theorem State.setTi_slLocked (s : State) (pin : Nat) (r : TioSt) : (s.setTi pin r).slLocked = s.slLocked := rfl
@[simp] theorem State.setTi_olSealed (s : State) (pin : Nat) (r : TioSt) : (s.setTi pin r).olSealed = s.olSealed := rfl
@[simp] theorem State.setTi_fcNotify (s : State) (pin : Nat) (r : TioSt) : (s.setTi pin r).fcNotify = s.fcNotify := rfl
@[simp] theorem State.setTi_fcStart (s : State) (pin : Nat) (r : TioSt) : (s.setTi pin r).fcStart = s.fcStart := rfl
@[simp] theorem State.setTi_jumpAt (s : State) (pin : Nat) (r : TioSt) : (s.setTi pin r).jumpAt = s.jumpAt := rfl
@[simp] theorem State.setTi_logq (s : State) (pin : Nat) (r : TioSt) : (s.setTi pin r).logq = s.logq := rfl
@[simp] theorem State.setTi_logAt (s : State) (pin : Nat) (r : TioSt) : (s.setTi pin r).logAt = s.logAt := rfl
@[simp] theorem State.setTi_dscrub (s : State) (pin : Nat) (r : TioSt) : (s.setTi pin r).dscrub = s.dscrub := rfl
@[simp] theorem State.setTi_scrubPos (s : State) (pin : Nat) (r : TioSt) : (s.setTi pin r).scrubPos = s.scrubPos := rfl
@[simp] theorem State.setTi_logScanned (s : State) (pin : Nat) (r : TioSt) : (s.setTi pin r).logScanned = s.logScanned := rfl
@[simp] theorem State.setTi_mwq (s : State) (pin : Nat) (r : TioSt) : (s.setTi pin r).mwq = s.mwq := rfl
@[simp] theorem State.setTi_porter (s : State) (pin : Nat) (r : TioSt) : (s.setTi pin r).porter = s.porter := rfl
@[simp] theorem State.setTi_ring (s : State) (pin : Nat) (r : TioSt) : (s.setTi pin r).ring = s.ring := rfl
@[simp] theorem State.setTi_eth (s : State) (pin : Nat) (r : TioSt) : (s.setTi pin r).eth = s.eth := rfl
@[simp] theorem State.setTi_isl (s : State) (pin : Nat) (r : TioSt) : (s.setTi pin r).isl = s.isl := rfl
@[simp] theorem State.setTi_clk (s : State) (pin : Nat) (r : TioSt) : (s.setTi pin r).clk = s.clk := rfl
@[simp] theorem State.setTi_console (s : State) (pin : Nat) (r : TioSt) : (s.setTi pin r).console = s.console := rfl
@[simp] theorem State.setTi_rdata (s : State) (pin : Nat) (r : TioSt) : (s.setTi pin r).rdata = s.rdata := rfl
@[simp] theorem State.setTi_freeN (s : State) (pin : Nat) (r : TioSt) : (s.setTi pin r).freeN = s.freeN := rfl

@[simp] theorem State.setFb_pending (s : State) (ch : Nat) (r : FbkSt) : (s.setFb ch r).pending = s.pending := rfl
@[simp] theorem State.setFb_now (s : State) (ch : Nat) (r : FbkSt) : (s.setFb ch r).now = s.now := rfl
@[simp] theorem State.setFb_cyc (s : State) (ch : Nat) (r : FbkSt) : (s.setFb ch r).cyc = s.cyc := rfl
@[simp] theorem State.setFb_regs (s : State) (ch : Nat) (r : FbkSt) : (s.setFb ch r).regs = s.regs := rfl
@[simp] theorem State.setFb_mem (s : State) (ch : Nat) (r : FbkSt) : (s.setFb ch r).mem = s.mem := rfl
@[simp] theorem State.setFb_crs (s : State) (ch : Nat) (r : FbkSt) : (s.setFb ch r).crs = s.crs := rfl
@[simp] theorem State.setFb_core (s : State) (ch : Nat) (r : FbkSt) : (s.setFb ch r).core = s.core := rfl
@[simp] theorem State.setFb_task (s : State) (ch : Nat) (r : FbkSt) : (s.setFb ch r).task = s.task := rfl
@[simp] theorem State.setFb_innk (s : State) (ch : Nat) (r : FbkSt) : (s.setFb ch r).innk = s.innk := rfl
@[simp] theorem State.setFb_time (s : State) (ch : Nat) (r : FbkSt) : (s.setFb ch r).time = s.time := rfl
@[simp] theorem State.setFb_prism (s : State) (ch : Nat) (r : FbkSt) : (s.setFb ch r).prism = s.prism := rfl
@[simp] theorem State.setFb_prof (s : State) (ch : Nat) (r : FbkSt) : (s.setFb ch r).prof = s.prof := rfl
@[simp] theorem State.setFb_pwm (s : State) (ch : Nat) (r : FbkSt) : (s.setFb ch r).pwm = s.pwm := rfl
@[simp] theorem State.setFb_port (s : State) (ch : Nat) (r : FbkSt) : (s.setFb ch r).port = s.port := rfl
@[simp] theorem State.setFb_ale (s : State) (ch : Nat) (r : FbkSt) : (s.setFb ch r).ale = s.ale := rfl
@[simp] theorem State.setFb_pipe (s : State) (ch : Nat) (r : FbkSt) : (s.setFb ch r).pipe = s.pipe := rfl
@[simp] theorem State.setFb_stream (s : State) (ch : Nat) (r : FbkSt) : (s.setFb ch r).stream = s.stream := rfl
@[simp] theorem State.setFb_holds (s : State) (ch : Nat) (r : FbkSt) : (s.setFb ch r).holds = s.holds := rfl
@[simp] theorem State.setFb_envBlk (s : State) (ch : Nat) (r : FbkSt) : (s.setFb ch r).envBlk = s.envBlk := rfl
@[simp] theorem State.setFb_envNotify (s : State) (ch : Nat) (r : FbkSt) : (s.setFb ch r).envNotify = s.envNotify := rfl
@[simp] theorem State.setFb_gateEn (s : State) (ch : Nat) (r : FbkSt) : (s.setFb ch r).gateEn = s.gateEn := rfl
@[simp] theorem State.setFb_wire (s : State) (ch : Nat) (r : FbkSt) : (s.setFb ch r).wire = s.wire := rfl
@[simp] theorem State.setFb_heldPosts (s : State) (ch : Nat) (r : FbkSt) : (s.setFb ch r).heldPosts = s.heldPosts := rfl
@[simp] theorem State.setFb_posted (s : State) (ch : Nat) (r : FbkSt) : (s.setFb ch r).posted = s.posted := rfl
@[simp] theorem State.setFb_blocked (s : State) (ch : Nat) (r : FbkSt) : (s.setFb ch r).blocked = s.blocked := rfl
@[simp] theorem State.setFb_srstBusy (s : State) (ch : Nat) (r : FbkSt) : (s.setFb ch r).srstBusy = s.srstBusy := rfl
@[simp] theorem State.setFb_gating (s : State) (ch : Nat) (r : FbkSt) : (s.setFb ch r).gating = s.gating := rfl
@[simp] theorem State.setFb_held (s : State) (ch : Nat) (r : FbkSt) : (s.setFb ch r).held = s.held := rfl
@[simp] theorem State.setFb_slLocked (s : State) (ch : Nat) (r : FbkSt) : (s.setFb ch r).slLocked = s.slLocked := rfl
@[simp] theorem State.setFb_olSealed (s : State) (ch : Nat) (r : FbkSt) : (s.setFb ch r).olSealed = s.olSealed := rfl
@[simp] theorem State.setFb_fcNotify (s : State) (ch : Nat) (r : FbkSt) : (s.setFb ch r).fcNotify = s.fcNotify := rfl
@[simp] theorem State.setFb_fcStart (s : State) (ch : Nat) (r : FbkSt) : (s.setFb ch r).fcStart = s.fcStart := rfl
@[simp] theorem State.setFb_jumpAt (s : State) (ch : Nat) (r : FbkSt) : (s.setFb ch r).jumpAt = s.jumpAt := rfl
@[simp] theorem State.setFb_logq (s : State) (ch : Nat) (r : FbkSt) : (s.setFb ch r).logq = s.logq := rfl
@[simp] theorem State.setFb_logAt (s : State) (ch : Nat) (r : FbkSt) : (s.setFb ch r).logAt = s.logAt := rfl
@[simp] theorem State.setFb_dscrub (s : State) (ch : Nat) (r : FbkSt) : (s.setFb ch r).dscrub = s.dscrub := rfl
@[simp] theorem State.setFb_scrubPos (s : State) (ch : Nat) (r : FbkSt) : (s.setFb ch r).scrubPos = s.scrubPos := rfl
@[simp] theorem State.setFb_logScanned (s : State) (ch : Nat) (r : FbkSt) : (s.setFb ch r).logScanned = s.logScanned := rfl
@[simp] theorem State.setFb_mwq (s : State) (ch : Nat) (r : FbkSt) : (s.setFb ch r).mwq = s.mwq := rfl
@[simp] theorem State.setFb_porter (s : State) (ch : Nat) (r : FbkSt) : (s.setFb ch r).porter = s.porter := rfl
@[simp] theorem State.setFb_ring (s : State) (ch : Nat) (r : FbkSt) : (s.setFb ch r).ring = s.ring := rfl
@[simp] theorem State.setFb_eth (s : State) (ch : Nat) (r : FbkSt) : (s.setFb ch r).eth = s.eth := rfl
@[simp] theorem State.setFb_isl (s : State) (ch : Nat) (r : FbkSt) : (s.setFb ch r).isl = s.isl := rfl
@[simp] theorem State.setFb_clk (s : State) (ch : Nat) (r : FbkSt) : (s.setFb ch r).clk = s.clk := rfl
@[simp] theorem State.setFb_console (s : State) (ch : Nat) (r : FbkSt) : (s.setFb ch r).console = s.console := rfl
@[simp] theorem State.setFb_rdata (s : State) (ch : Nat) (r : FbkSt) : (s.setFb ch r).rdata = s.rdata := rfl
@[simp] theorem State.setFb_freeN (s : State) (ch : Nat) (r : FbkSt) : (s.setFb ch r).freeN = s.freeN := rfl

@[simp] theorem State.setAl_pending (s : State) (ch : Nat) (r : AleSt) : (s.setAl ch r).pending = s.pending := rfl
@[simp] theorem State.setAl_now (s : State) (ch : Nat) (r : AleSt) : (s.setAl ch r).now = s.now := rfl
@[simp] theorem State.setAl_cyc (s : State) (ch : Nat) (r : AleSt) : (s.setAl ch r).cyc = s.cyc := rfl
@[simp] theorem State.setAl_regs (s : State) (ch : Nat) (r : AleSt) : (s.setAl ch r).regs = s.regs := rfl
@[simp] theorem State.setAl_mem (s : State) (ch : Nat) (r : AleSt) : (s.setAl ch r).mem = s.mem := rfl
@[simp] theorem State.setAl_crs (s : State) (ch : Nat) (r : AleSt) : (s.setAl ch r).crs = s.crs := rfl
@[simp] theorem State.setAl_core (s : State) (ch : Nat) (r : AleSt) : (s.setAl ch r).core = s.core := rfl
@[simp] theorem State.setAl_task (s : State) (ch : Nat) (r : AleSt) : (s.setAl ch r).task = s.task := rfl
@[simp] theorem State.setAl_innk (s : State) (ch : Nat) (r : AleSt) : (s.setAl ch r).innk = s.innk := rfl
@[simp] theorem State.setAl_time (s : State) (ch : Nat) (r : AleSt) : (s.setAl ch r).time = s.time := rfl
@[simp] theorem State.setAl_prism (s : State) (ch : Nat) (r : AleSt) : (s.setAl ch r).prism = s.prism := rfl
@[simp] theorem State.setAl_prof (s : State) (ch : Nat) (r : AleSt) : (s.setAl ch r).prof = s.prof := rfl
@[simp] theorem State.setAl_pwm (s : State) (ch : Nat) (r : AleSt) : (s.setAl ch r).pwm = s.pwm := rfl
@[simp] theorem State.setAl_port (s : State) (ch : Nat) (r : AleSt) : (s.setAl ch r).port = s.port := rfl
@[simp] theorem State.setAl_fbk (s : State) (ch : Nat) (r : AleSt) : (s.setAl ch r).fbk = s.fbk := rfl
@[simp] theorem State.setAl_pipe (s : State) (ch : Nat) (r : AleSt) : (s.setAl ch r).pipe = s.pipe := rfl
@[simp] theorem State.setAl_stream (s : State) (ch : Nat) (r : AleSt) : (s.setAl ch r).stream = s.stream := rfl
@[simp] theorem State.setAl_holds (s : State) (ch : Nat) (r : AleSt) : (s.setAl ch r).holds = s.holds := rfl
@[simp] theorem State.setAl_envBlk (s : State) (ch : Nat) (r : AleSt) : (s.setAl ch r).envBlk = s.envBlk := rfl
@[simp] theorem State.setAl_envNotify (s : State) (ch : Nat) (r : AleSt) : (s.setAl ch r).envNotify = s.envNotify := rfl
@[simp] theorem State.setAl_gateEn (s : State) (ch : Nat) (r : AleSt) : (s.setAl ch r).gateEn = s.gateEn := rfl
@[simp] theorem State.setAl_wire (s : State) (ch : Nat) (r : AleSt) : (s.setAl ch r).wire = s.wire := rfl
@[simp] theorem State.setAl_heldPosts (s : State) (ch : Nat) (r : AleSt) : (s.setAl ch r).heldPosts = s.heldPosts := rfl
@[simp] theorem State.setAl_posted (s : State) (ch : Nat) (r : AleSt) : (s.setAl ch r).posted = s.posted := rfl
@[simp] theorem State.setAl_blocked (s : State) (ch : Nat) (r : AleSt) : (s.setAl ch r).blocked = s.blocked := rfl
@[simp] theorem State.setAl_srstBusy (s : State) (ch : Nat) (r : AleSt) : (s.setAl ch r).srstBusy = s.srstBusy := rfl
@[simp] theorem State.setAl_gating (s : State) (ch : Nat) (r : AleSt) : (s.setAl ch r).gating = s.gating := rfl
@[simp] theorem State.setAl_held (s : State) (ch : Nat) (r : AleSt) : (s.setAl ch r).held = s.held := rfl
@[simp] theorem State.setAl_slLocked (s : State) (ch : Nat) (r : AleSt) : (s.setAl ch r).slLocked = s.slLocked := rfl
@[simp] theorem State.setAl_olSealed (s : State) (ch : Nat) (r : AleSt) : (s.setAl ch r).olSealed = s.olSealed := rfl
@[simp] theorem State.setAl_fcNotify (s : State) (ch : Nat) (r : AleSt) : (s.setAl ch r).fcNotify = s.fcNotify := rfl
@[simp] theorem State.setAl_fcStart (s : State) (ch : Nat) (r : AleSt) : (s.setAl ch r).fcStart = s.fcStart := rfl
@[simp] theorem State.setAl_jumpAt (s : State) (ch : Nat) (r : AleSt) : (s.setAl ch r).jumpAt = s.jumpAt := rfl
@[simp] theorem State.setAl_logq (s : State) (ch : Nat) (r : AleSt) : (s.setAl ch r).logq = s.logq := rfl
@[simp] theorem State.setAl_logAt (s : State) (ch : Nat) (r : AleSt) : (s.setAl ch r).logAt = s.logAt := rfl
@[simp] theorem State.setAl_dscrub (s : State) (ch : Nat) (r : AleSt) : (s.setAl ch r).dscrub = s.dscrub := rfl
@[simp] theorem State.setAl_scrubPos (s : State) (ch : Nat) (r : AleSt) : (s.setAl ch r).scrubPos = s.scrubPos := rfl
@[simp] theorem State.setAl_logScanned (s : State) (ch : Nat) (r : AleSt) : (s.setAl ch r).logScanned = s.logScanned := rfl
@[simp] theorem State.setAl_mwq (s : State) (ch : Nat) (r : AleSt) : (s.setAl ch r).mwq = s.mwq := rfl
@[simp] theorem State.setAl_porter (s : State) (ch : Nat) (r : AleSt) : (s.setAl ch r).porter = s.porter := rfl
@[simp] theorem State.setAl_ring (s : State) (ch : Nat) (r : AleSt) : (s.setAl ch r).ring = s.ring := rfl
@[simp] theorem State.setAl_eth (s : State) (ch : Nat) (r : AleSt) : (s.setAl ch r).eth = s.eth := rfl
@[simp] theorem State.setAl_isl (s : State) (ch : Nat) (r : AleSt) : (s.setAl ch r).isl = s.isl := rfl
@[simp] theorem State.setAl_clk (s : State) (ch : Nat) (r : AleSt) : (s.setAl ch r).clk = s.clk := rfl
@[simp] theorem State.setAl_console (s : State) (ch : Nat) (r : AleSt) : (s.setAl ch r).console = s.console := rfl
@[simp] theorem State.setAl_rdata (s : State) (ch : Nat) (r : AleSt) : (s.setAl ch r).rdata = s.rdata := rfl
@[simp] theorem State.setAl_freeN (s : State) (ch : Nat) (r : AleSt) : (s.setAl ch r).freeN = s.freeN := rfl

@[simp] theorem State.setEt_pending (s : State) (e : Nat) (r : EthSt) : (s.setEt e r).pending = s.pending := rfl
@[simp] theorem State.setEt_now (s : State) (e : Nat) (r : EthSt) : (s.setEt e r).now = s.now := rfl
@[simp] theorem State.setEt_cyc (s : State) (e : Nat) (r : EthSt) : (s.setEt e r).cyc = s.cyc := rfl
@[simp] theorem State.setEt_regs (s : State) (e : Nat) (r : EthSt) : (s.setEt e r).regs = s.regs := rfl
@[simp] theorem State.setEt_mem (s : State) (e : Nat) (r : EthSt) : (s.setEt e r).mem = s.mem := rfl
@[simp] theorem State.setEt_crs (s : State) (e : Nat) (r : EthSt) : (s.setEt e r).crs = s.crs := rfl
@[simp] theorem State.setEt_core (s : State) (e : Nat) (r : EthSt) : (s.setEt e r).core = s.core := rfl
@[simp] theorem State.setEt_task (s : State) (e : Nat) (r : EthSt) : (s.setEt e r).task = s.task := rfl
@[simp] theorem State.setEt_innk (s : State) (e : Nat) (r : EthSt) : (s.setEt e r).innk = s.innk := rfl
@[simp] theorem State.setEt_time (s : State) (e : Nat) (r : EthSt) : (s.setEt e r).time = s.time := rfl
@[simp] theorem State.setEt_prism (s : State) (e : Nat) (r : EthSt) : (s.setEt e r).prism = s.prism := rfl
@[simp] theorem State.setEt_prof (s : State) (e : Nat) (r : EthSt) : (s.setEt e r).prof = s.prof := rfl
@[simp] theorem State.setEt_pwm (s : State) (e : Nat) (r : EthSt) : (s.setEt e r).pwm = s.pwm := rfl
@[simp] theorem State.setEt_port (s : State) (e : Nat) (r : EthSt) : (s.setEt e r).port = s.port := rfl
@[simp] theorem State.setEt_fbk (s : State) (e : Nat) (r : EthSt) : (s.setEt e r).fbk = s.fbk := rfl
@[simp] theorem State.setEt_ale (s : State) (e : Nat) (r : EthSt) : (s.setEt e r).ale = s.ale := rfl
@[simp] theorem State.setEt_pipe (s : State) (e : Nat) (r : EthSt) : (s.setEt e r).pipe = s.pipe := rfl
@[simp] theorem State.setEt_stream (s : State) (e : Nat) (r : EthSt) : (s.setEt e r).stream = s.stream := rfl
@[simp] theorem State.setEt_holds (s : State) (e : Nat) (r : EthSt) : (s.setEt e r).holds = s.holds := rfl
@[simp] theorem State.setEt_envBlk (s : State) (e : Nat) (r : EthSt) : (s.setEt e r).envBlk = s.envBlk := rfl
@[simp] theorem State.setEt_envNotify (s : State) (e : Nat) (r : EthSt) : (s.setEt e r).envNotify = s.envNotify := rfl
@[simp] theorem State.setEt_gateEn (s : State) (e : Nat) (r : EthSt) : (s.setEt e r).gateEn = s.gateEn := rfl
@[simp] theorem State.setEt_wire (s : State) (e : Nat) (r : EthSt) : (s.setEt e r).wire = s.wire := rfl
@[simp] theorem State.setEt_heldPosts (s : State) (e : Nat) (r : EthSt) : (s.setEt e r).heldPosts = s.heldPosts := rfl
@[simp] theorem State.setEt_posted (s : State) (e : Nat) (r : EthSt) : (s.setEt e r).posted = s.posted := rfl
@[simp] theorem State.setEt_blocked (s : State) (e : Nat) (r : EthSt) : (s.setEt e r).blocked = s.blocked := rfl
@[simp] theorem State.setEt_srstBusy (s : State) (e : Nat) (r : EthSt) : (s.setEt e r).srstBusy = s.srstBusy := rfl
@[simp] theorem State.setEt_gating (s : State) (e : Nat) (r : EthSt) : (s.setEt e r).gating = s.gating := rfl
@[simp] theorem State.setEt_held (s : State) (e : Nat) (r : EthSt) : (s.setEt e r).held = s.held := rfl
@[simp] theorem State.setEt_slLocked (s : State) (e : Nat) (r : EthSt) : (s.setEt e r).slLocked = s.slLocked := rfl
@[simp] theorem State.setEt_olSealed (s : State) (e : Nat) (r : EthSt) : (s.setEt e r).olSealed = s.olSealed := rfl
@[simp] theorem State.setEt_fcNotify (s : State) (e : Nat) (r : EthSt) : (s.setEt e r).fcNotify = s.fcNotify := rfl
@[simp] theorem State.setEt_fcStart (s : State) (e : Nat) (r : EthSt) : (s.setEt e r).fcStart = s.fcStart := rfl
@[simp] theorem State.setEt_jumpAt (s : State) (e : Nat) (r : EthSt) : (s.setEt e r).jumpAt = s.jumpAt := rfl
@[simp] theorem State.setEt_logq (s : State) (e : Nat) (r : EthSt) : (s.setEt e r).logq = s.logq := rfl
@[simp] theorem State.setEt_logAt (s : State) (e : Nat) (r : EthSt) : (s.setEt e r).logAt = s.logAt := rfl
@[simp] theorem State.setEt_dscrub (s : State) (e : Nat) (r : EthSt) : (s.setEt e r).dscrub = s.dscrub := rfl
@[simp] theorem State.setEt_scrubPos (s : State) (e : Nat) (r : EthSt) : (s.setEt e r).scrubPos = s.scrubPos := rfl
@[simp] theorem State.setEt_logScanned (s : State) (e : Nat) (r : EthSt) : (s.setEt e r).logScanned = s.logScanned := rfl
@[simp] theorem State.setEt_mwq (s : State) (e : Nat) (r : EthSt) : (s.setEt e r).mwq = s.mwq := rfl
@[simp] theorem State.setEt_porter (s : State) (e : Nat) (r : EthSt) : (s.setEt e r).porter = s.porter := rfl
@[simp] theorem State.setEt_ring (s : State) (e : Nat) (r : EthSt) : (s.setEt e r).ring = s.ring := rfl
@[simp] theorem State.setEt_isl (s : State) (e : Nat) (r : EthSt) : (s.setEt e r).isl = s.isl := rfl
@[simp] theorem State.setEt_clk (s : State) (e : Nat) (r : EthSt) : (s.setEt e r).clk = s.clk := rfl
@[simp] theorem State.setEt_console (s : State) (e : Nat) (r : EthSt) : (s.setEt e r).console = s.console := rfl
@[simp] theorem State.setEt_rdata (s : State) (e : Nat) (r : EthSt) : (s.setEt e r).rdata = s.rdata := rfl
@[simp] theorem State.setEt_freeN (s : State) (e : Nat) (r : EthSt) : (s.setEt e r).freeN = s.freeN := rfl

@[simp] theorem State.setPe_pending (s : State) (e : Nat) (r : Option PorterEng) : (s.setPe e r).pending = s.pending := rfl
@[simp] theorem State.setPe_now (s : State) (e : Nat) (r : Option PorterEng) : (s.setPe e r).now = s.now := rfl
@[simp] theorem State.setPe_cyc (s : State) (e : Nat) (r : Option PorterEng) : (s.setPe e r).cyc = s.cyc := rfl
@[simp] theorem State.setPe_regs (s : State) (e : Nat) (r : Option PorterEng) : (s.setPe e r).regs = s.regs := rfl
@[simp] theorem State.setPe_mem (s : State) (e : Nat) (r : Option PorterEng) : (s.setPe e r).mem = s.mem := rfl
@[simp] theorem State.setPe_crs (s : State) (e : Nat) (r : Option PorterEng) : (s.setPe e r).crs = s.crs := rfl
@[simp] theorem State.setPe_core (s : State) (e : Nat) (r : Option PorterEng) : (s.setPe e r).core = s.core := rfl
@[simp] theorem State.setPe_task (s : State) (e : Nat) (r : Option PorterEng) : (s.setPe e r).task = s.task := rfl
@[simp] theorem State.setPe_innk (s : State) (e : Nat) (r : Option PorterEng) : (s.setPe e r).innk = s.innk := rfl
@[simp] theorem State.setPe_time (s : State) (e : Nat) (r : Option PorterEng) : (s.setPe e r).time = s.time := rfl
@[simp] theorem State.setPe_prism (s : State) (e : Nat) (r : Option PorterEng) : (s.setPe e r).prism = s.prism := rfl
@[simp] theorem State.setPe_prof (s : State) (e : Nat) (r : Option PorterEng) : (s.setPe e r).prof = s.prof := rfl
@[simp] theorem State.setPe_pwm (s : State) (e : Nat) (r : Option PorterEng) : (s.setPe e r).pwm = s.pwm := rfl
@[simp] theorem State.setPe_port (s : State) (e : Nat) (r : Option PorterEng) : (s.setPe e r).port = s.port := rfl
@[simp] theorem State.setPe_fbk (s : State) (e : Nat) (r : Option PorterEng) : (s.setPe e r).fbk = s.fbk := rfl
@[simp] theorem State.setPe_ale (s : State) (e : Nat) (r : Option PorterEng) : (s.setPe e r).ale = s.ale := rfl
@[simp] theorem State.setPe_pipe (s : State) (e : Nat) (r : Option PorterEng) : (s.setPe e r).pipe = s.pipe := rfl
@[simp] theorem State.setPe_stream (s : State) (e : Nat) (r : Option PorterEng) : (s.setPe e r).stream = s.stream := rfl
@[simp] theorem State.setPe_holds (s : State) (e : Nat) (r : Option PorterEng) : (s.setPe e r).holds = s.holds := rfl
@[simp] theorem State.setPe_envBlk (s : State) (e : Nat) (r : Option PorterEng) : (s.setPe e r).envBlk = s.envBlk := rfl
@[simp] theorem State.setPe_envNotify (s : State) (e : Nat) (r : Option PorterEng) : (s.setPe e r).envNotify = s.envNotify := rfl
@[simp] theorem State.setPe_gateEn (s : State) (e : Nat) (r : Option PorterEng) : (s.setPe e r).gateEn = s.gateEn := rfl
@[simp] theorem State.setPe_wire (s : State) (e : Nat) (r : Option PorterEng) : (s.setPe e r).wire = s.wire := rfl
@[simp] theorem State.setPe_heldPosts (s : State) (e : Nat) (r : Option PorterEng) : (s.setPe e r).heldPosts = s.heldPosts := rfl
@[simp] theorem State.setPe_posted (s : State) (e : Nat) (r : Option PorterEng) : (s.setPe e r).posted = s.posted := rfl
@[simp] theorem State.setPe_blocked (s : State) (e : Nat) (r : Option PorterEng) : (s.setPe e r).blocked = s.blocked := rfl
@[simp] theorem State.setPe_srstBusy (s : State) (e : Nat) (r : Option PorterEng) : (s.setPe e r).srstBusy = s.srstBusy := rfl
@[simp] theorem State.setPe_gating (s : State) (e : Nat) (r : Option PorterEng) : (s.setPe e r).gating = s.gating := rfl
@[simp] theorem State.setPe_held (s : State) (e : Nat) (r : Option PorterEng) : (s.setPe e r).held = s.held := rfl
@[simp] theorem State.setPe_slLocked (s : State) (e : Nat) (r : Option PorterEng) : (s.setPe e r).slLocked = s.slLocked := rfl
@[simp] theorem State.setPe_olSealed (s : State) (e : Nat) (r : Option PorterEng) : (s.setPe e r).olSealed = s.olSealed := rfl
@[simp] theorem State.setPe_fcNotify (s : State) (e : Nat) (r : Option PorterEng) : (s.setPe e r).fcNotify = s.fcNotify := rfl
@[simp] theorem State.setPe_fcStart (s : State) (e : Nat) (r : Option PorterEng) : (s.setPe e r).fcStart = s.fcStart := rfl
@[simp] theorem State.setPe_jumpAt (s : State) (e : Nat) (r : Option PorterEng) : (s.setPe e r).jumpAt = s.jumpAt := rfl
@[simp] theorem State.setPe_logq (s : State) (e : Nat) (r : Option PorterEng) : (s.setPe e r).logq = s.logq := rfl
@[simp] theorem State.setPe_logAt (s : State) (e : Nat) (r : Option PorterEng) : (s.setPe e r).logAt = s.logAt := rfl
@[simp] theorem State.setPe_dscrub (s : State) (e : Nat) (r : Option PorterEng) : (s.setPe e r).dscrub = s.dscrub := rfl
@[simp] theorem State.setPe_scrubPos (s : State) (e : Nat) (r : Option PorterEng) : (s.setPe e r).scrubPos = s.scrubPos := rfl
@[simp] theorem State.setPe_logScanned (s : State) (e : Nat) (r : Option PorterEng) : (s.setPe e r).logScanned = s.logScanned := rfl
@[simp] theorem State.setPe_mwq (s : State) (e : Nat) (r : Option PorterEng) : (s.setPe e r).mwq = s.mwq := rfl
@[simp] theorem State.setPe_ring (s : State) (e : Nat) (r : Option PorterEng) : (s.setPe e r).ring = s.ring := rfl
@[simp] theorem State.setPe_eth (s : State) (e : Nat) (r : Option PorterEng) : (s.setPe e r).eth = s.eth := rfl
@[simp] theorem State.setPe_isl (s : State) (e : Nat) (r : Option PorterEng) : (s.setPe e r).isl = s.isl := rfl
@[simp] theorem State.setPe_clk (s : State) (e : Nat) (r : Option PorterEng) : (s.setPe e r).clk = s.clk := rfl
@[simp] theorem State.setPe_console (s : State) (e : Nat) (r : Option PorterEng) : (s.setPe e r).console = s.console := rfl
@[simp] theorem State.setPe_rdata (s : State) (e : Nat) (r : Option PorterEng) : (s.setPe e r).rdata = s.rdata := rfl
@[simp] theorem State.setPe_freeN (s : State) (e : Nat) (r : Option PorterEng) : (s.setPe e r).freeN = s.freeN := rfl

@[simp] theorem State.setIc_pending (s : State) (ch : Nat) (r : IslCh) : (s.setIc ch r).pending = s.pending := rfl
@[simp] theorem State.setIc_now (s : State) (ch : Nat) (r : IslCh) : (s.setIc ch r).now = s.now := rfl
@[simp] theorem State.setIc_cyc (s : State) (ch : Nat) (r : IslCh) : (s.setIc ch r).cyc = s.cyc := rfl
@[simp] theorem State.setIc_regs (s : State) (ch : Nat) (r : IslCh) : (s.setIc ch r).regs = s.regs := rfl
@[simp] theorem State.setIc_mem (s : State) (ch : Nat) (r : IslCh) : (s.setIc ch r).mem = s.mem := rfl
@[simp] theorem State.setIc_crs (s : State) (ch : Nat) (r : IslCh) : (s.setIc ch r).crs = s.crs := rfl
@[simp] theorem State.setIc_core (s : State) (ch : Nat) (r : IslCh) : (s.setIc ch r).core = s.core := rfl
@[simp] theorem State.setIc_task (s : State) (ch : Nat) (r : IslCh) : (s.setIc ch r).task = s.task := rfl
@[simp] theorem State.setIc_innk (s : State) (ch : Nat) (r : IslCh) : (s.setIc ch r).innk = s.innk := rfl
@[simp] theorem State.setIc_time (s : State) (ch : Nat) (r : IslCh) : (s.setIc ch r).time = s.time := rfl
@[simp] theorem State.setIc_prism (s : State) (ch : Nat) (r : IslCh) : (s.setIc ch r).prism = s.prism := rfl
@[simp] theorem State.setIc_prof (s : State) (ch : Nat) (r : IslCh) : (s.setIc ch r).prof = s.prof := rfl
@[simp] theorem State.setIc_pwm (s : State) (ch : Nat) (r : IslCh) : (s.setIc ch r).pwm = s.pwm := rfl
@[simp] theorem State.setIc_port (s : State) (ch : Nat) (r : IslCh) : (s.setIc ch r).port = s.port := rfl
@[simp] theorem State.setIc_fbk (s : State) (ch : Nat) (r : IslCh) : (s.setIc ch r).fbk = s.fbk := rfl
@[simp] theorem State.setIc_ale (s : State) (ch : Nat) (r : IslCh) : (s.setIc ch r).ale = s.ale := rfl
@[simp] theorem State.setIc_pipe (s : State) (ch : Nat) (r : IslCh) : (s.setIc ch r).pipe = s.pipe := rfl
@[simp] theorem State.setIc_stream (s : State) (ch : Nat) (r : IslCh) : (s.setIc ch r).stream = s.stream := rfl
@[simp] theorem State.setIc_holds (s : State) (ch : Nat) (r : IslCh) : (s.setIc ch r).holds = s.holds := rfl
@[simp] theorem State.setIc_envBlk (s : State) (ch : Nat) (r : IslCh) : (s.setIc ch r).envBlk = s.envBlk := rfl
@[simp] theorem State.setIc_envNotify (s : State) (ch : Nat) (r : IslCh) : (s.setIc ch r).envNotify = s.envNotify := rfl
@[simp] theorem State.setIc_gateEn (s : State) (ch : Nat) (r : IslCh) : (s.setIc ch r).gateEn = s.gateEn := rfl
@[simp] theorem State.setIc_wire (s : State) (ch : Nat) (r : IslCh) : (s.setIc ch r).wire = s.wire := rfl
@[simp] theorem State.setIc_heldPosts (s : State) (ch : Nat) (r : IslCh) : (s.setIc ch r).heldPosts = s.heldPosts := rfl
@[simp] theorem State.setIc_posted (s : State) (ch : Nat) (r : IslCh) : (s.setIc ch r).posted = s.posted := rfl
@[simp] theorem State.setIc_blocked (s : State) (ch : Nat) (r : IslCh) : (s.setIc ch r).blocked = s.blocked := rfl
@[simp] theorem State.setIc_srstBusy (s : State) (ch : Nat) (r : IslCh) : (s.setIc ch r).srstBusy = s.srstBusy := rfl
@[simp] theorem State.setIc_gating (s : State) (ch : Nat) (r : IslCh) : (s.setIc ch r).gating = s.gating := rfl
@[simp] theorem State.setIc_held (s : State) (ch : Nat) (r : IslCh) : (s.setIc ch r).held = s.held := rfl
@[simp] theorem State.setIc_slLocked (s : State) (ch : Nat) (r : IslCh) : (s.setIc ch r).slLocked = s.slLocked := rfl
@[simp] theorem State.setIc_olSealed (s : State) (ch : Nat) (r : IslCh) : (s.setIc ch r).olSealed = s.olSealed := rfl
@[simp] theorem State.setIc_fcNotify (s : State) (ch : Nat) (r : IslCh) : (s.setIc ch r).fcNotify = s.fcNotify := rfl
@[simp] theorem State.setIc_fcStart (s : State) (ch : Nat) (r : IslCh) : (s.setIc ch r).fcStart = s.fcStart := rfl
@[simp] theorem State.setIc_jumpAt (s : State) (ch : Nat) (r : IslCh) : (s.setIc ch r).jumpAt = s.jumpAt := rfl
@[simp] theorem State.setIc_logq (s : State) (ch : Nat) (r : IslCh) : (s.setIc ch r).logq = s.logq := rfl
@[simp] theorem State.setIc_logAt (s : State) (ch : Nat) (r : IslCh) : (s.setIc ch r).logAt = s.logAt := rfl
@[simp] theorem State.setIc_dscrub (s : State) (ch : Nat) (r : IslCh) : (s.setIc ch r).dscrub = s.dscrub := rfl
@[simp] theorem State.setIc_scrubPos (s : State) (ch : Nat) (r : IslCh) : (s.setIc ch r).scrubPos = s.scrubPos := rfl
@[simp] theorem State.setIc_logScanned (s : State) (ch : Nat) (r : IslCh) : (s.setIc ch r).logScanned = s.logScanned := rfl
@[simp] theorem State.setIc_mwq (s : State) (ch : Nat) (r : IslCh) : (s.setIc ch r).mwq = s.mwq := rfl
@[simp] theorem State.setIc_porter (s : State) (ch : Nat) (r : IslCh) : (s.setIc ch r).porter = s.porter := rfl
@[simp] theorem State.setIc_ring (s : State) (ch : Nat) (r : IslCh) : (s.setIc ch r).ring = s.ring := rfl
@[simp] theorem State.setIc_eth (s : State) (ch : Nat) (r : IslCh) : (s.setIc ch r).eth = s.eth := rfl
@[simp] theorem State.setIc_clk (s : State) (ch : Nat) (r : IslCh) : (s.setIc ch r).clk = s.clk := rfl
@[simp] theorem State.setIc_console (s : State) (ch : Nat) (r : IslCh) : (s.setIc ch r).console = s.console := rfl
@[simp] theorem State.setIc_rdata (s : State) (ch : Nat) (r : IslCh) : (s.setIc ch r).rdata = s.rdata := rfl
@[simp] theorem State.setIc_freeN (s : State) (ch : Nat) (r : IslCh) : (s.setIc ch r).freeN = s.freeN := rfl

@[simp] theorem State.setIp_pending (s : State) (p : Nat) (r : IslPort) : (s.setIp p r).pending = s.pending := rfl
@[simp] theorem State.setIp_now (s : State) (p : Nat) (r : IslPort) : (s.setIp p r).now = s.now := rfl
@[simp] theorem State.setIp_cyc (s : State) (p : Nat) (r : IslPort) : (s.setIp p r).cyc = s.cyc := rfl
@[simp] theorem State.setIp_regs (s : State) (p : Nat) (r : IslPort) : (s.setIp p r).regs = s.regs := rfl
@[simp] theorem State.setIp_mem (s : State) (p : Nat) (r : IslPort) : (s.setIp p r).mem = s.mem := rfl
@[simp] theorem State.setIp_crs (s : State) (p : Nat) (r : IslPort) : (s.setIp p r).crs = s.crs := rfl
@[simp] theorem State.setIp_core (s : State) (p : Nat) (r : IslPort) : (s.setIp p r).core = s.core := rfl
@[simp] theorem State.setIp_task (s : State) (p : Nat) (r : IslPort) : (s.setIp p r).task = s.task := rfl
@[simp] theorem State.setIp_innk (s : State) (p : Nat) (r : IslPort) : (s.setIp p r).innk = s.innk := rfl
@[simp] theorem State.setIp_time (s : State) (p : Nat) (r : IslPort) : (s.setIp p r).time = s.time := rfl
@[simp] theorem State.setIp_prism (s : State) (p : Nat) (r : IslPort) : (s.setIp p r).prism = s.prism := rfl
@[simp] theorem State.setIp_prof (s : State) (p : Nat) (r : IslPort) : (s.setIp p r).prof = s.prof := rfl
@[simp] theorem State.setIp_pwm (s : State) (p : Nat) (r : IslPort) : (s.setIp p r).pwm = s.pwm := rfl
@[simp] theorem State.setIp_port (s : State) (p : Nat) (r : IslPort) : (s.setIp p r).port = s.port := rfl
@[simp] theorem State.setIp_fbk (s : State) (p : Nat) (r : IslPort) : (s.setIp p r).fbk = s.fbk := rfl
@[simp] theorem State.setIp_ale (s : State) (p : Nat) (r : IslPort) : (s.setIp p r).ale = s.ale := rfl
@[simp] theorem State.setIp_pipe (s : State) (p : Nat) (r : IslPort) : (s.setIp p r).pipe = s.pipe := rfl
@[simp] theorem State.setIp_stream (s : State) (p : Nat) (r : IslPort) : (s.setIp p r).stream = s.stream := rfl
@[simp] theorem State.setIp_holds (s : State) (p : Nat) (r : IslPort) : (s.setIp p r).holds = s.holds := rfl
@[simp] theorem State.setIp_envBlk (s : State) (p : Nat) (r : IslPort) : (s.setIp p r).envBlk = s.envBlk := rfl
@[simp] theorem State.setIp_envNotify (s : State) (p : Nat) (r : IslPort) : (s.setIp p r).envNotify = s.envNotify := rfl
@[simp] theorem State.setIp_gateEn (s : State) (p : Nat) (r : IslPort) : (s.setIp p r).gateEn = s.gateEn := rfl
@[simp] theorem State.setIp_wire (s : State) (p : Nat) (r : IslPort) : (s.setIp p r).wire = s.wire := rfl
@[simp] theorem State.setIp_heldPosts (s : State) (p : Nat) (r : IslPort) : (s.setIp p r).heldPosts = s.heldPosts := rfl
@[simp] theorem State.setIp_posted (s : State) (p : Nat) (r : IslPort) : (s.setIp p r).posted = s.posted := rfl
@[simp] theorem State.setIp_blocked (s : State) (p : Nat) (r : IslPort) : (s.setIp p r).blocked = s.blocked := rfl
@[simp] theorem State.setIp_srstBusy (s : State) (p : Nat) (r : IslPort) : (s.setIp p r).srstBusy = s.srstBusy := rfl
@[simp] theorem State.setIp_gating (s : State) (p : Nat) (r : IslPort) : (s.setIp p r).gating = s.gating := rfl
@[simp] theorem State.setIp_held (s : State) (p : Nat) (r : IslPort) : (s.setIp p r).held = s.held := rfl
@[simp] theorem State.setIp_slLocked (s : State) (p : Nat) (r : IslPort) : (s.setIp p r).slLocked = s.slLocked := rfl
@[simp] theorem State.setIp_olSealed (s : State) (p : Nat) (r : IslPort) : (s.setIp p r).olSealed = s.olSealed := rfl
@[simp] theorem State.setIp_fcNotify (s : State) (p : Nat) (r : IslPort) : (s.setIp p r).fcNotify = s.fcNotify := rfl
@[simp] theorem State.setIp_fcStart (s : State) (p : Nat) (r : IslPort) : (s.setIp p r).fcStart = s.fcStart := rfl
@[simp] theorem State.setIp_jumpAt (s : State) (p : Nat) (r : IslPort) : (s.setIp p r).jumpAt = s.jumpAt := rfl
@[simp] theorem State.setIp_logq (s : State) (p : Nat) (r : IslPort) : (s.setIp p r).logq = s.logq := rfl
@[simp] theorem State.setIp_logAt (s : State) (p : Nat) (r : IslPort) : (s.setIp p r).logAt = s.logAt := rfl
@[simp] theorem State.setIp_dscrub (s : State) (p : Nat) (r : IslPort) : (s.setIp p r).dscrub = s.dscrub := rfl
@[simp] theorem State.setIp_scrubPos (s : State) (p : Nat) (r : IslPort) : (s.setIp p r).scrubPos = s.scrubPos := rfl
@[simp] theorem State.setIp_logScanned (s : State) (p : Nat) (r : IslPort) : (s.setIp p r).logScanned = s.logScanned := rfl
@[simp] theorem State.setIp_mwq (s : State) (p : Nat) (r : IslPort) : (s.setIp p r).mwq = s.mwq := rfl
@[simp] theorem State.setIp_porter (s : State) (p : Nat) (r : IslPort) : (s.setIp p r).porter = s.porter := rfl
@[simp] theorem State.setIp_ring (s : State) (p : Nat) (r : IslPort) : (s.setIp p r).ring = s.ring := rfl
@[simp] theorem State.setIp_eth (s : State) (p : Nat) (r : IslPort) : (s.setIp p r).eth = s.eth := rfl
@[simp] theorem State.setIp_clk (s : State) (p : Nat) (r : IslPort) : (s.setIp p r).clk = s.clk := rfl
@[simp] theorem State.setIp_console (s : State) (p : Nat) (r : IslPort) : (s.setIp p r).console = s.console := rfl
@[simp] theorem State.setIp_rdata (s : State) (p : Nat) (r : IslPort) : (s.setIp p r).rdata = s.rdata := rfl
@[simp] theorem State.setIp_freeN (s : State) (p : Nat) (r : IslPort) : (s.setIp p r).freeN = s.freeN := rfl

@[simp] theorem State.setCnt_pending (s : State) (b v : Nat) : (s.setCnt b v).pending = s.pending := rfl
@[simp] theorem State.setCnt_now (s : State) (b v : Nat) : (s.setCnt b v).now = s.now := rfl
@[simp] theorem State.setCnt_cyc (s : State) (b v : Nat) : (s.setCnt b v).cyc = s.cyc := rfl
@[simp] theorem State.setCnt_regs (s : State) (b v : Nat) : (s.setCnt b v).regs = s.regs := rfl
@[simp] theorem State.setCnt_mem (s : State) (b v : Nat) : (s.setCnt b v).mem = s.mem := rfl
@[simp] theorem State.setCnt_crs (s : State) (b v : Nat) : (s.setCnt b v).crs = s.crs := rfl
@[simp] theorem State.setCnt_core (s : State) (b v : Nat) : (s.setCnt b v).core = s.core := rfl
@[simp] theorem State.setCnt_task (s : State) (b v : Nat) : (s.setCnt b v).task = s.task := rfl
@[simp] theorem State.setCnt_innk (s : State) (b v : Nat) : (s.setCnt b v).innk = s.innk := rfl
@[simp] theorem State.setCnt_prism (s : State) (b v : Nat) : (s.setCnt b v).prism = s.prism := rfl
@[simp] theorem State.setCnt_prof (s : State) (b v : Nat) : (s.setCnt b v).prof = s.prof := rfl
@[simp] theorem State.setCnt_pwm (s : State) (b v : Nat) : (s.setCnt b v).pwm = s.pwm := rfl
@[simp] theorem State.setCnt_port (s : State) (b v : Nat) : (s.setCnt b v).port = s.port := rfl
@[simp] theorem State.setCnt_fbk (s : State) (b v : Nat) : (s.setCnt b v).fbk = s.fbk := rfl
@[simp] theorem State.setCnt_ale (s : State) (b v : Nat) : (s.setCnt b v).ale = s.ale := rfl
@[simp] theorem State.setCnt_pipe (s : State) (b v : Nat) : (s.setCnt b v).pipe = s.pipe := rfl
@[simp] theorem State.setCnt_stream (s : State) (b v : Nat) : (s.setCnt b v).stream = s.stream := rfl
@[simp] theorem State.setCnt_holds (s : State) (b v : Nat) : (s.setCnt b v).holds = s.holds := rfl
@[simp] theorem State.setCnt_envBlk (s : State) (b v : Nat) : (s.setCnt b v).envBlk = s.envBlk := rfl
@[simp] theorem State.setCnt_envNotify (s : State) (b v : Nat) : (s.setCnt b v).envNotify = s.envNotify := rfl
@[simp] theorem State.setCnt_gateEn (s : State) (b v : Nat) : (s.setCnt b v).gateEn = s.gateEn := rfl
@[simp] theorem State.setCnt_wire (s : State) (b v : Nat) : (s.setCnt b v).wire = s.wire := rfl
@[simp] theorem State.setCnt_heldPosts (s : State) (b v : Nat) : (s.setCnt b v).heldPosts = s.heldPosts := rfl
@[simp] theorem State.setCnt_posted (s : State) (b v : Nat) : (s.setCnt b v).posted = s.posted := rfl
@[simp] theorem State.setCnt_blocked (s : State) (b v : Nat) : (s.setCnt b v).blocked = s.blocked := rfl
@[simp] theorem State.setCnt_srstBusy (s : State) (b v : Nat) : (s.setCnt b v).srstBusy = s.srstBusy := rfl
@[simp] theorem State.setCnt_gating (s : State) (b v : Nat) : (s.setCnt b v).gating = s.gating := rfl
@[simp] theorem State.setCnt_held (s : State) (b v : Nat) : (s.setCnt b v).held = s.held := rfl
@[simp] theorem State.setCnt_slLocked (s : State) (b v : Nat) : (s.setCnt b v).slLocked = s.slLocked := rfl
@[simp] theorem State.setCnt_olSealed (s : State) (b v : Nat) : (s.setCnt b v).olSealed = s.olSealed := rfl
@[simp] theorem State.setCnt_fcNotify (s : State) (b v : Nat) : (s.setCnt b v).fcNotify = s.fcNotify := rfl
@[simp] theorem State.setCnt_fcStart (s : State) (b v : Nat) : (s.setCnt b v).fcStart = s.fcStart := rfl
@[simp] theorem State.setCnt_jumpAt (s : State) (b v : Nat) : (s.setCnt b v).jumpAt = s.jumpAt := rfl
@[simp] theorem State.setCnt_logq (s : State) (b v : Nat) : (s.setCnt b v).logq = s.logq := rfl
@[simp] theorem State.setCnt_logAt (s : State) (b v : Nat) : (s.setCnt b v).logAt = s.logAt := rfl
@[simp] theorem State.setCnt_dscrub (s : State) (b v : Nat) : (s.setCnt b v).dscrub = s.dscrub := rfl
@[simp] theorem State.setCnt_scrubPos (s : State) (b v : Nat) : (s.setCnt b v).scrubPos = s.scrubPos := rfl
@[simp] theorem State.setCnt_logScanned (s : State) (b v : Nat) : (s.setCnt b v).logScanned = s.logScanned := rfl
@[simp] theorem State.setCnt_mwq (s : State) (b v : Nat) : (s.setCnt b v).mwq = s.mwq := rfl
@[simp] theorem State.setCnt_porter (s : State) (b v : Nat) : (s.setCnt b v).porter = s.porter := rfl
@[simp] theorem State.setCnt_ring (s : State) (b v : Nat) : (s.setCnt b v).ring = s.ring := rfl
@[simp] theorem State.setCnt_eth (s : State) (b v : Nat) : (s.setCnt b v).eth = s.eth := rfl
@[simp] theorem State.setCnt_isl (s : State) (b v : Nat) : (s.setCnt b v).isl = s.isl := rfl
@[simp] theorem State.setCnt_clk (s : State) (b v : Nat) : (s.setCnt b v).clk = s.clk := rfl
@[simp] theorem State.setCnt_console (s : State) (b v : Nat) : (s.setCnt b v).console = s.console := rfl
@[simp] theorem State.setCnt_rdata (s : State) (b v : Nat) : (s.setCnt b v).rdata = s.rdata := rfl
@[simp] theorem State.setCnt_freeN (s : State) (b v : Nat) : (s.setCnt b v).freeN = s.freeN := rfl

@[simp] theorem State.holdSet_pending (s : State) (core kind a : Nat) (l : List Word) : (s.holdSet core kind a l).pending = s.pending := rfl
@[simp] theorem State.holdSet_now (s : State) (core kind a : Nat) (l : List Word) : (s.holdSet core kind a l).now = s.now := rfl
@[simp] theorem State.holdSet_cyc (s : State) (core kind a : Nat) (l : List Word) : (s.holdSet core kind a l).cyc = s.cyc := rfl
@[simp] theorem State.holdSet_regs (s : State) (core kind a : Nat) (l : List Word) : (s.holdSet core kind a l).regs = s.regs := rfl
@[simp] theorem State.holdSet_mem (s : State) (core kind a : Nat) (l : List Word) : (s.holdSet core kind a l).mem = s.mem := rfl
@[simp] theorem State.holdSet_crs (s : State) (core kind a : Nat) (l : List Word) : (s.holdSet core kind a l).crs = s.crs := rfl
@[simp] theorem State.holdSet_core (s : State) (core kind a : Nat) (l : List Word) : (s.holdSet core kind a l).core = s.core := rfl
@[simp] theorem State.holdSet_task (s : State) (core kind a : Nat) (l : List Word) : (s.holdSet core kind a l).task = s.task := rfl
@[simp] theorem State.holdSet_innk (s : State) (core kind a : Nat) (l : List Word) : (s.holdSet core kind a l).innk = s.innk := rfl
@[simp] theorem State.holdSet_time (s : State) (core kind a : Nat) (l : List Word) : (s.holdSet core kind a l).time = s.time := rfl
@[simp] theorem State.holdSet_prism (s : State) (core kind a : Nat) (l : List Word) : (s.holdSet core kind a l).prism = s.prism := rfl
@[simp] theorem State.holdSet_prof (s : State) (core kind a : Nat) (l : List Word) : (s.holdSet core kind a l).prof = s.prof := rfl
@[simp] theorem State.holdSet_pwm (s : State) (core kind a : Nat) (l : List Word) : (s.holdSet core kind a l).pwm = s.pwm := rfl
@[simp] theorem State.holdSet_port (s : State) (core kind a : Nat) (l : List Word) : (s.holdSet core kind a l).port = s.port := rfl
@[simp] theorem State.holdSet_fbk (s : State) (core kind a : Nat) (l : List Word) : (s.holdSet core kind a l).fbk = s.fbk := rfl
@[simp] theorem State.holdSet_ale (s : State) (core kind a : Nat) (l : List Word) : (s.holdSet core kind a l).ale = s.ale := rfl
@[simp] theorem State.holdSet_pipe (s : State) (core kind a : Nat) (l : List Word) : (s.holdSet core kind a l).pipe = s.pipe := rfl
@[simp] theorem State.holdSet_stream (s : State) (core kind a : Nat) (l : List Word) : (s.holdSet core kind a l).stream = s.stream := rfl
@[simp] theorem State.holdSet_envBlk (s : State) (core kind a : Nat) (l : List Word) : (s.holdSet core kind a l).envBlk = s.envBlk := rfl
@[simp] theorem State.holdSet_envNotify (s : State) (core kind a : Nat) (l : List Word) : (s.holdSet core kind a l).envNotify = s.envNotify := rfl
@[simp] theorem State.holdSet_gateEn (s : State) (core kind a : Nat) (l : List Word) : (s.holdSet core kind a l).gateEn = s.gateEn := rfl
@[simp] theorem State.holdSet_wire (s : State) (core kind a : Nat) (l : List Word) : (s.holdSet core kind a l).wire = s.wire := rfl
@[simp] theorem State.holdSet_heldPosts (s : State) (core kind a : Nat) (l : List Word) : (s.holdSet core kind a l).heldPosts = s.heldPosts := rfl
@[simp] theorem State.holdSet_posted (s : State) (core kind a : Nat) (l : List Word) : (s.holdSet core kind a l).posted = s.posted := rfl
@[simp] theorem State.holdSet_blocked (s : State) (core kind a : Nat) (l : List Word) : (s.holdSet core kind a l).blocked = s.blocked := rfl
@[simp] theorem State.holdSet_srstBusy (s : State) (core kind a : Nat) (l : List Word) : (s.holdSet core kind a l).srstBusy = s.srstBusy := rfl
@[simp] theorem State.holdSet_gating (s : State) (core kind a : Nat) (l : List Word) : (s.holdSet core kind a l).gating = s.gating := rfl
@[simp] theorem State.holdSet_held (s : State) (core kind a : Nat) (l : List Word) : (s.holdSet core kind a l).held = s.held := rfl
@[simp] theorem State.holdSet_slLocked (s : State) (core kind a : Nat) (l : List Word) : (s.holdSet core kind a l).slLocked = s.slLocked := rfl
@[simp] theorem State.holdSet_olSealed (s : State) (core kind a : Nat) (l : List Word) : (s.holdSet core kind a l).olSealed = s.olSealed := rfl
@[simp] theorem State.holdSet_fcNotify (s : State) (core kind a : Nat) (l : List Word) : (s.holdSet core kind a l).fcNotify = s.fcNotify := rfl
@[simp] theorem State.holdSet_fcStart (s : State) (core kind a : Nat) (l : List Word) : (s.holdSet core kind a l).fcStart = s.fcStart := rfl
@[simp] theorem State.holdSet_jumpAt (s : State) (core kind a : Nat) (l : List Word) : (s.holdSet core kind a l).jumpAt = s.jumpAt := rfl
@[simp] theorem State.holdSet_logq (s : State) (core kind a : Nat) (l : List Word) : (s.holdSet core kind a l).logq = s.logq := rfl
@[simp] theorem State.holdSet_logAt (s : State) (core kind a : Nat) (l : List Word) : (s.holdSet core kind a l).logAt = s.logAt := rfl
@[simp] theorem State.holdSet_dscrub (s : State) (core kind a : Nat) (l : List Word) : (s.holdSet core kind a l).dscrub = s.dscrub := rfl
@[simp] theorem State.holdSet_scrubPos (s : State) (core kind a : Nat) (l : List Word) : (s.holdSet core kind a l).scrubPos = s.scrubPos := rfl
@[simp] theorem State.holdSet_logScanned (s : State) (core kind a : Nat) (l : List Word) : (s.holdSet core kind a l).logScanned = s.logScanned := rfl
@[simp] theorem State.holdSet_mwq (s : State) (core kind a : Nat) (l : List Word) : (s.holdSet core kind a l).mwq = s.mwq := rfl
@[simp] theorem State.holdSet_porter (s : State) (core kind a : Nat) (l : List Word) : (s.holdSet core kind a l).porter = s.porter := rfl
@[simp] theorem State.holdSet_ring (s : State) (core kind a : Nat) (l : List Word) : (s.holdSet core kind a l).ring = s.ring := rfl
@[simp] theorem State.holdSet_eth (s : State) (core kind a : Nat) (l : List Word) : (s.holdSet core kind a l).eth = s.eth := rfl
@[simp] theorem State.holdSet_isl (s : State) (core kind a : Nat) (l : List Word) : (s.holdSet core kind a l).isl = s.isl := rfl
@[simp] theorem State.holdSet_clk (s : State) (core kind a : Nat) (l : List Word) : (s.holdSet core kind a l).clk = s.clk := rfl
@[simp] theorem State.holdSet_console (s : State) (core kind a : Nat) (l : List Word) : (s.holdSet core kind a l).console = s.console := rfl
@[simp] theorem State.holdSet_rdata (s : State) (core kind a : Nat) (l : List Word) : (s.holdSet core kind a l).rdata = s.rdata := rfl
@[simp] theorem State.holdSet_freeN (s : State) (core kind a : Nat) (l : List Word) : (s.holdSet core kind a l).freeN = s.freeN := rfl

@[simp] theorem State.holdDrop_pending (s : State) (core kind : Nat) : (s.holdDrop core kind).pending = s.pending := rfl
@[simp] theorem State.holdDrop_now (s : State) (core kind : Nat) : (s.holdDrop core kind).now = s.now := rfl
@[simp] theorem State.holdDrop_cyc (s : State) (core kind : Nat) : (s.holdDrop core kind).cyc = s.cyc := rfl
@[simp] theorem State.holdDrop_regs (s : State) (core kind : Nat) : (s.holdDrop core kind).regs = s.regs := rfl
@[simp] theorem State.holdDrop_mem (s : State) (core kind : Nat) : (s.holdDrop core kind).mem = s.mem := rfl
@[simp] theorem State.holdDrop_crs (s : State) (core kind : Nat) : (s.holdDrop core kind).crs = s.crs := rfl
@[simp] theorem State.holdDrop_core (s : State) (core kind : Nat) : (s.holdDrop core kind).core = s.core := rfl
@[simp] theorem State.holdDrop_task (s : State) (core kind : Nat) : (s.holdDrop core kind).task = s.task := rfl
@[simp] theorem State.holdDrop_innk (s : State) (core kind : Nat) : (s.holdDrop core kind).innk = s.innk := rfl
@[simp] theorem State.holdDrop_time (s : State) (core kind : Nat) : (s.holdDrop core kind).time = s.time := rfl
@[simp] theorem State.holdDrop_prism (s : State) (core kind : Nat) : (s.holdDrop core kind).prism = s.prism := rfl
@[simp] theorem State.holdDrop_prof (s : State) (core kind : Nat) : (s.holdDrop core kind).prof = s.prof := rfl
@[simp] theorem State.holdDrop_pwm (s : State) (core kind : Nat) : (s.holdDrop core kind).pwm = s.pwm := rfl
@[simp] theorem State.holdDrop_port (s : State) (core kind : Nat) : (s.holdDrop core kind).port = s.port := rfl
@[simp] theorem State.holdDrop_fbk (s : State) (core kind : Nat) : (s.holdDrop core kind).fbk = s.fbk := rfl
@[simp] theorem State.holdDrop_ale (s : State) (core kind : Nat) : (s.holdDrop core kind).ale = s.ale := rfl
@[simp] theorem State.holdDrop_pipe (s : State) (core kind : Nat) : (s.holdDrop core kind).pipe = s.pipe := rfl
@[simp] theorem State.holdDrop_stream (s : State) (core kind : Nat) : (s.holdDrop core kind).stream = s.stream := rfl
@[simp] theorem State.holdDrop_envBlk (s : State) (core kind : Nat) : (s.holdDrop core kind).envBlk = s.envBlk := rfl
@[simp] theorem State.holdDrop_envNotify (s : State) (core kind : Nat) : (s.holdDrop core kind).envNotify = s.envNotify := rfl
@[simp] theorem State.holdDrop_gateEn (s : State) (core kind : Nat) : (s.holdDrop core kind).gateEn = s.gateEn := rfl
@[simp] theorem State.holdDrop_wire (s : State) (core kind : Nat) : (s.holdDrop core kind).wire = s.wire := rfl
@[simp] theorem State.holdDrop_heldPosts (s : State) (core kind : Nat) : (s.holdDrop core kind).heldPosts = s.heldPosts := rfl
@[simp] theorem State.holdDrop_posted (s : State) (core kind : Nat) : (s.holdDrop core kind).posted = s.posted := rfl
@[simp] theorem State.holdDrop_blocked (s : State) (core kind : Nat) : (s.holdDrop core kind).blocked = s.blocked := rfl
@[simp] theorem State.holdDrop_srstBusy (s : State) (core kind : Nat) : (s.holdDrop core kind).srstBusy = s.srstBusy := rfl
@[simp] theorem State.holdDrop_gating (s : State) (core kind : Nat) : (s.holdDrop core kind).gating = s.gating := rfl
@[simp] theorem State.holdDrop_held (s : State) (core kind : Nat) : (s.holdDrop core kind).held = s.held := rfl
@[simp] theorem State.holdDrop_slLocked (s : State) (core kind : Nat) : (s.holdDrop core kind).slLocked = s.slLocked := rfl
@[simp] theorem State.holdDrop_olSealed (s : State) (core kind : Nat) : (s.holdDrop core kind).olSealed = s.olSealed := rfl
@[simp] theorem State.holdDrop_fcNotify (s : State) (core kind : Nat) : (s.holdDrop core kind).fcNotify = s.fcNotify := rfl
@[simp] theorem State.holdDrop_fcStart (s : State) (core kind : Nat) : (s.holdDrop core kind).fcStart = s.fcStart := rfl
@[simp] theorem State.holdDrop_jumpAt (s : State) (core kind : Nat) : (s.holdDrop core kind).jumpAt = s.jumpAt := rfl
@[simp] theorem State.holdDrop_logq (s : State) (core kind : Nat) : (s.holdDrop core kind).logq = s.logq := rfl
@[simp] theorem State.holdDrop_logAt (s : State) (core kind : Nat) : (s.holdDrop core kind).logAt = s.logAt := rfl
@[simp] theorem State.holdDrop_dscrub (s : State) (core kind : Nat) : (s.holdDrop core kind).dscrub = s.dscrub := rfl
@[simp] theorem State.holdDrop_scrubPos (s : State) (core kind : Nat) : (s.holdDrop core kind).scrubPos = s.scrubPos := rfl
@[simp] theorem State.holdDrop_logScanned (s : State) (core kind : Nat) : (s.holdDrop core kind).logScanned = s.logScanned := rfl
@[simp] theorem State.holdDrop_mwq (s : State) (core kind : Nat) : (s.holdDrop core kind).mwq = s.mwq := rfl
@[simp] theorem State.holdDrop_porter (s : State) (core kind : Nat) : (s.holdDrop core kind).porter = s.porter := rfl
@[simp] theorem State.holdDrop_ring (s : State) (core kind : Nat) : (s.holdDrop core kind).ring = s.ring := rfl
@[simp] theorem State.holdDrop_eth (s : State) (core kind : Nat) : (s.holdDrop core kind).eth = s.eth := rfl
@[simp] theorem State.holdDrop_isl (s : State) (core kind : Nat) : (s.holdDrop core kind).isl = s.isl := rfl
@[simp] theorem State.holdDrop_clk (s : State) (core kind : Nat) : (s.holdDrop core kind).clk = s.clk := rfl
@[simp] theorem State.holdDrop_console (s : State) (core kind : Nat) : (s.holdDrop core kind).console = s.console := rfl
@[simp] theorem State.holdDrop_rdata (s : State) (core kind : Nat) : (s.holdDrop core kind).rdata = s.rdata := rfl
@[simp] theorem State.holdDrop_freeN (s : State) (core kind : Nat) : (s.holdDrop core kind).freeN = s.freeN := rfl

@[simp] theorem State.setTarget_pending (s : State) (d : Nat) (t : Option Nat) : (s.setTarget d t).pending = s.pending := rfl
@[simp] theorem State.setTarget_now (s : State) (d : Nat) (t : Option Nat) : (s.setTarget d t).now = s.now := rfl
@[simp] theorem State.setTarget_cyc (s : State) (d : Nat) (t : Option Nat) : (s.setTarget d t).cyc = s.cyc := rfl
@[simp] theorem State.setTarget_regs (s : State) (d : Nat) (t : Option Nat) : (s.setTarget d t).regs = s.regs := rfl
@[simp] theorem State.setTarget_mem (s : State) (d : Nat) (t : Option Nat) : (s.setTarget d t).mem = s.mem := rfl
@[simp] theorem State.setTarget_crs (s : State) (d : Nat) (t : Option Nat) : (s.setTarget d t).crs = s.crs := rfl
@[simp] theorem State.setTarget_core (s : State) (d : Nat) (t : Option Nat) : (s.setTarget d t).core = s.core := rfl
@[simp] theorem State.setTarget_task (s : State) (d : Nat) (t : Option Nat) : (s.setTarget d t).task = s.task := rfl
@[simp] theorem State.setTarget_innk (s : State) (d : Nat) (t : Option Nat) : (s.setTarget d t).innk = s.innk := rfl
@[simp] theorem State.setTarget_time (s : State) (d : Nat) (t : Option Nat) : (s.setTarget d t).time = s.time := rfl
@[simp] theorem State.setTarget_prism (s : State) (d : Nat) (t : Option Nat) : (s.setTarget d t).prism = s.prism := rfl
@[simp] theorem State.setTarget_prof (s : State) (d : Nat) (t : Option Nat) : (s.setTarget d t).prof = s.prof := rfl
@[simp] theorem State.setTarget_pwm (s : State) (d : Nat) (t : Option Nat) : (s.setTarget d t).pwm = s.pwm := rfl
@[simp] theorem State.setTarget_port (s : State) (d : Nat) (t : Option Nat) : (s.setTarget d t).port = s.port := rfl
@[simp] theorem State.setTarget_fbk (s : State) (d : Nat) (t : Option Nat) : (s.setTarget d t).fbk = s.fbk := rfl
@[simp] theorem State.setTarget_ale (s : State) (d : Nat) (t : Option Nat) : (s.setTarget d t).ale = s.ale := rfl
@[simp] theorem State.setTarget_pipe (s : State) (d : Nat) (t : Option Nat) : (s.setTarget d t).pipe = s.pipe := rfl
@[simp] theorem State.setTarget_stream (s : State) (d : Nat) (t : Option Nat) : (s.setTarget d t).stream = s.stream := rfl
@[simp] theorem State.setTarget_holds (s : State) (d : Nat) (t : Option Nat) : (s.setTarget d t).holds = s.holds := rfl
@[simp] theorem State.setTarget_envBlk (s : State) (d : Nat) (t : Option Nat) : (s.setTarget d t).envBlk = s.envBlk := rfl
@[simp] theorem State.setTarget_envNotify (s : State) (d : Nat) (t : Option Nat) : (s.setTarget d t).envNotify = s.envNotify := rfl
@[simp] theorem State.setTarget_gateEn (s : State) (d : Nat) (t : Option Nat) : (s.setTarget d t).gateEn = s.gateEn := rfl
@[simp] theorem State.setTarget_wire (s : State) (d : Nat) (t : Option Nat) : (s.setTarget d t).wire = s.wire := rfl
@[simp] theorem State.setTarget_heldPosts (s : State) (d : Nat) (t : Option Nat) : (s.setTarget d t).heldPosts = s.heldPosts := rfl
@[simp] theorem State.setTarget_posted (s : State) (d : Nat) (t : Option Nat) : (s.setTarget d t).posted = s.posted := rfl
@[simp] theorem State.setTarget_blocked (s : State) (d : Nat) (t : Option Nat) : (s.setTarget d t).blocked = s.blocked := rfl
@[simp] theorem State.setTarget_srstBusy (s : State) (d : Nat) (t : Option Nat) : (s.setTarget d t).srstBusy = s.srstBusy := rfl
@[simp] theorem State.setTarget_gating (s : State) (d : Nat) (t : Option Nat) : (s.setTarget d t).gating = s.gating := rfl
@[simp] theorem State.setTarget_held (s : State) (d : Nat) (t : Option Nat) : (s.setTarget d t).held = s.held := rfl
@[simp] theorem State.setTarget_slLocked (s : State) (d : Nat) (t : Option Nat) : (s.setTarget d t).slLocked = s.slLocked := rfl
@[simp] theorem State.setTarget_olSealed (s : State) (d : Nat) (t : Option Nat) : (s.setTarget d t).olSealed = s.olSealed := rfl
@[simp] theorem State.setTarget_fcNotify (s : State) (d : Nat) (t : Option Nat) : (s.setTarget d t).fcNotify = s.fcNotify := rfl
@[simp] theorem State.setTarget_fcStart (s : State) (d : Nat) (t : Option Nat) : (s.setTarget d t).fcStart = s.fcStart := rfl
@[simp] theorem State.setTarget_jumpAt (s : State) (d : Nat) (t : Option Nat) : (s.setTarget d t).jumpAt = s.jumpAt := rfl
@[simp] theorem State.setTarget_logq (s : State) (d : Nat) (t : Option Nat) : (s.setTarget d t).logq = s.logq := rfl
@[simp] theorem State.setTarget_logAt (s : State) (d : Nat) (t : Option Nat) : (s.setTarget d t).logAt = s.logAt := rfl
@[simp] theorem State.setTarget_dscrub (s : State) (d : Nat) (t : Option Nat) : (s.setTarget d t).dscrub = s.dscrub := rfl
@[simp] theorem State.setTarget_scrubPos (s : State) (d : Nat) (t : Option Nat) : (s.setTarget d t).scrubPos = s.scrubPos := rfl
@[simp] theorem State.setTarget_logScanned (s : State) (d : Nat) (t : Option Nat) : (s.setTarget d t).logScanned = s.logScanned := rfl
@[simp] theorem State.setTarget_mwq (s : State) (d : Nat) (t : Option Nat) : (s.setTarget d t).mwq = s.mwq := rfl
@[simp] theorem State.setTarget_porter (s : State) (d : Nat) (t : Option Nat) : (s.setTarget d t).porter = s.porter := rfl
@[simp] theorem State.setTarget_ring (s : State) (d : Nat) (t : Option Nat) : (s.setTarget d t).ring = s.ring := rfl
@[simp] theorem State.setTarget_eth (s : State) (d : Nat) (t : Option Nat) : (s.setTarget d t).eth = s.eth := rfl
@[simp] theorem State.setTarget_isl (s : State) (d : Nat) (t : Option Nat) : (s.setTarget d t).isl = s.isl := rfl
@[simp] theorem State.setTarget_console (s : State) (d : Nat) (t : Option Nat) : (s.setTarget d t).console = s.console := rfl
@[simp] theorem State.setTarget_rdata (s : State) (d : Nat) (t : Option Nat) : (s.setTarget d t).rdata = s.rdata := rfl
@[simp] theorem State.setTarget_freeN (s : State) (d : Nat) (t : Option Nat) : (s.setTarget d t).freeN = s.freeN := rfl

@[simp] theorem State.setWindow_pending (s : State) (p t : Nat) : (s.setWindow p t).pending = s.pending := rfl
@[simp] theorem State.setWindow_now (s : State) (p t : Nat) : (s.setWindow p t).now = s.now := rfl
@[simp] theorem State.setWindow_cyc (s : State) (p t : Nat) : (s.setWindow p t).cyc = s.cyc := rfl
@[simp] theorem State.setWindow_regs (s : State) (p t : Nat) : (s.setWindow p t).regs = s.regs := rfl
@[simp] theorem State.setWindow_mem (s : State) (p t : Nat) : (s.setWindow p t).mem = s.mem := rfl
@[simp] theorem State.setWindow_crs (s : State) (p t : Nat) : (s.setWindow p t).crs = s.crs := rfl
@[simp] theorem State.setWindow_core (s : State) (p t : Nat) : (s.setWindow p t).core = s.core := rfl
@[simp] theorem State.setWindow_task (s : State) (p t : Nat) : (s.setWindow p t).task = s.task := rfl
@[simp] theorem State.setWindow_innk (s : State) (p t : Nat) : (s.setWindow p t).innk = s.innk := rfl
@[simp] theorem State.setWindow_time (s : State) (p t : Nat) : (s.setWindow p t).time = s.time := rfl
@[simp] theorem State.setWindow_prism (s : State) (p t : Nat) : (s.setWindow p t).prism = s.prism := rfl
@[simp] theorem State.setWindow_prof (s : State) (p t : Nat) : (s.setWindow p t).prof = s.prof := rfl
@[simp] theorem State.setWindow_pwm (s : State) (p t : Nat) : (s.setWindow p t).pwm = s.pwm := rfl
@[simp] theorem State.setWindow_port (s : State) (p t : Nat) : (s.setWindow p t).port = s.port := rfl
@[simp] theorem State.setWindow_fbk (s : State) (p t : Nat) : (s.setWindow p t).fbk = s.fbk := rfl
@[simp] theorem State.setWindow_ale (s : State) (p t : Nat) : (s.setWindow p t).ale = s.ale := rfl
@[simp] theorem State.setWindow_pipe (s : State) (p t : Nat) : (s.setWindow p t).pipe = s.pipe := rfl
@[simp] theorem State.setWindow_stream (s : State) (p t : Nat) : (s.setWindow p t).stream = s.stream := rfl
@[simp] theorem State.setWindow_holds (s : State) (p t : Nat) : (s.setWindow p t).holds = s.holds := rfl
@[simp] theorem State.setWindow_envBlk (s : State) (p t : Nat) : (s.setWindow p t).envBlk = s.envBlk := rfl
@[simp] theorem State.setWindow_envNotify (s : State) (p t : Nat) : (s.setWindow p t).envNotify = s.envNotify := rfl
@[simp] theorem State.setWindow_gateEn (s : State) (p t : Nat) : (s.setWindow p t).gateEn = s.gateEn := rfl
@[simp] theorem State.setWindow_wire (s : State) (p t : Nat) : (s.setWindow p t).wire = s.wire := rfl
@[simp] theorem State.setWindow_heldPosts (s : State) (p t : Nat) : (s.setWindow p t).heldPosts = s.heldPosts := rfl
@[simp] theorem State.setWindow_posted (s : State) (p t : Nat) : (s.setWindow p t).posted = s.posted := rfl
@[simp] theorem State.setWindow_blocked (s : State) (p t : Nat) : (s.setWindow p t).blocked = s.blocked := rfl
@[simp] theorem State.setWindow_srstBusy (s : State) (p t : Nat) : (s.setWindow p t).srstBusy = s.srstBusy := rfl
@[simp] theorem State.setWindow_gating (s : State) (p t : Nat) : (s.setWindow p t).gating = s.gating := rfl
@[simp] theorem State.setWindow_held (s : State) (p t : Nat) : (s.setWindow p t).held = s.held := rfl
@[simp] theorem State.setWindow_slLocked (s : State) (p t : Nat) : (s.setWindow p t).slLocked = s.slLocked := rfl
@[simp] theorem State.setWindow_olSealed (s : State) (p t : Nat) : (s.setWindow p t).olSealed = s.olSealed := rfl
@[simp] theorem State.setWindow_fcNotify (s : State) (p t : Nat) : (s.setWindow p t).fcNotify = s.fcNotify := rfl
@[simp] theorem State.setWindow_jumpAt (s : State) (p t : Nat) : (s.setWindow p t).jumpAt = s.jumpAt := rfl
@[simp] theorem State.setWindow_logq (s : State) (p t : Nat) : (s.setWindow p t).logq = s.logq := rfl
@[simp] theorem State.setWindow_logAt (s : State) (p t : Nat) : (s.setWindow p t).logAt = s.logAt := rfl
@[simp] theorem State.setWindow_dscrub (s : State) (p t : Nat) : (s.setWindow p t).dscrub = s.dscrub := rfl
@[simp] theorem State.setWindow_scrubPos (s : State) (p t : Nat) : (s.setWindow p t).scrubPos = s.scrubPos := rfl
@[simp] theorem State.setWindow_logScanned (s : State) (p t : Nat) : (s.setWindow p t).logScanned = s.logScanned := rfl
@[simp] theorem State.setWindow_mwq (s : State) (p t : Nat) : (s.setWindow p t).mwq = s.mwq := rfl
@[simp] theorem State.setWindow_porter (s : State) (p t : Nat) : (s.setWindow p t).porter = s.porter := rfl
@[simp] theorem State.setWindow_ring (s : State) (p t : Nat) : (s.setWindow p t).ring = s.ring := rfl
@[simp] theorem State.setWindow_eth (s : State) (p t : Nat) : (s.setWindow p t).eth = s.eth := rfl
@[simp] theorem State.setWindow_isl (s : State) (p t : Nat) : (s.setWindow p t).isl = s.isl := rfl
@[simp] theorem State.setWindow_clk (s : State) (p t : Nat) : (s.setWindow p t).clk = s.clk := rfl
@[simp] theorem State.setWindow_console (s : State) (p t : Nat) : (s.setWindow p t).console = s.console := rfl
@[simp] theorem State.setWindow_rdata (s : State) (p t : Nat) : (s.setWindow p t).rdata = s.rdata := rfl
@[simp] theorem State.setWindow_freeN (s : State) (p t : Nat) : (s.setWindow p t).freeN = s.freeN := rfl

@[simp] theorem State.setG_pending (s : State) (c i v : Nat) : (s.setG c i v).pending = s.pending := by
  unfold State.setG; split <;> rfl
@[simp] theorem State.setG_now (s : State) (c i v : Nat) : (s.setG c i v).now = s.now := by
  unfold State.setG; split <;> rfl
@[simp] theorem State.setG_cyc (s : State) (c i v : Nat) : (s.setG c i v).cyc = s.cyc := by
  unfold State.setG; split <;> rfl
@[simp] theorem State.setG_regs (s : State) (c i v : Nat) : (s.setG c i v).regs = s.regs := by
  unfold State.setG; split <;> rfl
@[simp] theorem State.setG_mem (s : State) (c i v : Nat) : (s.setG c i v).mem = s.mem := by
  unfold State.setG; split <;> rfl
@[simp] theorem State.setG_core (s : State) (c i v : Nat) : (s.setG c i v).core = s.core := by
  unfold State.setG; split <;> rfl
@[simp] theorem State.setG_task (s : State) (c i v : Nat) : (s.setG c i v).task = s.task := by
  unfold State.setG; split <;> rfl
@[simp] theorem State.setG_innk (s : State) (c i v : Nat) : (s.setG c i v).innk = s.innk := by
  unfold State.setG; split <;> rfl
@[simp] theorem State.setG_time (s : State) (c i v : Nat) : (s.setG c i v).time = s.time := by
  unfold State.setG; split <;> rfl
@[simp] theorem State.setG_prism (s : State) (c i v : Nat) : (s.setG c i v).prism = s.prism := by
  unfold State.setG; split <;> rfl
@[simp] theorem State.setG_prof (s : State) (c i v : Nat) : (s.setG c i v).prof = s.prof := by
  unfold State.setG; split <;> rfl
@[simp] theorem State.setG_pwm (s : State) (c i v : Nat) : (s.setG c i v).pwm = s.pwm := by
  unfold State.setG; split <;> rfl
@[simp] theorem State.setG_port (s : State) (c i v : Nat) : (s.setG c i v).port = s.port := by
  unfold State.setG; split <;> rfl
@[simp] theorem State.setG_fbk (s : State) (c i v : Nat) : (s.setG c i v).fbk = s.fbk := by
  unfold State.setG; split <;> rfl
@[simp] theorem State.setG_ale (s : State) (c i v : Nat) : (s.setG c i v).ale = s.ale := by
  unfold State.setG; split <;> rfl
@[simp] theorem State.setG_pipe (s : State) (c i v : Nat) : (s.setG c i v).pipe = s.pipe := by
  unfold State.setG; split <;> rfl
@[simp] theorem State.setG_stream (s : State) (c i v : Nat) : (s.setG c i v).stream = s.stream := by
  unfold State.setG; split <;> rfl
@[simp] theorem State.setG_holds (s : State) (c i v : Nat) : (s.setG c i v).holds = s.holds := by
  unfold State.setG; split <;> rfl
@[simp] theorem State.setG_envBlk (s : State) (c i v : Nat) : (s.setG c i v).envBlk = s.envBlk := by
  unfold State.setG; split <;> rfl
@[simp] theorem State.setG_envNotify (s : State) (c i v : Nat) : (s.setG c i v).envNotify = s.envNotify := by
  unfold State.setG; split <;> rfl
@[simp] theorem State.setG_gateEn (s : State) (c i v : Nat) : (s.setG c i v).gateEn = s.gateEn := by
  unfold State.setG; split <;> rfl
@[simp] theorem State.setG_wire (s : State) (c i v : Nat) : (s.setG c i v).wire = s.wire := by
  unfold State.setG; split <;> rfl
@[simp] theorem State.setG_heldPosts (s : State) (c i v : Nat) : (s.setG c i v).heldPosts = s.heldPosts := by
  unfold State.setG; split <;> rfl
@[simp] theorem State.setG_posted (s : State) (c i v : Nat) : (s.setG c i v).posted = s.posted := by
  unfold State.setG; split <;> rfl
@[simp] theorem State.setG_blocked (s : State) (c i v : Nat) : (s.setG c i v).blocked = s.blocked := by
  unfold State.setG; split <;> rfl
@[simp] theorem State.setG_srstBusy (s : State) (c i v : Nat) : (s.setG c i v).srstBusy = s.srstBusy := by
  unfold State.setG; split <;> rfl
@[simp] theorem State.setG_gating (s : State) (c i v : Nat) : (s.setG c i v).gating = s.gating := by
  unfold State.setG; split <;> rfl
@[simp] theorem State.setG_held (s : State) (c i v : Nat) : (s.setG c i v).held = s.held := by
  unfold State.setG; split <;> rfl
@[simp] theorem State.setG_slLocked (s : State) (c i v : Nat) : (s.setG c i v).slLocked = s.slLocked := by
  unfold State.setG; split <;> rfl
@[simp] theorem State.setG_olSealed (s : State) (c i v : Nat) : (s.setG c i v).olSealed = s.olSealed := by
  unfold State.setG; split <;> rfl
@[simp] theorem State.setG_fcNotify (s : State) (c i v : Nat) : (s.setG c i v).fcNotify = s.fcNotify := by
  unfold State.setG; split <;> rfl
@[simp] theorem State.setG_fcStart (s : State) (c i v : Nat) : (s.setG c i v).fcStart = s.fcStart := by
  unfold State.setG; split <;> rfl
@[simp] theorem State.setG_jumpAt (s : State) (c i v : Nat) : (s.setG c i v).jumpAt = s.jumpAt := by
  unfold State.setG; split <;> rfl
@[simp] theorem State.setG_logq (s : State) (c i v : Nat) : (s.setG c i v).logq = s.logq := by
  unfold State.setG; split <;> rfl
@[simp] theorem State.setG_logAt (s : State) (c i v : Nat) : (s.setG c i v).logAt = s.logAt := by
  unfold State.setG; split <;> rfl
@[simp] theorem State.setG_dscrub (s : State) (c i v : Nat) : (s.setG c i v).dscrub = s.dscrub := by
  unfold State.setG; split <;> rfl
@[simp] theorem State.setG_scrubPos (s : State) (c i v : Nat) : (s.setG c i v).scrubPos = s.scrubPos := by
  unfold State.setG; split <;> rfl
@[simp] theorem State.setG_logScanned (s : State) (c i v : Nat) : (s.setG c i v).logScanned = s.logScanned := by
  unfold State.setG; split <;> rfl
@[simp] theorem State.setG_mwq (s : State) (c i v : Nat) : (s.setG c i v).mwq = s.mwq := by
  unfold State.setG; split <;> rfl
@[simp] theorem State.setG_porter (s : State) (c i v : Nat) : (s.setG c i v).porter = s.porter := by
  unfold State.setG; split <;> rfl
@[simp] theorem State.setG_ring (s : State) (c i v : Nat) : (s.setG c i v).ring = s.ring := by
  unfold State.setG; split <;> rfl
@[simp] theorem State.setG_eth (s : State) (c i v : Nat) : (s.setG c i v).eth = s.eth := by
  unfold State.setG; split <;> rfl
@[simp] theorem State.setG_isl (s : State) (c i v : Nat) : (s.setG c i v).isl = s.isl := by
  unfold State.setG; split <;> rfl
@[simp] theorem State.setG_clk (s : State) (c i v : Nat) : (s.setG c i v).clk = s.clk := by
  unfold State.setG; split <;> rfl
@[simp] theorem State.setG_console (s : State) (c i v : Nat) : (s.setG c i v).console = s.console := by
  unfold State.setG; split <;> rfl
@[simp] theorem State.setG_rdata (s : State) (c i v : Nat) : (s.setG c i v).rdata = s.rdata := by
  unfold State.setG; split <;> rfl
@[simp] theorem State.setG_freeN (s : State) (c i v : Nat) : (s.setG c i v).freeN = s.freeN := by
  unfold State.setG; split <;> rfl

end Sys2Proof.Machine
end

