-- ==== Sys2Proof/Laws/Table.lean ====
section
/-! SUPPORT. The laws of the sparse tables: a read after a write of the same key gives the value written, a write leaves
every other key alone, and every write keeps the canonical form. -/

namespace Sys2Proof.Machine

theorem Tab.find_put_same {α : Type} (t : Tab α) (k : Nat) (v : α) : Tab.find (Tab.put t k v) k = some v := by
  induction t with
  | nil => simp [Tab.put, Tab.find]
  | cons e r ih =>
    simp only [Tab.put]
    split
    · simp [Tab.find]
    · split
      · simp [Tab.find]
      · rename_i h; simp [Tab.find, h, ih]

theorem Tab.find_put_other {α : Type} (t : Tab α) {k j : Nat} (v : α) (h : j ≠ k) :
    Tab.find (Tab.put t k v) j = Tab.find t j := by
  induction t with
  | nil => simp [Tab.put, Tab.find, h.symm]
  | cons e r ih =>
    simp only [Tab.put]
    split
    · simp [Tab.find, h.symm]
    · split
      · rename_i he; subst he; simp [Tab.find, h.symm]
      · simp only [Tab.find]; split <;> simp [*]

theorem Tab.find_drop_other {α : Type} (t : Tab α) {k j : Nat} (h : j ≠ k) :
    Tab.find (Tab.drop t k) j = Tab.find t j := by
  induction t with
  | nil => rfl
  | cons e r ih =>
    simp only [Tab.drop]
    split
    · rename_i he; subst he; simp [Tab.find, h.symm, ih]
    · simp only [Tab.find]; split <;> simp [*]

theorem Tab.find_drop_same {α : Type} (t : Tab α) (k : Nat) : Tab.find (Tab.drop t k) k = none := by
  induction t with
  | nil => rfl
  | cons e r ih =>
    simp only [Tab.drop]
    split
    · exact ih
    · rename_i he; simp [Tab.find, he, ih]

/-- Every key of a sorted tail lies above the head's key. -/
theorem Tab.sorted_tail_above {α : Type} (e : Nat × α) (r : Tab α) (h : Tab.sorted (e :: r) = true) :
    ∀ x ∈ r, e.1 < x.1 := by
  induction r generalizing e with
  | nil => simp
  | cons b r ih =>
    simp only [Tab.sorted, Bool.and_eq_true, decide_eq_true_eq] at h
    intro x hx
    rcases List.mem_cons.mp hx with rfl | hx
    · exact h.1
    · have := ih b (by simpa [Tab.sorted] using h.2) x hx; omega

theorem Tab.sorted_of_cons {α : Type} {e : Nat × α} {r : Tab α} (h : Tab.sorted (e :: r) = true) :
    Tab.sorted r = true := by
  simp only [Tab.sorted, Bool.and_eq_true] at h; exact h.2

theorem Tab.mem_drop {α : Type} {t : Tab α} {k : Nat} {x : Nat × α} (h : x ∈ Tab.drop t k) : x ∈ t := by
  induction t with
  | nil => simp [Tab.drop] at h
  | cons e r ih =>
    simp only [Tab.drop] at h
    split at h
    · simp [ih h]
    · rcases List.mem_cons.mp h with rfl | h
      · simp
      · simp [ih h]

theorem Tab.mem_put {α : Type} {t : Tab α} {k : Nat} {v : α} {x : Nat × α} (h : x ∈ Tab.put t k v) :
    x = (k, v) ∨ x ∈ t := by
  induction t with
  | nil => simp [Tab.put] at h; exact .inl h
  | cons e r ih =>
    simp only [Tab.put] at h
    split at h
    · simpa using h
    · split at h
      · rcases List.mem_cons.mp h with h | h
        · exact .inl h
        · exact .inr (by simp [h])
      · rcases List.mem_cons.mp h with rfl | h
        · simp
        · rcases ih h with h | h
          · exact .inl h
          · exact .inr (by simp [h])

theorem Tab.sorted_cons {α : Type} {e : Nat × α} {r : Tab α} (hr : Tab.sorted r = true)
    (ha : ∀ x ∈ r, e.1 < x.1) : Tab.sorted (e :: r) = true := by
  cases r with
  | nil => simp [Tab.sorted]
  | cons b r =>
    have hb := ha b (by simp)
    rw [Tab.sorted]
    simp [hb, hr]

theorem Tab.sorted_drop {α : Type} (t : Tab α) (k : Nat) (h : Tab.sorted t = true) :
    Tab.sorted (Tab.drop t k) = true := by
  induction t with
  | nil => exact h
  | cons e r ih =>
    simp only [Tab.drop]
    split
    · exact ih (Tab.sorted_of_cons h)
    · exact Tab.sorted_cons (ih (Tab.sorted_of_cons h)) (fun x hx => Tab.sorted_tail_above e r h x (Tab.mem_drop hx))

theorem Tab.sorted_put {α : Type} (t : Tab α) (k : Nat) (v : α) (h : Tab.sorted t = true) :
    Tab.sorted (Tab.put t k v) = true := by
  induction t with
  | nil => simp [Tab.put, Tab.sorted]
  | cons e r ih =>
    have ha := Tab.sorted_tail_above e r h
    simp only [Tab.put]
    split
    · rename_i hk
      refine Tab.sorted_cons h (fun x hx => ?_)
      rcases List.mem_cons.mp hx with rfl | hx
      · exact hk
      · have := ha x hx; simp only; omega
    · split
      · rename_i he; subst he
        exact Tab.sorted_cons (Tab.sorted_of_cons h) ha
      · rename_i hk he
        refine Tab.sorted_cons (ih (Tab.sorted_of_cons h)) (fun x hx => ?_)
        rcases Tab.mem_put hx with rfl | hx
        · simp only; omega
        · exact ha x hx

/-- A read after a write of the same key gives the value written. -/
theorem Tab.get_set_same {α : Type} [DecidableEq α] (d : Nat → α) (t : Tab α) (k : Nat) (v : α) :
    Tab.get d (Tab.set d t k v) k = v := by
  unfold Tab.set Tab.get
  split
  · rename_i hv; simp [Tab.find_drop_same t k, hv]
  · simp [Tab.find_put_same]

/-- A dropped key reads as the default. -/
theorem Tab.get_drop_same {α : Type} (d : Nat → α) (t : Tab α) (k : Nat) : Tab.get d (Tab.drop t k) k = d k := by
  simp [Tab.get, Tab.find_drop_same]

/-- Dropping a key leaves every other key as it was. -/
theorem Tab.get_drop_other {α : Type} (d : Nat → α) (t : Tab α) {k j : Nat} (h : j ≠ k) :
    Tab.get d (Tab.drop t k) j = Tab.get d t j := by
  simp [Tab.get, Tab.find_drop_other t h]

/-- Dropping a key keeps the canonical form. -/
theorem Tab.wf_drop {α : Type} [DecidableEq α] (d : Nat → α) (t : Tab α) (k : Nat) (h : Tab.wf d t = true) :
    Tab.wf d (Tab.drop t k) = true := by
  simp only [Tab.wf, Bool.and_eq_true, List.all_eq_true] at h ⊢
  exact ⟨Tab.sorted_drop t k h.1, fun x hx => h.2 x (Tab.mem_drop hx)⟩

/-- Keeping some entries keeps the rising order. -/
theorem Tab.sorted_filter {α : Type} (t : Tab α) (q : Nat × α → Bool) (h : Tab.sorted t = true) :
    Tab.sorted (t.filter q) = true := by
  induction t with
  | nil => exact h
  | cons e r ih =>
    simp only [List.filter_cons]
    split
    · exact Tab.sorted_cons (ih (Tab.sorted_of_cons h))
        (fun x hx => Tab.sorted_tail_above e r h x (List.mem_filter.mp hx).1)
    · exact ih (Tab.sorted_of_cons h)

/-- Keeping some entries keeps the canonical form. -/
theorem Tab.wf_filter {α : Type} [DecidableEq α] (d : Nat → α) (t : Tab α) (q : Nat × α → Bool) (h : Tab.wf d t = true) :
    Tab.wf d (t.filter q) = true := by
  simp only [Tab.wf, Bool.and_eq_true, List.all_eq_true] at h ⊢
  exact ⟨Tab.sorted_filter t q h.1, fun x hx => h.2 x (List.mem_filter.mp hx).1⟩

/-- A write leaves every other key as it was. -/
theorem Tab.get_set_other {α : Type} [DecidableEq α] (d : Nat → α) (t : Tab α) {k j : Nat} (v : α) (h : j ≠ k) :
    Tab.get d (Tab.set d t k v) j = Tab.get d t j := by
  unfold Tab.set Tab.get
  split
  · rw [Tab.find_drop_other t h]
  · rw [Tab.find_put_other t v h]

/-- A write keeps the canonical form. -/
theorem Tab.wf_set {α : Type} [DecidableEq α] (d : Nat → α) (t : Tab α) (k : Nat) (v : α)
    (h : Tab.wf d t = true) : Tab.wf d (Tab.set d t k v) = true := by
  simp only [Tab.wf, Bool.and_eq_true, List.all_eq_true] at h ⊢
  unfold Tab.set
  split
  · exact ⟨Tab.sorted_drop t k h.1, fun x hx => h.2 x (Tab.mem_drop hx)⟩
  · rename_i hv
    refine ⟨Tab.sorted_put t k v h.1, fun x hx => ?_⟩
    rcases Tab.mem_put hx with rfl | hx
    · simpa using hv
    · exact h.2 x hx

end Sys2Proof.Machine
end

