-- ==== Sys2Proof/Laws/Ops.lean ====
section
/-! SUPPORT. The laws of the named operations over register words, fields, memories and core registers: a read after a write of the
same place gives the value written, and a write leaves every other place alone. -/

namespace Sys2Proof.Machine

@[simp] theorem word_toNat (n : Nat) : (word n).toNat = n % 2 ^ 36 := by simp [word]

theorem State.reg_lt (s : State) (a : Nat) : s.reg a < 2 ^ 36 := (s.regW a).isLt

/-! Register words. -/

@[simp] theorem State.regW_setReg_same (s : State) (a v : Nat) : (s.setReg a v).regW a = word v := by
  simp [State.regW, State.setReg, Tab.get_set_same]

@[simp] theorem State.reg_setReg_same (s : State) (a v : Nat) : (s.setReg a v).reg a = v % 2 ^ 36 := by
  simp [State.reg]

theorem State.regW_setReg_ne (s : State) {a b : Nat} (v : Nat) (h : b ≠ a) : (s.setReg a v).regW b = s.regW b := by
  simp [State.regW, State.setReg, Tab.get_set_other _ _ _ h]

theorem State.reg_setReg_ne (s : State) {a b : Nat} (v : Nat) (h : b ≠ a) : (s.setReg a v).reg b = s.reg b := by
  simp [State.reg, State.regW_setReg_ne s v h]

/-- Two states with the same register words read the same. -/
theorem State.reg_of_regs {s t : State} (h : t.regs = s.regs) (a : Nat) : t.reg a = s.reg a := by
  simp [State.reg, State.regW, h]

theorem State.get_of_regs {s t : State} (h : t.regs = s.regs) (p : Nat) (f : Fld) : t.get p f = s.get p f := by
  simp [State.get, State.reg_of_regs h]

/-! Fields. -/

theorem fldGet_lt (w : Nat) (f : Fld) : fldGet w f < 2 ^ (f.hi + 1 - f.lo) := Nat.mod_lt _ (by positivity)

theorem fldPut_low_lt (w : Nat) (f : Fld) (v : Nat) (h : f.lo ≤ f.hi) :
    w % 2 ^ f.lo + 2 ^ f.lo * (v % 2 ^ (f.hi + 1 - f.lo)) < 2 ^ (f.hi + 1) := by
  have h1 : w % 2 ^ f.lo < 2 ^ f.lo := Nat.mod_lt _ (by positivity)
  have h2 : v % 2 ^ (f.hi + 1 - f.lo) < 2 ^ (f.hi + 1 - f.lo) := Nat.mod_lt _ (by positivity)
  have h3 : 2 ^ (f.hi + 1) = 2 ^ f.lo * 2 ^ (f.hi + 1 - f.lo) := by rw [← pow_add]; congr 1; omega
  rw [h3]
  have h4 : 2 ^ f.lo * (v % 2 ^ (f.hi + 1 - f.lo) + 1) ≤ 2 ^ f.lo * 2 ^ (f.hi + 1 - f.lo) := Nat.mul_le_mul_left _ h2
  rw [Nat.mul_add] at h4
  omega

theorem fldPut_lt {w : Nat} (f : Fld) (v : Nat) (h : f.lo ≤ f.hi) (h36 : f.hi < 36) (hw : w < 2 ^ 36) : fldPut w f v < 2 ^ 36 := by
  unfold fldPut
  have h1 := fldPut_low_lt w f v h
  have h2 : 2 ^ 36 = 2 ^ (f.hi + 1) * 2 ^ (35 - f.hi) := by rw [← pow_add]; congr 1; omega
  have h3 : w / 2 ^ (f.hi + 1) < 2 ^ (35 - f.hi) := by
    rw [Nat.div_lt_iff_lt_mul (by positivity), Nat.mul_comm, ← h2]; exact hw
  have h4 : 2 ^ (f.hi + 1) * (w / 2 ^ (f.hi + 1) + 1) ≤ 2 ^ (f.hi + 1) * 2 ^ (35 - f.hi) := Nat.mul_le_mul_left _ h3
  rw [Nat.mul_add] at h4
  rw [h2]
  omega

/-- A field reads as it was put, modulo its width. -/
theorem fldGet_fldPut_same (w : Nat) (f : Fld) (v : Nat) (h : f.lo ≤ f.hi) :
    fldGet (fldPut w f v) f = v % 2 ^ (f.hi + 1 - f.lo) := by
  unfold fldGet fldPut
  have h3 : 2 ^ (f.hi + 1) = 2 ^ f.lo * 2 ^ (f.hi + 1 - f.lo) := by rw [← pow_add]; congr 1; omega
  have h1 : w % 2 ^ f.lo < 2 ^ f.lo := Nat.mod_lt _ (by positivity)
  rw [h3, Nat.mul_assoc, Nat.add_assoc, ← Nat.mul_add, Nat.add_mul_div_left _ _ (by positivity), Nat.div_eq_of_lt h1,
    Nat.zero_add, Nat.add_mul_mod_self_left, Nat.mod_mod]

/-- A field above or below the one put reads as before. -/
theorem fldGet_fldPut_ne (w : Nat) (f g : Fld) (v : Nat) (h : f.lo ≤ f.hi) (hg : g.lo ≤ g.hi) (hd : g.hi < f.lo ∨ f.hi < g.lo) :
    fldGet (fldPut w f v) g = fldGet w g := by
  unfold fldGet
  rcases hd with hd | hd
  · have key : fldPut w f v % 2 ^ f.lo = w % 2 ^ f.lo := by
      unfold fldPut
      have h3 : 2 ^ (f.hi + 1) = 2 ^ f.lo * 2 ^ (f.hi + 1 - f.lo) := by rw [← pow_add]; congr 1; omega
      rw [h3, Nat.mul_assoc, Nat.add_assoc, ← Nat.mul_add, Nat.add_mul_mod_self_left, Nat.mod_mod]
    have low : ∀ x : Nat, x / 2 ^ g.lo % 2 ^ (g.hi + 1 - g.lo) = x % 2 ^ f.lo / 2 ^ g.lo % 2 ^ (g.hi + 1 - g.lo) := by
      intro x
      have h4 : 2 ^ f.lo = 2 ^ g.lo * 2 ^ (f.lo - g.lo) := by rw [← pow_add]; congr 1; omega
      rw [h4, Nat.mod_mul_right_div_self, Nat.mod_mod_of_dvd]
      exact pow_dvd_pow 2 (by omega)
    rw [low (fldPut w f v), key, ← low w]
  · have key : fldPut w f v / 2 ^ (f.hi + 1) = w / 2 ^ (f.hi + 1) := by
      unfold fldPut
      rw [Nat.add_mul_div_left _ _ (by positivity), Nat.div_eq_of_lt (fldPut_low_lt w f v h), Nat.zero_add]
    have h4 : 2 ^ g.lo = 2 ^ (f.hi + 1) * 2 ^ (g.lo - (f.hi + 1)) := by rw [← pow_add]; congr 1; omega
    rw [h4, ← Nat.div_div_eq_div_mul, ← Nat.div_div_eq_div_mul, key]

/-- A field of a page reads as it was put, modulo its width. -/
theorem State.get_put_same (s : State) (p : Nat) (f : Fld) (v : Nat) (h : f.lo ≤ f.hi) (h36 : f.hi < 36) :
    (s.put p f v).get p f = v % 2 ^ (f.hi + 1 - f.lo) := by
  unfold State.get State.put
  rw [State.reg_setReg_same, Nat.mod_eq_of_lt (fldPut_lt f v h h36 (s.reg_lt _)), fldGet_fldPut_same _ _ _ h]

/-- A field of another word reads as before. -/
theorem State.get_put_word (s : State) (p q : Nat) (f g : Fld) (v : Nat) (h : q + g.off ≠ p + f.off) :
    (s.put p f v).get q g = s.get q g := by
  unfold State.get State.put
  rw [State.reg_setReg_ne _ _ h]

/-- A field of the same word that does not overlap the one put reads as before. -/
theorem State.get_put_field (s : State) (p q : Nat) (f g : Fld) (v : Nat) (h : f.lo ≤ f.hi) (h36 : f.hi < 36) (hg : g.lo ≤ g.hi)
    (hd : g.hi < f.lo ∨ f.hi < g.lo) : (s.put p f v).get q g = s.get q g := by
  by_cases e : q + g.off = p + f.off
  · unfold State.get State.put
    rw [e, State.reg_setReg_same, Nat.mod_eq_of_lt (fldPut_lt f v h h36 (s.reg_lt _)), fldGet_fldPut_ne _ _ _ _ h hg hd]
  · exact s.get_put_word p q f g v e

theorem State.reg_put_ne (s : State) (p a : Nat) (f : Fld) (v : Nat) (h : a ≠ p + f.off) : (s.put p f v).reg a = s.reg a := by
  unfold State.put
  rw [State.reg_setReg_ne _ _ h]

theorem State.get_lt (s : State) (p : Nat) (f : Fld) : s.get p f < 2 ^ (f.hi + 1 - f.lo) := fldGet_lt _ _

/-- What a saturating count leaves in its field. -/
theorem State.get_inc_same (s : State) (p : Nat) (f : Fld) (h : f.lo ≤ f.hi) (h36 : f.hi < 36) :
    (s.inc p f).get p f = satN (2 ^ (f.hi + 1 - f.lo) - 1) (s.get p f + 1) := by
  unfold State.inc
  rw [s.get_put_same p f _ h h36, Nat.mod_eq_of_lt]
  have : 0 < 2 ^ (f.hi + 1 - f.lo) := by positivity
  unfold satN
  split <;> omega

/-- What a wrapping count leaves in its field. -/
theorem State.get_incMod_same (s : State) (p : Nat) (f : Fld) (h : f.lo ≤ f.hi) (h36 : f.hi < 36) :
    (s.incMod p f).get p f = (s.get p f + 1) % 2 ^ (f.hi + 1 - f.lo) := by
  unfold State.incMod
  rw [s.get_put_same p f _ h h36]

/-! Memory. -/

@[simp] theorem State.memW_setMem_same (s : State) (a : Nat) (v : Word) : (s.setMem a v).memW a = v := by
  simp [State.memW, State.setMem, Tab.get_set_same]

theorem State.memW_setMem_ne (s : State) {a b : Nat} (v : Word) (h : b ≠ a) : (s.setMem a v).memW b = s.memW b := by
  simp [State.memW, State.setMem, Tab.get_set_other _ _ _ h]

/-- Two states with the same memory read the same. -/
theorem State.memW_of_mem {s t : State} (h : t.mem = s.mem) (a : Nat) : t.memW a = s.memW a := by simp [State.memW, h]

/-- Every write of memory keeps its canonical form. -/
theorem State.setMem_wf (s : State) (a : Nat) (v : Word) (h : Tab.wf (fun _ => (0 : Word)) s.mem = true) :
    Tab.wf (fun _ => (0 : Word)) (s.setMem a v).mem = true := Tab.wf_set _ _ _ _ h

/-- Every write of a register word keeps the canonical form. -/
theorem State.setReg_wf (s : State) (a v : Nat) (h : Tab.wf resetWord s.regs = true) :
    Tab.wf resetWord (s.setReg a v).regs = true := Tab.wf_set _ _ _ _ h

/-! Core registers. -/

@[simp] theorem State.cr_setCr_same (s : State) (c i : Nat) (v : Word) : (s.setCr c i v).cr c i = v := by
  simp [State.cr, State.setCr, Tab.get_set_same]

theorem State.cr_setCr_ne (s : State) {c i e j : Nat} (v : Word) (h : 128 * e + j ≠ 128 * c + i) :
    (s.setCr c i v).cr e j = s.cr e j := by
  simp [State.cr, State.setCr, Tab.get_set_other _ _ _ h]

/-- Two states with the same core registers read the same. -/
theorem State.cr_of_crs {s t : State} (h : t.crs = s.crs) (c i : Nat) : t.cr c i = s.cr c i := by simp [State.cr, h]

@[simp] theorem State.co_setCo_same (s : State) (c : Nat) (r : CoreSt) : (s.setCo c r).co c = r := by
  simp [State.co, State.setCo, Tab.rd, Tab.wr, Tab.get_set_same]

theorem State.co_setCo_ne (s : State) {c e : Nat} (r : CoreSt) (h : e ≠ c) : (s.setCo c r).co e = s.co e := by
  simp [State.co, State.setCo, Tab.rd, Tab.wr, Tab.get_set_other _ _ _ h]

/-- A general register reads as written, but for G0, which reads 0 (R273). -/
theorem State.g_setG_same (s : State) (c i v : Nat) (h : i ≠ 0) (hi : i < 16) : (s.setG c i v).g c i = v % 2 ^ 36 := by
  have hn : (s.setCr c (s.gSlot c i) (word v)).inNmi c = s.inNmi c := by
    unfold State.inNmi
    rw [State.cr_setCr_ne]
    simp only [State.gSlot, bankSlot, rBank, rG, rST]
    split <;> omega
  unfold State.setG State.g
  rw [if_neg h, if_neg h]
  have hs : (s.setCr c (s.gSlot c i) (word v)).gSlot c i = s.gSlot c i := by
    unfold State.gSlot at hn ⊢
    rw [hn]
  rw [hs, State.cr_setCr_same, word_toNat]

end Sys2Proof.Machine
end

