-- ==== Sys2Proof/Laws/Core.lean ====
section
/-! SUPPORT. The laws of the Synlen core's shared operations: issue, the general registers, the flags, and the end of an
instruction. -/

namespace Sys2Proof.Machine

/-- A general register holds 36 bits. -/
theorem State.g_lt (s : State) (c i : Nat) : s.g c i < 2 ^ 36 := by
  unfold State.g
  split
  · decide
  · exact (s.cr c _).isLt

/-- The fields of an instruction that can issue fit their widths. -/
theorem CoreReady.fits {u s : State} {c : Nat} {i : Instr} {regs : List Nat} (h : CoreReady c i regs u s) :
    ∀ f ∈ synlenFields i, f.2 < 2 ^ f.1 := by
  simpa [fieldsFit] using h.1

/-- An instruction that can issue has its effect. -/
theorem State.instr_ready {u s : State} {c : Nat} {i : Instr} {regs : List Nat} (h : CoreReady c i regs u s) (k : State → State) :
    u.instr c i true regs k = k s := by
  obtain ⟨h1, h2, h3, h4, rfl⟩ := h
  simp [State.instr, h1, h2, h3, h4]

theorem CoreOnly.refl (c : Nat) (l : List Nat) (s : State) : CoreOnly c l s s := ⟨fun _ _ _ _ => rfl, rfl⟩

theorem CoreOnly.trans {c : Nat} {l m : List Nat} {s t u : State} (h : CoreOnly c l s t) (h' : CoreOnly c m t u) :
    CoreOnly c (l ++ m) s u := by
  refine ⟨fun e i hi he => ?_, ?_⟩
  · rw [h'.1 e i hi (by rcases he with he | he; · exact .inl he
                        · exact .inr (fun x => he (by simp [x]))),
      h.1 e i hi (by rcases he with he | he; · exact .inl he
                     · exact .inr (fun x => he (by simp [x])))]
  · rw [h'.2, h.2]

theorem CoreOnly.mono {c : Nat} {l m : List Nat} {s t : State} (h : CoreOnly c l s t) (hl : ∀ i ∈ l, i ∈ m) :
    CoreOnly c m s t :=
  ⟨fun e i hi he => h.1 e i hi (by rcases he with he | he; · exact .inl he
                                   · exact .inr (fun x => he (hl i x))), h.2⟩

theorem CoreOnly.setCr (c i : Nat) (v : Word) (s : State) (hi : i < 128) : CoreOnly c [i] s (s.setCr c i v) := by
  refine ⟨fun e j hj he => State.cr_setCr_ne s v ?_, rfl⟩
  rcases he with he | he
  · omega
  · simp at he; omega

theorem State.gSlot_lt (s : State) (c i : Nat) (hi : i < 16) : s.gSlot c i < 68 := by
  unfold State.gSlot bankSlot; split <;> simp only [rBank, rG] <;> omega

theorem CoreOnly.setG (c i v : Nat) (s : State) (hi : i < 16) : CoreOnly c (s.dst c i) s (s.setG c i v) := by
  unfold State.setG State.dst
  split
  · exact .refl _ _ _
  · exact .setCr _ _ _ _ (by have := s.gSlot_lt c i hi; omega)

theorem CoreOnly.setPc (c v : Nat) (s : State) : CoreOnly c [rPC] s (s.setPc c v) := .setCr _ _ _ _ (by decide)

theorem CoreOnly.sticky (c k : Nat) (b : Bool) (s : State) : CoreOnly c [rST] s (s.sticky c k b) := by
  unfold State.sticky; split
  · exact .setCr _ _ _ _ (by decide)
  · exact .refl _ _ _

theorem CoreOnly.setZncv (c : Nat) (o : AluOut) (s : State) : CoreOnly c [rST] s (s.setZncv c o) := by
  unfold State.setZncv; exact .setCr _ _ _ _ (by decide)

theorem CoreOnly.loopOut (c l : Nat) (s : State) (hl : l < 2) : CoreOnly c seqSlots s (s.loopOut c l) :=
  ((CoreOnly.setCr c (rLC l) 0 s (by simp only [rLC]; omega)).trans
    (.setCr c (rLB l) _ _ (by simp only [rLB]; omega))).mono (by
      intro i hi; simp [seqSlots, rPC, rLC, rLB] at hi ⊢; omega)

theorem CoreOnly.loopBack (c l : Nat) (s : State) (hl : l < 2) : CoreOnly c seqSlots s (s.loopBack c l) :=
  ((CoreOnly.setCr c (rLC l) _ s (by simp only [rLC]; omega)).trans (.setPc c _ _)).mono (by
      intro i hi; simp [seqSlots, rPC, rLC, rLB] at hi ⊢; omega)

theorem CoreOnly.nextPc (c v : Nat) (s : State) : CoreOnly c seqSlots s (s.setPc c v) :=
  (CoreOnly.setPc c v s).mono (by intro i hi; simp [seqSlots] at hi ⊢; omega)

theorem CoreOnly.andThen {c : Nat} {l : List Nat} {s t u : State} (h : CoreOnly c l s t) (h' : CoreOnly c l t u) : CoreOnly c l s u :=
  (h.trans h').mono (by intro i hi; simpa using hi)

theorem CoreOnly.endLevel0 (c : Nat) (s : State) : CoreOnly c seqSlots s (s.endLevel0 c) := by
  unfold State.endLevel0
  split
  · exact .loopBack _ _ _ (by decide)
  · split
    · exact (CoreOnly.loopOut c 0 s (by decide)).andThen (.nextPc _ _ _)
    · exact .nextPc _ _ _

/-- What the end of an instruction may change. -/
theorem CoreOnly.advance (c : Nat) (s : State) : CoreOnly c seqSlots s (s.advance c) := by
  unfold State.advance
  split
  · exact .nextPc _ _ _
  · split
    · exact .loopBack _ _ _ (by decide)
    · split
      · exact (CoreOnly.loopOut c 1 s (by decide)).andThen (.endLevel0 _ _)
      · exact .endLevel0 _ _


/-! Bits of a number. -/

theorem bitN_testBit (w k : Nat) : bitN w k = w.testBit k := by
  unfold bitN
  rw [Nat.testBit_eq_decide_div_mod_eq, Bool.beq_eq_decide_eq]

theorem bitN_setBitN (w j k : Nat) : bitN (setBitN w j) k = (bitN w k || k == j) := by
  rw [bitN_testBit, bitN_testBit, setBitN, Nat.testBit_or, Nat.testBit_two_pow]
  congr 1
  rw [Bool.beq_eq_decide_eq]
  simp [eq_comm]

theorem bitN_mod36 (w k : Nat) : bitN (w % 2 ^ 36) k = (decide (k < 36) && bitN w k) := by
  rw [bitN_testBit, bitN_testBit, Nat.testBit_mod_two_pow]

theorem State.st_lt (s : State) (c : Nat) : s.st c < 2 ^ 36 := (s.cr c rST).isLt

theorem bitN_high {w k : Nat} (h : w < 2 ^ 36) (hk : 36 ≤ k) : bitN w k = false := by
  rw [bitN_testBit]; exact Nat.testBit_lt_two_pow (lt_of_lt_of_le h (Nat.pow_le_pow_right (by decide) hk))

/-! The status register. -/

theorem State.st_of_only {c : Nat} {l : List Nat} {s t : State} (h : CoreOnly c l s t) (hl : rST ∉ l) : t.st c = s.st c := by
  unfold State.st; rw [h.1 c rST (by decide) (.inr hl)]

theorem State.inNmi_of_only {c : Nat} {l : List Nat} {s t : State} (h : CoreOnly c l s t) (hl : rST ∉ l) : t.inNmi c = s.inNmi c := by
  unfold State.inNmi; rw [h.1 c rST (by decide) (.inr hl)]

/-- A general register outside the changed slots keeps its value, as long as the bank in use stays. -/
theorem State.g_of_only {c i : Nat} {l : List Nat} {s t : State} (h : CoreOnly c l s t) (hn : t.inNmi c = s.inNmi c) (hi : i < 16)
    (hl : s.gSlot c i ∉ l) : t.g c i = s.g c i := by
  have hs : t.gSlot c i = s.gSlot c i := by unfold State.gSlot; rw [hn]
  unfold State.g
  split
  · rfl
  · rw [hs, h.1 c _ (by have := s.gSlot_lt c i hi; omega) (.inr hl)]

theorem State.gSlot_cases (s : State) (c i : Nat) : s.gSlot c i = i ∨ (12 ≤ i ∧ s.gSlot c i = 52 + i) := by
  unfold State.gSlot bankSlot
  by_cases hi : 12 ≤ i
  · cases s.inNmi c
    · exact .inl (by simp)
    · exact .inr ⟨hi, by simp [hi, rBank]; omega⟩
  · exact .inl (by simp [hi])

theorem State.st_sticky (s : State) (c k : Nat) (b : Bool) (hk : k < 36) (j : Nat) :
    bitN ((s.sticky c k b).st c) j = (bitN (s.st c) j || (j == k && b)) := by
  unfold State.sticky
  split
  · rename_i h
    have e1 : (s.setCr c rST (word (setBitN (s.st c) k))).st c = setBitN (s.st c) k % 2 ^ 36 := by
      conv_lhs => unfold State.st
      rw [State.cr_setCr_same, word_toNat]
      rfl
    rw [e1, bitN_mod36, bitN_setBitN, h]
    by_cases hj : j < 36
    · simp [hj]
    · have e : (j == k) = false := by simp; omega
      simp [hj, e, bitN_high (s.st_lt c) (k := j) (by omega)]
  · rename_i h; simp [h]

/-- The four flags after `setZncv`, and the bits above them. -/
theorem State.st_setZncv (s : State) (c : Nat) (o : AluOut) :
    bitN ((s.setZncv c o).st c) 3 = (o.r == 0) ∧ bitN ((s.setZncv c o).st c) 2 = bitN o.r 35 ∧
    bitN ((s.setZncv c o).st c) 1 = o.c.getD (bitN (s.st c) 1) ∧ bitN ((s.setZncv c o).st c) 0 = o.v.getD (bitN (s.st c) 0) ∧
    ∀ k, 4 ≤ k → bitN ((s.setZncv c o).st c) k = bitN (s.st c) k := by
  have hs := s.st_lt c
  have hb : ∀ b : Bool, b2n b < 2 := by decide
  have hst : (s.setZncv c o).st c
      = s.st c / 16 * 16 + b2n (o.r == 0) * 8 + b2n (bitN o.r 35) * 4 + b2n (o.c.getD (bitN (s.st c) 1)) * 2
        + b2n (o.v.getD (bitN (s.st c) 0)) := by
    unfold State.setZncv
    conv_lhs => unfold State.st
    rw [State.cr_setCr_same, word_toNat]
    rw [show BitVec.toNat (s.cr c rST) = s.st c from rfl, Nat.mod_eq_of_lt]
    have := hb (o.r == 0); have := hb (bitN o.r 35); have := hb (o.c.getD (bitN (s.st c) 1)); have := hb (o.v.getD (bitN (s.st c) 0))
    omega
  rw [hst]
  generalize o.c.getD (bitN (s.st c) 1) = b1
  generalize o.v.getD (bitN (s.st c) 0) = b0
  generalize (o.r == 0) = b3
  generalize bitN o.r 35 = b2
  refine ⟨?_, ?_, ?_, ?_, ?_⟩
  · unfold bitN; cases b0 <;> cases b1 <;> cases b2 <;> cases b3 <;> simp [b2n] <;> omega
  · unfold bitN; cases b0 <;> cases b1 <;> cases b2 <;> cases b3 <;> simp [b2n] <;> omega
  · unfold bitN; cases b0 <;> cases b1 <;> cases b2 <;> cases b3 <;> simp [b2n] <;> omega
  · unfold bitN; cases b0 <;> cases b1 <;> cases b2 <;> cases b3 <;> simp [b2n] <;> omega
  · intro k hk
    have e : 2 ^ k = 16 * 2 ^ (k - 4) := by rw [show (16 : Nat) = 2 ^ 4 by rfl, ← pow_add]; congr 1; omega
    unfold bitN
    rw [e, ← Nat.div_div_eq_div_mul, ← Nat.div_div_eq_div_mul]
    congr 3
    have := hb b3; have := hb b2; have := hb b1; have := hb b0
    omega

/-! Retirement. -/

theorem State.dst_cases (s : State) (c d : Nat) : ∀ i ∈ s.dst c d, i = d ∨ (12 ≤ d ∧ i = 52 + d) := by
  intro i hi
  unfold State.dst at hi
  split at hi
  · simp at hi
  · rcases s.gSlot_cases c d with h | ⟨h1, h⟩ <;> simp [h] at hi <;> omega

theorem State.rST_notin_dst (s : State) (c d : Nat) (hd : d < 16) : rST ∉ s.dst c d := by
  intro h
  rcases s.dst_cases c d _ h with h | h <;> simp only [rST] at h <;> omega

theorem State.st_setG (s : State) (c d v : Nat) (hd : d < 16) : (s.setG c d v).st c = s.st c :=
  State.st_of_only (CoreOnly.setG c d v s hd) (s.rST_notin_dst c d hd)

theorem State.inNmi_setG (s : State) (c d v : Nat) (hd : d < 16) : (s.setG c d v).inNmi c = s.inNmi c :=
  State.inNmi_of_only (CoreOnly.setG c d v s hd) (s.rST_notin_dst c d hd)

theorem rST_notin_seq : rST ∉ seqSlots := by decide

theorem State.gSlot_notin_seq (s : State) (c d : Nat) (hd : d < 16) : s.gSlot c d ∉ seqSlots := by
  rcases s.gSlot_cases c d with h | ⟨h1, h⟩ <;> rw [h] <;> simp [seqSlots, rPC, rLC, rLB] <;> omega

theorem State.gSlot_ne_rST (s : State) (c d : Nat) (hd : d < 16) : s.gSlot c d ≠ rST := by
  rcases s.gSlot_cases c d with h | ⟨h1, h⟩ <;> rw [h] <;> simp only [rST] <;> omega

/-- The NMI bit is ST bit 29. -/
theorem State.inNmi_st (s : State) (c : Nat) : s.inNmi c = bitN (s.st c) 29 := rfl

/-- The end of an instruction changes no general register and no flag. -/
theorem State.g_advance (s : State) (c d : Nat) (hd : d < 16) : (s.advance c).g c d = s.g c d :=
  State.g_of_only (.advance c s) (State.inNmi_of_only (.advance c s) rST_notin_seq) hd (s.gSlot_notin_seq c d hd)

theorem State.st_advance (s : State) (c : Nat) : (s.advance c).st c = s.st c := State.st_of_only (.advance c s) rST_notin_seq

/-- A general register survives a change of ST that keeps the NMI bit. -/
theorem State.g_of_st {c d : Nat} {s t : State} (h : CoreOnly c [rST] s t) (hb : bitN (t.st c) 29 = bitN (s.st c) 29) (hd : d < 16) :
    t.g c d = s.g c d :=
  State.g_of_only h hb hd (by simpa using s.gSlot_ne_rST c d hd)

theorem State.g_sticky (s : State) (c d k : Nat) (b : Bool) (hd : d < 16) (hk : k < 36) (hn : k ≠ 29) :
    (s.sticky c k b).g c d = s.g c d :=
  State.g_of_st (.sticky c k b s) (by
    rw [s.st_sticky c k b hk]; have : ((29 : Nat) == k) = false := by simp; omega
    simp [this]) hd

theorem State.g_setZncv (s : State) (c d : Nat) (o : AluOut) (hd : d < 16) : (s.setZncv c o).g c d = s.g c d :=
  State.g_of_st (.setZncv c o s) ((s.st_setZncv c o).2.2.2.2 29 (by decide)) hd

/-- What an integer result leaves (R273, R275, R284). -/
theorem State.aluDone_spec (s : State) (c d : Nat) (o : AluOut) (hd : d < 16) (ho : o.r < 2 ^ 36) :
    (d ≠ 0 → (s.aluDone c d o).g c d = o.r) ∧ FlagsAfter c o.r o.c o.v o.ss s (s.aluDone c d o) ∧
      CoreOnly c (s.dst c d ++ rST :: seqSlots) s (s.aluDone c d o) := by
  unfold State.aluDone
  refine ⟨fun h => ?_, ?_, ?_⟩
  · rw [State.g_advance _ _ _ hd, State.g_sticky _ _ _ _ _ hd (by decide) (by decide), State.g_setZncv _ _ _ _ hd,
      State.g_setG_same _ _ _ _ h hd, Nat.mod_eq_of_lt ho]
  · have z := (s.setG c d o.r).st_setZncv c o
    rw [State.st_setG _ _ _ _ hd] at z
    obtain ⟨z3, z2, z1, z0, zh⟩ := z
    have k := fun j => ((s.setG c d o.r).setZncv c o).st_sticky c 31 o.ss (by decide) j
    unfold FlagsAfter
    rw [State.st_advance]
    refine ⟨?_, ?_, ?_, ?_, fun j hj => ?_⟩
    · rw [k 3, z3]; simp
    · rw [k 2, z2]; simp
    · rw [k 1, z1]; simp
    · rw [k 0, z0]; simp
    · rw [k j, zh j hj]
  · refine ((((CoreOnly.setG c d o.r s hd).trans (.setZncv c o _)).trans (.sticky c 31 o.ss _)).trans (.advance c _)).mono ?_
    intro i hi
    simp only [List.mem_append, List.mem_cons] at hi ⊢
    tauto

/-- What a result without flags leaves, but for one sticky bit of ST (R273, R275). -/
theorem State.stickyDone_spec (s : State) (c d v k : Nat) (b : Bool) (hd : d < 16) (hk : k < 36) (hn : k ≠ 29) :
    let t := ((s.setG c d v).sticky c k b).advance c
    (d ≠ 0 → t.g c d = v % 2 ^ 36) ∧ (∀ j, bitN (t.st c) j = (bitN (s.st c) j || (j == k && b))) ∧
      CoreOnly c (s.dst c d ++ rST :: seqSlots) s t := by
  refine ⟨fun h => ?_, fun j => ?_, ?_⟩
  · rw [State.g_advance _ _ _ hd, State.g_sticky _ _ _ _ _ hd hk hn, State.g_setG_same _ _ _ _ h hd]
  · rw [State.st_advance, State.st_sticky _ _ _ _ hk, State.st_setG _ _ _ _ hd]
  · refine (((CoreOnly.setG c d v s hd).trans (.sticky c k b _)).trans (.advance c _)).mono ?_
    intro i hi
    simp only [List.mem_append, List.mem_cons] at hi ⊢
    tauto

/-- What a result without flags leaves (R273). -/
theorem State.regDone_spec (s : State) (c d v : Nat) (hd : d < 16) :
    (d ≠ 0 → (s.regDone c d v).g c d = v % 2 ^ 36) ∧ (∀ j, bitN ((s.regDone c d v).st c) j = bitN (s.st c) j) ∧
      CoreOnly c (s.dst c d ++ rST :: seqSlots) s (s.regDone c d v) := by
  unfold State.regDone
  refine ⟨fun h => ?_, fun j => ?_, ?_⟩
  · rw [State.g_advance _ _ _ hd, State.g_setG_same _ _ _ _ h hd]
  · rw [State.st_advance, State.st_setG _ _ _ _ hd]
  · refine ((CoreOnly.setG c d v s hd).trans (.advance c _)).mono ?_
    intro i hi
    simp only [List.mem_append, List.mem_cons] at hi ⊢
    tauto

end Sys2Proof.Machine
end

