-- ==== Sys2Proof/WellFormed.lean ====
section
/-! DEFINITION. Which commands are well formed: every operand in the range that its rule gives it. A core instruction is one whose
fields fit its encoding (R278 to R309). `exec` does not ask for it: a command outside these ranges names nothing the module has. -/

namespace Sys2Proof

open Machine

/-- An initiator: a core, a Porter engine, the safety island, the boot ROM or the console. -/
def iniOk (n : Nat) : Bool := decide (n < 68) || inRange n 72 3

/-- A list of octets. -/
def octetList (l : List Nat) : Bool := l.all (fun o => decide (o < 256))

/-- The fields of a ring frame fit the header of R364. -/
def Machine.RingFrame.wf (f : RingFrame) : Bool :=
  decide (f.typ < 16) && decide (f.src < 2048) && decide (f.slot < 4096) && decide (f.cyc < 65536) && decide (f.hop < 256)
    && octetList f.payload && decide (f.ver < 16) && decide (f.transit < 2 ^ 32) && decide (f.seq < 256)
    && decide (f.payload.length < 2 ^ 16)

/-- Is a command well formed? -/
def WellFormed (i : Instr) : Bool :=
  match i with
  | .registerWrite ini _ _ => iniOk ini
  | .srst page => decide (page < 8256)
  | .srstEnd page => decide (page < 8256)
  | .tbSrst n => inRange n 1 3
  | .timeSrst => true
  | .prismSrst => true
  | .pageEnableWrite page _ => decide (page < 8256)
  | .gateRequest page => decide (page < 8256)
  | .gateAck page => decide (page < 8256)
  | .gateRefused page => decide (page < 8256)
  | .gateRelease page => decide (page < 8256)
  | .pagePostDeliver => true
  | .eventClear page _ _ _ => decide (page < 8256)
  | .fcCfgWrite ini page _ => iniOk ini && decide (page < 8256)
  | .fcWindowEdge page => decide (page < 8256)
  | .faultClear page _ => decide (page < 8256)
  | .snapshotRead core b => decide (core < 64) && decide (b < 5)
  | .ppsInEdge rising => decide (rising.tap < 32)
  | .tenMhzInEdge => true
  | .tbMeasWrite n _ => inRange n 1 3
  | .tbMeasTimeout n => inRange n 1 3
  | .tbLoad n => inRange n 1 3
  | .tbStep n => inRange n 1 3
  | .tbRateWrite n _ => inRange n 1 3
  | .tbFreqWrite n _ => inRange n 1 3
  | .ctFirstValidity => true
  | .revertHoldoffExpire => true
  | .slewDone => true
  | .ctCtlWrite _ => true
  | .reEpoch _ => true
  | .reEpochDone => true
  | .generationWalkStart => true
  | .generationWalkEnd => true
  | .ppsOutput _ => true
  | .tenMhzOutput _ => true
  | .linkDelayMeasure u _ _ _ _ => decide (u < 10)
  | .txqLoRead u => decide (u < 12)
  | .trgArm n _ => decide (n < 1024)
  | .trgCancel n _ => decide (n < 1024)
  | .trgThRead core n => decide (core < 64) && decide (n < 1024)
  | .trgPast n => decide (n < 1024)
  | .trgFire n => decide (n < 1024)
  | .prismPerWrite k _ => decide (k < 64)
  | .tioPulseFall pin => decide (pin < 16)
  | .tioCapture pin rising => decide (pin < 16) && decide (rising.tap < 32)
  | .tioCloRead pin => decide (pin < 16)
  | .tioCfgWrite ini pin _ => iniOk ini && decide (pin < 16)
  | .pwmCfgWrite ini ch _ => iniOk ini && decide (ch < 96)
  | .shadowWrite ini _ off _ => iniOk ini && (off == 0x11 || inRange off 0x14 4)
  | .pwmCommitStart ch => decide (ch < 96)
  | .pwmCommitStop ch => decide (ch < 96)
  | .pwmCommitGo ch => decide (ch < 96)
  | .carrierStart ch => decide (ch < 96)
  | .carrierCentre ch => decide (ch < 96)
  | .dlcalMeasure port count => decide (port < 12) && decide (count < 65536)
  | .tripQualified ch => decide (ch.ch < 96)
  | .portMclkWrite port _ => decide (port < 12)
  | .mclkStop port => decide (port < 12)
  | .sdWindowClose ch _ _ _ => decide (ch < 96)
  | .sdContinuousResult ch _ _ _ => decide (ch < 96)
  | .sdCfgWrite ch _ => decide (ch < 96)
  | .aleComputation k => decide (k < 24)
  | .aleComputationDone k => decide (k < 24)
  | .aleRefCommit ch => decide (ch < 96)
  | .aleCfgWrite ch _ => decide (ch < 96)
  | .fbkCfgWrite ch _ => decide (ch < 96)
  | .countEdge ch _ _ => decide (ch < 96)
  | .lineFault ch line => decide (ch < 96) && decide (line.line < 3)
  | .fbkLoad ch => decide (ch < 96)
  | .fbkClrunc ch => decide (ch < 96)
  | .fbkPosRead core ch => decide (core < 64) && decide (ch < 96)
  | .index ch => decide (ch < 96)
  | .sincosSample ch s c => decide (ch < 96) && decide (-(2 ^ 15) ≤ s) && decide (s < 2 ^ 15) && decide (-(2 ^ 15) ≤ c) && decide (c < 2 ^ 15)
  | .serialFrameEnd ch _ => decide (ch < 96)
  | .bissReq ch _ => decide (ch < 96)
  | .latchSetReady ch => decide (ch < 96)
  | .watchLatch ch => decide (ch < 96)
  | .fbkLatRead core ch => decide (core < 64) && decide (ch < 96)
  | .emulationEdge ch => decide (ch < 96)
  | .emulationZPulseEnd ch => decide (ch < 96)
  | .fbkSupWrite ini ch _ => iniOk ini && decide (ch < 96)
  | .supplyOk ch => decide (ch < 96)
  | .supplyOvercurrent ch ma => decide (ch < 96) && decide (ma < 1000)
  | .supplyUndervoltage ch => decide (ch < 96)
  | .updateEdge ch _ _ => decide (ch < 96)
  | .absoluteMove ch => decide (ch < 96)
  | .relativeMove ch => decide (ch < 96)
  | .velocityMove ch => decide (ch < 96)
  | .stream ch => decide (ch < 96)
  | .home ch => decide (ch < 96)
  | .abort ch => decide (ch < 96)
  | .qstop ch => decide (ch < 96)
  | .positionLoad ch => decide (ch < 96)
  | .streamPush ch => decide (ch < 96)
  | .streamUnderrun ch => decide (ch < 96)
  | .stepEmit ch => decide (ch < 96)
  | .stepPulseFall ch => decide (ch < 96)
  | .inputDebounced ch inp _ => decide (ch < 96) && decide (inp < 2)
  | .chatterHoldEnd ch inp => decide (ch < 96) && decide (inp < 2)
  | .profPosRead core ch => decide (core < 64) && decide (ch < 96)
  | .profLatRead core ch => decide (core < 64) && decide (ch < 96)
  | .add c _ _ _ => decide (c < 64) && fieldsFit (synlenFields i)
  | .sub c _ _ _ => decide (c < 64) && fieldsFit (synlenFields i)
  | .addc c _ _ _ => decide (c < 64) && fieldsFit (synlenFields i)
  | .subc c _ _ _ => decide (c < 64) && fieldsFit (synlenFields i)
  | .and c _ _ _ => decide (c < 64) && fieldsFit (synlenFields i)
  | .or c _ _ _ => decide (c < 64) && fieldsFit (synlenFields i)
  | .xor c _ _ _ => decide (c < 64) && fieldsFit (synlenFields i)
  | .andn c _ _ _ => decide (c < 64) && fieldsFit (synlenFields i)
  | .min c _ _ _ => decide (c < 64) && fieldsFit (synlenFields i)
  | .max c _ _ _ => decide (c < 64) && fieldsFit (synlenFields i)
  | .minu c _ _ _ => decide (c < 64) && fieldsFit (synlenFields i)
  | .maxu c _ _ _ => decide (c < 64) && fieldsFit (synlenFields i)
  | .adds c _ _ _ => decide (c < 64) && fieldsFit (synlenFields i)
  | .subs c _ _ _ => decide (c < 64) && fieldsFit (synlenFields i)
  | .abss c _ _ => decide (c < 64) && fieldsFit (synlenFields i)
  | .slt c _ _ _ => decide (c < 64) && fieldsFit (synlenFields i)
  | .sltu c _ _ _ => decide (c < 64) && fieldsFit (synlenFields i)
  | .clz c _ _ => decide (c < 64) && fieldsFit (synlenFields i)
  | .popc c _ _ => decide (c < 64) && fieldsFit (synlenFields i)
  | .sll c _ _ _ => decide (c < 64) && fieldsFit (synlenFields i)
  | .srl c _ _ _ => decide (c < 64) && fieldsFit (synlenFields i)
  | .sra c _ _ _ => decide (c < 64) && fieldsFit (synlenFields i)
  | .rol c _ _ _ => decide (c < 64) && fieldsFit (synlenFields i)
  | .slli c _ _ _ => decide (c < 64) && fieldsFit (synlenFields i)
  | .srli c _ _ _ => decide (c < 64) && fieldsFit (synlenFields i)
  | .srai c _ _ _ => decide (c < 64) && fieldsFit (synlenFields i)
  | .roli c _ _ _ => decide (c < 64) && fieldsFit (synlenFields i)
  | .ext c _ _ _ _ => decide (c < 64) && fieldsFit (synlenFields i)
  | .exts c _ _ _ _ => decide (c < 64) && fieldsFit (synlenFields i)
  | .ins c _ _ _ _ => decide (c < 64) && fieldsFit (synlenFields i)
  | .mul c _ _ _ => decide (c < 64) && fieldsFit (synlenFields i)
  | .mulh c _ _ _ => decide (c < 64) && fieldsFit (synlenFields i)
  | .mulhu c _ _ _ => decide (c < 64) && fieldsFit (synlenFields i)
  | .mulf c _ _ _ _ _ => decide (c < 64) && fieldsFit (synlenFields i)
  | .div c _ _ _ => decide (c < 64) && fieldsFit (synlenFields i)
  | .divu c _ _ _ => decide (c < 64) && fieldsFit (synlenFields i)
  | .rem c _ _ _ => decide (c < 64) && fieldsFit (synlenFields i)
  | .remu c _ _ _ => decide (c < 64) && fieldsFit (synlenFields i)
  | .addi c _ _ _ => decide (c < 64) && fieldsFit (synlenFields i)
  | .andi c _ _ _ => decide (c < 64) && fieldsFit (synlenFields i)
  | .ori c _ _ _ => decide (c < 64) && fieldsFit (synlenFields i)
  | .xori c _ _ _ => decide (c < 64) && fieldsFit (synlenFields i)
  | .slti c _ _ _ => decide (c < 64) && fieldsFit (synlenFields i)
  | .li c _ _ _ => decide (c < 64) && fieldsFit (synlenFields i)
  | .ld c _ _ _ => decide (c < 64) && fieldsFit (synlenFields i)
  | .st c _ _ _ => decide (c < 64) && fieldsFit (synlenFields i)
  | .ld2 c _ _ _ => decide (c < 64) && fieldsFit (synlenFields i)
  | .st2 c _ _ _ => decide (c < 64) && fieldsFit (synlenFields i)
  | .ldp c _ _ _ _ _ _ _ => decide (c < 64) && fieldsFit (synlenFields i)
  | .stp c _ _ _ _ _ _ _ => decide (c < 64) && fieldsFit (synlenFields i)
  | .xchg c _ _ _ => decide (c < 64) && fieldsFit (synlenFields i)
  | .cas c _ _ _ => decide (c < 64) && fieldsFit (synlenFields i)
  | .faa c _ _ _ => decide (c < 64) && fieldsFit (synlenFields i)
  | .forA c _ _ _ => decide (c < 64) && fieldsFit (synlenFields i)
  | .fand c _ _ _ => decide (c < 64) && fieldsFit (synlenFields i)
  | .loadReturn c k _ => decide (c < 64) && decide (k < 32)
  | .storeComplete c k _ => decide (c < 64) && decide (k < 32)
  | .accessTimeout c k => decide (c < 64) && decide (k < 32)
  | .remoteStoreAccess ini _ _ => iniOk ini
  | .sta c _ _ _ _ _ _ => decide (c < 64) && fieldsFit (synlenFields i)
  | .bcc c _ _ _ _ => decide (c < 64) && fieldsFit (synlenFields i)
  | .j c _ => decide (c < 64) && fieldsFit (synlenFields i)
  | .jal c _ _ => decide (c < 64) && fieldsFit (synlenFields i)
  | .jr c _ _ => decide (c < 64) && fieldsFit (synlenFields i)
  | .loop c _ _ _ _ _ => decide (c < 64) && fieldsFit (synlenFields i)
  | .mac c _ _ _ _ _ _ => decide (c < 64) && fieldsFit (synlenFields i)
  | .macv c _ _ _ _ _ => decide (c < 64) && fieldsFit (synlenFields i)
  | .macw c _ _ _ _ => decide (c < 64) && fieldsFit (synlenFields i)
  | .cmac c _ _ _ _ _ _ => decide (c < 64) && fieldsFit (synlenFields i)
  | .dot2 c _ _ _ _ _ _ => decide (c < 64) && fieldsFit (synlenFields i)
  | .dot4 c _ _ _ _ _ _ => decide (c < 64) && fieldsFit (synlenFields i)
  | .ftap c _ _ _ _ _ _ _ _ _ => decide (c < 64) && fieldsFit (synlenFields i)
  | .wld c _ _ _ _ _ => decide (c < 64) && fieldsFit (synlenFields i)
  | .sacc c _ _ _ _ => decide (c < 64) && fieldsFit (synlenFields i)
  | .mvax c _ _ => decide (c < 64) && fieldsFit (synlenFields i)
  | .mvah c _ _ => decide (c < 64) && fieldsFit (synlenFields i)
  | .mval c _ _ => decide (c < 64) && fieldsFit (synlenFields i)
  | .seta c _ _ _ => decide (c < 64) && fieldsFit (synlenFields i)
  | .setah c _ _ => decide (c < 64) && fieldsFit (synlenFields i)
  | .setal c _ _ => decide (c < 64) && fieldsFit (synlenFields i)
  | .setax c _ _ => decide (c < 64) && fieldsFit (synlenFields i)
  | .clra c _ => decide (c < 64) && fieldsFit (synlenFields i)
  | .mvw c _ _ => decide (c < 64) && fieldsFit (synlenFields i)
  | .setw c _ _ => decide (c < 64) && fieldsFit (synlenFields i)
  | .mfs c _ _ => decide (c < 64) && fieldsFit (synlenFields i)
  | .mts c _ _ => decide (c < 64) && fieldsFit (synlenFields i)
  | .fadd c _ _ _ _ => decide (c < 64) && fieldsFit (synlenFields i)
  | .fsub c _ _ _ _ => decide (c < 64) && fieldsFit (synlenFields i)
  | .fmul c _ _ _ _ => decide (c < 64) && fieldsFit (synlenFields i)
  | .fma c _ _ _ _ => decide (c < 64) && fieldsFit (synlenFields i)
  | .fms c _ _ _ _ => decide (c < 64) && fieldsFit (synlenFields i)
  | .fdiv c _ _ _ _ => decide (c < 64) && fieldsFit (synlenFields i)
  | .fsqrt c _ _ _ => decide (c < 64) && fieldsFit (synlenFields i)
  | .fmin c _ _ _ _ => decide (c < 64) && fieldsFit (synlenFields i)
  | .fmax c _ _ _ _ => decide (c < 64) && fieldsFit (synlenFields i)
  | .fabs c _ _ _ => decide (c < 64) && fieldsFit (synlenFields i)
  | .fneg c _ _ _ => decide (c < 64) && fieldsFit (synlenFields i)
  | .fcmpeq c _ _ _ _ => decide (c < 64) && fieldsFit (synlenFields i)
  | .fcmplt c _ _ _ _ => decide (c < 64) && fieldsFit (synlenFields i)
  | .fcmple c _ _ _ _ => decide (c < 64) && fieldsFit (synlenFields i)
  | .fclass c _ _ _ => decide (c < 64) && fieldsFit (synlenFields i)
  | .fcvtfi c _ _ _ => decide (c < 64) && fieldsFit (synlenFields i)
  | .fcvtif c _ _ _ => decide (c < 64) && fieldsFit (synlenFields i)
  | .fcvtfq c _ _ _ _ => decide (c < 64) && fieldsFit (synlenFields i)
  | .fcvtqf c _ _ _ _ => decide (c < 64) && fieldsFit (synlenFields i)
  | .fcvtfd c _ _ _ => decide (c < 64) && fieldsFit (synlenFields i)
  | .fcvtdf c _ _ _ => decide (c < 64) && fieldsFit (synlenFields i)
  | .fcvtfs c _ _ _ => decide (c < 64) && fieldsFit (synlenFields i)
  | .fcvtsf c _ _ _ => decide (c < 64) && fieldsFit (synlenFields i)
  | .dadd c _ _ _ _ => decide (c < 64) && fieldsFit (synlenFields i)
  | .dsub c _ _ _ _ => decide (c < 64) && fieldsFit (synlenFields i)
  | .dmul c _ _ _ _ => decide (c < 64) && fieldsFit (synlenFields i)
  | .dfma c _ _ _ _ => decide (c < 64) && fieldsFit (synlenFields i)
  | .ddiv c _ _ _ _ => decide (c < 64) && fieldsFit (synlenFields i)
  | .dsqrt c _ _ _ => decide (c < 64) && fieldsFit (synlenFields i)
  | .dmin c _ _ _ _ => decide (c < 64) && fieldsFit (synlenFields i)
  | .dmax c _ _ _ _ => decide (c < 64) && fieldsFit (synlenFields i)
  | .dcmpeq c _ _ _ _ => decide (c < 64) && fieldsFit (synlenFields i)
  | .dcmplt c _ _ _ _ => decide (c < 64) && fieldsFit (synlenFields i)
  | .dcmple c _ _ _ _ => decide (c < 64) && fieldsFit (synlenFields i)
  | .dcvtdi c _ _ _ => decide (c < 64) && fieldsFit (synlenFields i)
  | .dcvtid c _ _ _ => decide (c < 64) && fieldsFit (synlenFields i)
  | .post c _ _ _ => decide (c < 64) && fieldsFit (synlenFields i)
  | .postResult c => decide (c < 64)
  | .posta c _ _ => decide (c < 64) && fieldsFit (synlenFields i)
  | .doneTask c => decide (c < 64) && fieldsFit (synlenFields i)
  | .yieldTask c => decide (c < 64) && fieldsFit (synlenFields i)
  | .waitc c _ _ => decide (c < 64) && fieldsFit (synlenFields i)
  | .waitcExpire c => decide (c < 64)
  | .fence c _ => decide (c < 64) && fieldsFit (synlenFields i)
  | .isync c => decide (c < 64) && fieldsFit (synlenFields i)
  | .brk c => decide (c < 64) && fieldsFit (synlenFields i)
  | .nret c => decide (c < 64) && fieldsFit (synlenFields i)
  | .exception c cause _ => decide (c < 64) && inRange cause 1 8
  | .nmiEntry c => decide (c < 64)
  | .nmiSet c => decide (c < 64)
  | .postArrive => true
  | .postAccept => true
  | .dispatchDecision => true
  | .activationStart c => decide (c < 64)
  | .resume c => decide (c < 64)
  | .preemption c => decide (c < 64)
  | .cancel t => decide (t < 512)
  | .clear t => decide (t < 512)
  | .resumeCommand t => decide (t < 512)
  | .clearStatistics t => decide (t < 512)
  | .tskCfgWrite t _ => decide (t < 512)
  | .tskAffWrite t _ _ => decide (t < 512)
  | .contextWrite t w _ => decide (t < 512) && inRange w 3 61
  | .innkSrst => true
  | .loadWindowEnd => true
  | .ringLinkUp u => decide (u < 10)
  | .ringFrameReceive u frame => decide (u < 10) && frame.wf
  | .frameOverrunCutoff u frame => decide (u < 10) && frame.wf
  | .slotTransmit e => decide (e < 4096)
  | .ttControlRead e => decide (e < 4096)
  | .heldFrameLaunch u => decide (u < 10)
  | .cycleStart => true
  | .coldStartTimeout => true
  | .linkBlock u => decide (u < 10)
  | .linkBlockReceive u block => decide (u < 10) && decide (block.credits < 256) && decide (block.nbr < 2048)
  | .breakDeclare u => decide (u < 10)
  | .hopRestore u => decide (u < 10)
  | .cyclePoint k => decide (k < 16)
  | .asyncSend u => decide (u < 10)
  | .qtailWrite q _ => decide (q < 26)
  | .qcfgWrite q _ => decide (q < 26)
  | .ethFrameReceive e frame => decide (e < 2) && octetList frame.octets
  | .ethTransmit e q => decide (e < 2) && decide (q < 8)
  | .ethLinkChange e speed => decide (e < 2) && decide (speed < 8)
  | .islandStart _ _ _ _ _ _ => true
  | .hardwareSafeState cause => decide (cause < 256)
  | .islandRestart _ _ _ _ _ _ => true
  | .evaluationCycle bad nodesOn _ => bad.all (fun k => decide (k < 256)) && nodesOn.all (fun k => decide (k < 96))
  | .envelopeNotify ch => decide (ch < 96)
  | .fcNotify page => decide (page < 8256)
  | .enablePort port => decide (port < 12)
  | .stopPort port _ => decide (port < 12)
  | .releaseBrake ch => decide (ch < 96)
  | .applyBrake ch => decide (ch < 96)
  | .releaseEnvelopeStop ch => decide (ch < 96)
  | .holdingTestBegin ch => decide (ch < 96)
  | .holdingTestEnd ch => decide (ch < 96)
  | .acknowledge port => decide (port < 12)
  | .requestLimitSet port set => decide (port < 12) && decide (set < 4)
  | .siSample raw => decide (raw < 4294967296)
  | .testPulse k inMask _ => decide (k < 8) && decide (inMask < 4294967296)
  | .pairDiscrepancy i => decide (i < 32)
  | .soTestPulse k _ => decide (k < 4)
  | .erstFallingEdge ms => decide (ms < 4294967296)
  | .safetyMessageReceive slot octets => decide (slot < 4096) && octetList octets
  | .connectionWatchdogExpire k => decide (k < 64)
  | .safetyMessageSend k data => decide (k < 64) && octetList data
  | .brakePullInEnd ch => decide (ch < 96)
  | .sbcDelayExpire ch => decide (ch < 96)
  | .brakeSwitchTest ch _ => decide (ch < 96)
  | .holdingTestTimeout ch => decide (ch < 96)
  | .holdingTestDue ch => decide (ch < 96)
  | .brakeOvercurrent ch => decide (ch < 96)
  | .scrubRead _ _ => true
  | .logRecordWrite => true
  | .logScanDone => true
  | .mwDataWrite _ => true
  | .mramWordWrite _ _ => true
  | .porterStart k => decide (k < 64)
  | .engineAssign e => decide (e < 4)
  | .descriptorDone e => decide (e < 4)
  | .descriptorFailed e addr _ _ => decide (e < 4) && decide (addr < 68719476736)
  | .porterSrst => true
  | .clkPllWrite _ => true
  | .pllLock k => decide (k < 4)
  | .xoMReady => true
  | .ircReady => true
  | .extOkChange _ => true
  | .disciplineLock pull => decide (-(2 ^ 35) ≤ pull) && decide (pull < 2 ^ 35)
  | .pclkRelease => true
  | .memcRelease => true
  | .stopSwitchRestart _ src => decide (src < 4)
  | .checkedSwitch _ src => decide (src < 4)
  | .switchDone _ => true
  | .throttleChange _ => true
  | .clkSscWrite _ => true
  | .monitorTrip clk _ => decide (clk < 6)
  | .forcedGate page => decide (page < 8256)
  | .moduleReset _ _ => true
  | .computeReset _ src => inRange src 1 3
  | .powerOnReset => true
  | .boot ms _ _ => decide (ms < 1048576)
  | .recoveryRequest => true
  | .consoleInfo => true
  | .consoleRead off count => decide (off < 8388608) && decide (count < 4097)
  | .consoleWrite off _ => decide (off < 8388608)
  | .consoleKey key sig => octetList key && octetList sig
  | .consoleMinissue _ issue => decide (issue < 4294967296)
  | .consoleGate page => decide (page < 8256)
  | .consoleReset kind => decide (kind < 4)
  | .portIdentityMeasure port ohm => decide (port < 12) && decide (ohm < 4294967296)
  | .logicInputLost _ => true
  | .logicInputReturned _ => true
  | .brakeInputFault _ => true
  | .fanFailed k => decide (k < 2)
  | .fanRunning k => decide (k < 2)
  | .temperatureWarning _ => true
  | .overTemperatureShutdown _ => true
  | .environmentUpdate _ _ _ _ _ => true
  | .gateEdge ch => decide (ch < 96)
  | .zFall ch => decide (ch < 96)
  | .ringLinkLost u => decide (u < 10)
  | .pfcFrameRepeat e prio => decide (e < 2) && decide (prio < 8)
  | .pfcPauseExpire e prio => decide (e < 2) && decide (prio < 8)
  | .islandSramScrub addr _ => decide (addr < 16777216)

end Sys2Proof
end

