-- ==== Sys2Proof/Tests/Slice0.lean ====
section
/-! SUPPORT. The model's own tests: ill-formed commands, instruction words written out from the spec, single steps, and states that meet
the hypotheses of the statements. -/

namespace Sys2Proof

open Machine Host

set_option Elab.async false

/-! Well-formedness. -/

theorem test_wellFormed_accepts :
    [Instr.registerWrite 74 0xFFFFFFFFF 0, .srst 8255, .tbSrst 3, .trgArm 1023 0, .add 63 15 15 15, .li 63 15 true 0x3FFFF,
     .contextWrite 511 63 0, .linkBlockReceive 9 { credits := 255, nbr := 2047 }, .islandSramScrub 16777215 .ok].all WellFormed = true := by
  decide +kernel


/-- Commands with one operand out of range, part 1: one for each check of `WellFormed`. -/
theorem test_illFormed1_refused :
  [Instr.registerWrite 68 0 0, .srst 8256, .srstEnd 8256, .tbSrst 4, .pageEnableWrite 8256 false,
   .gateRequest 8256, .gateAck 8256, .gateRefused 8256, .gateRelease 8256, .eventClear 8256 false 0 0,
   .fcCfgWrite 68 0 0, .fcCfgWrite 0 8256 0, .fcWindowEdge 8256, .faultClear 8256 false, .snapshotRead 64 0,
   .snapshotRead 0 5, .ppsInEdge { tap := 32 }, .tbMeasWrite 4 0, .tbMeasTimeout 4, .tbLoad 4,
   .tbStep 4, .tbRateWrite 4 0, .tbFreqWrite 4 0, .linkDelayMeasure 10 0 0 0 0, .txqLoRead 12,
   .trgArm 1024 0, .trgCancel 1024 0, .trgThRead 64 0, .trgThRead 0 1024, .trgPast 1024,
   .trgFire 1024, .prismPerWrite 64 0, .tioPulseFall 16, .tioCapture 16 {}, .tioCapture 0 { tap := 32 },
   .tioCloRead 16, .tioCfgWrite 68 0 0, .tioCfgWrite 0 16 0, .pwmCfgWrite 68 0 0, .pwmCfgWrite 0 96 0,
   .shadowWrite 68 0 0x11 0, .shadowWrite 0 0 0x12 0, .pwmCommitStart 96, .pwmCommitStop 96, .pwmCommitGo 96,
   .carrierStart 96, .carrierCentre 96, .dlcalMeasure 12 0, .dlcalMeasure 0 65536, .tripQualified { ch := 96 }].all (fun i => !WellFormed i) = true := by decide +kernel

/-- Commands with one operand out of range, part 2: one for each check of `WellFormed`. -/
theorem test_illFormed2_refused :
  [Instr.portMclkWrite 12 0, .mclkStop 12, .sdWindowClose 96 [] [] [], .sdContinuousResult 96 [] [] [], .sdCfgWrite 96 0,
   .aleComputation 24, .aleComputationDone 24, .aleRefCommit 96, .aleCfgWrite 96 0, .fbkCfgWrite 96 0,
   .countEdge 96 false false, .lineFault 96 {}, .lineFault 0 { line := 3 }, .fbkLoad 96, .fbkClrunc 96,
   .fbkPosRead 64 0, .fbkPosRead 0 96, .index 96, .sincosSample 96 0 0, .sincosSample 0 (-(2 ^ 15) - 1) 0,
   .sincosSample 0 (2 ^ 15) 0, .sincosSample 0 0 (-(2 ^ 15) - 1), .sincosSample 0 0 (2 ^ 15), .serialFrameEnd 96 {}, .bissReq 96 0,
   .latchSetReady 96, .watchLatch 96, .fbkLatRead 64 0, .fbkLatRead 0 96, .emulationEdge 96,
   .emulationZPulseEnd 96, .fbkSupWrite 68 0 0, .fbkSupWrite 0 96 0, .supplyOk 96, .supplyOvercurrent 96 0,
   .supplyOvercurrent 0 1000, .supplyUndervoltage 96, .updateEdge 96 false false, .absoluteMove 96, .relativeMove 96,
   .velocityMove 96, .stream 96, .home 96, .abort 96, .qstop 96,
   .positionLoad 96, .streamPush 96, .streamUnderrun 96, .stepEmit 96, .stepPulseFall 96].all (fun i => !WellFormed i) = true := by decide +kernel

/-- Commands with one operand out of range, part 3: one for each check of `WellFormed`. -/
theorem test_illFormed3_refused :
  [Instr.inputDebounced 96 0 false, .inputDebounced 0 2 false, .chatterHoldEnd 96 0, .chatterHoldEnd 0 2, .profPosRead 64 0,
   .profPosRead 0 96, .profLatRead 64 0, .profLatRead 0 96, .add 64 0 0 0, .add 0 2048 0 0,
   .sub 64 0 0 0, .sub 0 2048 0 0, .addc 64 0 0 0, .addc 0 2048 0 0, .subc 64 0 0 0,
   .subc 0 2048 0 0, .and 64 0 0 0, .and 0 2048 0 0, .or 64 0 0 0, .or 0 2048 0 0,
   .xor 64 0 0 0, .xor 0 2048 0 0, .andn 64 0 0 0, .andn 0 2048 0 0, .min 64 0 0 0,
   .min 0 2048 0 0, .max 64 0 0 0, .max 0 2048 0 0, .minu 64 0 0 0, .minu 0 2048 0 0,
   .maxu 64 0 0 0, .maxu 0 2048 0 0, .adds 64 0 0 0, .adds 0 2048 0 0, .subs 64 0 0 0,
   .subs 0 2048 0 0, .abss 64 0 0, .abss 0 2048 0, .slt 64 0 0 0, .slt 0 2048 0 0,
   .sltu 64 0 0 0, .sltu 0 2048 0 0, .clz 64 0 0, .clz 0 2048 0, .popc 64 0 0,
   .popc 0 2048 0, .sll 64 0 0 0, .sll 0 2048 0 0, .srl 64 0 0 0, .srl 0 2048 0 0].all (fun i => !WellFormed i) = true := by decide +kernel

/-- Commands with one operand out of range, part 4: one for each check of `WellFormed`. -/
theorem test_illFormed4_refused :
  [Instr.sra 64 0 0 0, .sra 0 2048 0 0, .rol 64 0 0 0, .rol 0 2048 0 0, .slli 64 0 0 0,
   .slli 0 2048 0 0, .srli 64 0 0 0, .srli 0 2048 0 0, .srai 64 0 0 0, .srai 0 2048 0 0,
   .roli 64 0 0 0, .roli 0 2048 0 0, .ext 64 0 0 0 0, .ext 0 2048 0 0 0, .exts 64 0 0 0 0,
   .exts 0 2048 0 0 0, .ins 64 0 0 0 0, .ins 0 2048 0 0 0, .mul 64 0 0 0, .mul 0 2048 0 0,
   .mulh 64 0 0 0, .mulh 0 2048 0 0, .mulhu 64 0 0 0, .mulhu 0 2048 0 0, .mulf 64 0 0 0 0 0,
   .mulf 0 2048 0 0 0 0, .div 64 0 0 0, .div 0 2048 0 0, .divu 64 0 0 0, .divu 0 2048 0 0,
   .rem 64 0 0 0, .rem 0 2048 0 0, .remu 64 0 0 0, .remu 0 2048 0 0, .addi 64 0 0 0,
   .addi 0 2048 0 0, .andi 64 0 0 0, .andi 0 2048 0 0, .ori 64 0 0 0, .ori 0 2048 0 0,
   .xori 64 0 0 0, .xori 0 2048 0 0, .slti 64 0 0 0, .slti 0 2048 0 0, .li 64 0 false 0,
   .li 0 2048 false 0, .ld 64 0 0 0, .ld 0 2048 0 0, .st 64 0 0 0, .st 0 2048 0 0].all (fun i => !WellFormed i) = true := by decide +kernel

/-- Commands with one operand out of range, part 5: one for each check of `WellFormed`. -/
theorem test_illFormed5_refused :
  [Instr.ld2 64 0 0 0, .ld2 0 2048 0 0, .st2 64 0 0 0, .st2 0 2048 0 0, .ldp 64 0 0 0 0 false false 0,
   .ldp 0 2048 0 0 0 false false 0, .stp 64 0 0 0 0 false false 0, .stp 0 2048 0 0 0 false false 0, .xchg 64 0 0 0, .xchg 0 2048 0 0,
   .cas 64 0 0 0, .cas 0 2048 0 0, .faa 64 0 0 0, .faa 0 2048 0 0, .forA 64 0 0 0,
   .forA 0 2048 0 0, .fand 64 0 0 0, .fand 0 2048 0 0, .loadReturn 64 0 .ok, .loadReturn 0 32 .ok,
   .storeComplete 64 0 .ok, .storeComplete 0 32 .ok, .accessTimeout 64 0, .accessTimeout 0 32, .remoteStoreAccess 68 0 none,
   .sta 64 0 0 0 0 false 0, .sta 0 2048 0 0 0 false 0, .bcc 64 0 0 0 0, .bcc 0 2048 0 0 0, .j 64 0,
   .jal 64 0 0, .jal 0 2048 0, .jr 64 0 0, .jr 0 2048 0, .loop 64 0 false 0 0 0,
   .loop 0 2048 false 0 0 0, .mac 64 0 0 0 false false 0, .mac 0 2048 0 0 false false 0, .macv 64 0 0 false false 0, .macv 0 2048 0 false false 0,
   .macw 64 0 false false 0, .macw 0 2048 false false 0, .cmac 64 0 0 0 false false 0, .cmac 0 2048 0 0 false false 0, .dot2 64 0 0 0 false false 0,
   .dot2 0 2048 0 0 false false 0, .dot4 64 0 0 0 false false 0, .dot4 0 2048 0 0 false false 0, .ftap 64 0 false false 0 0 false false 0 false, .ftap 0 2048 false false 0 0 false false 0 false].all (fun i => !WellFormed i) = true := by decide +kernel

/-- Commands with one operand out of range, part 6: one for each check of `WellFormed`. -/
theorem test_illFormed6_refused :
  [Instr.wld 64 0 0 0 false 0, .wld 0 2048 0 0 false 0, .sacc 64 0 0 0 0, .sacc 0 2048 0 0 0, .mvax 64 0 0,
   .mvax 0 2048 0, .mvah 64 0 0, .mvah 0 2048 0, .mval 64 0 0, .mval 0 2048 0,
   .seta 64 0 0 0, .seta 0 2048 0 0, .setah 64 0 0, .setah 0 2048 0, .setal 64 0 0,
   .setal 0 2048 0, .setax 64 0 0, .setax 0 2048 0, .clra 64 0, .clra 0 2048,
   .mvw 64 0 0, .mvw 0 2048 0, .setw 64 0 0, .setw 0 2048 0, .mfs 64 0 0,
   .mfs 0 2048 0, .mts 64 0 0, .mts 0 2048 0, .fadd 64 0 0 0 0, .fadd 0 2048 0 0 0,
   .fsub 64 0 0 0 0, .fsub 0 2048 0 0 0, .fmul 64 0 0 0 0, .fmul 0 2048 0 0 0, .fma 64 0 0 0 0,
   .fma 0 2048 0 0 0, .fms 64 0 0 0 0, .fms 0 2048 0 0 0, .fdiv 64 0 0 0 0, .fdiv 0 2048 0 0 0,
   .fsqrt 64 0 0 0, .fsqrt 0 2048 0 0, .fmin 64 0 0 0 0, .fmin 0 2048 0 0 0, .fmax 64 0 0 0 0,
   .fmax 0 2048 0 0 0, .fabs 64 0 0 0, .fabs 0 2048 0 0, .fneg 64 0 0 0, .fneg 0 2048 0 0].all (fun i => !WellFormed i) = true := by decide +kernel

/-- Commands with one operand out of range, part 7: one for each check of `WellFormed`. -/
theorem test_illFormed7_refused :
  [Instr.fcmpeq 64 0 0 0 0, .fcmpeq 0 2048 0 0 0, .fcmplt 64 0 0 0 0, .fcmplt 0 2048 0 0 0, .fcmple 64 0 0 0 0,
   .fcmple 0 2048 0 0 0, .fclass 64 0 0 0, .fclass 0 2048 0 0, .fcvtfi 64 0 0 0, .fcvtfi 0 2048 0 0,
   .fcvtif 64 0 0 0, .fcvtif 0 2048 0 0, .fcvtfq 64 0 0 0 0, .fcvtfq 0 2048 0 0 0, .fcvtqf 64 0 0 0 0,
   .fcvtqf 0 2048 0 0 0, .fcvtfd 64 0 0 0, .fcvtfd 0 2048 0 0, .fcvtdf 64 0 0 0, .fcvtdf 0 2048 0 0,
   .fcvtfs 64 0 0 0, .fcvtfs 0 2048 0 0, .fcvtsf 64 0 0 0, .fcvtsf 0 2048 0 0, .dadd 64 0 0 0 0,
   .dadd 0 2048 0 0 0, .dsub 64 0 0 0 0, .dsub 0 2048 0 0 0, .dmul 64 0 0 0 0, .dmul 0 2048 0 0 0,
   .dfma 64 0 0 0 0, .dfma 0 2048 0 0 0, .ddiv 64 0 0 0 0, .ddiv 0 2048 0 0 0, .dsqrt 64 0 0 0,
   .dsqrt 0 2048 0 0, .dmin 64 0 0 0 0, .dmin 0 2048 0 0 0, .dmax 64 0 0 0 0, .dmax 0 2048 0 0 0,
   .dcmpeq 64 0 0 0 0, .dcmpeq 0 2048 0 0 0, .dcmplt 64 0 0 0 0, .dcmplt 0 2048 0 0 0, .dcmple 64 0 0 0 0,
   .dcmple 0 2048 0 0 0, .dcvtdi 64 0 0 0, .dcvtdi 0 2048 0 0, .dcvtid 64 0 0 0, .dcvtid 0 2048 0 0].all (fun i => !WellFormed i) = true := by decide +kernel

/-- Commands with one operand out of range, part 8: one for each check of `WellFormed`. -/
theorem test_illFormed8_refused :
  [Instr.post 64 0 0 0, .post 0 2048 0 0, .postResult 64, .posta 64 0 0, .posta 0 2048 0,
   .doneTask 64, .yieldTask 64, .waitc 64 0 0, .waitc 0 2048 0, .waitcExpire 64,
   .fence 64 false, .isync 64, .brk 64, .nret 64, .exception 64 1 0,
   .exception 0 9 0, .nmiEntry 64, .nmiSet 64, .activationStart 64, .resume 64,
   .preemption 64, .cancel 512, .clear 512, .resumeCommand 512, .clearStatistics 512,
   .tskCfgWrite 512 0, .tskAffWrite 512 false 0, .contextWrite 512 3 0, .contextWrite 0 64 0, .ringLinkUp 10,
   .ringFrameReceive 10 {}, .ringFrameReceive 0 { typ := 16 }, .ringFrameReceive 0 { src := 2048 }, .ringFrameReceive 0 { slot := 4096 }, .ringFrameReceive 0 { cyc := 65536 },
   .ringFrameReceive 0 { hop := 256 }, .ringFrameReceive 0 { payload := [256] }, .frameOverrunCutoff 10 {}, .frameOverrunCutoff 0 { typ := 16 }, .frameOverrunCutoff 0 { src := 2048 },
   .frameOverrunCutoff 0 { slot := 4096 }, .frameOverrunCutoff 0 { cyc := 65536 }, .frameOverrunCutoff 0 { hop := 256 }, .frameOverrunCutoff 0 { payload := [256] }, .slotTransmit 4096,
   .ttControlRead 4096, .heldFrameLaunch 10, .linkBlock 10, .linkBlockReceive 10 {}, .linkBlockReceive 0 { credits := 256 }].all (fun i => !WellFormed i) = true := by decide +kernel

/-- Commands with one operand out of range, part 9: one for each check of `WellFormed`. -/
theorem test_illFormed9_refused :
  [Instr.linkBlockReceive 0 { nbr := 2048 }, .breakDeclare 10, .hopRestore 10, .cyclePoint 16, .asyncSend 10,
   .qtailWrite 26 0, .qcfgWrite 26 0, .ethFrameReceive 2 {}, .ethFrameReceive 0 { octets := [256] }, .ethTransmit 2 0,
   .ethTransmit 0 8, .ethLinkChange 2 0, .ethLinkChange 0 8, .hardwareSafeState 256, .evaluationCycle (some 256) [] false,
   .evaluationCycle none [0, 96] false, .envelopeNotify 96, .fcNotify 8256, .enablePort 12, .stopPort 12 false,
   .releaseBrake 96, .applyBrake 96, .releaseEnvelopeStop 96, .holdingTestBegin 96, .holdingTestEnd 96,
   .acknowledge 12, .requestLimitSet 12 0, .requestLimitSet 0 4, .siSample 4294967296, .testPulse 8 0 false,
   .testPulse 0 4294967296 false, .pairDiscrepancy 32, .soTestPulse 4 false, .erstFallingEdge 4294967296, .safetyMessageReceive 4096 [],
   .safetyMessageReceive 0 [256], .connectionWatchdogExpire 64, .safetyMessageSend 64 [], .safetyMessageSend 0 [256], .brakePullInEnd 96,
   .sbcDelayExpire 96, .brakeSwitchTest 96 false, .holdingTestTimeout 96, .holdingTestDue 96, .brakeOvercurrent 96,
   .porterStart 64, .engineAssign 4, .descriptorDone 4, .descriptorFailed 4 0 false .ok, .descriptorFailed 0 68719476736 false .ok].all (fun i => !WellFormed i) = true := by decide +kernel

/-- Commands with one operand out of range, part 10: one for each check of `WellFormed`. -/
theorem test_illFormed10_refused :
  [Instr.pllLock 4, .disciplineLock (-(2 ^ 35) - 1), .disciplineLock (2 ^ 35), .stopSwitchRestart false 4, .checkedSwitch false 4,
   .monitorTrip 6 false, .forcedGate 8256, .computeReset false 4, .boot 1048576 false false, .consoleRead 8388608 0,
   .consoleRead 0 4097, .consoleWrite 8388608 [], .consoleKey [256] [], .consoleKey [] [256], .consoleMinissue false 4294967296,
   .consoleGate 8256, .consoleReset 4, .portIdentityMeasure 12 0, .portIdentityMeasure 0 4294967296, .fanFailed 2,
   .fanRunning 2, .gateEdge 96, .zFall 96, .ringLinkLost 10, .pfcFrameRepeat 2 0,
   .pfcFrameRepeat 0 8, .pfcPauseExpire 2 0, .pfcPauseExpire 0 8, .islandSramScrub 16777216 .ok].all (fun i => !WellFormed i) = true := by decide +kernel

/-! Instruction words, written out bit by bit from the encodings of R278 to R309. -/

/-- The words of the worked example of the Synlen chapter: LOOP 0, 4, end 0x0105; FTAP A0, P0, P1, mv, dn; SACC G7, A0, 32, nearest even. -/
theorem test_words_of_the_filter :
    encodeSynlen (.loop 63 0 false 0 4 0x105) = 0x680010105 ∧
    encodeSynlen (.ftap 63 0 false true 0 1 false false 0 true) = 0x844108000 ∧
    encodeSynlen (.sacc 63 7 0 2 32) = 0x19C0000A0 := by decide +kernel

/-- Word to instruction, one of each format: ADDI G0, G0, 0 (NOP), ADD, SLLI, LI, LD, LDP, CAS, STA, BCC, MAC, FADD, DADD, POST, MTS. -/
theorem test_words_decode :
    decodeSynlen 63 0x200000000 = some (.addi 63 0 0 0) ∧
    decodeSynlen 63 (1 * 2 ^ 30 + 3 * 2 ^ 26 + 1 * 2 ^ 22 + 2 * 2 ^ 18) = some (.add 63 3 1 2) ∧
    decodeSynlen 63 (2 * 2 ^ 30 + 3 * 2 ^ 26 + 1 * 2 ^ 22 + 8 * 2 ^ 12 + 35) = some (.slli 63 3 1 35) ∧
    decodeSynlen 63 (13 * 2 ^ 30 + 3 * 2 ^ 26 + 2 ^ 25 + 5) = some (.li 63 3 true 5) ∧
    decodeSynlen 63 (16 * 2 ^ 30 + 3 * 2 ^ 26 + 1 * 2 ^ 22 + (2 ^ 22 - 1)) = some (.ld 63 3 1 (-1)) ∧
    decodeSynlen 63 (20 * 2 ^ 30 + 3 * 2 ^ 26 + 2 * 2 ^ 23 + 1 * 2 ^ 21 + 2 ^ 18 + 7) = some (.ldp 63 3 2 1 0 true false 7) ∧
    decodeSynlen 63 (22 * 2 ^ 30 + 3 * 2 ^ 26 + 1 * 2 ^ 22 + 2 * 2 ^ 18 + 1 * 2 ^ 12) = some (.cas 63 3 1 2) ∧
    decodeSynlen 63 (23 * 2 ^ 30 + 3 * 2 ^ 26 + 6 * 2 ^ 23 + 2 * 2 ^ 21 + 1 * 2 ^ 19) = some (.sta 63 3 6 2 1 false 0) ∧
    decodeSynlen 63 (24 * 2 ^ 30 + 5 * 2 ^ 26 + 1 * 2 ^ 22 + 2 * 2 ^ 18 + 0x123) = some (.bcc 63 5 1 2 0x123) := by decide +kernel

/-- A word that no encoding gives is refused: opcode 0, and a reserved field that is not 0 (R280). -/
theorem test_words_refused :
    decodeSynlen 63 0 = none ∧ decodeSynlen 63 (1 * 2 ^ 30 + 2 ^ 17) = none ∧ decodeSynlen 63 (1 * 2 ^ 30 + 20 * 2 ^ 12) = none := by
  decide +kernel

/-! Single steps. Expected values come from the spec's text. -/

/-- Core 63 runs a task, with values in its registers. -/
def coreWith (l : List (Nat × Word)) : State := { State.reset.setCo 63 { State.reset.co 63 with task := some 5 } with crs := l }

/-- The state after an outcome; the state itself when it is a fault or a refusal. -/
def stateOf (o : Outcome State Fault Refusal) (s : State) : State :=
  match o with
  | .next t => t
  | _ => s

/-- A state after one command. -/
def after (s : State) (i : Instr) : State := stateOf (exec i s) s

/-- A read of SYS_CAP0 on a U96 returns 0x5_A160_0107, and SYS_CAP3 returns 0x0_215D_740E (the architecture chapter's example). -/
theorem test_capabilities : State.reset.reg (pSys + 0x10) = 0x5A1600107 ∧ State.reset.reg (pSys + 0x13) = 0x0215D740E := by decide +kernel

/-- Division by zero: the quotient is all ones, the remainder is the dividend, and ST.dz is set (R286). -/
theorem test_div_zero :
    (after (coreWith [(128 * 63 + 1, 7)]) (.div 63 3 1 2)).g 63 3 = 0xFFFFFFFFF ∧
    (after (coreWith [(128 * 63 + 1, 7)]) (.rem 63 3 1 2)).g 63 3 = 7 := by decide +kernel

/-- Dividing −2³⁵ by −1 gives −2³⁵, remainder 0 (R286). -/
theorem test_div_most_negative :
    (after (coreWith [(128 * 63 + 1, 0x800000000), (128 * 63 + 2, 0xFFFFFFFFF)]) (.div 63 3 1 2)).g 63 3 = 0x800000000 ∧
    (after (coreWith [(128 * 63 + 1, 0x800000000), (128 * 63 + 2, 0xFFFFFFFFF)]) (.rem 63 3 1 2)).g 63 3 = 0 := by decide +kernel

/-- The example of R291: with L0 = 8, a pointer 14 words into the buffer folds to word 7. -/
theorem test_ldp_fold :
    (after (coreWith [(128 * 63 + 16, 0xFC000010E), (128 * 63 + 28, 0xFC0000100), (128 * 63 + 32, 8)]) (.ldp 63 3 0 1 0 true false 1)).ptr 63 0
      = 0xFC0000107 := by decide +kernel

/-- The worked example's last step: A0 with h = 0xD180 and l = 0 gives G7 = 0x0_000D_1800 under SACC with a shift of 32. -/
theorem test_sacc : (after (coreWith [(128 * 63 + 36, 0xD180)]) (.sacc 63 7 0 2 32)).g 63 7 = 0xD1800 := by decide +kernel

/-- G0 reads 0 and discards writes (R273). -/
theorem test_g0 : (after (coreWith [(128 * 63 + 1, 7)]) (.add 63 0 1 1)).g 63 0 = 0 := by decide +kernel

/-- An illegal instruction takes exception 1, and its word changes nothing else: G3 stays (R280, R311). -/
theorem test_illegal : (after (coreWith [(128 * 63 + 3, 9)]) (.ext 63 3 1 30 10)).g 63 3 = 9 := by decide +kernel

/-- A store to the own data store and a load of it (R288, R293). -/
theorem test_store_load :
    let s := after (coreWith [(128 * 63 + 1, 0xFC0000010), (128 * 63 + 2, 0x123456789)]) (.st 63 2 1 0)
    (after s (.ld 63 3 1 0)).g 63 3 = 0x123456789 := by decide +kernel

/-- An event sets its bit; a clear takes it away, and a new event in the same cycle keeps it (R22, R24). -/
theorem test_event_clear :
    (State.reset.ev pRing0 3).get pRing0 PAGE_EV.ev = 8 ∧
    (after (State.reset.ev pRing0 3) (.eventClear 0x700 false 8 0)).get pRing0 PAGE_EV.ev = 0 ∧
    (after (State.reset.ev pRing0 3) (.eventClear 0x700 false 8 8)).get pRing0 PAGE_EV.ev = 8 := by decide +kernel

/-- A register write reaches a read-write register and no read-only one (R20). -/
theorem test_register_write :
    (after State.reset (.registerWrite 5 0xF80000010 0)).reg 0xF80000010 = 0x5A1600107 := by decide +kernel

/-- A step with a command in front runs it and leaves the rest of the queue. -/
theorem test_step_takes_the_front :
    step { State.reset with pending := [.fanFailed 0, .fanRunning 0] } = exec (.fanFailed 0) { State.reset with pending := [.fanRunning 0] } := rfl


/-! Witnesses: for each statement with hypotheses, states and operands that meet those of each of its clauses together. -/

/-- Core 63 runs task 5 and can issue. -/
def readyCore : State := State.reset.setCo 63 { State.reset.co 63 with task := some 5 }

/-- Channel 95 moves at speed 1 while its limit input in the plus direction is active. -/
def limitS : State :=
  let s : State := State.reset.setPr 95 { plan := [{ dur := 10, v0 := 1, v1 := 1, p1 := 10 }], inA := { level := true } }
  s.put (pProf 95) PROF_LIM.r0 1

/-- The own serial identity is 5 and stands in the name table at address 0. -/
def namedS : State :=
  { State.reset with
    regs := [(pSys + 0x17, 5), (pSys + 0x18, 0), (pNames, 5), (pNames + 1, 0)] }

/-- The own name lock holds in state 2, and four starts have been heard. -/
def serialS : State :=
  let s : State := (namedS.put pNames (NAME_HI.present 0) 1).put pRing0 RING_STAT.state 2
  { s with ring := { s.ring with starts := 4 } }

/-- The node listens, and is the cold-start candidate of index 0. -/
def coldS : State :=
  let s : State := (namedS.put pNames (NAME_HI.present 0) 1).put pNames (NAME_HI.cand 0) 1
  let s : State := { s with time := { s.time with cnt := [(0, 2 ^ 75), (4, 2 ^ 75)] } }
  (s.put pRing0 RING_STAT.state 1).put pTime0 TIME_CT_STAT.valid 1

/-- Port 0 has a frame of 64 octets at the head of queue 7. -/
def ethS : State :=
  let s : State := { State.reset with mem := [(0, 0x800000040)] }
  let s : State := ((s.put (pEth 0) ETH_LINK.up 1).put (pEth 0) PAGE_CTL.en 1).put (pEth 0) ETH_CFG.maxfr 1522
  let s : State := (s.put (pEth 0) ETH_CAP.rate 100).put (pEth 0) ETH_CAP.burst 2000
  let s : State := s.put (pTsu 10) TIME_TSU_CFG.en 0
  (s.setReg (txqAddr 0 7 + 1) (2 ^ 35 + 2 ^ 31)).setReg (txqAddr 0 7 + 3) 1

/-- A safety connection. -/
def connC : ConnCfg := { conn := 7, seed := 9 }

/-- Connection 5 is healthy and has taken message 4. -/
def connS : State :=
  let s : State := State.reset.put (pSafe 0) SAFE_CONN0.ok 32
  { s with isl := { s.isl with conn := [(5, { num := some 4, goods := 1 })] } }

/-- Connection 5 is healthy, and the message before was its first good one. -/
def connS1 : State := { connS with isl := { connS.isl with conn := [(5, { num := some 4 })] } }

/-- The module is in recovery. -/
def recoveryS : State := State.reset.put pSys SYS_BOOT.state 1

/-! Images: the key in slot 0 and the point R of each signature are the neutral element and S is 0, which match any message. -/

theorem mod_shift (P u v : Nat) : (u + P) * (v + P) % P = u * v % P := by
  rw [Nat.mul_mod, Nat.add_mod_right, Nat.add_mod_right, ← Nat.mul_mod]

theorem mod_double (P u v : Nat) : 2 * u % P * v % P = (u * v + u * v) % P := by
  rw [Nat.mul_mod, Nat.mod_mod, ← Nat.mul_mod]; congr 1; ring

theorem edAdd_neutral (u v : Nat) : ∃ w, edAdd (0, u, u, 0) (0, v, v, 0) = (0, w, w, 0) := by
  refine ⟨(2 * u % edP * v % edP) * (2 * u % edP * v % edP) % edP, ?_⟩
  have ha : (u + edP) * (v + edP) % edP = u * v % edP := mod_shift _ _ _
  have hd : 2 * u % edP * v % edP = (u * v + u * v) % edP := mod_double _ _ _
  unfold edAdd
  simp only [Nat.sub_zero, Nat.add_zero, Nat.mul_zero, Nat.zero_mod, Nat.zero_mul, ha, hd]
  generalize edP = P at *
  have h1 : (u * v % P + P - u * v % P) % P = 0 := by
    rw [Nat.add_sub_cancel_left]; exact Nat.mod_self P
  rw [h1]
  simp

theorem edMul_neutral (n k u : Nat) : ∃ w, edMul n k (0, u, u, 0) = (0, w, w, 0) := by
  induction n generalizing k u with
  | zero => exact ⟨1, rfl⟩
  | succ n ih =>
    obtain ⟨v, hv⟩ := edAdd_neutral u u
    obtain ⟨w, hw⟩ := ih (k / 2) v
    simp only [edMul, hv, hw]
    split
    · exact edAdd_neutral w u
    · exact ⟨w, rfl⟩

theorem edMul_none (n : Nat) (p : EdPoint) : edMul n 0 p = (0, 1, 1, 0) := by
  induction n generalizing p with
  | zero => rfl
  | succ n ih => simp [edMul, ih]

def idKey : List Nat := 1 :: List.replicate 31 0
def idSig : List Nat := 1 :: List.replicate 63 0

theorem edVerify_neutral (m : List Nat) : edVerify idKey m idSig = true := by
  have hk : edDecode idKey = some (0, 1, 1, 0) := by decide +kernel
  have hs : edDecode idSig = some (0, 1, 1, 0) := by decide +kernel
  obtain ⟨b, hb⟩ : ∃ b, edB = some b := Option.isSome_iff_exists.mp (by decide +kernel)
  have h0 : leVal ((idSig.drop 32).take 32) = 0 := by decide
  have hl : idSig.length = 64 ∧ idKey.length = 32 ∧ 0 < edL := by decide +kernel
  simp only [edVerify, hk, hs, hb, h0, hl, edMul_none]
  generalize leVal (sha512 _) % edL = k
  obtain ⟨w, hw⟩ := edMul_neutral 256 k 1
  obtain ⟨x, hx⟩ := edAdd_neutral 1 w
  obtain ⟨y, hy⟩ := edMul_neutral 4 8 1
  obtain ⟨z, hz⟩ := edMul_neutral 4 8 x
  simp only [hw, hx, hy, hz, edEq]
  rw [Nat.mul_comm z y]
  simp

/-- The signatures of an image match when its keys and signatures are the neutral ones. -/
theorem imgSigned_neutral {s : State} {a : Nat} (hk : s.keySlot (s.octAt a 7) = idKey) (h0 : s.keySlot 0 = idKey)
    (hs : s.octs a (s.leAt a 8 4) 64 = idSig)
    (hx : (s.imgSections a).all (fun x => x.typ != 3 || decide (s.octs a (x.off + 5 * x.count) 64 = idSig)) = true) :
    s.imgSigned a = true := by
  simp only [State.imgSigned, hk, h0, hs, edVerify_neutral, Bool.true_and, List.all_eq_true] at hx ⊢
  intro x m
  have := hx x m
  simp only [Bool.or_eq_true, decide_eq_true_eq] at this ⊢
  rcases this with h | h
  · exact Or.inl h
  · rw [h]; exact Or.inr (edVerify_neutral _)

/-- A bank passes when each check of R514 passes. -/
theorem imgCode_passes {s : State} {k : Nat} {b : Bool} (hs : s.imgSigned (bankBase k b) = true)
    (h : s.imgBadForm (bankBase k b) k = false ∧ s.imgBadExtent (bankBase k b) k = false ∧
      (s.leAt (bankBase k b) 16 2 = s.get pSys SYS_CAP0.family ∧ s.octAt (bankBase k b) 18 = s.get pSys SYS_CAP0.member) ∧
      s.imgBadKey (bankBase k b) k = false ∧ ¬ s.leAt (bankBase k b) 12 4 < s.leAt commBase (68 + 4 * k) 4 ∧
      s.imgBadTarget (bankBase k b) = false ∧ s.bootTaskOk (bankBase k b) = true) : s.imgCode k b false = 1 := by
  obtain ⟨h1, h2, ⟨h3, h4⟩, h5, h6, h7, h8⟩ := h
  simp only [State.imgCode, h1, h2, h3, h4, h5, h6, h7, h8, hs]
  simp

/-- Bank A of each kind holds an image. -/
def imagesA : State :=
  { State.reset with mem := [(0xE00000001, 0x1), (0xE00010000, 0x314B4247), (0xE00010001, 0x1), (0xE00010002, 0x64), (0xE00010003, 0x3), (0xE00010004, 0x6005A1), (0xE00010005, 0x1), (0xE00010006, 0x1), (0xE00010010, 0x2), (0xE00010012, 0x50), (0xE00010013, 0x2), (0xE00010014, 0x80048000), (0xE00010015, 0xF), (0xE00010016, 0x80010800), (0xE00010017, 0x10F8004), (0xE00010019, 0x1)] ++
      [(0xE00410000, 0x314B4247), (0xE00410001, 0x10001), (0xE00410002, 0xB4), (0xE00410003, 0x3), (0xE00410004, 0x6005A1), (0xE00410005, 0x2), (0xE00410006, 0x1), (0xE00410010, 0x3), (0xE00410012, 0x60), (0xE00410014, 0x2), (0xE00410016, 0xA0), (0xE00410017, 0x2), (0xE00410018, 0x1), (0xE00410028, 0x80048000), (0xE00410029, 0xF), (0xE0041002A, 0x80010800), (0xE0041002B, 0x10F8004), (0xE0041002D, 0x1)] }

/-- Both banks of each kind hold an image. -/
def imagesB : State :=
  { State.reset with mem := [(0xE00000001, 0x1), (0xE00010000, 0x314B4247), (0xE00010001, 0x1), (0xE00010002, 0x64), (0xE00010003, 0x3), (0xE00010004, 0x6005A1), (0xE00010005, 0x1), (0xE00010006, 0x1), (0xE00010010, 0x2), (0xE00010012, 0x50), (0xE00010013, 0x2), (0xE00010014, 0x80048000), (0xE00010015, 0xF), (0xE00010016, 0x80010800), (0xE00010017, 0x10F8004), (0xE00010019, 0x1)] ++
      [(0xE00210000, 0x314B4247), (0xE00210001, 0x1), (0xE00210002, 0x64), (0xE00210003, 0x4), (0xE00210004, 0x6005A1), (0xE00210005, 0x1), (0xE00210006, 0x1), (0xE00210010, 0x2), (0xE00210012, 0x50), (0xE00210013, 0x2), (0xE00210014, 0x80048000), (0xE00210015, 0xF), (0xE00210016, 0x80010800), (0xE00210017, 0x10F8004), (0xE00210019, 0x1)] ++
      [(0xE00410000, 0x314B4247), (0xE00410001, 0x10001), (0xE00410002, 0xB4), (0xE00410003, 0x3), (0xE00410004, 0x6005A1), (0xE00410005, 0x2), (0xE00410006, 0x1), (0xE00410010, 0x3), (0xE00410012, 0x60), (0xE00410014, 0x2), (0xE00410016, 0xA0), (0xE00410017, 0x2), (0xE00410018, 0x1), (0xE00410028, 0x80048000), (0xE00410029, 0xF), (0xE0041002A, 0x80010800), (0xE0041002B, 0x10F8004), (0xE0041002D, 0x1)] ++
      [(0xE00490000, 0x314B4247), (0xE00490001, 0x10001), (0xE00490002, 0xB4), (0xE00490003, 0x4), (0xE00490004, 0x6005A1), (0xE00490005, 0x2), (0xE00490006, 0x1), (0xE00490010, 0x3), (0xE00490012, 0x60), (0xE00490014, 0x2), (0xE00490016, 0xA0), (0xE00490017, 0x2), (0xE00490018, 0x1), (0xE00490028, 0x80048000), (0xE00490029, 0xF), (0xE0049002A, 0x80010800), (0xE0049002B, 0x10F8004), (0xE0049002D, 0x1)] }

theorem imagesA_safety : imagesA.imgCode 1 false false = 1 :=
  imgCode_passes (imgSigned_neutral (by decide +kernel) (by decide +kernel) (by decide +kernel) (by decide +kernel)) (by decide +kernel)
theorem imagesA_main : imagesA.imgCode 0 false false = 1 :=
  imgCode_passes (imgSigned_neutral (by decide +kernel) (by decide +kernel) (by decide +kernel) (by decide +kernel)) (by decide +kernel)
theorem imagesA_boot : imagesA.bootMemory.imgCode 0 false false = 1 :=
  imgCode_passes (imgSigned_neutral (by decide +kernel) (by decide +kernel) (by decide +kernel) (by decide +kernel)) (by decide +kernel)
theorem imagesB_safety : imagesB.imgCode 1 true false = 1 :=
  imgCode_passes (imgSigned_neutral (by decide +kernel) (by decide +kernel) (by decide +kernel) (by decide +kernel)) (by decide +kernel)
theorem imagesB_main : imagesB.imgCode 0 true false = 1 :=
  imgCode_passes (imgSigned_neutral (by decide +kernel) (by decide +kernel) (by decide +kernel) (by decide +kernel)) (by decide +kernel)


def w0 : State :=
  let s := State.reset
  s.setCo 63 { s.co 63 with task := some 5 }

def w1 : State :=
  let s := State.reset
  let s : State := s.setCo 63 { s.co 63 with task := some 5 }
  s.setCo 63 { s.co 63 with outs := List.replicate 16 { kind := .load, addr := 0xF00000000, dst := 9 } }

def w2 : State :=
  let s := State.reset
  { s with core := [(63, ({ stalled := true } : CoreSt))] }

def w3 : State :=
  let s := State.reset
  s.setCr 63 (rL 3) 10

def w4 : State :=
  let s := State.reset
  let s : State := s.setCo 63 { s.co 63 with task := some 5 }
  s.setCo 63 { s.co 63 with outs := List.replicate 16 { kind := .store, addr := 0xF00000000, dst := 9 } }

def w5 : State :=
  let s := State.reset
  let s : State := s.setCo 63 { s.co 63 with outs := [({ kind := .load, addr := 0xF00000010, dst := 15 } : OutAcc)] }
  let s : State := s.setCo 63 { s.co 63 with hold := .none }
  s.setCo 63 { s.co 63 with drain := .none }

def w6 : State :=
  let s := State.reset
  let s : State := s.setCo 63 { s.co 63 with outs := [({ kind := .faa, addr := 0xF00000010, dst := 2, val := 5 } : OutAcc)] }
  s.setCo 63 { s.co 63 with hold := .atomic, task := some 5 }

def w7 : State :=
  let s := State.reset
  let s : State := s.setCo 63 { s.co 63 with outs := [({ kind := .store, addr := 0xFC0010000, val := 7 } : OutAcc)] }
  let s : State := s.setCo 63 { s.co 63 with hold := .none }
  s.setCo 63 { s.co 63 with drain := .none }

def w8 : State :=
  let s := State.reset
  s.setCo 63 { s.co 63 with outs := [({ kind := .store, addr := 0xE00000000, val := 7 } : OutAcc)] }

def w9 : State :=
  let s := State.reset
  s.setCo 63 { s.co 63 with outs := [({ kind := .load, addr := 0xF00000010, dst := 15 } : OutAcc)] }

def w10 : State :=
  let s := State.reset
  s.setCo 63 { s.co 63 with hold := .none }

def w11 : State :=
  let s := State.reset
  let s : State := s.setCo 63 { s.co 63 with task := some 5 }
  let s : State := s.setCr 63 (rP 3) (word 0xFC0000005)
  s.setCr 63 (rP 2) (word 0)

def w12 : State :=
  let s := State.reset
  let s : State := s.setCo 63 { s.co 63 with task := some 5 }
  let s : State := s.setCr 63 (rP 3) (word 0xFC0000005)
  let s : State := s.setCr 63 (rP 2) (word 0)
  s.setCo 63 { s.co 63 with outs := [{ kind := .store, addr := ownInst 63 0 }] }

def w13 : State :=
  let s := State.reset
  s.setCr 63 rST (word (2 ^ 29))

def w14 : State :=
  let s := State.reset
  let s : State := s.setCr 63 (rLB 1) (word (2 ^ 35 + 0 * 2 ^ 14 + 0))
  s.setCr 63 (rLC 1) 2

def w15 : State :=
  let s := State.reset
  let s : State := s.setCr 63 (rLB 0) (word (2 ^ 35 + 0 * 2 ^ 14 + 0))
  s.setCr 63 (rLC 0) 2

def w16 : State :=
  let s := State.reset
  let s : State := s.setCr 63 (rLB 1) (word (2 ^ 35 + 0 * 2 ^ 14 + 0))
  s.setCr 63 (rLC 1) 1

def w17 : State :=
  let s := State.reset
  let s : State := s.setCr 63 (rLB 1) (word (2 ^ 35 + 0 * 2 ^ 14 + 0))
  let s : State := s.setCr 63 (rLB 0) (word (2 ^ 35 + 0 * 2 ^ 14 + 0))
  let s : State := s.setCr 63 (rLC 1) 1
  s.setCr 63 (rLC 0) 2

def w18 : State :=
  let s := State.reset
  let s : State := s.setCr 63 (rLB 0) (word (2 ^ 35 + 0 * 2 ^ 14 + 0))
  s.setCr 63 (rLC 0) 1

def w19 : State :=
  let s := State.reset
  let s : State := s.setCo 63 { s.co 63 with task := some 5 }
  s.setCo 63 { s.co 63 with outs := [{ kind := .store }] }

def w20 : State :=
  let s := State.reset
  s.setCo 63 { s.co 63 with outs := ([] : List OutAcc) ++ ({ kind := .store } : OutAcc) :: ([] : List OutAcc) }

def w21 : State :=
  let s := State.reset
  s.setCo 63 { s.co 63 with outs := [{ kind := .store, after := [1] }] }

def w22 : State :=
  let s := State.reset
  let s : State := s.setCo 63 { s.co 63 with hold := .post 15 }
  let s : State := s.setCo 63 { s.co 63 with postRes := some 68719476735 }
  s.setCo 63 { s.co 63 with drain := .none }

def w23 : State :=
  let s := State.reset
  let s : State := s.setCo 63 { s.co 63 with task := some 5 }
  let s : State := s.setCo 63 { s.co 63 with task := some 511 }
  s.setCo 63 { s.co 63 with orphan := false }

def w24 : State :=
  let s := State.reset
  let s : State := s.setCo 63 { s.co 63 with task := some 5 }
  s.setCo 63 { s.co 63 with outs := [{}] }

def w25 : State :=
  let s := State.reset
  let s : State := s.setCo 63 { s.co 63 with task := some 5 }
  let s : State := s.setCo 63 { s.co 63 with task := some 511 }
  s.setCo 63 { s.co 63 with orphan := true }

def w26 : State :=
  let s := State.reset
  let s : State := s.setCo 63 { s.co 63 with task := some 5 }
  s.setCo 63 { s.co 63 with preempt := none }

def w27 : State :=
  let s := State.reset
  let s : State := s.setCo 63 { s.co 63 with task := some 5 }
  let s : State := s.setCo 63 { s.co 63 with task := some 5 }
  let s : State := s.setCo 63 { s.co 63 with orphan := false }
  let s : State := s.setCo 63 { s.co 63 with preempt := none }
  let s : State := ((s.put (pTsk 9) TSK_STAT.state 2).put (pTsk 9) TSK_AFF1.mask (2 ^ 31)).put (pTsk 9) TSK_CFG.en 1
  let s : State := s.put (pCore 63) PAGE_CTL.en 1
  s.put pInnk0 PAGE_CTL.en 1

def w28 : State :=
  let s := State.reset
  s.setCo 63 { s.co 63 with hold := .waitc 1 }

def w29 : State :=
  let s := State.reset
  let s : State := s.setCo 63 { s.co 63 with drain := .none }
  let s : State := s.setCo 63 { s.co 63 with halted := false }
  s.setCo 63 { s.co 63 with task := some 5 }

def w30 : State :=
  let s := State.reset
  s.put (pCore 63) CORE_EXC_ST.valid 0

def w31 : State :=
  let s := State.reset
  s.put (pCore 63) CORE_EXC_ST.valid 1

def w32 : State :=
  let s := State.reset
  s.setCo 63 { s.co 63 with task := some 5, outs := [{}] }

def w33 : State :=
  let s := State.reset
  let s : State := s.setCo 63 { s.co 63 with task := some 511 }
  s.setCo 63 { s.co 63 with orphan := false }

def w34 : State :=
  let s := State.reset
  s.setCo 63 { s.co 63 with task := none }

def w35 : State :=
  let s := State.reset
  let s : State := s.put (pCore 63) CORE_NMI.pend 1
  s.setCo 63 { s.co 63 with halted := false }

def w36 : State :=
  let s := State.reset
  let s : State := s.setCo 63 { s.co 63 with task := some 5 }
  let s : State := s.setCr 63 rST (word (2 ^ 29))
  s.put (pCore 63) CORE_NMI.pend 0

def w37 : State :=
  let s := State.reset
  let s : State := { s with slLocked := true }
  s.put (pPwm 95) PWM_ENV_DT.dtmin 3

def w38 : State :=
  let s := State.reset
  { s with slLocked := true }

def w39 : State :=
  let s := State.reset
  { s with slLocked := false }

def w40 : State :=
  let s := State.reset
  { s with srstBusy := [0xF80050000] }

def w41 : State :=
  let s := State.reset
  s.put (pCore 0) PAGE_CTL.gate_ack 1

def w42 : State :=
  let s := State.reset
  s.put (pageAddr 0x1000) PAGE_CTL.gate_req 1

def w43 : State :=
  let s := State.reset
  s.put pEth0 PAGE_CTL.gate_req 0

def w44 : State :=
  let s := State.reset
  s.put (pPwm 95) PAGE_CTL.gate_req 0

def w45 : State :=
  let s := State.reset
  { s with gating := [(pageAddr 0x500)] }

def w46 : State :=
  let s := State.reset
  { s with gating := [pageAddr 16383] }

def w47 : State :=
  let s := State.reset
  s.put (pProf 95) PAGE_CTL.gate_ack 1

def w48 : State :=
  let s := State.reset
  s.put (pFbk 95) PAGE_CTL.gate_ack 1

def w49 : State :=
  let s := State.reset
  s.put (pPwm 95) PAGE_CTL.gate_ack 1

def w50 : State :=
  let s := State.reset
  s.put (pPort 11) PAGE_CTL.gate_ack 1

def w51 : State :=
  let s := State.reset
  s.put pRing0 PAGE_CTL.gate_ack 1

def w52 : State :=
  let s := State.reset
  s.put pEth0 PAGE_CTL.gate_ack 1

def w53 : State :=
  let s := State.reset
  let s : State := { s with held := [] }
  s.put (pageAddr 0x1000) PAGE_CTL.gate_req 1

def w54 : State :=
  let s := State.reset
  { s with held := [] }

def w55 : State :=
  let s := State.reset
  { s with held := [{ ini := 0, addr := 3, wr := some (0 : Word) }] }

def w56 : State :=
  let s := State.reset
  s.put (pEth 1) PAGE_CTL.en (b2n (!false))

def w57 : State :=
  let s := State.reset
  let s : State := s.put (pCore 63) PAGE_CTL.en 1
  s.setCo 63 { s.co 63 with task := some 511 }

def w58 : State :=
  let s := State.reset
  let s : State := s.put (pageAddr 0x500) PAGE_POST.post_en 1
  s.put (pageAddr 0x500) PAGE_EVEN.even (2 ^ 35)

def w59 : State :=
  let s := State.reset
  let s : State := s.put 11 PAGE_EVEN.even (2 ^ 35)
  s.put 11 PAGE_EVPEND.evpend (2 ^ 35)

def w60 : State :=
  let s := State.reset
  let s : State := s.put 11 PAGE_EVEN.even (2 ^ 35)
  s.put 11 PAGE_POST.post_en 1

def w61 : State :=
  let s := State.reset
  let s : State := s.put 11 PAGE_EVEN.even (2 ^ 35)
  { s with posted := [11] }

def w62 : State :=
  let s := State.reset
  { s with heldPosts := ({ tag := 1 } : Post) :: ([] : List Post) }

def w63 : State :=
  let s := State.reset
  { s with heldPosts := ({} : Post) :: ([] : List Post) }

def w64 : State :=
  let s := State.reset
  { s with wire := List.replicate 8 { cls := 1, src := 0x1000 } }

def w65 : State :=
  let s := State.reset
  { s with time := { s.time with cnt := [(0, 2 ^ 46 * 1000 * 2 ^ 20)] } }

def w66 : State :=
  let s := State.reset
  s.put 11 FC_CFG.enable 0

def w67 : State :=
  let s := State.reset
  s.put 11 FC_CFG.enable 1

def w68 : State :=
  let s := State.reset
  s.put 11 FC_CFG.action 2

def w69 : State :=
  let s := State.reset
  s.put (pTb 3) TIME_TB_CTL.src 0

def w70 : State :=
  let s := State.reset
  s.put (pTb 3) TIME_TB_CTL.src 3

def w71 : State :=
  let s := State.reset
  s.put (pTb 3) TIME_TB_CTL.servo 0

def w72 : State :=
  let s := State.reset
  let s : State := s.put (pTb 3) TIME_TB_LOCK.tmo 1
  let s : State := s.put (pTb 3) TIME_TB_STAT.susp 0
  let s : State := s.put (pTb 3) TIME_TB_CTL.src 3
  let s : State := s.put (pTb 3) TIME_TB_LOCK.tmo 1
  { s with time := { s.time with cnt := [(0, 2 ^ 77)] } }

def w73 : State :=
  let s := State.reset
  s.put (pTb 3) TIME_TB_STAT.locked 1

def w74 : State :=
  let s := State.reset
  let s : State := s.put pTime0 TIME_CT_STAT.valid 0
  let s : State := s.put pTime0 TIME_CT_CTL.pri 1
  (((s.put (pTb 1) TIME_TB_STAT.hist 1).put (pTb 1) TIME_TB_STAT.locked 1).put (pTb 1) TIME_TB_STAT.disc 0)

def w75 : State :=
  let s := State.reset
  let s : State := s.put pTime0 TIME_CT_STAT.valid 0
  let s : State := s.put pTime0 TIME_CT_CTL.pri 1
  let s : State := s.put pTime0 TIME_CT_CTL.mir 2
  (((s.put (pTb 2) TIME_TB_STAT.hist 1).put (pTb 2) TIME_TB_STAT.locked 1).put (pTb 2) TIME_TB_STAT.disc 0)

def w76 : State :=
  let s := State.reset
  s.put pTime0 TIME_CT_STAT.valid 1

def w77 : State :=
  let s := State.reset
  let s : State := s.put pTime0 TIME_CT_CTL.hold 0
  let s : State := s.put pTime0 TIME_CT_CTL.auto_ 1
  let s : State := s.put pTime0 TIME_CT_CTL.revert 1
  let s : State := s.put pTime0 TIME_CT_CTL.pri 1
  let s : State := s.put pTime0 TIME_CT_STAT.state 2
  let s : State := s.put pTime0 TIME_CT_CTL.revert 1
  let s : State := (((s.put (pTb 1) TIME_TB_STAT.hist 1).put (pTb 1) TIME_TB_STAT.locked 1).put (pTb 1) TIME_TB_STAT.disc 0)
  { s with time := { s.time with cnt := [(0, 2 ^ 46 * 1000000001)], revert := some 0 } }

def w78 : State :=
  let s := State.reset
  let s : State := s.put pTime0 TIME_CT_STAT.slewing 1
  s.put pTime0 TIME_CT_STAT.state 1

def w79 : State :=
  let s := State.reset
  let s : State := s.put pTime0 TIME_CT_STAT.valid 1
  let s : State := s.put pTime0 TIME_CT_STAT.state 0
  let s : State := s.put (pTb (fldGet (0x800000003 : Word).toNat TIME_REEPOCH.base)) TIME_TB_STAT.locked 1
  let s : State := s.put pTime0 TIME_CT_STAT.slewing 0
  s.put (pTb 3) TIME_TB_STAT.locked 1

def w80 : State :=
  let s := State.reset
  s.put pTime0 TIME_CT_STAT.state 4

def w81 : State :=
  let s := State.reset
  let s : State := s.put pTime0 TIME_CT_STAT.state 4
  { s with prism := { s.prism with walk := some (4, 0) } }

def w82 : State :=
  let s := State.reset
  s.put pTime0 TIME_CT_STAT.state 3

def w83 : State :=
  let s := State.reset
  s.put pTime0 TIME_CT_STAT.state 0

def w84 : State :=
  let s := State.reset
  { s with time := { s.time with snapBusy := [8 * 63 + 4] } }

def w85 : State :=
  let s := State.reset
  let s : State := s.put pTime0 TIME_OUT_CTL.pps_en 1
  s.put pTime0 TIME_CT_STAT.valid 1

def w86 : State :=
  let s := State.reset
  let s : State := s.put pTime0 TIME_OUT_CTL.ten_en 1
  s.put pTime0 TIME_CT_STAT.valid 1

def w87 : State :=
  let s := State.reset
  s.put pTime0 TIME_IN_CTL.pps_en 0

def w88 : State :=
  let s := State.reset
  let s : State := s.put pTime0 TIME_IN_CTL.pps_en 1
  s.put pTime0 PAGE_EVEN.even 0

def w89 : State :=
  let s := State.reset
  s.put pTime0 TIME_IN_CTL.ten_en 0

def w90 : State :=
  let s := State.reset
  let s : State := s.put pTime0 TIME_IN_CTL.ten_en 1
  s.put (pTb 1) TIME_TB_CTL.src 5

def w91 : State :=
  let s := State.reset
  { s with prism := { s.prism with walk := some (4, 0) } }

def w92 : State :=
  let s := State.reset
  s.put (pTrg 1023) TRG_CTL.arm 1

def w93 : State :=
  let s := State.reset
  s.put (pTrg 1023) TRG_CTL.arm 0

def w94 : State :=
  let s := State.reset
  { s with prism := { s.prism with walk := none } }

def w95 : State :=
  let s := State.reset
  let s : State := { s with prism := { s.prism with walk := none } }
  { s with prism := { s.prism with waiting := (1, 1) :: ([] : List (Nat × Nat)) } }

def w96 : State :=
  let s := State.reset
  let s : State := s.put (pTrg 3) TRG_CTL.arm 1
  let s : State := s.put (pTrg 3) TRG_CTL.per 0
  s.put (pTrg 3) TRG_CTL.tb 4

def w97 : State :=
  let s := State.reset
  let s : State := s.put pPrism0 PAGE_CTL.en 1
  let s : State := s.put (pTrg 1023) TRG_CTL.arm 1
  { s with prism := { s.prism with armed := [1023] } }

def w98 : State :=
  let s := State.reset
  let s : State := s.put (pTrg 1023) TRG_CTL.per 0
  let s : State := s.put (pTrg 1023) TRG_CTL.act 1
  s.put (pTrg 1023) TRG_CTL.apost 0

def w99 : State :=
  let s := State.reset
  { s with prism := { s.prism with acts := [({} : PrismAct)] } }

def w100 : State :=
  let s := State.reset
  let s : State := s.put pPrism0 PAGE_CTL.en 1
  let s : State := s.put (pTrg 1023) TRG_CTL.arm 1
  let s : State := s.put (pTrg 1023) TRG_CTL.pol 1
  let s : State := s.put (pTrg 1023) TRG_CTL.per 0
  let s : State := s.put pPrism0 PAGE_CTL.en 1
  let s : State := s.put (pTrg 1023) TRG_CTL.arm 1
  let s : State := { s with prism := { s.prism with armed := [1023] } }
  { s with now := 1, prism := { s.prism with armedAt := [(1023, 0)] }, time := { s.time with cnt := [(0, 2 ^ 60)] } }

def w101 : State :=
  let s := State.reset
  let s : State := s.put pPrism0 PAGE_CTL.en 1
  let s : State := s.put (pTrg 1023) TRG_CTL.arm 1
  let s : State := s.put (pTrg 1023) TRG_CTL.pol 0
  let s : State := s.put pPrism0 PAGE_CTL.en 1
  let s : State := s.put (pTrg 1023) TRG_CTL.arm 1
  let s : State := { s with prism := { s.prism with armed := [1023] } }
  { s with now := 1, prism := { s.prism with armedAt := [(1023, 0)] }, time := { s.time with cnt := [(0, 2 ^ 60)] } }

def w102 : State :=
  let s := State.reset
  s.put pPrism0 PAGE_CTL.en 0

def w103 : State :=
  let s := State.reset
  let s : State := s.setTi 15 { s.ti 15 with fall := some (1, 3) }
  s.setTi 15 { s.ti 15 with level := true }

def w104 : State :=
  let s := State.reset
  s.setTi 15 { s.ti 15 with fall := none }

def w105 : State :=
  let s := State.reset
  let s : State := s.setTi 15 { s.ti 15 with fall := some (1, 3) }
  let s : State := s.setTi 15 { s.ti 15 with level := true }
  s.setTi 15 { s.ti 15 with lastOut := some 1 }

def w106 : State :=
  let s := State.reset
  let s : State := s.put pPrism2 (PRISM_TIO_CFG.cen 15) 1
  let s : State := s.put pPrism2 (PRISM_TIO_CFG.cedge 15) 2
  let s : State := s.setTi 15 { s.ti 15 with lastCap := none }
  s.setTi 15 { s.ti 15 with q := [] }

def w107 : State :=
  let s := State.reset
  let s : State := s.put pPrism2 (PRISM_TIO_CFG.cen 15) 1
  let s : State := s.put pPrism2 (PRISM_TIO_CFG.cedge 15) 2
  s.setTi 15 { s.ti 15 with q := List.replicate 8 {} }

def w108 : State :=
  let s := State.reset
  s.put pPrism2 (PRISM_TIO_CFG.cen 15) 0

def w109 : State :=
  let s := State.reset
  { s with olSealed := true }

def w110 : State :=
  let s := State.reset
  { s with olSealed := false }

def w111 : State :=
  let s := State.reset
  s.put (pPwm 95) PWM_BLK.run 1

def w112 : State :=
  let s := State.reset
  s.put (pPwm 95) PWM_BLK.run 0

def w113 : State :=
  let s := State.reset
  let s : State := s.put (pPwm 95) PWM_BLK.run 0
  { s with slLocked := true }

def w114 : State :=
  let s := State.reset
  let s : State := s.put (pPwm 95) PWM_BLK.run 1
  s.put (pPwm 95) PWM_CFG.kind 1

def w115 : State :=
  let s := State.reset
  s.put (pPwm 95) PWM_ENV_PER.min 501

def w116 : State :=
  let s := State.reset
  let s : State := s.setPw 95 { s.pw 95 with xfer := false }
  let s : State := s.put (pPwm 95) PWM_CFG.reload 0
  (s.put (pPwm 95) PWM_ENV_PER.min 500).put (pPwm 95) PWM_ENV_PER.max 500

def w117 : State :=
  let s := State.reset
  s.put (pAle 95) PAGE_CTL.en 1

def w118 : State :=
  let s := State.reset
  let s : State := s.put (pPwm 95) PWM_CFG.legen 15
  let s : State := s.put (pPwm 95) PWM_PER.per 2000
  s.put (pPwm 95) PWM_ENV_DUTY.lo 1

def w119 : State :=
  let s := State.reset
  let s : State := s.setPw 95 { s.pw 95 with xfer := false }
  s.put (pPwm 95) PWM_CFG.reload 0

def w120 : State :=
  let s := State.reset
  let s : State := s.setPw 95 { s.pw 95 with xfer := true }
  let s : State := s.put (pPwm 95) PWM_CFG.reload 0
  (s.put (pPwm 95) PWM_ENV_PER.min 500).put (pPwm 95) PWM_ENV_PER.max 500

def w121 : State :=
  let s := State.reset
  let s : State := s.setPw 95 { s.pw 95 with xfer := false }
  let s : State := s.put (pPwm 95) PWM_CFG.reload 4
  (s.put (pPwm 95) PWM_ENV_PER.min 500).put (pPwm 95) PWM_ENV_PER.max 500

def w122 : State :=
  let s := State.reset
  let s : State := s.setPw 95 { s.pw 95 with go := false }
  let s : State := s.setPw 95 { s.pw 95 with startReq := true }
  let s : State := s.setPw 95 { s.pw 95 with stopReq := false }
  s.setPw 95 { s.pw 95 with commitReq := false }

def w123 : State :=
  let s := State.reset
  let s : State := s.setPw 95 { s.pw 95 with go := false }
  let s : State := s.setPw 95 { s.pw 95 with startReq := true }
  let s : State := s.setPw 95 { s.pw 95 with stopReq := true }
  s.setPw 95 { s.pw 95 with commitReq := false }

def w124 : State :=
  let s := State.reset
  let s : State := s.setPw 95 { s.pw 95 with go := false }
  let s : State := s.setPw 95 { s.pw 95 with startReq := false }
  let s : State := s.setPw 95 { s.pw 95 with stopReq := true }
  let s : State := s.setPw 95 { s.pw 95 with commitReq := false }
  s.put (pPwm 95) PWM_BLK.run 1

def w125 : State :=
  let s := State.reset
  let s : State := s.setPw 95 { s.pw 95 with go := false }
  let s : State := s.setPw 95 { s.pw 95 with startReq := false }
  let s : State := s.setPw 95 { s.pw 95 with stopReq := true }
  let s : State := s.setPw 95 { s.pw 95 with commitReq := false }
  s.put (pPwm 95) PWM_BLK.run 0

def w126 : State :=
  let s := State.reset
  let s : State := s.setPw 95 { s.pw 95 with go := true }
  let s : State := s.setPw 95 { s.pw 95 with startReq := false }
  let s : State := s.setPw 95 { s.pw 95 with stopReq := false }
  s.setPw 95 { s.pw 95 with commitReq := false }

def w127 : State :=
  let s := State.reset
  let s : State := s.setPw 95 { s.pw 95 with go := false }
  let s : State := s.setPw 95 { s.pw 95 with startReq := false }
  let s : State := s.setPw 95 { s.pw 95 with stopReq := false }
  let s : State := s.setPw 95 { s.pw 95 with commitReq := true }
  let s : State := s.put (pPwm 95) PAGE_CTL.en 1
  let s : State := s.put (pPwm 95) PWM_BLK.run 1
  s.put (pPwm 95) PWM_CFG.track 0

def w128 : State :=
  let s := State.reset
  let s : State := s.put (pPwm 95) PAGE_CTL.en 1
  s.put (pPwm 95) PWM_BLK.run 0

def w129 : State :=
  let s := State.reset
  let s : State := s.put (pPwm 95) PAGE_CTL.en 1
  let s : State := s.put (pPwm 95) PWM_BLK.run 0
  let s : State := s.put (pPwm 95) PWM_CFG.kind 1
  let s : State := s.put (pPwm 95) PWM_CFG.kind 0
  let s : State := s.put (pPwm 95) PWM_PER.per 2000
  let s : State := s.put (pPort (95 / 8)) PORT_DLCAL.locked 1
  s.put (pPwm 95) PWM_CFG.kind 1

def w130 : State :=
  let s := State.reset
  let s : State := s.put (pPwm 95) PWM_BLK.run 0
  let s : State := s.put (pPwm 95) PAGE_CTL.en 1
  let s : State := s.put (pPwm 95) PWM_CFG.kind 1
  let s : State := s.put (pPwm 95) PWM_PER.per 2000
  s.put (pPort 11) PORT_DLCAL.locked 1

def w131 : State :=
  let s := State.reset
  let s : State := s.put (pPwm 95) PWM_BLK.run 1
  let s : State := s.put (pPwm 95) PWM_SHSTAT.per_w 1
  let s : State := s.put (pPwm 95) PWM_PER.per 3000
  s.put (pPwm 95) PWM_CFG.policy 1

def w132 : State :=
  let s := State.reset
  s.setPw 95 { s.pw 95 with xfer := true }

def w133 : State :=
  let s := State.reset
  let s : State := s.setPw 95 { s.pw 95 with xfer := false }
  let s : State := s.put (pPwm 95) PWM_CFG.policy 0
  let s : State := s.put (pPwm 95) PWM_SHSTAT.per_w 1
  s.put (pPwm 95) PWM_CFG.legen 15

def w134 : State :=
  let s := State.reset
  s.setPw 95 { s.pw 95 with xfer := false }

def w135 : State :=
  let s := State.reset
  let s : State := s.put (pPwm 95) PWM_BLK.run 1
  s.setPw 95 { s.pw 95 with stop := true }

def w136 : State :=
  let s := State.reset
  let s : State := s.put (pPwm 95) PWM_BLK.run 1
  s.put (pAle 95) ALE_CFG.wake 0

def w137 : State :=
  let s := State.reset
  let s : State := s.put (pPwm 95) PWM_BLK.run 1
  s.put (pAle 95) ALE_CFG.wake 1

def w138 : State :=
  let s := State.reset
  let s : State := s.setPw 95 { s.pw 95 with stop := false }
  let s : State := s.setPw 95 { s.pw 95 with trk := false }
  let s : State := s.put (pPwm 95) PWM_CFG.reload 0
  let s : State := s.put (pPwm 95) PWM_CFG.reload 0
  s.setPw 95 { s.pw 95 with tripSince := none }

def w139 : State :=
  let s := State.reset
  let s : State := s.put (pPwm 95) PWM_BLK.run 1
  let s : State := s.setPw 95 { s.pw 95 with centred := false }
  let s : State := s.put (pPwm 95) PWM_CFG.reload 0
  s.put (pPwm 95) PWM_CFG.reload 0

def w140 : State :=
  let s := State.reset
  let s : State := s.put (pPwm 95) PWM_BLK.run 1
  let s : State := s.setPw 95 { s.pw 95 with centred := false }
  s.put (pPwm 95) PWM_CFG.reload 2

def w141 : State :=
  let s := State.reset
  let s : State := s.put (pPwm 95) PWM_BLK.run 1
  s.setPw 95 { s.pw 95 with edges := ({} : GateEdge) :: ([] : List GateEdge) }

def w142 : State :=
  let s := State.reset
  let s : State := s.put (pPwm 95) PWM_BLK.run 1
  let s : State := s.setPw 95 { s.pw 95 with edges := ({ leg := 0, hi := true, on := true } : GateEdge) :: ([] : List GateEdge) }
  s.setPw 95 { s.pw 95 with legs := Tab.wr (s.pw 95).legs 0 { cntHi := true } }

def w143 : State :=
  let s := State.reset
  s.put (pPwm 95) PWM_CFG.kind 0

def w144 : State :=
  let s := State.reset
  s.put (pPwm 95) PWM_CFG.kind 3

def w145 : State :=
  let s := State.reset
  let s : State := s.put (pPwm 95) PWM_TRIP.en 1
  let s : State := s.put (pPwm 95) PWM_BLK.run 1
  let s : State := s.put (pPwm 95) PWM_BLK.trip 0
  let s : State := s.setPw 95 { s.pw 95 with outAt := none }
  let s : State := { s with gateEn := [11] }
  let s : State := (s.put (pPwm 95) PAGE_CTL.en 1).put (pPwm 95) PAGE_CTL.gate_req 0
  s.put (pPwm 95) PWM_TRIP.filt 1

def w146 : State :=
  let s := State.reset
  s.put (pPwm 95) PWM_TRIP.filt 2

def w147 : State :=
  let s := State.reset
  s.setPw 95 { s.pw 95 with outAt := some 1 }

def w148 : State :=
  let s := State.reset
  s.put (pPort 11) PORT_DLCAL.locked 1

def w149 : State :=
  let s := State.reset
  let s : State := s.put (pPort 11) PORT_DLCAL.locked 0
  s.setPo 11 { s.po 11 with ever := false }

def w150 : State :=
  let s := State.reset
  let s : State := s.put (pPort 11) PORT_DLCAL.locked 0
  s.setPo 11 { s.po 11 with ever := true }

def w151 : State :=
  let s := State.reset
  let s : State := s.put (pPort 11) PORT_MCLK.en 0
  s.put (pPort 11) PORT_MCLK.run 0

def w152 : State :=
  let s := State.reset
  let s : State := s.put (pPort 11) PORT_MCLK.en 1
  let s : State := s.put (pPort 11) PORT_MCLK.run 1
  ((s.put (pPort 11) PORT_MCLK.div 40).put (pPort 11) PORT_MCLK.dly 0).put (pPort 11) PORT_MCLK.align 0

def w153 : State :=
  let s := State.reset
  s.setPo 11 { s.po 11 with mclk := some 1 }

def w154 : State :=
  let s := State.reset
  let s : State := s.setPo 11 { s.po 11 with stopping := true }
  let s : State := s.put (pPort 11) PORT_MCLK.run 1
  let s : State := s.put (pPort 11) PORT_MCLK.en 0
  let s : State := s.setPo 11 { s.po 11 with mclk := some 0, div := 40 }
  { s with now := 80 }

def w155 : State :=
  let s := State.reset
  s.setPw 95 { s.pw 95 with win := none }

def w156 : State :=
  let s := State.reset
  s.setPw 95 { s.pw 95 with win := some ({} : SdWin) }

def w157 : State :=
  let s := State.reset
  s.setPw 95 { s.pw 95 with win := some ({ k := 3, osr := 32, inen := 7 } : SdWin) }

def w158 : State :=
  let s := State.reset
  s.setPw 95 { s.pw 95 with win := some ({ k := 1, osr := 1, first := 10 } : SdWin) }

def w159 : State :=
  let s := State.reset
  let s : State := s.put (pPwm 95) PAGE_CTL.en 1
  let s : State := s.put (pPwm 95) PWM_SD_CFG.mode 2
  let s : State := s.setPo 11 { s.po 11 with mclk := some 0, div := 40 }
  let s : State := { s with now := 10 ^ 6 }
  s.put (pPwm 95) PWM_SD_CFG.osr 4

def w160 : State :=
  let s := State.reset
  s.put (pPwm 95) PAGE_CTL.en 1

def w161 : State :=
  let s := State.reset
  let s : State := s.put (pPwm 95) PAGE_CTL.en 1
  let s : State := s.put (pPwm 95) PWM_SD_CFG.mode 1
  let s : State := s.setPw 95 { s.pw 95 with win := none }
  s.put (pPort (95 / 8)) PORT_MCLK.run 1

def w162 : State :=
  let s := State.reset
  s.setPo 1 { s.po 1 with mclk := some 1 }

def w163 : State :=
  let s := State.reset
  { s with pipe := [(1, some 95)] }

def w164 : State :=
  let s := State.reset
  s.setAl (4 * 23 + 3) { s.al (4 * 23 + 3) with wake := some ({} : AleSnap) }

def w165 : State :=
  let s := State.reset
  let s : State := s.put (pAle 95) PAGE_CTL.gate_ack 1
  { s with pipe := [(3, some 95)] }

def w166 : State :=
  let s := State.reset
  let s : State := s.setAl 95 { s.al 95 with run := none }
  { s with pipe := [(3, some 95)] }

def w167 : State :=
  let s := State.reset
  let s : State := s.setAl 95 { s.al 95 with run := some ({} : AleSnap) }
  { s with pipe := [(3, some 95)] }

def w168 : State :=
  let s := State.reset
  let s : State := s.put (pAle 95) PAGE_CTL.en 1
  let s : State := s.put (pAle 95) ALE_REF_CTL.cpend 1
  s.setAl 95 { s.al 95 with wake := none }

def w169 : State :=
  let s := State.reset
  let s : State := s.put (pAle 95) PAGE_CTL.en 1
  let s : State := s.put (pPwm 95) PWM_SD_STAT.valid 0
  s.put (pAle 95) ALE_CFG.wake 0

def w170 : State :=
  let s := State.reset
  s.put (pFbk 95) PAGE_CTL.en 0

def w171 : State :=
  let s := State.reset
  s.put (pFbk 95) PAGE_CTL.en 1

def w172 : State :=
  let s := State.reset
  let s : State := s.setFb 95 { s.fb 95 with ab := none }
  let s : State := s.setFb 95 { s.fb 95 with pend := [] }
  (s.put (pFbk 95) PAGE_CTL.en 1).put (pFbk 95) FBK_CFG.mode 1

def w173 : State :=
  let s := State.reset
  let s : State := s.setFb 95 { s.fb 95 with pend := [] }
  let s : State := s.setFb 95 { s.fb 95 with faults := [] }
  let s : State := s.setFb 95 { s.fb 95 with ab := some (!false, !false) }
  (s.put (pFbk 95) PAGE_CTL.en 1).put (pFbk 95) FBK_CFG.mode 1

def w174 : State :=
  let s := State.reset
  let s : State := s.setFb 95 { s.fb 95 with pend := [] }
  let s : State := s.setFb 95 { s.fb 95 with faults := [] }
  let s : State := s.setFb 95 { s.fb 95 with ab := some (true, false) }
  let s : State := (s.put (pFbk 95) PAGE_CTL.en 1).put (pFbk 95) FBK_CFG.mode 1
  s.setFb 95 { s.fb 95 with ab := some (true, false) }

def w175 : State :=
  let s := State.reset
  let s : State := s.put (pFbk 95) FBK_CFG.lfen 1
  let s : State := (s.put (pFbk 95) PAGE_CTL.en 1).put (pFbk 95) FBK_CFG.mode 1
  s.setFb 95 { s.fb 95 with faults := [2, 1] }

def w176 : State :=
  let s := State.reset
  s.setFb 95 { s.fb 95 with faults := [2] }

def w177 : State :=
  let s := State.reset
  let s : State := s.setFb 95 { s.fb 95 with ab := some (true, false) }
  let s : State := (s.put (pFbk 95) PAGE_CTL.en 1).put (pFbk 95) FBK_CFG.mode 1
  s.setFb 95 { s.fb 95 with faults := [0] }

def w178 : State :=
  let s := State.reset
  let s : State := s.setFb 95 { s.fb 95 with ab := some (true, false) }
  let s : State := (s.put (pFbk 95) PAGE_CTL.en 1).put (pFbk 95) FBK_CFG.mode 1
  s.setFb 95 { s.fb 95 with faults := [1] }

def w179 : State :=
  let s := State.reset
  let s : State := s.put (pFbk 95) FBK_CFG.lfen 1
  (s.put (pFbk 95) PAGE_CTL.en 1).put (pFbk 95) FBK_CFG.mode 1

def w180 : State :=
  let s := State.reset
  let s : State := s.put (pFbk 95) FBK_CMP_CTL.en 0
  (s.put (pFbk 95) PAGE_CTL.en 1).put (pFbk 95) FBK_CFG.mode 3

def w181 : State :=
  let s := State.reset
  let s : State := s.put (pFbk 95) PAGE_CTL.en 1
  let s : State := s.put (pFbk 95) FBK_CFG.mode 1
  s.put (pFbk 95) FBK_CMP_CTL.en 0

def w182 : State :=
  let s := State.reset
  s.setFb 95 { s.fb 95 with uncAt := some s.now }

def w183 : State :=
  let s := State.reset
  let s : State := (s.put (pFbk 95) PAGE_CTL.en 1).put (pFbk 95) FBK_CFG.mode 1
  (s.put (pFbk 95) FBK_IDX_CFG.zen 1).put (pFbk 95) FBK_IDX_CFG.zgate 0

def w184 : State :=
  let s := State.reset
  let s : State := s.put (pFbk 95) FBK_IDX_CFG.policy 1
  let s : State := s.put (pFbk 95) FBK_BLK.ref 0
  s.setFb 95 { s.fb 95 with loadAt := none }

def w185 : State :=
  let s := State.reset
  let s : State := s.put (pFbk 95) FBK_IDX_CFG.policy 1
  s.put (pFbk 95) FBK_BLK.ref 1

def w186 : State :=
  let s := State.reset
  let s : State := s.put (pFbk 95) FBK_IDX_CFG.policy 1
  let s : State := s.put (pFbk 95) FBK_BLK.ref 1
  s.setFb 95 { s.fb 95 with loadAt := none }

def w187 : State :=
  let s := State.reset
  s.put (pFbk 95) FBK_IDX_CFG.policy 0

def w188 : State :=
  let s := State.reset
  let s : State := (s.put (pFbk 95) PAGE_CTL.en 1).put (pFbk 95) FBK_CFG.mode 1
  s.setFb 95 { s.fb 95 with faults := [2] }

def w189 : State :=
  let s := State.reset
  let s : State := s.put (pFbk 95) PAGE_CTL.en 1
  let s : State := s.put (pFbk 95) FBK_CFG.mode 2
  let s : State := s.put (pFbk 95) FBK_BLK.phist 0
  ((s.put (pFbk 95) FBK_SC_AMP.lo 5898).put (pFbk 95) FBK_SC_AMP.hi (2 ^ 17 - 1)).put (pFbk 95) FBK_SC_GAIN.cgain 65536

def w190 : State :=
  let s := State.reset
  let s : State := s.put (pFbk 95) PAGE_CTL.en 1
  let s : State := s.put (pFbk 95) FBK_CFG.mode 2
  s.put (pFbk 95) FBK_BLK.phist 0

def w191 : State :=
  let s := State.reset
  let s : State := s.put (pFbk 95) PAGE_CTL.en 1
  let s : State := s.put (pFbk 95) FBK_CFG.mode 2
  let s : State := s.put (pFbk 95) FBK_BLK.phist 1
  ((s.put (pFbk 95) FBK_SC_AMP.lo 5898).put (pFbk 95) FBK_SC_AMP.hi (2 ^ 17 - 1)).put (pFbk 95) FBK_SC_GAIN.cgain 65536

def w192 : State :=
  let s := State.reset
  s.setFb 95 { s.fb 95 with pend := [] }

def w193 : State :=
  let s := State.reset
  let s : State := s.put (pFbk 95) PAGE_CTL.en 1
  let s : State := s.put (pFbk 95) FBK_CFG.mode 3
  let s : State := s.setFb 95 { s.fb 95 with pend := ({} : PendLatch) :: ([] : List PendLatch) }
  (s.put (pFbk 95) FBK_SER_CFG.mt 0).put (pFbk 95) FBK_SER_CFG.st 0

def w194 : State :=
  let s := State.reset
  let s : State := s.put (pFbk 95) PAGE_CTL.en 1
  let s : State := s.put (pFbk 95) FBK_CFG.mode 4
  let s : State := s.setFb 95 { s.fb 95 with pend := ({} : PendLatch) :: ([] : List PendLatch) }
  (s.put (pFbk 95) FBK_SER_CFG.mt 0).put (pFbk 95) FBK_SER_CFG.st 0

def w195 : State :=
  let s := State.reset
  let s : State := s.put (pFbk 95) PAGE_CTL.en 1
  let s : State := s.put (pFbk 95) FBK_CFG.mode 3
  let s : State := s.setFb 95 { s.fb 95 with pend := ({} : PendLatch) :: ([] : List PendLatch) }
  let s : State := s.put (pFbk 95) FBK_CMP_CTL.en 0
  (s.put (pFbk 95) FBK_SER_CFG.mt 0).put (pFbk 95) FBK_SER_CFG.st 0

def w196 : State :=
  let s := State.reset
  let s : State := s.put (pFbk 95) PAGE_CTL.en 1
  let s : State := s.put (pFbk 95) FBK_CFG.mode 4
  let s : State := s.setFb 95 { s.fb 95 with pend := ({} : PendLatch) :: ([] : List PendLatch) }
  let s : State := s.put (pFbk 95) FBK_CMP_CTL.en 0
  (s.put (pFbk 95) FBK_SER_CFG.mt 0).put (pFbk 95) FBK_SER_CFG.st 0

def w197 : State :=
  let s := State.reset
  s.setFb 95 { s.fb 95 with biss := true }

def w198 : State :=
  let s := State.reset
  s.setFb 95 { s.fb 95 with biss := false }

def w199 : State :=
  let s := State.reset
  s.setFb 95 { s.fb 95 with pend := ({} : PendLatch) :: ([] : List PendLatch) }

def w200 : State :=
  let s := State.reset
  s.setFb 95 { s.fb 95 with pend := ({ ended := true } : PendLatch) :: ([] : List PendLatch) }

def w201 : State :=
  let s := State.reset
  s.setFb 95 { s.fb 95 with pend := ({ ended := true, prism := true } : PendLatch) :: ([] : List PendLatch) }

def w202 : State :=
  let s := State.reset
  let s : State := s.setFb 95 { s.fb 95 with pend := ({ ended := true, spd := some 5, shist := true } : PendLatch) :: ([] : List PendLatch) }
  ((s.put (pFbk 95) FBK_ENV_CTL.sen 1).put (pFbk 95) FBK_BLK.shist 1).put (pFbk 95) FBK_ENV_SPD.vmax 4

def w203 : State :=
  let s := State.reset
  let s : State := (s.put (pFbk 95) PAGE_CTL.en 1).put (pFbk 95) FBK_CFG.mode 1
  { s with time := { s.time with cnt := [(0, 2 ^ 40 * 6400000)] } }

def w204 : State :=
  let s := State.reset
  let s : State := (s.put (pFbk 95) PAGE_CTL.en 1).put (pFbk 95) FBK_CFG.mode 1
  s.setFb 95 { s.fb 95 with pend := [({} : PendLatch)] }

def w205 : State :=
  let s := State.reset
  let s : State := (s.put (pFbk 95) PAGE_CTL.en 1).put (pFbk 95) FBK_CFG.mode 3
  let s : State := { s with time := { s.time with cnt := [(0, 2 ^ 40 * 6400000)] } }
  s.setFb 95 { s.fb 95 with wait := 5 }

def w206 : State :=
  let s := State.reset
  let s : State := s.put (pFbk 95) FBK_EMU.src 94
  let s : State := (s.put (pFbk 94) PAGE_CTL.en 1).put (pFbk 94) FBK_CFG.mode 1
  let s : State := s.put (pFbk 94) FBK_BLK.phist 1
  let s : State := s.put (pFbk 95) PAGE_CTL.en 1
  let s : State := s.put (pFbk 95) FBK_CFG.mode 5
  let s : State := s.put (pFbk 95) FBK_EMU_CPT.cpt 4000
  let s : State := s.setFb 94 { s.fb 94 with n := 4000 }
  let s : State := s.setFb 95 { s.fb 95 with out := -1 }
  { s with now := 1000000 }

def w207 : State :=
  let s := State.reset
  let s : State := { s with olSealed := false }
  let s : State := s.put (pFbk 95) FBK_SUP.en 0
  s.put (pFbk 95) FBK_SUP.sel 2

def w208 : State :=
  let s := State.reset
  let s : State := { s with olSealed := false }
  s.put (pFbk 95) FBK_SUP.en 0

def w209 : State :=
  let s := State.reset
  let s : State := { s with olSealed := false }
  let s : State := s.put (pFbk 95) FBK_SUP.en 1
  s.put (pFbk 95) FBK_SUP.budget 35

def w210 : State :=
  let s := State.reset
  let s : State := s.put (pFbk 95) FBK_SUP.en 1
  s.put (pFbk 95) FBK_SUP.budget 35

def w211 : State :=
  let s := State.reset
  s.put (pFbk 95) FBK_SUP.en 0

def w212 : State :=
  let s := State.reset
  s.put (pFbk 95) FBK_SUP.en 1

def w213 : State :=
  let s := State.reset
  let s : State := s.put (pProf 95) PAGE_CTL.en 1
  let s : State := s.put (pProf 95) PROF_CFG.noref 1
  let s : State := { s with gateEn := [11] }
  let s : State := s.put (pProf 95) PAGE_CTL.en 1
  (s.put (pPwm 95) PAGE_CTL.en 1).put (pPwm 95) PAGE_CTL.gate_req 0

def w214 : State :=
  let s := State.reset
  s.put (pProf 95) PAGE_CTL.en 1

def w215 : State :=
  let s := State.reset
  let s : State := s.put (pProf 95) PAGE_CTL.en 1
  let s : State := s.setPr 95 { s.pr 95 with pts := ({} : StreamPt) :: ([] : List StreamPt) }
  let s : State := s.put (pProf 95) PROF_CFG.noref 1
  let s : State := { s with gateEn := [11] }
  let s : State := s.put (pProf 95) PAGE_CTL.en 1
  let s : State := (s.put (pPwm 95) PAGE_CTL.en 1).put (pPwm 95) PAGE_CTL.gate_req 0
  s.put pTime0 TIME_CT_STAT.valid 1

def w216 : State :=
  let s := State.reset
  let s : State := s.put (pProf 95) PAGE_CTL.en 1
  let s : State := s.setPr 95 { s.pr 95 with pts := [] }
  let s : State := s.put (pProf 95) PROF_CFG.noref 1
  let s : State := { s with gateEn := [11] }
  let s : State := s.put (pProf 95) PAGE_CTL.en 1
  (s.put (pPwm 95) PAGE_CTL.en 1).put (pPwm 95) PAGE_CTL.gate_req 0

def w217 : State :=
  let s := State.reset
  let s : State := s.put (pProf 95) PAGE_CTL.en 1
  let s : State := s.put (pProf 95) PROF_CFG.noref 1
  let s : State := { s with gateEn := [11] }
  let s : State := s.put (pProf 95) PAGE_CTL.en 1
  let s : State := (s.put (pPwm 95) PAGE_CTL.en 1).put (pPwm 95) PAGE_CTL.gate_req 0
  let s : State := (s.put (pProf 95) PROF_HOME.meth 1).put (pProf 95) PROF_LIM.r0 3
  (s.put (pProf 95) PROF_HOME_VS.v 1).put (pProf 95) PROF_HOME_VL.v 1

def w218 : State :=
  let s := State.reset
  s.put (pProf 95) PAGE_CTL.en 0

def w219 : State :=
  let s := State.reset
  let s : State := s.put (pProf 95) PAGE_CTL.en 1
  s.setPr 95 { s.pr 95 with doneAt := some s.now }

def w220 : State :=
  let s := State.reset
  let s : State := s.put (pProf 95) PAGE_CTL.en 1
  let s : State := s.put (pProf 95) PROF_BLK.busy 0
  s.setPr 95 { s.pr 95 with cmd := .none }

def w221 : State :=
  let s := State.reset
  let s : State := s.put (pProf 95) PAGE_CTL.en 1
  let s : State := s.put (pProf 95) PROF_BLK.busy 1
  s.setPr 95 { s.pr 95 with goal := .stop }

def w222 : State :=
  let s := State.reset
  let s : State := s.put (pProf 95) PAGE_CTL.en 1
  s.put (pProf 95) PROF_BLK.hstate 1

def w223 : State :=
  let s := State.reset
  let s : State := s.put (pProf 95) PAGE_CTL.en 1
  s.put (pProf 95) PROF_BLK.hstate 2

def w224 : State :=
  let s := State.reset
  let s : State := s.put (pProf 95) PAGE_CTL.en 1
  s.setPr 95 { s.pr 95 with pts := List.replicate 8 {} }

def w225 : State :=
  let s := State.reset
  let s : State := s.put (pProf 95) PAGE_CTL.en 1
  s.setPr 95 { s.pr 95 with pts := [] }

def w226 : State :=
  let s := State.reset
  let s : State := s.put (pProf 95) PAGE_CTL.en 1
  let s : State := s.setPr 95 { s.pr 95 with pts := [] }
  let s : State := s.put (pProf 95) PROF_ENV_CTL.ven 0
  let s : State := s.put (pProf 95) PROF_ENV_CTL.pwin 0
  s.put (pProf 95) PROF_SP_THI.t 10

def w227 : State :=
  let s := State.reset
  let s : State := s.put (pProf 95) PAGE_CTL.en 1
  let s : State := s.setPr 95 { s.pr 95 with cmd := .none }
  let s : State := s.setPr 95 { s.pr 95 with load := none }
  let s : State := s.setPr 95 { s.pr 95 with goal := .rest }
  let s : State := s.setPr 95 { s.pr 95 with plan := [] }
  let s : State := s.setPr 95 { s.pr 95 with cross := [] }
  let s : State := s.setPr 95 { s.pr 95 with waits := [] }
  let s : State := s.setPr 95 { s.pr 95 with base := none }
  let s : State := s.setPr 95 { s.pr 95 with resDue := none }
  let s : State := s.put (pPwm 95) PWM_CFG.kind 1
  let s : State := s.put (pProf 95) PROF_BLK.hstate 0
  let s : State := s.put (pProf 95) PROF_ENV_CTL.ven 0
  let s : State := s.put (pProf 95) PROF_ENV_CTL.aen 0
  s.put (pProf 95) PROF_ENV_CTL.pwin 0

def w228 : State :=
  let s := State.reset
  s.setPr 95 { s.pr 95 with cmd := .move (0 : Rat) }

def w229 : State :=
  let s := State.reset
  s.setPr 95 { s.pr 95 with cmd := .jog (0 : Rat) }

def w230 : State :=
  let s := State.reset
  s.setPr 95 { s.pr 95 with cmd := .home }

def w231 : State :=
  let s := State.reset
  s.setPr 95 { s.pr 95 with load := some (0 : Rat) }

def w232 : State :=
  let s := State.reset
  let s : State := s.setPr 95 { s.pr 95 with load := some (0 : Rat) }
  s.setPr 95 { s.pr 95 with plan := [{ dur := 10, v0 := 1, v1 := 1, p1 := 10 }] }

def w233 : State :=
  let s := State.reset
  s.setPr 95 { s.pr 95 with last := some ({} : StreamPt) }

def w234 : State :=
  let s := State.reset
  let s : State := s.setPr 95 { s.pr 95 with last := some ({ t64 := 100 } : StreamPt) }
  let s : State := s.setPr 95 { s.pr 95 with goal := .stream }
  let s : State := s.setPr 95 { s.pr 95 with under := true }
  let s : State := s.setPr 95 { s.pr 95 with pts := [] }
  let s : State := { s with time := { s.time with cnt := [(0, 2 ^ 70)] } }
  s.put (pProf 95) PROF_SP_CTL.hold 5

def w235 : State :=
  let s := State.reset
  let s : State := s.put (pProf 95) PAGE_CTL.en 1
  let s : State := s.put (pPwm 95) PWM_CFG.kind 3
  let s : State := s.setPw 95 { s.pw 95 with padHold := false }
  let s : State := s.setPr 95 { s.pr 95 with waits := true :: ([] : List Bool) }
  let s : State := s.setPr 95 { s.pr 95 with goal := .rest }
  let s : State := { s with gateEn := [11] }
  (s.put (pPwm 95) PAGE_CTL.en 1).put (pPwm 95) PAGE_CTL.gate_req 0

def w236 : State :=
  let s := State.reset
  s.setPr 95 { s.pr 95 with riseAt := some 100 }

def w237 : State :=
  let s := State.reset
  s.setPr 95 { s.pr 95 with dirAt := some 100 }

def w238 : State :=
  let s := State.reset
  let s : State := s.setPr 95 { s.pr 95 with waits := false :: ([] : List Bool) }
  let s : State := s.setPw 95 { s.pw 95 with padHold := false }
  let s : State := { s with gateEn := [11] }
  (s.put (pPwm 95) PAGE_CTL.en 1).put (pPwm 95) PAGE_CTL.gate_req 0

def w239 : State :=
  let s := State.reset
  s.setPr 95 { s.pr 95 with waits := [true] }

def w240 : State :=
  let s := State.reset
  s.setPr 95 { s.pr 95 with cross := [(0, true)] }

def w241 : State :=
  let s := State.reset
  let s : State := s.setPr 95 { s.pr 95 with goal := .stream }
  let s : State := s.setPr 95 { s.pr 95 with under := false }
  s.setPr 95 { s.pr 95 with pts := [({} : StreamPt)] }

def w242 : State :=
  let s := State.reset
  let s : State := s.setPr 95 { s.pr 95 with goal := .stream }
  let s : State := s.setPr 95 { s.pr 95 with under := false }
  s.setPr 95 { s.pr 95 with pts := ({} : StreamPt) :: ([{ t64 := 5 }] : List StreamPt) }

def w243 : State :=
  let s := State.reset
  s.setPr 95 { s.pr 95 with pts := ({ t64 := 100 } : StreamPt) :: ([] : List StreamPt) }

def w244 : State :=
  let s := State.reset
  let s : State := s.setPr 95 { s.pr 95 with stepHigh := true }
  let s : State := s.setPr 95 { s.pr 95 with riseAt := some 100 }
  { s with now := 10 ^ 9 }

def w245 : State :=
  let s := State.reset
  let s : State := s.put (pProf 95) PAGE_CTL.en 1
  s.setPr 95 (ProfSt.setInp (s.pr 95) 1 { level := false, run := 10 ^ 6 })

def w246 : State :=
  let s := State.reset
  let s : State := s.put (pProf 95) PAGE_CTL.en 1
  s.setPr 95 (ProfSt.setInp (s.pr 95) 1 { level := false, run := 10 ^ 6, last := some 100 })

def w247 : State :=
  let s := State.reset
  let s : State := s.put (pProf 95) PROF_BLK.hstate 1
  let s : State := s.setPr 95 { plan := [{ dur := 10, v0 := 1, v1 := 1, p1 := 10 }], inA := { level := true } }
  s.put (pProf 95) PROF_LIM.r0 1

def w248 : State :=
  let s := State.reset
  let s : State := s.setPr 95 (ProfSt.setInp (s.pr 95) 1 { chatter := true, last := some 100 })
  { s with time := { s.time with cnt := [(0, 2 ^ 77)] } }

def w249 : State :=
  let s := State.reset
  { s with wire := [] }

def w250 : State :=
  let s := State.reset
  { s with wire := [({} : Post)] }

def w251 : State :=
  let s := State.reset
  { s with wire := ({} : Post) :: ([] : List Post) }

def w252 : State :=
  let s := State.reset
  let s : State := { s with srstBusy := [pInnk0] }
  { s with wire := [({} : Post)] }

def w253 : State :=
  let s := State.reset
  let s : State := { s with wire := [({} : Post)] }
  { s with innk := { s.innk with queue := List.replicate 64 {} } }

def w254 : State :=
  let s := State.reset
  { s with innk := { s.innk with queue := [] } }

def w255 : State :=
  let s := State.reset
  let s : State := { s with innk := { s.innk with queue := ({} : Post) :: ([] : List Post) } }
  { s with innk := { s.innk with cancelled := [({} : Post).task] } }

def w256 : State :=
  let s := State.reset
  let s : State := { s with innk := { s.innk with queue := ({} : Post) :: ([] : List Post) } }
  s.put (pTsk ({} : Post).task) TSK_CFG.en 0

def w257 : State :=
  let s := State.reset
  let s : State := { s with innk := { s.innk with queue := ({} : Post) :: ([] : List Post) } }
  let s : State := s.put (pTsk ({} : Post).task) TSK_CFG.en 1
  s.put (pTsk ({} : Post).task) TSK_STAT.pend 15

def w258 : State :=
  let s := State.reset
  let s : State := { s with innk := { s.innk with queue := ({} : Post) :: ([] : List Post) } }
  s.put (pTsk ({} : Post).task) TSK_CFG.en 1

def w259 : State :=
  let s := State.reset
  let s : State := s.put (pTsk 511) TSK_STAT.state 2
  let s : State := s.put (pTsk 511) TSK_AFF1.mask (2 ^ 31)
  let s : State := s.put (pCore 63) PAGE_CTL.en 1
  s.put (pTsk 511) TSK_CFG.en 1

def w260 : State :=
  let s := State.reset
  let s : State := s.setCo 63 { s.co 63 with assign := some 511 }
  let s : State := s.setCo 63 { s.co 63 with task := none }
  s.put (pTsk 511) TSK_STAT.state 2

def w261 : State :=
  let s := State.reset
  let s : State := s.setCo 63 { s.co 63 with assign := some 511 }
  let s : State := s.setCo 63 { s.co 63 with task := none }
  s.put (pTsk 511) TSK_STAT.state 4

def w262 : State :=
  let s := State.reset
  let s : State := s.setTa 511 { s.ta 511 with posts := ({} : Post) :: ([] : List Post) }
  s.put (pTsk 511) TSK_STAT.pend 1

def w263 : State :=
  let s := State.reset
  let s : State := s.setCo 63 { s.co 63 with task := some 511 }
  let s : State := s.setCo 63 { s.co 63 with drain := .none }
  let s : State := s.setCo 63 { s.co 63 with halted := false }
  let s : State := s.put (pCore 63) CORE_NMI.pend 0
  let s : State := s.setCo 63 { s.co 63 with preempt := none }
  let s : State := s.setCo 63 { s.co 63 with evict := true }
  s.setCo 63 { s.co 63 with orphan := false }

def w264 : State :=
  let s := State.reset
  let s : State := s.setCo 63 { s.co 63 with task := some 1 }
  let s : State := s.setCo 63 { s.co 63 with drain := .none }
  let s : State := s.setCo 63 { s.co 63 with halted := false }
  let s : State := s.put (pCore 63) CORE_NMI.pend 0
  s.setCo 63 { s.co 63 with preempt := some 7 }

def w265 : State :=
  let s := State.reset
  let s : State := s.setCo 63 { s.co 63 with task := some 511 }
  let s : State := s.setTa 511 { s.ta 511 with first := some ({} : Post) }
  s.setCo 63 { s.co 63 with orphan := false }

def w266 : State :=
  let s := State.reset
  let s : State := s.put pInnk0 INNK_LOAD_CFG.en 1
  let s : State := { s with time := { s.time with cnt := [(0, 2 ^ 40 * 640000)] } }
  s.put pInnk0 INNK_LOAD_CFG.w 0

def w267 : State :=
  let s := State.reset
  s.setTa 511 { s.ta 511 with stuck := false }

def w268 : State :=
  let s := State.reset
  s.put (pTsk 511) TSK_STAT.state 1

def w269 : State :=
  let s := State.reset
  s.put (pTsk 511) TSK_STAT.state 5

def w270 : State :=
  let s := State.reset
  let s : State := s.put (pTsk 511) TSK_STAT.state 5
  s.put (pTsk 511) TSK_STAT.ctxv 1

def w271 : State :=
  let s := State.reset
  let s : State := s.put (pTsk 511) TSK_STAT.state 3
  s.put (pTsk 511) TSK_STAT.state 1

def w272 : State :=
  let s := State.reset
  s.put (pTsk 511) TSK_STAT.state 2

def w273 : State :=
  let s := State.reset
  s.put (pTsk 511) TSK_STAT.state 4

def w274 : State :=
  let s := State.reset
  let s : State := s.put (pTsk 511) TSK_STAT.state 1
  s.put (pTsk 511) TSK_STAT.state 1

def w275 : State :=
  let s := State.reset
  { s with innk := { s.innk with queue := [({ cls := 1, src := 0x500 } : Post)] } }

def w276 : State :=
  let s := State.reset
  s.put (pRing 1) RING_P_STAT.up 1

def w277 : State :=
  let s := State.reset
  s.put (pRing 9) RING_P_STAT.up 0

def w278 : State :=
  let s := State.reset
  s.put pRing0 RING_STAT.state 1

def w279 : State :=
  let s := State.reset
  let s : State := s.put pRing0 RING_STAT.state 0
  let s : State := { s with olSealed := true }
  let s : State := s.put pRing0 PAGE_CTL.en 1
  s.put (pRing 1) RING_P_STAT.up 1

def w280 : State :=
  let s := State.reset
  s.put (pRing 9) RING_P_STAT.up 1

def w281 : State :=
  let s := State.reset
  s.put pClk CLK_DOM_FIX.pdead 1

def w282 : State :=
  let s := State.reset
  let s : State := s.put (pRing 9) RING_P_STAT.up 1
  let s : State := s.put pRing0 RING_STAT.state 1
  s.put pClk CLK_DOM_FIX.pdead 0

def w283 : State :=
  let s := State.reset
  let s : State := s.put (pRing 9) RING_P_STAT.up 1
  s.put pRing0 RING_STAT.state 1

def w284 : State :=
  let s := State.reset
  let s : State := s.put (pRing 1) RING_P_STAT.up 1
  s.put pRing0 RING_STAT.state 1

def w285 : State :=
  let s := State.reset
  s.put (pRing 1) RING_P_STAT.broken 1

def w286 : State :=
  let s := State.reset
  s.put (pRing 1) RING_P_STAT.broken 0

def w287 : State :=
  let s := State.reset
  { s with ring := { s.ring with breaks := [(1, 2)] } }

def w288 : State :=
  let s := State.reset
  let s : State := s.put pRing0 RING_STAT.state 4
  let s : State := { s with ring := { s.ring with breaks := [] } }
  let s : State := { s with ring := { s.ring with restores := [] } }
  let s : State := s.put pTime0 TIME_CT_STAT.state 0
  let s : State := s.put pTime0 TIME_CT_STAT.valid 1
  s.put pRing0 RING_SYNC.hold 5

def w289 : State :=
  let s := State.reset
  s.put pRing0 RING_STAT.state 3

def w290 : State :=
  let s := State.reset
  s.put pRing0 RING_STAT.state 4

def w291 : State :=
  let s := State.reset
  let s : State := s.put pTime0 TIME_CT_STAT.valid 1
  s.put pTime0 TIME_CT_STAT.state 1

def w292 : State :=
  let s := State.reset
  let s : State := s.put pTime0 TIME_CT_STAT.valid 1
  let s : State := s.put pTime0 TIME_CT_STAT.state 1
  (((s.put (pSched 4095) (SCHED_W0.valid 0) 1).put (pSched 4095) (SCHED_W2.idn 0) 0).put (pSched 4095) (SCHED_W1.inp 0) 1)

def w293 : State :=
  let s := State.reset
  let s : State := s.put pNames (NAME_HI.present 0) 1
  { s with ring := { s.ring with known := true } }

def w294 : State :=
  let s := State.reset
  s.put pNames (NAME_HI.present 0) 1

def w295 : State :=
  let s := State.reset
  let s : State := { s with ring := { s.ring with known := false } }
  s.put pRing0 RING_SPOKES.len 1

def w296 : State :=
  let s := State.reset
  let s : State := s.put (pSched 7) (SCHED_W0.role 0) 1
  { s with ring := { s.ring with took := [(0, [0])] } }

def w297 : State :=
  let s := State.reset
  s.put (pSched 7) (SCHED_W0.role 0) 1

def w298 : State :=
  let s := State.reset
  let s : State := s.put (pRing 1) RING_P_STAT.up 1
  let s : State := s.put pRing0 RING_STAT.state 1
  let s : State := ((s.put (pSched 7) (SCHED_W0.valid 0) 1).put (pSched 7) (SCHED_W1.inp 0) 1)
  (s.put pTime0 TIME_CT_STAT.valid 1).put pTime0 TIME_CT_STAT.state 1

def w299 : State :=
  let s := State.reset
  let s : State := ((s.put (pSched 7) (SCHED_W0.valid 0) 1).put (pSched 7) (SCHED_W1.wrap 0) 1)
  { s with ring := { s.ring with inForce := [0] } }

def w300 : State :=
  let s := State.reset
  s.put (pRing 1) RING_P_STAT.wrap 1

def w301 : State :=
  let s := State.reset
  s.put pClk CLK_DOM_FIX.pdead 0

def w302 : State :=
  let s := State.reset
  { s with blocked := [pRing0] }

def w303 : State :=
  let s := State.reset
  let s : State := s.put pRing0 RING_STAT.state 5
  { s with ring := { s.ring with seen := [] } }

def w304 : State :=
  let s := State.reset
  let s : State := (s.put (pSched 7) (SCHED_W0.valid 0) 1)
  { s with time := { s.time with cnt := [(0, 2 ^ 40 * 7872000), (4, 2 ^ 40 * 7872000)] } }

def w305 : State :=
  let s := State.reset
  let s : State := s.put pRing0 RING_STAT.state 4
  let s : State := s.put (pRing 9) RING_P_STAT.wrap 0
  let s : State := { s with blocked := [] }
  let s : State := { s with ring := { s.ring with txHold := [] } }
  let s : State := s.put pClk CLK_DOM_FIX.pdead 0
  (((s.put (pSched 7) (SCHED_W0.valid 0) 1).put (pSched 7) (SCHED_W0.kind 0) 2).put (pSched 7) (SCHED_W1.out 0) 512)

def w306 : State :=
  let s := State.reset
  let s : State := { s with ring := { s.ring with hold := [(1, some (7, {}))] } }
  s.put (pSched 7) (SCHED_W2.ftime 0) 5

def w307 : State :=
  let s := State.reset
  let s : State := s.put pClk CLK_DOM_FIX.pdead 0
  { s with ring := { s.ring with hold := [(1, some (7, {}))] } }

def w308 : State :=
  let s := State.reset
  let s : State := s.put pRing11 (RING_CP.en 15) 1
  let s : State := s.put pTime0 TIME_CT_STAT.valid 1
  s.put pRing0 RING_STAT.state 3

def w309 : State :=
  let s := State.reset
  { s with jumpAt := some 511 }

def w310 : State :=
  let s := State.reset
  let s : State := { s with ring := { s.ring with wait := [] } }
  s.setReg (pRing0 + 0x25) 0xA00000001

def w311 : State :=
  let s := State.reset
  let s : State := s.setReg (pRing0 + 0x25) 0xA00000001
  let s : State := (s.setReg (pRing0 + 0x24) 0xF00000000).setReg (pRing0 + 0x27) 1
  s.setMem 0xF00000000 0x800001000

def w312 : State :=
  let s := State.reset
  { s with ring := { s.ring with wait := [] } }

def w313 : State :=
  let s := State.reset
  { s with ring := { s.ring with fwd := [(1, [(5, { payload := [1, 2] })])] } }

def w314 : State :=
  let s := State.reset
  let s : State := s.put (pRing 1) RING_P_STAT.up 1
  let s : State := s.put pRing0 RING_STAT.state 1
  let s : State := s.put pClk CLK_DOM_FIX.pdead 0
  let s : State := { s with ring := { s.ring with fwd := [(1, [(5, { payload := [1, 2] })])] } }
  let s : State := (((s.put (pSched 4095) (SCHED_W0.valid 0) 1).put (pSched 4095) (SCHED_W0.kind 0) 3).put (pSched 4095) (SCHED_W1.len 0) 4095)
  let s : State := s.put (pSched 4095) (SCHED_W1.out 0) 2
  let s : State := s.put (pRing 1) RING_P_CRED.cred 1
  s.put pRing0 RING_CYC.k 32

def w315 : State :=
  let s := State.reset
  let s : State := s.put (pRing (s.viaPort 1)) RING_P_STAT.up 1
  let s : State := s.put pRing0 RING_STAT.state 1
  let s : State := s.setReg (pRing0 + 0x25) 0xA00000001
  let s : State := (s.setReg (pRing0 + 0x24) 0xF00000000).setReg (pRing0 + 0x27) 1
  s.setMem 0xF00000000 0x800001000

def w316 : State :=
  let s := State.reset
  let s : State := s.put (pEth 1) ETH_LINK.up 1
  s.put (pEth 1) PAGE_CTL.en 1

def w317 : State :=
  let s := State.reset
  let s : State := (s.put (pEth 1) ETH_PFC.en 1).put (pEth 1) ETH_PFC.pa 0
  s.setEt 1 { s.et 1 with xoff := [0], rx := [{ prio := 0, head := true, frame := { octets := List.replicate 39400 (0 : Nat) } }] }

def w318 : State :=
  let s := State.reset
  s.put (pEth 1) ETH_LINK.up 1

def w319 : State :=
  let s := State.reset
  s.put (pEth 1) ETH_LINK.up 0

def w320 : State :=
  let s := State.reset
  let s : State := s.put (pEth 1) ETH_CAP.rate 1
  let s : State := s.setEt 1 { s.et 1 with xoff := [2] }
  s.put (pEth 1) ETH_PFC.xon 0

def w321 : State :=
  let s := State.reset
  s.setEt 1 { s.et 1 with paused := [(2, some 0)] }

def w322 : State :=
  let s := State.reset
  s.put (pSafe 2) (SAFE_PORT.pstate 11) 0

def w323 : State :=
  let s := State.reset
  let s : State := s.put (pSafe 2) (SAFE_PORT.pstate 11) 1
  s.put (pSafe 2) (SAFE_PORT.pstate 11) 3

def w324 : State :=
  let s := State.reset
  s.put (pSafe 2) (SAFE_PORT.pstate 11) 2

def w325 : State :=
  let s := State.reset
  s.put (pSafe 2) (SAFE_PORT.pstate 11) 1

def w326 : State :=
  let s := State.reset
  s.put (pSafe 0) SAFE_STAT.state 5

def w327 : State :=
  let s := State.reset
  s.put (pSafe 0) SAFE_STAT.state 1

def w328 : State :=
  let s := State.reset
  s.put (pSafe 0) SAFE_STAT.state 0

def w329 : State :=
  let s := State.reset
  let s : State := s.put (pSafe 0) SAFE_STAT.state 5
  s.put (pSafe 0) SAFE_STAT.hwsafe 0

def w330 : State :=
  let s := State.reset
  { s with envNotify := [95] }

def w331 : State :=
  let s := State.reset
  { s with fcNotify := [0x500] }

def w332 : State :=
  let s := State.reset
  { s with fcNotify := [0xF80105F00] }

def w333 : State :=
  let s := State.reset
  let s : State := { s with fcNotify := [0xF80050000] }
  { s with isl := { s.isl with img := { fcReact := [((blkOf 0xF80050000).code, 2)] } } }

def w334 : State :=
  let s := State.reset
  let s : State := { s with isl := { s.isl with cycAt := s.now }, now := s.now + 260 * edgesUs }
  let s : State := { s with isl := { s.isl with cycAt := 0 }, now := 10 ^ 9, stream := [(95, some { spd := 3 })] }
  s.put (pSafe 0) SAFE_STAT.state 4

def w335 : State :=
  let s := State.reset
  let s : State := { s with isl := { s.isl with mism := some 1 } }
  let s : State := s.put (pSafe 0) SAFE_STAT.state 4
  { s with isl := { s.isl with mism := some 1 } }

def w336 : State :=
  let s := State.reset
  { s with isl := { s.isl with img := { chans := [(95, { sls := true })] } } }

def w337 : State :=
  let s := State.reset
  let s : State := s.setIc 95 { s.ic 95 with set := some ({ spd := -101 } : LatchSet) }
  let s : State := { s with isl := { s.isl with img := { chans := [(95, { sls := true, sets := [{ vlim := some 100 }] })] } } }
  s.setIc 95 { s.ic 95 with set := some { spd := -101 } }

def w338 : State :=
  let s := State.reset
  let s : State := s.setIc 95 { s.ic 95 with set := some ({ pos := -1, ref := true } : LatchSet) }
  let s : State := { s with isl := { s.isl with img := { chans := [(95, { slp := true, sets := [{ plo := 0 }] })] } } }
  s.setIc 95 { s.ic 95 with set := some { pos := -1, ref := true } }

def w339 : State :=
  let s := State.reset
  let s : State := s.put (pSafe 2) (SAFE_PORT.pstate 11) 1
  { s with now := 10 ^ 12 }

def w340 : State :=
  let s := State.reset
  let s : State := s.put (pSafe 2) (SAFE_PORT.pstate 11) 1
  let s : State := s.setIp 11 { s.ip 11 with ts := s.now }
  let s : State := { s with isl := { s.isl with img := { chans := [(95, { sls := true, vstand := 100, tol1 := 0 })] } } }
  s.setIc 95 { s.ic 95 with set := some { spd := 101 } }

def w341 : State :=
  let s := State.reset
  let s : State := s.put (pSafe 2) (SAFE_PORT.pstate 11) 0
  let s : State := s.setIp 11 { s.ip 11 with stopAt := some 0 }
  s.put (pSafe 2) (SAFE_PORT.cause 11) 6

def w342 : State :=
  let s := State.reset
  let s : State := s.put (pSafe 2) (SAFE_PORT.pstate 11) 1
  let s : State := s.setIp 11 { s.ip 11 with stopAt := some 0 }
  s.put (pSafe 2) (SAFE_PORT.cause 11) 6

def w343 : State :=
  let s := State.reset
  s.put (pSafe 1) SAFE_MB_CMD.busy 0

def w344 : State :=
  let s := State.reset
  s.put (pSafe 1) SAFE_MB_CMD.busy 1

def w345 : State :=
  let s := State.reset
  let s : State := { s with isl := { s.isl with mb := some (1, 0) } }
  s.put (pSafe 0) SAFE_STAT.state 1

def w346 : State :=
  let s := State.reset
  let s : State := { s with isl := { s.isl with mb := some (10, 0) } }
  s.put (pSafe 0) SAFE_STAT.state 4

def w347 : State :=
  let s := State.reset
  { s with isl := { s.isl with mb := none } }

def w348 : State :=
  let s := State.reset
  let s : State := { s with isl := { s.isl with mb := some (1, 15) } }
  let s : State := { s with isl := { s.isl with mbTaken := true } }
  s.put (pSafe 0) SAFE_STAT.state 4

def w349 : State :=
  let s := State.reset
  let s : State := { s with isl := { s.isl with mb := some (1, 11) } }
  let s : State := { s with isl := { s.isl with mbTaken := true } }
  let s : State := s.put (pSafe 0) SAFE_STAT.state 4
  s.put (pSafe 2) (SAFE_PORT.pstate 11) 2

def w350 : State :=
  let s := State.reset
  let s : State := { s with isl := { s.isl with mb := some (1, 11) } }
  let s : State := { s with isl := { s.isl with mbTaken := true } }
  let s : State := s.put (pSafe 0) SAFE_STAT.state 4
  let s : State := s.put (pSafe 2) (SAFE_PORT.pstate 11) 3
  s.put (pSafe 2) (SAFE_PORT.ackreq 11) 1

def w351 : State :=
  let s := State.reset
  let s : State := { s with isl := { s.isl with mb := some (1, 11) } }
  let s : State := { s with isl := { s.isl with mbTaken := true } }
  let s : State := s.put (pSafe 0) SAFE_STAT.state 4
  let s : State := s.put (pSafe 2) (SAFE_PORT.pstate 11) 0
  let s : State := s.put (pSafe 2) (SAFE_PORT.ackreq 11) 0
  { s with isl := { s.isl with brakeBad := [1] } }

def w352 : State :=
  let s := State.reset
  let s : State := { s with isl := { s.isl with mb := some (1, 11) } }
  let s : State := { s with isl := { s.isl with mbTaken := true } }
  let s : State := s.put (pSafe 0) SAFE_STAT.state 4
  let s : State := s.put (pSafe 2) (SAFE_PORT.pstate 11) 0
  let s : State := s.put (pSafe 2) (SAFE_PORT.ackreq 11) 0
  { s with isl := { s.isl with img := { chans := [(95, { sls := true })] } } }

def w353 : State :=
  let s := State.reset
  let s : State := { s with isl := { s.isl with mb := some (1, 11) } }
  let s : State := { s with isl := { s.isl with mbTaken := true } }
  let s : State := s.put (pSafe 0) SAFE_STAT.state 4
  let s : State := s.put (pSafe 2) (SAFE_PORT.pstate 11) 0
  let s : State := s.put (pSafe 2) (SAFE_PORT.ackreq 11) 0
  let s : State := { s with isl := { s.isl with img := { chans := [(95, { brake := true })] } } }
  { s with now := 10 ^ 15 }

def w354 : State :=
  let s := State.reset
  let s : State := { s with isl := { s.isl with mb := some (1, 11) } }
  let s : State := { s with isl := { s.isl with mbTaken := true } }
  let s : State := s.put (pSafe 0) SAFE_STAT.state 4
  let s : State := s.put (pSafe 2) (SAFE_PORT.pstate 11) 0
  s.put (pSafe 2) (SAFE_PORT.ackreq 11) 0

def w355 : State :=
  let s := State.reset
  let s : State := { s with isl := { s.isl with mb := some (2, 11 + 16 * b2n false) } }
  let s : State := { s with isl := { s.isl with cycAt := s.now }, now := s.now + 260 * edgesUs }
  s.put (pSafe 0) SAFE_STAT.state 4

def w356 : State :=
  let s := State.reset
  let s : State := { s with isl := { s.isl with mb := some (3, 95) } }
  let s : State := { s with isl := { s.isl with cycAt := s.now }, now := s.now + 260 * edgesUs }
  let s : State := s.put (pSafe 0) SAFE_STAT.state 4
  let s : State := s.put (pSafe 3) (SAFE_CH.bstate 95) 0
  s.put (pSafe 2) (SAFE_PORT.pstate (95 / 8)) 2

def w357 : State :=
  let s := State.reset
  let s : State := { s with isl := { s.isl with mb := some (3, 95) } }
  let s : State := { s with isl := { s.isl with cycAt := s.now }, now := s.now + 260 * edgesUs }
  let s : State := s.put (pSafe 0) SAFE_STAT.state 4
  s.put (pSafe 3) (SAFE_CH.bstate 95) 1

def w358 : State :=
  let s := State.reset
  let s : State := { s with isl := { s.isl with mb := some (3, 95) } }
  let s : State := { s with isl := { s.isl with cycAt := s.now }, now := s.now + 260 * edgesUs }
  let s : State := s.put (pSafe 0) SAFE_STAT.state 4
  s.put (pSafe 3) (SAFE_CH.bstate 95) 5

def w359 : State :=
  let s := State.reset
  let s : State := { s with isl := { s.isl with mb := some (4, 95) } }
  let s : State := { s with isl := { s.isl with cycAt := s.now }, now := s.now + 260 * edgesUs }
  s.put (pSafe 0) SAFE_STAT.state 4

def w360 : State :=
  let s := State.reset
  let s : State := { s with isl := { s.isl with mb := some (5, 95) } }
  let s : State := { s with isl := { s.isl with cycAt := s.now }, now := s.now + 260 * edgesUs }
  let s : State := s.put (pSafe 0) SAFE_STAT.state 4
  s.put (pSafe 2) (SAFE_PORT.pstate (95 / 8)) 1

def w361 : State :=
  let s := State.reset
  let s : State := { s with isl := { s.isl with mb := some (5, 95) } }
  let s : State := { s with isl := { s.isl with cycAt := s.now }, now := s.now + 260 * edgesUs }
  let s : State := s.put (pSafe 0) SAFE_STAT.state 4
  let s : State := s.put (pSafe 2) (SAFE_PORT.pstate (95 / 8)) 2
  s.setIc 95 { s.ic 95 with env := some 511 }

def w362 : State :=
  let s := State.reset
  let s : State := { s with isl := { s.isl with mb := some (5, 95) } }
  let s : State := { s with isl := { s.isl with cycAt := s.now }, now := s.now + 260 * edgesUs }
  let s : State := s.put (pSafe 0) SAFE_STAT.state 4
  s.put (pSafe 2) (SAFE_PORT.pstate (95 / 8)) 2

def w363 : State :=
  let s := State.reset
  let s : State := { s with isl := { s.isl with mb := some (6, 95) } }
  let s : State := { s with isl := { s.isl with cycAt := s.now }, now := s.now + 260 * edgesUs }
  s.put (pSafe 0) SAFE_STAT.state 4

def w364 : State :=
  let s := State.reset
  let s : State := { s with isl := { s.isl with mb := some (6, 95) } }
  let s : State := { s with isl := { s.isl with cycAt := s.now }, now := s.now + 260 * edgesUs }
  let s : State := s.put (pSafe 0) SAFE_STAT.state 4
  let s : State := s.put (pSafe 3) (SAFE_CH.bstate 95) 0
  let s : State := s.put (pSafe 2) (SAFE_PORT.pstate (95 / 8)) 2
  s.setIc 95 { s.ic 95 with set := none }

def w365 : State :=
  let s := State.reset
  let s : State := { s with isl := { s.isl with mb := some (6, 95) } }
  let s : State := { s with isl := { s.isl with cycAt := s.now }, now := s.now + 260 * edgesUs }
  let s : State := s.put (pSafe 0) SAFE_STAT.state 4
  let s : State := s.put (pSafe 3) (SAFE_CH.bstate 95) 0
  let s : State := s.put (pSafe 2) (SAFE_PORT.pstate (95 / 8)) 2
  s.setIc 95 { s.ic 95 with set := some ({} : LatchSet) }

def w366 : State :=
  let s := State.reset
  let s : State := { s with isl := { s.isl with mb := some (7, 95) } }
  let s : State := { s with isl := { s.isl with cycAt := s.now }, now := s.now + 260 * edgesUs }
  let s : State := s.put (pSafe 0) SAFE_STAT.state 4
  s.put (pSafe 3) (SAFE_CH.hres 95) 0

def w367 : State :=
  let s := State.reset
  let s : State := { s with isl := { s.isl with mb := some (7, 95) } }
  let s : State := { s with isl := { s.isl with cycAt := s.now }, now := s.now + 260 * edgesUs }
  let s : State := s.put (pSafe 0) SAFE_STAT.state 4
  let s : State := s.put (pSafe 3) (SAFE_CH.hres 95) 3
  let s : State := { s with isl := { s.isl with img := { chans := [(95, { tminMs := 1000 })] } } }
  { s with now := 10 ^ 12 }

def w368 : State :=
  let s := State.reset
  let s : State := { s with isl := { s.isl with mb := some (8, 11) } }
  let s : State := { s with isl := { s.isl with cycAt := s.now }, now := s.now + 260 * edgesUs }
  s.put (pSafe 0) SAFE_STAT.state 4

def w369 : State :=
  let s := State.reset
  let s : State := { s with isl := { s.isl with mb := some (8, 11) } }
  let s : State := { s with isl := { s.isl with cycAt := s.now }, now := s.now + 260 * edgesUs }
  let s : State := s.put (pSafe 0) SAFE_STAT.state 4
  { s with isl := { s.isl with img := { ports := [(11, { softAck := true })] } } }

def w370 : State :=
  let s := State.reset
  s.put (pSafe 2) SAFE_SIF.f 0

def w371 : State :=
  let s := State.reset
  let s : State := s.put (pSafe 0) SAFE_STAT.state 1
  s.put (pSafe 2) (SAFE_PORT.ackreq 11) 1

def w372 : State :=
  let s := State.reset
  let s : State := { s with isl := { s.isl with mb := some (9, 11 + 16 * 3) } }
  let s : State := { s with isl := { s.isl with cycAt := s.now }, now := s.now + 260 * edgesUs }
  s.put (pSafe 0) SAFE_STAT.state 4

def w373 : State :=
  let s := State.reset
  let s : State := { s with isl := { s.isl with mb := some (1, 15) } }
  s.put (pSafe 0) SAFE_STAT.state 4

def w374 : State :=
  let s := State.reset
  { s with isl := { s.isl with mb := some (2, 0) } }

def w375 : State :=
  let s := State.reset
  let s : State := { s with isl := { s.isl with mb := some (1, 11) } }
  let s : State := { s with isl := { s.isl with mbTaken := true } }
  let s : State := s.put (pSafe 0) SAFE_STAT.state 4
  let s : State := s.put (pSafe 2) (SAFE_PORT.pstate 11) 0
  let s : State := s.put (pSafe 2) (SAFE_PORT.ackreq 11) 0
  s.setIp 11 { s.ip 11 with causeAt := some 0 }

def w376 : State :=
  let s := State.reset
  { s with isl := { s.isl with siAt := some 511 } }

def w377 : State :=
  let s := State.reset
  let s : State := { s with isl := { s.isl with img := { si := [(31, { tpGroup := some 7 })] } } }
  { s with isl := { s.isl with mask := [(7, 5)] } }

def w378 : State :=
  let s := State.reset
  { s with isl := { s.isl with img := { si := [(31, { filterUs := 1000 })] } } }

def w379 : State :=
  let s := State.reset
  let s : State := { s with isl := { s.isl with img := { si := [(31, { filterUs := 1000 })] } } }
  { s with isl := { s.isl with si := [(31, { level := true, run := 100 })] } }

def w380 : State :=
  let s := State.reset
  s.put (pSafe 0) SAFE_STAT.hwsafe 1

def w381 : State :=
  let s := State.reset
  s.put (pSafe 0) SAFE_STAT.state 4

def w382 : State :=
  let s := State.reset
  let s : State := { s with isl := { s.isl with img := { si := [(31, { tpGroup := some 0 })] } } }
  s.put (pSafe 0) SAFE_STAT.state 4

def w383 : State :=
  let s := State.reset
  let s : State := { s with isl := { s.isl with img := { si := [(30, { pair := some 31 })] } } }
  { s with isl := { s.isl with si := [(30, { differ := some 0 })] } }

def w384 : State :=
  let s := State.reset
  let s : State := { s with isl := { s.isl with img := { si := [(30, { pair := some 31 })] } } }
  let s : State := { s with isl := { s.isl with si := [(30, { differ := some 0 })] } }
  { s with now := 10 ^ 12 }

def w385 : State :=
  let s := State.reset
  let s : State := s.put (pSafe 0) SAFE_STAT.state 4
  { s with now := 625 * edgesUs }

def w386 : State :=
  let s := State.reset
  { s with isl := { s.isl with erstUsed := true } }

def w387 : State :=
  let s := State.reset
  { s with isl := { s.isl with erstUsed := false } }

def w388 : State :=
  let s := State.reset
  { s with isl := { s.isl with img := { rx := [(31, {})] } } }

def w389 : State :=
  let s := State.reset
  s.put (pSafe 0) SAFE_CONN0.ok (2 ^ 31)

def w390 : State :=
  let s := State.reset
  let s : State := { s with isl := { s.isl with img := { rx := [(31, {})] } } }
  s.put (pSafe 0) SAFE_CONN0.ok (2 ^ 31)

def w391 : State :=
  let s := State.reset
  { s with isl := { s.isl with img := { tx := [(31, {})] } } }

def w392 : State :=
  let s := State.reset
  s.put (pSafe 3) (SAFE_CH.bstate 95) 5

def w393 : State :=
  let s := State.reset
  s.put (pSafe 3) (SAFE_CH.bstate 95) 1

def w394 : State :=
  let s := State.reset
  let s : State := s.put (pSafe 3) (SAFE_CH.bstate 95) 1
  { s with now := 10 ^ 13 }

def w395 : State :=
  let s := State.reset
  let s : State := s.setIc 95 { s.ic 95 with sbc := some 511 }
  { s with now := 10 ^ 13 }

def w396 : State :=
  let s := State.reset
  let s : State := s.put (pSafe 3) (SAFE_CH.bstate 95) 2
  { s with now := 10 ^ 13 }

def w397 : State :=
  let s := State.reset
  let s : State := s.put (pSafe 3) (SAFE_CH.hres 95) 3
  let s : State := s.put (pSafe 3) (SAFE_CH.bstate 95) 1
  { s with now := 10 ^ 13 }

def w398 : State :=
  let s := State.reset
  let s : State := { s with isl := { s.isl with img := { chans := [(95, { brake := true })] } } }
  { s with now := 10 ^ 16 }

def w399 : State :=
  let s := State.reset
  s.put (pSafe 3) (SAFE_CH.bstate 95) 2

def w400 : State :=
  let s := State.reset
  s.put (pMem 0) MEM_SCRUB.en 0

def w401 : State :=
  let s := State.reset
  s.put (pMem (1 + dramCh (0 : Word).toNat)) MEM_DSCRUB.en 1

def w402 : State :=
  let s := State.reset
  let s : State := s.put (pMem 1) MEM_DSCRUB.per 1
  { s with time := { s.time with cnt := [(0, 2 ^ 40 * 10 ^ 15)] } }

def w403 : State :=
  let s := State.reset
  { s with dscrub := [(0, (7, true))] }

def w404 : State :=
  let s := State.reset
  let s : State := s.put (pMem (1 + dramCh (0x1FFFFFFA0 : Word).toNat)) MEM_DSCRUB.en 1
  s.setScrub 1 (2 ^ 27 - 1)

def w405 : State :=
  let s := State.reset
  s.put (pMem 0) MEM_SCRUB.en 1

def w406 : State :=
  let s := State.reset
  let s : State := s.put (pMem 0) MEM_SCRUB.en 1
  s.setScrub 0 0xF407F3FFF

def w407 : State :=
  let s := State.reset
  s.put (pMem 1) MEM_DTHR.nbank 2

def w408 : State :=
  let s := State.reset
  s.put (pMem 3) MEM_LOG.en 1

def w409 : State :=
  let s := State.reset
  s.put (pMem 3) MEM_LOG.en 0

def w410 : State :=
  let s := State.reset
  let s : State := { s with logq := ({ kind := 0, ws := [1, 2, 3, 4, 5, 6] } : LogRec) :: ([] : List LogRec) }
  { s with logScanned := true }

def w411 : State :=
  let s := State.reset
  { s with logScanned := true }

def w412 : State :=
  let s := State.reset
  { s with logScanned := false }

def w413 : State :=
  let s := State.reset
  let s : State := s.put (pMem 3) MEM_MW_ADDR.off 0
  s.put (pMem 3) MEM_MWP.we 0

def w414 : State :=
  let s := State.reset
  { s with mwq := [] }

def w415 : State :=
  let s := State.reset
  { s with mwq := ({} : MramWr) :: ([] : List MramWr) }

def w416 : State :=
  let s := State.reset
  { s with blocked := [pPorter0] }

def w417 : State :=
  let s := State.reset
  s.put pPorter1 (PORTER_SCTL.en 63) 0

def w418 : State :=
  let s := State.reset
  s.put pPorter1 (PORTER_SCTL.en 63) 1

def w419 : State :=
  let s := State.reset
  s.setPe 1 (some ({ slot := 0, addr := 0xF00000200, desc := some ([0x800000000, 0xF00000000, 0xF00000100, 2, 0, 0, 0, 0] : List Word) } : PorterEng))

def w420 : State :=
  let s := State.reset
  s.setPe 1 (none)

def w421 : State :=
  let s := State.reset
  { s with porter := { s.porter with queue := [] } }

def w422 : State :=
  let s := State.reset
  { s with porter := { s.porter with queue := [0] } }

def w423 : State :=
  let s := State.reset
  let s : State := s.setPe 3 (none)
  let s : State := s.put pPorter0 PAGE_CTL.en 1
  { s with porter := { s.porter with queue := [0] } }

def w424 : State :=
  let s := State.reset
  let s : State := s.setPe 3 (some ({ slot := 0, addr := 0xF00000200, desc := some ([0xa00000000, 0xF00000000, 0xF00000100, 2, 0, 0, 0, 0] : List Word) } : PorterEng))
  let s : State := s.put pPorter0 PAGE_CTL.en 1
  { s with mwq := [{ src := 4 }] }

def w425 : State :=
  let s := State.reset
  let s : State := s.setPe 1 (some ({ slot := 0, addr := 0xF00000200, desc := some ([0xa00000000, 0xF00000000, 0xF00000100, 2, 0, 0, 0, 0] : List Word) } : PorterEng))
  s.put pPorter0 PAGE_CTL.en 1

def w426 : State :=
  let s := State.reset
  let s : State := s.setPe 1 (some ({ slot := 0, addr := 0xF00000200, desc := some ([0x900000000, 0xF00000000, 0xF00000100, 2, 0, 0, 0, 0] : List Word) } : PorterEng))
  s.put pPorter0 PAGE_CTL.en 1

def w427 : State :=
  let s := State.reset
  let s : State := s.setPe 1 (some ({ slot := 0, addr := 0xF00000200, desc := some ([0x900000000, 0xF00000000, 0xF80100011, 2, 0, 0, 0, 0] : List Word) } : PorterEng))
  { s with blocked := [0xF80100000], srstBusy := [0xF80100000] }

def w428 : State :=
  let s := State.reset
  let s : State := s.setPe 1 (some ({ slot := 0, addr := 0xF00000200, desc := some ([0x800000000, 0xF00000000, 0xF00000100, 2, 0, 0, 0, 0] : List Word) } : PorterEng))
  s.put pPorter0 PAGE_CTL.en 1

def w429 : State :=
  let s := State.reset
  let s : State := { s with porter := { s.porter with queue := [] } }
  let s : State := s.setPe 0 (some ({ desc := some [5, 1] } : PorterEng))
  let s : State := s.setPe 1 (none)
  let s : State := s.setPe 2 (none)
  s.setPe 3 (none)

def w430 : State :=
  let s := State.reset
  let s : State := s.put pClk CLK_PLL.en (2 ^ 3)
  s.put pClk CLK_SRC.xom_rdy 1

def w431 : State :=
  let s := State.reset
  s.put pClk CLK_SRC.irc_en 0

def w432 : State :=
  let s := State.reset
  s.put pClk CLK_SRC.irc_en 1

def w433 : State :=
  let s := State.reset
  let s : State := s.put pClk CLK_SRC.disc 1
  let s : State := s.put pClk CLK_SRC.ext_ok 1
  let s : State := { s with clk := { s.clk with follow := some 0 } }
  { s with now := 10 ^ 11 }

def w434 : State :=
  let s := State.reset
  let s : State := s.put pClk CLK_DOM_FIX.prun 0
  let s : State := s.put pClk CLK_DOM_FIX.pdead 0
  s.put pClk CLK_PLL.lock (2 ^ 2)

def w435 : State :=
  let s := State.reset
  let s : State := s.put pClk CLK_DOM_FIX.mrun 0
  let s : State := s.put pClk CLK_DOM_FIX.mdead 0
  s.put pClk CLK_PLL.lock (2 ^ 3)

def w436 : State :=
  let s := State.reset
  (s.put pClk CLK_PLL.lock 3).put pClk CLK_SRC.irc_rdy 1

def w437 : State :=
  let s := State.reset
  { s with clk := { s.clk with sw := [(b2n false, some 3)] } }

def w438 : State :=
  let s := State.reset
  let s : State := s.put pClk CLK_DOM_CORE.thr 0
  let s : State := s.put pSys1 SYS_ENVST.thrc 1
  s.put pClk CLK_DOM_CORE.cur 1

def w439 : State :=
  let s := State.reset
  let s : State := s.put pClk CLK_DOM_CORE.thr 0
  s.put pSys1 SYS_ENVST.thrc 1

def w440 : State :=
  let s := State.reset
  let s : State := s.put pClk CLK_DOM_CORE.thr 1
  let s : State := (s.put pClk CLK_DOM_CORE.src 0).put pClk CLK_SRC.irc_rdy 1
  s.put pClk CLK_DOM_CORE.cur 2

def w441 : State :=
  let s := State.reset
  let s : State := s.put pClk CLK_SRC.irc_rdy 1
  s.put pClk CLK_DOM_CORE.cur 1

def w442 : State :=
  let s := State.reset
  let s : State := s.put pClk CLK_SRC.irc_rdy 0
  s.put pClk CLK_DOM_CORE.cur 1

def w443 : State :=
  let s := State.reset
  let s : State := { s with clk := { s.clk with dead := [] } }
  s.put pClk CLK_DOM_FIX.pdead 0

def w444 : State :=
  let s := State.reset
  let s : State := { s with clk := { s.clk with dead := [] } }
  let s : State := { s with clk := { s.clk with held := [] } }
  s.put pClk CLK_SRC.irc_rdy 1

def w445 : State :=
  let s := State.reset
  s.put pSys SYS_BOOT.state 1

def w446 : State :=
  let s := State.reset
  { s with clk := { s.clk with hot := true } }

def w447 : State :=
  let s := State.reset
  { s with clk := { s.clk with hot := false } }

def w448 : State :=
  let s := State.reset
  { s with clk := { s.clk with recov := true } }

def w449 : State :=
  let s := State.reset
  { s with clk := { s.clk with recov := false } }

def w450 : State :=
  let s := State.reset
  let s : State := s.put pSys SYS_BOOT.state 0
  { s with olSealed := false }

def w451 : State :=
  let s := State.reset
  s.put pSys SYS_BOOT.state 0

def w452 : State :=
  let s := State.reset
  s.put pSys1 (logicFld false) 0

def w453 : State :=
  let s := State.reset
  s.put pSys1 (logicFld false) 1

def w454 : State :=
  let s := State.reset
  { s with isl := { s.isl with brakeBad := [b2n false] } }

def w455 : State :=
  let s := State.reset
  s.put pSys1 (fanFld 1) 0

def w456 : State :=
  let s := State.reset
  s.put pSys1 (fanFld 1) 1

def w457 : State :=
  let s := State.reset
  s.put pSys1 SYS_ENVST.thrc 1

def w458 : State :=
  let s := State.reset
  s.put pSys1 SYS_ENVST.warn 0

def w459 : State :=
  let s := State.reset
  s.put pSys1 SYS_ENVST.warn 1

def w460 : State :=
  let s := State.reset
  let s : State := { s with pending := [] }
  { s with held := [] }

def w461 : State :=
  let s := State.reset
  let s : State := { s with pending := [] }
  let s : State := { s with held := [] }
  s.put pClk CLK_DOM_FIX.prun 0

def w462 : State :=
  let s := State.reset
  let s : State := s.put (pRing 0) RING_P_STAT.up 1
  let s : State := s.put pRing0 RING_STAT.state 1
  let s : State := { s with ring := { s.ring with txHold := [] } }
  let s : State := s.put pClk CLK_DOM_FIX.pdead 0
  let s : State := s.put (pTsu 0) TIME_TSU_CFG.en 0
  let s : State := ((s.setReg (pRing0 + 0x25) 0xA00000001).setReg (pRing0 + 0x24) 0xF00000000).setReg (pRing0 + 0x27) 1
  let s : State := (s.setMem 0xF00000000 0x800000002).setMem 0xF00000003 0x20000
  let s : State := (((s.put (pSched 4095) (SCHED_W0.valid 0) 1).put (pSched 4095) (SCHED_W0.kind 0) 3).put (pSched 4095) (SCHED_W1.len 0) 4095)
  let s : State := s.put (pSched 4095) (SCHED_W1.out 0) 1
  let s : State := s.put (pRing 0) RING_P_CRED.cred 2
  let s : State := s.put pRing0 RING_CYC.k 32
  let s : State := s.put pRing0 RING_STAT.state 4
  s.put (pNames + 64) (NAME_HI.present 0) 1

def w463 : State :=
  let s := State.reset
  let s : State := s.put (pRing 0) RING_P_STAT.up 1
  let s : State := s.put pRing0 RING_STAT.state 1
  let s : State := s.put (pRing 0) RING_P_STAT.wrap 0
  let s : State := { s with ring := { s.ring with txHold := [] } }
  let s : State := s.put pClk CLK_DOM_FIX.pdead 0
  let s : State := s.put (pTsu 0) TIME_TSU_CFG.en 0
  let s : State := ((s.setReg (pRing0 + 0x25) 0xA00000001).setReg (pRing0 + 0x24) 0xF00000000).setReg (pRing0 + 0x27) 1
  let s : State := (s.setMem 0xF00000000 0x800000002).setMem 0xF00000003 0x800000
  let s : State := (((s.put (pSched 4095) (SCHED_W0.valid 0) 1).put (pSched 4095) (SCHED_W0.kind 0) 3).put (pSched 4095) (SCHED_W1.len 0) 4095)
  let s : State := s.put (pSched 4095) (SCHED_W1.out 0) 1
  let s : State := s.put (pRing 0) RING_P_CRED.cred 2
  let s : State := s.put pRing0 RING_CYC.k 32
  s.put pRing0 RING_STAT.state 4

def w464 : State :=
  let s := State.reset
  let s : State := s.put (pRing (s.viaPort 9)) RING_P_STAT.up 1
  let s : State := s.put pRing0 RING_STAT.state 1
  let s : State := ((s.setReg (pRing0 + 0x25) 0xA00000001).setReg (pRing0 + 0x24) 0xF00000000).setReg (pRing0 + 0x27) 1
  (s.setMem 0xF00000000 0x800000002).setMem 0xF00000003 0x5000

def w465 : State :=
  let s := State.reset
  let s : State := s.put (pRing (s.viaPort 9)) RING_P_STAT.up 1
  let s : State := s.put pRing0 RING_STAT.state 1
  let s : State := ((s.setReg (pRing0 + 0x25) 0xA00000001).setReg (pRing0 + 0x24) 0xF00000000).setReg (pRing0 + 0x27) 1
  (s.setMem 0xF00000000 0x800000002).setMem 0xF00000003 0x800000

def w466 : State :=
  let s := State.reset
  let s : State := { s with ring := { s.ring with wait := [(9, ({ payload := [1, 2] } : RingFrame), ({} : StampRec))] } }
  ((s.setReg (pRing0 + 0x21) 0xA00000001).setReg (pRing0 + 0x20) 0xF00000000).setReg (pRing0 + 0x23) 1

def w467 : State :=
  let s := State.reset
  let s : State := { s with ring := { s.ring with wait := [(9, ({ payload := List.replicate 100 0 } : RingFrame), ({} : StampRec))] } }
  ((s.setReg (pRing0 + 0x21) 0xA00000001).setReg (pRing0 + 0x20) 0xF00000000).setReg (pRing0 + 0x23) 1

def w468 : State :=
  let s := State.reset
  let s : State := { s with ring := { s.ring with wait := [] } }
  s.setReg (qAddr 7 + 1) 0xA00000001

def w469 : State :=
  let s := State.reset
  let s : State := s.put (pEth 1) ETH_LINK.up 1
  let s : State := s.put (pEth 1) PAGE_CTL.en 1
  (s.put (pEth 1) ETH_PFC.en 1).put (pEth 1) ETH_LINK.speed 4

def w470 : State :=
  let s := State.reset
  let s : State := s.put (pEth 1) ETH_PFC.en 1
  s.put (pEth 1) ETH_LINK.speed 4

def w471 : State :=
  let s := State.reset
  let s : State := s.put (pEth 1) ETH_LINK.up 1
  let s : State := s.put (pEth 1) PAGE_CTL.en 1
  let s : State := s.setEt 1 { s.et 1 with rx := [] }
  let s : State := s.setEt 1 { s.et 1 with xoff := [] }
  ((s.setReg (pEth 1 + 0x20) 0xF00000000).setReg (pEth 1 + 0x21) 0xA00000020).setReg (pEth 1 + 0x23) 1

def w472 : State :=
  let s := State.reset
  let s : State := s.put (pEth 1) ETH_LINK.up 1
  let s : State := s.put (pEth 1) PAGE_CTL.en 1
  let s : State := s.setEt 1 { s.et 1 with rx := [] }
  s.setEt 1 { s.et 1 with xoff := [] }

def w473 : State :=
  let s := State.reset
  let s : State := s.put (pEth 1) ETH_LINK.up 1
  let s : State := s.put (pEth 1) PAGE_CTL.en 1
  let s : State := ((s.setReg (txqAddr 1 7) 0xF00000000).setReg (txqAddr 1 7 + 1) 0xA00000020).setReg (txqAddr 1 7 + 3) 1
  s.setMem 0xF00000000 0x800001000

def w474 : State :=
  let s := State.reset
  let s : State := s.put (pEth 1) ETH_LINK.up 1
  let s : State := s.put (pEth 1) PAGE_CTL.en 1
  let s : State := s.put (pTsu (10 + 1)) TIME_TSU_CFG.en 0
  let s : State := ((s.setReg (txqAddr 1 7) 0xF00000000).setReg (txqAddr 1 7 + 1) 0xA00000020).setReg (txqAddr 1 7 + 3) 1
  let s : State := s.setMem 0xF00000000 0x800000040
  ((s.put (pEth 1) ETH_CAP.rate 100).put (pEth 1) ETH_CAP.burst 2000)

def w475 : State :=
  let s := State.reset
  s.put (pEth 1) ETH_CFG.spd 0

def w476 : State :=
  let s := State.reset
  { s with blocked := [pEth0] }

def w477 : State :=
  let s := State.reset
  s.setEt 1 { s.et 1 with paused := [(2, some 5)] }

/-- What the clauses of AluResults assume can be met. -/
theorem wit_AluResults :
    (CoreReady 63 (.add 63 15 14 13) [15, 14, 13] readyCore readyCore ∧ CoreReady 63 (.abss 63 15 14) [15, 14, 0] readyCore readyCore ∧
      CoreReady 63 (.slt 63 0 15 14) [0, 15, 14] readyCore readyCore ∧ CoreReady 63 (.clz 63 15 14) [15, 14] readyCore readyCore) := by
  unfold CoreReady; decide +kernel

/-- What the clauses of ShiftAndImmediateResults assume can be met. -/
theorem wit_ShiftAndImmediateResults :
    (CoreReady 63 (.sll 63 15 14 13) [15, 14, 13] readyCore readyCore ∧ CoreReady 63 (.slli 63 15 14 35) [15, 14] readyCore readyCore ∧
      CoreReady 63 (.ext 63 15 14 4 32) [15, 14] readyCore readyCore ∧ CoreReady 63 (.addi 63 15 14 0x3FFFFF) [15, 14] readyCore readyCore ∧
      CoreReady 63 (.li 63 15 true 0x3FFFF) [15] readyCore readyCore) := by
  unfold CoreReady; decide +kernel

/-- What the clauses of MulDivResults assume can be met. -/
theorem wit_MulDivResults :
    (CoreReady 63 (.mul 63 15 14 13) [15, 14, 13] readyCore readyCore ∧ CoreReady 63 (.mulf 63 15 14 13 2 63) [15, 14, 13] readyCore readyCore ∧
      CoreReady 63 (.div 63 15 14 13) [15, 14, 13] readyCore readyCore) := by
  unfold CoreReady; decide +kernel

/-- What the clauses of FloatingPointResults assume can be met. -/
theorem wit_FloatingPointResults :
    (CoreReady 63 (.fadd 63 15 14 13 0) [15, 14, 13] readyCore readyCore ∧
      CoreReady 63 (.dadd 63 14 12 10 0) [14, 15, 12, 13, 10, 11] readyCore readyCore ∧
      CoreReady 63 (.fcvtfi 63 15 14 0) [15, 14] readyCore readyCore ∧ CoreReady 63 (.fcvtdf 63 14 13 0) [14, 15, 13] readyCore readyCore) := by
  unfold CoreReady; decide +kernel

/-- What the clauses of MacResults assume can be met. -/
theorem wit_MacResults :
    (CoreReady 63 (.mac 63 3 15 14 true true 3) [15, 14] readyCore readyCore ∧
      CoreReady 63 (.macv 63 15 12 false true 0) [15, 12, 13, 14, 15] readyCore readyCore ∧
      CoreReady 63 (.cmac 63 2 14 12 false false 0) [14, 15, 12, 13] readyCore readyCore ∧
      CoreReady 63 (.dot4 63 3 12 8 true false 3) [12, 13, 14, 15, 8, 9, 10, 11] readyCore readyCore) := by
  unfold CoreReady; decide +kernel

/-- What the clauses of AccumulatorWindowAndSpecialMoves assume can be met. -/
theorem wit_AccumulatorWindowAndSpecialMoves :
    (CoreReady 63 (.setah 63 1 3) [3] w0 w0) ∧
    (CoreReady 63 (.setal 63 1 3) [3] w0 w0) ∧
    (CoreReady 63 (.setax 63 1 3) [3] w0 w0) ∧
    (CoreReady 63 (.setw 63 1 3) [3] w0 w0) ∧
    (CoreReady 63 (.clra 63 1) [] w0 w0) ∧
    (CoreReady 63 (.mfs 63 2 1) [2] w0 w0 ∧ ((1 < 0x20 ∨ w0.inNmi 63 = true))) ∧
    (CoreReady 63 (.mts 63 1 3) [3] w0 w0 ∧ ((1 < 0x20 ∨ w0.inNmi 63 = true))) ∧
    (CoreReady 63 (.mfs 63 2 32) [2] w0 w0 ∧ (¬(32 < 0x20 ∨ w0.inNmi 63 = true))) ∧
    (CoreReady 63 (.mts 63 33 3) [3] w0 w0 ∧ (¬(33 < 0x20 ∨ w0.inNmi 63 = true))) := by
  refine ⟨?_, ?_, ?_, ?_, ?_, ?_, ?_, ?_, ?_⟩
  · unfold CoreReady; decide +kernel
  · unfold CoreReady; decide +kernel
  · unfold CoreReady; decide +kernel
  · unfold CoreReady; decide +kernel
  · unfold CoreReady; decide +kernel
  · unfold CoreReady; decide +kernel
  · unfold CoreReady; decide +kernel
  · unfold CoreReady; decide +kernel
  · unfold CoreReady; decide +kernel

/-- What the clauses of LoadResults assume can be met. -/
theorem wit_LoadResults :
    (CoreReady 63 (.ld 63 2 3 (5 : BitVec 22)) [2, 3] w1 w1 ∧ w1.loadRoom 63 [w1.eaBase 63 3 (5 : BitVec 22)] = false) ∧
    (w2.core = [(63, ({ stalled := true } : CoreSt))] ∧ ({ stalled := true } : CoreSt).stalled = true ∧ 63 < 64) ∧
    (w3.clen 63 3 ≠ 0) := by
  refine ⟨?_, ?_, ?_⟩
  · unfold CoreReady; decide +kernel
  · decide +kernel
  · decide +kernel

/-- What the clauses of StoreResults assume can be met. -/
theorem wit_StoreResults :
    (CoreReady 63 (.st 63 2 3 (5 : BitVec 22)) [2, 3] w4 w4 ∧ w4.storeRoom 63 [w4.eaBase 63 3 (5 : BitVec 22)] = false) := by
  unfold CoreReady; decide +kernel

/-- What the clauses of AtomicsAndOutstandingAccesses assume can be met. -/
theorem wit_AtomicsAndOutstandingAccesses :
    (w5.outAt 63 0 = some ({ kind := .load, addr := 0xF00000010, dst := 15 } : OutAcc) ∧
      ({ kind := .load, addr := 0xF00000010, dst := 15 } : OutAcc).kind = .load ∧
      ({ kind := .load, addr := 0xF00000010, dst := 15 } : OutAcc).dst < 16 ∧
      ({ kind := .load, addr := 0xF00000010, dst := 15 } : OutAcc).after = [] ∧
      w5.canComplete 63 0 ({ kind := .load, addr := 0xF00000010, dst := 15 } : OutAcc) = true ∧ (w5.co 63).hold = .none ∧
      (w5.co 63).drain = .none ∧ AccessEnd.good (AccessEnd.ok) = true ∧
      (w5.checkedRead 63 ({ kind := .load, addr := 0xF00000010, dst := 15 } : OutAcc).addr false (AccessEnd.ok)).2.core = w5.core ∧
      (w5.checkedRead 63 ({ kind := .load, addr := 0xF00000010, dst := 15 } : OutAcc).addr false (AccessEnd.ok)).2.crs = w5.crs ∧
      (w5.checkedRead 63 ({ kind := .load, addr := 0xF00000010, dst := 15 } : OutAcc).addr false (AccessEnd.ok)).1 = some (0 : Word)) ∧
    (((targetOf 0xF40000000 = .commons ∨ ∃ n, targetOf 0xF40000000 = .localData n ∨ targetOf 0xF40000000 = .localInst n))) ∧
    (w6.outAt 63 0 = some ({ kind := .faa, addr := 0xF00000010, dst := 2, val := 5 } : OutAcc) ∧
      ({ kind := .faa, addr := 0xF00000010, dst := 2, val := 5 } : OutAcc).kind ≠ .load ∧
      ({ kind := .faa, addr := 0xF00000010, dst := 2, val := 5 } : OutAcc).kind ≠ .store ∧
      w6.canComplete 63 0 ({ kind := .faa, addr := 0xF00000010, dst := 2, val := 5 } : OutAcc) = true) ∧
    (w7.outAt 63 0 = some ({ kind := .store, addr := 0xFC0010000, val := 7 } : OutAcc) ∧
      ({ kind := .store, addr := 0xFC0010000, val := 7 } : OutAcc).kind = .store ∧
      isOwn 63 ({ kind := .store, addr := 0xFC0010000, val := 7 } : OutAcc).addr = true ∧
      ({ kind := .store, addr := 0xFC0010000, val := 7 } : OutAcc).after = [] ∧
      w7.canComplete 63 0 ({ kind := .store, addr := 0xFC0010000, val := 7 } : OutAcc) = true ∧ (w7.co 63).hold = .none ∧ (w7.co 63).drain = .none) ∧
    (w8.outAt 63 0 = some ({ kind := .store, addr := 0xE00000000, val := 7 } : OutAcc) ∧
      ({ kind := .store, addr := 0xE00000000, val := 7 } : OutAcc).kind = .store ∧
      targetOf ({ kind := .store, addr := 0xE00000000, val := 7 } : OutAcc).addr = .mram ∧
      w8.canComplete 63 0 ({ kind := .store, addr := 0xE00000000, val := 7 } : OutAcc) = true) ∧
    (63 < 64 ∧ w9.outAt 63 0 = some ({ kind := .load, addr := 0xF00000010, dst := 15 } : OutAcc) ∧
      isOwn 63 ({ kind := .load, addr := 0xF00000010, dst := 15 } : OutAcc).addr = false) ∧
    (({ kind := .load, addr := 0xF00000010, dst := 15 } : OutAcc).kind = .load ∧ (w10.co 63).hold = .none) ∧
    (((targetOf (0xF40000000 : Word).toNat = .localData 0 ∨ targetOf (0xF40000000 : Word).toNat = .localInst 0)) ∧ 1 ≠ 0) := by
  refine ⟨?_, ?_, ?_, ?_, ?_, ?_, ?_, ?_⟩
  · decide +kernel
  · exact Or.inr ⟨0, Or.inl (by decide +kernel)⟩
  · decide +kernel
  · decide +kernel
  · decide +kernel
  · decide +kernel
  · decide +kernel
  · decide +kernel

/-- What the clauses of FilterTaps assume can be met. -/
theorem wit_FilterTaps :
    (CoreReady 63 (.ftap 63 3 false true 3 2 false false 0 false) [] w11 w11 ∧ isOwnData 63 (w11.ptr 63 3) = true ∧
      ((true = true → isOwnData 63 (w11.fold 63 3 false (w11.ptr 63 3) (if false then 1 else -1)) = true)) ∧
      w11.ownBusy 63 (ownInst 63 (w11.ptr 63 2)) = false) ∧
    (CoreReady 63 (.ftap 63 0 true false 3 2 false false 0 false) [] w12 w12 ∧ isOwnData 63 (w12.ptr 63 3) = true ∧
      ((false = true → isOwnData 63 (w12.fold 63 3 false (w12.ptr 63 3) (if false then 1 else -1)) = true)) ∧
      w12.ownBusy 63 (ownInst 63 (w12.ptr 63 2)) = true) ∧
    (((63 ≠ 0 ∨ 1 % 2 ^ 14 < 0x3000 ∨ (State.reset).get pSys SYS_BOOT.state = 3))) ∧
    (CoreReady 63 (.ftap 63 0 true false 3 2 false false 0 false) [] w0 w0 ∧ isOwnData 63 (w0.ptr 63 3) = false) ∧
    (CoreReady 63 (.wld 63 3 0 0 false (5 : BitVec 16)) [] w11 w11 ∧ isOwnData 63 (w11.eaPtr 63 3 0 0 false (5 : BitVec 16)) = true) ∧
    (CoreReady 63 (.wld 63 3 0 0 false (5 : BitVec 16)) [] w0 w0 ∧ isOwnData 63 (w0.eaPtr 63 3 0 0 false (5 : BitVec 16)) = false) := by
  refine ⟨?_, ?_, ?_, ?_, ?_, ?_⟩
  · unfold CoreReady; decide +kernel
  · unfold CoreReady; decide +kernel
  · decide +kernel
  · unfold CoreReady; decide +kernel
  · unfold CoreReady; decide +kernel
  · unfold CoreReady; decide +kernel

/-- What the clauses of BranchResults assume can be met. -/
theorem wit_BranchResults :
    (CoreReady 63 (.bcc 63 0 3 1 (9 : BitVec 14)) [3, 1] w0 w0) ∧
    (CoreReady 63 (.bcc 63 1 3 1 (9 : BitVec 14)) [3, 1] w0 w0) ∧
    (CoreReady 63 (.bcc 63 2 3 1 (9 : BitVec 14)) [3, 1] w0 w0) ∧
    (CoreReady 63 (.bcc 63 3 3 1 (9 : BitVec 14)) [3, 1] w0 w0) ∧
    (CoreReady 63 (.bcc 63 4 3 1 (9 : BitVec 14)) [3, 1] w0 w0) ∧
    (CoreReady 63 (.bcc 63 5 3 1 (9 : BitVec 14)) [3, 1] w0 w0) ∧
    (CoreReady 63 (.bcc 63 6 0 0 (9 : BitVec 14)) [0, 0] w0 w0) ∧
    (CoreReady 63 (.bcc 63 7 0 0 (9 : BitVec 14)) [0, 0] w0 w0) ∧
    (CoreReady 63 (.bcc 63 8 0 0 (9 : BitVec 14)) [0, 0] w0 w0) ∧
    (CoreReady 63 (.bcc 63 9 0 0 (9 : BitVec 14)) [0, 0] w0 w0) ∧
    (CoreReady 63 (.j 63 (9 : BitVec 14)) [] w0 w0) ∧
    (CoreReady 63 (.jal 63 2 (9 : BitVec 14)) [2] w0 w0) ∧
    (CoreReady 63 (.jr 63 2 3) [2, 3] w0 w0 ∧ 3 ≠ 2) ∧
    (CoreReady 63 (.jr 63 2 2) [2, 2] w0 w0) := by
  refine ⟨?_, ?_, ?_, ?_, ?_, ?_, ?_, ?_, ?_, ?_, ?_, ?_, ?_, ?_⟩
  · unfold CoreReady; decide +kernel
  · unfold CoreReady; decide +kernel
  · unfold CoreReady; decide +kernel
  · unfold CoreReady; decide +kernel
  · unfold CoreReady; decide +kernel
  · unfold CoreReady; decide +kernel
  · unfold CoreReady; decide +kernel
  · unfold CoreReady; decide +kernel
  · unfold CoreReady; decide +kernel
  · unfold CoreReady; decide +kernel
  · unfold CoreReady; decide +kernel
  · unfold CoreReady; decide +kernel
  · unfold CoreReady; decide +kernel
  · unfold CoreReady; decide +kernel

/-- What the clauses of LoopsAndSequencing assume can be met. -/
theorem wit_LoopsAndSequencing :
    (w13.inNmi 63 = true) ∧
    ((State.reset).inNmi 63 = false ∧ (State.reset).loopHere 63 1 = false ∧ (State.reset).loopHere 63 0 = false) ∧
    (w14.inNmi 63 = false ∧ w14.loopHere 63 1 = true ∧ 1 < (w14.cr 63 (rLC 1)).toNat) ∧
    (w15.inNmi 63 = false ∧ w15.loopHere 63 1 = false ∧ w15.loopHere 63 0 = true ∧ 1 < (w15.cr 63 (rLC 0)).toNat) ∧
    (w16.inNmi 63 = false ∧ w16.loopHere 63 1 = true ∧ (w16.cr 63 (rLC 1)).toNat ≤ 1 ∧ w16.loopHere 63 0 = false) ∧
    (w17.inNmi 63 = false ∧ w17.loopHere 63 1 = true ∧ (w17.cr 63 (rLC 1)).toNat ≤ 1 ∧ w17.loopHere 63 0 = true ∧ 1 < (w17.cr 63 (rLC 0)).toNat) ∧
    (w18.inNmi 63 = false ∧ w18.loopHere 63 1 = false ∧ w18.loopHere 63 0 = true ∧ (w18.cr 63 (rLC 0)).toNat ≤ 1) ∧
    (1 < 2 ∧ CoreReady 63 (.loop 63 1 false 0 1023 (9 : BitVec 14)) (if false then [0] else []) w0 w0 ∧ w0.inNmi 63 = false ∧
      w0.pc 63 + 1 ≤ (9 : BitVec 14).toNat) ∧
    (CoreReady 63 (.loop 63 0 false 3 1 (0 : BitVec 14)) (if false then [3] else []) w0 w0 ∧
      ((w0.inNmi 63 = true ∨ (0 : BitVec 14).toNat < w0.pc 63 + 1))) := by
  refine ⟨?_, ?_, ?_, ?_, ?_, ?_, ?_, ?_, ?_⟩
  · decide +kernel
  · decide +kernel
  · decide +kernel
  · decide +kernel
  · decide +kernel
  · decide +kernel
  · decide +kernel
  · unfold CoreReady; decide +kernel
  · unfold CoreReady; decide +kernel

/-- What the clauses of PostingFromCores assume can be met. -/
theorem wit_PostingFromCores :
    (CoreReady 63 (.post 63 2 3 (0 : BitVec 16)) [2, 3] w0 w0 ∧ w0.storesOut 63 = 0) ∧
    (CoreReady 63 (.posta 63 3 (0 : BitVec 16)) [3] w0 w0 ∧ w0.storesOut 63 = 0) ∧
    (CoreReady 63 (.post 63 2 3 (0 : BitVec 16)) [2, 3] w19 w19 ∧ w19.storesOut 63 ≠ 0) ∧
    (CoreReady 63 (.posta 63 3 (0 : BitVec 16)) [3] w19 w19 ∧ w19.storesOut 63 ≠ 0) ∧
    ((w20.co 63).outs = ([] : List OutAcc) ++ ({ kind := .store } : OutAcc) :: ([] : List OutAcc) ∧ ({ kind := .store } : OutAcc).kind = .store ∧
      ((∀ e ∈ ([] : List OutAcc), e.kind ≠ .store))) ∧
    ((w21.co 63).outs[0]? = some ({ kind := .store, after := [1] } : OutAcc) ∧ ({ kind := .store, after := [1] } : OutAcc).kind = .store ∧
      ({ kind := .store, after := [1] } : OutAcc).after = [1] ∧ ((∀ e ∈ (w21.co 63).outs.take 0, e.kind ≠ .store))) ∧
    (({ cls := 2 } : Post).cls = 2) ∧
    (15 < 16 ∧ (w22.co 63).hold = .post 15 ∧ (w22.co 63).postRes = some 68719476735 ∧ (w22.co 63).drain = .none ∧ 68719476735 < 2 ^ 36) := by
  refine ⟨?_, ?_, ?_, ?_, ?_, ?_, ?_, ?_⟩
  · unfold CoreReady; decide +kernel
  · unfold CoreReady; decide +kernel
  · unfold CoreReady; decide +kernel
  · unfold CoreReady; decide +kernel
  · decide +kernel
  · decide +kernel
  · decide +kernel
  · decide +kernel

/-- What the clauses of ActivationEndsAndHeldIssue assume can be met. -/
theorem wit_ActivationEndsAndHeldIssue :
    (CoreReady 63 (.doneTask 63) [] w23 w23 ∧ w23.drained 63 = true ∧ (w23.co 63).task = some 511 ∧ (w23.co 63).orphan = false) ∧
    (CoreReady 63 (.doneTask 63) [] w24 w24 ∧ w24.drained 63 = false) ∧
    (CoreReady 63 (.doneTask 63) [] w25 w25 ∧ w25.drained 63 = true ∧ (w25.co 63).task = some 511 ∧ (w25.co 63).orphan = true) ∧
    (CoreReady 63 (.yieldTask 63) [] w26 w26 ∧ (w26.co 63).preempt = none ∧ w26.yieldTo 63 = none) ∧
    (CoreReady 63 (.yieldTask 63) [] w27 w27 ∧ w27.drained 63 = true ∧ (w27.co 63).task = some 5 ∧ (w27.co 63).orphan = false ∧
      (w27.co 63).preempt = none ∧ w27.yieldTo 63 = some 9) ∧
    (CoreReady 63 (.waitc 63 3 (5 : BitVec 16)) [3] w0 w0) ∧
    ((w28.co 63).hold = .waitc 1) ∧
    (CoreReady 63 (.fence 63 false) [] w0 w0) ∧
    (CoreReady 63 (.fence 63 true) [] w0 w0) ∧
    (CoreReady 63 (.isync 63) [] w0 w0) := by
  refine ⟨?_, ?_, ?_, ?_, ?_, ?_, ?_, ?_, ?_, ?_⟩
  · unfold CoreReady; decide +kernel
  · unfold CoreReady; decide +kernel
  · unfold CoreReady; decide +kernel
  · unfold CoreReady; decide +kernel
  · unfold CoreReady; decide +kernel
  · unfold CoreReady; decide +kernel
  · decide +kernel
  · unfold CoreReady; decide +kernel
  · unfold CoreReady; decide +kernel
  · unfold CoreReady; decide +kernel

/-- What the clauses of ExceptionsAndNonMaskableEvents assume can be met. -/
theorem wit_ExceptionsAndNonMaskableEvents :
    (CoreReady 63 (.brk 63) [] w0 w0) ∧
    (63 < 64 ∧ 1 ≤ 4 ∧ 4 ≤ 7 ∧ (((w29.co 63).task.isSome = true ∨ w29.inNmi 63 = true)) ∧ (w29.co 63).drain = .none ∧ (w29.co 63).halted = false) ∧
    (fieldsFit (synlenFields (.mfs 63 1 7)) = true ∧ readyCore.canIssue 63 = true ∧ synlenLegal (.mfs 63 1 7) = false) ∧
    (w30.get (pCore 63) CORE_EXC_ST.valid = 0 ∧ 15 < 16 ∧ 16383 < 2 ^ 14 ∧ 68719476735 < 2 ^ 36) ∧
    (w31.get (pCore 63) CORE_EXC_ST.valid ≠ 0) ∧
    (w13.inNmi 63 = true) ∧
    (w32.inNmi 63 = false ∧ ((w32.recordExc 63 2 1 7 false).co 63).task = some 5 ∧ ((w32.recordExc 63 2 1 7 false).co 63).outs ≠ []) ∧
    ((w33.co 63).task = some 511 ∧ (w33.co 63).orphan = false) ∧
    ((w34.co 63).task = none) ∧
    ((State.reset).takes (pCore 63 + 0x14) ∧ 63 < 64) ∧
    (63 < 64 ∧ w35.get (pCore 63) CORE_NMI.pend = 1 ∧ w35.inNmi 63 = false ∧ (w35.co 63).halted = false ∧ w35.nmiReady 63 = true ∧
      w35.clockOff (pCore 63) = false ∧ w35.domStopped 0 = false) ∧
    ((((State.reset).get (pCore 63) CORE_NMI.pend = 0 ∨ (State.reset).inNmi 63 = true ∨ (State.reset).clockOff (pCore 63) = true ∨ (State.reset).domStopped 0 = true))) ∧
    (63 < 64 ∧ (State.reset).inNmi 63 = false) ∧
    (CoreReady 63 (.nret 63) [] w36 w36 ∧ w36.inNmi 63 = true ∧ w36.get (pCore 63) CORE_NMI.pend = 0) ∧
    (CoreReady 63 (.nret 63) [] w0 w0 ∧ w0.inNmi 63 = false) := by
  refine ⟨?_, ?_, ?_, ?_, ?_, ?_, ?_, ?_, ?_, ?_, ?_, ?_, ?_, ?_, ?_⟩
  · unfold CoreReady; decide +kernel
  · decide +kernel
  · decide +kernel
  · decide +kernel
  · decide +kernel
  · decide +kernel
  · decide +kernel
  · decide +kernel
  · decide +kernel
  · decide +kernel
  · decide +kernel
  · decide +kernel
  · decide +kernel
  · unfold CoreReady; decide +kernel
  · unfold CoreReady; decide +kernel

/-- What the clauses of RegisterWrites assume can be met. -/
theorem wit_RegisterWrites :
    (((targetOf (0xF007FFFFF : Word).toNat = .commons ∨ ∃ c, targetOf (0xF007FFFFF : Word).toNat = .localData c ∨ targetOf (0xF007FFFFF : Word).toNat = .localInst c))) ∧
    ((targetOf (0xE00000000 : Word).toNat = .mram ∨ targetOf (0xE00000000 : Word).toNat = .nothing)) ∧
    (63 < 64 ∧ ((∃ o, targetOf (0xFC0013FFF : Word).toNat = .alias_ o))) ∧
    (64 ≤ 72 ∧ ((∃ o, targetOf (0xFC0000000 : Word).toNat = .alias_ o))) ∧
    (targetOf (0xF80105F04 : Word).toNat = .page ∧ (0xF80105F04 : Word).toNat % 0x100 = 4 ∧
      ((∃ ch, blkOf (0xF80105F04 : Word).toNat = .pwm ch ∨ blkOf (0xF80105F04 : Word).toNat = .ale ch ∨ blkOf (0xF80105F04 : Word).toNat = .fbk ch ∨ blkOf (0xF80105F04 : Word).toNat = .prof ch ∨ blkOf (0xF80105F04 : Word).toNat = .core ch))) ∧
    (95 < 96 ∧ w37.mustWait (pPwm 95 + 0x24) = false ∧ w37.gated (pPwm 95 + 0x24) = false ∧ w37.slLocked = true ∧ 0 ≠ iniIsland ∧
      (7 : Word).toNat % 2 ^ 16 ≠ w37.get (pPwm 95) PWM_ENV_DT.dtmin) ∧
    (95 < 96 ∧ w38.mustWait (pPwm 95 + 0x24) = false ∧ w38.gated (pPwm 95 + 0x24) = false ∧ w38.slLocked = true ∧ 0 ≠ iniIsland ∧
      (0 : Word).toNat % 2 ^ 16 = w38.get (pPwm 95) PWM_ENV_DT.dtmin) ∧
    (95 < 96 ∧ w39.mustWait (pPwm 95 + 0x24) = false ∧ w39.gated (pPwm 95 + 0x24) = false ∧ w39.slLocked = false) ∧
    (w40.mustWait (0xF80050011 : Word).toNat = true) ∧
    (targetOf (0xF80200011 : Word).toNat = .page ∧ w41.gated (0xF80200011 : Word).toNat = true) ∧
    (0x10 ≤ 255 ∧ 255 < 0x100 ∧ (State.reset).mustWait (pSafe 2 + 255) = false) := by
  refine ⟨?_, ?_, ?_, ?_, ?_, ?_, ?_, ?_, ?_, ?_, ?_⟩
  · exact Or.inl (by decide +kernel)
  · decide +kernel
  · exact ⟨by decide, 0x13FFF, by decide +kernel⟩
  · exact ⟨by decide, 0, by decide +kernel⟩
  · exact ⟨by decide +kernel, by decide +kernel, 95, Or.inl (by decide +kernel)⟩
  · decide +kernel
  · decide +kernel
  · decide +kernel
  · decide +kernel
  · decide +kernel
  · decide +kernel

/-- What the clauses of BlockGatingResetsAndEnables assume can be met. -/
theorem wit_BlockGatingResetsAndEnables :
    (gateFirst (pageAddr 0x1000) = true ∧ w42.flag (pageAddr 0x1000) PAGE_CTL.gate_req = true) ∧
    (w43.flag pEth0 PAGE_CTL.gate_req = false) ∧
    (95 < 96 ∧ w44.flag (pPwm 95) PAGE_CTL.gate_req = false) ∧
    (((∀ ch, blkOf (pageAddr 0x500) ≠ .pwm ch)) ∧ w45.gating.contains (pageAddr 0x500) = true ∧ w45.crossIdle (pageAddr 0x500) = true) ∧
    ((State.reset).gating.contains (pageAddr 0x500) = false) ∧
    (16383 < 2 ^ 14 ∧ pageAddr 16383 ∈ w46.gating) ∧
    (w47.clockOff (pProf 95) = true) ∧
    (w48.clockOff (pFbk 95) = true) ∧
    (w49.clockOff (pPwm 95) = true) ∧
    (w50.clockOff (pPort 11) = true) ∧
    (w51.clockOff pRing0 = true) ∧
    (w52.clockOff pEth0 = true) ∧
    (gateFirst (pageAddr 0x1000) = true ∧ w53.held = [] ∧ w53.flag (pageAddr 0x1000) PAGE_CTL.gate_req = true) ∧
    (95 < 96 ∧ w38.slLocked = true) ∧
    (w54.held = []) ∧
    (w55.held = [{ ini := 0, addr := 3, wr := some (0 : Word) }] ∧
      ((∀ u : State, u.regs = w55.regs → u.gating = w55.gating → u.srstBusy = w55.srstBusy.filter (fun p => p != pageAddr 0x500) → u.mustWait 3 = false))) ∧
    (1 < 2 ∧ w56.flag (pEth 1) PAGE_CTL.en ≠ false) ∧
    (63 < 64 ∧ w57.flag (pCore 63) PAGE_CTL.en = true ∧ (w57.co 63).task ≠ none) ∧
    (3 < 4) := by
  refine ⟨?_, ?_, ?_, ?_, ?_, ?_, ?_, ?_, ?_, ?_, ?_, ?_, ?_, ?_, ?_, ?_, ?_, ?_, ?_⟩
  · decide +kernel
  · decide +kernel
  · decide +kernel
  · refine ⟨fun ch e => ?_, by decide +kernel⟩
    have hb : blkOf (pageAddr 0x500) = .mem0 := by decide +kernel
    rw [hb] at e; cases e
  · decide +kernel
  · decide +kernel
  · decide +kernel
  · decide +kernel
  · decide +kernel
  · decide +kernel
  · decide +kernel
  · decide +kernel
  · decide +kernel
  · decide +kernel
  · decide +kernel
  · exact ⟨by decide +kernel, fun u _ _ _ => by
      have ht : targetOf 3 = .dram := by decide +kernel
      simp [State.mustWait, ht]⟩
  · decide +kernel
  · decide +kernel
  · decide +kernel

/-- What the clauses of PageEventsAndPosts assume can be met. -/
theorem wit_PageEventsAndPosts :
    ((blkOf (pageAddr 0x500)).hasHeader = true ∧ (blkOf (pageAddr 0x500)).isLens = false) ∧
    ((blkOf (pageAddr 0x500)).hasHeader = true) ∧
    ((blkOf (pageAddr 0x500)).hasHeader = true ∧ 35 < 36 ∧ w58.get (pageAddr 0x500) PAGE_POST.post_en = 1 ∧
      bitN (w58.get (pageAddr 0x500) PAGE_EVEN.even) 35 = true ∧ pageAddr 0x500 ∉ w58.posted) ∧
    ((blkOf (pageAddr 0xA00)).hasHeader = true ∧ (blkOf (pageAddr 0xA00)).isLens = true) ∧
    (35 < 36 ∧ bitN ((State.reset).get 11 PAGE_EVEN.even) 35 = false) ∧
    (35 < 36 ∧ bitN (w59.get 11 PAGE_EVEN.even) 35 = true ∧ bitN (w59.get 11 PAGE_EVPEND.evpend) 35 = true) ∧
    (35 < 36 ∧ bitN (w60.get 11 PAGE_EVEN.even) 35 = true ∧ bitN (w60.get 11 PAGE_EVPEND.evpend) 35 = false ∧ w60.get 11 PAGE_POST.post_en = 1 ∧
      11 ∉ w60.posted) ∧
    (35 < 36 ∧ bitN (w61.get 11 PAGE_EVEN.even) 35 = true ∧ 11 ∈ w61.posted) ∧
    (w62.heldPosts = ({ tag := 1 } : Post) :: ([] : List Post) ∧ w62.crossing < 8 ∧ ({ tag := 1 } : Post).tag ≠ 0) ∧
    (w63.heldPosts = ({} : Post) :: ([] : List Post) ∧ w63.crossing < 8 ∧ ({} : Post).tag = 0) ∧
    (8 ≤ w64.crossing) ∧
    (Post.fromPclk { cls := 1, src := (0xF80100000 - pageSpace) / 0x100, task := w64.get 0xF80100000 PAGE_POST.task } = true ∧ 8 ≤ w64.crossing ∧
      ((∀ h ∈ w64.heldPosts, ¬(h.tag = 0 ∧ h.src = (0xF80100000 - pageSpace) / 0x100)))) := by
  refine ⟨?_, ?_, ?_, ?_, ?_, ?_, ?_, ?_, ?_, ?_, ?_, ?_⟩ <;> decide +kernel

/-- What the clauses of FaultCounters assume can be met. -/
theorem wit_FaultCounters :
    ((blkOf (pageAddr 0x500)).hasHeader = true ∧ (State.reset).fcLocked 0 (pageAddr 0x500) = false ∧ fcOk (0 : Word).toNat = false) ∧
    ((blkOf (pageAddr 0x500)).hasHeader = true ∧ (State.reset).fcLocked 0 (pageAddr 0x500) = false ∧ fcOk (0x8034 : Word).toNat = true) ∧
    ((blkOf (pageAddr 0x105f)).hasHeader = true ∧ w38.fcLocked 0 (pageAddr 0x105f) = true) ∧
    ((blkOf (pageAddr 0x500)).hasHeader = true ∧ blkOf (pageAddr 0x500) ≠ .mem1 ∧ blkOf (pageAddr 0x500) ≠ .mem2 ∧
      w65.windowDue (pageAddr 0x500) = true) ∧
    ((blkOf (pageAddr 0x500)).hasHeader = true ∧ pageAddr 0x500 ∉ (State.reset).blocked) ∧
    (w66.get 11 FC_CFG.enable = 0) ∧
    (w67.get 11 FC_CFG.enable = 1) ∧
    (w68.get 11 FC_CFG.action = 2 ∧ 63 < 64) := by
  refine ⟨?_, ?_, ?_, ?_, ?_, ?_, ?_, ?_⟩ <;> decide +kernel

/-- What the clauses of TimeBases assume can be met. -/
theorem wit_TimeBases :
    ((State.reset).takes (pTb 3 + 0x10) ∧ 1 ≤ 3 ∧ 3 ≤ 3) ∧
    ((State.reset).takes (pTb 3 + 0x10) ∧ 1 ≤ 3 ∧ 3 ≤ 3) ∧
    ((State.reset).takes (pTb 3 + 0x12) ∧ 1 ≤ 3 ∧ 3 ≤ 3) ∧
    ((State.reset).takes (pTb 3 + 0x13) ∧ 1 ≤ 3 ∧ 3 ≤ 3 ∧ (sint 36 (8796093022 : Word).toNat).natAbs ≤ 8796093022) ∧
    ((State.reset).takes (pTb 3 + 0x13) ∧ 1 ≤ 3 ∧ 3 ≤ 3 ∧ 8796093022 < (sint 36 (8796093023 : Word).toNat).natAbs) ∧
    (w69.takes (pTb 3 + 0x14) ∧ 1 ≤ 3 ∧ 3 ≤ 3 ∧ w69.get (pTb 3) TIME_TB_CTL.src ≠ 3) ∧
    (w70.takes (pTb 3 + 0x14) ∧ 1 ≤ 3 ∧ 3 ≤ 3 ∧ w70.get (pTb 3) TIME_TB_CTL.src = 3) ∧
    (1 ≤ 3 ∧ 3 ≤ 3 ∧ w71.flag (pTb 3) TIME_TB_CTL.servo = false ∧ (0 : Int).natAbs ≤ w71.get pTime0 TIME_STEP_LIM.lim * 64) ∧
    (1 ≤ 3 ∧ 3 ≤ 3) ∧
    (1 ≤ 3 ∧ 3 ≤ 3 ∧ w72.get (pTb 3) TIME_TB_LOCK.tmo ≠ 0 ∧ w72.flag (pTb 3) TIME_TB_STAT.susp = false ∧ 3 ∉ w72.time.lapsed ∧
      Tab.rd w72.time.mt 3 + max (w72.get (pTb 3) TIME_TB_LOCK.tmo * 2000000) (2 * w72.tbTau 3 * 64) ≤ w72.t64 0) ∧
    (w73.flag (pTb 3) TIME_TB_STAT.locked = true) ∧
    (1 ≤ 3 ∧ 3 ≤ 3) := by
  refine ⟨?_, ?_, ?_, ?_, ?_, ?_, ?_, ?_, ?_, ?_, ?_, ?_⟩ <;> decide +kernel

/-- What the clauses of CellTime assume can be met. -/
theorem wit_CellTime :
    (w74.flag pTime0 TIME_CT_STAT.valid = false ∧ w74.eligible (w74.get pTime0 TIME_CT_CTL.pri) = true) ∧
    (w75.flag pTime0 TIME_CT_STAT.valid = false ∧ w75.eligible (w75.get pTime0 TIME_CT_CTL.pri) = false ∧
      w75.eligible (w75.get pTime0 TIME_CT_CTL.mir) = true) ∧
    (w76.flag pTime0 TIME_CT_STAT.valid = true) ∧
    (w77.noteRevert.time.revert = some 0 ∧ w77.flag pTime0 TIME_CT_CTL.hold = false ∧ w77.flag pTime0 TIME_CT_CTL.auto_ = true ∧
      w77.get pTime0 TIME_CT_CTL.revert ≠ 0 ∧ 0 + w77.get pTime0 TIME_CT_CTL.revert * secUnits ≤ w77.t64 0) ∧
    (w78.following = true ∧ w78.flag pTime0 TIME_CT_STAT.slewing = true ∧ w78.ctDiff.natAbs < 2 ^ 40) ∧
    ((State.reset).takes (pTime0 + 0x10) ∧
      (fldGet (0 : Word).toNat TIME_CT_CTL.pri = 0 ∨ fldGet (0 : Word).toNat TIME_CT_CTL.mir = 0 ∨ fldGet (0 : Word).toNat TIME_CT_CTL.pri = fldGet (0 : Word).toNat TIME_CT_CTL.mir)) ∧
    ((State.reset).takes (pTime0 + 0x10) ∧ fldGet (0x13 : Word).toNat TIME_CT_CTL.pri ≠ 0 ∧ fldGet (0x13 : Word).toNat TIME_CT_CTL.mir ≠ 0 ∧
      fldGet (0x13 : Word).toNat TIME_CT_CTL.pri ≠ fldGet (0x13 : Word).toNat TIME_CT_CTL.mir) ∧
    ((State.reset).takes (pTime0 + 0x15) ∧ fldGet (0x800000003 : Word).toNat TIME_REEPOCH.base ≠ 0 ∧
      fldGet (0x800000003 : Word).toNat TIME_REEPOCH.go = 1 ∧
      (((State.reset).flag pTime0 TIME_CT_STAT.valid = false ∨ (State.reset).get pTime0 TIME_CT_STAT.state = 4 ∨ (State.reset).flag (pTb (fldGet (0x800000003 : Word).toNat TIME_REEPOCH.base)) TIME_TB_STAT.locked = false))) ∧
    (w79.takes (pTime0 + 0x15) ∧ fldGet (0x800000003 : Word).toNat TIME_REEPOCH.base ≠ 0 ∧ fldGet (0x800000003 : Word).toNat TIME_REEPOCH.go = 1 ∧
      w79.flag pTime0 TIME_CT_STAT.valid = true ∧ w79.get pTime0 TIME_CT_STAT.state ≠ 4 ∧
      w79.flag (pTb (fldGet (0x800000003 : Word).toNat TIME_REEPOCH.base)) TIME_TB_STAT.locked = true ∧
      w79.flag pTime0 TIME_CT_STAT.slewing = false) ∧
    ((State.reset).takes (pTime0 + 0x15) ∧ fldGet (0x800000000 : Word).toNat TIME_REEPOCH.base = 0 ∧
      fldGet (0x800000000 : Word).toNat TIME_REEPOCH.go = 1) ∧
    (w80.get pTime0 TIME_CT_STAT.state = 4 ∧ w80.walkOn 4 = false) ∧
    (w81.get pTime0 TIME_CT_STAT.state = 4 ∧ w81.walkOn 4 = true) ∧
    (w82.get pTime0 TIME_CT_STAT.state = 3) ∧
    (w83.get pTime0 TIME_CT_STAT.state ≠ 3) := by
  refine ⟨?_, ?_, ?_, ?_, ?_, ?_, ?_, ?_, ?_, ?_, ?_, ?_, ?_, ?_⟩ <;> decide +kernel

/-- What the clauses of TimeStampsAndOutputs assume can be met. -/
theorem wit_TimeStampsAndOutputs :
    (63 < 64 ∧ 4 < 5 ∧ 8 * 63 + 4 ∉ (State.reset).time.snapBusy) ∧
    (63 < 64 ∧ 4 < 5 ∧ 8 * 63 + 4 ∈ w84.time.snapBusy) ∧
    (w85.flag pTime0 TIME_OUT_CTL.pps_en = true ∧ w85.cntValid (ctrOf (w85.get pTime0 TIME_OUT_CTL.pps_tb)) = true ∧ pTime0 ∉ w85.blocked ∧
      w85.t64 (ctrOf (w85.get pTime0 TIME_OUT_CTL.pps_tb)) % secUnits < 161) ∧
    (w86.flag pTime0 TIME_OUT_CTL.ten_en = true ∧ w86.cntValid (ctrOf (w86.get pTime0 TIME_OUT_CTL.ten_tb)) = true ∧ pTime0 ∉ w86.blocked ∧
      w86.t64 (ctrOf (w86.get pTime0 TIME_OUT_CTL.ten_tb)) % 6400 < 161) ∧
    (((State.reset).cntValid (ctrOf ((State.reset).get pTime0 TIME_OUT_CTL.pps_tb)) = false ∨ pTime0 ∈ (State.reset).blocked)) ∧
    (w87.flag pTime0 TIME_IN_CTL.pps_en = false) ∧
    (w88.flag pTime0 TIME_IN_CTL.pps_en = true ∧ true ≠ w88.flag pTime0 TIME_IN_CTL.pps_fall ∧
      ((∀ n ∈ [1, 2, 3], w88.get (pTb n) TIME_TB_CTL.src ≠ 4 ∧ w88.get (pTb n) TIME_TB_CTL.src ≠ 6)) ∧ w88.get pTime0 PAGE_EVEN.even = 0) ∧
    (w89.flag pTime0 TIME_IN_CTL.ten_en = false) ∧
    (w90.flag pTime0 TIME_IN_CTL.ten_en = true ∧ w90.get (pTb 1) TIME_TB_CTL.src = 5 ∧ w90.get (pTb 2) TIME_TB_CTL.src < 5 ∧
      w90.get (pTb 3) TIME_TB_CTL.src < 5 ∧
      ((∀ u : State, u = { w90 with freeN := w90.freeN + 1 }.tbMeasure 1 (nearestOffset (w90.t64At 1 (Config.inputTap w90.freeN % 32)) 6400) 1000000 → u.get (pTb 2) TIME_TB_CTL.src < 5 ∧ u.get (pTb 3) TIME_TB_CTL.src < 5))) ∧
    (0 < 1) ∧
    (9 < 10) ∧
    ((State.reset).takes (pTsu 11 + 0x18) ∧ 11 < 12) := by
  refine ⟨?_, ?_, ?_, ?_, ?_, ?_, ?_, ?_, ?_, ?_, ?_, ?_⟩
  · decide +kernel
  · decide +kernel
  · decide +kernel
  · decide +kernel
  · decide +kernel
  · decide +kernel
  · decide +kernel
  · decide +kernel
  · exact ⟨by decide +kernel, by decide +kernel, by decide +kernel, by decide +kernel, fun u h => by
      have hk : ∀ k : Fin 32, ({ w90 with freeN := w90.freeN + 1 }.tbMeasure 1 (nearestOffset (w90.t64At 1 k.val) 6400) 1000000).get (pTb 2) TIME_TB_CTL.src < 5 ∧
        ({ w90 with freeN := w90.freeN + 1 }.tbMeasure 1 (nearestOffset (w90.t64At 1 k.val) 6400) 1000000).get (pTb 3) TIME_TB_CTL.src < 5 := by decide +kernel
      rw [h]; exact hk ⟨Config.inputTap w90.freeN % 32, Nat.mod_lt _ (by decide)⟩⟩
  · decide +kernel
  · decide +kernel
  · decide +kernel

/-- What the clauses of TriggersAndWalks assume can be met. -/
theorem wit_TriggersAndWalks :
    (w91.takes (pTrg 1023 + 2) ∧ 1023 < 1024 ∧ w91.walking = true) ∧
    (w92.takes (pTrg 1023 + 2) ∧ 1023 < 1024 ∧ w92.walking = false ∧ w92.get (pTrg 1023) TRG_CTL.arm = 1) ∧
    (w93.takes (pTrg 1023 + 2) ∧ 1023 < 1024 ∧ w93.walking = false ∧ w93.get (pTrg 1023) TRG_CTL.arm ≠ 1 ∧
      w93.armReason 1023 ((0x100000 : Word) ||| 0x800000000).toNat = 0) ∧
    (w93.takes (pTrg 1023 + 2) ∧ 1023 < 1024 ∧ w93.walking = false ∧ w93.get (pTrg 1023) TRG_CTL.arm ≠ 1 ∧
      w93.armReason 1023 ((0 : Word) ||| 0x800000000).toNat ≠ 0) ∧
    (w92.takes (pTrg 1023 + 2) ∧ 1023 < 1024 ∧ w92.walking = false ∧ w92.get (pTrg 1023) TRG_CTL.arm = 1) ∧
    ((State.reset).takes (pTrg 1023) ∧ 1023 < 1024 ∧ 63 < 64) ∧
    (w94.prism.walk = none) ∧
    (w91.prism.walk ≠ none) ∧
    (w95.prism.walk = none ∧ w95.prism.waiting = (1, 1) :: ([] : List (Nat × Nat))) ∧
    (w96.get (pTrg 3) TRG_CTL.arm = 1 ∧ w96.get (pTrg 3) TRG_CTL.tb = 4 ∧ w96.get (pTrg 3) TRG_CTL.per = 0) ∧
    (((State.reset).get (pTrg 3) TRG_CTL.arm ≠ 1 ∨ (State.reset).get (pTrg 3) TRG_CTL.tb ≠ 1)) ∧
    (0 < 1) := by
  refine ⟨?_, ?_, ?_, ?_, ?_, ?_, ?_, ?_, ?_, ?_, ?_, ?_⟩ <;> decide +kernel

/-- What the clauses of TriggerFires assume can be met. -/
theorem wit_TriggerFires :
    (1023 < 1024 ∧ w97.isDue 1023 = true ∧ w97.prism.firedNow.length < 16 ∧
      (w97.prism.armed.any (fun k => w97.isDue k && w97.firesBefore k 1023)) = false) ∧
    (((State.reset).isDue 3 = false ∨ 16 ≤ (State.reset).prism.firedNow.length)) ∧
    (1023 < 1024 ∧ w98.flag (pTrg 1023) TRG_CTL.per = false ∧ w98.get (pTrg 1023) TRG_CTL.act = 1 ∧ w98.flag (pTrg 1023) TRG_CTL.apost = false ∧
      false = false ∧ w98.trgLate 1023 = 0) ∧
    (2 ≤ 4 ∧ 4 ≤ 4) ∧
    (w99.prism.acts = [({} : PrismAct)]) ∧
    (3 < 4) ∧
    (1023 < 1024 ∧ w100.flag pPrism0 PAGE_CTL.en = true ∧ w100.flag (pTrg 1023) TRG_CTL.arm = true ∧
      w100.trgHeld (w100.get (pTrg 1023) TRG_CTL.tb) = false ∧ w100.isPast 1023 = true ∧ w100.flag (pTrg 1023) TRG_CTL.pol = true ∧
      w100.flag (pTrg 1023) TRG_CTL.per = false) ∧
    (1023 < 1024 ∧ w101.flag pPrism0 PAGE_CTL.en = true ∧ w101.flag (pTrg 1023) TRG_CTL.arm = true ∧
      w101.trgHeld (w101.get (pTrg 1023) TRG_CTL.tb) = false ∧ w101.isPast 1023 = true ∧ w101.flag (pTrg 1023) TRG_CTL.pol = false ∧
      w101.isDue 1023 = true ∧ w101.prism.firedNow.length < 16 ∧ (w101.prism.armed.any (fun k => w101.isDue k && w101.firesBefore k 1023)) = false) ∧
    (w102.flag pPrism0 PAGE_CTL.en = false) ∧
    ((State.reset).takes (pPrism1 + 0x10 + 63) ∧ 63 < 64 ∧ ((6400 : Word).toNat = 0 ∨ 6400 ≤ (6400 : Word).toNat)) ∧
    ((State.reset).takes (pPrism1 + 0x10 + 63) ∧ 63 < 64 ∧ 0 < (6399 : Word).toNat ∧ (6399 : Word).toNat < 6400) := by
  refine ⟨?_, ?_, ?_, ?_, ?_, ?_, ?_, ?_, ?_, ?_, ?_⟩ <;> decide +kernel

/-- What the clauses of TioPins assume can be met. -/
theorem wit_TioPins :
    (15 < 16 ∧ (w103.ti 15).fall = some (1, 3) ∧ 1 ≤ w103.t64 0 + 159 ∧ (w103.ti 15).level = true ∧
      ((∀ o, (w103.ti 15).lastOut = some o → o + 320 ≤ 1))) ∧
    ((w104.ti 15).fall = none) ∧
    (15 < 16 ∧ (w105.ti 15).fall = some (1, 3) ∧ 1 ≤ w105.t64 0 + 159 ∧ (w105.ti 15).level = true ∧ (w105.ti 15).lastOut = some 1 ∧ 1 < 1 + 320) ∧
    (15 < 16 ∧ w106.get pPrism2 (PRISM_TIO_CFG.cen 15) ≠ 0 ∧ w106.get pPrism2 (PRISM_TIO_CFG.cedge 15) = 2 ∧ (w106.ti 15).lastCap = none ∧
      (w106.ti 15).q = []) ∧
    (15 < 16 ∧ w107.get pPrism2 (PRISM_TIO_CFG.cen 15) ≠ 0 ∧ w107.get pPrism2 (PRISM_TIO_CFG.cedge 15) = 2 ∧ 8 ≤ (w107.ti 15).q.length) ∧
    (w108.get pPrism2 (PRISM_TIO_CFG.cen 15) = 0) ∧
    ((State.reset).takes (pPrism2 + 0x23 + 4 * 15) ∧ 15 < 16) ∧
    ((State.reset).takes (pPrism2 + 0x10 + 15) ∧ 15 < 16 ∧
      (fldGet (0 : Word).toNat (PRISM_TIO_CFG.cedge 15) = 3 ∨ 4 < fldGet (0 : Word).toNat (PRISM_TIO_CFG.ctb 15) ∨ fldGet (0 : Word).toNat (PRISM_TIO_CFG.pw 15) < 64)) ∧
    (w109.takes (pPrism2 + 0x10 + 15) ∧ 15 < 16 ∧ fldGet (0x880000040 : Word).toNat (PRISM_TIO_CFG.cedge 15) ≠ 3 ∧
      fldGet (0x880000040 : Word).toNat (PRISM_TIO_CFG.ctb 15) ≤ 4 ∧ 64 ≤ fldGet (0x880000040 : Word).toNat (PRISM_TIO_CFG.pw 15) ∧
      w109.olSealed = true) ∧
    (w110.takes (pPrism2 + 0x10 + 15) ∧ 15 < 16 ∧ fldGet (0x880000040 : Word).toNat (PRISM_TIO_CFG.cedge 15) ≠ 3 ∧
      fldGet (0x880000040 : Word).toNat (PRISM_TIO_CFG.ctb 15) ≤ 4 ∧ 64 ≤ fldGet (0x880000040 : Word).toNat (PRISM_TIO_CFG.pw 15) ∧
      w110.olSealed = false) := by
  refine ⟨?_, ?_, ?_, ?_, ?_, ?_, ?_, ?_, ?_, ?_⟩ <;> decide +kernel

/-- What the clauses of PwmConfigurationAndShadow assume can be met. -/
theorem wit_PwmConfigurationAndShadow :
    (w111.takes (pPwm 95 + 0x10) ∧ 95 < 96 ∧ 0 ≠ iniIsland ∧ w111.carrierRuns 95 = true) ∧
    ((State.reset).takes (pPwm 95 + 0x10) ∧ 95 < 96 ∧ (State.reset).slOpen 0 = true ∧
      ((kindOk (fldGet (0xA000000 : Word).toNat PWM_CFG.kind) (fldGet (0xA000000 : Word).toNat PWM_CFG.legen) = false ∨ 2 ≤ fldGet (0xA000000 : Word).toNat PWM_CFG.carrier ∨ 5 ≤ fldGet (0xA000000 : Word).toNat PWM_CFG.reload))) ∧
    (w112.takes (pPwm 95 + 0x10) ∧ 95 < 96 ∧ w112.slOpen 0 = true ∧ w112.carrierRuns 95 = false ∧
      kindOk (fldGet (0x0 : Word).toNat PWM_CFG.kind) (fldGet (0x0 : Word).toNat PWM_CFG.legen) = true ∧
      fldGet (0x0 : Word).toNat PWM_CFG.carrier < 2 ∧ fldGet (0x0 : Word).toNat PWM_CFG.reload < 5) ∧
    (w113.takes (pPwm 95 + 0x10) ∧ 95 < 96 ∧ w113.slOpen 0 = false ∧ w113.carrierRuns 95 = false ∧
      kindOk (w113.get (pPwm 95) PWM_CFG.kind) (w113.get (pPwm 95) PWM_CFG.legen) = true ∧ fldGet (0x0 : Word).toNat PWM_CFG.carrier < 2 ∧
      fldGet (0x0 : Word).toNat PWM_CFG.reload < 5) ∧
    (w114.takes (pPwm 95 + 0x10) ∧ 95 < 96 ∧ w114.carrierRuns 95 = true ∧
      kindOk (fldGet (0x0 : Word).toNat PWM_CFG.kind) (fldGet (0x0 : Word).toNat PWM_CFG.legen) = true ∧
      fldGet (0x0 : Word).toNat PWM_CFG.carrier < 2 ∧ fldGet (0x0 : Word).toNat PWM_CFG.reload < 5 ∧
      fldGet (0x0 : Word).toNat PWM_CFG.kind ≠ w114.get (pPwm 95) PWM_CFG.kind) ∧
    ((State.reset).takes (pPwm 95 + 0x11) ∧ 95 < 96 ∧ (0 : Word).toNat % 2 ^ 20 < 2000) ∧
    (w115.takes (pPwm 95 + 0x11) ∧ 95 < 96 ∧ 2000 ≤ (2000 : Word).toNat % 2 ^ 20 ∧ w115.perOk 95 ((2000 : Word).toNat % 2 ^ 20) = false) ∧
    (w116.takes (pPwm 95 + 0x11) ∧ 95 < 96 ∧ 2000 ≤ (2000 : Word).toNat % 2 ^ 20 ∧ w116.perOk 95 ((2000 : Word).toNat % 2 ^ 20) = true ∧
      (w116.pw 95).xfer = false ∧ w116.get (pPwm 95) PWM_CFG.reload ≠ 4) ∧
    (w117.takes (pPwm 95 + (0x14 + 3)) ∧ 95 < 96 ∧ 3 < 4 ∧ w117.get (pAle 95) PAGE_CTL.en = 1 ∧ 0 ≠ iniIsland) ∧
    (w118.takes (pPwm 95 + (0x14 + 3)) ∧ 95 < 96 ∧ 3 < 4 ∧ ((w118.get (pAle 95) PAGE_CTL.en ≠ 1 ∨ 0 = iniIsland)) ∧ w118.legOn 95 3 = true ∧
      w118.dutyOk 95 ((1 : Word).toNat % 2 ^ 25) = false) ∧
    (w119.takes (pPwm 95 + (0x14 + 3)) ∧ 95 < 96 ∧ 3 < 4 ∧ ((w119.get (pAle 95) PAGE_CTL.en ≠ 1 ∨ 0 = iniIsland)) ∧
      ((w119.legOn 95 3 = false ∨ w119.dutyOk 95 ((0 : Word).toNat % 2 ^ 25) = true)) ∧ (w119.pw 95).xfer = false ∧
      w119.get (pPwm 95) PWM_CFG.reload ≠ 4) ∧
    (w120.takes (pPwm 95 + 0x11) ∧ 95 < 96 ∧ 2000 ≤ (2000 : Word).toNat % 2 ^ 20 ∧ w120.perOk 95 ((2000 : Word).toNat % 2 ^ 20) = true ∧
      (w120.pw 95).xfer = true ∧ w120.get (pPwm 95) PWM_CFG.reload ≠ 4) ∧
    (w121.takes (pPwm 95 + 0x11) ∧ 95 < 96 ∧ 2000 ≤ (2000 : Word).toNat % 2 ^ 20 ∧ w121.perOk 95 ((2000 : Word).toNat % 2 ^ 20) = true ∧
      (w121.pw 95).xfer = false ∧ w121.get (pPwm 95) PWM_CFG.reload = 4) := by
  refine ⟨?_, ?_, ?_, ?_, ?_, ?_, ?_, ?_, ?_, ?_, ?_, ?_, ?_⟩ <;> decide +kernel

/-- What the clauses of CarrierAndTransfers assume can be met. -/
theorem wit_CarrierAndTransfers :
    ((State.reset).takes (pPwm 95 + 0x18) ∧ 95 < 96) ∧
    ((State.reset).takes (pPwm 95 + 0x18) ∧ 95 < 96) ∧
    ((State.reset).takes (pPwm 95 + 0x18) ∧ 95 < 96) ∧
    (w122.clockOff (pPwm 95) = false ∧ (w122.pw 95).go = false ∧ (w122.pw 95).startReq = true ∧ (w122.pw 95).stopReq = false ∧
      (w122.pw 95).commitReq = false) ∧
    (w123.clockOff (pPwm 95) = false ∧ (w123.pw 95).go = false ∧ (w123.pw 95).startReq = true ∧ (w123.pw 95).stopReq = true ∧
      (w123.pw 95).commitReq = false) ∧
    (w124.clockOff (pPwm 95) = false ∧ (w124.pw 95).go = false ∧ (w124.pw 95).startReq = false ∧ (w124.pw 95).stopReq = true ∧
      (w124.pw 95).commitReq = false ∧ w124.carrierRuns 95 = true) ∧
    (w125.clockOff (pPwm 95) = false ∧ (w125.pw 95).go = false ∧ (w125.pw 95).startReq = false ∧ (w125.pw 95).stopReq = true ∧
      (w125.pw 95).commitReq = false ∧ w125.carrierRuns 95 = false) ∧
    (w126.clockOff (pPwm 95) = false ∧ (w126.pw 95).go = true ∧ (w126.pw 95).startReq = false ∧ (w126.pw 95).stopReq = false ∧
      (w126.pw 95).commitReq = false) ∧
    (w127.clockOff (pPwm 95) = false ∧ (w127.pw 95).go = false ∧ (w127.pw 95).startReq = false ∧ (w127.pw 95).stopReq = false ∧
      (w127.pw 95).commitReq = true ∧ w127.flag (pPwm 95) PAGE_CTL.en = true ∧ w127.carrierRuns 95 = true ∧
      w127.flag (pPwm 95) PWM_CFG.track = false) ∧
    (w128.get (pPwm 95) PAGE_CTL.en = 1 ∧ w128.carrierRuns 95 = false ∧
      ((w128.get (pPwm 95) PWM_CFG.kind = 0 ∨ w128.get (pPwm 95) PWM_CFG.kind = 3 ∨ w128.get (pPwm 95) PWM_PER.per < 2000 ∨ 32 * w128.get (pPwm 95) PWM_PER.per ≤ w128.get (pPwm 95) PWM_PHASE.ph ∨ w128.get (pPort (95 / 8)) PORT_DLCAL.locked = 0))) ∧
    (95 < 96 ∧ w129.get (pPwm 95) PAGE_CTL.en = 1 ∧ w129.carrierRuns 95 = false ∧ w129.get (pPwm 95) PWM_CFG.kind ≠ 0 ∧
      w129.get (pPwm 95) PWM_CFG.kind ≠ 3 ∧ 2000 ≤ w129.get (pPwm 95) PWM_PER.per ∧
      w129.get (pPwm 95) PWM_PHASE.ph < 32 * w129.get (pPwm 95) PWM_PER.per ∧ w129.get (pPort (95 / 8)) PORT_DLCAL.locked = 1) ∧
    (w130.carrierRuns 95 = false ∧ (w130.startCarrier 95).carrierRuns 95 = true) ∧
    (((State.reset).get (pPwm 95) PAGE_CTL.en = 0 ∨ (State.reset).carrierRuns 95 = true)) ∧
    (w111.carrierRuns 95 = true ∧ (w111.transfer 95).activeSet 95 = w111.activeSet 95) ∧
    (w131.carrierRuns 95 = true ∧ (w131.transfer 95).activeSet 95 ≠ w131.activeSet 95) ∧
    ((w132.pw 95).xfer = true) ∧
    ((w133.pw 95).xfer = false ∧ w133.get (pPwm 95) PWM_CFG.policy = 0 ∧ w133.get (pPwm 95) PWM_SHSTAT.per_w = 1 ∧ 3 < 4 ∧ w133.legOn 95 3 = true ∧
      bitN (w133.get (pPwm 95) PWM_SHSTAT.cmp_w) 3 = false) ∧
    ((w134.pw 95).xfer = false ∧
      ((w134.get (pPwm 95) PWM_CFG.policy ≠ 0 ∨ w134.get (pPwm 95) PWM_SHSTAT.per_w = 0 ∨ ∀ k < 4, w134.legOn 95 k = true → bitN (w134.get (pPwm 95) PWM_SHSTAT.cmp_w) k = true))) ∧
    (((State.reset).carrierRuns 95 = false ∨ ((State.reset).pw 95).c < ((State.reset).pw 95).fin)) ∧
    (95 < 96 ∧ w135.carrierRuns 95 = true ∧ (w135.pw 95).stop = true) ∧
    (95 < 96 ∧ w136.carrierRuns 95 = true ∧ (w136.pw 95).fin ≤ (w136.pw 95).c ∧ w136.get (pAle 95) ALE_CFG.wake ≠ 1) ∧
    (95 < 96 ∧ w137.carrierRuns 95 = true ∧ (w137.pw 95).fin ≤ (w137.pw 95).c ∧ w137.get (pAle 95) ALE_CFG.wake = 1) ∧
    ((w138.pw 95).stop = false ∧ (w138.pw 95).trk = false ∧ w138.get (pPwm 95) PWM_CFG.reload ≠ 1 ∧ w138.get (pPwm 95) PWM_CFG.reload ≠ 3 ∧
      (w138.pw 95).tripSince = none) ∧
    (((State.reset).carrierRuns 95 = false ∨ ((State.reset).pw 95).centred = true ∨ ((State.reset).pw 95).c < ((State.reset).pw 95).len / 2)) ∧
    (95 < 96 ∧ w139.carrierRuns 95 = true ∧ (w139.pw 95).centred = false ∧ (w139.pw 95).len / 2 ≤ (w139.pw 95).c ∧
      w139.get (pPwm 95) PWM_CFG.reload ≠ 2 ∧ w139.get (pPwm 95) PWM_CFG.reload ≠ 3) ∧
    (95 < 96 ∧ w140.carrierRuns 95 = true ∧ (w140.pw 95).centred = false ∧ (w140.pw 95).len / 2 ≤ (w140.pw 95).c ∧
      (w140.get (pPwm 95) PWM_CFG.reload = 2 ∨ w140.get (pPwm 95) PWM_CFG.reload = 3)) := by
  refine ⟨?_, ?_, ?_, ?_, ?_, ?_, ?_, ?_, ?_, ?_, ?_, ?_, ?_, ?_, ?_, ?_, ?_, ?_, ?_, ?_, ?_, ?_, ?_, ?_, ?_, ?_⟩ <;> decide +kernel

/-- What the clauses of GatesTripsAndPorts assume can be met. -/
theorem wit_GatesTripsAndPorts :
    (((State.reset).carrierRuns 95 = false ∨ ((State.reset).pw 95).edges = [])) ∧
    (((∀ e ∈ ((State.reset).pw 95).edges, (((State.reset).pw 95).c : Int) + 32 ≤ e.t))) ∧
    (95 < 96 ∧ w141.carrierRuns 95 = true ∧ (w141.pw 95).edges = ({} : GateEdge) :: ([] : List GateEdge) ∧
      ((∀ f ∈ ([] : List GateEdge), ({} : GateEdge).t ≤ f.t)) ∧ ({} : GateEdge).t < ((w141.pw 95).c : Int) + 32 ∧
      (Tab.rd (w141.pw 95).legs ({} : GateEdge).leg : LegSt).second ({} : GateEdge) = false) ∧
    (95 < 96 ∧ w142.carrierRuns 95 = true ∧ (w142.pw 95).edges = ({ leg := 0, hi := true, on := true } : GateEdge) :: ([] : List GateEdge) ∧
      ((∀ f ∈ ([] : List GateEdge), ({ leg := 0, hi := true, on := true } : GateEdge).t ≤ f.t)) ∧
      ({ leg := 0, hi := true, on := true } : GateEdge).t < ((w142.pw 95).c : Int) + 32 ∧
      (Tab.rd (w142.pw 95).legs ({ leg := 0, hi := true, on := true } : GateEdge).leg : LegSt).second ({ leg := 0, hi := true, on := true } : GateEdge) = true) ∧
    (({ t := 7, leg := 0, hi := true, on := true } : GateEdge) ∈ edgePair 0 ([(10, false)] : List (Int × Bool)) 2 1 ((5 : Int), true)) ∧
    (w143.get (pPwm 95) PWM_CFG.kind ≠ 3) ∧
    (w144.get (pPwm 95) PWM_CFG.kind = 3) ∧
    (w145.clockOff (pPwm 95) = false ∧ 95 < 96 ∧ w145.get (pPwm 95) PWM_TRIP.en = 1 ∧ w145.carrierRuns 95 = true ∧ w145.padBlocked 95 = false ∧
      w145.get (pPwm 95) PWM_BLK.trip = 0 ∧ (w145.pw 95).outAt = none ∧ w145.get (pPwm 95) PWM_TRIP.filt ≤ max 1 1 ∧
      w145.get (pPwm 95) PWM_TRIP.filt ≤ w145.now + 1) ∧
    ((State.reset).clockOff (pPwm 95) = false ∧ 95 < 96 ∧
      ((State.reset).get (pPwm 95) PWM_TRIP.en = 0 ∨ (State.reset).carrierRuns 95 = false ∨ (State.reset).padBlocked 95 = true ∨ (State.reset).get (pPwm 95) PWM_BLK.trip = 1)) ∧
    (w146.clockOff (pPwm 95) = false ∧ 95 < 96 ∧ max 1 1 < w146.get (pPwm 95) PWM_TRIP.filt ∧ max 1 1 ≤ w146.now + 1) ∧
    (w147.clockOff (pPwm 95) = false ∧ 95 < 96 ∧ (w147.pw 95).outAt = some 1 ∧
      w147.now + 1 < 1 + w147.get (pPwm 95) PWM_TRIP.blank + w147.get (pPwm 95) PWM_TRIP.filt) ∧
    ((State.reset).clockOff (pPwm 95) = false ∧ 95 < 96) ∧
    (w148.clockOff (pPort 11) = false ∧ 11 < 12 ∧ w148.get (pPort 11) PORT_DLCAL.locked = 1 ∧ ((1 < 40 ∨ 120 < 1))) ∧
    (w148.clockOff (pPort 11) = false ∧ 11 < 12 ∧ 40 ≤ 120 ∧ 120 ≤ 120 ∧ ((∀ q, (w148.po 11).prev = some q → 120 ≤ q + 4 ∧ q ≤ 120 + 4)) ∧
      w148.get (pPort 11) PORT_DLCAL.locked = 1) ∧
    (w149.clockOff (pPort 11) = false ∧ 11 < 12 ∧ 40 ≤ 120 ∧ 120 ≤ 120 ∧ ((∀ q, (w149.po 11).prev = some q → 120 ≤ q + 4 ∧ q ≤ 120 + 4)) ∧
      w149.get (pPort 11) PORT_DLCAL.locked = 0 ∧ (w149.po 11).ever = false) ∧
    (w150.clockOff (pPort 11) = false ∧ 11 < 12 ∧ 40 ≤ 120 ∧ 120 ≤ 120 ∧ ((∀ q, (w150.po 11).prev = some q → 120 ≤ q + 4 ∧ q ≤ 120 + 4)) ∧
      w150.get (pPort 11) PORT_DLCAL.locked = 0 ∧ (w150.po 11).ever = true) ∧
    ((State.reset).takes (pPort 11 + 0x10) ∧ 11 < 12 ∧ (((State.reset).get (pPort 11) PORT_MCLK.en = 1 ∧
      ¬ (fldGet (0 : Word).toNat PORT_MCLK.div = (State.reset).get (pPort 11) PORT_MCLK.div ∧
      fldGet (0 : Word).toNat PORT_MCLK.dly = (State.reset).get (pPort 11) PORT_MCLK.dly ∧
      fldGet (0 : Word).toNat PORT_MCLK.align = (State.reset).get (pPort 11) PORT_MCLK.align) ∨ fldGet (0 : Word).toNat PORT_MCLK.div < 16 ∨ 40 < fldGet (0 : Word).toNat PORT_MCLK.div))) ∧
    (w151.takes (pPort 11 + 0x10) ∧ 11 < 12 ∧ w151.get (pPort 11) PORT_MCLK.en = 0 ∧ 16 ≤ fldGet (0x800001000 : Word).toNat PORT_MCLK.div ∧
      fldGet (0x800001000 : Word).toNat PORT_MCLK.div ≤ 40 ∧ w151.get (pPort 11) PORT_MCLK.run = 0) ∧
    (w152.takes (pPort 11 + 0x10) ∧ 11 < 12 ∧ w152.get (pPort 11) PORT_MCLK.en = 1 ∧ w152.get (pPort 11) PORT_MCLK.run = 1 ∧
      fldGet (0x2800 : Word).toNat PORT_MCLK.en = 0 ∧ fldGet (0x2800 : Word).toNat PORT_MCLK.div = w152.get (pPort 11) PORT_MCLK.div ∧
      fldGet (0x2800 : Word).toNat PORT_MCLK.dly = w152.get (pPort 11) PORT_MCLK.dly ∧
      fldGet (0x2800 : Word).toNat PORT_MCLK.align = w152.get (pPort 11) PORT_MCLK.align ∧ 16 ≤ fldGet (0x2800 : Word).toNat PORT_MCLK.div ∧
      fldGet (0x2800 : Word).toNat PORT_MCLK.div ≤ 40) ∧
    ((((State.reset).po 11).stopping = false ∨ (State.reset).get (pPort 11) PORT_MCLK.run = 0 ∨ (State.reset).mclkEnds 11 = false)) ∧
    ((w153.po 11).mclk = some 1) ∧
    (w154.clockOff (pPort 11) = false ∧ 11 < 12 ∧ (w154.po 11).stopping = true ∧ w154.get (pPort 11) PORT_MCLK.run = 1 ∧
      w154.get (pPort 11) PORT_MCLK.en = 0 ∧ w154.mclkEnds 11 = true ∧ ((∀ i < 8, (w154.pw (8 * 11 + i)).win = none))) := by
  refine ⟨?_, ?_, ?_, ?_, ?_, ?_, ?_, ?_, ?_, ?_, ?_, ?_, ?_, ?_, ?_, ?_, ?_, ?_, ?_, ?_, ?_, ?_⟩ <;> decide +kernel

/-- What the clauses of SigmaDelta assume can be met. -/
theorem wit_SigmaDelta :
    ((w155.pw 95).win = none) ∧
    (w156.clockOff (pPwm 95) = false ∧ 95 < 96 ∧ (w156.pw 95).win = some ({} : SdWin) ∧
      ((∀ i < 3, bitN ({} : SdWin).inen i = true → ([([] : List Bool), ([] : List Bool), ([] : List Bool)].getD i []).length = ({} : SdWin).k * ({} : SdWin).osr)) ∧ w156.windowCloses 95 ({} : SdWin) ≤ w156.now) ∧
    ((w157.pw 95).win = some ({ k := 3, osr := 32, inen := 7 } : SdWin) ∧ 2 < 3 ∧ bitN ({ k := 3, osr := 32, inen := 7 } : SdWin).inen 2 = true ∧
      ([([] : List Bool), ([] : List Bool), ([] : List Bool)].getD 2 []).length ≠ ({ k := 3, osr := 32, inen := 7 } : SdWin).k * ({ k := 3, osr := 32, inen := 7 } : SdWin).osr) ∧
    ((w158.pw 95).win = some ({ k := 1, osr := 1, first := 10 } : SdWin) ∧
      w158.now < w158.windowCloses 95 ({ k := 1, osr := 1, first := 10 } : SdWin)) ∧
    (95 < 96 ∧ 2 < 3 ∧ bitN 7 2 = true) ∧
    (95 < 96) ∧
    (0 < 1 ∧ 3 ≤ 3) ∧
    (64 ≤ 64) ∧
    (((State.reset).get (pPwm 95) PAGE_CTL.en = 0 ∨ (State.reset).get (pPwm 95) PWM_SD_CFG.mode ≠ 2)) ∧
    (w159.clockOff (pPwm 95) = false ∧ 95 < 96 ∧ w159.get (pPwm 95) PAGE_CTL.en = 1 ∧ w159.get (pPwm 95) PWM_SD_CFG.mode = 2 ∧
      (w159.po (95 / 8)).mclk ≠ none ∧ ((w159.pw 95).contN + 3) * w159.get (pPwm 95) PWM_SD_CFG.osr ≤ w159.contSamples 95 ∧
      ((∀ i < 3, bitN (w159.get (pPwm 95) PWM_SD_CFG.inen) i = true → ([([false, false, false, false, false, false, false, false, false, false, false, false] : List Bool), ([false, false, false, false, false, false, false, false, false, false, false, false] : List Bool), ([false, false, false, false, false, false, false, false, false, false, false, false] : List Bool)].getD i []).length = 3 * w159.get (pPwm 95) PWM_SD_CFG.osr))) ∧
    (((State.reset).contSamples 95 < (((State.reset).pw 95).contN + 3) * (State.reset).get (pPwm 95) PWM_SD_CFG.osr ∨ ((State.reset).po (95 / 8)).mclk = none)) ∧
    ((State.reset).takes (pPwm 95 + 0x28) ∧ 95 < 96 ∧
      ((fldGet (0 : Word).toNat PWM_SD_CFG.mode = 3 ∨ fldGet (0 : Word).toNat PWM_SD_CFG.osr < 32 ∨ 256 < fldGet (0 : Word).toNat PWM_SD_CFG.osr ∨ fldGet (0 : Word).toNat PWM_SD_CFG.k < 3))) ∧
    ((State.reset).takes (pPwm 95 + 0x28) ∧ 95 < 96 ∧ fldGet (0x200600000 : Word).toNat PWM_SD_CFG.mode ≠ 3 ∧
      32 ≤ fldGet (0x200600000 : Word).toNat PWM_SD_CFG.osr ∧ fldGet (0x200600000 : Word).toNat PWM_SD_CFG.osr ≤ 256 ∧
      3 ≤ fldGet (0x200600000 : Word).toNat PWM_SD_CFG.k) ∧
    (w160.get (pPwm 95) PAGE_CTL.en = 1 ∧ ((w160.get (pPwm 95) PWM_SD_CFG.mode ≠ 1 ∨ (w160.pw 95).win ≠ none))) ∧
    (w161.get (pPwm 95) PAGE_CTL.en = 1 ∧ w161.get (pPwm 95) PWM_SD_CFG.mode = 1 ∧ (w161.pw 95).win = none ∧
      w161.get (pPort (95 / 8)) PORT_MCLK.run = 1) ∧
    ((w162.po 1).mclk = some 1 ∧ 0 < (w162.po 1).div) ∧
    ((w156.pw 95).win = some ({} : SdWin)) := by
  refine ⟨?_, ?_, ?_, ?_, ?_, ?_, ?_, ?_, ?_, ?_, ?_, ?_, ?_, ?_, ?_, ?_, ?_⟩ <;> decide +kernel

/-- What the clauses of AxisLoopEngine assume can be met. -/
theorem wit_AxisLoopEngine :
    ((w163.pipeRuns 1).isSome = true) ∧
    (((∀ i < 4, ((State.reset).al (4 * 1 + i)).wake = none ∨ (State.reset).clockOff (pAle (4 * 1 + i)) = true))) ∧
    (23 < 24 ∧ 3 < 4 ∧ w164.pipeRuns 23 = none ∧ (w164.al (4 * 23 + 3)).wake = some ({} : AleSnap) ∧
      ((∀ j < 4, w164.clockOff (pAle (4 * 23 + j)) = false)) ∧
      ((∀ j < 4, j ≠ 3 → ∀ y, (w164.al (4 * 23 + j)).wake = some y → ({} : AleSnap).at_ < y.at_ ∨ ({} : AleSnap).at_ = y.at_ ∧ 3 < j))) ∧
    ((State.reset).pipeRuns 1 = none) ∧
    (w165.pipeRuns 3 = some 95 ∧ w165.clockOff (pAle 95) = true) ∧
    (3 < 24 ∧ w166.pipeRuns 3 = some 95 ∧ w166.clockOff (pAle 95) = false ∧ (w166.al 95).run = none) ∧
    (3 < 24 ∧ w167.pipeRuns 3 = some 95 ∧ w167.clockOff (pAle 95) = false ∧ (w167.al 95).run = some ({} : AleSnap)) ∧
    (({} : AleSnap).suits = false) ∧
    (({ kind := 2, w := [2147483648, 0, 0, 0, 0, 0, 0, 0, 0, 0, 0, 17179869184] } : AleSnap).suits = true ∧
      ({ kind := 2, w := [2147483648, 0, 0, 0, 0, 0, 0, 0, 0, 0, 0, 17179869184] } : AleSnap).get ALE_CFG.mode = 0) ∧
    (({ kind := 1, w := [10737418240, 0, 0, 0, 0, 0, 0, 0, 0, 0, 0, 1073741823] } : AleSnap).suits = true ∧
      ({ kind := 1, w := [10737418240, 0, 0, 0, 0, 0, 0, 0, 0, 0, 0, 1073741823] } : AleSnap).get ALE_CFG.mode ≠ 0 ∧
      ({ kind := 1, w := [10737418240, 0, 0, 0, 0, 0, 0, 0, 0, 0, 0, 1073741823] } : AleSnap).vdc < 1 / 16) ∧
    (({ kind := 1, w := [10737418240, 0, 0, 0, 0, 0, 0, 0, 0, 0, 0, 17179869184], valid := true } : AleSnap).suits = true ∧
      ({ kind := 1, w := [10737418240, 0, 0, 0, 0, 0, 0, 0, 0, 0, 0, 17179869184], valid := true } : AleSnap).get ALE_CFG.mode = 1 ∧
      ({ kind := 1, w := [10737418240, 0, 0, 0, 0, 0, 0, 0, 0, 0, 0, 17179869184], valid := true } : AleSnap).valid = true ∧
      ({ kind := 1, w := [10737418240, 0, 0, 0, 0, 0, 0, 0, 0, 0, 0, 17179869184], valid := true } : AleSnap).angle { ({} : AleSt) with mode := 1 } = some ((0, 0) : Rat × Rat)) ∧
    (({ kind := 1, w := [10737418240, 0, 0, 0, 0, 0, 0, 0, 0, 0, 0, 17179869184] } : AleSnap).suits = true ∧
      ({ kind := 1, w := [10737418240, 0, 0, 0, 0, 0, 0, 0, 0, 0, 0, 17179869184] } : AleSnap).get ALE_CFG.mode = 1 ∧
      ({ kind := 1, w := [10737418240, 0, 0, 0, 0, 0, 0, 0, 0, 0, 0, 17179869184] } : AleSnap).valid = false ∧
      ({ kind := 1, w := [10737418240, 0, 0, 0, 0, 0, 0, 0, 0, 0, 0, 17179869184] } : AleSnap).angle { ({} : AleSt) with mode := 1 } = some ((0, 0) : Rat × Rat)) ∧
    (({ kind := 1, w := [27917287424, 0, 0, 0, 0, 0, 0, 0, 0, 0, 0, 17179869184] } : AleSnap).suits = true ∧
      ({ kind := 1, w := [27917287424, 0, 0, 0, 0, 0, 0, 0, 0, 0, 0, 17179869184] } : AleSnap).get ALE_CFG.mode = 3 ∧
      ({ kind := 1, w := [27917287424, 0, 0, 0, 0, 0, 0, 0, 0, 0, 0, 17179869184] } : AleSnap).angle { ({} : AleSt) with mode := 3 } = some ((0, 0) : Rat × Rat)) ∧
    (({ kind := 2, w := [19327352832, 0, 0, 0, 0, 0, 0, 0, 0, 0, 0, 17179869184], valid := true } : AleSnap).suits = true ∧
      ({ kind := 2, w := [19327352832, 0, 0, 0, 0, 0, 0, 0, 0, 0, 0, 17179869184], valid := true } : AleSnap).get ALE_CFG.mode = 2 ∧
      ({ kind := 2, w := [19327352832, 0, 0, 0, 0, 0, 0, 0, 0, 0, 0, 17179869184], valid := true } : AleSnap).valid = true ∧
      ({ kind := 2, w := [19327352832, 0, 0, 0, 0, 0, 0, 0, 0, 0, 0, 17179869184], valid := true } : AleSnap).angle { ({} : AleSt) with mode := 2 } = some ((0, 0) : Rat × Rat)) ∧
    ((State.reset).get (pPwm 95) PWM_ENV_DUTY.lo ≤ min 1024 ((State.reset).get (pPwm 95) PWM_ENV_DUTY.hi) ∧
      ((State.reset).get (pPwm 95) PWM_ENV_DUTY.lo * 1 + 1023) / 1024 ≤ min 1024 ((State.reset).get (pPwm 95) PWM_ENV_DUTY.hi) * 1 / 1024) ∧
    (w168.clockOff (pAle 95) = false ∧ w168.get (pAle 95) PAGE_CTL.en = 1 ∧ w168.get (pAle 95) ALE_REF_CTL.cpend = 1 ∧ (w168.al 95).wake = none) ∧
    (((State.reset).get (pAle 95) PAGE_CTL.en = 0 ∨ (State.reset).clockOff (pAle 95) = true)) ∧
    ((State.reset).takes (pAle 95 + 0x13) ∧ 95 < 96) ∧
    ((State.reset).takes (pAle 95 + 0x10) ∧ 95 < 96 ∧ ((4 ≤ fldGet (0 : Word).toNat ALE_CFG.mode ∨ fldGet (0 : Word).toNat ALE_CFG.vbus = 1 ∧
      fldGet (0 : Word).toNat ALE_CFG.ish = 0 ∨ fldGet (0 : Word).toNat ALE_CFG.maxinv = 0))) ∧
    ((State.reset).takes (pAle 95 + 0x10) ∧ 95 < 96 ∧ fldGet (0x1 : Word).toNat ALE_CFG.mode < 4 ∧
      ((fldGet (0x1 : Word).toNat ALE_CFG.vbus = 0 ∨ fldGet (0x1 : Word).toNat ALE_CFG.ish = 1)) ∧ fldGet (0x1 : Word).toNat ALE_CFG.maxinv ≠ 0) ∧
    (w169.clockOff (pAle 95) = false ∧ w169.get (pAle 95) PAGE_CTL.en = 1 ∧ w169.get (pPwm 95) PWM_SD_STAT.valid = 0 ∧
      w169.get (pAle 95) ALE_CFG.wake = 0) := by
  refine ⟨?_, ?_, ?_, ?_, ?_, ?_, ?_, ?_, ?_, ?_, ?_, ?_, ?_, ?_, ?_, ?_, ?_, ?_, ?_, ?_, ?_⟩ <;> decide +kernel

/-- What the clauses of FeedbackCounts assume can be met. -/
theorem wit_FeedbackCounts :
    ((State.reset).takes (pFbk 95 + 0x10) ∧ 95 < 96 ∧ (State.reset).fbkWordOk 95 0x10 (0 : Word).toNat = false) ∧
    (w170.takes (pFbk 95 + 0x10) ∧ 95 < 96 ∧ fldGet (0x200000100 : Word).toNat FBK_CFG.mode < 6 ∧
      0 < fldGet (0x200000100 : Word).toNat FBK_CFG.filt ∧ w170.get (pFbk 95) PAGE_CTL.en = 0) ∧
    (w171.takes (pFbk 95 + 0x10) ∧ 95 < 96 ∧ w171.get (pFbk 95) PAGE_CTL.en = 1 ∧
      ((∀ f ∈ [FBK_CFG.mode, FBK_CFG.dir, FBK_CFG.lfen, FBK_CFG.filt], fldGet (0x2000400 : Word).toNat f = w171.get (pFbk 95) f)) ∧
      fldGet (0x2000400 : Word).toNat FBK_CFG.mode < 6 ∧ 0 < fldGet (0x2000400 : Word).toNat FBK_CFG.filt) ∧
    (w171.takes (pFbk 95 + 0x10) ∧ 95 < 96 ∧ w171.get (pFbk 95) PAGE_CTL.en = 1 ∧
      fldGet (0x200000100 : Word).toNat FBK_CFG.mode ≠ w171.get (pFbk 95) FBK_CFG.mode ∧ fldGet (0x200000100 : Word).toNat FBK_CFG.mode < 6 ∧
      0 < fldGet (0x200000100 : Word).toNat FBK_CFG.filt) ∧
    ((State.reset).fbkMode 95 ≠ 1 ∧ (State.reset).fbkMode 95 ≠ 2) ∧
    (95 < 96 ∧ ((w172.fbkMode 95 = 1 ∨ w172.fbkMode 95 = 2)) ∧ (w172.fb 95).ab = none ∧ (w172.fb 95).pend = []) ∧
    (95 < 96 ∧ ((w173.fbkMode 95 = 1 ∨ w173.fbkMode 95 = 2)) ∧ (w173.fb 95).pend = [] ∧ (w173.fb 95).faults = [] ∧
      (w173.fb 95).ab = some (!false, !false)) ∧
    (95 < 96 ∧ ((w174.fbkMode 95 = 1 ∨ w174.fbkMode 95 = 2)) ∧ (w174.fb 95).pend = [] ∧ (w174.fb 95).faults = [] ∧
      (w174.fb 95).ab = some (true, false) ∧ (((true, false).1 = false ∨ (true, false).2 = false)) ∧ (true, false) ≠ (false, false)) ∧
    (-(2 ^ 35) * ((State.reset).fbkK 95 : Int) ≤ ((State.reset).fb 95).n + (0 : Int) ∧
      ((State.reset).fb 95).n + (0 : Int) < 2 ^ 35 * ((State.reset).fbkK 95 : Int)) ∧
    (0 < (4000 : Int)) ∧
    (((State.reset).get (pFbk 95) FBK_CFG.lfen = 0 ∨ usedInput ((State.reset).fbkMode 95) 1 = false)) ∧
    (95 < 96 ∧ w175.get (pFbk 95) FBK_CFG.lfen = 1 ∧ usedInput (w175.fbkMode 95) 2 = true) ∧
    (2 ∈ (w176.fb 95).faults) ∧
    ((w177.fb 95).ab = some (true, false) ∧ 0 ∈ (w177.fb 95).faults) ∧
    ((w178.fb 95).ab = some (true, false) ∧ 1 ∈ (w178.fb 95).faults) ∧
    (95 < 96 ∧ w179.get (pFbk 95) FBK_CFG.lfen = 1 ∧ usedInput (w179.fbkMode 95) 2 = true ∧ 2 ∉ (w179.fb 95).faults) ∧
    ((State.reset).takes (pFbk 95 + 0x1C) ∧ ((State.reset).fbkMode 95 = 0 ∨ (State.reset).fbkMode 95 = 5)) ∧
    (w180.takes (pFbk 95 + 0x1C) ∧ 95 < 96 ∧ ((w180.fbkMode 95 = 2 ∨ w180.fbkMode 95 = 3 ∨ w180.fbkMode 95 = 4)) ∧
      w180.get (pFbk 95) FBK_CMP_CTL.en = 0 ∧ ((∀ e < 96, w180.fbkMode e ≠ 5))) ∧
    (w181.takes (pFbk 95 + 0x1C) ∧ 95 < 96 ∧ w181.fbkMode 95 = 1 ∧ w181.get (pFbk 95) FBK_CMP_CTL.en = 0 ∧ ((∀ e < 96, w181.fbkMode e ≠ 5))) ∧
    (0 < (4000 : Int) ∧ 0 ≤ (0 : Int) ∧ (0 : Int) < 2 ^ 36) ∧
    ((State.reset).takes (pFbk 95 + 0x1C) ∧ 95 < 96 ∧ ((State.reset).fb 95).uncAt ≠ some (State.reset).now) ∧
    (w182.takes (pFbk 95 + 0x1C) ∧ (w182.fb 95).uncAt = some w182.now) ∧
    ((State.reset).takes (pFbk 95 + 0x1F) ∧ 63 < 64 ∧ 95 < 96) := by
  refine ⟨?_, ?_, ?_, ?_, ?_, ?_, ?_, ?_, ?_, ?_, ?_, ?_, ?_, ?_, ?_, ?_, ?_, ?_, ?_, ?_, ?_, ?_, ?_⟩ <;> decide +kernel

/-- What the clauses of FeedbackIndexAndFrames assume can be met. -/
theorem wit_FeedbackIndexAndFrames :
    ((State.reset).indexQualifies 95 = false) ∧
    (95 < 96 ∧ w183.indexQualifies 95 = true) ∧
    (0 < (4 : Int)) ∧
    (w184.get (pFbk 95) FBK_IDX_CFG.policy = 1 ∧ w184.get (pFbk 95) FBK_BLK.ref = 0 ∧ (w184.fb 95).loadAt = none) ∧
    (w185.get (pFbk 95) FBK_IDX_CFG.policy = 1 ∧ w185.get (pFbk 95) FBK_BLK.ref = 1 ∧ (0 : Int).natAbs ≤ w185.get (pFbk 95) FBK_IDX_CFG.tol) ∧
    (w186.get (pFbk 95) FBK_IDX_CFG.policy = 1 ∧ w186.get (pFbk 95) FBK_BLK.ref = 1 ∧ (w186.fb 95).loadAt = none ∧
      w186.get (pFbk 95) FBK_IDX_CFG.tol < (70000 : Int).natAbs) ∧
    (w187.get (pFbk 95) FBK_IDX_CFG.policy = 0) ∧
    (95 < 96 ∧ ((State.reset).fb 95).faults.contains 2 = false) ∧
    ((w188.fb 95).faults.contains 2 = true) ∧
    ((State.reset).fbkMode 95 ≠ 2) ∧
    (w189.clockOff (pFbk 95) = false ∧ 95 < 96 ∧ w189.fbkMode 95 = 2 ∧ w189.get (pFbk 95) FBK_BLK.phist = 0 ∧
      w189.get (pFbk 95) FBK_SC_AMP.lo ≤ scA2 (w189.scValues 95 (16384 : Int) (0 : Int)) ∧
      scA2 (w189.scValues 95 (16384 : Int) (0 : Int)) ≤ w189.get (pFbk 95) FBK_SC_AMP.hi) ∧
    (w190.clockOff (pFbk 95) = false ∧ 95 < 96 ∧ w190.fbkMode 95 = 2 ∧ w190.get (pFbk 95) FBK_BLK.phist = 0 ∧
      ((scA2 (w190.scValues 95 (0 : Int) (0 : Int)) < w190.get (pFbk 95) FBK_SC_AMP.lo ∨ w190.get (pFbk 95) FBK_SC_AMP.hi < scA2 (w190.scValues 95 (0 : Int) (0 : Int))))) ∧
    (w191.clockOff (pFbk 95) = false ∧ 95 < 96 ∧ w191.fbkMode 95 = 2 ∧ w191.get (pFbk 95) FBK_BLK.phist = 1 ∧
      w191.get (pFbk 95) FBK_SC_AMP.lo ≤ scA2 (w191.scValues 95 (16384 : Int) (0 : Int)) ∧
      scA2 (w191.scValues 95 (16384 : Int) (0 : Int)) ≤ w191.get (pFbk 95) FBK_SC_AMP.hi) ∧
    ((State.reset).fbkMode 95 ≠ 3 ∧ (State.reset).fbkMode 95 ≠ 4) ∧
    ((w192.fb 95).pend = []) ∧
    (w193.clockOff (pFbk 95) = false ∧ 95 < 96 ∧ w193.fbkMode 95 = 3 ∧ (w193.fb 95).pend = ({} : PendLatch) :: ([] : List PendLatch) ∧
      ({} : PendLatch).ended = false ∧ w193.frameFits 95 ({ idleHigh := false } : SerialFrame) = true ∧
      frameCause 3 (w193.get (pFbk 95) FBK_SER_TIM.tmo) ({ idleHigh := false } : SerialFrame) ≠ 0 ∧ (w193.fb 95).bads ≠ 2) ∧
    ((State.reset).frameFits 95 ({} : SerialFrame) = false) ∧
    (w194.clockOff (pFbk 95) = false ∧ 95 < 96 ∧ w194.fbkMode 95 = 4 ∧ (w194.fb 95).pend = ({} : PendLatch) :: ([] : List PendLatch) ∧
      ({} : PendLatch).ended = false ∧ ({ start := none } : SerialFrame).started (w194.get (pFbk 95) FBK_SER_TIM.tmo) = false ∧
      ({ start := none } : SerialFrame).accessEnd = none ∧ (w194.fb 95).bads ≠ 2) ∧
    (w195.clockOff (pFbk 95) = false ∧ 95 < 96 ∧ w195.fbkMode 95 = 3 ∧ (w195.fb 95).pend = ({} : PendLatch) :: ([] : List PendLatch) ∧
      ({} : PendLatch).ended = false ∧ w195.frameFits 95 ({} : SerialFrame) = true ∧
      frameCause 3 (w195.get (pFbk 95) FBK_SER_TIM.tmo) ({} : SerialFrame) = 0 ∧ w195.get (pFbk 95) FBK_CMP_CTL.en = 0 ∧
      ((∀ e < 96, w195.fbkMode e ≠ 5))) ∧
    (w196.clockOff (pFbk 95) = false ∧ 95 < 96 ∧ w196.fbkMode 95 = 4 ∧ (w196.fb 95).pend = ({} : PendLatch) :: ([] : List PendLatch) ∧
      ({} : PendLatch).ended = false ∧ w196.frameFits 95 ({ slaves := [{ nE := true, nW := true, crc := 58 }] } : SerialFrame) = true ∧
      frameCause 4 (w196.get (pFbk 95) FBK_SER_TIM.tmo) ({ slaves := [{ nE := true, nW := true, crc := 58 }] } : SerialFrame) = 0 ∧
      ({ slaves := [{ nE := true, nW := true, crc := 58 }] } : SerialFrame).accessEnd = none ∧ w196.get (pFbk 95) FBK_CMP_CTL.en = 0 ∧
      ((∀ e < 96, w196.fbkMode e ≠ 5))) ∧
    (w197.takes (pFbk 95 + 0x2C) ∧ 95 < 96 ∧ fldGet (0x800000000 : Word).toNat FBK_BISS_REQ.go = 1 ∧ (w197.fb 95).biss = true) ∧
    (w198.takes (pFbk 95 + 0x2C) ∧ 95 < 96 ∧ fldGet (0x800000000 : Word).toNat FBK_BISS_REQ.go = 1 ∧ (w198.fb 95).biss = false) ∧
    ((State.reset).takes (pFbk 95 + 0x2C) ∧ 95 < 96 ∧ fldGet (0x0 : Word).toNat FBK_BISS_REQ.go = 0) := by
  refine ⟨?_, ?_, ?_, ?_, ?_, ?_, ?_, ?_, ?_, ?_, ?_, ?_, ?_, ?_, ?_, ?_, ?_, ?_, ?_, ?_, ?_, ?_, ?_⟩ <;> decide +kernel

/-- What the clauses of FeedbackLatchesAndSupply assume can be met. -/
theorem wit_FeedbackLatchesAndSupply :
    ((w192.fb 95).pend = []) ∧
    ((w199.fb 95).pend = ({} : PendLatch) :: ([] : List PendLatch) ∧ setComplete w199.now (w199.fbkMode 95) ({} : PendLatch) = false) ∧
    (w200.clockOff (pFbk 95) = false ∧ 95 < 96 ∧ (w200.fb 95).pend = ({ ended := true } : PendLatch) :: ([] : List PendLatch) ∧
      setComplete w200.now (w200.fbkMode 95) ({ ended := true } : PendLatch) = true ∧ ({ ended := true } : PendLatch).prism = false ∧
      w200.fbkOutside 95 (w200.formSet 95 ({ ended := true } : PendLatch)) = false ∧ Tab.get (fun _ => none) w200.stream 95 = none) ∧
    (w201.clockOff (pFbk 95) = false ∧ 95 < 96 ∧ (w201.fb 95).pend = ({ ended := true, prism := true } : PendLatch) :: ([] : List PendLatch) ∧
      setComplete w201.now (w201.fbkMode 95) ({ ended := true, prism := true } : PendLatch) = true ∧
      ({ ended := true, prism := true } : PendLatch).prism = true ∧
      w201.fbkOutside 95 (w201.formSet 95 ({ ended := true, prism := true } : PendLatch)) = false) ∧
    (w202.clockOff (pFbk 95) = false ∧ 95 < 96 ∧
      (w202.fb 95).pend = ({ ended := true, spd := some 5, shist := true } : PendLatch) :: ([] : List PendLatch) ∧
      setComplete w202.now (w202.fbkMode 95) ({ ended := true, spd := some 5, shist := true } : PendLatch) = true ∧
      w202.fbkOutside 95 (w202.formSet 95 ({ ended := true, spd := some 5, shist := true } : PendLatch)) = true) ∧
    ((State.reset).t64 0 < ((State.reset).fb 95).lastL + 6400000) ∧
    (w203.clockOff (pFbk 95) = false ∧ 95 < 96 ∧ (w203.fb 95).lastL + 6400000 ≤ w203.t64 0 ∧
      ((w203.fbkMode 95 = 1 ∨ w203.fbkMode 95 = 2 ∨ (w203.fbkMode 95 = 3 ∨ w203.fbkMode 95 = 4) ∧ w203.fbkBusy 95 = false))) ∧
    (inRange (w204.fbkMode 95) 1 4 = true ∧ ({} : PendLatch) ∈ (w204.fb 95).pend ∧ ({} : PendLatch).at_ = w204.now) ∧
    (w205.clockOff (pFbk 95) = false ∧ 95 < 96 ∧ (w205.fb 95).lastL + 6400000 ≤ w205.t64 0 ∧ ((w205.fbkMode 95 = 3 ∨ w205.fbkMode 95 = 4)) ∧
      w205.now < (w205.fb 95).wait) ∧
    (((State.reset).fbkMode 95 = 0 ∨ (State.reset).fbkMode 95 = 5)) ∧
    ((State.reset).takes (pFbk 95 + 0x48) ∧ 63 < 64 ∧ 95 < 96) ∧
    ((((State.reset).fbkMode 95 ≠ 5 ∨ (State.reset).emuHeld 95 = true ∨ (State.reset).emuTarget 95 = ((State.reset).fb 95).out ∨ (State.reset).now < ((State.reset).fb 95).outAt + (State.reset).get (pFbk 95) FBK_EMU.minsp))) ∧
    (w206.clockOff (pFbk 95) = false ∧ 95 < 96 ∧ w206.fbkMode 95 = 5 ∧ w206.emuHeld 95 = false ∧ w206.emuTarget 95 ≠ (w206.fb 95).out ∧
      (w206.fb 95).outAt + w206.get (pFbk 95) FBK_EMU.minsp ≤ w206.now) ∧
    ((State.reset).clockOff (pFbk 95) = false ∧ 95 < 96) ∧
    ((State.reset).takes (pFbk 95 + 0x3C) ∧ 95 < 96 ∧
      ((fldGet (0 : Word).toNat FBK_SUP.sel = 3 ∨ fldGet (0 : Word).toNat FBK_SUP.budget = 0 ∨ 35 < fldGet (0 : Word).toNat FBK_SUP.budget))) ∧
    (w207.takes (pFbk 95 + 0x3C) ∧ 95 < 96 ∧ fldGet (0xA00230000 : Word).toNat FBK_SUP.sel < 3 ∧
      fldGet (0xA00230000 : Word).toNat FBK_SUP.sel ≠ 0 ∧ 1 ≤ fldGet (0xA00230000 : Word).toNat FBK_SUP.budget ∧
      fldGet (0xA00230000 : Word).toNat FBK_SUP.budget ≤ 35 ∧ w207.olSealed = false ∧ w207.get (pFbk 95) FBK_SUP.en = 0 ∧
      fldGet (0xA00230000 : Word).toNat FBK_SUP.en = 1 ∧
      w207.supTotal + supPower (fldGet (0xA00230000 : Word).toNat FBK_SUP.sel) (fldGet (0xA00230000 : Word).toNat FBK_SUP.budget) ≤ 6000) ∧
    (w208.takes (pFbk 95 + 0x3C) ∧ 95 < 96 ∧ fldGet (0x200230000 : Word).toNat FBK_SUP.sel < 3 ∧
      1 ≤ fldGet (0x200230000 : Word).toNat FBK_SUP.budget ∧ fldGet (0x200230000 : Word).toNat FBK_SUP.budget ≤ 35 ∧ w208.olSealed = false ∧
      w208.get (pFbk 95) FBK_SUP.en = 0 ∧ fldGet (0x200230000 : Word).toNat FBK_SUP.en = 1 ∧
      ((fldGet (0x200230000 : Word).toNat FBK_SUP.sel = 0 ∨ 6000 < w208.supTotal + supPower (fldGet (0x200230000 : Word).toNat FBK_SUP.sel) (fldGet (0x200230000 : Word).toNat FBK_SUP.budget)))) ∧
    (w209.takes (pFbk 95 + 0x3C) ∧ 95 < 96 ∧ w209.olSealed = false ∧ w209.get (pFbk 95) FBK_SUP.en = 1 ∧
      fldGet (0x200230000 : Word).toNat FBK_SUP.en = 1 ∧ fldGet (0x200230000 : Word).toNat FBK_SUP.budget = w209.get (pFbk 95) FBK_SUP.budget ∧
      1 ≤ fldGet (0x200230000 : Word).toNat FBK_SUP.budget ∧ fldGet (0x200230000 : Word).toNat FBK_SUP.budget ≤ 35 ∧
      fldGet (0x200230000 : Word).toNat FBK_SUP.sel < 3 ∧
      ((fldGet (0x200230000 : Word).toNat FBK_SUP.sel = 0 ∨ 6000 < w209.supOthers 95 + supPower (fldGet (0x200230000 : Word).toNat FBK_SUP.sel) (fldGet (0x200230000 : Word).toNat FBK_SUP.budget)))) ∧
    (w210.takes (pFbk 95 + 0x3C) ∧ 95 < 96 ∧ fldGet (0x230000 : Word).toNat FBK_SUP.sel < 3 ∧ w210.get (pFbk 95) FBK_SUP.en = 1 ∧
      fldGet (0x230000 : Word).toNat FBK_SUP.en = 0 ∧ 1 ≤ fldGet (0x230000 : Word).toNat FBK_SUP.budget ∧
      fldGet (0x230000 : Word).toNat FBK_SUP.budget ≤ 35 ∧ fldGet (0x230000 : Word).toNat FBK_SUP.budget = w210.get (pFbk 95) FBK_SUP.budget) ∧
    (w211.get (pFbk 95) FBK_SUP.en = 0) ∧
    (95 < 96 ∧ w212.get (pFbk 95) FBK_SUP.en = 1) ∧
    (95 < 96 ∧ w212.get (pFbk 95) FBK_SUP.en = 1 ∧ ((11 * w212.get (pFbk 95) FBK_SUP.budget < 999 ∨ 400 < 999))) ∧
    (w210.get (pFbk 95) FBK_SUP.en = 1 ∧ 385 ≤ 11 * w210.get (pFbk 95) FBK_SUP.budget ∧ 385 ≤ 400) ∧
    (95 < 96 ∧ w212.get (pFbk 95) FBK_SUP.en = 1) := by
  refine ⟨?_, ?_, ?_, ?_, ?_, ?_, ?_, ?_, ?_, ?_, ?_, ?_, ?_, ?_, ?_, ?_, ?_, ?_, ?_, ?_, ?_, ?_, ?_, ?_⟩ <;> decide +kernel

/-- What the clauses of MotionCommands assume can be met. -/
theorem wit_MotionCommands :
    (w213.takes (pProf 95 + 0x18) ∧ 95 < 96 ∧ w213.get (pProf 95) PAGE_CTL.en = 1 ∧
      w213.profCode 95 true (some (w213.tgtWords 95)) (w213.firstMotion 95 (w213.tgtWords 95 - (w213.setpoint 95).1)) false false = 1) ∧
    (w214.takes (pProf 95 + 0x18) ∧ 95 < 96 ∧ w214.get (pProf 95) PAGE_CTL.en = 1 ∧
      w214.profCode 95 true (some (w214.tgtWords 95)) (w214.firstMotion 95 (w214.tgtWords 95 - (w214.setpoint 95).1)) false false ≠ 1) ∧
    (w213.takes (pProf 95 + 0x18) ∧ 95 < 96 ∧ w213.get (pProf 95) PAGE_CTL.en = 1 ∧
      w213.profCode 95 false (some ((w213.pr 95).target.getD (w213.setpoint 95).1 + w213.tgtWords 95)) (w213.firstMotion 95 ((w213.pr 95).target.getD (w213.setpoint 95).1 + w213.tgtWords 95 - (w213.setpoint 95).1)) false false = 1) ∧
    (w214.takes (pProf 95 + 0x18) ∧ 95 < 96 ∧ w214.get (pProf 95) PAGE_CTL.en = 1 ∧
      w214.profCode 95 false (some ((w214.pr 95).target.getD (w214.setpoint 95).1 + w214.tgtWords 95)) (w214.firstMotion 95 ((w214.pr 95).target.getD (w214.setpoint 95).1 + w214.tgtWords 95 - (w214.setpoint 95).1)) false false ≠ 1) ∧
    (w213.takes (pProf 95 + 0x18) ∧ 95 < 96 ∧ w213.get (pProf 95) PAGE_CTL.en = 1 ∧
      w213.profCode 95 false none (w213.firstMotion 95 (fixRat 16 (w213.get (pProf 95) PROF_JOG.v))) false false = 1) ∧
    (w214.takes (pProf 95 + 0x18) ∧ 95 < 96 ∧ w214.get (pProf 95) PAGE_CTL.en = 1 ∧
      w214.profCode 95 false none (w214.firstMotion 95 (fixRat 16 (w214.get (pProf 95) PROF_JOG.v))) false false ≠ 1) ∧
    (w215.takes (pProf 95 + 0x18) ∧ 95 < 96 ∧ w215.get (pProf 95) PAGE_CTL.en = 1 ∧ (w215.pr 95).pts = ({} : StreamPt) :: ([] : List StreamPt) ∧
      w215.profCode 95 false none (w215.firstMotion 95 (({} : StreamPt).p - (w215.setpoint 95).1)) true false = 1) ∧
    (w216.takes (pProf 95 + 0x18) ∧ 95 < 96 ∧ w216.get (pProf 95) PAGE_CTL.en = 1 ∧ (w216.pr 95).pts = [] ∧ w216.homing 95 = false ∧
      w216.profHeld 95 = false ∧ w216.limitBlocks 95 (w216.firstMotion 95 0) = false) ∧
    (w217.takes (pProf 95 + 0x18) ∧ 95 < 96 ∧ w217.get (pProf 95) PAGE_CTL.en = 1 ∧ w217.homing 95 = false ∧ w217.profHeld 95 = false ∧
      w217.homeBad 95 = false ∧ w217.limitBlocks 95 0 = false ∧ w217.homeBlocked 95 (w217.firstMotion 95 (w217.homeStart 95).2) = false) ∧
    (w213.takes (pProf 95 + 0x18) ∧ 95 < 96 ∧ w213.get (pProf 95) PAGE_CTL.en = 1 ∧ w213.homing 95 = false ∧ w213.profHeld 95 = false ∧
      w213.homeBad 95 = true ∧ w213.limitBlocks 95 0 = false) ∧
    (w218.takes (pProf 95 + 0x18) ∧ w218.takes (pProf 95 + 0x35) ∧ w218.get (pProf 95) PAGE_CTL.en = 0) ∧
    (w219.takes (pProf 95 + 0x18) ∧ 95 < 96 ∧ w219.get (pProf 95) PAGE_CTL.en = 1 ∧ (w219.pr 95).doneAt = some w219.now) ∧
    (w220.takes (pProf 95 + 0x18) ∧ 95 < 96 ∧ w220.get (pProf 95) PAGE_CTL.en = 1 ∧ (w220.pr 95).doneAt ≠ some w220.now ∧
      w220.get (pProf 95) PROF_BLK.busy = 0 ∧ (w220.pr 95).cmd = .none) ∧
    (w221.takes (pProf 95 + 0x18) ∧ 95 < 96 ∧ w221.get (pProf 95) PAGE_CTL.en = 1 ∧ (w221.pr 95).doneAt ≠ some w221.now ∧
      w221.get (pProf 95) PROF_BLK.busy = 1 ∧ w221.homing 95 = false ∧ (w221.pr 95).goal ≠ .rest) ∧
    (w214.takes (pProf 95 + 0x18) ∧ 95 < 96 ∧ w214.get (pProf 95) PAGE_CTL.en = 1 ∧ w214.homing 95 = false) ∧
    (w222.takes (pProf 95 + 0x18) ∧ 95 < 96 ∧ w222.get (pProf 95) PAGE_CTL.en = 1 ∧ w222.homing 95 = true) ∧
    (w213.takes (pProf 95 + 0x18) ∧ 95 < 96 ∧ w213.get (pProf 95) PAGE_CTL.en = 1 ∧ w213.homing 95 = false ∧ w213.profHeld 95 = false ∧
      (w213.setpoint 95).2.1 = 0) ∧
    (w223.takes (pProf 95 + 0x18) ∧ 95 < 96 ∧ w223.get (pProf 95) PAGE_CTL.en = 1 ∧
      ((w223.profHeld 95 = true ∨ w223.homing 95 = true ∨ (w223.setpoint 95).2.1 ≠ 0))) ∧
    (w224.takes (pProf 95 + 0x35) ∧ 95 < 96 ∧ w224.get (pProf 95) PAGE_CTL.en = 1 ∧ 8 ≤ (w224.pr 95).pts.length) ∧
    (w225.takes (pProf 95 + 0x35) ∧ 95 < 96 ∧ w225.get (pProf 95) PAGE_CTL.en = 1 ∧ (w225.pr 95).pts = [] ∧
      t72 (w225.get (pProf 95) PROF_SP_THI.t) (w225.get (pProf 95) PROF_SP_TLO.t) < w225.t64 4 + 128000) ∧
    (w226.takes (pProf 95 + 0x35) ∧ 95 < 96 ∧ w226.get (pProf 95) PAGE_CTL.en = 1 ∧ (w226.pr 95).pts = [] ∧
      w226.t64 4 + 128000 ≤ t72 (w226.get (pProf 95) PROF_SP_THI.t) (w226.get (pProf 95) PROF_SP_TLO.t) ∧
      w226.get (pProf 95) PROF_ENV_CTL.ven = 0 ∧ w226.get (pProf 95) PROF_ENV_CTL.pwin = 0) := by
  refine ⟨?_, ?_, ?_, ?_, ?_, ?_, ?_, ?_, ?_, ?_, ?_, ?_, ?_, ?_, ?_, ?_, ?_, ?_, ?_, ?_, ?_⟩ <;> decide +kernel

/-- What the clauses of MotionGenerator assume can be met. -/
theorem wit_MotionGenerator :
    (((State.reset).get (pProf 95) PAGE_CTL.en = 0 ∨ (State.reset).t64 0 % 64000 ≠ 0)) ∧
    (w227.clockOff (pProf 95) = false ∧ 95 < 96 ∧ w227.get (pProf 95) PAGE_CTL.en = 1 ∧ w227.t64 0 % 64000 = 0 ∧ (w227.pr 95).cmd = .none ∧
      (w227.pr 95).load = none ∧ (w227.pr 95).goal = .rest ∧ (w227.pr 95).plan = [] ∧ (w227.pr 95).cross = [] ∧ (w227.pr 95).waits = [] ∧
      (w227.pr 95).base = none ∧ (w227.pr 95).resDue = none ∧ w227.get (pPwm 95) PWM_CFG.kind = 1 ∧ w227.get (pProf 95) PROF_BLK.hstate = 0 ∧
      w227.get (pProf 95) PROF_ENV_CTL.ven = 0 ∧ w227.get (pProf 95) PROF_ENV_CTL.aen = 0 ∧ w227.get (pProf 95) PROF_ENV_CTL.pwin = 0) ∧
    ((w228.pr 95).cmd = .move (0 : Rat)) ∧
    ((w229.pr 95).cmd = .jog (0 : Rat)) ∧
    ((w230.pr 95).cmd = .home) ∧
    ((w231.pr 95).load = some (0 : Rat) ∧ (w231.setpoint 95).2.1 = 0 ∧ (w231.pr 95).goal ≠ .stream) ∧
    ((w232.pr 95).load = some (0 : Rat) ∧ (w232.setpoint 95).2.1 ≠ 0) ∧
    ((((State.reset).pr 95).last = none ∨ ((State.reset).pr 95).under = false)) ∧
    ((w233.pr 95).last = some ({} : StreamPt) ∧ w233.t64 4 < ({} : StreamPt).t64 + 64000 * w233.get (pProf 95) PROF_SP_CTL.hold) ∧
    (w234.clockOff (pProf 95) = false ∧ 95 < 96 ∧ (w234.pr 95).last = some ({ t64 := 100 } : StreamPt) ∧ (w234.pr 95).goal = .stream ∧
      (w234.pr 95).under = true ∧ (w234.pr 95).pts = [] ∧
      ({ t64 := 100 } : StreamPt).t64 + 64000 * w234.get (pProf 95) PROF_SP_CTL.hold ≤ w234.t64 4) ∧
    (((State.reset).get (pPwm 95) PWM_CFG.kind ≠ 3 ∨ (State.reset).padBlocked 95 = true ∨ ((State.reset).pw 95).padHold = true ∨ ((State.reset).pr 95).waits = [] ∨ ((State.reset).pr 95).stepHigh = true)) ∧
    (w235.clockOff (pProf 95) = false ∧ 95 < 96 ∧ w235.get (pProf 95) PAGE_CTL.en = 1 ∧ w235.get (pPwm 95) PWM_CFG.kind = 3 ∧
      w235.padBlocked 95 = false ∧ (w235.pw 95).padHold = false ∧ w235.stepReady 95 = true ∧ (w235.pr 95).waits = true :: ([] : List Bool) ∧
      (w235.pr 95).goal = .rest) ∧
    ((w236.pr 95).riseAt = some 100 ∧ w236.now < 100 + 4 * (w236.get (pProf 95) PROF_STEPT.pw + w236.get (pProf 95) PROF_STEPT.minlo)) ∧
    ((w237.pr 95).dirAt = some 100 ∧ w237.now < 100 + 40 * w237.get (pProf 95) PROF_STEPT.tsu) ∧
    ((w238.pr 95).waits = false :: ([] : List Bool) ∧ (w238.pr 95).dirPos ≠ false ∧ w238.padBlocked 95 = false ∧ (w238.pw 95).padHold = false ∧
      ((∀ t0, (w238.pr 95).riseAt = some t0 → t0 + 40 * w238.get (pProf 95) PROF_STEPT.th ≤ w238.now))) ∧
    (((∀ up w, (w239.pr 95).waits = up :: w → (w239.pr 95).dirPos = up))) ∧
    ((w236.pr 95).riseAt = some 100 ∧ w236.now < 100 + 40 * w236.get (pProf 95) PROF_STEPT.th) ∧
    (((∀ e ∈ ((State.reset).pr 95).cross, (State.reset).now < e.1))) ∧
    (95 < 96 ∧ (w240.pr 95).cross = [(0, true)] ∧ 0 ≤ w240.now) ∧
    ((w241.pr 95).goal = .stream ∧ (w241.pr 95).under = false ∧ (w241.pr 95).pts = [({} : StreamPt)] ∧ ({} : StreamPt).t64 ≤ w241.t64 4 ∧
      ({} : StreamPt).v = 0 ∧ 95 < 96) ∧
    ((w242.pr 95).goal = .stream ∧ (w242.pr 95).under = false ∧ (w242.pr 95).pts = ({} : StreamPt) :: ([{ t64 := 5 }] : List StreamPt) ∧
      ([{ t64 := 5 }] : List StreamPt) ≠ [] ∧ ({} : StreamPt).t64 ≤ w242.t64 4 ∧ 95 < 96) ∧
    ((w243.pr 95).pts = ({ t64 := 100 } : StreamPt) :: ([] : List StreamPt) ∧ w243.t64 4 < ({ t64 := 100 } : StreamPt).t64) ∧
    (w244.clockOff (pProf 95) = false ∧ 95 < 96 ∧ (w244.pr 95).stepHigh = true ∧ (w244.pr 95).riseAt = some 100 ∧
      100 + 4 * w244.get (pProf 95) PROF_STEPT.pw ≤ w244.now) ∧
    ((w236.pr 95).riseAt = some 100 ∧ w236.now < 100 + 4 * w236.get (pProf 95) PROF_STEPT.pw) ∧
    (((State.reset).get (pProf 95) PAGE_CTL.en = 0 ∨ (((State.reset).pr 95).inp 1).level = false ∨ (((State.reset).pr 95).inp 1).run < (State.reset).get (pProf 95) PROF_LIM.db)) ∧
    (w245.clockOff (pProf 95) = false ∧ 95 < 96 ∧ 1 < 2 ∧ w245.get (pProf 95) PAGE_CTL.en = 1 ∧ ((w245.pr 95).inp 1).level ≠ true ∧
      w245.get (pProf 95) PROF_LIM.db ≤ ((w245.pr 95).inp 1).run ∧ ((w245.pr 95).inp 1).last = none ∧ w245.homing 95 = false) ∧
    (w246.clockOff (pProf 95) = false ∧ 95 < 96 ∧ 1 < 2 ∧ w246.get (pProf 95) PAGE_CTL.en = 1 ∧ ((w246.pr 95).inp 1).level ≠ true ∧
      w246.get (pProf 95) PROF_LIM.db ≤ ((w246.pr 95).inp 1).run ∧ ((w246.pr 95).inp 1).last = some 100 ∧
      w246.t64 0 ≤ 100 + 64000 * w246.get (pProf 95) PROF_LIM.chold ∧ w246.homing 95 = false) ∧
    ((State.reset).limitBlocks 95 ((State.reset).setpoint 95).2.1 = false) ∧
    (limitS.limitBlocks 95 (limitS.setpoint 95).2.1 = true ∧ limitS.homing 95 = false ∧ limitS.get (pProf 95) PROF_CFG.lact = 0) ∧
    (w247.limitBlocks 95 (w247.setpoint 95).2.1 = true ∧ w247.homing 95 = true) ∧
    (w248.clockOff (pProf 95) = false ∧ 95 < 96 ∧ 1 < 2 ∧ ((w248.pr 95).inp 1).chatter = true ∧ ((w248.pr 95).inp 1).last = some 100 ∧
      100 + 64000 * w248.get (pProf 95) PROF_LIM.chold ≤ w248.t64 0) ∧
    ((((State.reset).pr 95).inp 1).chatter = false) ∧
    ((State.reset).takes (pProf 95 + 0x1A) ∧ 63 < 64 ∧ 95 < 96) ∧
    ((State.reset).takes (pProf 95 + 0x38) ∧ 63 < 64 ∧ 95 < 96) := by
  refine ⟨?_, ?_, ?_, ?_, ?_, ?_, ?_, ?_, ?_, ?_, ?_, ?_, ?_, ?_, ?_, ?_, ?_, ?_, ?_, ?_, ?_, ?_, ?_, ?_, ?_, ?_, ?_, ?_, ?_, ?_, ?_, ?_, ?_, ?_⟩
  · decide +kernel
  · decide +kernel
  · decide +kernel
  · decide +kernel
  · decide +kernel
  · decide +kernel
  · decide +kernel
  · decide +kernel
  · decide +kernel
  · decide +kernel
  · decide +kernel
  · decide +kernel
  · decide +kernel
  · decide +kernel
  · decide +kernel
  · exact fun up w h => by
      have e : ((w239).pr 95).waits = [true] := by decide +kernel
      rw [e] at h; cases h; decide +kernel
  · decide +kernel
  · decide +kernel
  · decide +kernel
  · decide +kernel
  · decide +kernel
  · decide +kernel
  · decide +kernel
  · decide +kernel
  · decide +kernel
  · decide +kernel
  · decide +kernel
  · decide +kernel
  · decide +kernel
  · decide +kernel
  · decide +kernel
  · decide +kernel
  · decide +kernel
  · decide +kernel

/-- What the clauses of PostsAndAcceptance assume can be met. -/
theorem wit_PostsAndAcceptance :
    (w249.wire = []) ∧
    (w250.nextPost = some ({} : Post)) ∧
    (w251.wire = ({} : Post) :: ([] : List Post)) ∧
    (w252.nextPost = some ({} : Post) ∧ pInnk0 ∈ w252.srstBusy) ∧
    (w253.nextPost = some ({} : Post) ∧ pInnk0 ∉ w253.srstBusy ∧ 64 ≤ w253.innk.queue.length) ∧
    (w250.nextPost = some ({} : Post) ∧ pInnk0 ∉ w250.srstBusy ∧ w250.innk.queue.length < 64) ∧
    ((State.reset).innk.queue.length ≤ 64) ∧
    (w254.innk.queue = []) ∧
    (w255.innk.queue = ({} : Post) :: ([] : List Post) ∧ ({} : Post).task < 512 ∧ ({} : Post).task ∈ w255.innk.cancelled) ∧
    (w256.innk.queue = ({} : Post) :: ([] : List Post) ∧ ({} : Post).task < 512 ∧ ({} : Post).task ∉ w256.innk.cancelled ∧
      w256.get (pTsk ({} : Post).task) TSK_CFG.en = 0) ∧
    (w257.innk.queue = ({} : Post) :: ([] : List Post) ∧ ({} : Post).task < 512 ∧ ({} : Post).task ∉ w257.innk.cancelled ∧
      w257.get (pTsk ({} : Post).task) TSK_CFG.en = 1 ∧ w257.get (pTsk ({} : Post).task) TSK_STAT.pend = 15) ∧
    (w258.innk.queue = ({} : Post) :: ([] : List Post) ∧ ({} : Post).task < 512 ∧ ({} : Post).task ∉ w258.innk.cancelled ∧
      w258.get (pTsk ({} : Post).task) TSK_CFG.en = 1 ∧ w258.get (pTsk ({} : Post).task) TSK_STAT.pend < 15) ∧
    (({} : Post).task < 512) := by
  refine ⟨?_, ?_, ?_, ?_, ?_, ?_, ?_, ?_, ?_, ?_, ?_, ?_, ?_⟩ <;> decide +kernel

/-- What the clauses of DispatchAndActivation assume can be met. -/
theorem wit_DispatchAndActivation :
    ((State.reset) = overAll ((List.range 512).filter (State.reset).listed) (State.reset) (fun t u => u.noteStuck t)) ∧
    (w259.readyOrder = [511] ∧ w259.affine 511 63 = true ∧ w259.idle 63 = true ∧ 63 < 64 ∧
      ((∀ d < 63, w259.affine 511 d = false ∨ w259.idle d = false))) ∧
    (63 < 64 ∧ (w260.co 63).assign = some 511 ∧ (w260.co 63).task = none ∧ w260.inNmi 63 = false ∧ w260.tskState 511 = 2) ∧
    (63 < 64 ∧ (w261.co 63).assign = some 511 ∧ (w261.co 63).task = none ∧ w261.inNmi 63 = false ∧ w261.tskState 511 = 4) ∧
    ((((State.reset).co 63).assign = none ∨ ((State.reset).co 63).task ≠ none)) ∧
    (63 < 64 ∧ 511 < 512 ∧ (w262.ta 511).posts = ({} : Post) :: ([] : List Post) ∧ 1 ≤ w262.get (pTsk 511) TSK_STAT.pend) ∧
    (63 < 64 ∧ 511 < 512) ∧
    (63 < 64 ∧ 511 < 512) ∧
    ((((State.reset).co 63).task = none ∨ (State.reset).drained 63 = false ∨ (State.reset).inNmi 63 = true ∨ ((State.reset).co 63).halted = true ∨ ((State.reset).co 63).preempt = none ∧ ((State.reset).co 63).evict = false ∨ (State.reset).get (pCore 63) CORE_NMI.pend = 1)) ∧
    (63 < 64 ∧ (w263.co 63).task = some 511 ∧ 511 < 512 ∧ w263.drained 63 = true ∧ w263.inNmi 63 = false ∧ (w263.co 63).drain = .none ∧
      (w263.co 63).halted = false ∧ w263.get (pCore 63) CORE_NMI.pend ≠ 1 ∧ (w263.co 63).preempt = none ∧ (w263.co 63).evict = true ∧
      (w263.co 63).orphan = false) ∧
    (63 < 64 ∧ (w264.co 63).task = some 1 ∧ w264.drained 63 = true ∧ w264.inNmi 63 = false ∧ (w264.co 63).drain = .none ∧
      (w264.co 63).halted = false ∧ w264.get (pCore 63) CORE_NMI.pend ≠ 1 ∧ (w264.co 63).preempt = some 7) ∧
    (({ epoch := 5 } : Post).epoch ≠ (State.reset).get pTime0 TIME_CT_STAT.epoch) ∧
    ((w265.co 63).task = some 511 ∧ (w265.ta 511).first = some ({} : Post) ∧ w265.inNmi 63 = false ∧ (w265.co 63).orphan = false) ∧
    (((((State.reset).co 63).task = none ∨ (State.reset).inNmi 63 = true ∨ ((State.reset).co 63).orphan = true ∨ ∃ t, ((State.reset).co 63).task = some t ∧ ((State.reset).ta t).first = none))) ∧
    ((((State.reset).get pInnk0 INNK_LOAD_CFG.en = 0 ∨ (State.reset).windowEnds (State.reset).loadLen (State.reset).innk.winStart = false))) ∧
    (w266.get pInnk0 INNK_LOAD_CFG.en = 1 ∧ w266.windowEnds w266.loadLen w266.innk.winStart = true) ∧
    ((w267.ta 511).stuck = false ∧ ((∀ c < 64, w267.affine 511 c = true → w267.usable c = false))) := by
  refine ⟨?_, ?_, ?_, ?_, ?_, ?_, ?_, ?_, ?_, ?_, ?_, ?_, ?_, ?_, ?_, ?_, ?_⟩ <;> decide +kernel

/-- What the clauses of InnkeeperCommands assume can be met. -/
theorem wit_InnkeeperCommands :
    ((State.reset).takes (pInnk0 + 0x10) ∧ 511 < 512 ∧ (((State.reset).tskState 511 = 0 ∨ 5 < (State.reset).tskState 511))) ∧
    (w268.takes (pInnk0 + 0x10) ∧ 511 < 512 ∧ 1 ≤ w268.tskState 511 ∧ w268.tskState 511 ≤ 5) ∧
    (w268.takes (pInnk0 + 0x10) ∧ 511 < 512 ∧ w268.tskState 511 ≠ 5) ∧
    (w269.takes (pInnk0 + 0x10) ∧ 511 < 512 ∧ w269.tskState 511 = 5) ∧
    ((State.reset).takes (pInnk0 + 0x10) ∧ 511 < 512 ∧ ((State.reset).tskState 511 ≠ 5 ∨ (State.reset).get (pTsk 511) TSK_STAT.ctxv = 0)) ∧
    (w270.takes (pInnk0 + 0x10) ∧ 511 < 512 ∧ w270.tskState 511 = 5 ∧ w270.get (pTsk 511) TSK_STAT.ctxv = 1) ∧
    ((State.reset).takes (pInnk0 + 0x10) ∧ 511 < 512 ∧ (State.reset).tskState 511 ≤ 5) ∧
    (w271.takes (pTsk 511) ∧ 511 < 512 ∧ fldGet (0x800000000 : Word).toNat TSK_CFG.en = 1 ∧ w271.tskState 511 ≠ 2 ∧ w271.tskState 511 ≠ 4) ∧
    (w272.takes (pTsk 511) ∧ 511 < 512 ∧ fldGet (0x800000000 : Word).toNat TSK_CFG.en = 1 ∧ (w272.tskState 511 = 2 ∨ w272.tskState 511 = 4)) ∧
    (w273.takes (pTsk 511) ∧ 511 < 512 ∧ fldGet (0x0 : Word).toNat TSK_CFG.en = 0 ∧ w273.tskState 511 = 4) ∧
    (w268.takes (pTsk 511) ∧ 511 < 512 ∧ fldGet (0x0 : Word).toNat TSK_CFG.en = 0 ∧ w268.tskState 511 ≠ 4) ∧
    ((State.reset).takes (pTsk 511 + 1) ∧ (State.reset).takes (pTsk 511 + 2) ∧ 511 < 512) ∧
    ((State.reset).takes (pTsk 511 + 63) ∧ 511 < 512 ∧ 8 ≤ 63 ∧ 63 < 64 ∧ ((State.reset).tskState 511 = 0 ∨ (State.reset).tskState 511 = 5)) ∧
    (w274.takes (pTsk 511 + 63) ∧ 511 < 512 ∧ 8 ≤ 63 ∧ 63 < 64 ∧ w274.tskState 511 ≠ 0 ∧ w274.tskState 511 ≠ 5) ∧
    (w254.innk.queue = []) ∧
    (w275.innk.queue = [({ cls := 1, src := 0x500 } : Post)] ∧ ({ cls := 1, src := 0x500 } : Post).cls = 1 ∧
      ({ cls := 1, src := 0x500 } : Post).src = 0x500) := by
  refine ⟨?_, ?_, ?_, ?_, ?_, ?_, ?_, ?_, ?_, ?_, ?_, ?_, ?_, ?_, ?_, ?_⟩ <;> decide +kernel

/-- What the clauses of RingLinksAndStates assume can be met. -/
theorem wit_RingLinksAndStates :
    (w276.flag (pRing 1) RING_P_STAT.up = true) ∧
    (9 < 10 ∧ w277.flag (pRing 9) RING_P_STAT.up = false) ∧
    (w278.rState ≠ 0) ∧
    (w279.rState = 0 ∧ w279.olSealed = true ∧ w279.flag pRing0 PAGE_CTL.en = true ∧
      ((w279.flag (pRing 0) RING_P_STAT.up = true ∨ w279.flag (pRing 1) RING_P_STAT.up = true))) ∧
    (((1 < 2 ∨ 10 ≤ 1 ∨ (State.reset).flag (pRing 1) RING_P_STAT.up = false))) ∧
    (2 ≤ 9 ∧ 9 < 10 ∧ w280.flag (pRing 9) RING_P_STAT.up = true) ∧
    ((((State.reset).flag (pRing 1) RING_P_STAT.up = false ∨ (State.reset).rState = 0))) ∧
    (((w281.flag pClk CLK_DOM_FIX.pdead = true ∨ w281.linkFrameFits 1 = false))) ∧
    (2 ≤ 2) ∧
    (w282.clockOff pRing0 = false ∧ 9 < 10 ∧ w282.flag (pRing 9) RING_P_STAT.up = true ∧ w282.rState ≠ 0 ∧
      w282.flag pClk CLK_DOM_FIX.pdead = false ∧ w282.linkFrameFits 9 = true) ∧
    (w283.clockOff pRing0 = false ∧ 2 ≤ 9 ∧ 9 < 10 ∧ w283.flag (pRing 9) RING_P_STAT.up = true ∧ w283.rState ≠ 0) ∧
    (w284.clockOff pRing0 = false ∧ 1 < 2 ∧ w284.flag (pRing 1) RING_P_STAT.up = true ∧ w284.rState ≠ 0 ∧ ({} : LinkBlock).rxFail = false ∧
      ({} : LinkBlock).brk = none ∧ ({} : LinkBlock).restore = none) ∧
    (((2 ≤ 2 ∨ (State.reset).flag (pRing 2) RING_P_STAT.broken = true ∧ 2 ∈ (State.reset).ring.rxFail))) ∧
    (w285.clockOff pRing0 = false ∧ 1 < 2 ∧ w285.flag (pRing 1) RING_P_STAT.broken = true ∧ 1 ∉ w285.ring.rxFail) ∧
    (w286.clockOff pRing0 = false ∧ 1 < 2 ∧ w286.flag (pRing 1) RING_P_STAT.broken = false) ∧
    ((1, 2) ∈ w287.ring.breaks) ∧
    ((1, 2) ∉ (State.reset).ring.breaks) ∧
    (((2 ≤ 1 ∨ (State.reset).flag (pRing 1) RING_P_STAT.broken = false))) ∧
    (w285.clockOff pRing0 = false ∧ 1 < 2 ∧ w285.flag (pRing 1) RING_P_STAT.broken = true ∧ (0, w285.cycNow) ∉ w285.ring.restores) ∧
    ((((State.reset).rState = 0 ∨ (State.reset).ring.cycle = some (State.reset).cycNow))) ∧
    (w288.clockOff pRing0 = false ∧ w288.rState = 4 ∧ w288.ring.cycle ≠ some w288.cycNow ∧ w288.ring.breaks = [] ∧ w288.ring.restores = [] ∧
      w288.silent = false ∧ w288.get pTime0 TIME_CT_STAT.state ≠ 3 ∧ w288.slotTable = []) ∧
    (serialS.rState = 2 ∧ 4 ≤ serialS.ring.starts ∧ serialS.nameLock serialS.rAddr serialS.ownSerial = true) ∧
    (w289.rState = 3) ∧
    (w290.rState = 4) ∧
    (w290.rState = 4) ∧
    ((((State.reset).rState ≠ 1 ∨ (State.reset).flag pTime0 TIME_CT_STAT.valid = false ∨ (State.reset).ownIndex = none ∨ (State.reset).t64 0 < (State.reset).ring.heard + (State.reset).get pRing0 RING_START.tl * (State.reset).cycLen))) ∧
    (coldS.clockOff pRing0 = false ∧ coldS.rState = 1 ∧ coldS.ownIndex = some 0 ∧ coldS.get (pNames + 64 * 0) (NAME_HI.cand 0) = 1 ∧
      coldS.flag pTime0 TIME_CT_STAT.valid = true ∧ coldS.ring.heard + coldS.get pRing0 RING_START.tl * coldS.cycLen ≤ coldS.t64 0 ∧ 0 < 64) := by
  refine ⟨?_, ?_, ?_, ?_, ?_, ?_, ?_, ?_, ?_, ?_, ?_, ?_, ?_, ?_, ?_, ?_, ?_, ?_, ?_, ?_, ?_, ?_, ?_, ?_, ?_, ?_, ?_⟩ <;> decide +kernel

/-- What the clauses of RingFrames assume can be met. -/
theorem wit_RingFrames :
    (10 ≤ 10) ∧
    (w283.clockOff pRing0 = false ∧ 9 < 10 ∧ w283.flag (pRing 9) RING_P_STAT.up = true ∧ w283.rState ≠ 0 ∧ ({} : RingFrame).fcsOk = true) ∧
    (({ ver := 2 } : RingFrame).headerOk = false ∧ ({ ver := 2 } : RingFrame).hop < 200 ∧ ({ ver := 2 } : RingFrame).typ ≠ 3) ∧
    (({ typ := 3, hop := 200, payload := [1] } : RingFrame).typ = 3 ∧ 200 ≤ ({ typ := 3, hop := 200, payload := [1] } : RingFrame).hop) ∧
    (w283.clockOff pRing0 = false ∧ 9 < 10 ∧ w283.flag (pRing 9) RING_P_STAT.up = true ∧ w283.rState ≠ 0 ∧
      ({ hop := 199 } : RingFrame).fcsOk = true ∧ 199 ≤ ({ hop := 199 } : RingFrame).hop ∧ ({ hop := 199 } : RingFrame).typ ≠ 3) ∧
    (({} : RingFrame).headerOk = true ∧ ({} : RingFrame).hop < 200 ∧ ({} : RingFrame).typ ≤ 2 ∧ w291.leafBad 1 ({} : RingFrame).src = false ∧
      w291.timeGood = true ∧ w291.slotEntry ({} : RingFrame) 1 = none) ∧
    (({} : RingFrame).headerOk = true ∧ ({} : RingFrame).hop < 200 ∧ ({} : RingFrame).typ ≤ 2 ∧ w292.leafBad 1 ({} : RingFrame).src = false ∧
      w292.timeGood = true ∧ w292.slotEntry ({} : RingFrame) 1 = some 4095) ∧
    (({} : RingFrame).headerOk = true ∧ ({} : RingFrame).hop < 200 ∧ ({} : RingFrame).typ ≤ 2 ∧
      (State.reset).leafBad 1 ({} : RingFrame).src = false ∧ (State.reset).timeGood = false) ∧
    (w293.namePresent ({ typ := 0 } : RingFrame).src = true ∧ ({ typ := 0 } : RingFrame).typ ≠ 1 ∧ w293.returns ({ typ := 0 } : RingFrame) = true) ∧
    (1 < 2 ∧ w294.namePresent ({ typ := 0 } : RingFrame).src = true ∧ ({ typ := 0 } : RingFrame).typ ≠ 1 ∧
      w294.returns ({ typ := 0 } : RingFrame) = false ∧ w294.slotEntry ({ typ := 0 } : RingFrame) 1 = none) ∧
    (2 ≤ 2 ∧ (({} : RingFrame).payload.getD 8 0 = 0 ∨ (State.reset).chainLen (2 - 2) < ({} : RingFrame).payload.getD 8 0)) ∧
    (2 ≤ 2 ∧ 1 ≤ ({ payload := [0, 0, 0, 0, 0, 0, 0, 5, 1] } : RingFrame).payload.getD 8 0 ∧
      ({ payload := [0, 0, 0, 0, 0, 0, 0, 5, 1] } : RingFrame).payload.getD 8 0 ≤ w295.chainLen (2 - 2) ∧ w295.ring.known = false) ∧
    ((State.reset).namePresent ({} : RingFrame).src = false) ∧
    ((State.reset).cycOf ({} : RingFrame).cyc = some 0) ∧
    ((State.reset).cycOf ({ cyc := 100 } : RingFrame).cyc = none) ∧
    (15 < 16 ∧ 4095 < 2 ^ 12) ∧
    (({ dup := true } : RingFrame).typ ≠ 1 ∧ ({ dup := true } : RingFrame).dup = true ∧
      ((w296.sch 7 SCHED_W0.role = 1 ∨ w296.sch 7 SCHED_W0.role = 3)) ∧
      (w296.cycOf ({ dup := true } : RingFrame).cyc).getD w296.cycNow ∈ Tab.rd w296.ring.took ({ dup := true } : RingFrame).slot) ∧
    (({} : RingFrame).typ ≠ 1 ∧ ({} : RingFrame).dup = false ∧ ({} : RingFrame).wrap = false ∧ w296.sch 7 SCHED_W0.role = 1 ∧ 7 < 4096 ∧ 9 < 10 ∧
      (w296.cycOf ({} : RingFrame).cyc).getD w296.cycNow ∈ Tab.rd w296.ring.took ({} : RingFrame).slot) ∧
    (9 < 10 ∧ w297.sch 7 SCHED_W0.role = 1 ∧ ({} : RingFrame).typ = 0 ∧ ({} : RingFrame).wrap = false ∧ w297.sch 7 SCHED_W3.post = 0 ∧ 7 < 4096 ∧
      (w297.cycOf ({} : RingFrame).cyc).getD w297.cycNow ∉ Tab.rd w297.ring.took ({} : RingFrame).slot) ∧
    (bitN ((State.reset).memW ((State.reset).ttBuf 1)).toNat 35 = false ∧ ({} : RingFrame).payload.length ≤ 1536) ∧
    (((10 ≤ 1 ∨ (State.reset).flag (pRing 1) RING_P_STAT.up = false ∨ (State.reset).rState = 0 ∨ (State.reset).timeGood = false ∨ 2 < ({} : RingFrame).typ ∨ (State.reset).slotEntry ({} : RingFrame) 1 = none ∨ (State.reset).cycOf ({} : RingFrame).cyc = none))) ∧
    (w298.clockOff pRing0 = false ∧ 1 < 10 ∧ w298.flag (pRing 1) RING_P_STAT.up = true ∧ w298.rState ≠ 0 ∧ w298.timeGood = true ∧
      ({} : RingFrame).typ ≤ 2 ∧
      ({ hop := 1, stamp := State.reset.ingress 1 0 } : RingFrame) = { ({} : RingFrame) with hop := ({} : RingFrame).hop + 1, stamp := w298.ingress 1 ({} : RingFrame).stamp, dur := 0 } ∧ w298.slotEntry ({} : RingFrame) 1 = some 7 ∧ w298.cycOf ({} : RingFrame).cyc = some 0) ∧
    (9 < 10 ∧ ({} : RingFrame).wrap = false) ∧
    (({ wrap := true } : RingFrame).wrap = true ∧ 1 < 2) ∧
    (w299.entryPort 7 1 true = true) ∧
    (((2 ≤ 1 ∨ (State.reset).flag (pRing 1) RING_P_STAT.wrap = false))) ∧
    (1 < 2 ∧ w300.flag (pRing 1) RING_P_STAT.wrap = true ∧ ((false = false ∨ ({} : RingFrame).wrap = true))) ∧
    (1 < 2 ∧ w300.flag (pRing 1) RING_P_STAT.wrap = true ∧ ({} : RingFrame).wrap = false) ∧
    (w301.flag pClk CLK_DOM_FIX.pdead = false) ∧
    (w281.flag pClk CLK_DOM_FIX.pdead = true) ∧
    (pRing0 ∈ w302.blocked) ∧
    (((State.reset).rState = 0 ∨ (State.reset).rState = 4)) ∧
    (w303.rState = 5 ∧ ({} : RingFrame).wrap = false ∧ w303.ring.seen = []) ∧
    (((State.reset).slotTable.contains 1 = false ∨ (State.reset).sch 1 SCHED_W0.role ≠ 0)) ∧
    (((State.reset).rState ≠ 4 ∨ (State.reset).atOffset ((State.reset).sch 1 SCHED_W0.start * 640) = false)) ∧
    ((State.reset).ctIn 128000 ((State.reset).sch 1 SCHED_W0.start * 640) = false) ∧
    (w304.clockOff pRing0 = false ∧ w304.slotTable.contains 7 = true ∧ w304.sch 7 SCHED_W0.role = 0 ∧ w304.sch 7 SCHED_W0.kind = 0 ∧
      w304.ctIn 128000 (w304.sch 7 SCHED_W0.start * 640) = true) ∧
    (w305.clockOff pRing0 = false ∧ w305.slotTable.contains 7 = true ∧ w305.rState = 4 ∧ w305.sch 7 SCHED_W0.role = 0 ∧
      w305.sch 7 SCHED_W0.kind = 2 ∧ w305.sch 7 SCHED_W0.cs = 0 ∧ w305.atOffset (w305.sch 7 SCHED_W0.start * 640) = true ∧ w305.ownPorts 7 = [9] ∧
      w305.flag (pRing 9) RING_P_STAT.wrap = false ∧ w305.blocked = [] ∧ w305.ring.txHold = [] ∧ w305.flag pClk CLK_DOM_FIX.pdead = false ∧
      w305.sch 7 SCHED_W3.post = 0) ∧
    (Tab.rd (State.reset).ring.hold 1 = none) ∧
    (Tab.rd w306.ring.hold 1 = some ((7, {}) : Nat × RingFrame) ∧
      w306.atOffset (w306.sch ((7, {}) : Nat × RingFrame).1 SCHED_W2.ftime * 640) = false) ∧
    (w307.clockOff pRing0 = false ∧ Tab.rd w307.ring.hold 1 = some ((7, {}) : Nat × RingFrame) ∧
      w307.atOffset (w307.sch ((7, {}) : Nat × RingFrame).1 SCHED_W2.ftime * 640) = true ∧ w307.flag pClk CLK_DOM_FIX.pdead = false ∧
      ((2 ≤ 1 ∨ w307.flag (pRing 1) RING_P_STAT.wrap = false))) ∧
    (({} : RingFrame).typ ≠ 1) ∧
    (((16 ≤ 1 ∨ (State.reset).get pRing11 (RING_CP.en 1) = 0 ∨ (State.reset).flag pTime0 TIME_CT_STAT.valid = false ∨ (State.reset).rState < 3 ∨ 4 < (State.reset).rState ∨ (State.reset).atOffset ((State.reset).get pRing11 (RING_CP.off 1) * 640) = false))) ∧
    (w308.clockOff pRing0 = false ∧ 15 < 16 ∧ w308.get pRing11 (RING_CP.en 15) = 1 ∧ w308.flag pTime0 TIME_CT_STAT.valid = true ∧ 3 ≤ w308.rState ∧
      w308.rState ≤ 4 ∧ w308.atOffset (w308.get pRing11 (RING_CP.off 15) * 640) = true ∧ ((∀ t, w308.jumpAt = some t → t + 64000 ≤ w308.t64 0))) ∧
    (w309.jumpAt = some 511 ∧ w309.t64 0 < 511 + 64000) := by
  refine ⟨?_, ?_, ?_, ?_, ?_, ?_, ?_, ?_, ?_, ?_, ?_, ?_, ?_, ?_, ?_, ?_, ?_, ?_, ?_, ?_, ?_, ?_, ?_, ?_, ?_, ?_, ?_, ?_, ?_, ?_, ?_, ?_, ?_, ?_, ?_, ?_, ?_, ?_, ?_, ?_, ?_, ?_, ?_, ?_, ?_⟩ <;> decide +kernel

/-- What the clauses of QueuesAndEthernet assume can be met. -/
theorem wit_QueuesAndEthernet :
    (w310.takes (qAddr 1 + 1) ∧ w310.qEn (pRing0 + 0x24) = true ∧
      (0x200000001 : Word).toNat / 2 ^ 31 % 16 = w310.reg (pRing0 + 0x25) / 2 ^ 31 % 16 ∧
      (0x200000001 : Word).toNat % 256 = w310.reg (pRing0 + 0x25) % 256 ∧ bitN (0x200000001 : Word).toNat 35 = false ∧ w310.ring.wait = []) ∧
    (qSends (pRing0 + 0x24) = true ∧
      (w311.reg ((pRing0 + 0x24) + 3) % w311.qSize (pRing0 + 0x24) + w311.qSize (pRing0 + 0x24) - w311.qHead (pRing0 + 0x24) % w311.qSize (pRing0 + 0x24)) % w311.qSize (pRing0 + 0x24) = 1 ∧ 0xF00000000 = w311.reg (pRing0 + 0x24) + 8 * (w311.qHead (pRing0 + 0x24) % w311.qSize (pRing0 + 0x24)) ∧ bitN (w311.memW 0xF00000000).toNat 35 = true) ∧
    (((qSends 3 = false ∨ ((State.reset).reg (3 + 3) % (State.reset).qSize 3 + (State.reset).qSize 3 - (State.reset).qHead 3 % (State.reset).qSize 3) % (State.reset).qSize 3 = 0))) ∧
    (25 < 26) ∧
    (w312.takes (qAddr 7 + 1) ∧ 7 < 26 ∧ w312.qEn (qAddr 7) = false ∧ 4 ≤ (0x200000001 : Word).toNat / 2 ^ 31 % 16 ∧
      (0x200000001 : Word).toNat / 2 ^ 31 % 16 ≤ 12 ∧ ((qSends (qAddr 7) = true ∨ 1 ≤ (0x200000001 : Word).toNat % 256 ∧
      (0x200000001 : Word).toNat % 256 ≤ 144)) ∧ w312.ring.wait = [] ∧ ((∀ e < 2, (w312.et e).rx = []))) ∧
    (w312.takes (qAddr 25 + 1) ∧ 25 < 26 ∧ w312.qEn (qAddr 25) = false ∧
      (((0 : Word).toNat / 2 ^ 31 % 16 < 4 ∨ 12 < (0 : Word).toNat / 2 ^ 31 % 16 ∨ qSends (qAddr 25) = false ∧
      ((0 : Word).toNat % 256 = 0 ∨ 144 < (0 : Word).toNat % 256))) ∧ w312.ring.wait = [] ∧ ((∀ e < 2, (w312.et e).rx = []))) ∧
    ((State.reset).takes (qAddr 1 + 3)) ∧
    (w312.takes (qAddr 0 + 3) ∧ w312.ring.wait = []) ∧
    ((State.reset).takes (qAddr (2 + 12 * 1 + 4 + 7) + 3) ∧ 1 < 2 ∧ 7 < 8) ∧
    ((((State.reset).flag (pRing ((State.reset).viaPort 1)) RING_P_STAT.up = false ∨ (State.reset).rState = 0 ∨ Tab.rd (State.reset).ring.fwd 1 = [] ∧ (State.reset).qReady (pRing0 + 0x24) = false))) ∧
    (Tab.rd w313.ring.fwd 1 = ((5, { payload := [1, 2] }) : Nat × RingFrame) :: ([] : List (Nat × RingFrame)) ∧
      ((((5, { payload := [1, 2] }) : Nat × RingFrame).2.wrap = false ∨ w313.viaPort 1 = 1)) ∧
      w313.windowOpen (w313.viaPort 1) ((5, { payload := [1, 2] }) : Nat × RingFrame).2.payload.length (decide (((5, { payload := [1, 2] }) : Nat × RingFrame).1 = 10)) = false) ∧
    (w314.clockOff pRing0 = false ∧ 1 < 10 ∧ w314.flag (pRing 1) RING_P_STAT.up = true ∧ w314.rState ≠ 0 ∧
      Tab.rd w314.ring.fwd 1 = ((5, { payload := [1, 2] }) : Nat × RingFrame) :: ([] : List (Nat × RingFrame)) ∧
      ((5, { payload := [1, 2] }) : Nat × RingFrame).1 < 10 ∧
      w314.windowOpen 1 ((5, { payload := [1, 2] }) : Nat × RingFrame).2.payload.length false = true ∧
      (((5, { payload := [1, 2] }) : Nat × RingFrame).2.payload.length + 20 + 63) / 64 ≤ w314.get (pRing 1) RING_P_CRED.cred ∧
      w314.flag pClk CLK_DOM_FIX.pdead = false ∧ ((2 ≤ 1 ∨ w314.flag (pRing 1) RING_P_STAT.wrap = false)) ∧
      ((((5, { payload := [1, 2] }) : Nat × RingFrame).2.bcast = false ∨ w314.ring.known = true ∧
      ((5, { payload := [1, 2] }) : Nat × RingFrame).2.src = w314.rAddr))) ∧
    (w315.clockOff pRing0 = false ∧ 1 < 10 ∧ w315.flag (pRing (w315.viaPort 1)) RING_P_STAT.up = true ∧ w315.rState ≠ 0 ∧
      Tab.rd w315.ring.fwd 1 = [] ∧ w315.qReady (pRing0 + 0x24) = true ∧ bitN (w315.memW (w315.qDesc (pRing0 + 0x24))).toNat 35 = true ∧
      2020 < (w315.memW (w315.qDesc (pRing0 + 0x24))).toNat % 2 ^ 16) ∧
    ((State.reset).reg (3 + 1) / 2 ^ 30 % 2 = 0) ∧
    (((2 ≤ 1 ∨ (State.reset).flag (pEth 1) ETH_LINK.up = false ∨ (State.reset).flag (pEth 1) PAGE_CTL.en = false))) ∧
    (w316.clockOff pEth0 = false ∧ 1 < 2 ∧ w316.flag (pEth 1) ETH_LINK.up = true ∧ w316.flag (pEth 1) PAGE_CTL.en = true ∧
      ((({} : EthFrame).fcsOk = false ∨ ({} : EthFrame).octets.length < 60 ∨ w316.get (pEth 1) ETH_CFG.maxfr < ({} : EthFrame).octets.length + 4))) ∧
    (w316.clockOff pEth0 = false ∧ 1 < 2 ∧ w316.flag (pEth 1) ETH_LINK.up = true ∧ w316.flag (pEth 1) PAGE_CTL.en = true ∧
      ({ octets := List.replicate 60 2 } : EthFrame).fcsOk = true ∧ 60 ≤ ({ octets := List.replicate 60 2 } : EthFrame).octets.length ∧
      ({ octets := List.replicate 60 2 } : EthFrame).octets.length + 4 ≤ w316.get (pEth 1) ETH_CFG.maxfr ∧
      word16 ({ octets := List.replicate 60 2 } : EthFrame).octets 12 ≠ 0x8808 ∧
      w316.ethMine 1 ({ octets := List.replicate 60 2 } : EthFrame).octets = false) ∧
    (w316.clockOff pEth0 = false ∧ 1 < 2 ∧ w316.flag (pEth 1) ETH_LINK.up = true ∧ w316.flag (pEth 1) PAGE_CTL.en = true ∧
      ({ octets := List.replicate 6 0xFF ++ List.replicate 54 0 } : EthFrame).fcsOk = true ∧
      60 ≤ ({ octets := List.replicate 6 0xFF ++ List.replicate 54 0 } : EthFrame).octets.length ∧
      ({ octets := List.replicate 6 0xFF ++ List.replicate 54 0 } : EthFrame).octets.length + 4 ≤ w316.get (pEth 1) ETH_CFG.maxfr ∧
      word16 ({ octets := List.replicate 6 0xFF ++ List.replicate 54 0 } : EthFrame).octets 12 ≠ 0x8808 ∧
      w316.ethMine 1 ({ octets := List.replicate 6 0xFF ++ List.replicate 54 0 } : EthFrame).octets = true) ∧
    ((State.reset).lossless 1 1 = false) ∧
    (w317.lossless 1 0 = true ∧ 0 ∈ (w317.et 1).xoff ∧
      40960 < rxOctets ((w317.et 1).rx.filter (fun x => x.prio == 0 && x.head)) + ({ octets := List.replicate 1600 0 } : EthFrame).octets.length) ∧
    (((2 ≤ 1 ∨ 8 ≤ 1 ∨ (State.reset).flag (pEth 1) ETH_LINK.up = false ∨ (State.reset).flag (pEth 1) PAGE_CTL.en = false ∨ pageBlocked (State.reset) (pEth 1) = true ∨ (State.reset).qReady (txqAddr 1 1) = false))) ∧
    ((State.reset).get (pEth 1) ETH_CFG.maxfr ≥ ((State.reset).memW ((State.reset).qDesc (txqAddr 1 1))).toNat % 2 ^ 16 + 4 ∧ 7 < 8 ∧
      (((State.reset).ethCan 1 1 = false ∨ 1 < 7 ∧ (State.reset).ethCan 1 7 = true))) ∧
    (ethS.clockOff pEth0 = false ∧ 0 < 2 ∧ 7 < 8 ∧ ethS.flag (pEth 0) ETH_LINK.up = true ∧ ethS.flag (pEth 0) PAGE_CTL.en = true ∧
      pageBlocked ethS pEth0 = false ∧ pageBlocked ethS (pEth 0) = false ∧
      ethS.get (pEth 0) ETH_CFG.maxfr ≥ (ethS.memW (ethS.qDesc (txqAddr 0 7))).toNat % 2 ^ 16 + 4 ∧ ethS.ethCan 0 7 = true ∧
      (∀ k, 7 < k → k < 8 → ethS.ethCan 0 k = false) ∧ ethS.flag (pTsu (10 + 0)) TIME_TSU_CFG.en = false) ∧
    (1 < 2 ∧ w318.flag (pEth 1) ETH_LINK.up = true) ∧
    (1 < 2 ∧ 1 ≤ 4 ∧ 4 ≤ 4 ∧ bitN (w319.get (pEth 1) ETH_CFG.spd) (4 - 1) = true ∧ w319.flag (pEth 1) ETH_LINK.up = false) ∧
    ((1 ∉ ((State.reset).et 1).xoff ∨ (State.reset).ethLevel 1 1 < (State.reset).get (pEth 1) ETH_PFC.xon * 1024)) ∧
    (w320.clockOff pEth0 = false ∧ 1 < 2 ∧ 2 ∈ (w320.et 1).xoff ∧ w320.get (pEth 1) ETH_PFC.xon * 1024 ≤ w320.ethLevel 1 2 ∧
      w320.get (pEth 1) ETH_CAP.rate ≠ 0 ∧ pageBlocked w320 pEth0 = false ∧ pageBlocked w320 (pEth 1) = false) ∧
    (Tab.rd ((State.reset).et 1).paused 1 = none) ∧
    (w321.clockOff pEth0 = false ∧ 1 < 2 ∧ Tab.rd (w321.et 1).paused 2 = some 0 ∧ 0 ≤ w321.t64 0) := by
  refine ⟨?_, ?_, ?_, ?_, ?_, ?_, ?_, ?_, ?_, ?_, ?_, ?_, ?_, ?_, ?_, ?_, ?_, ?_, ?_, ?_, ?_, ?_, ?_, ?_, ?_, ?_, ?_, ?_, ?_⟩
  · decide +kernel
  · decide +kernel
  · decide +kernel
  · decide +kernel
  · decide +kernel
  · decide +kernel
  · decide +kernel
  · decide +kernel
  · decide +kernel
  · decide +kernel
  · decide +kernel
  · decide +kernel
  · decide +kernel
  · decide +kernel
  · decide +kernel
  · decide +kernel
  · decide +kernel
  · decide +kernel
  · decide +kernel
  · decide +kernel
  · decide +kernel
  · decide +kernel
  · exact ⟨by decide +kernel, by decide, by decide, by decide +kernel, by decide +kernel, by decide +kernel, by decide +kernel, by decide +kernel, by decide +kernel, fun k a b => by omega, by decide +kernel⟩
  · decide +kernel
  · decide +kernel
  · decide +kernel
  · decide +kernel
  · decide +kernel
  · decide +kernel

/-- What the clauses of IslandSupervision assume can be met. -/
theorem wit_IslandSupervision :
    (11 < 12 ∧ w322.stoppedNow 11 = false ∧ w322.pstate 11 = 0) ∧
    (w323.stoppedNow 11 = false ∧ w323.pstate 11 ≠ 0 ∧ w323.pstate 11 ≠ 2) ∧
    (11 < 12 ∧ w324.pstate 11 = 2) ∧
    (11 < 12 ∧ w325.pstate 11 ≠ 0) ∧
    (w326.islState = 5) ∧
    (w327.islState ≠ 5) ∧
    (3 ≠ (State.reset).isl.sramAt) ∧
    (w327.islState ≠ 0) ∧
    (w328.islState = 0 ∧ ((w328.imgCode 1 false false ≠ 1 ∨ ({} : SafetyImage).ok = false)) ∧
      ((w328.imgCode 1 true false ≠ 1 ∨ ({} : SafetyImage).ok = false))) ∧
    (imagesA.islState = 0 ∧ imagesA.imgCode 1 false false = 1 ∧ ({} : SafetyImage).ok = true ∧
      (imagesA.firstB 1 = false ∨ imagesA.imgCode 1 true false ≠ 1 ∨ ({} : SafetyImage).ok = false)) ∧
    (imagesA.islState = 0 ∧ imagesA.imgCode 1 false false = 1 ∧ ({} : SafetyImage).ok = true ∧
      (imagesA.firstB 1 = false ∨ imagesA.imgCode 1 true false ≠ 1 ∨ ({} : SafetyImage).ok = false)) ∧
    (imagesB.islState = 0 ∧ imagesB.imgCode 1 true false = 1 ∧ ({} : SafetyImage).ok = true ∧
      (imagesB.firstB 1 = true ∨ imagesB.imgCode 1 false false ≠ 1 ∨ ({} : SafetyImage).ok = false)) ∧
    ((((State.reset).islState ≠ 5 ∨ (State.reset).flag (pSafe 0) SAFE_STAT.hwsafe = true))) ∧
    (w329.islState = 5 ∧ w329.flag (pSafe 0) SAFE_STAT.hwsafe = false) ∧
    (((95 ∉ (State.reset).envNotify ∨ 96 ≤ 95))) ∧
    (95 < 96 ∧ 95 ∈ w330.envNotify) ∧
    (95 < 96) ∧
    (0x500 ∉ (State.reset).fcNotify) ∧
    (0x500 ∈ w331.fcNotify ∧ w331.fcReaction (blkOf 0x500) = 0) ∧
    (0xF80105F00 ∈ w332.fcNotify ∧ w332.fcReaction (blkOf 0xF80105F00) = 1 ∧ (blkOf 0xF80105F00).portOf = some 11) ∧
    (0xF80050000 ∈ w333.fcNotify ∧ w333.fcReaction (blkOf 0xF80050000) = 2) ∧
    ((State.reset).cycleDue = false) ∧
    (w334.cycleDue = true) ∧
    (((1 < 64 ∨ 80 ≤ 1)) ∧ w335.isl.mism = some 1 ∧ w335.islState = 4) ∧
    (((1 < 64 ∨ 80 ≤ 1)) ∧ (State.reset).isl.mism ≠ some 1) ∧
    (((State.reset).chCfg 95).watched = false) ∧
    (95 < 96 ∧ (w336.chCfg 95).watched = true ∧ (((w336.ic 95).set = none ∨ ∃ x, (w336.ic 95).set = some x ∧ x.unc = true))) ∧
    (95 < 96 ∧ (w337.chCfg 95).sls = true ∧ (w337.ic 95).set = some ({ spd := -101 } : LatchSet) ∧
      w337.vlimNow 95 < ((({ spd := -101 } : LatchSet).spd.natAbs : Int) : Rat)) ∧
    (95 < 96 ∧ (w338.chCfg 95).slp = true ∧ (w338.ic 95).set = some ({ pos := -1, ref := true } : LatchSet) ∧
      ({ pos := -1, ref := true } : LatchSet).ref = true ∧
      ((({ pos := -1, ref := true } : LatchSet).pos < (w338.limitSet 95).plo ∨ (w338.limitSet 95).phi < ({ pos := -1, ref := true } : LatchSet).pos))) ∧
    (w324.pstate 11 ≠ 1) ∧
    (11 < 12 ∧ w339.pstate 11 = 1 ∧ (w339.ip 11).ts + (w339.portCfg 11).ts1Ms * edgesMs ≤ w339.now ∧ w339.monitoredOf 11 = []) ∧
    (11 < 12 ∧ w340.pstate 11 = 1 ∧ (w340.ip 11).ts = w340.now ∧
      ((∃ ch ∈ w340.monitoredOf 11, max (w340.chCfg ch).vstand (((w340.ip 11).v0.getD (ch % 8) 0) + (w340.chCfg ch).tol1) < w340.absV ch))) ∧
    (11 < 12) ∧
    (11 < 12 ∧ 3 < 16 ∧ w341.stoppedNow 11 = true ∧ w341.pstate 11 = 0) ∧
    (11 < 12 ∧ 3 < 16 ∧ w342.stoppedNow 11 = true ∧ w342.pstate 11 = 1) := by
  refine ⟨?_, ?_, ?_, ?_, ?_, ?_, ?_, ?_, ?_, ?_, ?_, ?_, ?_, ?_, ?_, ?_, ?_, ?_, ?_, ?_, ?_, ?_, ?_, ?_, ?_, ?_, ?_, ?_, ?_, ?_, ?_, ?_, ?_, ?_, ?_⟩
  · decide +kernel
  · decide +kernel
  · decide +kernel
  · decide +kernel
  · decide +kernel
  · decide +kernel
  · decide +kernel
  · decide +kernel
  · decide +kernel
  · exact ⟨by decide +kernel, imagesA_safety, by decide +kernel, Or.inl (by decide +kernel)⟩
  · exact ⟨by decide +kernel, imagesA_safety, by decide +kernel, Or.inl (by decide +kernel)⟩
  · exact ⟨by decide +kernel, imagesB_safety, by decide +kernel, Or.inl (by decide +kernel)⟩
  · decide +kernel
  · decide +kernel
  · decide +kernel
  · decide +kernel
  · decide +kernel
  · decide +kernel
  · decide +kernel
  · decide +kernel
  · decide +kernel
  · decide +kernel
  · decide +kernel
  · decide +kernel
  · decide +kernel
  · decide +kernel
  · decide +kernel
  · decide +kernel
  · decide +kernel
  · decide +kernel
  · decide +kernel
  · decide +kernel
  · decide +kernel
  · decide +kernel
  · decide +kernel

/-- What the clauses of IslandMailbox assume can be met. -/
theorem wit_IslandMailbox :
    (bitN (0x800000000 : Word).toNat 35 = true ∧ w343.flag (pSafe 1) SAFE_MB_CMD.busy = false) ∧
    (bitN (0x800000000 : Word).toNat 35 = true ∧ w344.flag (pSafe 1) SAFE_MB_CMD.busy = true) ∧
    (255 < 256 ∧ 255 < 256) ∧
    (w345.isl.mb = some (1, 0) ∧ w345.islState ≠ 4) ∧
    (w346.isl.mb = some (10, 0) ∧ w346.islState = 4 ∧ ((10 = 0 ∨ 10 ≤ 10))) ∧
    (w347.isl.mb = none) ∧
    (w348.isl.mb = some (1, 15) ∧ w348.isl.mbTaken = true ∧ w348.islState = 4 ∧ 12 ≤ 15 ∧ 15 < 16) ∧
    (w349.isl.mb = some (1, 11) ∧ w349.isl.mbTaken = true ∧ w349.islState = 4 ∧ 11 < 12 ∧ w349.pstate 11 = 2) ∧
    (w350.isl.mb = some (1, 11) ∧ w350.isl.mbTaken = true ∧ w350.islState = 4 ∧ 11 < 12 ∧ w350.pstate 11 ≠ 2 ∧
      w350.flag (pSafe 2) (SAFE_PORT.ackreq 11) = true) ∧
    (w351.isl.mb = some (1, 11) ∧ w351.isl.mbTaken = true ∧ w351.islState = 4 ∧ 11 < 12 ∧ w351.pstate 11 = 0 ∧
      w351.flag (pSafe 2) (SAFE_PORT.ackreq 11) = false ∧ ((∃ c ∈ w351.causesOf 11, c.1 ≠ 10))) ∧
    (w352.isl.mb = some (1, 11) ∧ w352.isl.mbTaken = true ∧ w352.islState = 4 ∧ 11 < 12 ∧ w352.pstate 11 = 0 ∧
      w352.flag (pSafe 2) (SAFE_PORT.ackreq 11) = false ∧ ((∀ c ∈ w352.causesOf 11, c.1 = 10)) ∧ w352.isl.img.si = [] ∧ 95 ∈ w352.monitoredOf 11 ∧
      w352.setOld 95 = true) ∧
    (w353.isl.mb = some (1, 11) ∧ w353.isl.mbTaken = true ∧ w353.islState = 4 ∧ 11 < 12 ∧ w353.pstate 11 = 0 ∧
      w353.flag (pSafe 2) (SAFE_PORT.ackreq 11) = false ∧ w353.causesOf 11 = [] ∧ w353.causedNow 11 = false ∧ w353.isl.img.si = [] ∧
      w353.monitoredOf 11 = [] ∧ w353.holdOverdue 11 = true) ∧
    (w354.isl.mb = some (1, 11) ∧ w354.isl.mbTaken = true ∧ w354.islState = 4 ∧ 11 < 12 ∧ w354.pstate 11 = 0 ∧
      w354.flag (pSafe 2) (SAFE_PORT.ackreq 11) = false ∧ w354.causesOf 11 = [] ∧ w354.causedNow 11 = false ∧ w354.isl.img.si = [] ∧
      w354.monitoredOf 11 = [] ∧ w354.holdOverdue 11 = false) ∧
    (w355.isl.mb = some (2, 11 + 16 * b2n false) ∧ w355.cycleDue = true ∧ w355.islState = 4 ∧ 11 < 12) ∧
    (w356.isl.mb = some (3, 95) ∧ w356.cycleDue = true ∧ w356.islState = 4 ∧ 95 < 96 ∧ w356.bstate 95 = 0 ∧ w356.pstate (95 / 8) = 2) ∧
    (w357.isl.mb = some (3, 95) ∧ w357.cycleDue = true ∧ w357.islState = 4 ∧ 95 < 96 ∧ w357.bstate 95 ≠ 5 ∧
      ((w357.bstate 95 ≠ 0 ∨ w357.pstate (95 / 8) ≠ 2))) ∧
    (w358.isl.mb = some (3, 95) ∧ w358.cycleDue = true ∧ w358.islState = 4 ∧ 95 < 96 ∧ w358.bstate 95 = 5) ∧
    (w359.isl.mb = some (4, 95) ∧ w359.cycleDue = true ∧ w359.islState = 4 ∧ 95 < 96) ∧
    (w360.isl.mb = some (5, 95) ∧ w360.cycleDue = true ∧ w360.islState = 4 ∧ 95 < 96 ∧ w360.pstate (95 / 8) = 1) ∧
    (w361.isl.mb = some (5, 95) ∧ w361.cycleDue = true ∧ w361.islState = 4 ∧ 95 < 96 ∧ w361.pstate (95 / 8) ≠ 1 ∧ (w361.ic 95).env = some 511 ∧
      w361.now < 511 + 10 * edgesMs) ∧
    (w362.isl.mb = some (5, 95) ∧ w362.cycleDue = true ∧ w362.islState = 4 ∧ 95 < 96 ∧ w362.pstate (95 / 8) ≠ 1 ∧
      ((∀ t, (w362.ic 95).env = some t → t + 10 * edgesMs ≤ w362.now)) ∧ (w362.takeSet 95).setComplies 95 = true) ∧
    (w363.isl.mb = some (6, 95) ∧ w363.cycleDue = true ∧ w363.islState = 4 ∧ 95 < 96 ∧
      ((w363.bstate 95 ≠ 0 ∨ w363.pstate (95 / 8) ≠ 2 ∨ (w363.chCfg 95).vstand < w363.absV 95))) ∧
    (w364.isl.mb = some (6, 95) ∧ w364.cycleDue = true ∧ w364.islState = 4 ∧ 95 < 96 ∧ w364.bstate 95 = 0 ∧ w364.pstate (95 / 8) = 2 ∧
      w364.absV 95 ≤ (w364.chCfg 95).vstand ∧ (w364.ic 95).set = none) ∧
    (w365.isl.mb = some (6, 95) ∧ w365.cycleDue = true ∧ w365.islState = 4 ∧ 95 < 96 ∧ w365.bstate 95 = 0 ∧ w365.pstate (95 / 8) = 2 ∧
      w365.absV 95 ≤ (w365.chCfg 95).vstand ∧ (w365.ic 95).set = some ({} : LatchSet)) ∧
    (w366.isl.mb = some (7, 95) ∧ w366.cycleDue = true ∧ w366.islState = 4 ∧ 95 < 96 ∧ w366.get (pSafe 3) (SAFE_CH.hres 95) ≠ 3) ∧
    (w367.isl.mb = some (7, 95) ∧ w367.cycleDue = true ∧ w367.islState = 4 ∧ 95 < 96 ∧ w367.get (pSafe 3) (SAFE_CH.hres 95) = 3 ∧
      (w367.ic 95).testStart + (w367.chCfg 95).tminMs * edgesMs ≤ w367.now) ∧
    (w368.isl.mb = some (8, 11) ∧ w368.cycleDue = true ∧ w368.islState = 4 ∧ 11 < 12 ∧ (w368.portCfg 11).softAck = false) ∧
    (w369.isl.mb = some (8, 11) ∧ w369.cycleDue = true ∧ w369.islState = 4 ∧ 11 < 12 ∧ (w369.portCfg 11).softAck = true) ∧
    (w370.get (pSafe 2) SAFE_SIF.f = 0 ∧ ((∀ p ∈ ([] : List Nat), p < 12 ∧ w370.causesOf p = []))) ∧
    (11 < 12 ∧ w371.islState ≠ 4 ∧ w371.flag (pSafe 2) (SAFE_PORT.ackreq 11) = true) ∧
    (w370.get (pSafe 2) SAFE_SIF.f = 0 ∧ w370.causesOf 11 ≠ []) ∧
    (w372.isl.mb = some (9, 11 + 16 * 3) ∧ w372.cycleDue = true ∧ w372.islState = 4 ∧ 11 < 12 ∧ 3 < 4) ∧
    (11 < 12 ∧
      max (max ((State.reset).inputSet 11) ((State.reset).get (pSafe 2) (SAFE_PORT.lreq 11))) ((State.reset).ip 11).mreq = (State.reset).get (pSafe 2) (SAFE_PORT.lset 11)) ∧
    (11 < 12 ∧ ((State.reset).ip 11).mreq < 4) ∧
    (w373.isl.mb = some (1, 15) ∧ w373.islState = 4 ∧ 15 < 16) ∧
    (w374.isl.mb = some (2, 0) ∧ w374.cycleDue = false ∧ 2 ≠ 1) ∧
    (w375.isl.mb = some (1, 11) ∧ w375.isl.mbTaken = true ∧ w375.islState = 4 ∧ 11 < 12 ∧ w375.pstate 11 = 0 ∧
      w375.flag (pSafe 2) (SAFE_PORT.ackreq 11) = false ∧ w375.monitoredOf 11 = [] ∧ w375.causedNow 11 = true) ∧
    (w351.isl.mb = some (1, 11) ∧ w351.isl.mbTaken = true ∧ w351.islState = 4 ∧ 11 < 12 ∧ w351.pstate 11 = 0 ∧
      w351.flag (pSafe 2) (SAFE_PORT.ackreq 11) = false ∧ w351.causesOf 11 ≠ [] ∧ w351.monitoredOf 11 = []) := by
  refine ⟨?_, ?_, ?_, ?_, ?_, ?_, ?_, ?_, ?_, ?_, ?_, ?_, ?_, ?_, ?_, ?_, ?_, ?_, ?_, ?_, ?_, ?_, ?_, ?_, ?_, ?_, ?_, ?_, ?_, ?_, ?_, ?_, ?_, ?_, ?_, ?_, ?_, ?_⟩ <;> decide +kernel

/-- What the clauses of SafetyInputsAndBrakes assume can be met. -/
theorem wit_SafetyInputsAndBrakes :
    (w376.isl.siAt = some 511 ∧ w376.now < 511 + 10 * edgesUs) ∧
    (((∀ t, (State.reset).isl.siAt = some t → t + 10 * edgesUs ≤ (State.reset).now))) ∧
    ((w377.siCfg 31).tpGroup = some 7 ∧ w377.now < Tab.rd w377.isl.mask 7) ∧
    (31 < 32 ∧ (w378.siCfg 31).tpGroup = none ∧ bitN (2 ^ 31) 31 ≠ (Tab.rd w378.isl.si 31 : IslIn).level ∧ 0 < (w378.siCfg 31).filterUs) ∧
    (31 < 32 ∧ (w379.siCfg 31).tpGroup = none ∧ bitN (2 ^ 31) 31 = (Tab.rd w379.isl.si 31 : IslIn).level ∧
      (w379.siCfg 31).filterUs ≤ 10 * (Tab.rd w379.isl.si 31 : IslIn).run) ∧
    ((State.reset).tpDue 8 = false) ∧
    (w380.flag (pSafe 0) SAFE_STAT.hwsafe = true) ∧
    (w381.tpDue 0 = true ∧ ((∀ i < 32, (w381.siCfg i).tpGroup = some 0 → bitN 0 i = false)) ∧
      ((∀ i < 32, ∀ g, (w381.siCfg i).tpGroup = some g → g ≠ 0 → bitN 0 i = true ∨ bitN (w381.get (pSafe 2) SAFE_SI.raw) i = false))) ∧
    (w382.tpDue 0 = true ∧ 31 < 32 ∧ (w382.siCfg 31).tpGroup = some 0 ∧ bitN (2 ^ 31) 31 = true) ∧
    (w381.tpDue 0 = true) ∧
    (((((State.reset).siCfg 1).pair = none ∨ (Tab.rd (State.reset).isl.si 1 : IslIn).differ = none ∨ 32 ≤ 1))) ∧
    ((w383.siCfg 30).pair = some 31 ∧ (Tab.rd w383.isl.si 30 : IslIn).differ = some 0 ∧ w383.now ≤ 0 + (w383.siCfg 30).tdiscMs * edgesMs) ∧
    (30 < 32 ∧ 31 < 32 ∧ (w384.siCfg 30).pair = some 31 ∧ (Tab.rd w384.isl.si 30 : IslIn).differ = some 0 ∧
      0 + (w384.siCfg 30).tdiscMs * edgesMs < w384.now) ∧
    ((State.reset).soDue 4 = false) ∧
    (w385.soDue 0 = true) ∧
    (w385.soDue 0 = true) ∧
    (w386.isl.erstUsed = true) ∧
    (w387.isl.erstUsed = false ∧ 200 ≤ 2000 ∧ 2000 ≤ 2000) ∧
    (w387.isl.erstUsed = false ∧ ((1 < 200 ∨ 2000 < 1))) ∧
    (({} : ConnCfg).conn < 65536 ∧ 65535 < 65536 ∧ ([] : List Nat).length ≤ 1520) ∧
    ((State.reset).isl.img.rx = []) ∧
    (w388.isl.img.rx = [(31, ({} : ConnCfg))]) ∧
    (safetyParse ({} : ConnCfg) ([] : List Nat) = none) ∧
    (5 < 64 ∧ safetyParse connC (safetyMessage connC 5 [1, 2]) = some (5, [1, 2]) ∧
      (Tab.rd connS.isl.conn 5 : IslConn).num = some ((5 + 65535) % 65536) ∧ 5 < 65536 ∧ 1 ≤ (Tab.rd connS.isl.conn 5 : IslConn).goods ∧
      connS.now ≤ (Tab.rd connS.isl.conn 5 : IslConn).at_ + connC.wdMs * edgesMs ∧ connS.isl.img.scanners = []) ∧
    (5 < 64 ∧ safetyParse connC (safetyMessage connC 5 [1, 2]) = some (5, [1, 2]) ∧
      (Tab.rd connS1.isl.conn 5 : IslConn).num = some ((5 + 65535) % 65536) ∧ 5 < 65536 ∧ (Tab.rd connS1.isl.conn 5 : IslConn).goods = 0 ∧
      connS1.isl.img.scanners = []) ∧
    (5 < 64 ∧ safetyParse connC (safetyMessage connC 6 [1, 2]) = some (6, [1, 2]) ∧ (∃ x, (Tab.rd connS.isl.conn 5 : IslConn).num = some x ∧
      6 ≠ (x + 1) % 65536) ∧ connS.connOk 5 = true) ∧
    ((State.reset).connOk 1 = false) ∧
    (31 < 64 ∧ w389.connOk 31 = true) ∧
    (((∀ e ∈ (State.reset).isl.img.rx, e.1 ≠ 1) ∨ (State.reset).connOk 1 = false)) ∧
    (w390.isl.img.rx.find? (fun e => e.1 == 31) = some (31, ({} : ConnCfg)) ∧ w390.connOk 31 = true) ∧
    (((∀ e ∈ (State.reset).isl.img.tx, e.1 ≠ 1) ∨ 1520 < ([] : List Nat).length ∨ (Tab.get (fun _ => none) (State.reset).isl.txCyc 1 : Option Nat) = some (State.reset).sendCycle)) ∧
    (w391.isl.img.tx.find? (fun e => e.1 == 31) = some (31, ({} : ConnCfg)) ∧ ([] : List Nat).length ≤ 1520 ∧
      (Tab.get (fun _ => none) w391.isl.txCyc 31 : Option Nat) ≠ some w391.sendCycle) ∧
    (w392.bstate 95 = 5) ∧
    (95 < 96 ∧ w393.bstate 95 ≠ 5) ∧
    (((96 ≤ 95 ∨ (State.reset).bstate 95 ≠ 1 ∨ (State.reset).now < ((State.reset).ic 95).pullAt + ((State.reset).chCfg 95).tpullMs * edgesMs))) ∧
    (95 < 96 ∧ w394.bstate 95 = 1 ∧ (w394.ic 95).pullAt + (w394.chCfg 95).tpullMs * edgesMs ≤ w394.now) ∧
    (((((State.reset).ic 95).sbc = none ∨ 96 ≤ 95 ∨ ∃ t, ((State.reset).ic 95).sbc = some t ∧ (State.reset).now < t))) ∧
    (95 < 96 ∧ (w395.ic 95).sbc = some 511 ∧ 511 ≤ w395.now) ∧
    (((96 ≤ 95 ∨ (State.reset).bstate 95 ≠ 2 ∨ (State.reset).now < ((State.reset).ic 95).testAt + ((State.reset).chCfg 95).tbtMs * edgesMs))) ∧
    (95 < 96 ∧ w396.bstate 95 = 2 ∧ (w396.ic 95).testAt + (w396.chCfg 95).tbtMs * edgesMs ≤ w396.now) ∧
    (((96 ≤ 95 ∨ (State.reset).get (pSafe 3) (SAFE_CH.hres 95) ≠ 3 ∨ (State.reset).now < ((State.reset).ic 95).testStart + 10000 * edgesMs))) ∧
    (95 < 96 ∧ w397.get (pSafe 3) (SAFE_CH.hres 95) = 3 ∧ (w397.ic 95).testStart + 10000 * edgesMs ≤ w397.now ∧ w397.bstate 95 ≠ 5) ∧
    (((96 ≤ 95 ∨ ((State.reset).chCfg 95).brake = false ∨ (State.reset).now < ((State.reset).ic 95).passAt + ((State.reset).chCfg 95).testH * edgesHour))) ∧
    (95 < 96 ∧ (w398.chCfg 95).brake = true ∧ (w398.ic 95).passAt + (w398.chCfg 95).testH * edgesHour ≤ w398.now) ∧
    (((96 ≤ 95 ∨ inRange ((State.reset).bstate 95) 1 2 = false))) ∧
    (95 < 96 ∧ inRange (w399.bstate 95) 1 2 = true) := by
  refine ⟨?_, ?_, ?_, ?_, ?_, ?_, ?_, ?_, ?_, ?_, ?_, ?_, ?_, ?_, ?_, ?_, ?_, ?_, ?_, ?_, ?_, ?_, ?_, ?_, ?_, ?_, ?_, ?_, ?_, ?_, ?_, ?_, ?_, ?_, ?_, ?_, ?_, ?_, ?_, ?_, ?_, ?_, ?_, ?_, ?_, ?_⟩
  · decide +kernel
  · decide +kernel
  · decide +kernel
  · decide +kernel
  · decide +kernel
  · decide +kernel
  · decide +kernel
  · decide +kernel
  · decide +kernel
  · decide +kernel
  · decide +kernel
  · decide +kernel
  · decide +kernel
  · decide +kernel
  · decide +kernel
  · decide +kernel
  · decide +kernel
  · decide +kernel
  · decide +kernel
  · decide +kernel
  · decide +kernel
  · decide +kernel
  · decide +kernel
  · decide +kernel
  · decide +kernel
  · exact ⟨by decide, by decide +kernel, ⟨4, by decide +kernel, by decide⟩, by decide +kernel⟩
  · decide +kernel
  · decide +kernel
  · decide +kernel
  · decide +kernel
  · decide +kernel
  · decide +kernel
  · decide +kernel
  · decide +kernel
  · decide +kernel
  · decide +kernel
  · decide +kernel
  · decide +kernel
  · decide +kernel
  · decide +kernel
  · decide +kernel
  · decide +kernel
  · decide +kernel
  · decide +kernel
  · decide +kernel
  · decide +kernel

/-- What the clauses of MemoryCommands assume can be met. -/
theorem wit_MemoryCommands :
    (((targetOf (0xF00000000 : Word).toNat = .dram → w400.flag (pMem (1 + dramCh (0xF00000000 : Word).toNat)) MEM_DSCRUB.en = false ∨ dramL (0xF00000000 : Word).toNat / 32 ≠ w400.scrubAt (1 + dramCh (0xF00000000 : Word).toNat))) ∧ ((∀ c, targetOf (0xF00000000 : Word).toNat = .commons ∨ targetOf (0xF00000000 : Word).toNat = .localData c ∨ targetOf (0xF00000000 : Word).toNat = .localInst c → w400.flag (pMem 0) MEM_SCRUB.en = false ∨ (0xF00000000 : Word).toNat ≠ w400.scrubAt 0))) ∧
    (targetOf (0 : Word).toNat = .dram ∧ w401.flag (pMem (1 + dramCh (0 : Word).toNat)) MEM_DSCRUB.en = true ∧ 0 = dramL (0 : Word).toNat / 32 ∧
      0 = w401.scrubAt (1 + dramCh (0 : Word).toNat) ∧ 0 < 2 ^ 27 - 1) ∧
    ((targetOf 0xF00000000 = .commons ∨ (∃ c, targetOf 0xF00000000 = .localData c ∨ targetOf 0xF00000000 = .localInst c))) ∧
    (dramL 3 / 32 = 0) ∧
    (1 ≤ dramL 128 / 32 ∧ Tab.get (fun _ => (0, false)) (State.reset).dscrub (dramCh 128) = (0, false) ∧
      100 * 2 ^ 27 * ((State.reset).t64 0 - 0) ≤ (State.reset).get (pMem (1 + dramCh 128)) MEM_DSCRUB.per * secUnits * (100 * (dramL 128 / 32) + 2 ^ 27)) ∧
    (1 ≤ dramL 128 / 32 ∧ Tab.get (fun _ => (0, false)) w402.dscrub (dramCh 128) = (0, false) ∧
      w402.get (pMem (1 + dramCh 128)) MEM_DSCRUB.per * secUnits * (100 * (dramL 128 / 32) + 2 ^ 27) < 100 * 2 ^ 27 * (w402.t64 0 - 0)) ∧
    (1 ≤ dramL 128 / 32 ∧ Tab.get (fun _ => (0, false)) w403.dscrub (dramCh 128) = (7, true)) ∧
    (targetOf (0x1FFFFFFA0 : Word).toNat = .dram ∧ w404.flag (pMem (1 + dramCh (0x1FFFFFFA0 : Word).toNat)) MEM_DSCRUB.en = true ∧
      dramL (0x1FFFFFFA0 : Word).toNat / 32 = 2 ^ 27 - 1 ∧ w404.scrubAt (1 + dramCh (0x1FFFFFFA0 : Word).toNat) = 2 ^ 27 - 1) ∧
    (targetOf (0xF00000000 : Word).toNat = .commons ∧ w405.flag (pMem 0) MEM_SCRUB.en = true ∧ (0xF00000000 : Word).toNat = w405.scrubAt 0) ∧
    ((0xF407F3FFF : Word).toNat = 0xF40000000 + 63 * 0x20000 + 0x13FFF ∧ w406.flag (pMem 0) MEM_SCRUB.en = true ∧
      (0xF407F3FFF : Word).toNat = w406.scrubAt 0) ∧
    (3 < 4) ∧
    (3 < 4) ∧
    (1 < 4 ∧ 31 < 32 ∧ w407.reg (pMem 1 + 0x40 + 31) % 256 < 255 ∧ bitN (w407.reg (pMem 1 + 0x40 + 31)) 35 = false ∧
      w407.reg (pMem 1 + 0x40 + 31) % 256 + 1 + w407.reg (pMem 1 + 0x40 + 31) / 256 % 256 < w407.get (pMem 1) MEM_DTHR.nbank ∧
      w407.reg (pMem 1 + 0x40 + 31) / 2 ^ 16 % 2 ^ 16 < 65535) ∧
    (3 < 4 ∧ 31 < 32 ∧ bitN ((State.reset).reg (pMem 3 + 0x40 + 31)) 35 = false ∧
      (State.reset).get (pMem 3) MEM_DTHR.nbank ≤ (State.reset).reg (pMem 3 + 0x40 + 31) % 256 + (State.reset).reg (pMem 3 + 0x40 + 31) / 256 % 256) ∧
    ((State.reset).rowEntry 1 3 5 = some 0) ∧
    ((State.reset).rowVictim 1 (List.range 16) none = some 0) ∧
    (w408.get (pMem 3) MEM_LOG.en = 1 ∧ w408.logq.length < 32) ∧
    (w409.get (pMem 3) MEM_LOG.en = 0) ∧
    ((((State.reset).logq = [] ∨ (State.reset).logScanned = false ∨ ∃ t, (State.reset).logAt = some t ∧ (State.reset).t64 0 < t + 6400000))) ∧
    (w410.logq = ({ kind := 0, ws := [1, 2, 3, 4, 5, 6] } : LogRec) :: ([] : List LogRec) ∧ w410.logScanned = true ∧
      ((∀ t, w410.logAt = some t → t + 6400000 ≤ w410.t64 0)) ∧ ({ kind := 0, ws := [1, 2, 3, 4, 5, 6] } : LogRec).ws.length = 6) ∧
    (w411.logScanned = true) ∧
    (w412.logScanned = false) ∧
    ((State.reset).takes (pMem 3 + 0x11) ∧ (State.reset).mramOpen ((State.reset).get (pMem 3) MEM_MW_ADDR.off) = true) ∧
    (w413.takes (pMem 3 + 0x11) ∧ w413.mramOpen (w413.get (pMem 3) MEM_MW_ADDR.off) = false) ∧
    (w414.mwq = []) ∧
    (w415.mwq = ({} : MramWr) :: ([] : List MramWr) ∧ ((true = true ∨ false = true))) ∧
    (w415.mwq = ({} : MramWr) :: ([] : List MramWr)) := by
  refine ⟨?_, ?_, ?_, ?_, ?_, ?_, ?_, ?_, ?_, ?_, ?_, ?_, ?_, ?_, ?_, ?_, ?_, ?_, ?_, ?_, ?_, ?_, ?_, ?_, ?_, ?_, ?_⟩
  · exact ⟨fun e => absurd e (by decide +kernel), fun _ _ => by decide +kernel⟩
  · decide +kernel
  · exact Or.inl (by decide +kernel)
  · decide +kernel
  · decide +kernel
  · decide +kernel
  · decide +kernel
  · decide +kernel
  · decide +kernel
  · decide +kernel
  · decide +kernel
  · decide +kernel
  · decide +kernel
  · decide +kernel
  · decide +kernel
  · decide +kernel
  · decide +kernel
  · decide +kernel
  · decide +kernel
  · decide +kernel
  · decide +kernel
  · decide +kernel
  · decide +kernel
  · decide +kernel
  · decide +kernel
  · decide +kernel
  · decide +kernel

/-- What the clauses of PorterCommands assume can be met. -/
theorem wit_PorterCommands :
    ((State.reset).takes (pPorter0 + 0x10) ∧ 64 ≤ 64) ∧
    (w416.takes (pPorter0 + 0x10) ∧ 63 < 64 ∧ ((32 ≤ w416.chains.length ∨ pPorter0 ∈ w416.srstBusy ∨ pageBlocked w416 pPorter0 = true))) ∧
    (w417.takes (pPorter0 + 0x10) ∧ 63 < 64 ∧ w417.chains.length < 32 ∧ pPorter0 ∉ w417.srstBusy ∧ pageBlocked w417 pPorter0 = false ∧
      w417.flag pPorter1 (PORTER_SCTL.en 63) = false) ∧
    (w418.takes (pPorter0 + 0x10) ∧ 63 < 64 ∧ w418.chains.length < 32 ∧ pPorter0 ∉ w418.srstBusy ∧ pageBlocked w418 pPorter0 = false ∧
      w418.flag pPorter1 (PORTER_SCTL.en 63) = true) ∧
    (((4 ≤ 1 ∨ (State.reset).porterRuns = false ∨ pageBlocked (State.reset) pPorter0 = true))) ∧
    (w419.pe 1 = some ({ slot := 0, addr := 0xF00000200, desc := some ([0x800000000, 0xF00000000, 0xF00000100, 2, 0, 0, 0, 0] : List Word) } : PorterEng) ∧ ({ slot := 0, addr := 0xF00000200, desc := some ([0x800000000, 0xF00000000, 0xF00000100, 2, 0, 0, 0, 0] : List Word) } : PorterEng).desc = some ([0x800000000, 0xF00000000, 0xF00000100, 2, 0, 0, 0, 0] : List Word)) ∧
    (w420.pe 1 = none ∧ w420.nextChain = none) ∧
    (w421.porter.queue = []) ∧
    (w422.nextChain = some 0) ∧
    (3 < 4 ∧ w423.porterRuns = true ∧ pageBlocked w423 pPorter0 = false ∧ w423.pe 3 = none ∧ w423.nextChain = some 0) ∧
    (descAddrOk ({ addr := 3 } : PorterEng).addr = false) ∧
    (descAddrOk ({ addr := 0xF00000200 } : PorterEng).addr = true ∧
      ((State.reset).busRead (engIni 1) ({ addr := 0xF00000200 } : PorterEng).addr).1.isSome = true ∧
      (List.replicate 8 (0 : Word)) = (List.range 8).map (fun i => (State.reset).memW (({ addr := 0xF00000200 } : PorterEng).addr + i))) ∧
    (1 < 16 ∧ 3 < 4 ∧
      ({ slot := 0, addr := 0xF00000200, desc := some ([0x100000000, 0xF00000000, 0xF00000100, 2, 0, 0, 0, 0] : List Word) } : PorterEng).slot < 64 ∧ ({ slot := 0, addr := 0xF00000200, desc := some ([0x100000000, 0xF00000000, 0xF00000100, 2, 0, 0, 0, 0] : List Word) } : PorterEng).desc = some ([0x100000000, 0xF00000000, 0xF00000100, 2, 0, 0, 0, 0] : List Word) ∧ ([0x100000000, 0xF00000000, 0xF00000100, 2, 0, 0, 0, 0] : List Word) = (0x100000000 : Word) :: ([0xF00000000, 0xF00000100, 2, 0, 0, 0, 0] : List Word) ∧ bitN (0x100000000 : Word).toNat 31 = false) ∧
    (((∀ r d, (State.reset).pe 1 = some r → r.desc = some d → (State.reset).porterRuns = false))) ∧
    (w424.pe 3 = some ({ slot := 0, addr := 0xF00000200, desc := some ([0xa00000000, 0xF00000000, 0xF00000100, 2, 0, 0, 0, 0] : List Word) } : PorterEng) ∧ ({ slot := 0, addr := 0xF00000200, desc := some ([0xa00000000, 0xF00000000, 0xF00000100, 2, 0, 0, 0, 0] : List Word) } : PorterEng).desc = some ([0xa00000000, 0xF00000000, 0xF00000100, 2, 0, 0, 0, 0] : List Word) ∧ w424.porterRuns = true ∧ dKind ([0xa00000000, 0xF00000000, 0xF00000100, 2, 0, 0, 0, 0] : List Word) = 2 ∧ 0 < w424.mramLeft 3) ∧
    (w425.pe 1 = some ({ slot := 0, addr := 0xF00000200, desc := some ([0xa00000000, 0xF00000000, 0xF00000100, 2, 0, 0, 0, 0] : List Word) } : PorterEng) ∧ ({ slot := 0, addr := 0xF00000200, desc := some ([0xa00000000, 0xF00000000, 0xF00000100, 2, 0, 0, 0, 0] : List Word) } : PorterEng).desc = some ([0xa00000000, 0xF00000000, 0xF00000100, 2, 0, 0, 0, 0] : List Word) ∧ w425.porterRuns = true ∧ dKind ([0xa00000000, 0xF00000000, 0xF00000100, 2, 0, 0, 0, 0] : List Word) = 2 ∧ w425.mramLeft 1 = 0) ∧
    (w426.pe 1 = some ({ slot := 0, addr := 0xF00000200, desc := some ([0x900000000, 0xF00000000, 0xF00000100, 2, 0, 0, 0, 0] : List Word) } : PorterEng) ∧ ({ slot := 0, addr := 0xF00000200, desc := some ([0x900000000, 0xF00000000, 0xF00000100, 2, 0, 0, 0, 0] : List Word) } : PorterEng).desc = some ([0x900000000, 0xF00000000, 0xF00000100, 2, 0, 0, 0, 0] : List Word) ∧ w426.porterRuns = true ∧ dKind ([0x900000000, 0xF00000000, 0xF00000100, 2, 0, 0, 0, 0] : List Word) = 1 ∧ ((∀ m ∈ dMoves ([0x900000000, 0xF00000000, 0xF00000100, 2, 0, 0, 0, 0] : List Word), w426.mustWait m.2 = false)) ∧ ((∀ m ∈ dMoves ([0x900000000, 0xF00000000, 0xF00000100, 2, 0, 0, 0, 0] : List Word), targetOf m.2 = .commons)) ∧ pageBlocked w426 pPorter0 = false ∧ ({ slot := 0, addr := 0xF00000200, desc := some ([0x900000000, 0xF00000000, 0xF00000100, 2, 0, 0, 0, 0] : List Word) } : PorterEng).moved = 0) ∧
    (w426.pe 1 = some ({ slot := 0, addr := 0xF00000200, desc := some ([0x900000000, 0xF00000000, 0xF00000100, 2, 0, 0, 0, 0] : List Word) } : PorterEng) ∧ ({ slot := 0, addr := 0xF00000200, desc := some ([0x900000000, 0xF00000000, 0xF00000100, 2, 0, 0, 0, 0] : List Word) } : PorterEng).desc = some ([0x900000000, 0xF00000000, 0xF00000100, 2, 0, 0, 0, 0] : List Word) ∧ w426.porterRuns = true ∧ dKind ([0x900000000, 0xF00000000, 0xF00000100, 2, 0, 0, 0, 0] : List Word) = 1 ∧ ({ slot := 0, addr := 0xF00000200, desc := some ([0x900000000, 0xF00000000, 0xF00000100, 2, 0, 0, 0, 0] : List Word) } : PorterEng).moved < dCount ([0x900000000, 0xF00000000, 0xF00000100, 2, 0, 0, 0, 0] : List Word) ∧ w426.mustWait (dMove ([0x900000000, 0xF00000000, 0xF00000100, 2, 0, 0, 0, 0] : List Word) ({ slot := 0, addr := 0xF00000200, desc := some ([0x900000000, 0xF00000000, 0xF00000100, 2, 0, 0, 0, 0] : List Word) } : PorterEng).moved).2 = false ∧ targetOf (dMove ([0x900000000, 0xF00000000, 0xF00000100, 2, 0, 0, 0, 0] : List Word) ({ slot := 0, addr := 0xF00000200, desc := some ([0x900000000, 0xF00000000, 0xF00000100, 2, 0, 0, 0, 0] : List Word) } : PorterEng).moved).2 = .commons ∧ pageBlocked w426 pPorter0 = false) ∧
    (w427.pe 1 = some ({ slot := 0, addr := 0xF00000200, desc := some ([0x900000000, 0xF00000000, 0xF80100011, 2, 0, 0, 0, 0] : List Word) } : PorterEng) ∧ w427.mustWait (({ slot := 0, addr := 0xF00000200, desc := some ([0x900000000, 0xF00000000, 0xF80100011, 2, 0, 0, 0, 0] : List Word) } : PorterEng).next.getD 0 0) = true) ∧
    (({ slot := 0, addr := 0xF00000200, desc := some ([0x100000000, 0xF00000000, 0xF00000100, 2, 0, 0, 0, 0] : List Word) } : PorterEng).desc = some ([0x100000000, 0xF00000000, 0xF00000100, 2, 0, 0, 0, 0] : List Word) ∧ ([0x100000000, 0xF00000000, 0xF00000100, 2, 0, 0, 0, 0] : List Word) = (0x100000000 : Word) :: ([0xF00000000, 0xF00000100, 2, 0, 0, 0, 0] : List Word) ∧ bitN (0x100000000 : Word).toNat 31 = false ∧ dw ([0x100000000, 0xF00000000, 0xF00000100, 2, 0, 0, 0, 0] : List Word) 6 = 0 ∧ 3 < 4 ∧ ({ slot := 0, addr := 0xF00000200, desc := some ([0x100000000, 0xF00000000, 0xF00000100, 2, 0, 0, 0, 0] : List Word) } : PorterEng).slot < 64) ∧
    (w428.pe 1 = some ({ slot := 0, addr := 0xF00000200, desc := some ([0x800000000, 0xF00000000, 0xF00000100, 2, 0, 0, 0, 0] : List Word) } : PorterEng) ∧ ({ slot := 0, addr := 0xF00000200, desc := some ([0x800000000, 0xF00000000, 0xF00000100, 2, 0, 0, 0, 0] : List Word) } : PorterEng).desc = some ([0x800000000, 0xF00000000, 0xF00000100, 2, 0, 0, 0, 0] : List Word) ∧ w428.porterRuns = true ∧ ({ slot := 0, addr := 0xF00000200, desc := some ([0x800000000, 0xF00000000, 0xF00000100, 2, 0, 0, 0, 0] : List Word) } : PorterEng).addr ≤ 0xF00000203 ∧ 0xF00000203 < ({ slot := 0, addr := 0xF00000200, desc := some ([0x800000000, 0xF00000000, 0xF00000100, 2, 0, 0, 0, 0] : List Word) } : PorterEng).addr + 8) ∧
    (w428.pe 1 = some ({ slot := 0, addr := 0xF00000200, desc := some ([0x800000000, 0xF00000000, 0xF00000100, 2, 0, 0, 0, 0] : List Word) } : PorterEng) ∧ ({ slot := 0, addr := 0xF00000200, desc := some ([0x800000000, 0xF00000000, 0xF00000100, 2, 0, 0, 0, 0] : List Word) } : PorterEng).desc = some ([0x800000000, 0xF00000000, 0xF00000100, 2, 0, 0, 0, 0] : List Word) ∧ w428.porterRuns = true ∧ (AccessEnd.noResponse).good = false ∧ ({ slot := 0, addr := 0xF00000200, desc := some ([0x800000000, 0xF00000000, 0xF00000100, 2, 0, 0, 0, 0] : List Word) } : PorterEng).addr ≤ 0xF00000207 ∧ 0xF00000207 < ({ slot := 0, addr := 0xF00000200, desc := some ([0x800000000, 0xF00000000, 0xF00000100, 2, 0, 0, 0, 0] : List Word) } : PorterEng).addr + 8) ∧
    (w428.pe 1 = some ({ slot := 0, addr := 0xF00000200, desc := some ([0x800000000, 0xF00000000, 0xF00000100, 2, 0, 0, 0, 0] : List Word) } : PorterEng) ∧ ({ slot := 0, addr := 0xF00000200, desc := some ([0x800000000, 0xF00000000, 0xF00000100, 2, 0, 0, 0, 0] : List Word) } : PorterEng).desc = some ([0x800000000, 0xF00000000, 0xF00000100, 2, 0, 0, 0, 0] : List Word) ∧ w428.porterRuns = true ∧ (AccessEnd.noResponse).good = false ∧ dKind ([0x800000000, 0xF00000000, 0xF00000100, 2, 0, 0, 0, 0] : List Word) < 2 ∧ ({ slot := 0, addr := 0xF00000200, desc := some ([0x800000000, 0xF00000000, 0xF00000100, 2, 0, 0, 0, 0] : List Word) } : PorterEng).moved = 0 ∧ (((AccessEnd.noResponse) = .noResponse ∨ dReadsFirst ([0x800000000, 0xF00000000, 0xF00000100, 2, 0, 0, 0, 0] : List Word) 0 = true)) ∧ dMoves ([0x800000000, 0xF00000000, 0xF00000100, 2, 0, 0, 0, 0] : List Word) = ((0xF00000000, 0xF00000100) : Nat × Nat) :: ([(0xF00000001, 0xF00000101)] : List (Nat × Nat)) ∧ ((0xF00000000, 0xF00000100) : Nat × Nat).2 = 0xF00000100) ∧
    (w429.porter.queue = [] ∧ w429.pe 0 = some ({ desc := some [5, 1] } : PorterEng) ∧ w429.pe 1 = none ∧ w429.pe 2 = none ∧ w429.pe 3 = none ∧
      ({ desc := some [5, 1] } : PorterEng).desc = some ((5 : Word) :: ([1] : List Word))) := by
  refine ⟨?_, ?_, ?_, ?_, ?_, ?_, ?_, ?_, ?_, ?_, ?_, ?_, ?_, ?_, ?_, ?_, ?_, ?_, ?_, ?_, ?_, ?_, ?_, ?_⟩
  · decide +kernel
  · decide +kernel
  · decide +kernel
  · decide +kernel
  · decide +kernel
  · decide +kernel
  · decide +kernel
  · decide +kernel
  · decide +kernel
  · decide +kernel
  · decide +kernel
  · decide +kernel
  · decide +kernel
  · exact fun _ _ _ _ => by decide +kernel
  · decide +kernel
  · decide +kernel
  · decide +kernel
  · decide +kernel
  · decide +kernel
  · decide +kernel
  · decide +kernel
  · decide +kernel
  · decide +kernel
  · decide +kernel

/-- What the clauses of ClocksAndMonitors assume can be met. -/
theorem wit_ClocksAndMonitors :
    ((State.reset).takes (pClk + 0x11)) ∧
    (3 < 4 ∧ bitN (w430.get pClk CLK_PLL.en) 3 = true ∧ w430.flag pClk CLK_SRC.xom_rdy = true) ∧
    (((4 ≤ 1 ∨ bitN ((State.reset).get pClk CLK_PLL.en) 1 = false ∨ (State.reset).flag pClk CLK_SRC.xom_rdy = false))) ∧
    (w431.get pClk CLK_SRC.irc_en = 0) ∧
    (w432.get pClk CLK_SRC.irc_en = 1) ∧
    ((((State.reset).flag pClk CLK_SRC.disc = false ∨ (State.reset).flag pClk CLK_SRC.ext_ok = false ∨ (State.reset).clk.follow = none ∨ ∃ t, (State.reset).clk.follow = some t ∧ (State.reset).now < t + 10000000 * edgesUs))) ∧
    (w433.flag pClk CLK_SRC.disc = true ∧ w433.flag pClk CLK_SRC.ext_ok = true ∧ w433.clk.follow = some 0 ∧ 0 + 10000000 * edgesUs ≤ w433.now) ∧
    (w434.takes (pClk + 0x14) ∧ w434.flag pClk CLK_DOM_FIX.prun = false ∧ w434.flag pClk CLK_DOM_FIX.pdead = false ∧
      bitN (w434.get pClk CLK_PLL.lock) 2 = true) ∧
    ((State.reset).takes (pClk + 0x14) ∧
      (((State.reset).flag pClk CLK_DOM_FIX.prun = true ∨ (State.reset).flag pClk CLK_DOM_FIX.pdead = true ∨ bitN ((State.reset).get pClk CLK_PLL.lock) 2 = false))) ∧
    (w435.takes (pClk + 0x14) ∧ w435.flag pClk CLK_DOM_FIX.mrun = false ∧ w435.flag pClk CLK_DOM_FIX.mdead = false ∧
      bitN (w435.get pClk CLK_PLL.lock) 3 = true) ∧
    ((State.reset).takes (pClk + 0x14) ∧
      (((State.reset).flag pClk CLK_DOM_FIX.mrun = true ∨ (State.reset).flag pClk CLK_DOM_FIX.mdead = true ∨ bitN ((State.reset).get pClk CLK_PLL.lock) 3 = false))) ∧
    ((State.reset).takes (pClk + 0x12 + b2n true) ∧ srcReserved (b2n true) 2 = true) ∧
    (1 < 2 ∧ 3 < 4) ∧
    ((State.reset).takes (pClk + 0x12 + b2n false) ∧ 2 < 3 ∧ srcReserved (b2n false) 2 = false ∧
      (((State.reset).domStopped (b2n false) = true ∨ (State.reset).srcReady (b2n false) 2 = false))) ∧
    (w436.takes (pClk + 0x12 + b2n false) ∧ 2 < 3 ∧ srcReserved (b2n false) 2 = false ∧ w436.domStopped (b2n false) = false ∧
      w436.srcReady (b2n false) 2 = true) ∧
    (w436.takes (pClk + 0x12 + b2n false) ∧ 2 < 3 ∧ srcReserved (b2n false) 2 = false ∧ w436.domStopped (b2n false) = false ∧
      w436.srcReady (b2n false) 2 = true) ∧
    (((1 = 1 ∨ 1 = 2)) ∧ 0 < 2 ∧ w436.srcReady 0 1 = true) ∧
    ((State.reset).domTarget (b2n false) = none) ∧
    (3 < 4 ∧ w437.domTarget (b2n false) = some 3) ∧
    (((false = (State.reset).flag pClk CLK_DOM_CORE.thr ∨ false = true ∧ (State.reset).flag pSys1 SYS_ENVST.thrc = false ∨ false = false ∧
      (State.reset).coolLong = false))) ∧
    (w438.flag pClk CLK_DOM_CORE.thr = false ∧ w438.flag pSys1 SYS_ENVST.thrc = true ∧ w438.domStopped 0 = false ∧ w438.domCur 0 = 1) ∧
    (w439.flag pClk CLK_DOM_CORE.thr = false ∧ w439.flag pSys1 SYS_ENVST.thrc = true ∧ w439.domStopped 0 = false ∧ w439.domCur 0 ≠ 1) ∧
    (w440.flag pClk CLK_DOM_CORE.thr = true ∧ w440.coolLong = true ∧ (w440.domTarget 0 = some 2 ∨ w440.domStopped 0 = false ∧ w440.domCur 0 = 2) ∧
      w440.get pClk CLK_DOM_CORE.src = 0 ∧ ((0 = 0 ∧ w440.flag pClk CLK_SRC.irc_rdy = true ∨ 0 = 1 ∧ bitN (w440.get pClk CLK_PLL.lock) 0 = true ∧
      w440.tripped2us 2 = false))) ∧
    ((State.reset).takes (pClk + 0x15) ∧
      ((4 < fldGet (0 : Word).toNat CLK_SSC.cdep ∨ 4 < fldGet (0 : Word).toNat CLK_SSC.mdep ∨ fldGet (0 : Word).toNat CLK_SSC.rate < 250 ∨ 400 < fldGet (0 : Word).toNat CLK_SSC.rate))) ∧
    ((State.reset).takes (pClk + 0x15) ∧ fldGet (0xFA : Word).toNat CLK_SSC.cdep ≤ 4 ∧ fldGet (0xFA : Word).toNat CLK_SSC.mdep ≤ 4 ∧
      250 ≤ fldGet (0xFA : Word).toNat CLK_SSC.rate ∧ fldGet (0xFA : Word).toNat CLK_SSC.rate ≤ 400) ∧
    (((6 ≤ 6 ∨ 6 = 1 ∧ (State.reset).flag pClk CLK_SRC.irc_rdy = false))) ∧
    (2 ∉ (State.reset).clk.dead ∧ 3 ∉ (State.reset).clk.dead ∧ (State.reset).domCur 0 = 0 ∧ (State.reset).domCur 1 = 0 ∧
      (State.reset).domTarget 0 = none ∧ (State.reset).domTarget 1 = none) ∧
    (w441.domStopped 0 = false ∧ w441.domCur 0 = 1 ∧ w441.flag pClk CLK_SRC.irc_rdy = true ∧ w441.domTarget 1 = none) ∧
    (w442.domStopped 0 = false ∧ w442.domCur 0 = 1 ∧ w442.flag pClk CLK_SRC.irc_rdy = false ∧ w442.domTarget 1 = none) ∧
    (w443.clk.dead = [] ∧ w443.flag pClk CLK_DOM_FIX.pdead = false) ∧
    (w444.clk.dead = [] ∧ w444.clk.held = [] ∧ w444.domCur 0 = 0 ∧ w444.domTarget 0 = none ∧ w444.flag pClk CLK_SRC.irc_rdy = true) ∧
    ((State.reset).takes (pClk + 0x19) ∧ (((State.reset).get pSys SYS_BOOT.state ≠ 1 ∨ gatePage (pageAddr 0x500) = none))) ∧
    (w445.takes (pClk + 0x19) ∧ w445.get pSys SYS_BOOT.state = 1 ∧ gatePage (pageAddr 0x1300) = some (pageAddr 0x1300)) := by
  refine ⟨?_, ?_, ?_, ?_, ?_, ?_, ?_, ?_, ?_, ?_, ?_, ?_, ?_, ?_, ?_, ?_, ?_, ?_, ?_, ?_, ?_, ?_, ?_, ?_, ?_, ?_, ?_, ?_, ?_, ?_, ?_, ?_, ?_⟩ <;> decide +kernel

/-- What the clauses of ResetsBootAndConsole assume can be met. -/
theorem wit_ResetsBootAndConsole :
    (((4 = 0 ∨ 4 ≤ 4))) ∧
    (1 ≤ 3 ∧ 3 ≤ 3) ∧
    (w446.clk.hot = true) ∧
    (w447.clk.hot = false) ∧
    (w445.canBoot = false) ∧
    (w448.canBoot = true ∧ w448.clk.recov = true) ∧
    (w449.canBoot = true ∧ w449.clk.recov = false ∧ (w449.bootMemory.bankCodes false false).1 ≠ 1 ∧ (w449.bootMemory.bankCodes false false).2 ≠ 1) ∧
    (imagesA.canBoot = true ∧ imagesA.clk.recov = false ∧ (imagesA.bootMemory.bankCodes false false).1 = 1 ∧
      (imagesA.bootMemory.bankCodes false false).2 ≠ 1) ∧
    (imagesA.firstB 0 = false ∧ imagesA.imgCode 0 false false = 1) ∧
    (imagesB.firstB 0 = true ∧ imagesB.imgCode 0 true false = 1) ∧
    (w450.get pSys SYS_BOOT.state = 0 ∧ w450.olSealed = false) ∧
    (((w109.get pSys SYS_BOOT.state ≠ 0 ∨ w109.olSealed = true))) ∧
    (w451.get pSys SYS_BOOT.state ≠ 1) ∧
    (w445.get pSys SYS_BOOT.state = 1) ∧
    (w445.get pSys SYS_BOOT.state = 1 ∧ 4096 ≤ 4096 ∧ 1 + 4096 ≤ 0x800000) ∧
    (w445.get pSys SYS_BOOT.state = 1 ∧ ((4096 < 4097 ∨ 0x800000 < 0 + 4097))) ∧
    (w445.get pSys SYS_BOOT.state = 1 ∧ 0x10000 ≤ 0x10000 ∧ 0x10000 + ([] : List Word).length ≤ 0x710000) ∧
    (w445.get pSys SYS_BOOT.state = 1 ∧ ((1 < 0x10000 ∨ 0x710000 < 1 + ([] : List Word).length))) ∧
    (w445.get pSys SYS_BOOT.state = 1 ∧ ((([] : List Nat).length ≠ 32 ∨ w445.integratorKey = true ∧
      edVerify (w445.keySlot 1) (keyDigest ([] : List Nat)) ([] : List Nat) = false))) ∧
    (recoveryS.get pSys SYS_BOOT.state = 1 ∧ (List.replicate 32 7).length = 32 ∧
      (recoveryS.integratorKey = false ∨ edVerify (recoveryS.keySlot 1) (keyDigest (List.replicate 32 7)) [] = true)) ∧
    (w445.get pSys SYS_BOOT.state = 1 ∧ (((2 ^ 32) < w445.leAt commBase (68 + 4 * b2n false) 4 ∨ 2 ^ 32 ≤ (2 ^ 32)))) ∧
    (w445.get pSys SYS_BOOT.state = 1 ∧ w445.leAt commBase (68 + 4 * b2n false) 4 ≤ 4294967295 ∧ 4294967295 < 2 ^ 32) ∧
    (w445.get pSys SYS_BOOT.state = 1 ∧ gatePage (pageAddr 11) = none) ∧
    (w445.get pSys SYS_BOOT.state = 1 ∧ gatePage (pageAddr 0x1300) = some (pageAddr 0x1300)) ∧
    (w445.get pSys SYS_BOOT.state = 1) ∧
    (w445.get pSys SYS_BOOT.state = 1 ∧ ((4 = 0 ∨ 4 ≤ 4))) := by
  refine ⟨?_, ?_, ?_, ?_, ?_, ?_, ?_, ?_, ?_, ?_, ?_, ?_, ?_, ?_, ?_, ?_, ?_, ?_, ?_, ?_, ?_, ?_, ?_, ?_, ?_, ?_⟩
  · decide +kernel
  · decide +kernel
  · decide +kernel
  · decide +kernel
  · decide +kernel
  · decide +kernel
  · decide +kernel
  · have h1 : imagesA.bootMemory.firstB 0 = false := by decide +kernel
    refine ⟨by decide +kernel, by decide +kernel, ?_, ?_⟩ <;> simp [State.bankCodes, h1, imagesA_boot]
  · exact ⟨by decide +kernel, imagesA_main⟩
  · exact ⟨by decide +kernel, imagesB_main⟩
  · decide +kernel
  · decide +kernel
  · decide +kernel
  · decide +kernel
  · decide +kernel
  · decide +kernel
  · decide +kernel
  · decide +kernel
  · decide +kernel
  · exact ⟨by decide +kernel, by decide, Or.inl (by decide +kernel)⟩
  · decide +kernel
  · decide +kernel
  · decide +kernel
  · decide +kernel
  · decide +kernel
  · decide +kernel

/-- What the clauses of EnvironmentAndSupplies assume can be met. -/
theorem wit_EnvironmentAndSupplies :
    (12 ≤ 12) ∧
    (11 < 12) ∧
    (1 < 16 ∧ 1000 * (1 + 1) ≤ 1700 + 300 ∧ 1700 ≤ 1000 * (1 + 1) + 300) ∧
    (w452.flag pSys1 (logicFld false) = false) ∧
    (w453.flag pSys1 (logicFld false) = true) ∧
    (w453.flag pSys1 (logicFld false) = true) ∧
    (w452.flag pSys1 (logicFld false) = false) ∧
    (b2n false ∈ w454.isl.brakeBad) ∧
    (b2n false ∉ (State.reset).isl.brakeBad) ∧
    (((2 ≤ 2 ∨ (State.reset).flag pSys1 (fanFld 2) = true))) ∧
    (1 < 2 ∧ w455.flag pSys1 (fanFld 1) = false) ∧
    (((2 ≤ 1 ∨ (State.reset).flag pSys1 (fanFld 1) = false))) ∧
    (1 < 2 ∧ w456.flag pSys1 (fanFld 1) = true) ∧
    ((State.reset).flag pSys1 SYS_ENVST.thrc = (State.reset).throttling) ∧
    (w457.flag pSys1 SYS_ENVST.thrc ≠ w457.throttling) ∧
    ((State.reset).flag pSys1 SYS_ENVST.warn = false) ∧
    (w458.flag pSys1 SYS_ENVST.warn = false) ∧
    (w459.flag pSys1 SYS_ENVST.warn = true) ∧
    (w447.clk.hot = false ∧ sint 12 (fldGet (0x0 : Word).toNat SYS_TEMP.die) < 2000) ∧
    (w447.clk.hot = false ∧ 2000 ≤ sint 12 (fldGet (0x7D0 : Word).toNat SYS_TEMP.die)) ∧
    (w446.clk.hot = true) := by
  refine ⟨?_, ?_, ?_, ?_, ?_, ?_, ?_, ?_, ?_, ?_, ?_, ?_, ?_, ?_, ?_, ?_, ?_, ?_, ?_, ?_, ?_⟩ <;> decide +kernel

/-- What the clauses of EveryStepAnswers assume can be met. -/
theorem wit_EveryStepAnswers :
    (w460.pending = [] ∧ w460.held = [] ∧ ((∀ e, w460.pe e = none))) ∧
    (w461.pending = [] ∧ w461.held = [] ∧ ((∀ e, w461.pe e = none)) ∧ w461.flag pClk CLK_DOM_FIX.prun = false ∧
      ((∀ e ∈ w461.pwm, w461.outBits e.1 = (w461.pw e.1).outs))) ∧
    (w461.pending = [] ∧ w461.held = [] ∧ ((∀ e, w461.pe e = none)) ∧ w461.flag pClk CLK_DOM_FIX.prun = false ∧
      ((∀ e ∈ w461.fbk, e.2.cmp = none)) ∧ ((∀ e ∈ w461.core, e.2.stalled = false)) ∧
      ((∀ c < 2, w461.dramLevel c ≤ w461.get (pMem (c + 1)) MEM_DOCC.hwm)) ∧ w461.innk.queue.length ≤ w461.get pInnk0 INNK_PQ.hwm) := by
  refine ⟨?_, ?_, ?_⟩
  · exact ⟨by decide +kernel, by decide +kernel, fun _ => rfl⟩
  · exact ⟨by decide +kernel, by decide +kernel, fun _ => rfl, by decide +kernel, by decide +kernel⟩
  · exact ⟨by decide +kernel, by decide +kernel, fun _ => rfl, by decide +kernel, by decide +kernel, by decide +kernel, by decide +kernel, by decide +kernel⟩

/-- What the clauses of EnabledPagesAfterReset assume can be met. -/
theorem wit_EnabledPagesAfterReset :
    ((∃ t, exec (.moduleReset false false) State.reset = .next t) ∧ 0x2000 < 8256 ∧ (blkOf (pageAddr 0x2000)).hasHeader = true) := by
  exact ⟨⟨_, rfl⟩, by decide, by decide +kernel⟩

/-- What the clauses of EventsSetTheirBits assume can be met. -/
theorem wit_EventsSetTheirBits :
    (35 < 36) ∧
    ((blkOf (pageAddr 0x500)).hasHeader = true) := by
  refine ⟨?_, ?_⟩ <;> decide +kernel

/-- What the clauses of FaultCounterConfiguration assume can be met. -/
theorem wit_FaultCounterConfiguration :
    ((blkOf (pageAddr 0x500)).hasHeader = true ∧ (State.reset).fcLocked 0 (pageAddr 0x500) = false ∧ fldGet (0x8034 : Word).toNat FC_CFG.n ≠ 0 ∧
      fldGet (0x8034 : Word).toNat FC_CFG.w ≤ 20 ∧ fldGet (0x8034 : Word).toNat FC_CFG.action < 5) ∧
    ((blkOf (pageAddr 0x500)).hasHeader = true ∧ (State.reset).fcLocked 0 (pageAddr 0x500) = false ∧
      ((fldGet (0 : Word).toNat FC_CFG.n = 0 ∨ 20 < fldGet (0 : Word).toNat FC_CFG.w ∨ 5 ≤ fldGet (0 : Word).toNat FC_CFG.action))) := by
  refine ⟨?_, ?_⟩ <;> decide +kernel

/-- What the clauses of ResetState assume can be met. -/
theorem wit_ResetState :
    (127 < 128) ∧
    (11 < 12) ∧
    (95 < 96) ∧
    (63 < 64) := by
  refine ⟨?_, ?_, ?_, ?_⟩ <;> decide +kernel

/-- What the clauses of StepKeepsStoresCanonical assume can be met. -/
theorem wit_StepKeepsStoresCanonical :
    (State.reset.wf = true ∧ ∃ t, step State.reset = .next t) := by
  exact ⟨by decide +kernel, _, rfl⟩

/-- What the clauses of CoreWordsDecodeBack assume can be met. -/
theorem wit_CoreWordsDecodeBack :
    (isSynlen (.ins 63 15 14 4 32) = true ∧ synlenLegal (.ins 63 15 14 4 32) = true) := by
  decide +kernel

/-- What the clauses of QueueWritesAndAsynchronousSends assume can be met. -/
theorem wit_QueueWritesAndAsynchronousSends :
    (w462.clockOff pRing0 = false ∧ 0 < 10 ∧ w462.flag (pRing 0) RING_P_STAT.up = true ∧ w462.rState ≠ 0 ∧ Tab.rd w462.ring.fwd 0 = [] ∧
      w462.qReady (pRing0 + 0x24) = true ∧ bitN (w462.memW (w462.qDesc (pRing0 + 0x24))).toNat 35 = true ∧
      (w462.memW (w462.qDesc (pRing0 + 0x24))).toNat % 2 ^ 16 ≤ 2020 ∧ bitN (w462.memW (w462.qDesc (pRing0 + 0x24) + 3)).toNat 23 = false ∧
      w462.namePresent ((w462.memW (w462.qDesc (pRing0 + 0x24) + 3)).toNat / 2 ^ 12 % 2 ^ 11) = true ∧
      w462.asyncPort ((w462.memW (w462.qDesc (pRing0 + 0x24) + 3)).toNat / 2 ^ 12 % 2 ^ 11) = 0 ∧
      ((2 ≤ 0 ∨ w462.flag (pRing 0) RING_P_STAT.wrap = false)) ∧
      w462.windowOpen 0 ((w462.memW (w462.qDesc (pRing0 + 0x24))).toNat % 2 ^ 16) true = true ∧
      ((w462.memW (w462.qDesc (pRing0 + 0x24))).toNat % 2 ^ 16 + 83) / 64 ≤ w462.get (pRing 0) RING_P_CRED.cred ∧ pageBlocked w462 pRing0 = false ∧
      pageBlocked w462 (pRing 0) = false ∧ w462.ring.txHold = [] ∧ w462.flag pClk CLK_DOM_FIX.pdead = false ∧
      w462.flag (pTsu 0) TIME_TSU_CFG.en = false) ∧
    (w463.clockOff pRing0 = false ∧ 0 = 0 ∧ w463.flag (pRing 0) RING_P_STAT.up = true ∧ w463.rState ≠ 0 ∧ Tab.rd w463.ring.fwd 0 = [] ∧
      w463.qReady (pRing0 + 0x24) = true ∧ bitN (w463.memW (w463.qDesc (pRing0 + 0x24))).toNat 35 = true ∧
      (w463.memW (w463.qDesc (pRing0 + 0x24))).toNat % 2 ^ 16 ≤ 2020 ∧ bitN (w463.memW (w463.qDesc (pRing0 + 0x24) + 3)).toNat 23 = true ∧
      w463.ringWrapped = false ∧ w463.flag (pRing 0) RING_P_STAT.wrap = false ∧
      w463.windowOpen 0 ((w463.memW (w463.qDesc (pRing0 + 0x24))).toNat % 2 ^ 16) true = true ∧
      ((w463.memW (w463.qDesc (pRing0 + 0x24))).toNat % 2 ^ 16 + 83) / 64 ≤ w463.get (pRing 0) RING_P_CRED.cred ∧ pageBlocked w463 pRing0 = false ∧
      pageBlocked w463 (pRing 0) = false ∧ w463.ring.txHold = [] ∧ w463.flag pClk CLK_DOM_FIX.pdead = false ∧
      w463.flag (pTsu 0) TIME_TSU_CFG.en = false) ∧
    (w464.clockOff pRing0 = false ∧ 9 < 10 ∧ w464.flag (pRing (w464.viaPort 9)) RING_P_STAT.up = true ∧ w464.rState ≠ 0 ∧
      Tab.rd w464.ring.fwd 9 = [] ∧ w464.qReady (pRing0 + 0x24) = true ∧ bitN (w464.memW (w464.qDesc (pRing0 + 0x24))).toNat 35 = true ∧
      (w464.memW (w464.qDesc (pRing0 + 0x24))).toNat % 2 ^ 16 ≤ 2020 ∧ bitN (w464.memW (w464.qDesc (pRing0 + 0x24) + 3)).toNat 23 = false ∧
      w464.namePresent ((w464.memW (w464.qDesc (pRing0 + 0x24) + 3)).toNat / 2 ^ 12 % 2 ^ 11) = false) ∧
    (9 < 10 ∧ w465.flag (pRing (w465.viaPort 9)) RING_P_STAT.up = true ∧ w465.rState ≠ 0 ∧ Tab.rd w465.ring.fwd 9 = [] ∧
      w465.qReady (pRing0 + 0x24) = true ∧ bitN (w465.memW (w465.qDesc (pRing0 + 0x24))).toNat 35 = true ∧
      (w465.memW (w465.qDesc (pRing0 + 0x24))).toNat % 2 ^ 16 ≤ 2020 ∧
      ((w465.windowOpen (w465.viaPort 9) ((w465.memW (w465.qDesc (pRing0 + 0x24))).toNat % 2 ^ 16) true = false ∨ w465.get (pRing (w465.viaPort 9)) RING_P_CRED.cred < ((w465.memW (w465.qDesc (pRing0 + 0x24))).toNat % 2 ^ 16 + 83) / 64)) ∧ bitN (w465.memW (w465.qDesc (pRing0 + 0x24) + 3)).toNat 23 = true) ∧
    ((State.reset).takes (qAddr 25 + 3) ∧ 25 < 26 ∧ 25 ≠ 0 ∧ ((25 = 1 ∨ 4 ≤ (25 - 2) % 12))) ∧
    ((State.reset).takes (qAddr 0 + 3)) ∧
    ((State.reset).takes (qAddr (2 + 12 * 0 + 3) + 3) ∧ 0 < 2 ∧ 3 < 4) ∧
    (((([] : List (Nat × RingFrame × StampRec)) = [] ∨ (State.reset).qReady (pRing0 + 0x20) = false))) ∧
    (w466.ring.wait = [(9, ({ payload := [1, 2] } : RingFrame), ({} : StampRec))] ∧ w466.qReady (pRing0 + 0x20) = true ∧ 9 < 10 ∧
      ({ payload := [1, 2] } : RingFrame).payload.length ≤ w466.reg (pRing0 + 0x21) % 256 * 64) ∧
    (w467.ring.wait = [(9, ({ payload := List.replicate 100 0 } : RingFrame), ({} : StampRec))] ∧ w467.qReady (pRing0 + 0x20) = true ∧ 9 < 10 ∧
      w467.reg (pRing0 + 0x21) % 256 * 64 < ({ payload := List.replicate 100 0 } : RingFrame).payload.length) ∧
    ((State.reset).reg (3 + 1) / 2 ^ 30 % 2 = 0) ∧
    (w468.takes (qAddr 7 + 1) ∧ 7 < 26 ∧ w468.qEn (qAddr 7) = true ∧
      (0x260000001 : Word).toNat / 2 ^ 31 % 16 = w468.reg (qAddr 7 + 1) / 2 ^ 31 % 16 ∧
      (0x260000001 : Word).toNat % 256 = w468.reg (qAddr 7 + 1) % 256 ∧ w468.ring.wait = [] ∧ ((∀ e < 2, (w468.et e).rx = []))) ∧
    (w468.takes (qAddr 7 + 1) ∧ 7 < 26 ∧ w468.qEn (qAddr 7) = true ∧
      (((0x360000001 : Word).toNat / 2 ^ 31 % 16 ≠ w468.reg (qAddr 7 + 1) / 2 ^ 31 % 16 ∨ (0x360000001 : Word).toNat % 256 ≠ w468.reg (qAddr 7 + 1) % 256)) ∧ w468.ring.wait = [] ∧ ((∀ e < 2, (w468.et e).rx = []))) ∧
    (w312.takes (qAddr 25 + 1) ∧ 25 < 26 ∧ w312.qEn (qAddr 25) = false ∧ 4 ≤ (0xA60000001 : Word).toNat / 2 ^ 31 % 16 ∧
      (0xA60000001 : Word).toNat / 2 ^ 31 % 16 ≤ 12 ∧ ((qSends (qAddr 25) = true ∨ 1 ≤ (0xA60000001 : Word).toNat % 256 ∧
      (0xA60000001 : Word).toNat % 256 ≤ 144)) ∧ w312.ring.wait = [] ∧ ((∀ e < 2, (w312.et e).rx = []))) ∧
    ((State.reset).takes (qAddr 26 + 1) ∧ (State.reset).takes (qAddr 26 + 3) ∧ 26 ≤ 26) := by
  refine ⟨?_, ?_, ?_, ?_, ?_, ?_, ?_, ?_, ?_, ?_, ?_, ?_, ?_, ?_, ?_⟩ <;> decide +kernel

/-- What the clauses of EthernetPortsReceiveAndSend assume can be met. -/
theorem wit_EthernetPortsReceiveAndSend :
    (w316.clockOff pEth0 = false ∧ 1 < 2 ∧ w316.flag (pEth 1) ETH_LINK.up = true ∧ w316.flag (pEth 1) PAGE_CTL.en = true ∧
      ({ octets := List.replicate 12 0 ++ [0x88, 8, 0, 1] ++ List.replicate 44 0 } : EthFrame).fcsOk = true ∧
      60 ≤ ({ octets := List.replicate 12 0 ++ [0x88, 8, 0, 1] ++ List.replicate 44 0 } : EthFrame).octets.length ∧
      ({ octets := List.replicate 12 0 ++ [0x88, 8, 0, 1] ++ List.replicate 44 0 } : EthFrame).octets.length + 4 ≤ w316.get (pEth 1) ETH_CFG.maxfr ∧ word16 ({ octets := List.replicate 12 0 ++ [0x88, 8, 0, 1] ++ List.replicate 44 0 } : EthFrame).octets 12 = 0x8808 ∧ word16 ({ octets := List.replicate 12 0 ++ [0x88, 8, 0, 1] ++ List.replicate 44 0 } : EthFrame).octets 14 ≠ 0x0101) ∧
    (w469.clockOff pEth0 = false ∧ 1 < 2 ∧ w469.flag (pEth 1) ETH_LINK.up = true ∧ w469.flag (pEth 1) PAGE_CTL.en = true ∧
      ({ octets := (List.replicate 12 0 ++ [0x88, 8, 1, 1, 0, 8] ++ List.replicate 6 0 ++ [0, 9] ++ List.replicate 36 0) } : EthFrame).fcsOk = true ∧ 60 ≤ ({ octets := (List.replicate 12 0 ++ [0x88, 8, 1, 1, 0, 8] ++ List.replicate 6 0 ++ [0, 9] ++ List.replicate 36 0) } : EthFrame).octets.length ∧ ({ octets := (List.replicate 12 0 ++ [0x88, 8, 1, 1, 0, 8] ++ List.replicate 6 0 ++ [0, 9] ++ List.replicate 36 0) } : EthFrame).octets.length + 4 ≤ w469.get (pEth 1) ETH_CFG.maxfr ∧ word16 ({ octets := (List.replicate 12 0 ++ [0x88, 8, 1, 1, 0, 8] ++ List.replicate 6 0 ++ [0, 9] ++ List.replicate 36 0) } : EthFrame).octets 12 = 0x8808 ∧ word16 ({ octets := (List.replicate 12 0 ++ [0x88, 8, 1, 1, 0, 8] ++ List.replicate 6 0 ++ [0, 9] ++ List.replicate 36 0) } : EthFrame).octets 14 = 0x0101) ∧
    (w470.flag (pEth 1) ETH_PFC.en = true ∧ w470.get (pEth 1) ETH_PFC.pa ≠ w470.get (pEth 1) ETH_PFC.pb) ∧
    (w471.clockOff pEth0 = false ∧ 1 < 2 ∧ w471.flag (pEth 1) ETH_LINK.up = true ∧ w471.flag (pEth 1) PAGE_CTL.en = true ∧
      ({ octets := List.replicate 6 0xFF ++ List.replicate 54 0 } : EthFrame).fcsOk = true ∧
      60 ≤ ({ octets := List.replicate 6 0xFF ++ List.replicate 54 0 } : EthFrame).octets.length ∧
      ({ octets := List.replicate 6 0xFF ++ List.replicate 54 0 } : EthFrame).octets.length + 4 ≤ w471.get (pEth 1) ETH_CFG.maxfr ∧
      word16 ({ octets := List.replicate 6 0xFF ++ List.replicate 54 0 } : EthFrame).octets 12 ≠ 0x8808 ∧
      w471.ethMine 1 ({ octets := List.replicate 6 0xFF ++ List.replicate 54 0 } : EthFrame).octets = true ∧
      w471.lossless 1 (framePcp ({ octets := List.replicate 6 0xFF ++ List.replicate 54 0 } : EthFrame).octets) = false ∧ (w471.et 1).rx = [] ∧
      (w471.et 1).xoff = [] ∧
      w471.ethUse + (({ octets := List.replicate 6 0xFF ++ List.replicate 54 0 } : EthFrame).octets.length + 63) / 64 ≤ 8192 ∧
      (pEth 1 + 0x20 + 4 * 0) = pEth 1 + 0x20 + 4 * w471.rxQueue 1 (framePcp ({ octets := List.replicate 6 0xFF ++ List.replicate 54 0 } : EthFrame).octets) ∧ w471.qReady (pEth 1 + 0x20 + 4 * 0) = true ∧ ({ octets := List.replicate 6 0xFF ++ List.replicate 54 0 } : EthFrame).octets.length ≤ w471.reg ((pEth 1 + 0x20 + 4 * 0) + 1) % 256 * 64) ∧
    (w472.clockOff pEth0 = false ∧ 1 < 2 ∧ w472.flag (pEth 1) ETH_LINK.up = true ∧ w472.flag (pEth 1) PAGE_CTL.en = true ∧
      ({ octets := List.replicate 6 0xFF ++ List.replicate 54 0 } : EthFrame).fcsOk = true ∧
      60 ≤ ({ octets := List.replicate 6 0xFF ++ List.replicate 54 0 } : EthFrame).octets.length ∧
      ({ octets := List.replicate 6 0xFF ++ List.replicate 54 0 } : EthFrame).octets.length + 4 ≤ w472.get (pEth 1) ETH_CFG.maxfr ∧
      word16 ({ octets := List.replicate 6 0xFF ++ List.replicate 54 0 } : EthFrame).octets 12 ≠ 0x8808 ∧
      w472.ethMine 1 ({ octets := List.replicate 6 0xFF ++ List.replicate 54 0 } : EthFrame).octets = true ∧
      w472.lossless 1 (framePcp ({ octets := List.replicate 6 0xFF ++ List.replicate 54 0 } : EthFrame).octets) = false ∧ (w472.et 1).rx = [] ∧
      (w472.et 1).xoff = [] ∧
      w472.ethUse + (({ octets := List.replicate 6 0xFF ++ List.replicate 54 0 } : EthFrame).octets.length + 63) / 64 ≤ 8192 ∧
      (pEth 1 + 0x20 + 4 * 0) = pEth 1 + 0x20 + 4 * w472.rxQueue 1 (framePcp ({ octets := List.replicate 6 0xFF ++ List.replicate 54 0 } : EthFrame).octets) ∧ w472.qReady (pEth 1 + 0x20 + 4 * 0) = false) ∧
    (w473.clockOff pEth0 = false ∧ 1 < 2 ∧ 7 < 8 ∧ w473.flag (pEth 1) ETH_LINK.up = true ∧ w473.flag (pEth 1) PAGE_CTL.en = true ∧
      pageBlocked w473 pEth0 = false ∧ pageBlocked w473 (pEth 1) = false ∧ w473.qReady (txqAddr 1 7) = true ∧
      bitN (w473.memW (w473.qDesc (txqAddr 1 7))).toNat 35 = true ∧
      w473.get (pEth 1) ETH_CFG.maxfr < (w473.memW (w473.qDesc (txqAddr 1 7))).toNat % 2 ^ 16 + 4) ∧
    (w474.clockOff pEth0 = false ∧ 1 < 2 ∧ 7 < 8 ∧ w474.flag (pEth 1) ETH_LINK.up = true ∧ w474.flag (pEth 1) PAGE_CTL.en = true ∧
      pageBlocked w474 pEth0 = false ∧ pageBlocked w474 (pEth 1) = false ∧
      (w474.memW (w474.qDesc (txqAddr 1 7))).toNat % 2 ^ 16 + 4 ≤ w474.get (pEth 1) ETH_CFG.maxfr ∧ w474.ethCan 1 7 = true ∧
      ((∀ k, 7 < k → k < 8 → w474.ethCan 1 k = false)) ∧ w474.flag (pTsu (10 + 1)) TIME_TSU_CFG.en = false) ∧
    (1 < 2 ∧ w318.flag (pEth 1) ETH_LINK.up = true) ∧
    (1 < 2 ∧ 1 ≤ 4 ∧ 4 ≤ 4 ∧ bitN ((State.reset).get (pEth 1) ETH_CFG.spd) (4 - 1) = true) ∧
    (1 < 2 ∧ 1 ≤ 1 ∧ bitN (w475.get (pEth 1) ETH_CFG.spd) (1 - 1) = false) ∧
    (w320.clockOff pEth0 = false ∧ 1 < 2 ∧ 2 ∈ (w320.et 1).xoff ∧ w320.get (pEth 1) ETH_PFC.xon * 1024 ≤ w320.ethLevel 1 2 ∧
      w320.get (pEth 1) ETH_CAP.rate ≠ 0 ∧ pageBlocked w320 pEth0 = false ∧ pageBlocked w320 (pEth 1) = false) ∧
    ((pageBlocked w476 pEth0 = true ∨ pageBlocked w476 (pEth 1) = true)) ∧
    (w321.clockOff pEth0 = false ∧ 1 < 2 ∧ Tab.rd (w321.et 1).paused 2 = some 0 ∧ 0 ≤ w321.t64 0) ∧
    (Tab.rd (w477.et 1).paused 2 = some 5 ∧ w477.t64 0 < 5) := by
  refine ⟨?_, ?_, ?_, ?_, ?_, ?_, ?_, ?_, ?_, ?_, ?_, ?_, ?_, ?_⟩
  · decide +kernel
  · decide +kernel
  · decide +kernel
  · decide +kernel
  · decide +kernel
  · decide +kernel
  · exact ⟨by decide +kernel, by decide, by decide, by decide +kernel, by decide +kernel, by decide +kernel, by decide +kernel, by decide +kernel, by decide +kernel, fun k a b => by omega, by decide +kernel⟩
  · decide +kernel
  · decide +kernel
  · decide +kernel
  · decide +kernel
  · decide +kernel
  · decide +kernel
  · decide +kernel

end Sys2Proof
end

section
/-! PROOF. What an operation keeps: a property of states that is stable under the writes of which the operations are made, and
the canonical form of the stores as one such property. -/

namespace Sys2Proof.Machine

/-! Tables: a map of the entries that keeps the addresses keeps the order. -/

theorem Tab.sorted_of_wf {α : Type} [DecidableEq α] {d : Nat → α} {t : Tab α} (h : Tab.wf d t = true) :
    Tab.sorted t = true := by
  simp only [Tab.wf, Bool.and_eq_true] at h
  exact h.1

theorem Tab.sorted_filterMap {α β : Type} {t : Tab α} {f : Nat × α → Option (Nat × β)}
    (hf : ∀ e x, f e = some x → x.1 = e.1) (h : Tab.sorted t = true) : Tab.sorted (t.filterMap f) = true := by
  induction t with
  | nil => rfl
  | cons e r ih =>
    have hr := ih (Tab.sorted_of_cons h)
    simp only [List.filterMap_cons]
    split
    · exact hr
    · rename_i b hb
      refine Tab.sorted_cons hr fun x hx => ?_
      obtain ⟨y, hy, hyx⟩ := List.mem_filterMap.mp hx
      have hlt := Tab.sorted_tail_above e r h y hy
      rwa [← hf e b hb, ← hf y x hyx] at hlt

theorem Tab.wf_filterMap {α β : Type} [DecidableEq β] {d : Nat → β} {t : Tab α} {f : Nat × α → Option (Nat × β)}
    (h : Tab.sorted t = true) (hf : ∀ e x, f e = some x → x.1 = e.1 ∧ x.2 ≠ d x.1) : Tab.wf d (t.filterMap f) = true := by
  simp only [Tab.wf, Bool.and_eq_true, List.all_eq_true, decide_eq_true_eq]
  refine ⟨Tab.sorted_filterMap (fun e x hx => (hf e x hx).1) h, fun x hx => ?_⟩
  obtain ⟨y, _, hyx⟩ := List.mem_filterMap.mp hx
  exact (hf y x hyx).2

/-! Stable properties. -/

/-- A property that a write of a register word keeps, and so does any change of a part other than the queue, the time, the stores, the
held accesses and the Porter: what the operations on time's way (`State.tick`) do keeps it. -/
structure Stable (P : State → Prop) : Prop where
  setReg : ∀ {s : State} {a v}, P s → P (s.setReg a v)
  same : ∀ {s : State} {core task innk time prism prof pwm port fbk ale pipe stream holds envBlk envNotify gateEn wire heldPosts posted
      blocked srstBusy gating slLocked olSealed fcNotify fcStart jumpAt logq logAt dscrub scrubPos logScanned mwq ring
      eth isl clk console rdata freeN},
    P s → P (State.mk s.pending s.now s.cyc s.regs s.mem s.crs core task innk time prism prof pwm port fbk ale pipe stream holds
      envBlk envNotify gateEn wire heldPosts posted blocked srstBusy gating s.held slLocked olSealed fcNotify fcStart
      jumpAt logq logAt dscrub scrubPos logScanned mwq s.porter ring eth isl clk console rdata freeN)

/-- A state with a stable property. The operations carry it on, so that a proof about an operation is the list of the operations that
it is made of. -/
structure State.Kept (P : State → Prop) (s : State) : Prop where
  stable : Stable P
  holds : P s

/-- The stores of a state are in canonical form, as three named facts. -/
structure CanonicalStores (s : State) : Prop where
  regs : Tab.wf resetWord s.regs = true
  mem : Tab.wf (fun _ => (0 : Word)) s.mem = true
  crs : Tab.wf (fun _ => (0 : Word)) s.crs = true

theorem CanonicalStores.stable : Stable CanonicalStores where
  setReg h := ⟨Tab.wf_set _ _ _ _ h.regs, h.mem, h.crs⟩
  same h := ⟨h.regs, h.mem, h.crs⟩

/-- The canonical form as a kept property. -/
abbrev State.Canonical (s : State) : Prop := s.Kept CanonicalStores

theorem State.canonical_of {s : State} (hr : Tab.wf resetWord s.regs = true) (hm : Tab.wf (fun _ => (0 : Word)) s.mem = true)
    (hc : Tab.wf (fun _ => (0 : Word)) s.crs = true) : s.Canonical :=
  ⟨CanonicalStores.stable, hr, hm, hc⟩

theorem State.canonical_iff_wf {s : State} : s.Canonical ↔ s.wf = true := by
  simp only [State.wf, Bool.and_eq_true, and_assoc]
  exact ⟨fun h => ⟨h.holds.regs, h.holds.mem, h.holds.crs⟩, fun ⟨hr, hm, hc⟩ => State.canonical_of hr hm hc⟩

/-! The rules for every stable property. -/

section
variable {P : State → Prop} {s t : State} (h : s.Kept P)
include h

/-- The same queue, time, stores, held accesses and Porter. -/
theorem State.Kept.same {core task innk time prism prof pwm port fbk ale pipe stream holds envBlk envNotify gateEn wire heldPosts posted
      blocked srstBusy gating slLocked olSealed fcNotify fcStart jumpAt logq logAt dscrub scrubPos logScanned mwq ring
      eth isl clk console rdata freeN} :
    (State.mk s.pending s.now s.cyc s.regs s.mem s.crs core task innk time prism prof pwm port fbk ale pipe stream holds
      envBlk envNotify gateEn wire heldPosts posted blocked srstBusy gating s.held slLocked olSealed fcNotify fcStart
      jumpAt logq logAt dscrub scrubPos logScanned mwq s.porter ring eth isl clk console rdata freeN).Kept P :=
  ⟨h.stable, h.stable.same h.holds⟩

theorem State.Kept.setReg {a v} : (s.setReg a v).Kept P := ⟨h.stable, h.stable.setReg h.holds⟩

theorem State.Kept.ite {c : Prop} [Decidable c] (h' : t.Kept P) : (if c then s else t).Kept P := by
  split <;> assumption

omit h in
theorem State.Kept.iteFst {α : Type} {c : Prop} [Decidable c] {x y : State × α} (hx : x.1.Kept P) (hy : y.1.Kept P) :
    (if c then x else y).1.Kept P := by
  split <;> assumption

omit h in
theorem State.Kept.iteSnd {α : Type} {c : Prop} [Decidable c] {x y : α × State} (hx : x.2.Kept P) (hy : y.2.Kept P) :
    (if c then x else y).2.Kept P := by
  split <;> assumption

theorem State.Kept.foldl {α} {l : List α} {f : State → α → State} (hf : ∀ t x, t.Kept P → (f t x).Kept P) :
    (l.foldl f s).Kept P := by
  induction l generalizing s with
  | nil => exact h
  | cons x l ih => exact ih (hf _ _ h)

theorem State.Kept.overAll {l : List Nat} {f : Nat → State → State} (hf : ∀ k t, t.Kept P → (f k t).Kept P) :
    (Machine.overAll l s f).Kept P := by
  induction l generalizing s with
  | nil => exact h
  | cons k l ih => exact ih (hf _ _ h)

end

/-! The rules for the canonical form, which may also write memory and core registers and change any other part. -/

section
variable {s : State} (h : s.Canonical)
include h

/-- The same stores, whatever the other parts are. -/
theorem State.Kept.sameStores {pending now cyc core task innk time prism prof pwm port fbk ale pipe stream holds envBlk envNotify gateEn wire
      heldPosts posted blocked srstBusy gating held slLocked olSealed fcNotify fcStart jumpAt logq logAt dscrub
      scrubPos logScanned mwq porter ring eth isl clk console rdata freeN} :
    (State.mk pending now cyc s.regs s.mem s.crs core task innk time prism prof pwm port fbk ale pipe stream holds envBlk
      envNotify gateEn wire heldPosts posted blocked srstBusy gating held slLocked olSealed fcNotify fcStart jumpAt
      logq logAt dscrub scrubPos logScanned mwq porter ring eth isl clk console rdata freeN).Canonical :=
  State.canonical_of h.holds.regs h.holds.mem h.holds.crs

theorem State.Kept.setMem {a v} : (s.setMem a v).Canonical :=
  State.canonical_of h.holds.regs (Tab.wf_set _ _ _ _ h.holds.mem) h.holds.crs

theorem State.Kept.setCr {c i v} : (s.setCr c i v).Canonical :=
  State.canonical_of h.holds.regs h.holds.mem (Tab.wf_set _ _ _ _ h.holds.crs)

end

end Sys2Proof.Machine
end

section
/-! PROOF. The operations of Sys2Proof/Machine/Ops.lean on time's way keep a stable property. -/

namespace Sys2Proof.Machine

section
variable {P : State → Prop} {s : State} (h : s.Kept P)
include h

theorem State.Kept.put {p f v} : (s.put p f v).Kept P := h.setReg
theorem State.Kept.putI {p f i} : (s.putI p f i).Kept P := h.put
theorem State.Kept.putSat {p f i} : (s.putSat p f i).Kept P := h.putI
theorem State.Kept.inc {p f} : (s.inc p f).Kept P := h.put
theorem State.Kept.incMod {p f} : (s.incMod p f).Kept P := h.put
theorem State.Kept.setCo {c r} : (s.setCo c r).Kept P := h.same

end

end Sys2Proof.Machine
end

section
/-! PROOF. The operations of Sys2Proof/Machine/Operands.lean on time's way keep a stable property. -/

namespace Sys2Proof.Machine

section
variable {P : State → Prop} {s : State} (h : s.Kept P)
include h

theorem State.Kept.setCnt {b v} : (s.setCnt b v).Kept P := h.same
theorem State.Kept.moveCnt {b d} : (s.moveCnt b d).Kept P := h.setCnt

end

end Sys2Proof.Machine
end

section
/-! PROOF. The operations of Sys2Proof/Machine/Events.lean on time's way keep a stable property. -/

namespace Sys2Proof.Machine

section
variable {P : State → Prop} {s : State} (h : s.Kept P)
include h

theorem State.Kept.offerPost {q0} : (s.offerPost q0).Kept P := (h.ite h.same).ite h.same
theorem State.Kept.pagePost {p tag} : (s.pagePost p tag).Kept P := h.offerPost
theorem State.Kept.setPend {p bits} : (s.setPend p bits).Kept P := h.put.pagePost.same.ite h.put
theorem State.Kept.ev {p bit} : (s.ev p bit).Kept P := h.put.setPend.ite h.put
theorem State.Kept.raiseNmi {c src} : (s.raiseNmi c src).Kept P := h.put.put
theorem State.Kept.raiseNmiAll {src} : (s.raiseNmiAll src).Kept P := h.overAll (fun _ _ h' => h'.raiseNmi)
theorem State.Kept.setPr {ch r} : (s.setPr ch r).Kept P := h.same

theorem State.Kept.stopAtOnce {ch hres} {cnt : State → State} (hk : ∀ t, t.Kept P → (cnt t).Kept P) :
    (s.stopAtOnce ch hres cnt).Kept P := by
  unfold State.stopAtOnce
  extract_lets p r k v r1 r2 s1 lost s2
  have h1 : s1.Kept P := h.setPr.put.put.put.ev
  have h2 : s2.Kept P := h1.put.put.ite h1
  exact (hk _ h2.put.put.ev).ite h2

theorem State.Kept.fcBump {p} : (s.fcBump p).Kept P := h.inc.inc.ite h

theorem State.Kept.fcActionBy {p} {blk : State → ℕ → State} (hk : ∀ t a, t.Kept P → (blk t a).Kept P) :
    (State.fcActionBy blk s p).Kept P :=
  h.pagePost.ite (h.raiseNmiAll.ite (h.same.ite ((hk _ _ h).ite h)))

theorem State.Kept.fcStepBy {p} {blk : State → ℕ → State} (hk : ∀ t a, t.Kept P → (blk t a).Kept P) :
    (State.fcStepBy blk s p).1.Kept P := by
  simp only [State.fcStepBy]
  split
  exacts [h.fcBump.put.fcActionBy hk, h.fcBump]

theorem State.Kept.logLost : (s.logLost).Kept P := h.inc.ev
theorem State.Kept.noteBlocked {p} : (s.noteBlocked p).Kept P := h.same

theorem State.Kept.blockPlain {p} : (s.blockPlain p).Kept P := by
  unfold State.blockPlain
  split
  exacts [h.noteBlocked.stopAtOnce (fun _ h' => h'), h.noteBlocked]

theorem State.Kept.pushLog {r} : (s.pushLog r).Kept P :=
  have h1 : (s.logLost.fcStepBy State.blockPlain (pMem 3)).1.Kept P := h.logLost.fcStepBy (fun _ _ h' => h'.blockPlain)
  h.ite (h.same.ite (h1.logLost.fcBump.ite h1))

theorem State.Kept.fcBy {p} {blk : State → ℕ → State} (hk : ∀ t a, t.Kept P → (blk t a).Kept P) :
    (State.fcBy blk s p).Kept P :=
  have h1 : (s.fcStepBy blk p).1.Kept P := h.fcStepBy hk
  h1.pushLog.ite h1

theorem State.Kept.padCause {ch} : (s.padCause ch).Kept P :=
  (h.stopAtOnce fun _ h' => h'.fcBy fun _ _ h' => h'.blockPlain).ite h

theorem State.Kept.setTi {pin r} : (s.setTi pin r).Kept P := h.same
theorem State.Kept.tioFloat {pin} : (s.tioFloat pin).Kept P := h.setTi
theorem State.Kept.loseCore {c} : (s.loseCore c).Kept P := h.ite h.setCo

theorem State.Kept.blockOutputs {p} : (s.blockOutputs p).Kept P := by
  unfold State.blockOutputs
  extract_lets s0 _
  have h0 : s0.Kept P := h.noteBlocked
  split
  · exact h0.stopAtOnce fun _ h' => h'.fcBy fun _ _ h' => h'.blockPlain
  · exact h0.same
  · exact h0.padCause
  · exact h0.padCause
  · exact h0.padCause
  · exact h0.overAll fun _ _ h' => h'.padCause
  · exact h0.overAll fun _ _ h' => h'.tioFloat
  · exact h0.loseCore
  · exact h0

theorem State.Kept.fc {p} : (s.fc p).Kept P := h.fcBy fun _ _ h' => h'.blockOutputs
theorem State.Kept.evC {p bit} : (s.evC p bit).Kept P := h.ev.fc

theorem State.Kept.clocked {a} {k : State → State} (hk : ∀ t, t.Kept P → (k t).Kept P) : (s.clocked a k).Kept P :=
  h.ite (hk _ h)

end

end Sys2Proof.Machine
end

section
/-! PROOF. The operations of Sys2Proof/Machine/Innkeeper.lean on time's way keep a stable property. -/

namespace Sys2Proof.Machine

section
variable {P : State → Prop} {s : State} (h : s.Kept P)
include h

theorem State.Kept.prismRefuse {n reason act} : (s.prismRefuse n reason act).Kept P := h.put.put.inc.put.put.put.evC
theorem State.Kept.noteQueue : (s.noteQueue).Kept P := h.put.ite h

end

end Sys2Proof.Machine
end

section
/-! PROOF. The operations of Sys2Proof/Machine/Pwm.lean on time's way keep a stable property. -/

namespace Sys2Proof.Machine

section
variable {P : State → Prop} {s : State} (h : s.Kept P)
include h

theorem State.Kept.setPw {ch r} : (s.setPw ch r).Kept P := h.same
theorem State.Kept.setPo {p r} : (s.setPo p r).Kept P := h.same
theorem State.Kept.launch {ch x} : (s.launch ch x).Kept P := h.setPw.ite h.setPw

theorem State.Kept.launchBefore {ch t n} : (s.launchBefore ch t n).Kept P := by
  induction n generalizing s with
  | zero => exact h
  | succ n ih =>
    simp only [State.launchBefore]
    split
    exacts [h, .ite (ih h.launch) h]

theorem State.Kept.launchAll {ch t} : (s.launchAll ch t).Kept P := h.launchBefore
theorem State.Kept.recompute {ch} : (s.recompute ch).Kept P := h.launchAll.setPw

theorem State.Kept.copyShadow {ch all} : (s.copyShadow ch all).Kept P :=
  ((h.put.ite h).overAll (fun _ _ h' => h'.put.ite h')).put.put.incMod.ev

theorem State.Kept.transfer {ch} : (s.transfer ch).Kept P := h.ite (h.setPw.incMod.ev.ite h.setPw.copyShadow)
theorem State.Kept.transferMid {ch} : (s.transferMid ch).Kept P := h.transfer.recompute.ite h.transfer

theorem State.Kept.startCarrier {ch} : (s.startCarrier ch).Kept P := by
  unfold State.startCarrier
  refine h.ite (h.ev.ite ?_)
  -- The kernel evaluates the partition of the edges while the state is a term of writes; a name for the state stops it.
  obtain ⟨u, hu, hs⟩ : ∃ u : State, u.Kept P ∧ (s.copyShadow ch true).put (pPwm ch) PWM_BLK.run 1 = u :=
    ⟨_, h.copyShadow.put, rfl⟩
  rw [hs]
  exact hu.setPw.put.setPw

theorem State.Kept.trackNow {ch} : (s.trackNow ch).Kept P := (h.putI.ev.ite h.putI).setPw
theorem State.Kept.track {ch} : (s.track ch).Kept P := h.setPw.ite h.trackNow
theorem State.Kept.tripAct {ch} : (s.tripAct ch).Kept P := h.put.evC.ite h
theorem State.Kept.startMclk {port at_} : (s.startMclk port at_).Kept P := h.setPo.put
theorem State.Kept.outSettle : (s.outSettle).Kept P := h.overAll (fun _ _ h' => h'.ite h'.setPw)
theorem State.Kept.openWindow {ch} : (s.openWindow ch).Kept P := h.ite (h.ev.ite (h.ite h.startMclk).setPw)

end

end Sys2Proof.Machine
end

section
/-! PROOF. The operations of Sys2Proof/Machine/Fbk.lean on time's way keep a stable property. -/

namespace Sys2Proof.Machine

section
variable {P : State → Prop} {s : State} (h : s.Kept P)
include h

theorem State.Kept.setFb {ch r} : (s.setFb ch r).Kept P := h.same
theorem State.Kept.emuMatch {src} : (s.emuMatch src).Kept P := h.overAll (fun _ _ h' => h'.setFb.ite h')
theorem State.Kept.putTarget {ch t} : (s.putTarget ch t).Kept P := h.put.put
theorem State.Kept.cmpSkip {ch new} : (s.cmpSkip ch new).Kept P := h.ite h.putTarget.put.ev

theorem State.Kept.cmpMove {ch old new t} : (s.cmpMove ch old new t).Kept P := by
  unfold State.cmpMove
  extract_lets p st c s1 s2 s3 s4
  have h2 : s2.Kept P := h.put.put.incMod.ev.putTarget
  have h3 : s3.Kept P := h2.ite h2.put
  have h4 : s4.Kept P := h3.put.ite h3.cmpSkip
  exact (h4.emuMatch.ite h4).ite h

theorem State.Kept.cmpLoad {ch old new} : (s.cmpLoad ch old new).Kept P := h.cmpSkip.ite h

theorem State.Kept.cmpSettle {ch} : (s.cmpSettle ch).Kept P := by
  unfold State.cmpSettle
  split
  exacts [h, h.setFb.cmpMove.ite h.setFb.cmpLoad]

theorem State.Kept.latchSettle {ch} : (s.latchSettle ch).Kept P := h.setFb.ite h
theorem State.Kept.fbkSettle : (s.fbkSettle).Kept P := h.overAll (fun _ _ h' => h'.cmpSettle.latchSettle)
theorem State.Kept.fbkLatch {ch prism} : (s.fbkLatch ch prism).Kept P := h.ite (h.setFb.ite (h.ev.ite h.setFb))

end

end Sys2Proof.Machine
end

section
/-! PROOF. The operations of Sys2Proof/Machine/Ale.lean on time's way keep a stable property. -/

namespace Sys2Proof.Machine

section
variable {P : State → Prop} {s : State} (h : s.Kept P)
include h

theorem State.Kept.setAl {ch r} : (s.setAl ch r).Kept P := h.same

theorem State.Kept.aleRefs {ch} : (s.aleRefs ch).Kept P :=
  h.setAl.put.incMod.put.put.ite (((h.setAl.setAl.ite h.setAl).put.evC.ite h.setAl).ite h)

theorem State.Kept.aleWake {ch c tc} : (s.aleWake ch c tc).Kept P := h.ite (h.aleRefs.evC.ite h.aleRefs).setAl

end

end Sys2Proof.Machine
end

section
/-! PROOF. The operations of Sys2Proof/Machine/Sdm.lean on time's way keep a stable property. -/

namespace Sys2Proof.Machine

section
variable {P : State → Prop} {s : State} (h : s.Kept P)
include h

theorem State.Kept.mclkTick : (s.mclkTick).Kept P :=
  h.overAll (fun _ _ h' => (h'.setPo.overAll (fun _ _ h1 => h1.setPw.ite h1)).ite h')

theorem State.Kept.centreTick : (s.centreTick).Kept P := by
  unfold State.centreTick
  refine h.overAll (fun _ _ h' => ?_)
  split
  exacts [h', h'.setPw.ite h']

theorem State.Kept.startStage {ch} : (s.startStage ch).Kept P := h.startCarrier.aleWake.ite h.startCarrier

theorem State.Kept.pwmEdge {ch} : (s.pwmEdge ch).Kept P := by
  refine h.clocked fun s h => ?_
  extract_lets p r runs com start s0 s1 _ s2
  have h0 : s0.Kept P := h.setPw
  have h1 : s1.Kept P := h0.track.ite h0
  have h2 : s2.Kept P := h1.ite (h1.startStage.ite (h1.setPw.ite h1))
  exact h2.transferMid.ite h2

end

end Sys2Proof.Machine
end

section
/-! PROOF. The operations of Sys2Proof/Machine/Prof.lean on time's way keep a stable property. -/

namespace Sys2Proof.Machine

section
variable {P : State → Prop} {s : State} (h : s.Kept P)
include h

theorem State.Kept.showLevel {ch} : (s.showLevel ch).Kept P := h.put

theorem State.Kept.streamDrop {ch} : (s.streamDrop ch).Kept P := by
  simp only [State.streamDrop]
  split
  exacts [h.setPr.showLevel.ite h, h]

theorem State.Kept.showLag {ch} : (s.showLag ch).Kept P := h.put.setPr.evC.ite (h.put.setPr.ite h.put)

theorem State.Kept.stepsDue {ch} : (s.stepsDue ch).Kept P := by
  simp only [State.stepsDue]
  split
  exacts [h, h.setPr.showLag]

theorem State.Kept.stepTurn {ch} : (s.stepTurn ch).Kept P := h.setPr.ite h

theorem State.Kept.resMeet {ch} : (s.resMeet ch).Kept P := by
  simp only [State.resMeet]
  split
  exacts [h, h.setPr.put.ev.ite h.setPr]

theorem State.Kept.profEdge {ch} : (s.profEdge ch).Kept P :=
  h.clocked (fun _ h' => h'.streamDrop.stepsDue.stepTurn.resMeet)

theorem State.Kept.profEdges : (s.profEdges).Kept P := h.overAll (fun _ _ h' => h'.profEdge)
theorem State.Kept.profLatch {ch} : (s.profLatch ch).Kept P := h.ite h.put.put.putSat.putSat.put.put.incMod

end

end Sys2Proof.Machine
end

section
/-! PROOF. The operations of Sys2Proof/Machine/Time.lean on time's way keep a stable property. -/

namespace Sys2Proof.Machine

section
variable {P : State → Prop} {s : State} (h : s.Kept P)
include h

theorem State.Kept.trgDisarm {n code} : (s.trgDisarm n code).Kept P := h.put.put.put.same
theorem State.Kept.setTrgTime {n t} : (s.setTrgTime n t).Kept P := h.put.put
theorem State.Kept.walkVisit {b v n} : (s.walkVisit b v n).Kept P := (h.trgDisarm.ite h.put.setTrgTime).ite h

theorem State.Kept.walkEdge {i} : (s.walkEdge i).Kept P := by
  unfold State.walkEdge
  split
  exacts [h, h.overAll (fun _ _ h' => h'.walkVisit)]

theorem State.Kept.noteSlew : (s.noteSlew).Kept P := h.put.ite h
theorem State.Kept.select {st b} : (s.select st b).Kept P := h.ite (h.put.put.ev.same.put.evC.ite h.put.put.ev.noteSlew)
theorem State.Kept.noteRevert : (s.noteRevert).Kept P := h.same

theorem State.Kept.selector : (s.selector).Kept P :=
  (h.ite (h.select.ite ((h.select.ite h.select).ite (h.select.ite (h.select.ite
    (h.select.ite h.select)))))).noteRevert.noteSlew

theorem State.Kept.timeTick : (s.timeTick).Kept P :=
  ((h.moveCnt.overAll (fun _ _ h' => h'.moveCnt)).moveCnt.ite (h.moveCnt.overAll (fun _ _ h' => h'.moveCnt))).selector

end

end Sys2Proof.Machine
end

section
/-! PROOF. The operations of Sys2Proof/Machine/Prism.lean on time's way keep a stable property. -/

namespace Sys2Proof.Machine

section
variable {P : State → Prop} {s : State} (h : s.Kept P)
include h

theorem State.Kept.tioEdge {pin lv t} : ((s.tioEdge pin lv t).1).Kept P := by
  simp only [State.tioEdge]
  split
  · exact h
  · split
    · split
      exacts [h, h.setTi]
    · exact h.setTi

theorem State.Kept.tioFallDue {pin t} : (s.tioFallDue pin t).Kept P := by
  unfold State.tioFallDue
  split
  exacts [h, (h.setTi.tioEdge.prismRefuse.ite h.setTi.tioEdge).ite h]

theorem State.Kept.tioDo {x} : (s.tioDo x).Kept P :=
  h.ite (h.tioFallDue.prismRefuse.ite (h.tioFallDue.tioEdge.setTi.ite (h.tioFallDue.tioEdge.setTi.ite h.tioFallDue.tioEdge)))

theorem State.Kept.doAct {x} : (s.doAct x).Kept P :=
  (h.overAll fun _ _ h' => h'.setPw).ite ((h.overAll fun _ _ h' => h'.openWindow).ite
    ((h.overAll fun _ _ h' => h'.fbkLatch.profLatch).ite (h.tioDo.ite h)))

theorem State.Kept.dueActs : (s.dueActs).Kept P := h.same.foldl (fun _ _ h' => h'.doAct)
theorem State.Kept.prismTick : (s.prismTick).Kept P := h.same.walkEdge.ite h.same

end

end Sys2Proof.Machine
end

section
/-! PROOF. The operations of Sys2Proof/Machine/Tick.lean on time's way keep a stable property. -/

namespace Sys2Proof.Machine

section
variable {P : State → Prop} {s : State} (h : s.Kept P)
include h

theorem State.Kept.sscTick : (s.sscTick).Kept P := h.same.ite h
theorem State.Kept.pwmTick : (s.pwmTick).Kept P := h.overAll (fun _ _ h' => h'.setPw)
theorem State.Kept.pwmEdges : (s.pwmEdges).Kept P := h.overAll (fun _ _ h' => h'.pwmEdge.tripAct)
theorem State.Kept.busyTick : (s.busyTick).Kept P := h.same.ite h
theorem State.Kept.stallTick {n} : (s.stallTick n).Kept P := h.overAll (fun _ _ h' => h'.put)
theorem State.Kept.doccTick : (s.doccTick).Kept P := h.overAll (fun _ _ h' => h'.put.ite h')

theorem State.Kept.pclkTick : (s.pclkTick).Kept P :=
  h.timeTick.prismTick.pwmTick.mclkTick.centreTick.dueActs.pwmEdges.profEdges.ite h

end

end Sys2Proof.Machine
end

section
/-! PROOF. The other operations of Sys2Proof/Machine/Ops.lean keep the stores in canonical form. -/

namespace Sys2Proof.Machine

section
variable {s : State} (h : s.Canonical)
include h

theorem State.Kept.setTa {t r} : (s.setTa t r).Canonical := h.sameStores

end

end Sys2Proof.Machine
end

section
/-! PROOF. The other operations of Sys2Proof/Machine/Operands.lean keep the stores in canonical form. -/

namespace Sys2Proof.Machine

section
variable {s : State} (h : s.Canonical)
include h

theorem State.Kept.holdSet {core kind a l} : (s.holdSet core kind a l).Canonical := h.sameStores
theorem State.Kept.holdDrop {core kind} : (s.holdDrop core kind).Canonical := h.sameStores

end

end Sys2Proof.Machine
end

section
/-! PROOF. The other operations of Sys2Proof/Machine/Events.lean keep the stores in canonical form. -/

namespace Sys2Proof.Machine

section
variable {s : State} (h : s.Canonical)
include h

theorem State.Kept.refuse {p} : (s.refuse p).Canonical := h.inc

theorem State.Kept.writeWord {ini a v} {k : State → State} (hk : ∀ t, t.Canonical → (k t).Canonical) :
    (s.writeWord ini a v k).Canonical :=
  h.ite (h.sameStores.ite (hk _ h))

theorem State.Kept.readWord {a} {k : State → State} (hk : ∀ t, t.Canonical → (k t).Canonical) : (s.readWord a k).Canonical :=
  h.ite (hk _ h)

end

end Sys2Proof.Machine
end

section
/-! PROOF. The other operations of Sys2Proof/Machine/Tasks.lean keep the stores in canonical form. -/

namespace Sys2Proof.Machine

section
variable {s : State} (h : s.Canonical)
include h

theorem State.Kept.setTskState {t v} : (s.setTskState t v).Canonical := h.put
theorem State.Kept.noteLevel {lvl} : (s.noteLevel lvl).Canonical := h.put.ite h
theorem State.Kept.stampTask {t} : (s.stampTask t).Canonical := h.setTa.sameStores
theorem State.Kept.list {t st} : (s.list t st).Canonical := h.setTskState.stampTask.noteLevel

theorem State.Kept.saveCtx {c t} : (s.saveCtx c t).Canonical :=
  ((h.overAll (fun _ _ h' => h'.setReg)).setReg.overAll (fun _ _ h1 => h1.setReg)).put

theorem State.Kept.loadCtx {c t} : (s.loadCtx c t).Canonical :=
  ((h.overAll (fun _ _ h' => h'.setCr)).overAll (fun _ _ h1 => h1.setCr)).overAll (fun _ _ h2 => h2.setCr)

theorem State.Kept.clearCtx {c} : (s.clearCtx c).Canonical := h.overAll (fun _ _ h' => h'.setCr)
theorem State.Kept.freeCore {c} : (s.freeCore c).Canonical := h.setCo.put

theorem State.Kept.endFault {c} : (s.endFault c).Canonical := by
  unfold State.endFault
  split
  exacts [h.setCo, h.freeCore.ite h.saveCtx.setTskState.inc.evC.freeCore]

theorem State.Kept.tryDrain {c} : (s.tryDrain c).Canonical := h.endFault.ite h

theorem State.Kept.haltCore {c} : (s.haltCore c).Canonical := by
  unfold State.haltCore
  split
  exacts [h.setCo.put.evC, h.setCo.put.evC.freeCore.ite h.setCo.put.evC.put.setTskState.inc.evC.freeCore]

theorem State.Kept.recordExc {c cause pc info impr} : (s.recordExc c cause pc info impr).Canonical :=
  h.put.put.put.put.put.put.evC.ite h.inc.evC

theorem State.Kept.takeExc {c cause pc info impr} : (s.takeExc c cause pc info impr).Canonical :=
  h.haltCore.ite (h.recordExc.setCo.tryDrain.ite h.recordExc)

theorem State.Kept.setPc {c v} : (s.setPc c v).Canonical := h.setCr
theorem State.Kept.lbEnd {c l} : (s.lbEnd c l).Canonical := h.setCr
theorem State.Kept.loopOut {c l} : (s.loopOut c l).Canonical := h.setCr.lbEnd
theorem State.Kept.loopBack {c l} : (s.loopBack c l).Canonical := h.setCr.setPc
theorem State.Kept.endLevel0 {c} : (s.endLevel0 c).Canonical := h.loopBack.ite (h.loopOut.ite h).setPc
theorem State.Kept.advance {c} : (s.advance c).Canonical := h.setPc.ite (h.loopBack.ite (h.loopOut.ite h).endLevel0)
theorem State.Kept.jumpTo {c target} : (s.jumpTo c target).Canonical := ((h.lbEnd.ite h).lbEnd.ite (h.lbEnd.ite h)).setPc
theorem State.Kept.setG {c i v} : (s.setG c i v).Canonical := h.ite h.setCr
theorem State.Kept.setGIn {c bank i v} : (s.setGIn c bank i v).Canonical := h.ite h.setCr
theorem State.Kept.recordWait {t q} : (s.recordWait t q).Canonical := h.ite (h.put.put.put.ite h.put).put.put

theorem State.Kept.issued {c} : (s.issued c).Canonical := by
  unfold State.issued
  split
  exacts [h.setTa.recordWait, h]

theorem State.Kept.instr {c i extra regs} {k : State → State} (hk : ∀ t, t.Canonical → (k t).Canonical) :
    (s.instr c i extra regs k).Canonical :=
  h.ite (h.issued.takeExc.ite ((hk _ h.issued).ite h))

end

end Sys2Proof.Machine
end

section
/-! PROOF. The other operations of Sys2Proof/Machine/Innkeeper.lean keep the stores in canonical form. -/

namespace Sys2Proof.Machine

section
variable {s : State} (h : s.Canonical)
include h

theorem State.Kept.tellProducer {q code} : (s.tellProducer q code).Canonical :=
  (h.prismRefuse.ite h).ite ((h.put.ite h).ite ((h.inc.ev.ite h).ite h.setCo))

theorem State.Kept.refusePost {q code} : (s.refusePost q code).Canonical := by
  unfold State.refusePost
  extract_lets s1 s2 s3 s4
  have h1 : s1.Canonical := h.ite h.inc
  have h2 : s2.Canonical := h1.inc.ite (h1.inc.ite h1.inc)
  have h4 : s4.Canonical := h2.put.put.put.put.evC
  exact (h4.ev.ite h4).tellProducer

theorem State.Kept.noteStuck {t} : (s.noteStuck t).Canonical := h.setTa.evC.ite (h.setTa.ite h)

theorem State.Kept.decide_ {l n used} : (Machine.decide_ s l n used).Canonical := by
  induction l generalizing s n used with
  | nil => exact h
  | cons t r ih =>
    simp only [Machine.decide_]
    refine h.ite ?_
    split
    · exact ih h.setCo
    · split
      exacts [ih h.setCo, ih h]

theorem State.Kept.occupy {c t} : (s.occupy c t).Canonical := h.setTskState.put.put.put.setCo.incMod
theorem State.Kept.activate {c t} : (s.activate c t).Canonical := h.setTa.put.put.put.clearCtx.setPc.setCr.occupy
theorem State.Kept.resumeTask {c t} : (s.resumeTask c t).Canonical := h.loadCtx.occupy
theorem State.Kept.startTask {c t} : (s.startTask c t).Canonical := h.activate.ite (h.resumeTask.ite h.setCo)
theorem State.Kept.suspend {c u} : (s.suspend c u).Canonical := h.ite h.saveCtx.setTskState.noteLevel
theorem State.Kept.unassign {t} : (s.unassign t).Canonical := h.overAll (fun _ _ h' => h'.setCo.ite (h'.setCo.ite h'))
theorem State.Kept.cancelPend {t} : (s.cancelPend t).Canonical := h.put.put.setTa.sameStores.ite h.put.put.setTa
theorem State.Kept.cmdResult {t res removed} : (s.cmdResult t res removed).Canonical := h.put.put.put
theorem State.Kept.cmdRefused {t} : (s.cmdRefused t).Canonical := h.cmdResult.ev
theorem State.Kept.cmdFields {op t} : (s.cmdFields op t).Canonical := h.put.put

theorem State.Kept.doCancel {t} : (Machine.doCancel t s).Canonical :=
  h.ite ((h.cmdFields.cancelPend.setTskState.unassign.ite h.cmdFields.cancelPend).cmdResult.ite h.cmdFields.cmdRefused)

theorem State.Kept.doClear {t} : (Machine.doClear t s).Canonical :=
  h.ite ((h.cmdFields.put.list.ite h.cmdFields.put.setTskState).cmdResult.ite h.cmdFields.cmdRefused)

theorem State.Kept.doResumeCommand {t} : (Machine.doResumeCommand t s).Canonical :=
  h.ite (h.cmdFields.list.cmdResult.ite h.cmdFields.cmdRefused)

theorem State.Kept.doClearStatistics {t} : (Machine.doClearStatistics t s).Canonical :=
  h.ite (h.cmdFields.setReg.setReg.setReg.setReg.cmdResult.ite h.cmdFields.cmdRefused)

theorem State.Kept.doTskCfgWrite {t v} : (Machine.doTskCfgWrite t v s).Canonical := by
  unfold Machine.doTskCfgWrite
  extract_lets e w st s0 s1
  have h0 : s0.Canonical := h.cancelPend.ite h
  have h1 : s1.Canonical := h0.put.put.put
  refine h.ite (.ite ?_ (h1.setTskState.ite (h1.noteLevel.ite h1)))
  exact h1.setTskState.unassign.ite (h1.setTskState.put.ite (h1.noteLevel.ite h1))

theorem State.Kept.doTskAffWrite {t hi v} : (Machine.doTskAffWrite t hi v s).Canonical := h.ite (h.put.ite h.put)
theorem State.Kept.doContextWrite {t w v} : (Machine.doContextWrite t w v s).Canonical := h.ite (h.setReg.ite h.ev)
theorem State.Kept.loadStart : (s.loadStart).Canonical := (h.overAll (fun _ _ h' => h'.setCo)).sameStores

theorem State.Kept.doInnkSrst : (Machine.doInnkSrst s).Canonical := by
  unfold Machine.doInnkSrst
  extract_lets s1 keep _ s2 s3
  have h1 : s1.Canonical := h.foldl (fun _ _ h' => h'.tellProducer)
  have h2 : s2.Canonical := State.canonical_of (Tab.wf_filter _ _ _ h1.holds.regs) h1.holds.mem h1.holds.crs
  have h3 : s3.Canonical := h2.overAll (fun _ _ h' => h'.ite h'.setCo)
  exact h3.sameStores.loadStart

theorem State.Kept.loadCfgWrite {v} : (s.loadCfgWrite v).Canonical := by
  unfold State.loadCfgWrite
  extract_lets w on s1 s2 fresh s3
  have h1 : s1.Canonical := h.put
  have h2 : s2.Canonical := h1.put.ite h1
  have h3 : s3.Canonical := h2.loadStart.ite h2
  exact h3.ite h3.fc

end

end Sys2Proof.Machine
end

section
/-! PROOF. The other operations of Sys2Proof/Machine/Pwm.lean keep the stores in canonical form. -/

namespace Sys2Proof.Machine

section
variable {s : State} (h : s.Canonical)
include h

theorem State.Kept.noteRefused {a r} : (s.noteRefused a r).Canonical := h.refuse.ite h
theorem State.Kept.plainWrite {ini a v} : (s.plainWrite ini a v).Canonical := h.setReg.noteRefused
theorem State.Kept.holdPads {ch} : (s.holdPads ch).Canonical := h.setPw
theorem State.Kept.envViolate {ch} : (s.envViolate ch).Canonical := h.sameStores.holdPads.padCause
theorem State.Kept.stopCarrier {ch} : (s.stopCarrier ch).Canonical := h.setPw.put.ev.ite h

theorem State.Kept.doPwmCfgWrite {ini ch v} : (Machine.doPwmCfgWrite ini ch v s).Canonical :=
  h.ite (h.noteRefused.ev.ite (h.noteRefused.setReg.stopCarrier.ite h.noteRefused.setReg))

theorem State.Kept.dutyViolate {ch} : (s.dutyViolate ch).Canonical := h.ev.envViolate
theorem State.Kept.setCmp {ch k m} : (s.setCmp ch k m).Canonical := h.put.put
theorem State.Kept.goNext {ch} : (s.goNext ch).Canonical := h.setPw
theorem State.Kept.reloadNow {ch} : (s.reloadNow ch).Canonical := h.goNext.ite h
theorem State.Kept.noteShadow {ch} : (s.noteShadow ch).Canonical := h.ev.ite h

theorem State.Kept.doShadowWrite {ini ch off v} : (Machine.doShadowWrite ini ch off v s).Canonical :=
  h.ite ((h.ev.ite (h.dutyViolate.ite h.noteShadow.put.put.reloadNow)).ite ((h.ev.ite
    (h.dutyViolate.ite h.noteShadow.setCmp.reloadNow)).ite h))

theorem State.Kept.doPwmCommitStart {ch} : (Machine.doPwmCommitStart ch s).Canonical := h.setPw.ite h
theorem State.Kept.doPwmCommitStop {ch} : (Machine.doPwmCommitStop ch s).Canonical := h.setPw.ite h
theorem State.Kept.doPwmCommitGo {ch} : (Machine.doPwmCommitGo ch s).Canonical := h.goNext.ite h
theorem State.Kept.doCarrierCentre {ch} : (Machine.doCarrierCentre ch s).Canonical := (h.setPw.transferMid.ite h.setPw).ite h

theorem State.Kept.newPeriod {ch} : (s.newPeriod ch).Canonical := by
  unfold State.newPeriod
  extract_lets p s0 r rl due s1 _ keep legs s1' s2 L _ s3 _ s4
  have h0 : s0.Canonical := h.launchAll
  have h1' : s1'.Canonical := h0.setPw
  have h2 : s2.Canonical := h1'.transfer.ite h1'
  have h4 : s4.Canonical := h2.setPw.put.setPw
  exact (h0.transfer.ite h0).put.stopCarrier.setPw.ite (h4.trackNow.ite h4).tripAct

theorem State.Kept.doGateEdge {ch} : (Machine.doGateEdge ch s).Canonical := h.ite h.launchBefore
theorem State.Kept.doTripQualified {ch active n} : (Machine.doTripQualified ch active n s).Canonical := h.ite h.setPw.tripAct

theorem State.Kept.doDlcalMeasure {port count} : (Machine.doDlcalMeasure port count s).Canonical := by
  unfold Machine.doDlcalMeasure
  extract_lets p r n near good s1 s2
  have h1 : s1.Canonical := h.put.setPo
  have h2 : s2.Canonical := h1.put
  exact h.ite ((h1.put.overAll fun _ _ h' => h'.evC).ite (((h2.overAll fun _ _ h' => h'.ev).ite h2).ite h1))

theorem State.Kept.doPortMclkWrite {port v} : (Machine.doPortMclkWrite port v s).Canonical := by
  unfold Machine.doPortMclkWrite
  extract_lets p w en same s1 runs _
  have h1 : s1.Canonical := h.put.put.put.put
  exact h.ite (h.evC.ite ((h1.setPo.ite h1).ite ((h1.setPo.ite h1).ite (h1.startMclk.ite h1))))

theorem State.Kept.doSdCfgWrite {ch v} : (Machine.doSdCfgWrite ch v s).Canonical := h.ite (h.ev.ite h.plainWrite.setPw)

end

end Sys2Proof.Machine
end

section
/-! PROOF. The other operations of Sys2Proof/Machine/Fbk.lean keep the stores in canonical form. -/

namespace Sys2Proof.Machine

section
variable {s : State} (h : s.Canonical)
include h

theorem State.Kept.setUnc {ch} : (s.setUnc ch).Canonical := h.setFb.put
theorem State.Kept.speedEdge {ch t dn} : (s.speedEdge ch t dn).Canonical := h.setFb.ite h.setFb.put
theorem State.Kept.emuLag {e} : (s.emuLag e).Canonical := h.put.put.ev.ite (h.put.put.ite h.put)
theorem State.Kept.emuRefresh {src} : (s.emuRefresh src).Canonical := h.overAll (fun _ _ h' => h'.emuLag.ite h')
theorem State.Kept.putCount {ch n} : (s.putCount ch n).Canonical := h.setFb
theorem State.Kept.countBy {ch dn} : (s.countBy ch dn).Canonical := h.putCount.setUnc.ite h.putCount
theorem State.Kept.fixLatches {ch e} : (s.fixLatches ch e).Canonical := h.setFb
theorem State.Kept.latchCount {ch e dn} : (s.latchCount ch e dn).Canonical := h.setFb
theorem State.Kept.illegalEdge {ch} : (s.illegalEdge ch).Canonical := h.setFb.setUnc.evC
theorem State.Kept.lateEdge {ch dn} : (s.lateEdge ch dn).Canonical := (h.countBy.setFb.ite h.countBy.setFb).ite h

theorem State.Kept.countMove {ch dn} : (s.countMove ch dn).Canonical :=
  (h.latchCount.lateEdge.ite h.latchCount.countBy).speedEdge.setFb.emuRefresh

theorem State.Kept.doCountEdge {ch a0 b0} : (Machine.doCountEdge ch a0 b0 s).Canonical := by
  unfold Machine.doCountEdge
  extract_lets m a b s0
  have h0 : s0.Canonical := h.fixLatches
  refine h.ite ?_
  split
  exacts [h0.setFb.put, h0.ite (h0.setFb.illegalEdge.ite h0.setFb.countMove)]

theorem State.Kept.doLineFault {ch line bad} : (Machine.doLineFault ch line bad s).Canonical :=
  (h.setFb.ite (h.ite h.setFb.setUnc.evC)).ite h

theorem State.Kept.loadPos {ch x} : (s.loadPos ch x).Canonical :=
  (h.setFb.putCount.ite h.setFb.setFb).setFb.put.cmpLoad.emuRefresh

theorem State.Kept.doFbkLoad {ch} : (Machine.doFbkLoad ch s).Canonical := h.loadPos.ite h
theorem State.Kept.doFbkClrunc {ch} : (Machine.doFbkClrunc ch s).Canonical := h.put.ite h

theorem State.Kept.doFbkPosRead {core ch} : (Machine.doFbkPosRead core ch s).Canonical := h.ite
    (h.sameStores.holdSet.ite h.sameStores)

theorem State.Kept.snapCount {ch d} : (s.snapCount ch d).Canonical := (h.countBy.ite h.countBy.cmpLoad).emuRefresh

theorem State.Kept.indexPolicy {ch d} : (s.indexPolicy ch d).Canonical :=
  (h.evC.ite h).ite ((h.put.ite h.put.snapCount).put.ite ((h.put.ite h.put.snapCount).evC.ite h.put))

theorem State.Kept.indexEdge {ch} : (s.indexEdge ch).Canonical := h.setFb.put.putI.put.put.ev.indexPolicy.put.put
theorem State.Kept.doZFall {ch} : (Machine.doZFall ch s).Canonical := h.setFb.ite h
theorem State.Kept.scPosition {ch phi a2} : (s.scPosition ch phi a2).Canonical := h.illegalEdge.setFb.ite h.setFb.emuRefresh

theorem State.Kept.doSincosSample {ch sn cs} : (Machine.doSincosSample ch sn cs s).Canonical := by
  unfold Machine.doSincosSample
  extract_lets p v a2 phi s1 _ s2
  have h1 : s1.Canonical := h.put.put
  have h2 : s2.Canonical := h1.setFb.setUnc.evC.ite h1
  exact h.ite (h2.scPosition.ite h2)

theorem State.Kept.goodFrame {ch f q rest} : (s.goodFrame ch f q rest).Canonical := by
  unfold State.goodFrame
  extract_lets p r old raw st fr first s1 s2 s3 s4 s5
  have h2 : s2.Canonical := h.setFb.put.put
  have h3 : s3.Canonical := h2.put.ite h2
  have h4 : s4.Canonical := h3.ite h3.put
  have h5 : s5.Canonical := h4.overAll fun _ _ h' => h'.put.ite h'
  exact h5.cmpMove.emuRefresh

theorem State.Kept.badFrame {ch cause q rest} : (s.badFrame ch cause q rest).Canonical :=
  (h.setFb.put.incMod.evC.setUnc.put.ite h.setFb.put.incMod.evC.setUnc).ite h.setFb.put.incMod.evC

theorem State.Kept.bissEnd {ch e} : (s.bissEnd ch e).Canonical := by
  unfold State.bissEnd
  split
  exacts [h, (h.setFb.put.put.put.ite h.setFb.put.put).ev.ite h]

theorem State.Kept.doSerialFrameEnd {ch f} : (Machine.doSerialFrameEnd ch f s).Canonical := by
  unfold Machine.doSerialFrameEnd
  extract_lets p m cause _ w s0
  have hw : w.Canonical := h.setFb
  have h0 : s0.Canonical := hw.put.put.ite hw
  refine h.ite ?_
  split
  · exact h
  · rename_i q rest _
    have h1 : (if cause = 0 then s0.goodFrame ch f q rest else s0.badFrame ch cause q rest).Canonical :=
      h0.goodFrame.ite h0.badFrame
    exact h.ite (h1.bissEnd.ite h1)

theorem State.Kept.doBissReq {ch v} : (Machine.doBissReq ch v s).Canonical :=
  h.ite ((h.ev.ite h.plainWrite.put.put.setFb).ite h.plainWrite)

theorem State.Kept.doWatchLatch {ch} : (Machine.doWatchLatch ch s).Canonical := h.fbkLatch.ite h

theorem State.Kept.streamSet {ch x} : (s.streamSet ch x).Canonical := by
  unfold State.streamSet
  refine State.Kept.sameStores ?_
  split
  exacts [h, h.inc.ite h.sameStores]

theorem State.Kept.putLatch {ch x} : (s.putLatch ch x).Canonical :=
  h.put.put.putSat.put.put.put.put.put.put.put.put.setFb.incMod.ev

theorem State.Kept.doLatchSetReady {ch} : (Machine.doLatchSetReady ch s).Canonical := by
  unfold Machine.doLatchSetReady
  refine h.ite ?_
  split
  · exact h
  · extract_lets x _ s1 s2 s3
    have h1 : s1.Canonical := h.setFb
    have h3 : s3.Canonical := (h1.putLatch.ite h1).streamSet
    exact h.ite (h3.envViolate.put.evC.ite h3)

theorem State.Kept.doFbkLatRead {core ch} : (Machine.doFbkLatRead core ch s).Canonical := h.ite
    (h.sameStores.holdSet.ite h.sameStores)

theorem State.Kept.doEmulationEdge {ch} : (Machine.doEmulationEdge ch s).Canonical := h.ite h.setFb.emuLag
theorem State.Kept.doEmulationZPulseEnd {ch} : (Machine.doEmulationZPulseEnd ch s).Canonical := h.setFb.ite h

theorem State.Kept.doFbkSupWrite {ini ch v} : (Machine.doFbkSupWrite ini ch v s).Canonical := by
  unfold Machine.doFbkSupWrite
  extract_lets p a w b m s0 on held sel s1
  have h0 : s0.Canonical := h.noteRefused
  have h1 : s1.Canonical := h0.ev.ite h0
  exact h.ite (h0.ev.ite (h1.setReg.put.put.ite (h0.ev.ite ((h1.setReg.ite h1.setReg.put).ite h1.setReg.put))))

theorem State.Kept.supUnc {ch} : (s.supUnc ch).Canonical := h.setUnc.ite h
theorem State.Kept.doSupplyOk {ch} : (Machine.doSupplyOk ch s).Canonical := h.put.ite h

theorem State.Kept.doSupplyOvercurrent {ch ma} : (Machine.doSupplyOvercurrent ch ma s).Canonical :=
  h.put.put.put.put.supUnc.evC.ite h

theorem State.Kept.doSupplyUndervoltage {ch} : (Machine.doSupplyUndervoltage ch s).Canonical := h.put.supUnc.evC.ite h

theorem State.Kept.doFbkCfgWrite {ch v} : (Machine.doFbkCfgWrite ch v s).Canonical :=
  h.ite (h.ev.ite ((h.put.ev.ite h.put).ite h.plainWrite))

theorem State.Kept.fbkWrite {ini ch off v} : (s.fbkWrite ini ch off v).Canonical := by
  unfold State.fbkWrite
  extract_lets p s1
  have h1 : s1.Canonical := h.doFbkLoad.ite h
  exact h.doFbkCfgWrite.ite ((h1.doFbkClrunc.ite h1).ite
    (h.doBissReq.ite (h.doFbkSupWrite.ite (h.noteRefused.ev.ite h.plainWrite))))

theorem State.Kept.fbkEnable {ch} : (s.fbkEnable ch).Canonical :=
  h.setFb.put.put.put.put.emuRefresh.emuLag.ite h.setFb.put.put.put.put.emuRefresh

end

end Sys2Proof.Machine
end

section
/-! PROOF. The other operations of Sys2Proof/Machine/Ale.lean keep the stores in canonical form. -/

namespace Sys2Proof.Machine

section
variable {s : State} (h : s.Canonical)
include h

theorem State.Kept.setPipe {k v} : (s.setPipe k v).Canonical := h.sameStores

theorem State.Kept.doAleComputation {k} : (Machine.doAleComputation k s).Canonical := by
  unfold Machine.doAleComputation
  refine h.ite ?_
  split
  exacts [h, h.setAl.setPipe]

theorem State.Kept.aleCompares {ch l} : (s.aleCompares ch l).Canonical := by
  unfold State.aleCompares
  extract_lets good s1
  have h1 : s1.Canonical := h.ite (h.noteShadow.foldl fun _ _ h' => h'.setCmp).reloadNow
  exact h1.dutyViolate.ite h1

theorem State.Kept.show34 {p f v} : (s.show34 p f v).Canonical := h.putSat

theorem State.Kept.aleShow {ch r dc} : (s.aleShow ch r dc).Canonical := by
  unfold State.aleShow
  extract_lets p s1 s2 pair s3 s4
  have hp : ∀ f g o u, State.Canonical u → (pair f g o u).Canonical := fun f g o u hu => by
    cases o
    exacts [hu, hu.show34.show34]
  have h2 : s2.Canonical := h.put.put.put.put.put
  have h4 : s4.Canonical := hp _ _ _ _ (hp _ _ _ _ (hp _ _ _ _ h2))
  split
  exacts [h4, h4.putI.putSat]

theorem State.Kept.aleInvalid {ch mx} : (s.aleInvalid ch mx).Canonical := h.setAl.ev.put.evC.ite h.setAl.ev

theorem State.Kept.aleFinish {ch x} : (s.aleFinish ch x).Canonical := by
  unfold State.aleFinish
  extract_lets p r cl legs dc vals lat _ s1 s2 s3 s4 _ s5 s6
  have h2 : s2.Canonical := h.setAl.aleShow.foldl (fun _ _ h' => h'.ev)
  have h3 : s3.Canonical := h2.aleInvalid.ite h2
  have h4 : s4.Canonical := h3.ev.ite h3
  have h5 : s5.Canonical := h4.ite h4.setAl.aleCompares
  exact h5.put.put.incMod.ev

theorem State.Kept.doAleComputationDone {k} : (Machine.doAleComputationDone k s).Canonical := by
  unfold Machine.doAleComputationDone
  refine h.ite ?_
  split
  · exact h
  · refine h.clocked (fun _ h' => ?_)
    split
    exacts [h'.setPipe, h'.setPipe.aleFinish]

theorem State.Kept.aleEnvelope {ch inen} : (s.aleEnvelope ch inen).Canonical :=
  h.overAll (fun _ _ h' => h'.ite (h'.setAl.envViolate.put.evC.ite h'.setAl))

theorem State.Kept.aleResult {ch inen wake c tc} : (s.aleResult ch inen wake c tc).Canonical :=
  h.ite (((h.setAl.ite h).aleEnvelope.ite h).aleWake.ite ((h.setAl.ite h).aleEnvelope.ite h))

theorem State.Kept.doAleRefCommit {ch} : (Machine.doAleRefCommit ch s).Canonical := h.ite h.setAl.put

theorem State.Kept.doAleCfgWrite {ch v} : (Machine.doAleCfgWrite ch v s).Canonical :=
  h.ite (h.ev.ite (h.plainWrite.setAl.ite h.plainWrite))

theorem State.Kept.aleWrite {ini ch off v} : (s.aleWrite ini ch off v).Canonical :=
  h.doAleCfgWrite.ite ((h.doAleRefCommit.ite h).ite ((h.ev.ite h.noteRefused).ite (h.ite h.plainWrite)))

theorem State.Kept.aleStop {ch} : (s.aleStop ch).Canonical := (h.setPipe.ite h).setAl
theorem State.Kept.aleClear {ch} : (s.aleClear ch).Canonical := h.aleStop.setAl.put

end

end Sys2Proof.Machine
end

section
/-! PROOF. The other operations of Sys2Proof/Machine/Sdm.lean keep the stores in canonical form. -/

namespace Sys2Proof.Machine

section
variable {s : State} (h : s.Canonical)
include h

theorem State.Kept.sdResults {ch osr k inen warm bits} : (s.sdResults ch osr k inen warm bits).Canonical := by
  unfold State.sdResults
  extract_lets p on vals sat stuck s1 s2 s3 s4
  have h1 : s1.Canonical := h.foldl (fun _ _ h' => h'.putSat)
  have h3 : s3.Canonical := h1.put.put.put.incMod
  have h4 : s4.Canonical := h3.ev.ite h3
  exact h4.evC.ite h4

theorem State.Kept.doSdWindowClose {ch b0 b1 b2} : (Machine.doSdWindowClose ch b0 b1 b2 s).Canonical := by
  simp only [Machine.doSdWindowClose]
  split
  exacts [h, h.ite h.setPw.sdResults.ev.aleResult]

theorem State.Kept.doSdContinuousResult {ch b0 b1 b2} : (Machine.doSdContinuousResult ch b0 b1 b2 s).Canonical :=
  h.ite h.setPw.sdResults.aleResult

theorem State.Kept.loseWindow {ch} : (s.loseWindow ch).Canonical := by
  simp only [State.loseWindow]
  split
  exacts [h.setPw, h.setPw.setPw.put.incMod.ev.aleResult]

theorem State.Kept.doMclkStop {port} : (Machine.doMclkStop port s).Canonical :=
  h.ite ((h.setPo.put.overAll (fun _ _ h' => h'.loseWindow)).startMclk.ite (h.setPo.put.overAll
    (fun _ _ h' => h'.loseWindow)))

theorem State.Kept.doCarrierStart {ch} : (Machine.doCarrierStart ch s).Canonical :=
  (h.newPeriod.aleWake.ite h.newPeriod).ite h

end

end Sys2Proof.Machine
end

section
/-! PROOF. The other operations of Sys2Proof/Machine/Prof.lean keep the stores in canonical form. -/

namespace Sys2Proof.Machine

section
variable {s : State} (h : s.Canonical)
include h

theorem State.Kept.showInputs {ch} : (s.showInputs ch).Canonical := h.put.put.put
theorem State.Kept.homeFail {ch code} : (s.homeFail ch code).Canonical := h.stopAtOnce (fun _ h' => h'.fc)
theorem State.Kept.endStream {ch} : (s.endStream ch).Canonical := h.setPr.put.put

theorem State.Kept.limitStop {ch} : (s.limitStop ch).Canonical :=
  (h.homeFail.ev.ite ((h.stopAtOnce (fun _ h' => h'.fc)).ev.ite (h.ite h.endStream.setPr.ev))).ite h

theorem State.Kept.setCap {ch x} : (s.setCap ch x).Canonical := h.setPr.put.put
theorem State.Kept.homeGo {ch h' g} : (s.homeGo ch h' g).Canonical := h.setPr.put

theorem State.Kept.homeInput {ch active} : (s.homeInput ch active).Canonical :=
  h.setPr.ite ((h.setCap.homeGo.ite h.setCap.homeGo).ite h)

theorem State.Kept.doInputDebounced {ch k level} : (Machine.doInputDebounced ch k level s).Canonical := by
  unfold Machine.doInputDebounced
  extract_lets p r i now chat rl isLim i1 s1 s2 isRef s3
  have h1 : s1.Canonical := h.setPr.showInputs
  have h2 : s2.Canonical := h1.evC.ite h1
  have h3 : s3.Canonical := h2.homeInput.ite h2
  exact h.ite (h2.homeFail.ite h3.limitStop)

theorem State.Kept.doChatterHoldEnd {ch k} : (Machine.doChatterHoldEnd ch k s).Canonical := h.ite h.setPr.showInputs
theorem State.Kept.profRefuse {ch code} : (s.profRefuse ch code).Canonical := h.put.ev
theorem State.Kept.profAccept {ch c} : (s.profAccept ch c).Canonical := h.setPr.put
theorem State.Kept.profIssue {ch code c} : (s.profIssue ch code c).Canonical := h.ite (h.profAccept.ite h.profRefuse)
theorem State.Kept.issueMove {ch needRef base} : (s.issueMove ch needRef base).Canonical := h.profIssue.setPr.ite h.profIssue
theorem State.Kept.doAbsoluteMove {ch} : (Machine.doAbsoluteMove ch s).Canonical := h.issueMove
theorem State.Kept.doRelativeMove {ch} : (Machine.doRelativeMove ch s).Canonical := h.issueMove
theorem State.Kept.doVelocityMove {ch} : (Machine.doVelocityMove ch s).Canonical := h.profIssue
theorem State.Kept.doStream {ch} : (Machine.doStream ch s).Canonical := h.profIssue
theorem State.Kept.doHome {ch} : (Machine.doHome ch s).Canonical := h.profIssue

theorem State.Kept.doAbort {ch} : (Machine.doAbort ch s).Canonical :=
  h.ite (h.put.ite (h.put.ite (h.endStream.setPr.put.ev.put.put.put.evC.ite h.endStream.setPr.put.ev)))

theorem State.Kept.doQstop {ch} : (Machine.doQstop ch s).Canonical := (h.stopAtOnce (fun _ h' => h'.fc)).ite h

theorem State.Kept.doPositionLoad {ch} : (Machine.doPositionLoad ch s).Canonical :=
  h.ite (h.profRefuse.ite (h.profRefuse.ite (h.profRefuse.ite (h.profRefuse.ite h.setPr.put))))

theorem State.Kept.doStreamPush {ch} : (Machine.doStreamPush ch s).Canonical := h.ite (h.ev.ite h.setPr.showLevel)
theorem State.Kept.profComplete {ch} : (s.profComplete ch).Canonical := h.setPr.put.put.ev
theorem State.Kept.profDone {ch x} : (s.profDone ch x).Canonical := h.setPr.profComplete

theorem State.Kept.planMove {ch base} : (s.planMove ch base).Canonical := by
  simp only [State.planMove]
  split
  · exact h.ite h.profDone
  · exact h.ite (h.setPr.put.ev.ite h.setPr)

theorem State.Kept.planJog {ch v1} : (s.planJog ch v1).Canonical := by
  simp only [State.planJog]
  split <;> exact h.ite h.setPr

theorem State.Kept.planStop {ch} : (s.planStop ch).Canonical := by
  simp only [State.planStop]
  split
  · exact h.setPr.ite h.setPr.put
  · exact h.ite h.setPr

theorem State.Kept.planStream {ch} : (s.planStream ch).Canonical := by
  unfold State.planStream
  refine .ite ?_ h
  split
  exact h.setPr

theorem State.Kept.profPlan {ch} : (s.profPlan ch).Canonical := by
  unfold State.profPlan
  split
  exacts [h, h.planMove, h.planJog, h.planStream, h.planStop, h.ite h.profDone]

theorem State.Kept.underrun {ch} : (s.underrun ch).Canonical := h.endStream.setPr.evC

theorem State.Kept.doStreamUnderrun {ch} : (Machine.doStreamUnderrun ch s).Canonical := by
  simp only [Machine.doStreamUnderrun]
  split
  exacts [h, h.underrun.planStop.ite h]

theorem State.Kept.profStep {ch d} : (s.profStep ch d).Canonical := (h.ite h.setPr).underrun.planStop.ite (h.ite h.setPr)

theorem State.Kept.takeLoad {ch} : (s.takeLoad ch).Canonical := by
  simp only [State.takeLoad]
  split
  exacts [h, h.setPr.put.put.ite h.setPr.profRefuse]

theorem State.Kept.takeCmd {ch} : (s.takeCmd ch).Canonical := by
  unfold State.takeCmd
  extract_lets p r s0 _ s1
  have h1 : s1.Canonical := State.Kept.put (.put (.put (.setPr (h.ite h.endStream))))
  refine h.ite ?_
  split
  · exact h1.setPr
  · exact h1.setPr
  · exact h1.setPr
  · exact h1.homeGo
  · dsimp only
    split
    exacts [h1.setPr, h1.setPr.put]
  · exact h1

theorem State.Kept.homeStep {ch} : (s.homeStep ch).Canonical := by
  unfold State.homeStep
  split
  extract_lets p hst _ r s' d _ s1 s2 s3
  have h' : s'.Canonical := h.setPr.ite h
  have h1 : s1.Canonical := h'.setPr
  have h2 : s2.Canonical := h1.loadPos.ite h1
  have h3 : s3.Canonical := h2.put.put.put.put.put
  exact h'.homeGo.ite (h3.ev.ite (h'.homeFail.ite (h'.homeFail.ite h')))

theorem State.Kept.stepsPlace {ch} : (s.stepsPlace ch).Canonical := h.setPr.ite (h.setPr.ite h)
theorem State.Kept.resolution {ch} : (s.resolution ch).Canonical := h.setPr.put.ite (h.setPr.ite h.setPr.resMeet)

theorem State.Kept.profEnvelope {ch} : (s.profEnvelope ch).Canonical := by
  unfold State.profEnvelope
  split
  exact h.envViolate.put.evC.ite h

theorem State.Kept.releaseStepPads {ch} : (s.releaseStepPads ch).Canonical := h.setPw.ite h

theorem State.Kept.doUpdateEdge {ch in0 in1} : (Machine.doUpdateEdge ch in0 in1 s).Canonical :=
  h.ite h.setPr.takeLoad.takeCmd.profPlan.limitStop.homeStep.releaseStepPads.stepsPlace.profEdge.resolution.profEnvelope

theorem State.Kept.doStepEmit {ch} : (Machine.doStepEmit ch s).Canonical :=
  h.ite (h.setPr.putI.showLag.profComplete.ite h.setPr.putI.showLag)

theorem State.Kept.doStepPulseFall {ch} : (Machine.doStepPulseFall ch s).Canonical := h.setPr.ite h

theorem State.Kept.doProfPosRead {core ch} : (Machine.doProfPosRead core ch s).Canonical := h.ite
    (h.sameStores.holdSet.ite h.sameStores)

theorem State.Kept.doProfLatRead {core ch} : (Machine.doProfLatRead core ch s).Canonical := h.ite
    (h.sameStores.holdSet.ite h.sameStores)

theorem State.Kept.profCmdWrite {ch v} : (s.profCmdWrite ch v).Canonical := by
  unfold State.profCmdWrite
  extract_lets p s0 s1 op
  have h1 : s1.Canonical := h.put.doPositionLoad.ite h.put
  exact h1.doQstop.ite (h1.doAbort.ite ((h1.doAbsoluteMove.ite (h1.doRelativeMove.ite (h1.doVelocityMove.ite
    (h1.doStream.ite (h1.doHome.ite (h1.ite h1.profRefuse)))))).ite h1))

theorem State.Kept.profWrite {ini ch off v} : (s.profWrite ini ch off v).Canonical :=
  h.profCmdWrite.ite ((h.plainWrite.doStreamPush.ite h.plainWrite).ite (h.fc.ite (h.ev.ite
    (h.plainWrite.showInputs.ite h.plainWrite))))

theorem State.Kept.profEnable {ch} : (s.profEnable ch).Canonical := h.setPr.put.put.put.put.put.put.put.put.put.showInputs
theorem State.Kept.profDisable {ch} : (s.profDisable ch).Canonical := h.setPr.put.put.put.put
theorem State.Kept.homeIndex {ch} : (s.homeIndex ch).Canonical := h.setCap.homeGo.ite h
theorem State.Kept.doIndex {ch} : (Machine.doIndex ch s).Canonical := h.indexEdge.homeIndex.ite h

theorem State.Kept.onChannel {ch} {f : State → State} (hk : ∀ t, t.Canonical → (f t).Canonical) :
    (Machine.onChannel ch f s).Canonical :=
  (hk _ h).ite h

end

end Sys2Proof.Machine
end

section
/-! PROOF. The other operations of Sys2Proof/Machine/Blocks.lean keep the stores in canonical form. -/

namespace Sys2Proof.Machine

section
variable {s : State} (h : s.Canonical)
include h

theorem State.Kept.resetOne {a} : (s.resetOne a).Canonical := h.setReg
theorem State.Kept.resetWords {lo hi keep} : (s.resetWords lo hi keep).Canonical := h.overAll (fun _ _ h' => h'.resetOne)
theorem State.Kept.resetPage {p keep blk} : (s.resetPage p keep blk).Canonical := h.resetWords.setReg.put.put
theorem State.Kept.rangeWrite {ini a v ok} : (s.rangeWrite ini a v ok).Canonical := h.plainWrite.ite h.fc

end

end Sys2Proof.Machine
end

section
/-! PROOF. The other operations of Sys2Proof/Machine/Time.lean keep the stores in canonical form. -/

namespace Sys2Proof.Machine

section
variable {s : State} (h : s.Canonical)
include h

theorem State.Kept.walkBegin {b v} : (s.walkBegin b v).Canonical := h.sameStores.walkEdge

theorem State.Kept.walkRequest {b} : (s.walkRequest b).Canonical := by
  unfold State.walkRequest
  split
  exacts [h.walkBegin.ite h.sameStores, h.sameStores]

theorem State.Kept.ctLoad {b} : (s.ctLoad b).Canonical := by
  unfold State.ctLoad
  extract_lets old v s0 s1 s2
  have h0 : s0.Canonical := h.put.setCnt
  have h1 : s1.Canonical := h0.sameStores
  have h2 : s2.Canonical := h1.put.put
  exact (h2.overAll (fun _ _ h' => h'.profStep)).walkRequest

theorem State.Kept.doCtCtlWrite {v} : (Machine.doCtCtlWrite v s).Canonical := h.fc.ite h.plainWrite.selector

theorem State.Kept.doReEpoch {v} : (Machine.doReEpoch v s).Canonical :=
  (h.fc.ev.ite h.fc).ite (h.put.ite (h.ev.ite (h.put.put.put.ev.ite h.put.put).ctLoad))

theorem State.Kept.tbUnlock {n} : (s.tbUnlock n).Canonical := h.put.put.sameStores.evC.ite h.put.put.sameStores

theorem State.Kept.tbCount {n e} : (s.tbCount n e).Canonical :=
  (h.inc.sameStores.put.ev.ite h.inc.sameStores).ite (h.put.sameStores.tbUnlock.ite h.put.sameStores)

theorem State.Kept.tbJump {n v} : (s.tbJump n v).Canonical := h.setCnt.put.ev.walkRequest
theorem State.Kept.tbRestart {n} : (s.tbRestart n).Canonical := h.sameStores
theorem State.Kept.tbFar {n e} : (s.tbFar n e).Canonical := h.put.sameStores.tbJump.ite h.put.sameStores
theorem State.Kept.tbServo {n e tau} : (s.tbServo n e tau).Canonical := h.sameStores.putI.putI
theorem State.Kept.noteMeas {n e} : (s.noteMeas n e).Canonical := h.sameStores

theorem State.Kept.tbMeasure {n e tau} : (s.tbMeasure n e tau).Canonical := by
  unfold State.tbMeasure
  extract_lets p s0 beyond servo t s1
  have h0 : s0.Canonical := h.noteMeas.putSat.incMod.tbRestart
  have ht : t.Canonical := h0.put.tbUnlock.evC
  have h1 : s1.Canonical := h0.put.ev.tbJump.ite ((ht.ev.tbFar.ite ht).ite (h0.tbServo.ev.tbCount.ite h0.tbCount))
  exact h1.selector

theorem State.Kept.doTbMeasWrite {n v} : (Machine.doTbMeasWrite n v s).Canonical := h.tbMeasure.ite h
theorem State.Kept.doTbLoad {n} : (Machine.doTbLoad n s).Canonical := h.put.put.put.tbJump.selector.ite h
theorem State.Kept.doTbStep {n} : (Machine.doTbStep n s).Canonical := h.tbJump.selector.ite h
theorem State.Kept.doTbRateWrite {n v} : (Machine.doTbRateWrite n v s).Canonical := h.put.ite h
theorem State.Kept.doTbFreqWrite {n v} : (Machine.doTbFreqWrite n v s).Canonical := (h.put.ite h.fc).ite h
theorem State.Kept.doTbSrst {n} : (Machine.doTbSrst n s).Canonical := h.resetPage.put.put.put.sameStores.selector.ite h
theorem State.Kept.doTimeSrst : (Machine.doTimeSrst s).Canonical := h.resetPage.sameStores.selector
theorem State.Kept.timeOutputs : (s.timeOutputs).Canonical := h.sameStores

theorem State.Kept.doSnapshotRead {core b} : (Machine.doSnapshotRead core b s).Canonical :=
  h.ite (h.sameStores.ite h.setReg.setReg.setReg.sameStores)

theorem State.Kept.txqShow {u} : (s.txqShow u).Canonical := h.put.put.put.put
theorem State.Kept.txqPush {u r} : (s.txqPush u r).Canonical := h.inc.evC.ite h.sameStores.txqShow.ev
theorem State.Kept.doTxqLoRead {u} : (Machine.doTxqLoRead u s).Canonical := h.ite h.sameStores.sameStores.txqShow
theorem State.Kept.tsuReset {u} : (s.tsuReset u).Canonical := h.resetPage.sameStores
theorem State.Kept.noPps6 {n} : (s.noPps6 n).Canonical := h.sameStores

theorem State.Kept.tbCtlWrite {n v} : (s.tbCtlWrite n v).Canonical := by
  unfold State.tbCtlWrite
  extract_lets p src conf s1 s2 s3 s4
  have h1 : s1.Canonical := h.put.put
  have h2 : s2.Canonical := h1.ite h1.put
  have h3 : s3.Canonical := h2.fc.ite (h2.ite h2.noPps6).put
  have h4 : s4.Canonical := h3.doTbLoad.ite h3
  exact h4.doTbStep.ite h4

theorem State.Kept.tbWrite {n off v} : (s.tbWrite n off v).Canonical :=
  h.ite (h.tbCtlWrite.ite (h.plainWrite.selector.ite (h.doTbRateWrite.ite (h.doTbFreqWrite.ite
    (h.doTbMeasWrite.ite (h.rangeWrite.ite (h.rangeWrite.ite h.plainWrite)))))))

theorem State.Kept.timeWrite {off v} : (s.timeWrite off v).Canonical :=
  h.doCtCtlWrite.ite (h.rangeWrite.selector.ite (h.rangeWrite.ite (h.doReEpoch.ite h.plainWrite.timeOutputs)))

end

end Sys2Proof.Machine
end

section
/-! PROOF. The other operations of Sys2Proof/Machine/Memory.lean keep the stores in canonical form. -/

namespace Sys2Proof.Machine

section
variable {s : State} (h : s.Canonical)
include h

theorem State.Kept.freeVal : ((s.freeVal).2).Canonical := h.sameStores
theorem State.Kept.bankCount {k b} : (s.bankCount k b).Canonical := h.setReg.ev.pushLog.ite h.setReg

theorem State.Kept.rowCount {k i b r} : (s.rowCount k i b r).Canonical :=
  (h.ite h.setReg.setReg).setReg.ev.pushLog.ite (h.ite h.setReg.setReg).setReg

theorem State.Kept.dramTrack {k a} : (s.dramTrack k a).Canonical := by
  simp only [State.dramTrack]
  split
  · exact h.bankCount.rowCount
  · split
    exacts [h.bankCount.rowCount, h.bankCount.inc.ev]

theorem State.Kept.sramError {a src ini syn ue} : (s.sramError a src ini syn ue).Canonical :=
  h.setReg.setReg.inc.evC.pushLog.ite h.setReg.setReg.inc.evC

theorem State.Kept.dramError {a src ini syn ue adr} : (s.dramError a src ini syn ue adr).Canonical :=
  (h.setReg.setReg.inc.evC.pushLog.ite h.setReg.setReg.inc.evC).dramTrack

theorem State.Kept.mramError {a ue} : (s.mramError a ue).Canonical := h.inc.evC.pushLog.ite h.inc.evC

theorem State.Kept.memError {a ini syn scrub own ue adr} : (s.memError a ini syn scrub own ue adr).Canonical := by
  unfold State.memError
  split
  exacts [h.dramError, h.sramError, h.sramError, h.sramError, h.mramError, h]

theorem State.Kept.noteRead {a ini scrub own how} : (s.noteRead a ini scrub own how).Canonical := by
  unfold State.noteRead
  split
  exacts [h.memError, h.memError, h.memError, h]

theorem State.Kept.setScrub {k v} : (s.setScrub k v).Canonical := h.sameStores
theorem State.Kept.scrubPace {a} : (s.scrubPace a).Canonical := h.sameStores.ite (h.sameStores.evC.ite h)

theorem State.Kept.writeLog {a l} : (s.writeLog a l).Canonical := by
  induction l generalizing s a with
  | nil => exact h
  | cons w r ih => exact ih h.setMem

theorem State.Kept.showMwq : (s.showMwq).Canonical := h.put
theorem State.Kept.mramPush {r} : (s.mramPush r).Canonical := h.sameStores.showMwq
theorem State.Kept.doMwDataWrite {v} : (Machine.doMwDataWrite v s).Canonical := h.mramPush.incMod.ite h.inc.ev
theorem State.Kept.trackWrite {k off v} : (s.trackWrite k off v).Canonical := (h.setReg.setReg.ite h.setReg).ite h

theorem State.Kept.memWrite {ini k off v} : (s.memWrite ini k off v).Canonical := by
  unfold State.memWrite
  extract_lets p bounded
  have hb : ∀ ok e, (bounded ok e).Canonical := fun _ _ => h.plainWrite.ite h.ev
  have hp : (s.plainWrite ini (p + off) v).Canonical := h.plainWrite
  exact .ite (.ite (hb _ _) hp) (.ite (.ite (hb _ _) (.ite (hb _ _) (h.trackWrite.ite hp))) (h.doMwDataWrite.ite hp))

theorem State.Kept.trackEdge {k} : (s.trackEdge k).Canonical := h.overAll (fun _ _ h' => h'.setReg.ite h')
theorem State.Kept.setPe {e r} : (s.setPe e r).Canonical := h.sameStores
theorem State.Kept.showChains {k} : (s.showChains k).Canonical := h.put.put.put.ite h.put.put
theorem State.Kept.porterFail {k a code} : (s.porterFail k a code).Canonical := h.put.put.put.evC

theorem State.Kept.porterStart {k} : ((s.porterStart k).1).Canonical := by
  unfold State.porterStart
  split
  · exact h.inc.evC
  · split
    exacts [h.porterFail, h.sameStores.showChains]

theorem State.Kept.doPorterStart {k} : (Machine.doPorterStart k s).Canonical := h.put.porterStart.ite h

theorem State.Kept.descBack {r done err code} : (s.descBack r done err code).Canonical := by
  unfold State.descBack
  split
  exacts [h.setMem, h]

theorem State.Kept.doPorterSrst : (Machine.doPorterSrst s).Canonical := by
  unfold Machine.doPorterSrst
  extract_lets n s1 s2 s3
  have h1 : s1.Canonical := h.overAll fun _ _ h' => by split; exacts [h'.descBack, h']
  have h2 : s2.Canonical := h1.resetPage.overAll (fun _ _ h' => h'.put.ite h')
  have h3 : s3.Canonical := h2.sameStores.showMwq
  exact h3.ite h3.ev

end

end Sys2Proof.Machine
end

section
/-! PROOF. The other operations of Sys2Proof/Machine/Prism.lean keep the stores in canonical form. -/

namespace Sys2Proof.Machine

section
variable {s : State} (h : s.Canonical)
include h

theorem State.Kept.trgArmNow {n v} : (s.trgArmNow n v).Canonical :=
  h.setReg.put.put.put.put.sameStores.ite h.setReg.put.put.put.put.ev

theorem State.Kept.trgCancelNow {n v} : (s.trgCancelNow n v).Canonical := (h.trgDisarm.ite (h.put.ite h)).setReg.put

theorem State.Kept.trgWriteNow {n off w} : (s.trgWriteNow n off w).Canonical := by
  unfold State.trgWriteNow
  extract_lets e v armed s1 s2
  have h1 : s1.Canonical := h.put.ite h
  have h2 : s2.Canonical := h1.put.ite h1
  exact (h.trgCancelNow.ite (h.ite h.trgArmNow)).ite ((h2.ite h2.put.put).ite (h.ite (h.fc.ite h.setReg)))

theorem State.Kept.trgWrite {n off w} : (s.trgWrite n off w).Canonical := h.ite (h.sameStores.ite h.trgWriteNow)

theorem State.Kept.doTrgThRead {core n} : (Machine.doTrgThRead core n s).Canonical := h.ite
    (h.sameStores.holdSet.ite h.sameStores)

theorem State.Kept.replayTrg {l} : (Machine.replayTrg s l).Canonical := h.foldl (fun _ _ h' => h'.trgWriteNow)
theorem State.Kept.walkOver : (s.walkOver).Canonical := (h.overAll (fun _ _ h' => h'.walkEdge)).sameStores
theorem State.Kept.releaseTrg : (s.releaseTrg).Canonical := h.ite h.sameStores.replayTrg
theorem State.Kept.tioShow {pin} : (s.tioShow pin).Canonical := h.put.put.put.put.put
theorem State.Kept.doTioCloRead {pin} : (Machine.doTioCloRead pin s).Canonical := h.ite h.sameStores.setTi.tioShow

theorem State.Kept.doTioCfgWrite {ini pin v} : (Machine.doTioCfgWrite ini pin v s).Canonical :=
  h.ite (h.noteRefused.fc.ite (h.plainWrite.tioFloat.ite h.plainWrite))

theorem State.Kept.doPrismPerWrite {k v} : (Machine.doPrismPerWrite k v s).Canonical := h.ite (h.put.ite h.fc)
theorem State.Kept.noteDue : (s.noteDue).Canonical := h.put.ite h
theorem State.Kept.capture {n k} : (s.capture n k).Canonical := (h.overAll (fun _ _ h' => h'.setReg.setReg.setReg)).put.incMod
theorem State.Kept.launchAct {x} : (s.launchAct x).Canonical := h.sameStores
theorem State.Kept.tioAct {n arg b t lat} : (s.tioAct n arg b t lat).Canonical := h.prismRefuse.ite (h.tioDo.ite h.launchAct)

theorem State.Kept.trgAction {n act arg b t lat} : (s.trgAction n act arg b t lat).Canonical :=
  h.offerPost.ite (h.launchAct.ite (h.tioAct.ite ((h.porterStart.ite h.porterStart.prismRefuse).ite (h.capture.ite h))))

theorem State.Kept.noteLate {n cause lat} : (s.noteLate n cause lat).Canonical := h.put.inc.put.put.put.evC

theorem State.Kept.trgFireNow {n past} : (s.trgFireNow n past).Canonical := by
  unfold State.trgFireNow
  extract_lets e b t late P again skip isLate cause _ s0 s1 s2 s3 s4
  have h0 : s0.Canonical := h.sameStores
  have h1 : s1.Canonical := h0.setTrgTime.ite h0.trgDisarm
  have h2 : s2.Canonical := h1.put.put.incMod
  have h3 : s3.Canonical := h2.noteLate.ite h2
  have h4 : s4.Canonical := h3.offerPost.ite h3
  exact h4.trgAction

theorem State.Kept.prismEnable : (s.prismEnable).Canonical := h.sameStores

theorem State.Kept.doPrismSrst : (Machine.doPrismSrst s).Canonical :=
  h.resetWords.resetPage.resetPage.resetPage.sameStores.replayTrg

theorem State.Kept.prismPageReset {k} : (s.prismPageReset k).Canonical := h.resetPage.ite h.resetPage.sameStores

end

end Sys2Proof.Machine
end

section
/-! PROOF. The other operations of Sys2Proof/Machine/Ring.lean keep the stores in canonical form. -/

namespace Sys2Proof.Machine

section
variable {s : State} (h : s.Canonical)
include h

theorem State.Kept.rGo {st} : (s.rGo st).Canonical := h.put.ev.inc.evC.ite h.put.ev
theorem State.Kept.rHold {cause} : (s.rHold cause).Canonical := h.rGo.put.evC.ite (h.rGo.put.evC.ite h.rGo.put)
theorem State.Kept.ringSeal : (s.ringSeal).Canonical := h.rHold.ite (h.ite h.rHold)
theorem State.Kept.ringWake : (s.ringWake).Canonical := h.sameStores.rGo.ite h
theorem State.Kept.showHops : (s.showHops).Canonical := h.put.put
theorem State.Kept.suspend_ {h'} : (s.suspend_ h').Canonical := h.overAll (fun _ _ h' => h'.put.put.ite h')
theorem State.Kept.unsuspend : (s.unsuspend).Canonical := h.overAll (fun _ _ h' => h'.put.tbRestart.ite h')

theorem State.Kept.learnBreak {h' d ports} : (s.learnBreak h' d ports).Canonical :=
  h.ite (h.sameStores.overAll (fun _ _ h' => h'.sameStores)).suspend_

theorem State.Kept.breakPort {u} : (s.breakPort u).Canonical := h.ite h.put.put.put.inc.evC.learnBreak
theorem State.Kept.failReceive {u} : (s.failReceive u).Canonical := h.sameStores.breakPort.ite h.breakPort

theorem State.Kept.learnRestore {r ports} : (s.learnRestore r ports).Canonical :=
  h.ite ((h.sameStores.overAll (fun _ _ h' => h'.sameStores)).overAll (fun _ _ h1 => h1.suspend_))

theorem State.Kept.qAdvance {a} : (s.qAdvance a).Canonical := h.setReg.offerPost.ite h.setReg

theorem State.Kept.putWords {a l} : (s.putWords a l).Canonical := by
  induction l generalizing s a with
  | nil => exact h
  | cons w r ih => exact ih h.setMem

theorem State.Kept.rxDeliver {a port oct x w5} : (s.rxDeliver a port oct x w5).Canonical :=
  h.putWords.setMem.setMem.setMem.setMem.setMem.setMem.setMem.qAdvance

theorem State.Kept.asyncDeliver {l} : (Machine.asyncDeliver s l).Canonical := by
  induction l generalizing s with
  | nil => exact h
  | cons x r ih => exact .ite (.ite (ih h.sameStores.inc) (ih h.sameStores.rxDeliver.ev)) h

theorem State.Kept.rDrop {u reason e id} : (s.rDrop u reason e id).Canonical := by
  unfold State.rDrop
  refine (State.Kept.inc ?_).put.put.evC
  split
  exacts [h.incMod, h]

theorem State.Kept.rSend {u own f} : (s.rSend u own f).Canonical := h.ite h.sameStores
theorem State.Kept.rLeave {u own wrap f} : (s.rLeave u own wrap f).Canonical := (h.rSend.ite h).ite h.rSend
theorem State.Kept.passOn {u f} : (s.passOn u f).Canonical := h.freeVal.rLeave.ite h

theorem State.Kept.rForward {ports u f e} : (s.rForward ports u f e).Canonical := by
  unfold State.rForward
  refine h.freeVal.overAll (fun _ _ h' => h'.rLeave.ite (State.Kept.sameStores ?_))
  split
  exacts [h'.rDrop, h']

theorem State.Kept.ttTake {u e f} : (s.ttTake u e f).Canonical := h.putWords.setMem.setMem.setMem.setMem.setMem
theorem State.Kept.slotPost {e} : (s.slotPost e).Canonical := h.offerPost.ite h

theorem State.Kept.timeFrame {u e f} : (s.timeFrame u e f).Canonical :=
  h.rDrop.ite (h.overAll (fun _ _ h' => h'.tbMeasure.ite h'))

theorem State.Kept.leafLock {u j serial} : (s.leafLock u j serial).Canonical := h.put.ite h.put.evC

theorem State.Kept.setAddress {a cs} : (s.setAddress a cs).Canonical :=
  h.put.put.sameStores.ite (h.put.put.sameStores.overAll (fun _ _ h' => h'.foldl (fun _ _ h1 => h1.leafLock)))

theorem State.Kept.takeAddress {f} : (s.takeAddress f).Canonical :=
  h.ite (h.rHold.ite (h.setAddress.showHops.ite h.setAddress.rHold))

theorem State.Kept.timeSeen {f} : (s.timeSeen f).Canonical :=
  (h.takeAddress.ite h).rGo.ite ((h.takeAddress.ite h).rGo.ev.ite (h.takeAddress.ite h))

theorem State.Kept.startupFrame {f} : (s.startupFrame f).Canonical := by
  unfold State.startupFrame
  extract_lets ser now recent _ s1 s2
  have h1 : s1.Canonical := h.sameStores
  have h2 : s2.Canonical := h1.takeAddress
  exact h.ite (h1.ite ((h1.ite h1.put).ite (((h2.ite h2.rGo.ev).ite h1).ite h2)))

theorem State.Kept.identityFrame {u f} : (s.identityFrame u f).Canonical :=
  h.ite (h.rDrop.ite (h.sameStores.put.leafLock.ite h.sameStores.put))

theorem State.Kept.creditBack {u n} : (s.creditBack u n).Canonical := h.sameStores
theorem State.Kept.queueFwd {o u f} : (s.queueFwd o u f).Canonical := h.sameStores

theorem State.Kept.asyncFrame {u f} : (s.asyncFrame u f).Canonical := by
  unfold State.asyncFrame
  extract_lets n home s1 own leaf use t x _ s2 o s3
  have h1 : s1.Canonical := h.inc
  have h2 : s2.Canonical := h1.sameStores.sameStores.asyncDeliver.ite h1
  have h3 : s3.Canonical := (h2.ite h2.sameStores).queueFwd
  exact h.rDrop.creditBack.ite (h.rDrop.evC.ite (h1.creditBack.ite (h2.ite (h3.queueFwd.ite h3))))

theorem State.Kept.forwardSeen {s' u e f} : (s.forwardSeen s' u e f).Canonical := h.rForward

theorem State.Kept.slotAccept {u e f} : (s.slotAccept u e f).Canonical := by
  unfold State.slotAccept
  extract_lets role c g k mine again s0 takes _ _ s1 t s2 s3
  have h0 : s0.Canonical := h.inc
  have h1 : s1.Canonical := (h0.ite h0.incMod).sameStores
  have ht : t.Canonical := h1.timeSeen
  have h2 : s2.Canonical := h1.ttTake.ite ((ht.timeFrame.ite ht).ite h1)
  have h3 : s3.Canonical := h2.slotPost.ite h2
  exact h0.ite (h3.forwardSeen.ite h3)

theorem State.Kept.slotLoose {u f} : (s.slotLoose u f).Canonical := by
  unfold State.slotLoose
  extract_lets e s0 s1
  have h0 : s0.Canonical := h.inc
  have h1 : s1.Canonical := h0.timeSeen.timeFrame.ite h0
  refine .ite (h1.ite ?_) h.rDrop
  clear_value s1 e
  cases e with
  | none => exact h1.passOn
  | some k => exact h1.forwardSeen

theorem State.Kept.cutOff {u e f} : (s.cutOff u e f).Canonical := by
  unfold State.cutOff
  extract_lets s1
  have h1 : s1.Canonical := h.rForward.ite h
  exact h1.rDrop

theorem State.Kept.rDiscard {u reason e f} : (s.rDiscard u reason e f).Canonical := h.rDrop.creditBack.ite h.rDrop
theorem State.Kept.hear {f} : (s.hear f).Canonical := h.sameStores.ite h

theorem State.Kept.frameIn {u f} : (s.frameIn u f).Canonical := by
  unfold State.frameIn
  extract_lets e s1
  have h1 : s1.Canonical := h.inc.startupFrame
  refine h.rDiscard.ite (h.rDiscard.ite (h.identityFrame.ite (h.rDiscard.ite ((h1.ite h1.passOn).ite
    (h.asyncFrame.ite (h.ite (h.slotLoose.ite ?_)))))))
  clear_value e
  cases e with
  | none => exact h.rDrop
  | some k => exact h.slotAccept.ite (h.cutOff.ite h.rDrop)

theorem State.Kept.residence {u f} : ((s.residence u f).2).Canonical := h.sameStores

theorem State.Kept.emptySlots {c} : (s.emptySlots c).Canonical :=
  h.overAll (fun _ _ h' => (h'.incMod.inc.evC.ite h'.incMod.inc).ite h')

theorem State.Kept.hopLists {c} : (s.hopLists c).Canonical :=
  (h.ite h.sameStores.showHops.unsuspend.evC).ite
    (h.ite h.sameStores.showHops.unsuspend.evC).sameStores.put.put.put.showHops.unsuspend.ev

theorem State.Kept.sendStartup : (s.sendStartup).Canonical := h.overAll (fun _ _ h' => h'.rSend)

theorem State.Kept.cycleState : (s.cycleState).Canonical :=
  ((h.sameStores.rGo.ev.ite h.rHold).ite h.sameStores.sendStartup).ite (h.rGo.ite (h.rGo.ite h))

theorem State.Kept.txStamp {u d l} : ((s.txStamp u d l).2).Canonical := by
  simp only [State.txStamp]
  split
  · exact h
  · split
    exacts [h.sameStores.txqPush, h.sameStores.evC.ite h.sameStores]

theorem State.Kept.txDone {a d res} : (s.txDone a d res).Canonical := h.setMem.setMem.qAdvance
theorem State.Kept.qbaseWrite {a v} : (s.qbaseWrite a v).Canonical := h.ev.ite h.setReg
theorem State.Kept.txFlush {a} : (s.txFlush a).Canonical := (h.overAll (fun _ _ h' => h'.setMem.setMem.ite h')).ite h

theorem State.Kept.qcfgWrite {a v} : (s.qcfgWrite a v).Canonical := by
  unfold State.qcfgWrite
  extract_lets old lg sz ok q fixed s0 s1 s2
  have h1 : s1.Canonical := (h.ite h.txFlush).setReg
  have h2 : s2.Canonical := h1.ite h1.setReg
  exact (h2.ite h2.ev).ite (h.setReg.ite h.ev)

theorem State.Kept.ringWrite {ini off v} : (s.ringWrite ini off v).Canonical := by
  unfold State.ringWrite
  extract_lets a bounded s1 s1'
  have hb : ∀ ok, (bounded ok).Canonical := fun _ => h.plainWrite.ite h.ev
  have h1' : s1'.Canonical := h.plainWrite
  exact .ite (hb _) (.ite (hb _) (.ite (hb _) (h.qbaseWrite.ite (h.qcfgWrite.asyncDeliver.ite (h1'.asyncDeliver.ite h1')))))

theorem State.Kept.cpWrite {ini off v} : (s.cpWrite ini off v).Canonical := h.rangeWrite

theorem State.Kept.ringReset {p} : (s.ringReset p).Canonical :=
  (h.resetPage.unsuspend.sameStores.setReg.ite h.resetPage.unsuspend.sameStores.ringWake).ite h.resetPage.sameStores

end

end Sys2Proof.Machine
end

section
/-! PROOF. The other operations of Sys2Proof/Machine/Eth.lean keep the stores in canonical form. -/

namespace Sys2Proof.Machine

section
variable {s : State} (h : s.Canonical)
include h

theorem State.Kept.setEt {e r} : (s.setEt e r).Canonical := h.sameStores
theorem State.Kept.ethShow : (s.ethShow).Canonical := h.put.put.ite h.put
theorem State.Kept.sendPfc {e prio quanta} : (s.sendPfc e prio quanta).Canonical := h.ite h.setEt.inc
theorem State.Kept.pfcResume {e} : (s.pfcResume e).Canonical := h.overAll (fun _ _ h' => h'.setEt.sendPfc.ite h')

theorem State.Kept.ethDeliver {e l kept blocked} : (Machine.ethDeliver s e l kept blocked).Canonical := by
  induction l generalizing s kept blocked with
  | nil => exact h.setEt
  | cons x r ih => exact .ite (ih h) (.ite (ih h.inc) (ih h.rxDeliver.inc.ev))

theorem State.Kept.ethDrain {e} : (s.ethDrain e).Canonical := h.ethDeliver.pfcResume.ethShow
theorem State.Kept.pfcReceive {e o} : (s.pfcReceive e o).Canonical := h.overAll (fun _ _ h' => h'.setEt.ite h')

theorem State.Kept.ethBuffer {e prio f} : (s.ethBuffer e prio f).Canonical :=
  ((h.setEt.ite h.inc.evC).ite (h.setEt.setEt.sendPfc.ite h.setEt)).ite (h.setEt.ite h.inc)

theorem State.Kept.ethBusy {e} {k : State → State} (hk : ∀ t, t.Canonical → (k t).Canonical) : (s.ethBusy e k).Canonical :=
  hk _ h.setEt

theorem State.Kept.bucketSpend {e b n} : (s.bucketSpend e b n).Canonical := h.setEt

theorem State.Kept.ethWrite {ini e off v} : (s.ethWrite ini e off v).Canonical := by
  unfold State.ethWrite
  extract_lets p a bounded s1 s1'
  have hb : ∀ ok, (bounded ok).Canonical := fun _ => h.plainWrite.ite h.ev
  have h1 : s1.Canonical := h.qcfgWrite
  have h1' : s1'.Canonical := h.plainWrite
  exact .ite (hb _) (.ite (hb _) (.ite (h1'.ite (hb _)) (.ite (h.qbaseWrite.ite ((h1.ethDrain.ite h1).ite
    ((h1'.ethDrain.ite h1').ite h))) h1')))

theorem State.Kept.doQtailWrite {q v} : (Machine.doQtailWrite q v s).Canonical := h.ite (h.ringWrite.ite h.ethWrite)
theorem State.Kept.doQcfgWrite {q v} : (Machine.doQcfgWrite q v s).Canonical := h.ite (h.ringWrite.ite h.ethWrite)
theorem State.Kept.ethReset {p} : (s.ethReset p).Canonical := h.resetPage.ite h.resetPage.setEt.ethShow

end

end Sys2Proof.Machine
end

section
/-! PROOF. The other operations of Sys2Proof/Machine/Image.lean keep the stores in canonical form. -/

namespace Sys2Proof.Machine

section
variable {s : State} (h : s.Canonical)
include h

theorem State.Kept.putOct {a k v} : (s.putOct a k v).Canonical := h.setMem

theorem State.Kept.putOcts {a k l} : (s.putOcts a k l).Canonical := by
  induction l generalizing s k with
  | nil => exact h
  | cons v r ih => exact ih h.putOct

end

end Sys2Proof.Machine
end

section
/-! PROOF. The other operations of Sys2Proof/Machine/Lens.lean keep the stores in canonical form. -/

namespace Sys2Proof.Machine

section
variable {s : State} (h : s.Canonical)
include h

theorem State.Kept.setIc {ch r} : (s.setIc ch r).Canonical := h.sameStores
theorem State.Kept.setIp {p r} : (s.setIp p r).Canonical := h.sameStores
theorem State.Kept.setLens {r} : (s.setLens r).Canonical := h.sameStores

theorem State.Kept.putMargin {f m v none_} : (s.putMargin f m v none_).Canonical := by
  unfold State.putMargin
  split
  exacts [h.put, h.putSat]

theorem State.Kept.showArm {r} : (s.showArm r).Canonical :=
  h.putMargin.putMargin.putMargin.putMargin.put.put.put.put.put.put.put

theorem State.Kept.takeArm {r} : (s.takeArm r).Canonical := by
  unfold State.takeArm
  extract_lets p a st rq oldStop oldUnk oldReq _ s1 s2 s3 s4 l s5 s6 s7
  have h5 : s5.Canonical := h.showArm.setIp.put.put.put.put.put.put.setLens
  have h6 : s6.Canonical := h5.ev.ite h5
  have h7 : s7.Canonical := h6.ev.ite h6
  exact h7.evC.ite h7

theorem State.Kept.takeArms {l} : (Machine.takeArms l s).Canonical := by
  induction l generalizing s with
  | nil => exact h
  | cons r t ih => exact ih h.takeArm

theorem State.Kept.lensTake : (s.lensTake).Canonical := (h.takeArms.put.put.ite h.takeArms.put.put.evC).incMod.ev

theorem State.Kept.lensFail : (s.lensFail).Canonical :=
  ((h.foldl (fun _ _ h' => h'.put)).setLens.put.ite (h.foldl (fun _ _ h' => h'.put)).setLens.put.ev).ev

theorem State.Kept.lensCycle {ok} : (s.lensCycle ok).Canonical :=
  h.ite (h.setLens.put.lensTake.ite (h.setLens.put.evC.lensFail.ite h.setLens.put.evC))

theorem State.Kept.scanMessage {k d} : (s.scanMessage k d).Canonical := by
  unfold State.scanMessage
  extract_lets p ok sf r _ s1 s2 s3 s4
  have h3 : s3.Canonical := h.setLens.incMod.put.put.put
  have h4 : s4.Canonical := h3.ev.ite h3
  exact h4.ite h4.evC

end

end Sys2Proof.Machine
end

section
/-! PROOF. The other operations of Sys2Proof/Machine/Island.lean keep the stores in canonical form. -/

namespace Sys2Proof.Machine

section
variable {s : State} (h : s.Canonical)
include h

theorem State.Kept.setIslState {v} : (s.setIslState v).Canonical := h.ite h.put.put.ev
theorem State.Kept.soUpdate : (s.soUpdate).Canonical := h.put
theorem State.Kept.setBstate {ch v} : (s.setBstate ch v).Canonical := h.put
theorem State.Kept.applyBrake {ch} : (s.applyBrake ch).Canonical := h.setIc.setBstate.ite h.setIc
theorem State.Kept.applyAfterSbc {ch} : (s.applyAfterSbc ch).Canonical := h.applyBrake.ite (h.ite h.setIc)

theorem State.Kept.enterSto {p code by_} : (s.enterSto p code by_).Canonical := by
  unfold State.enterSto
  extract_lets s1 s2 s3 s4 s5 _
  have h2 : s2.Canonical := h.sameStores.put
  have h3 : s3.Canonical := h2.overAll fun _ _ h' => h'.holdPads.padCause.applyAfterSbc
  have h4 : s4.Canonical := h3.put.put
  exact (h4.put.ite h4).setIp.ev.soUpdate

theorem State.Kept.enterSs1 {p code} : (s.enterSs1 p code).Canonical := h.setIp.put.put.ev.soUpdate
theorem State.Kept.noteCause {p} : (s.noteCause p).Canonical := h.setIp
theorem State.Kept.lowerCause {p code} : (s.lowerCause p code).Canonical := h.ite (h.put.setIp.ite (h.put.put.ite h.put))

theorem State.Kept.stopPort {p code ss1} : (s.stopPort p code ss1).Canonical :=
  (h.noteCause.ite h.noteCause.lowerCause).ite ((h.enterSs1.ite h.lowerCause).ite h.enterSto)

theorem State.Kept.islandFault {fc info} : (s.islandFault fc info).Canonical :=
  h.ite ((h.put.put.setIslState.overAll (fun _ _ h' => h'.stopPort)).overAll (fun _ _ h1 => h1.applyBrake)).soUpdate

theorem State.Kept.islandFaultFree {fc} : (s.islandFaultFree fc).Canonical := h.freeVal.islandFault
theorem State.Kept.brakeFault {ch} : (s.brakeFault ch).Canonical := h.ite h.setIc.setBstate.evC.stopPort

theorem State.Kept.actOn {p l} : (s.actOn p l).Canonical := by
  unfold State.actOn
  split
  exacts [h, h.stopPort]

theorem State.Kept.updateLset {p} : (s.updateLset p).Canonical := h.ite (h.overAll (fun _ _ h' => h'.setIc)).put

theorem State.Kept.judgeCh {ch} : (s.judgeCh ch).Canonical :=
  h.ite ((h.setIc.put.ite h.setIc).ite ((h.setIc.put.ite h.setIc).put.ite (h.setIc.put.ite h.setIc).put.evC))

theorem State.Kept.ss1Port {p} : (s.ss1Port p).Canonical := h.ite (h.enterSto.ite (h.setIp.enterSto.ite h.setIp))
theorem State.Kept.holdFail {ch} : (s.holdFail ch).Canonical := h.put.brakeFault

theorem State.Kept.holdJudge {ch} : (s.holdJudge ch).Canonical := by
  unfold State.holdJudge
  split
  exacts [h.holdFail.ite h, h]

theorem State.Kept.ackInput {i} : (s.ackInput i).Canonical := h.put.ite h
theorem State.Kept.ackTp {k} : (s.ackTp k).Canonical := h.put.ite h

theorem State.Kept.acknowledge {l} : (s.acknowledge l).Canonical := by
  unfold State.acknowledge
  extract_lets p0 mine s1 clear stuck s2 s3
  have h1 : s1.Canonical := (h.overAll (fun _ _ h' => h'.ackInput)).overAll (fun _ _ h' => h'.ackTp)
  have h2 : s2.Canonical := h1.overAll (fun _ _ h' => h'.put.overAll (fun _ _ h' => h'.setBstate.ite h'))
  have h3 : s3.Canonical := h2.incMod.ite h2
  exact h3.incMod.ev.ite h3

theorem State.Kept.mbAnswer {op reason} : (s.mbAnswer op reason).Canonical := h.sameStores.put.put.put.put.incMod.ev

theorem State.Kept.leaveSto {p} : (s.leaveSto p).Canonical :=
  (h.sameStores.put.put.overAll (fun _ _ h' => h'.setIc.holdPads.put.put)).ev.soUpdate

theorem State.Kept.mbEnable {p} : (s.mbEnable p).Canonical :=
  h.mbAnswer.ite (h.mbAnswer.ite (h.mbAnswer.ite (h.mbAnswer.ite (h.mbAnswer.ite (h.mbAnswer.ite (h.mbAnswer.ite
    (h.mbAnswer.ite h.leaveSto.mbAnswer)))))))

theorem State.Kept.mbStop {p ss1} : (s.mbStop p ss1).Canonical := h.mbAnswer.ite (h.mbAnswer.ite h.stopPort.mbAnswer)

theorem State.Kept.mbRelease {ch} : (s.mbRelease ch).Canonical :=
  h.mbAnswer.ite (h.mbAnswer.ite (h.mbAnswer.ite h.setIc.setBstate.mbAnswer))

theorem State.Kept.mbApply {ch} : (s.mbApply ch).Canonical := h.mbAnswer.ite (h.mbAnswer.ite h.applyBrake.mbAnswer)
theorem State.Kept.envRelease {ch} : (s.envRelease ch).Canonical := h.sameStores.setAl.put.put.put.put

theorem State.Kept.mbRelEnv {ch} : (s.mbRelEnv ch).Canonical :=
  h.mbAnswer.ite (h.mbAnswer.ite (h.mbAnswer.ite (h.mbAnswer.ite h.envRelease.mbAnswer)))

theorem State.Kept.mbHoldBegin {ch} : (s.mbHoldBegin ch).Canonical := by
  unfold State.mbHoldBegin
  refine h.mbAnswer.ite (h.mbAnswer.ite (h.mbAnswer.ite ?_))
  split
  exacts [h.mbAnswer, h.setIc.put.mbAnswer]

theorem State.Kept.mbHoldEnd {ch} : (s.mbHoldEnd ch).Canonical :=
  h.mbAnswer.ite (h.mbAnswer.ite (h.mbAnswer.ite (h.put.put.setIc.evC.mbAnswer.ite h.put.mbAnswer)))

theorem State.Kept.mbAck {p} : (s.mbAck p).Canonical := h.mbAnswer.ite (h.mbAnswer.ite h.acknowledge.mbAnswer)
theorem State.Kept.mbLimit {p k} : (s.mbLimit p k).Canonical := h.mbAnswer.ite (h.mbAnswer.ite h.setIp.mbAnswer)

theorem State.Kept.mbTake : s.mbTake.Canonical := by
  unfold State.mbTake
  split
  · exact h
  · exact (h.mbEnable.ite h.sameStores).ite (h.mbStop.ite (h.mbRelease.ite (h.mbApply.ite (h.mbRelEnv.ite
      (h.mbHoldBegin.ite (h.mbHoldEnd.ite (h.mbAck.ite (h.mbLimit.ite h.mbAnswer))))))))

theorem State.Kept.mbWrite {v} : (s.mbWrite v).Canonical := (h.ite h.put.put.sameStores).ite h.put

theorem State.Kept.takeSet {ch} : (s.takeSet ch).Canonical := by
  unfold State.takeSet
  split
  exacts [h, h.setIc.sameStores]

theorem State.Kept.soFail {k} : (s.soFail k).Canonical := h.put.soUpdate.evC

theorem State.Kept.siFault {i} : (s.siFault i).Canonical :=
  (h.sameStores.put.ite h.sameStores.put.evC).overAll (fun _ _ h' => h'.stopPort)

theorem State.Kept.tpFail {k} : (s.tpFail k).Canonical := (h.overAll (fun _ _ h' => h'.siFault)).sameStores.put.evC

theorem State.Kept.readBack {bad} : (s.readBack bad).Canonical := by
  unfold State.readBack
  split
  exacts [h.sameStores, h.sameStores.soFail.ite (h.sameStores.tpFail.ite (h.sameStores.islandFault.ite h.sameStores))]

theorem State.Kept.evaluate {bad nodesOn lensOk} : (s.evaluate bad nodesOn lensOk).Canonical := by
  unfold State.evaluate
  extract_lets s0 s1 s2 s3 s4 s5
  have h0 : s0.Canonical := h.readBack
  have h1 : s1.Canonical := h0.lensCycle
  have h2 : s2.Canonical := h1.overAll (fun _ _ h' => h'.updateLset)
  have h3 : s3.Canonical := (h2.overAll (fun _ _ h' => h'.judgeCh)).overAll (fun _ _ h' => h'.ss1Port)
  have h4 : s4.Canonical := (h3.overAll (fun _ _ h' => h'.holdJudge)).overAll (fun _ _ h' => h'.brakeFault.ite h')
  have h5 : s5.Canonical := h4.overAll (fun _ _ h' => h'.actOn)
  exact h0.mbTake.ite h5.soUpdate.mbTake

theorem State.Kept.doEvaluationCycle {bad nodesOn lensOk} : (Machine.doEvaluationCycle bad nodesOn lensOk s).Canonical :=
  h.ite ((h.incMod.sameStores.overAll (fun _ _ h' => h'.takeSet)).evaluate.ite (h.incMod.sameStores.overAll
    (fun _ _ h' => h'.takeSet)).mbTake)

theorem State.Kept.slWrite {a w} : (s.slWrite a w).Canonical := by
  unfold State.slWrite
  refine h.ite ?_
  split
  exacts [h.doPwmCfgWrite.ite h.setReg, h.setReg]

theorem State.Kept.envelopeLock : (s.envelopeLock).Canonical := h.sameStores.overAll (fun _ _ h' => h'.slWrite)
theorem State.Kept.loadCh {ch} : (s.loadCh ch).Canonical := h.put.put.put.setBstate.put.setIc
theorem State.Kept.loadPort {p} : (s.loadPort p).Canonical := h.put.put.put

theorem State.Kept.islandTests {testsOk echoOk} : (s.islandTests testsOk echoOk).Canonical := by
  unfold State.islandTests
  extract_lets s1
  have h1 : s1.Canonical := h.setIslState.envelopeLock
  refine h.islandFaultFree.ite ?_
  split
  exacts [h1.islandFault, h1.islandFaultFree.ite h1.put.setIslState.soUpdate]

theorem State.Kept.islandRun {b m testsOk echoOk} : (s.islandRun b m testsOk echoOk).Canonical :=
  ((h.put.put.setIslState.sameStores.overAll (fun _ _ h' => h'.loadCh)).overAll (fun _ _ h1 => h1.loadPort)).islandTests

theorem State.Kept.islandBoot {imgA imgB ueA ueB testsOk echoOk} :
    (s.islandBoot imgA imgB ueA ueB testsOk echoOk).Canonical := by
  unfold State.islandBoot
  extract_lets s1 okA okB
  have h1 : s1.Canonical := h.setIslState.overAll fun _ _ h' => h'.put
  exact h1.islandRun.ite (h1.islandRun.ite h1.islandFaultFree)

theorem State.Kept.doIslandStart {imgA imgB ueA ueB testsOk echoOk} :
    (Machine.doIslandStart imgA imgB ueA ueB testsOk echoOk s).Canonical :=
  h.islandBoot.ite h

theorem State.Kept.doIslandRestart {imgA imgB ueA ueB testsOk echoOk} :
    (Machine.doIslandRestart imgA imgB ueA ueB testsOk echoOk s).Canonical :=
  h.ite ((h.overAll (fun _ _ h' => h'.resetWords)).overAll (fun _ _ h1 => h1.resetWords)).sameStores.islandBoot

theorem State.Kept.doHardwareSafeState {cause} : (Machine.doHardwareSafeState cause s).Canonical :=
  (h.put.islandFaultFree.sameStores.overAll (fun _ _ h' => h'.applyBrake)).soUpdate

theorem State.Kept.doEnvelopeNotify {ch} : (Machine.doEnvelopeNotify ch s).Canonical :=
  h.ite (h.sameStores.put.ev.stopPort.ite h.sameStores.put.ev.applyAfterSbc)

theorem State.Kept.doFcNotify {page} : (Machine.doFcNotify page s).Canonical := by
  unfold Machine.doFcNotify
  refine h.ite (.ite ?_ ((h.sameStores.ev.overAll (fun _ _ h' => h'.stopPort)).ite h.sameStores.ev))
  split
  exacts [h.sameStores.ev.stopPort, h.sameStores.ev]

theorem State.Kept.doBrakePullInEnd {ch} : (Machine.doBrakePullInEnd ch s).Canonical := h.setIc.setBstate.ite h

theorem State.Kept.doSbcDelayExpire {ch} : (Machine.doSbcDelayExpire ch s).Canonical := by
  unfold Machine.doSbcDelayExpire
  split
  exacts [h, h.applyBrake.ite h]

theorem State.Kept.doBrakeSwitchTest {ch ok} : (Machine.doBrakeSwitchTest ch ok s).Canonical :=
  (h.setIc.ite h.setIc.brakeFault).ite h

theorem State.Kept.doHoldingTestTimeout {ch} : (Machine.doHoldingTestTimeout ch s).Canonical := h.holdFail.ite h
theorem State.Kept.doHoldingTestDue {ch} : (Machine.doHoldingTestDue ch s).Canonical := h.put.ite h
theorem State.Kept.doBrakeOvercurrent {ch} : (Machine.doBrakeOvercurrent ch s).Canonical := h.brakeFault.ite h
theorem State.Kept.siOne {raw i} : (s.siOne raw i).Canonical := h.ite (h.sameStores.put.ite h.sameStores)

theorem State.Kept.siPair {i} : (s.siPair i).Canonical := by
  unfold State.siPair
  split
  exacts [h, h.sameStores]

theorem State.Kept.doSiSample {raw} : (Machine.doSiSample raw s).Canonical :=
  h.ite (((h.sameStores.put.overAll (fun _ _ h' => h'.siOne)).overAll (fun _ _ h1 => h1.siPair)).overAll
    (fun _ _ h2 => h2.actOn))

theorem State.Kept.doTestPulse {k inMask readOk} : (Machine.doTestPulse k inMask readOk s).Canonical :=
  h.ite ((h.sameStores.overAll (fun _ _ h' => h'.siFault)).ite (h.sameStores.overAll (fun _ _ h' => h'.siFault)).tpFail)

theorem State.Kept.doPairDiscrepancy {i} : (Machine.doPairDiscrepancy i s).Canonical := by
  unfold Machine.doPairDiscrepancy
  split
  exacts [(h.siFault.siFault.overAll (fun _ _ h' => h'.sameStores)).ite h, h]

theorem State.Kept.doSoTestPulse {k readOk} : (Machine.doSoTestPulse k readOk s).Canonical := h.ite
    (h.sameStores.ite h.sameStores.soFail)

theorem State.Kept.doErstFallingEdge {ms} : (Machine.doErstFallingEdge ms s).Canonical :=
  h.sameStores.ite (h.sameStores.acknowledge.ite h.sameStores.incMod)

theorem State.Kept.setConnOk {k b} : (s.setConnOk k b).Canonical := h.put

theorem State.Kept.connFail {k c} : (s.connFail k c).Canonical :=
  (h.sameStores.setConnOk.evC.overAll (fun _ _ h' => h'.stopPort)).ite h.sameStores

theorem State.Kept.connMessage {k c o} : (s.connMessage k c o).Canonical := by
  unfold State.connMessage
  split
  · exact h.connFail
  · exact h.sameStores.connFail.ite ((h.sameStores.setConnOk.ite h.sameStores).foldl (fun _ _ h' => h'.scanMessage.ite h'))

theorem State.Kept.doSafetyMessageReceive {slot octets} : (Machine.doSafetyMessageReceive slot octets s).Canonical :=
  h.foldl (fun _ _ h' => h'.connMessage)

theorem State.Kept.doConnectionWatchdogExpire {k} : (Machine.doConnectionWatchdogExpire k s).Canonical := by
  unfold Machine.doConnectionWatchdogExpire
  split
  exacts [h, h.connFail.ite h]

theorem State.Kept.doSafetyMessageSend {k data} : (Machine.doSafetyMessageSend k data s).Canonical := by
  unfold Machine.doSafetyMessageSend
  split
  exacts [h, h.ite h.sameStores.sameStores]

theorem State.Kept.doIslandSramScrub {addr how} : (Machine.doIslandSramScrub addr how s).Canonical :=
  h.ite (h.sameStores.ite h.sameStores.islandFault)

theorem State.Kept.islandStopAll {code} : (s.islandStopAll code).Canonical := h.overAll (fun _ _ h' => h'.stopPort)

end

end Sys2Proof.Machine
end

section
/-! PROOF. The other operations of Sys2Proof/Machine/Clock.lean keep the stores in canonical form. -/

namespace Sys2Proof.Machine

section
variable {s : State} (h : s.Canonical)
include h

theorem State.Kept.setTarget {d t} : (s.setTarget d t).Canonical := h.sameStores

theorem State.Kept.switchRequest {d src checked} : (s.switchRequest d src checked).Canonical :=
  h.ev.ite (h.put.put.put.ev.ite (h.put.put.put.ev.ite h.put.put.setTarget))

theorem State.Kept.domWrite {d v} : (s.domWrite d v).Canonical := h.switchRequest.ite (h.ev.ite h.put.put)

theorem State.Kept.doSwitchDone {fab} : (Machine.doSwitchDone fab s).Canonical := by
  simp only [Machine.doSwitchDone]
  split
  exacts [h, h.setTarget.put.put.put.ev]

theorem State.Kept.doThrottleChange {on} : (Machine.doThrottleChange on s).Canonical :=
  h.ite ((h.put.ev.setTarget.ite h.put.ev).ite (h.put.ev.setTarget.ite h.put.ev))

theorem State.Kept.doClkPllWrite {v} : (Machine.doClkPllWrite v s).Canonical := h.put.put.put.ev.ite h.put.put.put
theorem State.Kept.doPllLock {k} : (Machine.doPllLock k s).Canonical := h.put.ite h
theorem State.Kept.doXoMReady : (Machine.doXoMReady s).Canonical := h.put
theorem State.Kept.toIrc {d} : (s.toIrc d).Canonical := h.put.put.raiseNmiAll
theorem State.Kept.doIrcReady : (Machine.doIrcReady s).Canonical := h.ite (h.put.sameStores.overAll (fun _ _ h' => h'.toIrc))
theorem State.Kept.followStep : (s.followStep).Canonical := (h.ite h.sameStores).ite (h.put.putI.sameStores.ite h.put)
theorem State.Kept.srcWrite {v} : (s.srcWrite v).Canonical := (h.put.put.put.ite h.put.put).followStep
theorem State.Kept.doExtOkChange {ok} : (Machine.doExtOkChange ok s).Canonical := h.put.followStep
theorem State.Kept.doDisciplineLock {pull} : (Machine.doDisciplineLock pull s).Canonical := h.putI.put.sameStores.ite h
theorem State.Kept.doPclkRelease : (Machine.doPclkRelease s).Canonical := h.ev.ite h.put
theorem State.Kept.doMemcRelease : (Machine.doMemcRelease s).Canonical := h.ev.ite h.put

theorem State.Kept.fixWrite {v} : (s.fixWrite v).Canonical :=
  (h.doPclkRelease.ite h).doMemcRelease.ite (h.doPclkRelease.ite h)

theorem State.Kept.doClkSscWrite {v} : (Machine.doClkSscWrite v s).Canonical := h.ev.ite h.plainWrite

theorem State.Kept.domDead {d} : (s.domDead d).Canonical := by
  unfold State.domDead
  extract_lets _ s1 s2 s3
  have h1 : s1.Canonical := h.sameStores
  have h2 : s2.Canonical := h1.put.put.ite (h1.put.put.ite h1)
  have h3 : s3.Canonical := h2.ite (h2.overAll fun _ _ h' => h'.holdPads.padCause)
  exact h.ite h3.evC

theorem State.Kept.fallback {d} : (s.fallback d).Canonical :=
  (h.setTarget.put.ite h).toIrc.ite (h.setTarget.put.ite h).put.sameStores

theorem State.Kept.tripDomain {clk d} : (s.tripDomain clk d).Canonical :=
  h.ite ((h.domDead.ite (h.setTarget.put.domDead.ite h)).ite (h.fallback.ite h))

theorem State.Kept.tripRecord {clk kind} : (s.tripRecord clk kind).Canonical := h.put.inc.put.put.evC.sameStores
theorem State.Kept.tripLock {clk} : (s.tripLock clk).Canonical := h.ite (h.put.ite h.put.put.evC)
theorem State.Kept.tripFixed {clk} : (s.tripFixed clk).Canonical := (h.domDead.ite h).domDead.ite (h.domDead.ite h)

theorem State.Kept.doMonitorTrip {clk kind} : (Machine.doMonitorTrip clk kind s).Canonical := by
  unfold Machine.doMonitorTrip
  extract_lets s1
  have h1 : s1.Canonical := h.tripRecord.tripLock.tripDomain.tripDomain.tripFixed
  exact h.ite (h1.raiseNmiAll.ite h1)

theorem State.Kept.gateRequest {p} : (s.gateRequest p).Canonical := by
  unfold State.gateRequest
  refine h.refuse.ite (h.ite ?_)
  split
  exacts [h.put.sameStores.holdPads.padCause, h.put.sameStores.loseCore, h.put.sameStores]

theorem State.Kept.gateStop {p} : (s.gateStop p).Canonical := by
  unfold State.gateStop
  split
  exacts [h.put.sameStores.stopCarrier.ite h.put.sameStores, h.put.sameStores]

theorem State.Kept.dropItems {p} : (s.dropItems p).Canonical := by
  unfold State.dropItems
  split
  exacts [h.sameStores.sameStores, h.sameStores]

theorem State.Kept.doGateAck {page} : (Machine.doGateAck page s).Canonical := h.gateStop.ite h

theorem State.Kept.forcedGate {page} : (s.forcedGate page).Canonical := by
  unfold State.forcedGate
  split
  exacts [h.put.gateStop.dropItems.ev.ite h.ev, h.ev]

theorem State.Kept.fgateWrite {v} : (s.fgateWrite v).Canonical := h.put.forcedGate.ite h.put

end

end Sys2Proof.Machine
end

section
/-! PROOF. The other operations of Sys2Proof/Machine/Reset.lean keep the stores in canonical form. -/

namespace Sys2Proof.Machine

section
variable {s : State} (h : s.Canonical)
include h

theorem State.Kept.setCause {kind src ot count} : (s.setCause kind src ot count).Canonical := h.setReg

theorem State.Kept.mramOnly : Tab.wf (fun _ => (0 : Word)) (Machine.mramOnly s.mem) = true := Tab.wf_filter _ _ _ h.holds.mem
omit h in
theorem State.canonical_hardReset {m : Tab Word} (hm : Tab.wf (fun _ => (0 : Word)) m = true) : (s.hardReset m).Canonical :=
  State.canonical_of (by rfl) (Tab.wf_filter _ _ _ hm) rfl
omit h in
theorem drainMwq_wf {l : List MramWr} {m : Tab Word} (hm : Tab.wf (fun _ => (0 : Word)) m = true) :
    Tab.wf (fun _ => (0 : Word)) (drainMwq l m) = true := by
  induction l generalizing m with
  | nil => exact hm
  | cons r l ih => exact ih (Tab.wf_set _ _ _ _ hm)

theorem State.Kept.doPowerOnReset : (Machine.doPowerOnReset s).Canonical :=
  State.canonical_hardReset (drainMwq_wf h.holds.mem)

theorem State.Kept.doModuleReset {rec_ svc} : (Machine.doModuleReset rec_ svc s).Canonical :=
  (State.canonical_hardReset h.holds.mem).setCause.sameStores

omit h in
theorem regsAcross_wf {m : Tab Word} (hm : Tab.sorted m = true) : Tab.wf resetWord (regsAcross m) = true := by
  refine Tab.wf_filterMap hm fun e x hx => ?_
  dsimp only at hx
  split at hx
  · cases hx
  · rename_i hv
    cases hx
    exact ⟨rfl, hv⟩
theorem State.Kept.computeReset {rec_ src ot} : (s.computeReset rec_ src ot).Canonical := by
  unfold State.computeReset
  extract_lets s0 _ s1
  have h0 : s0.Canonical := h.islandStopAll
  have h1 : s1.Canonical := State.canonical_of (regsAcross_wf (Tab.sorted_of_wf h0.holds.regs)) h.mramOnly rfl
  exact h1.put.put.setCause

theorem State.Kept.doComputeReset {rec_ src} : (Machine.doComputeReset rec_ src s).Canonical := h.computeReset.ite h

theorem State.Kept.doOverTemperatureShutdown {on} : (Machine.doOverTemperatureShutdown on s).Canonical :=
  h.ite (h.computeReset.sameStores.ite h.sameStores)

theorem State.Kept.rstWrite {v} : (s.rstWrite v).Canonical := h.ev.ite (h.doModuleReset.ite (h.doComputeReset.ite h.ev))

end

end Sys2Proof.Machine
end

section
/-! PROOF. The other operations of Sys2Proof/Machine/Flags.lean keep the stores in canonical form. -/

namespace Sys2Proof.Machine

section
variable {s : State} (h : s.Canonical)
include h

theorem State.Kept.sticky {c k b} : (s.sticky c k b).Canonical := h.setCr.ite h
theorem State.Kept.setZncv {c o} : (s.setZncv c o).Canonical := h.setCr
theorem State.Kept.fflags {c fl} : (s.fflags c fl).Canonical := h.setCr
theorem State.Kept.setAcc {c k i} : (s.setAcc c k i).Canonical := h.setCr.setCr.setCr
theorem State.Kept.setAccSat {c k i} : (s.setAccSat c k i).Canonical := h.setAcc.sticky

end

end Sys2Proof.Machine
end

section
/-! PROOF. The other operations of Sys2Proof/Machine/SynlenAlu.lean keep the stores in canonical form. -/

namespace Sys2Proof.Machine

section
variable {s : State} (h : s.Canonical)
include h

theorem State.Kept.aluDone {c d o} : (s.aluDone c d o).Canonical := h.setG.setZncv.sticky.advance
theorem State.Kept.regDone {c d r} : (s.regDone c d r).Canonical := h.setG.advance
theorem State.Kept.alu3 {c i d a b f} : (s.alu3 c i d a b f).Canonical := h.instr (fun _ h' => h'.aluDone)
theorem State.Kept.reg3 {c i d a b f} : (s.reg3 c i d a b f).Canonical := h.instr (fun _ h' => h'.regDone)
theorem State.Kept.reg2 {c i d a f} : (s.reg2 c i d a f).Canonical := h.instr (fun _ h' => h'.regDone)
theorem State.Kept.divide {c i d a b f} : (s.divide c i d a b f).Canonical := h.instr (fun _ h' => h'.setG.sticky.advance)

end

end Sys2Proof.Machine
end

section
/-! PROOF. The other operations of Sys2Proof/Machine/SynlenFloat.lean keep the stores in canonical form. -/

namespace Sys2Proof.Machine

section
variable {s : State} (h : s.Canonical)
include h

theorem State.Kept.setPairD {c d w} : (s.setPairD c d w).Canonical := h.setG.setG
theorem State.Kept.fDone {c d r} : (s.fDone c d r).Canonical := h.setG.fflags.advance
theorem State.Kept.dDone {c d r} : (s.dDone c d r).Canonical := h.setPairD.fflags.advance
theorem State.Kept.iDone {c d r} : (s.iDone c d r).Canonical := h.setG.fflags.sticky.advance
theorem State.Kept.f2 {c i d a b rm f} : (s.f2 c i d a b rm f).Canonical := h.instr (fun _ h' => h'.fDone)
theorem State.Kept.d2 {c i d a b rm f} : (s.d2 c i d a b rm f).Canonical := h.instr (fun _ h' => h'.dDone)
theorem State.Kept.dCmp {c i d a b k} : (s.dCmp c i d a b k).Canonical := h.instr (fun _ h' => h'.fDone)

end

end Sys2Proof.Machine
end

section
/-! PROOF. The other operations of Sys2Proof/Machine/SynlenMem.lean keep the stores in canonical form. -/

namespace Sys2Proof.Machine

section
variable {s : State} (h : s.Canonical)
include h

theorem State.Kept.pushOut {c o} : (s.pushOut c o).Canonical := h.setCo
theorem State.Kept.loadWord {c d a} : (s.loadWord c d a).Canonical := h.setG.ite h.pushOut
theorem State.Kept.storeWord {c a v whole} : (s.storeWord c a v whole).Canonical := h.setMem.ite h.pushOut

theorem State.Kept.loads {c l} {k : State → State} (hk : ∀ t, t.Canonical → (k t).Canonical) : (s.loads c l k).Canonical :=
  h.setCo.ite ((hk _ (h.foldl (fun _ _ h' => h'.loadWord))).advance.ite h)

theorem State.Kept.stores {c l} {k : State → State} (hk : ∀ t, t.Canonical → (k t).Canonical) : (s.stores c l k).Canonical :=
  (hk _ (h.foldl (fun _ _ h' => h'.storeWord))).advance.ite h

theorem State.Kept.updPtr {c p am m circ imm} : (s.updPtr c p am m circ imm).Canonical := h.ite (h.setCr.ite h.setCr)

theorem State.Kept.atomic {c i k d a b} : (s.atomic c i k d a b).Canonical :=
  h.instr (fun _ h' => h'.ite (h'.setMem.setG.advance.ite (h'.setG.advance.takeExc.ite h'.pushOut.setCo)))

end

end Sys2Proof.Machine
end

section
/-! PROOF. The other operations of Sys2Proof/Machine/SynlenMac.lean keep the stores in canonical form. -/

namespace Sys2Proof.Machine

section
variable {s : State} (h : s.Canonical)
include h

theorem State.Kept.accAdd {c k neg clr sum} : (s.accAdd c k neg clr sum).Canonical := h.setAccSat
theorem State.Kept.shiftWin {c x} : (s.shiftWin c x).Canonical := h.setCr.setCr.setCr.setCr

end

end Sys2Proof.Machine
end

section
/-! PROOF. The other operations of Sys2Proof/Machine/SynlenFlow.lean keep the stores in canonical form. -/

namespace Sys2Proof.Machine

section
variable {s : State} (h : s.Canonical)
include h

theorem State.Kept.holdIssue {c h'} : (s.holdIssue c h').Canonical := h.setCo
theorem State.Kept.postas {c l} : (s.postas c l).Canonical := h.foldl (fun _ _ h' => h'.offerPost)

theorem State.Kept.postaAfter {c l} : (s.postaAfter c l).Canonical := by
  unfold State.postaAfter
  split
  exacts [h.setCo, h.postas]

theorem State.Kept.endActivation {c} : (s.endActivation c).Canonical := by
  unfold State.endActivation
  split
  exacts [h.advance, h.freeCore.ite (h.put.setTskState.ite (h.put.list.ite h.put.setTskState)).freeCore]

theorem State.Kept.enterNmi {c} : (s.enterNmi c).Canonical := h.setCr.setCr.setCr.setPc.setCo.put.incMod.ev
theorem State.Kept.doNmiSet {c} : (Machine.doNmiSet c s).Canonical := h.raiseNmi.ite h

end

end Sys2Proof.Machine
end

section
/-! PROOF. The other operations of Sys2Proof/Machine/View.lean keep the stores in canonical form. -/

namespace Sys2Proof.Machine

section
variable {s : State} (h : s.Canonical)
include h

theorem State.Kept.readHeld {core kind base i a} : ((s.readHeld core kind base i a).2).Canonical := by
  unfold State.readHeld
  split
  · split
    exacts [h.holdDrop.ite h, h]
  · exact h

theorem State.Kept.readOut : ((Machine.readOut s).2).Canonical := h

theorem State.Kept.snapRead {a} : (s.snapRead a).2.Canonical :=
  .iteSnd h (.iteSnd h.doSnapshotRead.readOut (.iteSnd h.sameStores h))

theorem State.Kept.fbkRead {ini ch off a} : (s.fbkRead ini ch off a).2.Canonical :=
  .iteSnd h.doFbkPosRead.readOut (.iteSnd h.readHeld (.iteSnd h.doFbkLatRead.readOut (.iteSnd h.readHeld h)))

theorem State.Kept.profRead {ini ch off a} : (s.profRead ini ch off a).2.Canonical :=
  .iteSnd h.doProfPosRead.readOut (.iteSnd h.readHeld (.iteSnd h.doProfLatRead.readOut (.iteSnd h.readHeld h)))

theorem State.Kept.pageRead {ini a} : (s.pageRead ini a).2.Canonical := by
  simp only [State.pageRead]
  split
  · exact h.snapRead
  · exact .iteSnd h.doTrgThRead.readOut (.iteSnd h.readHeld h)
  · exact .iteSnd h.doTxqLoRead.readOut h
  · exact .iteSnd h.doTioCloRead.readOut h
  · exact h.fbkRead
  · exact h.profRead
  · exact h

theorem State.Kept.busRead {ini a} : (s.busRead ini a).2.Canonical := by
  unfold State.busRead
  split
  · exact .iteSnd h h
  · exact h
  · exact h
  · exact h
  · exact h
  · exact .iteSnd h h
  · exact .iteSnd h h.pageRead
  · exact h

end

end Sys2Proof.Machine
end

section
/-! PROOF. The other operations of Sys2Proof/Machine/Bus.lean keep the stores in canonical form. -/

namespace Sys2Proof.Machine

section
variable {s : State} (h : s.Canonical)
include h

theorem State.Kept.enEffect {b on} : (s.enEffect b on).Canonical := by
  unfold State.enEffect
  split
  · exact (h.setPw.ite h).ite h.stopCarrier.holdPads.padCause
  · exact h.aleClear.ite h.aleStop
  · exact h.fbkEnable.ite h
  · exact h.profEnable.ite h.profDisable
  · exact h.prismEnable.ite h
  · exact h.ringWake.ite h
  · exact h.ite h.loseCore
  · exact h

theorem State.Kept.enWrite {p on} : (s.enWrite p on).Canonical := h.ite h.put.enEffect
theorem State.Kept.resetBusy {p} : (s.resetBusy p).Canonical := h.sameStores
theorem State.Kept.pwmReset {ch} : (s.pwmReset ch).Canonical := h.stopCarrier.resetPage.setPw.holdPads
theorem State.Kept.aleReset {ch} : (s.aleReset ch).Canonical := h.aleClear.resetPage.setAl
theorem State.Kept.fbkReset {ch} : (s.fbkReset ch).Canonical := h.resetPage.setFb.emuRefresh
theorem State.Kept.profReset {ch} : (s.profReset ch).Canonical := h.resetPage.setPr
theorem State.Kept.portReset {p} : (s.portReset p).Canonical := h.resetPage.put.setPo.ite h.resetPage.put

theorem State.Kept.coreReset {c} : (s.coreReset c).Canonical := by
  unfold State.coreReset
  extract_lets pc s1 s2 _ s3
  have h1 : s1.Canonical := h.resetPage
  have h2 : s2.Canonical := State.canonical_of h1.holds.regs h1.holds.mem (Tab.wf_filter _ _ _ h1.holds.crs)
  have h3 : s3.Canonical := h2.setCo
  split
  exacts [h3, h3.freeCore.ite h3.recordExc.put.setTskState.inc.evC.freeCore]

theorem State.Kept.clkReset : (s.clkReset).Canonical := h.resetPage.put.put.sameStores
theorem State.Kept.sysReset {p} : (s.sysReset p).Canonical := h.resetPage.put.ite h.resetPage
theorem State.Kept.slotsReset : (s.slotsReset).Canonical := h.resetPage.sameStores.put
theorem State.Kept.memReset {k} : (s.memReset k).Canonical := h.resetPage.sameStores.ite h.resetPage.sameStores

theorem State.Kept.srst {p} : (s.srst p).Canonical := by
  unfold State.srst
  split
  · exact h.sysReset.resetBusy
  · exact h.sysReset.resetBusy
  · exact h.clkReset.resetBusy
  · exact h.doTimeSrst.resetBusy
  · exact h.doTbSrst.resetBusy
  · exact h.tsuReset.resetBusy
  · exact h.doPrismSrst
  · exact h.prismPageReset.resetBusy
  · exact h.prismPageReset.resetBusy
  · exact h.doInnkSrst
  · exact h.resetPage.resetBusy
  · exact h.resetPage.resetBusy
  · exact h.resetPage.resetBusy
  · exact h.memReset.resetBusy
  · exact h.memReset.resetBusy
  · exact h.memReset.resetBusy
  · exact h.memReset.resetBusy
  · exact h.doPorterSrst
  · exact h.slotsReset.resetBusy
  · exact h.ringReset.resetBusy
  · exact h.ringReset.resetBusy
  · exact h.ethReset.resetBusy
  · exact h.ethReset.resetBusy
  · exact h.pwmReset.resetBusy
  · exact h.aleReset.resetBusy
  · exact h.fbkReset.resetBusy
  · exact h.profReset.resetBusy
  · exact h.portReset.resetBusy
  · exact h.coreReset.resetBusy
  · exact h.refuse
  · exact h.refuse
  · exact h.refuse
  · exact h.refuse
  · exact h.refuse
  · exact h.refuse
  · exact h.refuse
  · exact h
  · exact h
  · exact h
  · exact h
  · exact h
  · exact h

theorem State.Kept.setWindow {p t} : (s.setWindow p t).Canonical := h.sameStores

theorem State.Kept.doFcCfgWrite {ini page v} : (Machine.doFcCfgWrite ini page v s).Canonical :=
  h.ite (h.noteRefused.ite (h.inc.ite h.setReg.put.put.setWindow))

theorem State.Kept.doFcWindowEdge {page} : (Machine.doFcWindowEdge page s).Canonical := by
  unfold Machine.doFcWindowEdge
  refine .ite ?_ h
  split
  exacts [h.put.put.setWindow.trackEdge, h.put.put.setWindow.trackEdge, h.put.put.setWindow]

theorem State.Kept.unblock {p} : (s.unblock p).Canonical := by
  unfold State.unblock
  extract_lets s1 _
  have h1 : s1.Canonical := h.sameStores
  split
  · exact h.ite h1.holdPads
  · exact h1.holdPads
  · exact h1.holdPads
  · exact h1.holdPads
  · exact h1.overAll fun _ _ h' => h'.holdPads
  · exact h1.sameStores
  · exact h1.sameStores
  · exact h1

theorem State.Kept.doFaultClear {page counted} : (Machine.doFaultClear page counted s).Canonical :=
  ((h.put.put.put.unblock.ite h.put.put.put).fc.ite (h.put.put.put.unblock.ite h.put.put.put)).ite h

theorem State.Kept.doEventClear {page pend mask newEv} : (Machine.doEventClear page pend mask newEv s).Canonical :=
  (h.put.ite (h.refuse.ite h.put)).put.setPend.ite h

theorem State.Kept.doPagePostDeliver : (Machine.doPagePostDeliver s).Canonical := by
  unfold Machine.doPagePostDeliver
  split
  exacts [h, h.ite (h.sameStores.ite (h.sameStores.ite h.sameStores))]

theorem State.Kept.ungate {p} : (s.ungate p).Canonical := h.put.put.sameStores.ite h

theorem State.Kept.ctlWrite {p v} : (s.ctlWrite p v).Canonical :=
  ((h.enWrite.gateRequest.ite h.enWrite.ungate).ite h.enWrite).srst.ite (
    (h.enWrite.gateRequest.ite h.enWrite.ungate).ite h.enWrite)

theorem State.Kept.headerWrite {ini a v} : (s.headerWrite ini a v).Canonical :=
  h.ctlWrite.ite (h.doEventClear.ite (h.doEventClear.ite (h.doFcCfgWrite.ite ((h.doFaultClear.ite h).ite h.plainWrite))))

theorem State.Kept.seal : (s.seal).Canonical := h.ite h.sameStores.put.ringSeal.ringWake.ev
theorem State.Kept.sysWrite {ini a v} : (s.sysWrite ini a v).Canonical := h.rstWrite.ite ((h.seal.ite h).ite h.plainWrite)

theorem State.Kept.clkWrite {ini off v} : (s.clkWrite ini off v).Canonical :=
  h.srcWrite.ite (h.doClkPllWrite.ite (h.domWrite.ite (h.domWrite.ite (h.fixWrite.ite (h.doClkSscWrite.ite
    (h.fgateWrite.ite h.plainWrite))))))

theorem State.Kept.innkCmd {v} : (s.innkCmd v).Canonical :=
  h.cmdFields.ite (h.doCancel.ite (h.doClear.ite (h.doResumeCommand.ite (h.doClearStatistics.ite h.cmdFields.cmdRefused))))

theorem State.Kept.innkWrite {ini off v} : (s.innkWrite ini off v).Canonical :=
  h.innkCmd.ite (h.loadCfgWrite.ite h.plainWrite)

theorem State.Kept.tskWrite {a v} : (s.tskWrite a v).Canonical :=
  h.doTskCfgWrite.ite (h.doTskAffWrite.ite (h.doTskAffWrite.ite h.doContextWrite))

theorem State.Kept.porterWrite {ini off v} : (s.porterWrite ini off v).Canonical :=
  (h.doPorterStart.ite h.put).ite h.plainWrite

theorem State.Kept.commitWrite {ch v} : (s.commitWrite ch v).Canonical := by
  unfold State.commitWrite
  extract_lets s1 s2
  have h1 : s1.Canonical := h.doPwmCommitStart.ite h
  have h2 : s2.Canonical := h1.doPwmCommitStop.ite h1
  exact h2.doPwmCommitGo.ite h2

theorem State.Kept.tripWrite {ini ch v} : (s.tripWrite ini ch v).Canonical := h.noteRefused.ev.ite h.plainWrite

theorem State.Kept.pwmWrite {ini ch off v} : (s.pwmWrite ini ch off v).Canonical :=
  h.doPwmCfgWrite.ite (h.doShadowWrite.ite ((h.ev.ite h.plainWrite).ite (h.commitWrite.ite (h.tripWrite.ite
    (h.doSdCfgWrite.ite h.plainWrite)))))

theorem State.Kept.coreWrite {ini c off v} : (s.coreWrite ini c off v).Canonical :=
  (h.put.put.ite h).ite ((h.doNmiSet.ite h).ite h.plainWrite)

theorem State.Kept.safeWrite {ini a v} : (s.safeWrite ini a v).Canonical :=
  h.mbWrite.ite (h.put.ite (h.headerWrite.ite h.refuse))

theorem State.Kept.lensWrite {ini a v} : (s.lensWrite ini a v).Canonical := h.headerWrite.ite ((h.ev.ite h.put).ite h.refuse)

theorem State.Kept.blockWrite {ini a v} : (s.blockWrite ini a v).Canonical := by
  unfold State.blockWrite
  split
  · exact h.sysWrite
  · exact h.clkWrite
  · exact h.timeWrite
  · exact h.tbWrite
  · exact h.trgWrite
  · exact h.doPrismPerWrite.ite h
  · exact h.doTioCfgWrite.ite h
  · exact h.innkWrite
  · exact h.plainWrite.noteLevel
  · exact h.tskWrite
  · exact h.memWrite
  · exact h.memWrite
  · exact h.memWrite
  · exact h.memWrite
  · exact h.porterWrite
  · exact h.ringWrite
  · exact h.cpWrite
  · exact h.ethWrite
  · exact h.pwmWrite
  · exact h.aleWrite
  · exact h.fbkWrite
  · exact h.profWrite
  · exact h.doPortMclkWrite.ite h
  · exact h.coreWrite
  · exact h
  · exact h
  · exact h.plainWrite

theorem State.Kept.pageWrite {ini a v} : (s.pageWrite ini a v).Canonical := by
  unfold State.pageWrite
  split
  · exact h.safeWrite
  · exact h.safeWrite
  · exact h.safeWrite
  · exact h.safeWrite
  · exact h.lensWrite
  · exact h.lensWrite
  · exact h.lensWrite
  · exact h.headerWrite.ite h.blockWrite

theorem State.Kept.busWrite {ini a v} : (s.busWrite ini a v).1.Canonical := by
  unfold State.busWrite
  split
  · exact .iteFst h h.setMem
  · exact h
  · exact h.setMem
  · exact h.setMem
  · exact h.setMem
  · exact .iteFst h.setMem h
  · exact .iteFst h h.pageWrite
  · exact h

theorem State.Kept.proceed {l} : (s.proceed l).Canonical := by
  induction l generalizing s with
  | nil => exact h
  | cons x r ih =>
    simp only [State.proceed]
    refine .ite (ih h.sameStores) ?_
    split
    exacts [ih h.busWrite, ih h]

theorem State.Kept.proceedHeld : (s.proceedHeld).Canonical := h.sameStores.proceed

theorem State.Kept.doRegisterWrite {ini addr v} :
    (Machine.doRegisterWrite ini addr v s).Canonical := h.sameStores.ite h.busWrite

theorem State.Kept.gateRefuse {page} : (s.gateRefuse page).Canonical := h.put.sameStores.put.inc.evC.proceedHeld

end

end Sys2Proof.Machine
end

section
/-! PROOF. The other operations of Sys2Proof/Machine/CoreMem.lean keep the stores in canonical form. -/

namespace Sys2Proof.Machine

section
variable {s : State} (h : s.Canonical)
include h

theorem State.Kept.dropOut {c k} : (s.dropOut c k).Canonical := by
  simp only [State.dropOut]
  split
  exacts [h.setCo.setCo, h.setCo.postas]

theorem State.Kept.afterAccess {c} : (s.afterAccess c).Canonical := by
  unfold State.afterAccess
  extract_lets s1
  suffices h1 : s1.Canonical from h1.tryDrain
  dsimp only [s1]
  split
  · exact h.holdIssue.advance.ite h
  · exact h.holdIssue.advance.ite h
  · exact h.offerPost.holdIssue.ite h
  · exact h

theorem State.Kept.checkedRead {ini a own how} : (s.checkedRead ini a own how).2.Canonical := by
  unfold State.checkedRead
  split
  · exact .iteSnd h h.busRead
  · exact .iteSnd h h.busRead
  · exact .iteSnd h h.busRead
  · exact .iteSnd h.noteRead.busRead h.noteRead

theorem State.Kept.accessError {c k o} : (s.accessError c k o).Canonical :=
  ((h.dropOut.ite h.dropOut.setGIn).holdIssue.advance.ite (h.dropOut.ite h.dropOut.setGIn)).takeExc.afterAccess

theorem State.Kept.loadDone {c k o how} : (s.loadDone c k o how).Canonical := by
  simp only [State.loadDone]
  split
  exacts [h.checkedRead.dropOut.setGIn.afterAccess, h.checkedRead.accessError]

theorem State.Kept.atomicDone {c k o how} : (s.atomicDone c k o how).Canonical := by
  unfold State.atomicDone
  extract_lets r
  have hr : r.2.Canonical := h.checkedRead
  refine .ite ?_ h.accessError
  split
  · extract_lets s1
    have h1 : s1.Canonical := hr.setMem.dropOut.setGIn
    exact (h1.holdIssue.advance.ite h1).afterAccess
  · exact hr.accessError

theorem State.Kept.storeDone {c k o how} : (s.storeDone c k o how).Canonical := by
  unfold State.storeDone
  extract_lets s1 w
  have h1 : s1.Canonical := h.noteRead.ite h
  have hw : w.1.Canonical := h1.busWrite
  exact h.setMem.dropOut.afterAccess.ite (h1.accessError.ite (hw.accessError.ite hw.dropOut.afterAccess))

theorem State.Kept.doLoadReturn {c k how} : (Machine.doLoadReturn c k how s).Canonical := by
  unfold Machine.doLoadReturn
  split
  exacts [h, h.ite (h.loadDone.ite h.atomicDone)]

theorem State.Kept.doStoreComplete {c k how} : (Machine.doStoreComplete c k how s).Canonical := by
  unfold Machine.doStoreComplete
  split
  exacts [h, h.storeDone.ite h]

theorem State.Kept.doAccessTimeout {c k} : (Machine.doAccessTimeout c k s).Canonical := by
  unfold Machine.doAccessTimeout
  split
  exacts [h, h.ite h.accessError]

theorem State.Kept.ownError {c a} : (s.ownError c a).Canonical := h.freeVal.memError

theorem State.Kept.accessRemote {ini a : Nat} {wr : Option Word} :
    (match wr with
      | some v => (s.busWrite ini a v).1
      | none => { (s.busRead ini a).2 with rdata := (s.busRead ini a).1.getD 0 }).Canonical := by
  cases wr with
  | none => exact h.busRead.sameStores
  | some v => exact h.busWrite
theorem State.Kept.doRemoteStoreAccess {ini addr wr} : (Machine.doRemoteStoreAccess ini addr wr s).Canonical := by
  unfold Machine.doRemoteStoreAccess
  split
  · exact h.ite h.accessRemote
  · exact h.ite h.accessRemote
  · exact h

end

end Sys2Proof.Machine
end

section
/-! PROOF. The other operations of Sys2Proof/Machine/Porter.lean keep the stores in canonical form. -/

namespace Sys2Proof.Machine

section
variable {s : State} (h : s.Canonical)
include h

theorem State.Kept.descPost {d} : (s.descPost d).Canonical := h.offerPost.ite h
theorem State.Kept.descFail {e r code} : (s.descFail e r code).Canonical := h.descBack.descPost.porterFail.setPe.showChains

theorem State.Kept.moveWord {e d m} : (s.moveWord e d m).2.Canonical := by
  unfold State.moveWord
  extract_lets put r
  have hr : r.2.Canonical := h.busRead
  have hp : ∀ v t, t.Canonical → (put v t).2.Canonical := fun v t ht => .iteSnd ht.busWrite ht.busWrite.incMod
  refine .iteSnd (hp _ _ h) ?_
  split
  · exact hp _ _ hr
  · exact hr

theorem State.Kept.moveStep {e} : (s.moveStep e).Canonical := by
  simp only [State.moveStep]
  split
  · refine h.ite ?_
    split
    · exact h.moveWord.descFail
    · exact h.moveWord.setPe.ite h.moveWord
  · exact h

theorem State.Kept.moveSteps {e n} : (s.moveSteps e n).Canonical := by
  induction n generalizing s with
  | zero => exact h
  | succ n ih => exact ih h.moveStep

theorem State.Kept.porterTick : (s.porterTick).Canonical := h.overAll (fun _ _ h' => h'.moveStep)

theorem State.Kept.queueAll {e l} : (s.queueAll e l).2.Canonical := by
  induction l generalizing s with
  | nil => exact h
  | cons m r ih =>
    simp only [State.queueAll]
    split
    exacts [ih h.busRead.mramPush.incMod, h.busRead]

theorem State.Kept.beginMram {e r d} : (s.beginMram e r d).Canonical := by
  unfold State.beginMram
  extract_lets l q
  have hq : q.2.Canonical := h.queueAll
  refine h.descFail.ite ?_
  split
  exacts [hq.descFail, hq.descFail.ite hq]

theorem State.Kept.beginDesc {e r} : (s.beginDesc e r).Canonical :=
  h.descFail.ite (h.descFail.ite (h.setPe.descFail.ite (h.setPe.beginMram.ite h.setPe)))

theorem State.Kept.doEngineAssign {e} : (Machine.doEngineAssign e s).Canonical := by
  unfold Machine.doEngineAssign
  refine h.ite ?_
  split
  · exact h.beginDesc.ite h
  · split
    exacts [h, h.sameStores.beginDesc]

theorem State.Kept.descEnd {e r d} : (s.descEnd e r d).Canonical :=
  h.descBack.descPost.incMod.ev.setPe.showChains.ite (h.descBack.descPost.setPe.ite h.descBack.descPost.setPe.beginDesc)

theorem State.Kept.doDescriptorDone {e} : (Machine.doDescriptorDone e s).Canonical := by
  unfold Machine.doDescriptorDone
  split
  exacts [h.ite ((h.descEnd.ite h).ite (h.moveSteps.descEnd.ite h.moveSteps)), h]

theorem State.Kept.cutMram {e k d} (ht : s.cutMram e k d = some t) : t.Canonical := by
  simp only [State.cutMram] at ht
  split at ht
  · cases ht
  · cases ht; exact h.sameStores.showMwq

theorem State.Kept.doDescriptorFailed {e addr onWrite how} : (Machine.doDescriptorFailed e addr onWrite how s).Canonical := by
  simp only [Machine.doDescriptorFailed]
  split
  · refine h.ite ((h.noteRead.ite h.noteRead.descFail).ite ?_)
    split
    · exact h
    · refine h.ite (h.noteRead.ite (.ite ?_ (h.moveSteps.noteRead.descFail.ite h.moveSteps)))
      split
      · rename_i ht
        exact h.ite (h.cutMram ht).noteRead.descFail
      · exact h
  · exact h

end

end Sys2Proof.Machine
end

section
/-! PROOF. The other operations of Sys2Proof/Machine/Boot.lean keep the stores in canonical form. -/

namespace Sys2Proof.Machine

section
variable {s : State} (h : s.Canonical)
include h

theorem State.Kept.loadWords {a l} : (s.loadWords a l).Canonical := by
  induction l generalizing s a with
  | nil => exact h
  | cons w r ih => exact ih h.setMem

theorem State.Kept.settle : (s.settle).Canonical := h.sameStores.proceedHeld.overAll
    (fun _ _ h' => h'.doGateAck.ite h'.gateRefuse)

theorem State.Kept.applyWrites {l} : (s.applyWrites l).Canonical := by
  induction l generalizing s with
  | nil => exact h
  | cons e r ih => exact ih h.doRegisterWrite.settle

theorem State.Kept.loadSection {a x} : (s.loadSection a x).Canonical := h.applyWrites.ite h.loadWords

theorem State.Kept.loadImage {a l} : (s.loadImage a l).Canonical := by
  induction l generalizing s with
  | nil => exact h
  | cons x r ih => exact ih h.loadSection

theorem State.Kept.writeBootRecord {b codeA codeB} : (s.writeBootRecord b codeA codeB).Canonical := h.putOcts

theorem State.Kept.bootClocks : (s.bootClocks).Canonical :=
  (h.put.put.put.overAll (fun _ _ h' => h'.put.put.put.put)).put.put.ev

theorem State.Kept.releaseCores {a} : (s.releaseCores a).Canonical := h.overAll (fun _ _ h' => h'.enWrite.ite h')

theorem State.Kept.bootBank {b codeA codeB ms} : (s.bootBank b codeA codeB ms).Canonical := by
  unfold State.bootBank
  extract_lets a s1 s2 s3 s4
  have h2 : s2.Canonical := h.loadImage.writeBootRecord.put.seal
  have h4 : s4.Canonical := h2.put.put.put.put.put.put
  exact h4.releaseCores.put.offerPost

theorem State.Kept.keepMram : State.Canonical { s with mem := Machine.mramOnly s.mem } := State.canonical_of h.holds.regs h.mramOnly h.holds.crs
theorem State.Kept.bootMemory : s.bootMemory.Canonical := h.bootClocks.keepMram

theorem State.Kept.noteCodes {ca cb} : (s.noteCodes ca cb).Canonical := h.put.put.sameStores
theorem State.Kept.bootImage {ms c} : (s.bootImage ms c).Canonical := h.noteCodes.put.ite h.noteCodes.bootBank
theorem State.Kept.doBoot {ms ueA ueB} : (Machine.doBoot ms ueA ueB s).Canonical := h.bootMemory.bootImage.ite h
theorem State.Kept.doRecoveryRequest : (Machine.doRecoveryRequest s).Canonical := h.sameStores.ite h
theorem State.Kept.answer {ok ws} : (s.answer ok ws).Canonical := h.freeVal.sameStores

theorem State.Kept.onConsole {k : State → State} (hk : ∀ t, t.Canonical → (k t).Canonical) : (s.onConsole k).Canonical :=
  (hk _ h).ite h

end

end Sys2Proof.Machine
end

section
/-! PROOF. The other operations of Sys2Proof/Machine/Envir.lean keep the stores in canonical form. -/

namespace Sys2Proof.Machine

section
variable {s : State} (h : s.Canonical)
include h

theorem State.Kept.doPortIdentityMeasure {port ohm} : (Machine.doPortIdentityMeasure port ohm s).Canonical :=
  h.ite (h.put.put.put.ite h.put.put.put.evC)

theorem State.Kept.doLogicInputLost {b} : (Machine.doLogicInputLost b s).Canonical := h.put.evC.ite h
theorem State.Kept.doLogicInputReturned {b} : (Machine.doLogicInputReturned b s).Canonical := h.ite h.put.ev

theorem State.Kept.doBrakeInputFault {b} : (Machine.doBrakeInputFault b s).Canonical := by
  unfold Machine.doBrakeInputFault
  extract_lets i _ s1 s2 s3 s4
  have h2 : s2.Canonical := h.sameStores.overAll fun _ _ h' => h'.brakeFault
  have h3 : s3.Canonical := h2.overAll fun _ _ h' => h'.stopPort
  have h4 : s4.Canonical := h3.put.evC
  exact h.ite (h4.overAll fun _ _ h' => h'.doSupplyUndervoltage)

theorem State.Kept.showThrottling : (s.showThrottling).Canonical := h.ite (h.put.ev.ite h.put.ev.sameStores)
theorem State.Kept.doFanFailed {k} : (Machine.doFanFailed k s).Canonical := h.ite h.put.evC.showThrottling
theorem State.Kept.doFanRunning {k} : (Machine.doFanRunning k s).Canonical := h.ite h.put.showThrottling
theorem State.Kept.doTemperatureWarning {on} : (Machine.doTemperatureWarning on s).Canonical := h.ite (h.put.evC.ite h.put)
theorem State.Kept.showWarning : (s.showWarning).Canonical := h.doTemperatureWarning.ite (h.doTemperatureWarning.ite h)
theorem State.Kept.showLogic {b v} : (s.showLogic b v).Canonical := h.doLogicInputLost.ite (h.doLogicInputReturned.ite h)
theorem State.Kept.showBrake {b v i} : (s.showBrake b v i).Canonical := h.sameStores.put.ite h

theorem State.Kept.showEnvironment {temp fan vlogic vbrake ibrake} :
    (s.showEnvironment temp fan vlogic vbrake ibrake).Canonical :=
  h.setReg.put.put.setReg.setReg.setReg.showLogic.showLogic.showBrake.showBrake.showWarning.showThrottling

theorem State.Kept.doEnvironmentUpdate {temp fan vlogic vbrake ibrake} :
    (Machine.doEnvironmentUpdate temp fan vlogic vbrake ibrake s).Canonical :=
  (h.doOverTemperatureShutdown.ite h).ite (h.showEnvironment.doOverTemperatureShutdown.ite h.showEnvironment)

end

end Sys2Proof.Machine
end

section
/-! PROOF. The other operations of Sys2Proof/Machine/Tick.lean keep the stores in canonical form. -/

namespace Sys2Proof.Machine

section
variable {s : State} (h : s.Canonical)
include h

theorem State.Kept.tick : (s.tick).Canonical :=
  h.fbkSettle.outSettle.proceedHeld.sameStores.sscTick.pclkTick.busyTick.stallTick.porterTick.doccTick.noteQueue

end

end Sys2Proof.Machine
end

section
/-! PROOF. Every command, and so every step, keeps the stores in canonical form. -/

namespace Sys2Proof.Machine

/-- The outcome is a next state whose stores are in canonical form. -/
def NextCanonical (o : Out) : Prop := ∃ t : State, o = .next t ∧ t.Canonical

theorem NextCanonical.canonical_of_eq {o : Out} {t : State} (ho : NextCanonical o) (ht : o = .next t) : t.Canonical := by
  obtain ⟨u, hu, hc⟩ := ho
  cases hu.symm.trans ht
  exact hc

section
variable {s : State} (h : s.Canonical)
include h

theorem State.Kept.next : NextCanonical (.next s) := ⟨s, rfl, h⟩

theorem State.Kept.execRevertHoldoffExpire : NextCanonical (Machine.execRevertHoldoffExpire s) := by
  unfold Machine.execRevertHoldoffExpire
  refine State.Kept.next ?_
  split
  exacts [h, h.ite h.select.noteRevert]

theorem State.Kept.execGenerationWalkStart : NextCanonical (Machine.execGenerationWalkStart s) := by
  unfold Machine.execGenerationWalkStart
  refine State.Kept.next ?_
  split
  exacts [h.sameStores.walkBegin, h]

theorem State.Kept.execGenerationWalkEnd : NextCanonical (Machine.execGenerationWalkEnd s) := by
  unfold Machine.execGenerationWalkEnd
  refine State.Kept.next ?_
  split
  exacts [h, h.walkOver.ev.releaseTrg]

theorem State.Kept.execFtap {c k win mv px pk circ neg sg dn} :
    NextCanonical (Machine.execFtap c k win mv px pk circ neg sg dn s) := by
  refine (h.instr fun u h => ?_).next
  extract_lets step pd to_ x hc u1 u2 u3
  have h1 : u1.Canonical := (h.overAll fun _ _ h' => h'.accAdd).shiftWin.ite h.accAdd
  have h2 : u2.Canonical := h1.setMem.ite h1
  exact h.takeExc.ite (h.takeExc.ite (h.ite h2.setCr.setCr.advance))

theorem State.Kept.execPostResult {c} : NextCanonical (Machine.execPostResult c s) := by
  unfold Machine.execPostResult
  refine State.Kept.next ?_
  split
  exacts [h.setCo.setG.advance.tryDrain, h]

theorem State.Kept.execYieldTask {c} : NextCanonical (Machine.execYieldTask c s) := by
  refine (h.instr fun u h => ?_).next
  extract_lets next
  refine h.advance.ite ((h.freeCore.ite h).ite ?_)
  split
  · exact h.ite h.advance.saveCtx.list.freeCore.setCo
  · exact h.advance

theorem State.Kept.execWaitcExpire {c} : NextCanonical (Machine.execWaitcExpire c s) := by
  unfold Machine.execWaitcExpire
  refine State.Kept.next ?_
  split
  exacts [h.ite h.holdIssue.advance, h]

theorem State.Kept.execPostArrive : NextCanonical (Machine.execPostArrive s) := by
  unfold Machine.execPostArrive
  refine State.Kept.next ?_
  split
  exacts [h, h.sameStores.refusePost.ite (h.sameStores.refusePost.ite h.sameStores.sameStores)]

theorem State.Kept.execPostAccept : NextCanonical (Machine.execPostAccept s) := by
  unfold Machine.execPostAccept
  refine State.Kept.next ?_
  split
  · exact h
  · extract_lets _ s1 t e _ s2
    have h1 : s1.Canonical := h.sameStores
    have h2 : s2.Canonical := h1.put.setTa
    exact h1.inc.inc.tellProducer.ite (h1.refusePost.ite (h1.refusePost.ite (h2.list.ite h2).tellProducer))

theorem State.Kept.execActivationStart {c} : NextCanonical (Machine.execActivationStart c s) := by
  unfold Machine.execActivationStart
  refine State.Kept.next ?_
  split
  exacts [h.startTask.ite h, h]

theorem State.Kept.execResume {c} : NextCanonical (Machine.execResume c s) := by
  unfold Machine.execResume
  refine State.Kept.next ?_
  split
  exacts [h.startTask.ite h, h]

theorem State.Kept.execPreemption {c} : NextCanonical (Machine.execPreemption c s) := by
  simp only [Machine.execPreemption]
  refine State.Kept.next ?_
  split
  · exact h
  · refine h.ite ?_
    split
    exacts [h.suspend.incMod.setCo.put.startTask, h.suspend.incMod.setCo.put]

theorem State.Kept.execRingFrameReceive {u f0} : NextCanonical (Machine.execRingFrameReceive u f0 s) :=
  (h.clocked (fun _ h' => h'.ite (
    (h'.sameStores.inc.evC.rDiscard.failReceive.ite h'.sameStores.inc.evC.rDiscard).ite h'.hear.frameIn))).next

theorem State.Kept.execFrameOverrunCutoff {u f0} : NextCanonical (Machine.execFrameOverrunCutoff u f0 s) := by
  unfold Machine.execFrameOverrunCutoff
  refine (h.clocked (fun _ h' => h'.ite ?_)).next
  split
  exacts [h'.cutOff.ite h', h']

theorem State.Kept.execSlotTransmit {e} : NextCanonical (Machine.execSlotTransmit e s) :=
  (h.clocked (fun _ h' => ((h'.overAll (fun _ _ h1 => h1.rLeave)).setMem.ite (h'.overAll
    (fun _ _ h1 => h1.rLeave))).sameStores.incMod.slotPost.ite h')).next

theorem State.Kept.execHeldFrameLaunch {u} : NextCanonical (Machine.execHeldFrameLaunch u s) := by
  unfold Machine.execHeldFrameLaunch
  refine (h.clocked (fun _ h' => ?_)).next
  split
  exacts [h', h'.residence.sameStores.rLeave.ite h']

theorem State.Kept.execCycleStart : NextCanonical (Machine.execCycleStart s) :=
  (h.clocked (fun _ h' => h'.ite (h'.sameStores.hopLists.cycleState.emptySlots.ite h'.sameStores.hopLists.cycleState).sameStores)).next

theorem State.Kept.execColdStartTimeout : NextCanonical (Machine.execColdStartTimeout s) := by
  unfold Machine.execColdStartTimeout
  refine (h.clocked (fun _ h' => ?_)).next
  split
  exacts [h', h'.setAddress.rGo.sameStores.ite h']

theorem State.Kept.execLinkBlockReceive {u b} : NextCanonical (Machine.execLinkBlockReceive u b s) := by
  refine (h.clocked fun s h => ?_).next
  extract_lets p _ s0 s1 s2 s3 s4
  have h1 : s1.Canonical := h.sameStores.put
  have h3 : s3.Canonical := h1.put.breakPort.ite h1.put
  have h4 : s4.Canonical := by
    dsimp only [s4]
    split
    exacts [h3.learnBreak, h3]
  refine h.ite (h1.ite ?_)
  split
  exacts [h4.learnRestore, h4]

theorem State.Kept.execAsyncSend {u} : NextCanonical (Machine.execAsyncSend u s) := by
  refine (h.clocked fun s h => ?_).next
  extract_lets o p cred a d w0 w3 len dst bc n x f s1 s2 _
  refine h.ite ?_
  split
  · extract_lets n gone mine q f s1' free _
    have h1' : s1'.Canonical := h.ite h.residence.put.rLeave
    exact h1'.sameStores.ite h
  · have h1 : s1.Canonical := h.txStamp.put.rLeave
    have h2 : s2.Canonical := h1.queueFwd.ite h1
    exact h.ite (h.txDone.ite (h.txDone.ite (h2.sameStores.txDone.ev.ite h)))

theorem State.Kept.execEthFrameReceive {e f} : NextCanonical (Machine.execEthFrameReceive e f s) :=
  (h.clocked (fun _ h' => h'.ite (h'.ethBusy (fun _ h1 => h1.inc.ite ((h1.inc.pfcReceive.ite h1.inc).ite
    (h1.ite h1.ethBuffer.ethShow.ethDrain)))))).next

theorem State.Kept.execEthTransmit {e q} : NextCanonical (Machine.execEthTransmit e q s) :=
  (h.clocked (fun _ h' => h'.ite (h'.txDone.ite (h'.ite
    (h'.bucketSpend.ite h'.bucketSpend.bucketSpend).txStamp.setEt.inc.txDone.ev)))).next

theorem State.Kept.execScrubRead {addr how} : NextCanonical (Machine.execScrubRead addr how s) := by
  unfold Machine.execScrubRead
  refine State.Kept.next ?_
  extract_lets a f s1 k i s2 s2'
  have h1 : s1.Canonical := by
    dsimp only [s1]
    split
    exacts [h, h, h.freeVal.noteRead]
  have h2 : s2.Canonical := h1.scrubPace.setScrub
  have h2' : s2'.Canonical := h1.setScrub
  split
  · exact (h2.incMod.ev.ite h2).ite h
  · exact (h2'.incMod.ev.ite h2').ite h
  · exact (h2'.incMod.ev.ite h2').ite h
  · exact (h2'.incMod.ev.ite h2').ite h
  · exact h

theorem State.Kept.execLogRecordWrite : NextCanonical (Machine.execLogRecordWrite s) := by
  simp only [Machine.execLogRecordWrite]
  refine State.Kept.next ?_
  split
  exacts [h, h.ite h.writeLog.put.put.sameStores.ev]

theorem State.Kept.execLogScanDone : NextCanonical (Machine.execLogScanDone s) := by
  unfold Machine.execLogScanDone
  refine (h.ite ?_).next
  split
  exacts [h.sameStores, h.put.put.sameStores]

theorem State.Kept.execMramWordWrite {first second} : NextCanonical (Machine.execMramWordWrite first second s) := by
  unfold Machine.execMramWordWrite
  refine State.Kept.next ?_
  split
  exacts [h, h.sameStores.showMwq.setMem.ite h.sameStores.showMwq.freeVal.setMem.inc.evC]

theorem State.Kept.execConsoleReset {kind} : NextCanonical (Machine.execConsoleReset kind s) :=
  (h.onConsole (fun _ h' => h'.doModuleReset.answer.ite (h'.doComputeReset.answer.ite
    (h'.doModuleReset.answer.ite h'.answer)))).next

theorem State.Kept.execPfcPauseExpire {e prio} : NextCanonical (Machine.execPfcPauseExpire e prio s) := by
  unfold Machine.execPfcPauseExpire
  refine (h.clocked (fun _ h' => ?_)).next
  split
  exacts [h'.setEt.ite h', h']

theorem State.Kept.exec : ∀ i, NextCanonical (Machine.exec i s) := by
  intro i
  cases i with
  | registerWrite => exact h.doRegisterWrite.next
  | srst => exact h.srst.next
  | srstEnd => exact h.sameStores.proceedHeld.next
  | tbSrst => exact h.doTbSrst.next
  | timeSrst => exact h.doTimeSrst.next
  | prismSrst => exact h.doPrismSrst.next
  | pageEnableWrite => exact (h.refuse.ite (h.enWrite.ite h)).next
  | gateRequest => exact h.gateRequest.next
  | gateAck => exact h.doGateAck.next
  | gateRefused => exact (h.gateRefuse.ite h).next
  | gateRelease => exact (h.refuse.ite (h.ungate.proceedHeld.ite h)).next
  | pagePostDeliver => exact h.doPagePostDeliver.next
  | eventClear => exact h.doEventClear.next
  | fcCfgWrite => exact h.doFcCfgWrite.next
  | fcWindowEdge => exact h.doFcWindowEdge.next
  | faultClear => exact h.doFaultClear.next
  | snapshotRead => exact h.doSnapshotRead.next
  | ppsInEdge => exact ((h.put.put.put.ev.overAll (fun _ _ h' => h'.tbMeasure.ite (h'.sameStores.ite h'))).ite h).next
  | tenMhzInEdge => exact ((h.sameStores.overAll (fun _ _ h' => h'.tbMeasure.ite (h'.sameStores.tbMeasure.ite h'))).ite h).next
  | tbMeasWrite => exact (h.writeWord (fun _ h' => h'.doTbMeasWrite)).next
  | tbMeasTimeout => exact (h.ite (h.put.ite h).sameStores.tbUnlock.ev.selector).next
  | tbLoad => exact (h.writeWord (fun _ h' => h'.doTbLoad)).next
  | tbStep => exact (h.writeWord (fun _ h' => h'.doTbStep)).next
  | tbRateWrite => exact (h.writeWord (fun _ h' => h'.doTbRateWrite)).next
  | tbFreqWrite => exact (h.writeWord (fun _ h' => h'.doTbFreqWrite)).next
  | ctFirstValidity => exact (h.ite (h.ctLoad.put.ev.selector.ite (h.ctLoad.put.ev.selector.ite h))).next
  | revertHoldoffExpire => exact h.execRevertHoldoffExpire
  | slewDone => exact (h.put.ev.ite h).next
  | ctCtlWrite => exact (h.writeWord (fun _ h' => h'.doCtCtlWrite)).next
  | reEpoch => exact (h.writeWord (fun _ h' => h'.doReEpoch)).next
  | reEpochDone => exact (h.ite h.put.ev.selector).next
  | generationWalkStart => exact h.execGenerationWalkStart
  | generationWalkEnd => exact h.execGenerationWalkEnd
  | ppsOutput | tenMhzOutput => exact ((h.sameStores.ite h).ite (h.sameStores.ite h)).next
  | linkDelayMeasure => exact (h.ite h.sameStores.putI).next
  | txqLoRead => exact (h.readWord (fun _ h' => h'.doTxqLoRead)).next
  | trgArm | trgCancel => exact (h.writeWord (fun _ h' => h'.trgWrite)).next
  | trgThRead => exact (h.readWord (fun _ h' => h'.doTrgThRead)).next
  | trgPast => exact (h.ite ((h.setTrgTime.ev.ite h.trgDisarm.ev).ite (h.noteDue.trgFireNow.ite h))).next
  | trgFire => exact (h.noteDue.trgFireNow.ite h).next
  | prismPerWrite => exact (h.writeWord (fun _ h' => h'.doPrismPerWrite)).next
  | tioPulseFall => exact (h.tioFallDue.ite h).next
  | tioCapture => exact (h.ite (h.inc.evC.ite h.setTi.tioShow.ev)).next
  | tioCloRead => exact (h.readWord (fun _ h' => h'.doTioCloRead)).next
  | tioCfgWrite => exact (h.writeWord (fun _ h' => h'.doTioCfgWrite)).next
  | pwmCfgWrite => exact (h.writeWord (fun _ h' => h'.doPwmCfgWrite)).next
  | shadowWrite => exact (h.writeWord (fun _ h' => h'.doShadowWrite)).next
  | pwmCommitStart => exact (h.writeWord (fun _ h' => h'.doPwmCommitStart)).next
  | pwmCommitStop => exact (h.writeWord (fun _ h' => h'.doPwmCommitStop)).next
  | pwmCommitGo => exact (h.writeWord (fun _ h' => h'.doPwmCommitGo)).next
  | carrierStart => exact h.doCarrierStart.next
  | carrierCentre => exact h.doCarrierCentre.next
  | dlcalMeasure => exact (h.clocked (fun _ h' => h'.doDlcalMeasure)).next
  | tripQualified => exact (h.clocked (fun _ h' => h'.doTripQualified)).next
  | portMclkWrite => exact (h.writeWord (fun _ h' => h'.doPortMclkWrite)).next
  | mclkStop => exact (h.clocked (fun _ h' => h'.doMclkStop)).next
  | sdWindowClose => exact (h.clocked (fun _ h' => h'.doSdWindowClose)).next
  | sdContinuousResult => exact (h.clocked (fun _ h' => h'.doSdContinuousResult)).next
  | sdCfgWrite => exact (h.writeWord (fun _ h' => h'.doSdCfgWrite)).next
  | aleComputation => exact h.doAleComputation.next
  | aleComputationDone => exact h.doAleComputationDone.next
  | aleRefCommit => exact (h.writeWord (fun _ h' => h'.doAleRefCommit)).next
  | aleCfgWrite => exact (h.writeWord (fun _ h' => h'.doAleCfgWrite)).next
  | fbkCfgWrite => exact (h.writeWord (fun _ h' => h'.doFbkCfgWrite)).next
  | countEdge => exact h.doCountEdge.next
  | lineFault => exact h.doLineFault.next
  | fbkLoad => exact (h.writeWord (fun _ h' => h'.doFbkLoad)).next
  | fbkClrunc => exact (h.writeWord (fun _ h' => h'.doFbkClrunc)).next
  | fbkPosRead => exact (h.readWord (fun _ h' => h'.doFbkPosRead)).next
  | index => exact h.doIndex.next
  | sincosSample => exact (h.clocked (fun _ h' => h'.doSincosSample)).next
  | serialFrameEnd => exact (h.clocked (fun _ h' => h'.doSerialFrameEnd)).next
  | bissReq => exact (h.writeWord (fun _ h' => h'.doBissReq)).next
  | latchSetReady => exact (h.clocked (fun _ h' => h'.doLatchSetReady)).next
  | watchLatch => exact (h.clocked (fun _ h' => h'.doWatchLatch)).next
  | fbkLatRead => exact (h.readWord (fun _ h' => h'.doFbkLatRead)).next
  | emulationEdge => exact (h.clocked (fun _ h' => h'.doEmulationEdge)).next
  | emulationZPulseEnd => exact (h.clocked (fun _ h' => h'.doEmulationZPulseEnd)).next
  | fbkSupWrite => exact (h.writeWord (fun _ h' => h'.doFbkSupWrite)).next
  | supplyOk => exact h.doSupplyOk.next
  | supplyOvercurrent => exact h.doSupplyOvercurrent.next
  | supplyUndervoltage => exact h.doSupplyUndervoltage.next
  | updateEdge => exact (h.clocked (fun _ h' => h'.doUpdateEdge)).next
  | absoluteMove => exact (h.writeWord (fun _ h' => h'.onChannel (fun _ h1 => h1.doAbsoluteMove))).next
  | relativeMove => exact (h.writeWord (fun _ h' => h'.onChannel (fun _ h1 => h1.doRelativeMove))).next
  | velocityMove => exact (h.writeWord (fun _ h' => h'.onChannel (fun _ h1 => h1.doVelocityMove))).next
  | stream => exact (h.writeWord (fun _ h' => h'.onChannel (fun _ h1 => h1.doStream))).next
  | home => exact (h.writeWord (fun _ h' => h'.onChannel (fun _ h1 => h1.doHome))).next
  | abort => exact (h.writeWord (fun _ h' => h'.doAbort)).next
  | qstop => exact (h.writeWord (fun _ h' => h'.doQstop)).next
  | positionLoad => exact (h.writeWord (fun _ h' => h'.doPositionLoad)).next
  | streamPush => exact (h.writeWord (fun _ h' => h'.doStreamPush)).next
  | streamUnderrun => exact (h.clocked (fun _ h' => h'.doStreamUnderrun)).next
  | stepEmit => exact (h.clocked (fun _ h' => h'.doStepEmit)).next
  | stepPulseFall => exact (h.clocked (fun _ h' => h'.doStepPulseFall)).next
  | inputDebounced => exact (h.clocked (fun _ h' => h'.doInputDebounced)).next
  | chatterHoldEnd => exact (h.clocked (fun _ h' => h'.doChatterHoldEnd)).next
  | profPosRead => exact (h.readWord (fun _ h' => h'.doProfPosRead)).next
  | profLatRead => exact (h.readWord (fun _ h' => h'.doProfLatRead)).next
  | add | sub | addc | subc | and | or | xor | andn | min | max | minu | maxu | adds | subs | abss | slt | sltu | clz
  | popc => exact h.alu3.next
  | sll | srl | sra | rol | ins | mul | mulh | mulhu => exact h.reg3.next
  | slli | srli | srai | roli | ext | exts | addi | andi | ori | xori | slti | li => exact h.reg2.next
  | mulf | sacc => exact (h.instr (fun _ h' => h'.setG.sticky.advance)).next
  | div | divu | rem | remu => exact h.divide.next
  | ld | ld2 => exact (h.instr (fun _ h' => h'.loads fun _ h1 => h1)).next
  | st | st2 => exact (h.instr (fun _ h' => h'.stores fun _ h1 => h1)).next
  | ldp => exact (h.instr (fun _ h' => h'.loads (fun _ h1 => h1.updPtr))).next
  | stp => exact (h.instr (fun _ h' => h'.stores (fun _ h1 => h1.updPtr))).next
  | xchg | cas | faa | forA | fand => exact h.atomic.next
  | loadReturn => exact h.doLoadReturn.next
  | storeComplete => exact h.doStoreComplete.next
  | accessTimeout => exact h.doAccessTimeout.next
  | remoteStoreAccess => exact h.doRemoteStoreAccess.next
  | sta => exact (h.instr (fun _ h' => h'.stores (fun _ h1 => h1.updPtr.sticky))).next
  | bcc => exact (h.instr (fun _ h' => h'.jumpTo.ite h'.advance)).next
  | j => exact (h.instr (fun _ h' => h'.jumpTo)).next
  | jal | jr => exact (h.instr (fun _ h' => h'.setG.jumpTo)).next
  | loop => exact (h.instr (fun _ h' => h'.setCr.lbEnd.setPc.ite h'.setCr.setCr.advance)).next
  | mac | dot2 | dot4 => exact (h.instr (fun _ h' => h'.accAdd.advance)).next
  | macv | macw => exact (h.instr (fun _ h' => (h'.overAll (fun _ _ h1 => h1.accAdd)).advance)).next
  | cmac => exact (h.instr (fun _ h' => h'.accAdd.accAdd.advance)).next
  | ftap => exact h.execFtap
  | wld => exact (h.instr (fun _ h' => h'.shiftWin.updPtr.advance.ite h'.takeExc)).next
  | mvax | mvah | mval | mvw | mfs => exact (h.instr (fun _ h' => h'.regDone)).next
  | seta => exact (h.instr (fun _ h' => h'.setAccSat.advance)).next
  | setah | setal | setax | setw | mts => exact (h.instr (fun _ h' => h'.setCr.advance)).next
  | clra => exact (h.instr (fun _ h' => (h'.overAll (fun _ _ h1 => h1.setAcc.ite h1)).advance)).next
  | fadd | fsub | fmul | fdiv | fsqrt | fmin | fmax | fabs | fneg | fcmpeq | fcmplt | fcmple | fclass | fcvtfi | fcvtfq
  | fcvtfs | fcvtsf => exact h.f2.next
  | fma | fms | fcvtfd => exact (h.instr (fun _ h' => h'.fDone)).next
  | fcvtif | fcvtqf | dcvtid => exact (h.instr (fun _ h' => h'.iDone)).next
  | fcvtdf | dfma | dsqrt | dcvtdi => exact (h.instr (fun _ h' => h'.dDone)).next
  | dadd | dsub | dmul | ddiv | dmin | dmax => exact h.d2.next
  | dcmpeq | dcmplt | dcmple => exact h.dCmp.next
  | post => exact (h.instr (fun _ h' => h'.holdIssue.ite h'.offerPost.holdIssue)).next
  | postResult => exact h.execPostResult
  | posta => exact (h.instr (fun _ h' => h'.postaAfter.advance)).next
  | doneTask => exact (h.instr (fun _ h' => h'.endActivation.ite h')).next
  | yieldTask => exact h.execYieldTask
  | waitc => exact (h.instr (fun _ h' => h'.holdIssue.ite h'.advance)).next
  | waitcExpire => exact h.execWaitcExpire
  | fence | isync => exact (h.instr (fun _ h' => h'.advance.ite h'.holdIssue)).next
  | brk => exact (h.instr (fun _ h' => h'.takeExc)).next
  | nret => exact (h.instr (fun _ h' => h'.setCr.setCr.enterNmi.ite h'.setCr.setCr)).next
  | exception => exact ((h.ownError.ite h).takeExc.ite h).next
  | nmiEntry => exact (h.enterNmi.ite h).next
  | nmiSet => exact (h.writeWord (fun _ h' => h'.doNmiSet)).next
  | postArrive => exact h.execPostArrive
  | postAccept => exact h.execPostAccept
  | dispatchDecision => exact ((h.overAll (fun _ _ h' => h'.noteStuck)).decide_.ite (h.overAll
      (fun _ _ h' => h'.noteStuck))).next
  | activationStart => exact h.execActivationStart
  | resume => exact h.execResume
  | preemption => exact h.execPreemption
  | cancel => exact (h.writeWord (fun _ h' => h'.doCancel)).next
  | clear => exact (h.writeWord (fun _ h' => h'.doClear)).next
  | resumeCommand => exact (h.writeWord (fun _ h' => h'.doResumeCommand)).next
  | clearStatistics => exact (h.writeWord (fun _ h' => h'.doClearStatistics)).next
  | tskCfgWrite => exact (h.writeWord (fun _ h' => h'.doTskCfgWrite)).next
  | tskAffWrite => exact (h.writeWord (fun _ h' => h'.doTskAffWrite)).next
  | contextWrite => exact (h.writeWord (fun _ h' => h'.doContextWrite)).next
  | innkSrst => exact h.doInnkSrst.next
  | loadWindowEnd => exact (h.ite (h.overAll (fun _ _ h' => (h'.put.put.ite h'.put).setCo)).sameStores.ev).next
  | ringLinkUp => exact (h.ite h.put.put.ev.sameStores.ringWake).next
  | ringFrameReceive => exact h.execRingFrameReceive
  | frameOverrunCutoff => exact h.execFrameOverrunCutoff
  | slotTransmit => exact h.execSlotTransmit
  | ttControlRead => exact (h.clocked (fun _ h' => h'.sameStores.ite h')).next
  | heldFrameLaunch => exact h.execHeldFrameLaunch
  | cycleStart => exact h.execCycleStart
  | coldStartTimeout => exact h.execColdStartTimeout
  | linkBlock => exact (h.clocked (fun _ h' => h'.ite h'.sameStores)).next
  | linkBlockReceive => exact h.execLinkBlockReceive
  | breakDeclare => exact (h.clocked (fun _ h' => h'.failReceive)).next
  | hopRestore => exact (h.clocked (fun _ h' => h'.ite h'.put.sameStores.learnRestore)).next
  | cyclePoint => exact (h.clocked (fun _ h' => h'.offerPost.ite h')).next
  | asyncSend => exact h.execAsyncSend
  | qtailWrite => exact (h.writeWord (fun _ h' => h'.doQtailWrite)).next
  | qcfgWrite => exact (h.writeWord (fun _ h' => h'.doQcfgWrite)).next
  | ethFrameReceive => exact h.execEthFrameReceive
  | ethTransmit => exact h.execEthTransmit
  | ethLinkChange => exact (h.ite ((h.put.put.inc.evC.ite h).ite ((h.put.put.ite h.put.put.ev).ite h))).next
  | islandStart => exact h.doIslandStart.next
  | hardwareSafeState => exact h.doHardwareSafeState.next
  | islandRestart => exact h.doIslandRestart.next
  | evaluationCycle => exact h.doEvaluationCycle.next
  | envelopeNotify => exact h.doEnvelopeNotify.next
  | fcNotify => exact h.doFcNotify.next
  | enablePort => exact (h.mbEnable.ite h).next
  | stopPort => exact (h.mbStop.ite h).next
  | releaseBrake => exact (h.mbRelease.ite h).next
  | applyBrake => exact (h.mbApply.ite h).next
  | releaseEnvelopeStop => exact (h.takeSet.mbRelEnv.ite h).next
  | holdingTestBegin => exact (h.mbHoldBegin.ite h).next
  | holdingTestEnd => exact (h.mbHoldEnd.ite h).next
  | acknowledge => exact (h.mbAck.ite h).next
  | requestLimitSet => exact (h.mbLimit.ite h).next
  | siSample => exact h.doSiSample.next
  | testPulse => exact h.doTestPulse.next
  | pairDiscrepancy => exact h.doPairDiscrepancy.next
  | soTestPulse => exact h.doSoTestPulse.next
  | erstFallingEdge => exact h.doErstFallingEdge.next
  | safetyMessageReceive => exact h.doSafetyMessageReceive.next
  | connectionWatchdogExpire => exact h.doConnectionWatchdogExpire.next
  | safetyMessageSend => exact h.doSafetyMessageSend.next
  | brakePullInEnd => exact h.doBrakePullInEnd.next
  | sbcDelayExpire => exact h.doSbcDelayExpire.next
  | brakeSwitchTest => exact h.doBrakeSwitchTest.next
  | holdingTestTimeout => exact h.doHoldingTestTimeout.next
  | holdingTestDue => exact h.doHoldingTestDue.next
  | brakeOvercurrent => exact h.doBrakeOvercurrent.next
  | scrubRead => exact h.execScrubRead
  | logRecordWrite => exact h.execLogRecordWrite
  | logScanDone => exact h.execLogScanDone
  | mwDataWrite => exact (h.writeWord (fun _ h' => h'.doMwDataWrite)).next
  | mramWordWrite => exact h.execMramWordWrite
  | porterStart => exact (h.writeWord (fun _ h' => h'.doPorterStart)).next
  | engineAssign => exact h.doEngineAssign.next
  | descriptorDone => exact h.doDescriptorDone.next
  | descriptorFailed => exact h.doDescriptorFailed.next
  | porterSrst => exact h.doPorterSrst.next
  | clkPllWrite => exact (h.writeWord (fun _ h' => h'.doClkPllWrite)).next
  | pllLock => exact h.doPllLock.next
  | xoMReady => exact h.doXoMReady.next
  | ircReady => exact h.doIrcReady.next
  | extOkChange => exact h.doExtOkChange.next
  | disciplineLock => exact h.doDisciplineLock.next
  | pclkRelease => exact (h.writeWord (fun _ h' => h'.doPclkRelease)).next
  | memcRelease => exact (h.writeWord (fun _ h' => h'.doMemcRelease)).next
  | stopSwitchRestart | checkedSwitch => exact (h.writeWord (fun _ h' => h'.switchRequest)).next
  | switchDone => exact h.doSwitchDone.next
  | throttleChange => exact h.doThrottleChange.next
  | clkSscWrite => exact (h.writeWord (fun _ h' => h'.doClkSscWrite)).next
  | monitorTrip => exact h.doMonitorTrip.next
  | forcedGate => exact (h.writeWord (fun _ h' => h'.put.forcedGate)).next
  | moduleReset => exact h.doModuleReset.next
  | computeReset => exact h.doComputeReset.next
  | powerOnReset => exact h.doPowerOnReset.next
  | boot => exact h.doBoot.next
  | recoveryRequest => exact h.doRecoveryRequest.next
  | consoleInfo => exact (h.onConsole (fun _ h' => h'.answer)).next
  | consoleRead => exact (h.onConsole (fun _ h' => h'.answer.ite h'.answer)).next
  | consoleWrite => exact (h.onConsole (fun _ h' => h'.answer.ite h'.loadWords.answer)).next
  | consoleKey | consoleMinissue => exact (h.onConsole (fun _ h' => h'.putOcts.answer.ite h'.answer)).next
  | consoleGate => exact (h.onConsole (fun _ h' => h'.forcedGate.answer)).next
  | consoleReset => exact h.execConsoleReset
  | portIdentityMeasure => exact h.doPortIdentityMeasure.next
  | logicInputLost => exact h.doLogicInputLost.next
  | logicInputReturned => exact h.doLogicInputReturned.next
  | brakeInputFault => exact h.doBrakeInputFault.next
  | fanFailed => exact h.doFanFailed.next
  | fanRunning => exact h.doFanRunning.next
  | temperatureWarning => exact h.doTemperatureWarning.next
  | overTemperatureShutdown => exact h.doOverTemperatureShutdown.next
  | environmentUpdate => exact h.doEnvironmentUpdate.next
  | gateEdge => exact h.doGateEdge.next
  | zFall => exact h.doZFall.next
  | ringLinkLost => exact (h.put.inc.evC.ite h).next
  | pfcFrameRepeat => exact (h.clocked (fun _ h' => h'.sendPfc.ite h')).next
  | pfcPauseExpire => exact h.execPfcPauseExpire
  | islandSramScrub => exact h.doIslandSramScrub.next


omit h in
theorem step_nextCanonical (h : s.Canonical) : NextCanonical (step s) := by
  unfold step
  split
  · exact h.tick.next
  · exact State.Kept.exec h.sameStores _

end

end Sys2Proof.Machine
end

section
/-! PROOF. The statements about the canonical form of the stores. -/

namespace Sys2Proof

open Machine

/-- Settles O57: the canonical form is an invariant of every operation (`State.Kept`), so of a command and of a tick. -/
theorem stepKeepsStoresCanonical : Obligations.StepKeepsStoresCanonical := by
  intro s t hs hst
  have hc : s.Canonical := State.canonical_iff_wf.mpr hs
  exact State.canonical_iff_wf.mp ((step_nextCanonical hc).canonical_of_eq hst)

/-- Settles O56: the state after reset lists one core register, the PC of core 0, and nothing else. -/
theorem resetStoresAreCanonical : Obligations.ResetStoresAreCanonical :=
  ⟨rfl, rfl⟩

/-- Settles O50: the queue that `step` reads begins with the command, and its rest is the state's own queue. -/
theorem stepRunsFrontCommand : Obligations.StepRunsFrontCommand :=
  fun _ _ => rfl

end Sys2Proof
end

section
/-! PROOF. A write of a register word or of memory by an initiator: what it reaches, when it waits, and what a plain write of a
header word, of a locked field and of a SAFE word leaves. -/

namespace Sys2Proof.Machine

/-! The bus. -/

theorem State.mustWait_of_target_ne_page (s : State) {a : Nat} (h : targetOf a ≠ .page) : s.mustWait a = false := by
  unfold State.mustWait
  split
  · contradiction
  · rfl

theorem State.mustWait_of_gated (s : State) {a : Nat} (h : s.gated a = true) : s.mustWait a = false := by
  unfold State.mustWait
  split <;> simp [h]

theorem State.busWrite_of_mem {s : State} {ini a : Nat} {v : Word}
    (h : targetOf a = .commons ∨ ∃ c, targetOf a = .localData c ∨ targetOf a = .localInst c) :
    s.busWrite ini a v = (s.setMem a v, false) := by
  obtain h | ⟨c, h | h⟩ := h <;> simp only [State.busWrite, h]

theorem State.busWrite_of_alias {s : State} {ini a o : Nat} {v : Word} (h : targetOf a = .alias_ o) :
    s.busWrite ini a v = if ini < 64 then (s.setMem (resolveOwn ini a) v, false) else (s, true) := by
  simp only [State.busWrite, h]

theorem State.busWrite_of_page {s : State} {ini a : Nat} {v : Word} (h : targetOf a = .page) :
    s.busWrite ini a v = if s.gated a then (s, true) else (s.pageWrite ini a v, false) := by
  simp only [State.busWrite, h]

theorem exec_registerWrite_waiting {s : State} {ini : Nat} {a v : Word} (h : s.mustWait a.toNat = true) :
    exec (.registerWrite ini a v) s = .next { s with held := s.held ++ [{ ini := ini, addr := a.toNat, wr := some v }] } := by
  show Host.Outcome.next (doRegisterWrite ini a v s) = _
  rw [doRegisterWrite, if_pos h]

theorem exec_registerWrite_ready {s : State} {ini : Nat} {a v : Word} (h : s.mustWait a.toNat = false) :
    exec (.registerWrite ini a v) s = .next (s.busWrite ini a.toNat v).1 := by
  show Host.Outcome.next (doRegisterWrite ini a v s) = _
  rw [doRegisterWrite, if_neg (by simp [h])]

/-- A write that its page takes. -/
theorem exec_registerWrite_page {s : State} {ini : Nat} {a v : Word} (ht : targetOf a.toNat = .page)
    (hw : s.mustWait a.toNat = false) (hg : s.gated a.toNat = false) :
    exec (.registerWrite ini a v) s = .next (s.pageWrite ini a.toNat v) := by
  rw [exec_registerWrite_ready hw, State.busWrite_of_page ht, if_neg (by simp [hg])]

/-- No access of a header word waits or fails at a gated block. -/
theorem State.takes_of_not_blockWord {s : State} {a : Nat} (h : blockWord a = false) :
    s.mustWait a = false ∧ s.gated a = false := by
  have hg : s.gated a = false := by simp [State.gated, h]
  have hh : s.holdsAccess a = false := by simp [State.holdsAccess, h]
  refine ⟨?_, hg⟩
  unfold State.mustWait
  split <;> simp [hg, hh]

/-! The pages of the map. -/

theorem blkOf_pPwm {ch o : Nat} (hc : ch < 96) (ho : o < 0x100) : blkOf (pPwm ch + o) = .pwm ch := by
  have hq : (pPwm ch + o - pageSpace) / 0x100 = 0x1000 + ch := by unfold pPwm pageSpace; omega
  have hr : inRange (0x1000 + ch) 0x1000 96 = true := by simp [inRange]; omega
  unfold blkOf
  rw [if_neg (by unfold pPwm pageSpace; omega), hq]
  unfold blkOfIndex
  simp only [hr, if_true]
  rw [if_neg (by omega), if_neg (by omega), if_neg (by omega), if_neg (by omega), if_neg (by omega), if_neg (by omega),
    if_neg (by omega), Nat.add_sub_cancel_left]

theorem blkOf_pSafe2 {o : Nat} (ho : o < 0x100) : blkOf (pSafe 2 + o) = .safe2 := by
  have hq : (pSafe 2 + o - pageSpace) / 0x100 = 0x902 := by unfold pSafe pageSpace; omega
  unfold blkOf
  rw [if_neg (by unfold pSafe pageSpace; omega), hq]
  rfl

theorem targetOf_page {a : Nat} (h : 0xF80000000 ≤ a) (h' : a < 0xF80204000) : targetOf a = .page := by
  unfold targetOf
  rw [if_neg (by omega), if_neg (by omega), if_neg (by omega), if_neg (by omega), if_pos ⟨h, h'⟩]

theorem word_toNat_of_lt {n : Nat} (h : n < 2 ^ 36) : (word n).toNat = n := by
  rw [word_toNat, Nat.mod_eq_of_lt h]

theorem pageOf_pPwm_add {ch o : Nat} (ho : o < 0x100) : pageOf (pPwm ch + o) = pPwm ch := by
  unfold pageOf pPwm; omega

theorem lockPage_pPwm {ch : Nat} (hc : ch < 96) : lockPage (pPwm ch) = pPwm ch := by
  have hb : blkOf (pPwm ch) = .pwm ch := blkOf_pPwm (o := 0) hc (by decide)
  simp only [lockPage, hb]

/-! What a write of a register word changes. -/

theorem State.regW_setReg_reg (s : State) (a b : Nat) : (s.setReg a (s.reg a)).regW b = s.regW b := by
  by_cases h : b = a
  · subst h; simp [State.reg, word]
  · exact s.regW_setReg_ne _ h

theorem State.get_setReg_reg (s : State) (a p : Nat) (f : Fld) : (s.setReg a (s.reg a)).get p f = s.get p f :=
  congrArg (fun w : Word => fldGet w.toNat f) (s.regW_setReg_reg a _)

theorem RegsOnly.setReg (s : State) (a v : Nat) : RegsOnly [a] s (s.setReg a v) :=
  ⟨fun _ hb => s.regW_setReg_ne v (by simpa using hb), rfl⟩

theorem RegsOnly.setReg_reg (s : State) (a : Nat) : RegsOnly [] s (s.setReg a (s.reg a)) :=
  ⟨fun b _ => s.regW_setReg_reg a b, rfl⟩

theorem RegsOnly.trans_nil {as : List Nat} {s t u : State} (h : RegsOnly [] s t) (h' : RegsOnly as t u) : RegsOnly as s u := by
  refine ⟨fun a ha => (h'.1 a ha).trans (h.1 a List.not_mem_nil), ?_⟩
  rw [h'.2, h.2]

theorem RegsOnly.refuse (s : State) (p : Nat) : RegsOnly [lockPage p + PAGE_LOCK.refused.off] s (s.refuse p) :=
  RegsOnly.setReg _ _ _

theorem State.get_refuse (s : State) (p : Nat) :
    (s.refuse p).get (lockPage p) PAGE_LOCK.refused = min 0xFFFF (s.get (lockPage p) PAGE_LOCK.refused + 1) := by
  unfold State.refuse
  rw [State.get_inc_same _ _ _ (by decide) (by decide)]
  simp only [satN]
  split <;> omega

/-! PAGE_EVEN of a channel or core page. -/

theorem fldPut_even {w v : Nat} (hw : w < 2 ^ 36) (hv : v < 2 ^ 36) : fldPut w PAGE_EVEN.even (fldGet v PAGE_EVEN.even) = v := by
  simp only [fldPut, fldGet]
  omega

section
variable {a : Nat} (ha : a % 0x100 = 4)
  (hb : ∃ ch, blkOf a = .pwm ch ∨ blkOf a = .ale ch ∨ blkOf a = .fbk ch ∨ blkOf a = .prof ch ∨ blkOf a = .core ch)
include ha hb

theorem wordFields_even : wordFields a = [PAGE_EVEN.even] := by
  obtain ⟨ch, hb | hb | hb | hb | hb⟩ := hb <;> simp only [wordFields, hb, Blk.offset, ha] <;> rfl

theorem State.pageWrite_even {s : State} {ini : Nat} {v : Word} : s.pageWrite ini a v = s.setReg a v.toNat := by
  have hplain : s.pageWrite ini a v = s.plainWrite ini a v.toNat := by
    obtain ⟨ch, hb | hb | hb | hb | hb⟩ := hb <;> simp [State.pageWrite, hb, Blk.hasHeader, ha, State.headerWrite]
  have hm : s.mergeWord ini a v.toNat = (v.toNat, false) := by
    rw [State.mergeWord, wordFields_even ha hb]
    simp only [List.foldl, State.mergeField]
    rw [fldPut_even (s.reg_lt a) v.isLt]
  rw [hplain, State.plainWrite, hm]
  rfl

theorem blockWord_even : blockWord a = false := by
  obtain ⟨ch, hb | hb | hb | hb | hb⟩ := hb <;> simp [blockWord, hb, Blk.hasHeader, ha]

end

/-! PWM_ENV_DT, a word with one field that locks with the envelope. -/

section
variable {s : State} {ini ch : Nat} {v : Word} (hc : ch < 96)
include hc

theorem wordFields_envDt : wordFields (pPwm ch + 0x24) = [PWM_ENV_DT.dtmin] := by
  have ho : (pPwm ch + 0x24) % 0x100 = 0x24 := by unfold pPwm; omega
  simp only [wordFields, blkOf_pPwm hc (show 0x24 < 0x100 by decide), Blk.offset, ho]
  rfl

theorem State.pageWrite_envDt : s.pageWrite ini (pPwm ch + 0x24) v = s.plainWrite ini (pPwm ch + 0x24) v.toNat := by
  have ho : (pPwm ch + 0x24) % 0x100 = 0x24 := by unfold pPwm; omega
  simp [State.pageWrite, blkOf_pPwm hc (show 0x24 < 0x100 by decide), State.blockWrite, ho, State.pwmWrite, inRange]

/-- With the lock set, a write from elsewhere keeps the word, and counts as refused when dtmin differs. -/
theorem State.pageWrite_envDt_locked (hl : s.slLocked = true) (hi : ini ≠ iniIsland) :
    s.pageWrite ini (pPwm ch + 0x24) v =
      (if v.toNat % 2 ^ 16 ≠ s.get (pPwm ch) PWM_ENV_DT.dtmin then
        (s.setReg (pPwm ch + 0x24) (s.reg (pPwm ch + 0x24))).refuse (pPwm ch)
      else s.setReg (pPwm ch + 0x24) (s.reg (pPwm ch + 0x24))) := by
  have hopen : s.slOpen ini = false := by simp [State.slOpen, hl, hi]
  have hm : s.mergeWord ini (pPwm ch + 0x24) v.toNat =
      (s.reg (pPwm ch + 0x24), v.toNat % 2 ^ 16 != s.get (pPwm ch) PWM_ENV_DT.dtmin) := by
    rw [State.mergeWord, wordFields_envDt hc]
    simp [State.mergeField, hopen, State.get, fldGet]
  rw [s.pageWrite_envDt hc, State.plainWrite, hm, State.noteRefused, pageOf_pPwm_add (by decide)]
  simp only [bne_iff_ne]

/-- Before the lock a write sets dtmin. -/
theorem State.pageWrite_envDt_open (hl : s.slLocked = false) :
    s.pageWrite ini (pPwm ch + 0x24) v = s.put (pPwm ch) PWM_ENV_DT.dtmin (v.toNat % 2 ^ 16) := by
  have hm : s.mergeWord ini (pPwm ch + 0x24) v.toNat =
      (fldPut (s.reg (pPwm ch + 0x24)) PWM_ENV_DT.dtmin (v.toNat % 2 ^ 16), false) := by
    rw [State.mergeWord, wordFields_envDt hc]
    simp [State.mergeField, State.slOpen, hl, fldGet]
  rw [s.pageWrite_envDt hc, State.plainWrite, hm]
  rfl

theorem exec_registerWrite_envDt (hw : s.mustWait (pPwm ch + 0x24) = false) (hg : s.gated (pPwm ch + 0x24) = false) :
    exec (.registerWrite ini (word (pPwm ch + 0x24)) v) s = .next (s.pageWrite ini (pPwm ch + 0x24) v) := by
  have ha : (word (pPwm ch + 0x24)).toNat = pPwm ch + 0x24 := word_toNat_of_lt (by unfold pPwm; omega)
  have ht : targetOf (word (pPwm ch + 0x24)).toNat = .page := by
    rw [ha]; exact targetOf_page (by unfold pPwm; omega) (by unfold pPwm; omega)
  rw [exec_registerWrite_page ht (by rwa [ha]) (by rwa [ha]), ha]

end

/-! The words of SAFE page 2. -/

theorem State.gated_pSafe2 (s : State) {o : Nat} (ho : o < 0x100) : s.gated (pSafe 2 + o) = false := by
  simp [State.gated, State.clockOff, gatePage, blkOf_pSafe2 ho]

theorem State.pageWrite_pSafe2 {s : State} {ini o : Nat} {v : Word} (h : 0x10 ≤ o) (ho : o < 0x100) :
    s.pageWrite ini (pSafe 2 + o) v = s.refuse (pSafe 2) := by
  have hoff : (pSafe 2 + o) % 0x100 = o := by unfold pSafe; omega
  have hp : pageOf (pSafe 2 + o) = pSafe 2 := by unfold pageOf pSafe; omega
  simp only [State.pageWrite, blkOf_pSafe2 ho, State.safeWrite, hoff, hp]
  rw [if_neg (by unfold pSafe; omega), if_neg (by unfold pSafe; omega), if_neg (by omega)]

end Sys2Proof.Machine

namespace Sys2Proof

open Machine

/-- Settles O16, a lemma for each target of the bus and each kind of word. -/
theorem registerWrites : Obligations.RegisterWrites := by
  refine ⟨?mem, ?none_, ?own, ?other, ?even, ?locked, ?same, ?open_, ?waits, ?gated, ?safe⟩
  case mem =>
    intro s ini a v h
    have hp : targetOf a.toNat ≠ .page := by obtain h | ⟨c, h | h⟩ := h <;> simp [h]
    rw [exec_registerWrite_ready (s.mustWait_of_target_ne_page hp), State.busWrite_of_mem h]
  case none_ =>
    intro s ini a v h
    have hp : targetOf a.toNat ≠ .page := by obtain h | h := h <;> simp [h]
    rw [exec_registerWrite_ready (s.mustWait_of_target_ne_page hp)]
    obtain h | h := h <;> simp only [State.busWrite, h]
  case own =>
    intro s ini a v hi ⟨o, h⟩
    rw [exec_registerWrite_ready (s.mustWait_of_target_ne_page (by simp [h])), State.busWrite_of_alias h, if_pos hi]
  case other =>
    intro s ini a v hi ⟨o, h⟩
    rw [exec_registerWrite_ready (s.mustWait_of_target_ne_page (by simp [h])), State.busWrite_of_alias h,
      if_neg (by omega)]
  case even =>
    intro s ini a v ht ha hb
    obtain ⟨hw, hg⟩ := State.takes_of_not_blockWord (s := s) (blockWord_even ha hb)
    refine ⟨_, exec_registerWrite_page ht hw hg, ?_⟩
    rw [State.pageWrite_even ha hb]
    exact ⟨by simp [word], RegsOnly.setReg _ _ _⟩
  case locked =>
    intro s ini v ch hc hw hg hl hi hd
    refine ⟨_, exec_registerWrite_envDt hc hw hg, ?_⟩
    rw [State.pageWrite_envDt_locked hc hl hi, if_pos hd]
    have hr := (RegsOnly.setReg_reg s (pPwm ch + 0x24)).trans_nil (RegsOnly.refuse _ (pPwm ch))
    have hn := (s.setReg (pPwm ch + 0x24) (s.reg (pPwm ch + 0x24))).get_refuse (pPwm ch)
    rw [lockPage_pPwm hc] at hr hn
    refine ⟨?_, ?_, hr⟩
    · exact congrArg (fun w : Word => fldGet w.toNat PWM_ENV_DT.dtmin) (hr.1 (pPwm ch + 0x24) (by simp))
    · rw [hn, s.get_setReg_reg]
  case same =>
    intro s ini v ch hc hw hg hl hi hd
    refine ⟨_, exec_registerWrite_envDt hc hw hg, ?_⟩
    rw [State.pageWrite_envDt_locked hc hl hi, if_neg (by simpa using hd)]
    exact RegsOnly.setReg_reg _ _
  case open_ =>
    intro s ini v ch hc hw hg hl
    refine ⟨_, exec_registerWrite_envDt hc hw hg, ?_⟩
    rw [State.pageWrite_envDt_open hc hl]
    refine ⟨?_, RegsOnly.setReg _ _ _⟩
    rw [s.get_put_same _ _ _ (by decide) (by decide)]
    simp
  case waits =>
    intro s ini a v h
    exact exec_registerWrite_waiting h
  case gated =>
    intro s ini a v ht hg
    rw [exec_registerWrite_ready (s.mustWait_of_gated hg), State.busWrite_of_page ht, if_pos hg]
  case safe =>
    intro s ini v o h ho hw
    have ha : (word (pSafe 2 + o)).toNat = pSafe 2 + o := word_toNat_of_lt (by unfold pSafe; omega)
    have ht : targetOf (word (pSafe 2 + o)).toNat = .page := by
      rw [ha]; exact targetOf_page (by unfold pSafe; omega) (by unfold pSafe; omega)
    rw [exec_registerWrite_page ht (by rwa [ha]) (by rw [ha]; exact s.gated_pSafe2 ho), ha, State.pageWrite_pSafe2 h ho]

end Sys2Proof
end

section
/-! PROOF. One edge of PCLK with no command waiting (`State.tick`): what its parts change. -/

namespace Sys2Proof.Machine

theorem overAll_eq_self {l : List Nat} {s : State} {f : Nat → State → State} (h : ∀ k ∈ l, f k s = s) : overAll l s f = s := by
  induction l with
  | nil => rfl
  | cons k r ih =>
    rw [overAll, h k List.mem_cons_self]
    exact ih fun j hj => h j (List.mem_cons_of_mem k hj)

/-- What holds of a state and passes through every turn of a loop holds of the state after it. -/
theorem overAll_induct {Q : State → Prop} {l : List Nat} {s : State} {f : Nat → State → State} (h : Q s)
    (hf : ∀ k t, Q t → Q (f k t)) : Q (overAll l s f) := by
  induction l generalizing s with
  | nil => exact h
  | cons k r ih => exact ih (hf k s h)

theorem Tab.rd_of_forall {α : Type} [Inhabited α] {q : α → Prop} {t : Tab α} (h : ∀ e ∈ t, q e.2) (hd : q default) (k : Nat) :
    q (Tab.rd t k) := by
  unfold Tab.rd Tab.get
  induction t with
  | nil => exact hd
  | cons e r ih =>
    rw [Tab.find]
    split
    · exact h e List.mem_cons_self
    · exact ih fun x hx => h x (List.mem_cons_of_mem e hx)

/-! The parts that the operations on time's way leave alone. -/

/-- Two states agree in the queue, the time, the memories, the held accesses and the Porter. -/
structure Untimed (s₀ s : State) : Prop where
  pending : s.pending = s₀.pending
  now : s.now = s₀.now
  cyc : s.cyc = s₀.cyc
  mem : s.mem = s₀.mem
  held : s.held = s₀.held
  porter : s.porter = s₀.porter

theorem Untimed.stable (s₀ : State) : Stable (Untimed s₀) where
  setReg h := ⟨h.pending, h.now, h.cyc, h.mem, h.held, h.porter⟩
  same h := ⟨h.pending, h.now, h.cyc, h.mem, h.held, h.porter⟩

theorem State.kept_untimed (s : State) : s.Kept (Untimed s) := ⟨Untimed.stable s, rfl, rfl, rfl, rfl, rfl, rfl⟩

/-! The compares and latches of the edge that ends (`State.fbkSettle`). -/

/-- The offsets of the words that a compare writes: PAGE_EV, PAGE_EVPEND and the words of the compare unit. -/
def settleOffs : List Nat := [0x03, 0x05, 0x30, 0x31, 0x34, 0x35, 0x36, 0x37]

/-- Nothing differs but register words at those offsets, the feedback records, and the posts on their way. -/
def Settled (s₀ s : State) : Prop :=
  (∀ a, a % 0x100 ∉ settleOffs → s.regW a = s₀.regW a) ∧
  ∃ regs fbk wire heldPosts posted,
    s = { s₀ with regs := regs, fbk := fbk, wire := wire, heldPosts := heldPosts, posted := posted }

theorem Settled.refl (s : State) : Settled s s := ⟨fun _ _ => rfl, _, _, _, _, _, rfl⟩

theorem pFbk_add_mod {ch o : Nat} (ho : o < 0x100) : (pFbk ch + o) % 0x100 = o := by unfold pFbk; omega

section
variable {s₀ s t : State} (h : Settled s₀ s)
include h

theorem Settled.setReg {a v : Nat} (ha : a % 0x100 ∈ settleOffs) : Settled s₀ (s.setReg a v) := by
  obtain ⟨hr, regs, fbk, wire, heldPosts, posted, hs⟩ := h
  refine ⟨fun b hb => ?_, (s.setReg a v).regs, fbk, wire, heldPosts, posted, ?_⟩
  · rw [State.regW_setReg_ne s v (by rintro rfl; exact hb ha)]
    exact hr b hb
  · unfold State.setReg
    rw [hs]

theorem Settled.records {fbk wire heldPosts posted} :
    Settled s₀ { s with fbk := fbk, wire := wire, heldPosts := heldPosts, posted := posted } := by
  obtain ⟨hr, regs, _, _, _, _, rfl⟩ := h
  exact ⟨hr, regs, _, _, _, _, rfl⟩

theorem Settled.ite {c : Prop} [Decidable c] (h' : Settled s₀ t) : Settled s₀ (if c then s else t) := by
  split <;> assumption

theorem Settled.put {ch v : Nat} {f : Fld} (hf : f.off ∈ settleOffs) : Settled s₀ (s.put (pFbk ch) f v) := by
  have hlt : ∀ o ∈ settleOffs, o < 0x100 := by decide
  exact h.setReg (by rwa [pFbk_add_mod (hlt _ hf)])

theorem Settled.setFb {ch r} : Settled s₀ (s.setFb ch r) := h.records

theorem Settled.offerPost {q} : Settled s₀ (s.offerPost q) := (h.ite h.records).ite h.records

theorem Settled.setPend {ch bits} : Settled s₀ (s.setPend (pFbk ch) bits) :=
  have h1 := h.put (f := PAGE_EVPEND.evpend) (by decide)
  h1.offerPost.records.ite h1

theorem Settled.ev {ch bit} : Settled s₀ (s.ev (pFbk ch) bit) :=
  have h1 := h.put (f := PAGE_EV.ev) (by decide)
  h1.setPend.ite h1

theorem Settled.putTarget {ch x} : Settled s₀ (s.putTarget ch x) :=
  (h.put (f := FBK_CMP_HI.p) (by decide)).put (f := FBK_CMP_LO.p) (by decide)

theorem Settled.emuMatch {src} : Settled s₀ (s.emuMatch src) :=
  overAll_induct h fun _ _ h' => h'.setFb.ite h'

theorem Settled.cmpSkip {ch new} : Settled s₀ (s.cmpSkip ch new) :=
  h.ite (h.putTarget.put (f := FBK_CMP_STAT.skip) (by decide)).ev

theorem Settled.cmpMove {ch old new x} : Settled s₀ (s.cmpMove ch old new x) := by
  unfold State.cmpMove
  extract_lets p st c s1 s2 s3 s4
  have h1 : Settled s₀ s1 := ((h.put (f := FBK_CMP_THI.t) (by decide)).put (f := FBK_CMP_TLO.t) (by decide)).put
    (f := FBK_CMP_STAT.match) (by decide)
  have h2 : Settled s₀ s2 := h1.ev.putTarget
  have h3 : Settled s₀ s3 := h2.ite (h2.put (f := FBK_CMP_CTL.cnt) (by decide))
  have h4 : Settled s₀ s4 := (h3.put (f := FBK_CMP_CTL.en) (by decide)).ite h3.cmpSkip
  exact (h4.emuMatch.ite h4).ite h

theorem Settled.cmpSettle {ch} : Settled s₀ (s.cmpSettle ch) := by
  unfold State.cmpSettle
  split
  · exact h
  · exact h.setFb.cmpMove.ite (h.setFb.cmpSkip.ite h.setFb)

theorem Settled.latchSettle {ch} : Settled s₀ (s.latchSettle ch) := h.setFb.ite h

/-- A field of a page reads as before where its word is none of a compare. -/
theorem Settled.get {p : Nat} {f : Fld} (hf : (p + f.off) % 0x100 ∉ settleOffs) : s.get p f = s₀.get p f :=
  congrArg (fun w : Word => fldGet w.toNat f) (h.1 _ hf)

theorem Settled.clk : s.clk = s₀.clk := by
  obtain ⟨_, _, _, _, _, _, rfl⟩ := h
  rfl

end

theorem State.fbkSettle_settled (s : State) : Settled s s.fbkSettle :=
  overAll_induct (Settled.refl s) fun _ _ h => h.cmpSettle.latchSettle

/-! The output edges (`State.outSettle`). -/

section
variable {s₀ s : State} (h : Settled s₀ s)
include h

theorem Settled.getPage {p : Nat} {f : Fld} (hp : p % 0x100 = 0) (ho : f.off < 0x100) (hf : f.off ∉ settleOffs) :
    s.get p f = s₀.get p f :=
  h.get (by rwa [Nat.add_mod, hp, Nat.zero_add, Nat.mod_mod, Nat.mod_eq_of_lt ho])

/-- What drives the gate outputs is none of a compare's words. -/
theorem Settled.outBits (ch : Nat) : s.outBits ch = s₀.outBits ch := by
  have hw : ∀ f : Fld, f.off < 0x100 → f.off ∉ settleOffs → s.get (pPwm ch) f = s₀.get (pPwm ch) f :=
    fun f => h.getPage (by unfold pPwm; omega)
  have hp : ∀ f : Fld, f.off < 0x100 → f.off ∉ settleOffs → s.get (pProf ch) f = s₀.get (pProf ch) f :=
    fun f => h.getPage (by unfold pProf; omega)
  have hg : ∀ leg hi, s.gateOut ch leg hi = s₀.gateOut ch leg hi := by
    intro leg hi
    simp only [State.gateOut, State.padBlocked, State.blk1, State.blk2, State.blk3, State.blk4, State.stepPair, State.carrierRuns,
      State.flag, State.pw, State.pr]
    rw [hw PWM_CFG.kind (by decide) (by decide), hw PWM_BLK.run (by decide) (by decide),
      hw PWM_BLK.trip (by decide) (by decide), hw PAGE_CTL.en (by decide) (by decide),
      hw PAGE_CTL.gate_req (by decide) (by decide), hw PAGE_CTL.gate_ack (by decide) (by decide),
      hp PAGE_CTL.en (by decide) (by decide), hp PROF_STEP.dinv (by decide) (by decide)]
    obtain ⟨_, _, _, _, _, _, rfl⟩ := h
    rfl
  simp only [State.outBits, hg]

end

theorem State.outSettle_pwm (s : State) : ∃ pwm, s.outSettle = { s with pwm := pwm } := by
  refine overAll_induct (Q := fun t => ∃ pwm, t = { s with pwm := pwm }) ⟨s.pwm, rfl⟩ ?_
  rintro ch t ⟨pwm, rfl⟩
  dsimp only
  split
  exacts [⟨_, rfl⟩, ⟨_, rfl⟩]

theorem State.outSettle_eq_self {s : State} (h : ∀ e ∈ s.pwm, s.outBits e.1 = (s.pw e.1).outs) : s.outSettle = s := by
  refine overAll_eq_self fun ch hch => ?_
  obtain ⟨e, he, rfl⟩ := List.mem_map.mp hch
  exact if_pos (h e he)

/-! What is idle does nothing. -/

theorem State.proceedHeld_eq_self {s : State} (h : s.held = []) : s.proceedHeld = s := by
  rw [State.proceedHeld, h, State.proceed, ← h]

theorem State.porterTick_eq_self {s : State} (h : ∀ e, s.pe e = none) : s.porterTick = s :=
  overAll_eq_self fun e _ => by simp only [State.moveStep, h]

theorem State.pclkTick_eq_self {s : State} (h : s.flag pClk CLK_DOM_FIX.prun = false) : s.pclkTick = s :=
  if_neg (by simp [h])

/-! What the counts of an edge change. -/

theorem State.sscTick_clk (s : State) : ∃ clk, s.sscTick = { s with clk := clk } := by
  unfold State.sscTick
  split
  exacts [⟨_, rfl⟩, ⟨s.clk, rfl⟩]

theorem State.busyTick_core (s : State) : ∃ core, s.busyTick = { s with core := core } := by
  unfold State.busyTick
  split
  exacts [⟨_, rfl⟩, ⟨s.core, rfl⟩]

theorem State.stallTick_regs (s : State) (n : Nat) : ∃ regs, s.stallTick n = { s with regs := regs } := by
  refine overAll_induct (Q := fun t => ∃ regs, t = { s with regs := regs }) ⟨s.regs, rfl⟩ ?_
  rintro c t ⟨regs, rfl⟩
  exact ⟨_, rfl⟩

theorem State.doccTick_regs (s : State) : ∃ regs, s.doccTick = { s with regs := regs } := by
  refine overAll_induct (Q := fun t => ∃ regs, t = { s with regs := regs }) ⟨s.regs, rfl⟩ ?_
  rintro c t ⟨regs, rfl⟩
  split
  exacts [⟨_, rfl⟩, ⟨_, rfl⟩]

theorem State.noteQueue_regs (s : State) : ∃ regs, s.noteQueue = { s with regs := regs } := by
  unfold State.noteQueue
  split
  exacts [⟨_, rfl⟩, ⟨s.regs, rfl⟩]

/-- The time bases, the Prism, the carriers and the profile generators are the same. -/
structure Standing (s₀ s : State) : Prop where
  time : s.time = s₀.time
  prism : s.prism = s₀.prism
  pwm : s.pwm = s₀.pwm
  prof : s.prof = s₀.prof

section
variable {s₀ s : State} (h : Standing s₀ s)
include h

theorem Standing.counts {regs clk core} : Standing s₀ { s with regs := regs, clk := clk, core := core } :=
  ⟨h.time, h.prism, h.pwm, h.prof⟩

theorem Standing.sscTick : Standing s₀ s.sscTick := by
  obtain ⟨clk, e⟩ := s.sscTick_clk
  exact e ▸ h.counts

theorem Standing.busyTick : Standing s₀ s.busyTick := by
  obtain ⟨core, e⟩ := s.busyTick_core
  exact e ▸ h.counts

theorem Standing.stallTick {n : Nat} : Standing s₀ (s.stallTick n) := by
  obtain ⟨regs, e⟩ := s.stallTick_regs n
  exact e ▸ h.counts

theorem Standing.doccTick : Standing s₀ s.doccTick := by
  obtain ⟨regs, e⟩ := s.doccTick_regs
  exact e ▸ h.counts

theorem Standing.noteQueue : Standing s₀ s.noteQueue := by
  obtain ⟨regs, e⟩ := s.noteQueue_regs
  exact e ▸ h.counts

end

/-! The edge as a whole. -/

theorem step_of_pending_nil {s : State} (h : s.pending = []) : step s = .next s.tick := by
  rw [step, h]

/-- Time moves on by one edge, and by the CORE cycles in it; the posts and cancellations of the edge that ends are over. -/
def State.advanced (s : State) : State :=
  { s with now := s.now + 1, cyc := s.cyc + s.cycStep, posted := [], innk := { s.innk with cancelled := [] } }

/-- The edge up to the counts of stalled cycles. -/
def State.tickBlocks (s : State) : State :=
  (s.advanced.sscTick.pclkTick.busyTick).stallTick (s.advanced.cyc / 1000000 - s.cyc / 1000000)

section
variable {s : State} (hh : s.held = []) (hp : ∀ e, s.pe e = none)
include hh hp

/-- An edge on which no access is held and no engine moves words. -/
theorem State.tick_of_idle :
    s.tick = s.fbkSettle.outSettle.tickBlocks.doccTick.noteQueue ∧
      s.fbkSettle.outSettle.tickBlocks.Kept (Untimed s.fbkSettle.outSettle.advanced) ∧
      s.fbkSettle.outSettle.Kept (Untimed s) := by
  have h₀ : s.fbkSettle.outSettle.Kept (Untimed s) := s.kept_untimed.fbkSettle.outSettle
  have h₁ : s.fbkSettle.outSettle.tickBlocks.Kept (Untimed s.fbkSettle.outSettle.advanced) :=
    (State.kept_untimed _).sscTick.pclkTick.busyTick.stallTick
  have hheld : s.fbkSettle.outSettle.proceedHeld = s.fbkSettle.outSettle :=
    State.proceedHeld_eq_self (h₀.holds.held.trans hh)
  have hporter : s.fbkSettle.outSettle.tickBlocks.porter = s.porter := h₁.holds.porter.trans h₀.holds.porter
  have hidle : s.fbkSettle.outSettle.tickBlocks.porterTick = s.fbkSettle.outSettle.tickBlocks :=
    State.porterTick_eq_self fun e => by rw [State.pe, hporter]; exact hp e
  refine ⟨?_, h₁, h₀⟩
  show (State.tickBlocks s.fbkSettle.outSettle.proceedHeld).porterTick.doccTick.noteQueue = _
  rw [hheld, hidle]

theorem State.tick_untimed : s.tick.Kept (Untimed s.fbkSettle.outSettle.advanced) := by
  obtain ⟨ht, h₁, _⟩ := State.tick_of_idle hh hp
  rw [ht]
  exact h₁.doccTick.noteQueue

end

/-- The compares and the output edges leave what the rate of CORE depends on. -/
theorem State.settle_cycStep (s : State) :
    (s.domStopped 0 = true → s.fbkSettle.outSettle.cycStep = 0) ∧
      (s.domStopped 0 = false → s.domCur 0 = 1 → fldGet s.clk.ssc CLK_SSC.cen = 0 →
        s.fbkSettle.outSettle.cycStep = 3000000) := by
  have hf := s.fbkSettle_settled
  obtain ⟨pwm, hpwm⟩ := s.fbkSettle.outSettle_pwm
  have hclk : s.fbkSettle.outSettle.clk = s.clk := by rw [hpwm]; exact hf.clk
  have hstop : s.fbkSettle.outSettle.domStopped 0 = s.domStopped 0 := by simp only [State.domStopped, hclk]
  have hcur : s.fbkSettle.outSettle.get pClk CLK_DOM_CORE.cur = s.domCur 0 := by
    rw [hpwm]; exact hf.get (by decide)
  constructor
  · intro h
    simp only [State.cycStep, hstop, h, if_true]
  · intro h h1 hc
    simp [State.cycStep, State.sscCut, hstop, hcur, hclk, h, h1, hc]

/-! The edge while PCLK stands. -/

section
variable {s : State} (hrun : s.flag pClk CLK_DOM_FIX.prun = false)
include hrun

theorem State.settle_prun : s.fbkSettle.outSettle.flag pClk CLK_DOM_FIX.prun = false := by
  obtain ⟨pwm, hpwm⟩ := s.fbkSettle.outSettle_pwm
  have hget : s.fbkSettle.get pClk CLK_DOM_FIX.prun = s.get pClk CLK_DOM_FIX.prun := s.fbkSettle_settled.get (by decide)
  rw [State.flag, ← hget] at hrun
  rw [hpwm]
  exact hrun

/-- No block on PCLK takes part. -/
theorem State.advanced_pclkTick : s.advanced.sscTick.pclkTick = s.advanced.sscTick := by
  obtain ⟨clk, hclk⟩ := s.advanced.sscTick_clk
  exact State.pclkTick_eq_self (by rw [hclk]; exact hrun)

/-- The blocks on PCLK stay. -/
theorem State.tickBlocks_standing : Standing s s.tickBlocks.doccTick.noteQueue := by
  have h : Standing s s.advanced := ⟨rfl, rfl, rfl, rfl⟩
  unfold State.tickBlocks
  rw [State.advanced_pclkTick hrun]
  exact h.sscTick.busyTick.stallTick.doccTick.noteQueue

end

/-! No register changes on such an edge where nothing is compared, counted or marked. -/

theorem State.fbkSettle_of_no_compare {s : State} (h : ∀ e ∈ s.fbk, e.2.cmp = none) : ∃ fbk, s.fbkSettle = { s with fbk := fbk } := by
  have hcmp : ∀ ch, (s.fb ch).cmp = none := Tab.rd_of_forall (q := fun r : FbkSt => r.cmp = none) h rfl
  suffices hq : (∀ ch, (s.fbkSettle.fb ch).cmp = none) ∧ ∃ fbk, s.fbkSettle = { s with fbk := fbk } from hq.2
  refine overAll_induct (Q := fun t => (∀ ch, (t.fb ch).cmp = none) ∧ ∃ fbk, t = { s with fbk := fbk }) ⟨hcmp, s.fbk, rfl⟩ ?_
  rintro ch t ⟨ht, fbk, hs⟩
  have hc : t.cmpSettle ch = t := by simp only [State.cmpSettle, ht]
  rw [hc, State.latchSettle]
  split
  · refine ⟨fun k => ?_, _, by rw [State.setFb, hs]⟩
    by_cases hk : k = ch
    · subst hk
      simpa [State.fb, State.setFb, Tab.rd, Tab.wr, Tab.get_set_same] using ht k
    · simpa [State.fb, State.setFb, Tab.rd, Tab.wr, Tab.get_set_other _ _ _ hk] using ht k
  · exact ⟨ht, fbk, hs⟩

theorem State.busyTick_stalled {s : State} (h : ∀ e ∈ s.core, e.2.stalled = false) : ∀ e ∈ s.busyTick.core, e.2.stalled = false := by
  unfold State.busyTick
  split
  · intro e he
    obtain ⟨x, hx, rfl⟩ := List.mem_map.mp he
    split <;> exact h x hx
  · exact h

/-- The count of busy edges asks nothing of the fabric. -/
theorem State.busyTick_requests (s : State) : s.busyTick.requests = s.requests := by
  have houts : ∀ e : Nat × CoreSt,
      (if e.2.task.isSome then (e.1, { e.2 with busy := e.2.busy + 1 }) else e).2.outs = e.2.outs := fun e => by
    split <;> rfl
  unfold State.busyTick
  split
  · simp only [State.requests, List.flatMap_map, houts]
    rfl
  · rfl

theorem State.stallTick_eq_self {s : State} {n : Nat} (h : ∀ e ∈ s.core, e.2.stalled = false) : s.stallTick n = s := by
  have hnil : s.core.filter (fun e => e.2.stalled) = [] := List.filter_eq_nil_iff.mpr fun e he => by simp [h e he]
  rw [State.stallTick, hnil]
  rfl

theorem State.doccTick_eq_self {s : State} (h : ∀ c < 2, s.dramLevel c ≤ s.get (pMem (c + 1)) MEM_DOCC.hwm) : s.doccTick = s :=
  overAll_eq_self fun c hc => if_neg (Nat.not_lt.mpr (h c (by simp at hc; omega)))

theorem State.noteQueue_eq_self {s : State} (h : s.innk.queue.length ≤ s.get pInnk0 INNK_PQ.hwm) : s.noteQueue = s :=
  if_neg (Nat.not_lt.mpr h)

/-- The marks and counts of an edge on which PCLK stands write no register, where no core is stalled and no mark is passed. -/
theorem State.tickBlocks_regs {s : State} (hrun : s.flag pClk CLK_DOM_FIX.prun = false) (hcore : ∀ e ∈ s.core, e.2.stalled = false)
    (hdram : ∀ c < 2, s.dramLevel c ≤ s.get (pMem (c + 1)) MEM_DOCC.hwm) (hqueue : s.innk.queue.length ≤ s.get pInnk0 INNK_PQ.hwm) :
    s.tickBlocks.doccTick.noteQueue.regs = s.regs := by
  obtain ⟨clk, hclk⟩ := s.advanced.sscTick_clk
  obtain ⟨_, hbusy⟩ := s.advanced.sscTick.busyTick_core
  have hblocks : s.tickBlocks = s.advanced.sscTick.busyTick := by
    rw [State.tickBlocks, State.advanced_pclkTick hrun]
    exact State.stallTick_eq_self (State.busyTick_stalled (by rw [hclk]; exact hcore))
  have hregs : s.advanced.sscTick.busyTick.regs = s.regs := by rw [hbusy, hclk]; rfl
  have hinnk : s.advanced.sscTick.busyTick.innk.queue = s.innk.queue := by rw [hbusy, hclk]; rfl
  have hreq : s.advanced.sscTick.busyTick.requests = s.requests := by rw [State.busyTick_requests, hclk]; rfl
  have hdocc : s.advanced.sscTick.busyTick.doccTick = s.advanced.sscTick.busyTick := by
    refine State.doccTick_eq_self fun c hc => ?_
    rw [State.dramLevel, hreq, State.get_of_regs hregs]
    exact hdram c hc
  have hmark : s.advanced.sscTick.busyTick.noteQueue = s.advanced.sscTick.busyTick :=
    State.noteQueue_eq_self (by rw [hinnk, State.get_of_regs hregs]; exact hqueue)
  rw [hblocks, hdocc, hmark, hregs]

end Sys2Proof.Machine

namespace Sys2Proof

open Machine

/-- Every command answers a next state: no arm of `exec` refuses or faults. -/
theorem exec_next (i : Instr) (s : State) : ∃ t, exec i s = .next t := by
  cases i <;> exact ⟨_, rfl⟩

/-- Settles O51: the arms of `exec` for the commands, and for the tick what each of its parts leaves alone. -/
theorem everyStepAnswers : Obligations.EveryStepAnswers := by
  refine ⟨?safe, exec_next, ?time, ?stopped, ?regs⟩
  case safe =>
    intro s
    unfold SafeStep step
    split
    · exact ⟨_, rfl⟩
    · exact exec_next _ _
  case time =>
    intro s hq hh hp
    have h := (State.tick_untimed hh hp).holds
    have h₀ := (s.kept_untimed.fbkSettle.outSettle).holds
    obtain ⟨hstop, hrate⟩ := s.settle_cycStep
    have hcyc : s.tick.cyc = s.cyc + s.fbkSettle.outSettle.cycStep :=
      h.cyc.trans (congrArg (· + s.fbkSettle.outSettle.cycStep) h₀.cyc)
    refine ⟨s.tick, step_of_pending_nil hq, ?_, ?_, ?_, ?_, ?_⟩
    · exact (h.pending.trans h₀.pending).trans hq
    · exact h.now.trans (congrArg (· + 1) h₀.now)
    · exact h.mem.trans h₀.mem
    · intro hs
      rw [hcyc, hstop hs, Nat.add_zero]
    · intro hs h1 hc
      rw [hcyc, hrate hs h1 hc]
  case stopped =>
    intro s hq hh hp hrun hout
    have hf := s.fbkSettle_settled
    have hsettle : s.fbkSettle.outSettle = s.fbkSettle := by
      refine State.outSettle_eq_self fun e he => ?_
      rw [hf.outBits]
      obtain ⟨_, _, _, _, _, _, hs⟩ := hf
      rw [hs] at he ⊢
      exact hout e he
    have h := State.tickBlocks_standing (State.settle_prun hrun)
    rw [← (State.tick_of_idle hh hp).1, hsettle] at h
    obtain ⟨_, _, _, _, _, _, hs⟩ := hf
    rw [hs] at h
    exact ⟨s.tick, step_of_pending_nil hq, h.time, h.prism, h.pwm, h.prof⟩
  case regs =>
    intro s hq hh hp hrun hcmp hcore hdram hqueue
    obtain ⟨fbk, hfbk⟩ := State.fbkSettle_of_no_compare hcmp
    obtain ⟨pwm, hpwm⟩ := s.fbkSettle.outSettle_pwm
    have hu : s.fbkSettle.outSettle = { s with fbk := fbk, pwm := pwm } := by rw [hpwm, hfbk]
    refine ⟨s.tick, step_of_pending_nil hq, ?_⟩
    rw [(State.tick_of_idle hh hp).1, hu]
    exact State.tickBlocks_regs (s := { s with fbk := fbk, pwm := pwm }) hrun hcore hdram hqueue

end Sys2Proof
end

section
/-! PROOF. What the envelope lock and a table of register words with an entry of its reset value make of two statements on
pages: the block reset of a PWM page (R21), and EVENT_CLEAR at a LENS page (R24). -/

namespace Sys2Proof.Machine

/-- A PWM page 0 of kind 1, with the envelope locked. -/
def lockedPwm : State := { slLocked := true, regs := [(pPwm 0 + 0x10, word (2 ^ 34))] }

/-- A LENS page 0 whose PAGE_EV stands in the table with its reset value. -/
def listedEv : State := { regs := [(pageAddr 0xA00 + 3, 0)] }

/-- The block reset keeps PWM_CFG.kind, an SL field, under the envelope lock (R21). -/
theorem srst_lockedPwm_cfg : (lockedPwm.srst (pageAddr 0x1000)).reg (pPwm 0 + 0x10) ≠ (resetWord (pPwm 0 + 0x10)).toNat := by
  decide

/-- EVENT_CLEAR writes PAGE_EV again, which leaves no entry of a reset value in the table; a refusal leaves the entry. -/
theorem eventClear_listedEv : (doEventClear 0xA00 false 0 0 listedEv).regs ≠ (listedEv.refuse (pageAddr 0xA00)).regs := by
  decide

end Sys2Proof.Machine

namespace Sys2Proof

open Machine

/-- Refutes O17: under the envelope lock PWM_CFG.kind is kept, so the block reset leaves offset 0x10 at no reset value. -/
theorem not_blockGatingResetsAndEnables : ¬ Obligations.BlockGatingResetsAndEnables := by
  unfold Obligations.BlockGatingResetsAndEnables
  rintro ⟨-, -, -, -, -, -, -, -, -, -, -, -, -, -, hsrst, -⟩
  obtain ⟨t, ht, -, -, -, hcfg, -⟩ := hsrst lockedPwm 0 (by decide) rfl
  have hdo : lockedPwm.srst (pageAddr 0x1000) = t := Host.Outcome.next.inj ht
  exact srst_lockedPwm_cfg (hdo ▸ hcfg)

/-- Refutes O18: on a state whose table lists PAGE_EV with its reset value, the two sides differ in their tables. -/
theorem not_pageEventsAndPosts : ¬ Obligations.PageEventsAndPosts := by
  unfold Obligations.PageEventsAndPosts
  rintro ⟨-, -, -, hlens, -⟩
  have ht := hlens listedEv 0xA00 0 (by decide) (by decide)
  have hdo : doEventClear 0xA00 false 0 0 listedEv = listedEv.refuse (pageAddr 0xA00) :=
    Host.Outcome.next.inj ht
  exact eventClear_listedEv (congrArg State.regs hdo)

end Sys2Proof
end

section
/-! PROOF. The header words of a page: where they lie, what a write of one field leaves, and what an event changes. -/

namespace Sys2Proof.Machine

/-! The pages of the map. -/

theorem blkOf_pageAddr_add (q : Nat) {o : Nat} (ho : o < 0x100) : blkOf (pageAddr q + o) = blkOfIndex q := by
  have hq : (pageAddr q + o - pageSpace) / 0x100 = q := by unfold pageAddr; omega
  rw [blkOf, if_neg (by unfold pageAddr; omega), hq]

theorem blkOf_pageAddr (q : Nat) : blkOf (pageAddr q) = blkOfIndex q := blkOf_pageAddr_add q (o := 0) (by decide)

theorem pageOf_pageAddr_add (q : Nat) {o : Nat} (ho : o < 0x100) : pageOf (pageAddr q + o) = pageAddr q := by
  unfold pageOf pageAddr pageSpace; omega

theorem pageAddr_add_mod (q : Nat) {o : Nat} (ho : o < 0x100) : (pageAddr q + o) % 0x100 = o := by
  unfold pageAddr pageSpace; omega

/-- The last pages of the map are those of the cores. -/
theorem blkOfIndex_of_le {q : Nat} (h : 0x2040 ≤ q) : blkOfIndex q = .absent := by
  have hr : ∀ lo n, lo + n ≤ 0x2040 → inRange q lo n = false := fun lo n hl => by simp [inRange]; omega
  unfold blkOfIndex
  rw [if_neg (by omega), if_neg (by omega), if_neg (by omega), if_neg (by omega), if_neg (by omega), if_neg (by omega),
    if_neg (by omega), hr _ _ (by decide), hr _ _ (by decide), hr _ _ (by decide), hr _ _ (by decide), hr _ _ (by decide),
    hr _ _ (by decide)]
  rfl

theorem pageIndex_lt_of_hasHeader {q : Nat} (h : (blkOf (pageAddr q)).hasHeader = true) : q < 0x2040 := by
  by_contra hq
  rw [blkOf_pageAddr, blkOfIndex_of_le (by omega)] at h
  exact absurd h (by decide)

theorem lockPage_of_hasHeader {p : Nat} (h : (blkOf p).hasHeader = true) : lockPage p = p := by
  unfold lockPage
  split
  · rename_i hb; rw [hb] at h; exact absurd h (by decide)
  · rename_i hb; rw [hb] at h; exact absurd h (by decide)
  · rfl

/-! A header word is no block word, so no block holds or fails its accesses. -/

section
variable {q o : Nat} (h : (blkOf (pageAddr q)).hasHeader = true) (ho : o < 0x10)
include h ho

theorem blockWord_header : blockWord (pageAddr q + o) = false := by
  rw [blkOf_pageAddr] at h
  rw [blockWord, blkOf_pageAddr_add q (by omega), h, pageAddr_add_mod q (by omega)]
  simpa using ho

theorem header_word_toNat : (word (pageAddr q + o)).toNat = pageAddr q + o := by
  have hq := pageIndex_lt_of_hasHeader h
  exact word_toNat_of_lt (by unfold pageAddr pageSpace; omega)

theorem targetOf_header : targetOf (pageAddr q + o) = .page := by
  have hq := pageIndex_lt_of_hasHeader h
  exact targetOf_page (by unfold pageAddr pageSpace; omega) (by unfold pageAddr pageSpace; omega)

/-- A write of a header word reaches its page at once. -/
theorem exec_registerWrite_header (s : State) (ini : Nat) (v : Word) :
    exec (.registerWrite ini (word (pageAddr q + o)) v) s = .next (s.pageWrite ini (pageAddr q + o) v) := by
  obtain ⟨hw, hg⟩ := s.takes_of_not_blockWord (blockWord_header h ho)
  have ha := header_word_toNat h ho
  rw [exec_registerWrite_page (by rw [ha]; exact targetOf_header h ho) (by rwa [ha]) (by rwa [ha]), ha]

end

/-! What the writes of fields change. -/

theorem RegsOnly.refl (s : State) (as : List Nat) : RegsOnly as s s := ⟨fun _ _ => rfl, rfl⟩

theorem RegsOnly.trans {as : List Nat} {s t u : State} (h : RegsOnly as s t) (h' : RegsOnly as t u) : RegsOnly as s u :=
  ⟨fun a ha => (h'.1 a ha).trans (h.1 a ha), by rw [h'.2, h.2]⟩

theorem RegsOnly.mono {as bs : List Nat} {s t : State} (h : RegsOnly as s t) (hs : ∀ a ∈ as, a ∈ bs) : RegsOnly bs s t :=
  ⟨fun a ha => h.1 a fun hm => ha (hs a hm), h.2⟩

theorem RegsOnly.setReg_mem {as : List Nat} {s t : State} (h : RegsOnly as s t) {a : Nat} (v : Nat) (ha : a ∈ as) :
    RegsOnly as s (t.setReg a v) :=
  h.trans ((RegsOnly.setReg t a v).mono (by simpa using ha))

theorem RegsOnly.put {as : List Nat} {s t : State} (h : RegsOnly as s t) {p : Nat} {f : Fld} (v : Nat) (hf : p + f.off ∈ as) :
    RegsOnly as s (t.put p f v) :=
  h.setReg_mem _ hf

theorem RegsOnly.inc {as : List Nat} {s t : State} (h : RegsOnly as s t) {p : Nat} {f : Fld} (hf : p + f.off ∈ as) :
    RegsOnly as s (t.inc p f) :=
  h.setReg_mem _ hf

theorem RegsOnly.get {as : List Nat} {s t : State} (h : RegsOnly as s t) {p : Nat} {f : Fld} (hf : p + f.off ∉ as) :
    t.get p f = s.get p f :=
  congrArg (fun w : Word => fldGet w.toNat f) (h.1 _ hf)

/-! Events (R22, R23). -/

@[simp] theorem State.offerPost_regs (s : State) (q : Post) : (s.offerPost q).regs = s.regs := by
  simp only [State.offerPost, apply_ite State.regs, ite_self]

@[simp] theorem State.pagePost_regs (s : State) (p tag : Nat) : (s.pagePost p tag).regs = s.regs := s.offerPost_regs _

theorem State.setPend_regs (s : State) (p bits : Nat) :
    (s.setPend p bits).regs = (s.put p PAGE_EVPEND.evpend (s.get p PAGE_EVPEND.evpend ||| bits)).regs := by
  simp only [State.setPend, apply_ite State.regs, State.pagePost_regs, ite_self]

/-- The register words after an event: those of the writes of PAGE_EV and, for an enabled event, of PAGE_EVPEND. -/
theorem State.ev_regs (s : State) (p k : Nat) :
    (s.ev p k).regs = if bitN (s.get p PAGE_EVEN.even) k
      then ((s.put p PAGE_EV.ev (setBitN (s.get p PAGE_EV.ev) k)).put p PAGE_EVPEND.evpend
        (setBitN (s.get p PAGE_EVPEND.evpend) k)).regs
      else (s.put p PAGE_EV.ev (setBitN (s.get p PAGE_EV.ev) k)).regs := by
  unfold State.ev
  split
  · rw [State.setPend_regs, State.get_put_word _ _ _ _ _ _ (by simp)]
    rfl
  · rfl

theorem setBitN_lt {w k : Nat} (hw : w < 2 ^ 36) (hk : k < 36) : setBitN w k < 2 ^ 36 :=
  Nat.or_lt_two_pow hw (Nat.pow_lt_pow_right (by decide) hk)

section
variable (s : State) (p : Nat) {k : Nat} (hk : k < 36)
include hk

theorem State.get_ev_ev : (s.ev p k).get p PAGE_EV.ev = setBitN (s.get p PAGE_EV.ev) k := by
  have hlt : setBitN (s.get p PAGE_EV.ev) k % 2 ^ 36 = _ := Nat.mod_eq_of_lt (setBitN_lt (s.get_lt p PAGE_EV.ev) hk)
  have hput := s.get_put_same p PAGE_EV.ev (setBitN (s.get p PAGE_EV.ev) k) (by decide) (by decide)
  have hr := s.ev_regs p k
  split at hr
  · rw [State.get_of_regs hr, State.get_put_word _ _ _ _ _ _ (by simp), hput]; exact hlt
  · rw [State.get_of_regs hr, hput]; exact hlt

theorem State.get_ev_evpend : (s.ev p k).get p PAGE_EVPEND.evpend =
    if bitN (s.get p PAGE_EVEN.even) k then setBitN (s.get p PAGE_EVPEND.evpend) k else s.get p PAGE_EVPEND.evpend := by
  have hlt : setBitN (s.get p PAGE_EVPEND.evpend) k % 2 ^ 36 = _ := Nat.mod_eq_of_lt (setBitN_lt (s.get_lt p PAGE_EVPEND.evpend) hk)
  have hr := s.ev_regs p k
  split at hr
  · rw [if_pos ‹_›, State.get_of_regs hr, State.get_put_same _ _ _ _ (by decide) (by decide)]; exact hlt
  · rw [if_neg ‹_›, State.get_of_regs hr, State.get_put_word _ _ _ _ _ _ (by simp)]

end

end Sys2Proof.Machine
end

section
/-! PROOF. A write of PAGE_EVEN, and a write of FC_CFG. -/

namespace Sys2Proof.Machine

/-! PAGE_EVEN. -/

theorem RegsOnly.noteRefused {as : List Nat} {s t : State} (h : RegsOnly as s t) {a : Nat} (r : Bool)
    (ha : lockPage (pageOf a) + PAGE_LOCK.refused.off ∈ as) : RegsOnly as s (t.noteRefused a r) := by
  unfold State.noteRefused
  split
  · exact h.inc ha
  · exact h

/-- A plain write reaches its word and the count of refused writes. -/
theorem RegsOnly.plainWrite (s : State) (ini a v : Nat) :
    RegsOnly [a, lockPage (pageOf a) + PAGE_LOCK.refused.off] s (s.plainWrite ini a v) :=
  ((RegsOnly.refl s _).setReg_mem _ (by simp)).noteRefused _ (by simp)

/-- In every page with a header, PAGE_EVEN takes a plain write. -/
theorem State.pageWrite_pageEven (s : State) (ini q : Nat) (v : Word) (h : (blkOf (pageAddr q)).hasHeader = true) :
    s.pageWrite ini (pageAddr q + 4) v = s.plainWrite ini (pageAddr q + 4) v.toNat := by
  have hoff : (pageAddr q + 4) % 0x100 = 4 := pageAddr_add_mod q (by decide)
  have hhead : s.headerWrite ini (pageAddr q + 4) v = s.plainWrite ini (pageAddr q + 4) v.toNat := by
    simp [State.headerWrite, hoff]
  have hcmd : pageAddr q + 4 ≠ pSafe 1 + 0x10 := by unfold pageAddr pageSpace pSafe; omega
  have harg : pageAddr q + 4 ≠ pSafe 1 + 0x11 := by unfold pageAddr pageSpace pSafe; omega
  rw [blkOf_pageAddr] at h
  unfold State.pageWrite
  rw [blkOf_pageAddr_add q (by decide)]
  split
  iterate 4
    · rw [State.safeWrite, if_neg hcmd, if_neg harg, hoff, hhead]; rfl
  iterate 3
    · simp [State.lensWrite, hoff, hhead]
  · simp [h, hoff, hhead]

/-! FC_CFG. -/

/-- The merge of FC_CFG takes each of its fields (R44). -/
theorem fldGet_slMerge_fcCfg {a : Nat} (ha : a % 0x100 = 8) (old w : Nat) :
    ∀ f ∈ [FC_CFG.enable, FC_CFG.action, FC_CFG.n, FC_CFG.w], fldGet (slMerge a old w) f = fldGet w f := by
  intro f hf
  have hmod : ∀ g : Fld, fldGet w g % 2 ^ (g.hi + 1 - g.lo) = fldGet w g := fun g => Nat.mod_eq_of_lt (fldGet_lt w g)
  simp only [slMerge, slFields, ha, if_true, List.foldl]
  fin_cases hf <;>
    simp (disch := simp) only [fldGet_fldPut_ne, fldGet_fldPut_same, hmod]

theorem slMerge_fcCfg_lt {a : Nat} (ha : a % 0x100 = 8) {old : Nat} (w : Nat) (h : old < 2 ^ 36) : slMerge a old w < 2 ^ 36 := by
  simp only [slMerge, slFields, ha, if_true, List.foldl]
  iterate 4 refine fldPut_lt _ _ (by decide) (by decide) ?_
  exact h

/-- FC_CFG taken, with cur and prev cleared (R42). -/
def State.fcTaken (s : State) (p n : Nat) : State := ((s.setReg (p + 8) n).put p FC_STAT.cur 0).put p FC_STAT.prev 0

section
variable (s : State) (p n : Nat)

theorem State.fcTaken_regsOnly : RegsOnly [p + 8, p + 9] s (s.fcTaken p n) :=
  (((RegsOnly.refl s _).setReg_mem _ (by simp)).put _ (by simp)).put _ (by simp)

theorem State.fcTaken_stat :
    (s.fcTaken p n).get p FC_STAT.cur = 0 ∧ (s.fcTaken p n).get p FC_STAT.prev = 0 ∧
      (s.fcTaken p n).get p FC_STAT.total = s.get p FC_STAT.total ∧
      (s.fcTaken p n).get p FC_STAT.lasting = s.get p FC_STAT.lasting := by
  have hset : ∀ f : Fld, f.off = 9 → (s.setReg (p + 8) n).get p f = s.get p f := fun f hf =>
    (RegsOnly.setReg s (p + 8) n).get (by simp [hf])
  unfold State.fcTaken
  simp (disch := simp) only [State.get_put_field, State.get_put_same, hset, Nat.zero_mod, and_self]

theorem State.fcTaken_cfg (hn : n < 2 ^ 36) (f : Fld) (hf : f.off = 8) : (s.fcTaken p n).get p f = fldGet n f := by
  unfold State.fcTaken
  rw [State.get_put_word _ _ _ _ _ _ (by simp [hf]), State.get_put_word _ _ _ _ _ _ (by simp [hf])]
  rw [State.get, hf, State.reg_setReg_same, Nat.mod_eq_of_lt hn]

end

theorem State.get_setWindow (s : State) (p a start : Nat) (f : Fld) : (s.setWindow a start).get p f = s.get p f := State.get_of_regs rfl p f

/-! FC_CFG_WRITE, case by case. -/

section
variable {s : State} {ini page : Nat} {v : Word} (h : (blkOf (pageAddr page)).hasHeader = true)
include h

theorem doFcCfgWrite_locked (hl : s.fcLocked ini (pageAddr page) = true) :
    RegsOnly [pageAddr page + 7] s (doFcCfgWrite ini page v s) := by
  simp only [doFcCfgWrite, h, hl]
  refine (RegsOnly.refl s _).noteRefused _ ?_
  rw [pageOf_pageAddr_add _ (by decide), lockPage_of_hasHeader h]
  simp

variable (hl : s.fcLocked ini (pageAddr page) = false)
include hl

theorem doFcCfgWrite_invalid (hv : fcOk v.toNat = false) : doFcCfgWrite ini page v s = s.inc (pageAddr page) FC_STAT.total := by
  simp [doFcCfgWrite, h, hl, hv]

theorem doFcCfgWrite_valid (hv : fcOk v.toNat = true) : ∃ start : Nat,
    doFcCfgWrite ini page v s =
      (s.fcTaken (pageAddr page) (slMerge (pageAddr page + 8) (s.reg (pageAddr page + 8)) v.toNat)).setWindow (pageAddr page) start := by
  simp only [doFcCfgWrite, h, hl, hv]
  exact ⟨_, rfl⟩

/-- What an invalid value leaves: the word, and total counted. -/
theorem doFcCfgWrite_invalid_total (hv : fcOk v.toNat = false) :
    (doFcCfgWrite ini page v s).get (pageAddr page) FC_STAT.total = min 0xFFFF (s.get (pageAddr page) FC_STAT.total + 1) ∧
      RegsOnly [pageAddr page + 9] s (doFcCfgWrite ini page v s) := by
  rw [doFcCfgWrite_invalid h hl hv]
  refine ⟨?_, (RegsOnly.refl s _).inc (by simp)⟩
  rw [State.get_inc_same _ _ _ (by decide) (by decide)]
  simp only [satN]
  split <;> omega

/-- What a valid value leaves: every field of FC_CFG taken, cur and prev cleared, the rest of the page kept. -/
theorem doFcCfgWrite_valid_words (hv : fcOk v.toNat = true) : ∃ t, doFcCfgWrite ini page v s = t ∧
    (∀ f ∈ [FC_CFG.enable, FC_CFG.action, FC_CFG.n, FC_CFG.w], t.get (pageAddr page) f = fldGet v.toNat f) ∧
    t.get (pageAddr page) FC_STAT.cur = 0 ∧ t.get (pageAddr page) FC_STAT.prev = 0 ∧
    t.get (pageAddr page) FC_STAT.total = s.get (pageAddr page) FC_STAT.total ∧
    t.get (pageAddr page) FC_STAT.lasting = s.get (pageAddr page) FC_STAT.lasting ∧
    (∀ a, a ≠ pageAddr page + 8 → a ≠ pageAddr page + 9 → t.regW a = s.regW a) ∧
    t = { s with regs := t.regs, fcStart := t.fcStart } := by
  have ha : (pageAddr page + 8) % 0x100 = 8 := pageAddr_add_mod page (by decide)
  obtain ⟨start, hdo⟩ := doFcCfgWrite_valid h hl hv
  obtain ⟨hcur, hprev, htotal, hlasting⟩ :=
    s.fcTaken_stat (pageAddr page) (slMerge (pageAddr page + 8) (s.reg (pageAddr page + 8)) v.toNat)
  obtain ⟨hwords, hrest⟩ := s.fcTaken_regsOnly (pageAddr page) (slMerge (pageAddr page + 8) (s.reg (pageAddr page + 8)) v.toNat)
  rw [hdo]
  generalize hn : slMerge (pageAddr page + 8) (s.reg (pageAddr page + 8)) v.toNat = n at *
  have hwindow := (s.fcTaken (pageAddr page) n).get_setWindow (pageAddr page) (pageAddr page) start
  refine ⟨_, rfl, fun f hf => ?_, (hwindow _).trans hcur, (hwindow _).trans hprev, (hwindow _).trans htotal,
    (hwindow _).trans hlasting, fun a h8 h9 => hwords a (by simp [h8, h9]), ?_⟩
  · have hoff : f.off = 8 := by fin_cases hf <;> rfl
    subst hn
    exact ((hwindow f).trans <| s.fcTaken_cfg _ _ (slMerge_fcCfg_lt ha _ (s.reg_lt _)) f hoff).trans (fldGet_slMerge_fcCfg ha _ _ f hf)
  · unfold State.setWindow
    rw [hrest]

end

theorem fcOk_iff (v : Nat) :
    fcOk v = true ↔ fldGet v FC_CFG.n ≠ 0 ∧ fldGet v FC_CFG.w ≤ 20 ∧ fldGet v FC_CFG.action < 5 := by
  simp only [fcOk, Bool.and_eq_true, decide_eq_true_eq, and_assoc, Nat.one_le_iff_ne_zero]

end Sys2Proof.Machine

namespace Sys2Proof

open Machine

/-- Settles O53: the two bit fields after an event, and PAGE_EVEN as a plain write. -/
theorem eventsSetTheirBits : Obligations.EventsSetTheirBits := by
  refine ⟨fun s p k hk => ?_, fun s ini page v h => ?_⟩
  · rw [s.get_ev_ev p hk, s.get_ev_evpend p hk]
    refine ⟨by simp [bitN_setBitN], fun j _ hj => by simp [bitN_setBitN, hj], fun he => by simp [he, bitN_setBitN],
      fun j _ hj => ?_, fun he => by simp [he]⟩
    split
    · simp [bitN_setBitN, hj]
    · rfl
  · refine ⟨_, exec_registerWrite_header h (by decide) s ini v, ?_⟩
    rw [s.pageWrite_pageEven ini page v h]
    refine (RegsOnly.plainWrite s ini _ _).get ?_
    rw [pageOf_pageAddr_add _ (by decide), lockPage_of_hasHeader h]
    simp

/-- Settles O54: the two outcomes of an FC_CFG write that no lock refuses. -/
theorem faultCounterConfiguration : Obligations.FaultCounterConfiguration := by
  refine ⟨fun s ini page v h hl hn hw hact => ?_, fun s ini page v h hl hbad => ?_⟩
  · obtain ⟨t, ht, hcfg, hcur, hprev, htotal, hlasting, hwords, hrest⟩ :=
      doFcCfgWrite_valid_words h hl ((fcOk_iff _).mpr ⟨hn, hw, hact⟩)
    exact ⟨t, congrArg Host.Outcome.next ht, hcfg _ (by simp), hcfg _ (by simp), hcfg _ (by simp), hcfg _ (by simp), hcur, hprev,
      htotal, hlasting, hwords, by rw [hrest], by rw [hrest]⟩
  · have hv : fcOk v.toNat = false := by
      rw [Bool.eq_false_iff, ne_eq, fcOk_iff]
      omega
    obtain ⟨htotal, hregs⟩ := doFcCfgWrite_invalid_total h hl hv
    exact ⟨_, rfl, hregs.1 _ (by simp), htotal, hregs⟩

end Sys2Proof
end

section
/-! PROOF. The fault counter: its window edge, its clear, a count, and the actions that a lasting class runs. -/

namespace Sys2Proof.Machine

/-! FC_WINDOW_EDGE and FAULT_CLEAR. -/

theorem doFcWindowEdge_due {s : State} {page : Nat} (h : (blkOf (pageAddr page)).hasHeader = true)
    (h1 : blkOf (pageAddr page) ≠ .mem1) (h2 : blkOf (pageAddr page) ≠ .mem2) (hd : s.windowDue (pageAddr page) = true) :
    doFcWindowEdge page s =
      ((s.put (pageAddr page) FC_STAT.prev (s.get (pageAddr page) FC_STAT.cur)).put (pageAddr page) FC_STAT.cur 0).setWindow
        (pageAddr page) (s.t64 0) := by
  simp only [doFcWindowEdge, h, hd, Bool.and_self, if_true]

theorem State.windowEdge_stat (s : State) (p : Nat) :
    ((s.put p FC_STAT.prev (s.get p FC_STAT.cur)).put p FC_STAT.cur 0).get p FC_STAT.prev = s.get p FC_STAT.cur ∧
    ((s.put p FC_STAT.prev (s.get p FC_STAT.cur)).put p FC_STAT.cur 0).get p FC_STAT.cur = 0 ∧
    ((s.put p FC_STAT.prev (s.get p FC_STAT.cur)).put p FC_STAT.cur 0).get p FC_STAT.total = s.get p FC_STAT.total ∧
    ((s.put p FC_STAT.prev (s.get p FC_STAT.cur)).put p FC_STAT.cur 0).get p FC_STAT.lasting = s.get p FC_STAT.lasting := by
  have hcur : s.get p FC_STAT.cur % 2 ^ (15 + 1 - 8) = s.get p FC_STAT.cur := Nat.mod_eq_of_lt (s.get_lt p FC_STAT.cur)
  simp (disch := simp) only [State.get_put_field, State.get_put_same, hcur, Nat.zero_mod, and_self]

/-- The words of a fault counter cleared (R43). -/
def State.fcCleared (s : State) (p : Nat) : State :=
  ((s.put p FC_STAT.lasting 0).put p FC_STAT.cur 0).put p FC_STAT.prev 0

theorem State.fcCleared_regsOnly (s : State) (p : Nat) : RegsOnly [p + 9] s (s.fcCleared p) :=
  (((RegsOnly.refl s _).put _ (by simp)).put _ (by simp)).put _ (by simp)

theorem State.fcCleared_stat (s : State) (p : Nat) :
    (s.fcCleared p).get p FC_STAT.lasting = 0 ∧ (s.fcCleared p).get p FC_STAT.cur = 0 ∧
      (s.fcCleared p).get p FC_STAT.prev = 0 ∧ (s.fcCleared p).get p FC_STAT.total = s.get p FC_STAT.total := by
  unfold State.fcCleared
  simp (disch := simp) only [State.get_put_field, State.get_put_same, Nat.zero_mod, and_self]

theorem doFaultClear_unblocked {s : State} {page : Nat} (h : (blkOf (pageAddr page)).hasHeader = true)
    (hb : pageAddr page ∉ s.blocked) (counted : Bool) :
    doFaultClear page counted s =
      if counted then (s.fcCleared (pageAddr page)).fc (pageAddr page) else s.fcCleared (pageAddr page) := by
  have hb' : pageAddr page ∉ (s.fcCleared (pageAddr page)).blocked := by
    rw [(s.fcCleared_regsOnly (pageAddr page)).2]; exact hb
  simp only [doFaultClear, h, if_true]
  rw [← State.fcCleared, if_neg hb']

/-! One count. -/

section
variable (s : State) (p : Nat)

theorem State.fcBump_off (h : s.get p FC_CFG.enable = 0) : s.fcBump p = s := by
  rw [State.fcBump, if_neg (by omega)]

theorem State.fcBump_on (h : s.get p FC_CFG.enable = 1) : s.fcBump p = (s.inc p FC_STAT.cur).inc p FC_STAT.total := by
  rw [State.fcBump, if_pos h]

theorem State.fcBump_regsOnly : RegsOnly [p + 9] s (s.fcBump p) := by
  unfold State.fcBump
  split
  · exact ((RegsOnly.refl s _).inc (by simp)).inc (by simp)
  · exact RegsOnly.refl s _

theorem satN_eq_min (m n : Nat) : satN m n = min m n := by
  unfold satN
  split <;> omega

theorem State.fcBump_stat (h : s.get p FC_CFG.enable = 1) :
    (s.fcBump p).get p FC_STAT.cur = min 255 (s.get p FC_STAT.cur + 1) ∧
      (s.fcBump p).get p FC_STAT.total = min 0xFFFF (s.get p FC_STAT.total + 1) := by
  have htotal : (s.inc p FC_STAT.cur).get p FC_STAT.total = s.get p FC_STAT.total :=
    State.get_put_field _ _ _ _ _ _ (by decide) (by decide) (by decide) (by decide)
  rw [s.fcBump_on p h]
  constructor
  · rw [State.inc, State.get_put_field _ _ _ _ _ _ (by decide) (by decide) (by decide) (by decide),
      s.get_inc_same _ _ (by decide) (by decide), satN_eq_min]
    rfl
  · rw [State.get_inc_same _ _ _ (by decide) (by decide), htotal, satN_eq_min]
    rfl

theorem State.fcStep_of_not {blk : State → Nat → State} (h : ¬(s.get p FC_CFG.enable = 1 ∧ s.get p FC_STAT.lasting = 0 ∧
      s.get p FC_CFG.n ≤ (s.fcBump p).get p FC_STAT.cur + (s.fcBump p).get p FC_STAT.prev)) :
    s.fcStepBy blk p = (s.fcBump p, false) := by
  simp only [State.fcStepBy]
  rw [if_neg h]

theorem State.fcStep_of_lasting {blk : State → Nat → State} (h : s.get p FC_CFG.enable = 1 ∧ s.get p FC_STAT.lasting = 0 ∧
      s.get p FC_CFG.n ≤ (s.fcBump p).get p FC_STAT.cur + (s.fcBump p).get p FC_STAT.prev) :
    s.fcStepBy blk p = (((s.fcBump p).put p FC_STAT.lasting 1).fcActionBy blk p, true) := by
  simp only [State.fcStepBy]
  rw [if_pos h]

theorem State.fc_of_not (h : ¬(s.get p FC_CFG.enable = 1 ∧ s.get p FC_STAT.lasting = 0 ∧
      s.get p FC_CFG.n ≤ (s.fcBump p).get p FC_STAT.cur + (s.fcBump p).get p FC_STAT.prev)) : s.fc p = s.fcBump p := by
  simp [State.fc, State.fcBy, s.fcStep_of_not p h]

end

/-! Blocking the outputs of a page keeps the blocks that stand (R41). -/

/-- The outputs of a page stand blocked. -/
def State.Blocks (q : Nat) (s : State) : Prop := q ∈ s.blocked

section
variable {q : Nat} {s t : State} (h : s.Blocks q)
include h

/-- The same blocks, whatever the other parts are. -/
theorem State.Blocks.same {pending now cyc regs mem crs core task innk time prism prof pwm port fbk ale pipe stream holds envBlk
      envNotify gateEn wire heldPosts posted srstBusy gating held slLocked olSealed fcNotify fcStart jumpAt logq logAt dscrub
      scrubPos logScanned mwq porter ring eth isl clk console rdata freeN} :
    (State.mk pending now cyc regs mem crs core task innk time prism prof pwm port fbk ale pipe stream holds envBlk envNotify
      gateEn wire heldPosts posted s.blocked srstBusy gating held slLocked olSealed fcNotify fcStart jumpAt logq logAt dscrub
      scrubPos logScanned mwq porter ring eth isl clk console rdata freeN).Blocks q := h

theorem State.Blocks.ite {c : Prop} [Decidable c] (h' : t.Blocks q) : (if c then s else t).Blocks q := by
  split <;> assumption

theorem State.Blocks.put {p f v} : (s.put p f v).Blocks q := h.same
theorem State.Blocks.setPr {ch r} : (s.setPr ch r).Blocks q := h.same
theorem State.Blocks.inc {p f} : (s.inc p f).Blocks q := h.put
theorem State.Blocks.offerPost {q0} : (s.offerPost q0).Blocks q := (h.ite h.same).ite h.same
theorem State.Blocks.pagePost {p tag} : (s.pagePost p tag).Blocks q := h.offerPost
theorem State.Blocks.setPend {p bits} : (s.setPend p bits).Blocks q := h.put.pagePost.same.ite h.put
theorem State.Blocks.ev {p bit} : (s.ev p bit).Blocks q := h.put.setPend.ite h.put
theorem State.Blocks.raiseNmi {c src} : (s.raiseNmi c src).Blocks q := h.put.put
theorem State.Blocks.raiseNmiAll {src} : (s.raiseNmiAll src).Blocks q :=
  overAll_induct (Q := State.Blocks q) h fun _ _ h' => h'.raiseNmi

theorem State.Blocks.stopAtOnce {ch hres} {cnt : State → State} (hk : ∀ t : State, t.Blocks q → (cnt t).Blocks q) :
    (s.stopAtOnce ch hres cnt).Blocks q := by
  unfold State.stopAtOnce
  extract_lets p r k v r1 r2 s1 lost s2
  have h1 : s1.Blocks q := h.setPr.put.put.put.ev
  have h2 : s2.Blocks q := h1.put.put.ite h1
  exact (hk _ h2.put.put.ev).ite h2

theorem State.Blocks.noteBlocked {p} : (s.noteBlocked p).Blocks q := by
  unfold State.Blocks State.noteBlocked
  dsimp only
  split
  · exact h
  · exact List.mem_cons_of_mem p h

theorem State.Blocks.blockPlain {p} : (s.blockPlain p).Blocks q := by
  unfold State.blockPlain
  split
  exacts [h.noteBlocked.stopAtOnce fun _ h' => h', h.noteBlocked]

theorem State.Blocks.fcBump {p} : (s.fcBump p).Blocks q := h.inc.inc.ite h

theorem State.Blocks.fcStepPlain {p} : (s.fcStepBy State.blockPlain p).1.Blocks q := by
  have h1 : ((s.fcBump p).put p FC_STAT.lasting 1).Blocks q := h.fcBump.put
  simp only [State.fcStepBy]
  split
  · exact h1.pagePost.ite (h1.raiseNmiAll.ite (h1.same.ite (h1.blockPlain.ite h1)))
  · exact h.fcBump

theorem State.Blocks.pushLog {r} : (s.pushLog r).Blocks q :=
  have hlost : ∀ {t : State}, t.Blocks q → t.logLost.Blocks q := fun ht => ht.inc.ev
  have h1 := (hlost h).fcStepPlain (p := pMem 3)
  h.ite (h.same.ite ((hlost h1).fcBump.ite h1))

theorem State.Blocks.fcPlain {p} : (State.fcBy State.blockPlain s p).Blocks q :=
  have h1 := h.fcStepPlain (p := p)
  h1.pushLog.ite h1

theorem State.Blocks.padCause {ch} : (s.padCause ch).Blocks q :=
  (h.stopAtOnce fun _ h' => h'.fcPlain).ite h

theorem State.Blocks.loseCore {c} : (s.loseCore c).Blocks q := h.ite h.same

end

theorem State.noteBlocked_blocks (s : State) (p : Nat) : (s.noteBlocked p).Blocks p := by
  unfold State.Blocks State.noteBlocked
  dsimp only
  split
  · assumption
  · exact List.mem_cons_self

/-- Action 4 blocks the outputs of its page. -/
theorem State.blockOutputs_blocks (s : State) (p : Nat) : (s.blockOutputs p).Blocks p := by
  have h0 := s.noteBlocked_blocks p
  unfold State.blockOutputs
  extract_lets s0 _
  split
  · exact h0.stopAtOnce fun _ h' => h'.fcPlain
  · exact h0.same
  iterate 3 exact h0.padCause
  · exact overAll_induct (Q := State.Blocks p) h0 fun _ _ h' => h'.padCause
  · exact overAll_induct (Q := State.Blocks p) h0 fun _ _ h' => h'.same
  · exact h0.loseCore
  · exact h0

/-! Action 2 raises the NMI on every core. -/

/-- The NMI of a core pends with a source. -/
def State.NmiPends (c src : Nat) (s : State) : Prop := s.get (pCore c) CORE_NMI.pend = 1 ∧ s.get (pCore c) CORE_NMI.src = src

theorem State.raiseNmi_pends (s : State) (c : Nat) {src : Nat} (hs : src < 4) : (s.raiseNmi c src).NmiPends c src := by
  have hsrc : src % 4 = src := Nat.mod_eq_of_lt hs
  unfold State.NmiPends State.raiseNmi
  simp (disch := simp) [State.get_put_field, State.get_put_same, hsrc]

theorem State.raiseNmi_pends_other (s : State) {c k src : Nat} (h : s.NmiPends c src) (hk : k ≠ c) (v : Nat) :
    (s.raiseNmi k v).NmiPends c src := by
  have hne : pCore c + 0x14 ≠ pCore k + 0x14 := by unfold pCore; omega
  have hother : ∀ f : Fld, f.off = 0x14 → (s.raiseNmi k v).get (pCore c) f = s.get (pCore c) f := fun f hf => by
    unfold State.raiseNmi
    rw [State.get_put_word _ _ _ _ _ _ (by rwa [hf]), State.get_put_word _ _ _ _ _ _ (by rwa [hf])]
  exact ⟨(hother _ rfl).trans h.1, (hother _ rfl).trans h.2⟩

/-- What a turn of a loop establishes and every turn keeps holds after the loop. -/
theorem overAll_of_mem {Q : State → Prop} {f : Nat → State → State} {c : Nat} (hc : ∀ t, Q (f c t))
    (hk : ∀ k t, Q t → Q (f k t)) {l : List Nat} (s : State) (h : c ∈ l) : Q (overAll l s f) := by
  induction l generalizing s with
  | nil => exact absurd h List.not_mem_nil
  | cons k r ih =>
    rcases List.mem_cons.mp h with rfl | h
    · exact overAll_induct (s := f c s) (hc s) hk
    · exact ih _ h

theorem State.raiseNmiAll_pends (s : State) {c src : Nat} (hc : c < 64) (hs : src < 4) : (s.raiseNmiAll src).NmiPends c src := by
  refine overAll_of_mem (fun t => t.raiseNmi_pends c hs) (fun k t ht => ?_) s (List.mem_range.mpr hc)
  by_cases hk : k = c
  · exact hk ▸ t.raiseNmi_pends k hs
  · exact t.raiseNmi_pends_other ht hk src

/-! The actions (R40). -/

section
variable (s : State) (p : Nat)

theorem State.fcAction_of_zero (h : s.get p FC_CFG.action = 0) : s.fcAction p = s := by simp [State.fcAction, State.fcActionBy, h]

theorem State.fcAction_of_one (h : s.get p FC_CFG.action = 1) : s.fcAction p = s.pagePost p 1 := by
  simp [State.fcAction, State.fcActionBy, h]

theorem State.fcAction_of_two (h : s.get p FC_CFG.action = 2) : s.fcAction p = s.raiseNmiAll 1 := by
  simp [State.fcAction, State.fcActionBy, h]

theorem State.fcAction_of_three (h : s.get p FC_CFG.action = 3) : s.fcAction p = { s with fcNotify := s.fcNotify ++ [p] } := by
  simp [State.fcAction, State.fcActionBy, h]

theorem State.fcAction_of_four (h : s.get p FC_CFG.action = 4) : s.fcAction p = s.blockOutputs p := by
  simp [State.fcAction, State.fcActionBy, h]

end

end Sys2Proof.Machine

namespace Sys2Proof

open Machine

/-- Settles O19: the write of FC_CFG, the window edge, the clear, one count, and each action. -/
theorem faultCounters : Obligations.FaultCounters := by
  refine ⟨?invalid, ?valid, ?locked, ?edge, ?clear, ?off, ?count, ?action, ?nmi⟩
  case invalid =>
    intro s ini page v h hl hv
    exact ⟨_, rfl, doFcCfgWrite_invalid_total h hl hv⟩
  case valid =>
    intro s ini page v h hl hv
    obtain ⟨t, ht, hcfg, hstat⟩ := doFcCfgWrite_valid_words h hl hv
    exact ⟨t, congrArg Host.Outcome.next ht, hcfg _ (by simp), hcfg _ (by simp), hcfg _ (by simp), hcfg _ (by simp), hstat⟩
  case locked =>
    intro s ini page v h hl
    exact ⟨_, rfl, doFcCfgWrite_locked h hl⟩
  case edge =>
    intro s page h h1 h2 hd
    have hwindow := fun t : State => t.get_setWindow (pageAddr page) (pageAddr page) (s.t64 0)
    obtain ⟨hprev, hcur, htotal, hlasting⟩ := s.windowEdge_stat (pageAddr page)
    obtain ⟨hwords, hrest⟩ : RegsOnly [pageAddr page + 9] s
        ((s.put (pageAddr page) FC_STAT.prev (s.get (pageAddr page) FC_STAT.cur)).put (pageAddr page) FC_STAT.cur 0) :=
      ((RegsOnly.refl s _).put _ (by simp)).put _ (by simp)
    refine ⟨_, congrArg Host.Outcome.next (doFcWindowEdge_due h h1 h2 hd), (hwindow _ _).trans hprev, (hwindow _ _).trans hcur,
      (hwindow _ _).trans htotal, (hwindow _ _).trans hlasting, fun a ha => hwords a (by simp [ha]), ?_⟩
    unfold State.setWindow
    rw [hrest]
  case clear =>
    intro s page h hb
    obtain ⟨hlasting, hcur, hprev, htotal⟩ := s.fcCleared_stat (pageAddr page)
    exact ⟨_, congrArg Host.Outcome.next (doFaultClear_unblocked h hb false), hlasting, hcur, hprev, htotal,
      s.fcCleared_regsOnly _, congrArg Host.Outcome.next (doFaultClear_unblocked h hb true)⟩
  case off =>
    intro s p h
    rw [s.fc_of_not p (by omega), s.fcBump_off p h]
  case count =>
    intro s p h
    obtain ⟨hcur, htotal⟩ := s.fcBump_stat p h
    exact ⟨hcur, htotal, s.fcBump_regsOnly p, fun hl => s.fc_of_not p (by omega), fun hn => s.fc_of_not p (by omega),
      fun hl hn => s.fcStep_of_lasting p ⟨h, hl, hn⟩⟩
  case action =>
    intro s p
    exact ⟨s.fcAction_of_zero p, s.fcAction_of_one p, s.fcAction_of_three p,
      fun h => by rw [s.fcAction_of_four p h]; exact s.blockOutputs_blocks p⟩
  case nmi =>
    intro s p h c hc
    rw [s.fcAction_of_two p h]
    exact s.raiseNmiAll_pends hc (by decide)

end Sys2Proof
end

section
/-! PROOF. The state after reset, and what a read of PAGE_CTL shows after a module reset. -/

namespace Sys2Proof.Machine

/-! The state after reset. -/

theorem State.reset_regW (a : Nat) : State.reset.regW a = resetWord a := rfl

theorem State.reset_cr (c i : Nat) (hi : i < 128) : State.reset.cr c i = if c = 0 ∧ i = rPC then 0x3000 else 0 := by
  have hslot : 55 = 128 * c + i ↔ c = 0 ∧ i = rPC := by unfold rPC; omega
  simp only [State.cr, State.reset, Tab.get, Tab.find, hslot]
  split <;> rfl

/-! A read of PAGE_CTL. -/

section
variable {q : Nat} (h : (blkOf (pageAddr q)).hasHeader = true)
include h

/-- A read of PAGE_CTL by a core shows the word as it is held. -/
theorem State.busRead_pageCtl (s : State) (ini : Nat) :
    (s.busRead ini (pageAddr q + 1)).1 = some (word (s.reg (pageAddr q + 1))) := by
  have hoff : (pageAddr q + 1) % 0x100 = 1 := pageAddr_add_mod q (by decide)
  have hg := (s.takes_of_not_blockWord (blockWord_header h (o := 1) (by decide))).2
  have ht := targetOf_header h (o := 1) (by decide)
  rw [blkOf_pageAddr] at h
  have hview : s.viewWord (pageAddr q + 1) = s.reg (pageAddr q + 1) := by
    simp [State.viewWord, blkOf_pageAddr_add q (o := 1), h, hoff, State.headerView]
  simp only [State.busRead, ht, hg, Bool.false_eq_true, if_false]
  rw [← hview]
  simp only [State.pageRead, blkOf_pageAddr_add q (show 1 < 0x100 by decide), hoff]
  split
  · rename_i hb; rw [hb] at h; exact absurd h (by decide)
  · rename_i hb; rw [hb] at h; exact absurd h (by decide)
  · rfl
  · rfl
  · simp [State.fbkRead, inRange]
  · simp [State.profRead, inRange]
  · rfl

omit h in
theorem Blk.offset_of_hasHeader {b : Blk} (h : b.hasHeader = true) (a : Nat) : b.offset a = a % 0x100 := by
  unfold Blk.offset
  split
  iterate 4 exact absurd h (by decide)
  rfl

theorem resetWord_pageCtl : resetWord (pageAddr q + 1) = word (b2n (blkOfIndex q).enReset) := by
  rw [blkOf_pageAddr] at h
  have hoff : (blkOfIndex q).offset (pageAddr q + 1) = 1 :=
    (Blk.offset_of_hasHeader h _).trans (pageAddr_add_mod q (by decide))
  simp [resetWord, blkOf_pageAddr_add q (o := 1), hoff, h]

end

/-- The number of the core whose page a block is. -/
def Blk.coreNo (b : Blk) : Option Nat :=
  match b with
  | .core c => some c
  | _ => none

theorem blkOfIndex_eq_core {q c : Nat} (h : blkOfIndex q = .core c) : q = 0x2000 + c := by
  have hno : (blkOfIndex q).coreNo = some c := by rw [h]; rfl
  simp only [blkOfIndex, apply_ite Blk.coreNo] at hno
  simp only [Blk.coreNo, ite_self, Option.ite_none_left_eq_some, Option.ite_none_right_eq_some, Option.some.injEq,
    inRange, Bool.and_eq_true, decide_eq_true_eq] at hno
  omega

/-- The blocks whose pages are enabled after reset are the cores' first and those of five types (R20). -/
theorem Blk.enReset_iff (q : Nat) :
    (blkOfIndex q).enReset = true ↔ (blkOfIndex q).code ∈ [0x001, 0x002, 0x003, 0x005, 0x006] ∨ q = 0x2000 := by
  by_cases hq : q = 0x2000
  · subst hq
    decide
  · have hcore : ∀ c, blkOfIndex q = .core c → c ≠ 0 := fun c hc h0 => hq (by rw [blkOfIndex_eq_core hc, h0])
    generalize blkOfIndex q = b at hcore ⊢
    cases b <;> simp [Blk.enReset, Blk.code, hq]
    simpa using hcore _ rfl

theorem State.doModuleReset_pageCtl (rec_ svc : Bool) (s : State) (q : Nat) :
    (doModuleReset rec_ svc s).reg (pageAddr q + 1) = (resetWord (pageAddr q + 1)).toNat := by
  have hne : pageAddr q + 1 ≠ pSys + 0x1A := by unfold pageAddr pageSpace pSys; omega
  exact State.reg_setReg_ne _ _ hne

end Sys2Proof.Machine

namespace Sys2Proof

open Machine

/-- Settles O55, a fact for each part of the state. -/
theorem resetState : Obligations.ResetState := by
  refine ⟨rfl, rfl, State.reset_regW, fun _ => rfl, State.reset_cr, rfl, rfl, rfl, rfl, ?core, ?fab, ?prun, ?mrun, ?valid, ?island,
    ?boot, ?cause, ?ports, ?brakes, fun _ _ => rfl⟩
  case ports | brakes => decide +kernel
  all_goals decide

/-- Settles O52: after a module reset PAGE_CTL holds its reset value, which R20 gives, and a read shows it. -/
theorem enabledPagesAfterReset : Obligations.EnabledPagesAfterReset := by
  intro s t rec_ svc page ht hp h
  obtain rfl : doModuleReset rec_ svc s = t := Host.Outcome.next.inj ht
  refine ⟨_, State.busRead_pageCtl h _ 0, ?_⟩
  rw [State.doModuleReset_pageCtl, resetWord_pageCtl h, blkOf_pageAddr]
  simp only [← Blk.enReset_iff]
  cases (blkOfIndex page).enReset <;> rfl

end Sys2Proof
end

section
/-! PROOF. The time unit's snapshots, inputs and outputs, link delays and transmit timestamp queues. -/

namespace Sys2Proof.Machine

theorem Tab.rd_wr_same {α : Type} [DecidableEq α] [Inhabited α] (t : Tab α) (k : Nat) (v : α) : Tab.rd (Tab.wr t k v) k = v := by
  simp [Tab.rd, Tab.wr, Tab.get_set_same]

/-- A read that its block takes has its effect. -/
theorem State.readWord_of_takes {s : State} {a : Nat} (h : s.takes a) (k : State → State) : s.readWord a k = k s := by
  obtain ⟨hg, hh⟩ := h
  simp [State.readWord, hg, hh]

/-- A field put reads as put when the value fits. -/
theorem State.get_put_of_lt (s : State) (p : Nat) (f : Fld) {v : Nat} (h : f.lo ≤ f.hi) (h36 : f.hi < 36)
    (hv : v < 2 ^ (f.hi + 1 - f.lo)) : (s.put p f v).get p f = v := by
  rw [s.get_put_same p f v h h36, Nat.mod_eq_of_lt hv]

theorem t72Hi_lt (v : Nat) : t72Hi v < 2 ^ 36 := Nat.mod_lt _ (by decide)

theorem t72Lo_lt (v : Nat) : t72Lo v < 2 ^ 36 := (Nat.mod_lt _ (by decide)).trans (by decide)

/-! Snapshots (R80). -/

/-- The three words of a snapshot. -/
def State.snapWords (s : State) (a b : Nat) : State :=
  ((s.setReg a (t72Hi (s.t64 b))).setReg (a + 1) (t72Lo (s.t64 b))).setReg (a + 2) (s.stampWord b 0)

theorem State.snapWords_reg (s : State) (a b : Nat) :
    (s.snapWords a b).reg a = t72Hi (s.t64 b) ∧ (s.snapWords a b).reg (a + 1) = t72Lo (s.t64 b) ∧
      (s.snapWords a b).reg (a + 2) = s.stampWord b 0 % 2 ^ 36 := by
  unfold State.snapWords
  refine ⟨?_, ?_, State.reg_setReg_same _ _ _⟩
  · rw [State.reg_setReg_ne _ _ (by omega), State.reg_setReg_ne _ _ (by omega), State.reg_setReg_same,
      Nat.mod_eq_of_lt (t72Hi_lt _)]
  · rw [State.reg_setReg_ne _ _ (by omega), State.reg_setReg_same, Nat.mod_eq_of_lt (t72Lo_lt _)]

theorem State.snapWords_regsOnly (s : State) (a b : Nat) : RegsOnly [a, a + 1, a + 2] s (s.snapWords a b) := by
  unfold State.snapWords
  exact (((RegsOnly.refl s _).setReg_mem _ (by simp)).setReg_mem _ (by simp)).setReg_mem _ (by simp)

/-- What a new snapshot returns, and the note that it has not been read to its third word. -/
def State.snapNoted (s : State) (k : Nat) (r : Word) : State :=
  { s with rdata := r, time := { s.time with snapBusy := k :: s.time.snapBusy } }

theorem State.regW_snapNoted (s : State) (k : Nat) (r : Word) (a : Nat) : (s.snapNoted k r).regW a = s.regW a := rfl

theorem State.reg_snapNoted (s : State) (k : Nat) (r : Word) (a : Nat) : (s.snapNoted k r).reg a = s.reg a := rfl

theorem State.snapNoted_note (s : State) (k : Nat) (r : Word) :
    (s.snapNoted k r).rdata = r ∧ k ∈ (s.snapNoted k r).time.snapBusy :=
  ⟨rfl, List.mem_cons_self⟩

theorem doSnapshotRead_new {s : State} {c b : Nat} (hc : c < 64) (hb : b < 5) (h : 8 * c + b ∉ s.time.snapBusy) :
    doSnapshotRead c b s = (s.snapWords (pSnap c + 3 * b) b).snapNoted (8 * c + b) (word (t72Hi (s.t64 b))) := by
  simp only [doSnapshotRead]
  rw [if_neg (by omega), if_neg h, ← State.snapWords, ← State.snapNoted]

theorem doSnapshotRead_busy {s : State} {c b : Nat} (hc : c < 64) (hb : b < 5) (h : 8 * c + b ∈ s.time.snapBusy) :
    doSnapshotRead c b s = { s with rdata := s.regW (pSnap c + 3 * b) } := by
  simp only [doSnapshotRead]
  rw [if_neg (by omega), if_pos h]

/-! The 1PPS input (R75). -/

/-- The stamp of a marking edge, and its event. -/
def State.ppsStamped (s : State) (tap : Nat) : State :=
  (((s.put pTime0 TIME_PPS_IN_HI.sec (t72Hi (s.t64At (ctrOf (s.get pTime0 TIME_IN_CTL.tb)) tap))).put
    pTime0 TIME_PPS_IN_LO.frac (t72Lo (s.t64At (ctrOf (s.get pTime0 TIME_IN_CTL.tb)) tap))).put
    pTime0 TIME_PPS_IN_ST.st (s.stampWord (ctrOf (s.get pTime0 TIME_IN_CTL.tb)) 0)).ev pTime0 5

/-- An event that is not enabled only sets its PAGE_EV bit. -/
theorem State.ev_of_disabled (s : State) (p k : Nat) (h : bitN (s.get p PAGE_EVEN.even) k = false) :
    s.ev p k = s.put p PAGE_EV.ev (setBitN (s.get p PAGE_EV.ev) k) := by
  simp [State.ev, h]

/-- An event changes PAGE_EV and PAGE_EVPEND of its page alone. -/
theorem State.reg_ev_ne (s : State) (p k : Nat) {a : Nat} (h3 : a ≠ p + 3) (h5 : a ≠ p + 5) : (s.ev p k).reg a = s.reg a := by
  have hr := s.ev_regs p k
  split at hr
  · rw [State.reg_of_regs hr, State.reg_put_ne _ _ _ _ _ h5, State.reg_put_ne _ _ _ _ _ h3]
  · rw [State.reg_of_regs hr, State.reg_put_ne _ _ _ _ _ h3]

theorem State.get_ev_ne (s : State) (p k : Nat) {q : Nat} {f : Fld} (h3 : q + f.off ≠ p + 3) (h5 : q + f.off ≠ p + 5) :
    (s.ev p k).get q f = s.get q f := by
  unfold State.get
  rw [s.reg_ev_ne p k h3 h5]

section
variable (s : State) (tap : Nat) (h : s.get pTime0 PAGE_EVEN.even = 0)
include h

theorem State.ppsStamped_regsOnly : RegsOnly [pTime0 + 3, pTime0 + 0x18, pTime0 + 0x19, pTime0 + 0x1A] s (s.ppsStamped tap) := by
  have hwords : ∀ u v w, RegsOnly [pTime0 + 3, pTime0 + 0x18, pTime0 + 0x19, pTime0 + 0x1A] s
      (((s.put pTime0 TIME_PPS_IN_HI.sec u).put pTime0 TIME_PPS_IN_LO.frac v).put pTime0 TIME_PPS_IN_ST.st w) := fun u v w =>
    (((RegsOnly.refl s _).put _ (by simp)).put _ (by simp)).put _ (by simp)
  unfold State.ppsStamped
  rw [State.ev_of_disabled]
  · exact (hwords _ _ _).put _ (by simp)
  · rw [(hwords _ _ _).get (by simp), h]; rfl

omit h in
theorem State.ppsStamped_get :
    (s.ppsStamped tap).get pTime0 TIME_PPS_IN_HI.sec = t72Hi (s.t64At (ctrOf (s.get pTime0 TIME_IN_CTL.tb)) tap) ∧
    (s.ppsStamped tap).get pTime0 TIME_PPS_IN_LO.frac = t72Lo (s.t64At (ctrOf (s.get pTime0 TIME_IN_CTL.tb)) tap) ∧
    (s.ppsStamped tap).get pTime0 TIME_PPS_IN_ST.st = s.stampWord (ctrOf (s.get pTime0 TIME_IN_CTL.tb)) 0 % 2 ^ 36 ∧
    bitN ((s.ppsStamped tap).get pTime0 PAGE_EV.ev) 5 = true := by
  have hi := t72Hi_lt (s.t64At (ctrOf (s.get pTime0 TIME_IN_CTL.tb)) tap)
  have lo := t72Lo_lt (s.t64At (ctrOf (s.get pTime0 TIME_IN_CTL.tb)) tap)
  unfold State.ppsStamped
  refine ⟨?_, ?_, ?_, ?_⟩
  · rw [State.get_ev_ne _ _ _ (by simp) (by simp), State.get_put_word _ _ _ _ _ _ (by simp),
      State.get_put_word _ _ _ _ _ _ (by simp)]
    exact State.get_put_of_lt _ _ _ (by decide) (by decide) hi
  · rw [State.get_ev_ne _ _ _ (by simp) (by simp), State.get_put_word _ _ _ _ _ _ (by simp)]
    exact State.get_put_of_lt _ _ _ (by decide) (by decide) lo
  · rw [State.get_ev_ne _ _ _ (by simp) (by simp)]
    exact State.get_put_same _ _ _ _ (by decide) (by decide)
  · rw [State.get_ev_ev _ _ (by decide)]
    simp [bitN_setBitN]

end

/-- A marking edge by which no base is measured leaves its stamp and its event. -/
theorem execPpsInEdge_stamped {s : State} {rising : Bool} {tap : Nat} (hen : s.flag pTime0 TIME_IN_CTL.pps_en = true)
    (hr : rising ≠ s.flag pTime0 TIME_IN_CTL.pps_fall)
    (hsrc : ∀ n ∈ [1, 2, 3], s.get (pTb n) TIME_TB_CTL.src ≠ 4 ∧ s.get (pTb n) TIME_TB_CTL.src ≠ 6)
    (he : s.get pTime0 PAGE_EVEN.even = 0) : execPpsInEdge ⟨rising, tap⟩ s = .next (s.ppsStamped tap) := by
  simp only [execPpsInEdge, hen, Bool.true_and, bne_iff_ne, ne_eq, hr, not_false_eq_true, if_true]
  rw [← State.ppsStamped]
  refine congrArg Host.Outcome.next (overAll_eq_self fun n hn => ?_)
  have hpage : ∀ o < 0x100, pTb n + 0x10 ≠ pTime0 + o := fun o ho => by unfold pTb pTime0; omega
  have hkeep : (s.ppsStamped tap).get (pTb n) TIME_TB_CTL.src = s.get (pTb n) TIME_TB_CTL.src :=
    (s.ppsStamped_regsOnly tap he).get (by
      simp only [List.mem_cons, List.not_mem_nil, or_false, not_or]
      exact ⟨hpage _ (by decide), hpage _ (by decide), hpage _ (by decide), hpage _ (by decide)⟩)
  obtain ⟨h4, h6⟩ := hsrc n hn
  rw [hkeep, if_neg h4, if_neg h6]

/-! The 10 MHz input (R56). -/

/-- An edge that only base 1 takes. -/
theorem execTenMhzInEdge_first {s : State} (hen : s.flag pTime0 TIME_IN_CTL.ten_en = true) (h1 : s.get (pTb 1) TIME_TB_CTL.src = 5)
    {u : State}
    (hu : u = { s with freeN := s.freeN + 1 }.tbMeasure 1 (nearestOffset (s.t64At 1 (Config.inputTap s.freeN % 32)) 6400) 1000000)
    (h2 : u.get (pTb 2) TIME_TB_CTL.src < 5) (h3 : u.get (pTb 3) TIME_TB_CTL.src < 5) : execTenMhzInEdge s = .next u := by
  have h1' : State.get { s with freeN := s.freeN + 1 } (pTb 1) TIME_TB_CTL.src = 5 := h1
  have ht : State.t64At { s with freeN := s.freeN + 1 } 1 (Config.inputTap s.freeN % 32) = s.t64At 1 (Config.inputTap s.freeN % 32) := rfl
  simp only [execTenMhzInEdge, hen, if_true, overAll, h1', ht, ← hu]
  have h2' : u.get (pTb 2) TIME_TB_CTL.src ≠ 5 ∧ u.get (pTb 2) TIME_TB_CTL.src ≠ 6 := by omega
  have h3' : u.get (pTb 3) TIME_TB_CTL.src ≠ 5 ∧ u.get (pTb 3) TIME_TB_CTL.src ≠ 6 := by omega
  simp only [h2', h3', if_false]

theorem nearestOffset_spec (t : Nat) {m : Nat} (hm : 0 < m) :
    -(m : Int) < 2 * nearestOffset t m ∧ 2 * nearestOffset t m ≤ m ∧ ((t : Int) + nearestOffset t m) % m = 0 := by
  have hlt : t % m < m := Nat.mod_lt t hm
  have hsub : ((t : Int) - (t % m : Nat)) % m = 0 := by
    rw [Int.natCast_mod, Int.sub_emod, Int.emod_emod, sub_self, Int.zero_emod]
  unfold nearestOffset
  split
  · exact ⟨by omega, by omega, by rwa [← sub_eq_add_neg]⟩
  · exact ⟨by omega, by omega, by
      rw [show (t : Int) + (m - (t % m : Nat)) = (t - (t % m : Nat)) + m by ring, Int.add_emod_right, hsub]⟩

/-! Link delays (R81). -/

theorem unsint_lt (n : Nat) (i : Int) : unsint n i < 2 ^ n := by
  have h : i % 2 ^ n < 2 ^ n := Int.emod_lt_of_pos _ (by positivity)
  have h0 : 0 ≤ i % 2 ^ n := Int.emod_nonneg _ (by positivity)
  unfold unsint
  zify
  rwa [Int.toNat_of_nonneg h0]

theorem nearInt_half {x : Int} (h : x % 2 = 0) : nearInt ((x : Rat) / (2 : Nat)) = x / 2 := by
  have hx : (x : Rat) / (2 : Nat) = ((x / 2 : Int) : Rat) := by
    rw [Int.cast_div (Int.dvd_of_emod_eq_zero h) (by norm_num)]; norm_num
  rw [hx, nearInt, if_pos (Rat.den_intCast _), Rat.num_intCast]

/-- The delays kept of a link, with that of the cycle in front. -/
def State.linkDelays (s : State) (u : Nat) (t1 t2 t3 t4 : Int) : List Int :=
  (((t4 - s.getI (pTsu u) TIME_TSU_ING_ADJ.adj) - (t1 + s.getI (pTsu u) TIME_TSU_EGR_ADJ.adj) - (t3 - t2))
    :: Tab.rd s.time.linkHist u).take 16

/-- The delays of a link kept. -/
def State.setLinkHist (s : State) (u : Nat) (l : List Int) : State :=
  { s with time := { s.time with linkHist := Tab.wr s.time.linkHist u l } }

theorem State.linkHist_setLinkHist (s : State) (u : Nat) (l : List Int) : Tab.rd (s.setLinkHist u l).time.linkHist u = l :=
  Tab.rd_wr_same _ _ _

theorem execLinkDelayMeasure_link {s : State} {u : Nat} (hu : u < 10) (t1 t2 t3 t4 : Int) :
    execLinkDelayMeasure u t1 t2 t3 t4 s = .next
      ((s.setLinkHist u (s.linkDelays u t1 t2 t3 t4)).putI (pTsu u) TIME_TSU_LINK.m
        (nearInt (((s.linkDelays u t1 t2 t3 t4).foldl (fun a x => a + x) 0 : Int) / (2 * (s.linkDelays u t1 t2 t3 t4).length : Nat)))) := by
  simp only [execLinkDelayMeasure, State.linkDelays, State.setLinkHist]
  rw [if_neg (by omega)]

/-- A first delay, of stamps that no adjustment moves, is shown halved. -/
theorem State.linkDelays_first {s : State} {u : Nat} {t1 t2 t3 t4 : Int} (hh : Tab.rd s.time.linkHist u = [])
    (hi : s.getI (pTsu u) TIME_TSU_ING_ADJ.adj = 0) (he : s.getI (pTsu u) TIME_TSU_EGR_ADJ.adj = 0) :
    s.linkDelays u t1 t2 t3 t4 = [(t4 - t1) - (t3 - t2)] := by
  simp [State.linkDelays, hh, hi, he]

/-! The transmit timestamp queues (R89). -/

/-- A queue's head record removed, before its words show the next. -/
def State.txqPopped (s : State) (u : Nat) : State :=
  { s with rdata := s.regW (pTsu u + 0x18), time := { s.time with txq := Tab.wr s.time.txq u (Tab.rd s.time.txq u).tail } }

theorem doTxqLoRead_of_lt {s : State} {u : Nat} (hu : u < 12) : doTxqLoRead u s = (s.txqPopped u).txqShow u := by
  simp only [doTxqLoRead, State.txqPopped]
  rw [if_neg (by omega)]

theorem State.txqShow_regsOnly (s : State) (u : Nat) :
    RegsOnly [pTsu u + 0x15, pTsu u + 0x16, pTsu u + 0x17, pTsu u + 0x18] s (s.txqShow u) := by
  unfold State.txqShow
  exact ((((RegsOnly.refl s _).put _ (by simp)).put _ (by simp)).put _ (by simp)).put _ (by simp)

theorem State.txqShow_get (s : State) (u : Nat) :
    (s.txqShow u).get (pTsu u) TIME_TSU_STAT.level = (Tab.rd s.time.txq u).length % 32 ∧
    (s.txqShow u).get (pTsu u) TIME_TSU_TXQ_HI.sec = t72Hi ((Tab.rd s.time.txq u).headD {}).t64 ∧
    (s.txqShow u).get (pTsu u) TIME_TSU_TXQ_LO.frac = t72Lo ((Tab.rd s.time.txq u).headD {}).t64 := by
  unfold State.txqShow
  refine ⟨State.get_put_same _ _ _ _ (by decide) (by decide), ?_, ?_⟩
  · rw [State.get_put_word _ _ _ _ _ _ (by simp), State.get_put_word _ _ _ _ _ _ (by simp)]
    exact State.get_put_of_lt _ _ _ (by decide) (by decide) (t72Hi_lt _)
  · rw [State.get_put_word _ _ _ _ _ _ (by simp)]
    exact State.get_put_of_lt _ _ _ (by decide) (by decide) (t72Lo_lt _)

end Sys2Proof.Machine

namespace Sys2Proof

open Machine

/-- Settles O22, a lemma for each command of the time unit. -/
theorem timeStampsAndOutputs : Obligations.TimeStampsAndOutputs := by
  refine ⟨?snap, ?snapBusy, ?low, ?pps, ?ten, ?invalid, ?ppsOff, ?ppsIn, ?tenOff, ?tenIn, ?nearest, ?link, ?txq⟩
  case snap =>
    intro s c b hc hb h
    obtain ⟨hhi, hlo, hst⟩ := s.snapWords_reg (pSnap c + 3 * b) b
    obtain ⟨hrdata, hbusy⟩ := (s.snapWords (pSnap c + 3 * b) b).snapNoted_note (8 * c + b) (word (t72Hi (s.t64 b)))
    exact ⟨_, congrArg Host.Outcome.next (doSnapshotRead_new hc hb h), (State.reg_snapNoted _ _ _ _).trans hhi,
      (State.reg_snapNoted _ _ _ _).trans hlo, (State.reg_snapNoted _ _ _ _).trans hst, hrdata, hbusy,
      fun a ha => (State.regW_snapNoted _ _ _ _).trans ((s.snapWords_regsOnly (pSnap c + 3 * b) b).1 a ha)⟩
  case snapBusy =>
    intro s c b hc hb h
    exact congrArg Host.Outcome.next (doSnapshotRead_busy hc hb h)
  case low => exact fun s => ⟨rfl, rfl⟩
  case pps =>
    intro s hen hv hb ht
    show execPpsOutput true s = _
    simp [execPpsOutput, hen, hv, hb, ht, pageBlocked]
  case ten =>
    intro s hen hv hb ht
    show execTenMhzOutput true s = _
    simp [execTenMhzOutput, hen, hv, hb, ht, pageBlocked]
  case invalid =>
    intro s h
    show execPpsOutput true s = _
    obtain h | h := h <;> simp [execPpsOutput, h, pageBlocked]
  case ppsOff =>
    intro s rising tap h
    show execPpsInEdge ⟨rising, tap⟩ s = _
    simp [execPpsInEdge, h]
  case ppsIn =>
    intro s rising tap hen hr hsrc he
    obtain ⟨hhi, hlo, hst, hev⟩ := s.ppsStamped_get tap
    exact ⟨_, execPpsInEdge_stamped hen hr hsrc he, hhi, hlo, hst, hev, s.ppsStamped_regsOnly tap he⟩
  case tenOff =>
    intro s h
    show execTenMhzInEdge s = _
    simp [execTenMhzInEdge, h]
  case tenIn =>
    intro s hen h1 _ _ hu
    obtain ⟨h2, h3⟩ := hu _ rfl
    exact execTenMhzInEdge_first hen h1 rfl h2 h3
  case nearest => exact fun t m hm => nearestOffset_spec t hm
  case link =>
    intro s u t1 t2 t3 t4 hu
    refine ⟨_, execLinkDelayMeasure_link hu t1 t2 t3 t4, ?_, fun hh hi he heven => ?_, fun a ha => ?_, rfl⟩
    · rw [State.putI_time, State.linkHist_setLinkHist, State.linkDelays]
    · rw [State.linkDelays_first hh hi he, State.putI, State.get_put_of_lt _ _ _ (by decide) (by decide) (unsint_lt _ _)]
      exact congrArg (unsint 36) (by simpa using nearInt_half heven)
    · exact State.regW_setReg_ne _ _ ha
  case txq =>
    intro s u ht hu
    have hdo : exec (.txqLoRead u) s = .next ((s.txqPopped u).txqShow u) := by
      show Host.Outcome.next (s.readWord (pTsu u + 0x18) (doTxqLoRead u)) = _
      rw [State.readWord_of_takes ht, doTxqLoRead_of_lt hu]
    have hq : Tab.rd (s.txqPopped u).time.txq u = (Tab.rd s.time.txq u).tail := Tab.rd_wr_same _ _ _
    obtain ⟨hlevel, hhi, hlo⟩ := (s.txqPopped u).txqShow_get u
    obtain ⟨hwords, hrest⟩ := (s.txqPopped u).txqShow_regsOnly u
    rw [hq] at hlevel hhi hlo
    refine ⟨_, hdo, ?_, ?_, hlevel, hhi, hlo, hwords⟩
    · rw [hrest]; rfl
    · rw [hrest]; exact hq

end Sys2Proof
end

section
/-! PROOF. The order in which posts reach the Innkeeper, the post queue, acceptance and refusal. -/

namespace Sys2Proof.Machine

/-! The order of posts (R46). -/

theorem Post.before_iff (a b : Post) :
    a.before b = true ↔ a.at_ < b.at_ ∨ a.at_ = b.at_ ∧ (a.cls < b.cls ∨ a.cls = b.cls ∧ a.src < b.src) := by
  simp [Post.before]

/-- A post that does not come before a second, which does not come before a third, does not come before the third. -/
theorem Post.not_before_trans {a b c : Post} (hab : a.before b = false) (hbc : b.before c = false) : a.before c = false := by
  rw [Bool.eq_false_iff, ne_eq, Post.before_iff] at *
  omega

theorem Post.not_before_of_before {a b : Post} (h : a.before b = true) : b.before a = false := by
  rw [Bool.eq_false_iff, ne_eq, Post.before_iff]
  rw [Post.before_iff] at h
  omega

theorem Post.not_before_self (a : Post) : a.before a = false := by
  rw [Bool.eq_false_iff, ne_eq, Post.before_iff]
  omega

/-- The first of some posts is one of them, and none of them comes before it. -/
theorem firstPost_spec (l : List Post) (best : Post) :
    firstPost l best ∈ best :: l ∧ ∀ x ∈ best :: l, x.before (firstPost l best) = false := by
  induction l generalizing best with
  | nil => exact ⟨List.mem_cons_self, by simpa [firstPost] using best.not_before_self⟩
  | cons q r ih =>
    obtain ⟨hmem, hmin⟩ := ih (if q.before best then q else best)
    have hfirst : ∀ x, (if q.before best then q else best).before x = false → best.before x = false ∧ q.before x = false := by
      intro x hx
      split at hx
      case isTrue hb => exact ⟨Post.not_before_trans (Post.not_before_of_before hb) hx, hx⟩
      case isFalse hb => exact ⟨hx, Post.not_before_trans (by simpa using hb) hx⟩
    obtain ⟨hbest, hq⟩ := hfirst _ (hmin _ List.mem_cons_self)
    refine ⟨?_, fun x hx => ?_⟩
    · rw [firstPost]
      rcases List.mem_cons.mp hmem with h | h
      · rw [h]; split <;> simp
      · exact List.mem_cons_of_mem _ (List.mem_cons_of_mem _ h)
    · rw [firstPost]
      rcases List.mem_cons.mp hx with rfl | hx
      · exact hbest
      · rcases List.mem_cons.mp hx with rfl | hx
        · exact hq
        · exact hmin x (List.mem_cons_of_mem _ hx)

theorem State.nextPost_spec {s : State} {q : Post} (h : s.nextPost = some q) : q ∈ s.wire ∧ ∀ x ∈ s.wire, x.before q = false := by
  unfold State.nextPost at h
  split at h
  · cases h
  · rename_i x r hw
    obtain rfl := Option.some.inj h
    rw [hw]
    exact firstPost_spec r x

/-! Arrival (R328). -/

/-- A post has entered the queue. -/
def State.postQueued (s : State) (q : Post) : State :=
  { s with wire := s.wire.erase q, innk := { s.innk with
    queue := s.innk.queue ++ [{ q with arrived := s.nowNs, epoch := s.get pTime0 TIME_CT_STAT.epoch }] } }

theorem execPostArrive_some {s : State} {q : Post} (h : s.nextPost = some q) :
    execPostArrive s = .next (if pInnk0 ∈ s.srstBusy then { s with wire := s.wire.erase q }.refusePost q 4
      else if 64 ≤ s.innk.queue.length then { s with wire := s.wire.erase q }.refusePost q 3
      else s.postQueued q) := by
  simp only [execPostArrive, h, State.postQueued]

/-- INNK_PQ shows the length of the queue. -/
theorem State.pq_level (s : State) (h : s.innk.queue.length ≤ 64) :
    fldGet (s.viewWord (pInnk0 + 0x12)) INNK_PQ.level = s.innk.queue.length := by
  have hb : blkOf (pInnk0 + 0x12) = .innk0 := rfl
  have ho : (pInnk0 + 0x12) % 0x100 = 0x12 := rfl
  have hview : s.viewWord (pInnk0 + 0x12) = fldPut (s.reg (pInnk0 + 0x12)) INNK_PQ.level s.innk.queue.length := by
    simp [State.viewWord, State.liveView, State.coreView, hb, ho]
  rw [hview, fldGet_fldPut_same _ _ _ (by decide), Nat.mod_eq_of_lt (by simp; omega)]

theorem State.noteQueue_regsOnly (s : State) : RegsOnly [pInnk0 + 0x12] s s.noteQueue := by
  unfold State.noteQueue
  split
  · exact (RegsOnly.refl s _).put _ (by simp)
  · exact RegsOnly.refl s _

theorem State.noteQueue_hwm (s : State) (h : s.innk.queue.length ≤ 64) :
    s.noteQueue.get pInnk0 INNK_PQ.hwm = max (s.get pInnk0 INNK_PQ.hwm) s.innk.queue.length := by
  unfold State.noteQueue
  split
  · rw [State.get_put_of_lt _ _ _ (by decide) (by decide) (by simp; omega)]
    omega
  · omega

/-! Refusal (R330). -/

/-- What a refusal leaves before its events: its counts and INNK_REF_LAST. -/
def State.refusalNoted (s : State) (q : Post) (code : Nat) : State :=
  let s1 := if code = 3 then s else s.inc (pTsk q.task) TSK_CNT.refused
  let s2 := if code = 2 then s1.inc pInnk0 INNK_REF_A.pfull else if code = 3 then s1.inc pInnk0 INNK_REF_A.qfull
    else s1.inc pInnk0 INNK_REF_B.dis
  (((s2.put pInnk0 INNK_REF_LAST.code code).put pInnk0 INNK_REF_LAST.cls q.cls).put pInnk0
    INNK_REF_LAST.src q.src).put pInnk0 INNK_REF_LAST.task q.task

theorem State.refusePost_eq (s : State) (q : Post) (code : Nat) :
    s.refusePost q code = (if code = 3 then ((s.refusalNoted q code).evC pInnk0 0).ev pInnk0 1
      else (s.refusalNoted q code).evC pInnk0 0).tellProducer q code := rfl

theorem State.refusalNoted_last (s : State) (q : Post) (code : Nat) :
    (s.refusalNoted q code).get pInnk0 INNK_REF_LAST.code = code % 16 ∧
      (s.refusalNoted q code).get pInnk0 INNK_REF_LAST.task = q.task % 512 ∧
      (s.refusalNoted q code).get pInnk0 INNK_REF_LAST.cls = q.cls % 4 := by
  unfold State.refusalNoted
  simp (disch := simp) [State.get_put_field, State.get_put_same]

/-- The words of the Innkeeper's first page are none of the task table. -/
theorem pTsk_ne_pInnk0 (t a o : Nat) (ho : o < 0x100) : pTsk t + a ≠ pInnk0 + o := by
  unfold pTsk pInnk0; omega

theorem State.get_inc_eq_min (s : State) (p : Nat) (f : Fld) (h : f.lo ≤ f.hi) (h36 : f.hi < 36) :
    (s.inc p f).get p f = min (2 ^ (f.hi + 1 - f.lo) - 1) (s.get p f + 1) := by
  rw [s.get_inc_same p f h h36, satN_eq_min]

/-- A refusal other than that of a full queue counts in the task. -/
theorem State.refusalNoted_count (s : State) (q : Post) {code : Nat} (h : code ≠ 3) :
    (s.refusalNoted q code).get (pTsk q.task) TSK_CNT.refused = min 4095 (s.get (pTsk q.task) TSK_CNT.refused + 1) := by
  have hne : ∀ o < 0x100, pTsk q.task + 4 ≠ pInnk0 + o := pTsk_ne_pInnk0 _ _
  have hput : ∀ (t : State) (f : Fld) (v : Nat), f.off < 0x100 →
      (t.put pInnk0 f v).get (pTsk q.task) TSK_CNT.refused = t.get (pTsk q.task) TSK_CNT.refused := fun t f v hf =>
    t.get_put_word _ _ _ _ _ (hne _ hf)
  have hinc : ∀ (t : State) (f : Fld), f.off < 0x100 →
      (t.inc pInnk0 f).get (pTsk q.task) TSK_CNT.refused = t.get (pTsk q.task) TSK_CNT.refused := fun t f hf => hput t f _ hf
  unfold State.refusalNoted
  simp only [if_neg h]
  rw [hput _ _ _ (by decide), hput _ _ _ (by decide), hput _ _ _ (by decide), hput _ _ _ (by decide)]
  split
  · rw [hinc _ _ (by decide), State.get_inc_eq_min _ _ _ (by decide) (by decide)]; rfl
  · rw [hinc _ _ (by decide), State.get_inc_eq_min _ _ _ (by decide) (by decide)]; rfl

/-! What the producer sees (R25). -/

section
variable (s : State) {q : Post} {code : Nat}

theorem State.tellProducer_accepted (hc : code < 2) (hq : q.cls < 2) : s.tellProducer q code = s := by
  have hcls : q.cls = 0 ∨ q.cls = 1 := by omega
  have hcode : ¬2 ≤ code := by omega
  obtain h | h := hcls <;> simp [State.tellProducer, h, hcode]

theorem State.tellProducer_prism (hc : 2 ≤ code) (hq : q.cls = 0) : s.tellProducer q code = s.prismRefuse q.src 1 1 := by
  simp [State.tellProducer, hq, hc]

theorem State.tellProducer_page (hc : 2 ≤ code) (hq : q.cls = 1) :
    s.tellProducer q code = s.put (pageAddr q.src) PAGE_STAT.post_refused 1 := by
  simp [State.tellProducer, hq, hc]

theorem State.tellProducer_core (hq : q.cls = 2) (ht : q.tag ≠ 1) :
    s.tellProducer q code = s.setCo q.src { s.co q.src with postRes := some code } := by
  simp [State.tellProducer, hq, ht]

theorem State.tellProducer_coreAsync (hc : 2 ≤ code) (hq : q.cls = 2) (ht : q.tag = 1) :
    s.tellProducer q code = (s.inc (pCore q.src) CORE_POSTREF.n).ev (pCore q.src) 4 := by
  simp [State.tellProducer, hq, ht, hc]

end

/-! Acceptance (R329). -/

/-- The queue without its oldest post. -/
def State.queuePopped (s : State) (r : List Post) : State := { s with innk := { s.innk with queue := r } }

/-- The activation of an accepted post pends. -/
def State.activationPends (s : State) (q : Post) : State :=
  (s.put (pTsk q.task) TSK_STAT.pend (s.get (pTsk q.task) TSK_STAT.pend + 1)).setTa q.task
    { s.ta q.task with posts := (s.ta q.task).posts ++ [q] }

theorem execPostAccept_cons {s : State} {q : Post} {r : List Post} (h : s.innk.queue = q :: r) :
    execPostAccept s = .next (if q.task ∈ s.innk.cancelled then
        (((s.queuePopped r).inc (pTsk q.task) TSK_CNT.cancelled).inc pInnk0 INNK_REF_B.canc).tellProducer q 1
      else if s.get (pTsk q.task) TSK_CFG.en = 0 then (s.queuePopped r).refusePost q 4
      else if s.get (pTsk q.task) TSK_STAT.pend = 15 then (s.queuePopped r).refusePost q 2
      else (if s.tskState q.task = 1 then ((s.queuePopped r).activationPends q).list q.task 2
        else (s.queuePopped r).activationPends q).tellProducer q 0) := by
  simp only [execPostAccept, h]
  rfl

theorem State.noteLevel_regsOnly (s : State) (lvl : Nat) : RegsOnly [pInnk1 + (0x10 + 1 * lvl)] s (s.noteLevel lvl) := by
  unfold State.noteLevel
  split
  · exact (RegsOnly.refl s _).put _ (by simp)
  · exact RegsOnly.refl s _

section
variable (s : State) (t st : Nat)

/-- A task that enters a list: its words of the task table. -/
theorem State.get_list {f : Fld} (hf : f.off < 0x40) : (s.list t st).get (pTsk t) f = (s.setTskState t st).get (pTsk t) f := by
  have hlevel : s.get (pTsk t) TSK_CFG.level < 64 := s.get_lt (pTsk t) TSK_CFG.level
  unfold State.list
  generalize s.get (pTsk t) TSK_CFG.level = lvl at hlevel ⊢
  rw [(State.noteLevel_regsOnly _ _).get (by simp only [List.mem_singleton]; unfold pTsk pInnk1; omega)]
  exact State.get_of_regs rfl _ _

theorem State.innk_list : (s.list t st).innk.queue = s.innk.queue := by
  unfold State.list
  rw [(State.noteLevel_regsOnly _ _).2]
  rfl

theorem State.posts_list : ((s.list t st).ta t).posts = (s.ta t).posts := by
  have hta : (s.list t st).task = ((s.setTskState t st).stampTask t).task := by
    unfold State.list
    rw [(State.noteLevel_regsOnly _ _).2]
  rw [State.ta, hta]
  simp only [State.stampTask, State.setTa, Tab.rd_wr_same]
  rfl

end

/-- What an acceptance leaves of the task. -/
theorem State.activationPends_spec (s : State) (q : Post) (h : s.get (pTsk q.task) TSK_STAT.pend < 15) :
    (s.activationPends q).innk = s.innk ∧
      ((s.activationPends q).ta q.task).posts = (s.ta q.task).posts ++ [q] ∧
      (s.activationPends q).get (pTsk q.task) TSK_STAT.pend = s.get (pTsk q.task) TSK_STAT.pend + 1 ∧
      (s.activationPends q).tskState q.task = s.tskState q.task := by
  refine ⟨rfl, ?_, ?_, ?_⟩
  · simp only [State.activationPends, State.ta, State.setTa, Tab.rd_wr_same]
  · rw [State.activationPends, State.get_of_regs (State.setTa_regs _ _ _),
      State.get_put_of_lt _ _ _ (by decide) (by decide) (by simp; omega)]
  · rw [State.tskState, State.activationPends, State.get_of_regs (State.setTa_regs _ _ _),
      State.get_put_field _ _ _ _ _ _ (by decide) (by decide) (by decide) (by decide), State.tskState]

/-- What the acceptance of a post of a task in state 1 leaves of it besides. -/
theorem State.listed_spec (s : State) (t : Nat) :
    (s.list t 2).innk.queue = s.innk.queue ∧ ((s.list t 2).ta t).posts = (s.ta t).posts ∧
      (s.list t 2).get (pTsk t) TSK_STAT.pend = s.get (pTsk t) TSK_STAT.pend ∧ (s.list t 2).tskState t = 2 := by
  refine ⟨s.innk_list t 2, s.posts_list t 2, ?_, ?_⟩
  · rw [s.get_list t 2 (by decide), State.setTskState]
    exact State.get_put_field _ _ _ _ _ _ (by decide) (by decide) (by decide) (by decide)
  · rw [State.tskState, s.get_list t 2 (by decide), State.setTskState]
    exact State.get_put_same _ _ _ _ (by decide) (by decide)

/-- What a post accepted cancelled leaves of its task. -/
theorem State.cancelled_counts (s : State) (t : Nat) :
    ((s.inc (pTsk t) TSK_CNT.cancelled).inc pInnk0 INNK_REF_B.canc).get (pTsk t) TSK_CNT.cancelled
        = min 4095 (s.get (pTsk t) TSK_CNT.cancelled + 1) ∧
      ((s.inc (pTsk t) TSK_CNT.cancelled).inc pInnk0 INNK_REF_B.canc).get (pTsk t) TSK_STAT.pend = s.get (pTsk t) TSK_STAT.pend := by
  constructor
  · rw [State.inc, State.get_put_word _ _ _ _ _ _ (pTsk_ne_pInnk0 _ _ _ (by decide)),
      State.get_inc_eq_min _ _ _ (by decide) (by decide)]
    rfl
  · rw [State.inc, State.get_put_word _ _ _ _ _ _ (pTsk_ne_pInnk0 _ _ _ (by decide)), State.inc,
      State.get_put_word _ _ _ _ _ _ (by simp)]

end Sys2Proof.Machine

namespace Sys2Proof

open Machine

/-- Settles O36: the order of posts, the queue, and a lemma for each judgement of a post. -/
theorem postsAndAcceptance : Obligations.PostsAndAcceptance := by
  refine ⟨?none_, fun s q => State.nextPost_spec, ?some_, Post.before_iff, ?resetting, ?full, ?enters, ?hwm, ?empty, ?cancelled,
    ?disabled, ?pending, ?accepted, ?refused, ?told⟩
  case none_ =>
    intro s h
    show execPostArrive s = _
    simp [execPostArrive, State.nextPost, h]
  case some_ =>
    intro s x r h
    exact ⟨firstPost r x, by simp [State.nextPost, h]⟩
  case resetting =>
    intro s q h hr
    exact ⟨_, by rw [show exec .postArrive s = _ from execPostArrive_some h, if_pos hr], rfl⟩
  case full =>
    intro s q h hr hf
    rw [show exec .postArrive s = _ from execPostArrive_some h, if_neg hr, if_pos hf]
  case enters =>
    intro s q h hr hf
    have hlen : (s.postQueued q).innk.queue.length = s.innk.queue.length + 1 := by simp [State.postQueued]
    refine ⟨s.postQueued q, ?_, rfl, rfl, ?_, rfl⟩
    · rw [show exec .postArrive s = _ from execPostArrive_some h, if_neg hr, if_neg (by omega)]
    · rw [State.pq_level _ (by omega), hlen]
  case hwm => exact fun s h => ⟨s.noteQueue_hwm h, s.noteQueue_regsOnly⟩
  case empty =>
    intro s h
    show execPostAccept s = _
    simp [execPostAccept, h]
  case cancelled =>
    intro s q r h _ hc
    obtain ⟨hcount, hpend⟩ := (s.queuePopped r).cancelled_counts q.task
    exact ⟨_, by rw [show exec .postAccept s = _ from execPostAccept_cons h, if_pos hc], rfl, hcount, hpend⟩
  case disabled =>
    intro s q r h _ hc he
    exact ⟨s.queuePopped r, by rw [show exec .postAccept s = _ from execPostAccept_cons h, if_neg hc, if_pos he], rfl, rfl⟩
  case pending =>
    intro s q r h _ hc he hp
    exact ⟨s.queuePopped r, by rw [show exec .postAccept s = _ from execPostAccept_cons h, if_neg hc, if_neg (by omega), if_pos hp],
      rfl, rfl⟩
  case accepted =>
    intro s q r h _ hc he hp
    obtain ⟨hinnk, hposts, hpend, hstate⟩ := (s.queuePopped r).activationPends_spec q hp
    obtain ⟨hinnk', hposts', hpend', hstate'⟩ := ((s.queuePopped r).activationPends q).listed_spec q.task
    rw [show exec .postAccept s = _ from execPostAccept_cons h, if_neg hc, if_neg (by omega), if_neg (by omega)]
    split
    · exact ⟨_, rfl, hinnk'.trans (by rw [hinnk]; rfl), hposts'.trans hposts, hpend'.trans hpend, hstate'⟩
    · exact ⟨_, rfl, by rw [hinnk]; rfl, hposts, hpend, hstate⟩
  case refused =>
    intro s q code ht
    obtain ⟨hcode, htask, hcls⟩ := s.refusalNoted_last q code
    rw [Nat.mod_eq_of_lt ht] at htask
    refine ⟨s.refusalNoted q code, _, s.refusePost_eq q code, ?_, hcode, htask, hcls, s.refusalNoted_count q⟩
    split
    · exact .inl ⟨rfl, ‹_›⟩
    · exact .inr ⟨rfl, ‹_›⟩
  case told =>
    exact fun s q code => ⟨s.tellProducer_accepted, s.tellProducer_prism, s.tellProducer_page, s.tellProducer_core,
      s.tellProducer_coreAsync⟩

end Sys2Proof
end

section
/-! PROOF. What an event that counts leaves alone: the queue of commands, the memory and the Porters, and, for a page whose outputs
are only noted as blocked, every register word but those of the count, of the core's NMI and of the log. -/

namespace Sys2Proof.Machine

/-! A post and an event change the posts on their way, and an event the register words. -/

theorem State.offerPost_frame (s : State) (q : Post) :
    ∃ wire heldPosts, s.offerPost q = { s with wire := wire, heldPosts := heldPosts } := by
  simp only [State.offerPost]
  split
  · split
    · exact ⟨_, _, rfl⟩
    · exact ⟨_, _, rfl⟩
  · exact ⟨_, _, rfl⟩

theorem State.setPend_frame (s : State) (p bits : Nat) : ∃ regs wire heldPosts posted,
    s.setPend p bits = { s with regs := regs, wire := wire, heldPosts := heldPosts, posted := posted } := by
  simp only [State.setPend]
  split
  · obtain ⟨wire, heldPosts, h⟩ := State.offerPost_frame (s.put p PAGE_EVPEND.evpend (s.get p PAGE_EVPEND.evpend ||| bits))
      { cls := 1, src := (p - pageSpace) / 0x100
        task := (s.put p PAGE_EVPEND.evpend (s.get p PAGE_EVPEND.evpend ||| bits)).get p PAGE_POST.task, tag := 0 }
    rw [State.pagePost, h]
    exact ⟨_, _, _, _, rfl⟩
  · exact ⟨_, _, _, _, rfl⟩

theorem State.ev_frame (s : State) (p k : Nat) : ∃ regs wire heldPosts posted,
    s.ev p k = { s with regs := regs, wire := wire, heldPosts := heldPosts, posted := posted } := by
  simp only [State.ev]
  split
  · obtain ⟨regs, wire, heldPosts, posted, h⟩ :=
      (s.put p PAGE_EV.ev (setBitN (s.get p PAGE_EV.ev) k)).setPend_frame p (2 ^ k)
    rw [h]
    exact ⟨_, _, _, _, rfl⟩
  · exact ⟨_, _, _, _, rfl⟩

section
variable (s : State) (p k : Nat)

theorem State.ev_srstBusy : (s.ev p k).srstBusy = s.srstBusy := by
  obtain ⟨_, _, _, _, h⟩ := s.ev_frame p k
  rw [h]

@[simp] theorem State.ev_mem : (s.ev p k).mem = s.mem := s.kept_untimed.ev.holds.mem
@[simp] theorem State.ev_porter : (s.ev p k).porter = s.porter := s.kept_untimed.ev.holds.porter
@[simp] theorem State.evC_mem : (s.evC p k).mem = s.mem := s.kept_untimed.evC.holds.mem
@[simp] theorem State.evC_porter : (s.evC p k).porter = s.porter := s.kept_untimed.evC.holds.porter

end

section
variable {a : Nat}

theorem State.regW_put_ne (s : State) (p : Nat) (f : Fld) (v : Nat) (h : a ≠ p + f.off) : (s.put p f v).regW a = s.regW a :=
  s.regW_setReg_ne _ h

theorem State.regW_of_regs {s t : State} (h : t.regs = s.regs) : t.regW a = s.regW a := by
  unfold State.regW
  rw [h]

theorem State.regW_ev_ne (s : State) (p k : Nat) (h3 : a ≠ p + 3) (h5 : a ≠ p + 5) : (s.ev p k).regW a = s.regW a :=
  BitVec.eq_of_toNat_eq (s.reg_ev_ne p k h3 h5)

theorem State.regW_raiseNmiAll (s : State) (src : Nat) (h : ∀ c, a ≠ pCore c + 0x14) : (s.raiseNmiAll src).regW a = s.regW a :=
  overAll_induct (Q := fun t => t.regW a = s.regW a) rfl fun c t ht => by
    rw [State.raiseNmi, State.regW_put_ne _ _ _ _ (h c), State.regW_put_ne _ _ _ _ (h c), ht]

theorem State.regW_fcBump (s : State) (p : Nat) (h : a ≠ p + 9) : (s.fcBump p).regW a = s.regW a :=
  (s.fcBump_regsOnly p).1 a (by simpa using h)

theorem State.regW_fcActionBy (s : State) (p : Nat) {blk : State → Nat → State} (hblk : (blk s p).regW a = s.regW a)
    (hcore : ∀ c, a ≠ pCore c + 0x14) : (s.fcActionBy blk p).regW a = s.regW a := by
  simp only [State.fcActionBy]
  split
  · exact State.regW_of_regs (State.pagePost_regs _ _ _)
  · split
    · exact s.regW_raiseNmiAll 1 hcore
    · split
      · exact State.regW_of_regs rfl
      · split
        · exact hblk
        · rfl

/-- What the count of a page leaves, when its output block leaves it. -/
theorem State.regW_fcStepBy (s : State) (p : Nat) {blk : State → Nat → State} (hblk : ∀ t, (blk t p).regW a = t.regW a)
    (hcore : ∀ c, a ≠ pCore c + 0x14) (h : a ≠ p + 9) : (s.fcStepBy blk p).1.regW a = s.regW a := by
  have hbump := s.regW_fcBump p h
  have hput : ((s.fcBump p).put p FC_STAT.lasting 1).regW a = s.regW a := (State.regW_put_ne _ _ _ _ h).trans hbump
  simp only [State.fcStepBy]
  split
  · exact (State.regW_fcActionBy _ _ (hblk _) hcore).trans hput
  · exact hbump

theorem State.blockPlain_mem3 (s : State) : s.blockPlain (pMem 3) = s.noteBlocked (pMem 3) := rfl

theorem State.regW_pushLog (s : State) (r : LogRec) (hcore : ∀ c, a ≠ pCore c + 0x14) (hmem : ∀ o < 0x100, a ≠ pMem 3 + o) :
    (s.pushLog r).regW a = s.regW a := by
  have hlost : ∀ t : State, t.logLost.regW a = t.regW a := fun t =>
    (State.regW_ev_ne _ _ _ (hmem 3 (by decide)) (hmem 5 (by decide))).trans (State.regW_put_ne _ _ _ _ (hmem 0x16 (by decide)))
  have hstep : (s.logLost.fcStepBy State.blockPlain (pMem 3)).1.regW a = s.regW a :=
    (State.regW_fcStepBy _ _ (fun t => by rw [t.blockPlain_mem3]; exact State.regW_of_regs rfl) hcore (hmem 9 (by decide))).trans
      (hlost s)
  simp only [State.pushLog]
  split
  · rfl
  · split
    · exact State.regW_of_regs rfl
    · split
      · rw [State.regW_fcBump _ _ (hmem 9 (by decide)), hlost, hstep]
      · exact hstep

theorem State.regW_fc (s : State) (p : Nat) (hblk : ∀ t : State, (t.blockOutputs p).regW a = t.regW a)
    (hcore : ∀ c, a ≠ pCore c + 0x14) (hmem : ∀ o < 0x100, a ≠ pMem 3 + o) (h : a ≠ p + 9) : (s.fc p).regW a = s.regW a := by
  have hstep := s.regW_fcStepBy p hblk hcore h
  simp only [State.fc, State.fcBy]
  split
  · rw [State.regW_pushLog _ _ hcore hmem, hstep]
  · exact hstep

end

end Sys2Proof.Machine
end

section
/-! PROOF. The Porters: starts, the choice of a chain, the begin of a descriptor, its moves, its end and its failure, and the block
reset. -/

namespace Sys2Proof.Machine

/-- A write that its block takes has its effect. -/
theorem State.writeWord_of_takes {s : State} {a : Nat} (h : s.takes a) (ini : Nat) (v : Word) (k : State → State) :
    s.writeWord ini a v k = k s := by
  obtain ⟨hg, hh⟩ := h
  simp [State.writeWord, hg, hh]

/-! A counting event of PORTER page 0. -/

section
variable (s : State) (k : Nat)

theorem State.regW_fc_porter {o : Nat} (ho : o < 0x100) (h9 : o ≠ 9) :
    (s.fc pPorter0).regW (pPorter0 + o) = s.regW (pPorter0 + o) :=
  s.regW_fc pPorter0 (fun _ => rfl) (fun c => by unfold pPorter0 pCore; omega) (fun x hx => by unfold pPorter0 pMem; omega)
    (by omega)

theorem State.get_evC_porter {f : Fld} (hf : f.off < 0x100) (h3 : f.off ≠ 3) (h5 : f.off ≠ 5) (h9 : f.off ≠ 9) :
    (s.evC pPorter0 k).get pPorter0 f = s.get pPorter0 f := by
  have hfc := (s.ev pPorter0 k).regW_fc_porter hf h9
  have hev := s.regW_ev_ne (a := pPorter0 + f.off) pPorter0 k (by omega) (by omega)
  exact congrArg (fun w : Word => fldGet w.toNat f) (hfc.trans hev)

theorem State.get_evC_porter_ev (hk : k < 36) :
    (s.evC pPorter0 k).get pPorter0 PAGE_EV.ev = setBitN (s.get pPorter0 PAGE_EV.ev) k := by
  have hfc := (s.ev pPorter0 k).regW_fc_porter (o := 3) (by decide) (by decide)
  exact (congrArg (fun w : Word => fldGet w.toNat PAGE_EV.ev) hfc).trans (s.get_ev_ev pPorter0 hk)

end

/-! The engines' records. -/

@[simp] theorem State.pe_setPe_same (s : State) (e : Nat) (r : Option PorterEng) : (s.setPe e r).pe e = r := by
  simp [State.pe, State.setPe, Tab.rd_wr_same]

theorem State.pe_setPe_ne (s : State) {e j : Nat} (r : Option PorterEng) (h : j ≠ e) : (s.setPe e r).pe j = s.pe j := by
  simp [State.pe, State.setPe, Tab.rd, Tab.wr, Tab.get_set_other _ _ _ h]

theorem State.pe_of_porter {s t : State} (h : t.porter = s.porter) (e : Nat) : t.pe e = s.pe e := by
  simp [State.pe, h]

theorem State.chains_of_porter {s t : State} (h : t.porter = s.porter) : t.chains = s.chains := by
  have hpe : t.pe = s.pe := funext (State.pe_of_porter h)
  simp [State.chains, h, hpe]

/-- The slots of the engines that work. -/
theorem mem_busySlots {s : State} {k : Nat} :
    (((List.range 4).filterMap s.pe).map (fun r => r.slot)).contains k = true ↔ ∃ e < 4, ∃ r, s.pe e = some r ∧ r.slot = k := by
  simp only [List.contains_iff_mem, List.mem_map, List.mem_filterMap, List.mem_range]
  constructor
  · rintro ⟨r, ⟨e, he, hr⟩, hk⟩
    exact ⟨e, he, r, hr, hk⟩
  · rintro ⟨e, he, r, hr, hk⟩
    exact ⟨r, ⟨e, he, hr⟩, hk⟩

/-! Starts (R477). -/

section
variable {s : State} {k : Nat} (hk : k < 64)

/-- The word of PORTER_START with its slot. -/
def State.startNoted (s : State) (k : Nat) : State := s.put pPorter0 PORTER_START.slot k

/-- A chain waits for an engine. -/
def State.chainQueued (s : State) (k : Nat) : State := { s with porter := { s.porter with queue := s.porter.queue ++ [k] } }

theorem State.chainQueued_chains (s : State) (k : Nat) : (s.chainQueued k).chains.length = s.chains.length + 1 := by
  have hpe : (s.chainQueued k).pe = s.pe := rfl
  have hqueue : (s.chainQueued k).porter.queue = s.porter.queue ++ [k] := rfl
  rw [State.chains, State.chains, hpe, hqueue]
  simp only [List.length_append, List.length_singleton]
  omega

theorem State.startNoted_frame (s : State) (k : Nat) : (s.startNoted k).porter = s.porter ∧ (s.startNoted k).mem = s.mem :=
  ⟨State.put_porter _ _ _ _, State.put_mem _ _ _ _⟩

theorem State.chains_startNoted (s : State) (k : Nat) : (s.startNoted k).chains = s.chains := State.chains_of_porter rfl

include hk

theorem doPorterStart_refused (h : 32 ≤ s.chains.length ∨ pPorter0 ∈ s.srstBusy ∨ pageBlocked s pPorter0 = true) :
    doPorterStart k s = ((s.startNoted k).inc pPorter0 PORTER_STAT.refused).evC pPorter0 1 := by
  have hc : (decide (32 ≤ (s.startNoted k).chains.length) || pageBlocked (s.startNoted k) pPorter0
      || (s.startNoted k).srstBusy.contains pPorter0) = true := by
    rw [State.chains_startNoted]
    rcases h with h | h | h
    · simp [h]
    · simp [State.startNoted, h]
    · have hb : pageBlocked (s.startNoted k) pPorter0 = true := h
      simp [hb]
  rw [doPorterStart, if_pos hk, ← State.startNoted, State.porterStart, if_pos hc]

section
variable (hl : s.chains.length < 32) (hr : pPorter0 ∉ s.srstBusy) (hb : pageBlocked s pPorter0 = false)
include hl hr hb

theorem doPorterStart_open : doPorterStart k s =
    if (s.startNoted k).flag pPorter1 (PORTER_SCTL.en k) = false then
      (s.startNoted k).porterFail k ((s.startNoted k).get pPorter1 (PORTER_SHEAD.head k)) 8
    else ((s.startNoted k).chainQueued k).showChains k := by
  have hc : (decide (32 ≤ (s.startNoted k).chains.length) || pageBlocked (s.startNoted k) pPorter0
      || (s.startNoted k).srstBusy.contains pPorter0) = false := by
    have hb' : pageBlocked (s.startNoted k) pPorter0 = false := hb
    have hr' : pPorter0 ∉ (s.startNoted k).srstBusy := hr
    rw [State.chains_startNoted, hb', Bool.or_false, Bool.or_eq_false_iff]
    exact ⟨by simpa using hl, by simpa using hr'⟩
  rw [doPorterStart, if_pos hk, ← State.startNoted, State.porterStart, if_neg (by rw [hc]; exact Bool.false_ne_true),
    apply_ite (fun x : State × Bool => x.1)]
  rfl

end
end

/-- The record of a failed descriptor, before its event. -/
def State.failNoted (s : State) (k a code : Nat) : State :=
  ((s.put pPorter0 PORTER_ELAST.code code).put pPorter0 PORTER_ELAST.slot k).put pPorter0 PORTER_EADDR.a a

theorem State.failNoted_porter (s : State) (k a code : Nat) : (s.failNoted k a code).porter = s.porter := by
  simp only [State.failNoted, State.put_porter]

theorem State.porterFail_eq (s : State) (k a code : Nat) : s.porterFail k a code = (s.failNoted k a code).evC pPorter0 2 := rfl

theorem State.failNoted_get (s : State) {k code : Nat} (a : Nat) (hk : k < 64) (hc : code < 16) :
    (s.failNoted k a code).get pPorter0 PORTER_ELAST.code = code ∧ (s.failNoted k a code).get pPorter0 PORTER_ELAST.slot = k ∧
      (s.failNoted k a code).get pPorter0 PORTER_EADDR.a = a % 2 ^ 36 := by
  have hk' : k % 64 = k := Nat.mod_eq_of_lt hk
  have hc' : code % 16 = code := Nat.mod_eq_of_lt hc
  unfold State.failNoted
  simp (disch := simp) [State.get_put_word, State.get_put_field, State.get_put_same, hk', hc']

theorem State.flag_startNoted (s : State) (k : Nat) :
    (s.startNoted k).flag pPorter1 (PORTER_SCTL.en k) = s.flag pPorter1 (PORTER_SCTL.en k) := by
  rw [State.flag, State.startNoted, State.get_put_word _ _ _ _ _ _ (by unfold pPorter0 pPorter1; simp; omega), State.flag]

theorem State.head_startNoted (s : State) (k : Nat) :
    (s.startNoted k).get pPorter1 (PORTER_SHEAD.head k) = s.get pPorter1 (PORTER_SHEAD.head k) := by
  rw [State.startNoted, State.get_put_word _ _ _ _ _ _ (by unfold pPorter0 pPorter1; simp; omega)]

/-- What the chains in flight show. -/
theorem State.showChains_get (s : State) (k : Nat) (h : s.chains.length ≤ 32) :
    (s.showChains k).get pPorter0 PORTER_STAT.inflight = s.chains.length ∧
      s.chains.length ≤ (s.showChains k).get pPorter0 PORTER_STAT.hwm := by
  have hin : ((s.put pPorter0 PORTER_STAT.inflight s.chains.length).put pPorter1 (PORTER_SCTL.queued k)
      (s.chains.filter (fun x => x == k)).length).get pPorter0 PORTER_STAT.inflight = s.chains.length := by
    rw [State.get_put_word _ _ _ _ _ _ (by unfold pPorter0 pPorter1; simp; omega)]
    exact State.get_put_of_lt _ _ _ (by decide) (by decide) (by simp; omega)
  simp only [State.showChains]
  split
  · refine ⟨?_, le_of_eq (State.get_put_of_lt _ _ _ (by decide) (by decide) (by simp; omega)).symm⟩
    rw [State.get_put_field _ _ _ _ _ _ (by decide) (by decide) (by decide) (by decide), hin]
  · exact ⟨hin, by omega⟩

theorem State.showChains_frame (s : State) (k : Nat) : (s.showChains k).porter = s.porter ∧ (s.showChains k).mem = s.mem := by
  simp only [State.showChains]
  split <;> exact ⟨rfl, rfl⟩

/-! The chain that an idle engine takes (R477). -/

theorem State.nextChain_spec {s : State} {k : Nat} (h : s.nextChain = some k) :
    k ∈ s.porter.queue ∧ (∀ e < 4, ∀ r, s.pe e = some r → r.slot ≠ k) ∧
      (s.flag pPorter1 (PORTER_SCTL.urg k) = false → ∀ j ∈ s.porter.queue, s.flag pPorter1 (PORTER_SCTL.urg j) = true →
        ∃ e < 4, ∃ r, s.pe e = some r ∧ r.slot = j) := by
  simp only [State.nextChain] at h
  have hfree : ∀ j, j ∈ s.porter.queue.filter
      (fun k => !(((List.range 4).filterMap s.pe).map (fun r => r.slot)).contains k) ↔
      j ∈ s.porter.queue ∧ ¬∃ e < 4, ∃ r, s.pe e = some r ∧ r.slot = j := fun j => by
    rw [List.mem_filter, ← mem_busySlots]
    simp
  split at h
  case h_1 j hj =>
    obtain rfl := Option.some.inj h
    obtain ⟨hq, hidle⟩ := (hfree j).mp (List.mem_of_find?_eq_some hj)
    refine ⟨hq, fun e he r hr hs => hidle ⟨e, he, r, hr, hs⟩, fun hu => ?_⟩
    have := List.find?_some hj
    simp [hu] at this
  case h_2 hnone =>
    obtain ⟨hq, hidle⟩ := (hfree k).mp (List.mem_of_head? h)
    refine ⟨hq, fun e he r hr hs => hidle ⟨e, he, r, hr, hs⟩, fun _ j hj hu => ?_⟩
    by_contra hfr
    exact List.find?_eq_none.mp hnone j ((hfree j).mpr ⟨hj, hfr⟩) hu

/-! ENGINE_ASSIGN, and the begin of a descriptor (R478). -/

section
variable {s : State} {e : Nat}

theorem doEngineAssign_stopped (h : 4 ≤ e ∨ s.porterRuns = false ∨ pageBlocked s pPorter0 = true) : doEngineAssign e s = s := by
  have hc : (decide (4 ≤ e) || !s.porterRuns || pageBlocked s pPorter0) = true := by
    rcases h with h | h | h <;> simp [h]
  rw [doEngineAssign, if_pos hc]

theorem doEngineAssign_working {r : PorterEng} {d : List Word} (hr : s.pe e = some r) (hd : r.desc = some d) :
    doEngineAssign e s = s := by
  simp [doEngineAssign, hr, hd]

theorem doEngineAssign_none (hr : s.pe e = none) (hn : s.nextChain = none) : doEngineAssign e s = s := by
  simp [doEngineAssign, hr, hn]

theorem doEngineAssign_takes {k : Nat} (he : e < 4) (hrun : s.porterRuns = true) (hb : pageBlocked s pPorter0 = false)
    (hr : s.pe e = none) (hn : s.nextChain = some k) : doEngineAssign e s =
      { s with porter := { s.porter with queue := s.porter.queue.erase k } }.beginDesc e
        { slot := k, addr := s.get pPorter1 (PORTER_SHEAD.head k) } := by
  have hc : (decide (4 ≤ e) || !s.porterRuns || pageBlocked s pPorter0) = false := by simp [hrun, hb]; omega
  rw [doEngineAssign, if_neg (by rw [hc]; exact Bool.false_ne_true)]
  simp only [hr, hn]

theorem State.beginDesc_badAddr (r : PorterEng) (h : descAddrOk r.addr = false) :
    s.beginDesc e r = s.descFail e { r with desc := none } 7 := by
  rw [State.beginDesc, if_pos h]

theorem descAddrOk_iff (a : Nat) : descAddrOk a = true ↔ a % 8 = 0 ∧ (targetOf a = .commons ∨ targetOf a = .dram) := by
  simp [descAddrOk]

theorem State.beginDesc_read (r : PorterEng) {d : List Word} (ha : descAddrOk r.addr = true)
    (hb : (s.busRead (engIni e) r.addr).1.isSome = true) (hd : d = (List.range 8).map (fun i => s.memW (r.addr + i))) :
    s.beginDesc e r = if dValid d = false then (s.setPe e (some { r with desc := some d })).descFail e { r with desc := some d } 1
      else if dKind d = 2 then (s.setPe e (some { r with desc := some d })).beginMram e { r with desc := some d } d
      else s.setPe e (some { r with desc := some d }) := by
  have hb' : (s.busRead (engIni e) r.addr).1.isNone = false := by rw [← Option.not_isSome, hb]; rfl
  subst hd
  rw [State.beginDesc, if_neg (by simp [ha]), if_neg (by simp [hb'])]

end

/-! Writing a descriptor back, and its failure (R480). -/

theorem State.descBack_some (s : State) {r : PorterEng} {w : Word} {l : List Word} (h : r.desc = some (w :: l)) (done err code : Nat) :
    s.descBack r done err code = s.setMem r.addr (word (writeBack w.toNat done err code)) := by
  simp only [State.descBack, h]

theorem State.descPost_none (s : State) {w : Word} {l : List Word} (h : bitN w.toNat 31 = false) : s.descPost (w :: l) = s := by
  have hw : dw (w :: l) 0 = w.toNat := rfl
  rw [State.descPost, hw, if_neg (by simp [h])]

theorem writeBack_failed (w : Nat) {code : Nat} (h : code < 16) :
    writeBack w 0 1 code = w % 64 + code * 64 + 2 ^ 10 + w / 2 ^ 12 * 2 ^ 12 := by
  rw [writeBack, Nat.mod_eq_of_lt h]
  omega

theorem writeBack_done (w : Nat) : writeBack w 1 0 0 = w % 64 + 2 ^ 11 + w / 2 ^ 12 * 2 ^ 12 := by
  rw [writeBack]
  omega

/-- A failed descriptor before the count of the chains in flight. -/
def State.descStopped (s : State) (e : Nat) (r : PorterEng) (code : Nat) : State :=
  (((s.descBack r 0 1 code).descPost (r.desc.getD [])).porterFail r.slot r.addr code).setPe e none

theorem State.descFail_eq (s : State) (e : Nat) (r : PorterEng) (code : Nat) :
    s.descFail e r code = (s.descStopped e r code).showChains r.slot := rfl

theorem State.descStopped_mem (s : State) (e : Nat) {r : PorterEng} {w : Word} {l : List Word} (code : Nat)
    (hd : r.desc = some (w :: l)) (hw : bitN w.toNat 31 = false) :
    (s.descStopped e r code).mem = (s.setMem r.addr (word (writeBack w.toNat 0 1 code))).mem := by
  have hback : (s.descBack r 0 1 code).descPost (r.desc.getD []) = s.setMem r.addr (word (writeBack w.toNat 0 1 code)) := by
    rw [s.descBack_some hd, hd, Option.getD_some, State.descPost_none _ hw]
  rw [State.descStopped, hback, State.setPe_mem, State.porterFail_eq, State.evC_mem]
  rfl

theorem State.descStopped_record (s : State) (e : Nat) (r : PorterEng) {code : Nat} (hs : r.slot < 64) (hc : code < 16) :
    (s.descStopped e r code).pe e = none ∧ (s.descStopped e r code).get pPorter0 PORTER_ELAST.code = code ∧
      (s.descStopped e r code).get pPorter0 PORTER_ELAST.slot = r.slot ∧
      (s.descStopped e r code).get pPorter0 PORTER_EADDR.a = r.addr % 2 ^ 36 ∧
      bitN ((s.descStopped e r code).get pPorter0 PAGE_EV.ev) 2 = true := by
  obtain ⟨hcode, hslot, haddr⟩ := ((s.descBack r 0 1 code).descPost (r.desc.getD [])).failNoted_get r.addr hs hc
  have hget : ∀ f : Fld, (s.descStopped e r code).get pPorter0 f =
      ((((s.descBack r 0 1 code).descPost (r.desc.getD [])).failNoted r.slot r.addr code).evC pPorter0 2).get pPorter0 f := fun f =>
    State.get_of_regs (State.setPe_regs _ _ _) _ _
  have hev := State.get_evC_porter_ev (((s.descBack r 0 1 code).descPost (r.desc.getD [])).failNoted r.slot r.addr code) 2 (by decide)
  refine ⟨State.pe_setPe_same _ _ _, ?_, ?_, ?_, ?_⟩
  · rw [hget, State.get_evC_porter _ _ (by decide) (by decide) (by decide) (by decide), hcode]
  · rw [hget, State.get_evC_porter _ _ (by decide) (by decide) (by decide) (by decide), hslot]
  · rw [hget, State.get_evC_porter _ _ (by decide) (by decide) (by decide) (by decide), haddr]
  · rw [hget, hev]
    simp [bitN_setBitN]

/-- What a memory holds after one word of it has been written. -/
theorem State.memW_of_setMem {s t : State} {a : Nat} {v : Word} (h : t.mem = (s.setMem a v).mem) :
    t.memW a = v ∧ ∀ x, x ≠ a → t.memW x = s.memW x :=
  ⟨(State.memW_of_mem h a).trans (s.memW_setMem_same a v), fun x hx => (State.memW_of_mem h x).trans (s.memW_setMem_ne v hx)⟩

/-! The end of a chain's last descriptor (R479). -/

/-- The state of a chain's end before its event. -/
def State.chainEnded (s : State) (r : PorterEng) (d : List Word) : State :=
  ((s.descBack r 1 0 0).descPost d).incMod pPorter1 (PORTER_SCTL.runs r.slot)

theorem State.descEnd_last (s : State) (e : Nat) (r : PorterEng) {d : List Word} (h : dw d 6 = 0) :
    s.descEnd e r d = (((s.chainEnded r d).ev pPorter0 0).setPe e none).showChains r.slot := by
  simp only [State.descEnd]
  rw [if_pos h, ← State.chainEnded]

theorem State.chainEnded_mem (s : State) {r : PorterEng} {w : Word} {l : List Word} (hd : r.desc = some (w :: l))
    (hw : bitN w.toNat 31 = false) :
    (s.chainEnded r (w :: l)).mem = (s.setMem r.addr (word (writeBack w.toNat 1 0 0))).mem ∧
      (s.chainEnded r (w :: l)).porter = s.porter := by
  rw [State.chainEnded, s.descBack_some hd, State.descPost_none _ hw]
  exact ⟨rfl, rfl⟩

/-! The moves of a fill (R479). -/

/-- The Porters run as they ran before a word is moved. -/
theorem State.porterRuns_of {s t : State} (hreg : t.reg (pPorter0 + 1) = s.reg (pPorter0 + 1)) (hclk : t.clk = s.clk)
    (hbusy : t.srstBusy = s.srstBusy) : t.porterRuns = s.porterRuns := by
  have hget : ∀ f : Fld, f.off = 1 → t.get pPorter0 f = s.get pPorter0 f := fun f hf => by rw [State.get, hf, hreg, ← hf, State.get]
  have hflag : ∀ f : Fld, f.off = 1 → t.flag pPorter0 f = s.flag pPorter0 f := fun f hf => by rw [State.flag, hget f hf, State.flag]
  have hoff : ∀ u : State, u.clockOff pPorter0 = u.flag pPorter0 PAGE_CTL.gate_ack := fun _ => rfl
  rw [State.porterRuns, hflag _ rfl, hbusy, hoff, hflag _ rfl, State.domStopped, hclk]
  rfl

/-- One word of a fill moved. -/
def State.fillMoved (s : State) (e : Nat) (r : PorterEng) (d : List Word) : State :=
  ((s.setMem (dMove d r.moved).2 (d.getD 1 0)).incMod pPorter0 PORTER_WORDS.n).setPe e (some { r with moved := r.moved + 1 })

theorem State.fillMoved_runs (s : State) (e : Nat) (r : PorterEng) (d : List Word) :
    (s.fillMoved e r d).porterRuns = s.porterRuns :=
  State.porterRuns_of (State.reg_put_ne (s.setMem (dMove d r.moved).2 (d.getD 1 0)) _ _ _ _ (by decide)) rfl rfl

theorem State.fillMoved_spec (s : State) (e : Nat) (r : PorterEng) (d : List Word) :
    (s.fillMoved e r d).pe e = some { r with moved := r.moved + 1 } ∧ (∀ j, j ≠ e → (s.fillMoved e r d).pe j = s.pe j) ∧
      (s.fillMoved e r d).mem = (s.setMem (dMove d r.moved).2 (d.getD 1 0)).mem ∧
      (s.fillMoved e r d).porter.queue = s.porter.queue :=
  ⟨State.pe_setPe_same _ _ _, fun _ hj => (State.pe_setPe_ne _ _ hj).trans (State.pe_of_porter rfl _), rfl, rfl⟩

section
variable {s : State} {e : Nat} {r : PorterEng} {d : List Word} (hr : s.pe e = some r) (hd : r.desc = some d)
include hr hd

theorem State.moveStep_fill (hrun : s.porterRuns = true) (hk : dKind d = 1) (hm : r.moved < dCount d)
    (ht : targetOf (dMove d r.moved).2 = .commons) : s.moveStep e = s.fillMoved e r d := by
  obtain ⟨slot, addr, desc, n⟩ := r
  obtain rfl : desc = some d := hd
  have hnext : PorterEng.next { slot := slot, addr := addr, desc := some d, moved := n } = [(dMove d n).2] := by
    have hc : ¬(dKind d = 2 ∨ dCount d ≤ n) := by simp only at hm; omega
    simp only [PorterEng.next]
    rw [if_neg hc, if_pos hk]
  have hmove : s.moveWord e d (dMove d n) =
      (none, (s.setMem (dMove d n).2 (d.getD 1 0)).incMod pPorter0 PORTER_WORDS.n) := by
    simp only [State.moveWord, hk, if_true, State.busWrite_of_mem (s := s) (ini := engIni e) (v := d.getD 1 0) (.inl ht)]
    rfl
  have hpe : ((s.setMem (dMove d n).2 (d.getD 1 0)).incMod pPorter0 PORTER_WORDS.n).pe e
      = some { slot := slot, addr := addr, desc := some d, moved := n } := (State.pe_of_porter rfl e).trans hr
  have hwait : s.mustWait (dMove d n).2 = false := s.mustWait_of_target_ne_page (by rw [ht]; decide)
  simp only [State.moveStep, hr, hnext, hmove, hrun, hpe, List.any_cons, List.any_nil, hwait, List.isEmpty_cons]
  rfl

/-- The words that are left of a fill into the Commons are moved one after another. -/
theorem State.moveSteps_fill (hrun : s.porterRuns = true) (hk : dKind d = 1) (n : Nat) (hn : r.moved + n ≤ dCount d)
    (ht : ∀ k < dCount d, targetOf (dMove d k).2 = .commons) :
    (s.moveSteps e n).pe e = some { r with moved := r.moved + n } ∧
      (∀ k, r.moved ≤ k → k < r.moved + n → (s.moveSteps e n).memW (dMove d k).2 = d.getD 1 0) ∧
      (∀ a, (∀ k, r.moved ≤ k → k < r.moved + n → a ≠ (dMove d k).2) → (s.moveSteps e n).memW a = s.memW a) ∧
      (s.moveSteps e n).porter.queue = s.porter.queue := by
  induction n generalizing s r with
  | zero => exact ⟨hr, fun k h1 h2 => absurd h2 (by omega), fun _ _ => rfl, rfl⟩
  | succ n ih =>
    obtain ⟨hpe, -, hmem, hqueue⟩ := s.fillMoved_spec e r d
    obtain ⟨hsame, hother⟩ := State.memW_of_setMem hmem
    obtain ⟨hpe', hin, hout, hqueue'⟩ := ih (s := s.fillMoved e r d) hpe hd (by rw [State.fillMoved_runs, hrun])
      (by simp only; omega)
    have hstep : s.moveSteps e (n + 1) = (s.fillMoved e r d).moveSteps e n := by
      rw [State.moveSteps, State.moveStep_fill hr hd hrun hk (by omega) (ht _ (by omega))]
    rw [hstep]
    refine ⟨by rw [hpe']; simp only [Nat.add_assoc, Nat.add_comm 1], fun k h1 h2 => ?_, fun a ha => ?_, hqueue'.trans hqueue⟩
    · by_cases hlater : ∃ j, r.moved + 1 ≤ j ∧ j < r.moved + 1 + n ∧ (dMove d k).2 = (dMove d j).2
      · obtain ⟨j, hj1, hj2, hj⟩ := hlater
        rw [hj]
        exact hin j hj1 hj2
      · have hfirst : k = r.moved := by
          by_contra hne
          exact hlater ⟨k, by omega, by omega, rfl⟩
        rw [hout _ fun j hj1 hj2 he => hlater ⟨j, hj1, hj2, he⟩, hfirst, hsame]
    · rw [hout a fun k h1 h2 => ha k (by simp only at h1; omega) (by simp only at h2; omega), hother a (ha _ (by omega) (by omega))]

omit hd in
theorem State.moveStep_waits (h : s.mustWait (r.next.getD 0 0) = true) : s.moveStep e = s := by
  obtain ⟨slot, addr, desc, n⟩ := r
  cases desc with
  | none => simp only [State.moveStep, hr]
  | some d =>
    simp only [State.moveStep, hr]
    refine if_pos ?_
    generalize PorterEng.next { slot := slot, addr := addr, desc := some d, moved := n } = l at h
    cases l with
    | nil => simp
    | cons m l =>
      have hm : s.mustWait m = true := by simpa using h
      simp [hm]

/-! DESCRIPTOR_DONE and DESCRIPTOR_FAILED. -/

theorem doDescriptorDone_at : doDescriptorDone e s =
    if !s.porterRuns then s
    else if dKind d = 2 then (if s.mramLeft e = 0 then s.descEnd e r d else s)
    else if (s.moveSteps e (dCount d - r.moved)).pe e = some { r with moved := dCount d } then
      (s.moveSteps e (dCount d - r.moved)).descEnd e { r with moved := dCount d } d
    else s.moveSteps e (dCount d - r.moved) := by
  obtain ⟨slot, addr, desc, n⟩ := r
  obtain rfl : desc = some d := hd
  simp only [doDescriptorDone, hr]

theorem doDescriptorDone_fill (hrun : s.porterRuns = true) (hk : dKind d = 1) (hm : r.moved = 0)
    (ht : ∀ m ∈ dMoves d, targetOf m.2 = .commons) :
    ∃ v : State, doDescriptorDone e s = v.descEnd e { r with moved := dCount d } d ∧ (∀ m ∈ dMoves d, v.memW m.2 = d.getD 1 0) ∧
      (∀ a, (∀ m ∈ dMoves d, a ≠ m.2) → v.memW a = s.memW a) ∧ v.porter.queue = s.porter.queue := by
  have hmoves : ∀ k < dCount d, dMove d k ∈ dMoves d := fun k hk => List.mem_map_of_mem (List.mem_range.mpr hk)
  obtain ⟨hpe, hin, hout, hqueue⟩ := State.moveSteps_fill hr hd hrun hk (dCount d - r.moved) (by omega)
    fun k hk => ht _ (hmoves k hk)
  have hall : r.moved + (dCount d - r.moved) = dCount d := by omega
  rw [hall] at hpe hin hout
  refine ⟨s.moveSteps e (dCount d - r.moved), ?_, fun m hm' => ?_, fun a ha => hout a fun k _ hk => ha _ (hmoves k hk), hqueue⟩
  · rw [doDescriptorDone_at hr hd, if_neg (by simp [hrun]), if_neg (by omega), if_pos hpe]
  · obtain ⟨k, hk', rfl⟩ := List.mem_map.mp hm'
    exact hin k (by omega) (List.mem_range.mp hk')

theorem doDescriptorFailed_at (addr : Nat) (onWrite : Bool) (how : AccessEnd) : doDescriptorFailed e addr onWrite how s =
    if !s.porterRuns then s
    else if !onWrite && inRange addr r.addr 8 then
      (if how.good then s.noteRead addr (engIni e) false false how
      else (s.noteRead addr (engIni e) false false how).descFail e r (if onWrite then 3 else 2))
    else match r.wordAt d addr onWrite with
      | none => s
      | some i =>
        if onWrite && !dReadsFirst d i && decide (how ≠ .noResponse) then s
        else if how.good then s.noteRead addr (engIni e) false false how
        else if dKind d = 2 then
          (match s.cutMram e i d with
           | some t => if onWrite then s else (t.noteRead addr (engIni e) false false how).descFail e r (if onWrite then 3 else 2)
           | none => s)
        else if (s.moveSteps e (i - r.moved)).pe e = some { r with moved := i } then
          ((s.moveSteps e (i - r.moved)).noteRead addr (engIni e) false false how).descFail e { r with moved := i }
            (if onWrite then 3 else 2)
        else s.moveSteps e (i - r.moved) := by
  obtain ⟨slot, a, desc, n⟩ := r
  obtain rfl : desc = some d := hd
  simp only [doDescriptorFailed, hr] <;> rfl

theorem doDescriptorFailed_ok (addr : Nat) (onWrite : Bool) : doDescriptorFailed e addr onWrite .ok s = s := by
  rw [doDescriptorFailed_at hr hd]
  simp only [AccessEnd.good, State.noteRead, if_true, ite_self]
  split
  · rfl
  · split
    · rfl
    · split <;> simp

theorem doDescriptorFailed_read (hrun : s.porterRuns = true) (how : AccessEnd) {addr : Nat} (hlo : r.addr ≤ addr)
    (hhi : addr < r.addr + 8) : doDescriptorFailed e addr false how s =
      if how.good then s.noteRead addr (engIni e) false false how
      else (s.noteRead addr (engIni e) false false how).descFail e r 2 := by
  have hin : inRange addr r.addr 8 = true := by simp [inRange]; omega
  rw [doDescriptorFailed_at hr hd, if_neg (by simp [hrun]), if_pos (by simp [hin])]
  rfl

/-- The write of a descriptor's first word fails. -/
theorem doDescriptorFailed_firstWrite (hrun : s.porterRuns = true) {how : AccessEnd} (hg : how.good = false) (hk : dKind d < 2)
    (hm : r.moved = 0) (hw : how = .noResponse ∨ dReadsFirst d 0 = true) {m : Nat × Nat} {l : List (Nat × Nat)}
    (hmoves : dMoves d = m :: l) : doDescriptorFailed e m.2 true how s =
      (s.noteRead m.2 (engIni e) false false how).descFail e r 3 := by
  have hcount : 0 < dCount d := by
    have hlen : (dMoves d).length = dCount d := by simp [dMoves]
    rw [← hlen, hmoves]
    exact Nat.succ_pos _
  have hfirst : dMove d 0 = m := by
    have h0 : (dMoves d)[0]? = some m := by rw [hmoves]; rfl
    simpa [dMoves, List.getElem?_map, List.getElem?_range hcount] using h0
  have hat : r.wordAt d m.2 true = some 0 := by
    obtain ⟨n, hn⟩ : ∃ n, dCount d = n + 1 := ⟨dCount d - 1, by omega⟩
    simp [PorterEng.wordAt, hn, List.range_succ_eq_map, hm, hfirst]
  have hcan : (true && !dReadsFirst d 0 && decide (how ≠ .noResponse)) = false := by
    rcases hw with h | h <;> simp [h]
  have hr0 : ({ r with moved := 0 } : PorterEng) = r := by rw [← hm]
  rw [doDescriptorFailed_at hr hd, if_neg (by simp [hrun]), if_neg (by simp)]
  simp only [hat, hcan, hg, hm, Bool.false_eq_true, if_false, if_true, Nat.sub_self, State.moveSteps, hr0, hr]
  rw [if_neg (by omega)]

end

theorem doDescriptor_idle {s : State} {e : Nat} (h : ∀ r d, s.pe e = some r → r.desc = some d → s.porterRuns = false) :
    doDescriptorDone e s = s ∧ ∀ a w how, doDescriptorFailed e a w how s = s := by
  constructor
  · unfold doDescriptorDone
    split
    · rename_i hr
      simp [h _ _ hr rfl]
    · rfl
  · intro a w how
    unfold doDescriptorFailed
    split
    · rename_i hr
      simp [h _ _ hr rfl]
    · rfl

/-! The block reset (R481). -/

theorem State.resetPage_mem (s : State) (p : Nat) (keep : Nat → Bool) (blk : Nat) : (s.resetPage p keep blk).mem = s.mem := by
  simp only [State.resetPage, State.put_mem, State.setReg_mem]
  exact overAll_induct (Q := fun t => t.mem = s.mem) rfl fun _ _ h => h

/-- The descriptors in progress written back with code 6. -/
def State.descsAborted (s : State) : State :=
  overAll (List.range 4) s (fun e t => match t.pe e with | some r => t.descBack r 0 1 6 | none => t)

/-- The words of the chains in flight cleared. -/
def State.chainWordsReset (s : State) (chains : List Nat) : State :=
  overAll (List.range 64) (s.resetPage pPorter0 (fun _ => false) 0)
    (fun k t => if chains.contains k then t.put pPorter1 (PORTER_SCTL.queued k) 0 else t)

theorem State.chainWordsReset_mem (s : State) (chains : List Nat) : (s.chainWordsReset chains).mem = s.mem := by
  refine overAll_induct (Q := fun t => t.mem = s.mem) (s.resetPage_mem _ _ _) fun k t h => ?_
  split
  · exact h
  · exact h

/-- No chain is in flight, and the block is held in its reset. -/
def State.porterHeld (s : State) : State :=
  { s with porter := {}, mwq := s.mwq.take 16 ++ (s.mwq.drop 16).filter (fun (r : MramWr) => r.src == 0)
           srstBusy := if pPorter0 ∈ s.srstBusy then s.srstBusy else pPorter0 :: s.srstBusy }.showMwq

theorem State.porterHeld_spec (s : State) :
    s.porterHeld.porter = {} ∧ s.porterHeld.mem = s.mem ∧ pPorter0 ∈ s.porterHeld.srstBusy := by
  refine ⟨rfl, rfl, ?_⟩
  show pPorter0 ∈ (if pPorter0 ∈ s.srstBusy then s.srstBusy else pPorter0 :: s.srstBusy)
  split
  · assumption
  · exact List.mem_cons_self

theorem doPorterSrst_eq (s : State) : doPorterSrst s =
    if s.chains.length = 0 then (s.descsAborted.chainWordsReset s.chains).porterHeld
    else (s.descsAborted.chainWordsReset s.chains).porterHeld.ev pPorter0 3 := rfl

theorem doPorterSrst_spec (s : State) : (doPorterSrst s).porter = {} ∧ (doPorterSrst s).mem = s.descsAborted.mem ∧
    pPorter0 ∈ (doPorterSrst s).srstBusy := by
  obtain ⟨hporter, hmem, hbusy⟩ := (s.descsAborted.chainWordsReset s.chains).porterHeld_spec
  have hmem' := hmem.trans (s.descsAborted.chainWordsReset_mem s.chains)
  rw [doPorterSrst_eq]
  split
  · exact ⟨hporter, hmem', hbusy⟩
  · exact ⟨(State.ev_porter _ _ _).trans hporter, (State.ev_mem _ _ _).trans hmem', by rwa [State.ev_srstBusy]⟩

/-- One chain is in flight, in engine 0. -/
theorem State.descsAborted_one {s : State} {r : PorterEng} {w : Word} {d : List Word} (h0 : s.pe 0 = some r) (h1 : s.pe 1 = none)
    (h2 : s.pe 2 = none) (h3 : s.pe 3 = none) (hd : r.desc = some (w :: d)) :
    s.descsAborted = s.setMem r.addr (word (writeBack w.toNat 0 1 6)) := by
  have hpe : ∀ e, (s.setMem r.addr (word (writeBack w.toNat 0 1 6))).pe e = s.pe e := State.pe_of_porter rfl
  have hrange : List.range 4 = [0, 1, 2, 3] := rfl
  simp only [State.descsAborted, hrange, overAll, h0, s.descBack_some hd, hpe, h1, h2, h3]

end Sys2Proof.Machine

namespace Sys2Proof

open Machine

/-- Settles O46, a lemma for each command of the Porters and each operation of an engine. -/
theorem porterCommands : Obligations.PorterCommands := by
  refine ⟨?noSlot, ?refused, ?off, ?accepted, ?stopped, ?working, ?nothing, ?empty, fun s k => State.nextChain_spec, ?takes,
    fun s e r h => s.beginDesc_badAddr r h, descAddrOk_iff, ?read, ?failed, fun s e h => ?idle, ?mramLeft, ?mramDone, ?fill, ?step,
    fun s e r hr h => State.moveStep_waits hr h, ?last, ?ok, ?corrected, ?badRead, ?badWrite, ?srst, ?aborted⟩
  case noSlot =>
    intro s k ht hk
    show Host.Outcome.next (s.writeWord 0 (pPorter0 + 0x10) _ (doPorterStart k)) = _
    rw [State.writeWord_of_takes ht, doPorterStart, if_neg (by omega)]
  case refused =>
    intro s k ht hk h
    refine ⟨(s.startNoted k).inc pPorter0 PORTER_STAT.refused, ?_,
      (State.inc_porter _ _ _).trans (s.startNoted_frame k).1, ?_⟩
    · show Host.Outcome.next (s.writeWord 0 (pPorter0 + 0x10) _ (doPorterStart k)) = _
      rw [State.writeWord_of_takes ht, doPorterStart_refused hk h]
    · rw [State.get_inc_same _ _ _ (by decide) (by decide), State.startNoted, State.get_put_word _ _ _ _ _ _ (by simp)]
  case off =>
    intro s k ht hk hl hr hb hen
    obtain ⟨hcode, hslot, haddr⟩ :=
      (s.startNoted k).failNoted_get (code := 8) ((s.startNoted k).get pPorter1 (PORTER_SHEAD.head k)) hk (by decide)
    refine ⟨_, ?_, hcode, hslot, haddr.trans ?_, (State.failNoted_porter _ _ _ _).trans (s.startNoted_frame k).1⟩
    · show Host.Outcome.next (s.writeWord 0 (pPorter0 + 0x10) _ (doPorterStart k)) = _
      rw [State.writeWord_of_takes ht, doPorterStart_open hk hl hr hb, if_pos ((s.flag_startNoted k).trans hen), State.porterFail_eq]
    · rw [s.head_startNoted k]
      exact Nat.mod_eq_of_lt (s.get_lt pPorter1 (PORTER_SHEAD.head k))
  case accepted =>
    intro s k ht hk hl hr hb hen
    have hchains : ((s.startNoted k).chainQueued k).chains.length = s.chains.length + 1 := by
      rw [State.chainQueued_chains, State.chains_startNoted]
    obtain ⟨hin, hhwm⟩ := ((s.startNoted k).chainQueued k).showChains_get k (by omega)
    obtain ⟨hporter, hmem⟩ := ((s.startNoted k).chainQueued k).showChains_frame k
    obtain ⟨hporter₀, hmem₀⟩ := s.startNoted_frame k
    refine ⟨((s.startNoted k).chainQueued k).showChains k, ?_, ?_, hin.trans hchains, hchains ▸ hhwm, hmem.trans hmem₀⟩
    rotate_left
    · rw [hporter, State.chainQueued, hporter₀]
    show Host.Outcome.next (s.writeWord 0 (pPorter0 + 0x10) _ (doPorterStart k)) = _
    rw [State.writeWord_of_takes ht, doPorterStart_open hk hl hr hb,
      if_neg (by rw [s.flag_startNoted k, hen]; exact Bool.noConfusion)]
  case stopped => exact fun s e h => congrArg Host.Outcome.next (doEngineAssign_stopped h)
  case working => exact fun s e r d hr hd => congrArg Host.Outcome.next (doEngineAssign_working hr hd)
  case nothing => exact fun s e hr hn => congrArg Host.Outcome.next (doEngineAssign_none hr hn)
  case empty =>
    intro s h
    simp [State.nextChain, h]
  case takes => exact fun s e k he hrun hb hr hn => ⟨_, congrArg Host.Outcome.next (doEngineAssign_takes he hrun hb hr hn), rfl⟩
  case read =>
    intro s e r d ha hb hd
    refine ⟨fun hv => ?_, fun hv hk => ?_⟩
    · rw [s.beginDesc_read r ha hb hd, if_pos hv]
    · rw [s.beginDesc_read r ha hb hd, if_neg (by simp [hv]), if_neg (by omega)]
  case failed =>
    intro s e r d w l code hc _ hs hd hl hw
    subst hl
    obtain ⟨hpe, hcode, hslot, haddr, hev⟩ := s.descStopped_record e r hs hc
    obtain ⟨hback, hother⟩ := State.memW_of_setMem (s.descStopped_mem e code hd hw)
    exact ⟨_, s.descFail_eq e r code, hpe, hcode, hslot, haddr, by rw [hback, writeBack_failed _ hc], hother, hev⟩
  case idle =>
    obtain ⟨hdone, hfailed⟩ := doDescriptor_idle h
    exact ⟨congrArg Host.Outcome.next hdone, fun a w how => congrArg Host.Outcome.next (hfailed a w how)⟩
  case mramLeft =>
    intro s e r d hr hd hrun hk hl
    show Host.Outcome.next (doDescriptorDone e s) = _
    rw [doDescriptorDone_at hr hd, if_neg (by simp [hrun]), if_pos hk, if_neg (by omega)]
  case mramDone =>
    intro s e r d hr hd hrun hk hl
    show Host.Outcome.next (doDescriptorDone e s) = _
    rw [doDescriptorDone_at hr hd, if_neg (by simp [hrun]), if_pos hk, if_pos hl]
  case fill =>
    intro s e r d hr hd hrun hk _ ht _ hm
    obtain ⟨v, hdo, hin, hout, hqueue⟩ := doDescriptorDone_fill hr hd hrun hk hm ht
    exact ⟨v, congrArg Host.Outcome.next hdo, hin, hout, hqueue⟩
  case step =>
    intro s e r d hr hd hrun hk hm _ ht _
    obtain ⟨hpe, hother, hmem, -⟩ := s.fillMoved_spec e r d
    obtain ⟨hsame, hrest⟩ := State.memW_of_setMem hmem
    rw [State.moveStep_fill hr hd hrun hk hm ht]
    exact ⟨hsame, hrest, hpe, hother⟩
  case last =>
    intro s e r d w l hd hl hw h6 _ _
    subst hl
    obtain ⟨hmem, hporter⟩ := s.chainEnded_mem hd hw
    obtain ⟨hback, hother⟩ := State.memW_of_setMem hmem
    exact ⟨_, s.descEnd_last e r h6, by rw [hback, writeBack_done], hother, hporter⟩
  case ok =>
    intro s e a w
    by_cases h : ∀ r d, s.pe e = some r → r.desc = some d → s.porterRuns = false
    · exact congrArg Host.Outcome.next ((doDescriptor_idle h).2 a w .ok)
    · push Not at h
      obtain ⟨r, d, hr, hd, -⟩ := h
      exact congrArg Host.Outcome.next (doDescriptorFailed_ok hr hd a w)
  case corrected =>
    intro s e a syn r d hr hd hrun hlo hhi
    show Host.Outcome.next (doDescriptorFailed e a false (.corrected syn) s) = _
    rw [doDescriptorFailed_read hr hd hrun _ hlo hhi]
    rfl
  case badRead =>
    intro s e a how r d hr hd hrun hg hlo hhi
    show Host.Outcome.next (doDescriptorFailed e a false how s) = _
    rw [doDescriptorFailed_read hr hd hrun _ hlo hhi, if_neg (by simp [hg])]
  case badWrite =>
    intro s e a how r d m l hr hd hrun hg hk hm hw hmoves ha
    subst ha
    exact congrArg Host.Outcome.next (doDescriptorFailed_firstWrite hr hd hrun hg hk hm hw hmoves)
  case srst =>
    intro s
    obtain ⟨hporter, -, hbusy⟩ := doPorterSrst_spec s
    exact ⟨_, rfl, by rw [hporter], fun e => by rw [State.pe, hporter]; rfl, hbusy⟩
  case aborted =>
    intro s r w d hq h0 h1 h2 h3 hd
    have hchains : s.chains.length ≠ 0 := by
      have hrange : List.range 4 = [0, 1, 2, 3] := rfl
      simp [State.chains, hq, hrange, h0, h1, h2, h3]
    obtain ⟨-, hmem, -⟩ := doPorterSrst_spec s
    rw [State.descsAborted_one h0 h1 h2 h3 hd] at hmem
    obtain ⟨hback, hother⟩ := State.memW_of_setMem hmem
    refine ⟨_, rfl, ?_, by rw [hback, writeBack_failed _ (by decide)], hother⟩
    rw [doPorterSrst_eq, if_neg hchains, State.get_ev_ev _ _ (by decide)]
    simp [bitN_setBitN]

end Sys2Proof
end

section
/-! PROOF. The plant Ethernet ports: receive, transmit, pauses and links. -/

namespace Sys2Proof.Machine

/-! The records of the ports. -/

@[simp] theorem State.et_setEt_same (s : State) (e : Nat) (r : EthSt) : (s.setEt e r).et e = r := by
  simp [State.et, State.setEt, Tab.rd_wr_same]

theorem State.et_setEt_ne (s : State) {e k : Nat} (r : EthSt) (h : k ≠ e) : (s.setEt e r).et k = s.et k := by
  simp [State.et, State.setEt, Tab.rd, Tab.wr, Tab.get_set_other _ _ _ h]

theorem State.et_of_eth {s t : State} (h : t.eth = s.eth) (e : Nat) : t.et e = s.et e := by simp [State.et, h]

/-- Nothing differs but the ports' records and some register words. -/
def EthRegs (as : List Nat) (s t : State) : Prop := RegsOnly as { s with eth := t.eth } t

section
variable {as : List Nat} {s t : State} (h : EthRegs as s t)
include h

theorem EthRegs.regW {a : Nat} (ha : a ∉ as) : t.regW a = s.regW a := h.1 a ha

theorem EthRegs.reg {a : Nat} (ha : a ∉ as) : t.reg a = s.reg a := congrArg BitVec.toNat (h.regW ha)

theorem EthRegs.get {p : Nat} {f : Fld} (hf : p + f.off ∉ as) : t.get p f = s.get p f :=
  congrArg (fun w : Word => fldGet w.toNat f) (h.regW hf)

theorem EthRegs.frame : t = { s with eth := t.eth, regs := t.regs } := h.2

theorem EthRegs.setEt {e : Nat} {r : EthSt} : EthRegs as s (t.setEt e r) := by
  refine ⟨fun a ha => h.1 a ha, ?_⟩
  have hf := h.frame
  generalize t.regs = regs at hf
  generalize t.eth = eth at hf
  subst hf
  rfl

theorem EthRegs.put {p : Nat} {f : Fld} {v : Nat} (hf : p + f.off ∈ as) : EthRegs as s (t.put p f v) :=
  RegsOnly.put h v hf

theorem EthRegs.inc {p : Nat} {f : Fld} (hf : p + f.off ∈ as) : EthRegs as s (t.inc p f) := h.put hf

end

theorem EthRegs.refl (as : List Nat) (s : State) : EthRegs as s s := RegsOnly.refl s as

theorem pEth_ne_pEth0 {e : Nat} {o k : Nat} (ho : o < 0x100) (hk : k < 0x100) : pEth e + o ≠ pEth0 + k := by
  unfold pEth pEth0; omega

/-! The commands of the block are carried out while its clock runs. -/

theorem State.clocked_of_on {s : State} {a : Nat} (h : s.clockOff a = false) (k : State → State) : s.clocked a k = k s := by
  simp [State.clocked, h]

/-! Frames received (R386, R388). -/

/-- The port shows traffic. -/
def State.ethNoted (s : State) (e : Nat) : State := s.setEt e { s.et e with busyAt := some s.now }

section
variable {s : State} {e : Nat} {f : EthFrame} (hc : s.clockOff pEth0 = false) (he : e < 2)
  (hup : s.flag (pEth e) ETH_LINK.up = true) (hen : s.flag (pEth e) PAGE_CTL.en = true) (hfcs : f.fcsOk = true)
  (hlen : 60 ≤ f.octets.length) (hmax : f.octets.length + 4 ≤ s.get (pEth e) ETH_CFG.maxfr)
include hc he hup hen hfcs hlen hmax

/-- A frame of a permitted length with a good FCS. -/
theorem execEthFrameReceive_good : execEthFrameReceive e f s = .next
    (if word16 f.octets 12 = 0x8808 then
      (if word16 f.octets 14 = 0x0101 then ((s.ethNoted e).inc (pEth e) ETH_PFCC.rx).pfcReceive e f.octets
      else (s.ethNoted e).inc (pEth e) ETH_PFCC.rx)
    else if (s.ethNoted e).ethMine e f.octets = false then s.ethNoted e
    else ((s.ethNoted e).ethBuffer e (framePcp f.octets) f).ethShow.ethDrain e) := by
  have hmax' : ¬(f.fcsOk = false ∨ f.octets.length + 4 < 64 ∨ (s.ethNoted e).get (pEth e) ETH_CFG.maxfr < f.octets.length + 4) := by
    have hg : (s.ethNoted e).get (pEth e) ETH_CFG.maxfr = s.get (pEth e) ETH_CFG.maxfr := rfl
    rw [hg, hfcs]
    simp only [Bool.true_eq_false, false_or]
    omega
  have hgo : ¬(2 ≤ e ∨ s.flag (pEth e) ETH_LINK.up = false ∨ s.flag (pEth e) PAGE_CTL.en = false) := by
    simp only [hup, hen]
    simp only [Bool.true_eq_false, or_false]
    omega
  simp only [execEthFrameReceive, State.clocked_of_on hc]
  rw [if_neg hgo]
  simp only [State.ethBusy]
  rw [← State.ethNoted, if_neg hmax']

end

/-! Pauses received (R388). -/

section
variable (s : State) (e : Nat) (o : List Nat)

/-- The end of a pause of a priority. -/
def State.pauseEnd (s : State) (e : Nat) (o : List Nat) (p : Nat) : Option Nat :=
  if word16 o (18 + 2 * p) = 0 then none else some (s.t64 0 + word16 o (18 + 2 * p) * 512 * 64000 / s.ethRate e)

/-- What a PFC frame does to one priority. -/
def State.pausePriority (s : State) (e : Nat) (o : List Nat) (p : Nat) : State :=
  if bitN (word16 o 16) p && s.flag (pEth e) ETH_PFC.en then
    s.setEt e { s.et e with paused := Tab.wr (s.et e).paused p (s.pauseEnd e o p) }
  else s

theorem State.pfcReceive_eq : s.pfcReceive e o =
    (s.pausePriority e o (s.get (pEth e) ETH_PFC.pa)).pausePriority e o (s.get (pEth e) ETH_PFC.pb) := rfl

theorem State.pausePriority_frame (p : Nat) : s.pausePriority e o p = { s with eth := (s.pausePriority e o p).eth } := by
  unfold State.pausePriority
  split
  · rfl
  · rfl

theorem State.pausePriority_paused (hen : s.flag (pEth e) ETH_PFC.en = true) (p k : Nat) :
    Tab.rd ((s.pausePriority e o p).et e).paused k =
      if k = p ∧ bitN (word16 o 16) p = true then s.pauseEnd e o p else Tab.rd (s.et e).paused k := by
  unfold State.pausePriority
  rw [hen, Bool.and_true]
  by_cases hb : bitN (word16 o 16) p = true
  · rw [if_pos hb, State.et_setEt_same]
    by_cases hk : k = p
    · subst hk
      rw [if_pos ⟨rfl, hb⟩, Tab.rd_wr_same]
    · rw [if_neg (by simp [hk])]
      simp only [Tab.rd, Tab.wr, Tab.get_set_other _ _ _ hk]
  · rw [if_neg hb, if_neg (by simp [hb])]

theorem State.pfcReceive_frame : s.pfcReceive e o = { s with eth := (s.pfcReceive e o).eth } := by
  rw [State.pfcReceive_eq]
  generalize s.get (pEth e) ETH_PFC.pa = pa
  generalize s.get (pEth e) ETH_PFC.pb = pb
  have h1 := s.pausePriority_frame e o pa
  have h2 := (s.pausePriority e o pa).pausePriority_frame e o pb
  rw [h2]
  generalize ((s.pausePriority e o pa).pausePriority e o pb).eth = eth
  rw [h1]

theorem State.pfcReceive_paused (hen : s.flag (pEth e) ETH_PFC.en = true) (k : Nat) :
    Tab.rd ((s.pfcReceive e o).et e).paused k =
      if (k = s.get (pEth e) ETH_PFC.pa ∨ k = s.get (pEth e) ETH_PFC.pb) ∧ bitN (word16 o 16) k = true then s.pauseEnd e o k
      else Tab.rd (s.et e).paused k := by
  rw [State.pfcReceive_eq]
  generalize s.get (pEth e) ETH_PFC.pa = pa
  generalize s.get (pEth e) ETH_PFC.pb = pb
  have h1 := s.pausePriority_frame e o pa
  have hen' : (s.pausePriority e o pa).flag (pEth e) ETH_PFC.en = true := by rw [h1]; exact hen
  have hend : (s.pausePriority e o pa).pauseEnd e o pb = s.pauseEnd e o pb := by rw [h1]; rfl
  rw [State.pausePriority_paused _ _ _ hen', State.pausePriority_paused _ _ _ hen, hend]
  by_cases hb : k = pb
  · subst hb
    by_cases hbit : bitN (word16 o 16) k = true <;> simp [hbit]
    intro hp
    simp [← hp, hbit]
  · by_cases ha : k = pa
    · subst ha
      simp [hb]
    · simp [hb, ha]

end

/-! A frame in a receive buffer (R388). -/

/-- A received frame as the port keeps it. -/
def State.ethFrameOf (s : State) (e : Nat) (f : EthFrame) : EthRx :=
  { prio := framePcp f.octets, rx := s.rxStamp (10 + e) (s.ingress (10 + e) f.stamp), frame := f }

theorem State.ethNoted_regs {as : List Nat} (s : State) (e : Nat) : EthRegs as s (s.ethNoted e) := by
  unfold State.ethNoted
  exact (EthRegs.refl as s).setEt

/-- A received frame in the shared buffer of a port that holds no other. -/
def State.ethWaits (s : State) (e : Nat) (f : EthFrame) : State :=
  ((s.ethNoted e).setEt e { s.et e with busyAt := some s.now, rx := [s.ethFrameOf e f] }).ethShow

theorem State.ethShow_regs {as : List Nat} {s t : State} (h : EthRegs as s t) (ha : pEth0 + 0x10 ∈ as) : EthRegs as s t.ethShow := by
  simp only [State.ethShow]
  split
  · exact (h.put ha).put ha
  · exact h.put ha

theorem State.ethShow_eth (s : State) : s.ethShow.eth = s.eth := by
  simp only [State.ethShow, apply_ite State.eth, State.put_eth, ite_self]

theorem State.ethShow_mem (s : State) : s.ethShow.mem = s.mem := by
  simp only [State.ethShow, apply_ite State.mem, State.put_mem, ite_self]

theorem State.ethShow_use (s : State) : s.ethShow.get pEth0 ETH_BUF.use = s.ethUse % 2 ^ 18 := by
  have hput : (s.put pEth0 ETH_BUF.use s.ethUse).get pEth0 ETH_BUF.use = s.ethUse % 2 ^ 18 :=
    State.get_put_same _ _ _ _ (by decide) (by decide)
  simp only [State.ethShow]
  split
  · rw [State.get_put_field _ _ _ _ _ _ (by decide) (by decide) (by decide) (by decide), hput]
  · exact hput

/-- The ports' frames are as many units as before and those of the one that came. -/
theorem State.ethUse_setEt {s : State} {e : Nat} (he : e < 2) (h : (s.et e).rx = []) (r : EthSt) {x : EthRx} (hr : r.rx = [x])
    (hx : x.head = false) : (s.setEt e r).ethUse = s.ethUse + (x.frame.octets.length + 63) / 64 := by
  have hunits : rxUnits [x] = (x.frame.octets.length + 63) / 64 := by simp [rxUnits, hx]
  have hnone : rxUnits [] = 0 := rfl
  obtain rfl | rfl : e = 0 ∨ e = 1 := by omega
  · rw [State.ethUse, State.et_setEt_same, State.et_setEt_ne _ _ (by decide), hr, hunits, State.ethUse, h, hnone]
    omega
  · rw [State.ethUse, State.et_setEt_same, State.et_setEt_ne _ _ (by decide), hr, hunits, State.ethUse, h, hnone]
    omega

section
variable {s : State} {e : Nat} (f : EthFrame)

theorem State.ethBuffer_open (hl : s.lossless e (framePcp f.octets) = false) (hrx : (s.et e).rx = [])
    (hroom : s.ethUse + (f.octets.length + 63) / 64 ≤ 8192) :
    (s.ethNoted e).ethBuffer e (framePcp f.octets) f =
      (s.ethNoted e).setEt e { s.et e with busyAt := some s.now, rx := [s.ethFrameOf e f] } := by
  have hl' : (s.ethNoted e).lossless e (framePcp f.octets) = false := hl
  have het : (s.ethNoted e).et e = { s.et e with busyAt := some s.now } := State.et_setEt_same _ _ _
  have huse : (s.ethNoted e).ethUse = s.ethUse := by
    have hk : ∀ k, ((s.ethNoted e).et k).rx = (s.et k).rx := fun k => by
      by_cases hke : k = e
      · rw [hke, het]
      · rw [State.ethNoted, State.et_setEt_ne _ _ hke]
    rw [State.ethUse, hk, hk, State.ethUse]
  have hx : (s.ethNoted e).rxStamp (10 + e) ((s.ethNoted e).ingress (10 + e) f.stamp)
      = s.rxStamp (10 + e) (s.ingress (10 + e) f.stamp) := rfl
  simp only [State.ethBuffer, hl', huse, hroom, het, hx, hrx, decide_true, if_true, Bool.false_eq_true, if_false,
    List.nil_append, State.ethFrameOf]

/-- What the waiting frame leaves of the state. -/
theorem State.ethWaits_spec : EthRegs [pEth0 + 0x10] s (s.ethWaits e f) ∧
    (s.ethWaits e f).et e = { s.et e with busyAt := some s.now, rx := [s.ethFrameOf e f] } := by
  unfold State.ethWaits
  refine ⟨State.ethShow_regs (s.ethNoted_regs e).setEt (by simp), ?_⟩
  rw [State.et_of_eth (State.ethShow_eth _), State.et_setEt_same]

end

/-! Delivery to a descriptor (R384). -/

theorem State.qAdvance_frame (s : State) (a : Nat) : ∃ wire heldPosts,
    s.qAdvance a = { s.setReg (a + 2) ((s.qHead a + 1) % s.qSize a) with wire := wire, heldPosts := heldPosts } := by
  simp only [State.qAdvance]
  split
  · exact State.offerPost_frame _ _
  · exact ⟨_, _, rfl⟩

theorem State.setMem_frame {s t : State} {a : Nat} {v : Word} (h : ∃ mem, t = { s with mem := mem }) :
    ∃ mem, t.setMem a v = { s with mem := mem } := by
  obtain ⟨mem, rfl⟩ := h
  exact ⟨_, rfl⟩

theorem State.putWords_frame (s : State) (a : Nat) (l : List Word) : ∃ mem, s.putWords a l = { s with mem := mem } := by
  induction l generalizing s a with
  | nil => exact ⟨_, rfl⟩
  | cons w r ih =>
    obtain ⟨mem, h⟩ := ih (s.setMem a w) (a + 1)
    exact ⟨mem, h⟩

/-- The memory words of a delivered frame: its buffer and its descriptor. -/
def State.rxWritten (s : State) (a port : Nat) (oct : List Nat) (x : StampRec) (w5 : Nat) : State :=
  let d := s.qDesc a
  let s1 := s.putWords (s.memW (d + 1)).toNat (packWords oct)
  let s2 := ((((s1.setMem (d + 2) (word (t72Hi x.t64))).setMem (d + 3) (word (t72Lo x.t64))).setMem (d + 4) (word x.st)).setMem
    (d + 5) (word w5)).setMem (d + 6) 0
  (s2.setMem (d + 7) 0).setMem d (word (2 ^ 35 + port * 2 ^ 30 + oct.length))

section
variable (s : State) (a port : Nat) (oct : List Nat) (x : StampRec) (w5 : Nat)

theorem State.rxDeliver_eq : s.rxDeliver a port oct x w5 = (s.rxWritten a port oct x w5).qAdvance a := rfl

theorem State.rxWritten_frame : ∃ mem, s.rxWritten a port oct x w5 = { s with mem := mem } :=
  State.setMem_frame <| State.setMem_frame <| State.setMem_frame <| State.setMem_frame <| State.setMem_frame <| State.setMem_frame <|
    State.setMem_frame (s.putWords_frame _ _)

theorem State.rxWritten_memW :
    (s.rxWritten a port oct x w5).memW (s.qDesc a) = word (2 ^ 35 + port * 2 ^ 30 + oct.length) ∧
      (s.rxWritten a port oct x w5).memW (s.qDesc a + 4) = word x.st := by
  simp only [State.rxWritten]
  refine ⟨State.memW_setMem_same _ _ _, ?_⟩
  rw [State.memW_setMem_ne _ _ (by omega), State.memW_setMem_ne _ _ (by omega), State.memW_setMem_ne _ _ (by omega),
    State.memW_setMem_ne _ _ (by omega), State.memW_setMem_same]

theorem State.rxDeliver_regs : (s.rxDeliver a port oct x w5).regs = (s.setReg (a + 2) ((s.qHead a + 1) % s.qSize a)).regs := by
  obtain ⟨mem, h⟩ := s.rxWritten_frame a port oct x w5
  obtain ⟨_, _, hq⟩ := (s.rxWritten a port oct x w5).qAdvance_frame a
  rw [State.rxDeliver_eq, hq, h]
  rfl

theorem State.rxDeliver_eth : (s.rxDeliver a port oct x w5).eth = s.eth := by
  obtain ⟨mem, h⟩ := s.rxWritten_frame a port oct x w5
  obtain ⟨_, _, hq⟩ := (s.rxWritten a port oct x w5).qAdvance_frame a
  rw [State.rxDeliver_eq, hq, h]
  rfl

theorem State.rxDeliver_memW :
    (s.rxDeliver a port oct x w5).memW (s.qDesc a) = word (2 ^ 35 + port * 2 ^ 30 + oct.length) ∧
      (s.rxDeliver a port oct x w5).memW (s.qDesc a + 4) = word x.st := by
  obtain ⟨_, _, hq⟩ := (s.rxWritten a port oct x w5).qAdvance_frame a
  have hmem : (s.rxDeliver a port oct x w5).mem = (s.rxWritten a port oct x w5).mem := by
    rw [State.rxDeliver_eq, hq]
    rfl
  obtain ⟨hd, hst⟩ := s.rxWritten_memW a port oct x w5
  exact ⟨(State.memW_of_mem hmem _).trans hd, (State.memW_of_mem hmem _).trans hst⟩

end

/-- A delivered frame counted, with its event. -/
def State.ethDelivered (s : State) (e a : Nat) (x : EthRx) : State :=
  ((s.rxDeliver a (10 + e) x.frame.octets x.rx 0).inc (pEth e) ETH_RXF.n).ev (pEth e) 2

theorem State.pfcResume_none {s : State} {e : Nat} (h : (s.et e).xoff = []) : s.pfcResume e = s := by
  simp only [State.pfcResume, h, overAll]

section
variable {s : State} {e : Nat} {x : EthRx} (hrx : (s.et e).rx = [x]) (hxoff : (s.et e).xoff = [])
include hrx hxoff

/-- The one frame of a port waits when its queue has no descriptor. -/
theorem State.ethDrain_waits (hq : s.qReady (pEth e + 0x20 + 4 * s.rxQueue e x.prio) = false) :
    s.ethDrain e = (s.setEt e { s.et e with rx := [x] }).ethShow := by
  have hd : ethDeliver s e [x] [] [] = s.setEt e { s.et e with rx := [x] } := by
    simp [ethDeliver, hq]
  rw [State.ethDrain, hrx, hd, State.pfcResume_none]
  rw [State.et_setEt_same]
  exact hxoff

/-- The one frame of a port is delivered to the descriptor at the head of its queue when it fits. -/
theorem State.ethDrain_delivers {a : Nat} (ha : a = pEth e + 0x20 + 4 * s.rxQueue e x.prio) (hq : s.qReady a = true)
    (hfit : x.frame.octets.length ≤ s.reg (a + 1) % 256 * 64) :
    s.ethDrain e = ((s.ethDelivered e a x).setEt e { (s.ethDelivered e a x).et e with rx := [] }).ethShow := by
  subst ha
  have hd : ethDeliver s e [x] [] [] = (s.ethDelivered e (pEth e + 0x20 + 4 * s.rxQueue e x.prio) x).setEt e
      { (s.ethDelivered e (pEth e + 0x20 + 4 * s.rxQueue e x.prio) x).et e with rx := [] } := by
    simp only [ethDeliver, hq, List.contains_nil, Bool.not_true, Bool.or_self, Bool.false_eq_true, if_false]
    rw [if_neg (by omega)]
    rfl
  have heth : (s.ethDelivered e (pEth e + 0x20 + 4 * s.rxQueue e x.prio) x).eth = s.eth := by
    obtain ⟨_, _, _, _, hev⟩ := ((s.rxDeliver (pEth e + 0x20 + 4 * s.rxQueue e x.prio) (10 + e) x.frame.octets x.rx 0).inc
      (pEth e) ETH_RXF.n).ev_frame (pEth e) 2
    rw [State.ethDelivered, hev]
    exact State.rxDeliver_eth _ _ _ _ _ _
  rw [State.ethDrain, hrx, hd, State.pfcResume_none]
  rw [State.et_setEt_same, State.et_of_eth heth]
  exact hxoff

end

/-- What a delivery leaves: the count, the event, the descriptor and the head of the queue. -/
theorem State.ethDelivered_spec (s : State) (e : Nat) {a o : Nat} (x : EthRx) (ha : a = pEth e + 0x20 + 4 * o) (ho : o < 4) :
    (s.ethDelivered e a x).get (pEth e) ETH_RXF.n = min (2 ^ 36 - 1) (s.get (pEth e) ETH_RXF.n + 1) ∧
      bitN ((s.ethDelivered e a x).get (pEth e) PAGE_EV.ev) 2 = true ∧
      (s.ethDelivered e a x).memW (s.qDesc a) = word (2 ^ 35 + (10 + e) * 2 ^ 30 + x.frame.octets.length) ∧
      (s.ethDelivered e a x).memW (s.qDesc a + 4) = word x.rx.st ∧
      (s.ethDelivered e a x).reg (a + 2) = (s.qHead a + 1) % s.qSize a % 2 ^ 36 := by
  have hregs := s.rxDeliver_regs a (10 + e) x.frame.octets x.rx 0
  obtain ⟨hdesc, hst⟩ := s.rxDeliver_memW a (10 + e) x.frame.octets x.rx 0
  have hmem : (s.ethDelivered e a x).mem = (s.rxDeliver a (10 + e) x.frame.octets x.rx 0).mem := by
    rw [State.ethDelivered, State.ev_mem, State.inc_mem]
  refine ⟨?_, ?_, (State.memW_of_mem hmem _).trans hdesc, (State.memW_of_mem hmem _).trans hst, ?_⟩
  · have hn : (s.rxDeliver a (10 + e) x.frame.octets x.rx 0).get (pEth e) ETH_RXF.n = s.get (pEth e) ETH_RXF.n := by
      rw [State.get_of_regs hregs, State.get, State.reg_setReg_ne _ _ (by simp only; omega), State.get]
    rw [State.ethDelivered, State.get_ev_ne _ _ _ (by simp) (by simp), State.get_inc_eq_min _ _ _ (by decide) (by decide), hn]
    rfl
  · rw [State.ethDelivered, State.get_ev_ev _ _ (by decide)]
    simp [bitN_setBitN]
  · rw [State.ethDelivered, State.reg_ev_ne _ _ _ (by omega) (by omega), State.inc, State.reg_put_ne _ _ _ _ _ (by simp only; omega),
      State.reg_of_regs hregs, State.reg_setReg_same]

end Sys2Proof.Machine
end

section
/-! PROOF. The plant Ethernet ports: a received frame at its queue, frames sent, links that change, and the obligation. -/

namespace Sys2Proof.Machine

/-! A frame that waits or is delivered. -/

theorem State.ethUse_of_rx {s t : State} (h : ∀ k, (t.et k).rx = (s.et k).rx) : t.ethUse = s.ethUse := by
  rw [State.ethUse, State.ethUse, h, h]

theorem State.ethNoted_rx (s : State) (e k : Nat) : ((s.ethNoted e).et k).rx = (s.et k).rx := by
  by_cases hk : k = e
  · subst hk
    rw [State.ethNoted, State.et_setEt_same]
  · rw [State.ethNoted, State.et_setEt_ne _ _ hk]

theorem State.ethWaits_mem (s : State) (e : Nat) (f : EthFrame) : (s.ethWaits e f).mem = s.mem := by
  rw [State.ethWaits, State.ethShow_mem]
  rfl

section
variable {s : State} {e : Nat} (f : EthFrame)

theorem State.ethWaits_use (he : e < 2) (hrx : (s.et e).rx = []) :
    (s.ethWaits e f).ethUse = s.ethUse + (f.octets.length + 63) / 64 := by
  have hnone : ((s.ethNoted e).et e).rx = [] := (s.ethNoted_rx e e).trans hrx
  have hshow : (s.ethWaits e f).ethUse =
      ((s.ethNoted e).setEt e { s.et e with busyAt := some s.now, rx := [s.ethFrameOf e f] }).ethUse :=
    State.ethUse_of_rx fun k => by rw [State.ethWaits, State.et_of_eth (State.ethShow_eth _)]
  rw [hshow, State.ethUse_setEt he hnone _ rfl rfl, State.ethUse_of_rx (s.ethNoted_rx e)]
  rfl

/-- The queue of a port's page is as before the frame came. -/
theorem State.ethWaits_reg {o : Nat} (ho : o < 0x100) : (s.ethWaits e f).reg (pEth e + o) = s.reg (pEth e + o) :=
  State.ethWaits_spec f |>.1.reg (by simpa using pEth_ne_pEth0 ho (by decide))

theorem State.ethWaits_get {g : Fld} (hg : g.off < 0x100) : (s.ethWaits e f).get (pEth e) g = s.get (pEth e) g :=
  congrArg (fun v => fldGet v g) (State.ethWaits_reg f hg)

theorem State.ethWaits_rxQueue (prio : Nat) : (s.ethWaits e f).rxQueue e prio = s.rxQueue e prio := by
  rw [State.rxQueue, State.ethWaits_get f (by decide), State.rxQueue]

section
variable {a o : Nat} (ha : a = pEth e + 0x20 + 4 * o) (ho : o < 4)
include ha ho

theorem State.ethWaits_queue {k : Nat} (hk : k < 4) : (s.ethWaits e f).reg (a + k) = s.reg (a + k) := by
  obtain rfl := ha
  have h := State.ethWaits_reg (s := s) (e := e) f (o := 0x20 + 4 * o + k) (by omega)
  rwa [← Nat.add_assoc, ← Nat.add_assoc] at h

theorem State.ethWaits_qSize : (s.ethWaits e f).qSize a = s.qSize a := by
  rw [State.qSize, State.ethWaits_queue f ha ho (by decide), State.qSize]

theorem State.ethWaits_qHead : (s.ethWaits e f).qHead a = s.qHead a := State.ethWaits_queue f ha ho (by decide)

theorem State.ethWaits_qDesc : (s.ethWaits e f).qDesc a = s.qDesc a := by
  have h0 : (s.ethWaits e f).reg a = s.reg a := State.ethWaits_queue f ha ho (k := 0) (by decide)
  rw [State.qDesc, h0, State.ethWaits_qHead f ha ho, State.ethWaits_qSize f ha ho, State.qDesc]

theorem State.ethWaits_qReady : (s.ethWaits e f).qReady a = s.qReady a := by
  have h1 := State.ethWaits_queue (s := s) f ha ho (k := 1) (by decide)
  have h2 := State.ethWaits_queue (s := s) f ha ho (k := 2) (by decide)
  have h3 := State.ethWaits_queue (s := s) f ha ho (k := 3) (by decide)
  simp only [State.qReady, State.qEn, State.ethWaits_qSize f ha ho, h1, h2, h3]

end

end

section
variable {s : State} {e : Nat} {f : EthFrame} (hc : s.clockOff pEth0 = false) (he : e < 2)
  (hup : s.flag (pEth e) ETH_LINK.up = true) (hen : s.flag (pEth e) PAGE_CTL.en = true) (hfcs : f.fcsOk = true)
  (hlen : 60 ≤ f.octets.length) (hmax : f.octets.length + 4 ≤ s.get (pEth e) ETH_CFG.maxfr)
  (htype : word16 f.octets 12 ≠ 0x8808) (hmine : s.ethMine e f.octets = true) (hl : s.lossless e (framePcp f.octets) = false)
  (hrx : (s.et e).rx = []) (hxoff : (s.et e).xoff = []) (hroom : s.ethUse + (f.octets.length + 63) / 64 ≤ 8192)
  {a : Nat} (ha : a = pEth e + 0x20 + 4 * s.rxQueue e (framePcp f.octets))
include hc he hup hen hfcs hlen hmax htype hmine hl hrx hroom

/-- A frame for the port waits in the shared buffer until it is looked at. -/
theorem execEthFrameReceive_mine : execEthFrameReceive e f s = .next ((s.ethWaits e f).ethDrain e) := by
  have hmine' : ¬(s.ethNoted e).ethMine e f.octets = false := by
    have h : (s.ethNoted e).ethMine e f.octets = s.ethMine e f.octets := rfl
    rw [h, hmine]
    decide
  rw [execEthFrameReceive_good hc he hup hen hfcs hlen hmax, if_neg htype, if_neg hmine', State.ethBuffer_open f hl hrx hroom,
    State.ethWaits]

include hxoff ha

theorem execEthFrameReceive_waits (hq : s.qReady a = false) : ∃ t : State, execEthFrameReceive e f s = .next t ∧ t.mem = s.mem ∧
    (t.et e).rx.map (fun x => (x.prio, x.head, x.frame)) = [(framePcp f.octets, false, f)] ∧
    t.get pEth0 ETH_BUF.use = (s.ethUse + (f.octets.length + 63) / 64) % 2 ^ 18 ∧ RegsOnly [pEth0 + 0x10] { s with eth := t.eth } t := by
  have ho : s.rxQueue e (framePcp f.octets) < 4 := Nat.mod_lt _ (by decide)
  obtain ⟨hregs, het⟩ := State.ethWaits_spec (s := s) (e := e) f
  have hrx' : ((s.ethWaits e f).et e).rx = [s.ethFrameOf e f] := by rw [het]
  have hq' : (s.ethWaits e f).qReady (pEth e + 0x20 + 4 * (s.ethWaits e f).rxQueue e (s.ethFrameOf e f).prio) = false := by
    rw [State.ethWaits_rxQueue, ← hq, ← State.ethWaits_qReady f ha ho, ha]
    rfl
  have hdrain := State.ethDrain_waits hrx' (by rw [het]; exact hxoff) hq'
  refine ⟨_, (execEthFrameReceive_mine hc he hup hen hfcs hlen hmax htype hmine hl hrx hroom).trans (congrArg Host.Outcome.next hdrain),
    ?_, ?_, ?_, State.ethShow_regs hregs.setEt (by simp)⟩
  · rw [State.ethShow_mem]
    exact s.ethWaits_mem e f
  · rw [State.et_of_eth (State.ethShow_eth _), State.et_setEt_same]
    rfl
  · have huse : ((s.ethWaits e f).setEt e { (s.ethWaits e f).et e with rx := [s.ethFrameOf e f] }).ethUse = (s.ethWaits e f).ethUse :=
      State.ethUse_of_rx fun k => by
        by_cases hk : k = e
        · rw [hk, State.et_setEt_same, hrx']
        · rw [State.et_setEt_ne _ _ hk]
    rw [State.ethShow_use, huse, State.ethWaits_use f he hrx]

theorem execEthFrameReceive_delivers (hq : s.qReady a = true) (hfit : f.octets.length ≤ s.reg (a + 1) % 256 * 64) :
    ∃ t : State, execEthFrameReceive e f s = .next t ∧
      (t.et e).rx = [] ∧ t.get (pEth e) ETH_RXF.n = min (2 ^ 36 - 1) (s.get (pEth e) ETH_RXF.n + 1) ∧
      bitN (t.get (pEth e) PAGE_EV.ev) 2 = true ∧ t.memW (s.qDesc a) = word (2 ^ 35 + (10 + e) * 2 ^ 30 + f.octets.length) ∧
      t.memW (s.qDesc a + 4) = word (s.stampStat (10 + e)) ∧ t.reg (a + 2) = (s.qHead a + 1) % s.qSize a % 2 ^ 36 := by
  have ho : s.rxQueue e (framePcp f.octets) < 4 := Nat.mod_lt _ (by decide)
  obtain ⟨hregs, het⟩ := State.ethWaits_spec (s := s) (e := e) f
  have hrx' : ((s.ethWaits e f).et e).rx = [s.ethFrameOf e f] := by rw [het]
  have ha' : a = pEth e + 0x20 + 4 * (s.ethWaits e f).rxQueue e (s.ethFrameOf e f).prio := by
    rw [State.ethWaits_rxQueue, ha]
    rfl
  have hdrain := State.ethDrain_delivers hrx' (by rw [het]; exact hxoff) ha' ((State.ethWaits_qReady f ha ho).trans hq)
    (by rw [State.ethWaits_queue f ha ho (by decide)]; exact hfit)
  obtain ⟨hn, hev, hdesc, hst, hhead⟩ := (s.ethWaits e f).ethDelivered_spec e (s.ethFrameOf e f) ha ho
  rw [State.ethWaits_qDesc f ha ho] at hdesc hst
  rw [State.ethWaits_qHead f ha ho, State.ethWaits_qSize f ha ho] at hhead
  rw [State.ethWaits_get f (by decide)] at hn
  generalize (s.ethWaits e f).ethDelivered e a (s.ethFrameOf e f) = u at *
  have hshow : EthRegs [pEth0 + 0x10] u (u.setEt e { u.et e with rx := [] }).ethShow :=
    State.ethShow_regs (EthRegs.refl _ u).setEt (by simp)
  have hmem : (u.setEt e { u.et e with rx := [] }).ethShow.mem = u.mem := by
    rw [State.ethShow_mem]
    rfl
  have hport : ∀ g : Fld, g.off < 0x100 → pEth e + g.off ∉ [pEth0 + 0x10] := fun g hg => by
    simpa using pEth_ne_pEth0 hg (by decide)
  have ha2 : a + 2 ∉ [pEth0 + 0x10] := by
    have h := pEth_ne_pEth0 (e := e) (o := 0x20 + 4 * s.rxQueue e (framePcp f.octets) + 2) (k := 0x10) (by omega) (by decide)
    rw [← Nat.add_assoc, ← Nat.add_assoc, ← ha] at h
    simpa using h
  refine ⟨_, (execEthFrameReceive_mine hc he hup hen hfcs hlen hmax htype hmine hl hrx hroom).trans (congrArg Host.Outcome.next hdrain),
    ?_, (hshow.get (hport _ (by decide))).trans hn, ?_, (State.memW_of_mem hmem _).trans hdesc,
    (State.memW_of_mem hmem _).trans hst, (hshow.reg ha2).trans hhead⟩
  · rw [State.et_of_eth (State.ethShow_eth _), State.et_setEt_same]
  · rw [hshow.get (hport _ (by decide))]
    exact hev

end

end Sys2Proof.Machine
end

section
/-! PROOF. The plant Ethernet ports: frames sent, pauses that end, links that change, and the obligation. -/

namespace Sys2Proof.Machine

/-! Frames sent (R385 to R387). -/

section
variable (s : State) (e b n : Nat)

theorem State.bucketSpend_lack (k : Nat) : Tab.rd ((s.bucketSpend e b n).et e).lack k =
    if k = b then s.bucketLack e b + n * 512000 else Tab.rd (s.et e).lack k := by
  rw [State.bucketSpend, State.et_setEt_same]
  by_cases hk : k = b
  · rw [if_pos hk, hk]
    exact Tab.rd_wr_same _ _ _
  · rw [if_neg hk]
    simp only [Tab.rd, Tab.wr, Tab.get_set_other _ _ _ hk]

/-- A bucket spent leaves what the others lack. -/
theorem State.bucketLack_bucketSpend_ne {k : Nat} (hk : k ≠ b) : (s.bucketSpend e b n).bucketLack e k = s.bucketLack e k := by
  have hat : Tab.rd ((s.bucketSpend e b n).et e).lackAt k = Tab.rd (s.et e).lackAt k := by
    rw [State.bucketSpend, State.et_setEt_same]
    simp only [Tab.rd, Tab.wr, Tab.get_set_other _ _ _ hk]
  have hrate : (s.bucketSpend e b n).bucket e k = s.bucket e k := rfl
  have ht : (s.bucketSpend e b n).t64 0 = s.t64 0 := rfl
  rw [State.bucketLack, State.bucketSpend_lack, if_neg hk, hat, hrate, ht, State.bucketLack]

/-- The buckets of a frame of queue q spent: the port's, and the queue's when it has a rate. -/
def State.bucketsSpent (s : State) (e q n : Nat) : State :=
  if (s.bucket e q).1 = 0 then s.bucketSpend e 8 n else (s.bucketSpend e 8 n).bucketSpend e q n

theorem State.bucketsSpent_frame (q : Nat) : s.bucketsSpent e q n = { s with eth := (s.bucketsSpent e q n).eth } := by
  unfold State.bucketsSpent
  split
  · rfl
  · rfl

theorem State.bucketsSpent_port {q : Nat} (hq : q < 8) :
    Tab.rd ((s.bucketsSpent e q n).et e).lack 8 = s.bucketLack e 8 + n * 512000 := by
  unfold State.bucketsSpent
  split
  · rw [State.bucketSpend_lack, if_pos rfl]
  · rw [State.bucketSpend_lack, if_neg (by omega), State.bucketSpend_lack, if_pos rfl]

theorem State.bucketsSpent_queue {q : Nat} (hq : q < 8) (hrate : (s.bucket e q).1 ≠ 0) :
    Tab.rd ((s.bucketsSpent e q n).et e).lack q = s.bucketLack e q + n * 512000 := by
  rw [State.bucketsSpent, if_neg hrate, State.bucketSpend_lack, if_pos rfl, State.bucketLack_bucketSpend_ne _ _ _ _ (by omega)]

end

theorem State.txStamp_off {s : State} {u : Nat} (h : s.flag (pTsu u) TIME_TSU_CFG.en = false) (d : Nat) (l : List Nat) :
    s.txStamp u d l = (l, s) := by
  simp only [State.txStamp]
  rw [if_pos (Or.inl h)]

/-- The frame of a queue on the port, its buckets spent and the frame counted. -/
def State.ethSent (s : State) (e q : Nat) (o : List Nat) : State :=
  let t := s.bucketsSpent e q (o.length + 24)
  (t.setEt e { t.et e with sent := some { octets := o }, busyAt := some s.now }).inc (pEth e) ETH_TXF.n

section
variable (s : State) (e q : Nat) (o : List Nat)

theorem State.ethSent_et : (s.ethSent e q o).et e =
    { (s.bucketsSpent e q (o.length + 24)).et e with sent := some { octets := o }, busyAt := some s.now } := by
  have h : (s.ethSent e q o).eth = ((s.bucketsSpent e q (o.length + 24)).setEt e
      { (s.bucketsSpent e q (o.length + 24)).et e with sent := some { octets := o }, busyAt := some s.now }).eth := rfl
  rw [State.et_of_eth h, State.et_setEt_same]

theorem State.ethSent_regs : EthRegs [pEth e + 0x54] s (s.ethSent e q o) := by
  have h : EthRegs [pEth e + 0x54] s (s.bucketsSpent e q (o.length + 24)) := by
    rw [State.bucketsSpent_frame]
    exact RegsOnly.refl _ _
  exact h.setEt.inc (by simp)

theorem State.ethSent_counts : (s.ethSent e q o).get (pEth e) ETH_TXF.n = min (2 ^ 36 - 1) (s.get (pEth e) ETH_TXF.n + 1) := by
  have h : (s.bucketsSpent e q (o.length + 24)).get (pEth e) ETH_TXF.n = s.get (pEth e) ETH_TXF.n := by
    rw [State.bucketsSpent_frame]
    rfl
  simp only [State.ethSent]
  rw [State.get_inc_eq_min _ _ _ (by decide) (by decide)]
  generalize s.bucketsSpent e q (o.length + 24) = t at h
  rw [← h]
  rfl

end

section
variable {s : State} {e q : Nat} (hc : s.clockOff pEth0 = false) (he : e < 2) (hq : q < 8)
  (hup : s.flag (pEth e) ETH_LINK.up = true) (hen : s.flag (pEth e) PAGE_CTL.en = true) (hb0 : pageBlocked s pEth0 = false)
  (hb : pageBlocked s (pEth e) = false)
include hc he hq hup hen hb0 hb

/-- An open port with a descriptor that holds a frame. -/
theorem execEthTransmit_open (hr : s.qReady (txqAddr e q) = true)
    (hhw : bitN (s.memW (s.qDesc (txqAddr e q))).toNat 35 = true) :
    execEthTransmit e q s = .next
      (if s.get (pEth e) ETH_CFG.maxfr < (s.memW (s.qDesc (txqAddr e q))).toNat % 2 ^ 16 + 4 then
        s.txDone (txqAddr e q) (s.qDesc (txqAddr e q)) (2 ^ 34 + 1)
      else if s.ethCan e q = false ∨ (List.range 8).any (fun k => decide (q < k) && s.ethCan e k) = true then s
      else
        let x := (s.bucketsSpent e q ((s.memW (s.qDesc (txqAddr e q))).toNat % 2 ^ 16 + 24)).txStamp (10 + e) (s.qDesc (txqAddr e q))
          (s.octets (s.memW ((s.qDesc (txqAddr e q)) + 1)).toNat ((s.memW (s.qDesc (txqAddr e q))).toNat % 2 ^ 16))
        (((x.2.setEt e { x.2.et e with sent := some { octets := x.1 }, busyAt := some s.now }).inc (pEth e) ETH_TXF.n).txDone
          (txqAddr e q) (s.qDesc (txqAddr e q)) (2 ^ 35)).ev (pEth e) 4) := by
  have hgo : ¬(2 ≤ e ∨ 8 ≤ q ∨ s.flag (pEth e) ETH_LINK.up = false ∨ s.flag (pEth e) PAGE_CTL.en = false
      ∨ pageBlocked s pEth0 = true ∨ pageBlocked s (pEth e) = true ∨ s.qReady (txqAddr e q) = false
      ∨ bitN (s.memW (s.qDesc (txqAddr e q))).toNat 35 = false) := by
    simp only [hup, hen, hb0, hb, hr, hhw, Bool.true_eq_false, Bool.false_eq_true, or_false]
    omega
  simp only [execEthTransmit, State.clocked_of_on hc]
  rw [if_neg hgo]
  rfl

/-- The frame of the highest queue that can start is sent. -/
theorem execEthTransmit_sends (hfit : (s.memW (s.qDesc (txqAddr e q))).toNat % 2 ^ 16 + 4 ≤ s.get (pEth e) ETH_CFG.maxfr)
    (hcan : s.ethCan e q = true) (hfirst : ∀ k, q < k → k < 8 → s.ethCan e k = false)
    (htsu : s.flag (pTsu (10 + e)) TIME_TSU_CFG.en = false) : execEthTransmit e q s = .next
      (((s.ethSent e q (s.octets (s.memW ((s.qDesc (txqAddr e q)) + 1)).toNat
        ((s.memW (s.qDesc (txqAddr e q))).toNat % 2 ^ 16))).txDone (txqAddr e q) (s.qDesc (txqAddr e q)) (2 ^ 35)).ev (pEth e) 4) := by
  obtain ⟨hr, hhw⟩ : s.qReady (txqAddr e q) = true ∧ bitN (s.memW (s.qDesc (txqAddr e q))).toNat 35 = true := by
    simp only [State.ethCan, Bool.and_eq_true] at hcan
    exact hcan.1.1.1.1
  have hnone : ¬(s.ethCan e q = false ∨ (List.range 8).any (fun k => decide (q < k) && s.ethCan e k) = true) := by
    rw [hcan]
    simp only [Bool.true_eq_false, false_or, List.any_eq_true, List.mem_range, Bool.and_eq_true, decide_eq_true_eq, not_exists, not_and]
    intro k hk hqk
    simp [hfirst k hqk hk]
  have hoff : ∀ n, (s.bucketsSpent e q n).flag (pTsu (10 + e)) TIME_TSU_CFG.en = false := fun n => by
    rw [State.bucketsSpent_frame]
    exact htsu
  have hoct : ∀ a n, (s.octets a n).length = n := fun a n => by simp [State.octets]
  rw [execEthTransmit_open hc he hq hup hen hb0 hb hr hhw, if_neg (by omega), if_neg hnone, State.txStamp_off (hoff _)]
  simp only [State.ethSent, hoct]

end

/-! Links (R386, R392). -/

section
variable {s : State} {e : Nat} (he : e < 2)

theorem State.linkPut_regs {as : List Nat} {s t : State} {p : Nat} (h : RegsOnly as s t) (hp : p + 0x11 ∈ as) (a b : Nat) :
    RegsOnly as s ((t.put p ETH_LINK.up a).put p ETH_LINK.speed b) :=
  (h.put a hp).put b hp

variable (s) in
theorem State.linkPut_get (p a b : Nat) : ((s.put p ETH_LINK.up a).put p ETH_LINK.speed b).get p ETH_LINK.up = a % 2 ∧
    ((s.put p ETH_LINK.up a).put p ETH_LINK.speed b).get p ETH_LINK.speed = b % 8 ∧
    ((s.put p ETH_LINK.up a).put p ETH_LINK.speed b).get p ETH_LINK.down = s.get p ETH_LINK.down := by
  refine ⟨?_, State.get_put_same _ _ _ _ (by decide) (by decide), ?_⟩
  · rw [State.get_put_field _ _ _ _ _ _ (by decide) (by decide) (by decide) (by decide)]
    exact State.get_put_same _ _ _ _ (by decide) (by decide)
  · rw [State.get_put_field _ _ _ _ _ _ (by decide) (by decide) (by decide) (by decide),
      State.get_put_field _ _ _ _ _ _ (by decide) (by decide) (by decide) (by decide)]

theorem execEthLinkChange_refused {sp : Nat} (h1 : 1 ≤ sp) (hoff : bitN (s.get (pEth e) ETH_CFG.spd) (sp - 1) = false) :
    execEthLinkChange e sp s = .next s := by
  simp only [execEthLinkChange]
  split
  · rfl
  · rw [if_neg (by omega), hoff]
    rfl

include he

theorem execEthLinkChange_lost (hup : s.flag (pEth e) ETH_LINK.up = true) : ∃ u : State,
    execEthLinkChange e 0 s = .next (u.evC (pEth e) 1) ∧
    u.get (pEth e) ETH_LINK.up = 0 ∧ u.get (pEth e) ETH_LINK.speed = 0 ∧
    u.get (pEth e) ETH_LINK.down = min 0xFFFF (s.get (pEth e) ETH_LINK.down + 1) ∧ RegsOnly [pEth e + 0x11] s u := by
  obtain ⟨h1, h2, h3⟩ := s.linkPut_get (pEth e) 0 0
  have hregs := State.linkPut_regs (RegsOnly.refl s [pEth e + 0x11]) (List.mem_singleton.mpr rfl) 0 0
  refine ⟨((s.put (pEth e) ETH_LINK.up 0).put (pEth e) ETH_LINK.speed 0).inc (pEth e) ETH_LINK.down, ?_, ?_, ?_, ?_,
    hregs.put _ (List.mem_singleton.mpr rfl)⟩
  · simp only [execEthLinkChange]
    rw [if_neg (by omega), if_pos trivial, if_pos hup]
  · rw [State.inc, State.get_put_field _ _ _ _ _ _ (by decide) (by decide) (by decide) (by decide), h1]
  · rw [State.inc, State.get_put_field _ _ _ _ _ _ (by decide) (by decide) (by decide) (by decide), h2]
  · rw [State.get_inc_eq_min _ _ _ (by decide) (by decide), h3]
    rfl

theorem execEthLinkChange_up {sp : Nat} (h1 : 1 ≤ sp) (h4 : sp ≤ 4) (hoff : bitN (s.get (pEth e) ETH_CFG.spd) (sp - 1) = true) :
    ∃ u : State, execEthLinkChange e sp s = .next (if s.flag (pEth e) ETH_LINK.up = true then u else u.ev (pEth e) 0) ∧
      u.get (pEth e) ETH_LINK.up = 1 ∧ u.get (pEth e) ETH_LINK.speed = sp ∧
      u.get (pEth e) ETH_LINK.down = s.get (pEth e) ETH_LINK.down ∧ RegsOnly [pEth e + 0x11] s u := by
  obtain ⟨hup, hspeed, hdown⟩ := s.linkPut_get (pEth e) 1 sp
  refine ⟨(s.put (pEth e) ETH_LINK.up 1).put (pEth e) ETH_LINK.speed sp, ?_, hup, by rw [hspeed]; omega, hdown,
    State.linkPut_regs (RegsOnly.refl s _) (List.mem_singleton.mpr rfl) 1 sp⟩
  simp only [execEthLinkChange]
  rw [if_neg (by omega), if_neg (by omega), if_pos hoff]

end

/-! Pauses sent and pauses that end (R388). -/

theorem State.sendPfc_open {s : State} {e : Nat} (hb0 : pageBlocked s pEth0 = false) (hb : pageBlocked s (pEth e) = false)
    (hrate : s.get (pEth e) ETH_CAP.rate ≠ 0) (prio quanta : Nat) : s.sendPfc e prio quanta =
      (s.setEt e { s.et e with sent := some (s.pfcFrame e prio quanta) }).inc (pEth e) ETH_PFCC.tx := by
  simp [State.sendPfc, hb0, hb, hrate]

theorem State.sendPfc_blocked {s : State} {e : Nat} (h : pageBlocked s pEth0 = true ∨ pageBlocked s (pEth e) = true)
    (prio quanta : Nat) : s.sendPfc e prio quanta = s := by
  rw [State.sendPfc, if_pos (by rcases h with h | h <;> simp [h])]

section
variable {s : State} {e prio : Nat}

theorem execPfcFrameRepeat_sends (hc : s.clockOff pEth0 = false) (he : e < 2) (hx : prio ∈ (s.et e).xoff)
    (hlevel : s.get (pEth e) ETH_PFC.xon * 1024 ≤ s.ethLevel e prio) (hrate : s.get (pEth e) ETH_CAP.rate ≠ 0)
    (hb0 : pageBlocked s pEth0 = false) (hb : pageBlocked s (pEth e) = false) : ∃ t : State,
      execPfcFrameRepeat e prio s = .next t ∧
      (t.et e).sent = some (s.pfcFrame e prio 0xFFFF) ∧ (t.et e).rx = (s.et e).rx ∧ (t.et e).xoff = (s.et e).xoff ∧
      t.get (pEth e) ETH_PFCC.tx = min (2 ^ 18 - 1) (s.get (pEth e) ETH_PFCC.tx + 1) ∧
      RegsOnly [pEth e + 0x55] { s with eth := t.eth } t := by
  have het : ((s.setEt e { s.et e with sent := some (s.pfcFrame e prio 0xFFFF) }).inc (pEth e) ETH_PFCC.tx).et e =
      { s.et e with sent := some (s.pfcFrame e prio 0xFFFF) } := State.et_setEt_same _ _ _
  refine ⟨(s.setEt e { s.et e with sent := some (s.pfcFrame e prio 0xFFFF) }).inc (pEth e) ETH_PFCC.tx,
    ?_, by rw [het], by rw [het], by rw [het], ?_, (EthRegs.refl _ s).setEt.inc (by simp)⟩
  · simp only [execPfcFrameRepeat, State.clocked_of_on hc]
    rw [if_pos ⟨he, List.contains_iff_mem.mpr hx, hlevel⟩, State.sendPfc_open hb0 hb hrate]
  · rw [State.get_inc_eq_min _ _ _ (by decide) (by decide)]
    rfl

theorem execPfcFrameRepeat_blocked (h : pageBlocked s pEth0 = true ∨ pageBlocked s (pEth e) = true) :
    execPfcFrameRepeat e prio s = .next s := by
  simp only [execPfcFrameRepeat, State.clocked, State.sendPfc_blocked h, ite_self]

variable {tt : Nat} (hp : Tab.rd (s.et e).paused prio = some tt)
include hp

theorem execPfcPauseExpire_ends (hc : s.clockOff pEth0 = false) (he : e < 2) (ht : tt ≤ s.t64 0) : ∃ t : State,
    execPfcPauseExpire e prio s = .next t ∧
    Tab.rd (t.et e).paused prio = none ∧ (∀ k, k ≠ prio → Tab.rd (t.et e).paused k = Tab.rd (s.et e).paused k) ∧
    (t.et e).rx = (s.et e).rx ∧ t = { s with eth := t.eth } := by
  refine ⟨s.setEt e { s.et e with paused := Tab.wr (s.et e).paused prio none }, ?_, ?_, ?_, ?_, rfl⟩
  · simp only [execPfcPauseExpire, State.clocked_of_on hc, hp]
    rw [if_pos ⟨he, ht⟩]
  · rw [State.et_setEt_same, Tab.rd_wr_same]
  · intro k hk
    rw [State.et_setEt_same]
    simp only [Tab.rd, Tab.wr, Tab.get_set_other _ _ _ hk]
  · rw [State.et_setEt_same]

theorem execPfcPauseExpire_early (ht : s.t64 0 < tt) : execPfcPauseExpire e prio s = .next s := by
  have hlate : ¬(e < 2 ∧ tt ≤ s.t64 0) := by omega
  simp only [execPfcPauseExpire, State.clocked, hp, if_neg hlate, ite_self]

end

end Sys2Proof.Machine

namespace Sys2Proof

open Machine

/-- Settles O60: the receive, transmit, link and pause commands of an Ethernet port, clause by clause. -/
theorem ethernetPortsReceiveAndSend : Obligations.EthernetPortsReceiveAndSend := by
  refine ⟨?_, ?_, ?_, ?_, ?_, ?_, ?_, ?_, ?_, ?_, ?_, ?_, ?_, ?_⟩
  · intro s e f hc he hup hen hfcs hlen hmax htype hop
    refine (execEthFrameReceive_good hc he hup hen hfcs hlen hmax).trans ?_
    rw [if_pos htype, if_neg hop]
    rfl
  · intro s e f hc he hup hen hfcs hlen hmax htype hop
    refine (execEthFrameReceive_good hc he hup hen hfcs hlen hmax).trans ?_
    rw [if_pos htype, if_pos hop]
    rfl
  · intro s e o hen _
    refine ⟨_, rfl, s.pfcReceive_frame e o, fun p hp hbit => ?_, fun p hp => ?_⟩
    · rw [s.pfcReceive_paused e o hen, if_pos ⟨hp, hbit⟩]
      rfl
    · rw [s.pfcReceive_paused e o hen, if_neg]
      rintro ⟨hk, hbit⟩
      rcases hp with ⟨ha, hb⟩ | hoff
      · exact hk.elim ha hb
      · simp [hoff] at hbit
  · intro s e f a hc he hup hen hfcs hlen hmax htype hmine hl hrx hxoff hroom ha hq hfit
    exact execEthFrameReceive_delivers hc he hup hen hfcs hlen hmax htype hmine hl hrx hxoff hroom ha hq hfit
  · intro s e f a hc he hup hen hfcs hlen hmax htype hmine hl hrx hxoff hroom ha hq
    exact execEthFrameReceive_waits hc he hup hen hfcs hlen hmax htype hmine hl hrx hxoff hroom ha hq
  · intro s e q hc he hq hup hen hb0 hb hr hhw hlong
    exact (execEthTransmit_open hc he hq hup hen hb0 hb hr hhw).trans (congrArg Host.Outcome.next (if_pos hlong))
  · intro s e q hc he hq hup hen hb0 hb hfit hcan hfirst htsu
    refine ⟨_, execEthTransmit_sends hc he hq hup hen hb0 hb hfit hcan hfirst htsu, ?_, s.ethSent_counts e q _, ?_, fun hrate => ?_,
      s.ethSent_regs e q _⟩
    · rw [State.ethSent_et]
    · rw [State.ethSent_et, s.bucketsSpent_port e _ hq]
      simp [State.octets]
    · rw [State.ethSent_et, s.bucketsSpent_queue e _ hq hrate]
      simp [State.octets]
  · intro s e he hup
    exact execEthLinkChange_lost he hup
  · intro s e sp he h1 h4 hoff
    exact execEthLinkChange_up he h1 h4 hoff
  · intro s e sp _ h1 hoff
    exact execEthLinkChange_refused h1 hoff
  · intro s e prio hc he hx hlevel hrate hb0 hb
    exact execPfcFrameRepeat_sends hc he hx hlevel hrate hb0 hb
  · intro s e prio h
    exact execPfcFrameRepeat_blocked h
  · intro s e prio tt hc he hp ht
    exact execPfcPauseExpire_ends hp hc he ht
  · intro s e prio tt hp ht
    exact execPfcPauseExpire_early hp ht

end Sys2Proof
end

section
/-! PROOF. What the time unit needs of the operations below it: signed fields, the reset of a page's words, and what a step of cell
time leaves alone on its way through the profile generators. -/

namespace Sys2Proof.Machine

/-- A command that is one write, whose block takes it. -/
theorem State.next_writeWord {s t : State} {a ini : Nat} {v : Word} {k : State → State} (h : s.takes a) (hk : k s = t) :
    (Host.Outcome.next (s.writeWord ini a v k) : Out) = .next t := by
  rw [State.writeWord_of_takes h, hk]

/-! Signed fields. -/

theorem sint_unsint (w : Nat) {i : Int} (hlo : -2 ^ w ≤ i) (hhi : i < 2 ^ w) : sint (w + 1) (unsint (w + 1) i) = i := by
  have hm : (2 : Int) ^ (w + 1) = 2 * 2 ^ w := pow_succ' 2 w
  have hc : ((2 ^ w : Nat) : Int) = 2 ^ w := by push_cast; rfl
  have hmod : i % 2 ^ (w + 1) = if 0 ≤ i then i else i + 2 * 2 ^ w := by
    split
    · exact Int.emod_eq_of_lt ‹_› (by omega)
    · rw [← Int.add_emod_right, hm]
      exact Int.emod_eq_of_lt (by omega) (by omega)
  simp only [sint, Nat.mod_eq_of_lt (unsint_lt (w + 1) i), Nat.add_sub_cancel]
  simp only [unsint, hmod]
  split <;> split <;> omega

theorem State.getI_putI_same (s : State) (p : Nat) (f : Fld) {i : Int} (h : f.lo ≤ f.hi) (h36 : f.hi < 36)
    (hlo : -2 ^ (f.hi - f.lo) ≤ i) (hhi : i < 2 ^ (f.hi - f.lo)) : (s.putI p f i).getI p f = i := by
  rw [State.getI, State.putI, State.get_put_of_lt _ _ _ h h36 (unsint_lt _ _), Nat.sub_add_comm h]
  exact sint_unsint _ hlo hhi

theorem clampI_bounds {lo hi : Int} (h : lo ≤ hi) (i : Int) : lo ≤ clampI lo hi i ∧ clampI lo hi i ≤ hi := by
  unfold clampI
  split
  · omega
  · split <;> omega

/-! The reset of a page's words (R21). -/

theorem Tab.get_of_not_listed {α : Type} (d : Nat → α) {t : Tab α} {k : Nat} (h : k ∉ t.map (fun e => e.1)) :
    Tab.get d t k = d k := by
  have hf : Tab.find t k = none := by
    induction t with
    | nil => rfl
    | cons e r ih =>
      simp only [List.map_cons, List.mem_cons, not_or] at h
      rw [Tab.find, if_neg (Ne.symm h.1)]
      exact ih h.2
  rw [Tab.get, hf]
  rfl

/-- No field of a word is one that a lock keeps through a reset. -/
def LockFree (a : Nat) : Prop := ∀ f ∈ wordFields a, f.acc ≠ .sl ∧ f.acc ≠ .ol

theorem State.regW_resetOne_same (s : State) {a : Nat} (h : LockFree a) : (s.resetOne a).regW a = resetWord a := by
  have hnone : (wordFields a).filter s.kept = [] := List.filter_eq_nil_iff.mpr fun f hf => by
    obtain ⟨hsl, hol⟩ := h f hf
    simp [State.kept, hsl, hol]
  rw [State.resetOne, State.regW_setReg_same, State.resetKeep, hnone]
  simp [word]

/-- Words reset one after the other: a listed one reads its reset value, the others as before. -/
theorem State.regW_resetList (s : State) {a : Nat} (h : LockFree a) (l : List Nat) :
    (overAll l s fun b t => t.resetOne b).regW a = if a ∈ l then resetWord a else s.regW a := by
  induction l generalizing s with
  | nil => rfl
  | cons b r ih =>
    rw [overAll, ih]
    by_cases hb : a = b
    · subst hb
      simp [s.regW_resetOne_same h]
    · rw [State.resetOne, State.regW_setReg_ne _ _ hb]
      simp [hb]

/-- A reset takes a word of its range back to the reset value, unless it is kept or never changed. -/
theorem State.regW_resetWords (s : State) (lo hi : Nat) (keep : Nat → Bool) {a : Nat} (h : LockFree a) :
    (s.resetWords lo hi keep).regW a = if lo ≤ a ∧ a < hi ∧ keep a = false then resetWord a else s.regW a := by
  rw [State.resetWords, s.regW_resetList h]
  simp only [List.mem_filter, Bool.and_eq_true, decide_eq_true_eq, Bool.not_eq_true', and_assoc]
  by_cases hl : a ∈ s.regs.map fun e => e.1
  · simp only [hl, true_and]
  · simp only [hl, false_and, if_false]
    rw [State.regW, Tab.get_of_not_listed _ hl, ite_self]

theorem State.resetPage_regs (s : State) (p : Nat) (keep : Nat → Bool) (blk : Nat) :
    s.resetPage p keep blk = { s with regs := (s.resetPage p keep blk).regs } := by
  have hw : ∀ lo hi, s.resetWords lo hi keep = { s with regs := (s.resetWords lo hi keep).regs } := fun _ _ =>
    overAll_induct (Q := fun t => t = { s with regs := t.regs }) rfl fun b t ht =>
      congrArg (fun u : State => { u with regs := (t.resetOne b).regs }) ht
  exact congrArg (fun u : State => { u with regs := (s.resetPage p keep blk).regs }) (hw (p + 0x10) (p + 0x100))

/-- A block word after the reset of its page. -/
theorem State.regW_resetPage (s : State) {p o : Nat} (h : LockFree (p + o)) (hlo : 0x10 ≤ o) (hhi : o < 0x100) (keep : Nat → Bool)
    (blk : Nat) :
    (s.resetPage p keep blk).regW (p + o) = if keep (p + o) = false then resetWord (p + o) else s.regW (p + o) := by
  have hne : ∀ x < 0x10, p + o ≠ p + x := fun x hx => by omega
  have hrange : p + 0x10 ≤ p + o ∧ p + o < p + 0x100 := by omega
  rw [State.resetPage, State.regW_put_ne _ _ _ _ (hne 5 (by decide)), State.regW_put_ne _ _ _ _ (hne 3 (by decide)),
    State.regW_setReg_ne _ _ (hne 2 (by decide)), s.regW_resetWords _ _ _ h]
  simp only [hrange, true_and]

/-! What a step of cell time leaves alone (R77): the generators are told of it, and their events count. -/

/-- Nothing differs in TIME page 0, the counters, and the note of the last jump of cell time. -/
structure CellTimeKept (s₀ s : State) : Prop where
  regW : ∀ a < pTime0 + 0x100, s.regW a = s₀.regW a
  cnt : s.time.cnt = s₀.time.cnt
  jumpAt : s.jumpAt = s₀.jumpAt

theorem CellTimeKept.refl (s : State) : CellTimeKept s s := ⟨fun _ _ => rfl, rfl, rfl⟩

section
variable {s₀ s t : State} (h : CellTimeKept s₀ s)
include h

/-- The same register words, time unit and jump, whatever the other parts are. -/
theorem CellTimeKept.same {pending now cyc mem crs core task innk prism prof pwm port fbk ale pipe stream holds envBlk envNotify gateEn wire
      heldPosts posted blocked srstBusy gating held slLocked olSealed fcNotify fcStart logq logAt dscrub scrubPos logScanned mwq porter ring
      eth isl clk console rdata freeN} :
    CellTimeKept s₀ (State.mk pending now cyc s.regs mem crs core task innk s.time prism prof pwm port fbk ale pipe stream holds envBlk
      envNotify gateEn wire heldPosts posted blocked srstBusy gating held slLocked olSealed fcNotify fcStart s.jumpAt logq logAt dscrub
      scrubPos logScanned mwq porter ring eth isl clk console rdata freeN) :=
  ⟨h.regW, h.cnt, h.jumpAt⟩

theorem CellTimeKept.timeOuts {pps ten : Bool} : CellTimeKept s₀ { s with time := { s.time with ppsOut := pps, tenOut := ten } } :=
  ⟨h.regW, h.cnt, h.jumpAt⟩

theorem CellTimeKept.ite {c : Prop} [Decidable c] (h' : CellTimeKept s₀ t) : CellTimeKept s₀ (if c then s else t) := by
  split <;> assumption

theorem CellTimeKept.setPr {ch r} : CellTimeKept s₀ (s.setPr ch r) := h.same
theorem CellTimeKept.offerPost {q} : CellTimeKept s₀ (s.offerPost q) := (h.ite h.same).ite h.same
theorem CellTimeKept.pagePost {p tag} : CellTimeKept s₀ (s.pagePost p tag) := h.offerPost
theorem CellTimeKept.noteBlocked {p} : CellTimeKept s₀ (s.noteBlocked p) := h.same
theorem CellTimeKept.tioFloat {pin} : CellTimeKept s₀ (s.tioFloat pin) := h.same
theorem CellTimeKept.loseCore {c} : CellTimeKept s₀ (s.loseCore c) := h.ite h.same

section
variable {p : Nat} (hp : pTime0 + 0x100 ≤ p)
include hp

/-- A field of a page above TIME page 0. -/
theorem CellTimeKept.put {f : Fld} {v : Nat} : CellTimeKept s₀ (s.put p f v) :=
  ⟨fun a ha => (s.regW_setReg_ne _ (by omega)).trans (h.regW a ha), h.cnt, h.jumpAt⟩

theorem CellTimeKept.inc {f : Fld} : CellTimeKept s₀ (s.inc p f) := h.put hp
theorem CellTimeKept.setPend {bits : Nat} : CellTimeKept s₀ (s.setPend p bits) := (h.put hp).pagePost.same.ite (h.put hp)
theorem CellTimeKept.ev {k : Nat} : CellTimeKept s₀ (s.ev p k) := ((h.put hp).setPend hp).ite (h.put hp)
theorem CellTimeKept.fcBump : CellTimeKept s₀ (s.fcBump p) := ((h.inc hp).inc hp).ite h

end

end

theorem pTime0_add_le_pProf (ch : Nat) : pTime0 + 0x100 ≤ pProf ch := by unfold pTime0 pProf; omega
theorem pTime0_add_le_pCore (c : Nat) : pTime0 + 0x100 ≤ pCore c := by unfold pTime0 pCore; omega

section
variable {s₀ s t : State} (h : CellTimeKept s₀ s)
include h

theorem CellTimeKept.raiseNmiAll {src : Nat} : CellTimeKept s₀ (s.raiseNmiAll src) :=
  overAll_induct h fun c _ h' => (h'.put (pTime0_add_le_pCore c)).put (pTime0_add_le_pCore c)

theorem CellTimeKept.stopAtOnce {ch hres : Nat} {cnt : State → State} (hk : ∀ t, CellTimeKept s₀ t → CellTimeKept s₀ (cnt t)) :
    CellTimeKept s₀ (s.stopAtOnce ch hres cnt) := by
  have hp := pTime0_add_le_pProf ch
  unfold State.stopAtOnce
  extract_lets p r k v r1 r2 s1 lost s2
  have h1 : CellTimeKept s₀ s1 := (((h.setPr.put hp).put hp).put hp).ev hp
  have h2 : CellTimeKept s₀ s2 := ((h1.put hp).put hp).ite h1
  exact (hk _ (((h2.put hp).put hp).ev hp)).ite h2

theorem CellTimeKept.blockPlain {p : Nat} : CellTimeKept s₀ (s.blockPlain p) := by
  unfold State.blockPlain
  split
  exacts [h.noteBlocked.stopAtOnce fun _ h' => h', h.noteBlocked]

section
variable {p : Nat} (hp : pTime0 + 0x100 ≤ p) {blk : State → Nat → State}
  (hblk : ∀ t, CellTimeKept s₀ t → CellTimeKept s₀ (blk t p))
include hp hblk

theorem CellTimeKept.fcStepBy : CellTimeKept s₀ (s.fcStepBy blk p).1 := by
  have h1 : CellTimeKept s₀ ((s.fcBump p).put p FC_STAT.lasting 1) := (h.fcBump hp).put hp
  simp only [State.fcStepBy]
  split
  · exact h1.pagePost.ite (h1.raiseNmiAll.ite (h1.same.ite ((hblk _ h1).ite h1)))
  · exact h.fcBump hp

omit hp hblk in
theorem CellTimeKept.pushLog {r : LogRec} : CellTimeKept s₀ (s.pushLog r) := by
  have hp : pTime0 + 0x100 ≤ pMem 3 := by decide
  have hlost : ∀ {t : State}, CellTimeKept s₀ t → CellTimeKept s₀ t.logLost := fun ht => (ht.inc hp).ev hp
  have h1 := (hlost h).fcStepBy hp fun _ ht => ht.blockPlain
  exact h.ite (h.same.ite (((hlost h1).fcBump hp).ite h1))

theorem CellTimeKept.fcBy : CellTimeKept s₀ (State.fcBy blk s p) :=
  have h1 := h.fcStepBy hp hblk
  h1.pushLog.ite h1

end

theorem CellTimeKept.padCause {ch : Nat} : CellTimeKept s₀ (s.padCause ch) :=
  (h.stopAtOnce fun _ h' => h'.fcBy (pTime0_add_le_pProf ch) fun _ ht => ht.blockPlain).ite h

theorem CellTimeKept.blockOutputs {p : Nat} (hp : pTime0 + 0x100 ≤ p) : CellTimeKept s₀ (s.blockOutputs p) := by
  have h0 : CellTimeKept s₀ (s.noteBlocked p) := h.noteBlocked
  unfold State.blockOutputs
  extract_lets s0 _
  split
  · exact h0.stopAtOnce fun _ h' => h'.fcBy hp fun _ ht => ht.blockPlain
  · exact h0.timeOuts
  iterate 3 exact h0.padCause
  · exact overAll_induct h0 fun _ _ h' => h'.padCause
  · exact overAll_induct h0 fun _ _ h' => h'.tioFloat
  · exact h0.loseCore
  · exact h0

theorem CellTimeKept.evC {p k : Nat} (hp : pTime0 + 0x100 ≤ p) : CellTimeKept s₀ (s.evC p k) :=
  (h.ev hp).fcBy hp fun _ ht => ht.blockOutputs hp

theorem CellTimeKept.underrun {ch : Nat} : CellTimeKept s₀ (s.underrun ch) :=
  have hp := pTime0_add_le_pProf ch
  ((h.setPr.put hp).put hp).setPr.evC hp

theorem CellTimeKept.planStop {ch : Nat} : CellTimeKept s₀ (s.planStop ch) := by
  simp only [State.planStop]
  split
  · exact h.setPr.ite (h.setPr.put (pTime0_add_le_pProf ch))
  · exact h.ite h.setPr

theorem CellTimeKept.profStep {ch : Nat} {d : Int} : CellTimeKept s₀ (s.profStep ch d) :=
  have h1 := h.ite h.setPr
  h1.underrun.planStop.ite h1

end

end Sys2Proof.Machine
end

section
/-! PROOF. The time bases: their commands, a measurement, the servo, the timeout and the reset of a base. -/

namespace Sys2Proof.Machine

theorem inRange_base {n : Nat} (h1 : 1 ≤ n) (h3 : n ≤ 3) : inRange n 1 3 = true := by
  simp [inRange]; omega

/-! Load and step (R60). -/

/-- A base whose load has set hist and cleared f and the rate. -/
def State.tbLoaded (s : State) (n : Nat) : State :=
  ((s.put (pTb n) TIME_TB_STAT.hist 1).put (pTb n) TIME_TB_FREQ.freq 0).put (pTb n) TIME_TB_RATE.rate 0

theorem State.tbLoaded_regsOnly (s : State) (n : Nat) : RegsOnly [pTb n + 0x11, pTb n + 0x12, pTb n + 0x13] s (s.tbLoaded n) :=
  (((RegsOnly.refl s _).put _ (by simp)).put _ (by simp)).put _ (by simp)

theorem State.tbLoaded_get (s : State) (n : Nat) :
    (s.tbLoaded n).get (pTb n) TIME_TB_STAT.hist = 1 ∧ (s.tbLoaded n).get (pTb n) TIME_TB_FREQ.freq = 0 ∧
      (s.tbLoaded n).get (pTb n) TIME_TB_RATE.rate = 0 ∧
      (s.tbLoaded n).get (pTb n) TIME_TB_STAT.epoch = s.get (pTb n) TIME_TB_STAT.epoch := by
  unfold State.tbLoaded
  simp (disch := simp) [State.get_put_word, State.get_put_field, State.get_put_same]

theorem doTbLoad_base {n : Nat} (h1 : 1 ≤ n) (h3 : n ≤ 3) (s : State) :
    doTbLoad n s = ((s.tbLoaded n).tbJump n (t72 (s.get (pTb n) TIME_TB_SET_HI.sec) (s.get (pTb n) TIME_TB_SET_LO.frac) * 2 ^ 40)).selector := by
  simp only [doTbLoad]
  rw [if_pos (inRange_base h1 h3), ← State.tbLoaded]

theorem doTbStep_base {n : Nat} (h1 : 1 ≤ n) (h3 : n ≤ 3) (s : State) :
    doTbStep n s = (s.tbJump n (s.tbPlus n (s.getI (pTb n) TIME_TB_MEAS.meas))).selector := by
  rw [doTbStep, if_pos (inRange_base h1 h3)]

/-! Rate and frequency (R62, R65). -/

theorem doTbRateWrite_base {n : Nat} (h1 : 1 ≤ n) (h3 : n ≤ 3) (v : Nat) (s : State) :
    doTbRateWrite n v s = s.put (pTb n) TIME_TB_RATE.rate v := by
  rw [doTbRateWrite, if_pos (inRange_base h1 h3)]

theorem doTbFreqWrite_base {n : Nat} (h1 : 1 ≤ n) (h3 : n ≤ 3) (v : Nat) (s : State) :
    doTbFreqWrite n v s =
      if (sint 36 v).natAbs ≤ 8796093022 then s.put (pTb n) TIME_TB_FREQ.freq v else s.fc (pTb n) := by
  rw [doTbFreqWrite, if_pos (inRange_base h1 h3)]

/-- A word put as the one field of its register. -/
theorem State.put_word_field (s : State) (p : Nat) {f : Fld} (hlo : f.lo = 0) (hhi : f.hi = 35) (v : Word) :
    (s.put p f v.toNat).get p f = v.toNat ∧ RegsOnly [p + f.off] s (s.put p f v.toNat) :=
  ⟨State.get_put_of_lt _ _ _ (by omega) (by omega) (by rw [hlo, hhi]; exact v.isLt), (RegsOnly.refl s _).put _ (by simp)⟩

/-! Measurements (R57, R65). -/

theorem State.tbTau_firmware {s : State} {n : Nat} (h : s.get (pTb n) TIME_TB_CTL.src = 3) :
    s.tbTau n = s.get (pTb n) TIME_TB_INTV.tau := by
  simp [State.tbTau, h]

theorem doTbMeasWrite_firmware {s : State} {n : Nat} (h1 : 1 ≤ n) (h3 : n ≤ 3) (h : s.get (pTb n) TIME_TB_CTL.src = 3) (v : Nat) :
    doTbMeasWrite n v s = s.tbMeasure n (sint 36 v) (s.get (pTb n) TIME_TB_INTV.tau) := by
  simp [doTbMeasWrite, inRange_base h1 h3, h, State.tbTau_firmware]

theorem doTbMeasWrite_other {s : State} {n : Nat} (h : s.get (pTb n) TIME_TB_CTL.src ≠ 3) (v : Nat) : doTbMeasWrite n v s = s := by
  simp [doTbMeasWrite, h]

/-- A measurement recorded and counted, its timeout restarted. -/
def State.tbRecorded (s : State) (n : Nat) (e : Int) : State :=
  (((s.noteMeas n e).putSat (pTb n) TIME_TB_MEAS.meas e).incMod (pTb n) TIME_TB_STAT.count).tbRestart n

/-- With servo 0, a measurement within the step limit counts toward the lock state and steers nothing. -/
theorem State.tbMeasure_unsteered {s : State} {n : Nat} {e : Int} (hs : s.flag (pTb n) TIME_TB_CTL.servo = false)
    (he : e.natAbs ≤ s.get pTime0 TIME_STEP_LIM.lim * 64) (tau : Nat) :
    s.tbMeasure n e tau = ((s.tbRecorded n e).tbCount n e).selector := by
  simp [State.tbMeasure, State.tbRecorded, hs, Nat.not_lt.mpr he]

section
variable (s : State) (n : Nat) (e : Int)

theorem State.get_noteMeas (p : Nat) (f : Fld) : (s.noteMeas n e).get p f = s.get p f := State.get_of_regs rfl p f

theorem State.get_tbRestart (p : Nat) (f : Fld) : (s.tbRestart n).get p f = s.get p f := State.get_of_regs rfl p f

theorem State.tbRecorded_meas : (s.tbRecorded n e).getI (pTb n) TIME_TB_MEAS.meas = clampI (-(2 ^ 35)) (2 ^ 35 - 1) e := by
  obtain ⟨hlo, hhi⟩ := clampI_bounds (lo := -(2 ^ 35)) (hi := 2 ^ 35 - 1) (by decide) e
  rw [State.getI, State.tbRecorded, State.get_tbRestart, State.incMod, State.get_put_word _ _ _ _ _ _ (by simp), ← State.getI,
    State.putSat]
  exact State.getI_putI_same _ _ _ (by decide) (by decide) hlo (Int.le_sub_one_iff.mp hhi)

theorem State.tbRecorded_count :
    (s.tbRecorded n e).get (pTb n) TIME_TB_STAT.count = (s.get (pTb n) TIME_TB_STAT.count + 1) % 2 ^ 16 := by
  rw [State.tbRecorded, State.get_tbRestart, State.get_incMod_same _ _ _ (by decide) (by decide), State.putSat, State.putI,
    State.get_put_word _ _ _ _ _ _ (by simp), State.get_noteMeas]
  rfl

theorem State.tbRecorded_regW {a : Nat} (h11 : a ≠ pTb n + 0x11) (h14 : a ≠ pTb n + 0x14) : (s.tbRecorded n e).regW a = s.regW a := by
  have hnote : (s.noteMeas n e).regW a = s.regW a := State.regW_of_regs rfl
  have hrestart : ∀ t : State, (t.tbRestart n).regW a = t.regW a := fun t => State.regW_of_regs rfl
  rw [State.tbRecorded, hrestart, State.incMod, State.regW_put_ne _ _ _ _ h11, State.putSat, State.putI,
    State.regW_put_ne _ _ _ _ h14, hnote]

/-! The servo (R57). -/

/-- The frequency that a measurement within the step limit leaves. -/
def State.servoFreq (tau : Nat) : Int :=
  clampI (-8796093022) 8796093022 (s.getI (pTb n) TIME_TB_FREQ.freq + servoTerm (s.getI (pTb n) TIME_TB_KI.ki) e tau)

/-- The slew that a measurement within the step limit adds to the rate. -/
def State.servoSlew (tau : Nat) : Int :=
  clampI (-(ppm44 (s.get pTime0 TIME_SLEW_LIM.ppm))) (ppm44 (s.get pTime0 TIME_SLEW_LIM.ppm))
    (servoTerm (s.getI (pTb n) TIME_TB_KP.kp) e tau)

theorem State.servoFreq_bounds (tau : Nat) : -8796093022 ≤ s.servoFreq n e tau ∧ s.servoFreq n e tau ≤ 8796093022 :=
  clampI_bounds (by decide) _

/-- The slew limit has 10 bits, so the slew lies below 1,023 ppm. -/
theorem State.servoSlew_bounds (tau : Nat) : -17996806324 ≤ s.servoSlew n e tau ∧ s.servoSlew n e tau ≤ 17996806324 := by
  have hppm : s.get pTime0 TIME_SLEW_LIM.ppm < 1024 := s.get_lt pTime0 TIME_SLEW_LIM.ppm
  have hlim : 0 ≤ ppm44 (s.get pTime0 TIME_SLEW_LIM.ppm) ∧ ppm44 (s.get pTime0 TIME_SLEW_LIM.ppm) ≤ 17996806324 := by
    unfold ppm44
    omega
  obtain ⟨hlo, hhi⟩ := clampI_bounds (lo := -(ppm44 (s.get pTime0 TIME_SLEW_LIM.ppm))) (hi := ppm44 (s.get pTime0 TIME_SLEW_LIM.ppm))
    (by omega) (servoTerm (s.getI (pTb n) TIME_TB_KP.kp) e tau)
  unfold State.servoSlew
  omega

/-- The steered words: f and the rate, with the count of far measurements cleared. -/
theorem State.tbServo_eq (tau : Nat) : s.tbServo n e tau =
    ({ s with time := { s.time with far := Tab.wr s.time.far n 0 } }.putI (pTb n) TIME_TB_FREQ.freq (s.servoFreq n e tau)).putI
      (pTb n) TIME_TB_RATE.rate (s.servoFreq n e tau + s.servoSlew n e tau) := rfl

theorem State.tbServo_freq (tau : Nat) : (s.tbServo n e tau).getI (pTb n) TIME_TB_FREQ.freq = s.servoFreq n e tau := by
  obtain ⟨hlo, hhi⟩ := s.servoFreq_bounds n e tau
  have hput := State.getI_putI_same { s with time := { s.time with far := Tab.wr s.time.far n 0 } } (pTb n) TIME_TB_FREQ.freq
    (i := s.servoFreq n e tau) (by decide) (by decide) (by simp; omega) (by simp; omega)
  rw [s.tbServo_eq]
  exact (congrArg (sint 36) (State.get_put_word _ _ _ _ _ _ (by simp))).trans hput

theorem State.tbServo_rate (tau : Nat) :
    (s.tbServo n e tau).getI (pTb n) TIME_TB_RATE.rate = s.servoFreq n e tau + s.servoSlew n e tau := by
  obtain ⟨hlo, hhi⟩ := s.servoFreq_bounds n e tau
  obtain ⟨hlo', hhi'⟩ := s.servoSlew_bounds n e tau
  rw [s.tbServo_eq]
  exact State.getI_putI_same _ _ _ (by decide) (by decide) (by simp; omega) (by simp; omega)

theorem State.tbServo_regW (tau : Nat) {a : Nat} (h12 : a ≠ pTb n + 0x12) (h13 : a ≠ pTb n + 0x13) :
    (s.tbServo n e tau).regW a = s.regW a :=
  (State.regW_setReg_ne _ _ h12).trans (State.regW_setReg_ne _ _ h13)

end

/-! The timeout, and the unlock (R58). -/

/-- A base whose timeout has passed: its frequency holds, and the timeout is noted. -/
def State.tbLapsed (s : State) (n : Nat) : State :=
  let s1 := if s.flag (pTb n) TIME_TB_CTL.servo then s.put (pTb n) TIME_TB_RATE.rate (s.get (pTb n) TIME_TB_FREQ.freq) else s
  { s1 with time := { s1.time with lapsed := n :: s1.time.lapsed } }

theorem State.tbLapsed_rate {s : State} {n : Nat} (h : s.flag (pTb n) TIME_TB_CTL.servo = true) :
    (s.tbLapsed n).get (pTb n) TIME_TB_RATE.rate = s.get (pTb n) TIME_TB_FREQ.freq := by
  have hregs : (s.tbLapsed n).regs = (s.put (pTb n) TIME_TB_RATE.rate (s.get (pTb n) TIME_TB_FREQ.freq)).regs := by
    simp [State.tbLapsed, h]
  rw [State.get_of_regs hregs]
  exact State.get_put_of_lt _ _ _ (by decide) (by decide) (s.get_lt (pTb n) TIME_TB_FREQ.freq)

theorem State.tbLapsed_regs {s : State} {n : Nat} (h : s.flag (pTb n) TIME_TB_CTL.servo = false) : (s.tbLapsed n).regs = s.regs := by
  simp [State.tbLapsed, h]

theorem State.tbLapsed_cnt (s : State) (n : Nat) : (s.tbLapsed n).time.cnt = s.time.cnt := by
  simp only [State.tbLapsed]
  split <;> rfl

theorem execTbMeasTimeout_lapsed {s : State} {n : Nat} (h1 : 1 ≤ n) (h3 : n ≤ 3) (ht : s.get (pTb n) TIME_TB_LOCK.tmo ≠ 0)
    (hs : s.flag (pTb n) TIME_TB_STAT.susp = false) (hl : n ∉ s.time.lapsed)
    (hdue : Tab.rd s.time.mt n + max (s.get (pTb n) TIME_TB_LOCK.tmo * 2000000) (2 * s.tbTau n * 64) ≤ s.t64 0) :
    execTbMeasTimeout n s = .next ((((s.tbLapsed n).tbUnlock n).ev (pTb n) 5).selector) := by
  simp only [execTbMeasTimeout, inRange_base h1 h3, hs]
  rw [if_neg (by simp only [ht, hl, Nat.not_lt.mpr hdue]; decide), ← State.tbLapsed]

/-- A base that has lost its lock, before the event. -/
def State.tbUnlocked (s : State) (n : Nat) : State :=
  let s1 := (s.put (pTb n) TIME_TB_STAT.locked 0).put (pTb n) TIME_TB_STAT.good 0
  { s1 with time := { s1.time with bad := Tab.wr s1.time.bad n 0 } }

theorem State.tbUnlock_locked {s : State} {n : Nat} (h : s.flag (pTb n) TIME_TB_STAT.locked = true) :
    s.tbUnlock n = (s.tbUnlocked n).evC (pTb n) 2 := by
  simp only [State.tbUnlock, h, if_true]
  rfl

theorem State.tbUnlocked_get (s : State) (n : Nat) :
    (s.tbUnlocked n).get (pTb n) TIME_TB_STAT.locked = 0 ∧ (s.tbUnlocked n).get (pTb n) TIME_TB_STAT.good = 0 := by
  have hregs : ∀ f, (s.tbUnlocked n).get (pTb n) f =
      ((s.put (pTb n) TIME_TB_STAT.locked 0).put (pTb n) TIME_TB_STAT.good 0).get (pTb n) f := State.get_of_regs rfl (pTb n)
  simp (disch := simp) [hregs, State.get_put_field, State.get_put_same]

/-! The reset of a base (R546). -/

/-- The status, rate and frequency of a base have no locked field, and reset to 0. -/
theorem resetWord_pTb {n o : Nat} (h1 : 1 ≤ n) (h3 : n ≤ 3) (ho : o ∈ [0x11, 0x12, 0x13]) :
    LockFree (pTb n + o) ∧ resetWord (pTb n + o) = 0 := by
  have hall : ∀ k ∈ [1, 2, 3], ∀ x ∈ [0x11, 0x12, 0x13], LockFree (pTb k + x) ∧ resetWord (pTb k + x) = 0 := by
    unfold LockFree
    decide
  exact hall n (by simp; omega) o ho

/-- The words of a base's page back at reset, but for its history, epoch and suspension. -/
def State.tbWordsReset (s : State) (n : Nat) : State :=
  (((s.resetPage (pTb n) (fun _ => false) (s.reg (pTb n + 2) / 256 * 256)).put
    (pTb n) TIME_TB_STAT.hist (s.get (pTb n) TIME_TB_STAT.hist)).put (pTb n) TIME_TB_STAT.epoch (s.get (pTb n) TIME_TB_STAT.epoch)).put
    (pTb n) TIME_TB_STAT.susp (s.get (pTb n) TIME_TB_STAT.susp)

/-- The servo of a base forgets its measurements. -/
def State.servoCleared (s : State) (n : Nat) : State :=
  { s with time := { s.time with
      far := Tab.wr s.time.far n 0, bad := Tab.wr s.time.bad n 0, eFirst := Tab.wr s.time.eFirst n 0, pps6 := Tab.wr s.time.pps6 n none } }

theorem doTbSrst_base {n : Nat} (h1 : 1 ≤ n) (h3 : n ≤ 3) (s : State) :
    doTbSrst n s = ((s.tbWordsReset n).servoCleared n).selector := by
  simp only [doTbSrst]
  rw [if_pos (inRange_base h1 h3)]
  rfl

theorem State.get_servoCleared (s : State) (n p : Nat) (f : Fld) : (s.servoCleared n).get p f = s.get p f := State.get_of_regs rfl p f

theorem State.servoCleared_rest (s : State) (n : Nat) :
    (s.servoCleared n).time.cnt = s.time.cnt ∧ (s.servoCleared n).prism = s.prism :=
  ⟨rfl, rfl⟩

theorem State.tbWordsReset_rest (s : State) (n : Nat) : (s.tbWordsReset n).time = s.time ∧ (s.tbWordsReset n).prism = s.prism := by
  unfold State.tbWordsReset
  rw [State.resetPage_regs]
  exact ⟨rfl, rfl⟩

theorem State.tbWordsReset_kept (s : State) (n : Nat) :
    (s.tbWordsReset n).get (pTb n) TIME_TB_STAT.hist = s.get (pTb n) TIME_TB_STAT.hist ∧
      (s.tbWordsReset n).get (pTb n) TIME_TB_STAT.epoch = s.get (pTb n) TIME_TB_STAT.epoch ∧
      (s.tbWordsReset n).get (pTb n) TIME_TB_STAT.susp = s.get (pTb n) TIME_TB_STAT.susp := by
  have hist := Nat.mod_eq_of_lt (s.get_lt (pTb n) TIME_TB_STAT.hist)
  have epoch := Nat.mod_eq_of_lt (s.get_lt (pTb n) TIME_TB_STAT.epoch)
  have susp := Nat.mod_eq_of_lt (s.get_lt (pTb n) TIME_TB_STAT.susp)
  unfold State.tbWordsReset
  simp (disch := simp) only [State.get_put_field, State.get_put_same, hist, epoch, susp, and_self]

section
variable (s : State) {n : Nat} (h1 : 1 ≤ n) (h3 : n ≤ 3)
include h1 h3

/-- The status, rate and frequency read 0 after the reset of the page. -/
theorem State.get_resetPage_pTb {f : Fld} (hf : f.off ∈ [0x11, 0x12, 0x13]) (blk : Nat) :
    (s.resetPage (pTb n) (fun _ => false) blk).get (pTb n) f = 0 := by
  obtain ⟨hlock, hword⟩ := resetWord_pTb h1 h3 hf
  have hoff : 0x10 ≤ f.off ∧ f.off < 0x100 := by
    simp at hf; omega
  rw [State.get, State.reg, s.regW_resetPage hlock hoff.1 hoff.2, if_pos rfl, hword]
  simp [fldGet]

theorem State.tbWordsReset_cleared :
    (s.tbWordsReset n).get (pTb n) TIME_TB_STAT.locked = 0 ∧ (s.tbWordsReset n).get (pTb n) TIME_TB_STAT.disc = 0 ∧
      (s.tbWordsReset n).get (pTb n) TIME_TB_STAT.good = 0 ∧ (s.tbWordsReset n).get (pTb n) TIME_TB_FREQ.freq = 0 ∧
      (s.tbWordsReset n).get (pTb n) TIME_TB_RATE.rate = 0 := by
  unfold State.tbWordsReset
  simp (disch := simp) only [State.get_put_field, State.get_put_word, s.get_resetPage_pTb h1 h3, and_self]

end

end Sys2Proof.Machine

namespace Sys2Proof

open Machine

/-- Settles O20, a lemma for each command of a base and each part of a measurement. -/
theorem timeBases : Obligations.TimeBases := by
  refine ⟨?load, ?step, ?rate, ?freq, ?freqOut, ?measOther, ?meas, ?unsteered, ?servo, ?timeout, ?unlock, ?srst, fun _ => rfl⟩
  case load =>
    intro s n ht h1 h3
    obtain ⟨hhist, hfreq, hrate, hepoch⟩ := s.tbLoaded_get n
    refine ⟨s.tbLoaded n, State.next_writeWord ht ?_, hhist, hfreq, hrate, s.tbLoaded_regsOnly n⟩
    rw [doTbLoad_base h1 h3, State.tbJump, hepoch]
  case step => exact fun s n ht h1 h3 => State.next_writeWord ht (doTbStep_base h1 h3 s)
  case rate =>
    exact fun s n v ht h1 h3 => ⟨_, State.next_writeWord ht (doTbRateWrite_base h1 h3 _ s), s.put_word_field (pTb n) rfl rfl v⟩
  case freq =>
    exact fun s n v ht h1 h3 hv =>
      ⟨_, State.next_writeWord ht ((doTbFreqWrite_base h1 h3 _ s).trans (if_pos hv)), s.put_word_field (pTb n) rfl rfl v⟩
  case freqOut =>
    exact fun s n v ht h1 h3 hv => State.next_writeWord ht ((doTbFreqWrite_base h1 h3 _ s).trans (if_neg (Nat.not_le.mpr hv)))
  case measOther => exact fun s n v ht _ _ hsrc => State.next_writeWord ht (doTbMeasWrite_other hsrc _)
  case meas => exact fun s n v ht h1 h3 hsrc => State.next_writeWord ht (doTbMeasWrite_firmware h1 h3 hsrc _)
  case unsteered =>
    intro s n e tau _ _ hs he
    exact ⟨_, State.tbMeasure_unsteered hs he tau, s.tbRecorded_meas n e, s.tbRecorded_count n e, rfl,
      fun a h11 h14 => s.tbRecorded_regW n e h11 h14⟩
  case servo =>
    intro s n e tau _ _
    exact ⟨s.tbServo_freq n e tau, s.tbServo_rate n e tau, fun a h12 h13 => s.tbServo_regW n e tau h12 h13⟩
  case timeout =>
    intro s n h1 h3 ht hs hl hdue
    exact ⟨_, execTbMeasTimeout_lapsed h1 h3 ht hs hl hdue, State.tbLapsed_rate, State.tbLapsed_regs, s.tbLapsed_cnt n⟩
  case unlock =>
    intro s n h
    obtain ⟨hlocked, hgood⟩ := s.tbUnlocked_get n
    exact ⟨_, State.tbUnlock_locked h, by simp [State.flag, hlocked], hgood⟩
  case srst =>
    intro s n h1 h3
    obtain ⟨htime, hprism⟩ := s.tbWordsReset_rest n
    obtain ⟨hcnt', hprism'⟩ := (s.tbWordsReset n).servoCleared_rest n
    have hkept := s.tbWordsReset_kept n
    have hcleared := s.tbWordsReset_cleared h1 h3
    simp only [← (s.tbWordsReset n).get_servoCleared n] at hkept hcleared
    obtain ⟨hhist, hepoch, hsusp⟩ := hkept
    obtain ⟨hlocked, hdisc, hgood, hfreq, hrate⟩ := hcleared
    exact ⟨_, congrArg Host.Outcome.next (doTbSrst_base h1 h3 s), by rw [hcnt', htime], hhist, hepoch, hsusp, hlocked, hdisc, hgood,
      hfreq, hrate, by rw [hprism', hprism]⟩

end Sys2Proof
end

section
/-! PROOF. Cell time: first validity, the selector's commands, the re-epoch, a load, its rate, and the reset of TIME page 0. -/

namespace Sys2Proof.Machine

/-! The selector's word (R73). -/

theorem wordFields_ctCtl : wordFields (pTime0 + 0x10) =
    [TIME_CT_CTL.hold, TIME_CT_CTL.auto_, TIME_CT_CTL.revert, TIME_CT_CTL.pri, TIME_CT_CTL.mir] := by
  decide

/-- TIME_CT_CTL with each of its fields taken from a written word. -/
def ctCtlMerge (old v : Nat) : Nat :=
  fldPut (fldPut (fldPut (fldPut (fldPut old TIME_CT_CTL.hold (fldGet v TIME_CT_CTL.hold)) TIME_CT_CTL.auto_ (fldGet v TIME_CT_CTL.auto_))
    TIME_CT_CTL.revert (fldGet v TIME_CT_CTL.revert)) TIME_CT_CTL.pri (fldGet v TIME_CT_CTL.pri)) TIME_CT_CTL.mir (fldGet v TIME_CT_CTL.mir)

theorem ctCtlMerge_lt {old : Nat} (v : Nat) (h : old < 2 ^ 36) : ctCtlMerge old v < 2 ^ 36 := by
  unfold ctCtlMerge
  iterate 5 refine fldPut_lt _ _ (by decide) (by decide) ?_
  exact h

theorem fldGet_ctCtlMerge (old v : Nat) :
    ∀ f ∈ [TIME_CT_CTL.hold, TIME_CT_CTL.auto_, TIME_CT_CTL.revert, TIME_CT_CTL.pri, TIME_CT_CTL.mir],
      fldGet (ctCtlMerge old v) f = fldGet v f := by
  intro f hf
  have hmod : ∀ g : Fld, fldGet v g % 2 ^ (g.hi + 1 - g.lo) = fldGet v g := fun g => Nat.mod_eq_of_lt (fldGet_lt v g)
  unfold ctCtlMerge
  fin_cases hf <;> simp (disch := simp) only [fldGet_fldPut_ne, fldGet_fldPut_same, hmod]

/-- No field of TIME_CT_CTL is locked, so a plain write is one write of its word. -/
theorem State.plainWrite_ctCtl (s : State) (ini v : Nat) :
    s.plainWrite ini (pTime0 + 0x10) v = s.setReg (pTime0 + 0x10) (ctCtlMerge (s.reg (pTime0 + 0x10)) v) := by
  have hm : s.mergeWord ini (pTime0 + 0x10) v = (ctCtlMerge (s.reg (pTime0 + 0x10)) v, false) := by
    rw [State.mergeWord, wordFields_ctCtl]
    rfl
  rw [State.plainWrite, hm]
  rfl

theorem State.get_plainWrite_ctCtl (s : State) (ini v : Nat) {f : Fld}
    (hf : f ∈ [TIME_CT_CTL.hold, TIME_CT_CTL.auto_, TIME_CT_CTL.revert, TIME_CT_CTL.pri, TIME_CT_CTL.mir]) :
    (s.plainWrite ini (pTime0 + 0x10) v).get pTime0 f = fldGet v f := by
  have hoff : f.off = 0x10 := by fin_cases hf <;> rfl
  rw [s.plainWrite_ctCtl, State.get, hoff, State.reg_setReg_same, Nat.mod_eq_of_lt (ctCtlMerge_lt v (s.reg_lt _)),
    fldGet_ctCtlMerge _ _ f hf]

theorem doCtCtlWrite_refused {v : Nat} (h : fldGet v TIME_CT_CTL.pri = 0 ∨ fldGet v TIME_CT_CTL.mir = 0 ∨
    fldGet v TIME_CT_CTL.pri = fldGet v TIME_CT_CTL.mir) (s : State) : doCtCtlWrite v s = s.fc pTime0 :=
  if_pos h

theorem doCtCtlWrite_taken {v : Nat} (hp : fldGet v TIME_CT_CTL.pri ≠ 0) (hm : fldGet v TIME_CT_CTL.mir ≠ 0)
    (hne : fldGet v TIME_CT_CTL.pri ≠ fldGet v TIME_CT_CTL.mir) (s : State) :
    doCtCtlWrite v s = (s.plainWrite 0 (pTime0 + 0x10) v).selector :=
  if_neg (by simp [hp, hm, hne])

/-! First validity, the hold-off and the slew (R68, R69, R70). -/

section
variable {s : State}

theorem execCtFirstValidity_valid (h : s.flag pTime0 TIME_CT_STAT.valid = true) : execCtFirstValidity s = .next s := by
  simp [execCtFirstValidity, h]

theorem execCtFirstValidity_primary (h : s.flag pTime0 TIME_CT_STAT.valid = false) (hp : s.eligible (s.get pTime0 TIME_CT_CTL.pri) = true) :
    execCtFirstValidity s =
      .next ((((s.ctLoad (s.get pTime0 TIME_CT_CTL.pri)).put pTime0 TIME_CT_STAT.state 1).ev pTime0 0).selector) := by
  simp [execCtFirstValidity, h, hp]

theorem execCtFirstValidity_mirror (h : s.flag pTime0 TIME_CT_STAT.valid = false) (hp : s.eligible (s.get pTime0 TIME_CT_CTL.pri) = false)
    (hm : s.eligible (s.get pTime0 TIME_CT_CTL.mir) = true) :
    execCtFirstValidity s =
      .next ((((s.ctLoad (s.get pTime0 TIME_CT_CTL.mir)).put pTime0 TIME_CT_STAT.state 2).ev pTime0 0).selector) := by
  simp [execCtFirstValidity, h, hp, hm]

theorem execRevertHoldoffExpire_due {t : Nat} (hr : s.noteRevert.time.revert = some t) (hh : s.flag pTime0 TIME_CT_CTL.hold = false)
    (ha : s.flag pTime0 TIME_CT_CTL.auto_ = true) (hk : s.get pTime0 TIME_CT_CTL.revert ≠ 0)
    (hd : t + s.get pTime0 TIME_CT_CTL.revert * secUnits ≤ s.t64 0) :
    execRevertHoldoffExpire s = .next ((s.select 1 (s.get pTime0 TIME_CT_CTL.pri)).noteRevert) := by
  simp only [execRevertHoldoffExpire, hr, hh, ha]
  rw [if_neg (by simp only [hk, Nat.not_lt.mpr hd]; decide)]

theorem execSlewDone_below (hf : s.following = true) (hs : s.flag pTime0 TIME_CT_STAT.slewing = true) (hd : s.ctDiff.natAbs < 2 ^ 40) :
    execSlewDone s = .next ((s.put pTime0 TIME_CT_STAT.slewing 0).ev pTime0 6) := by
  simp only [execSlewDone, hf, hs, hd]
  rfl

/-! The re-epoch (R77). -/

theorem execReEpochDone_over (h4 : s.get pTime0 TIME_CT_STAT.state = 4) (hw : s.walkOn 4 = false) :
    execReEpochDone s = .next (((s.put pTime0 TIME_CT_STAT.state
      (if s.get pTime0 TIME_CT_STAT.base = s.get pTime0 TIME_CT_CTL.mir then 2 else 1)).ev pTime0 3).selector) := by
  simp [execReEpochDone, h4, hw]

theorem execReEpochDone_walking (hw : s.walkOn 4 = true) : execReEpochDone s = .next s := by
  simp [execReEpochDone, hw]

variable {v : Nat} (hgo : fldGet v TIME_REEPOCH.go = 1)
include hgo

theorem doReEpoch_noBase (hb : fldGet v TIME_REEPOCH.base = 0) : doReEpoch v s = (s.fc pTime0).ev pTime0 4 := by
  simp [doReEpoch, hb, hgo]

variable (hb : fldGet v TIME_REEPOCH.base ≠ 0)
include hb

theorem doReEpoch_refused (h : s.flag pTime0 TIME_CT_STAT.valid = false ∨ s.get pTime0 TIME_CT_STAT.state = 4 ∨
    s.flag (pTb (fldGet v TIME_REEPOCH.base)) TIME_TB_STAT.locked = false) : doReEpoch v s = s.ev pTime0 4 := by
  simp only [doReEpoch, hgo, one_ne_zero]
  rw [if_neg hb, if_false, if_pos h]

theorem doReEpoch_taken (hv : s.flag pTime0 TIME_CT_STAT.valid = true) (h4 : s.get pTime0 TIME_CT_STAT.state ≠ 4)
    (hl : s.flag (pTb (fldGet v TIME_REEPOCH.base)) TIME_TB_STAT.locked = true) (hs : s.flag pTime0 TIME_CT_STAT.slewing = false) :
    doReEpoch v s = ((s.put pTime0 TIME_REEPOCH.base (fldGet v TIME_REEPOCH.base)).put pTime0 TIME_CT_STAT.state 4).ctLoad
      (fldGet v TIME_REEPOCH.base) := by
  simp only [doReEpoch, hgo, one_ne_zero, hs]
  rw [if_neg hb, if_false, if_neg (by simp [hv, h4, hl])]
  rfl

end

/-! A load of cell time (R68, R77). -/

/-- Cell time put to a value, with the TB0 time of the jump. -/
def State.ctJump (s : State) (v j : Nat) : State := { s.setCnt 4 v with jumpAt := some j }

theorem State.get_ctJump (s : State) (v j p : Nat) (f : Fld) : (s.ctJump v j).get p f = s.get p f := State.get_of_regs rfl p f

theorem State.ctJump_time (s : State) (v j : Nat) :
    Tab.get (fun _ => 0) (s.ctJump v j).time.cnt 4 = v ∧ (s.ctJump v j).jumpAt = some j :=
  ⟨Tab.get_set_same _ _ _ _, rfl⟩

/-- Cell time with the value of a base, before the generators are told. -/
def State.ctTaken (s : State) (b : Nat) : State :=
  (((s.put pTime0 TIME_CT_STAT.valid 1).ctJump (s.cnt b) (s.t64 0)).put pTime0 TIME_CT_STAT.epoch
    (s.get pTime0 TIME_CT_STAT.epoch + 1)).put pTime0 TIME_CT_STAT.base b

/-- The generators told of a step of cell time. -/
def State.ctStepped (s : State) (d : Int) : State := overAll (List.range 96) s fun ch t => t.profStep ch d

theorem State.ctLoad_eq (s : State) (b : Nat) :
    s.ctLoad b = ((s.ctTaken b).ctStepped ((vis64 (s.cnt b) : Int) - s.t64 4)).walkRequest 4 := by
  simp only [State.ctLoad, State.ctStepped, State.ctTaken, State.ctJump]

theorem State.ctStepped_kept (s : State) (d : Int) : CellTimeKept s (s.ctStepped d) :=
  overAll_induct (CellTimeKept.refl s) fun _ _ h => h.profStep

theorem State.ctTaken_get (s : State) (b : Nat) :
    (s.ctTaken b).get pTime0 TIME_CT_STAT.valid = 1 ∧
      (s.ctTaken b).get pTime0 TIME_CT_STAT.epoch = (s.get pTime0 TIME_CT_STAT.epoch + 1) % 256 ∧
      (s.ctTaken b).get pTime0 TIME_CT_STAT.base = b % 4 := by
  unfold State.ctTaken
  simp (disch := simp) [State.get_put_field, State.get_put_same, State.get_ctJump]

theorem State.ctTaken_time (s : State) (b : Nat) :
    Tab.get (fun _ => 0) (s.ctTaken b).time.cnt 4 = s.cnt b ∧ (s.ctTaken b).jumpAt = some (s.t64 0) :=
  State.ctJump_time _ _ _

/-- A field of TIME page 0 reads as before the generators are told. -/
theorem CellTimeKept.get {s₀ s : State} (h : CellTimeKept s₀ s) {f : Fld} (hf : f.off < 0x100) : s.get pTime0 f = s₀.get pTime0 f :=
  congrArg (fun w : Word => fldGet w.toNat f) (h.regW _ (by omega))

/-! The rate (R71). -/

theorem State.ctRate_holdover {s : State} (h : s.get pTime0 TIME_CT_STAT.state = 3) : s.ctRate = s.time.frozen := by
  simp only [State.ctRate]
  rw [if_pos h]

theorem State.ctRate_bounds {s : State} (h : s.get pTime0 TIME_CT_STAT.state ≠ 3) :
    -(ppm44 1500) ≤ s.ctRate ∧ s.ctRate ≤ ppm44 1500 := by
  have hc := clampI_bounds (lo := -(ppm44 1500)) (hi := ppm44 1500) (by decide)
  simp only [State.ctRate]
  rw [if_neg h]
  split
  exacts [hc _, hc _]

/-! The reset of TIME page 0 (R547). -/

/-- The words of TIME page 0 back at reset, but for the state of cell time. -/
def State.timeWordsReset (s : State) : State :=
  s.resetPage pTime0 (fun a => a == pTime0 + 0x11) (s.reg (pTime0 + 2) / 256 * 256)

theorem lockFree_pTime0 : ∀ o ∈ [0x10, 0x11, 0x13, 0x16], LockFree (pTime0 + o) := by
  unfold LockFree
  decide

theorem State.timeWordsReset_kept (s : State) : s.timeWordsReset.reg (pTime0 + 0x11) = s.reg (pTime0 + 0x11) :=
  congrArg BitVec.toNat (s.regW_resetPage (lockFree_pTime0 _ (by simp)) (by decide) (by decide) _ _)

theorem State.timeWordsReset_default (s : State) : ∀ o ∈ [0x10, 0x13, 0x16],
    s.timeWordsReset.regW (pTime0 + o) = resetWord (pTime0 + o) := by
  intro o ho
  have hlo : 0x10 ≤ o ∧ o < 0x100 ∧ o ∈ [0x10, 0x11, 0x13, 0x16] ∧ (pTime0 + o == pTime0 + 0x11) = false := by
    fin_cases ho <;> decide
  obtain ⟨hlo, hhi, hmem, hkeep⟩ := hlo
  exact (s.regW_resetPage (lockFree_pTime0 _ hmem) hlo hhi _ _).trans (if_pos hkeep)

theorem State.timeWordsReset_time (s : State) : s.timeWordsReset.time = s.time := by
  rw [State.timeWordsReset, State.resetPage_regs]

/-- The 1PPS and 10 MHz outputs low. -/
def State.outputsLow (s : State) : State := { s with time := { s.time with ppsOut := false, tenOut := false } }

theorem doTimeSrst_eq (s : State) : doTimeSrst s = s.timeWordsReset.outputsLow.selector := rfl

theorem State.regW_outputsLow (s : State) (a : Nat) : s.outputsLow.regW a = s.regW a := State.regW_of_regs rfl

theorem State.outputsLow_time (s : State) : s.outputsLow.time.cnt = s.time.cnt ∧ s.outputsLow.time.frozen = s.time.frozen ∧
    s.outputsLow.time.ppsOut = false ∧ s.outputsLow.time.tenOut = false :=
  ⟨rfl, rfl, rfl, rfl⟩

end Sys2Proof.Machine

namespace Sys2Proof

open Machine

/-- Settles O21, a lemma for each command of cell time, its load, its rate and its reset. -/
theorem cellTime : Obligations.CellTime := by
  refine ⟨?primary, ?mirror, ?valid, ?revert, ?slew, ?ctlBad, ?ctl, ?epochRefused, ?epoch, ?epochNoBase, ?done, ?walking, ?srst, ?load,
    fun _ h => State.ctRate_holdover h, ?rate⟩
  case primary => exact fun s h hp => execCtFirstValidity_primary h hp
  case mirror => exact fun s h hp hm => execCtFirstValidity_mirror h hp hm
  case valid => exact fun s h => execCtFirstValidity_valid h
  case revert => exact fun s t hr hh ha hk hd => execRevertHoldoffExpire_due hr hh ha hk hd
  case slew => exact fun s hf hs hd => execSlewDone_below hf hs hd
  case ctlBad => exact fun s v ht h => State.next_writeWord ht (doCtCtlWrite_refused h s)
  case ctl =>
    intro s v ht hp hm hne
    refine ⟨s.plainWrite 0 (pTime0 + 0x10) v.toNat, State.next_writeWord ht (doCtCtlWrite_taken hp hm hne s),
      s.get_plainWrite_ctCtl _ _ (by simp), s.get_plainWrite_ctCtl _ _ (by simp), s.get_plainWrite_ctCtl _ _ (by simp),
      s.get_plainWrite_ctCtl _ _ (by simp), s.get_plainWrite_ctCtl _ _ (by simp), ?_⟩
    rw [s.plainWrite_ctCtl]
    exact RegsOnly.setReg s _ _
  case epochRefused => exact fun s v ht hb hgo h => State.next_writeWord ht (doReEpoch_refused hgo hb h)
  case epoch => exact fun s v ht hb hgo hv h4 hl hs => State.next_writeWord ht (doReEpoch_taken hgo hb hv h4 hl hs)
  case epochNoBase => exact fun s v ht hb hgo => State.next_writeWord ht (doReEpoch_noBase hgo hb)
  case done => exact fun s h4 hw => execReEpochDone_over h4 hw
  case walking => exact fun s _ hw => execReEpochDone_walking hw
  case srst =>
    intro s
    have hreset := s.timeWordsReset_default
    obtain ⟨hcnt, hfrozen, hpps, hten⟩ := s.timeWordsReset.outputsLow_time
    rw [s.timeWordsReset_time] at hcnt hfrozen
    refine ⟨_, congrArg Host.Outcome.next (doTimeSrst_eq s), hcnt, ?_, ?_, ?_, ?_, hpps, hten, hfrozen⟩
    · exact (congrArg BitVec.toNat (State.regW_outputsLow _ _)).trans s.timeWordsReset_kept
    all_goals exact (State.regW_outputsLow _ _).trans (hreset _ (by simp))
  case load =>
    intro s b
    have hk := (s.ctTaken b).ctStepped_kept ((vis64 (s.cnt b) : Int) - s.t64 4)
    obtain ⟨hvalid, hepoch, hbase⟩ := s.ctTaken_get b
    obtain ⟨hcnt, hjump⟩ := s.ctTaken_time b
    refine ⟨_, s.ctLoad_eq b, ?_, by rw [hk.cnt, hcnt], (hk.get (by decide)).trans hepoch, (hk.get (by decide)).trans hbase,
      hk.jumpAt.trans hjump⟩
    rw [State.flag, hk.get (by decide), hvalid]
    rfl
  case rate =>
    intro s h
    obtain ⟨hlo, hhi⟩ := State.ctRate_bounds h
    exact ⟨hhi, hlo⟩

end Sys2Proof
end

section
/-! PROOF. What the commands of the Prism are made of: the addresses of its table and pages, the part of the machine that they leave
alone, and the disarm of an entry. -/

namespace Sys2Proof.Machine

/-! The table and the pages (R93). -/

theorem pTrg_add_ne_pPrism0 {n o k : Nat} (h : k < 0x8000) : pTrg n + o ≠ pPrism0 + k := by unfold pTrg pPrism0; omega

theorem blkOf_pTrg {n k : Nat} (hn : n < 1024) (hk : k < 4) : blkOf (pTrg n + k) = .trg := by
  have hq : (pTrg n + k - pageSpace) / 0x100 = 0x380 + n / 64 := by unfold pTrg pageSpace; omega
  have hr : inRange (0x380 + n / 64) 0x380 16 = true := by simp [inRange]; omega
  have hne : ∀ q < 0x380, (0x380 + n / 64 == q) = false := fun q h => by simp; omega
  unfold blkOf
  rw [if_neg (by unfold pTrg pageSpace; omega), hq]
  unfold blkOfIndex
  rw [if_neg (by omega), if_neg (by omega), if_pos (by omega), hne _ (by decide), hne _ (by decide), hne _ (by decide), hr]
  rfl

/-- No field of the table is one that a lock keeps. -/
theorem lockFree_pTrg {n k : Nat} (hn : n < 1024) (hk : k < 4) : LockFree (pTrg n + k) := by
  have hall : ∀ f ∈ fieldsTrg, f.acc ≠ .sl ∧ f.acc ≠ .ol := by decide
  intro f hf
  rw [wordFields, blkOf_pTrg hn hk] at hf
  have hmem : f ∈ fieldsTrg.filter fun g => g.off == (pTrg n + k) % 4 := hf
  exact hall f (List.mem_of_mem_filter hmem)

theorem State.get_setReg_ne (s : State) {a p : Nat} {f : Fld} (v : Nat) (h : p + f.off ≠ a) : (s.setReg a v).get p f = s.get p f :=
  congrArg (fun w => fldGet w f) (s.reg_setReg_ne v h)

/-! The frame of the Prism's commands. -/

theorem State.get_setPrism (s : State) (r : PrismSt) (p : Nat) (f : Fld) : { s with prism := r }.get p f = s.get p f :=
  State.get_of_regs rfl p f

theorem RegsOnly.prism {as : List Nat} {s t : State} (h : RegsOnly as s t) : t.prism = s.prism := by
  have hframe := congrArg State.prism h.2
  exact hframe

/-- Nothing differs but the Prism's record and some register words. -/
def PrismRegs (as : List Nat) (s t : State) : Prop := RegsOnly as { s with prism := t.prism } t

theorem PrismRegs.refl (as : List Nat) (s : State) : PrismRegs as s s := RegsOnly.refl s as

theorem RegsOnly.prismRegs {as : List Nat} {s t : State} (h : RegsOnly as s t) : PrismRegs as s t := by
  have hs : { s with prism := t.prism } = s := by rw [h.prism]
  rwa [PrismRegs, hs]

section
variable {as : List Nat} {s t : State} (h : PrismRegs as s t)
include h

theorem PrismRegs.regW {a : Nat} (ha : a ∉ as) : t.regW a = s.regW a := h.1 a ha

theorem PrismRegs.frame : t = { s with regs := t.regs, prism := t.prism } := h.2

theorem PrismRegs.now : t.now = s.now := by
  have hframe := congrArg State.now h.frame
  exact hframe

theorem PrismRegs.wire : t.wire = s.wire := by
  have hframe := congrArg State.wire h.frame
  exact hframe

theorem PrismRegs.setPrism {r : PrismSt} : PrismRegs as s { t with prism := r } := by
  refine ⟨fun a ha => h.1 a ha, ?_⟩
  have hf := h.frame
  generalize t.regs = regs at hf
  generalize t.prism = prism at hf
  subst hf
  rfl

theorem PrismRegs.regsOnly : RegsOnly as s { t with prism := s.prism } := h.setPrism

theorem PrismRegs.setReg {a v : Nat} (ha : a ∈ as) : PrismRegs as s (t.setReg a v) := RegsOnly.setReg_mem h v ha

theorem PrismRegs.put {p : Nat} {f : Fld} {v : Nat} (hf : p + f.off ∈ as) : PrismRegs as s (t.put p f v) := h.setReg hf

end

/-! The disarm of an entry (R99). -/

/-- The words of an entry that is disarmed with a code. -/
def State.trgDisarmWords (s : State) (n code : Nat) : State :=
  ((s.put (pTrg n) TRG_CTL.arm 0).put (pTrg n) TRG_ST.armed 0).put (pTrg n) TRG_ST.code code

/-- An entry no longer listed among the armed ones. -/
def State.trgUnlisted (s : State) (n : Nat) : State :=
  { s with prism := { s.prism with
      armed := s.prism.armed.filter (fun k => k != n), armedAt := s.prism.armedAt.filter (fun k => k.1 != n) } }

theorem State.get_trgUnlisted (s : State) (n p : Nat) (f : Fld) : (s.trgUnlisted n).get p f = s.get p f := State.get_of_regs rfl p f

theorem State.trgDisarm_eq (s : State) (n code : Nat) : s.trgDisarm n code = (s.trgDisarmWords n code).trgUnlisted n := by
  simp only [State.trgDisarm, State.trgDisarmWords, State.trgUnlisted]

theorem PrismRegs.trgDisarm {as : List Nat} {s t : State} (h : PrismRegs as s t) {n code : Nat} (h2 : pTrg n + 2 ∈ as)
    (h3 : pTrg n + 3 ∈ as) : PrismRegs as s (t.trgDisarm n code) := by
  rw [State.trgDisarm_eq]
  exact (((h.put h2).put h3).put h3).setPrism

theorem State.trgDisarmWords_prism (s : State) (n code : Nat) : (s.trgDisarmWords n code).prism = s.prism := by
  have hregs : RegsOnly [pTrg n + 2, pTrg n + 3] s (s.trgDisarmWords n code) :=
    (((RegsOnly.refl s _).put _ (by simp)).put _ (by simp)).put _ (by simp)
  exact hregs.prism

theorem State.trgDisarm_get (s : State) (n : Nat) {code : Nat} (h : code < 8) :
    (s.trgDisarm n code).get (pTrg n) TRG_CTL.arm = 0 ∧ (s.trgDisarm n code).get (pTrg n) TRG_ST.armed = 0 ∧
      (s.trgDisarm n code).get (pTrg n) TRG_ST.code = code := by
  rw [State.trgDisarm_eq, State.get_trgUnlisted, State.get_trgUnlisted, State.get_trgUnlisted, State.trgDisarmWords]
  refine ⟨?_, ?_, State.get_put_of_lt _ _ _ (by decide) (by decide) h⟩
  · simp (disch := simp) [State.get_put_word, State.get_put_same]
  · simp (disch := simp) [State.get_put_field, State.get_put_same]

/-- A disarm leaves the walks as they run and wait. -/
theorem State.trgDisarm_walks (s : State) (n code : Nat) : (s.trgDisarm n code).prism.walk = s.prism.walk ∧
    (s.trgDisarm n code).prism.waiting = s.prism.waiting ∧ (s.trgDisarm n code).prism.walkAt = s.prism.walkAt := by
  rw [State.trgDisarm_eq, State.trgUnlisted, State.trgDisarmWords_prism]
  exact ⟨rfl, rfl, rfl⟩

theorem State.trgDisarm_armed (s : State) (n code : Nat) : n ∉ (s.trgDisarm n code).prism.armed := by
  simp [State.trgDisarm_eq, State.trgUnlisted]

end Sys2Proof.Machine
end

section
/-! PROOF. The trigger table: arming and cancelling an entry, the walks, and the reset of the Prism. -/

namespace Sys2Proof.Machine

/-! The words that arm and cancel (R98, R99). -/

theorem fldGet_or (v w : Nat) (f : Fld) : fldGet (v ||| w) f = fldGet v f ||| fldGet w f := by
  simp only [fldGet, ← Nat.shiftRight_eq_div_pow, Nat.shiftRight_or_distrib, Nat.or_mod_two_pow]

theorem fldGet_and (v w : Nat) (f : Fld) : fldGet (v &&& w) f = fldGet v f &&& fldGet w f := by
  simp only [fldGet, ← Nat.shiftRight_eq_div_pow, Nat.shiftRight_and_distrib, Nat.and_mod_two_pow]

theorem fldGet_arm_of_or (v : Word) : fldGet (v ||| 0x800000000).toNat TRG_CTL.arm = 1 := by
  have hv : fldGet v.toNat TRG_CTL.arm < 2 := fldGet_lt v.toNat TRG_CTL.arm
  have hw : fldGet (0x800000000 : Word).toNat TRG_CTL.arm = 1 := by decide
  rw [BitVec.toNat_or, fldGet_or, hw]
  interval_cases fldGet v.toNat TRG_CTL.arm <;> rfl

theorem fldGet_tb_of_or (v : Word) : fldGet (v ||| 0x800000000).toNat TRG_CTL.tb = fldGet v.toNat TRG_CTL.tb := by
  have hw : fldGet (0x800000000 : Word).toNat TRG_CTL.tb = 0 := by decide
  rw [BitVec.toNat_or, fldGet_or, hw, Nat.or_zero]

theorem fldGet_arm_of_and (v : Word) : fldGet (v &&& 0x7FFFFFFFF).toNat TRG_CTL.arm = 0 := by
  have hw : fldGet (0x7FFFFFFFF : Word).toNat TRG_CTL.arm = 0 := by decide
  rw [BitVec.toNat_and, fldGet_and, hw, Nat.and_zero]

/-! Writes of TRG_CTL (R98, R99, R111). -/

section
variable {s : State} {n : Nat} (hn : n < 1024)
include hn

/-- While a walk runs or waits, a write of the table waits. -/
theorem State.trgWrite_walking (hw : s.walking = true) (off : Nat) (w : Word) :
    s.trgWrite n off w = { s with prism := { s.prism with held := s.prism.held ++ [(n, off, w)] } } := by
  rw [State.trgWrite, if_neg (Nat.not_le.mpr hn), if_pos hw]

theorem State.trgWrite_landing (hw : s.walking = false) (off : Nat) (w : Word) : s.trgWrite n off w = s.trgWriteNow n off w := by
  rw [State.trgWrite, if_neg (Nat.not_le.mpr hn), if_neg (by simp [hw])]

omit hn in
theorem State.trgWriteNow_ctl (w : Word) : s.trgWriteNow n 2 w =
    if fldGet w.toNat TRG_CTL.arm = 0 then s.trgCancelNow n w.toNat
    else if s.get (pTrg n) TRG_CTL.arm = 1 then s else s.trgArmNow n w.toNat := by
  simp only [State.trgWriteNow, if_true]

theorem State.trgWrite_arm (hw : s.walking = false) (v : Word) : s.trgWrite n 2 (v ||| 0x800000000) =
    if s.get (pTrg n) TRG_CTL.arm = 1 then s else s.trgArmNow n (v ||| 0x800000000).toNat := by
  rw [State.trgWrite_landing hn hw, State.trgWriteNow_ctl, if_neg (by rw [fldGet_arm_of_or]; decide)]

theorem State.trgWrite_cancel (hw : s.walking = false) (v : Word) :
    s.trgWrite n 2 (v &&& 0x7FFFFFFFF) = s.trgCancelNow n (v &&& 0x7FFFFFFFF).toNat := by
  rw [State.trgWrite_landing hn hw, State.trgWriteNow_ctl, if_pos (fldGet_arm_of_and v)]

end

/-! An accepted arm (R98). -/

theorem mem_insertNat {k n : Nat} {l : List Nat} : k ∈ insertNat n l ↔ k = n ∨ k ∈ l := by
  induction l with
  | nil => simp [insertNat]
  | cons m r ih =>
    rw [insertNat]
    split
    · simp
    · split
      · rename_i hm
        simp [hm]
      · simp only [List.mem_cons, ih]
        tauto

/-- The words of an entry that an arm with control word v accepts. -/
def State.trgArmWords (s : State) (n v : Nat) : State :=
  ((((s.setReg (pTrg n + 2) (v % 2 ^ 36)).put (pTrg n) TRG_ST.armed 1).put (pTrg n) TRG_ST.code 1).put
    (pTrg n) TRG_ST.gen (s.generation (fldGet v TRG_CTL.tb))).put (pTrg n) TRG_ST.fires 0

/-- An entry listed among the armed ones, with the edge of its arm. -/
def State.trgListed (s : State) (n : Nat) : State :=
  { s with prism := { s.prism with armed := insertNat n s.prism.armed, armedAt := (n, s.now) :: s.prism.armedAt } }

theorem State.get_trgListed (s : State) (n p : Nat) (f : Fld) : (s.trgListed n).get p f = s.get p f := State.get_of_regs rfl p f

theorem State.reg_trgListed (s : State) (n a : Nat) : (s.trgListed n).reg a = s.reg a := State.reg_of_regs rfl a

/-- The state after an accepted arm. -/
def State.trgArmed (s : State) (n v : Nat) : State := (s.trgArmWords n v).trgListed n

theorem State.trgArmNow_accepted {s : State} {n v : Nat} (h : s.armReason n v = 0) :
    s.trgArmNow n v = s.trgArmed n v := by
  simp only [State.trgArmNow, h, if_true, State.trgArmed, State.trgArmWords, State.trgListed]

theorem State.trgArmWords_regs (s : State) (n v : Nat) : RegsOnly [pTrg n + 2, pTrg n + 3] s (s.trgArmWords n v) :=
  (((((RegsOnly.refl s _).setReg_mem _ (by simp)).put _ (by simp)).put _ (by simp)).put _ (by simp)).put _ (by simp)

theorem State.trgArmed_regs (s : State) (n v : Nat) : PrismRegs [pTrg n + 2, pTrg n + 3] s (s.trgArmed n v) :=
  (s.trgArmWords_regs n v).prismRegs.setPrism

theorem State.trgArmed_get (s : State) (n v : Nat) :
    (s.trgArmed n v).get (pTrg n) TRG_ST.armed = 1 ∧ (s.trgArmed n v).get (pTrg n) TRG_ST.code = 1 ∧
      (s.trgArmed n v).get (pTrg n) TRG_ST.fires = 0 ∧
      (s.trgArmed n v).get (pTrg n) TRG_ST.gen = s.generation (fldGet v TRG_CTL.tb) % 256 := by
  simp only [State.trgArmed, State.get_trgListed, State.trgArmWords]
  simp (disch := simp) only [State.get_put_field, State.get_put_same]
  exact ⟨rfl, rfl, rfl, rfl⟩

theorem State.trgArmed_ctl (s : State) (n : Nat) (w : Word) : (s.trgArmed n w.toNat).reg (pTrg n + 2) = w.toNat := by
  rw [State.trgArmed, State.reg_trgListed, State.trgArmWords]
  simp (disch := simp) only [State.reg_put_ne, State.reg_setReg_same]
  rw [Nat.mod_mod, Nat.mod_eq_of_lt w.isLt]

theorem State.mem_trgArmed (s : State) (n v k : Nat) : k ∈ (s.trgArmed n v).prism.armed ↔ k = n ∨ k ∈ s.prism.armed := by
  rw [State.trgArmed, State.trgListed, mem_insertNat, (s.trgArmWords_regs n v).prism]

/-! A refused arm (R98, R115). -/

/-- The words that an arm refused for a reason leaves. -/
def State.trgRefused (s : State) (n v r : Nat) : State :=
  ((((s.setReg (pTrg n + 2) (v % 2 ^ 36)).put (pTrg n) TRG_CTL.arm 0).put (pTrg n) TRG_ST.code 6).put pPrism0
    PRISM_ARM_LAST.reason r).put pPrism0 PRISM_ARM_LAST.entry n

theorem State.trgArmNow_refused {s : State} {n v : Nat} (h : s.armReason n v ≠ 0) :
    s.trgArmNow n v = (s.trgRefused n v (s.armReason n v)).ev pPrism0 2 := by
  simp only [State.trgArmNow]
  rw [if_neg h, State.trgRefused]

theorem State.trgRefused_prism (s : State) (n v r : Nat) : (s.trgRefused n v r).prism = s.prism := by
  have hregs : RegsOnly [pTrg n + 2, pTrg n + 3, pPrism0 + 0x15] s (s.trgRefused n v r) :=
    (((((RegsOnly.refl s _).setReg_mem _ (by simp)).put _ (by simp)).put _ (by simp)).put _ (by simp)).put _ (by simp)
  exact hregs.prism

theorem State.trgRefused_get (s : State) {n : Nat} (hn : n < 1024) (v r : Nat) :
    (s.trgRefused n v r).get (pTrg n) TRG_CTL.arm = 0 ∧ (s.trgRefused n v r).get (pTrg n) TRG_ST.code = 6 ∧
      (s.trgRefused n v r).get pPrism0 PRISM_ARM_LAST.reason = r % 16 ∧ (s.trgRefused n v r).get pPrism0 PRISM_ARM_LAST.entry = n := by
  have hpage : ∀ {f g : Fld} {u : State} {x : Nat}, g.off < 0x100 → (u.put pPrism0 g x).get (pTrg n) f = u.get (pTrg n) f :=
    fun hg => State.get_put_word _ _ _ _ _ _ (pTrg_add_ne_pPrism0 (by omega))
  have hentry : n % 2 ^ (9 + 1 - 0) = n := Nat.mod_eq_of_lt hn
  unfold State.trgRefused
  simp (disch := simp) only [hpage, State.get_put_field, State.get_put_same, hentry]
  exact ⟨rfl, rfl, rfl, trivial⟩

/-! A cancel (R99). -/

/-- The state after a cancel of an armed entry. -/
def State.trgCancelled (s : State) (n v : Nat) : State :=
  ((s.trgDisarm n 4).setReg (pTrg n + 2) (v % 2 ^ 36)).put (pTrg n) TRG_CTL.arm 0

theorem State.trgCancelNow_armed {s : State} {n : Nat} (h : s.get (pTrg n) TRG_CTL.arm = 1) (v : Nat) :
    s.trgCancelNow n v = s.trgCancelled n v := by
  simp only [State.trgCancelNow, State.trgCancelled, h, if_true]

theorem State.trgCancelled_regs (s : State) (n v : Nat) : PrismRegs [pTrg n + 2, pTrg n + 3] s (s.trgCancelled n v) :=
  (((PrismRegs.refl _ s).trgDisarm (by simp) (by simp)).setReg (by simp)).put (by simp)

theorem State.trgCancelled_armed (s : State) (n v : Nat) : n ∉ (s.trgCancelled n v).prism.armed := by
  rw [State.trgCancelled, State.put_prism, State.setReg_prism]
  exact s.trgDisarm_armed n 4

theorem State.trgCancelled_get (s : State) (n v : Nat) :
    (s.trgCancelled n v).get (pTrg n) TRG_CTL.arm = 0 ∧ (s.trgCancelled n v).get (pTrg n) TRG_ST.armed = 0 ∧
      (s.trgCancelled n v).get (pTrg n) TRG_ST.code = 4 := by
  obtain ⟨_, harmed, hcode⟩ := s.trgDisarm_get n (code := 4) (by decide)
  unfold State.trgCancelled
  simp (disch := simp) only [State.get_put_same, State.get_put_word, State.get_setReg_ne, harmed, hcode]
  exact ⟨rfl, trivial, trivial⟩

/-! The words of TRG_TH and TRG_TL held for a core (R97). -/

theorem doTrgThRead_core {s : State} {c n : Nat} (hn : n < 1024) (hc : c < 64) : doTrgThRead c n s =
    { s with rdata := s.regW (pTrg n) }.holdSet c 0 (pTrg n) [s.regW (pTrg n + 1)] := by
  simp only [doTrgThRead]
  rw [if_neg (Nat.not_le.mpr hn), if_pos hc]

theorem State.held?_holdSet_same (s : State) (c k a : Nat) (l : List Word) : (s.holdSet c k a l).held? c k = some (a, l) := by
  rw [State.held?, State.holdSet, Tab.get_set_same]

/-! Walks (R78, R110, R111). -/

theorem gridFrom_spec (t : Nat) {P : Nat} (lo : Nat) (h : 0 < P) :
    gridFrom t P lo % P = t % P ∧ lo ≤ gridFrom t P lo ∧ gridFrom t P lo < lo + P := by
  have hlt := Nat.mod_lt (t + P - lo % P) h
  unfold gridFrom
  refine ⟨?_, by omega, by omega⟩
  have hlo : lo + (t + P - lo % P) = t + P * (lo / P + 1) := by
    have hm := Nat.mod_lt lo h
    have hd := Nat.div_add_mod lo P
    rw [Nat.mul_add]
    omega
  rw [Nat.add_mod_mod, hlo, Nat.add_mul_mod_self_left]

theorem State.walkVisit_other {s : State} {b n : Nat} (h : s.get (pTrg n) TRG_CTL.arm ≠ 1 ∨ s.get (pTrg n) TRG_CTL.tb ≠ b) (v : Nat) :
    s.walkVisit b v n = s :=
  if_neg fun ⟨ha, hb⟩ => h.elim (fun h => h ha) (fun h => h hb)

theorem State.walkVisit_oneShot {s : State} {b n : Nat} (ha : s.get (pTrg n) TRG_CTL.arm = 1) (hb : s.get (pTrg n) TRG_CTL.tb = b)
    (hp : s.get (pTrg n) TRG_CTL.per = 0) (v : Nat) : s.walkVisit b v n = s.trgDisarm n 5 := by
  simp only [State.walkVisit]
  rw [if_pos ⟨ha, hb⟩, if_pos (.inl hp)]

/-- A visit of an entry leaves the walks as they run and wait. -/
theorem State.walkVisit_walks (s : State) (b v n : Nat) : (s.walkVisit b v n).prism.walk = s.prism.walk ∧
    (s.walkVisit b v n).prism.waiting = s.prism.waiting ∧ (s.walkVisit b v n).prism.walkAt = s.prism.walkAt := by
  simp only [State.walkVisit]
  split
  · split
    · exact s.trgDisarm_walks n 5
    · rw [State.setTrgTime, State.put_prism, State.put_prism, State.put_prism]
      exact ⟨rfl, rfl, rfl⟩
  · exact ⟨rfl, rfl, rfl⟩

theorem State.walkEdge_walks (s : State) (i : Nat) : (s.walkEdge i).prism.walk = s.prism.walk ∧
    (s.walkEdge i).prism.waiting = s.prism.waiting ∧ (s.walkEdge i).prism.walkAt = s.prism.walkAt := by
  unfold State.walkEdge
  split
  · exact ⟨rfl, rfl, rfl⟩
  · refine overAll_induct (Q := fun t => t.prism.walk = s.prism.walk ∧ t.prism.waiting = s.prism.waiting ∧
      t.prism.walkAt = s.prism.walkAt) ⟨rfl, rfl, rfl⟩ fun n t ht => ?_
    obtain ⟨hw, hq, ha⟩ := t.walkVisit_walks _ _ n
    rwa [hw, hq, ha]

theorem State.walkBegin_walks (s : State) (b v : Nat) : (s.walkBegin b v).prism.walk = some (b, v) ∧
    (s.walkBegin b v).prism.waiting = s.prism.waiting ∧ (s.walkBegin b v).prism.walkAt = s.now :=
  State.walkEdge_walks _ 0

theorem execGenerationWalkStart_waiting {s : State} {w : Nat × Nat} {r : List (Nat × Nat)} (hw : s.prism.walk = none)
    (hr : s.prism.waiting = w :: r) :
    execGenerationWalkStart s = .next ({ s with prism := { s.prism with waiting := r } }.walkBegin w.1 w.2) := by
  simp only [execGenerationWalkStart, hw, hr]

theorem execGenerationWalkEnd_none {s : State} (h : s.prism.walk = none) : execGenerationWalkEnd s = .next s := by
  simp only [execGenerationWalkEnd, h]

theorem execGenerationWalkEnd_running {s : State} (h : s.prism.walk ≠ none) :
    execGenerationWalkEnd s = .next ((s.walkOver.ev pPrism0 3).releaseTrg) := by
  obtain ⟨w, hw⟩ := Option.ne_none_iff_exists'.mp h
  simp only [execGenerationWalkEnd, hw]

/-! The reset of the Prism (R102). -/

/-- A reset of words leaves the words outside its range. -/
theorem State.regW_resetWords_outside (s : State) {lo hi a : Nat} (keep : Nat → Bool) (h : a < lo ∨ hi ≤ a) :
    (s.resetWords lo hi keep).regW a = s.regW a := by
  unfold State.resetWords
  generalize hl : (s.regs.map fun e => e.1).filter (fun a => decide (lo ≤ a) && decide (a < hi) && !keep a) = l
  have hmem : a ∉ l := by
    subst hl
    simp only [List.mem_filter, Bool.and_eq_true, decide_eq_true_eq]
    omega
  clear hl
  induction l generalizing s with
  | nil => rfl
  | cons b r ih =>
    simp only [List.mem_cons, not_or] at hmem
    rw [overAll, ih _ hmem.2]
    exact s.regW_setReg_ne _ hmem.1

/-- The reset of a page leaves the words outside its block words, but for PAGE_STAT and the two words of its events. -/
theorem State.regW_resetPage_outside (s : State) {p a : Nat} (keep : Nat → Bool) (blk : Nat) (h : a < p + 0x10 ∨ p + 0x100 ≤ a)
    (hne : a ∉ [p + 2, p + 3, p + 5]) : (s.resetPage p keep blk).regW a = s.regW a := by
  simp only [List.mem_cons, List.not_mem_nil, or_false, not_or] at hne
  obtain ⟨h2, h3, h5⟩ := hne
  rw [State.resetPage, State.regW_put_ne _ _ _ _ h5, State.regW_put_ne _ _ _ _ h3, State.regW_setReg_ne _ _ h2,
    State.regW_resetWords_outside _ _ h]

/-- The reset of a page clears its events. -/
theorem State.get_resetPage_events (s : State) (p : Nat) (keep : Nat → Bool) (blk : Nat) :
    (s.resetPage p keep blk).get p PAGE_EV.ev = 0 ∧ (s.resetPage p keep blk).get p PAGE_EVPEND.evpend = 0 := by
  unfold State.resetPage
  simp (disch := simp) only [State.get_put_same, State.get_put_word]
  decide

theorem State.resetWords_regs (s : State) (lo hi : Nat) (keep : Nat → Bool) :
    s.resetWords lo hi keep = { s with regs := (s.resetWords lo hi keep).regs } :=
  overAll_induct (Q := fun t => t = { s with regs := t.regs }) rfl fun b t ht =>
    congrArg (fun u : State => { u with regs := (t.resetOne b).regs }) ht

/-- The table with its words back at reset. -/
def State.trgWordsReset (s : State) : State := s.resetWords (pTrg 0) (pTrg 1024) fun _ => false

/-- The table and the three pages with their words back at reset. -/
def State.prismWordsReset (s : State) : State :=
  ((s.trgWordsReset.resetPage pPrism0 (fun _ => false) 0).resetPage pPrism1 (fun _ => false) 0).resetPage pPrism2 (fun _ => false) 0

/-- The Prism back at reset, but for the launched actions that are no pin edges, before the held table writes land. -/
def State.prismReset (s : State) : State :=
  { s.prismWordsReset with
    prism := { acts := s.prism.acts.filter (fun x => x.act != 5) }
    holds := s.prismWordsReset.holds.filter (fun e => e.1 % 8 != 0)
    srstBusy := if pPrism0 ∈ s.prismWordsReset.srstBusy then s.prismWordsReset.srstBusy else pPrism0 :: s.prismWordsReset.srstBusy }

theorem doPrismSrst_eq (s : State) : doPrismSrst s = replayTrg s.prismReset s.prism.held := rfl

theorem State.prismReset_busy (s : State) : pPrism0 ∈ s.prismReset.srstBusy := by
  simp only [State.prismReset]
  split
  · assumption
  · exact List.mem_cons_self

theorem State.regW_prismReset (s : State) (a : Nat) : s.prismReset.regW a = s.prismWordsReset.regW a := State.regW_of_regs rfl

theorem State.prismReset_mem (s : State) : s.prismReset.mem = s.mem := by
  have hm : s.prismReset.mem = s.trgWordsReset.mem := by
    simp only [State.prismReset, State.prismWordsReset, State.resetPage_mem]
  rw [hm, State.trgWordsReset, State.resetWords_regs]

theorem State.prismReset_events (s : State) : ∀ p ∈ [pPrism0, pPrism1, pPrism2],
    s.prismReset.get p PAGE_EV.ev = 0 ∧ s.prismReset.get p PAGE_EVPEND.evpend = 0 := by
  have hw : ∀ p f, s.prismReset.get p f = s.prismWordsReset.get p f := State.get_of_regs rfl
  have hkeep : ∀ {u : State} {p q : Nat} {f : Fld}, p + f.off < q ∨ q + 0x100 ≤ p + f.off →
      (u.resetPage q (fun _ => false) 0).get p f = u.get p f := fun h =>
    congrArg (fun w : Word => fldGet w.toNat _) (State.regW_resetPage_outside _ _ _ (by omega) (by simp; omega))
  simp only [List.mem_cons, List.not_mem_nil, or_false, forall_eq_or_imp, forall_eq, hw, State.prismWordsReset]
  refine ⟨?_, ?_, State.get_resetPage_events _ _ _ _⟩
  · simp (disch := decide) only [hkeep]
    exact State.get_resetPage_events _ _ _ _
  · simp (disch := decide) only [hkeep]
    exact State.get_resetPage_events _ _ _ _

theorem State.prismReset_table (s : State) {n k : Nat} (hn : n < 1024) (hk : k < 4) :
    s.prismReset.regW (pTrg n + k) = resetWord (pTrg n + k) := by
  have hkeep : ∀ {u : State} {q : Nat}, q + 0x100 ≤ 0xF80038000 →
      (u.resetPage q (fun _ => false) 0).regW (pTrg n + k) = u.regW (pTrg n + k) := fun h =>
    State.regW_resetPage_outside _ _ _ (.inr (by unfold pTrg; omega)) (by simp; unfold pTrg; omega)
  rw [s.regW_prismReset, State.prismWordsReset, hkeep (by decide), hkeep (by decide), hkeep (by decide), State.trgWordsReset,
    s.regW_resetWords _ _ _ (lockFree_pTrg hn hk), if_pos ⟨by unfold pTrg; omega, by unfold pTrg; omega, rfl⟩]

/-- The fault counter's configuration stays. -/
theorem State.prismReset_fcCfg (s : State) : s.prismReset.reg (pPrism0 + 8) = s.reg (pPrism0 + 8) := by
  have hkeep : ∀ {u : State} {q : Nat}, pPrism0 + 8 ∉ [q + 2, q + 3, q + 5] → pPrism0 ≤ q →
      (u.resetPage q (fun _ => false) 0).regW (pPrism0 + 8) = u.regW (pPrism0 + 8) := fun hne h =>
    State.regW_resetPage_outside _ _ _ (.inl (by omega)) hne
  refine congrArg BitVec.toNat ?_
  rw [s.regW_prismReset, State.prismWordsReset, hkeep (by decide) (by decide), hkeep (by decide) (by decide),
    hkeep (by decide) (by decide), State.trgWordsReset, State.regW_resetWords_outside _ _ (.inl (by decide))]

end Sys2Proof.Machine

namespace Sys2Proof

open Machine

/-- Settles O23, a lemma for each write of an entry, each part of a walk, and the reset. -/
theorem triggersAndWalks : Obligations.TriggersAndWalks := by
  refine ⟨?waits, ?again, ?arm, ?refused, ?cancel, ?thRead, fun s h => execGenerationWalkEnd_none h,
    fun s h => ⟨execGenerationWalkEnd_running h, rfl⟩, ?start, ?oneShot, fun s b v n h => State.walkVisit_other h v,
    fun t P lo h => gridFrom_spec t lo h, ?srst⟩
  case waits =>
    exact fun s n v ht hn hw => ⟨State.next_writeWord ht (State.trgWrite_walking hn hw _ _),
      State.next_writeWord ht (State.trgWrite_walking hn hw _ _)⟩
  case again => exact fun s n v ht hn hw ha => State.next_writeWord ht ((State.trgWrite_arm hn hw v).trans (if_pos ha))
  case arm =>
    intro s n v ht hn hw ha hr
    obtain ⟨harmed, hcode, hfires, hgen⟩ := s.trgArmed_get n (v ||| 0x800000000).toNat
    rw [fldGet_tb_of_or] at hgen
    have hmem := s.mem_trgArmed n (v ||| 0x800000000).toNat
    have hframe := s.trgArmed_regs n (v ||| 0x800000000).toNat
    exact ⟨_, State.next_writeWord ht ((State.trgWrite_arm hn hw v).trans ((if_neg ha).trans (State.trgArmNow_accepted hr))),
      s.trgArmed_ctl n _, harmed, hcode, hfires, hgen, (hmem n).mpr (.inl rfl), fun k hk => (hmem k).trans (or_iff_right hk),
      fun a => hframe.regW, hframe.frame⟩
  case refused =>
    intro s n v ht hn hw ha hr
    obtain ⟨harm, hcode, hreason, hentry⟩ := s.trgRefused_get hn (v ||| 0x800000000).toNat (s.armReason n (v ||| 0x800000000).toNat)
    exact ⟨_, State.next_writeWord ht ((State.trgWrite_arm hn hw v).trans ((if_neg ha).trans (State.trgArmNow_refused hr))),
      harm, hcode, hreason, hentry, s.trgRefused_prism n _ _⟩
  case cancel =>
    intro s n v ht hn hw ha
    obtain ⟨harm, harmed, hcode⟩ := s.trgCancelled_get n (v &&& 0x7FFFFFFFF).toNat
    have hframe := s.trgCancelled_regs n (v &&& 0x7FFFFFFFF).toNat
    exact ⟨_, State.next_writeWord ht ((State.trgWrite_cancel hn hw v).trans (State.trgCancelNow_armed ha _)), harm, harmed, hcode,
      s.trgCancelled_armed n _, fun a => hframe.regW, hframe.frame⟩
  case thRead =>
    exact fun s c n ht hn hc => ⟨_, congrArg Host.Outcome.next ((State.readWord_of_takes ht _).trans (doTrgThRead_core hn hc)), rfl,
      State.held?_holdSet_same _ _ _ _ _, rfl⟩
  case start =>
    intro s w r hw hr
    exact ⟨_, execGenerationWalkStart_waiting hw hr, State.walkBegin_walks _ _ _⟩
  case oneShot =>
    intro s b v n ha hb hp
    obtain ⟨harm, _, hcode⟩ := s.trgDisarm_get n (code := 5) (by decide)
    rw [State.walkVisit_oneShot ha hb hp]
    exact ⟨harm, hcode, s.trgDisarm_armed n 5⟩
  case srst =>
    intro s
    exact ⟨s.prismReset, congrArg Host.Outcome.next (doPrismSrst_eq s), rfl, s.prismReset_busy, s.prismReset_events,
      fun n hn k hk => s.prismReset_table hn hk, s.prismReset_fcCfg, s.prismReset_mem⟩

end Sys2Proof
end

section
/-! PROOF. Fires of triggers: which fire, what a fire leaves, past triggers, the actions, and the period words. -/

namespace Sys2Proof.Machine

/-! Which entries fire (R100, R102 to R104). -/

theorem State.isDue_of_disabled {s : State} (h : s.flag pPrism0 PAGE_CTL.en = false) (n : Nat) : s.isDue n = false := by
  simp [State.isDue, h]

section
variable {s : State} {n : Nat}

theorem execTrgFire_waits (h : s.isDue n = false ∨ 16 ≤ s.prism.firedNow.length) : execTrgFire n s = .next s :=
  congrArg Host.Outcome.next (if_neg fun ⟨_, hd, hl, _⟩ => h.elim (by simp [hd]) (Nat.not_le.mpr hl))

theorem execTrgPast_disabled (h : s.flag pPrism0 PAGE_CTL.en = false) : execTrgPast n s = .next s :=
  congrArg Host.Outcome.next (if_pos (.inr (.inl h)))

section
variable (hn : n < 1024) (hd : s.isDue n = true) (hl : s.prism.firedNow.length < 16)
  (hb : (s.prism.armed.any fun k => s.isDue k && s.firesBefore k n) = false)
include hn hd hl hb

theorem execTrgFire_fires : execTrgFire n s = .next (s.noteDue.trgFireNow n (s.isPast n)) :=
  congrArg Host.Outcome.next (if_pos ⟨hn, hd, hl, hb⟩)

end

section
variable (hn : n < 1024) (hen : s.flag pPrism0 PAGE_CTL.en = true) (ha : s.flag (pTrg n) TRG_CTL.arm = true)
  (hh : s.trgHeld (s.get (pTrg n) TRG_CTL.tb) = false) (hp : s.isPast n = true)
include hn hen ha hh hp

/-- An entry that is past with pol 1 and is no periodic one expires. -/
theorem execTrgPast_expires (hpol : s.flag (pTrg n) TRG_CTL.pol = true) (hper : s.flag (pTrg n) TRG_CTL.per = false) :
    execTrgPast n s = .next ((s.trgDisarm n 3).ev pPrism0 4) := by
  simp only [execTrgPast]
  rw [if_neg (by simp [hen, ha, hh, hp, hn]), if_pos hpol, if_neg (by simp [hper])]

/-- An entry that is past with pol 0 fires late. -/
theorem execTrgPast_fires (hpol : s.flag (pTrg n) TRG_CTL.pol = false) (hd : s.isDue n = true) (hl : s.prism.firedNow.length < 16)
    (hb : (s.prism.armed.any fun k => s.isDue k && s.firesBefore k n) = false) :
    execTrgPast n s = .next (s.noteDue.trgFireNow n true) := by
  simp only [execTrgPast]
  rw [if_neg (by simp [hen, ha, hh, hp, hn]), if_neg (by simp [hpol]), if_pos ⟨hd, hl, hb⟩]

end

end

/-! A one-shot that posts on time (R104, R107). -/

/-- An entry noted among those that fired on the present edge. -/
def State.trgFiring (s : State) (n : Nat) : State :=
  { s with prism := { s.prism with firedNow := n :: s.prism.firedNow } }

theorem State.get_trgFiring (s : State) (n p : Nat) (f : Fld) : (s.trgFiring n).get p f = s.get p f := State.get_of_regs rfl p f

/-- The words that a one-shot on time leaves: disarmed, code 1, lateness 0, one more fire. -/
def State.trgFired (s : State) (n : Nat) : State :=
  ((((s.trgFiring n).trgDisarm n 1).put (pTrg n) TRG_ST.code 1).put (pTrg n) TRG_ST.lat 0).incMod (pTrg n) TRG_ST.fires

theorem State.trgFired_regs (s : State) (n : Nat) : PrismRegs [pTrg n + 2, pTrg n + 3] s (s.trgFired n) := by
  have hfiring : PrismRegs [pTrg n + 2, pTrg n + 3] s (s.trgFiring n) := (PrismRegs.refl _ s).setPrism
  exact (((hfiring.trgDisarm (by simp) (by simp)).put (by simp)).put (by simp)).put (by simp)

theorem State.trgFired_get (s : State) (n : Nat) :
    (s.trgFired n).get (pTrg n) TRG_CTL.arm = 0 ∧ (s.trgFired n).get (pTrg n) TRG_ST.armed = 0 ∧
      (s.trgFired n).get (pTrg n) TRG_ST.code = 1 ∧ (s.trgFired n).get (pTrg n) TRG_ST.lat = 0 ∧
      (s.trgFired n).get (pTrg n) TRG_ST.fires = (s.get (pTrg n) TRG_ST.fires + 1) % 256 := by
  simp (disch := simp) only [State.trgFired, State.incMod, State.trgDisarm_eq, State.trgDisarmWords, State.get_put_field,
    State.get_put_same, State.get_put_word, State.get_trgUnlisted, State.get_trgFiring]
  exact ⟨rfl, rfl, rfl, rfl, rfl⟩

/-- The post that an entry's action 1 offers, one edge after its fire. -/
def trgPost (n arg now : Nat) : Post := { cls := 0, src := n, task := arg % 512, tag := 1, at_ := now + 1 }

theorem State.trgAction_posts (s : State) (n arg b t lat : Nat) : s.trgAction n 1 arg b t lat = s.offerPost (trgPost n arg s.now) := by
  rw [State.trgAction, if_pos rfl, trgPost]

/-- A fire that is on time, of an entry without a period and a post of its own. -/
theorem State.trgFireNow_onTime {s : State} {n : Nat} (hper : s.flag (pTrg n) TRG_CTL.per = false)
    (hpost : s.flag (pTrg n) TRG_CTL.apost = false) (hlate : s.trgLate n = 0) : s.trgFireNow n false =
      (s.trgFired n).trgAction n (s.get (pTrg n) TRG_CTL.act) (s.get (pTrg n) TRG_CTL.arg) (s.get (pTrg n) TRG_CTL.tb) (s.trgTime n) 0 := by
  have hsat : satN 255 0 = 0 := rfl
  simp only [State.trgFireNow, hper, hpost, hlate, hsat, Bool.false_and, Bool.false_eq_true, if_false, Nat.lt_irrefl, decide_false,
    Bool.or_self, State.trgFired, State.trgFiring]

/-- A post of an entry crosses no FIFO. -/
theorem State.offerPost_trg (s : State) (n arg : Nat) :
    (s.offerPost (trgPost n arg s.now)).wire = s.wire ++ [trgPost n arg s.now] := by
  simp [State.offerPost, trgPost, Post.fromPclk]

/-! The actions (R107). -/

theorem State.trgAction_launches {s : State} {k : Nat} (h2 : 2 ≤ k) (h4 : k ≤ 4) (n arg b t lat : Nat) :
    s.trgAction n k arg b t lat = s.launchAct { at_ := s.now + 2, act := k, arg := arg, entry := n } := by
  have hr : inRange k 2 3 = true := by simp [inRange]; omega
  rw [State.trgAction, if_neg (by omega), if_pos hr]

section
variable (s : State) {x : PrismAct}

theorem State.doAct_commit (h : x.act = 2) : s.doAct x =
    overAll (s.groupOf pPwm PWM_CFG.cgrp x.arg) s fun ch u => u.setPw ch { u.pw ch with commitReq := true } := by
  simp [State.doAct, h]

theorem State.doAct_window (h : x.act = 3) : s.doAct x = overAll (s.groupOf pPwm PWM_CFG.sgrp x.arg) s fun ch u => u.openWindow ch := by
  simp [State.doAct, h]

theorem State.doAct_latch (h : x.act = 4) : s.doAct x =
    overAll (s.groupOf pFbk FBK_CFG.lgrp x.arg) s fun ch u => (u.fbkLatch ch true).profLatch ch := by
  simp [State.doAct, h]

end

/-- A single launched action takes effect on its edge, and waits before it. -/
theorem State.dueActs_single {s : State} {x : PrismAct} (h : s.prism.acts = [x]) :
    s.dueActs = if x.at_ ≤ s.now then { s with prism := { s.prism with acts := [] } }.doAct x else s := by
  have hs : s = { s with prism := { s.prism with acts := [x] } } := by rw [← h]
  simp only [State.dueActs, h]
  split
  · rename_i hx
    simp [hx]
  · rename_i hx
    simp only [hx, List.filter, decide_false, Bool.not_false, List.foldl_nil]
    exact hs.symm

/-! The captures of action 7 (R116). -/

/-- Register words other than TIME_CT_STAT tell no counter's value. -/
theorem State.t64_of_regsOnly {as : List Nat} {s t : State} (h : RegsOnly as s t) (ha : pTime0 + 0x11 ∉ as) (b : Nat) :
    t.t64 b = s.t64 b := by
  have hvalid : t.flag pTime0 TIME_CT_STAT.valid = s.flag pTime0 TIME_CT_STAT.valid := congrArg (· == 1) (h.get ha)
  have htime : t.time = s.time := by rw [h.2]
  simp only [State.t64, State.cnt, hvalid, htime]

/-- The words of the five counters in a capture set. -/
def State.captureWords (s : State) (a : Nat) : State := overAll (List.range 5) s fun b t => t.snapWords (a + 3 * b) b

/-- Two words of a counter hold its value. -/
def State.Captured (a b : Nat) (s : State) : Prop := s.reg a = t72Hi (s.t64 b) ∧ s.reg (a + 1) = t72Lo (s.t64 b)

section
variable {a : Nat} (ha : pPrism1 ≤ a)
include ha

theorem State.t64_snapWords (s : State) (k b : Nat) : (s.snapWords a k).t64 b = s.t64 b :=
  State.t64_of_regsOnly (s.snapWords_regsOnly a k) (by simp; unfold pPrism1 pTime0 at *; omega) b

theorem State.snapWords_captured (s : State) (b : Nat) : (s.snapWords a b).Captured a b := by
  obtain ⟨hhi, hlo, _⟩ := s.snapWords_reg a b
  exact ⟨by rw [hhi, s.t64_snapWords ha], by rw [hlo, s.t64_snapWords ha]⟩

/-- The words of one counter leave those of another. -/
theorem State.Captured.snapWords_ne {s : State} {b k : Nat} (h : s.Captured (a + 3 * b) b) (hk : k ≠ b) :
    (s.snapWords (a + 3 * k) k).Captured (a + 3 * b) b := by
  have hw := s.snapWords_regsOnly (a + 3 * k) k
  have hreg : ∀ o < 2, (s.snapWords (a + 3 * k) k).reg (a + 3 * b + o) = s.reg (a + 3 * b + o) := fun o ho =>
    congrArg BitVec.toNat (hw.1 _ (by simp; omega))
  have ht := State.t64_snapWords (a := a + 3 * k) (by omega) s k b
  exact ⟨by rw [ht]; exact (hreg 0 (by decide)).trans h.1, by rw [ht]; exact (hreg 1 (by decide)).trans h.2⟩

theorem State.captureWords_captured (s : State) {b : Nat} (hb : b < 5) : (s.captureWords a).Captured (a + 3 * b) b := by
  refine overAll_of_mem (Q := State.Captured (a + 3 * b) b) (fun t => t.snapWords_captured (by omega) b) (fun k t ht => ?_) s
    (List.mem_range.mpr hb)
  by_cases hk : k = b
  · exact hk ▸ t.snapWords_captured (by omega) k
  · exact ht.snapWords_ne ha hk

theorem State.captureWords_t64 (s : State) (b : Nat) : (s.captureWords a).t64 b = s.t64 b :=
  overAll_induct (Q := fun t => t.t64 b = s.t64 b) rfl fun k t ht => (State.t64_snapWords (by omega) t k b).trans ht

end

/-- Action 7: the words of the counters, then the capture's entry and its count. -/
theorem State.trgAction_captures (s : State) (n k b t lat : Nat) : s.trgAction n 7 k b t lat =
    ((s.captureWords (pPrism1 + 0x50 + 16 * k)).put pPrism1 (PRISM_CAPSEQ.entry k) n).incMod pPrism1 (PRISM_CAPSEQ.seq k) := rfl

theorem State.trgAction_captured (s : State) (n : Nat) {k c : Nat} (b t lat : Nat) (hc : c < 5) :
    (s.trgAction n 7 k b t lat).reg (pPrism1 + 0x50 + 16 * k + 3 * c) = t72Hi (s.t64 c) ∧
      (s.trgAction n 7 k b t lat).reg (pPrism1 + 0x50 + 16 * k + 3 * c + 1) = t72Lo (s.t64 c) := by
  have hle : pPrism1 ≤ pPrism1 + 0x50 + 16 * k := by omega
  obtain ⟨hhi, hlo⟩ := State.captureWords_captured hle s hc
  rw [State.captureWords_t64 hle] at hhi hlo
  have hkeep : ∀ o < 15, (s.trgAction n 7 k b t lat).reg (pPrism1 + 0x50 + 16 * k + o) =
      (s.captureWords (pPrism1 + 0x50 + 16 * k)).reg (pPrism1 + 0x50 + 16 * k + o) := fun o ho => by
    rw [State.trgAction_captures, State.incMod, State.reg_put_ne _ _ _ _ _ (by simp; omega),
      State.reg_put_ne _ _ _ _ _ (by simp; omega)]
  exact ⟨(hkeep (3 * c) (by omega)).trans hhi, (hkeep (3 * c + 1) (by omega)).trans hlo⟩

/-! The period words (R106, R116). -/

theorem doPrismPerWrite_taken {k : Nat} {v : Word} (hk : k < 64) (hv : v.toNat = 0 ∨ 6400 ≤ v.toNat) (s : State) :
    doPrismPerWrite k v s = s.put pPrism1 (PRISM_PER.p k) v.toNat := by
  rw [doPrismPerWrite, if_neg (Nat.not_le.mpr hk), if_pos hv]

theorem doPrismPerWrite_invalid {k : Nat} {v : Word} (hk : k < 64) (h0 : 0 < v.toNat) (hv : v.toNat < 6400) (s : State) :
    doPrismPerWrite k v s = s.fc pPrism1 := by
  rw [doPrismPerWrite, if_neg (Nat.not_le.mpr hk), if_neg (by omega)]

end Sys2Proof.Machine

namespace Sys2Proof

open Machine

/-- Settles O24, a lemma for each way of a due and of a past entry, each action, and the period words. -/
theorem triggerFires : Obligations.TriggerFires := by
  refine ⟨fun s n hn hd hl hb => execTrgFire_fires hn hd hl hb, fun s n h => execTrgFire_waits h, ?oneShot,
    fun s n k arg b t lat h2 h4 => State.trgAction_launches h2 h4 n arg b t lat,
    fun s x => ⟨s.doAct_commit, s.doAct_window, s.doAct_latch⟩, fun s x h => State.dueActs_single h,
    fun s n k b t lat _ c hc => s.trgAction_captured n b t lat hc, ?expires,
    fun s n hn hen ha hh hp hpol hd hl hb => execTrgPast_fires hn hen ha hh hp hpol hd hl hb,
    fun s n h => ⟨execTrgPast_disabled h, execTrgFire_waits (.inl (State.isDue_of_disabled h n))⟩, ?period,
    fun s k v ht hk h0 hv => State.next_writeWord ht (doPrismPerWrite_invalid hk h0 hv s)⟩
  case oneShot =>
    intro s n past _ hper hact hpost hpast hlate
    obtain ⟨harm, harmed, hcode, hlat, hfires⟩ := s.trgFired_get n
    have hframe := s.trgFired_regs n
    have hfire : s.trgFireNow n past = (s.trgFired n).offerPost (trgPost n (s.get (pTrg n) TRG_CTL.arg) (s.trgFired n).now) := by
      rw [hpast, State.trgFireNow_onTime hper hpost hlate, hact, State.trgAction_posts]
    have hwired := (s.trgFired n).offerPost_trg n (s.get (pTrg n) TRG_CTL.arg)
    have hregs := (s.trgFired n).offerPost_regs (trgPost n (s.get (pTrg n) TRG_CTL.arg) (s.trgFired n).now)
    generalize s.trgFired n = u at *
    rw [hframe.now, hframe.wire] at hwired
    rw [hframe.now] at hfire hregs
    have hget := State.get_of_regs hregs (pTrg n)
    exact ⟨_, hfire, (hget _).trans harm, (hget _).trans harmed, (hget _).trans hcode, (hget _).trans hlat, (hget _).trans hfires,
      hwired, fun a ha => (State.regW_of_regs hregs).trans (hframe.regW ha)⟩
  case expires =>
    intro s n hn hen ha hh hp hpol hper
    obtain ⟨_, _, hcode⟩ := s.trgDisarm_get n (code := 3) (by decide)
    exact ⟨execTrgPast_expires hn hen ha hh hp hpol hper, hcode, s.trgDisarm_armed n 3⟩
  case period =>
    exact fun s k v ht hk hv => ⟨_, State.next_writeWord ht (doPrismPerWrite_taken hk hv s), s.put_word_field pPrism1 rfl rfl v⟩

end Sys2Proof
end

section
/-! PROOF. The TIO pins: the falls of pulses, captures and their queue, and the configuration words. -/

namespace Sys2Proof.Machine

/-! The records of the pins. -/

@[simp] theorem State.ti_setTi_same (s : State) (pin : Nat) (r : TioSt) : (s.setTi pin r).ti pin = r := by
  simp [State.ti, State.setTi, Tab.rd_wr_same]

theorem State.ti_setTi_ne (s : State) {pin k : Nat} (r : TioSt) (h : k ≠ pin) : (s.setTi pin r).ti k = s.ti k := by
  simp [State.ti, State.setTi, Tab.rd, Tab.wr, Tab.get_set_other _ _ _ h]

theorem State.ti_of_prism {s t : State} (h : t.prism = s.prism) (pin : Nat) : t.ti pin = s.ti pin := by rw [State.ti, State.ti, h]

theorem RegsOnly.rdata {as : List Nat} {s t : State} (h : RegsOnly as s t) : t.rdata = s.rdata := by
  have hframe := congrArg State.rdata h.2
  exact hframe

/-! The fall of a pulse (R113). -/

/-- The pending fall of a pin no longer pending. -/
def State.tioFalling (s : State) (pin : Nat) : State := s.setTi pin { s.ti pin with fall := none }

section
variable {s : State} {pin : Nat}

theorem execTioPulseFall_none (h : (s.ti pin).fall = none) : execTioPulseFall pin s = .next s := by
  have hfall : s.tioFallDue pin (s.t64 0 + 159) = s := by simp only [State.tioFallDue, h]
  rw [execTioPulseFall, hfall, ite_self]

variable {f n : Nat} (hp : pin < 16) (hf : (s.ti pin).fall = some (f, n)) (ht : f ≤ s.t64 0 + 159)
include hp hf ht

theorem execTioPulseFall_due : execTioPulseFall pin s = .next
    (if ((s.tioFalling pin).tioEdge pin false f).2 then ((s.tioFalling pin).tioEdge pin false f).1.prismRefuse n 4 5
      else ((s.tioFalling pin).tioEdge pin false f).1) := by
  rw [execTioPulseFall, if_pos hp]
  simp only [State.tioFallDue, hf]
  rw [if_pos ht]
  rfl

end

section
variable {s : State} {pin t : Nat} (hl : (s.ti pin).level = true)
include hl

/-- A fall that keeps its distance from the last edge lowers the pin. -/
theorem State.tioEdge_falls (h : ∀ o, (s.ti pin).lastOut = some o → o + 320 ≤ t) :
    s.tioEdge pin false t = (s.setTi pin { s.ti pin with level := false, lastOut := some t }, false) := by
  simp only [State.tioEdge, hl]
  split
  · contradiction
  · split
    · rename_i o ho
      rw [if_neg (Nat.not_lt.mpr (h o ho))]
    · rfl

theorem State.tioEdge_close {o : Nat} (ho : (s.ti pin).lastOut = some o) (h : t < o + 320) : s.tioEdge pin false t = (s, true) := by
  simp only [State.tioEdge, hl, ho, h, if_true]
  rfl

end

/-- A pin whose pulse falls at a time. -/
def State.tioFallen (s : State) (pin f : Nat) : State :=
  (s.tioFalling pin).setTi pin { s.ti pin with fall := none, level := false, lastOut := some f }

theorem State.tioFallen_pins (s : State) (pin f : Nat) : ((s.tioFallen pin f).ti pin).level = false ∧
    ((s.tioFallen pin f).ti pin).fall = none ∧ ((s.tioFallen pin f).ti pin).lastOut = some f ∧
    ∀ k, k ≠ pin → (s.tioFallen pin f).ti k = s.ti k := by
  rw [State.tioFallen, State.ti_setTi_same]
  exact ⟨rfl, rfl, rfl, fun k hk => (State.ti_setTi_ne _ _ hk).trans (State.ti_setTi_ne _ _ hk)⟩

section
variable {s : State} {pin f n : Nat} (hp : pin < 16) (hf : (s.ti pin).fall = some (f, n)) (ht : f ≤ s.t64 0 + 159)
  (hl : (s.ti pin).level = true)
include hp hf ht hl

theorem execTioPulseFall_falls (h : ∀ o, (s.ti pin).lastOut = some o → o + 320 ≤ f) :
    execTioPulseFall pin s = .next (s.tioFallen pin f) := by
  have hti : (s.tioFalling pin).ti pin = { s.ti pin with fall := none } := State.ti_setTi_same _ _ _
  have hedge := State.tioEdge_falls (s := s.tioFalling pin) (pin := pin) (t := f) (by rw [hti]; exact hl) (by rw [hti]; exact h)
  rw [hti] at hedge
  rw [execTioPulseFall_due hp hf ht, hedge]
  simp only [Bool.false_eq_true, if_false, State.tioFallen]

theorem execTioPulseFall_refused {o : Nat} (ho : (s.ti pin).lastOut = some o) (h : f < o + 320) :
    execTioPulseFall pin s = .next ((s.tioFalling pin).prismRefuse n 4 5) := by
  have hti : (s.tioFalling pin).ti pin = { s.ti pin with fall := none } := State.ti_setTi_same _ _ _
  have hedge := State.tioEdge_close (s := s.tioFalling pin) (pin := pin) (t := f) (by rw [hti]; exact hl) (by rw [hti]; exact ho) h
  rw [execTioPulseFall_due hp hf ht, hedge]
  simp only [if_true]

end

/-! The head record of a capture queue (R117). -/

theorem State.tioShow_regs (s : State) (pin : Nat) : RegsOnly [pPrism2 + (0x20 + 4 * pin), pPrism2 + (0x21 + 4 * pin),
    pPrism2 + (0x22 + 4 * pin), pPrism2 + (0x23 + 4 * pin)] s (s.tioShow pin) :=
  (((((RegsOnly.refl s _).put _ (by simp)).put _ (by simp)).put _ (by simp)).put _ (by simp)).put _ (by simp)

theorem State.ti_tioShow (s : State) (pin k : Nat) : (s.tioShow pin).ti k = s.ti k := State.ti_of_prism (s.tioShow_regs pin).prism k

theorem State.tioShow_get (s : State) (pin : Nat) :
    (s.tioShow pin).get pPrism2 (PRISM_TIO_CSTAT.level pin) = (s.ti pin).q.length % 16 ∧
      (s.tioShow pin).get pPrism2 (PRISM_TIO_CHI.sec pin) = t72Hi ((s.ti pin).q.headD {}).t64 := by
  have hne : ∀ x y, x ≠ y → pPrism2 + (x + 4 * pin) ≠ pPrism2 + (y + 4 * pin) := fun x y h => by omega
  unfold State.tioShow
  refine ⟨?_, ?_⟩
  · rw [State.get_put_word _ _ _ _ _ _ (hne _ _ (by decide)), State.get_put_word _ _ _ _ _ _ (hne _ _ (by decide)),
      State.get_put_word _ _ _ _ _ _ (hne _ _ (by decide))]
    exact State.get_put_same _ _ _ _ (by simp) (by simp)
  · rw [State.get_put_word _ _ _ _ _ _ (hne _ _ (by decide))]
    exact State.get_put_of_lt _ _ _ (by simp) (by simp) (t72Hi_lt _)

/-! Captures (R114). -/

/-- The record of a capture: the value and status word of the pin's counter, and the direction of the edge. -/
def State.tioStamp (s : State) (pin : Nat) (rising : Bool) (tap : Nat) : StampRec :=
  { t64 := s.t64At (ctrOf (s.get pPrism2 (PRISM_TIO_CFG.ctb pin))) tap
    st := s.stampWord (ctrOf (s.get pPrism2 (PRISM_TIO_CFG.ctb pin))) 0, rise := rising }

/-- A pin whose first capture is queued. -/
def State.tioCaptured (s : State) (pin : Nat) (rising : Bool) (tap : Nat) : State :=
  (s.setTi pin { s.ti pin with q := [s.tioStamp pin rising tap], lastCap := some (s.t64At 0 tap) }).tioShow pin

section
variable {s : State} {pin : Nat} (rising : Bool) (tap : Nat)

theorem execTioCapture_off (h : s.get pPrism2 (PRISM_TIO_CFG.cen pin) = 0) : execTioCapture pin ⟨rising, tap⟩ s = .next s := by
  simp only [execTioCapture]
  rw [if_pos (.inr (.inl h))]

variable (hp : pin < 16) (hen : s.get pPrism2 (PRISM_TIO_CFG.cen pin) ≠ 0) (hedge : s.get pPrism2 (PRISM_TIO_CFG.cedge pin) = 2)
include hp hen hedge

theorem execTioCapture_first (hlast : (s.ti pin).lastCap = none) (hq : (s.ti pin).q = []) :
    execTioCapture pin ⟨rising, tap⟩ s = .next ((s.tioCaptured pin rising tap).ev pPrism2 pin) := by
  simp only [execTioCapture, hedge, hlast, hq, List.length_nil, List.nil_append]
  rw [if_neg (by simp [hp, hen]), if_neg (by decide), State.tioCaptured, State.tioStamp]

theorem execTioCapture_full (hq : 8 ≤ (s.ti pin).q.length) : execTioCapture pin ⟨rising, tap⟩ s =
    .next ((s.inc pPrism2 (PRISM_TIO_CSTAT.ovf pin)).evC pPrism2 (16 + pin)) := by
  simp only [execTioCapture, hedge, hq, decide_true, Bool.or_true, if_true]
  rw [if_neg (by simp [hp, hen])]

omit hp hen hedge in
theorem State.tioCaptured_pin : ((s.tioCaptured pin rising tap).ti pin).q = [s.tioStamp pin rising tap] ∧
    ((s.tioCaptured pin rising tap).ti pin).lastCap = some (s.t64At 0 tap) ∧
    (s.tioCaptured pin rising tap).get pPrism2 (PRISM_TIO_CSTAT.level pin) = 1 ∧
    (s.tioCaptured pin rising tap).get pPrism2 (PRISM_TIO_CHI.sec pin) = t72Hi (s.tioStamp pin rising tap).t64 := by
  obtain ⟨hlevel, hsec⟩ := (s.setTi pin { s.ti pin with
    q := [s.tioStamp pin rising tap], lastCap := some (s.t64At 0 tap) }).tioShow_get pin
  rw [State.ti_setTi_same] at hlevel hsec
  rw [State.tioCaptured, State.ti_tioShow, State.ti_setTi_same]
  exact ⟨rfl, rfl, hlevel, hsec⟩

end

/-- The read of the head record's low word, and the record removed. -/
def State.tioPopped (s : State) (pin : Nat) : State :=
  { s with rdata := s.regW (pPrism2 + 0x23 + 4 * pin) }.setTi pin { s.ti pin with q := (s.ti pin).q.tail }

theorem doTioCloRead_pin {pin : Nat} (hp : pin < 16) (s : State) : doTioCloRead pin s = (s.tioPopped pin).tioShow pin := by
  simp only [doTioCloRead]
  rw [if_neg (Nat.not_le.mpr hp), State.tioPopped]

theorem State.tioPopped_pin (s : State) (pin : Nat) : (s.tioPopped pin).rdata = s.regW (pPrism2 + 0x23 + 4 * pin) ∧
    (s.tioPopped pin).ti pin = { s.ti pin with q := (s.ti pin).q.tail } :=
  ⟨rfl, State.ti_setTi_same _ _ _⟩

/-! The configuration words (R117). -/

/-- A word that PRISM page 2 refuses to take: an edge of 3, a counter above 4, or a pulse below 1 ns. -/
abbrev TioCfgBad (pin w : Nat) : Prop :=
  fldGet w (PRISM_TIO_CFG.cedge pin) = 3 ∨ 4 < fldGet w (PRISM_TIO_CFG.ctb pin) ∨ fldGet w (PRISM_TIO_CFG.pw pin) < 64

theorem wordFields_tioCfg {pin : Nat} (hp : pin < 16) : wordFields (pPrism2 + 0x10 + pin) =
    [PRISM_TIO_CFG.oe pin, PRISM_TIO_CFG.cen pin, PRISM_TIO_CFG.cedge pin, PRISM_TIO_CFG.ctb pin, PRISM_TIO_CFG.idl pin,
      PRISM_TIO_CFG.pw pin] := by
  interval_cases pin <;> rfl

/-- A configuration word with every field but oe taken from a written word. -/
def tioCfgMerge (pin old w : Nat) : Nat :=
  fldPut (fldPut (fldPut (fldPut (fldPut old (PRISM_TIO_CFG.cen pin) (fldGet w (PRISM_TIO_CFG.cen pin)))
    (PRISM_TIO_CFG.cedge pin) (fldGet w (PRISM_TIO_CFG.cedge pin))) (PRISM_TIO_CFG.ctb pin) (fldGet w (PRISM_TIO_CFG.ctb pin)))
    (PRISM_TIO_CFG.idl pin) (fldGet w (PRISM_TIO_CFG.idl pin))) (PRISM_TIO_CFG.pw pin) (fldGet w (PRISM_TIO_CFG.pw pin))

theorem tioCfgMerge_lt (pin w : Nat) {old : Nat} (h : old < 2 ^ 36) : tioCfgMerge pin old w < 2 ^ 36 := by
  unfold tioCfgMerge
  iterate 5 refine fldPut_lt _ _ (by simp) (by simp) ?_
  exact h

theorem fldGet_tioCfgMerge (pin old w : Nat) :
    fldGet (tioCfgMerge pin old w) (PRISM_TIO_CFG.oe pin) = fldGet old (PRISM_TIO_CFG.oe pin) ∧
      fldGet (tioCfgMerge pin old w) (PRISM_TIO_CFG.pw pin) = fldGet w (PRISM_TIO_CFG.pw pin) := by
  have hmod : fldGet w (PRISM_TIO_CFG.pw pin) % 2 ^ (23 + 1 - 0) = fldGet w (PRISM_TIO_CFG.pw pin) :=
    Nat.mod_eq_of_lt (fldGet_lt w (PRISM_TIO_CFG.pw pin))
  unfold tioCfgMerge
  simp (disch := simp) only [fldGet_fldPut_ne, fldGet_fldPut_same, hmod, and_self]

section
variable {s : State} (ini : Nat) {pin : Nat} (hp : pin < 16) (w : Nat)
include hp

/-- Once outward locks are sealed, oe keeps its value, and the write of another value is refused. -/
theorem State.mergeWord_tioCfg_sealed (hl : s.olSealed = true) : s.mergeWord ini (pPrism2 + 0x10 + pin) w =
    (tioCfgMerge pin (s.reg (pPrism2 + 0x10 + pin)) w,
      fldGet w (PRISM_TIO_CFG.oe pin) != fldGet (s.reg (pPrism2 + 0x10 + pin)) (PRISM_TIO_CFG.oe pin)) := by
  simp only [State.mergeWord, wordFields_tioCfg hp, List.foldl, State.mergeField, hl, if_true, Bool.false_or, tioCfgMerge]

theorem State.mergeWord_tioCfg_open (hl : s.olSealed = false) : s.mergeWord ini (pPrism2 + 0x10 + pin) w =
    (tioCfgMerge pin (fldPut (s.reg (pPrism2 + 0x10 + pin)) (PRISM_TIO_CFG.oe pin) (fldGet w (PRISM_TIO_CFG.oe pin))) w, false) := by
  simp only [State.mergeWord, wordFields_tioCfg hp, List.foldl, State.mergeField, hl, Bool.false_eq_true, if_false, tioCfgMerge]

end

theorem pageOf_tioCfg {pin : Nat} (hp : pin < 16) : pageOf (pPrism2 + 0x10 + pin) = pPrism2 := by
  unfold pageOf pPrism2; omega

theorem State.noteRefused_tioCfg {pin : Nat} (hp : pin < 16) (s : State) (r : Bool) :
    s.noteRefused (pPrism2 + 0x10 + pin) r = if r then s.refuse pPrism2 else s := by
  rw [State.noteRefused, pageOf_tioCfg hp]

/-- A plain write of a configuration word reaches the word and the count of refused writes. -/
theorem State.plainWrite_tioCfg_regs (s : State) (ini : Nat) {pin : Nat} (hp : pin < 16) (w : Nat) :
    RegsOnly [pPrism2 + 0x10 + pin, pPrism2 + 7] s (s.plainWrite ini (pPrism2 + 0x10 + pin) w) := by
  have hlock : lockPage pPrism2 = pPrism2 := lockPage_of_hasHeader (by decide)
  have h := RegsOnly.plainWrite s ini (pPrism2 + 0x10 + pin) w
  rwa [pageOf_tioCfg hp, hlock] at h

/-- A plain write leaves in a field of its word what the merged word holds there. -/
theorem State.get_plainWrite_merge (s : State) (ini : Nat) {pin : Nat} (hp : pin < 16) (w : Nat) {f : Fld} {m : Nat × Bool}
    (hm : s.mergeWord ini (pPrism2 + 0x10 + pin) w = m) (hlt : m.1 < 2 ^ 36) (hf : f.off = 0x10 + 1 * pin) :
    (s.plainWrite ini (pPrism2 + 0x10 + pin) w).get pPrism2 f = fldGet m.1 f := by
  have ha : pPrism2 + f.off = pPrism2 + 0x10 + pin := by omega
  have hlock : lockPage (pageOf (pPrism2 + 0x10 + pin)) = pPrism2 := by
    rw [pageOf_tioCfg hp]
    exact lockPage_of_hasHeader (by decide)
  have hcount := (RegsOnly.refl (s.setReg (pPrism2 + 0x10 + pin) m.1) [pPrism2 + 7]).noteRefused (a := pPrism2 + 0x10 + pin) m.2
    (by rw [hlock]; simp)
  rw [State.plainWrite, hm, hcount.get (by rw [ha]; simp; omega), State.get, ha, State.reg_setReg_same, Nat.mod_eq_of_lt hlt]

theorem State.get_tioCfg_oe (s : State) (pin : Nat) :
    s.get pPrism2 (PRISM_TIO_CFG.oe pin) = fldGet (s.reg (pPrism2 + 0x10 + pin)) (PRISM_TIO_CFG.oe pin) := by
  have ha : pPrism2 + (PRISM_TIO_CFG.oe pin).off = pPrism2 + 0x10 + pin := by simp; omega
  rw [State.get, ha]

section
variable (s : State) (ini : Nat) {pin : Nat} (hp : pin < 16) (w : Nat)
include hp

theorem State.plainWrite_tioCfg_sealed (hl : s.olSealed = true) :
    (s.plainWrite ini (pPrism2 + 0x10 + pin) w).get pPrism2 (PRISM_TIO_CFG.oe pin) = s.get pPrism2 (PRISM_TIO_CFG.oe pin) ∧
      (s.plainWrite ini (pPrism2 + 0x10 + pin) w).get pPrism2 (PRISM_TIO_CFG.pw pin) = fldGet w (PRISM_TIO_CFG.pw pin) := by
  have hmerge := State.mergeWord_tioCfg_sealed ini hp w hl
  have hlt := tioCfgMerge_lt pin w (s.reg_lt (pPrism2 + 0x10 + pin))
  obtain ⟨hoe, hpulse⟩ := fldGet_tioCfgMerge pin (s.reg (pPrism2 + 0x10 + pin)) w
  rw [s.get_plainWrite_merge ini hp w hmerge hlt rfl, s.get_plainWrite_merge ini hp w hmerge hlt rfl, s.get_tioCfg_oe]
  exact ⟨hoe, hpulse⟩

/-- While outward locks are open, no field is refused. -/
theorem State.plainWrite_tioCfg_open (hl : s.olSealed = false) :
    (s.plainWrite ini (pPrism2 + 0x10 + pin) w).get pPrism2 (PRISM_TIO_CFG.oe pin) = fldGet w (PRISM_TIO_CFG.oe pin) ∧
      RegsOnly [pPrism2 + 0x10 + pin] s (s.plainWrite ini (pPrism2 + 0x10 + pin) w) := by
  have hmerge := State.mergeWord_tioCfg_open ini hp w hl
  have hlt := tioCfgMerge_lt pin w (fldPut_lt (PRISM_TIO_CFG.oe pin) (fldGet w (PRISM_TIO_CFG.oe pin)) (by simp) (by simp)
    (s.reg_lt (pPrism2 + 0x10 + pin)))
  refine ⟨?_, ?_⟩
  · rw [s.get_plainWrite_merge ini hp w hmerge hlt rfl, (fldGet_tioCfgMerge _ _ _).1, fldGet_fldPut_same _ _ _ (by simp)]
    exact Nat.mod_eq_of_lt (fldGet_lt w (PRISM_TIO_CFG.oe pin))
  · simp only [State.plainWrite, hmerge, State.noteRefused_tioCfg hp, Bool.false_eq_true, if_false]
    exact RegsOnly.setReg s _ _

end

section
variable {s : State} {ini pin : Nat} {v : Word} (hp : pin < 16)
include hp

theorem doTioCfgWrite_invalid (hv : TioCfgBad pin v.toNat) : doTioCfgWrite ini pin v s =
    if s.olSealed = true ∧ fldGet v.toNat (PRISM_TIO_CFG.oe pin) ≠ s.get pPrism2 (PRISM_TIO_CFG.oe pin)
      then (s.refuse pPrism2).fc pPrism2 else s.fc pPrism2 := by
  have hbad : doTioCfgWrite ini pin v s =
      (s.noteRefused (pPrism2 + 0x10 + pin) (s.mergeWord ini (pPrism2 + 0x10 + pin) v.toNat).2).fc pPrism2 := by
    simp only [doTioCfgWrite]
    rw [if_neg (Nat.not_le.mpr hp), if_pos hv]
  rw [hbad, State.noteRefused_tioCfg hp, s.get_tioCfg_oe]
  cases hl : s.olSealed with
  | false =>
    rw [State.mergeWord_tioCfg_open ini hp _ hl]
    simp
  | true =>
    rw [State.mergeWord_tioCfg_sealed ini hp _ hl]
    simp only [bne_iff_ne, true_and]
    split <;> rfl

/-- A valid word is written, and a pin whose output is or becomes disabled floats. -/
theorem doTioCfgWrite_valid (hv : ¬TioCfgBad pin v.toNat) : ∃ prism,
    doTioCfgWrite ini pin v s = { s.plainWrite ini (pPrism2 + 0x10 + pin) v.toNat with prism := prism } := by
  simp only [doTioCfgWrite]
  rw [if_neg (Nat.not_le.mpr hp), if_neg hv]
  split
  · exact ⟨_, rfl⟩
  · exact ⟨_, rfl⟩

end

end Sys2Proof.Machine

namespace Sys2Proof

open Machine

/-- Settles O25, a lemma for each way of a fall, of a capture and of a configuration word. -/
theorem tioPins : Obligations.TioPins := by
  refine ⟨?falls, fun s pin h => execTioPulseFall_none h, fun s pin f n o hp hf ht hl ho h => execTioPulseFall_refused hp hf ht hl ho h,
    ?capture, fun s pin rising tap hp hen hedge hq => execTioCapture_full rising tap hp hen hedge hq,
    fun s pin rising tap h => execTioCapture_off rising tap h, ?read,
    fun s ini pin v ht hp hv => State.next_writeWord ht (doTioCfgWrite_invalid hp hv), ?cfgSealed, ?cfgOpen⟩
  case falls =>
    intro s pin f n hp hf ht hl h
    obtain ⟨hlevel, hfall, hout, hother⟩ := s.tioFallen_pins pin f
    exact ⟨_, execTioPulseFall_falls hp hf ht hl h, hlevel, hfall, hout, hother, rfl⟩
  case capture =>
    intro s pin rising tap hp hen hedge hlast hq
    exact ⟨_, execTioCapture_first rising tap hp hen hedge hlast hq, State.tioCaptured_pin rising tap⟩
  case read =>
    intro s pin ht hp
    obtain ⟨hdata, hti⟩ := s.tioPopped_pin pin
    obtain ⟨hlevel, _⟩ := (s.tioPopped pin).tioShow_get pin
    have hshow := (s.tioPopped pin).tioShow_regs pin
    refine ⟨_, congrArg Host.Outcome.next ((State.readWord_of_takes ht _).trans (doTioCloRead_pin hp s)), ?_, ?_, ?_, ?_⟩
    · exact hshow.rdata.trans hdata
    · rw [State.ti_tioShow, hti]
    · rw [State.ti_tioShow, hti]
    · rw [hlevel, hti]
  case cfgSealed =>
    intro s ini pin v ht hp hedge htb hpw hl
    obtain ⟨prism, heq⟩ := doTioCfgWrite_valid (s := s) (ini := ini) hp (v := v) (by unfold TioCfgBad; omega)
    obtain ⟨hoe, hpulse⟩ := s.plainWrite_tioCfg_sealed ini hp v.toNat hl
    have hregs := s.plainWrite_tioCfg_regs ini hp v.toNat
    refine ⟨_, State.next_writeWord ht heq, (State.get_setPrism _ _ _ _).trans hoe, (State.get_setPrism _ _ _ _).trans hpulse, ?_⟩
    exact fun a h10 h7 => hregs.prismRegs.setPrism.regW (by simp [h10, h7])
  case cfgOpen =>
    intro s ini pin v ht hp hedge htb hpw hl
    obtain ⟨prism, heq⟩ := doTioCfgWrite_valid (s := s) (ini := ini) hp (v := v) (by unfold TioCfgBad; omega)
    obtain ⟨hoe, hregs⟩ := s.plainWrite_tioCfg_open ini hp v.toNat hl
    exact ⟨_, State.next_writeWord ht heq, (State.get_setPrism _ _ _ _).trans hoe, hregs.prismRegs.setPrism.regsOnly⟩

end Sys2Proof
end

section
/-! PROOF. What a carrier start on the edge of a transfer makes of the statement on carriers and transfers. -/

namespace Sys2Proof.Machine

/-- A three-phase stage whose carrier stands at the end of its period of 64,000 taps, with a written shadow period and the turn-on of a
low side, 100 taps beyond the end, that belongs to the next period. -/
def endedPeriod : State :=
  { regs := [(pPwm 0 + 0x02, word (2 ^ 35)), (pPwm 0 + 0x10, word (2 ^ 34 + 7 * 2 ^ 30 + 2 ^ 24)), (pPwm 0 + 0x11, 3000),
      (pPwm 0 + 0x19, word (2 ^ 35)), (pPwm 0 + 0x1A, 2000)],
    pwm := [(0, { c := 64000, len := 64000, fin := 64000, edges := [{ t := 64100, on := true }] })] }

/-- The transfer changes the active period. -/
theorem endedPeriod_activeSet : (endedPeriod.transfer 0).activeSet 0 ≠ endedPeriod.activeSet 0 := by decide

/-- The transfer leaves the scheduled edges to the new period that begins on its edge (R136). -/
theorem endedPeriod_transferMid : endedPeriod.transferMid 0 ≠ (endedPeriod.transfer 0).recompute 0 := by decide

end Sys2Proof.Machine

namespace Sys2Proof

open Machine

/-- Refutes O27: a transfer on the edge of a carrier start changes the active set, and no edge is recomputed, for the period that begins
there takes the new set. R136 speaks of transfers in mid-period; the clause asks only that the carrier runs. -/
theorem not_carrierAndTransfers : ¬ Obligations.CarrierAndTransfers := by
  unfold Obligations.CarrierAndTransfers
  rintro ⟨-, -, -, -, -, -, -, -, -, -, -, -, -, -, hrecompute, -⟩
  exact endedPeriod_transferMid (hrecompute endedPeriod 0 (by decide) endedPeriod_activeSet)

end Sys2Proof
end

section
/-! PROOF. The records of the PWM stages and arm ports, the part of the machine that their commands change, and a register word of
which a write takes every field. -/

namespace Sys2Proof.Machine

/-! The records. -/

theorem Tab.rd_wr_ne {α : Type} [DecidableEq α] [Inhabited α] (t : Tab α) {k j : Nat} (v : α) (h : j ≠ k) :
    Tab.rd (Tab.wr t k v) j = Tab.rd t j := by
  simp [Tab.rd, Tab.wr, Tab.get_set_other _ _ _ h]

@[simp] theorem State.pw_setPw_same (s : State) (ch : Nat) (r : PwmSt) : (s.setPw ch r).pw ch = r := Tab.rd_wr_same _ _ _

theorem State.pw_setPw_ne (s : State) {ch k : Nat} (r : PwmSt) (h : k ≠ ch) : (s.setPw ch r).pw k = s.pw k := Tab.rd_wr_ne _ _ h

@[simp] theorem State.po_setPo_same (s : State) (p : Nat) (r : PortSt) : (s.setPo p r).po p = r := Tab.rd_wr_same _ _ _

theorem State.pw_of_pwm {s t : State} (h : t.pwm = s.pwm) (ch : Nat) : t.pw ch = s.pw ch := by rw [State.pw, State.pw, h]

theorem State.po_of_port {s t : State} (h : t.port = s.port) (p : Nat) : t.po p = s.po p := by rw [State.po, State.po, h]

@[simp] theorem State.pw_setReg (s : State) (a v ch : Nat) : (s.setReg a v).pw ch = s.pw ch := rfl
@[simp] theorem State.pw_put (s : State) (p : Nat) (f : Fld) (v ch : Nat) : (s.put p f v).pw ch = s.pw ch := rfl
@[simp] theorem State.po_put (s : State) (p : Nat) (f : Fld) (v q : Nat) : (s.put p f v).po q = s.po q := rfl
@[simp] theorem State.get_setPw (s : State) (ch : Nat) (r : PwmSt) (p : Nat) (f : Fld) : (s.setPw ch r).get p f = s.get p f := rfl
@[simp] theorem State.get_setPo (s : State) (q : Nat) (r : PortSt) (p : Nat) (f : Fld) : (s.setPo q r).get p f = s.get p f := rfl
@[simp] theorem State.carrierRuns_setPw (s : State) (ch : Nat) (r : PwmSt) (k : Nat) :
    (s.setPw ch r).carrierRuns k = s.carrierRuns k := rfl
@[simp] theorem State.padBlocked_setPw (s : State) (ch : Nat) (r : PwmSt) (k : Nat) : (s.setPw ch r).padBlocked k = s.padBlocked k := rfl

theorem State.flag_iff (s : State) (p : Nat) (f : Fld) : s.flag p f = true ↔ s.get p f = 1 := by simp [State.flag]

/-- A field of a word that is set. -/
theorem State.get_setReg_same (s : State) {a p w : Nat} {f : Fld} (ha : p + f.off = a) (hw : w < 2 ^ 36) :
    (s.setReg a w).get p f = fldGet w f := by
  rw [State.get, ha, State.reg_setReg_same, Nat.mod_eq_of_lt hw]

/-! The frame of the stages' and ports' commands. -/

/-- Nothing differs but the records of the stages and ports and some register words. -/
def StageRegs (as : List Nat) (s t : State) : Prop := RegsOnly as { s with pwm := t.pwm, port := t.port } t

theorem StageRegs.refl (as : List Nat) (s : State) : StageRegs as s s := RegsOnly.refl s as

theorem RegsOnly.stageRegs {as : List Nat} {s t : State} (h : RegsOnly as s t) : StageRegs as s t := by
  have hpwm : t.pwm = s.pwm := by rw [h.2]
  have hport : t.port = s.port := by rw [h.2]
  have hs : { s with pwm := t.pwm, port := t.port } = s := by rw [hpwm, hport]
  rw [StageRegs, hs]
  exact h

section
variable {as : List Nat} {s t : State} (h : StageRegs as s t)
include h

theorem StageRegs.regW {a : Nat} (ha : a ∉ as) : t.regW a = s.regW a := h.1 a ha

theorem StageRegs.get {p : Nat} {f : Fld} (hf : p + f.off ∉ as) : t.get p f = s.get p f :=
  congrArg (fun w : Word => fldGet w.toNat f) (h.regW hf)

theorem StageRegs.frame : t = { s with regs := t.regs, pwm := t.pwm, port := t.port } := h.2

/-- The frame of a command that leaves the ports. -/
theorem StageRegs.frame_pwm (hp : t.port = s.port) : t = { s with regs := t.regs, pwm := t.pwm } := by
  have hf := h.frame
  rwa [hp] at hf

/-- The frame of a command that leaves the stages. -/
theorem StageRegs.frame_port (hp : t.pwm = s.pwm) : t = { s with regs := t.regs, port := t.port } := by
  have hf := h.frame
  rwa [hp] at hf

theorem StageRegs.regsOnly (hp : t.port = s.port) : RegsOnly as { s with pwm := t.pwm } t := by
  unfold StageRegs at h
  rwa [hp] at h

theorem StageRegs.records {pwm : Tab PwmSt} {port : Tab PortSt} : StageRegs as s { t with pwm := pwm, port := port } := by
  refine ⟨fun a ha => h.1 a ha, ?_⟩
  have hf := h.frame
  generalize t.regs = regs at hf
  generalize t.pwm = pwm' at hf
  generalize t.port = port' at hf
  subst hf
  rfl

theorem StageRegs.setPw {ch : Nat} {r : PwmSt} : StageRegs as s (t.setPw ch r) := h.records
theorem StageRegs.setPo {p : Nat} {r : PortSt} : StageRegs as s (t.setPo p r) := h.records

theorem StageRegs.put {p : Nat} {f : Fld} {v : Nat} (hf : p + f.off ∈ as) : StageRegs as s (t.put p f v) := RegsOnly.put h v hf

end

/-- Two changes, one after the other. -/
theorem StageRegs.trans {as : List Nat} {s t u : State} (h : StageRegs as s t) (h' : StageRegs as t u) : StageRegs as s u := by
  refine ⟨fun a ha => (h'.1 a ha).trans (h.1 a ha), ?_⟩
  have hf := h.frame
  have hf' := h'.frame
  generalize t.regs = tr at hf
  generalize t.pwm = tp at hf
  generalize t.port = tq at hf
  generalize u.regs = ur at hf' ⊢
  generalize u.pwm = up at hf' ⊢
  generalize u.port = uq at hf' ⊢
  subst hf
  subst hf'
  rfl

theorem StageRegs.of_nil {as : List Nat} {s t : State} (h : StageRegs [] s t) : StageRegs as s t :=
  ⟨fun a _ => h.1 a List.not_mem_nil, h.2⟩

/-! Words of which a write takes every field (R9). -/

/-- Two fields of a word lie apart. -/
abbrev Fld.Apart (f g : Fld) : Prop := g.hi < f.lo ∨ f.hi < g.lo

/-- The fields of a list are proper bit ranges of a word, each apart from the others. -/
abbrev FieldsFit (l : List Fld) : Prop := (∀ f ∈ l, f.lo ≤ f.hi ∧ f.hi < 36) ∧ l.Pairwise Fld.Apart

/-- A word with some fields taken from another. -/
def takeFields (l : List Fld) (old w : Nat) : Nat := l.foldl (fun acc f => fldPut acc f (fldGet w f)) old

theorem takeFields_lt {l : List Fld} (hl : FieldsFit l) {old : Nat} (w : Nat) (h : old < 2 ^ 36) : takeFields l old w < 2 ^ 36 := by
  induction l generalizing old with
  | nil => exact h
  | cons f l ih =>
    obtain ⟨hfit, hapart⟩ := hl
    have hf := hfit f (by simp)
    exact ih ⟨fun g hg => hfit g (by simp [hg]), hapart.of_cons⟩ (fldPut_lt f _ hf.1 hf.2 h)

/-- A field apart from those taken keeps its value. -/
theorem fldGet_takeFields_ne {l : List Fld} (hl : ∀ f ∈ l, f.lo ≤ f.hi) {g : Fld} (hg : g.lo ≤ g.hi) (h : ∀ f ∈ l, f.Apart g)
    (old w : Nat) : fldGet (takeFields l old w) g = fldGet old g := by
  induction l generalizing old with
  | nil => rfl
  | cons f l ih =>
    rw [takeFields, List.foldl_cons, ← takeFields, ih (fun x hx => hl x (by simp [hx])) (fun x hx => h x (by simp [hx])),
      fldGet_fldPut_ne _ _ _ _ (hl f (by simp)) hg (h f (by simp))]

/-- Each field that is taken holds the new value. -/
theorem fldGet_takeFields_mem {l : List Fld} (hl : FieldsFit l) {g : Fld} (hg : g ∈ l) (old w : Nat) :
    fldGet (takeFields l old w) g = fldGet w g := by
  induction l generalizing old with
  | nil => exact absurd hg List.not_mem_nil
  | cons f l ih =>
    obtain ⟨hfit, hapart⟩ := hl
    have hrest : FieldsFit l := ⟨fun x hx => hfit x (by simp [hx]), hapart.of_cons⟩
    have hf := (hfit f (by simp)).1
    rw [takeFields, List.foldl_cons, ← takeFields]
    obtain rfl | hm := List.mem_cons.mp hg
    · have hout : ∀ x ∈ l, x.Apart g := fun x hx => (List.rel_of_pairwise_cons hapart hx).symm
      rw [fldGet_takeFields_ne (fun x hx => (hrest.1 x hx).1) hf hout, fldGet_fldPut_same _ _ _ hf]
      exact Nat.mod_eq_of_lt (fldGet_lt w g)
    · exact ih hrest hm _

/-- A field that a write of an initiator reaches: it is RW, or SL and open to it. -/
def State.Reaches (s : State) (ini : Nat) (f : Fld) : Prop := f.acc = .rw ∨ f.acc = .sl ∧ s.slOpen ini = true

theorem State.foldl_mergeField {s : State} {ini : Nat} {l : List Fld} (h : ∀ f ∈ l, s.Reaches ini f) (old v : Nat) (acc : Nat × Bool) :
    l.foldl (fun acc f => s.mergeField ini old v f acc) acc = (takeFields l acc.1 v, acc.2) := by
  induction l generalizing acc with
  | nil => rfl
  | cons f l ih =>
    have hf : s.mergeField ini old v f acc = (fldPut acc.1 f (fldGet v f), acc.2) := by
      obtain hrw | ⟨hsl, hopen⟩ := h f (by simp)
      · simp only [State.mergeField, hrw]
      · simp only [State.mergeField, hsl, hopen, if_true]
    rw [List.foldl_cons, hf, ih fun g hg => h g (by simp [hg])]
    rfl

/-- A write that reaches every field of its word refuses none. -/
theorem State.mergeWord_taken {s : State} {ini a : Nat} (h : ∀ f ∈ wordFields a, s.Reaches ini f) (v : Nat) :
    s.mergeWord ini a v = (takeFields (wordFields a) (s.reg a) v, false) :=
  State.foldl_mergeField h _ _ _

end Sys2Proof.Machine
end

section
/-! PROOF. PWM_CFG_WRITE and SHADOW_WRITE. -/

namespace Sys2Proof.Machine

/-! PWM_CFG (R118, R125, R152). -/

theorem State.noteRefused_pPwm (s : State) (ch : Nat) {o : Nat} (ho : o < 0x100) (r : Bool) : s.noteRefused (pPwm ch + o) r =
    if r then s.refuse (pPwm ch) else s := by
  rw [State.noteRefused, pageOf_pPwm_add ho]

/-- The fields that any initiator may write. -/
def pwmCfgOpen : List Fld := [PWM_CFG.carrier, PWM_CFG.reload, PWM_CFG.policy, PWM_CFG.track, PWM_CFG.cgrp, PWM_CFG.sgrp]

/-- All fields of the word. -/
def pwmCfgAll : List Fld := PWM_CFG.kind :: PWM_CFG.legen :: pwmCfgOpen

theorem fieldsFit_pwmCfgOpen : FieldsFit pwmCfgOpen := by decide

theorem fieldsFit_pwmCfgAll : FieldsFit pwmCfgAll := by decide

theorem wordFields_pwmCfg {ch : Nat} (hc : ch < 96) : wordFields (pPwm ch + 0x10) = pwmCfgAll := by
  have ho : (pPwm ch + 0x10) % 0x100 = 0x10 := by unfold pPwm; omega
  simp only [wordFields, blkOf_pPwm hc (show 0x10 < 0x100 by decide), Blk.offset, ho]
  rfl

/-- A word of valid kind, legen, carrier and reload. -/
abbrev PwmCfgOk (w : Nat) : Prop :=
  kindOk (fldGet w PWM_CFG.kind) (fldGet w PWM_CFG.legen) = true ∧ fldGet w PWM_CFG.carrier < 2 ∧ fldGet w PWM_CFG.reload < 5

/-- A word of which every field is taken is judged by its own fields. -/
theorem pwmCfgOk_takeFields (old w : Nat) : PwmCfgOk (takeFields pwmCfgAll old w) ↔ PwmCfgOk w := by
  have h := fun f hf => fldGet_takeFields_mem fieldsFit_pwmCfgAll (g := f) hf old w
  rw [PwmCfgOk, h PWM_CFG.kind (by decide), h PWM_CFG.legen (by decide), h PWM_CFG.carrier (by decide), h PWM_CFG.reload (by decide)]

/-- The stage after a word that changes its kind or legen. -/
def State.cfgChanged (s t : State) (ch w : Nat) : State :=
  if fldGet w PWM_CFG.kind ≠ s.get (pPwm ch) PWM_CFG.kind ∨ fldGet w PWM_CFG.legen ≠ s.get (pPwm ch) PWM_CFG.legen then t.stopCarrier ch else t

section
variable {s : State} {ini ch : Nat} (hc : ch < 96)
include hc

theorem State.mergeWord_pwmCfg_open (hl : s.slOpen ini = true) (v : Nat) :
    s.mergeWord ini (pPwm ch + 0x10) v = (takeFields pwmCfgAll (s.reg (pPwm ch + 0x10)) v, false) := by
  have h := s.mergeWord_taken (ini := ini) (a := pPwm ch + 0x10)
    (by rw [wordFields_pwmCfg hc]; simp [pwmCfgAll, pwmCfgOpen, State.Reaches, hl]) v
  rwa [wordFields_pwmCfg hc] at h

/-- While kind and legen are locked they keep their values, and a write of another one is refused (R10). -/
theorem State.mergeWord_pwmCfg_locked (hl : s.slOpen ini = false) (v : Nat) : ∃ r,
    s.mergeWord ini (pPwm ch + 0x10) v = (takeFields pwmCfgOpen (s.reg (pPwm ch + 0x10)) v, r) := by
  have h := fun acc => s.foldl_mergeField (ini := ini) (l := pwmCfgOpen) (by simp [pwmCfgOpen, State.Reaches]) (s.reg (pPwm ch + 0x10)) v acc
  rw [State.mergeWord, wordFields_pwmCfg hc, pwmCfgAll, List.foldl_cons, List.foldl_cons]
  simp only [State.mergeField, hl, Bool.false_eq_true, if_false]
  exact ⟨_, h _⟩

theorem doPwmCfgWrite_eq {v : Word} {m : Nat × Bool} (hm : s.mergeWord ini (pPwm ch + 0x10) v.toNat = m) : doPwmCfgWrite ini ch v s =
    if ini ≠ iniIsland ∧ s.carrierRuns ch = true ∨ ¬PwmCfgOk m.1 then (s.noteRefused (pPwm ch + 0x10) m.2).ev (pPwm ch) 7
    else s.cfgChanged ((s.noteRefused (pPwm ch + 0x10) m.2).setReg (pPwm ch + 0x10) m.1) ch m.1 := by
  subst hm
  unfold doPwmCfgWrite
  rw [if_neg (by omega)]
  extract_lets p a m s0 bad changed s1
  have hbad : bad = true ↔ ¬PwmCfgOk m.1 := by
    simp only [bad, PwmCfgOk, Bool.or_eq_true, Bool.not_eq_true', decide_eq_true_eq, not_and_or, Bool.not_eq_true, Nat.not_lt, or_assoc]
  have hchanged : changed = true ↔
      fldGet m.1 PWM_CFG.kind ≠ s.get (pPwm ch) PWM_CFG.kind ∨ fldGet m.1 PWM_CFG.legen ≠ s.get (pPwm ch) PWM_CFG.legen := by
    simp only [changed, Bool.or_eq_true, bne_iff_ne, p]
  simp only [hbad, hchanged]
  rfl

end

/-- A stage that stands is not stopped. -/
theorem State.stopCarrier_standing {s : State} {ch : Nat} (h : s.carrierRuns ch = false) : s.stopCarrier ch = s := by
  simp [State.stopCarrier, h]

theorem State.cfgChanged_standing {t : State} {ch : Nat} (h : t.carrierRuns ch = false) (s : State) (w : Nat) :
    s.cfgChanged t ch w = t := by
  rw [State.cfgChanged, State.stopCarrier_standing h, ite_self]

/-- The carrier stopped, before the event of it. -/
def State.stageStopped (s : State) (ch : Nat) : State :=
  (s.setPw ch { s.pw ch with stop := false, legs := [], edges := [] }).put (pPwm ch) PWM_BLK.run 0

theorem State.stopCarrier_running {s : State} {ch : Nat} (h : s.carrierRuns ch = true) :
    s.stopCarrier ch = (s.stageStopped ch).ev (pPwm ch) 14 := by
  rw [State.stopCarrier, if_pos h]
  rfl

theorem State.stageStopped_spec (s : State) (ch : Nat) : (s.stageStopped ch).carrierRuns ch = false ∧
    ((s.stageStopped ch).pw ch).edges = [] ∧ ((s.stageStopped ch).pw ch).legs = [] := by
  have hrun : (s.stageStopped ch).get (pPwm ch) PWM_BLK.run = 0 := State.get_put_of_lt _ _ _ (by decide) (by decide) (by decide)
  exact ⟨by simp [State.carrierRuns, State.flag, hrun], by simp [State.stageStopped], by simp [State.stageStopped]⟩

theorem State.carrierRuns_regsOnly {as : List Nat} {s t : State} (h : RegsOnly as s t) {ch : Nat} (ha : pPwm ch + 2 ∉ as) :
    t.carrierRuns ch = s.carrierRuns ch := by
  simp only [State.carrierRuns, State.flag, h.get (f := PWM_BLK.run) ha]

theorem RegsOnly.noteRefused_pPwm (s : State) {ch : Nat} (hc : ch < 96) {o : Nat} (ho : o < 0x100) (r : Bool) :
    RegsOnly [pPwm ch + 7] s (s.noteRefused (pPwm ch + o) r) :=
  (RegsOnly.refl s _).noteRefused r (by simp [pageOf_pPwm_add ho, lockPage_pPwm hc])

/-- The word reads as it is taken. -/
theorem get_setReg_pwmCfg (s : State) {ch w : Nat} (hw : w < 2 ^ 36) : ∀ f ∈ pwmCfgAll,
    (s.setReg (pPwm ch + 0x10) w).get (pPwm ch) f = fldGet w f := by
  intro f hf
  have hoff : f.off = 0x10 := (by decide : ∀ f ∈ pwmCfgAll, f.off = 0x10) f hf
  exact s.get_setReg_same (by rw [hoff]) hw

section
variable {s : State} {ini ch : Nat} {v : Word} (hc : ch < 96)
include hc

/-- The stage stands: a valid word is taken, and nothing else happens. -/
theorem doPwmCfgWrite_standing {m : Nat × Bool} (hm : s.mergeWord ini (pPwm ch + 0x10) v.toNat = m) (hok : PwmCfgOk m.1)
    (hr : s.carrierRuns ch = false) :
    doPwmCfgWrite ini ch v s = (s.noteRefused (pPwm ch + 0x10) m.2).setReg (pPwm ch + 0x10) m.1 := by
  have hregs : RegsOnly [pPwm ch + 7, pPwm ch + 0x10] s ((s.noteRefused (pPwm ch + 0x10) m.2).setReg (pPwm ch + 0x10) m.1) :=
    ((RegsOnly.noteRefused_pPwm s hc (by decide) m.2).mono (by simp)).setReg_mem _ (by simp)
  rw [doPwmCfgWrite_eq hc hm, if_neg (by simp [hr, hok]), State.cfgChanged_standing]
  rw [State.carrierRuns_regsOnly hregs (by simp), hr]

theorem doPwmCfgWrite_runs (hi : ini ≠ iniIsland) (hr : s.carrierRuns ch = true) : ∃ u : State,
    doPwmCfgWrite ini ch v s = u.ev (pPwm ch) 7 ∧ RegsOnly [pPwm ch + 7] s u ∧ (s.slOpen ini = true → u = s) := by
  refine ⟨_, by rw [doPwmCfgWrite_eq hc rfl, if_pos (.inl ⟨hi, hr⟩)], RegsOnly.noteRefused_pPwm s hc (by decide) _, fun hl => ?_⟩
  rw [s.mergeWord_pwmCfg_open hc hl]
  rfl

section
variable (hl : s.slOpen ini = true)
include hl

theorem doPwmCfgWrite_invalid (hv : ¬PwmCfgOk v.toNat) : doPwmCfgWrite ini ch v s = s.ev (pPwm ch) 7 := by
  rw [doPwmCfgWrite_eq hc (s.mergeWord_pwmCfg_open hc hl _), if_pos (.inr (mt (pwmCfgOk_takeFields _ _).mp hv))]
  rfl

theorem doPwmCfgWrite_open (hr : s.carrierRuns ch = false) (hv : PwmCfgOk v.toNat) : ∃ t : State, doPwmCfgWrite ini ch v s = t ∧
    (∀ f ∈ pwmCfgAll, t.get (pPwm ch) f = fldGet v.toNat f) ∧ RegsOnly [pPwm ch + 0x10] s t := by
  refine ⟨_, doPwmCfgWrite_standing hc (s.mergeWord_pwmCfg_open hc hl _) ((pwmCfgOk_takeFields _ _).mpr hv) hr, fun f hf => ?_,
    RegsOnly.setReg s _ _⟩
  rw [get_setReg_pwmCfg _ (takeFields_lt fieldsFit_pwmCfgAll _ (s.reg_lt _)) f hf, fldGet_takeFields_mem fieldsFit_pwmCfgAll hf]

/-- A change of the kind of a running stage, which only the island may make, stops its carrier (R125). -/
theorem doPwmCfgWrite_island (hi : ini = iniIsland) (hr : s.carrierRuns ch = true) (hv : PwmCfgOk v.toNat)
    (hk : fldGet v.toNat PWM_CFG.kind ≠ s.get (pPwm ch) PWM_CFG.kind) : ∃ u : State, doPwmCfgWrite ini ch v s = u.ev (pPwm ch) 14 ∧
    u.carrierRuns ch = false ∧ u.get (pPwm ch) PWM_CFG.kind = fldGet v.toNat PWM_CFG.kind ∧ (u.pw ch).edges = [] ∧ (u.pw ch).legs = [] := by
  have hmerge := s.mergeWord_pwmCfg_open hc hl v.toNat
  have hok := (pwmCfgOk_takeFields (s.reg (pPwm ch + 0x10)) v.toNat).mpr hv
  have hlt := takeFields_lt fieldsFit_pwmCfgAll v.toNat (s.reg_lt (pPwm ch + 0x10))
  have hkind := fldGet_takeFields_mem fieldsFit_pwmCfgAll (g := PWM_CFG.kind) (by decide) (s.reg (pPwm ch + 0x10)) v.toNat
  generalize takeFields pwmCfgAll (s.reg (pPwm ch + 0x10)) v.toNat = w at hmerge hok hlt hkind
  have hruns := State.carrierRuns_regsOnly (RegsOnly.setReg s (pPwm ch + 0x10) w) (ch := ch) (by simp)
  obtain ⟨hstand, hedges, hlegs⟩ := (s.setReg (pPwm ch + 0x10) w).stageStopped_spec ch
  refine ⟨_, ?_, hstand, ?_, hedges, hlegs⟩
  · rw [doPwmCfgWrite_eq hc hmerge, if_neg (not_or.mpr ⟨fun h => h.1 hi, not_not.mpr hok⟩), State.cfgChanged, if_pos (.inl (by rwa [hkind]))]
    exact State.stopCarrier_running (hruns.trans hr)
  · rw [State.stageStopped, State.get_put_word _ _ _ _ _ _ (by simp), State.get_setPw, get_setReg_pwmCfg _ hlt _ (by decide), hkind]

end

/-- While the envelope is locked, kind and legen keep their values. -/
theorem doPwmCfgWrite_locked (hl : s.slOpen ini = false) (hr : s.carrierRuns ch = false)
    (hk : kindOk (s.get (pPwm ch) PWM_CFG.kind) (s.get (pPwm ch) PWM_CFG.legen) = true) (hcar : fldGet v.toNat PWM_CFG.carrier < 2)
    (hrel : fldGet v.toNat PWM_CFG.reload < 5) : ∃ t : State, doPwmCfgWrite ini ch v s = t ∧
    t.get (pPwm ch) PWM_CFG.kind = s.get (pPwm ch) PWM_CFG.kind ∧ t.get (pPwm ch) PWM_CFG.legen = s.get (pPwm ch) PWM_CFG.legen ∧
    (∀ f ∈ pwmCfgOpen, t.get (pPwm ch) f = fldGet v.toNat f) ∧ RegsOnly [pPwm ch + 7, pPwm ch + 0x10] s t := by
  obtain ⟨r, hm⟩ := s.mergeWord_pwmCfg_locked hc hl v.toNat
  have hlt := takeFields_lt fieldsFit_pwmCfgOpen v.toNat (s.reg_lt (pPwm ch + 0x10))
  have htaken := fun f hf => fldGet_takeFields_mem fieldsFit_pwmCfgOpen (g := f) hf (s.reg (pPwm ch + 0x10)) v.toNat
  have hkind : fldGet (takeFields pwmCfgOpen (s.reg (pPwm ch + 0x10)) v.toNat) PWM_CFG.kind = s.get (pPwm ch) PWM_CFG.kind :=
    fldGet_takeFields_ne (by decide) (by decide) (by decide) _ _
  have hlegen : fldGet (takeFields pwmCfgOpen (s.reg (pPwm ch + 0x10)) v.toNat) PWM_CFG.legen = s.get (pPwm ch) PWM_CFG.legen :=
    fldGet_takeFields_ne (by decide) (by decide) (by decide) _ _
  generalize takeFields pwmCfgOpen (s.reg (pPwm ch + 0x10)) v.toNat = w at hm hlt htaken hkind hlegen
  have hok : PwmCfgOk w := by
    rw [PwmCfgOk, hkind, hlegen, htaken _ (by decide), htaken _ (by decide)]
    exact ⟨hk, hcar, hrel⟩
  refine ⟨_, doPwmCfgWrite_standing hc hm hok hr, ?_, ?_, fun f hf => ?_,
    ((RegsOnly.noteRefused_pPwm s hc (by decide) r).mono (by simp)).setReg_mem _ (by simp)⟩
  · rw [get_setReg_pwmCfg _ hlt _ (by decide), hkind]
  · rw [get_setReg_pwmCfg _ hlt _ (by decide), hlegen]
  · rw [get_setReg_pwmCfg _ hlt f (List.mem_cons_of_mem _ (List.mem_cons_of_mem _ hf)), htaken f hf]

end

/-! Envelope violations (R137). -/

/-- A stage whose order-4 block has come into force, with the notice to the island. -/
def State.envBlocked (s : State) (ch : Nat) : State :=
  { s with envBlk := if ch ∈ s.envBlk then s.envBlk else ch :: s.envBlk, envNotify := s.envNotify ++ [ch],
           isl := { s.isl with ch := Tab.wr s.isl.ch ch { (Tab.rd s.isl.ch ch : IslCh) with env := some s.now } } }.holdPads ch

theorem State.mem_envBlocked (s : State) (ch : Nat) : ch ∈ (s.envBlocked ch).envBlk := by
  show ch ∈ if ch ∈ s.envBlk then s.envBlk else ch :: s.envBlk
  split
  · assumption
  · exact List.mem_cons_self

/-- What a shadow value outside the envelope leaves, before the stop of the generator that it causes. -/
theorem State.dutyViolate_spec (s : State) (ch : Nat) : ∃ u : State, s.dutyViolate ch = u.padCause ch ∧ ch ∈ u.envBlk ∧
    u.envNotify = s.envNotify ++ [ch] ∧ u.blk4 ch = true ∧ (u.pw ch).padHold = true ∧ bitN (u.get (pPwm ch) PAGE_EV.ev) 4 = true ∧
    ∀ a, a ≠ pPwm ch + 3 → a ≠ pPwm ch + 5 → u.reg a = s.reg a := by
  have hmem := (s.ev (pPwm ch) 4).mem_envBlocked ch
  have hnotify : (s.ev (pPwm ch) 4).envNotify = s.envNotify := by
    obtain ⟨_, _, _, _, h⟩ := s.ev_frame (pPwm ch) 4
    rw [h]
  have hev : ((s.ev (pPwm ch) 4).envBlocked ch).get (pPwm ch) PAGE_EV.ev = setBitN (s.get (pPwm ch) PAGE_EV.ev) 4 :=
    s.get_ev_ev (pPwm ch) (by decide)
  refine ⟨(s.ev (pPwm ch) 4).envBlocked ch, rfl, hmem, congrArg (· ++ [ch]) hnotify, by simpa [State.blk4] using hmem,
    by simp [State.envBlocked, State.holdPads], by simp [hev, bitN_setBitN], fun a h3 h5 => s.reg_ev_ne (pPwm ch) 4 h3 h5⟩

/-! The shadow words (R121, R132, R133, R135). -/

theorem State.noteShadow_of_not {s : State} {ch : Nat} (h : (s.pw ch).xfer = false) : s.noteShadow ch = s := by
  simp [State.noteShadow, h]

theorem State.noteShadow_of_xfer {s : State} {ch : Nat} (h : (s.pw ch).xfer = true) : s.noteShadow ch = s.ev (pPwm ch) 2 := by
  simp [State.noteShadow, h]

theorem State.reloadNow_of_not {s : State} {ch : Nat} (h : s.get (pPwm ch) PWM_CFG.reload ≠ 4) : s.reloadNow ch = s := if_neg h

theorem State.reloadNow_of_reload {s : State} {ch : Nat} (h : s.get (pPwm ch) PWM_CFG.reload = 4) : s.reloadNow ch = s.goNext ch := if_pos h

/-- The shadow period written, with its flag. -/
def State.perWritten (s : State) (ch per : Nat) : State := (s.put (pPwm ch) PWM_PER.per per).put (pPwm ch) PWM_SHSTAT.per_w 1

theorem State.perWritten_regs (s : State) (ch per : Nat) : RegsOnly [pPwm ch + 0x11, pPwm ch + 0x19] s (s.perWritten ch per) :=
  ((RegsOnly.refl s _).put _ (by simp)).put _ (by simp)

theorem State.perWritten_get (s : State) (ch : Nat) {per : Nat} (h : per < 2 ^ 20) :
    (s.perWritten ch per).get (pPwm ch) PWM_PER.per = per ∧ (s.perWritten ch per).get (pPwm ch) PWM_SHSTAT.per_w = 1 ∧
      (s.perWritten ch per).get (pPwm ch) PWM_SHSTAT.cmp_w = s.get (pPwm ch) PWM_SHSTAT.cmp_w := by
  unfold State.perWritten
  refine ⟨?_, ?_, ?_⟩
  · rw [State.get_put_word _ _ _ _ _ _ (by simp)]
    exact State.get_put_of_lt _ _ _ (by decide) (by decide) h
  · exact State.get_put_of_lt _ _ _ (by decide) (by decide) (by decide)
  · rw [State.get_put_field _ _ _ _ _ _ (by decide) (by decide) (by decide) (by decide), State.get_put_word _ _ _ _ _ _ (by simp)]

theorem State.perWritten_records (s : State) (ch per : Nat) :
    (s.perWritten ch per).pw ch = s.pw ch ∧ ((s.perWritten ch per).goNext ch).port = s.port := by
  constructor
  · rw [State.perWritten, State.pw_put, State.pw_put]
  · rw [State.goNext, State.setPw_port, State.perWritten, State.put_port, State.put_port]

/-- The shadow period written, and the transfer of the next edge asked for. -/
theorem State.perWritten_goNext (s : State) (ch per : Nat) :
    ((s.perWritten ch per).goNext ch).pw ch = { s.pw ch with go := true } ∧
      RegsOnly [pPwm ch + 0x11, pPwm ch + 0x19] { s with pwm := ((s.perWritten ch per).goNext ch).pwm } ((s.perWritten ch per).goNext ch) := by
  obtain ⟨hpw, hport⟩ := s.perWritten_records ch per
  exact ⟨by rw [State.goNext, State.pw_setPw_same, hpw], (s.perWritten_regs ch per).stageRegs.setPw.regsOnly hport⟩

theorem State.setCmp_regs (s : State) (ch k m : Nat) : RegsOnly [pPwm ch + 0x14 + k, pPwm ch + 0x19] s (s.setCmp ch k m) :=
  ((RegsOnly.refl s _).put _ (by simp; omega)).put _ (by simp)

theorem State.setCmp_get (s : State) (ch : Nat) {k m : Nat} (hk : k < 4) (h : m < 2 ^ 25) :
    (s.setCmp ch k m).get (pPwm ch) (PWM_CMP.m k) = m ∧
      (s.setCmp ch k m).get (pPwm ch) PWM_SHSTAT.per_w = s.get (pPwm ch) PWM_SHSTAT.per_w ∧
      (s.setCmp ch k m).get (pPwm ch) PWM_SHSTAT.cmp_w = setBitN (s.get (pPwm ch) PWM_SHSTAT.cmp_w) k := by
  unfold State.setCmp
  refine ⟨?_, ?_, ?_⟩
  · rw [State.get_put_word _ _ _ _ _ _ (by simp; omega)]
    exact State.get_put_of_lt _ _ _ (by simp) (by simp) h
  · rw [State.get_put_field _ _ _ _ _ _ (by decide) (by decide) (by decide) (by decide), State.get_put_word _ _ _ _ _ _ (by simp; omega)]
  · refine State.get_put_of_lt _ _ _ (by decide) (by decide) (Nat.or_lt_two_pow (s.get_lt _ _) ?_)
    exact Nat.pow_lt_pow_right (by decide) hk

/-! SHADOW_WRITE, case by case. -/

section
variable {s : State} {ini ch : Nat} {v : Word} (hc : ch < 96)
include hc

theorem doShadowWrite_per : doShadowWrite ini ch 0x11 v s =
    if v.toNat % 2 ^ 20 < 2000 then s.ev (pPwm ch) 7
    else if s.perOk ch (v.toNat % 2 ^ 20) = false then s.dutyViolate ch
    else ((s.noteShadow ch).perWritten ch (v.toNat % 2 ^ 20)).reloadNow ch := by
  simp only [doShadowWrite, if_neg (show ¬96 ≤ ch by omega), if_true, Bool.not_eq_true']
  rfl

theorem doShadowWrite_perTaken (h : 2000 ≤ v.toNat % 2 ^ 20) (hok : s.perOk ch (v.toNat % 2 ^ 20) = true) :
    doShadowWrite ini ch 0x11 v s = ((s.noteShadow ch).perWritten ch (v.toNat % 2 ^ 20)).reloadNow ch := by
  rw [doShadowWrite_per hc, if_neg (by omega), if_neg ((Bool.not_eq_false _).mpr hok)]

theorem doShadowWrite_cmp {k : Nat} (hk : k < 4) : doShadowWrite ini ch (0x14 + k) v s =
    if s.get (pAle ch) PAGE_CTL.en = 1 ∧ ini ≠ iniIsland then s.ev (pPwm ch) 6
    else if s.legOn ch k = true ∧ s.dutyOk ch (v.toNat % 2 ^ 25) = false then s.dutyViolate ch
    else ((s.noteShadow ch).setCmp ch k (v.toNat % 2 ^ 25)).reloadNow ch := by
  have hr : inRange (0x14 + k) 0x14 4 = true := by simp [inRange]; omega
  simp only [doShadowWrite, if_neg (show ¬96 ≤ ch by omega), if_neg (show ¬0x14 + k = 0x11 by omega), hr, if_true, Nat.add_sub_cancel_left,
    Bool.and_eq_true, Bool.not_eq_true']

end

end Sys2Proof.Machine

namespace Sys2Proof

open Machine

/-- Settles O26, a lemma for each way of a write of the configuration word and of a shadow word. -/
theorem pwmConfigurationAndShadow : Obligations.PwmConfigurationAndShadow := by
  refine ⟨?cfgRuns, ?cfgInvalid, ?cfgOpen, ?cfgLocked, ?cfgIsland, ?perRange, ?perEnvelope, ?perTaken, ?cmpOwned, ?cmpEnvelope, ?cmpTaken,
    ?perLate, ?perReload⟩
  case cfgRuns =>
    intro s ini ch v ht hc hi hr
    obtain ⟨u, heq, hu⟩ := doPwmCfgWrite_runs (v := v) hc hi hr
    exact ⟨u, State.next_writeWord ht heq, hu⟩
  case cfgInvalid =>
    intro s ini ch v ht hc hl hv
    refine State.next_writeWord ht (doPwmCfgWrite_invalid hc hl fun hok => ?_)
    obtain ⟨hk, hcar, hrel⟩ := hok
    rw [hk] at hv
    simp only [Bool.true_eq_false, false_or] at hv
    omega
  case cfgOpen =>
    intro s ini ch v ht hc hl hr hk hcar hrel
    obtain ⟨t, heq, hspec⟩ := doPwmCfgWrite_open hc hl hr ⟨hk, hcar, hrel⟩
    exact ⟨t, State.next_writeWord ht heq, hspec⟩
  case cfgLocked =>
    intro s ini ch v ht hc hl hr hk hcar hrel
    obtain ⟨t, heq, hspec⟩ := doPwmCfgWrite_locked hc hl hr hk hcar hrel
    exact ⟨t, State.next_writeWord ht heq, hspec⟩
  case cfgIsland =>
    intro s ch v ht hc hr hk hcar hrel hkind
    obtain ⟨u, heq, hspec⟩ := doPwmCfgWrite_island hc (by simp [State.slOpen]) rfl hr ⟨hk, hcar, hrel⟩ hkind
    exact ⟨u, State.next_writeWord ht heq, hspec⟩
  case perRange =>
    intro s ini ch v ht hc hper
    exact State.next_writeWord ht (by rw [doShadowWrite_per hc, if_pos hper])
  case perEnvelope =>
    intro s ini ch v ht hc hper hok
    obtain ⟨u, heq, hmem, hnotify, hblk, hhold, hev, hreg⟩ := s.dutyViolate_spec ch
    exact ⟨u, State.next_writeWord ht (by rw [doShadowWrite_per hc, if_neg (by omega), if_pos hok, heq]), hmem, hnotify, hblk, hhold, hev,
      hreg _ (by omega) (by omega)⟩
  case perTaken =>
    intro s ini ch v ht hc hper hok hx hrel
    have hregs := s.perWritten_regs ch (v.toNat % 2 ^ 20)
    obtain ⟨hget, hflag, hcmp⟩ := s.perWritten_get ch (Nat.mod_lt v.toNat (show 0 < 2 ^ 20 by decide))
    have hreload := hregs.get (p := pPwm ch) (f := PWM_CFG.reload) (by simp)
    refine ⟨_, State.next_writeWord ht ?_, hget, hflag, hcmp, hregs⟩
    rw [doShadowWrite_perTaken hc hper hok, State.noteShadow_of_not hx, State.reloadNow_of_not (hreload ▸ hrel)]
  case cmpOwned =>
    intro s ini ch k v ht hc hk hen hi
    exact State.next_writeWord ht (by rw [doShadowWrite_cmp hc hk, if_pos ⟨hen, hi⟩])
  case cmpEnvelope =>
    intro s ini ch k v ht hc hk hown hleg hok
    have hfree : ¬(s.get (pAle ch) PAGE_CTL.en = 1 ∧ ini ≠ iniIsland) := fun ⟨hen, hi⟩ => hown.elim (· hen) hi
    obtain ⟨u, heq, hmem, hnotify, hblk, hhold, hev, hreg⟩ := s.dutyViolate_spec ch
    refine ⟨u, State.next_writeWord ht ?_, hmem, hnotify, hblk, hhold, hev, hreg _ (by omega) (by omega)⟩
    rw [doShadowWrite_cmp hc hk, if_neg hfree, if_pos ⟨hleg, hok⟩, heq]
  case cmpTaken =>
    intro s ini ch k v ht hc hk hown hok hx hrel
    have hfree : ¬(s.get (pAle ch) PAGE_CTL.en = 1 ∧ ini ≠ iniIsland) := fun ⟨hen, hi⟩ => hown.elim (· hen) hi
    have hclean : ¬(s.legOn ch k = true ∧ s.dutyOk ch (v.toNat % 2 ^ 25) = false) := fun ⟨hleg, hbad⟩ => by
      rw [hleg, hbad] at hok
      exact absurd hok (by decide)
    have hregs := s.setCmp_regs ch k (v.toNat % 2 ^ 25)
    obtain ⟨hget, hper, hcmp⟩ := s.setCmp_get ch hk (Nat.mod_lt v.toNat (show 0 < 2 ^ 25 by decide))
    have hreload := hregs.get (p := pPwm ch) (f := PWM_CFG.reload) (by simp; omega)
    refine ⟨_, State.next_writeWord ht ?_, hget, hper, fun j _ => by rw [hcmp, bitN_setBitN], hregs⟩
    rw [doShadowWrite_cmp hc hk, if_neg hfree, if_neg hclean, State.noteShadow_of_not hx,
      State.reloadNow_of_not (hreload ▸ hrel)]
  case perLate =>
    intro s ini ch v ht hc hper hok hx hrel
    have hregs := (s.ev (pPwm ch) 2).perWritten_regs ch (v.toNat % 2 ^ 20)
    obtain ⟨hget, -, -⟩ := (s.ev (pPwm ch) 2).perWritten_get ch (Nat.mod_lt v.toNat (show 0 < 2 ^ 20 by decide))
    have hreload := (hregs.get (p := pPwm ch) (f := PWM_CFG.reload) (by simp)).trans (State.get_ev_ne _ _ _ (by simp) (by simp))
    refine ⟨_, State.next_writeWord ht ?_, hget, ?_⟩
    · rw [doShadowWrite_perTaken hc hper hok, State.noteShadow_of_xfer hx, State.reloadNow_of_not (hreload ▸ hrel)]
    · rw [hregs.get (by simp), State.get_ev_ev _ _ (by decide)]
      simp [bitN_setBitN]
  case perReload =>
    intro s ini ch v ht hc hper hok hx hrel
    obtain ⟨hget, hflag, -⟩ := s.perWritten_get ch (Nat.mod_lt v.toNat (show 0 < 2 ^ 20 by decide))
    obtain ⟨hpw, hregs⟩ := s.perWritten_goNext ch (v.toNat % 2 ^ 20)
    have hreload := (s.perWritten_regs ch (v.toNat % 2 ^ 20)).get (p := pPwm ch) (f := PWM_CFG.reload) (by simp)
    refine ⟨(s.perWritten ch (v.toNat % 2 ^ 20)).goNext ch, State.next_writeWord ht ?_, (State.get_setPw _ _ _ _ _).trans hget,
      (State.get_setPw _ _ _ _ _).trans hflag, hpw, hregs⟩
    rw [doShadowWrite_perTaken hc hper hok, State.noteShadow_of_not hx, State.reloadNow_of_reload (hreload.trans hrel)]

end Sys2Proof
end

section
/-! PROOF. The gate edges: how they are launched, and how they are scheduled. -/

namespace Sys2Proof.Machine

/-! The earliest edge is launched (R127 to R131). -/

theorem earliest_mem (l : List GateEdge) (e : GateEdge) : earliest l e ∈ e :: l := by
  induction l generalizing e with
  | nil => exact List.mem_cons_self
  | cons f l ih =>
    rw [earliest]
    split
    · exact List.mem_cons_of_mem _ (ih f)
    · exact List.cons_subset_cons e (List.subset_cons_self f l) (ih e)

theorem earliest_of_le {l : List GateEdge} {e : GateEdge} (h : ∀ f ∈ l, e.t ≤ f.t) : earliest l e = e := by
  induction l with
  | nil => rfl
  | cons f l ih =>
    have hf := h f (by simp)
    rw [earliest, if_neg (by omega), ih fun g hg => h g (by simp [hg])]

/-- Nothing is launched where no edge lies before the time. -/
theorem State.launchBefore_of_late {s : State} {ch : Nat} {t : Int} (h : ∀ e ∈ (s.pw ch).edges, t ≤ e.t) (n : Nat) :
    s.launchBefore ch t n = s := by
  cases n with
  | zero => rfl
  | succ n =>
    rw [State.launchBefore]
    split
    next => rfl
    next e l he =>
      have hmem := earliest_mem l e
      rw [← he] at hmem
      exact if_neg (by have := h _ hmem; omega)

section
variable {s : State} {ch : Nat} {e : GateEdge} {l : List GateEdge}

/-- Of edges in their order the first alone is launched. -/
theorem State.launchBefore_one (he : (s.pw ch).edges = e :: l) (hmin : ∀ f ∈ l, e.t ≤ f.t) {t : Int} (ht : e.t < t) :
    s.launchBefore ch t 1 = s.launch ch e := by
  simp only [State.launchBefore, he, earliest_of_le hmin, if_pos ht]

theorem doGateEdge_launches (hc : ch < 96) (hr : s.carrierRuns ch = true) (he : (s.pw ch).edges = e :: l) (hmin : ∀ f ∈ l, e.t ≤ f.t)
    (ht : e.t < ((s.pw ch).c : Int) + 32) : doGateEdge ch s = s.launch ch e := by
  rw [doGateEdge, if_neg (by simp [hr, hc]), State.launchBefore_one he hmin ht]

/-- A side's second turn-on of the period is not emitted. -/
theorem State.launch_second (he : (s.pw ch).edges = e :: l) (h : (Tab.rd (s.pw ch).legs e.leg : LegSt).second e = true) :
    s.launch ch e = s.setPw ch { s.pw ch with edges := l } := by
  simp only [State.launch, h, if_true, he, List.erase_cons_head]

/-- The raw elements of a launch: those of its tap, or none at tap 0 of its cycle. -/
theorem State.launch_first (he : (s.pw ch).edges = e :: l) (h : (Tab.rd (s.pw ch).legs e.leg : LegSt).second e = false) :
    s.launch ch e = s.setPw ch { s.pw ch with
      edges := l
      legs := Tab.wr (s.pw ch).legs e.leg ((Tab.rd (s.pw ch).legs e.leg : LegSt).after
        (if s.get (pPort (ch / 8)) PORT_DLCAL.locked = 1 then e else { e with t := e.t / 32 * 32 }))
      raw := if s.get (pPort (ch / 8)) PORT_DLCAL.locked = 1 then ((e.t % 32).toNat * e.code + 16) / 32 else 0 } := by
  simp only [State.launch, h, Bool.false_eq_true, if_false, he, List.erase_cons_head, beq_iff_eq]
  split <;> simp

end

theorem doGateEdge_idle {s : State} {ch : Nat} (h : s.carrierRuns ch = false ∨ (s.pw ch).edges = []) : doGateEdge ch s = s := by
  rw [doGateEdge]
  split
  next => rfl
  next hrun =>
    have hempty : (s.pw ch).edges = [] := h.resolve_left fun hr => hrun (.inr hr)
    exact State.launchBefore_of_late (by simp [hempty]) 1

theorem doGateEdge_late {s : State} {ch : Nat} (h : ∀ e ∈ (s.pw ch).edges, ((s.pw ch).c : Int) + 32 ≤ e.t) : doGateEdge ch s = s := by
  rw [doGateEdge, State.launchBefore_of_late h, ite_self]

/-! The scheduled edges (R128, R129). -/

theorem LegSt.second_iff (l : LegSt) (e : GateEdge) :
    l.second e = true ↔ e.on = true ∧ (if e.hi then l.cntHi = true else l.cntLo = true) := by
  rw [LegSt.second, Bool.and_eq_true]
  cases e.hi <;> simp

theorem LegSt.after_sides (l : LegSt) (e : GateEdge) :
    (l.after e).hi = (if e.hi then e.on else l.hi) ∧ (l.after e).lo = (if e.hi then l.lo else e.on) := by
  rw [LegSt.after]
  cases e.hi <;> cases e.on <;> simp

theorem intervalStands_some {t u : Int} {minp : Nat} (h : intervalStands t (some u) minp = true) : t < u ∧ (minp : Int) ≤ u - t := by
  simpa [intervalStands] using h

/-- The turn-off stands at the ideal edge, and the turn-on the dead time after it where its interval stands. -/
theorem mem_edgePair {leg : Nat} {l : List (Int × Bool)} {d minp : Nat} {t : Int} {rise : Bool} {e : GateEdge}
    (h : e ∈ edgePair leg l d minp (t, rise)) :
    e = { t := t, leg := leg, hi := !rise, on := false } ∨
      e = { t := t + (d : Int), leg := leg, hi := rise, on := true } ∧
        intervalStands (t + (d : Int)) (nextEdge l (t + 1) (!rise)) minp = true := by
  rw [edgePair, List.mem_cons] at h
  refine h.imp_right fun hon => ?_
  split at hon
  next hs => exact ⟨List.mem_singleton.mp hon, hs⟩
  next => exact absurd hon List.not_mem_nil

/-- A turn-on of a side in the period of length L. -/
def GateEdge.turnsOn (L : Int) (sd : Bool) (e : GateEdge) : Bool := e.on && decide (e.t < L) && (e.hi == sd)

/-- A side turns on once in the period, and not where it has already. -/
theorem length_filter_onceEach (L : Int) (sd hi lo : Bool) (l : List GateEdge) :
    ((onceEach L hi lo l).filter (GateEdge.turnsOn L sd)).length ≤ if (if sd then hi else lo) then 0 else 1 := by
  induction l generalizing hi lo with
  | nil => simp [onceEach]
  | cons e l ih =>
    rw [onceEach]
    by_cases hon : (e.on && decide (e.t < L)) = true
    · rw [if_pos hon]
      by_cases hagain : (if e.hi then hi else lo) = true
      · rw [if_pos hagain]
        exact ih hi lo
      · have hrest := ih (hi || e.hi) (lo || !e.hi)
        rw [if_neg hagain, List.filter_cons]
        cases sd <;> cases hside : e.hi <;> simp_all [GateEdge.turnsOn]
    · rw [if_neg hon, List.filter_cons, if_neg (by simp [GateEdge.turnsOn, hon])]
      exact ih hi lo

end Sys2Proof.Machine
end

section
/-! PROOF. The gates at the pads, trips, the delay line, MCLK, and with them the statement on the commands of the edges and ports. -/

namespace Sys2Proof.Machine

/-! What a command that is carried out leaves. -/

theorem State.next_of_eq {s t : State} (h : s = t) : (Host.Outcome.next s : Out) = .next t := by rw [h]

theorem State.next_clocked {s t : State} {a : Nat} {k : State → State} (hon : s.clockOff a = false) (h : k s = t) :
    (Host.Outcome.next (s.clocked a k) : Out) = .next t := by
  rw [State.clocked_of_on hon, h]

/-! The gates at the pads (R119, R140, R257). -/

theorem State.gateOut_bridge (s : State) {ch : Nat} (leg : Nat) (hi : Bool) (hk : s.get (pPwm ch) PWM_CFG.kind ≠ 3) :
    s.gateOut ch leg hi = true ↔ s.padBlocked ch = false ∧ (s.pw ch).padHold = false ∧ s.carrierRuns ch = true ∧
      s.get (pPwm ch) PWM_CFG.kind ≠ 0 ∧ s.get (pPwm ch) PWM_BLK.trip = 0 ∧
      (if hi then (Tab.rd (s.pw ch).legs leg : LegSt).hi else (Tab.rd (s.pw ch).legs leg : LegSt).lo) = true := by
  simp only [State.gateOut, if_neg hk, Bool.and_eq_true, Bool.not_eq_true', bne_iff_ne, beq_iff_eq, and_assoc]

theorem State.gateOut_stepPair (s : State) {ch : Nat} (leg : Nat) (hi : Bool) (hk : s.get (pPwm ch) PWM_CFG.kind = 3) :
    s.gateOut ch leg hi = true ↔ s.padBlocked ch = false ∧ (s.pw ch).padHold = false ∧ leg = 0 ∧ s.flag (pProf ch) PAGE_CTL.en = true ∧
      (if hi then (s.pr ch).stepHigh = true else (s.pr ch).dirPos ≠ s.flag (pProf ch) PROF_STEP.dinv) := by
  simp only [State.gateOut, if_pos hk, State.stepPair, Bool.and_eq_true, Bool.not_eq_true', beq_iff_eq, and_assoc]
  cases hi <;> simp

/-! Trips (R138, R139). -/

/-- A sample of the trip input noted: since when it is active, if it is. -/
def State.tripSampled (s : State) (ch : Nat) (since : Option Nat) : State := s.setPw ch { s.pw ch with tripSince := since }

theorem doTripQualified_of_lt {s : State} {ch : Nat} (hc : ch < 96) (active : Bool) (n : Nat) :
    doTripQualified ch active n s = (s.tripSampled ch (if active then some (s.now + 1 - max n 1) else none)).tripAct ch := by
  rw [doTripQualified, if_neg (by omega)]
  rfl

theorem State.tripAct_eq (s : State) (ch : Nat) : s.tripAct ch =
    if s.tripQual ch = true ∧ s.get (pPwm ch) PWM_TRIP.en = 1 ∧ s.carrierRuns ch = true ∧ s.padBlocked ch = false ∧
      s.get (pPwm ch) PWM_BLK.trip ≠ 1 then (s.put (pPwm ch) PWM_BLK.trip 1).evC (pPwm ch) 3 else s := by
  simp only [State.tripAct, State.flag, Bool.and_eq_true, Bool.not_eq_true', beq_iff_eq, beq_eq_false_iff_ne, and_assoc, ne_eq]

section
variable (s : State) (ch : Nat)

theorem State.tripQual_inactive : (s.tripSampled ch none).tripQual ch = false := by
  simp [State.tripQual, State.tripSampled]

/-- The input, active since an edge, qualifies after filt edges outside blanking. -/
theorem State.tripQual_sampled (t : Nat) : (s.tripSampled ch (some t)).tripQual ch = true ↔
    (∀ o, (s.pw ch).outAt = some o → o + s.get (pPwm ch) PWM_TRIP.blank + s.get (pPwm ch) PWM_TRIP.filt ≤ s.now + 1) ∧
      t + s.get (pPwm ch) PWM_TRIP.filt ≤ s.now + 1 := by
  simp only [State.tripQual, State.tripSampled, State.pw_setPw_same, State.get_setPw, State.setPw_now]
  cases (s.pw ch).outAt with
  | none => simp
  | some o =>
    simp only [decide_eq_true_eq, Option.some.injEq, forall_eq']
    omega

theorem State.tripAct_unqualified {since : Option Nat} (h : (s.tripSampled ch since).tripQual ch = false) :
    (s.tripSampled ch since).tripAct ch = s.tripSampled ch since := by
  rw [State.tripAct_eq, if_neg (by simp [h])]

/-- A trip acts only where it is enabled, the carrier runs, no pad block is in force and none acted before. -/
theorem State.tripAct_barred {since : Option Nat} (h : s.get (pPwm ch) PWM_TRIP.en = 0 ∨ s.carrierRuns ch = false ∨
    s.padBlocked ch = true ∨ s.get (pPwm ch) PWM_BLK.trip = 1) : (s.tripSampled ch since).tripAct ch = s.tripSampled ch since := by
  refine (State.tripAct_eq _ _).trans (if_neg ?_)
  simp only [State.tripSampled, State.get_setPw, State.carrierRuns_setPw, State.padBlocked_setPw]
  rintro ⟨-, hen, hrun, hpad, htrip⟩
  obtain h | h | h | h := h
  · omega
  · exact absurd (hrun.symm.trans h) (by decide)
  · exact absurd (hpad.symm.trans h) (by decide)
  · exact htrip h

/-- A trip that has acted keeps every gate of a bridge off. -/
theorem State.gateOut_tripped (hk : s.get (pPwm ch) PWM_CFG.kind ≠ 3) (leg : Nat) (hi : Bool) :
    (s.put (pPwm ch) PWM_BLK.trip 1).gateOut ch leg hi = false := by
  have htrip : (s.put (pPwm ch) PWM_BLK.trip 1).get (pPwm ch) PWM_BLK.trip = 1 :=
    State.get_put_of_lt _ _ _ (by decide) (by decide) (by decide)
  have hkind : (s.put (pPwm ch) PWM_BLK.trip 1).get (pPwm ch) PWM_CFG.kind ≠ 3 := by rwa [State.get_put_word _ _ _ _ _ _ (by simp)]
  refine (Bool.eq_false_iff).mpr fun hout => ?_
  obtain ⟨-, -, -, -, h0, -⟩ := (State.gateOut_bridge _ leg hi hkind).mp hout
  omega

end

/-! The delay line (R131). -/

/-- Is a count of the replica line good: in its range, and near the last? -/
def dlcalGood (last : Option Nat) (n : Nat) : Bool :=
  decide (40 ≤ n) && decide (n ≤ 120) && (match last with | some q => decide (n ≤ q + 4) && decide (q ≤ n + 4) | none => true)

/-- A count noted. -/
def State.dlcalNoted (s : State) (port n : Nat) (good : Bool) : State :=
  (s.put (pPort port) PORT_DLCAL.code n).setPo port { s.po port with prev := some n, ever := (s.po port).ever || good }

theorem doDlcalMeasure_eq {s : State} {port : Nat} (hp : port < 12) (count : Nat) {n : Nat} {good : Bool} (hn : satN 0xFFFF count = n)
    (hg : dlcalGood (s.po port).prev n = good) : doDlcalMeasure port count s =
    if s.get (pPort port) PORT_DLCAL.locked = 1 ∧ good = false then
      overAll (List.range 8) ((s.dlcalNoted port n good).put (pPort port) PORT_DLCAL.locked 0) (fun i u => u.evC (pPwm (8 * port + i)) 5)
    else if s.get (pPort port) PORT_DLCAL.locked = 0 ∧ good = true then
      (if (s.po port).ever then
        overAll (List.range 8) ((s.dlcalNoted port n good).put (pPort port) PORT_DLCAL.locked 1) (fun i u => u.ev (pPwm (8 * port + i)) 15)
      else (s.dlcalNoted port n good).put (pPort port) PORT_DLCAL.locked 1)
    else s.dlcalNoted port n good := by
  subst hn hg
  rw [doDlcalMeasure, if_neg (by omega)]
  rfl

theorem dlcalGood_of_near {last : Option Nat} {n : Nat} (hlo : 40 ≤ n) (hhi : n ≤ 120) (h : ∀ q, last = some q → n ≤ q + 4 ∧ q ≤ n + 4) :
    dlcalGood last n = true := by
  cases last with
  | none => simp [dlcalGood, hlo, hhi]
  | some q => simpa [dlcalGood, hlo, hhi] using h q rfl

theorem dlcalGood_of_outside {n : Nat} (h : n < 40 ∨ 120 < n) (last : Option Nat) : dlcalGood last n = false := by
  have hrange : (decide (40 ≤ n) && decide (n ≤ 120)) = false := by simp; omega
  simp only [dlcalGood, hrange, Bool.false_and]

section
variable (s : State) (port : Nat) {n : Nat} (good : Bool) (hn : n < 2 ^ 16)

theorem State.dlcalNoted_po : (s.dlcalNoted port n good).po port =
    { s.po port with prev := some n, ever := (s.po port).ever || good } := State.po_setPo_same _ _ _

theorem State.dlcalNoted_stageRegs : StageRegs [pPort port + 0x11] s (s.dlcalNoted port n good) :=
  ((StageRegs.refl _ s).put (by simp)).setPo

theorem State.dlcalNoted_put_stageRegs (v : Nat) :
    StageRegs [pPort port + 0x11] s ((s.dlcalNoted port n good).put (pPort port) PORT_DLCAL.locked v) :=
  (s.dlcalNoted_stageRegs port good).put (by simp)

include hn

theorem State.dlcalNoted_get : (s.dlcalNoted port n good).get (pPort port) PORT_DLCAL.code = n ∧
    (s.dlcalNoted port n good).get (pPort port) PORT_DLCAL.locked = s.get (pPort port) PORT_DLCAL.locked :=
  ⟨(State.get_setPo _ _ _ _ _).trans (State.get_put_of_lt _ _ _ (by decide) (by decide) hn),
    (State.get_setPo _ _ _ _ _).trans (State.get_put_field _ _ _ _ _ _ (by decide) (by decide) (by decide) (by decide))⟩

theorem State.dlcalNoted_put_get {v : Nat} (hv : v < 2) :
    ((s.dlcalNoted port n good).put (pPort port) PORT_DLCAL.locked v).get (pPort port) PORT_DLCAL.locked = v ∧
      ((s.dlcalNoted port n good).put (pPort port) PORT_DLCAL.locked v).get (pPort port) PORT_DLCAL.code = n :=
  ⟨State.get_put_of_lt _ _ _ (by decide) (by decide) hv,
    (State.get_put_field _ _ _ _ _ _ (by decide) (by decide) (by decide) (by decide)).trans (s.dlcalNoted_get port good hn).1⟩

end

/-! PORT_MCLK (R142). -/

/-- The fields that a write of the word takes. -/
def mclkFields : List Fld := [PORT_MCLK.en, PORT_MCLK.align, PORT_MCLK.div, PORT_MCLK.dly]

theorem fieldsFit_mclkFields : FieldsFit mclkFields := by decide

/-- Fields of a page put one after the other. -/
def State.putFields (s : State) (p : Nat) (l : List Fld) (w : Nat) : State := l.foldl (fun t f => t.put p f (fldGet w f)) s

theorem State.get_putFields_ne {l : List Fld} (hl : FieldsFit l) {g : Fld} (hg : g.lo ≤ g.hi) (h : ∀ f ∈ l, f.Apart g) (s : State)
    (p w : Nat) : (s.putFields p l w).get p g = s.get p g := by
  induction l generalizing s with
  | nil => rfl
  | cons f l ih =>
    obtain ⟨hfit, hapart⟩ := hl
    have hf := hfit f (by simp)
    rw [State.putFields, List.foldl_cons, ← State.putFields, ih ⟨fun x hx => hfit x (by simp [hx]), hapart.of_cons⟩
      (fun x hx => h x (by simp [hx])), State.get_put_field _ _ _ _ _ _ hf.1 hf.2 hg (h f (by simp))]

theorem State.get_putFields_mem {l : List Fld} (hl : FieldsFit l) {g : Fld} (hg : g ∈ l) (s : State) (p w : Nat) :
    (s.putFields p l w).get p g = fldGet w g := by
  induction l generalizing s with
  | nil => exact absurd hg List.not_mem_nil
  | cons f l ih =>
    obtain ⟨hfit, hapart⟩ := hl
    have hrest : FieldsFit l := ⟨fun x hx => hfit x (by simp [hx]), hapart.of_cons⟩
    have hf := hfit f (by simp)
    rw [State.putFields, List.foldl_cons, ← State.putFields]
    obtain rfl | hm := List.mem_cons.mp hg
    · have hout : ∀ x ∈ l, x.Apart g := fun x hx => (List.rel_of_pairwise_cons hapart hx).symm
      rw [State.get_putFields_ne hrest hf.1 hout, State.get_put_of_lt _ _ _ hf.1 hf.2 (fldGet_lt w g)]
    · exact ih hrest hm _

/-- The word taken. -/
def State.mclkTaken (s : State) (port w : Nat) : State := s.putFields (pPort port) mclkFields w

/-- Does a word keep the values that MCLK runs with? -/
def State.mclkSame (s : State) (port w : Nat) : Bool :=
  fldGet w PORT_MCLK.div == s.get (pPort port) PORT_MCLK.div && fldGet w PORT_MCLK.dly == s.get (pPort port) PORT_MCLK.dly &&
    fldGet w PORT_MCLK.align == s.get (pPort port) PORT_MCLK.align

theorem State.mclkSame_iff (s : State) (port w : Nat) : s.mclkSame port w = true ↔
    fldGet w PORT_MCLK.div = s.get (pPort port) PORT_MCLK.div ∧ fldGet w PORT_MCLK.dly = s.get (pPort port) PORT_MCLK.dly ∧
      fldGet w PORT_MCLK.align = s.get (pPort port) PORT_MCLK.align := by
  simp only [State.mclkSame, Bool.and_eq_true, beq_iff_eq, and_assoc]

theorem doPortMclkWrite_eq {port : Nat} (hp : port < 12) (v : Word) (s : State) : doPortMclkWrite port v s =
    if s.get (pPort port) PORT_MCLK.en = 1 ∧ s.mclkSame port v.toNat = false ∨ fldGet v.toNat PORT_MCLK.div < 16 ∨
        40 < fldGet v.toNat PORT_MCLK.div then s.evC (pPort port) 1
    else if fldGet v.toNat PORT_MCLK.en = 0 then
      (if s.get (pPort port) PORT_MCLK.run = 1 then
        (s.mclkTaken port v.toNat).setPo port { (s.mclkTaken port v.toNat).po port with stopping := true } else s.mclkTaken port v.toNat)
    else if s.get (pPort port) PORT_MCLK.run = 1 then
      (if s.mclkSame port v.toNat then
        (s.mclkTaken port v.toNat).setPo port { (s.mclkTaken port v.toNat).po port with stopping := false } else s.mclkTaken port v.toNat)
    else if fldGet v.toNat PORT_MCLK.align = 0 then (s.mclkTaken port v.toNat).startMclk port (s.now + 1)
    else s.mclkTaken port v.toNat := by
  rw [doPortMclkWrite, if_neg (by omega)]
  rfl

section
variable {s : State} {port : Nat} {v : Word}

theorem doPortMclkWrite_refused (hp : port < 12) (h : s.get (pPort port) PORT_MCLK.en = 1 ∧ s.mclkSame port v.toNat = false ∨
    fldGet v.toNat PORT_MCLK.div < 16 ∨ 40 < fldGet v.toNat PORT_MCLK.div) : doPortMclkWrite port v s = s.evC (pPort port) 1 := by
  rw [doPortMclkWrite_eq hp, if_pos h]

variable (hfree : s.get (pPort port) PORT_MCLK.en = 0 ∨ s.mclkSame port v.toNat = true) (hlo : 16 ≤ fldGet v.toNat PORT_MCLK.div)
  (hhi : fldGet v.toNat PORT_MCLK.div ≤ 40)
include hfree hlo hhi

theorem doPortMclkWrite_taken : ¬(s.get (pPort port) PORT_MCLK.en = 1 ∧ s.mclkSame port v.toNat = false ∨
    fldGet v.toNat PORT_MCLK.div < 16 ∨ 40 < fldGet v.toNat PORT_MCLK.div) := by
  rintro (⟨hen, hsame⟩ | hdiv | hdiv)
  · obtain h | h := hfree
    · omega
    · exact absurd (hsame.symm.trans h) (by decide)
  · omega
  · omega

variable (hp : port < 12)
include hp

theorem doPortMclkWrite_starting (hr : s.get (pPort port) PORT_MCLK.run = 0) (hen : fldGet v.toNat PORT_MCLK.en = 1)
    (ha : fldGet v.toNat PORT_MCLK.align = 0) : doPortMclkWrite port v s = (s.mclkTaken port v.toNat).startMclk port (s.now + 1) := by
  rw [doPortMclkWrite_eq hp, if_neg (doPortMclkWrite_taken hfree hlo hhi), if_neg (by omega : ¬fldGet v.toNat PORT_MCLK.en = 0),
    if_neg (by omega : ¬s.get (pPort port) PORT_MCLK.run = 1), if_pos ha]

theorem doPortMclkWrite_standing (hr : s.get (pPort port) PORT_MCLK.run = 0)
    (h : fldGet v.toNat PORT_MCLK.en = 0 ∨ fldGet v.toNat PORT_MCLK.align = 1) : doPortMclkWrite port v s = s.mclkTaken port v.toNat := by
  have hrun : ¬s.get (pPort port) PORT_MCLK.run = 1 := by omega
  rw [doPortMclkWrite_eq hp, if_neg (doPortMclkWrite_taken hfree hlo hhi)]
  simp only [if_neg hrun]
  split
  next => rfl
  next hen =>
    exact if_neg (by omega)

theorem doPortMclkWrite_stopping (hr : s.get (pPort port) PORT_MCLK.run = 1) (hen : fldGet v.toNat PORT_MCLK.en = 0) :
    doPortMclkWrite port v s =
      (s.mclkTaken port v.toNat).setPo port { (s.mclkTaken port v.toNat).po port with stopping := true } := by
  rw [doPortMclkWrite_eq hp, if_neg (doPortMclkWrite_taken hfree hlo hhi), if_pos hen, if_pos hr]

end

section
variable (s : State) (port w : Nat)

theorem State.mclkTaken_regsOnly : RegsOnly [pPort port + 0x10] s (s.mclkTaken port w) :=
  ((((RegsOnly.refl s _).put _ (by simp)).put _ (by simp)).put _ (by simp)).put _ (by simp)

theorem State.mclkTaken_port : (s.mclkTaken port w).port = s.port := by
  rw [(s.mclkTaken_regsOnly port w).2]

theorem State.mclkTaken_get {f : Fld} (hf : f ∈ mclkFields) : (s.mclkTaken port w).get (pPort port) f = fldGet w f :=
  State.get_putFields_mem fieldsFit_mclkFields hf _ _ _

theorem State.mclkTaken_run : (s.mclkTaken port w).get (pPort port) PORT_MCLK.run = s.get (pPort port) PORT_MCLK.run :=
  State.get_putFields_ne fieldsFit_mclkFields (by decide) (by decide) _ _ _

theorem State.mclkTaken_setPo_stageRegs (r : PortSt) : StageRegs [pPort port + 0x10] s ((s.mclkTaken port w).setPo port r) :=
  (s.mclkTaken_regsOnly port w).stageRegs.setPo

/-- MCLK started: it runs, and the fields of its word stay. -/
theorem State.startMclk_spec (at_ : Nat) : StageRegs [pPort port + 0x10] s (s.startMclk port at_) ∧
    (s.startMclk port at_).get (pPort port) PORT_MCLK.run = 1 ∧ ((s.startMclk port at_).po port).mclk = some at_ ∧
      (s.startMclk port at_).pwm = s.pwm ∧ ∀ f ∈ mclkFields, (s.startMclk port at_).get (pPort port) f = s.get (pPort port) f := by
  refine ⟨(StageRegs.refl _ s).setPo.put (by simp), State.get_put_of_lt _ _ _ (by decide) (by decide) (by decide), ?_, ?_, fun f hf => ?_⟩
  · rw [State.startMclk, State.po_put, State.po_setPo_same]
  · rw [State.startMclk, State.put_pwm, State.setPo_pwm]
  · have hfit : f.lo ≤ f.hi ∧ PORT_MCLK.run.Apart f := (by decide : ∀ f ∈ mclkFields, f.lo ≤ f.hi ∧ PORT_MCLK.run.Apart f) f hf
    rw [State.startMclk, State.get_put_field _ _ _ _ _ _ (by decide) (by decide) hfit.1 hfit.2, State.get_setPo]

end

/-- A word that is taken while MCLK is off: its fields are, and with en and without align MCLK starts on the next edge. -/
theorem doPortMclkWrite_open {s : State} {port : Nat} {v : Word} (hp : port < 12) (hen : s.get (pPort port) PORT_MCLK.en = 0)
    (hlo : 16 ≤ fldGet v.toNat PORT_MCLK.div) (hhi : fldGet v.toNat PORT_MCLK.div ≤ 40) (hrun : s.get (pPort port) PORT_MCLK.run = 0) :
    ∃ t : State, doPortMclkWrite port v s = t ∧ (∀ f ∈ mclkFields, t.get (pPort port) f = fldGet v.toNat f) ∧
      (fldGet v.toNat PORT_MCLK.en = 1 ∧ fldGet v.toNat PORT_MCLK.align = 0 →
        t.get (pPort port) PORT_MCLK.run = 1 ∧ (t.po port).mclk = some (s.now + 1)) ∧
      (fldGet v.toNat PORT_MCLK.en = 0 ∨ fldGet v.toNat PORT_MCLK.align = 1 → t.get (pPort port) PORT_MCLK.run = 0 ∧ t.port = s.port) ∧
      t.pwm = s.pwm ∧ StageRegs [pPort port + 0x10] s t := by
  have hregs := (s.mclkTaken_regsOnly port v.toNat).stageRegs
  have hget : ∀ f ∈ mclkFields, (s.mclkTaken port v.toNat).get (pPort port) f = fldGet v.toNat f := fun f hf => s.mclkTaken_get port v.toNat hf
  have hpwm : (s.mclkTaken port v.toNat).pwm = s.pwm := by rw [(s.mclkTaken_regsOnly port v.toNat).2]
  by_cases h : fldGet v.toNat PORT_MCLK.en = 1 ∧ fldGet v.toNat PORT_MCLK.align = 0
  · obtain ⟨hregs', hr, hm, hpwm', hget'⟩ := (s.mclkTaken port v.toNat).startMclk_spec port (s.now + 1)
    exact ⟨(s.mclkTaken port v.toNat).startMclk port (s.now + 1), doPortMclkWrite_starting (.inl hen) hlo hhi hp hrun h.1 h.2,
      fun f hf => (hget' f hf).trans (hget f hf), fun _ => ⟨hr, hm⟩, fun hnot => absurd h (by omega), hpwm'.trans hpwm, hregs.trans hregs'⟩
  · have hen2 : fldGet v.toNat PORT_MCLK.en < 2 := fldGet_lt v.toNat PORT_MCLK.en
    have halign : fldGet v.toNat PORT_MCLK.align < 2 := fldGet_lt v.toNat PORT_MCLK.align
    exact ⟨s.mclkTaken port v.toNat, doPortMclkWrite_standing (.inl hen) hlo hhi hp hrun (by omega), hget, fun hst => absurd hst h,
      fun _ => ⟨(s.mclkTaken_run port v.toNat).trans hrun, s.mclkTaken_port port v.toNat⟩, hpwm, hregs⟩

/-! MCLK_STOP (R142, R144). -/

theorem doMclkStop_not {s : State} {port : Nat}
    (h : (s.po port).stopping = false ∨ s.get (pPort port) PORT_MCLK.run = 0 ∨ s.mclkEnds port = false) : doMclkStop port s = s := by
  rw [doMclkStop]
  exact if_pos (.inr h)

theorem State.mclkEnds_iff {s : State} {port b : Nat} (h : (s.po port).mclk = some b) :
    s.mclkEnds port = true ↔ b < s.now ∧ (s.now - b) % (s.po port).div = 0 := by
  simp [State.mclkEnds, h]

theorem State.loseWindow_closed {s : State} {ch : Nat} (h : (s.pw ch).win = none) :
    s.loseWindow ch = s.setPw ch { s.pw ch with contN := 0 } := by
  simp only [State.loseWindow, State.pw_setPw_same, h]

theorem overAll_append (l : List Nat) (k : Nat) (s : State) (f : Nat → State → State) : overAll (l ++ [k]) s f = f k (overAll l s f) := by
  induction l generalizing s with
  | nil => rfl
  | cons j l ih => exact ih _

/-- The channels of a port lose no window where none is open: only their counts of continuous results begin anew. -/
theorem State.losesNone {s : State} {port n : Nat} (hn : n ≤ 8) (h : ∀ i < 8, (s.pw (8 * port + i)).win = none) :
    StageRegs [] s (overAll (List.range n) s fun i u => u.loseWindow (8 * port + i)) ∧
      (overAll (List.range n) s fun i u => u.loseWindow (8 * port + i)).port = s.port ∧
      ∀ ch, (overAll (List.range n) s fun i u => u.loseWindow (8 * port + i)).pw ch =
        if 8 * port ≤ ch ∧ ch < 8 * port + n then { s.pw ch with contN := 0 } else s.pw ch := by
  induction n with
  | zero => exact ⟨StageRegs.refl _ s, rfl, fun ch => (if_neg (by omega)).symm⟩
  | succ n ih =>
    obtain ⟨hregs, hport, hpw⟩ := ih (by omega)
    rw [List.range_succ, overAll_append]
    generalize overAll (List.range n) s (fun i u => u.loseWindow (8 * port + i)) = t at hregs hport hpw
    have hlast : t.pw (8 * port + n) = s.pw (8 * port + n) := (hpw _).trans (if_neg (by omega))
    rw [State.loseWindow_closed (by rw [hlast, h n (by omega)]), hlast]
    refine ⟨hregs.setPw, hport, fun ch => ?_⟩
    by_cases hch : ch = 8 * port + n
    · rw [hch, State.pw_setPw_same, if_pos (by omega)]
    · rw [State.pw_setPw_ne _ _ hch, hpw]
      exact if_congr (by omega) rfl rfl

/-- MCLK of a port stopped. -/
def State.mclkStopped (s : State) (port : Nat) : State :=
  (s.setPo port { s.po port with stopping := false, mclk := none }).put (pPort port) PORT_MCLK.run 0

theorem State.mclkStopped_spec (s : State) (port : Nat) : StageRegs [pPort port + 0x10] s (s.mclkStopped port) ∧
    (s.mclkStopped port).get (pPort port) PORT_MCLK.run = 0 ∧
      (s.mclkStopped port).get (pPort port) PORT_MCLK.en = s.get (pPort port) PORT_MCLK.en ∧
      (s.mclkStopped port).po port = { s.po port with stopping := false, mclk := none } ∧ (s.mclkStopped port).pwm = s.pwm := by
  refine ⟨(StageRegs.refl _ s).setPo.put (by simp), State.get_put_of_lt _ _ _ (by decide) (by decide) (by decide), ?_, ?_, ?_⟩
  · rw [State.mclkStopped, State.get_put_field _ _ _ _ _ _ (by decide) (by decide) (by decide) (by decide), State.get_setPo]
  · rw [State.mclkStopped, State.po_put, State.po_setPo_same]
  · rw [State.mclkStopped, State.put_pwm, State.setPo_pwm]

/-- MCLK that is off stops at the end of its period. -/
theorem doMclkStop_stops {s : State} {port : Nat} (hp : port < 12) (hstop : (s.po port).stopping = true)
    (hrun : s.get (pPort port) PORT_MCLK.run = 1) (hen : s.get (pPort port) PORT_MCLK.en = 0) (hends : s.mclkEnds port = true)
    (hwin : ∀ i < 8, (s.pw (8 * port + i)).win = none) : ∃ t : State, doMclkStop port s = t ∧ StageRegs [pPort port + 0x10] s t ∧
      t.get (pPort port) PORT_MCLK.run = 0 ∧ (t.po port).mclk = none ∧ (t.po port).stopping = false ∧
      ∀ ch, t.pw ch = if ch / 8 = port then { s.pw ch with contN := 0 } else s.pw ch := by
  obtain ⟨hregs, hget, hgetEn, hpo, hpwm⟩ := s.mclkStopped_spec port
  have hpw := State.pw_of_pwm hpwm
  obtain ⟨hregs', hport', hpw'⟩ := State.losesNone (s := s.mclkStopped port) (le_refl 8) fun i hi => by rw [hpw, hwin i hi]
  have hkept : ∀ f, (overAll (List.range 8) (s.mclkStopped port) fun i u => u.loseWindow (8 * port + i)).get (pPort port) f =
      (s.mclkStopped port).get (pPort port) f := fun f => hregs'.get List.not_mem_nil
  have hrecord := (State.po_of_port hport' port).trans hpo
  refine ⟨overAll (List.range 8) (s.mclkStopped port) (fun i u => u.loseWindow (8 * port + i)), ?_, hregs.trans hregs'.of_nil,
    (hkept _).trans hget, by rw [hrecord], by rw [hrecord], fun ch => ?_⟩
  · rw [doMclkStop, if_neg (by rw [hstop, hrun, hends]; simp; omega)]
    refine if_neg fun h => ?_
    have h0 := ((hkept PORT_MCLK.en).trans (hgetEn.trans hen)).symm.trans h.1
    exact absurd h0 (by decide)
  · rw [hpw', hpw]
    exact if_congr (by omega) rfl rfl

end Sys2Proof.Machine

namespace Sys2Proof

open Machine

/-- Settles O28, a lemma for each way of a command of the gate edges, the trip inputs, the delay lines and MCLK. -/
theorem gatesTripsAndPorts : Obligations.GatesTripsAndPorts := by
  refine ⟨?idle, ?late, ?launches, ?second, LegSt.second_iff, LegSt.after_sides, ?pairs, ?once, ?bridge, ?stepPair, ?trips,
    ?tripBarred, ?tripShort, ?tripBlanked, ?tripInactive, ?dlcalLost, ?dlcalKept, ?dlcalFirst, ?dlcalRegained, ?mclkRefused, ?mclkTaken,
    ?mclkStopping, ?stopNot, ?ends, ?stops⟩
  case idle =>
    intro s ch h
    exact State.next_of_eq (doGateEdge_idle h)
  case late =>
    intro s ch h
    exact State.next_of_eq (doGateEdge_late h)
  case launches =>
    intro s ch e l hc hr he hmin ht h2
    refine ⟨_, State.next_of_eq ((doGateEdge_launches hc hr he hmin ht).trans (State.launch_first he h2)), ?_, ?_, ?_, fun k hk => ?_, rfl⟩
    · rw [State.pw_setPw_same]
    · rw [State.pw_setPw_same, Tab.rd_wr_same]
    · rw [State.pw_setPw_same]
    · rw [State.pw_setPw_same, Tab.rd_wr_ne _ _ hk]
  case second =>
    intro s ch e l hc hr he hmin ht h2
    exact State.next_of_eq ((doGateEdge_launches hc hr he hmin ht).trans (State.launch_second he h2))
  case pairs =>
    intro leg l d minp t rise e he
    obtain rfl | ⟨rfl, hs⟩ := mem_edgePair he
    · exact ⟨rfl, fun _ => ⟨rfl, rfl⟩, nofun⟩
    · exact ⟨rfl, nofun, fun _ => ⟨rfl, rfl, fun u hu => intervalStands_some (hu ▸ hs)⟩⟩
  case once =>
    intro L hi lo sd l
    exact (length_filter_onceEach L sd hi lo l).trans (by split_ifs <;> simp)
  case bridge =>
    intro s ch leg hi hk
    exact s.gateOut_bridge leg hi hk
  case stepPair =>
    intro s ch leg hi hk
    exact s.gateOut_stepPair leg hi hk
  case trips =>
    intro s ch n hon hc hen hrun hpad htrip hout hfilt hnow
    have hqual := (s.tripQual_sampled ch (s.now + 1 - max n 1)).mpr ⟨by simp [hout], by omega⟩
    refine ⟨_, rfl, State.next_clocked hon ?_, fun hk leg hi => State.gateOut_tripped _ ch (by rwa [State.get_setPw]) leg hi⟩
    refine (doTripQualified_of_lt hc true n).trans ((State.tripAct_eq _ _).trans (if_pos ?_))
    exact ⟨hqual, hen, hrun, hpad, fun h => absurd (htrip.symm.trans h) (by decide)⟩
  case tripBarred =>
    intro s ch n hon hc h
    exact State.next_clocked hon (((doTripQualified_of_lt hc true n).trans (s.tripAct_barred ch h)))
  case tripShort =>
    intro s ch n hon hc hn hnow
    refine State.next_clocked hon (((doTripQualified_of_lt hc true n).trans (s.tripAct_unqualified ch ?_)))
    rw [Bool.eq_false_iff, ne_eq, if_pos rfl, State.tripQual_sampled]
    omega
  case tripBlanked =>
    intro s ch n o hon hc hout hnow
    refine State.next_clocked hon (((doTripQualified_of_lt hc true n).trans (s.tripAct_unqualified ch ?_)))
    rw [Bool.eq_false_iff, ne_eq, if_pos rfl, State.tripQual_sampled]
    intro h
    have := h.1 o hout
    omega
  case tripInactive =>
    intro s ch n hon hc
    exact State.next_clocked hon (((doTripQualified_of_lt hc false n).trans
      (s.tripAct_unqualified ch (s.tripQual_inactive ch))))
  case dlcalLost =>
    intro s port count hon hp hlock hcount
    have hn : min 0xFFFF count < 2 ^ 16 := by omega
    have hgood := dlcalGood_of_outside (n := min 0xFFFF count) (by omega) (s.po port).prev
    obtain ⟨hget, hcode⟩ := s.dlcalNoted_put_get port false hn (v := 0) (by decide)
    refine ⟨(s.dlcalNoted port (min 0xFFFF count) false).put (pPort port) PORT_DLCAL.locked 0, State.next_clocked hon ?_, hget, hcode, ?_,
      fun a ha => (s.dlcalNoted_put_stageRegs port false 0).regW (by simpa using ha)⟩
    · rw [doDlcalMeasure_eq hp count (satN_eq_min _ _) hgood, if_pos ⟨hlock, rfl⟩]
    · rw [State.po_put, State.dlcalNoted_po]
  case dlcalKept =>
    intro s port count hon hp hlo hhi hnear hlock
    have hn : satN 0xFFFF count = count := by rw [satN_eq_min]; omega
    obtain ⟨hcode, hget⟩ := s.dlcalNoted_get port true (n := count) (by omega)
    refine ⟨s.dlcalNoted port count true, State.next_clocked hon ?_, hget.trans hlock, hcode, ?_,
      fun a ha => (s.dlcalNoted_stageRegs port true).regW (by simpa using ha)⟩
    · rw [doDlcalMeasure_eq hp count hn (dlcalGood_of_near hlo hhi hnear), if_neg (by simp), if_neg (by omega)]
    · rw [State.dlcalNoted_po]
  case dlcalFirst =>
    intro s port count hon hp hlo hhi hnear hlock hever
    have hn : satN 0xFFFF count = count := by rw [satN_eq_min]; omega
    obtain ⟨hget, hcode⟩ := s.dlcalNoted_put_get port true (n := count) (v := 1) (by omega) (by decide)
    refine ⟨(s.dlcalNoted port count true).put (pPort port) PORT_DLCAL.locked 1, State.next_clocked hon ?_, hget, hcode, ?_,
      fun a ha => (s.dlcalNoted_put_stageRegs port true 1).regW (by simpa using ha)⟩
    · rw [doDlcalMeasure_eq hp count hn (dlcalGood_of_near hlo hhi hnear), if_neg (by simp), if_pos ⟨hlock, rfl⟩,
        hever, if_neg Bool.false_ne_true]
    · rw [State.po_put, State.dlcalNoted_po, Bool.or_true]
  case dlcalRegained =>
    intro s port count hon hp hlo hhi hnear hlock hever
    have hn : satN 0xFFFF count = count := by rw [satN_eq_min]; omega
    obtain ⟨hget, hcode⟩ := s.dlcalNoted_put_get port true (n := count) (v := 1) (by omega) (by decide)
    refine ⟨(s.dlcalNoted port count true).put (pPort port) PORT_DLCAL.locked 1, State.next_clocked hon ?_, hget, hcode⟩
    rw [doDlcalMeasure_eq hp count hn (dlcalGood_of_near hlo hhi hnear), if_neg (by simp), if_pos ⟨hlock, rfl⟩,
      hever, if_pos rfl]
  case mclkRefused =>
    intro s port v ht hp h
    refine State.next_writeWord ht (doPortMclkWrite_refused hp (h.imp_left fun ⟨hen, hsame⟩ => ⟨hen, ?_⟩))
    rwa [Bool.eq_false_iff, ne_eq, State.mclkSame_iff]
  case mclkTaken =>
    intro s port v ht hp hen hlo hhi hrun
    obtain ⟨t, heq, hget, hstart, hstand, hpwm, hregs⟩ := doPortMclkWrite_open hp hen hlo hhi hrun
    exact ⟨t, State.next_writeWord ht heq, hget, hstart, hstand, fun a ha => hregs.regW (by simpa using ha), hregs.frame_port hpwm⟩
  case mclkStopping =>
    intro s port v ht hp hen hrun hoff hdiv hdly halign hlo hhi
    have hsame := (s.mclkSame_iff port v.toNat).mpr ⟨hdiv, hdly, halign⟩
    refine ⟨_, State.next_writeWord ht (doPortMclkWrite_stopping (.inr hsame) hlo hhi hp hrun hoff), ?_, ?_, ?_, ?_,
      fun a ha => (s.mclkTaken_setPo_stageRegs port v.toNat _).regW (by simpa using ha)⟩
    · rw [State.get_setPo, State.mclkTaken_get _ _ _ (by decide), hoff]
    · rw [State.get_setPo, State.mclkTaken_run, hrun]
    · rw [State.po_setPo_same]
    · rw [State.po_setPo_same, State.po_of_port (s.mclkTaken_port port v.toNat)]
  case stopNot =>
    intro s port h
    refine State.next_of_eq ?_
    rw [State.clocked, doMclkStop_not h, ite_self]
  case ends =>
    intro s port b h
    exact State.mclkEnds_iff h
  case stops =>
    intro s port hon hp hstop hrun hen hends hwin
    obtain ⟨t, heq, hregs, hget, hm, hst, hpw⟩ := doMclkStop_stops hp hstop hrun hen hends hwin
    exact ⟨t, State.next_clocked hon heq, hget, hm, hst, fun a ha => hregs.regW (by simpa using ha), hpw, hregs.frame⟩

end Sys2Proof
end

section
/-! PROOF. The sinc³ decimator at a steady bitstream, and a run of equal bits. -/

namespace Sys2Proof.Machine

/-! Running sums. -/

theorem runningSums_eq (l : List Int) (a : Int) (q : List Int) :
    (l.foldl (fun (acc : Int × List Int) x => (acc.1 + x, (acc.1 + x) :: acc.2)) (a, q)).2.reverse =
      q.reverse ++ (List.range l.length).map (fun n => a + (l.take (n + 1)).sum) := by
  induction l generalizing a q with
  | nil => simp
  | cons x l ih =>
    rw [List.foldl_cons, ih, List.length_cons, List.range_succ_eq_map]
    simp [Function.comp_def, add_assoc]

/-- The sums of neighbours, from the running sums. -/
theorem boxSum_eq (osr : Nat) (l : List Int) : boxSum osr l =
    List.zipWith (fun a b => a - b) ((List.range l.length).map fun n => (l.take (n + 1)).sum)
      (List.replicate osr 0 ++ (List.range l.length).map fun n => (l.take (n + 1)).sum) := by
  simp only [boxSum, runningSums_eq, List.reverse_nil, List.nil_append, zero_add]

theorem length_boxSum (osr : Nat) (l : List Int) : (boxSum osr l).length = l.length := by
  simp [boxSum_eq]

/-- From sample osr - 1 on, the sum of the last osr samples. -/
theorem boxSum_getD {osr n : Nat} {l : List Int} (hn : n < l.length) (ho : osr ≤ n + 1) :
    (boxSum osr l).getD n 0 = (l.take (n + 1)).sum - (l.take (n + 1 - osr)).sum := by
  have hlen : n < (boxSum osr l).length := by rwa [length_boxSum]
  rw [List.getD_eq_getElem _ _ hlen]
  simp only [boxSum_eq, List.getElem_zipWith, List.getElem_map, List.getElem_range, List.getElem_append, List.length_replicate,
    List.getElem_replicate]
  split
  next h => rw [show n + 1 - osr = 0 by omega, List.take_zero, List.sum_nil]
  next h => rw [show n - osr + 1 = n + 1 - osr by omega]

/-! A list that is steady from a sample on. -/

/-- From index m on every entry is c. -/
def SteadyFrom (c : Int) (m : Nat) (l : List Int) : Prop := ∀ n, m ≤ n → n < l.length → l.getD n 0 = c

theorem SteadyFrom.sum_take {c : Int} {m : Nat} {l : List Int} (h : SteadyFrom c m l) {i j : Nat} (hm : m ≤ i) (hj : i + j ≤ l.length) :
    (l.take (i + j)).sum = (l.take i).sum + j * c := by
  induction j with
  | zero => simp
  | succ j ih =>
    have hlt : i + j < l.length := by omega
    have hlast := h (i + j) (by omega) hlt
    rw [List.getD_eq_getElem _ _ hlt] at hlast
    rw [← add_assoc, List.sum_take_succ _ _ hlt, hlast, ih (by omega)]
    push_cast
    ring

/-- The sums of osr neighbours are steady osr - 1 samples later. -/
theorem SteadyFrom.boxSum {c : Int} {m : Nat} {l : List Int} (h : SteadyFrom c m l) {osr : Nat} (ho : 0 < osr) :
    SteadyFrom (osr * c) (m + (osr - 1)) (boxSum osr l) := by
  intro n hm hn
  rw [length_boxSum] at hn
  have hsum := h.sum_take (i := n + 1 - osr) (j := osr) (by omega) (by omega)
  rw [show n + 1 - osr + osr = n + 1 by omega] at hsum
  rw [boxSum_getD hn (by omega), hsum]
  ring

/-! The mean of a steady bitstream (R145, R146). -/

/-- The value of a bit. -/
def bitLevel (b : Bool) : Int := if b then 1 else -1

theorem sinc3_steady {osr : Nat} (ho : 0 < osr) (n : Nat) (b : Bool) :
    SteadyFrom (osr * (osr * (osr * bitLevel b))) (0 + (osr - 1) + (osr - 1) + (osr - 1)) (sinc3 osr (List.replicate n b)) := by
  have hbits : SteadyFrom (bitLevel b) 0 ((List.replicate n b).map fun b => if b then 1 else -1) := by
    intro i _ hi
    rw [List.getD_eq_getElem _ _ hi, List.getElem_map, List.getElem_replicate]
    rfl
  exact ((hbits.boxSum ho).boxSum ho).boxSum ho

theorem length_sinc3 (osr : Nat) (bits : List Bool) : (sinc3 osr bits).length = bits.length := by
  simp [sinc3, length_boxSum]

theorem foldl_add_const {f : Nat → Int} {x : Int} {l : List Nat} (h : ∀ j ∈ l, f j = x) (a : Int) :
    l.foldl (fun n j => n + f j) a = a + l.length * x := by
  induction l generalizing a with
  | nil => simp
  | cons j l ih =>
    rw [List.foldl_cons, ih fun i hi => h i (by simp [hi]), h j (by simp), List.length_cons]
    push_cast
    ring

theorem sincMean_steady {osr k : Nat} (ho : 0 < osr) (hk : 3 ≤ k) (b : Bool) :
    sincMean osr k (List.replicate (k * osr) b) = bitLevel b := by
  have hy : ∀ j ∈ List.range (k - 2), (sinc3 osr (List.replicate (k * osr) b)).getD ((j + 3) * osr - 2) 0 =
      osr * (osr * (osr * bitLevel b)) := by
    intro j hj
    have hjk : j + 3 ≤ k := by rw [List.mem_range] at hj; omega
    have hlo : 3 * osr ≤ (j + 3) * osr := Nat.mul_le_mul_right _ (by omega)
    have hhi : (j + 3) * osr ≤ k * osr := Nat.mul_le_mul_right _ hjk
    refine sinc3_steady ho _ b _ (by omega) ?_
    rw [length_sinc3, List.length_replicate]
    omega
  have hpos : (((k - 2 : Nat) : Rat) * (osr : Rat) ^ 3) ≠ 0 := by
    have hk2 : ((k - 2 : Nat) : Rat) ≠ 0 := Nat.cast_ne_zero.mpr (by omega)
    have hosr : (osr : Rat) ≠ 0 := Nat.cast_ne_zero.mpr (by omega)
    positivity
  simp only [sincMean, foldl_add_const hy, List.length_range, zero_add]
  push_cast
  rw [div_eq_iff hpos]
  ring

/-! A stuck input (R147). -/

theorem stuckRun_replicate_same {b : Bool} {n m : Nat} (hm : m < 64) (h : 64 ≤ m + n) : stuckRun (List.replicate n b) (some b) m = true := by
  induction n generalizing m with
  | zero => omega
  | succ n ih =>
    rw [List.replicate_succ, stuckRun, if_pos rfl]
    by_cases hend : 64 ≤ m + 1
    · simp [hend]
    · rw [ih (by omega) (by omega), Bool.or_true]

theorem stuckRun_replicate {b : Bool} {n : Nat} (h : 64 ≤ n) (prev : Option Bool) (m : Nat) : stuckRun (List.replicate n b) prev m = true := by
  obtain ⟨n, rfl⟩ : ∃ k, n = k + 1 := ⟨n - 1, by omega⟩
  rw [List.replicate_succ, stuckRun]
  have hone : 1 ≤ if prev = some b then m + 1 else 1 := by split <;> omega
  by_cases hend : 64 ≤ if prev = some b then m + 1 else 1
  · rw [decide_eq_true hend, Bool.true_or]
  · rw [stuckRun_replicate_same (by omega) (by omega), Bool.or_true]

/-- Bits before a run do not hide it. -/
theorem stuckRun_append (l : List Bool) {r : List Bool} (h : ∀ prev m, stuckRun r prev m = true) (prev : Option Bool) (m : Nat) :
    stuckRun (l ++ r) prev m = true := by
  induction l generalizing prev m with
  | nil => exact h prev m
  | cons x l ih => rw [List.cons_append, stuckRun, ih, Bool.or_true]

end Sys2Proof.Machine
end

section
/-! PROOF. What a counting event of a PWM page leaves alone: the stages' records and the block words of their pages. -/

namespace Sys2Proof.Machine

/-- A block word of a PWM page. -/
abbrev StageWord (a : Nat) : Prop := pPwm 0 ≤ a ∧ a < pAle 0 ∧ 0x10 ≤ a % 0x100

/-- Nothing differs in the stages' records and the block words of the PWM pages. -/
structure StageKept (s₀ s : State) : Prop where
  regW : ∀ a, StageWord a → s.regW a = s₀.regW a
  pwm : s.pwm = s₀.pwm

theorem StageKept.refl (s : State) : StageKept s s := ⟨fun _ _ => rfl, rfl⟩

theorem not_stageWord_header {p : Nat} (hp : p % 0x100 = 0) {f : Fld} (hf : f.off < 0x10) : ¬StageWord (p + f.off) := by
  rintro ⟨-, -, h⟩
  omega

theorem not_stageWord_pProf (ch o : Nat) : ¬StageWord (pProf ch + o) := by
  simp only [StageWord, pProf, pAle]
  omega

theorem not_stageWord_pCore (c o : Nat) : ¬StageWord (pCore c + o) := by
  simp only [StageWord, pCore, pAle]
  omega

theorem pProf_mod (ch : Nat) : pProf ch % 0x100 = 0 := by unfold pProf; omega

section
variable {s₀ s t : State} (h : StageKept s₀ s)
include h

/-- The parts that posts, fault counters and the generators' records change. -/
theorem StageKept.others {prof wire heldPosts posted blocked fcNotify logq} : StageKept s₀ { s with
    prof := prof, wire := wire, heldPosts := heldPosts, posted := posted, blocked := blocked, fcNotify := fcNotify, logq := logq } :=
  ⟨h.regW, h.pwm⟩

theorem StageKept.ite {c : Prop} [Decidable c] (h' : StageKept s₀ t) : StageKept s₀ (if c then s else t) := by
  split <;> assumption

theorem StageKept.setPr {ch r} : StageKept s₀ (s.setPr ch r) := h.others
theorem StageKept.offerPost {q} : StageKept s₀ (s.offerPost q) := (h.ite h.others).ite h.others
theorem StageKept.pagePost {p tag} : StageKept s₀ (s.pagePost p tag) := h.offerPost
theorem StageKept.noteBlocked {p} : StageKept s₀ (s.noteBlocked p) := h.others

theorem StageKept.put {p : Nat} {f : Fld} (hf : ¬StageWord (p + f.off)) {v : Nat} : StageKept s₀ (s.put p f v) :=
  ⟨fun a ha => (State.regW_put_ne _ _ _ _ fun he => hf (he ▸ ha)).trans (h.regW a ha), h.pwm⟩

theorem StageKept.raiseNmiAll {src : Nat} : StageKept s₀ (s.raiseNmiAll src) :=
  overAll_induct h fun c _ h' => (h'.put (not_stageWord_pCore c _)).put (not_stageWord_pCore c _)

section
variable {p : Nat} (hp : p % 0x100 = 0)
include hp

theorem StageKept.setPend {bits : Nat} : StageKept s₀ (s.setPend p bits) :=
  have h1 := h.put (not_stageWord_header hp (f := PAGE_EVPEND.evpend) (by decide))
  h1.pagePost.others.ite h1

theorem StageKept.ev {k : Nat} : StageKept s₀ (s.ev p k) :=
  have h1 := h.put (not_stageWord_header hp (f := PAGE_EV.ev) (by decide))
  (h1.setPend hp).ite h1

theorem StageKept.fcBump : StageKept s₀ (s.fcBump p) :=
  ((h.put (not_stageWord_header hp (by decide))).put (not_stageWord_header hp (by decide))).ite h

end

theorem StageKept.stopAtOnce {ch hres : Nat} {cnt : State → State} (hk : ∀ t, StageKept s₀ t → StageKept s₀ (cnt t)) :
    StageKept s₀ (s.stopAtOnce ch hres cnt) := by
  have hf := not_stageWord_pProf ch
  unfold State.stopAtOnce
  extract_lets p r k v r1 r2 s1 lost s2
  have h1 : StageKept s₀ s1 := (((h.setPr.put (hf _)).put (hf _)).put (hf _)).ev (pProf_mod ch)
  have h2 : StageKept s₀ s2 := ((h1.put (hf _)).put (hf _)).ite h1
  exact (hk _ (((h2.put (hf _)).put (hf _)).ev (pProf_mod ch))).ite h2

theorem StageKept.blockPlain {p : Nat} : StageKept s₀ (s.blockPlain p) := by
  unfold State.blockPlain
  split
  exacts [h.noteBlocked.stopAtOnce fun _ h' => h', h.noteBlocked]

theorem StageKept.fcStepBy {p : Nat} (hp : p % 0x100 = 0) {blk : State → Nat → State}
    (hblk : ∀ t, StageKept s₀ t → StageKept s₀ (blk t p)) : StageKept s₀ (s.fcStepBy blk p).1 := by
  have h1 := (h.fcBump hp).put (not_stageWord_header hp (f := FC_STAT.lasting) (by decide)) (v := 1)
  simp only [State.fcStepBy]
  split
  · exact h1.pagePost.ite (h1.raiseNmiAll.ite (h1.others.ite ((hblk _ h1).ite h1)))
  · exact h.fcBump hp

theorem StageKept.pushLog {r : LogRec} : StageKept s₀ (s.pushLog r) := by
  have hp : pMem 3 % 0x100 = 0 := by decide
  have hlost : ∀ {t : State}, StageKept s₀ t → StageKept s₀ t.logLost := fun ht => (ht.put (by decide)).ev hp
  have h1 := (hlost h).fcStepBy hp fun _ ht => ht.blockPlain
  exact h.ite (h.others.ite (((hlost h1).fcBump hp).ite h1))

theorem StageKept.fcBy {p : Nat} (hp : p % 0x100 = 0) {blk : State → Nat → State}
    (hblk : ∀ t, StageKept s₀ t → StageKept s₀ (blk t p)) : StageKept s₀ (State.fcBy blk s p) :=
  have h1 := h.fcStepBy hp hblk
  h1.pushLog.ite h1

theorem StageKept.padCause {ch : Nat} : StageKept s₀ (s.padCause ch) :=
  (h.stopAtOnce fun _ h' => h'.fcBy (pProf_mod ch) fun _ ht => ht.blockPlain).ite h

theorem StageKept.evC {ch k : Nat} (hc : ch < 96) : StageKept s₀ (s.evC (pPwm ch) k) := by
  have hp : pPwm ch % 0x100 = 0 := by unfold pPwm; omega
  refine (h.ev hp).fcBy hp fun t ht => ?_
  have hblk : t.blockOutputs (pPwm ch) = (t.noteBlocked (pPwm ch)).padCause ch := by
    simp only [State.blockOutputs, show blkOf (pPwm ch) = .pwm ch from blkOf_pPwm hc (show 0 < 0x100 by decide)]
  rw [hblk]
  exact ht.noteBlocked.padCause

theorem StageKept.getI {p : Nat} {f : Fld} (hf : StageWord (p + f.off)) : s.getI p f = s₀.getI p f :=
  congrArg (fun w : Word => sint (f.hi + 1 - f.lo) (fldGet w.toNat f)) (h.regW _ hf)

end

end Sys2Proof.Machine
end

section
/-! PROOF. The results of the sigma-delta inputs, with their status and their events. -/

namespace Sys2Proof.Machine

/-! The word of the inputs with a property. -/

/-- A bit for each of the three inputs with a property. -/
def inputBits (q : Nat → Bool) : Nat := ((List.range 3).filter q).foldl (fun n i => n + 2 ^ i) 0

theorem inputBits_eq (q : Nat → Bool) : inputBits q = b2n (q 0) + 2 * b2n (q 1) + 4 * b2n (q 2) := by
  have hrange : List.range 3 = [0, 1, 2] := rfl
  rw [inputBits, hrange]
  cases h0 : q 0 <;> cases h1 : q 1 <;> cases h2 : q 2 <;> simp [h0, h1, h2, b2n]

theorem b2n_lt (b : Bool) : b2n b < 2 := by cases b <;> decide

theorem inputBits_lt (q : Nat → Bool) : inputBits q < 2 ^ 3 := by
  have h0 := b2n_lt (q 0)
  have h1 := b2n_lt (q 1)
  have h2 := b2n_lt (q 2)
  rw [inputBits_eq]
  omega

theorem bitN_inputBits (q : Nat → Bool) {i : Nat} (hi : i < 3) : bitN (inputBits q) i = q i := by
  rw [inputBits_eq]
  obtain rfl | rfl | rfl : i = 0 ∨ i = 1 ∨ i = 2 := by omega
  all_goals cases q 0 <;> cases q 1 <;> cases q 2 <;> rfl

/-! The results (R146, R147). -/

/-- The results of some inputs written. -/
def State.sdShown (s : State) (ch : Nat) (v : Nat → Int) (l : List Nat) : State :=
  l.foldl (fun u i => u.putSat (pPwm ch) (PWM_SD_RES.i i) (v i)) s

theorem State.sdShown_regsOnly (s : State) (ch : Nat) (v : Nat → Int) {l : List Nat} (hl : ∀ i ∈ l, i < 3) :
    RegsOnly [pPwm ch + 0x30, pPwm ch + 0x31, pPwm ch + 0x32] s (s.sdShown ch v l) := by
  induction l generalizing s with
  | nil => exact RegsOnly.refl s _
  | cons i l ih =>
    have hi : i < 3 := hl i (by simp)
    have hput : RegsOnly [pPwm ch + 0x30, pPwm ch + 0x31, pPwm ch + 0x32] s (s.putSat (pPwm ch) (PWM_SD_RES.i i) (v i)) :=
      (RegsOnly.refl s _).put _ (by simp; omega)
    exact hput.trans (ih _ fun j hj => hl j (by simp [hj]))

theorem State.getI_putSat_same (s : State) (p : Nat) (f : Fld) (h : f.lo ≤ f.hi) (h36 : f.hi < 36) (v : Int) :
    (s.putSat p f v).getI p f = clampI (-(2 ^ (f.hi - f.lo))) (2 ^ (f.hi - f.lo) - 1) v := by
  have hpow : (0 : Int) < 2 ^ (f.hi - f.lo) := by positivity
  obtain ⟨hlo, hhi⟩ := clampI_bounds (show -(2 ^ (f.hi - f.lo)) ≤ (2 ^ (f.hi - f.lo) - 1 : Int) by omega) v
  rw [State.putSat, State.getI_putI_same _ _ _ h h36 hlo (by omega)]

theorem State.getI_putSat_ne (s : State) (p : Nat) {f g : Fld} (h : p + g.off ≠ p + f.off) (v : Int) :
    (s.putSat p f v).getI p g = s.getI p g := by
  rw [State.getI, State.putSat, State.putI, State.get_put_word _ _ _ _ _ _ h, State.getI]

/-- The result of each of the inputs, limited to its word. -/
theorem State.getI_sdShown (s : State) (ch : Nat) (v : Nat → Int) {l : List Nat} {i : Nat} (hi : i ∈ l ∨
    s.getI (pPwm ch) (PWM_SD_RES.i i) = clampI (-(2 ^ 35)) (2 ^ 35 - 1) (v i)) :
    (s.sdShown ch v l).getI (pPwm ch) (PWM_SD_RES.i i) = clampI (-(2 ^ 35)) (2 ^ 35 - 1) (v i) := by
  induction l generalizing s with
  | nil => exact hi.resolve_left List.not_mem_nil
  | cons j l ih =>
    rw [State.sdShown, List.foldl_cons, ← State.sdShown]
    refine ih _ ?_
    by_cases hj : i = j
    · subst hj
      exact .inr (State.getI_putSat_same _ _ _ (by simp) (by simp) _)
    · rw [State.getI_putSat_ne _ _ (by simp; omega)]
      exact hi.imp_left fun hm => (List.mem_cons.mp hm).resolve_left hj

/-- The values of the results. -/
abbrev State.sdValues (s : State) (ch osr k : Nat) (bits : List (List Bool)) (i : Nat) : Int :=
  s.sdValue ch i (sincMean osr k (bits.getD i []))

/-- The enabled inputs whose results saturate, and those that are stuck. -/
abbrev State.sdSat (s : State) (ch osr k inen : Nat) (bits : List (List Bool)) : Nat :=
  inputBits fun i => outS36 (s.sdValues ch osr k bits i) && bitN inen i

abbrev sdStuck (inen : Nat) (bits : List (List Bool)) : Nat := inputBits fun i => stuckRun (bits.getD i []) none 0 && bitN inen i

/-- The results written with their status. -/
def State.sdNoted (s : State) (ch osr k inen : Nat) (warm : Bool) (bits : List (List Bool)) : State :=
  ((((s.sdShown ch (s.sdValues ch osr k bits) ((List.range 3).filter (bitN inen))).put (pPwm ch) PWM_SD_STAT.sat
    (s.sdSat ch osr k inen bits)).put (pPwm ch) PWM_SD_STAT.stuck (sdStuck inen bits)).put (pPwm ch) PWM_SD_STAT.valid
      (b2n (warm && sdStuck inen bits == 0))).incMod (pPwm ch) PWM_SD_STAT.seq

theorem State.sdResults_eq (s : State) (ch osr k inen : Nat) (warm : Bool) (bits : List (List Bool)) :
    s.sdResults ch osr k inen warm bits =
      if sdStuck inen bits ≠ 0 then
        (if s.sdSat ch osr k inen bits ≠ 0 then (s.sdNoted ch osr k inen warm bits).ev (pPwm ch) 13
          else s.sdNoted ch osr k inen warm bits).evC (pPwm ch) 12
      else if s.sdSat ch osr k inen bits ≠ 0 then (s.sdNoted ch osr k inen warm bits).ev (pPwm ch) 13
      else s.sdNoted ch osr k inen warm bits := by
  simp only [State.sdResults, List.foldl_map, List.filter_map, List.filter_filter, Function.comp_def]
  rfl

section
variable (s : State) (ch osr k inen : Nat) (warm : Bool) (bits : List (List Bool))

theorem State.sdNoted_regsOnly : RegsOnly [pPwm ch + 0x30, pPwm ch + 0x31, pPwm ch + 0x32, pPwm ch + 0x33] s
    (s.sdNoted ch osr k inen warm bits) := by
  have hl : ∀ i ∈ (List.range 3).filter (bitN inen), i < 3 := fun i hi => List.mem_range.mp (List.mem_filter.mp hi).1
  have hshown := (s.sdShown_regsOnly ch (s.sdValues ch osr k bits) hl).mono
    (bs := [pPwm ch + 0x30, pPwm ch + 0x31, pPwm ch + 0x32, pPwm ch + 0x33]) (by simp)
  exact (((hshown.put _ (by simp)).put _ (by simp)).put _ (by simp)).put _ (by simp)

/-- The status with the results. -/
theorem State.sdNoted_stat : (s.sdNoted ch osr k inen warm bits).get (pPwm ch) PWM_SD_STAT.sat = s.sdSat ch osr k inen bits ∧
    (s.sdNoted ch osr k inen warm bits).get (pPwm ch) PWM_SD_STAT.stuck = sdStuck inen bits ∧
    (s.sdNoted ch osr k inen warm bits).get (pPwm ch) PWM_SD_STAT.valid = b2n (warm && sdStuck inen bits == 0) ∧
    (s.sdNoted ch osr k inen warm bits).get (pPwm ch) PWM_SD_STAT.seq = (s.get (pPwm ch) PWM_SD_STAT.seq + 1) % 2 ^ 16 := by
  have hl : ∀ i ∈ (List.range 3).filter (bitN inen), i < 3 := fun i hi => List.mem_range.mp (List.mem_filter.mp hi).1
  have hseq := (s.sdShown_regsOnly ch (s.sdValues ch osr k bits) hl).get (p := pPwm ch) (f := PWM_SD_STAT.seq) (by simp)
  have hsat := inputBits_lt fun i => outS36 (s.sdValues ch osr k bits i) && bitN inen i
  have hstuck := inputBits_lt fun i => stuckRun (bits.getD i []) none 0 && bitN inen i
  have hne : ∀ (t : State) (v : Nat) (f g : Fld), f.lo ≤ f.hi ∧ f.hi < 36 ∧ g.lo ≤ g.hi ∧ f.Apart g →
      (t.put (pPwm ch) f v).get (pPwm ch) g = t.get (pPwm ch) g :=
    fun t v f g ⟨hf, h36, hg, hfg⟩ => t.get_put_field _ _ _ _ _ hf h36 hg hfg
  rw [State.sdNoted]
  refine ⟨?_, ?_, ?_, ?_⟩
  · rw [State.incMod, hne _ _ _ _ (by decide), hne _ _ _ _ (by decide), hne _ _ _ _ (by decide)]
    exact State.get_put_of_lt _ _ _ (by decide) (by decide) hsat
  · rw [State.incMod, hne _ _ _ _ (by decide), hne _ _ _ _ (by decide)]
    exact State.get_put_of_lt _ _ _ (by decide) (by decide) hstuck
  · rw [State.incMod, hne _ _ _ _ (by decide)]
    exact State.get_put_of_lt _ _ _ (by decide) (by decide) (b2n_lt _)
  · rw [State.get_incMod_same _ _ _ (by decide) (by decide), hne _ _ _ _ (by decide), hne _ _ _ _ (by decide), hne _ _ _ _ (by decide), hseq]
    rfl

/-- The events of the results leave them and the stages. -/
theorem State.sdResults_kept (hc : ch < 96) : StageKept (s.sdNoted ch osr k inen warm bits) (s.sdResults ch osr k inen warm bits) := by
  have h0 := StageKept.refl (s.sdNoted ch osr k inen warm bits)
  have h1 := (h0.ev (p := pPwm ch) (by unfold pPwm; omega) (k := 13)).ite h0 (c := s.sdSat ch osr k inen bits ≠ 0)
  rw [State.sdResults_eq]
  exact (h1.evC hc).ite h1

theorem State.sdResults_pw (hc : ch < 96) (j : Nat) : (s.sdResults ch osr k inen warm bits).pw j = s.pw j := by
  have hnoted : (s.sdNoted ch osr k inen warm bits).pwm = s.pwm := by rw [(s.sdNoted_regsOnly ch osr k inen warm bits).2]
  exact State.pw_of_pwm ((s.sdResults_kept ch osr k inen warm bits hc).pwm.trans hnoted) j

theorem State.getI_sdResults (hc : ch < 96) {i : Nat} (hi : i < 3) (hon : bitN inen i = true) :
    (s.sdResults ch osr k inen warm bits).getI (pPwm ch) (PWM_SD_RES.i i) =
      clampI (-(2 ^ 35)) (2 ^ 35 - 1) (s.sdValues ch osr k bits i) := by
  have hword : StageWord (pPwm ch + (PWM_SD_RES.i i).off) := by
    simp only [StageWord, pPwm, pAle]
    omega
  have hshown := s.getI_sdShown ch (s.sdValues ch osr k bits) (l := (List.range 3).filter (bitN inen)) (i := i)
    (.inl (List.mem_filter.mpr ⟨List.mem_range.mpr hi, hon⟩))
  have hne : ∀ (t : State) (f : Fld) (v : Nat), f.off = 0x33 →
      (t.put (pPwm ch) f v).getI (pPwm ch) (PWM_SD_RES.i i) = t.getI (pPwm ch) (PWM_SD_RES.i i) := fun t f v hf => by
    rw [State.getI, State.get_put_word _ _ _ _ _ _ (by simp [hf]; omega), State.getI]
  rw [(s.sdResults_kept ch osr k inen warm bits hc).getI hword, State.sdNoted, State.incMod, hne _ _ _ rfl, hne _ _ _ rfl, hne _ _ _ rfl,
    hne _ _ _ rfl, hshown]

end

end Sys2Proof.Machine
end

section
/-! PROOF. Windows, continuous results and SD_CFG_WRITE, and with them the statement on the sigma-delta inputs. -/

namespace Sys2Proof.Machine

/-! Windows and continuous results (R144, R148). -/

theorem bitsFit_iff (inen n : Nat) (bits : List (List Bool)) :
    bitsFit inen n bits = true ↔ ∀ i < 3, bitN inen i = true → (bits.getD i []).length = n := by
  simp only [bitsFit, List.all_eq_true, List.mem_range, Bool.or_eq_true, Bool.not_eq_true', beq_iff_eq]
  exact forall₂_congr fun i _ => by cases bitN inen i <;> simp

section
variable {s : State} {ch : Nat} (b0 b1 b2 : List Bool)

theorem doSdWindowClose_none (h : (s.pw ch).win = none) : doSdWindowClose ch b0 b1 b2 s = s := by
  simp only [doSdWindowClose, h]

section
variable {w : SdWin} (h : (s.pw ch).win = some w)
include h

theorem doSdWindowClose_some : doSdWindowClose ch b0 b1 b2 s =
    if 96 ≤ ch ∨ s.now < s.windowCloses ch w ∨ bitsFit w.inen (w.k * w.osr) [b0, b1, b2] = false then s
    else (((s.setPw ch { s.pw ch with win := none }).sdResults ch w.osr w.k w.inen w.warm [b0, b1, b2]).ev (pPwm ch) 10).aleResult
      ch w.inen true s.now (s.kernelCentre ch w) := by
  simp only [doSdWindowClose, h]

theorem doSdWindowClose_early (ht : s.now < s.windowCloses ch w) : doSdWindowClose ch b0 b1 b2 s = s := by
  rw [doSdWindowClose_some b0 b1 b2 h, if_pos (.inr (.inl ht))]

theorem doSdWindowClose_unfit {i : Nat} (hi : i < 3) (hon : bitN w.inen i = true) (hlen : ([b0, b1, b2].getD i []).length ≠ w.k * w.osr) :
    doSdWindowClose ch b0 b1 b2 s = s := by
  rw [doSdWindowClose_some b0 b1 b2 h]
  refine if_pos (.inr (.inr (Bool.eq_false_iff.mpr fun hfit => ?_)))
  exact hlen ((bitsFit_iff _ _ _).mp hfit i hi hon)

theorem doSdWindowClose_closes (hc : ch < 96) (hfit : ∀ i < 3, bitN w.inen i = true → ([b0, b1, b2].getD i []).length = w.k * w.osr)
    (ht : s.windowCloses ch w ≤ s.now) : doSdWindowClose ch b0 b1 b2 s =
      (((s.setPw ch { s.pw ch with win := none }).sdResults ch w.osr w.k w.inen w.warm [b0, b1, b2]).ev (pPwm ch) 10).aleResult
        ch w.inen true s.now (s.kernelCentre ch w) := by
  rw [doSdWindowClose_some b0 b1 b2 h, (bitsFit_iff _ _ _).mpr hfit, if_neg (by simp; omega)]

/-- A window that MCLK leaves open closes with an invalid result. -/
theorem State.loseWindow_open : ∃ u : State,
    s.loseWindow ch = (u.ev (pPwm ch) 10).aleResult ch w.inen true s.now (s.kernelCentre ch w) ∧ (u.pw ch).win = none ∧
      u.get (pPwm ch) PWM_SD_STAT.valid = 0 ∧ u.get (pPwm ch) PWM_SD_STAT.seq = (s.get (pPwm ch) PWM_SD_STAT.seq + 1) % 2 ^ 16 := by
  refine ⟨(((s.setPw ch { s.pw ch with contN := 0 }).setPw ch { s.pw ch with contN := 0, win := none }).put
    (pPwm ch) PWM_SD_STAT.valid 0).incMod (pPwm ch) PWM_SD_STAT.seq, ?_, ?_, ?_, ?_⟩
  · simp only [State.loseWindow, State.pw_setPw_same, h]
    rfl
  · rw [State.incMod, State.pw_put, State.pw_put, State.pw_setPw_same]
  · rw [State.incMod, State.get_put_field _ _ _ _ _ _ (by decide) (by decide) (by decide) (by decide)]
    exact State.get_put_of_lt _ _ _ (by decide) (by decide) (by decide)
  · rw [State.get_incMod_same _ _ _ (by decide) (by decide),
      State.get_put_field _ _ _ _ _ _ (by decide) (by decide) (by decide) (by decide), State.get_setPw, State.get_setPw]
    rfl

end

theorem doSdContinuousResult_not (h : s.get (pPwm ch) PAGE_CTL.en = 0 ∨ s.get (pPwm ch) PWM_SD_CFG.mode ≠ 2 ∨ (s.po (ch / 8)).mclk = none ∨
    s.contSamples ch < ((s.pw ch).contN + 3) * s.get (pPwm ch) PWM_SD_CFG.osr) : doSdContinuousResult ch b0 b1 b2 s = s := by
  rw [doSdContinuousResult]
  refine if_pos (.inr ?_)
  rcases h with h | h | h | h
  exacts [.inl h, .inr (.inl h), .inr (.inr (.inl h)), .inr (.inr (.inr (.inl h)))]

theorem doSdContinuousResult_results (hc : ch < 96) (hen : s.get (pPwm ch) PAGE_CTL.en = 1) (hmode : s.get (pPwm ch) PWM_SD_CFG.mode = 2)
    (hm : (s.po (ch / 8)).mclk ≠ none) (hn : ((s.pw ch).contN + 3) * s.get (pPwm ch) PWM_SD_CFG.osr ≤ s.contSamples ch)
    (hfit : ∀ i < 3, bitN (s.get (pPwm ch) PWM_SD_CFG.inen) i = true →
      ([b0, b1, b2].getD i []).length = 3 * s.get (pPwm ch) PWM_SD_CFG.osr) :
    doSdContinuousResult ch b0 b1 b2 s = ((s.setPw ch { s.pw ch with contN := (s.pw ch).contN + 1 }).sdResults ch
      (s.get (pPwm ch) PWM_SD_CFG.osr) 3 (s.get (pPwm ch) PWM_SD_CFG.inen)
      (decide (256 ≤ s.contFirst ch + (s.pw ch).contN * s.get (pPwm ch) PWM_SD_CFG.osr)) [b0, b1, b2]).aleResult ch
        (s.get (pPwm ch) PWM_SD_CFG.inen) false s.now 0 := by
  rw [doSdContinuousResult]
  refine if_neg ?_
  rintro (h | h | h | h | h | h)
  · omega
  · omega
  · exact h hmode
  · exact hm h
  · omega
  · exact absurd (h.symm.trans ((bitsFit_iff _ _ _).mpr hfit)) (by decide)

/-! The open of a window (R144). -/

theorem State.openWindow_ignored (hen : s.get (pPwm ch) PAGE_CTL.en = 1)
    (h : s.get (pPwm ch) PWM_SD_CFG.mode ≠ 1 ∨ (s.pw ch).win ≠ none) : s.openWindow ch = s.ev (pPwm ch) 11 := by
  rw [State.openWindow, if_neg (by omega : ¬s.get (pPwm ch) PAGE_CTL.en = 0)]
  exact if_pos (h.imp_right fun hw => .inl (Option.isSome_iff_ne_none.mpr hw))

theorem State.openWindow_opens (hen : s.get (pPwm ch) PAGE_CTL.en = 1) (hmode : s.get (pPwm ch) PWM_SD_CFG.mode = 1)
    (hw : (s.pw ch).win = none) (hrun : s.get (pPort (ch / 8)) PORT_MCLK.run = 1) : s.openWindow ch = s.setPw ch { s.pw ch with
      win := some { k := s.get (pPwm ch) PWM_SD_CFG.k, osr := s.get (pPwm ch) PWM_SD_CFG.osr, inen := s.get (pPwm ch) PWM_SD_CFG.inen,
                    warm := decide (256 ≤ s.mclkPeriods (ch / 8)), first := s.instantFrom (ch / 8) s.now } } := by
  rw [State.openWindow, if_neg (by omega : ¬s.get (pPwm ch) PAGE_CTL.en = 0), if_neg (by simp [hmode, hw, hrun])]
  simp only [if_pos hrun]

end

/-- The first instant of MCLK at or after an edge: at most a period after it, or the first of all. -/
theorem State.instantFrom_spec {s : State} {q t b : Nat} (h : (s.po q).mclk = some b) (hdiv : 0 < (s.po q).div) :
    t ≤ s.instantFrom q t ∧ b ≤ s.instantFrom q t ∧ (s.instantFrom q t - b) % (s.po q).div = 0 ∧
      (b < t → s.instantFrom q t < t + (s.po q).div) := by
  have heq : s.instantFrom q t = if t ≤ b then b else b + (t - b + (s.po q).div - 1) / (s.po q).div * (s.po q).div := by
    simp only [State.instantFrom, h]
  rw [heq]
  generalize (s.po q).div = d at hdiv
  split
  next hle => exact ⟨hle, le_refl b, by simp, fun hlt => by omega⟩
  next hgt =>
    have hsplit := Nat.div_add_mod' (t - b + d - 1) d
    have hrest := Nat.mod_lt (t - b + d - 1) hdiv
    refine ⟨by omega, by omega, ?_, fun _ => by omega⟩
    rw [Nat.add_sub_cancel_left, Nat.mul_mod_left]

/-! SD_CFG_WRITE (R148, R155). -/

/-- The fields of the word, each of them RW. -/
def sdCfgFields : List Fld := [PWM_SD_CFG.mode, PWM_SD_CFG.osr, PWM_SD_CFG.k, PWM_SD_CFG.inen]

theorem fieldsFit_sdCfgFields : FieldsFit sdCfgFields := by decide

theorem wordFields_sdCfg {ch : Nat} (hc : ch < 96) : wordFields (pPwm ch + 0x28) = sdCfgFields := by
  have ho : (pPwm ch + 0x28) % 0x100 = 0x28 := by unfold pPwm; omega
  simp only [wordFields, blkOf_pPwm hc (show 0x28 < 0x100 by decide), Blk.offset, ho]
  rfl

theorem State.plainWrite_sdCfg {s : State} {ch : Nat} (hc : ch < 96) (ini v : Nat) : s.plainWrite ini (pPwm ch + 0x28) v =
    s.setReg (pPwm ch + 0x28) (takeFields sdCfgFields (s.reg (pPwm ch + 0x28)) v) := by
  have h := s.mergeWord_taken (ini := ini) (a := pPwm ch + 0x28) (by rw [wordFields_sdCfg hc]; simp [sdCfgFields, State.Reaches]) v
  rw [wordFields_sdCfg hc] at h
  rw [State.plainWrite, h]
  rfl

section
variable {s : State} {ch : Nat} {v : Word} (hc : ch < 96)
include hc

theorem doSdCfgWrite_refused (h : fldGet v.toNat PWM_SD_CFG.mode = 3 ∨ fldGet v.toNat PWM_SD_CFG.osr < 32 ∨
    256 < fldGet v.toNat PWM_SD_CFG.osr ∨ fldGet v.toNat PWM_SD_CFG.k < 3) : doSdCfgWrite ch v s = s.ev (pPwm ch) 7 := by
  rw [doSdCfgWrite, if_neg (by omega)]
  exact if_pos h

theorem doSdCfgWrite_taken (h : ¬(fldGet v.toNat PWM_SD_CFG.mode = 3 ∨ fldGet v.toNat PWM_SD_CFG.osr < 32 ∨
    256 < fldGet v.toNat PWM_SD_CFG.osr ∨ fldGet v.toNat PWM_SD_CFG.k < 3)) : doSdCfgWrite ch v s =
      (s.setReg (pPwm ch + 0x28) (takeFields sdCfgFields (s.reg (pPwm ch + 0x28)) v.toNat)).setPw ch { s.pw ch with
        cont := if fldGet v.toNat PWM_SD_CFG.mode = 2 then some s.now else none, contN := 0 } := by
  rw [doSdCfgWrite, if_neg (by omega)]
  refine (if_neg h).trans ?_
  rw [State.plainWrite_sdCfg hc]
  simp only [State.pw_setReg]

end

end Sys2Proof.Machine

namespace Sys2Proof

open Machine

/-- Settles O29, with the decimator's running sums at a steady bitstream, and the frame of the events that results record. -/
theorem sigmaDelta : Obligations.SigmaDelta := by
  refine ⟨?closed, ?closes, ?unfit, ?early, fun _ _ _ => rfl, ?results, ?status, ?means, ?stuck, ?contOff, ?cont, ?contNot, ?cfgRefused,
    ?cfgTaken, ?ignored, ?opens, ?instants, ?lost⟩
  case closed =>
    intro s ch b0 b1 b2 h
    refine State.next_of_eq ?_
    rw [State.clocked, doSdWindowClose_none b0 b1 b2 h, ite_self]
  case closes =>
    intro s ch b0 b1 b2 w hon hc h hfit ht
    refine ⟨_, State.next_clocked hon (doSdWindowClose_closes b0 b1 b2 h hc hfit ht), rfl, ?_⟩
    rw [State.sdResults_pw _ _ _ _ _ _ _ hc, State.pw_setPw_same]
  case unfit =>
    intro s ch b0 b1 b2 w i h hi hon hlen
    refine State.next_of_eq ?_
    rw [State.clocked, doSdWindowClose_unfit b0 b1 b2 h hi hon hlen, ite_self]
  case early =>
    intro s ch b0 b1 b2 w h ht
    refine State.next_of_eq ?_
    rw [State.clocked, doSdWindowClose_early b0 b1 b2 h ht, ite_self]
  case results =>
    intro s ch osr k inen warm bits i hc hi hon
    exact s.getI_sdResults ch osr k inen warm bits hc hi hon
  case status =>
    intro s ch osr k inen warm bits _
    obtain ⟨hsat, hstuck, hvalid, hseq⟩ := s.sdNoted_stat ch osr k inen warm bits
    refine ⟨s.sdNoted ch osr k inen warm bits, decide (s.sdSat ch osr k inen bits ≠ 0), decide (sdStuck inen bits ≠ 0), ?_, ?_, ?_, hseq,
      fun i hi => ?_, fun i hi => ?_, ?_, (s.sdNoted_regsOnly ch osr k inen warm bits).1⟩
    · simp only [decide_eq_true_eq]
      exact s.sdResults_eq ch osr k inen warm bits
    · rw [hsat, decide_eq_true_eq]
    · rw [hstuck, decide_eq_true_eq]
    · rw [hstuck, bitN_inputBits _ hi, Bool.and_comm]
    · rw [hsat, bitN_inputBits _ hi, Bool.and_comm]
    · rw [State.flag_iff, hvalid, hstuck]
      cases warm <;> simp [b2n]
  case means =>
    intro osr k ho hk
    exact ⟨by rw [sincMean_steady ho hk]; rfl, by rw [sincMean_steady ho hk]; rfl⟩
  case stuck =>
    intro l b n hn
    exact stuckRun_append l (stuckRun_replicate hn) none 0
  case contOff =>
    intro s ch b0 b1 b2 h
    refine State.next_of_eq ?_
    rw [State.clocked, doSdContinuousResult_not b0 b1 b2 (h.imp_right .inl), ite_self]
  case cont =>
    intro s ch b0 b1 b2 hon hc hen hmode hm hn hfit
    exact State.next_clocked hon (doSdContinuousResult_results b0 b1 b2 hc hen hmode hm hn hfit)
  case contNot =>
    intro s ch b0 b1 b2 h
    refine State.next_of_eq ?_
    rw [State.clocked, doSdContinuousResult_not b0 b1 b2 (.inr (.inr h.symm)), ite_self]
  case cfgRefused =>
    intro s ch v ht hc h
    exact State.next_writeWord ht (doSdCfgWrite_refused hc h)
  case cfgTaken =>
    intro s ch v ht hc hmode hlo hhi hk
    have hregs := (RegsOnly.setReg s (pPwm ch + 0x28) (takeFields sdCfgFields (s.reg (pPwm ch + 0x28)) v.toNat)).stageRegs
    refine ⟨_, State.next_writeWord ht (doSdCfgWrite_taken hc (by omega)), fun f hf => ?_, ?_, ?_, ?_,
      fun a ha => hregs.setPw.regW (by simpa using ha), hregs.setPw.frame_pwm rfl⟩
    · have hoff : f.off = 0x28 := (by decide : ∀ f ∈ sdCfgFields, f.off = 0x28) f hf
      rw [State.get_setPw, State.get_setReg_same _ (by rw [hoff]) (takeFields_lt fieldsFit_sdCfgFields _ (s.reg_lt _)),
        fldGet_takeFields_mem fieldsFit_sdCfgFields hf]
    · rw [State.pw_setPw_same]
      split <;> simp_all
    · rw [State.pw_setPw_same]
    · rw [State.pw_setPw_same]
  case ignored =>
    intro s ch hen h
    exact State.openWindow_ignored hen h
  case opens =>
    intro s ch hen hmode hw hrun
    exact State.openWindow_opens hen hmode hw hrun
  case instants =>
    intro s q t b h hdiv
    exact State.instantFrom_spec h hdiv
  case lost =>
    intro s ch w h
    exact State.loseWindow_open h

end Sys2Proof
end

section
/-! PROOF. The axis loop engine: a computation of mode 1 on an invalid result, the register words that its end writes, and a mask of
legs with a bit far above the four legs, whose compare is ALE_SEQ. -/

namespace Sys2Proof.Machine

/-! The register words outside a page. -/

/-- No register word outside the page at `p` differs. -/
def PageOnly (p : Nat) (s t : State) : Prop := ∀ a, a < p ∨ p + 0x100 ≤ a → t.regW a = s.regW a

theorem PageOnly.refl (p : Nat) (s : State) : PageOnly p s s := fun _ _ => rfl

section
variable {p : Nat} {s t : State} (h : PageOnly p s t)
include h

theorem PageOnly.get {q : Nat} {f : Fld} (hq : q + f.off < p ∨ p + 0x100 ≤ q + f.off) : t.get q f = s.get q f :=
  congrArg (fun w : Word => fldGet w.toNat f) (h _ hq)

theorem PageOnly.setAl {ch : Nat} {r : AleSt} : PageOnly p s (t.setAl ch r) := h

theorem PageOnly.put {f : Fld} {v : Nat} (hf : f.off < 0x100) : PageOnly p s (t.put p f v) :=
  fun a ha => (State.regW_put_ne _ _ _ _ (by omega)).trans (h a ha)

theorem PageOnly.show34 {f : Fld} {v : Rat} (hf : f.off < 0x100) : PageOnly p s (t.show34 p f v) := h.put hf

theorem PageOnly.ev {k : Nat} : PageOnly p s (t.ev p k) :=
  fun a ha => (State.regW_ev_ne _ _ _ (by omega) (by omega)).trans (h a ha)

theorem PageOnly.foldl_ev (l : List Nat) : PageOnly p s (l.foldl (fun (u : State) b => u.ev p b) t) := by
  induction l generalizing t with
  | nil => exact h
  | cons b l ih => exact ih h.ev

end

/-- What a computation gave is shown in its own page. -/
theorem PageOnly.aleShow {s t : State} {ch : Nat} (h : PageOnly (pAle ch) s t) (r : AleRes) (dc : Bool) :
    PageOnly (pAle ch) s (t.aleShow ch r dc) := by
  unfold State.aleShow
  extract_lets p s1 s2 pair s3 s4
  have hpair {f g : Fld} (hf : f.off < 0x100) (hg : g.off < 0x100) (o : Option (Rat × Rat)) {u : State} (hu : PageOnly p s u) :
      PageOnly p s (pair f g o u) := by
    cases o with
    | none => exact hu
    | some y => exact (hu.show34 hf).show34 hg
  have h2 : PageOnly p s s2 := ((((h.put (by decide)).put (by decide)).put (by decide)).put (by decide)).put (by decide)
  have h4 : PageOnly p s s4 :=
    hpair (by decide) (by decide) _ (hpair (by decide) (by decide) _ (hpair (by decide) (by decide) _ h2))
  split
  next => exact h4
  next v _ => exact (h4.put (f := ALE_ANG.th) (by decide)).put (f := ALE_FE.f) (by decide)

/-- In a period of no taps a compare of 0 is not clamped. -/
theorem State.dutyClamp_zero (s : State) (ch : Nat) : s.dutyClamp ch 0 0 = (0, false) := by
  have hround : roundAway 0 = 0 := by simp [roundAway, show (2⁻¹ : Rat).floor = 0 by decide +kernel]
  simp [State.dutyClamp, clampI, hround]

theorem PageOnly.dutyOk {s t : State} {ch : Nat} (h : PageOnly (pAle ch) s t) (m : Nat) : t.dutyOk ch m = s.dutyOk ch m := by
  have hget (f : Fld) (hf : f.off < 0x100) : t.get (pPwm ch) f = s.get (pPwm ch) f := by
    have hlt : pPwm ch + f.off < pAle ch := by
      unfold pPwm pAle
      omega
    exact h.get (.inl hlt)
  simp only [State.dutyOk, hget PWM_PER.per (by decide), hget PWM_ENV_DUTY.lo (by decide), hget PWM_ENV_DUTY.hi (by decide)]

theorem State.show34_ale (s : State) (p : Nat) (f : Fld) (v : Rat) : (s.show34 p f v).ale = s.ale := State.putSat_ale _ _ _ _

theorem State.aleShow_ale (s : State) (ch : Nat) (r : AleRes) (dc : Bool) : (s.aleShow ch r dc).ale = s.ale := by
  unfold State.aleShow
  extract_lets p s1 s2 pair s3 s4
  have hpair (f g : Fld) (o : Option (Rat × Rat)) (u : State) : (pair f g o u).ale = u.ale := by
    cases o with
    | none => rfl
    | some y => exact (State.show34_ale _ _ _ _).trans (State.show34_ale _ _ _ _)
  have h4 : s4.ale = s.ale := by simp only [s4, s3, s2, s1, hpair, State.put_ale]
  split
  · exact h4
  · exact h4

/-- An invalid result that does not reach the bound on its streak only records event 4. -/
theorem State.aleInvalid_below {s : State} {ch mx : Nat} (h : (s.al ch).inval + 1 < mx) : s.aleInvalid ch mx =
    (s.setAl ch { s.al ch with inval := (s.al ch).inval + 1 }).ev (pAle ch) 4 := by
  simp [State.aleInvalid, Nat.not_le.mpr h]

/-! A computation of mode 1 on an invalid result (R180). -/

theorem AleSnap.compute_invalid {x : AleSnap} {a : AleSt} {y : Rat × Rat} (hist : Bool) (hs : x.suits = true)
    (hm : x.get ALE_CFG.mode = 1) (hv : x.valid = false) (hy : x.angle { a with mode := 1 } = some y) :
    x.compute a hist = x.invalid (x.noteMove (x.keepAngle { a with mode := 1 }) y.2) (hist && a.mode == 1) y.1 y.2 := by
  simp [AleSnap.compute, AleSnap.streak, hs, hm, hv, hy]

/-! The end of a computation (R173). -/

/-- The state in which the compares of a computation land: its result shown, and its events recorded. -/
def State.aleNoted (s : State) (ch : Nat) (x : AleSnap) (r : AleRes) (dc : Bool) : State :=
  let s2 := r.evs.foldl (fun (u : State) b => u.ev (pAle ch) b) ((s.setAl ch { r.st with run := none }).aleShow ch r dc)
  let s3 := if r.inval then s2.aleInvalid ch (x.get ALE_CFG.maxinv) else s2
  if dc then s3.ev (pAle ch) 12 else s3

/-- The result of a computation on an invalid result is shown in the page alone, below the bound on its streak. -/
theorem State.aleNoted_pageOnly (s : State) {ch : Nat} {x : AleSnap} {res : AleRes} (hi : res.inval = true) (he : res.evs = [])
    (h : res.st.inval + 1 < x.get ALE_CFG.maxinv) : PageOnly (pAle ch) s (s.aleNoted ch x res false) := by
  have hal : ((s.setAl ch { res.st with run := none }).aleShow ch res false).al ch = { res.st with run := none } := by
    rw [State.al, State.aleShow_ale]
    exact Tab.rd_wr_same _ _ _
  simp only [State.aleNoted, he, hi, List.foldl_nil, if_true, Bool.false_eq_true, if_false]
  rw [State.aleInvalid_below (by rwa [hal])]
  exact ((PageOnly.refl _ s).setAl.aleShow res false).setAl.ev

section
variable {s : State} {ch k m : Nat} {x : AleSnap} {res : AleRes} {cl : List (Nat × Bool)}
  (hres : x.compute (s.al ch) (s.flag (pAle ch) ALE_BLK.hist) = res) (hcl : res.ms.map (s.dutyClamp ch x.len) = cl)
  (hk : (List.range cl.length).filter (fun i => bitN x.legen i) = [k]) (hm : cl.getD k (0, false) = (m, false))
include hres hcl hk hm

/-- A computation in which one leg has a compare, which the duty envelope does not clamp. -/
theorem State.aleFinish_one : ∃ (a : AleSt) (lat worst : Nat), s.aleFinish ch x =
    ((((((s.aleNoted ch x res false).setAl ch a).aleCompares ch [(k, m)]).put (pAle ch) ALE_LAT.last lat).put
      (pAle ch) ALE_LAT.worst worst).incMod (pAle ch) ALE_SEQ.seq).ev (pAle ch) 0 := by
  simp only [State.aleFinish, hres, hcl, hk, List.map_cons, List.map_nil, List.any_cons, List.any_nil, hm, List.isEmpty_cons,
    Bool.or_self, Bool.false_eq_true, if_false]
  exact ⟨_, _, _, rfl⟩

/-- The count of ALE_SEQ is that of the word as the compare leaves it. -/
theorem State.get_seq_aleFinish : ∃ a : AleSt, (s.aleFinish ch x).get (pAle ch) ALE_SEQ.seq =
    ((((s.aleNoted ch x res false).setAl ch a).aleCompares ch [(k, m)]).get (pAle ch) ALE_SEQ.seq + 1) % 2 ^ 16 := by
  obtain ⟨a, lat, worst, h⟩ := State.aleFinish_one hres hcl hk hm
  refine ⟨a, ?_⟩
  rw [h, State.get_ev_ne _ _ _ (by simp) (by simp), State.get_incMod_same _ _ _ (by decide) (by decide),
    State.get_put_word _ _ _ _ _ _ (by simp), State.get_put_word _ _ _ _ _ _ (by simp)]
  rfl

end

/-- A compare within the duty envelope enters the shadow set. -/
theorem State.aleCompares_one {s : State} {ch k m : Nat} (h : s.dutyOk ch m = true) :
    s.aleCompares ch [(k, m)] = ((s.noteShadow ch).setCmp ch k m).reloadNow ch := by
  simp [State.aleCompares, h]

/-! The compare that is ALE_SEQ. -/

/-- The leg whose shadow compare lies 0x10000 words above the PWM page, in the channel's ALE page. -/
def farLeg : Nat := 0x1001D

theorem pPwm_add_farLeg (ch : Nat) : pPwm ch + (PWM_CMP.m farLeg).off = pAle ch + ALE_SEQ.seq.off := by
  simp only [pPwm, pAle, farLeg]
  omega

theorem State.get_seq_setCmp_farLeg (s : State) (ch m : Nat) : (s.setCmp ch farLeg m).get (pAle ch) ALE_SEQ.seq = m % 2 ^ 16 := by
  rw [State.setCmp, State.get_put_word _ _ _ _ _ _ (by simp only [pPwm, pAle]; omega), State.put, State.get, pPwm_add_farLeg,
    State.reg_setReg_same]
  simp only [fldGet, fldPut]
  omega

theorem State.get_reloadNow (s : State) (ch p : Nat) (f : Fld) : (s.reloadNow ch).get p f = s.get p f := by
  unfold State.reloadNow
  split <;> rfl

/-- The one leg of a mask of one bit. -/
theorem filter_bitN_two_pow (n : Nat) : (List.range (n + 1)).filter (fun k => bitN (2 ^ n) k) = [n] := by
  have hne : ∀ k ∈ List.range n, ¬bitN (2 ^ n) k = true := fun k hk => by
    have := List.mem_range.mp hk
    simp [bitN_testBit, Nat.testBit_two_pow]
    omega
  rw [List.range_succ, List.filter_append, List.filter_eq_nil_iff.mpr hne]
  simp [bitN_testBit]

/-! A state that refutes the count of ALE_SEQ. -/

/-- A snapshot of mode 1 with an invalid result, a usable angle and DC link, a period of no taps, and the one leg `farLeg`. -/
def invalidSnap : AleSnap :=
  { kind := 1, legen := 2 ^ farLeg, w := [0x280000004, 0, 0, 0, 0, 0, 0, 0, 0, 0, 0, 0x400000000] }

theorem invalidSnap_mode : invalidSnap.get ALE_CFG.mode = 1 := show fldGet 0x280000004 ALE_CFG.mode = 1 by decide

theorem invalidSnap_asrc : invalidSnap.get ALE_CFG.asrc = 1 := show fldGet 0x280000004 ALE_CFG.asrc = 1 by decide

theorem invalidSnap_maxinv : invalidSnap.get ALE_CFG.maxinv = 4 := show fldGet 0x280000004 ALE_CFG.maxinv = 4 by decide

theorem invalidSnap_suits : invalidSnap.suits = true := by
  simp [AleSnap.suits, invalidSnap_mode, show invalidSnap.kind = 1 from rfl]

theorem invalidSnap_angle (a : AleSt) : invalidSnap.angle a = some (0, 0) := by
  have hvdc : ¬invalidSnap.vdc < 1 / 16 := by
    rw [show invalidSnap.vdc = fixRat 34 0x400000000 from rfl, fixRat, show sint 36 0x400000000 = 2 ^ 34 by decide]
    norm_num
  have hraw : invalidSnap.rawAngle a = some (0, 0) := by
    rw [AleSnap.rawAngle, invalidSnap_asrc]
    have h0 : invalidSnap.get ALE_THETA.th = 0 := show fldGet 0 ALE_THETA.th = 0 by decide
    have h1 : invalidSnap.fix 16 0x15 = 0 := show fixRat 16 0 = 0 by simp [fixRat, sint]
    simp [h0, h1, ufixRat]
  have hdir : invalidSnap.get ALE_COMM.dir = 0 := show fldGet 0 ALE_COMM.dir = 0 by decide
  rw [AleSnap.angle, if_neg hvdc, hraw, hdir]
  simp [fracR, show (0 : Rat).floor = 0 by decide]

/-- The record of a channel whose computation on that snapshot runs, with the compares of the one before. -/
def invalidAle (last : List Nat) : AleSt := { run := some invalidSnap, last := last, lastL := 1 }

/-- A machine in which ALE_SEQ of channel 0 has counted one computation. -/
def seqCounted : State := { regs := [(pAle 0 + 0x31, 1)] }

/-- The machine at the end of the computation of channel 0. -/
def invalidState (last : List Nat) : State := { seqCounted with ale := [(0, invalidAle last)] }

/-- The computation runs in pipeline 0. -/
def invalidRuns (last : List Nat) : State := { invalidState last with pipe := [(0, some 0)] }

section
variable (last : List Nat)

theorem invalidSnap_compute (hist : Bool) : ∃ res : AleRes, invalidSnap.compute (invalidAle last) hist = res ∧
    res.st = { invalidAle last with mode := 1 } ∧ res.inval = true ∧ res.evs = [] ∧ res.ms = List.replicate last.length 0 := by
  refine ⟨_, AleSnap.compute_invalid hist invalidSnap_suits invalidSnap_mode rfl (invalidSnap_angle _), ?_⟩
  have hlen : invalidSnap.len = 0 := rfl
  simp [AleSnap.invalid, AleSnap.noteMove, AleSnap.keepAngle, AleSnap.again, invalidSnap_mode, invalidSnap_asrc, hlen, invalidAle]

theorem invalidState_dutyOk : (invalidState last).dutyOk 0 0 = true := show seqCounted.dutyOk 0 0 = true by decide

theorem invalidRuns_clockOff : (invalidRuns last).clockOff (pAle 0) = false :=
  show seqCounted.clockOff (pAle 0) = false by decide

theorem invalidRuns_seq : (invalidRuns last).get (pAle 0) ALE_SEQ.seq = 1 :=
  show seqCounted.get (pAle 0) ALE_SEQ.seq = 1 by decide

theorem doAleComputationDone_invalidRuns :
    doAleComputationDone 0 (invalidRuns last) = (invalidState last).aleFinish 0 invalidSnap := by
  have hrun : (invalidRuns last).pipeRuns 0 = some 0 := rfl
  simp only [doAleComputationDone, hrun, State.clocked_of_on (invalidRuns_clockOff last)]
  rfl

end

/-- The compare of `farLeg` lands in ALE_SEQ, which then counts from 0. -/
theorem get_seq_aleFinish_farLeg (last : List Nat) (h : last.length = farLeg + 1) :
    ((invalidState last).aleFinish 0 invalidSnap).get (pAle 0) ALE_SEQ.seq = 1 := by
  obtain ⟨res, hres, hst, hi, he, hms⟩ := invalidSnap_compute last ((invalidState last).flag (pAle 0) ALE_BLK.hist)
  have hcl : res.ms.map ((invalidState last).dutyClamp 0 invalidSnap.len) = List.replicate (farLeg + 1) (0, false) := by
    rw [hms, h, List.map_replicate, show invalidSnap.len = 0 from rfl, State.dutyClamp_zero]
  have hk : (List.range (List.replicate (farLeg + 1) (0, false)).length).filter (fun i => bitN invalidSnap.legen i)
      = [farLeg] := by
    rw [List.length_replicate]
    exact filter_bitN_two_pow farLeg
  obtain ⟨a, hseq⟩ := State.get_seq_aleFinish (m := 0) hres hcl hk (List.getD_replicate _ (Nat.lt_succ_self farLeg))
  have hpage := (State.aleNoted_pageOnly (invalidState last) (ch := 0) (x := invalidSnap) hi he
    (by rw [hst, invalidSnap_maxinv]; exact show 1 < 4 by decide)).setAl (ch := 0) (r := a)
  rw [hseq, State.aleCompares_one ((hpage.dutyOk 0).trans (invalidState_dutyOk last)), State.get_reloadNow, State.get_seq_setCmp_farLeg]
  rfl

end Sys2Proof.Machine

namespace Sys2Proof

open Machine

/-- Refutes O30: the clause on the end of a computation speaks of every running snapshot and of last compares of any number. On a snapshot
whose mask has a bit far beyond the four legs, which no wake takes (PWM_CFG.legen has four bits), the compare of leg 0x1001D lands in
ALE_SEQ of the channel's ALE page, so that seq does not count on from its value 1. -/
theorem not_axisLoopEngine : ¬ Obligations.AxisLoopEngine := by
  unfold Obligations.AxisLoopEngine
  rintro ⟨-, -, -, -, -, -, hdone, -⟩
  have hlen : (List.replicate (farLeg + 1) 0).length = farLeg + 1 := List.length_replicate
  -- Only the length of these compares matters: no check unfolds the list.
  generalize List.replicate (farLeg + 1) 0 = last at hlen
  obtain ⟨u, hu, -, -, -, hseq⟩ := hdone (invalidRuns last) 0 0 invalidSnap (by decide) rfl (invalidRuns_clockOff last) rfl
  have hdo : (invalidState last).aleFinish 0 invalidSnap = u.ev (pAle 0) 0 :=
    (doAleComputationDone_invalidRuns last).symm.trans (Host.Outcome.next.inj hu)
  have hone : u.get (pAle 0) ALE_SEQ.seq = 1 := by
    rw [← State.get_ev_ne u (pAle 0) 0 (by decide) (by decide), ← hdo, get_seq_aleFinish_farLeg last hlen]
  rw [hone, invalidRuns_seq] at hseq
  exact absurd hseq (by decide)

end Sys2Proof
end

section
/-! PROOF. The feedback interface: its pages and records, the part of the machine that its commands change, what compares and emulating
pages leave alone while none is on, and the words of which a write takes some fields. -/

namespace Sys2Proof.Machine

/-! The pages. -/

theorem blkOf_pFbk {ch o : Nat} (hc : ch < 96) (ho : o < 0x100) : blkOf (pFbk ch + o) = .fbk ch := by
  have hp : pFbk ch = pageAddr (0x1200 + ch) := by unfold pFbk pageAddr pageSpace; omega
  have hpwm : inRange (0x1200 + ch) 0x1000 96 = false := by simp [inRange]; omega
  have hale : inRange (0x1200 + ch) 0x1100 96 = false := by simp [inRange]; omega
  have hfbk : inRange (0x1200 + ch) 0x1200 96 = true := by simp [inRange]; omega
  rw [hp, blkOf_pageAddr_add _ ho, blkOfIndex]
  simp only [hpwm, hale, hfbk, if_true, Bool.false_eq_true, if_false]
  rw [if_neg (by omega), if_neg (by omega), if_neg (by omega), if_neg (by omega), if_neg (by omega), if_neg (by omega),
    if_neg (by omega), Nat.add_sub_cancel_left]

theorem pageOf_pFbk_add {ch o : Nat} (ho : o < 0x100) : pageOf (pFbk ch + o) = pFbk ch := by
  unfold pageOf pFbk; omega

theorem lockPage_pFbk {ch : Nat} (hc : ch < 96) : lockPage (pFbk ch) = pFbk ch := by
  have hb : blkOf (pFbk ch) = .fbk ch := blkOf_pFbk (o := 0) hc (by decide)
  simp only [lockPage, hb]

theorem wordFields_pFbk {ch o : Nat} (hc : ch < 96) (h : 0x10 ≤ o) (ho : o < 0x100) :
    wordFields (pFbk ch + o) = fieldsFbk.filter (fun f => f.off == o) := by
  have hnot : decide (o < 0x10) = false := by simpa using h
  simp only [wordFields, blkOf_pFbk hc ho, Blk.offset, pFbk_add_mod ho, hnot, Bool.and_false, Bool.false_eq_true, if_false, Blk.fields]

/-! The records. -/

section
variable (s : State) (ch : Nat) (r : FbkSt) (p : Nat) (f : Fld) (v : Nat)

@[simp] theorem State.fb_setFb_same : (s.setFb ch r).fb ch = r := Tab.rd_wr_same _ _ _
@[simp] theorem State.fb_put (e : Nat) : (s.put p f v).fb e = s.fb e := rfl
@[simp] theorem State.get_setFb : (s.setFb ch r).get p f = s.get p f := rfl
@[simp] theorem State.fbkMode_setFb (e : Nat) : (s.setFb ch r).fbkMode e = s.fbkMode e := rfl
@[simp] theorem State.fbkK_setFb (e : Nat) : (s.setFb ch r).fbkK e = s.fbkK e := rfl
@[simp] theorem State.fbkPos_put (e : Nat) : (s.put p f v).fbkPos e = s.fbkPos e := rfl

theorem State.fb_of_fbk {s t : State} (h : t.fbk = s.fbk) (e : Nat) : t.fb e = s.fb e := by rw [State.fb, State.fb, h]

theorem State.fbkPos_setFb_same : (s.setFb ch r).fbkPos ch = r.raw + r.offs := by
  rw [State.fbkPos, State.fb_setFb_same]

end

/-! The frame of the feedback commands. -/

/-- Nothing differs but the feedback records and some register words. -/
def FbkRegs (as : List Nat) (s t : State) : Prop := RegsOnly as { s with fbk := t.fbk } t

theorem FbkRegs.refl (as : List Nat) (s : State) : FbkRegs as s s := RegsOnly.refl s as

section
variable {as : List Nat} {s t : State} (h : FbkRegs as s t)
include h

theorem FbkRegs.regW {a : Nat} (ha : a ∉ as) : t.regW a = s.regW a := h.1 a ha

theorem FbkRegs.get {p : Nat} {f : Fld} (hf : p + f.off ∉ as) : t.get p f = s.get p f :=
  congrArg (fun w : Word => fldGet w.toNat f) (h.regW hf)

theorem FbkRegs.frame : t = { s with regs := t.regs, fbk := t.fbk } := h.2

theorem FbkRegs.now : t.now = s.now := by rw [h.frame]

theorem FbkRegs.records {fbk : Tab FbkSt} : FbkRegs as s { t with fbk := fbk } := by
  refine ⟨fun a ha => h.1 a ha, ?_⟩
  have hf := h.frame
  generalize t.regs = regs at hf
  generalize t.fbk = fbk' at hf
  subst hf
  rfl

theorem FbkRegs.setFb {ch : Nat} {r : FbkSt} : FbkRegs as s (t.setFb ch r) := h.records

theorem FbkRegs.put {p : Nat} {f : Fld} {v : Nat} (hf : p + f.off ∈ as) : FbkRegs as s (t.put p f v) := RegsOnly.put h v hf

theorem FbkRegs.setUnc {ch : Nat} (hf : pFbk ch + 2 ∈ as) : FbkRegs as s (t.setUnc ch) := h.setFb.put hf

/-- The mode of a page is in PAGE_CTL and FBK_CFG. -/
theorem FbkRegs.fbkMode (ha : ∀ a ∈ as, a % 0x100 ≠ 1 ∧ a % 0x100 ≠ 0x10) (e : Nat) : t.fbkMode e = s.fbkMode e := by
  have h1 : pFbk e + 1 ∉ as := fun hm => (ha _ hm).1 (pFbk_add_mod (by decide))
  have h10 : pFbk e + 0x10 ∉ as := fun hm => (ha _ hm).2 (pFbk_add_mod (by decide))
  unfold State.fbkMode
  rw [h.get (f := PAGE_CTL.en) h1, h.get (f := PAGE_CTL.gate_ack) h1, h.get (f := FBK_CFG.mode) h10]

end

/-! Compares and emulating pages that are off (R221 to R223). -/

theorem State.emuRefresh_of_none {s : State} (h : ∀ e < 96, s.fbkMode e ≠ 5) (src : Nat) : s.emuRefresh src = s :=
  overAll_eq_self fun e he => if_neg fun hon => h e (List.mem_range.mp he) hon.2

section
variable {s : State} {ch : Nat} (h : s.get (pFbk ch) FBK_CMP_CTL.en = 0)
include h

theorem State.cmpMove_of_off (old new : Int) (t : Nat) : s.cmpMove ch old new t = s := if_neg (by simp [h])

theorem State.cmpLoad_of_off (old new : Int) : s.cmpLoad ch old new = s := if_neg (by simp [h])

end

/-! The bit unc (R197, R198). -/

theorem State.get_setUnc (s : State) (ch : Nat) : (s.setUnc ch).get (pFbk ch) FBK_BLK.unc = 1 :=
  State.get_put_of_lt _ _ _ (by decide) (by decide) (by decide)

theorem State.fb_setUnc (s : State) (ch : Nat) : (s.setUnc ch).fb ch = { s.fb ch with uncAt := some s.now } := by
  rw [State.setUnc, State.fb_put, State.fb_setFb_same]

theorem State.fbkPos_setUnc (s : State) (ch : Nat) : (s.setUnc ch).fbkPos ch = s.fbkPos ch := by
  rw [State.fbkPos, State.fb_setUnc]
  rfl

/-! Words as a write leaves them (R9). -/

theorem fldPut_fldGet (w : Nat) {f : Fld} (h : f.lo ≤ f.hi) : fldPut w f (fldGet w f) = w := by
  have hpow : 2 ^ (f.hi + 1) = 2 ^ f.lo * 2 ^ (f.hi + 1 - f.lo) := by rw [← pow_add]; congr 1; omega
  unfold fldPut fldGet
  rw [Nat.mod_mod, hpow, ← Nat.div_div_eq_div_mul, Nat.mul_assoc, Nat.add_assoc, ← Nat.mul_add, Nat.mod_add_div, Nat.mod_add_div]

/-- A word from which only equal fields are taken stays. -/
theorem takeFields_of_eq {l : List Fld} (hl : ∀ f ∈ l, f.lo ≤ f.hi) {old w : Nat} (h : ∀ f ∈ l, fldGet w f = fldGet old f) :
    takeFields l old w = old := by
  induction l with
  | nil => rfl
  | cons f l ih =>
    rw [takeFields, List.foldl_cons, ← takeFields, h f (by simp), fldPut_fldGet old (hl f (by simp))]
    exact ih (fun g hg => hl g (by simp [hg])) fun g hg => h g (by simp [hg])

/-- A write that meets no locked field leaves the merged word. -/
theorem State.plainWrite_of_merge {s : State} {ini a w m : Nat} (h : s.mergeWord ini a w = (m, false)) :
    s.plainWrite ini a w = s.setReg a m := by
  rw [State.plainWrite, h]
  rfl

/-- The fields taken from a written word read as in it. -/
theorem State.get_setReg_takeFields (s : State) {p o w : Nat} {l : List Fld} (hl : FieldsFit l) {f : Fld} (hf : f ∈ l) (ho : f.off = o) :
    (s.setReg (p + o) (takeFields l (s.reg (p + o)) w)).get p f = fldGet w f := by
  rw [State.get_setReg_same _ (by rw [ho]) (takeFields_lt hl _ (s.reg_lt _)), fldGet_takeFields_mem hl hf]

end Sys2Proof.Machine
end

section
/-! PROOF. The count of a feedback page: FBK_CFG_WRITE, count edges, line faults, loads, and the live position. -/

namespace Sys2Proof.Machine

/-! FBK_CFG_WRITE (R193). -/

/-- The fields of FBK_CFG, each of them RW. -/
def fbkCfgFields : List Fld := [FBK_CFG.mode, FBK_CFG.lgrp, FBK_CFG.dir, FBK_CFG.lfen, FBK_CFG.filt]

theorem fieldsFit_fbkCfgFields : FieldsFit fbkCfgFields := by decide

theorem State.mergeWord_fbkCfg {ch : Nat} (hc : ch < 96) (s : State) (ini w : Nat) :
    s.mergeWord ini (pFbk ch + 0x10) w = (takeFields fbkCfgFields (s.reg (pFbk ch + 0x10)) w, false) := by
  have hw : wordFields (pFbk ch + 0x10) = fbkCfgFields := (wordFields_pFbk hc (by decide) (by decide)).trans (by decide)
  have h := s.mergeWord_taken (ini := ini) (a := pFbk ch + 0x10) (by rw [hw]; simp [fbkCfgFields, State.Reaches]) w
  rwa [hw] at h

theorem State.fbkWordOk_cfg (s : State) (ch v : Nat) :
    s.fbkWordOk ch 0x10 v = true ↔ fldGet v FBK_CFG.mode < 6 ∧ 0 < fldGet v FBK_CFG.filt := by
  simp [State.fbkWordOk]

section
variable {s : State} {ch : Nat} {v : Word} (hc : ch < 96)
include hc

theorem doFbkCfgWrite_invalid (hv : s.fbkWordOk ch 0x10 v.toNat = false) : doFbkCfgWrite ch v s = s.ev (pFbk ch) 13 := by
  simp only [doFbkCfgWrite]
  rw [if_neg (by omega), if_pos hv]

section
variable (hmode : fldGet v.toNat FBK_CFG.mode < 6) (hfilt : 0 < fldGet v.toNat FBK_CFG.filt)
include hmode hfilt

theorem doFbkCfgWrite_disabled (hen : s.get (pFbk ch) PAGE_CTL.en = 0) : doFbkCfgWrite ch v s =
    s.setReg (pFbk ch + 0x10) (takeFields fbkCfgFields (s.reg (pFbk ch + 0x10)) v.toNat) := by
  have hok : s.fbkWordOk ch 0x10 v.toNat = true := (s.fbkWordOk_cfg ch _).mpr ⟨hmode, hfilt⟩
  simp only [doFbkCfgWrite, hok, hen]
  rw [if_neg (by omega), if_neg (by decide), if_neg (by decide), State.plainWrite_of_merge (State.mergeWord_fbkCfg hc s _ _)]

section
variable (hen : s.get (pFbk ch) PAGE_CTL.en = 1)
include hen

theorem doFbkCfgWrite_enabled : doFbkCfgWrite ch v s =
    if takeFields fbkCfgFields (s.reg (pFbk ch + 0x10)) v.toNat
        ≠ fldPut (s.reg (pFbk ch + 0x10)) FBK_CFG.lgrp (fldGet v.toNat FBK_CFG.lgrp)
      then (s.put (pFbk ch) FBK_CFG.lgrp (fldGet v.toNat FBK_CFG.lgrp)).ev (pFbk ch) 13
      else s.put (pFbk ch) FBK_CFG.lgrp (fldGet v.toNat FBK_CFG.lgrp) := by
  have hok : s.fbkWordOk ch 0x10 v.toNat = true := (s.fbkWordOk_cfg ch _).mpr ⟨hmode, hfilt⟩
  have hreg : (s.put (pFbk ch) FBK_CFG.lgrp (fldGet v.toNat FBK_CFG.lgrp)).reg (pFbk ch + 0x10) =
      fldPut (s.reg (pFbk ch + 0x10)) FBK_CFG.lgrp (fldGet v.toNat FBK_CFG.lgrp) := by
    rw [State.put, State.reg_setReg_same, Nat.mod_eq_of_lt (fldPut_lt _ _ (by decide) (by decide) (s.reg_lt _))]
  simp only [doFbkCfgWrite, hok, hen, State.mergeWord_fbkCfg hc, hreg]
  rw [if_neg (by omega), if_neg (by decide), if_pos trivial]

theorem doFbkCfgWrite_lgrp (h : ∀ f ∈ [FBK_CFG.mode, FBK_CFG.dir, FBK_CFG.lfen, FBK_CFG.filt], fldGet v.toNat f = s.get (pFbk ch) f) :
    doFbkCfgWrite ch v s = s.put (pFbk ch) FBK_CFG.lgrp (fldGet v.toNat FBK_CFG.lgrp) := by
  have hlow : takeFields [FBK_CFG.mode] (s.reg (pFbk ch + 0x10)) v.toNat = s.reg (pFbk ch + 0x10) :=
    takeFields_of_eq (by decide) fun f hf => by
      obtain rfl := List.mem_singleton.mp hf
      exact h _ (by simp)
  have hrest := takeFields_of_eq (l := [FBK_CFG.dir, FBK_CFG.lfen, FBK_CFG.filt]) (w := v.toNat)
    (old := fldPut (s.reg (pFbk ch + 0x10)) FBK_CFG.lgrp (fldGet v.toNat FBK_CFG.lgrp)) (by decide) fun f hf => by
      have hfit : ∀ g ∈ [FBK_CFG.dir, FBK_CFG.lfen, FBK_CFG.filt], g.off = 0x10 ∧ g.lo ≤ g.hi ∧ g.Apart FBK_CFG.lgrp := by decide
      obtain ⟨hoff, hle, hapart⟩ := hfit f hf
      rw [h f (List.mem_cons_of_mem _ hf), fldGet_fldPut_ne _ _ _ _ (by decide) hle hapart.symm, State.get, hoff]
  rw [doFbkCfgWrite_enabled hc hmode hfilt hen]
  refine if_neg (not_not.mpr ?_)
  calc takeFields fbkCfgFields (s.reg (pFbk ch + 0x10)) v.toNat
      = takeFields [FBK_CFG.dir, FBK_CFG.lfen, FBK_CFG.filt] (fldPut (takeFields [FBK_CFG.mode] (s.reg (pFbk ch + 0x10)) v.toNat)
          FBK_CFG.lgrp (fldGet v.toNat FBK_CFG.lgrp)) v.toNat := rfl
    _ = fldPut (s.reg (pFbk ch + 0x10)) FBK_CFG.lgrp (fldGet v.toNat FBK_CFG.lgrp) := by rw [hlow, hrest]

theorem doFbkCfgWrite_otherMode (h : fldGet v.toNat FBK_CFG.mode ≠ s.get (pFbk ch) FBK_CFG.mode) :
    doFbkCfgWrite ch v s = (s.put (pFbk ch) FBK_CFG.lgrp (fldGet v.toNat FBK_CFG.lgrp)).ev (pFbk ch) 13 := by
  rw [doFbkCfgWrite_enabled hc hmode hfilt hen]
  refine if_pos fun he => h ?_
  have hget := congrArg (fun w => fldGet w FBK_CFG.mode) he
  rwa [fldGet_takeFields_mem fieldsFit_fbkCfgFields (by decide),
    fldGet_fldPut_ne _ _ _ _ (by decide) (by decide) (by decide)] at hget

end
end
end

/-! Count edges (R194 to R198). -/

/-- The decoder state of a page takes a filtered pair, and the latches before it keep their speed (R195, R212). -/
def State.pairTaken (s : State) (ch : Nat) (ab : Bool × Bool) : State :=
  let s0 := s.fixLatches ch ((s.now : Int) - (s.fbkDelay ch : Int))
  s0.setFb ch { s0.fb ch with ab := some ab }

theorem State.fixLatches_fb {s : State} {ch : Nat} (hp : (s.fb ch).pend = []) (e : Int) : (s.fixLatches ch e).fb ch = s.fb ch := by
  simp only [State.fixLatches, State.fb_setFb_same, hp, List.map_nil]
  rw [← hp]

theorem State.fixLatches_ab (s : State) (ch : Nat) (e : Int) : ((s.fixLatches ch e).fb ch).ab = (s.fb ch).ab := by
  simp only [State.fixLatches, State.fb_setFb_same]

theorem State.pairTaken_fb {s : State} {ch : Nat} (hp : (s.fb ch).pend = []) (ab : Bool × Bool) :
    (s.pairTaken ch ab).fb ch = { s.fb ch with ab := some ab } := by
  simp only [State.pairTaken, State.fb_setFb_same, State.fixLatches_fb hp]

theorem State.pairTaken_regs (s : State) (ch : Nat) (ab : Bool × Bool) {as : List Nat} : FbkRegs as s (s.pairTaken ch ab) :=
  (FbkRegs.refl as s).setFb.setFb

theorem State.pairTaken_pos {s : State} {ch : Nat} (hp : (s.fb ch).pend = []) (ab : Bool × Bool) :
    (s.pairTaken ch ab).fbkPos ch = s.fbkPos ch := by
  rw [State.fbkPos, State.pairTaken_fb hp, State.fbkPos]

theorem FbkSt.heldPair_sound {r : FbkSt} (h : r.ab = none ∨ r.faults = []) (a b : Bool) : r.heldPair a b = (a, b) := by
  unfold FbkSt.heldPair
  split
  next => rfl
  next o ho => simp [h.resolve_left (by simp [ho])]

theorem FbkSt.heldPair_first {r : FbkSt} {o : Bool × Bool} (h : r.ab = some o) (hf : 0 ∈ r.faults) (a b : Bool) :
    r.heldPair a b = r.heldPair o.1 b := by
  simp [FbkSt.heldPair, h, hf]

theorem FbkSt.heldPair_second {r : FbkSt} {o : Bool × Bool} (h : r.ab = some o) (hf : 1 ∈ r.faults) (a b : Bool) :
    r.heldPair a b = r.heldPair a o.2 := by
  simp [FbkSt.heldPair, h, hf]

section
variable {s : State} {ch : Nat}

/-- A count edge depends on the lines through the held pair alone. -/
theorem doCountEdge_congr {a b a' b' : Bool} (h : (s.fb ch).heldPair a b = (s.fb ch).heldPair a' b') :
    doCountEdge ch a b s = doCountEdge ch a' b' s := by
  simp only [doCountEdge, h]

theorem doCountEdge_not (h1 : s.fbkMode ch ≠ 1) (h2 : s.fbkMode ch ≠ 2) (a b : Bool) : doCountEdge ch a b s = s :=
  if_pos (.inr (not_or.mpr ⟨h1, h2⟩))

section
variable (hc : ch < 96) (hm : s.fbkMode ch = 1 ∨ s.fbkMode ch = 2) {a b : Bool} (hpair : (s.fb ch).heldPair a b = (a, b))
include hc hm hpair

theorem doCountEdge_first (hab : (s.fb ch).ab = none) :
    doCountEdge ch a b s = (s.pairTaken ch (a, b)).put (pFbk ch) FBK_BLK.phist 1 := by
  simp only [doCountEdge, hpair, State.fixLatches_ab, hab]
  rw [if_neg (by omega)]
  rfl

section
variable {o : Bool × Bool} (hab : (s.fb ch).ab = some o) (hne : o ≠ (a, b))
include hab hne

theorem doCountEdge_illegal (h : o.1 ≠ a ∧ o.2 ≠ b) : doCountEdge ch a b s = (s.pairTaken ch (a, b)).illegalEdge ch := by
  simp only [doCountEdge, hpair, State.fixLatches_ab, hab]
  rw [if_neg (by omega), if_neg hne, if_pos h]
  rfl

theorem doCountEdge_counts (h : o.1 = a ∨ o.2 = b) : doCountEdge ch a b s = (s.pairTaken ch (a, b)).countMove ch
    (if ((stateNum (a, b) + 4 - stateNum o) % 4 == 1) == (s.get (pFbk ch) FBK_CFG.dir == 0) then 1 else -1) := by
  simp only [doCountEdge, hpair, State.fixLatches_ab, hab]
  rw [if_neg (by omega), if_neg hne, if_neg (by tauto)]
  rfl

end
end
end

/-! The count (R199, R201). -/

theorem State.countBy_within {s : State} {ch : Nat} {dn : Int} (hlo : -(2 ^ 35) * (s.fbkK ch : Int) ≤ (s.fb ch).n + dn)
    (hhi : (s.fb ch).n + dn < 2 ^ 35 * (s.fbkK ch : Int)) : s.countBy ch dn = s.putCount ch ((s.fb ch).n + dn) := by
  have hK : 0 < (s.fbkK ch : Int) := by omega
  have h1 : ((s.fb ch).n + dn) / (s.fbkK ch : Int) < 2 ^ 35 := Int.ediv_lt_of_lt_mul hK hhi
  have h2 : -(2 ^ 35) ≤ ((s.fb ch).n + dn) / (s.fbkK ch : Int) := (Int.le_ediv_iff_mul_le hK).mpr hlo
  have hstep : countStep (s.fbkK ch : Int) ((s.fb ch).n + dn) = ((s.fb ch).n + dn, false) := by
    unfold countStep
    rw [if_neg (by omega), if_neg (by omega)]
  unfold State.countBy
  rw [hstep]
  rfl

/-- The turn fraction of a count lies below a turn. -/
theorem countPos_spec {K : Int} (n : Int) (hK : 0 < K) : countPos K n / 2 ^ 36 = n / K ∧ 0 ≤ countPos K n - n / K * 2 ^ 36 := by
  have hr := Int.emod_nonneg n hK.ne'
  have hlt : n % K * 2 ^ 36 / K < 2 ^ 36 := by
    refine Int.ediv_lt_of_lt_mul hK ?_
    have := Int.emod_lt_of_pos n hK
    omega
  have hnn : 0 ≤ n % K * 2 ^ 36 / K := Int.ediv_nonneg (by omega) hK.le
  unfold countPos
  omega

/-- The count of a load is the largest whose fraction does not exceed the written one. -/
theorem countOf_spec {K : Int} (f : Int) (hK : 0 < K) : countOf K f * 2 ^ 36 / K ≤ f ∧ f < (countOf K f + 1) * 2 ^ 36 / K := by
  unfold countOf
  generalize hx : (f + 1) * K = x
  have hle : (x + 2 ^ 36 - 1) / 2 ^ 36 * 2 ^ 36 < x + 2 ^ 36 ∧ x ≤ (x + 2 ^ 36 - 1) / 2 ^ 36 * 2 ^ 36 := by omega
  constructor
  · refine Int.lt_add_one_iff.mp (Int.ediv_lt_of_lt_mul hK ?_)
    omega
  · refine Int.add_one_le_iff.mp ((Int.le_ediv_iff_mul_le hK).mpr ?_)
    omega

/-! LINE_FAULT (R198). -/

section
variable {s : State} {ch line : Nat}

theorem doLineFault_not (h : s.get (pFbk ch) FBK_CFG.lfen = 0 ∨ usedInput (s.fbkMode ch) line = false) (bad : Bool) :
    doLineFault ch line bad s = s := by
  refine if_neg ?_
  rintro ⟨-, hen, hused⟩
  rcases h with h | h
  · omega
  · exact absurd (h.symm.trans hused) (by decide)

theorem doLineFault_again (h : line ∈ (s.fb ch).faults) : doLineFault ch line true s = s := by
  simp [doLineFault, h]

section
variable (hc : ch < 96) (hen : s.get (pFbk ch) FBK_CFG.lfen = 1) (hused : usedInput (s.fbkMode ch) line = true)
include hc hen hused

theorem doLineFault_ends : doLineFault ch line false s =
    s.setFb ch { s.fb ch with faults := (s.fb ch).faults.filter (fun l => l != line) } := by
  simp [doLineFault, hc, hen, hused]

theorem doLineFault_begins (h : line ∉ (s.fb ch).faults) : doLineFault ch line true s =
    ((s.setFb ch { s.fb ch with faults := line :: (s.fb ch).faults }).setUnc ch).evC (pFbk ch) 4 := by
  simp [doLineFault, hc, hen, hused, h]

end
end

/-! FBK_LOAD and FBK_CLRUNC (R201). -/

/-- The record of a loaded page: the count in mode 1, the offset in the other modes. -/
def State.loadedFb (s : State) (ch : Nat) (x : Int) : FbkSt :=
  if s.fbkMode ch = 1 then
    { s.fb ch with
      cmp := none, loadAt := some s.now, n := x / 2 ^ 36 * (s.fbkK ch : Int) + countOf (s.fbkK ch : Int) (x % 2 ^ 36),
      raw := countPos (s.fbkK ch : Int) (x / 2 ^ 36 * (s.fbkK ch : Int) + countOf (s.fbkK ch : Int) (x % 2 ^ 36)) }
  else { s.fb ch with cmp := none, loadAt := some s.now, offs := x - (s.fb ch).raw }

section
variable {s : State} {ch : Nat}

/-- While neither a compare nor an emulating page is on, a load only loads the position. -/
theorem State.loadPos_quiet (hcmp : s.get (pFbk ch) FBK_CMP_CTL.en = 0) (hemu : ∀ e < 96, s.fbkMode e ≠ 5) (x : Int) :
    (s.loadPos ch x).fb ch = s.loadedFb ch x ∧ (s.loadPos ch x).get (pFbk ch) FBK_BLK.ref = 1 ∧
      FbkRegs [pFbk ch + 2] s (s.loadPos ch x) := by
  unfold State.loadPos
  extract_lets old r0 s0 m r1 s1 r2 s2
  have hfb0 : s0.fb ch = { s.fb ch with cmp := none } := State.fb_setFb_same s ch _
  have hK0 : s0.fbkK ch = s.fbkK ch := State.fbkK_setFb s ch _ ch
  have hm0 : s0.fbkMode ch = s.fbkMode ch := State.fbkMode_setFb s ch _ ch
  have h0 : FbkRegs [pFbk ch + 2] s s0 := (FbkRegs.refl _ s).setFb
  have hnow : s0.now = s.now := rfl
  clear_value s0
  have hs1 : FbkRegs [pFbk ch + 2] s s1 ∧ { s1.fb ch with loadAt := some s0.now } = s.loadedFb ch x := by
    by_cases hm : s.fbkMode ch = 1
    · have h1 : s1 = s0.putCount ch (x / 2 ^ 36 * (s0.fbkK ch : Int) + countOf (s0.fbkK ch : Int) (x % 2 ^ 36)) := if_pos (hm0.trans hm)
      rw [h1, State.loadedFb, if_pos hm, State.putCount, State.fb_setFb_same, hfb0, hK0, hnow]
      exact ⟨h0.setFb, rfl⟩
    · have h1 : s1 = s0.setFb ch { s0.fb ch with offs := x - (s0.fb ch).raw } := if_neg (by rwa [← hm0] at hm)
      rw [h1, State.loadedFb, if_neg hm, State.fb_setFb_same, hfb0, hnow]
      exact ⟨h0.setFb, rfl⟩
  obtain ⟨hregs, hfb⟩ := hs1
  have hs2 : FbkRegs [pFbk ch + 2] s s2 := hregs.setFb.put (by simp)
  have hcmp2 : s2.get (pFbk ch) FBK_CMP_CTL.en = 0 := (hs2.get (by simp)).trans hcmp
  have hemu2 : ∀ e < 96, s2.fbkMode e ≠ 5 := fun e he => by
    rw [hs2.fbkMode (by simp [pFbk_add_mod])]
    exact hemu e he
  rw [State.cmpLoad_of_off hcmp2, State.emuRefresh_of_none hemu2]
  refine ⟨?_, State.get_put_of_lt _ _ _ (by decide) (by decide) (by decide), hs2⟩
  exact (State.fb_put _ _ _ _ ch).trans ((State.fb_setFb_same s1 ch _).trans hfb)

theorem doFbkLoad_not (h : s.fbkMode ch = 0 ∨ s.fbkMode ch = 5) : doFbkLoad ch s = s := by
  refine if_neg fun hon => ?_
  rcases h with h | h <;> simp [h, inRange] at hon

theorem doFbkLoad_on (hc : ch < 96) (hm : 1 ≤ s.fbkMode ch ∧ s.fbkMode ch ≤ 4) : doFbkLoad ch s =
    s.loadPos ch (p72 (s.get (pFbk ch) FBK_POS_SET_HI.p) (s.get (pFbk ch) FBK_POS_SET_LO.p)) := by
  refine if_pos ⟨hc, ?_⟩
  simp only [inRange, Bool.and_eq_true, decide_eq_true_eq]
  omega

theorem doFbkClrunc_clears (hc : ch < 96) (h : (s.fb ch).uncAt ≠ some s.now) :
    doFbkClrunc ch s = s.put (pFbk ch) FBK_BLK.unc 0 := if_pos ⟨hc, h⟩

theorem doFbkClrunc_keeps (h : (s.fb ch).uncAt = some s.now) : doFbkClrunc ch s = s := if_neg fun hn => hn.2 h

/-! FBK_POS_READ (R200). -/

theorem doFbkPosRead_core {c : Nat} (hc : c < 64) (hch : ch < 96) : doFbkPosRead c ch s =
    { s with rdata := word (p72Hi (s.fbkPos ch)) }.holdSet c 1 (pFbk ch) [word (p72Lo (s.fbkPos ch))] := by
  simp only [doFbkPosRead]
  rw [if_neg (by omega), if_pos hc]

end

end Sys2Proof.Machine

namespace Sys2Proof

open Machine

/-- Settles O31, a lemma for each way of a configuration write, of a count edge, of a line fault and of a load. -/
theorem feedbackCounts : Obligations.FeedbackCounts := by
  refine ⟨?cfgInvalid, ?cfgDisabled, ?cfgLgrp, ?cfgOther, ?edgeOff, ?edgeFirst, ?edgeIllegal, ?edgeCounts, ?countBy,
    fun K n hK => countPos_spec n hK, ?lineOff, ?lineEnds, ?lineAgain, ?heldFirst, ?heldSecond, ?lineBegins, ?loadOff, ?loadOffset,
    ?loadCount, fun K f hK _ _ => countOf_spec f hK, ?clears, ?keeps, ?read⟩
  case cfgInvalid =>
    intro s ch v ht hc hv
    exact State.next_writeWord ht (doFbkCfgWrite_invalid hc hv)
  case cfgDisabled =>
    intro s ch v ht hc hmode hfilt hen
    refine ⟨_, State.next_writeWord ht (doFbkCfgWrite_disabled hc hmode hfilt hen), fun f hf => ?_, RegsOnly.setReg _ _ _⟩
    exact State.get_setReg_takeFields s fieldsFit_fbkCfgFields hf ((by decide : ∀ f ∈ fbkCfgFields, f.off = 0x10) f hf)
  case cfgLgrp =>
    intro s ch v ht hc hen h hmode hfilt
    refine ⟨_, State.next_writeWord ht (doFbkCfgWrite_lgrp hc hmode hfilt hen h), ?_, RegsOnly.setReg _ _ _⟩
    exact State.get_put_of_lt _ _ _ (by decide) (by decide) (fldGet_lt _ _)
  case cfgOther =>
    intro s ch v ht hc hen h hmode hfilt
    refine ⟨_, State.next_writeWord ht (doFbkCfgWrite_otherMode hc hmode hfilt hen h), ?_, ?_, RegsOnly.setReg _ _ _⟩
    · exact State.get_put_field _ _ _ _ _ _ (by decide) (by decide) (by decide) (by decide)
    · exact State.get_put_of_lt _ _ _ (by decide) (by decide) (fldGet_lt _ _)
  case edgeOff =>
    intro s ch a b h1 h2
    exact State.next_of_eq (doCountEdge_not h1 h2 a b)
  case edgeFirst =>
    intro s ch a b hc hm hab hp
    refine ⟨_, State.next_of_eq (doCountEdge_first hc hm (FbkSt.heldPair_sound (.inl hab) a b) hab), ?_, ?_, ?_, ?_⟩
    · rw [State.fb_put, State.pairTaken_fb hp]
    · exact State.get_put_of_lt _ _ _ (by decide) (by decide) (by decide)
    · rw [State.fbkPos_put, State.pairTaken_pos hp]
    · exact (s.pairTaken_regs ch (a, b)).put (by simp)
  case edgeIllegal =>
    intro s ch a b hc hm hp hf hab
    have hboth : (!a) ≠ a ∧ (!b) ≠ b := by cases a <;> cases b <;> decide
    have hne : (!a, !b) ≠ (a, b) := fun he => hboth.1 (Prod.mk.inj he).1
    refine ⟨_, State.next_of_eq (doCountEdge_illegal hc hm (FbkSt.heldPair_sound (.inr hf) a b) hab hne hboth), ?_,
      State.get_setUnc _ _, ?_⟩
    · rw [State.fb_setUnc, State.fb_setFb_same, State.pairTaken_fb hp]
    · rw [State.fbkPos_setUnc, State.fbkPos_setFb_same, State.pairTaken_fb hp, State.fbkPos]
  case edgeCounts =>
    intro s ch a b o hc hm hp hf hab hone hne
    exact ⟨_, State.next_of_eq (doCountEdge_counts hc hm (FbkSt.heldPair_sound (.inr hf) a b) hab hne hone), State.pairTaken_fb hp _, rfl⟩
  case countBy =>
    intro s ch dn hlo hhi
    have h := State.countBy_within hlo hhi
    refine ⟨h, ?_⟩
    rw [h, State.putCount, State.fb_setFb_same]
  case lineOff =>
    intro s ch line bad h
    exact State.next_of_eq (doLineFault_not h bad)
  case lineEnds =>
    intro s ch line hc hen hused
    exact State.next_of_eq (doLineFault_ends hc hen hused)
  case lineAgain =>
    intro s ch line h
    exact State.next_of_eq (doLineFault_again h)
  case heldFirst =>
    intro s ch a b o hab hf
    exact State.next_of_eq (doCountEdge_congr (FbkSt.heldPair_first hab hf a b))
  case heldSecond =>
    intro s ch a b o hab hf
    exact State.next_of_eq (doCountEdge_congr (FbkSt.heldPair_second hab hf a b))
  case lineBegins =>
    intro s ch line hc hen hused h
    refine ⟨_, State.next_of_eq (doLineFault_begins hc hen hused h), ?_, State.get_setUnc _ _, ?_, ?_⟩
    · rw [State.fb_setUnc, State.fb_setFb_same]
    · rw [State.fbkPos_setUnc, State.fbkPos_setFb_same, State.fbkPos]
    · exact (FbkRegs.refl [pFbk ch + 2] s).setFb.setUnc (by simp)
  case loadOff =>
    intro s ch ht h
    exact State.next_writeWord ht (doFbkLoad_not h)
  case loadOffset =>
    intro s ch ht hc hm hcmp hemu
    have hone : s.fbkMode ch ≠ 1 := by omega
    obtain ⟨hfb, href, hregs⟩ := State.loadPos_quiet hcmp hemu (p72 (s.get (pFbk ch) FBK_POS_SET_HI.p) (s.get (pFbk ch) FBK_POS_SET_LO.p))
    rw [State.loadedFb, if_neg hone] at hfb
    refine ⟨_, State.next_writeWord ht (doFbkLoad_on hc (by omega)), ?_, by rw [hfb], href, by rw [hfb], hregs⟩
    rw [State.fbkPos, hfb]
    exact add_sub_cancel _ _
  case loadCount =>
    intro s ch ht hc hm hcmp hemu
    obtain ⟨hfb, href, hregs⟩ := State.loadPos_quiet hcmp hemu (p72 (s.get (pFbk ch) FBK_POS_SET_HI.p) (s.get (pFbk ch) FBK_POS_SET_LO.p))
    rw [State.loadedFb, if_pos hm] at hfb
    exact ⟨_, State.next_writeWord ht (doFbkLoad_on hc (by omega)), by rw [hfb], href, hregs⟩
  case clears =>
    intro s ch ht hc h
    exact State.next_writeWord ht (doFbkClrunc_clears hc h)
  case keeps =>
    intro s ch ht h
    exact State.next_writeWord ht (doFbkClrunc_keeps h)
  case read =>
    intro s c ch ht hc hch
    refine ⟨_, congrArg Host.Outcome.next ((State.readWord_of_takes ht _).trans (doFbkPosRead_core hc hch)), rfl, ?_, rfl⟩
    exact State.held?_holdSet_same _ _ _ _ _

end Sys2Proof
end

section
/-! PROOF. What the events of a feedback page leave of its words: a counting event may run the page's fault counter with its action,
which may stop the channel's generator. -/

namespace Sys2Proof.Machine

section
variable {e o : Nat} (he : e < 96)
include he

theorem pFbk_ne_pProf (ch o' : Nat) (ho : o < 0x100) : pFbk e + o ≠ pProf ch + o' := by unfold pFbk pProf; omega
theorem pFbk_ne_pCore (c o' : Nat) (ho : o < 0x100) : pFbk e + o ≠ pCore c + o' := by unfold pFbk pCore; omega
theorem pFbk_ne_pMem3 (ho : o < 0x100) : ∀ o' < 0x100, pFbk e + o ≠ pMem 3 + o' := fun o' h => by unfold pFbk pMem; omega

section
variable (ho : o < 0x100) (s : State)
include ho

theorem State.regW_stopAtOnce_pFbk (ch hres : Nat) {cnt : State → State} (hk : ∀ t, (cnt t).regW (pFbk e + o) = t.regW (pFbk e + o)) :
    (s.stopAtOnce ch hres cnt).regW (pFbk e + o) = s.regW (pFbk e + o) := by
  have hne := fun o' => pFbk_ne_pProf he ch o' ho
  unfold State.stopAtOnce
  extract_lets p r k v r1 r2 s1 lost s2
  have h1 : s1.regW (pFbk e + o) = s.regW (pFbk e + o) := by
    rw [State.regW_ev_ne _ _ _ (hne _) (hne _), State.regW_put_ne _ _ _ _ (hne _), State.regW_put_ne _ _ _ _ (hne _),
      State.regW_put_ne _ _ _ _ (hne _)]
    exact State.regW_of_regs rfl
  have h2 : s2.regW (pFbk e + o) = s.regW (pFbk e + o) := by
    refine Eq.trans ?_ h1
    by_cases hl : lost
    · rw [show s2 = _ from if_pos hl, State.regW_put_ne _ _ _ _ (hne _), State.regW_put_ne _ _ _ _ (hne _)]
    · rw [show s2 = _ from if_neg hl]
  split
  · rw [hk, State.regW_ev_ne _ _ _ (hne _) (hne _), State.regW_put_ne _ _ _ _ (hne _), State.regW_put_ne _ _ _ _ (hne _), h2]
  · exact h2

theorem State.regW_blockPlain_pFbk (p : Nat) : (s.blockPlain p).regW (pFbk e + o) = s.regW (pFbk e + o) := by
  unfold State.blockPlain
  split
  · exact (State.regW_stopAtOnce_pFbk he ho _ _ _ fun _ => rfl).trans (State.regW_of_regs rfl)
  · exact State.regW_of_regs rfl

theorem State.regW_fcBy_pFbk {p : Nat} (hp : pFbk e + o ≠ p + 9) {blk : State → Nat → State}
    (hblk : ∀ t, (blk t p).regW (pFbk e + o) = t.regW (pFbk e + o)) :
    (State.fcBy blk s p).regW (pFbk e + o) = s.regW (pFbk e + o) := by
  have hcore := fun c => pFbk_ne_pCore he c 0x14 ho
  have hstep := s.regW_fcStepBy p hblk hcore hp
  simp only [State.fcBy]
  split
  · rw [State.regW_pushLog _ _ hcore (pFbk_ne_pMem3 he ho), hstep]
  · exact hstep

theorem State.regW_padCause_pFbk (ch : Nat) : (s.padCause ch).regW (pFbk e + o) = s.regW (pFbk e + o) := by
  unfold State.padCause
  split
  · exact s.regW_stopAtOnce_pFbk he ho ch 6 fun t =>
      t.regW_fcBy_pFbk he ho (pFbk_ne_pProf he ch 9 ho) fun u => u.regW_blockPlain_pFbk he ho _
  · rfl

end

theorem State.blockOutputs_pFbk (s : State) : s.blockOutputs (pFbk e) = (s.noteBlocked (pFbk e)).padCause e := by
  simp only [State.blockOutputs, show blkOf (pFbk e) = .fbk e from blkOf_pFbk (o := 0) he (by decide)]

section
variable (s : State)

theorem State.regW_fc_pFbk (ho : o < 0x100) (h9 : o ≠ 9) : (s.fc (pFbk e)).regW (pFbk e + o) = s.regW (pFbk e + o) := by
  refine State.regW_fcBy_pFbk he ho _ (by omega) fun t => ?_
  rw [State.blockOutputs_pFbk he, State.regW_padCause_pFbk he ho]
  exact State.regW_of_regs rfl

theorem State.regW_evC_pFbk (k : Nat) (ho : o < 0x100) (h3 : o ≠ 3) (h5 : o ≠ 5) (h9 : o ≠ 9) :
    (s.evC (pFbk e) k).regW (pFbk e + o) = s.regW (pFbk e + o) :=
  (State.regW_fc_pFbk he _ ho h9).trans (s.regW_ev_ne _ _ (by omega) (by omega))

theorem State.get_evC_ev_pFbk {k : Nat} (hk : k < 36) :
    (s.evC (pFbk e) k).get (pFbk e) PAGE_EV.ev = setBitN (s.get (pFbk e) PAGE_EV.ev) k :=
  (congrArg (fun w : Word => fldGet w.toNat PAGE_EV.ev) (State.regW_fc_pFbk (o := 3) he _ (by decide) (by decide))).trans
    (s.get_ev_ev (pFbk e) hk)

end

end

/-! A word that is one field. -/

theorem fldPut_whole {w : Nat} (hw : w < 2 ^ 36) {f : Fld} (hlo : f.lo = 0) (hhi : f.hi = 35) (v : Nat) : fldPut w f v = v % 2 ^ 36 := by
  unfold fldPut
  rw [hlo, hhi, Nat.div_eq_of_lt hw]
  omega

theorem State.reg_put_whole (s : State) (p : Nat) {f : Fld} (hlo : f.lo = 0) (hhi : f.hi = 35) (v : Nat) :
    (s.put p f v).reg (p + f.off) = v % 2 ^ 36 := by
  rw [State.put, State.reg_setReg_same, fldPut_whole (s.reg_lt _) hlo hhi, Nat.mod_mod]

end Sys2Proof.Machine
end

section
/-! PROOF. The index of a feedback page (R202, R203). -/

namespace Sys2Proof.Machine

/-! The wrapped difference (R202). -/

theorem wrapDiff_spec {K : Int} (q e : Int) (hK : 0 < K) :
    -K < 2 * wrapDiff K q e ∧ 2 * wrapDiff K q e ≤ K ∧ (q - e - wrapDiff K q e) % K = 0 := by
  have hnn := Int.emod_nonneg (q - e) hK.ne'
  have hlt := Int.emod_lt_of_pos (q - e) hK
  have hdvd : K ∣ q - e - (q - e) % K := Int.dvd_self_sub_emod
  unfold wrapDiff
  split
  · refine ⟨by omega, by omega, Int.emod_eq_zero_of_dvd ?_⟩
    rw [sub_sub_eq_add_sub, add_sub_right_comm]
    exact dvd_add hdvd (dvd_refl K)
  · exact ⟨by omega, by omega, Int.emod_eq_zero_of_dvd hdvd⟩

/-! What follows the record of an index leaves the record. -/

/-- Nothing differs in the words that record an index, and event 2 stays recorded. -/
structure IndexKept (ch : Nat) (s₀ s : State) : Prop where
  regW : ∀ o, 0x14 ≤ o → o ≤ 0x19 → s.regW (pFbk ch + o) = s₀.regW (pFbk ch + o)
  ev : bitN (s₀.get (pFbk ch) PAGE_EV.ev) 2 = true → bitN (s.get (pFbk ch) PAGE_EV.ev) 2 = true

/-- A field of a word that is neither PAGE_EV nor one of an index. -/
abbrev BesideIndex (f : Fld) : Prop := f.off < 0x100 ∧ f.off ≠ 3 ∧ (f.off < 0x14 ∨ 0x19 < f.off)

theorem IndexKept.refl (ch : Nat) (s : State) : IndexKept ch s s := ⟨fun _ _ _ => rfl, id⟩

section
variable {ch : Nat} {s₀ s t : State} (h : IndexKept ch s₀ s)
include h

theorem IndexKept.of_regs (hr : t.regs = s.regs) : IndexKept ch s₀ t :=
  ⟨fun o hlo hhi => (State.regW_of_regs hr).trans (h.regW o hlo hhi), fun he => by rw [State.get_of_regs hr]; exact h.ev he⟩

theorem IndexKept.setFb {e : Nat} {r : FbkSt} : IndexKept ch s₀ (s.setFb e r) := h.of_regs rfl

theorem IndexKept.ite {c : Prop} [Decidable c] (h' : IndexKept ch s₀ t) : IndexKept ch s₀ (if c then s else t) := by
  split <;> assumption

theorem IndexKept.put {e : Nat} {f : Fld} {v : Nat} (hf : BesideIndex f) : IndexKept ch s₀ (s.put (pFbk e) f v) := by
  obtain ⟨hoff, h3, hidx⟩ := hf
  have hne : ∀ o < 0x100, o ≠ f.off → pFbk ch + o ≠ pFbk e + f.off := fun o ho hn he => hn (by
    rw [← pFbk_add_mod ho, he, pFbk_add_mod hoff])
  refine ⟨fun o hlo hhi => (s.regW_put_ne _ _ _ (hne o (by omega) (by omega))).trans (h.regW o hlo hhi), fun he => ?_⟩
  rw [State.get_put_word _ _ _ _ _ _ (hne 3 (by decide) (Ne.symm h3))]
  exact h.ev he

theorem IndexKept.putProf (hc : ch < 96) {e : Nat} {f : Fld} {v : Nat} : IndexKept ch s₀ (s.put (pProf e) f v) := by
  have hne : ∀ o < 0x100, pFbk ch + o ≠ pProf e + f.off := fun o ho => pFbk_ne_pProf hc e f.off ho
  refine ⟨fun o hlo hhi => (s.regW_put_ne _ _ _ (hne o (by omega))).trans (h.regW o hlo hhi), fun he => ?_⟩
  rw [State.get_put_word _ _ _ _ _ _ (hne 3 (by decide))]
  exact h.ev he

theorem IndexKept.ev_pFbk {e k : Nat} (hk : k < 36) : IndexKept ch s₀ (s.ev (pFbk e) k) := by
  have hne : ∀ o o' : Nat, o < 0x100 → o' < 0x100 → o ≠ o' → pFbk ch + o ≠ pFbk e + o' := fun o o' ho ho' hn he => hn (by
    rw [← pFbk_add_mod ho, he, pFbk_add_mod ho'])
  refine ⟨fun o hlo hhi => ?_, fun he => ?_⟩
  · rw [s.regW_ev_ne _ _ (hne o 3 (by omega) (by decide) (by omega)) (hne o 5 (by omega) (by decide) (by omega))]
    exact h.regW o hlo hhi
  · by_cases hech : pFbk e = pFbk ch
    · rw [hech, s.get_ev_ev _ hk, bitN_setBitN, h.ev he, Bool.true_or]
    · rw [s.get_ev_ne _ _ (fun heq => hech (Nat.add_right_cancel heq).symm) (hne 3 5 (by decide) (by decide) (by decide))]
      exact h.ev he

theorem IndexKept.evC_pFbk (hc : ch < 96) {k : Nat} (hk : k < 36) : IndexKept ch s₀ (s.evC (pFbk ch) k) := by
  refine ⟨fun o hlo hhi => ?_, fun he => ?_⟩
  · rw [s.regW_evC_pFbk hc k (by omega) (by omega) (by omega) (by omega)]
    exact h.regW o hlo hhi
  · rw [s.get_evC_ev_pFbk hc hk, bitN_setBitN, h.ev he, Bool.true_or]

theorem IndexKept.emuLag {e : Nat} : IndexKept ch s₀ (s.emuLag e) := by
  have h1 := h.put (e := e) (f := FBK_EMU_ST.lag) (v := satN 0xFFFF (s.emuTarget e - (s.fb e).out).natAbs) (by decide)
  exact ((h1.put (by decide)).ev_pFbk (by decide)).ite ((h1.put (by decide)).ite h1)

theorem IndexKept.emuRefresh {src : Nat} : IndexKept ch s₀ (s.emuRefresh src) :=
  overAll_induct h fun _ _ h' => h'.emuLag.ite h'

theorem IndexKept.cmpLoad {old new : Int} : IndexKept ch s₀ (s.cmpLoad ch old new) := by
  have hskip : IndexKept ch s₀ (s.cmpSkip ch new) :=
    h.ite ((((h.put (by decide)).put (by decide)).put (by decide)).ev_pFbk (by decide))
  exact hskip.ite h

theorem IndexKept.countBy {dn : Int} : IndexKept ch s₀ (s.countBy ch dn) :=
  (h.setFb.setFb.put (by decide)).ite h.setFb

theorem IndexKept.snapCount {d : Int} : IndexKept ch s₀ (s.snapCount ch d) :=
  (h.countBy.ite h.countBy.cmpLoad).emuRefresh

theorem IndexKept.indexPolicy (hc : ch < 96) {d : Int} : IndexKept ch s₀ (s.indexPolicy ch d) := by
  have h1 : ∀ v, IndexKept ch s₀ (s.put (pFbk ch) FBK_BLK.unc v) := fun v => h.put (by decide)
  have hsnap := (h1 0).ite ((h1 0).snapCount (d := d)) (c := (s.fb ch).loadAt = some s.now)
  exact ((h.evC_pFbk hc (by decide)).ite h).ite ((hsnap.put (by decide)).ite ((hsnap.evC_pFbk hc (by decide)).ite (h1 0)))

theorem IndexKept.setPr {e : Nat} {r : ProfSt} : IndexKept ch s₀ (s.setPr e r) := h.of_regs rfl

theorem IndexKept.homeIndex (hc : ch < 96) : IndexKept ch s₀ (s.homeIndex ch) := by
  have hcap : ∀ x, IndexKept ch s₀ (s.setCap ch x) := fun _ => (h.setPr.putProf hc).putProf hc
  have hgo : ∀ {u}, IndexKept ch s₀ u → IndexKept ch s₀ (u.homeGo ch 4 .stop) := fun hu => hu.setPr.putProf hc
  exact (hgo (hcap _)).ite h

end

theorem State.fb_homeIndex (s : State) (ch e : Nat) : (s.homeIndex ch).fb e = s.fb e := by
  have hcap : ∀ x, (s.setCap ch x).fb e = s.fb e := fun _ => rfl
  have hgo : ∀ (u : State) h g, (u.homeGo ch h g).fb e = u.fb e := fun _ _ _ => rfl
  simp only [State.homeIndex]
  split
  · rw [hgo, hcap]
  · rfl

/-! The record of an index. -/

/-- An index is recorded, before it acts under the policy. -/
def State.indexNoted (s : State) (ch : Nat) : State :=
  let p := pFbk ch
  let q := (s.fb ch).n % (s.fbkK ch : Int)
  let s1 := (s.setFb ch { s.fb ch with zq := true }).put p FBK_IDX_ACT.act q.toNat
  let s2 := s1.putI p FBK_IDX_ERR.d (wrapDiff (s.fbkK ch : Int) q (s.get p FBK_IDX_EXP.exp : Int))
  ((s2.put p FBK_IDX_THI.t (t72Hi (s.corrected ch))).put p FBK_IDX_TLO.t (t72Lo (s.corrected ch))).ev p 2

section
variable (s : State) (ch : Nat)

theorem State.get_indexNoted_act : (s.indexNoted ch).get (pFbk ch) FBK_IDX_ACT.act =
    ((s.fb ch).n % (s.fbkK ch : Int)).toNat % 2 ^ 28 := by
  unfold State.indexNoted
  rw [State.get_ev_ne _ _ _ (by simp) (by simp), State.get_put_word _ _ _ _ _ _ (by simp), State.get_put_word _ _ _ _ _ _ (by simp),
    State.putI, State.get_put_word _ _ _ _ _ _ (by simp), State.get_put_same _ _ _ _ (by decide) (by decide)]
  rfl

theorem State.getI_indexNoted_d : (s.indexNoted ch).getI (pFbk ch) FBK_IDX_ERR.d =
    sint 36 (unsint 36 (wrapDiff (s.fbkK ch) ((s.fb ch).n % (s.fbkK ch : Int)) (s.get (pFbk ch) FBK_IDX_EXP.exp))) := by
  unfold State.indexNoted
  rw [State.getI, State.get_ev_ne _ _ _ (by simp) (by simp), State.get_put_word _ _ _ _ _ _ (by simp),
    State.get_put_word _ _ _ _ _ _ (by simp), State.putI, State.get_put_of_lt _ _ _ (by decide) (by decide) (unsint_lt _ _)]
  rfl

theorem State.reg_indexNoted_time : (s.indexNoted ch).reg (pFbk ch + 0x18) = t72Hi (s.corrected ch) % 2 ^ 36 ∧
    (s.indexNoted ch).reg (pFbk ch + 0x19) = t72Lo (s.corrected ch) % 2 ^ 36 := by
  unfold State.indexNoted
  constructor
  · rw [State.reg_ev_ne _ _ _ (by simp) (by simp), State.reg_put_ne _ _ _ _ _ (by simp)]
    exact State.reg_put_whole _ _ rfl rfl _
  · rw [State.reg_ev_ne _ _ _ (by simp) (by simp)]
    exact State.reg_put_whole _ _ rfl rfl _

theorem State.ev_indexNoted : bitN ((s.indexNoted ch).get (pFbk ch) PAGE_EV.ev) 2 = true := by
  unfold State.indexNoted
  rw [State.get_ev_ev _ _ (by decide), bitN_setBitN, beq_self_eq_true, Bool.or_true]

/-- The position after the policy is shown last. -/
def State.indexShown (s : State) (ch : Nat) : State :=
  (s.put (pFbk ch) FBK_IDX_PHI.p (p72Hi (s.fbkPos ch))).put (pFbk ch) FBK_IDX_PLO.p (p72Lo (s.fbkPos ch))

theorem State.indexEdge_eq : s.indexEdge ch = ((s.indexNoted ch).indexPolicy ch
    (wrapDiff (s.fbkK ch) ((s.fb ch).n % (s.fbkK ch : Int)) (s.get (pFbk ch) FBK_IDX_EXP.exp))).indexShown ch := by
  unfold State.indexEdge
  rfl

theorem State.regW_indexShown {o : Nat} (h : o ≠ 0x16 ∧ o ≠ 0x17) : (s.indexShown ch).regW (pFbk ch + o) = s.regW (pFbk ch + o) := by
  unfold State.indexShown
  rw [State.regW_put_ne _ _ _ _ (by simp; omega), State.regW_put_ne _ _ _ _ (by simp; omega)]

theorem State.reg_indexShown : (s.indexShown ch).reg (pFbk ch + 0x16) = p72Hi (s.fbkPos ch) % 2 ^ 36 ∧
    (s.indexShown ch).reg (pFbk ch + 0x17) = p72Lo (s.fbkPos ch) % 2 ^ 36 := by
  unfold State.indexShown
  constructor
  · rw [State.reg_put_ne _ _ _ _ _ (by simp)]
    exact State.reg_put_whole _ _ rfl rfl _
  · exact State.reg_put_whole _ _ rfl rfl _

end

section
variable {s : State} {ch : Nat}

theorem doIndex_not (h : s.indexQualifies ch = false) : doIndex ch s = s := if_neg (by simp [h])

theorem State.indexQualifies_faulted (h : (s.fb ch).faults.contains 2 = true) : s.indexQualifies ch = false := by
  simp only [State.indexQualifies, h, Bool.not_true, Bool.and_false, Bool.false_and]

/-- A qualified index leaves its record, with the position that the policy left. -/
theorem doIndex_spec (hc : ch < 96) (h : s.indexQualifies ch = true) : ∃ t : State, doIndex ch s = (t.indexShown ch).homeIndex ch ∧
    IndexKept ch (s.indexNoted ch) t :=
  ⟨_, (if_pos ⟨hc, h⟩).trans (congrArg (State.homeIndex · ch) (s.indexEdge_eq ch)), (IndexKept.refl ch _).indexPolicy hc⟩

theorem doZFall_sound (hc : ch < 96) (h : (s.fb ch).faults.contains 2 = false) :
    doZFall ch s = s.setFb ch { s.fb ch with zq := false } := if_pos ⟨hc, h⟩

theorem doZFall_faulted (h : (s.fb ch).faults.contains 2 = true) : doZFall ch s = s :=
  if_neg fun hn => absurd (h.symm.trans hn.2) (by decide)

/-! The policy (R203). -/

theorem outside_iff (tol : Nat) (d : Int) : (decide ((tol : Int) < d) || decide (d < -(tol : Int))) = decide (tol < d.natAbs) := by
  rw [← Bool.decide_or, decide_eq_decide]
  omega

theorem State.indexPolicy_record {d : Int} (h : s.get (pFbk ch) FBK_IDX_CFG.policy = 0) : s.indexPolicy ch d =
    if s.get (pFbk ch) FBK_BLK.ref = 1 ∧ s.get (pFbk ch) FBK_IDX_CFG.tol < d.natAbs then s.evC (pFbk ch) 3 else s := by
  simp only [State.indexPolicy, outside_iff, decide_eq_true_eq]
  rw [if_pos h]

section
variable {d : Int} (h : s.get (pFbk ch) FBK_IDX_CFG.policy = 1)
include h

theorem State.indexPolicy_unreferenced (hr : s.get (pFbk ch) FBK_BLK.ref = 0) (hl : (s.fb ch).loadAt = none) :
    s.indexPolicy ch d = ((s.put (pFbk ch) FBK_BLK.unc 0).snapCount ch d).put (pFbk ch) FBK_BLK.ref 1 := by
  simp only [State.indexPolicy]
  rw [if_neg (by omega), if_pos hr, if_neg (by simp [hl])]

section
variable (hr : s.get (pFbk ch) FBK_BLK.ref = 1)
include hr

theorem State.indexPolicy_within (hd : d.natAbs ≤ s.get (pFbk ch) FBK_IDX_CFG.tol) : s.indexPolicy ch d = s.put (pFbk ch) FBK_BLK.unc 0 := by
  simp only [State.indexPolicy, outside_iff, decide_eq_true_eq]
  rw [if_neg (by omega), if_neg (by omega), if_neg (by omega)]

theorem State.indexPolicy_snap (hl : (s.fb ch).loadAt = none) (hd : s.get (pFbk ch) FBK_IDX_CFG.tol < d.natAbs) :
    s.indexPolicy ch d = ((s.put (pFbk ch) FBK_BLK.unc 0).snapCount ch d).evC (pFbk ch) 3 := by
  simp only [State.indexPolicy, outside_iff, decide_eq_true_eq]
  rw [if_neg (by omega), if_neg (by omega), if_pos hd, if_neg (by simp [hl])]

end
end
end

end Sys2Proof.Machine
end

section
/-! PROOF. Sin/cos samples, serial frames and register accesses of a feedback page (R204 to R211). -/

namespace Sys2Proof.Machine

/-- A command of a block's own clock that does nothing where the clock runs does nothing at all. -/
theorem State.next_clocked_idle {s : State} {a : Nat} {k : State → State} (h : k s = s) :
    (Host.Outcome.next (s.clocked a k) : Out) = .next s := by
  rw [State.clocked, h, ite_self]

/-! Sin/cos samples (R204 to R206). -/

theorem scA2_lt (v : Rat × Rat) : scA2 v < 2 ^ 18 := by
  have h := clampI_bounds (show (0 : Int) ≤ 2 ^ 18 - 1 by decide) (nearInt ((v.1 * v.1 + v.2 * v.2) * 2 ^ 16))
  unfold scA2
  omega

/-- A sample is shown in FBK_SC_MEAS. -/
def State.sampleShown (s : State) (ch : Nat) (v : Rat × Rat) : State :=
  (s.put (pFbk ch) FBK_SC_MEAS.a2 (scA2 v)).put (pFbk ch) FBK_SC_MEAS.phi (atan2Turn v.1 v.2)

section
variable (s : State) (ch : Nat) (v : Rat × Rat)

theorem State.get_sampleShown_a2 : (s.sampleShown ch v).get (pFbk ch) FBK_SC_MEAS.a2 = scA2 v := by
  rw [State.sampleShown, State.get_put_field _ _ _ _ _ _ (by decide) (by decide) (by decide) (by decide)]
  exact State.get_put_of_lt _ _ _ (by decide) (by decide) (scA2_lt v)

theorem State.get_sampleShown_phi : (s.sampleShown ch v).get (pFbk ch) FBK_SC_MEAS.phi = atan2Turn v.1 v.2 % 2 ^ 18 :=
  State.get_put_same _ _ _ _ (by decide) (by decide)

theorem State.sampleShown_regs : RegsOnly [pFbk ch + 0x24] s (s.sampleShown ch v) :=
  ((RegsOnly.refl s _).put _ (by simp)).put _ (by simp)

end

section
variable {s : State} {ch : Nat} {a b : Int}

theorem doSincosSample_not (h : s.fbkMode ch ≠ 2) : doSincosSample ch a b s = s := if_pos (.inr h)

section
variable (hc : ch < 96) (hm : s.fbkMode ch = 2)
include hc hm

section
variable (hlo : s.get (pFbk ch) FBK_SC_AMP.lo ≤ scA2 (s.scValues ch a b)) (hhi : scA2 (s.scValues ch a b) ≤ s.get (pFbk ch) FBK_SC_AMP.hi)
include hlo hhi

theorem doSincosSample_shown (hp : s.get (pFbk ch) FBK_BLK.phist = 0) :
    doSincosSample ch a b s = s.sampleShown ch (s.scValues ch a b) := by
  simp only [doSincosSample]
  rw [if_neg (by omega), if_neg (by omega), if_neg (by omega)]
  rfl

theorem doSincosSample_position (hp : s.get (pFbk ch) FBK_BLK.phist = 1) :
    doSincosSample ch a b s = (s.sampleShown ch (s.scValues ch a b)).scPosition ch
      (atan2Turn (s.scValues ch a b).1 (s.scValues ch a b).2) (scA2 (s.scValues ch a b)) := by
  simp only [doSincosSample]
  rw [if_neg (by omega), if_pos hp, if_neg (by omega)]
  rfl

end

theorem doSincosSample_outside (hp : s.get (pFbk ch) FBK_BLK.phist = 0)
    (h : scA2 (s.scValues ch a b) < s.get (pFbk ch) FBK_SC_AMP.lo ∨ s.get (pFbk ch) FBK_SC_AMP.hi < scA2 (s.scValues ch a b)) :
    doSincosSample ch a b s = (((s.sampleShown ch (s.scValues ch a b)).setFb ch
      { (s.sampleShown ch (s.scValues ch a b)).fb ch with amp := true }).setUnc ch).evC (pFbk ch) 5 := by
  simp only [doSincosSample]
  rw [if_neg (by omega), if_neg (by omega), if_pos h]
  rfl

end
end

/-! The causes of bad frames (R208 to R210). -/

theorem frameCause_lt (mode tmo : Nat) (f : SerialFrame) : frameCause mode tmo f < 5 := by
  unfold frameCause
  split
  · split
    · decide
    · split <;> decide
  · split
    · decide
    · split
      · decide
      · split <;> decide

theorem frameCause_notStarted {tmo : Nat} {f : SerialFrame} (h : f.started tmo = false) : frameCause 4 tmo f = 2 := by
  simp [frameCause, h]

theorem State.frameFits_notStarted {s : State} {ch : Nat} {f : SerialFrame} (hm : s.fbkMode ch = 4)
    (h : f.started (s.get (pFbk ch) FBK_SER_TIM.tmo) = false) : s.frameFits ch f = true := by
  simp [State.frameFits, hm, h]

/-! The end of a frame (R207 to R210). -/

/-- A frame ends, and the wait of its page begins. -/
def State.frameWaits (s : State) (ch n : Nat) : State := s.setFb ch { s.fb ch with wait := s.now + n }

/-- A frame of mode 4 shows its slaves and its delay besides. -/
def State.bissShown (s : State) (ch : Nat) (f : SerialFrame) : State :=
  ((s.frameWaits ch f.slo).put (pFbk ch) FBK_SER_STAT.sl (slaveBits f.slaves)).put (pFbk ch) FBK_SER_LD.ld (satN 0xFFFF f.delay)

section
variable (s : State) (ch : Nat)

theorem State.fb_frameWaits (n : Nat) : (s.frameWaits ch n).fb ch = { s.fb ch with wait := s.now + n } := State.fb_setFb_same _ _ _

theorem State.frameWaits_regs (n : Nat) {as : List Nat} : FbkRegs as s (s.frameWaits ch n) := (FbkRegs.refl as s).setFb

theorem State.fb_bissShown (f : SerialFrame) : (s.bissShown ch f).fb ch = { s.fb ch with wait := s.now + f.slo } := by
  rw [State.bissShown, State.fb_put, State.fb_put, State.fb_frameWaits]

theorem State.bissShown_regs (f : SerialFrame) : FbkRegs [pFbk ch + 0x2B, pFbk ch + 0x2D] s (s.bissShown ch f) :=
  ((s.frameWaits_regs ch f.slo).put (by simp)).put (by simp)

theorem State.get_bissShown_sl (f : SerialFrame) : (s.bissShown ch f).get (pFbk ch) FBK_SER_STAT.sl = slaveBits f.slaves % 2 ^ 12 := by
  rw [State.bissShown, State.get_put_word _ _ _ _ _ _ (by simp)]
  exact State.get_put_same _ _ _ _ (by decide) (by decide)

theorem State.get_bissShown_ld (f : SerialFrame) : (s.bissShown ch f).get (pFbk ch) FBK_SER_LD.ld = min 0xFFFF f.delay := by
  rw [State.bissShown, satN_eq_min]
  exact State.get_put_of_lt _ _ _ (by decide) (by decide) (by show _ < 2 ^ 16; omega)

end

section
variable {s : State} {ch : Nat} {f : SerialFrame}

theorem doSerialFrameEnd_not (h : ¬(s.fbkMode ch = 3 ∨ s.fbkMode ch = 4) ∨ s.frameFits ch f = false) : doSerialFrameEnd ch f s = s :=
  if_pos (.inr h)

theorem doSerialFrameEnd_none (h : (s.fb ch).pend = []) : doSerialFrameEnd ch f s = s := by
  simp only [doSerialFrameEnd, h, ite_self]

section
variable {q : PendLatch} {rest : List PendLatch} (hc : ch < 96) (hp : (s.fb ch).pend = q :: rest) (hq : q.ended = false)
  (hfit : s.frameFits ch f = true)
include hc hp hq hfit

theorem doSerialFrameEnd_mode3 (hm : s.fbkMode ch = 3) : doSerialFrameEnd ch f s =
    if frameCause 3 (s.get (pFbk ch) FBK_SER_TIM.tmo) f = 0
      then (s.frameWaits ch (400 * s.get (pFbk ch) FBK_SER_TIM.tm)).goodFrame ch f q rest
      else (s.frameWaits ch (400 * s.get (pFbk ch) FBK_SER_TIM.tm)).badFrame ch
        (frameCause 3 (s.get (pFbk ch) FBK_SER_TIM.tmo) f) q rest := by
  have h4 : ¬s.fbkMode ch = 4 := by omega
  simp only [doSerialFrameEnd]
  rw [if_neg (by simp [hm, hfit]; omega)]
  split
  next h => exact absurd (h.symm.trans hp) (by simp)
  next q' rest' h =>
    obtain ⟨rfl, rfl⟩ := List.cons.inj (h.symm.trans hp)
    simp only [if_neg h4, hq, Bool.false_eq_true, if_false]
    rw [hm]
    rfl

theorem doSerialFrameEnd_mode4 (hm : s.fbkMode ch = 4) (he : f.accessEnd = none) : doSerialFrameEnd ch f s =
    if frameCause 4 (s.get (pFbk ch) FBK_SER_TIM.tmo) f = 0 then (s.bissShown ch f).goodFrame ch f q rest
      else (s.bissShown ch f).badFrame ch (frameCause 4 (s.get (pFbk ch) FBK_SER_TIM.tmo) f) q rest := by
  simp only [doSerialFrameEnd]
  rw [if_neg (by simp [hm, hfit]; omega)]
  split
  next h => exact absurd (h.symm.trans hp) (by simp)
  next q' rest' h =>
    obtain ⟨rfl, rfl⟩ := List.cons.inj (h.symm.trans hp)
    simp only [if_pos hm, hq, Bool.false_eq_true, if_false, he]
    rw [hm]
    rfl

end
end

/-! A bad frame (R210). -/

theorem State.badFrame_spec (s : State) (ch : Nat) {cause : Nat} (hcause : cause < 5) (q : PendLatch) (rest : List PendLatch)
    (hb : (s.fb ch).bads ≠ 2) : ∃ u : State, s.badFrame ch cause q rest = u.evC (pFbk ch) 6 ∧
      u.fb ch = { s.fb ch with
        bads := (s.fb ch).bads + 1, goods := [],
        pend := { q with ended := true, ready := s.now + 3, pos := some (s.fbkPos ch), fresh := false,
                         t64 := (s.fb ch).vt, key := (s.fb ch).vk } :: rest } ∧
      u.get (pFbk ch) FBK_SER_STAT.cause = cause ∧
      u.get (pFbk ch) FBK_SER_STAT.err = (s.get (pFbk ch) FBK_SER_STAT.err + 1) % 2 ^ 12 := by
  unfold State.badFrame
  extract_lets p r s1 s2 s3
  refine ⟨_, if_neg hb, ?_, ?_, ?_⟩
  · rw [State.incMod, State.fb_put, State.fb_put]
    exact State.fb_setFb_same _ _ _
  · rw [State.incMod, State.get_put_field _ _ _ _ _ _ (by decide) (by decide) (by decide) (by decide)]
    exact State.get_put_of_lt _ _ _ (by decide) (by decide) (by show cause < 2 ^ 4; omega)
  · rw [State.get_incMod_same _ _ _ (by decide) (by decide),
      State.get_put_field _ _ _ _ _ _ (by decide) (by decide) (by decide) (by decide)]
    rfl

/-! A good frame (R207, R210). -/

/-- The position depends on the page's configuration and on the last good frame alone. -/
theorem State.framePos_congr {s t : State} {ch : Nat} (hraw : (t.fb ch).raw = (s.fb ch).raw) (hfrac : (t.fb ch).frac = (s.fb ch).frac)
    (hget : ∀ f : Fld, f.off = 0x10 ∨ f.off = 0x25 → t.get (pFbk ch) f = s.get (pFbk ch) f) (f : SerialFrame) :
    t.framePos ch f = s.framePos ch f := by
  have hbits : t.frameBits ch f = s.frameBits ch f := by
    simp only [State.frameBits, hget FBK_CFG.mode (.inl rfl), hget FBK_SER_CFG.gray (.inr rfl)]
  simp only [State.framePos, hbits, hraw, hfrac, hget FBK_CFG.dir (.inl rfl), hget FBK_SER_CFG.mt (.inr rfl),
    hget FBK_SER_CFG.st (.inr rfl)]

/-- The record that a good frame leaves. -/
def State.goodFb (s : State) (ch : Nat) (f : SerialFrame) (q : PendLatch) (rest : List PendLatch) : FbkSt :=
  { s.fb ch with
    raw := s.framePos ch f
    frac := some (bitsNat (s.frameBits ch f) % 2 ^ s.get (pFbk ch) FBK_SER_CFG.st * 2 ^ (36 - s.get (pFbk ch) FBK_SER_CFG.st))
    vt := q.t64, vk := q.key, bads := 0, goods := (s.framePos ch f, q.t64, q.key) :: (s.fb ch).goods.take 1
    pend := { q with ended := true, ready := s.now + 3, pos := some (s.framePos ch f + (s.fb ch).offs) } :: rest }

/-- The words that a good frame writes. -/
abbrev frameWords (ch : Nat) : List Nat := [pFbk ch + 2, pFbk ch + 0x28, pFbk ch + 0x29, pFbk ch + 0x2A]

/-- A page with a record has a valid position, and nothing else differs but the words of a good frame. -/
structure FramePosition (s₀ : State) (ch : Nat) (r : FbkSt) (s : State) : Prop where
  fb : s.fb ch = r
  phist : s.get (pFbk ch) FBK_BLK.phist = 1
  unc : s.get (pFbk ch) FBK_BLK.unc = 0
  regs : FbkRegs (frameWords ch) s₀ s

theorem FramePosition.put {s₀ s : State} {ch : Nat} {r : FbkSt} (h : FramePosition s₀ ch r s) {f : Fld} (v : Nat)
    (hf : pFbk ch + f.off ∈ frameWords ch) (hle : f.lo ≤ f.hi) (h36 : f.hi < 36)
    (hout : f.off = 2 → f.Apart FBK_BLK.phist ∧ f.Apart FBK_BLK.unc) :
    FramePosition s₀ ch r (s.put (pFbk ch) f v) := by
  refine ⟨(s.fb_put _ _ _ ch).trans h.fb, ?_, ?_, h.regs.put hf⟩
  · by_cases ho : f.off = 2
    · exact (State.get_put_field _ _ _ _ _ _ hle h36 (by decide) (hout ho).1).trans h.phist
    · exact (State.get_put_word _ _ _ _ _ _ (by simp; omega)).trans h.phist
  · by_cases ho : f.off = 2
    · exact (State.get_put_field _ _ _ _ _ _ hle h36 (by decide) (hout ho).2).trans h.unc
    · exact (State.get_put_word _ _ _ _ _ _ (by simp; omega)).trans h.unc

/-- While neither a compare nor an emulating page is on, a good frame only gives the position. -/
theorem State.goodFrame_position {s : State} {ch : Nat} (hcmp : s.get (pFbk ch) FBK_CMP_CTL.en = 0) (hemu : ∀ e < 96, s.fbkMode e ≠ 5)
    (f : SerialFrame) (q : PendLatch) (rest : List PendLatch) :
    FramePosition s ch (s.goodFb ch f q rest) (s.goodFrame ch f q rest) := by
  unfold State.goodFrame
  extract_lets p r old raw st fr first s1 s2 s3 s4 s5
  have h2 : FramePosition s ch (s.goodFb ch f q rest) s2 := by
    have h1 : FbkRegs (frameWords ch) s s1 := (FbkRegs.refl _ s).setFb
    refine ⟨(State.fb_put _ _ _ _ ch).trans ((State.fb_put _ _ _ _ ch).trans (State.fb_setFb_same s ch _)), ?_,
      State.get_put_of_lt _ _ _ (by decide) (by decide) (by decide), (h1.put (by simp [p])).put (by simp [p])⟩
    refine (State.get_put_field _ _ _ _ _ _ (by decide) (by decide) (by decide) (by decide)).trans ?_
    exact State.get_put_of_lt _ _ _ (by decide) (by decide) (by decide)
  have h3 : FramePosition s ch (s.goodFb ch f q rest) s3 := by
    by_cases h : 0 < s.get p FBK_SER_CFG.mt ∧ first
    · rw [show s3 = _ from if_pos h]
      exact h2.put _ (by simp) (by decide) (by decide) (by decide)
    · rwa [show s3 = _ from if_neg h]
  have h4 : FramePosition s ch (s.goodFb ch f q rest) s4 := by
    by_cases h : r.goods = []
    · rwa [show s4 = _ from if_pos h]
    · rw [show s4 = _ from if_neg h]
      exact h3.put _ (by simp) (by decide) (by decide) (by decide)
  have h5 : FramePosition s ch (s.goodFb ch f q rest) s5 := by
    have hstep : ∀ k < 3, ∀ u, FramePosition s ch (s.goodFb ch f q rest) u → FramePosition s ch (s.goodFb ch f q rest)
        (if k + 1 < f.slaves.length then u.put p (FBK_BISS_D.d k) (bitsNat ((f.slaves.getD (k + 1) {}).bits)) else u) := by
      intro k hk u hu
      split
      · exact hu.put _ (by simp; omega) (by simp) (by simp) (by simp; omega)
      · exact hu
    exact hstep 2 (by decide) _ (hstep 1 (by decide) _ (hstep 0 (by decide) _ h4))
  have hcmp5 : s5.get p FBK_CMP_CTL.en = 0 := (h5.regs.get (by simp [p])).trans hcmp
  have hemu5 : ∀ e < 96, s5.fbkMode e ≠ 5 := fun e he => by
    rw [h5.regs.fbkMode (by simp [pFbk_add_mod])]
    exact hemu e he
  rwa [State.cmpMove_of_off hcmp5, State.emuRefresh_of_none hemu5]

/-! Register accesses (R211). -/

theorem FbkRegs.setReg {as : List Nat} {s t : State} (h : FbkRegs as s t) {a v : Nat} (ha : a ∈ as) : FbkRegs as s (t.setReg a v) :=
  RegsOnly.setReg_mem h v ha

/-- The fields of FBK_BISS_REQ that a write reaches. -/
def bissFields : List Fld := [FBK_BISS_REQ.rd, FBK_BISS_REQ.idn, FBK_BISS_REQ.addr, FBK_BISS_REQ.data]

theorem fieldsFit_bissFields : FieldsFit bissFields := by decide

section
variable {s : State} {ch : Nat} {v : Word} (hc : ch < 96)
include hc

theorem State.mergeWord_bissReq (ini w : Nat) :
    s.mergeWord ini (pFbk ch + 0x2C) w = (takeFields bissFields (s.reg (pFbk ch + 0x2C)) w, false) := by
  have hw : wordFields (pFbk ch + 0x2C) = [FBK_BISS_REQ.go, FBK_BISS_REQ.rd, FBK_BISS_REQ.done, FBK_BISS_REQ.fail, FBK_BISS_REQ.idn,
      FBK_BISS_REQ.addr, FBK_BISS_REQ.data] := (wordFields_pFbk hc (by decide) (by decide)).trans (by decide)
  rw [State.mergeWord, hw]
  rfl

theorem doBissReq_busy (hgo : fldGet v.toNat FBK_BISS_REQ.go = 1) (hb : (s.fb ch).biss = true) : doBissReq ch v s = s.ev (pFbk ch) 13 := by
  simp only [doBissReq]
  rw [if_neg (by omega), if_pos hgo, if_pos hb]

/-- The written request, with neither result. -/
def State.bissAsked (s : State) (ch w : Nat) : State :=
  ((s.setReg (pFbk ch + 0x2C) (takeFields bissFields (s.reg (pFbk ch + 0x2C)) w)).put (pFbk ch) FBK_BISS_REQ.done 0).put (pFbk ch)
    FBK_BISS_REQ.fail 0

theorem doBissReq_starts (hgo : fldGet v.toNat FBK_BISS_REQ.go = 1) (hb : (s.fb ch).biss = false) :
    doBissReq ch v s = (s.bissAsked ch v.toNat).setFb ch { (s.bissAsked ch v.toNat).fb ch with biss := true } := by
  simp only [doBissReq]
  rw [if_neg (by omega), if_pos hgo, if_neg (by simp [hb]), State.plainWrite_of_merge (State.mergeWord_bissReq hc _ _),
    State.bissAsked, State.fb_put _ (pFbk ch) FBK_BISS_REQ.fail]

theorem doBissReq_plain (hgo : fldGet v.toNat FBK_BISS_REQ.go = 0) : doBissReq ch v s =
    s.setReg (pFbk ch + 0x2C) (takeFields bissFields (s.reg (pFbk ch + 0x2C)) v.toNat) := by
  simp only [doBissReq]
  rw [if_neg (by omega), if_neg (by omega), State.plainWrite_of_merge (State.mergeWord_bissReq hc _ _)]

end

section
variable (s : State) (ch w : Nat)

theorem State.get_bissAsked_results : (s.bissAsked ch w).get (pFbk ch) FBK_BISS_REQ.done = 0 ∧
    (s.bissAsked ch w).get (pFbk ch) FBK_BISS_REQ.fail = 0 := by
  refine ⟨?_, State.get_put_of_lt _ _ _ (by decide) (by decide) (by decide)⟩
  rw [State.bissAsked, State.get_put_field _ _ _ _ _ _ (by decide) (by decide) (by decide) (by decide)]
  exact State.get_put_of_lt _ _ _ (by decide) (by decide) (by decide)

theorem State.get_bissAsked_field {f : Fld} (hf : f ∈ bissFields) : (s.bissAsked ch w).get (pFbk ch) f = fldGet w f := by
  have hfit : ∀ f ∈ bissFields, f.off = 0x2C ∧ f.lo ≤ f.hi ∧ FBK_BISS_REQ.done.Apart f ∧ FBK_BISS_REQ.fail.Apart f := by decide
  obtain ⟨hoff, hle, hdone, hfail⟩ := hfit f hf
  rw [State.bissAsked, State.get_put_field _ _ _ _ _ _ (by decide) (by decide) hle hfail,
    State.get_put_field _ _ _ _ _ _ (by decide) (by decide) hle hdone, State.get_setReg_takeFields _ fieldsFit_bissFields hf hoff]

theorem State.bissAsked_regs : FbkRegs [pFbk ch + 0x2C] s (s.bissAsked ch w) := by
  have h : FbkRegs [pFbk ch + 0x2C] s s := FbkRegs.refl _ s
  unfold State.bissAsked
  exact ((h.setReg (by simp)).put (by simp)).put (by simp)

end

end Sys2Proof.Machine
end

section
/-! PROOF. The statement on the index, the samples and the serial frames of a feedback page. -/

namespace Sys2Proof.Machine

/-- A bad frame after a frame's wait has begun leaves the position where it was. -/
theorem State.badFrame_waiting {s w : State} {ch n cause : Nat} (hw : w.fb ch = { s.fb ch with wait := n }) (hnow : w.now = s.now)
    (hcause : cause < 5) (q : PendLatch) (rest : List PendLatch) (hb : (s.fb ch).bads ≠ 2) : ∃ u : State,
      w.badFrame ch cause q rest = u.evC (pFbk ch) 6 ∧ u.fbkPos ch = s.fbkPos ch ∧ (u.fb ch).bads = (s.fb ch).bads + 1 ∧
      u.get (pFbk ch) FBK_SER_STAT.cause = cause ∧
      u.get (pFbk ch) FBK_SER_STAT.err = (w.get (pFbk ch) FBK_SER_STAT.err + 1) % 2 ^ 12 ∧ (u.fb ch).wait = n ∧
      (u.fb ch).pend = { q with ended := true, ready := s.now + 3, pos := some (s.fbkPos ch), fresh := false,
                                t64 := (s.fb ch).vt, key := (s.fb ch).vk } :: rest := by
  have hpos : w.fbkPos ch = s.fbkPos ch := by rw [State.fbkPos, hw, State.fbkPos]
  obtain ⟨u, hu, hfb, hc, he⟩ := w.badFrame_spec ch hcause q rest (by rwa [hw])
  rw [hw, hnow, hpos] at hfb
  exact ⟨u, hu, by rw [State.fbkPos, hfb, State.fbkPos], by rw [hfb], hc, he, by rw [hfb], by rw [hfb]⟩

/-- A good frame after a frame's wait has begun gives the position that it carries. -/
theorem State.goodFrame_waiting {s w : State} {ch n : Nat} (hw : w.fb ch = { s.fb ch with wait := n }) {as : List Nat} (hregs : FbkRegs as s w)
    (has : ∀ a ∈ as, a = pFbk ch + 0x2B ∨ a = pFbk ch + 0x2D) (hcmp : s.get (pFbk ch) FBK_CMP_CTL.en = 0)
    (hemu : ∀ e < 96, s.fbkMode e ≠ 5) (f : SerialFrame) (q : PendLatch) (rest : List PendLatch) :
    FramePosition w ch { w.goodFb ch f q rest with
      raw := s.framePos ch f, wait := n, bads := 0,
      pend := { q with ended := true, ready := s.now + 3, pos := some (s.framePos ch f + (s.fb ch).offs) } :: rest }
      (w.goodFrame ch f q rest) := by
  have hne : ∀ {o}, o ≠ 0x2B → o ≠ 0x2D → pFbk ch + o ∉ as := fun h1 h2 hm => by
    have := has _ hm
    omega
  have hpos : w.framePos ch f = s.framePos ch f :=
    State.framePos_congr (by rw [hw]) (by rw [hw]) (fun g hg => hregs.get (hne (by omega) (by omega))) f
  have hmode : ∀ a ∈ as, a % 0x100 ≠ 1 ∧ a % 0x100 ≠ 0x10 := fun a ha => by
    rcases has a ha with rfl | rfl
    · rw [pFbk_add_mod (by decide)]; decide
    · rw [pFbk_add_mod (by decide)]; decide
  have h := State.goodFrame_position (s := w) (ch := ch) ((hregs.get (hne (by decide) (by decide))).trans hcmp)
    (fun e he => by rw [hregs.fbkMode hmode]; exact hemu e he) f q rest
  have hfb : w.goodFb ch f q rest = { w.goodFb ch f q rest with
      raw := s.framePos ch f, wait := n, bads := 0,
      pend := { q with ended := true, ready := s.now + 3, pos := some (s.framePos ch f + (s.fb ch).offs) } :: rest } := by
    rw [State.goodFb, hpos, hw, hregs.now]
  rwa [← hfb]

end Sys2Proof.Machine

namespace Sys2Proof

open Machine

/-- Settles O32: the record of an index outlives what follows it, and a frame begins its page's wait before it ends good or bad. -/
theorem feedbackIndexAndFrames : Obligations.FeedbackIndexAndFrames := by
  refine ⟨?indexOff, ?index, fun K q e hK => wrapDiff_spec q e hK, ?unreferenced, ?within, ?snap, ?record, ?zFall, ?zFault, ?sampleOff,
    ?sampleShown, ?sampleOutside, ?samplePosition, ?frameOff, ?frameNone, ?bad3, ?frameUnfit, ?bad4, ?good3, ?good4, ?bissBusy,
    ?bissStarts, ?bissPlain⟩
  case indexOff =>
    intro s ch h
    exact State.next_of_eq (doIndex_not h)
  case index =>
    intro s ch hc h
    obtain ⟨t, ht, hkept⟩ := doIndex_spec hc h
    have hshown := (IndexKept.refl ch (t.indexShown ch)).homeIndex hc
    have hword : ∀ o, 0x14 ≤ o → o ≤ 0x19 → o ≠ 0x16 ∧ o ≠ 0x17 →
        ((t.indexShown ch).homeIndex ch).regW (pFbk ch + o) = (s.indexNoted ch).regW (pFbk ch + o) := fun o hlo hhi hne =>
      (hshown.regW o hlo hhi).trans ((t.regW_indexShown ch hne).trans (hkept.regW o hlo hhi))
    have hpos : ((t.indexShown ch).homeIndex ch).fbkPos ch = t.fbkPos ch := by
      rw [State.fbkPos, State.fb_homeIndex]
      rfl
    obtain ⟨hthi, htlo⟩ := s.reg_indexNoted_time ch
    obtain ⟨hphi, hplo⟩ := t.reg_indexShown ch
    refine ⟨_, State.next_of_eq ht, ?_, ?_, ?_, ?_, ?_, ?_, ?_⟩
    · exact (congrArg (fun w : Word => fldGet w.toNat FBK_IDX_ACT.act) (hword 0x14 (by decide) (by decide) (by decide))).trans
        (s.get_indexNoted_act ch)
    · exact (congrArg (fun w : Word => sint 36 (fldGet w.toNat FBK_IDX_ERR.d)) (hword 0x15 (by decide) (by decide) (by decide))).trans
        (s.getI_indexNoted_d ch)
    · exact (congrArg BitVec.toNat (hword 0x18 (by decide) (by decide) (by decide))).trans hthi
    · exact (congrArg BitVec.toNat (hword 0x19 (by decide) (by decide) (by decide))).trans htlo
    · rw [hpos]
      exact (congrArg BitVec.toNat (hshown.regW 0x16 (by decide) (by decide))).trans hphi
    · rw [hpos]
      exact (congrArg BitVec.toNat (hshown.regW 0x17 (by decide) (by decide))).trans hplo
    · refine hshown.ev ?_
      have hev : (t.indexShown ch).get (pFbk ch) PAGE_EV.ev = t.get (pFbk ch) PAGE_EV.ev :=
        congrArg (fun w : Word => fldGet w.toNat PAGE_EV.ev) (t.regW_indexShown ch (o := 3) (by decide))
      rw [hev]
      exact hkept.ev (s.ev_indexNoted ch)
  case unreferenced =>
    intro s ch d hp hr hl
    exact State.indexPolicy_unreferenced hp hr hl
  case within =>
    intro s ch d hp hr hd
    exact State.indexPolicy_within hp hr hd
  case snap =>
    intro s ch d hp hr hl hd
    exact State.indexPolicy_snap hp hr hl hd
  case record =>
    intro s ch d hp
    exact State.indexPolicy_record hp
  case zFall =>
    intro s ch hc h
    exact State.next_of_eq (doZFall_sound hc h)
  case zFault =>
    intro s ch h
    exact ⟨State.next_of_eq (doZFall_faulted h), State.next_of_eq (doIndex_not (State.indexQualifies_faulted h))⟩
  case sampleOff =>
    intro s ch a b hm
    exact State.next_clocked_idle (doSincosSample_not hm)
  case sampleShown =>
    intro s ch a b hon hc hm hp hlo hhi
    exact ⟨_, State.next_clocked hon (doSincosSample_shown hc hm hlo hhi hp), State.get_sampleShown_a2 _ _ _,
      State.get_sampleShown_phi _ _ _, State.sampleShown_regs _ _ _⟩
  case sampleOutside =>
    intro s ch a b hon hc hm hp h
    refine ⟨_, State.next_clocked hon (doSincosSample_outside hc hm hp h), ?_, State.get_setUnc _ _, ?_⟩
    · rw [State.fb_setUnc, State.fb_setFb_same]
    · rw [State.setUnc, State.get_put_word _ _ _ _ _ _ (by simp), State.get_setFb, State.get_setFb, State.get_sampleShown_a2]
  case samplePosition =>
    intro s ch a b hon hc hm hp hlo hhi
    exact ⟨_, State.next_clocked hon (doSincosSample_position hc hm hlo hhi hp), State.sampleShown_regs _ _ _⟩
  case frameOff =>
    intro s ch f h3 h4
    exact State.next_clocked_idle (doSerialFrameEnd_not (.inl (not_or.mpr ⟨h3, h4⟩)))
  case frameNone =>
    intro s ch f h
    exact State.next_clocked_idle (doSerialFrameEnd_none h)
  case bad3 =>
    intro s ch f q rest hon hc hm hp hq hfit hcause hb
    obtain ⟨u, hu, hpos, hbads, hcs, herr, hwait, hpend⟩ := State.badFrame_waiting
      (s.fb_frameWaits ch (400 * s.get (pFbk ch) FBK_SER_TIM.tm)) rfl (frameCause_lt 3 _ f) q rest hb
    exact ⟨u, State.next_clocked hon ((doSerialFrameEnd_mode3 hc hp hq hfit hm).trans ((if_neg hcause).trans hu)), hpos, hbads, hcs, herr,
      hwait, hpend⟩
  case frameUnfit =>
    intro s ch f h
    exact State.next_clocked_idle (doSerialFrameEnd_not (.inr h))
  case bad4 =>
    intro s ch f q rest hon hc hm hp hq hst he hb
    have hcause := frameCause_notStarted hst
    obtain ⟨u, hu, hpos, -, hcs, -, hwait, -⟩ := State.badFrame_waiting (s.fb_bissShown ch f) rfl (by decide : 2 < 5) q rest hb
    refine ⟨u, State.next_clocked hon ?_, hpos, hcs, hwait⟩
    rw [doSerialFrameEnd_mode4 hc hp hq (State.frameFits_notStarted hm hst) hm he, hcause, if_neg (by decide), hu]
  case good3 =>
    intro s ch f q rest hon hc hm hp hq hfit hcause hcmp hemu
    have h := State.goodFrame_waiting (s.fb_frameWaits ch (400 * s.get (pFbk ch) FBK_SER_TIM.tm)) (s.frameWaits_regs ch _ (as := []))
      (by simp) hcmp hemu f q rest
    exact ⟨_, State.next_clocked hon ((doSerialFrameEnd_mode3 hc hp hq hfit hm).trans (if_pos hcause)), by rw [h.fb], by rw [h.fb],
      h.phist, h.unc, by rw [h.fb]⟩
  case good4 =>
    intro s ch f q rest hon hc hm hp hq hfit hcause he hcmp hemu
    have h := State.goodFrame_waiting (s.fb_bissShown ch f) (s.bissShown_regs ch f) (by simp) hcmp hemu f q rest
    refine ⟨_, State.next_clocked hon ((doSerialFrameEnd_mode4 hc hp hq hfit hm he).trans (if_pos hcause)), by rw [h.fb], h.phist, h.unc,
      ?_, ?_, by rw [h.fb], by rw [h.fb]⟩
    · rw [h.regs.get (by simp), s.get_bissShown_sl]
    · rw [h.regs.get (by simp), s.get_bissShown_ld]
  case bissBusy =>
    intro s ch v ht hc hgo hb
    exact State.next_writeWord ht (doBissReq_busy hc hgo hb)
  case bissStarts =>
    intro s ch v ht hc hgo hb
    obtain ⟨hdone, hfail⟩ := s.get_bissAsked_results ch v.toNat
    exact ⟨_, State.next_writeWord ht (doBissReq_starts hc hgo hb), by rw [State.fb_setFb_same],
      (State.get_setFb _ _ _ _ _).trans hdone, (State.get_setFb _ _ _ _ _).trans hfail,
      fun f hf => (State.get_setFb _ _ _ _ _).trans (s.get_bissAsked_field ch _ hf), (s.bissAsked_regs ch _).setFb⟩
  case bissPlain =>
    intro s ch v ht hc hgo
    refine ⟨_, State.next_writeWord ht (doBissReq_plain hc hgo), fun f hf => ?_, RegsOnly.setReg _ _ _⟩
    exact State.get_setReg_takeFields s fieldsFit_bissFields hf ((by decide : ∀ f ∈ bissFields, f.off = 0x2C) f hf)

end Sys2Proof
end

section
/-! PROOF. What a pad block leaves: it may stop the channel's generator, whose event counts, and it reaches nothing that neither an event
nor a generator changes. -/

namespace Sys2Proof.Machine

/-- A state without the parts that events and stopped generators change. -/
def State.eventless (s : State) : State :=
  { s with regs := [], prof := [], wire := [], heldPosts := [], posted := [], blocked := [], fcNotify := [], logq := [] }

section
variable (s : State) (p k : Nat)

theorem State.eventless_put (f : Fld) (v : Nat) : (s.put p f v).eventless = s.eventless := rfl
theorem State.eventless_inc (f : Fld) : (s.inc p f).eventless = s.eventless := rfl
theorem State.eventless_setPr (ch : Nat) (r : ProfSt) : (s.setPr ch r).eventless = s.eventless := rfl
theorem State.eventless_noteBlocked : (s.noteBlocked p).eventless = s.eventless := rfl
theorem State.eventless_fcNotify (l : List Nat) : { s with fcNotify := l }.eventless = s.eventless := rfl
theorem State.eventless_logq (l : List LogRec) : { s with logq := l }.eventless = s.eventless := rfl

theorem State.eventless_offerPost (q : Post) : (s.offerPost q).eventless = s.eventless := by
  obtain ⟨wire, heldPosts, h⟩ := s.offerPost_frame q
  rw [h]
  rfl

theorem State.eventless_pagePost (tag : Nat) : (s.pagePost p tag).eventless = s.eventless := s.eventless_offerPost _

theorem State.eventless_ev : (s.ev p k).eventless = s.eventless := by
  obtain ⟨regs, wire, heldPosts, posted, h⟩ := s.ev_frame p k
  rw [h]
  rfl

theorem State.eventless_raiseNmiAll : (s.raiseNmiAll k).eventless = s.eventless :=
  overAll_induct (Q := fun t => t.eventless = s.eventless) rfl fun c t ht => by
    rw [State.raiseNmi, State.eventless_put, State.eventless_put, ht]

theorem State.eventless_fcBump : (s.fcBump p).eventless = s.eventless := by
  unfold State.fcBump
  split
  · rw [State.eventless_inc, State.eventless_inc]
  · rfl

theorem State.eventless_stopAtOnce (ch hres : Nat) {cnt : State → State} (hk : ∀ t, (cnt t).eventless = t.eventless) :
    (s.stopAtOnce ch hres cnt).eventless = s.eventless := by
  unfold State.stopAtOnce
  extract_lets p r k v r1 r2 s1 lost s2
  have h1 : s1.eventless = s.eventless := by
    rw [State.eventless_ev, State.eventless_put, State.eventless_put, State.eventless_put, State.eventless_setPr]
  have h2 : s2.eventless = s.eventless := by
    by_cases hl : lost
    · rw [show s2 = _ from if_pos hl, State.eventless_put, State.eventless_put, h1]
    · rw [show s2 = _ from if_neg hl, h1]
  split
  · rw [hk, State.eventless_ev, State.eventless_put, State.eventless_put, h2]
  · exact h2

theorem State.eventless_blockPlain : (s.blockPlain p).eventless = s.eventless := by
  unfold State.blockPlain
  split
  · rw [State.eventless_stopAtOnce _ _ _ fun _ => rfl, State.eventless_noteBlocked]
  · exact s.eventless_noteBlocked p

theorem State.eventless_fcStepPlain : (s.fcStepBy State.blockPlain p).1.eventless = s.eventless := by
  simp only [State.fcStepBy]
  split
  · have h : ((s.fcBump p).put p FC_STAT.lasting 1).eventless = s.eventless :=
      (State.eventless_put _ _ _ _).trans (s.eventless_fcBump p)
    refine Eq.trans ?_ h
    simp only [State.fcActionBy]
    split
    · exact State.eventless_pagePost _ _ _
    · split
      · exact State.eventless_raiseNmiAll _ _
      · split
        · exact State.eventless_fcNotify _ _
        · split
          · exact State.eventless_blockPlain _ _
          · rfl
  · exact s.eventless_fcBump p

theorem State.eventless_logLost : s.logLost.eventless = s.eventless := by
  rw [State.logLost, State.eventless_ev, State.eventless_inc]

theorem State.eventless_pushLog (r : LogRec) : (s.pushLog r).eventless = s.eventless := by
  simp only [State.pushLog]
  split
  · rfl
  · split
    · exact s.eventless_logq _
    · have h : (s.logLost.fcStepBy State.blockPlain (pMem 3)).1.eventless = s.eventless :=
        (State.eventless_fcStepPlain _ _).trans s.eventless_logLost
      split
      · rw [State.eventless_fcBump, State.eventless_logLost, h]
      · exact h

theorem State.eventless_fcPlain : (State.fcBy State.blockPlain s p).eventless = s.eventless := by
  have h := s.eventless_fcStepPlain p
  simp only [State.fcBy]
  split
  · exact (State.eventless_pushLog _ _).trans h
  · exact h

theorem State.eventless_padCause (ch : Nat) : (s.padCause ch).eventless = s.eventless := by
  unfold State.padCause
  split
  · exact s.eventless_stopAtOnce ch 6 fun t => t.eventless_fcPlain (pProf ch)
  · rfl

end

/-- What a pad block leaves to the page of its channel's envelope. -/
theorem State.padCause_env (s : State) (ch : Nat) : (s.padCause ch).fbk = s.fbk ∧ (s.padCause ch).envBlk = s.envBlk ∧
    (s.padCause ch).envNotify = s.envNotify := by
  have h := s.eventless_padCause ch
  have hfbk : (s.padCause ch).eventless.fbk = s.eventless.fbk := by rw [h]
  have hblk : (s.padCause ch).eventless.envBlk = s.eventless.envBlk := by rw [h]
  have hnotify : (s.padCause ch).eventless.envNotify = s.eventless.envNotify := by rw [h]
  exact ⟨hfbk, hblk, hnotify⟩

end Sys2Proof.Machine
end

section
/-! PROOF. Latch sets of a feedback page: the words that show one, the stream to the island, and the envelope (R212, R216, R220). -/

namespace Sys2Proof.Machine

/-! Fields put one after the other. -/

/-- Two fields of a page do not overlap. -/
abbrev Fld.Distinct (f g : Fld) : Prop := f.off ≠ g.off ∨ f.Apart g

/-- Values put into fields of a page one after the other. -/
def State.putPairs (s : State) (p : Nat) (l : List (Fld × Nat)) : State := l.foldl (fun t x => t.put p x.1 x.2) s

theorem State.get_put_distinct (s : State) (p : Nat) {f g : Fld} (v : Nat) (h : f.lo ≤ f.hi) (h36 : f.hi < 36) (hg : g.lo ≤ g.hi)
    (hd : f.Distinct g) : (s.put p f v).get p g = s.get p g := by
  by_cases ho : g.off = f.off
  · exact State.get_put_field _ _ _ _ _ _ h h36 hg (hd.resolve_left (not_not.mpr ho.symm))
  · exact State.get_put_word _ _ _ _ _ _ (by omega)

section
variable {l : List (Fld × Nat)} (hfit : ∀ x ∈ l, x.1.lo ≤ x.1.hi ∧ x.1.hi < 36)
include hfit

theorem State.get_putPairs_ne {g : Fld} (hg : g.lo ≤ g.hi) (h : ∀ x ∈ l, x.1.Distinct g) (s : State) (p : Nat) :
    (s.putPairs p l).get p g = s.get p g := by
  induction l generalizing s with
  | nil => rfl
  | cons x l ih =>
    obtain ⟨hle, h36⟩ := hfit x (by simp)
    rw [State.putPairs, List.foldl_cons, ← State.putPairs, ih (fun y hy => hfit y (by simp [hy])) (fun y hy => h y (by simp [hy])),
      State.get_put_distinct _ _ _ hle h36 hg (h x (by simp))]

theorem State.get_putPairs_mem (hd : l.Pairwise fun x y => x.1.Distinct y.1) {f : Fld} {v : Nat} (hf : (f, v) ∈ l) (s : State) (p : Nat) :
    (s.putPairs p l).get p f = v % 2 ^ (f.hi + 1 - f.lo) := by
  induction l generalizing s with
  | nil => exact absurd hf List.not_mem_nil
  | cons x l ih =>
    have hrest : ∀ y ∈ l, y.1.lo ≤ y.1.hi ∧ y.1.hi < 36 := fun y hy => hfit y (by simp [hy])
    obtain ⟨hle, h36⟩ := hfit x (by simp)
    rw [State.putPairs, List.foldl_cons, ← State.putPairs]
    obtain rfl | hm := List.mem_cons.mp hf
    · have hout : ∀ y ∈ l, y.1.Distinct f := fun y hy => (List.rel_of_pairwise_cons hd hy).imp Ne.symm Or.symm
      rw [State.get_putPairs_ne hrest hle hout, State.get_put_same _ _ _ _ hle h36]
    · exact ih hrest hd.of_cons hm _

end

/-- A word that is one field. -/
theorem State.reg_eq_get (s : State) (p : Nat) {f : Fld} (hlo : f.lo = 0) (hhi : f.hi = 35) : s.reg (p + f.off) = s.get p f := by
  have h := s.reg_lt (p + f.off)
  rw [State.get, fldGet, hlo, hhi]
  omega

/-! The words of a Prism set (R212). -/

/-- The fields that show a set, with their values. -/
def latchPairs (x : LatchSet) : List (Fld × Nat) :=
  [(FBK_LAT_HI.p, p72Hi x.pos), (FBK_LAT_LO.p, p72Lo x.pos), (FBK_LAT_SPD.v, unsint 36 (clampI (-(2 ^ 35)) (2 ^ 35 - 1) x.spd)),
    (FBK_LAT_THI.t, t72Hi x.t64), (FBK_LAT_TLO.t, t72Lo x.t64), (FBK_LAT_ST.phist, b2n x.phist), (FBK_LAT_ST.shist, b2n x.shist),
    (FBK_LAT_ST.unc, b2n x.unc), (FBK_LAT_ST.ref, b2n x.ref), (FBK_LAT_ST.fresh, b2n x.fresh), (FBK_LAT_ST.amp, b2n x.amp)]

/-- The fields that show a set. -/
def latchFields : List Fld :=
  [FBK_LAT_HI.p, FBK_LAT_LO.p, FBK_LAT_SPD.v, FBK_LAT_THI.t, FBK_LAT_TLO.t, FBK_LAT_ST.phist, FBK_LAT_ST.shist, FBK_LAT_ST.unc,
    FBK_LAT_ST.ref, FBK_LAT_ST.fresh, FBK_LAT_ST.amp]

theorem latchFields_fit : ∀ f ∈ latchFields, f.lo ≤ f.hi ∧ f.hi < 36 ∧ f.off ≠ 3 ∧ f.off ≠ 5 ∧ f.Distinct FBK_LAT_ST.seq := by decide

theorem latchFields_off : ∀ f ∈ latchFields, f.off < 0x100 := by decide

theorem latchFields_distinct : latchFields.Pairwise Fld.Distinct := by decide

section
variable (x : LatchSet)

theorem mem_latchFields {y : Fld × Nat} (h : y ∈ latchPairs x) : y.1 ∈ latchFields := List.mem_map_of_mem (f := Prod.fst) h

theorem latchPairs_fit : ∀ y ∈ latchPairs x, y.1.lo ≤ y.1.hi ∧ y.1.hi < 36 := fun y hy =>
  have ⟨hle, h36, _⟩ := latchFields_fit y.1 (mem_latchFields x hy)
  ⟨hle, h36⟩

theorem latchPairs_distinct : (latchPairs x).Pairwise fun y z => y.1.Distinct z.1 := List.pairwise_map.mp latchFields_distinct

variable (s : State) (ch : Nat)

theorem State.putLatch_eq : s.putLatch ch x =
    (((s.putPairs (pFbk ch) (latchPairs x)).setFb ch { (s.putPairs (pFbk ch) (latchPairs x)).fb ch with inUse := some x, amp := false }).incMod
      (pFbk ch) FBK_LAT_ST.seq).ev (pFbk ch) 0 := by
  unfold State.putLatch
  rfl

/-- A set as it is shown. -/
theorem State.get_putLatch {f : Fld} {v : Nat} (h : (f, v) ∈ latchPairs x) :
    (s.putLatch ch x).get (pFbk ch) f = v % 2 ^ (f.hi + 1 - f.lo) := by
  obtain ⟨hle, -, h3, h5, hseq⟩ := latchFields_fit f (mem_latchFields x h)
  rw [State.putLatch_eq, State.get_ev_ne _ _ _ (by omega) (by omega), State.incMod,
    State.get_put_distinct _ _ _ (by decide) (by decide) hle (hseq.imp Ne.symm Or.symm), State.get_setFb]
  exact State.get_putPairs_mem (latchPairs_fit x) (latchPairs_distinct x) h s _

theorem State.get_putLatch_seq : (s.putLatch ch x).get (pFbk ch) FBK_LAT_ST.seq = (s.get (pFbk ch) FBK_LAT_ST.seq + 1) % 2 ^ 16 := by
  have hout : ∀ y ∈ latchPairs x, y.1.Distinct FBK_LAT_ST.seq := fun y hy =>
    have ⟨_, _, _, _, hseq⟩ := latchFields_fit y.1 (mem_latchFields x hy)
    hseq
  rw [State.putLatch_eq, State.get_ev_ne _ _ _ (by simp) (by simp), State.get_incMod_same _ _ _ (by decide) (by decide), State.get_setFb,
    State.get_putPairs_ne (latchPairs_fit x) (by decide) hout]
  rfl

theorem State.ev_putLatch : bitN ((s.putLatch ch x).get (pFbk ch) PAGE_EV.ev) 0 = true := by
  rw [State.putLatch_eq, State.get_ev_ev _ _ (by decide), bitN_setBitN, beq_self_eq_true, Bool.or_true]

theorem State.flag_putLatch {f : Fld} {b : Bool} (h : (f, b2n b) ∈ latchPairs x) (hw : f.hi = f.lo) :
    (s.putLatch ch x).flag (pFbk ch) f = b := by
  rw [State.flag, s.get_putLatch x ch h, hw, Nat.add_sub_cancel_left]
  cases b <;> rfl

theorem State.getI_putLatch_spd : (s.putLatch ch x).getI (pFbk ch) FBK_LAT_SPD.v = clampI (-(2 ^ 35)) (2 ^ 35 - 1) x.spd := by
  obtain ⟨hlo, hhi⟩ := clampI_bounds (show -(2 ^ 35) ≤ (2 ^ 35 - 1 : Int) by decide) x.spd
  rw [State.getI, s.get_putLatch x ch (v := unsint 36 (clampI (-(2 ^ 35)) (2 ^ 35 - 1) x.spd)) (by simp [latchPairs])]
  show sint 36 (unsint 36 _ % 2 ^ 36) = _
  rw [Nat.mod_eq_of_lt (unsint_lt 36 _)]
  exact sint_unsint 35 hlo (by omega)

theorem State.reg_putLatch {f : Fld} {v : Nat} (hlo : f.lo = 0) (hhi : f.hi = 35) (h : (f, v) ∈ latchPairs x) :
    (s.putLatch ch x).reg (pFbk ch + f.off) = v % 2 ^ 36 := by
  rw [State.reg_eq_get _ _ hlo hhi, s.get_putLatch x ch h, hhi, hlo]

theorem State.putPairs_fbk (p : Nat) (l : List (Fld × Nat)) : (s.putPairs p l).fbk = s.fbk := by
  induction l generalizing s with
  | nil => rfl
  | cons y l ih =>
    rw [State.putPairs, List.foldl_cons, ← State.putPairs, ih]
    rfl

end

end Sys2Proof.Machine
end

section
/-! PROOF. The sets and the latches of a feedback page, their reads, and the edges of an emulating page (R212 to R216, R220, R223, R224). -/

namespace Sys2Proof.Machine

/-! What a set leaves. -/

theorem State.putPairs_regs (s : State) (p : Nat) (l : List (Fld × Nat)) : s.putPairs p l = { s with regs := (s.putPairs p l).regs } := by
  induction l generalizing s with
  | nil => rfl
  | cons y l ih =>
    rw [State.putPairs, List.foldl_cons, ← State.putPairs]
    exact (ih (s.put p y.1 y.2)).trans rfl

theorem State.fb_ev (s : State) (p k e : Nat) : (s.ev p k).fb e = s.fb e := by
  obtain ⟨_, _, _, _, h⟩ := s.ev_frame p k
  rw [h]
  rfl

theorem State.envNotify_ev (s : State) (p k : Nat) : (s.ev p k).envNotify = s.envNotify := by
  obtain ⟨_, _, _, _, h⟩ := s.ev_frame p k
  rw [h]

theorem State.envBlk_put (s : State) (p : Nat) (f : Fld) (v : Nat) : (s.put p f v).envBlk = s.envBlk := rfl
theorem State.envNotify_put (s : State) (p : Nat) (f : Fld) (v : Nat) : (s.put p f v).envNotify = s.envNotify := rfl
theorem State.envNotify_setFb (s : State) (e : Nat) (r : FbkSt) : (s.setFb e r).envNotify = s.envNotify := rfl

theorem State.putLatch_frame (s : State) (ch : Nat) (x : LatchSet) :
    (s.putLatch ch x).fb ch = { s.fb ch with inUse := some x, amp := false } ∧ (s.putLatch ch x).envNotify = s.envNotify := by
  have hfb : (s.putPairs (pFbk ch) (latchPairs x)).fb ch = s.fb ch := State.fb_of_fbk (s.putPairs_fbk _ _) ch
  have hnotify : (s.putPairs (pFbk ch) (latchPairs x)).envNotify = s.envNotify := by rw [State.putPairs_regs]
  rw [State.putLatch_eq, State.fb_ev, State.envNotify_ev, State.incMod, State.fb_put, State.fb_setFb_same, hfb,
    State.envNotify_put, State.envNotify_setFb]
  exact ⟨rfl, hnotify⟩

section
variable (s : State) (ch : Nat) (x : LatchSet)

theorem State.streamSet_stream : Tab.get (fun _ => none) (s.streamSet ch x).stream ch = some x := by
  simp only [State.streamSet, Tab.get_set_same]

theorem State.streamSet_regs (h : Tab.get (fun _ => none) s.stream ch = none) : (s.streamSet ch x).regs = s.regs := by
  simp only [State.streamSet, h]

theorem State.streamSet_frame : (s.streamSet ch x).fbk = s.fbk ∧ (s.streamSet ch x).envNotify = s.envNotify := by
  simp only [State.streamSet]
  split
  · exact ⟨rfl, rfl⟩
  · split <;> exact ⟨rfl, rfl⟩

theorem State.regW_streamSet {o : Nat} (hc : ch < 96) (ho : o < 0x100) :
    (s.streamSet ch x).regW (pFbk ch + o) = s.regW (pFbk ch + o) := by
  have hne : pFbk ch + o ≠ pSafe 3 + (0x10 + 1 * ch) := by unfold pFbk pSafe; omega
  simp only [State.streamSet]
  split
  · exact State.regW_of_regs rfl
  · split
    · exact (State.regW_of_regs rfl).trans (State.regW_put_ne s (pSafe 3) (SAFE_CH.ovr ch) _ hne)
    · exact State.regW_of_regs rfl

theorem State.reg_streamSet {o : Nat} (hc : ch < 96) (ho : o < 0x100) : (s.streamSet ch x).reg (pFbk ch + o) = s.reg (pFbk ch + o) :=
  congrArg BitVec.toNat (s.regW_streamSet ch x hc ho)

theorem State.get_streamSet (hc : ch < 96) {f : Fld} (hf : f.off < 0x100) : (s.streamSet ch x).get (pFbk ch) f = s.get (pFbk ch) f :=
  congrArg (fun w : Word => fldGet w.toNat f) (s.regW_streamSet ch x hc hf)

end

/-! LATCH_SET_READY (R212, R216, R220). -/

/-- The oldest latch leaves the page with its set. -/
def State.latchTaken (s : State) (ch : Nat) (q : PendLatch) (rest : List PendLatch) : State :=
  s.setFb ch { s.fb ch with pend := rest, prevPos := some (s.formSet ch q).pos }

/-- The set of a latch appears, and enters the stream to the island. -/
def State.setAppears (s : State) (ch : Nat) (q : PendLatch) (rest : List PendLatch) : State :=
  (if q.prism then (s.latchTaken ch q rest).putLatch ch (s.formSet ch q) else s.latchTaken ch q rest).streamSet ch (s.formSet ch q)

section
variable {s : State} {ch : Nat}

theorem doLatchSetReady_none (h : (s.fb ch).pend = []) : doLatchSetReady ch s = s := by
  simp only [doLatchSetReady, h, ite_self]

section
variable {q : PendLatch} {rest : List PendLatch} (hp : (s.fb ch).pend = q :: rest)
include hp

theorem doLatchSetReady_early (h : setComplete s.now (s.fbkMode ch) q = false) : doLatchSetReady ch s = s := by
  simp only [doLatchSetReady, hp, h, if_true, ite_self]

theorem doLatchSetReady_complete (hc : ch < 96) (h : setComplete s.now (s.fbkMode ch) q = true) : doLatchSetReady ch s =
    if s.fbkOutside ch (s.formSet ch q) then
      (((s.setAppears ch q rest).envViolate ch).put (pFbk ch) FBK_BLK.envblk 1).evC (pFbk ch) 8
    else s.setAppears ch q rest := by
  simp only [doLatchSetReady]
  rw [if_neg (by omega)]
  split
  next hn => exact absurd (hn.symm.trans hp) (by simp)
  next q' rest' hq =>
    obtain ⟨rfl, rfl⟩ := List.cons.inj (hq.symm.trans hp)
    rw [if_neg (by simp [h])]
    rfl

end

theorem State.fb_setAppears (s : State) (ch : Nat) (q : PendLatch) (rest : List PendLatch) :
    ((s.setAppears ch q rest).fb ch).pend = rest ∧ ((s.setAppears ch q rest).fb ch).prevPos = some (s.formSet ch q).pos ∧
      (q.prism = true → ((s.setAppears ch q rest).fb ch).inUse = some (s.formSet ch q)) ∧
      (s.setAppears ch q rest).envNotify = s.envNotify := by
  have htaken : (s.latchTaken ch q rest).fb ch = { s.fb ch with pend := rest, prevPos := some (s.formSet ch q).pos } :=
    State.fb_setFb_same _ _ _
  have hnotify : (s.latchTaken ch q rest).envNotify = s.envNotify := rfl
  obtain ⟨hfb, hput⟩ := (s.latchTaken ch q rest).putLatch_frame ch (s.formSet ch q)
  unfold State.setAppears
  cases hq : q.prism
  · obtain ⟨hfbk, hstream⟩ := (s.latchTaken ch q rest).streamSet_frame ch (s.formSet ch q)
    simp only [Bool.false_eq_true, if_false, State.fb_of_fbk hfbk, htaken, hstream, hnotify, false_implies, and_self]
  · obtain ⟨hfbk, hstream⟩ := ((s.latchTaken ch q rest).putLatch ch (s.formSet ch q)).streamSet_frame ch (s.formSet ch q)
    simp only [if_true, State.fb_of_fbk hfbk, hfb, htaken, hstream, hput, hnotify, true_implies, and_self]

theorem State.setAppears_stream (s : State) (ch : Nat) (q : PendLatch) (rest : List PendLatch) :
    Tab.get (fun _ => none) (s.setAppears ch q rest).stream ch = some (s.formSet ch q) := State.streamSet_stream _ _ _

theorem State.setAppears_prism (rest : List PendLatch) {q : PendLatch} (h : q.prism = true) : s.setAppears ch q rest =
    ((s.latchTaken ch q rest).putLatch ch (s.formSet ch q)).streamSet ch (s.formSet ch q) := by
  rw [State.setAppears, if_pos h]

section
variable (hc : ch < 96) (rest : List PendLatch) {q : PendLatch} (hq : q.prism = true)
include hc hq

theorem State.reg_setAppears (f : Fld) {v : Nat} (hlo : f.lo = 0) (hhi : f.hi = 35) (h : (f, v) ∈ latchPairs (s.formSet ch q)) :
    (s.setAppears ch q rest).reg (pFbk ch + f.off) = v % 2 ^ 36 := by
  rw [State.setAppears_prism rest hq, State.reg_streamSet _ _ _ hc (latchFields_off f (mem_latchFields _ h)),
    State.reg_putLatch _ _ _ hlo hhi h]

theorem State.flag_setAppears {f : Fld} {b : Bool} (hw : f.hi = f.lo) (h : (f, b2n b) ∈ latchPairs (s.formSet ch q)) :
    (s.setAppears ch q rest).flag (pFbk ch) f = b := by
  rw [State.setAppears_prism rest hq, State.flag, State.get_streamSet _ _ _ hc (latchFields_off f (mem_latchFields _ h)), ← State.flag,
    State.flag_putLatch _ _ _ h hw]

theorem State.getI_setAppears_spd :
    (s.setAppears ch q rest).getI (pFbk ch) FBK_LAT_SPD.v = clampI (-(2 ^ 35)) (2 ^ 35 - 1) (s.formSet ch q).spd := by
  rw [State.setAppears_prism rest hq, State.getI, State.get_streamSet _ _ _ hc (by decide), ← State.getI, State.getI_putLatch_spd]

theorem State.get_setAppears_seq :
    (s.setAppears ch q rest).get (pFbk ch) FBK_LAT_ST.seq = (s.get (pFbk ch) FBK_LAT_ST.seq + 1) % 2 ^ 16 := by
  rw [State.setAppears_prism rest hq, State.get_streamSet _ _ _ hc (by decide), State.get_putLatch_seq, State.latchTaken, State.get_setFb]

theorem State.ev_setAppears : bitN ((s.setAppears ch q rest).get (pFbk ch) PAGE_EV.ev) 0 = true := by
  rw [State.setAppears_prism rest hq, State.get_streamSet _ _ _ hc (by decide), State.ev_putLatch]

end

theorem State.setAppears_regs (rest : List PendLatch) {q : PendLatch} (h : q.prism = false)
    (hs : Tab.get (fun _ => none) s.stream ch = none) : (s.setAppears ch q rest).regs = s.regs := by
  rw [State.setAppears, if_neg (by simp [h])]
  exact State.streamSet_regs (s.latchTaken ch q rest) ch _ hs

/-- A violation of the envelope blocks the channel and tells the island, and leaves the records of the pages. -/
theorem State.envViolate_spec (s : State) (ch : Nat) : ch ∈ (s.envViolate ch).envBlk ∧
    (s.envViolate ch).envNotify = s.envNotify ++ [ch] ∧ (s.envViolate ch).fbk = s.fbk := by
  have h : s.envViolate ch = (s.envBlocked ch).padCause ch := by
    unfold State.envViolate
    rfl
  obtain ⟨hfbk, hblk, hnotify⟩ := (s.envBlocked ch).padCause_env ch
  rw [h, hfbk, hblk, hnotify]
  exact ⟨s.mem_envBlocked ch, rfl, rfl⟩

/-! The envelope (R220). -/

theorem State.fbkOutside_off (x : LatchSet) (hs : s.get (pFbk ch) FBK_ENV_CTL.sen = 0) (hp : s.get (pFbk ch) FBK_ENV_CTL.pwin = 0)
    (hd : s.get (pFbk ch) FBK_ENV_CTL.dir = 0) : s.fbkOutside ch x = false := by
  simp only [State.fbkOutside, hs, hp, hd]
  cases x.prev <;> rfl

theorem State.fbkOutside_speed {x : LatchSet} (hs : s.get (pFbk ch) FBK_ENV_CTL.sen = 1) (hx : x.shist = true)
    (hv : s.get (pFbk ch) FBK_ENV_SPD.vmax < x.spd.natAbs) : s.fbkOutside ch x = true := by
  simp [State.fbkOutside, hs, hx, hv]

theorem State.fbkOutside_below {x : LatchSet} (hp : s.get (pFbk ch) FBK_ENV_CTL.pwin = 1) (hx : x.phist = true) (hr : x.ref = true)
    (hu : x.unc = false) (hlo : x.pos < p72 (s.get (pFbk ch) FBK_ENV_PLO_HI.p) (s.get (pFbk ch) FBK_ENV_PLO_LO.p)) :
    s.fbkOutside ch x = true := by
  simp [State.fbkOutside, hp, hx, hr, hu, hlo]

/-! Latches (R212, R213, R215). -/

theorem doWatchLatch_early (h : s.t64 0 < (s.fb ch).lastL + 6400000) : doWatchLatch ch s = s := if_neg (by omega)

theorem State.fbkLatch_off (h : s.fbkMode ch = 0 ∨ s.fbkMode ch = 5) (prism : Bool) : s.fbkLatch ch prism = s := by
  refine if_pos ?_
  rcases h with h | h <;> simp [h, inRange]

theorem doWatchLatch_off (h : s.fbkMode ch = 0 ∨ s.fbkMode ch = 5) : doWatchLatch ch s = s := by
  rw [doWatchLatch, State.fbkLatch_off h, ite_self]

theorem State.fbkLatch_joins {q : PendLatch} (hm : inRange (s.fbkMode ch) 1 4 = true) (hq : q ∈ (s.fb ch).pend) (ha : q.at_ = s.now) :
    s.fbkLatch ch true = s.setFb ch { s.fb ch with pend := markPrism (s.fb ch).pend s.now } := by
  have hany : (s.fb ch).pend.any (fun q => q.at_ == s.now) = true := List.any_eq_true.mpr ⟨q, hq, by simp [ha]⟩
  simp only [State.fbkLatch]
  rw [if_neg (by simp [hm]), if_pos ⟨trivial, hany⟩]

section
variable (hc : ch < 96) (hdue : (s.fb ch).lastL + 6400000 ≤ s.t64 0) (hm : inRange (s.fbkMode ch) 1 4 = true)
include hc hdue hm

theorem doWatchLatch_taken (hb : s.fbkBusy ch = false) : doWatchLatch ch s =
    s.setFb ch { s.fb ch with pend := (s.fb ch).pend ++ [s.newLatch ch false], lastL := s.t64 0 } := by
  rw [doWatchLatch, if_pos ⟨hc, hdue⟩]
  simp only [State.fbkLatch]
  rw [if_neg (by simp [hm]), if_neg (by simp), if_neg (by simp [hb])]

theorem doWatchLatch_lost (hb : s.fbkBusy ch = true) : doWatchLatch ch s = s.ev (pFbk ch) 7 := by
  rw [doWatchLatch, if_pos ⟨hc, hdue⟩]
  simp only [State.fbkLatch]
  rw [if_neg (by simp [hm]), if_neg (by simp), if_pos hb]

end

theorem State.fbkBusy_of_count (h : s.fbkMode ch = 1 ∨ s.fbkMode ch = 2) : s.fbkBusy ch = false := by
  rcases h with h | h <;> simp [State.fbkBusy, h]

theorem State.fbkBusy_of_wait (h : s.fbkMode ch = 3 ∨ s.fbkMode ch = 4) (hw : s.now < (s.fb ch).wait) : s.fbkBusy ch = true := by
  rcases h with h | h <;> simp [State.fbkBusy, h, hw]

/-! FBK_LAT_READ (R214). -/

theorem doFbkLatRead_core {c : Nat} (hc : c < 64) (hch : ch < 96) : doFbkLatRead c ch s =
    { s with rdata := s.regW (pFbk ch + 0x48) }.holdSet c 2 (pFbk ch + 0x48) [s.regW (pFbk ch + 0x49), s.regW (pFbk ch + 0x4A),
      s.regW (pFbk ch + 0x4B), s.regW (pFbk ch + 0x4C), s.regW (pFbk ch + 0x4D)] := by
  simp only [doFbkLatRead]
  rw [if_neg (by omega), if_pos hc]
  rfl

/-! Emulation edges (R223, R224). -/

theorem State.fb_emuLag (s : State) (e ch : Nat) : (s.emuLag e).fb ch = s.fb ch := by
  simp only [State.emuLag]
  split
  · rw [State.fb_ev, State.fb_put, State.fb_put]
  · split
    · rw [State.fb_put, State.fb_put]
    · rw [State.fb_put]

theorem doEmulationEdge_not (h : s.fbkMode ch ≠ 5 ∨ s.emuHeld ch = true ∨ s.emuTarget ch = (s.fb ch).out ∨
    s.now < (s.fb ch).outAt + s.get (pFbk ch) FBK_EMU.minsp) : doEmulationEdge ch s = s := if_pos (.inr h)

theorem doEmulationEdge_steps (hc : ch < 96) (hm : s.fbkMode ch = 5) (hh : s.emuHeld ch = false) (ht : s.emuTarget ch ≠ (s.fb ch).out)
    (hsp : (s.fb ch).outAt + s.get (pFbk ch) FBK_EMU.minsp ≤ s.now) :
    ((doEmulationEdge ch s).fb ch).outAt = s.now ∧
      ((doEmulationEdge ch s).fb ch).out = (s.fb ch).out + (if (s.fb ch).out < s.emuTarget ch then 1 else -1) := by
  have hon : ¬(96 ≤ ch ∨ s.fbkMode ch ≠ 5 ∨ s.emuHeld ch = true ∨ s.emuTarget ch = (s.fb ch).out ∨
      s.now < (s.fb ch).outAt + s.get (pFbk ch) FBK_EMU.minsp) := by
    rintro (h | h | h | h | h)
    · omega
    · exact h hm
    · exact absurd (hh.symm.trans h) (by decide)
    · exact ht h
    · omega
  simp only [doEmulationEdge]
  rw [if_neg hon, State.fb_emuLag, State.fb_setFb_same]
  refine ⟨rfl, ?_⟩
  show (if (s.fb ch).out < s.emuTarget ch then (s.fb ch).out + 1 else (s.fb ch).out - 1) = _
  split <;> rfl

theorem doEmulationZPulseEnd_ends (hc : ch < 96) : doEmulationZPulseEnd ch s = s.setFb ch { s.fb ch with zPulse := false } := if_pos hc

end

end Sys2Proof.Machine
end

section
/-! PROOF. The encoder supplies (R225, R226). -/

namespace Sys2Proof.Machine

/-! What a write of FBK_SUP takes. -/

/-- The fields of FBK_SUP that a write reaches: sel too, until the locks are sealed. -/
def supTaken (isSealed : Bool) : List Fld := if isSealed then [FBK_SUP.en, FBK_SUP.budget] else [FBK_SUP.sel, FBK_SUP.en, FBK_SUP.budget]

theorem fieldsFit_supTaken (b : Bool) : FieldsFit (supTaken b) := by cases b <;> decide

theorem en_mem_supTaken (b : Bool) : FBK_SUP.en ∈ supTaken b := by cases b <;> decide
theorem budget_mem_supTaken (b : Bool) : FBK_SUP.budget ∈ supTaken b := by cases b <;> decide

section
variable {s : State} {ini ch : Nat} {v : Word} (hc : ch < 96)
include hc

theorem State.mergeWord_sup (w : Nat) : s.mergeWord ini (pFbk ch + 0x3C) w =
    (takeFields (supTaken s.olSealed) (s.reg (pFbk ch + 0x3C)) w,
      s.olSealed && fldGet w FBK_SUP.sel != s.get (pFbk ch) FBK_SUP.sel) := by
  have hw : wordFields (pFbk ch + 0x3C) = [FBK_SUP.sel, FBK_SUP.en, FBK_SUP.supok, FBK_SUP.oc, FBK_SUP.budget, FBK_SUP.imeas] :=
    (wordFields_pFbk hc (by decide) (by decide)).trans (by decide)
  rw [State.mergeWord, hw]
  cases hl : s.olSealed
  · simp only [List.foldl, State.mergeField, hl, Bool.false_eq_true, if_false, Bool.false_and, supTaken, takeFields]
  · simp only [List.foldl, State.mergeField, hl, if_true, Bool.false_or, Bool.true_and, supTaken, takeFields]
    rfl

/-- A refused write of a locked field is counted on the page. -/
theorem State.noteRefused_pFbk {o : Nat} (ho : o < 0x100) (r : Bool) : RegsOnly [pFbk ch + 7] s (s.noteRefused (pFbk ch + o) r) :=
  (RegsOnly.refl s _).noteRefused r (by simp [pageOf_pFbk_add ho, lockPage_pFbk hc])

theorem doFbkSupWrite_invalid (h : fldGet v.toNat FBK_SUP.sel = 3 ∨ fldGet v.toNat FBK_SUP.budget = 0 ∨ 35 < fldGet v.toNat FBK_SUP.budget) :
    doFbkSupWrite ini ch v s = if s.olSealed = true ∧ fldGet v.toNat FBK_SUP.sel ≠ s.get (pFbk ch) FBK_SUP.sel
      then (s.refuse (pFbk ch)).ev (pFbk ch) 13 else s.ev (pFbk ch) 13 := by
  simp only [doFbkSupWrite, State.mergeWord_sup hc, State.noteRefused, pageOf_pFbk_add (show 0x3C < 0x100 by decide), Bool.and_eq_true,
    bne_iff_ne]
  rw [if_neg (by omega), if_pos h]
  split <;> rfl

section
variable (hsel : fldGet v.toNat FBK_SUP.sel < 3) (hlo : 1 ≤ fldGet v.toNat FBK_SUP.budget) (hhi : fldGet v.toNat FBK_SUP.budget ≤ 35)
include hsel hlo hhi

/-- A valid write of a supply that is off, before the locks are sealed. -/
theorem doFbkSupWrite_off (hl : s.olSealed = false) (hen : s.get (pFbk ch) FBK_SUP.en = 0) (hon : fldGet v.toNat FBK_SUP.en = 1) :
    doFbkSupWrite ini ch v s =
      if fldGet v.toNat FBK_SUP.sel = 0 ∨ 6000 < s.supTotal + supPower (fldGet v.toNat FBK_SUP.sel) (fldGet v.toNat FBK_SUP.budget)
      then s.ev (pFbk ch) 13
      else (s.setReg (pFbk ch + 0x3C) (takeFields (supTaken false) (s.reg (pFbk ch + 0x3C)) v.toNat)).put (pFbk ch) FBK_SUP.oc 0 := by
  have hoff : ¬s.get (pFbk ch) FBK_SUP.en = 1 := by omega
  have hs : fldGet (takeFields (supTaken false) (s.reg (pFbk ch + 0x3C)) v.toNat) FBK_SUP.sel = fldGet v.toNat FBK_SUP.sel :=
    fldGet_takeFields_mem (fieldsFit_supTaken false) (by decide) _ _
  have hb := fldGet_takeFields_mem (fieldsFit_supTaken false) (budget_mem_supTaken false) (s.reg (pFbk ch + 0x3C)) v.toNat
  have hothers : s.supOthers ch = s.supTotal := by rw [State.supOthers, if_neg hoff, Nat.sub_zero]
  have hkeep : ¬(s.get (pFbk ch) FBK_SUP.en = 1 ∧ fldGet v.toNat FBK_SUP.budget ≠ s.get (pFbk ch) FBK_SUP.budget) := fun h => hoff h.1
  simp only [doFbkSupWrite, State.mergeWord_sup hc, hl, Bool.false_and, State.noteRefused, Bool.false_eq_true, if_false, if_neg hoff,
    if_neg hkeep, hs, hb, hothers]
  rw [if_neg (by omega), if_neg (by omega), if_neg (by omega)]

/-- A write that keeps a supply on is refused without a voltage, and past the module total, before the locks are sealed. -/
theorem doFbkSupWrite_onRefused (hl : s.olSealed = false) (hen : s.get (pFbk ch) FBK_SUP.en = 1) (hon : fldGet v.toNat FBK_SUP.en = 1)
    (hsame : fldGet v.toNat FBK_SUP.budget = s.get (pFbk ch) FBK_SUP.budget)
    (h : fldGet v.toNat FBK_SUP.sel = 0 ∨ 6000 < s.supOthers ch + supPower (fldGet v.toNat FBK_SUP.sel) (fldGet v.toNat FBK_SUP.budget)) :
    doFbkSupWrite ini ch v s = s.ev (pFbk ch) 13 := by
  have hs : fldGet (takeFields (supTaken false) (s.reg (pFbk ch + 0x3C)) v.toNat) FBK_SUP.sel = fldGet v.toNat FBK_SUP.sel :=
    fldGet_takeFields_mem (fieldsFit_supTaken false) (by decide) _ _
  have hheld : fldPut (takeFields (supTaken false) (s.reg (pFbk ch + 0x3C)) v.toNat) FBK_SUP.budget (s.get (pFbk ch) FBK_SUP.budget) =
      takeFields (supTaken false) (s.reg (pFbk ch + 0x3C)) v.toNat := by
    rw [← hsame, ← fldGet_takeFields_mem (fieldsFit_supTaken false) (budget_mem_supTaken false) (s.reg (pFbk ch + 0x3C)) v.toNat,
      fldPut_fldGet _ (by decide)]
  have hb := fldGet_takeFields_mem (fieldsFit_supTaken false) (budget_mem_supTaken false) (s.reg (pFbk ch + 0x3C)) v.toNat
  simp only [doFbkSupWrite, State.mergeWord_sup hc, hl, Bool.false_and, State.noteRefused, Bool.false_eq_true, if_false, if_pos hen, hheld,
    hs, hb]
  rw [if_neg (by omega), if_neg (by omega), if_neg (by omega), if_pos h]

/-- The word of a supply that a write turns off. -/
def State.supOff (s : State) (ch w : Nat) (r : Bool) : State :=
  (((s.noteRefused (pFbk ch + 0x3C) r).setReg (pFbk ch + 0x3C) (takeFields (supTaken s.olSealed) (s.reg (pFbk ch + 0x3C)) w)).put (pFbk ch)
    FBK_SUP.supok 0).put (pFbk ch) FBK_SUP.imeas 0

theorem doFbkSupWrite_turnsOff (hen : s.get (pFbk ch) FBK_SUP.en = 1) (hoff : fldGet v.toNat FBK_SUP.en = 0)
    (hsame : fldGet v.toNat FBK_SUP.budget = s.get (pFbk ch) FBK_SUP.budget) : ∃ r, doFbkSupWrite ini ch v s = s.supOff ch v.toNat r := by
  have hheld : fldPut (takeFields (supTaken s.olSealed) (s.reg (pFbk ch + 0x3C)) v.toNat) FBK_SUP.budget
      (s.get (pFbk ch) FBK_SUP.budget) = takeFields (supTaken s.olSealed) (s.reg (pFbk ch + 0x3C)) v.toNat := by
    rw [← hsame, ← fldGet_takeFields_mem (fieldsFit_supTaken s.olSealed) (budget_mem_supTaken s.olSealed) (s.reg (pFbk ch + 0x3C)) v.toNat,
      fldPut_fldGet _ (by decide)]
  refine ⟨s.olSealed && fldGet v.toNat FBK_SUP.sel != s.get (pFbk ch) FBK_SUP.sel, ?_⟩
  have hkeep : ¬(s.get (pFbk ch) FBK_SUP.en = 1 ∧ fldGet v.toNat FBK_SUP.budget ≠ s.get (pFbk ch) FBK_SUP.budget) := fun h => h.2 hsame
  simp only [doFbkSupWrite, State.mergeWord_sup hc, if_pos hen, if_neg hkeep, hheld]
  rw [if_neg (by omega), if_neg (by omega), if_pos hoff, State.supOff]

end

theorem State.supOff_regs (s : State) (w : Nat) (r : Bool) : RegsOnly [pFbk ch + 7, pFbk ch + 0x3C] s (s.supOff ch w r) := by
  have h : RegsOnly [pFbk ch + 7, pFbk ch + 0x3C] s (s.noteRefused (pFbk ch + 0x3C) r) :=
    (State.noteRefused_pFbk hc (by decide) r).mono (by simp)
  exact ((h.setReg_mem _ (by simp)).put _ (by simp)).put _ (by simp)

end

theorem State.get_supOff (s : State) (ch w : Nat) (r : Bool) : (s.supOff ch w r).get (pFbk ch) FBK_SUP.en = fldGet w FBK_SUP.en ∧
    (s.supOff ch w r).get (pFbk ch) FBK_SUP.supok = 0 ∧ (s.supOff ch w r).get (pFbk ch) FBK_SUP.imeas = 0 := by
  have hfit := fieldsFit_supTaken s.olSealed
  unfold State.supOff
  refine ⟨?_, ?_, State.get_put_of_lt _ _ _ (by decide) (by decide) (by decide)⟩
  · rw [State.get_put_field _ _ _ _ _ _ (by decide) (by decide) (by decide) (by decide),
      State.get_put_field _ _ _ _ _ _ (by decide) (by decide) (by decide) (by decide),
      State.get_setReg_same (p := pFbk ch) (f := FBK_SUP.en) _ rfl (takeFields_lt hfit _ (s.reg_lt _)),
      fldGet_takeFields_mem hfit (en_mem_supTaken _)]
  · rw [State.get_put_field _ _ _ _ _ _ (by decide) (by decide) (by decide) (by decide)]
    exact State.get_put_of_lt _ _ _ (by decide) (by decide) (by decide)

/-- The word of a supply that a write turns on. -/
theorem State.get_supOn (s : State) (ch w : Nat) {f : Fld} (hf : f ∈ supTaken false) :
    ((s.setReg (pFbk ch + 0x3C) (takeFields (supTaken false) (s.reg (pFbk ch + 0x3C)) w)).put (pFbk ch) FBK_SUP.oc 0).get (pFbk ch) f =
      fldGet w f := by
  have hfit : ∀ f ∈ supTaken false, f.off = 0x3C ∧ f.lo ≤ f.hi ∧ FBK_SUP.oc.Apart f := by decide
  obtain ⟨hoff, hle, hapart⟩ := hfit f hf
  rw [State.get_put_field _ _ _ _ _ _ (by decide) (by decide) hle hapart,
    State.get_setReg_takeFields s (fieldsFit_supTaken false) hf hoff]

/-! Supply faults (R226). -/

theorem State.get_supUnc (s : State) (ch : Nat) {f : Fld} (hf : f.off ≠ 2) : (s.supUnc ch).get (pFbk ch) f = s.get (pFbk ch) f := by
  unfold State.supUnc
  split
  · rw [State.setUnc, State.get_put_word _ _ _ _ _ _ (by simp; omega), State.get_setFb]
  · rfl

theorem State.supUnc_sets {s : State} {ch : Nat} (h : inRange (s.fbkMode ch) 1 4 = true) : (s.supUnc ch).get (pFbk ch) FBK_BLK.unc = 1 := by
  rw [State.supUnc, if_pos h, State.get_setUnc]

section
variable {s : State} {ch : Nat}

theorem doSupplyOk_off (h : s.get (pFbk ch) FBK_SUP.en = 0) : doSupplyOk ch s = s := if_neg (by omega)

theorem doSupplyUndervoltage_off (h : s.get (pFbk ch) FBK_SUP.en = 0) : doSupplyUndervoltage ch s = s := if_neg (by omega)

theorem doSupplyOvercurrent_not {ma : Nat} (h : s.get (pFbk ch) FBK_SUP.en = 0 ∨ ma ≤ 11 * s.get (pFbk ch) FBK_SUP.budget ∧ ma ≤ 400) :
    doSupplyOvercurrent ch ma s = s := if_neg (by omega)

section
variable (hc : ch < 96) (hen : s.get (pFbk ch) FBK_SUP.en = 1)
include hc hen

theorem doSupplyOk_on : doSupplyOk ch s = s.put (pFbk ch) FBK_SUP.supok 1 := if_pos ⟨hc, hen⟩

theorem doSupplyUndervoltage_on :
    doSupplyUndervoltage ch s = ((s.put (pFbk ch) FBK_SUP.supok 0).supUnc ch).evC (pFbk ch) 12 := if_pos ⟨hc, hen⟩

/-- The word of a supply that overcurrent turned off. -/
def State.supTripped (s : State) (ch ma : Nat) : State :=
  (((s.put (pFbk ch) FBK_SUP.imeas (satN 0xFFF ma)).put (pFbk ch) FBK_SUP.oc 1).put (pFbk ch) FBK_SUP.en 0).put (pFbk ch) FBK_SUP.supok 0

theorem doSupplyOvercurrent_on {ma : Nat} (h : 11 * s.get (pFbk ch) FBK_SUP.budget < ma ∨ 400 < ma) :
    doSupplyOvercurrent ch ma s = ((s.supTripped ch ma).supUnc ch).evC (pFbk ch) 12 := if_pos ⟨hc, hen, h⟩

end

theorem State.supTripped_regs (s : State) (ch ma : Nat) : FbkRegs [pFbk ch + 0x3C] s (s.supTripped ch ma) := by
  have h : FbkRegs [pFbk ch + 0x3C] s s := FbkRegs.refl _ s
  unfold State.supTripped
  exact (((h.put (by simp)).put (by simp)).put (by simp)).put (by simp)

theorem State.get_supTripped (s : State) (ch ma : Nat) : (s.supTripped ch ma).get (pFbk ch) FBK_SUP.en = 0 ∧
    (s.supTripped ch ma).get (pFbk ch) FBK_SUP.supok = 0 ∧ (s.supTripped ch ma).get (pFbk ch) FBK_SUP.oc = 1 ∧
    (s.supTripped ch ma).get (pFbk ch) FBK_SUP.imeas = min 0xFFF ma := by
  have hma : satN 0xFFF ma < 2 ^ 12 := by rw [satN_eq_min]; omega
  unfold State.supTripped
  refine ⟨?_, State.get_put_of_lt _ _ _ (by decide) (by decide) (by decide), ?_, ?_⟩
  · rw [State.get_put_field _ _ _ _ _ _ (by decide) (by decide) (by decide) (by decide)]
    exact State.get_put_of_lt _ _ _ (by decide) (by decide) (by decide)
  · rw [State.get_put_field _ _ _ _ _ _ (by decide) (by decide) (by decide) (by decide),
      State.get_put_field _ _ _ _ _ _ (by decide) (by decide) (by decide) (by decide)]
    exact State.get_put_of_lt _ _ _ (by decide) (by decide) (by decide)
  · rw [State.get_put_field _ _ _ _ _ _ (by decide) (by decide) (by decide) (by decide),
      State.get_put_field _ _ _ _ _ _ (by decide) (by decide) (by decide) (by decide),
      State.get_put_field _ _ _ _ _ _ (by decide) (by decide) (by decide) (by decide), ← satN_eq_min]
    exact State.get_put_of_lt _ _ _ (by decide) (by decide) hma

end

end Sys2Proof.Machine

namespace Sys2Proof

open Machine

/-- Settles O33: a set appears by one rule for Prism and watch latches, and a write of FBK_SUP merges the fields that the locks leave it. -/
theorem feedbackLatchesAndSupply : Obligations.FeedbackLatchesAndSupply := by
  refine ⟨?none, ?early, ?watchSet, ?prismSet, ?outside, fun s ch x => ⟨State.fbkOutside_off x, State.fbkOutside_speed,
    State.fbkOutside_below⟩, ?latchEarly, ?latchTaken, fun s ch prism => ⟨rfl, rfl, rfl, rfl, rfl, rfl, rfl, rfl⟩, ?latchJoins, ?latchLost,
    ?latchOff, ?latRead, ?emuOff, ?emuSteps, ?zPulse, ?supInvalid, ?supOn, ?supOffRefused, ?supOnRefused, ?supTurnsOff, ?faultOff,
    ?supplyOk, ?overcurrent, ?noOvercurrent, ?undervoltage⟩
  case none =>
    intro s ch h
    exact State.next_clocked_idle (doLatchSetReady_none h)
  case early =>
    intro s ch q rest hp h
    exact State.next_clocked_idle (doLatchSetReady_early hp h)
  case watchSet =>
    intro s ch q rest hon hc hp h hq hout hs
    obtain ⟨hpend, hprev, -, -⟩ := s.fb_setAppears ch q rest
    exact ⟨_, State.next_clocked hon ((doLatchSetReady_complete hp hc h).trans (if_neg (by simp [hout]))), hpend, hprev,
      s.setAppears_stream ch q rest, State.setAppears_regs rest hq hs⟩
  case prismSet =>
    intro s ch q rest hon hc hp h hq hout
    obtain ⟨hpend, -, huse, -⟩ := s.fb_setAppears ch q rest
    refine ⟨_, State.next_clocked hon ((doLatchSetReady_complete hp hc h).trans (if_neg (by simp [hout]))), hpend, huse hq,
      s.setAppears_stream ch q rest, ?_⟩
    refine ⟨State.reg_setAppears hc rest hq FBK_LAT_HI.p rfl rfl (by simp [latchPairs]),
      State.reg_setAppears hc rest hq FBK_LAT_LO.p rfl rfl (by simp [latchPairs]), State.getI_setAppears_spd hc rest hq,
      State.reg_setAppears hc rest hq FBK_LAT_THI.t rfl rfl (by simp [latchPairs]),
      State.reg_setAppears hc rest hq FBK_LAT_TLO.t rfl rfl (by simp [latchPairs]), ?_, ?_, ?_, ?_, ?_, ?_,
      State.get_setAppears_seq hc rest hq, State.ev_setAppears hc rest hq⟩
    all_goals exact State.flag_setAppears hc rest hq rfl (by simp [latchPairs])
  case outside =>
    intro s ch q rest hon hc hp h hout
    obtain ⟨hpend, -, -, hnotify⟩ := s.fb_setAppears ch q rest
    obtain ⟨hblk, htold, hfbk⟩ := (s.setAppears ch q rest).envViolate_spec ch
    refine ⟨_, State.next_clocked hon ((doLatchSetReady_complete hp hc h).trans (if_pos hout)), ?_, ?_,
      State.get_put_of_lt _ _ _ (by decide) (by decide) (by decide), ?_⟩
    · rwa [State.envBlk_put]
    · rw [State.envNotify_put, htold, hnotify]
    · rw [State.fb_put, State.fb_of_fbk hfbk, hpend]
  case latchEarly =>
    intro s ch h
    exact State.next_clocked_idle (doWatchLatch_early h)
  case latchTaken =>
    intro s ch hon hc hdue h
    obtain hm | ⟨hm, hb⟩ := or_assoc.mpr h
    · exact State.next_clocked hon (doWatchLatch_taken hc hdue (by rcases hm with hm | hm <;> rw [hm] <;> decide) (State.fbkBusy_of_count hm))
    · exact State.next_clocked hon (doWatchLatch_taken hc hdue (by rcases hm with hm | hm <;> rw [hm] <;> decide) hb)
  case latchJoins =>
    intro s ch q hm hq ha
    exact State.fbkLatch_joins hm hq ha
  case latchLost =>
    intro s ch hon hc hdue hm hw
    exact State.next_clocked hon (doWatchLatch_lost hc hdue (by rcases hm with hm | hm <;> rw [hm] <;> decide) (State.fbkBusy_of_wait hm hw))
  case latchOff =>
    intro s ch h
    exact State.next_clocked_idle (doWatchLatch_off h)
  case latRead =>
    intro s c ch ht hc hch
    refine ⟨_, congrArg Host.Outcome.next ((State.readWord_of_takes ht _).trans (doFbkLatRead_core hc hch)), rfl, ?_, rfl⟩
    exact State.held?_holdSet_same _ _ _ _ _
  case emuOff =>
    intro s ch h
    exact State.next_clocked_idle (doEmulationEdge_not h)
  case emuSteps =>
    intro s ch hon hc hm hh ht hsp
    exact ⟨_, State.next_clocked hon rfl, doEmulationEdge_steps hc hm hh ht hsp⟩
  case zPulse =>
    intro s ch hon hc
    exact State.next_clocked hon (doEmulationZPulseEnd_ends hc)
  case supInvalid =>
    intro s ini ch v ht hc h
    exact State.next_writeWord ht (doFbkSupWrite_invalid hc h)
  case supOn =>
    intro s ini ch v ht hc hsel hsel0 hlo hhi hl hen hon htot
    refine ⟨_, State.next_writeWord ht ((doFbkSupWrite_off hc hsel hlo hhi hl hen hon).trans (if_neg (by omega))), ?_,
      State.get_put_of_lt _ _ _ (by decide) (by decide) (by decide), ?_, ?_, ?_⟩
    · rw [State.get_supOn _ _ _ (en_mem_supTaken false), hon]
    · exact State.get_supOn _ _ _ (by decide)
    · exact State.get_supOn _ _ _ (budget_mem_supTaken false)
    · exact (RegsOnly.setReg _ _ _).put _ (by simp)
  case supOffRefused =>
    intro s ini ch v ht hc hsel hlo hhi hl hen hon h
    exact State.next_writeWord ht ((doFbkSupWrite_off hc hsel hlo hhi hl hen hon).trans (if_pos h))
  case supOnRefused =>
    intro s ini ch v ht hc hl hen hon hsame hlo hhi hsel h
    exact State.next_writeWord ht (doFbkSupWrite_onRefused hc hsel hlo hhi hl hen hon hsame h)
  case supTurnsOff =>
    intro s ini ch v ht hc hsel hen hoff hlo hhi hsame
    obtain ⟨r, hr⟩ := doFbkSupWrite_turnsOff (ini := ini) hc hsel hlo hhi hen hoff hsame
    obtain ⟨h1, h2, h3⟩ := s.get_supOff ch v.toNat r
    exact ⟨_, State.next_writeWord ht hr, h1.trans hoff, h2, h3, State.supOff_regs hc s _ r⟩
  case faultOff =>
    intro s ch h
    exact ⟨State.next_of_eq (doSupplyOk_off h), State.next_of_eq (doSupplyUndervoltage_off h),
      fun _ => State.next_of_eq (doSupplyOvercurrent_not (.inl h))⟩
  case supplyOk =>
    intro s ch hc hen
    exact State.next_of_eq (doSupplyOk_on hc hen)
  case overcurrent =>
    intro s ch ma hc hen h
    obtain ⟨h1, h2, h3, h4⟩ := s.get_supTripped ch ma
    refine ⟨_, State.next_of_eq (doSupplyOvercurrent_on hc hen h), ?_, ?_, ?_, ?_, fun hm => State.supUnc_sets ?_⟩
    · rw [State.get_supUnc _ _ (by decide), h1]
    · rw [State.get_supUnc _ _ (by decide), h2]
    · rw [State.get_supUnc _ _ (by decide), h3]
    · rw [State.get_supUnc _ _ (by decide), h4]
    · rwa [(s.supTripped_regs ch ma).fbkMode (by simp [pFbk_add_mod])]
  case noOvercurrent =>
    intro s ch ma hen hb h4
    exact State.next_of_eq (doSupplyOvercurrent_not (.inr ⟨hb, h4⟩))
  case undervoltage =>
    intro s ch hc hen
    have hregs : FbkRegs [pFbk ch + 0x3C] s (s.put (pFbk ch) FBK_SUP.supok 0) := (FbkRegs.refl _ s).put (by simp)
    refine ⟨_, State.next_of_eq (doSupplyUndervoltage_on hc hen), ?_, ?_, fun hm => State.supUnc_sets ?_⟩
    · rw [State.get_supUnc _ _ (by decide)]
      exact State.get_put_of_lt _ _ _ (by decide) (by decide) (by decide)
    · rw [State.get_supUnc _ _ (by decide), State.get_put_field _ _ _ _ _ _ (by decide) (by decide) (by decide) (by decide), hen]
    · rwa [hregs.fbkMode (by simp [pFbk_add_mod])]

end Sys2Proof
end
